-- ==== Sys2Proof/Word.lean ====
section
/-! DEFINITION. The word types of the NLD-6148 register space and of its records. -/
namespace Sys2Proof

/-- A 32-bit register (R524, R525). -/
abbrev Word := BitVec 32

/-- One 128-bit word of a record, a setup or a device time (R31, R46). -/
abbrev Word128 := BitVec 128

/-- One byte of HBM or of a device region. -/
abbrev Byte := BitVec 8

/-- The 10-bit identifier of an initiator (R537). -/
abbrev Ini := BitVec 10

end Sys2Proof
end

