-- ==== Sys2Proof/Syntax.lean ====
section
/-! DEFINITION. The commands of the block: one constructor per row of spec/opcode_table.json, in its order. An initiator `i` is who sends a register access; other operands name the unit an event concerns and what it brings. -/
namespace Sys2Proof

/-- The posted blocks (R524, R531): the timebase, the sample ports, the display, the auxiliary converter, the stream-out ports and the management port. -/
inductive PostedBlock where
  | timebase | port (p : Fin 6) | display | auxConverter | streamOut (p : Fin 2) | management
deriving DecidableEq, Repr

/-- A command. -/
inductive Instr where
  /-- REGISTER_WRITE (R528). A write to a register with no row of its own takes effect in its block, or completes as a late write, a denied access or a size error. -/
  | registerWrite (i : Ini) (addr size data : Nat)
  /-- PAIR_LOW_READ (R529). A read of the low word of a 64-bit pair latches the high word into the shadow and tags the shadow with the reading initiator. -/
  | pairLowRead (i : Ini) (addr : Nat)
  /-- PAIR_HIGH_READ (R529). A read of the high word returns the shadow and clears the tag when the same initiator set it, and the live word otherwise. -/
  | pairHighRead (i : Ini) (addr : Nat)
  /-- PAIR_LOW_WRITE (R529). A write of the low word of an RW or PW pair is staged for its initiator. -/
  | pairLowWrite (i : Ini) (addr : Nat) (data : Word)
  /-- PAIR_HIGH_WRITE (R529). A write of the high word commits both words together, or the high word alone with the low word in force. -/
  | pairHighWrite (i : Ini) (addr : Nat) (data : Word)
  /-- SQ_CLEAR (R530). A write-back of the SEQ value read clears every SQ bit and SEQ if SEQ is unchanged, and otherwise has no effect. -/
  | sqClear (i : Ini) (addr : Nat) (data : Word)
  /-- POSTED_WRITE (R531). A write to a PW register is accepted at once and sets BUSY, or is discarded with LOST while BUSY reads 1. -/
  | postedWrite (i : Ini) (addr : Nat) (data : Word)
  /-- POSTED_WRITE_EFFECT (R531). A posted write takes effect in the clocked island and BUSY clears. -/
  | postedWriteEffect (b : PostedBlock) (parityBad : Bool)
  /-- NO_CLOCK_TIMEOUT (R532). A posted write that has not taken effect 10 µs after acceptance fails with cause NO_CLOCK and fences the block. -/
  | noClockTimeout (b : PostedBlock)
  /-- PW_ERR_INFO_READ (R532). A read of PW_ERR_INFO releases the fence of a posted block, and BUSY clears. -/
  | pwErrInfoRead (i : Ini) (b : PostedBlock)
  /-- GUARD_ARM (R534). A write to the ARM address of a guarded pair replaces the initiator's pending arm. -/
  | guardArm (i : Ini) (addr : Nat) (data : Word)
  /-- GUARD_ARM_EXPIRE (R534). A pending arm is abandoned when 10 µs of device time pass without its FIRE. -/
  | guardArmExpire (addr : Nat)
  /-- TIME_NOW_READ (R50). A read of TIME_NOW_0 latches the whole device-time word with SOURCE_CLASS 6 for the following reads of TIME_NOW_1 to TIME_NOW_3. -/
  | timeNowRead (i : Ini)
  /-- DLL_LOCK (R40). The delay-locked line locks on a present REF_IN, DLL_LOCKED sets, and the modulator becomes ready. -/
  | dllLock
  /-- DLL_LOCK_LOSS (R40). The DLL's lock detector finds it out of lock, so DLL_LOCKED and REF_LOCKED clear, DLL_LOST sets, event 1482 is raised and device time runs in holdover. -/
  | dllLockLoss
  /-- LOCK_GATE_END (R41). A compare-mode gate of GATE_MS ends, its count is judged in or out of tolerance, LOCK_MEAS updates, and lock is declared or lost. -/
  | lockGateEnd (count : Nat)
  /-- FREQ_STD_ABSENT (R41). No FREQ_STD edge arrives for 1 µs, so the gate in progress ends out of tolerance and compare-mode lock is lost. -/
  | freqStdAbsent
  /-- FREQ_STD_RETURN (R41). The first FREQ_STD edge after an absence starts a new gate. -/
  | freqStdReturn
  /-- ACTIVITY_LOCK_DECLARE (R42). In activity mode, lock is declared once the DLL has locked and REF_IN has been present for LOCK_COUNT × GATE_MS. -/
  | activityLockDeclare
  /-- OCXO_WARM_CHANGE (R43). The OCXO_WARM level changes, which updates WARM and bit 0 of device-time words and raises event 1483. -/
  | ocxoWarmChange (level : Bool)
  /-- HOLDOVER_ENTER (R44). No REF_IN edge arrives for 100 ns, so REF_IN is declared absent, device time runs from the holdover oscillator, the DLL loses lock and events 1481 and 1482 are raised. -/
  | holdoverEnter
  /-- HOLDOVER_EXIT (R45). At the first REF_IN edge after the DLL has relocked, device time returns to REF_IN counting from its current value and HOLDOVER clears. -/
  | holdoverExit
  /-- TOD_ARM (R51). The ARM command to TOD_CMD sets TOD_ARMED so that the next PPS_IN edge sets the time of day. -/
  | todArm (i : Ini)
  /-- TOD_CANCEL (R52). The CANCEL command to TOD_CMD before a PPS edge refuses the pending set with result CANCELLED. -/
  | todCancel (i : Ini)
  /-- PPS_EDGE (R53). A PPS_IN edge is stamped, PPS_RESID and PPS_SEC update, and an edge outside the window sets PPS_MISSING. -/
  | ppsEdge (rising : Bool) (back : Nat)
  /-- PPS_MISSING_EXPIRE (R53). No PPS edge arrives within 1 s ± PPS_WIN of the previous one, so PPS_MISSING sets again at each further second. -/
  | ppsMissingExpire
  /-- OUTPUT_START (R56). An output whose EN has been set starts at the beginning of its divider's next period. -/
  | outputStart (n : Fin 12)
  /-- OUTPUT_STOP (R56). An output whose EN has been cleared stops after its current high phase and is parked low. -/
  | outputStop (n : Fin 12)
  /-- DELAY_WALK_STEP (R56). An output's delay moves one fine step toward a new DELAY value once per output period. -/
  | delayWalkStep (n : Fin 12)
  /-- DIV_CHANGE_EFFECT (R56). A changed DIV takes effect at the end of the current output period and clears ALIGNED. -/
  | divChangeEffect (n : Fin 12)
  /-- OUT_SYNC_CMD (R57). A write to OUT_SYNC_CMD requests a restart of the outputs selected in OUT_SYNC_MASK at OUT_SYNC_AT. -/
  | outSyncCmd (i : Ini)
  /-- OUT_SYNC_EXECUTE (R57). At the first REF_IN edge at or after OUT_SYNC_AT, the selected dividers restart, ALIGNED sets, OUT_SYNC_LATE sets if late, and event 1486 is raised. -/
  | outSyncExecute
  /-- SYSREF_SHOTS_DONE (R58). A MODE 1 SYSREF output that has emitted SHOTS pulses parks low. -/
  | sysrefShotsDone (n : Fin 12)
  /-- PTP_STAMP (R61). A PTP event message passing the management port is stamped with latency correction and queued in the 64-entry FIFO, or discarded with PTP_OVF when the FIFO is full. -/
  | ptpStamp (tx : Bool) (frame : List (BitVec 8)) (back : Nat)
  /-- PTP_TS_POP (R63). A read of PTP_TS_ID pops the oldest stamp into the latched view. -/
  | ptpTsPop (i : Ini)
  /-- CDR_LOCK (R69). A port's lanes achieve clock-data recovery at a supported lane rate, and the link moves on to SH_SEARCH. -/
  | cdrLock (p : Fin 6) (num den : Nat)
  /-- SYNC_HEADER_LOCK (R69). A port's lanes achieve sync-header lock, and the link moves on to EMB_SEARCH. -/
  | syncHeaderLock (p : Fin 6) (lane : Fin 24) (coding : Fin 3)
  /-- EMB_LOCK (R82). Every lane reaches end-of-multiblock lock, and the link enters ALIGN or waits there with SYSREF_INVALID. -/
  | embLock (p : Fin 6) (fecSeen : Bool)
  /-- LINK_UP (R82). The LEMC is anchored at a SYSREF edge in subclass 1, or at the latest lane's boundary in subclass 0, the link becomes UP, and the link-up calibration and the GAP for any outage follow. -/
  | linkUp (p : Fin 6)
  /-- OUTAGE_SPLIT (R95). Each 1 ms of an outage that is still running is reported as one GAP record with CONT set. -/
  | outageSplit (st : Fin 48)
  /-- EXT_MULTIBLOCK_RELEASE (R83). The elastic buffer releases an extended multiblock RBD block periods after its LEMC boundary, and its samples are checked, tagged and handed to capture, trigger and DDC. -/
  | extMultiblockRelease (p : Fin 6) (octets : List (List Nat)) (arrive : List Nat) (crcBad : List (Nat × Nat))
  /-- SH_LOCK_LOST (R93). A lane loses sync-header lock, which is reported as SH_LOCK_LOST, and the link restarts with zero fill. -/
  | shLockLost (p : Fin 6) (lane : Fin 24)
  /-- EMB_LOCK_LOST (R93). End-of-multiblock markers are lost on a lane, and the link restarts. -/
  | embLockLost (p : Fin 6) (lane : Fin 24)
  /-- ALIGN_SHIFT (R93). A lane's extended-multiblock boundary moves relative to the LEMC, and the link restarts. -/
  | alignShift (p : Fin 6) (lane : Fin 24)
  /-- LINK_RESTART_CMD (R93). PORT_CMD LINK_RESTART restarts the link at once with cause 0x19. -/
  | linkRestartCmd (i : Ini) (p : Fin 6)
  /-- PORT_EQ_CAL (R91). PORT_CMD EQ_CAL requests a receiver equaliser calibration, which is deferred while one runs or the link is not UP. -/
  | portEqCal (i : Ini) (p : Fin 6)
  /-- PORT_CLEAR_COUNTS (R98). PORT_CMD CLEAR_COUNTS zeroes GAP_COUNT, SAT_COUNT, FAULT_CAUSE and the lane CRC counters. -/
  | portClearCounts (i : Ini) (p : Fin 6)
  /-- EQ_CAL_AUTO_START (R91). With AUTO set, a die-temperature move beyond EQ_TDELTA starts a calibration. -/
  | eqCalAutoStart (p : Fin 6)
  /-- EQ_CAL_DEFERRED_RUN (R92). A deferred calibration request runs once when the link is UP and the running calibration has ended. -/
  | eqCalDeferredRun (p : Fin 6)
  /-- EQ_ADAPT_END (R91). Adaptation of idle slices ends, each lane's eye width is judged against EQ_MIN, and weak lanes set EQ_WEAK. -/
  | eqAdaptEnd (p : Fin 6) (eyes : List Nat)
  /-- EQ_SWAP (R91). At the nominated boundary, the passed slices go live hitlessly, and the calibration ends with EQ_CAL_COUNT, EQ_CAL_TIME and EQ_CAL_DONE. -/
  | eqSwap (p : Fin 6)
  /-- EQ_REVERT (R92). After a CRC error following a swap, the lane reverts to its previous slice at the next nominated boundary and EQ_REVERT sets. -/
  | eqRevert (p : Fin 6) (lane : Fin 24)
  /-- LANE_EQ_WRITE (R98). A write to LANE_EQ_i checks the code, discards a bad one with LOST, or stages a valid one. -/
  | laneEqWrite (i : Ini) (p : Fin 6) (lane : Fin 24) (data : Word)
  /-- LANE_EQ_APPLY (R98). A staged equaliser code takes effect at the next nominated boundary. -/
  | laneEqApply (p : Fin 6) (lane : Fin 24)
  /-- PORT_SWITCH_BOUNDARY (R374). A committed port setup takes effect: slot words at each stream's first sample at or after T_eff, link words by a link restart at T_eff. -/
  | portSwitchBoundary (p : Fin 6)
  /-- LANE_SWITCH_BOUNDARY (R108). A committed lane setup takes effect at the lane's boundary, restarting the grid where R108 requires. -/
  | laneSwitchBoundary (l : Fin 48)
  /-- FRAME_COMPUTE (R115). When a frame's input samples are complete, the lane computes its windowed fixed-point spectrum and passes it to the detector, mask comparator and density updater. -/
  | frameCompute (l : Fin 48) (mismatch : Bool)
  /-- LANE_OVERRUN_RESUME (R126). An overrun lane resumes computing once its input buffer drains below 65,536 samples. -/
  | laneOverrunResume (l : Fin 48)
  /-- ROTATION_START (R130). Once ROT_PERIOD has passed and the spare has passed its tests, the spare begins shadowing the next in-use lane at frame F_s. -/
  | rotationStart (g : Fin 4)
  /-- ROTATION_HANDOVER (R130). At F_t the former spare computes every frame with its PHYS and LANE_CHANGE, and the relieved lane becomes the spare or is retired. -/
  | rotationHandover (g : Fin 4)
  /-- SPARE_FAULT (R131). A spare that faults during a shadow abandons the rotation and is retired. -/
  | spareFault (g : Fin 4)
  /-- LANE_FAULT (R132). A parity error or watchdog expiry in a live lane retires the lane and loses its undelivered frames. -/
  | laneFault (phys : Fin 52)
  /-- LANE_TAKEOVER (R132). The spare takes over a faulted lane at the first frame start at least 256 steps after detection, with a LANE_FAULT GAP covering the lost frames. -/
  | laneTakeover (g : Fin 4)
  /-- NO_LANE_GAP (R133). An OUT_OF_SERVICE lane writes one NO_LANE GAP record per 1 ms. -/
  | noLaneGap (l : Fin 48)
  /-- SPARE_KAT_START (R429). A group's spare lane starts its known-answer tests. -/
  | spareKatStart (g : Fin 4)
  /-- SPARE_KAT_END (R429). A spare lane's known-answer tests end, passing or retiring the spare with finding 2. -/
  | spareKatEnd (g : Fin 4) (pass : Bool)
  /-- DET_PARITY (R167). A parity error in detector SRAM spoils the reduction, writes a DET_PARITY ERROR record and moves to a spare bank. -/
  | detParity (l : Fin 48)
  /-- DENS_PARITY (R211). A parity error in grid SRAM spoils the epoch, writes a DENS_PARITY ERROR record and restarts the grid on a spare bank. -/
  | densParity (l : Fin 48)
  /-- FLAT_VERIFY (R168). DET_CMD FLAT_VERIFY requests a flatness verification, which is deferred without a spare or while derated. -/
  | flatVerify (i : Ini) (g : Fin 4)
  /-- DET_CLEAR_COUNTS (R171). DET_CMD CLEAR_COUNTS zeroes DET_SKIPS, DET_EXC_i and DET_SKF_i. -/
  | detClearCounts (i : Ini) (g : Fin 4)
  /-- FLAT_VERIFY_AUTO_START (R168). With AUTO set, a die-temperature move beyond TDELTA, or the end of a deferral, starts a verification. -/
  | flatVerifyAutoStart (g : Fin 4)
  /-- FLAT_VERIFY_END (R168). A verification ends with FLAT_RESID, sets FLAT_FAIL above FLAT_LIMIT, and a postponed rotation may start. -/
  | flatVerifyEnd (g : Fin 4) (form : Bool) (dec resid : Nat)
  /-- FABRIC_PULSE_ARRIVAL (R175). A source pulse reaches the fabric and drives the lines, sequencers, TRIG and BLANK pins, XT drivers and records that select it. -/
  | fabricPulseArrival (codes : List Nat)
  /-- QS_WINDOW_EXPIRE (R185). A sequencer window ends: in A_THEN_B the A count restarts, and in A_NOT_B the sequencer fires if no B pulse arrived. -/
  | qsWindowExpire (q : Fin 8)
  /-- QS_HOLDOFF_END (R185). A sequencer's holdoff ends and LINE_A pulses count again. -/
  | qsHoldoffEnd (q : Fin 8)
  /-- TRIG_PIN_RELEASE (R187). A TRIG pin returns to its inactive level when WIDTH expires. -/
  | trigPinRelease (t : Fin 8)
  /-- BLANK_RELEASE (R188). A BLANK pin releases after HOLD passes without a selected pulse, writing BLANK_OFF and raising event 1368. -/
  | blankRelease (k : Fin 4)
  /-- TIMER_PULSE (R183). Timer TMm pulses at TM_AT and then every PERIOD REF_IN periods. -/
  | timerPulse (m : Fin 8)
  /-- SW_TRIG (R183). FAB_CMD SW_TRIG pulses the software source with the write's arrival as cause time. -/
  | swTrig (i : Ini)
  /-- FAB_COMMIT (R198). FAB_CMD COMMIT sets COMMIT_PENDING for the fabric's pending bank at COMMIT_AT. -/
  | fabCommit (i : Ini)
  /-- FAB_CANCEL_COMMIT (R198). FAB_CMD CANCEL_COMMIT abandons a pending fabric commit. -/
  | fabCancelCommit (i : Ini)
  /-- FAB_COMMIT_TAKE (R198). The fabric bank takes force at the first REF_IN edge at or after COMMIT_AT, restarting changed sequencers and raising event 1374. -/
  | fabCommitTake
  /-- XT_FRAME_START (R192). A pending cross-trigger frame starts at the first REF_IN edge at which its line is free. -/
  | xtFrameStart (k : Fin 4)
  /-- XT_FRAME_END (R194). A sent frame ends after 40 REF_IN periods, and a readback mismatch counts a collision and abandons it. -/
  | xtFrameEnd (k : Fin 4) (mismatch : Bool)
  /-- XT_LOCAL_PULSE (R193). The driving device pulses its own XT source at T_start + (64 + XT_PAD_k) REF_IN periods. -/
  | xtLocalPulse (k : Fin 4)
  /-- XT_FRAME_RECEIVE (R193). A received cross-trigger frame is checked for parity and schedules its local pulse, or is discarded and counted in PARITY. -/
  | xtFrameReceive (k : Fin 4) (dev : BitVec 4) (code : BitVec 3) (parity : Bool)
  /-- XT_RX_PULSE (R193). A receiver pulses source 448 + k at the padded instant after the frame start. -/
  | xtRxPulse (k : Fin 4)
  /-- RENDER_START (R223). A render starts when the back buffer is free and every enabled pane's source has ended an epoch. -/
  | renderStart
  /-- RENDER_DONE (R223). A render completes, makes the content ready and increments RENDERS. -/
  | renderDone
  /-- APPLY_TIMING (R229). DISP_CMD APPLY_TIMING checks the staged timing and refuses it with TIMING_BAD or sets TIMING_PENDING. -/
  | applyTiming (i : Ini)
  /-- DISP_RETRAIN (R227). DISP_CMD RETRAIN starts DisplayPort link training. -/
  | dispRetrain (i : Ini)
  /-- CREMA_FLIP (R224). DISP_CMD CREMA_FLIP requests the other crema bank to go live at the next vertical blanking. -/
  | cremaFlip (i : Ini)
  /-- DISP_CLEAR_COUNTS (R232). DISP_CMD CLEAR_COUNTS zeroes the display counters. -/
  | dispClearCounts (i : Ini)
  /-- VBLANK_START (R229). At the start of vertical blanking, pending timing and placement take effect, a pending crema flip swaps banks, and a retrain may start. -/
  | vblankStart
  /-- DISPLAY_FRAME_START (R230). A frame starts, swapping buffers if content is ready, or extending the front porch under Adaptive-Sync and repeating at VTOTAL_MAX. -/
  | displayFrameStart
  /-- DISPLAY_LINE_START (R226). A display line is sent, with its missing pixels as BG_COLOUR and UNDERFLOW_LINES counted when its data is late. -/
  | displayLineStart (missingFrom : Nat)
  /-- LINK_TRAINING_END (R227). DisplayPort link training ends with LINK_UP or TRAIN_FAIL, raising event 1394. -/
  | linkTrainingEnd (ok : Bool)
  /-- HPD_CHANGE (R233). The hot-plug level changes, HPD_CHANGE sets and event 1395 is raised. -/
  | hpdChange (level : Bool)
  /-- AUX_TRANSACTION (R232). A write to AUX_CMD starts a native or I2C-over-AUX transaction. -/
  | auxTransaction (i : Ini) (data : Word)
  /-- AUX_REPLY (R232). An AUX transaction ends with an ACK, NACK, DEFER or timeout reply in AUX_CMD. -/
  | auxReply (reply : Fin 4) (bytes : List (BitVec 8))
  /-- EDGE_CROSSING (R250). A crossing of an edge input's threshold is stamped from its coarse and fine codes, checked against the allotment and queued, or lost when the queue is full. -/
  | edgeCrossing (n : Fin 16) (rising : Bool) (fine : Nat)
  /-- STAMP_RESUME (R247). Stamping resumes with the first crossing after the queue drains below B / 2. -/
  | stampResume (n : Fin 16)
  /-- STAMP_BLOCK_AGE (R264). A stamp block closes with AGE when BLOCK_AGE passes after its first entry. -/
  | stampBlockAge (n : Fin 16)
  /-- PWR_READY (R241). PWR_READY sets 20 µs after an input's front end is powered. -/
  | pwrReady (n : Fin 16)
  /-- EDGE_ENABLE (R241). At T_EN the input samples INIT_LEVEL, zeroes EI_CROSS, resets the prescaler and opens the initial-state window. -/
  | edgeEnable (n : Fin 16) (level : Bool)
  /-- INIT_WINDOW_END (R241). The 200 ns initial-state window ends, with INIT_UNKNOWN set if the input lay near the threshold. -/
  | initWindowEnd (n : Fin 16) (near : Bool)
  /-- THRESHOLD_SETTLED (R239). 20 ns after a static threshold change, crossings no longer carry THR_SETTLE. -/
  | thresholdSettled (n : Fin 16)
  /-- RAMP_START (R243). At the first DAC update after a RAMP_SRC pulse, the ramp starts and writes a MARK entry. -/
  | rampStart (n : Fin 16)
  /-- RAMP_END (R243). After RAMP_LEN updates the threshold returns to THRESH and the ramp re-arms. -/
  | rampEnd (n : Fin 16)
  /-- INTERPOLATOR_FAULT (R248). A parity error or watchdog expiry in an interpolator retires it, falling back to one interpolator or the standby. -/
  | interpolatorFault (n : Fin 16) (ip : Fin 2)
  /-- INTERPOLATOR_TAKEOVER (R248). The standby takes over at the next REF_IN edge, and one EDGE_FAULT GAP covers the lost crossings. -/
  | interpolatorTakeover (n : Fin 16)
  /-- EI_COMMIT (R265). EI_CMD COMMIT arms the edge-input bank for COMMIT_AT, or refuses it with ALLOT_BAD or EDGE_FAULT. -/
  | eiCommit (i : Ini)
  /-- EI_CANCEL_COMMIT (R265). EI_CMD CANCEL_COMMIT abandons a pending edge-input commit. -/
  | eiCancelCommit (i : Ini)
  /-- EI_COMMIT_TAKE (R265). The edge-input bank takes force at COMMIT_AT, closing changed inputs' blocks with COMMIT and disabling inputs whose EN cleared. -/
  | eiCommitTake
  /-- EI_CAL (R257). EI_CMD CAL requests a calibration run for the inputs in CAL_MASK. -/
  | eiCal (i : Ini)
  /-- EI_CAL_ABORT (R258). EI_CMD CAL_ABORT ends the run as ABORTED, or as COMPLETE with ABORT_LATE. -/
  | eiCalAbort (i : Ini)
  /-- ILV_COMMIT (R256). EI_CMD ILV_COMMIT arms the staged interleaved tables for ILV_COMMIT_AT. -/
  | ilvCommit (i : Ini)
  /-- EI_CLEAR_COUNTS (R265). EI_CMD CLEAR_COUNTS zeroes EI_LOST_n and EI_OVER_n. -/
  | eiClearCounts (i : Ini)
  /-- EI_CAL_AUTO_START (R257). With AUTO set, a temperature move, the first enable or a PERIOD commit starts a run, or a deferred run starts once REF_LOCKED is 1. -/
  | eiCalAutoStart
  /-- EI_CAL_RUN_END (R254). A code-density run ends, its chains are judged, and it is accepted, WEAK or staged. -/
  | eiCalRunEnd (n : Fin 16) (runs : List (List (List (Nat × Nat))))
  /-- EI_CAL_TIMEOUT (R256). An interleaved run still incomplete when CAL_LIMIT expires ends with TIMEOUT. -/
  | eiCalTimeout (n : Fin 16)
  /-- INTERPOLATOR_SWAP (R255). At the first REF_IN edge after an accepted table is ready, the interpolators swap and the open block closes with SWAP. -/
  | interpolatorSwap (n : Fin 16)
  /-- ILV_COMMIT_TAKE (R256). Staged interleaved tables take force together at ILV_COMMIT_AT, closing the block with SWAP and raising event 1304. -/
  | ilvCommitTake
  /-- CAL_DATA_READ (R260). A read of CAL_DATA returns a word of the table image in force and advances the index. -/
  | calDataRead (i : Ini)
  /-- CAL_DATA_WRITE (R260). A write of CAL_DATA fills the staging image, and the last word checks the CRC and stages or discards the image. -/
  | calDataWrite (i : Ini) (data : Word)
  /-- THR_TRIM_WRITE (R260). A write to THR_TRIM stages a trim that takes force at the next block boundary. -/
  | thrTrimWrite (i : Ini) (n : Fin 16) (data : Word)
  /-- STAMP_PROCESS (R271). A statistics unit processes a stamp once the other input's progress passes it, forming pairs, samples, batches and records. -/
  | stampProcess (u : Fin 16)
  /-- GATE_CLOSE (R281). A TOTAL gate closes when IN_A's progress passes its end and gives a count sample. -/
  | gateClose (u : Fin 16)
  /-- BATCH_TIME_LIMIT (R283). A batch ends when TLIM ms have passed since its first sample. -/
  | batchTimeLimit (u : Fin 16)
  /-- SU_RECORD_AGE (R289). An INTERVAL record closes with AGE when BLOCK_AGE passes after its first entry. -/
  | suRecordAge (u : Fin 16)
  /-- SU_OVERRUN_RESUME (R286). A unit resumes once its buffer drains below 2,048 stamps. -/
  | suOverrunResume (u : Fin 16)
  /-- SU_COMMIT (R292). SU_CMD COMMIT arms the statistics bank, or refuses it with CONFIG_BAD. -/
  | suCommit (i : Ini)
  /-- SU_CANCEL_COMMIT (R292). SU_CMD CANCEL_COMMIT abandons a pending statistics commit. -/
  | suCancelCommit (i : Ini)
  /-- SU_COMMIT_TAKE (R292). The statistics bank takes force at T_c, closing records, batches and pairing of changed units. -/
  | suCommitTake
  /-- SU_FLUSH (R295). SU_CMD FLUSH ends every active batch and closes every open record with code FLUSH. -/
  | suFlush (i : Ini)
  /-- SU_CLEAR_COUNTS (R295). SU_CMD CLEAR_COUNTS zeroes the orphan, rejected and excluded counts. -/
  | suClearCounts (i : Ini)
  /-- NOP (R349). Instruction NOP performs only its moves. -/
  | crNop (e : Fin 128) (up : Option Nat)
  /-- MOV (R349). Instruction MOV copies Va to Vd. -/
  | crMov (e : Fin 128) (up : Option Nat)
  /-- ADD (R349). Instruction ADD adds lanes with wrapping and sets VCNZ. -/
  | crAdd (e : Fin 128) (up : Option Nat)
  /-- SUB (R349). Instruction SUB subtracts lanes with wrapping and sets VCNZ. -/
  | crSub (e : Fin 128) (up : Option Nat)
  /-- ADDS (R349). Instruction ADDS adds lanes with saturation. -/
  | crAdds (e : Fin 128) (up : Option Nat)
  /-- SUBS (R349). Instruction SUBS subtracts lanes with saturation. -/
  | crSubs (e : Fin 128) (up : Option Nat)
  /-- ABS (R349). Instruction ABS takes saturating absolute values. -/
  | crAbs (e : Fin 128) (up : Option Nat)
  /-- MIN (R349). Instruction MIN takes signed lane minima. -/
  | crMin (e : Fin 128) (up : Option Nat)
  /-- MAX (R349). Instruction MAX takes signed lane maxima. -/
  | crMax (e : Fin 128) (up : Option Nat)
  /-- AND (R349). Instruction AND forms the bitwise AND over 128 bits. -/
  | crAnd (e : Fin 128) (up : Option Nat)
  /-- OR (R349). Instruction OR forms the bitwise OR over 128 bits. -/
  | crOr (e : Fin 128) (up : Option Nat)
  /-- XOR (R349). Instruction XOR forms the bitwise XOR over 128 bits. -/
  | crXor (e : Fin 128) (up : Option Nat)
  /-- SHL (R349). Instruction SHL shifts lanes left with wrapping. -/
  | crShl (e : Fin 128) (up : Option Nat)
  /-- SHR (R349). Instruction SHR shifts lanes right with round half up. -/
  | crShr (e : Fin 128) (up : Option Nat)
  /-- MUL (R349). Instruction MUL multiplies lanes and narrows with rounding and saturation. -/
  | crMul (e : Fin 128) (up : Option Nat)
  /-- CMP (R349). Instruction CMP sets VCNZ from a − b. -/
  | crCmp (e : Fin 128) (up : Option Nat)
  /-- BCAST (R349). Instruction BCAST copies one lane of Va to every lane. -/
  | crBcast (e : Fin 128) (up : Option Nat)
  /-- PACK (R349). Instruction PACK narrows two vectors of 32-bit lanes into 16-bit lanes. -/
  | crPack (e : Fin 128) (up : Option Nat)
  /-- UNPK (R349). Instruction UNPK sign-extends four 16-bit lanes to 32 bits. -/
  | crUnpk (e : Fin 128) (up : Option Nat)
  /-- CONJ (R349). Instruction CONJ negates odd lanes with saturation. -/
  | crConj (e : Fin 128) (up : Option Nat)
  /-- MAXI (R353). Instruction MAXI updates a running maximum and its index. -/
  | crMaxi (e : Fin 128) (up : Option Nat)
  /-- MINI (R353). Instruction MINI updates a running minimum and its index. -/
  | crMini (e : Fin 128) (up : Option Nat)
  /-- MAC (R351). Instruction MAC accumulates exact products into An, saturating under R310. -/
  | crMac (e : Fin 128) (up : Option Nat)
  /-- MACJ (R351). Instruction MACJ accumulates conjugate complex products. -/
  | crMacj (e : Fin 128) (up : Option Nat)
  /-- MPY (R351). Instruction MPY replaces An with exact products. -/
  | crMpy (e : Fin 128) (up : Option Nat)
  /-- MPYJ (R351). Instruction MPYJ replaces An with conjugate complex products. -/
  | crMpyj (e : Fin 128) (up : Option Nat)
  /-- ADDA (R352). Instruction ADDA adds extended vector lanes into An. -/
  | crAdda (e : Fin 128) (up : Option Nat)
  /-- LDA (R352). Instruction LDA loads extended vector lanes into An. -/
  | crLda (e : Fin 128) (up : Option Nat)
  /-- CLR (R352). Instruction CLR zeroes every lane of An. -/
  | crClr (e : Fin 128) (up : Option Nat)
  /-- ASUM (R352). Instruction ASUM sums all lanes of An into lane 0 of Am. -/
  | crAsum (e : Fin 128) (up : Option Nat)
  /-- ADDX (R352). Instruction ADDX folds part of An into a mode-1 accumulator. -/
  | crAddx (e : Fin 128) (up : Option Nat)
  /-- RND (R352). Instruction RND narrows accumulator lanes into a vector with rounding. -/
  | crRnd (e : Fin 128) (up : Option Nat)
  /-- EXA (R352). Instruction EXA extracts a bit field of each accumulator lane. -/
  | crExa (e : Fin 128) (up : Option Nat)
  /-- BRA (R356). Instruction BRA branches on its condition after one delay slot. -/
  | crBra (e : Fin 128) (up : Option Nat)
  /-- CALL (R356). Instruction CALL writes RA and branches after one delay slot. -/
  | crCall (e : Fin 128) (up : Option Nat)
  /-- RET (R356). Instruction RET returns to RA after one delay slot. -/
  | crRet (e : Fin 128) (up : Option Nat)
  /-- RTE (R356). Instruction RTE restores PC from RA and SR from SSR after one delay slot. -/
  | crRte (e : Fin 128) (up : Option Nat)
  /-- REP (R314). Instruction REP issues the next instruction n times without interruption. -/
  | crRep (e : Fin 128) (up : Option Nat)
  /-- LOOP (R359). Instruction LOOP sets LS, LE and LC and starts a hardware loop. -/
  | crLoop (e : Fin 128) (up : Option Nat)
  /-- WAIT (R358). Instruction WAIT stops issue until an enabled cause is pending. -/
  | crWait (e : Fin 128) (up : Option Nat)
  /-- HALT (R356). Instruction HALT stops the engine in HALTED. -/
  | crHalt (e : Fin 128) (up : Option Nat)
  /-- LDI (R356). Instruction LDI writes an immediate to a special register. -/
  | crLdi (e : Fin 128) (up : Option Nat)
  /-- MFS (R356). Instruction MFS copies a special register into lane 0 of a vector. -/
  | crMfs (e : Fin 128) (up : Option Nat)
  /-- MTS (R356). Instruction MTS copies lane 0 of a vector into a special register. -/
  | crMts (e : Fin 128) (up : Option Nat)
  /-- LDS (R356). Instruction LDS loads a special register from an absolute address. -/
  | crLds (e : Fin 128) (up : Option Nat)
  /-- STS (R356). Instruction STS stores a special register to an absolute address. -/
  | crSts (e : Fin 128) (up : Option Nat)
  /-- LDV (R356). Instruction LDV loads a vector from an absolute address. -/
  | crLdv (e : Fin 128) (up : Option Nat)
  /-- STV (R356). Instruction STV stores a vector to an absolute address. -/
  | crStv (e : Fin 128) (up : Option Nat)
  /-- LDAC (R356). Instruction LDAC loads the 320 bits of an accumulator. -/
  | crLdac (e : Fin 128) (up : Option Nat)
  /-- STAC (R356). Instruction STAC stores the 320 bits of an accumulator. -/
  | crStac (e : Fin 128) (up : Option Nat)
  /-- STI (R356). Instruction STI stores a 32-bit immediate. -/
  | crSti (e : Fin 128) (up : Option Nat)
  /-- LDRS (R356). Instruction LDRS loads RA and SSR. -/
  | crLdrs (e : Fin 128) (up : Option Nat)
  /-- STRS (R356). Instruction STRS stores RA and SSR. -/
  | crStrs (e : Fin 128) (up : Option Nat)
  /-- EVENT_ENTRY (R316). With IE set, the engine enters the lowest pending cause at the next instruction boundary and saves RA and SSR. -/
  | eventEntry (e : Fin 128)
  /-- WAIT_RESUME (R358). A waiting engine resumes within 4 steps when an enabled cause becomes pending. -/
  | waitResume (e : Fin 128)
  /-- OUT_WORD_WRITE (R322). A write to OUT adds a record word, or is discarded and sets OUT_OVF beyond the free space. -/
  | outWordWrite (e : Fin 128) (data : BitVec 128)
  /-- OUT_COMMIT (R322). OUT_CTL COMMIT forms the header and commits the record, or writes ENG_OUT_SKIP or ENG_BAD_RECORD in its place. -/
  | outCommit (e : Fin 128)
  /-- OUT_DISCARD (R322). OUT_CTL DISCARD drops the words written since the last commit. -/
  | outDiscard (e : Fin 128)
  /-- WINDOW_RELEASE (R320). A write of WREL releases bytes from a window's tail. -/
  | windowRelease (e : Fin 128) (a : Fin 2) (n : Nat)
  /-- BLOCK_MOVE_START (R325). A write to BM starts a block move between HBM and local memory, or is discarded while BUSY. -/
  | blockMoveStart (e : Fin 128) (data : BitVec 128)
  /-- BLOCK_MOVE_DONE (R325). A block move ends with OK, DENIED, ECC or RANGE, and cause BMV becomes pending. -/
  | blockMoveDone (e : Fin 128)
  /-- ENG_SIGNAL (R324). A write to SIGNAL raises event 1024 + n for the logical engine. -/
  | engSignal (e : Fin 128)
  /-- WINDOW_FEED (R319). A window feeder places whole records into a window ring, making cause WIN pending when WAVAIL reaches WMARK. -/
  | windowFeed (c : Fin 8) (w : Fin 32)
  /-- ENG_HALT_CMD (R334). CL_CMD HALT stops the named engine at its next instruction boundary. -/
  | engHaltCmd (i : Ini) (c : Fin 8) (e : Fin 16)
  /-- ENG_RESUME_CMD (R334). CL_CMD RESUME returns a HALTED engine to RUN. -/
  | engResumeCmd (i : Ini) (c : Fin 8) (e : Fin 16)
  /-- ENG_RESTART_CMD (R329). CL_CMD RESTART starts the image in force again from ENTRY. -/
  | engRestartCmd (i : Ini) (c : Fin 8) (e : Fin 16)
  /-- CL_CLEAR_COUNTS (R334). CL_CMD CLEAR_COUNTS zeroes ENG_MAXDELAY and ENG_OUT_SKIPS of the named engine. -/
  | clClearCounts (i : Ini) (c : Fin 8) (e : Fin 16)
  /-- CLUSTER_SWITCH (R328). At T_sw, touched engines stop for loading and untouched engines take their new event selections and windows. -/
  | clusterSwitch (c : Fin 8)
  /-- ENGINE_RELEASE (R328). At the first REF_IN edge at or after T_sw + 812.5 ns with all touched engines stopped, banks flip, registers clear and each engine starts at ENTRY or goes IDLE. -/
  | engineRelease (c : Fin 8)
  /-- ENG_HW_FAULT (R329). A datapath parity error or watchdog retires the physical engine and restarts the logical engine on the spare, or faults it. -/
  | engHwFault (c : Fin 8) (phys : Fin 17)
  /-- ENG_TEST_START (R330). The seep starts a known-answer test segment on an engine in WAIT. -/
  | engTestStart (e : Fin 128)
  /-- ENG_TEST_END (R331). A WAIT-state test ends, passing or starting a migration to the spare. -/
  | engTestEnd (e : Fin 128) (pass : Bool)
  /-- MIGRATION_DONE (R331). After its state is copied, the logical engine resumes in WAIT on the spare and the failed engine is retired. -/
  | migrationDone (c : Fin 8)
  /-- CMD_DOORBELL (R366). A write to CW_CMD_HEAD posts commands to the causeway. -/
  | cmdDoorbell (i : Ini) (data : Word)
  /-- CW_WRITE (R368). Command WRITE copies a setup into a slot, checks it alone and reports its digest. -/
  | cwWrite
  /-- CW_READ (R368). Command READ copies a slot, table or image to memory. -/
  | cwRead
  /-- CW_CLEAR (R368). Command CLEAR empties a slot or a table. -/
  | cwClear
  /-- CW_ARM (R373). Command ARM checks a group of pairs and arms it for its time, sending the setups to their targets. -/
  | cwArm
  /-- CW_CANCEL (R376). Command CANCEL abandons an armed group before its decision edge. -/
  | cwCancel
  /-- TABLE_WRITE (R368). Command TABLE_WRITE replaces a window or mask table. -/
  | tableWrite
  /-- IMAGE_LOAD (R364). Command IMAGE_LOAD verifies a signed engine image and places it in the image store. -/
  | imageLoad
  /-- IMAGE_DROP (R368). Command IMAGE_DROP removes an image from the store. -/
  | imageDrop
  /-- CW_UNKNOWN_OPCODE (R368). A command with an unlisted opcode or a non-zero reserved bit is refused with BAD_OPCODE. -/
  | cwUnknownOpcode
  /-- CW_DONE_TAIL_WRITE (R370). A write to CW_DONE_TAIL frees completion entries and releases a stall. -/
  | cwDoneTailWrite (i : Ini) (data : Word)
  /-- CW_ENABLE (R370). Setting EN in CW_CTRL resumes a ring after a fault, writing queued completions and rereading the command. -/
  | cwEnable (i : Ini) (data : Word)
  /-- TARGET_ACK (R373). A target acknowledges that it holds everything an armed group needs. -/
  | targetAck (t : Fin 64)
  /-- DECISION_EDGE (R374). At the first REF_IN edge at or after T − 200 ns, a fully acknowledged group commits, and a late group is abandoned or postponed by LATE_MODE. -/
  | decisionEdge (g : Nat)
  /-- LATE_COMMIT (R375). A postponed group commits at the first REF_IN edge after its last acknowledgement with T_eff that edge + 200 ns. -/
  | lateCommit (g : Nat)
  /-- LATE_LIMIT_EXPIRE (R375). A postponed group still not acknowledged at T + LATE_LIMIT is abandoned with TIMEOUT. -/
  | lateLimitExpire (g : Nat)
  /-- COMMIT_STROBE (R374). Every target samples the commit strobe 16 REF_IN periods after the decision edge. -/
  | commitStrobe (g : Nat)
  /-- FLOW_SWITCH_BOUNDARY (R470). A flow setup takes effect at records timed at or after T_eff, ending the open blocks of touched contexts. -/
  | flowSwitchBoundary (p : Fin 2)
  /-- SWITCH_COMPLETE (R374). Once every target has passed its boundary, the causeway writes SWITCHED, updates CW_SDIGEST and raises event 1491. -/
  | switchComplete (g : Nat)
  /-- AUX_SEQ_GO (R392). AUX_CMD SEQ_GO starts one sequence round. -/
  | auxSeqGo (i : Ini)
  /-- AUX_CAL (R396). AUX_CMD CAL queues a converter calibration. -/
  | auxCal (i : Ini)
  /-- AUX_CAL_ABORT (R398). AUX_CMD CAL_ABORT ends the calibration as ABORTED, or as COMPLETE with ABORT_LATE. -/
  | auxCalAbort (i : Ini)
  /-- AUX_CLEAR_COUNTS (R402). AUX_CMD CLEAR_COUNTS zeroes ROUND_MISSES, INJ_MISSES and RES_DROPS. -/
  | auxClearCounts (i : Ini)
  /-- INJ_GO (R393). AUX_CMD INJ_GO triggers injected conversion INJj. -/
  | injGo (i : Ini) (j : Fin 4)
  /-- SEQ_ROUND_START (R392). A sequence round starts at the first modulator edge after its timer, pulse or delay, or the start is counted as a miss. -/
  | seqRoundStart
  /-- INJ_START_QUEUE (R394). When an injection's delay ends, its start is queued by precedence. -/
  | injStartQueue (j : Fin 4)
  /-- CONVERSION_OUTPUT (R389). An output period ends and delivers a result, after which a queued start may interrupt the running conversion. -/
  | conversionOutput (raw : Int)
  /-- HK_ROUND_START (R395). Every HK_PERIOD ms, the housekeeping round of AX16 to AX27 starts. -/
  | hkRoundStart
  /-- AUX_CAL_AUTO_START (R396). With AUTO set, a move of AX16 beyond TDELTA or the first MOD_READY queues a calibration. -/
  | auxCalAutoStart
  /-- AUX_CAL_END (R396). A calibration ends, and its correction takes force if accepted, or the result is WEAK. -/
  | auxCalEnd (runs : List (List Int × List Int)) (check : List Int)
  /-- RES_POP (R399). A read of RES_0 pops the oldest result into the latched view. -/
  | resPop (i : Ini)
  /-- PWM_PERIOD_START (R400). A PWM period starts, staged values take force and the period-start event fires. -/
  | pwmPeriodStart (c : Fin 8)
  /-- PWM_COMPARE (R400). The PWM count reaches the duty count, the output goes inactive and the compare event fires. -/
  | pwmCompare (c : Fin 8)
  /-- TACH_EDGE (R401). An accepted rising tachometer edge updates TACH_PER. -/
  | tachEdge (k : Fin 4)
  /-- TACH_STALL (R401). No edge is accepted for 2^24 modulator periods, so TACH_PER reads 0 and TACH_STALL sets. -/
  | tachStall (k : Fin 4)
  /-- MEASUREMENT_WINDOW_END (R409). A 51.2 µs window ends, the worst step and margin are computed, and the floor state is decided. -/
  | measurementWindowEnd (counts : List Nat)
  /-- PLAN_START (R413). A margin plan starts on its first trigger since the last plan, including 720 h of powered time, ageing drift or a band change. -/
  | planStart
  /-- PLAN_MEASUREMENT_END (R412). A 256-window plan measurement ends, and the plan steps the voltage or ends. -/
  | planMeasurementEnd (counts : List Nat)
  /-- PLAN_SETTLE_END (R412). 1 ms of settling ends and the next measurement is called for. -/
  | planSettleEnd
  /-- PLAN_TIMEOUT (R412). A plan still running after 2 s ends with TIMEOUT. -/
  | planTimeout
  /-- PLAN_RETRY (R413). 1 s after a plan ends with TIMEOUT, a new plan is triggered. -/
  | planRetry
  /-- VOLTAGE_STEP (R410). The planner commands the next rate-limited step of VDD_CORE over AVSBus. -/
  | voltageStep (ack fault : Bool) (readback : Nat)
  /-- REGULATOR_POLL (R415). Every 10 ms the planner reads Status and Voltage, and a fault derates the device with cause REGULATOR. -/
  | regulatorPoll (ack fault : Bool) (readback : Nat)
  /-- REGULATOR_RETRY (R415). Every 100 ms during a regulator fault the last command is retried, and a good readback clears the cause. -/
  | regulatorRetry (ack : Bool) (readback : Nat)
  /-- REPLAN (R413). FL_CMD REPLAN triggers a plan. -/
  | replan (i : Ini)
  /-- FL_CLEAR_COUNTS (R432). FL_CMD CLEAR_COUNTS zeroes the scrub, KAT, March and log-overflow counts. -/
  | flClearCounts (i : Ini)
  /-- VDD_OVERRIDE_FIRE (R416). A valid FIRE of VDD_OVR moves to the override voltage and suspends plans, or releases an override and starts a plan. -/
  | vddOverrideFire (i : Ini) (data : Word)
  /-- DERATE_OVERRIDE_FIRE (R422). A valid FIRE of DERATE_OVR forces derating, suspends shed rises or restores normal behaviour. -/
  | derateOverrideFire (i : Ini) (data : Word)
  /-- AGEING_MEASURE_START (R417). An ageing measurement of every sensor starts at DLL lock and then every 600 s. -/
  | ageingMeasureStart
  /-- AGEING_MEASURE_END (R417). An ageing measurement ends, AGE_DRIFT_MAX updates and a plan may be triggered. -/
  | ageingMeasureEnd (pairs : List (Nat × Nat))
  /-- SHED_DWELL_END (R419). A SHED_DWELL ends, and SHED_LEVEL rises if its conditions held, shedding streams by priority. -/
  | shedDwellEnd
  /-- SHED_PRI_WRITE (R419). A write to SHED_PRI takes effect at once and may mark a stream to be shed. -/
  | shedPriWrite (i : Ini) (j : Fin 6) (data : Word)
  /-- STREAM_SHED (R419). A stream being shed stops at its lanes' next frame boundary, and its capture stops too with SHED_CAP. -/
  | streamShed (st : Fin 48)
  /-- SHED_GAP (R419). A shed stream writes one SHED GAP record per 1 ms. -/
  | shedGap (st : Fin 48)
  /-- LOG_APPEND_DONE (R427). A peat log entry is written, read back and counted in its segment. -/
  | logAppendDone (readbackOk : Bool)
  /-- CAL_SUMMARY (R426). Every 24 h of powered time, a CAL_SUMMARY entry is appended. -/
  | calSummary
  /-- SCRUB_READ (R430). The patrol scrub reads a unit and writes back corrected data, or records an uncorrectable error. -/
  | scrubRead (ce ue : Bool)
  /-- SCRUB_PASS_END (R430). A scrub pass completes, appends a SCRUB entry and the next pass starts. -/
  | scrubPassEnd
  /-- SCRUB_LATE (R430). A pass not complete within SCRUB_HOURS sets SCRUB_LATE. -/
  | scrubLate
  /-- MARCH_TEST_START (R429). Every MARCH_PERIOD an unused spare SRAM bank starts a March C− test. -/
  | marchTestStart (g : Fin 4) (bank : Fin 2)
  /-- MARCH_TEST_END (R430). A March test ends, passing or retiring the bank. -/
  | marchTestEnd (g : Fin 4) (bank : Fin 2) (pass : Bool)
  /-- MEM_REQUEST_ACCEPT (R441). The scheduler accepts a memory request by class and age, taking its tokens or scheduling it as class 3. -/
  | memRequestAccept (port : Fin 24) (i : Ini) (write : Bool) (addr size : Nat) (data : List (BitVec 8))
  /-- MEM_RESPONSE (R439). A memory access completes, correcting a single-bit error or returning an uncorrectable error response. -/
  | memResponse (port : Fin 24) (ce ue : Bool)
  /-- AGE_PROMOTION (R443). A request that has waited AGE_LIMIT is promoted by one class. -/
  | agePromotion (port : Fin 24)
  /-- REFRESH_INTERVAL (R445). Each tREFI adds one unit of refresh debt to each pseudo-channel. -/
  | refreshInterval (stack : Fin 2)
  /-- BANK_REFRESH (R445). A per-bank refresh starts on an idle bank, or splits a class-1 burst when the debt reaches 8. -/
  | bankRefresh (pc : Fin 64) (idle : Bool)
  /-- HBM_TEMP_REPORT (R446). A stack temperature report every 16 µs enters or leaves HOT and rescales tREFI and debt. -/
  | hbmTempReport (stack : Fin 2) (temp : Nat)
  /-- REGION_RECORD_WRITE (R451). A writer places a whole record in its region, wrapping, blocking, overwriting or discarding by MODE and LEN. -/
  | regionRecordWrite (r : Fin 259)
  /-- RGN_CP_WRITE (R452). A write to RGN_CP frees region space, or is refused beyond WP. -/
  | rgnCpWrite (i : Ini) (data : Word)
  /-- RGN_PLACE_WRITE (R452). A write to a region's BASE or LEN takes effect and empties the region, or is refused while it holds records. -/
  | rgnPlaceWrite (i : Ini) (w : Fin 3) (data : Word)
  /-- RLEN_WRITE (R456). A write to RLEN lengthens the ring at once or stages a shortening. -/
  | rlenWrite (i : Ini) (st : Fin 48) (data : Word)
  /-- RLEN_SHORTEN_TAKE (R456). A pending shortening takes effect when the writer reaches L′ with every reader below it. -/
  | rlenShortenTake (st : Fin 48)
  /-- RLEN_FORCE_FIRE (R457). A valid FIRE of RLEN_FORCE applies the new ring length at once and reports any hole as RING_FORCED GAP records. -/
  | rlenForceFire (i : Ini) (data : Word)
  /-- CX_START (R458). CAP_CMD START starts an extraction with t_ref = CX_AT, or counts a miss while busy. -/
  | cxStart (i : Ini) (x : Fin 16)
  /-- CX_ABORT (R460). CAP_CMD CX_ABORT ends an extraction as ABORTED with a CAP_ABORTED GAP, or as COMPLETE with ABORT_LATE. -/
  | cxAbort (i : Ini) (x : Fin 16)
  /-- CAP_CLEAR_COUNTS (R462). CAP_CMD CLEAR_COUNTS zeroes CAP_LOST and CX_MISSES. -/
  | capClearCounts (i : Ini) (x : Fin 16)
  /-- CAPTURE_RECORD_WRITE (R459). An extractor writes a CAPTURE record once its samples are in the ring, or a CAP_EXPIRED GAP for lost samples. -/
  | captureRecordWrite (x : Fin 16)
  /-- MC_CLEAR_COUNTS (R461). MC_CMD CLEAR_COUNTS zeroes MEM_CE, MEM_UE, refresh debts and SPLITS. -/
  | mcClearCounts (i : Ini)
  /-- PFC_FRAME_RECEIVE (R466). A PFC frame with a good FCS updates the pause state of each enabled priority. -/
  | pfcFrameReceive (p : Fin 2) (fcsOk : Bool) (enables : BitVec 8) (timers : List Nat)
  /-- PFC_PAUSE_EXPIRE (R466). A priority's pause timer expires and the priority resumes. -/
  | pfcPauseExpire (p : Fin 2) (prio : Fin 8)
  /-- RX_FRAME_DISCARD (R465). A received frame that is not PFC is discarded and counted in RX_DISCARDS. -/
  | rxFrameDiscard (p : Fin 2)
  /-- FLOW_RECORD_RELEASE (R29). A flow releases a record once every other source has reported progress to its time. -/
  | flowRecordRelease (p : Fin 2) (f : Fin 256)
  /-- PACKET_SEND (R471). The port forms the next packet of a ready flow, round-robin, and sends it, advancing the hash chain. -/
  | packetSend (p : Fin 2)
  /-- SO_LINK_DOWN (R467). The port's link goes down, cutting the packet in transmission and stopping flows. -/
  | soLinkDown (p : Fin 2)
  /-- SO_LINK_UP (R467). The port's link returns and a cut packet is sent again whole. -/
  | soLinkUp (p : Fin 2)
  /-- SO_CLEAR_COUNTS (R481). SO_CMD CLEAR_COUNTS zeroes the port's counters. -/
  | soClearCounts (i : Ini) (p : Fin 2)
  /-- FLUSH_AGE_EXPIRE (R477). A lossless block open for FLUSH_AGE µs ends. -/
  | flushAgeExpire (ctx : Fin 20)
  /-- CONTEXT_STALL_CLEAR (R478). A stalled context resumes when its output buffer has room, ending a pending FLUSH. -/
  | contextStallClear (ctx : Fin 20)
  /-- K_FLUSH (R477). K_CMD FLUSH ends the open block of a standard context. -/
  | kFlush (i : Ini) (ctx : Fin 16)
  /-- K_CLEAR_COUNTS (R482). K_CMD CLEAR_COUNTS zeroes STALLS and SATS of a standard context. -/
  | kClearCounts (i : Ini) (ctx : Fin 16)
  /-- KP_FLUSH (R477). KP_CMD FLUSH ends the open block of a privileged context. -/
  | kpFlush (i : Ini) (ctx : Fin 4)
  /-- KP_SAVE (R479). KP_CMD SAVE ends the block and starts writing the context's history image. -/
  | kpSave (i : Ini) (ctx : Fin 4)
  /-- KP_RESTORE (R479). KP_CMD RESTORE loads a history image into an unused privileged context. -/
  | kpRestore (i : Ini) (ctx : Fin 4)
  /-- KP_CLEAR_COUNTS (R482). KP_CMD CLEAR_COUNTS zeroes STALLS and SATS of a privileged context. -/
  | kpClearCounts (i : Ini) (ctx : Fin 4)
  /-- KP_TRANSFER_DONE (R479). A SAVE or RESTORE ends with its KP_RESULT and raises event 1531. -/
  | kpTransferDone (ctx : Fin 4)
  /-- REPLAY_START (R480). RP_CMD START begins a replay job. -/
  | replayStart (i : Ini)
  /-- REPLAY_ABORT (R480). RP_CMD ABORT ends a replay job as ABORTED, or COMPLETE with ABORT_LATE. -/
  | replayAbort (i : Ini)
  /-- REPLAY_CONTINUE (R480). RP_CMD CONTINUE resumes a job stopped at LIMIT with a fresh RP_MAX. -/
  | replayContinue (i : Ini)
  /-- REPLAY_END (R480). A replay job ends with COMPLETE, LIMIT, BAD_STREAM or DENIED and raises event 1530. -/
  | replayEnd
  /-- DMA_DOORBELL (R496). A write to DHEAD posts descriptors and records its device time. -/
  | dmaDoorbell (i : Ini) (c : Fin 64) (data : Word)
  /-- DESCRIPTOR_START (R489). A channel starts its next descriptor, reading and checking both lists, or ends it with DOMAIN_OFF. -/
  | descriptorStart (c : Fin 64)
  /-- DMA_ELEMENT_DONE (R486). A source or destination element finishes moving, which is where a power abort may stop the transfer. -/
  | dmaElementDone (c : Fin 64)
  /-- DESCRIPTOR_END (R490). A descriptor ends, its CRC is stored and its completion entry is written, or waits in CPL_STALL. -/
  | descriptorEnd (c : Fin 64)
  /-- LEASE_EXPIRE (R495). A lease still held LEASE_US after a power-down request marks the transfer to stop at its next element boundary. -/
  | leaseExpire (c : Fin 64)
  /-- DMA_ABORT (R493). DMA_CMD ABORT ends the running descriptor at the next 32-byte unit and clears EN. -/
  | dmaAbort (i : Ini) (c : Fin 64)
  /-- DMA_CLEAR_COUNTS (R499). DMA_CMD CLEAR_COUNTS zeroes MISALIGNED. -/
  | dmaClearCounts (i : Ini)
  /-- DRLEN_WRITE (R497). A write to DRLEN stages a new ring length. -/
  | drlenWrite (i : Ini) (c : Fin 64) (data : Word)
  /-- DRLEN_TAKE (R497). A pending ring length takes effect when no live descriptor lies beyond it. -/
  | drlenTake (c : Fin 64)
  /-- DRLEN_FORCE_FIRE (R498). A valid FIRE of DRLEN_FORCE applies the ring length at once and writes one FORCED completion. -/
  | drlenForceFire (i : Ini) (data : Word)
  /-- DCPL_TAIL_WRITE (R490). A write to DCPL_TAIL frees completion entries and releases CPL_STALL. -/
  | dcplTailWrite (i : Ini) (c : Fin 64) (data : Word)
  /-- SOFTWARE_EVENT_RAISE (R504). A write to EV_RAISE raises a software event once. -/
  | softwareEventRaise (i : Ini) (data : Word)
  /-- EVENT_DELIVERY (R505). A raised event reaches the event controller, sets pending and asserts the interrupt input of its claim block. -/
  | eventDelivery (n : Fin 1536)
  /-- ENGINE_EVENT_DELIVERY (R509). A raised event reaches every engine whose EVSEL names it and becomes a pending cause. -/
  | engineEventDelivery (n : Fin 1536)
  /-- CLAIM (R506). A read of CLAIM_k returns and clears the highest-priority eligible event with its sequence and merge count. -/
  | claim (i : Ini) (k : Fin 16)
  /-- CLEAR_PENDING (R507). EVC_CMD CLEAR_PENDING clears an event's pending bit and discards its merged count. -/
  | clearPending (i : Ini) (n : Nat)
  /-- EV_CFG_WRITE (R507). A write to EV_CFG changes an event's destination or priority, moving a pending event to its new claim block. -/
  | evCfgWrite (i : Ini) (n : Fin 1536) (data : Word)
  /-- SUMP_REPORT (R510). A fault report reaches the sump and opens a record, counts a duplicate, or overflows. -/
  | sumpReport
  /-- SUMP_ACK (R515). SUMP_CMD ACK closes an open record, writes a SUMP_CLOSE record and frees the slot. -/
  | sumpAck (i : Ini) (slot : Fin 64)
  /-- SUMP_CLEAR_COUNTS (R522). SUMP_CMD CLEAR_COUNTS zeroes SUMP_OVF and clears OVERFLOW. -/
  | sumpClearCounts (i : Ini)
  /-- WIN_COMMIT_FIRE (R541). A valid FIRE of WIN_COMMIT with value 1 sets EPOCH_PENDING for the staged window table. -/
  | winCommitFire (i : Ini) (data : Word)
  /-- WINDOW_EPOCH_COMMIT (R541). At the first REF_IN edge 16 periods after the FIRE, the staged table takes force, WIN_EPOCH increments and the digest updates. -/
  | windowEpochCommit
  /-- EPOCH_DONE (R541). When every old-epoch access has completed, EPOCH_DONE sets and event 1476 is raised. -/
  | epochDone
  /-- KEY_REVOKE_FIRE (R547). A valid FIRE of KEY_REVOKE revokes key slots, refusing one that would leave none usable. -/
  | keyRevokeFire (i : Ini) (data : Word)
  /-- RB_ADVANCE_FIRE (R548). A valid FIRE of RB_ADV starts advancing an anti-rollback counter, refusing a lower value. -/
  | rbAdvanceFire (i : Ini) (data : Word)
  /-- OTP_PROGRAM_DONE (R576). An OTP word finishes programming, or the item ends OTP_EXHAUSTED. -/
  | otpProgramDone (cut : Bool)
  /-- ID_KEY_GENERATE (R552). A FIRE of ID_KEY GENERATE starts deriving the device identity key, refused once provisioned. -/
  | idKeyGenerate (i : Ini) (data : Word)
  /-- ID_KEY_GENERATED (R552). Key generation ends, ID_PUB is written and PROVISIONED sets. -/
  | idKeyGenerated
  /-- ID_KEY_RETIRE (R553). A FIRE of ID_KEY RETIRE zeroises the private key and sets RETIRED. -/
  | idKeyRetire (i : Ini) (data : Word)
  /-- JTAG_LOCK_FIRE (R554). A valid FIRE of JTAG_LOCK programs the fuse that removes register access through the test port. -/
  | jtagLockFire (i : Ini) (data : Word)
  /-- ATT_START (R556). ATT_CMD START snapshots the device at the next REF_IN edge and begins an attestation report. -/
  | attStart (i : Ini)
  /-- ATTESTATION_DONE (R556). The signed report is written, ATT_RESULT is set and event 1495 is raised. -/
  | attestationDone
  /-- EVIDENCE_INSTANT (R558). At an evidence instant, a snapshot is taken for signing, or the instant is skipped with EVD_SKIP. -/
  | evidenceInstant
  /-- EVIDENCE_COMMIT (R558). A signed EVIDENCE record is committed to region 257. -/
  | evidenceCommit
  /-- PD_DOWN_REQUEST (R569). Writing 0 to a PD_REQ bit requests a power-down, refused with IN_USE or deferred by leases and switches. -/
  | pdDownRequest (i : Ini) (m : Fin 32)
  /-- PD_UP_REQUEST (R571). Writing 1 to a PD_REQ bit powers a domain up, or cancels a deferred power-down. -/
  | pdUpRequest (i : Ini) (m : Fin 32)
  /-- POWER_DOWN_DONE (R570). A domain's power is removed, PD_STATE clears and event 1507 is raised. -/
  | powerDownDone (m : Fin 32)
  /-- POWER_UP_DONE (R571). A powered-up domain's registers are ready, PD_STATE sets and event 1507 is raised. -/
  | powerUpDone (m : Fin 32)
  /-- SUPPLY_RESET (R572). VDD_IO falls below its detector threshold and a POWER_ON reset begins. -/
  | supplyReset
  /-- POR_N_ASSERT (R572). The POR_N pin asserts a POWER_ON reset. -/
  | porNAssert
  /-- WARM_N_ASSERT (R572). The WARM_N pin asserts a WARM reset. -/
  | warmNAssert
  /-- THERMAL_TRIP (R599). The trip sensor exceeds 125 °C, asserts THERMTRIP_N and holds a DEVICE reset. -/
  | thermalTrip
  /-- THERMTRIP_CLEAR (R599). The trip sensor reads below 115 °C and the device leaves thermal reset. -/
  | thermtripClear
  /-- RST_CMD_WARM (R572). A valid FIRE of RST_CMD with value 1 starts a WARM reset. -/
  | rstCmdWarm (i : Ini) (data : Word)
  /-- RST_CMD_DEVICE (R572). A valid FIRE of RST_CMD with value 2 starts a DEVICE reset. -/
  | rstCmdDevice (i : Ini) (data : Word)
  /-- RESET_VOLTAGE_READY (R574). The VDD_CORE readback comes within 10 mV of VDD_BOOT, and reset proceeds to OTP sensing and domain release. -/
  | resetVoltageReady (vdd readback : Nat)
  /-- RESET_VOLTAGE_RETRY (R574). Every 100 ms without a good readback the boot voltage command is repeated. -/
  | resetVoltageRetry
  /-- OTP_SENSE_END (R574). OTP sensing ends after a POWER_ON reset, counting PARTIAL words. -/
  | otpSenseEnd
  /-- BOOT_ROM_START (R579). The boot ROM starts on core 0 and runs its stages to handoff or FAILED. -/
  | bootRomStart (trained : Bool) (failedLanes failedEngines failedBanks : List Nat)
  /-- WDOG_CFG_WRITE (R575). A write to WDOG_CFG starts and locks the watchdog. -/
  | wdogCfgWrite (i : Ini) (data : Word)
  /-- WDOG_KICK (R575). Writing 0x0000_4B1C to WDOG_KICK restarts the watchdog count. -/
  | wdogKick (i : Ini) (data : Word)
  /-- WATCHDOG_EXPIRE (R575). The watchdog timeout passes without a kick and causes a WARM reset. -/
  | watchdogExpire
  /-- CORE_EN_WRITE (R582). A write to CORE_EN releases or holds application cores. -/
  | coreEnWrite (i : Ini) (data : Word)
  /-- TEST_LOGIC_RESET (R580). A test-logic reset selects IDCODE and returns the pins from a pin-taking instruction. -/
  | testLogicReset
  /-- BYPASS (R580). TAP instruction BYPASS, also taken by unlisted opcodes. -/
  | bypass (opcode : BitVec 6)
  /-- IDCODE (R580). TAP instruction IDCODE shifts out 0x2614_8969. -/
  | idcode
  /-- SAMPLE_PRELOAD (R580). TAP instruction SAMPLE/PRELOAD samples pins while they stay functional. -/
  | samplePreload
  /-- EXTEST (R580). TAP instruction EXTEST takes the pins and holds the device in reset with cause JTAG. -/
  | extest
  /-- EXTEST_PULSE (R580). TAP instruction EXTEST_PULSE tests AC-coupled SerDes lanes and holds the device in reset. -/
  | extestPulse
  /-- EXTEST_TRAIN (R580). TAP instruction EXTEST_TRAIN tests AC-coupled lanes and holds the device in reset. -/
  | extestTrain
  /-- CLAMP (R580). TAP instruction CLAMP takes the pins and holds the device in reset. -/
  | clamp
  /-- HIGHZ (R580). TAP instruction HIGHZ places the pins in high impedance and holds the device in reset. -/
  | highz
  /-- REG_ACCESS (R580). TAP instruction REG_ACCESS performs a register-space access as initiator 0x1F0, or acts as BYPASS once locked. -/
  | regAccess (write : Bool) (addr : Nat) (data : Word)
  /-- POR_N_RELEASE (R567). The POR_N pin is released with every rail in range, and the reset sequence leaves its held state and proceeds to its phases. -/
  | porNRelease
  /-- CL_SPARE_FAIL (R430). The continuously tested spare engine of a cluster fails its test, is retired, CL_SPARE reads 0x1F, a RETIRE entry is logged and the sump receives a report. -/
  | clSpareFail (c : Fin 8)
  /-- XSPI_CMD (R424). A write to XSPI_CMD of the boot flash controller issues a program or erase command, which is refused as a denied access when it addresses the peat log region. -/
  | xspiCmd (i : Ini) (data : Word)
deriving DecidableEq, Repr

end Sys2Proof
end

