-- ==== Sys2Proof/Decode.lean ====
section
/-! DEFINITION. The command that a word spells. -/
namespace Sys2Proof

/-- The command a word spells by the table's bits. The table gives no row any bits: commands arrive as bus accesses, pin events and events of the units, not as words; so no word spells one. (The instruction words of the Cratre engines and the command entries of the causeway are data that the device fetches from its own memories; Cratre.lean and Causeway.lean read their fields.) -/
def decodeTableWord (_nbits _w : Nat) : Option Instr := none

end Sys2Proof
end

