-- ==== Sys2Proof/Config.lean ====
section
/-! DEFINITION. The free values: what the manual leaves open. None has a body, so nothing can be proved about which value it is. -/
namespace Sys2Proof.Config

/-- The amount, in units of 2^-64 s, by which the holdover oscillator advances device time during the k-th idle step in holdover (R44: the rate is not guaranteed). Log entry 4. -/
opaque holdoverAdvance : Nat → Nat

/-- The number of REF_IN edges that reach the ball during the k-th idle step in holdover (R44, R57: REF_IN may be present while the DLL is not locked). Log entry 4. -/
opaque holdoverEdges : Nat → Nat

/-- The phase of an AUXCLK's spread-spectrum modulation, in REF_IN periods (R55 gives none). Log entry 92. -/
opaque spreadPhase : Nat → Nat

/-- A 32-bit value the manual does not state, drawn with the k-th value of `Dev.fresh`. Log entry 87. -/
opaque freeWord : Nat → Word

/-- A 128-bit value the manual does not state, drawn with the k-th value of `Dev.fresh`. Log entry 87. -/
opaque freeWord128 : Nat → Word128

/-- A natural number the manual does not state, drawn with the k-th value of `Dev.fresh`. Log entry 87. -/
opaque freeNat : Nat → Nat

/-- The check bits [3:0] of an equaliser code, by its bits [31:4] (R98: the code is opaque). Log entry 30. -/
opaque eqCheck : Nat → Nat

/-- Point k of the factory flatness curve of a FORM and a DEC, an 18-bit gain in 2^-16 units (R147: the curves are carried in a factory image the manual does not print). Log entry 33. -/
opaque flatness : Bool → Nat → Nat → BitVec 18

/-- The number of equal codes into which the nominal linear code table of an interpolator divides the REF_IN period (R268: the manual does not print it). Log entry 34. -/
opaque nominalCodes : Nat

/-- The offset in the boot flash at which the 4 MB of the peat log begin (R424: fused at provisioning). Log entry 35. -/
opaque logBase : Nat

/-- The byte of the boot flash at an offset after k program and erase commands, where the model does not know it (R526, R578: the manual states no contents). Log entry 36. -/
opaque flashByte : Nat → Nat → Byte

/-- How long the queue of an edge input takes to pass one stamp on, in 2^-80 s (R246, R247: the manual gives no rate of service, only what it promises). Log entry 44. -/
opaque edgeService : Nat → Nat

end Sys2Proof.Config
end

