-- ==== Sys2Proof/Machine/Bits.lean ====
section
/-! DEFINITION. Bit fields, bytes, signed views and the rounding helpers that the meanings share. -/
namespace Sys2Proof.Machine

/-- The field of `len` bits whose lowest bit is `lo`. -/
def fld {n : Nat} (w : BitVec n) (lo len : Nat) : Nat := (w.toNat >>> lo) % 2 ^ len

/-- One bit. -/
def bit {n : Nat} (w : BitVec n) (i : Nat) : Bool := w.getLsbD i

/-- The word with one field replaced; the value is cut to the field. -/
def put {n : Nat} (w : BitVec n) (lo len : Nat) (v : Nat) : BitVec n :=
  (w &&& ~~~(BitVec.ofNat n ((2 ^ len - 1) <<< lo))) ||| BitVec.ofNat n ((v % 2 ^ len) <<< lo)

/-- The signed value of a field. -/
def sfld {n : Nat} (w : BitVec n) (lo len : Nat) : Int :=
  let v := fld w lo len
  if v < 2 ^ (len - 1) then (v : Int) else (v : Int) - 2 ^ len

/-- A signed value cut to `len` bits, as the two's complement number. -/
def wrapU (len : Nat) (v : Int) : Nat := (v % (2 ^ len : Int)).toNat

/-- The signed value of the low `len` bits of a number. -/
def toS (len : Nat) (v : Nat) : Int :=
  let u := v % 2 ^ len
  if u < 2 ^ (len - 1) then (u : Int) else (u : Int) - 2 ^ len

/-- Saturation to a range. -/
def clampI (lo hi v : Int) : Int := if v < lo then lo else if hi < v then hi else v

/-- The nearer limit of a range of naturals (R66). -/
def clampN (lo hi v : Nat) : Nat := if v < lo then lo else if hi < v then hi else v

/-- Saturation to a signed width. -/
def satS (len : Nat) (v : Int) : Int := clampI (-(2 ^ (len - 1))) (2 ^ (len - 1) - 1) v

/-- Division by 2^k rounding half up (toward plus infinity). -/
def rshr (v : Int) (k : Nat) : Int :=
  match k with
  | 0 => v
  | j + 1 => (v + 2 ^ j) / 2 ^ (j + 1)

/-- a / b rounded half up, for naturals; zero for b = 0. -/
def divRound (a b : Nat) : Nat := (2 * a + b) / (2 * b)

/-- v / m to the nearest, ties away from zero. -/
def roundAway (v : Int) (m : Nat) : Int := if v < 0 then -(divRound v.natAbs m : Nat) else (divRound v.natAbs m : Nat)

/-- The integer square root by bisection over `k` bits: the largest r below 2^k with r² ≤ v. -/
def isqrtBits (k v : Nat) : Nat :=
  match k with
  | 0 => 0
  | j + 1 =>
    let r := isqrtBits j (v / 4)
    let c := 2 * r + 1
    if c * c ≤ v then c else 2 * r

/-- The floor of the base-2 logarithm; zero for zero. -/
def log2N (v : Nat) : Nat := Nat.log2 v

/-- A flag as a bit. -/
def b2n (b : Bool) : Nat := if b then 1 else 0

/-- Saturating addition below 2^len. -/
def satAdd (len a b : Nat) : Nat := min (a + b) (2 ^ len - 1)

/-- The bytes of a number, most significant first. -/
def bytesBE (n v : Nat) : List Byte :=
  match n with
  | 0 => []
  | k + 1 => BitVec.ofNat 8 (v >>> (8 * k)) :: bytesBE k v

/-- The number spelled by bytes, most significant first. -/
def natBE (l : List Byte) : Nat := l.foldl (fun a b => a * 256 + b.toNat) 0

/-- The bytes of a number, least significant first. -/
def bytesLE (n v : Nat) : List Byte :=
  match n with
  | 0 => []
  | k + 1 => BitVec.ofNat 8 v :: bytesLE k (v >>> 8)

/-- The number spelled by bytes, least significant first. -/
def natLE (l : List Byte) : Nat := l.foldr (fun b a => a * 256 + b.toNat) 0

/-- Cuts a list into pieces of `n` elements (the last may be shorter), with fuel for the length. -/
def chunksFuel {α : Type} (n : Nat) : Nat → List α → List (List α)
  | 0, _ => []
  | _ + 1, [] => []
  | k + 1, l => l.take n :: chunksFuel n k (l.drop n)

/-- Cuts a list into pieces of `n` elements. -/
def chunks {α : Type} (n : Nat) (l : List α) : List (List α) := chunksFuel n l.length l

/-- Packs the listed (value, width) fields from the top bit down into one word. -/
def packBE (w : Nat) (l : List (Nat × Nat)) : BitVec w :=
  BitVec.ofNat w (l.foldl (fun a f => a * 2 ^ f.2 + f.1 % 2 ^ f.2) 0)

/-- Replaces one element of a list. -/
def listSet {α : Type} (l : List α) (k : Nat) (x : α) : List α := l.set k x

/-- The element at an index, or a default. -/
def nth {α : Type} (l : List α) (k : Nat) (d : α) : α := l.getD k d

end Sys2Proof.Machine
end

