-- ==== Sys2Proof/Machine/Tab.lean ====
section
/-! DEFINITION. Sparse tables in one canonical form: the register space, HBM, and every per-unit array. -/
namespace Sys2Proof.Machine

/-- A sparse table: (key, value) pairs with strictly rising keys, where an unlisted key holds its default. -/
abbrev Tab (α : Type) := List (Nat × α)

/-- The value listed at a key. -/
def Tab.find? {α : Type} (t : Tab α) (k : Nat) : Option α :=
  match t with
  | [] => none
  | (j, v) :: r => if j = k then some v else Tab.find? r k

/-- The value at a key: the listed one, or the key's default. -/
def Tab.get {α : Type} (dflt : Nat → α) (t : Tab α) (k : Nat) : α :=
  (t.find? k).getD (dflt k)

/-- The table without a key. -/
def Tab.erase {α : Type} (t : Tab α) (k : Nat) : Tab α := t.filter fun e => e.1 != k

/-- The table with a key listed at a value. -/
def Tab.insert {α : Type} (t : Tab α) (k : Nat) (x : α) : Tab α :=
  match t with
  | [] => [(k, x)]
  | (j, v) :: r =>
    if j = k then (k, x) :: r
    else if k < j then (k, x) :: (j, v) :: r
    else (j, v) :: Tab.insert r k x

/-- Writes a value: an entry equal to the default of its key is not listed, so equal tables are equal lists. -/
def Tab.set {α : Type} [DecidableEq α] (dflt : Nat → α) (t : Tab α) (k : Nat) (x : α) : Tab α :=
  if x = dflt k then t.erase k else t.insert k x

/-- The keys rise strictly, all above a bound. -/
def Tab.sortedFrom {α : Type} (t : Tab α) (lo : Nat) : Bool :=
  match t with
  | [] => true
  | (k, _) :: r => decide (lo ≤ k) && Tab.sortedFrom r (k + 1)

/-- The canonical form: keys strictly rising and no entry equal to the default of its key. -/
def Tab.wf {α : Type} [DecidableEq α] (dflt : Nat → α) (t : Tab α) : Bool :=
  t.sortedFrom 0 && t.all fun e => decide (e.2 ≠ dflt e.1)

/-- Drops every entry whose key satisfies a test: those keys return to their defaults. -/
def Tab.drop {α : Type} (p : Nat → Bool) (t : Tab α) : Tab α :=
  t.filter fun e => !p e.1

end Sys2Proof.Machine
end

