-- ==== Sys2Proof/Machine/Dev.lean ====
section
/-! DEFINITION. The state of the device: the register file, and the state of each unit that no register holds. All of it is plain data. -/
namespace Sys2Proof.Machine

/-- A record: its 128-bit words, header first (R31). -/
abbrev Rec := List Word128

/-- What the bus last answered to the sender of a register access: a normal completion with data, or an error response (R528, R543, R571). -/
structure Resp where
  ok : Bool := true
  data : Word := 0
deriving DecidableEq, Repr

/-- A pending arm of a guarded register (R534): its ARM key, its initiator, the armed value and its time. -/
structure Arm where
  key : Nat
  ini : Ini
  val : Word
  time : Nat
deriving DecidableEq, Repr

/-- A posted write between acceptance and effect (R531): the initiator, the key, the low word staged with a high-word write, the data and the time of acceptance. -/
structure PostedW where
  ini : Ini
  key : Nat
  low : Option Word
  data : Word
  time : Nat
deriving DecidableEq, Repr

/-- A fault report on its way to the sump (R510). -/
structure Report where
  time : Nat
  port : Nat
  root : Nat
  code : Nat
deriving DecidableEq, Repr

/-- A pulse on its way to the trigger fabric: the source code, its cause time in device-time units, and the cause's device-time word, physical lane and detail word of a TRIGGER record (R175, R195, R196); `own` marks this device's own cross-trigger frame; `path` is the source whose path it took first, from REF_IN edge `from_` on (R22, R194). -/
structure Pulse where
  code : Nat
  cause : Nat
  word : Word128 := 0
  phys : Nat := 0xFF
  detail : Word128 := 0
  own : Bool := false
  path : Nat := 0
  from_ : Nat := 0
deriving DecidableEq, Repr

/-- A requested window-table commit (R541): the number of the REF_IN edge, 16 periods later, at which it takes force, and whether it has. -/
structure WinPend where
  edge : Nat
  forced : Bool
deriving DecidableEq, Repr

/-- One timebase output (R54 to R58): running, parked after its shots, DIV − 1 in force, the delay in force, the edge number at which its present series of periods began; of its MODE 1 pulses, those emitted up to an edge, and that edge; and the period start at which the delay moved last. -/
structure OutSt where
  running : Bool := false
  parked : Bool := false
  divm1 : Nat := 0
  delay : Nat := 0
  t0 : Nat := 0
  shots : Nat := 0
  since : Nat := 0
  walked : Option Nat := none
deriving DecidableEq, Repr

/-- The timebase (chapter Device Time and the Reference). `dt` is device time in units of 2^-64 s (R46); `jump` is what sets of the time of day have added to it (R51), so that durations are taken without it; `edges` counts REF_IN edges since the release of the timebase; `syncEdge` is the edge at which a sync was requested. -/
structure Tb where
  dt : Nat := 0
  jump : Nat := 0
  remAcc : Nat := 0
  period : Nat := 14411518807
  remNum : Nat := 45749
  remDen : Nat := 78125
  edges : Nat := 0
  refPresent : Bool := true
  refSince : Nat := 0
  freqPresent : Bool := true
  gateOpen : Bool := false
  goodGates : Nat := 0
  warmPin : Bool := false
  ppsLast : Option Nat := none
  ppsDue : Option Nat := none
  syncAt : Option Nat := none
  syncMask : Nat := 0
  syncLate : Bool := false
  syncEdge : Nat := 0
  outs : Tab OutSt := []
  ptp : List (Word × Word128) := []
deriving DecidableEq, Repr

/-- The sump (R510 to R516): reports on their way, the full time FIRST of each slot, and the run of skipped records: the time of the first one, and how many. -/
structure SumpSt where
  reports : List Report := []
  first : Tab Nat := []
  skipFrom : Nat := 0
  skipped : Nat := 0
deriving DecidableEq, Repr

/-- The event network: raises not yet delivered to the controller and to the engines, the merged counts and the latest sequence numbers (R503 to R509). -/
structure EvSt where
  toCores : List (Nat × Nat) := []
  toEngines : List (Nat × Nat) := []
  merged : Tab Nat := []
  latest : Tab Nat := []
deriving DecidableEq, Repr

/-- One setup slot (R363): 0 EMPTY, 1 HELD, 2 ARMED, 3 IN_FORCE, with the words it holds. -/
structure Slot where
  st : Nat := 0
  words : List Word128 := []
deriving DecidableEq, Repr

/-- One armed group (R373 to R376): its pairs of target number and slot, the armed instant, the acknowledgements, whether the decision found it late, word 0 of its command, and, once committed, the REF_IN edge of the commit, whether the strobe has come, T_eff, and the targets past their boundaries. -/
structure Grp where
  num : Nat
  tag : Nat
  pairs : List (Nat × Nat)
  time : Nat
  postpone : Bool
  acked : List Nat := []
  committed : Bool := false
  late : Bool := false
  cmd : Word128 := 0
  edge : Nat := 0
  strobed : Bool := false
  teff : Nat := 0
  passed : List Nat := []
deriving DecidableEq, Repr

/-- One completion entry waiting for the completion ring (R370): its four words. -/
abbrev Done := List Word128

/-- The causeway (chapter The Causeway): slots keyed 16 t + slot, armed groups in order, tables and images keyed by target code, the next group number, the completions not yet written and whether a denied write holds them back, and the switches each target has taken. -/
structure CwSt where
  slots : Tab Slot := []
  groups : List Grp := []
  tables : Tab (List Word128) := []
  images : Tab (List Word128) := []
  next : Nat := 0
  waiting : List Done := []
  held : Bool := false
  switches : Tab Nat := []
deriving DecidableEq, Repr

/-- One complex sample at a lane input: its parts, whether it is port zero-fill and of which cause, and whether it saturated in the DDC (R87). -/
structure Smp where
  re : Int := 0
  im : Int := 0
  fill : Nat := 0
  sat : Bool := false
deriving DecidableEq, Repr

/-- A run of lane-input samples from index `start`: listed samples, or `n` zero-fill samples of a cause. -/
structure Seg where
  start : Nat
  n : Nat
  cause : Nat := 0
  data : List Smp := []
deriving DecidableEq, Repr

/-- The time-domain trigger of a stream (R176, R177): the number of lane switches whose setup it follows, which directions are armed, and their runs. -/
structure TdSt where
  key : Nat := 0
  riseArmed : Bool := false
  fallArmed : Bool := false
  rise : Nat := 0
  fall : Nat := 0
deriving DecidableEq, Repr

/-- A series of port sample instants (R84): sample k, from k0 on, is at base + (k − k0) × num / den, in units of 2^-64 s rounded down. -/
structure Series where
  base : Nat := 0
  k0 : Nat := 0
  num : Nat := 0
  den : Nat := 1
deriving DecidableEq, Repr

/-- From lane-input index `idx` on, lane inputs are the port samples off, off + step, off + 2 step, … of a series. -/
structure Mark where
  idx : Nat
  off : Nat
  step : Nat
  ser : Series
deriving DecidableEq, Repr

/-- One stream (R76 to R96): whether a setup defines it, and whether its samples have begun; the next lane-input index and where the indices lie in time; the DDC inputs taken since the last output, and the NCO phase of the next input in 2^-48 turns (R86); the start and cause of a running loss, and the tag from which the DDC has taken only zeros; the settling spans, as ranges of output tags; the lane-input samples held; its time-domain trigger; whether it is shed, the frame boundary from which its lanes do no work, the instant at which it last returned, and from when its GAP records go on (R419). -/
structure StreamSt where
  on : Bool := false
  live : Bool := false
  next : Nat := 0
  marks : List Mark := []
  phase : Nat := 0
  nco : Nat := 0
  gapFrom : Option Nat := none
  gapCause : Nat := 0
  zeroFrom : Nat := 0
  settle : List (Nat × Nat) := []
  segs : List Seg := []
  td : TdSt := {}
  shed : Bool := false
  shedAt : Nat := 0
  shedEnd : Nat := 0
  shedFrom : Option Nat := none
deriving DecidableEq, Repr

/-- The part of a released extended multiblock that lies at or after the boundary of a committed port setup (R374): its number, the words of its converters, and the stream sample up to which it reaches. -/
structure Held where
  emb : Nat
  words : List (List Nat)
  upto : Nat
deriving DecidableEq, Repr

/-- One sample port (R69 to R101): whether its link has been up; the series of its stream samples and the next of them; the next extended multiblock; the anchor as time since release and as REF_IN edge; whether a fault is open, its first cause, and up to which device time faults have lasted; the converter samples lost to CRC faults; the CRC fault history per lane; the equaliser calibration: deferred, adapted (and when) widths and lanes, staged codes, what each swapped lane would revert to, the lanes a swap has made live with the extended multiblock that began there, the lanes to revert, the temperature at its start; the codes and widths of physical lanes no logical lane shows; the REF_IN edge of the last setup switch. -/
structure PortSt where
  live : Bool := false
  ser : Series := {}
  pos : Nat := 0
  emb : Nat := 0
  anchorUp : Nat := 0
  anchorEdge : Nat := 0
  open_ : Bool := false
  cause : Nat := 0
  faultAt : Nat := 0
  bads : List (Nat × Nat) := []
  crc : Tab (List Nat) := []
  eqAdapted : Bool := false
  eqDeferred : Bool := false
  eqAt : Nat := 0
  eqEyes : List Nat := []
  eqPass : List Nat := []
  eqStaged : Tab (Option Word) := []
  eqPrev : Tab (Option (Nat × Word)) := []
  eqFresh : List Nat := []
  eqEmb : Nat := 0
  eqRevert : List Nat := []
  eqTemp : Int := 0
  eqIdle : Tab (Nat × Word) := []
  switchEdge : Option Nat := none
  held : Option Held := none
deriving DecidableEq, Repr

/-- What a computed frame hands to the detector, the mask comparator and the density updater (R115). -/
structure Frame where
  lane : Nat
  gov : Nat
  idx : Nat
  t0 : Nat
  tMid : Nat
  tEnd : Nat
  log2n : Nat
  exp : Nat
  bins : List (Int × Int)
  fill : Bool
  mixed : Bool
  settling : Bool
  sat : Bool
  phys : Nat
  cond : Bool
  shadowed : Bool
  mismatch : Bool
  gridEnd : Bool
deriving DecidableEq, Repr

/-- One logical lane (R105 to R110, R126 to R133). `gridOn`, `b0` (the lane-input index of the grid origin), `mixAt` (boundaries for MIXED) and `tdOld` (the boundary of its last switch, and the trigger word before it) are the governing lane's; `next` is the next frame the lane computes; `ord` is the next frame of the gang's frame order that the detector, mask and density stages take, and `ready` holds the frames that wait for their place in it; the options hold where a run of fill, overrun, lost or OUT_OF_SERVICE frames began; `brought` is the group of the switch that brought the lane into use. -/
structure LaneSt where
  gridOn : Bool := false
  b0 : Nat := 0
  mixAt : List Nat := []
  tdOld : Option (Nat × Word128) := none
  next : Nat := 0
  fillFrom : Option (Nat × Nat) := none
  overFrom : Option Nat := none
  lostFrom : Option Nat := none
  oosFrom : Option Nat := none
  brought : Option Nat := none
  ord : Nat := 0
  ready : List Frame := []
deriving DecidableEq, Repr

/-- A running shadow (R130): the relieved logical lane, its first and last-plus-one frame, whether a comparison failed, and whether a setup switch ends it there (R19). -/
structure Shadow where
  lane : Nat
  first : Nat
  stop : Nat
  mismatch : Bool := false
  cut : Bool := false
deriving DecidableEq, Repr

/-- One lane group: the shadow, the lanes that wait for a takeover with their detection times (R132), whether the spare runs and has passed its known-answer tests, the lane relieved last, the start of the last rotation (R129, R429), and the lanes whose detector or grid SRAM failed with no spare bank left (R167, R211). -/
structure GroupSt where
  shadow : Option Shadow := none
  takeover : List (Nat × Nat) := []
  katRun : Bool := false
  katOk : Bool := false
  lastLane : Nat := 11
  rotAt : Nat := 0
  detBad : List Nat := []
  densBad : List Nat := []
deriving DecidableEq, Repr

/-- The floor unit's peat log buffer (R427): kind, payload and time word of each waiting entry. -/
structure LogEntry where
  kind : Nat
  payload : Word128
  time : Word128
deriving DecidableEq, Repr

/-- One member's part of a reduction in progress (R150 to R153): the spectra accumulated, the latest frame, whether a value saturated, and per bin the DF48 values and the excision count. -/
structure DetPart where
  m : Nat := 0
  last : Nat := 0
  sat : Bool := false
  peak : List Nat := []
  least : List Nat := []
  samp : List Nat := []
  sa : List Nat := []
  sv : List Nat := []
  s1 : List Nat := []
  s2 : List Nat := []
  exc : List Nat := []
deriving DecidableEq, Repr

/-- The detector stage of a stream (R142, R149): the first frame of the run, the number of the reduction in progress, whether a frame of it has passed, its members' parts, the marks it carries, and the lanes whose detector SRAM failed in it (R167). -/
structure DetSt where
  run : Option Nat := none
  r : Nat := 0
  opened : Bool := false
  parts : Tab DetPart := []
  mixed : Bool := false
  settling : Bool := false
  sat : Bool := false
  fill : Bool := false
  mismatch : Bool := false
  cond : Bool := false
  hits : List Nat := []
deriving DecidableEq, Repr

/-- Flatness verification of a group (R168, R169): the die temperature at the last one, and whether a request waits behind the running one. -/
structure FlatSt where
  temp : Option Int := none
  again : Bool := false
deriving DecidableEq, Repr

/-- The QUAL counts of a stream's mask comparator (R180). -/
structure MaskSt where
  upper : Nat := 0
  lower : Nat := 0
deriving DecidableEq, Repr

/-- A frozen grid (R209): the density words it was counted under, its weight, and its members' counters. -/
structure Frozen where
  word : Word128
  wt : Nat
  width : Nat
  cells : List (Tab Nat)
deriving DecidableEq, Repr

/-- The sweep of a sliding grid (R209): when it began, the next counter it visits, the epoch's records whose counters are not all read, and the counters read for the first of them. -/
structure Sweep where
  at_ : Nat
  pos : Nat
  recs : List Rec
  read : List Nat
deriving DecidableEq, Repr

/-- The density updater of a stream (R207, R208): the first frame of its epochs, the epoch in progress, the spectra counted and computed in it, the carried weight, the region count and whether DENS_HIT has pulsed, the marks, the lanes whose grid SRAM failed in it (R211), the frozen grid, the span of the epoch being read out, and the sweep of a sliding grid. -/
structure DensSt where
  run : Option Nat := none
  e : Nat := 0
  opened : Bool := false
  m : Nat := 0
  computed : Nat := 0
  wt : Nat := 0
  region : Nat := 0
  hit : Bool := false
  sat : Bool := false
  mixed : Bool := false
  settling : Bool := false
  cond : Bool := false
  hits : List Nat := []
  frozen : Option Frozen := none
  span : Option (Nat × Nat) := none
  sweep : Option Sweep := none
deriving DecidableEq, Repr

/-- A sequencer (R185): its count, the REF_IN edge and the pulse that opened its window, the edge of the fire whose holdoff runs, and the LINE_A pulses since the last fire. -/
structure QsSt where
  count : Nat := 0
  win : Option (Nat × Pulse) := none
  hold : Option Nat := none
  pulses : Nat := 0
deriving DecidableEq, Repr

/-- A BLANK pin (R188): asserted with the REF_IN edge of its release, the pulses absorbed and the last of them. -/
structure BlankSt where
  until_ : Option Nat := none
  count : Nat := 0
  last : Option Pulse := none
deriving DecidableEq, Repr

/-- A timer (R183): the instant and the REF_IN edge from which it may pulse next. -/
structure TimerSt where
  at_ : Nat
  edge : Nat
deriving DecidableEq, Repr

/-- A frame on a cross-trigger line (R192, R193): the REF_IN edge of its start, device and code. -/
structure XtFrame where
  start : Nat
  dev : Nat
  code : Nat
deriving DecidableEq, Repr

/-- A cross-trigger line (R192 to R194): the frame being sent, the pulse that waits for one with the REF_IN edge of its arrival, own frames that will pulse, received frames that will pulse (by the start of each as it arrived), and the edge of the last fault. -/
structure XtSt where
  sending : Option XtFrame := none
  pending : Option Nat := none
  ownDue : List XtFrame := []
  rxDue : List XtFrame := []
  fault : Option Nat := none
deriving DecidableEq, Repr

/-- A TRIGGER record of the current step, not yet in its place (R195, R196): its kind and unit, its cause, COUNT, FORCED, COND and SWITCHES. -/
structure FabRec where
  kind : Nat
  unit : Nat
  pulse : Pulse
  count : Nat
  forced : Bool
  cond : Bool
  sw : Nat
deriving DecidableEq, Repr

/-- The trigger fabric (R184 to R198): the bank in force, the commit that is armed, sequencers, TRIG pins with the REF_IN edge that ends their active level, BLANK pins, timers, cross-trigger lines, the REF_IN edge and the instant of the present step with the pulses that have arrived and the records formed in it, and the run of skipped records: from when, how many, and whether a condition failed on the path of one. -/
structure FabSt where
  bank : Tab Word := []
  commitAt : Option Nat := none
  qs : Tab QsSt := []
  trig : Tab (Option Nat) := []
  blank : Tab BlankSt := []
  timers : Tab (Option TimerSt) := []
  xt : Tab XtSt := []
  stepEdge : Nat := 0
  stepAt : Nat := 0
  seen : List Pulse := []
  step : List FabRec := []
  skipFrom : Nat := 0
  skipped : Nat := 0
  skipCond : Bool := false
deriving DecidableEq, Repr

/-- What an edge input hands to a statistics unit (R270): 0 a stamp, 1 a GAP, 2 a disable. `w` and `w1` are device-time words of the start and, for a GAP, of the end; `k` is a stamp's crossing index, and within a unit its unit index (R273), or what a GAP lost; `beta` is the MEAN_BIN default of R275 in fs; `flags` follow EXCL of R282, bit 4 COND. -/
structure SuItem where
  kind : Nat
  t : Nat
  t1 : Nat := 0
  w : Word128 := 0
  w1 : Word128 := 0
  edge : Bool := false
  k : Int := 0
  flags : Nat := 0
  beta : Nat := 600
  cause : Nat := 0
deriving DecidableEq, Repr

/-- The sums of a batch (R283, R284): included samples, their sums and extremes, the reference times, and the counts of word 8. -/
structure SuBatch where
  n : Nat := 0
  s1 : Int := 0
  s2 : Nat := 0
  lo : Int := 0
  hi : Int := 0
  first : Nat := 0
  last : Word128 := 0
  gapped : Bool := false
  cond : Bool := false
  rejected : Nat := 0
  excluded : Nat := 0
  orphans : Nat := 0
  gaps : Nat := 0
deriving DecidableEq, Repr

/-- The regression sums of PERIOD (R285), relative to the first stamp. -/
structure SuReg where
  n : Nat := 0
  t0 : Nat := 0
  k0 : Int := 0
  u : Int := 0
  uu : Int := 0
  t : Int := 0
  ut : Int := 0
deriving DecidableEq, Repr

/-- One INTERVAL entry (R289): its reference time and its two data words but for OFFSET. -/
structure SuEntry where
  t : Nat
  head : Nat
  x : Int
deriving DecidableEq, Repr

/-- An open INTERVAL record (R288): the header time, when it opened, its COND state, the number of its first entry, and its entries. -/
structure SuRec where
  t0 : Nat
  w : Word128
  opened : Nat
  cond : Bool
  first : Nat
  ents : List SuEntry
deriving DecidableEq, Repr

/-- One input of a unit: the stamps not yet scanned, the candidate of the rejection scan, the survivors, the stamps rejected, and a running overrun as the GAP it will be (R271, R272, R286). -/
structure SuIn where
  buf : List SuItem := []
  cand : Option SuItem := none
  live : List SuItem := []
  off : Nat := 0
  overrun : Option SuItem := none
deriving DecidableEq, Repr

/-- A taken configuration that waits until every stamp before its T_c has been processed (R292): its registers, T_c, the stamps at or after T_c of its inputs, and how far a GAP of its IN_A reaches that began before T_c. -/
structure SuNext where
  cfg : List Word
  at_ : Nat
  a : SuIn := {}
  b : SuIn := {}
  gapTo : Nat := 0
deriving DecidableEq, Repr

/-- A stamp statistics unit (R270 to R292): its configuration in force with T_c, the taken ones that wait, in order, its inputs, the pairing state, the last stamp of the regression, the gate, the batch and the records. -/
structure SuSt where
  cfg : List Word := []
  since : Nat := 0
  nexts : List SuNext := []
  a : SuIn := {}
  b : SuIn := {}
  start : Option SuItem := none
  skipped : Nat := 0
  held : Option SuItem := none
  prev : Option SuItem := none
  pend : List (SuItem × Option SuItem) := []
  bs : List SuItem := []
  last : Option SuItem := none
  gate : Nat := 0
  gateN : Nat := 0
  gateFlags : Nat := 0
  gapTo : Nat := 0
  batch : SuBatch := {}
  cum : SuBatch := {}
  reg : SuReg := {}
  batchNo : Nat := 0
  restart : Bool := false
  open_ : Option SuRec := none
  later : List (Word128 × Nat × Bool × List Word128) := []
  entries : Nat := 0
  sw : Nat := 0
  skipFrom : Word128 := 0
  skips : Nat := 0
  skipCond : Bool := false
deriving DecidableEq, Repr

/-- The statistics block: the bank in force, an armed commit, the units. -/
structure StatsSt where
  bank : Tab Word := []
  commitAt : Option Nat := none
  units : Tab SuSt := []
deriving DecidableEq, Repr

/-- The code table of an interpolator (R251, R253, R268): its chain, its live codes, F (empty: the nominal table), whether it stems from a calibration since reset, whether it predates a commit of PERIOD, and CAL_COUNT of the interpolator with it. -/
structure IpTab where
  chain : Nat := 0
  ncodes : Nat := 8192
  f : List Word := []
  cal : Bool := false
  stale : Bool := false
  meanBin : Nat := 600
  gen : Nat := 0
deriving DecidableEq, Repr

/-- An accepted calibration of an interpolator, not yet in force: its table, QUALITY and MEAN_BIN; a restored image has neither (R253, R260). -/
structure IpNew where
  ip : Nat
  tab : IpTab
  quality : Nat
  meanBin : Nat
  image : Bool
deriving DecidableEq, Repr

/-- An open block of stamps (R261 to R263): its header time and word, when it opened, COND, whether an entry is excess (R247), UNCAL, the fields of word 2 fixed at opening, PHYS, SWITCHES, T_EN and INIT_LEVEL where it is the first after T_EN, and its entries. -/
structure EiBlk where
  t0 : Nat
  w : Word128
  opened : Nat
  cond : Bool
  excess : Bool
  uncal : Bool
  base : Nat
  phys : Nat
  sw : Nat
  init : Option (Nat × Bool)
  ents : List Nat
deriving DecidableEq, Repr

/-- A GAP of stamps that is not yet written: its start, the crossings lost, PHYS (R247, R248). -/
structure EiGap where
  t0 : Nat
  w : Word128
  count : Nat
  phys : Nat
deriving DecidableEq, Repr

/-- What changes for the crossings of an input at an instant: it is enabled with INIT_LEVEL and a prescaler phase (R241, R244); its bank changes, and the change may disable it (R242, R265); tables take force, and an interpolator may become live (R255, R256); an interpolator becomes live (R248); a ramp starts (R243); an interpolator faults, and the survivor takes over (R248). Words are device-time words of the instant. -/
inductive EiAct where
  | enable (level : Bool) (pre : Nat)
  | bank (words : Tab Word) (off : Bool) (w : Word128)
  | tables (l : List IpNew) (ip : Option Nat)
  | live (ip : Nat)
  | mark (w : Word128)
  | fault (w : Word128)
  | takeover (ip : Nat) (w : Word128)
deriving DecidableEq, Repr

/-- A change that the crossings of an input have still to meet: a crossing reaches its interpolator D_FIX after the ball, so that crossings before the instant may still come (R242, R250, R255). The instant is given as time since release and as device time. -/
structure EiLag where
  at_ : Nat
  t : Nat
  act : EiAct
deriving DecidableEq, Repr

/-- One edge input (R236 to R264), in three parts. The front end: `pwrAt` is the commit that set PWR; `enAt` is T_EN, `window` is T_EN while the initial window is open, `unk` is the T_EN whose window has found the input near the threshold; the static changes of the threshold that crossings may still see (R239); a waiting ramp, a running one by REF_IN edge and start, and past ones as start and end; the trim in force while a newer one waits; the REF_IN edge of a fault whose takeover is due. The crossing path, as crossings see it: `lag` holds changes they have still to meet; the bank, whether the input is enabled, the live interpolator, whether it runs alone after a fault (R248), the code tables; the comparator level, the last crossing, the prescaler's count, the interpolator dealt next, the crossing index; `tat` and `busy` are the token bucket and the queue's service in 2^-80 s (R246, R247); losses, waiting GAPs, the open block, SWITCHES, and T_EN with INIT_LEVEL until a block has carried them. Calibration: `run` lists the interpolators under test and the run's start; `swap` holds accepted tables with the REF_IN edge at which they were ready. -/
structure EiSt where
  pwrAt : Option Nat := none
  enAt : Nat := 0
  window : Option Nat := none
  unk : Option Nat := none
  settles : List Nat := []
  rampPend : Option Nat := none
  ramp : Option (Nat × Nat) := none
  ramped : List (Nat × Nat) := []
  trimWas : Option Nat := none
  faultEdge : Option Nat := none
  lag : List EiLag := []
  bank : Tab Word := []
  on : Bool := false
  ip : Nat := 0
  solo : Bool := false
  tab0 : IpTab := {}
  tab1 : IpTab := {}
  level : Option Bool := none
  last : Option Nat := none
  pre : Nat := 0
  alt : Nat := 0
  idx : Nat := 0
  tat : Nat := 0
  busy : Nat := 0
  losing : Bool := false
  gap : Option EiGap := none
  fault : Option EiGap := none
  blk : Option EiBlk := none
  sw : Nat := 0
  init : Option (Nat × Bool) := none
  run : Option (List Nat × Nat) := none
  swap : List (IpNew × Nat) := []
  staged : List IpNew := []
  again : Bool := false
  deferred : Bool := false
  temp : Option Int := none
  enabledOnce : Bool := false
  autoDue : Bool := false
  img0 : Tab Word := []
  img1 : Tab Word := []
deriving DecidableEq, Repr

/-- The edge-input block: the bank in force, an armed commit and an armed commit of staged tables, the inputs. -/
structure EdgeSt where
  bank : Tab Word := []
  commitAt : Option Nat := none
  ilvAt : Option Nat := none
  ins : Tab EiSt := []
deriving DecidableEq, Repr

/-- An image of the frame store (R222): its size, Y of every pixel row by row, and Cb and Cr of every 2 × 2 block. -/
structure Pic where
  w : Nat
  h : Nat
  y : List Nat
  c : List (Nat × Nat)
deriving DecidableEq, Repr

/-- A render in progress (R223): the image it makes, and the banked sources it reads, as streams with their epochs ended when it began. -/
structure Render where
  pic : Pic
  srcs : List (Nat × Nat)
deriving DecidableEq, Repr

/-- The display (R220 to R230): which of the two buffers is the front one, whether the back one is ready, the render in progress, the epochs each stream had ended when the last render began, the timing in force and the staged one (DISP_H, DISP_HS, DISP_V, DISP_VS, VTOTAL_MAX, PCLK_KHZ, DISP_CTRL, FB_BASE), a requested crema flip, the trained link and the one in training as LINK_RATE and lanes, whether training has failed since the last start of it, the next line, the lines held of a fetch from HBM as the Y, Cb and Cr of each pixel that has arrived (R226), the line last sent, the AUX transaction in progress, and the bytes of the on-chip frame store that have been written. -/
structure DispSt where
  front : Nat := 0
  ready : Bool := false
  render : Option Render := none
  epochs : List Nat := []
  cur : List Word := []
  staged : Option (List Word) := none
  flip : Bool := false
  link : Option (Nat × Nat) := none
  goal : Nat × Nat := (1, 4)
  failed : Bool := false
  shown : Bool := false
  line : Nat := 0
  held : List (List (Option (Nat × Nat × Nat))) := []
  sent : List Nat := []
  aux : Option Word := none
  store : Tab Byte := []
deriving DecidableEq, Repr

/-- What a Cratre instruction writes (R307, R346): a vector, an accumulator or a third of one, a special register by its SREG number, the flags VCNZ, sticky bits to set in SR, and AOV bits to set. -/
inductive CrDst where
  | v (k : Nat) | acc (k : Nat) | accPart (k j : Nat) | s (k : Nat) | flags | sticky | aovOr
deriving DecidableEq, Repr

/-- One logical engine (R302 to R335). `loads` reach their registers after the next instruction (R312); `stale` lists the special registers the last instruction wrote with the values the loop and address hardware still sees; `slot` is a branch waiting for its delay slot (0 a target, 1 RET, 2 RTE, 3 none); `rep` is what is left of a REP; `aovDue` an AOV cause held to a REP's end; `stop` a stop asked for at the next boundary (1 HALT, 2 loading); `steps` counts steps issued and `since` is the count at which the oldest event input came that no entry has answered; `c` and `cShadow` are the coefficient banks, `shadow` the image in the shadow banks; `bm` is the block move in progress; `testedAt` is when the last whole known-answer test passed; `bad` lists the words of the engine's memories that are uncorrectable (R303): a data word by its address / 16, a word of the shadow C bank by 0x110000 + its number, an instruction by 0x100000 + its address. `lastCommit` is when the source last committed, `begun` when its image last started. -/
structure EngSt where
  state : Nat := 0
  cause : Nat := 0
  fault : Nat := 0
  pc : Nat := 0
  v : Tab Word128 := []
  acc : Tab (BitVec 320) := []
  p : Tab Nat := []
  m : Tab Word := []
  lc : Nat := 0
  ls : Nat := 0
  le : Nat := 0
  sr : Word := 0
  ra : Nat := 0
  ssr : Word := 0
  aov : Word := 0
  loads : List (CrDst × Nat) := []
  stale : List (Nat × Nat) := []
  slot : Option (Nat × Nat) := none
  rep : Option Nat := none
  aovDue : Bool := false
  stop : Nat := 0
  steps : Nat := 0
  since : Option Nat := none
  even : Nat := 0
  pend : Nat := 0
  evseq : Tab Nat := []
  x : Tab Word128 := []
  y : Tab Word128 := []
  c : Tab Word128 := []
  cShadow : Tab Word128 := []
  prog : List Word128 := []
  nprog : Nat := 0
  entry : Nat := 0
  vbase : Nat := 0
  shadow : Option (List Word128) := none
  out : List Word128 := []
  ovf : Bool := false
  lastCommit : Option Nat := none
  begun : Nat := 0
  bm : Option Word128 := none
  bmRes : Nat := 0
  testing : Bool := false
  testedAt : Option Nat := none
  bad : List Nat := []
deriving DecidableEq, Repr

/-- A stream window (R319 to R321): the words held from the tail on, the ring offset of the tail, the stamp records on their way, where its feeder is in the source (words of the region since the setting of its place numbered `gen`, or the index of the next sample of a ring), the time and header of the record it delivered last, the sequence number of its own records, and a run of losses. -/
structure WinSt where
  data : List Word128 := []
  tail : Nat := 0
  queue : List Rec := []
  pos : Nat := 0
  gen : Nat := 0
  at_ : Option Int := none
  last : Word128 := 0
  lastHead : Word128 := 0
  seq : Nat := 0
  lost : Option (Word128 × Word128 × Nat) := none
deriving DecidableEq, Repr

/-- A cluster: its windows, shared memory with the numbers of its uncorrectable words (R303), and a switch in progress with T_sw and the engines it touches (R328). -/
structure ClSt where
  wins : Tab WinSt := []
  shared : Tab Word128 := []
  bad : List Nat := []
  loading : Option (Nat × List Nat) := none
deriving DecidableEq, Repr

/-- A memory request the scheduler has accepted (R441, R443): its initiator, its bytes, its class, the promotions so far, when it was accepted, and whether it found too few tokens. -/
structure MemReq where
  ini : Ini
  write : Bool
  addr : Nat
  size : Nat
  data : List Byte
  cls : Nat
  promo : Nat
  since : Nat
  short : Bool
  epoch : Nat
deriving DecidableEq, Repr

/-- A requester port (R440, R441): its accepted requests, the tokens its bucket lacks, in 2^-64 bytes, and since when, the bytes moved below a 256-byte unit, and the last response to a request: whether it was an error, and the data read. -/
structure MemPort where
  reqs : List MemReq := []
  lacks : Nat := 0
  at_ : Nat := 0
  part : Nat := 0
  resp : Option (Bool × List Byte) := none
deriving DecidableEq, Repr

/-- A record region (R451, R452): its place and mode, WP and CP in 16-byte units, the counts of RGN_STAT, the words written since its place was set with the number of that setting, and the records overwritten since its consumer last read: header words of the first one, and how many. -/
structure Region where
  base : Nat := 0
  len : Nat := 0
  mode : Bool := false
  wp : Nat := 0
  cp : Nat := 0
  overs : Nat := 0
  disc : Nat := 0
  total : Nat := 0
  gen : Nat := 0
  lost : Option (Word128 × Word128 × Nat) := none
deriving DecidableEq, Repr

/-- The memory controller: its ports, the 32-byte units that are uncorrectable, the refresh debt of each pseudo-channel and the banks refreshed toward its next payment, the end of each stack's last tREFI, the pseudo-channels whose debt must reach zero before a payment may be postponed, whether the stacks are trained, by pseudo-channel the port whose request the scheduler has taken (R443), and the record regions (R439 to R452). -/
structure McSt where
  ports : Tab MemPort := []
  ue : List Nat := []
  debt : Tab Nat := []
  paid : Tab Nat := []
  refi : Tab Nat := []
  catchUp : List Nat := []
  trained : Bool := false
  flight : Tab (Option Nat) := []
  regions : Tab Region := []
deriving DecidableEq, Repr

/-- A run of samples held in a ring: its offset, the index of its first sample, and how many. -/
structure Run where
  off : Nat
  idx : Nat
  n : Nat
deriving DecidableEq, Repr

/-- A capture ring (R453 to R457): the tag of its next sample as of the last one taken (none: it has not started), with that sample's index, the index of the next sample, its offset WP, the runs held, oldest first, the lost spans by index and cause, and a pending shorter length. -/
structure RingSt where
  tagged : Option (Nat × Nat) := none
  idx : Nat := 0
  wp : Nat := 0
  runs : List Run := []
  spans : List (Nat × Nat × Nat) := []
  pend : Option Nat := none
deriving DecidableEq, Repr

/-- A running extraction (R458): its stream, the index of its first sample, the next one, the end, when it started, and its record that waits to be written, with the sample after it and how many it delivers. -/
structure Extract where
  stream : Nat
  first : Int
  pos : Int
  stop : Int
  since : Nat
  wait : Option (Rec × Int × Nat) := none
deriving DecidableEq, Repr

/-- An OTP item (R576): its primary and its spare word, each 0 BLANK, 1 VALID or 2 PARTIAL. -/
structure OtpItem where
  prim : Nat := 0
  spare : Nat := 0
deriving DecidableEq, Repr

/-- An attestation in progress (R556): the REF_IN edge count at the command, the address, and words 0 to 22 once they are taken. -/
structure AttSt where
  edge : Nat
  addr : Nat
  snap : Option (List Word128) := none
deriving DecidableEq, Repr

/-- An evidence snapshot that waits to be signed (R558): its instant and time word, SWITCHES, and words 2 to 31 + 4N. -/
structure EvdSnap where
  t : Nat
  w : Word128
  sw : Nat
  words : List Word128
deriving DecidableEq, Repr

/-- The evidence unit (R558): EVD_CTRL and EVD_FLOW in force, the device time of the next instant's multiple, its number, and the snapshots that wait. -/
structure EvdSt where
  ctrl : Word := 0
  flows : List Word := []
  next : Nat := 0
  num : Nat := 0
  waiting : List EvdSnap := []
deriving DecidableEq, Repr

/-- Keys and identity (R547 to R563): the key digest of each slot, the private half of the device's key, the OTP items (0 to 3 the revoke bits, 4 JTAG_LOCK, 100 + 63 c + k cell k of counter c), the words still to program with a mark on the last of an advance, attestation and evidence. -/
structure TrustSt where
  keys : Tab (List Byte) := []
  priv : List Byte := []
  otp : Tab OtpItem := []
  prog : List (Nat × Bool) := []
  att : Option AttSt := none
  evd : EvdSt := {}
deriving DecidableEq, Repr

/-- One item of a flow (R472): KIND, TYPE, the reference time, the words not yet sent, how many were, and whether the words are all there. -/
structure SoItem where
  kind : Nat
  typ : Nat
  time : Nat
  words : List Word128
  sent : Nat := 0
  whole : Bool := true
deriving DecidableEq, Repr

/-- A flow of a stream-out port (R468 to R473): PKT and ITEM, the chain origin and head, the items on their way, and by source region the header words of the record delivered last. -/
structure FlowSt where
  pkt : Nat := 0
  item : Nat := 0
  origin : Word128 := 0
  head : List Byte := []
  items : List SoItem := []
  last : Tab (Word128 × Word128) := []
deriving DecidableEq, Repr

/-- A stream-out port (R465 to R471): its flows, the flow served last, the frame in transmission with its end and whether the link cut it, and the end of each priority's pause. -/
structure SoSt where
  flows : Tab FlowSt := []
  turn : Nat := 255
  frame : List Byte := []
  until_ : Nat := 0
  cut : Bool := false
  pauses : Tab Nat := []
deriving DecidableEq, Repr

/-- What a fixed-ratio context emits at once (R475): the input bytes it consumes, its words, its saturated components, and whether it is a coded block. -/
structure CtxPiece where
  bytes : Nat
  words : List Word128
  sats : Nat := 0
  block : Bool := false
deriving DecidableEq, Repr

/-- An open lossless block (R476, R477): when it opened, its reference time, whether a record has begun in it, HIST_RESET, the input bytes consumed, its code bytes and the literals that wait for their code word. -/
structure CtxBlock where
  opened : Nat
  time : Nat
  began : Bool
  reset : Bool
  bytes : Nat := 0
  code : List Byte := []
  lits : List Byte := []
deriving DecidableEq, Repr

/-- A compression context (R474 to R479): the pieces of a record not yet emitted, the input bytes not yet consumed with their record's header time and whether it has still to begin, the open block, the history with the latest byte first, the blocks ended since HIST_RESET, and a running SAVE (2), RESTORE (3) or refused RESTORE (4) with its address and what SAVE will write. -/
structure CtxSt where
  pieces : List CtxPiece := []
  input : List Byte := []
  time : Nat := 0
  fresh : Bool := false
  block : Option CtxBlock := none
  hist : List Byte := []
  blocks : Nat := 0
  xfer : Nat := 0
  at_ : Nat := 0
  image : Option (List Byte × Nat) := none
deriving DecidableEq, Repr

/-- The replay decompressor (R480): the input bytes read, the rest of a lossless block as its decoded and its code bytes still to come and its padding, and the history with the latest byte first. -/
structure ReplaySt where
  pos : Nat := 0
  block : Option (Nat × Nat × Nat) := none
  hist : List Byte := []
deriving DecidableEq, Repr

/-- A running conversion (R388 to R390): who it is for (0 housekeeping, 1 + j an injection, 6 the sequence), its channel or entry, its entry word, the modulator period it began in, the outputs delivered, INVALID_COUNT, NV, the latest valid codes, whether a result carried CLIP, and the correction it runs under. -/
structure AuxRun where
  who : Nat
  idx : Nat
  cfg : Word
  start : Nat
  outs : Nat := 0
  inv : Nat
  med : List Int := []
  clip : Bool := false
  ofs : Int
  gain : Nat
deriving DecidableEq, Repr

/-- A PWM channel (R400): whether a period runs, the modulator period it began in, the dither accumulator, the duty count of the period, PRESC and PER in force, whether the output is active and whether EN has ever driven the pin. -/
structure PwmSt where
  on : Bool := false
  start : Nat := 0
  acc : Nat := 0
  duty : Nat := 0
  presc : Nat := 0
  per : Nat := 0
  pol : Bool := false
  active : Bool := false
  driven : Bool := false
deriving DecidableEq, Repr

/-- A tachometer (R401): the modulator period of the last accepted edge, and since when no edge has come. -/
structure TachSt where
  last : Option Nat := none
  since : Option Nat := none
deriving DecidableEq, Repr

/-- The auxiliary converter (R387 to R401): `stop` is the modulator's count of REF_IN edges while it stands, and `off` the edges it has missed; an automatic calibration that the first MOD_READY made due; the round in progress as its next entry with SEQ_CTRL and the entries in force, a start on its way, the timer's next start, the injections delayed and queued, the housekeeping round as its next channel and its next start, a queued and a running calibration, values to take force at the next conversion start, the correction in force per gain, the running conversion, the end of the last sequence output with its settings, AX16 at the last calibration, and the FIFO. -/
structure AuxSt where
  ready : Bool := false
  stop : Option Nat := some 0
  off : Nat := 0
  autoDue : Bool := false
  seq : Option Nat := none
  ctrl : Word := 0
  entries : List Word := []
  due : Option Nat := none
  timer : Option Nat := none
  injDue : Tab (Option Nat) := []
  injQ : List Nat := []
  hk : Option Nat := none
  hkAt : Option Nat := none
  calQ : Bool := false
  calRun : Option Nat := none
  calNew : Option (List (Int × Nat)) := none
  written : Bool := false
  corr : List (Int × Nat) := [(0, 0x400000), (0, 0x400000), (0, 0x400000), (0, 0x400000), (0, 0x400000)]
  run : Option AuxRun := none
  last : Option (Nat × Nat) := none
  temp : Option Int := none
  fifo : List (List Word) := []
  pwm : Tab PwmSt := []
  tach : Tab TachSt := []
deriving DecidableEq, Repr

/-- A plan of VDD_CORE (R412): its band and start, the steps so far, whether it still searches downward, its voltage, the instant of the running measurement's call (none: it moves or settles), and the margin and step of its last measurement. -/
structure PlanSt where
  band : Nat
  t0 : Nat
  steps : Nat := 0
  down : Bool := true
  v : Nat
  call : Option Nat := none
  margin : Int
  step : Nat
deriving DecidableEq, Repr

/-- The floor unit (R407 to R430). `win` is the number of the last measurement window; `okAt` and `clearAt` are the last end of a plan with OK or LIMIT and the last clearing of every cause; `target` is the voltage the planner moves to outside a plan; `stepAt` the last voltage command, `faultAt` the last try of a faulty regulator, `pollAt` the last poll; `retryAt` a plan due after a TIMEOUT; `lastPlan` the end of the last plan; `dwellAt` the start of the running SHED_DWELL and `hit` whether a condition of R419 has held in it. `drifts` holds each sensor's drift and whether it is excluded; the scrub has its next address, the start of its pass and the pass's counts; `march` the running and last March test of each spare bank, `usedBanks` the spare banks that are spare no longer. `resetAt` is the device time of the reset, and `scanned` says that the boot scan has ended. `planRec` (always-on domain), `log` and `counters` (flash and its counters) outlive resets. -/
structure FloorSt where
  win : Nat := 0
  okAt : Option Nat := none
  clearAt : Nat := 0
  plan : Option PlanSt := none
  planned : Bool := false
  target : Option Nat := none
  tracking : Bool := false
  stepAt : Option Nat := none
  pollAt : Nat := 0
  faultAt : Nat := 0
  retryAt : Option Nat := none
  lastPlan : Option Nat := none
  dwellAt : Nat := 0
  hit : Bool := false
  drifts : Tab (Int × Bool) := []
  ageAt : Option Nat := none
  ageEdge : Option Nat := none
  sumAt : Nat := 0
  scrub : Nat := 0
  scrubAt : Nat := 0
  scrubCe : Nat := 0
  scrubUe : Nat := 0
  march : Tab (Bool × Option Nat) := []
  usedBanks : List Nat := []
  resetAt : Nat := 0
  scanned : Bool := false
  vddRead : Nat := 0
  planRec : Option (Nat × Word × Nat) := none
  log : Tab (List Word128) := []
  counters : Tab Nat := []
deriving DecidableEq, Repr

/-- A running descriptor (R485 to R495): its ring index, its two words, the elements of its lists as address and length, the bytes moved, the CRC register, the power domains it holds leases on, a requested power abort and a requested abort, the status it ended with, and whether an abort came too late. -/
structure DmaRun where
  idx : Nat
  desc : List Word128
  src : List (Nat × Nat) := []
  dst : List (Nat × Nat) := []
  moved : Nat := 0
  crc : Nat := 0
  doms : List Nat := []
  misalign : Bool := false
  stop : Bool := false
  abort : Bool := false
  result : Option Nat := none
  late : Bool := false
deriving DecidableEq, Repr

/-- A DMA channel (R489 to R498): its running descriptor, whether the ring moved beneath it, the short time of each posted index, the completions that wait for room, and the FORCED completions to come after so many more descriptors. -/
structure DmaCh where
  run : Option DmaRun := none
  detached : Bool := false
  posts : Tab Nat := []
  waiting : List (List Word128) := []
  forced : List (Nat × List Word128) := []
deriving DecidableEq, Repr

/-- Power, resets and boot (R569 to R580): the instants of pending power-down requests; the reset in progress as its level and phase (0 held, 1 voltage, 2 OTP) and how often its voltage command was repeated; whether POR_N, the thermal trip or JTAG hold the device in reset; the watchdog's count when device time last restarted, and its last kick; the TAP instruction and what its data register shifts out; and the boot flash as the bytes known, with the number of program and erase commands since which the others are unknown. -/
structure PwrSt where
  pdAt : Tab (Option Nat) := []
  reset : Option (Nat × Nat) := none
  tries : Nat := 0
  por : Bool := false
  trip : Bool := false
  jtag : Bool := false
  wdBase : Nat := 0
  kick : Nat := 0
  tap : Nat := 1
  tdo : Word := 0x26148969
  flash : Tab Byte := []
  era : Nat := 0
deriving DecidableEq, Repr

/-- The device. `regs` lists every register whose value differs from its reset value; `shadow` and `lows` are the pair latches of R529; `inflight` holds the posted writes of R531; `fresh` counts the free values drawn; `lastDerated` is the last instant at which the device was derated (R25); `slow` lists the waiting STAMP records formed from excess requests (R24). -/
structure Dev where
  regs : Tab Word := []
  resp : Resp := {}
  arms : List Arm := []
  shadow : Tab (Option (Ini × Nat × Word)) := []
  lows : List (Ini × Nat × Word) := []
  inflight : Tab (Option PostedW) := []
  fresh : Nat := 0
  recSeq : Tab Nat := []
  recPhys : Tab Nat := []
  out : Tab (List Rec) := []
  pulses : List Pulse := []
  lastDerated : Nat := 0
  slow : List Rec := []
  winPend : Option WinPend := none
  tb : Tb := {}
  ev : EvSt := {}
  sump : SumpSt := {}
  cw : CwSt := {}
  streams : Tab StreamSt := []
  ports : Tab PortSt := []
  lanes : Tab LaneSt := []
  groups : Tab GroupSt := []
  logBuf : List LogEntry := []
  dets : Tab DetSt := []
  history : Tab (Nat × List (List Nat)) := []
  flats : Tab FlatSt := []
  masks : Tab MaskSt := []
  dens : Tab DensSt := []
  grids : Tab (Tab Nat) := []
  fab : FabSt := {}
  stats : StatsSt := {}
  edge : EdgeSt := {}
  disp : DispSt := {}
  engs : Tab EngSt := []
  cls : Tab ClSt := []
  mc : McSt := {}
  rings : Tab RingSt := []
  cxs : Tab (Option Extract) := []
  trust : TrustSt := {}
  so : Tab SoSt := []
  ctxs : Tab CtxSt := []
  replay : ReplaySt := {}
  ax : AuxSt := {}
  fl : FloorSt := {}
  dma : Tab DmaCh := []
  pw : PwrSt := {}
deriving DecidableEq, Repr

end Sys2Proof.Machine
end

