-- ==== Sys2Proof/Machine/RegMap.lean ====
section
/-! DEFINITION. The register map: every register the manual's tables list, with its offset, access code, reset value and writable bits. -/
namespace Sys2Proof.Machine

/-- The access codes of R8, with the two addresses of a guarded pair (R534) and a code for command registers, whose writes are taken by an operation and which read zero. -/
inductive Acc where
  | ro | rw | pw | sq | lk | g2a | g2f | cmd
deriving DecidableEq, Repr

/-- Whether a register is one word of a 64-bit pair (R529). -/
inductive PairPos where
  | none | lo | hi
deriving DecidableEq, Repr

/-- One row of a register table: `n` registers at stride `s`, each of `m` registers at stride `t`. -/
structure Desc where
  off : Nat
  acc : Acc
  rst : Nat → Nat → Nat → Nat
  mask : Nat := 0xFFFFFFFF
  n : Nat := 1
  s : Nat := 4
  m : Nat := 1
  t : Nat := 4
  norm : Nat → Nat → Nat → Nat := fun _ _ v => v
  pair : PairPos := .none

/-- The block number of a register key. -/
def keyBlock (k : Nat) : Nat := k / 0x10000

/-- The offset of a register key in its block. -/
def keyOff (k : Nat) : Nat := k % 0x10000

/-- The indices at which an offset falls in a row, if it does. -/
def Desc.idx (d : Desc) (off : Nat) : Option (Nat × Nat) :=
  if off < d.off then .none
  else
    let y := off - d.off
    let i := if d.n = 1 then 0 else y / d.s
    let r := y - i * d.s
    let j := r / d.t
    if i < d.n ∧ j < d.m ∧ r = j * d.t then some (i, j) else .none

/-- The first row that holds an offset, with its indices. -/
def findDesc (l : List Desc) (off : Nat) : Option (Desc × Nat × Nat) :=
  match l with
  | [] => .none
  | d :: r => match d.idx off with
    | some (i, j) => some (d, i, j)
    | .none => findDesc r off

/-- TB_CTRL: out-of-range fields take the nearer limit; LOCK_MODE 2 and 3 store 0 (R66, R42). -/
def normTbCtrl (_ _ v : Nat) : Nat :=
  let lc := clampN 1 15 (v / 2 ^ 28 % 16)
  let tol := clampN 1 10000 (v / 2 ^ 14 % 2 ^ 14)
  let gate := clampN 10 1000 (v / 16 % 1024)
  let m := v % 4
  lc * 2 ^ 28 + tol * 2 ^ 14 + gate * 16 + v / 4 % 4 * 4 + (if 2 ≤ m then 0 else m)

/-- MODE of OUT_CFG is reserved on the outputs that are no SYSREF (R67, R9). -/
def normOutCfg (i _ v : Nat) : Nat := if 4 ≤ i ∧ i ≤ 9 then v else v / 2 ^ 31 * 2 ^ 31 + v % 2 ^ 28

/-- PPS_WIN clamps to 100 to 1,000,000 ns (R64). -/
def normPpsWin (_ _ v : Nat) : Nat := clampN 100 1000000 v

/-- The reserved bits of a staged window entry store zero: WIN_HI keeps [7:0], WIN_CTRL clears [26] and [15:10] (R538). -/
def normWin (_ j v : Nat) : Nat :=
  if j = 2 then v % 256
  else if j = 3 then v / 2 ^ 27 * 2 ^ 27 + v / 2 ^ 16 % 1024 * 2 ^ 16 + v % 1024
  else v

/-- SHAKE256 of 8,192 zero bytes, the digest of the empty window table (R542, R544). -/
def rstWinDigest (_ i _ : Nat) : Nat :=
  nth [0xEF2BAA71, 0x6AF4D87B, 0xC3DD7C34, 0xCD6F97C8, 0x0F056325, 0x1934B0F1, 0x11E0425E, 0xCDF80004] i 0

/-- LANE_INFO_i of group g: PHYS is 13g + i at reset (R139). -/
def rstLaneInfo (b i _ : Nat) : Nat := 13 * (b - 8) + i

/-- CW_CTRL: the LOG2 fields take the nearer limit of 4 to 12 (R381). -/
def normCwCtrl (_ _ v : Nat) : Nat :=
  v / 2 ^ 31 * 2 ^ 31 + clampN 4 12 (v / 256 % 16) * 256 + clampN 4 12 (v % 16)

/-- The device setup digest of no setups: SHAKE256 over 64 digests of 32 zero bytes (R380). -/
def rstSdigest (_ i _ : Nat) : Nat :=
  nth [0xEE4BB1F0, 0xC28043AF, 0x09E8AC33, 0xC389EF4F, 0x43B101C8, 0x2298AB46, 0x57D4DCAE, 0x7C750A04] i 0


/-- HK_PERIOD takes the nearer limit of 10 to 1,000 ms (R402). -/
def normHkPeriod (_ _ v : Nat) : Nat := clampN 10 1000 (v % 1024)

/-- CL_MAP_m: byte j is 4m + j (R334). -/
def rstClMap (_ m _ : Nat) : Nat := 0x03020100 + 0x04040404 * m

/-- MC_CTRL: AGE_LIMIT takes the nearer limit of 2 to 64 µs (R461). -/
def normMcCtrl (_ _ v : Nat) : Nat := v / 2 ^ 31 * 2 ^ 31 + v / 2 ^ 24 % 32 * 2 ^ 24 + clampN 2 63 (v % 64)

/-- PORT_REG_p: BURST − 1 and RATE of the table of R440. -/
def rstPortReg (_ p _ : Nat) : Nat :=
  if p < 6 then 255 * 65536 + 56
  else if p < 10 then 63 * 65536 + 32
  else if p < 18 then 63 * 65536 + 16
  else if p = 18 ∨ p = 22 then 63 * 65536 + 64
  else if p = 19 ∨ p = 20 then 63 * 65536 + 40
  else if p = 21 then 63 * 65536 + 8
  else 63 * 65536 + 16

/-- The reset base of the ring of S(k): 0x0002_0000_0000 + k × 0x31AC_0000 (R453). -/
def ringBase (k : Nat) : Nat := 0x200000000 + k * 0x31AC0000
def rstRbaseLo (_ k _ : Nat) : Nat := ringBase k % 2 ^ 32
def rstRbaseHi (_ k _ : Nat) : Nat := ringBase k / 2 ^ 32

/-- FL_CTRL: PLAN_MARGIN 70 to 150, T_OVER 85 to 115, SHED_DWELL 10 to 10,000 (R432). -/
def normFlCtrl (_ _ v : Nat) : Nat :=
  clampN 70 150 (v / 2 ^ 24) * 2 ^ 24 + clampN 85 115 (v / 65536 % 256) * 65536 + clampN 10 10000 (v % 65536)

/-- AGE_SEL takes the nearer limit of 0 to 95 (R432). -/
def normAgeSel (_ _ v : Nat) : Nat := clampN 0 95 (v % 128)

/-- SEEP_CTRL: ROT_PERIOD 1 to 3,600 s (R432). -/
def normSeepCtrl (_ _ v : Nat) : Nat := v / 2 ^ 31 * 2 ^ 31 + clampN 1 3600 (v % 4096)

/-- SCRUB_HOURS 1 to 168 (R432). -/
def normScrubCtrl (_ _ v : Nat) : Nat := clampN 1 168 (v % 256)

/-- MARCH_PERIOD 10 to 65,535 s (R432). -/
def normMarchCtrl (_ _ v : Nat) : Nat := clampN 10 65535 (v % 65536)

/-- The fused boot voltage in mV: the manual gives no number (log entry 3). -/
def fusedVddBoot : Nat := 750
def rstVddBoot (_ _ _ : Nat) : Nat := fusedVddBoot
def rstVddNow (_ _ _ : Nat) : Nat := fusedVddBoot * 65536 + fusedVddBoot

/-- The log head of an empty log: SHAKE256 over 64 zero bytes (R425). -/
def rstLogHead (_ i _ : Nat) : Nat :=
  nth [0x7EA5F2EA, 0x9E9487DE, 0x4753918B, 0xBF5308EB, 0x91FA6418, 0x89236C55, 0xD708ECB4, 0xD9666A36] i 0

/-- EVD_CTRL: PERIOD takes the nearer limit of 1 to 600 (R565). -/
def normEvdCtrl (_ _ v : Nat) : Nat := v / 2 ^ 31 * 2 ^ 31 + clampN 1 600 (v % 1024)

/-- The image store digest of no images: SHAKE256 over nothing (R557, R565). -/
def rstStoreDigest (_ i _ : Nat) : Nat :=
  nth [0x46B9DD2B, 0x0BA88D13, 0x233B3FEB, 0x743EEB24, 0x3FCD52EA, 0x62B81B82, 0xB50C2764, 0x6ED5762F] i 0

/-- CTX_CFG: LOG2BLK takes the nearer limit of 12 to 16 within its field (R482). -/
def normCtxCfg (_ _ v : Nat) : Nat :=
  v / 2 ^ 31 * 2 ^ 31 + v / 2 ^ 24 % 8 * 2 ^ 24 + clampN 12 15 (v / 2 ^ 16 % 16) * 2 ^ 16 + v % 2 ^ 16

/-- DMA_CTRL: LEASE_US takes the nearer limit of 1 to 10,000 (R499). -/
def normDmaCtrl (_ _ v : Nat) : Nat := clampN 1 10000 (v % 2 ^ 14)

/-- DCH_CFG: CPL_LOG2 takes the nearer limit of 4 to 12 (R499). -/
def normDchCfg (_ _ v : Nat) : Nat := v / 2 ^ 31 * 2 ^ 31 + v / 2 ^ 28 % 4 * 2 ^ 28 + clampN 4 12 (v / 256 % 16) * 256
/-! ### System block (R37, R527, R536) -/
abbrev Reg.DEV_ID : Nat := 0x0
abbrev Reg.DEV_VENDOR : Nat := 0x4
abbrev Reg.DEV_SERIAL_LO : Nat := 0x8
abbrev Reg.DEV_SERIAL_HI : Nat := 0xC
abbrev Reg.COND_STATUS : Nat := 0x40
abbrev Reg.COND_SOURCE : Nat := 0x44
abbrev Reg.LW_STAT (i : Nat) : Nat := 0x1000 + 8 * i
abbrev Reg.LW_INFO (i : Nat) : Nat := 0x1004 + 8 * i

/-- Rows of System block (R37, R527, R536), part 1. -/
def descs_sys_0 : List Desc := [
  { off := 0x0000, acc := .ro, rst := fun _ _ _ => 0x61482143 },
  { off := 0x0004, acc := .ro, rst := fun _ _ _ => 0x00004B4D },
  { off := 0x0008, acc := .ro, rst := fun _ _ _ => 0, pair := .lo },
  { off := 0x000C, acc := .ro, rst := fun _ _ _ => 0, pair := .hi },
  { off := 0x0040, acc := .sq, rst := fun _ _ _ => 0x2, mask := 0xE },
  { off := 0x0044, acc := .ro, rst := fun _ _ _ => 0 },
  { off := 0x1000, acc := .sq, rst := fun _ _ _ => 0, mask := 0x1, n := 64, s := 8 },
  { off := 0x1004, acc := .ro, rst := fun _ _ _ => 0, n := 64, s := 8 }]

/-- System block (R37, R527, R536): its rows. -/
def descs_sys : List Desc := descs_sys_0

/-! ### Timebase (R64 to R67) -/
abbrev Reg.TB_STATUS : Nat := 0x10000
abbrev Reg.TB_CTRL : Nat := 0x10004
abbrev Reg.REF_RATIO : Nat := 0x10008
abbrev Reg.LOCK_MEAS : Nat := 0x1000C
abbrev Reg.PERIOD_LO : Nat := 0x10010
abbrev Reg.PERIOD_HI : Nat := 0x10014
abbrev Reg.REM_NUM : Nat := 0x10018
abbrev Reg.REM_DEN : Nat := 0x1001C
abbrev Reg.PPS_FRAC_LO : Nat := 0x10024
abbrev Reg.PPS_FRAC_HI : Nat := 0x10028
abbrev Reg.PPS_WIN : Nat := 0x1002C
abbrev Reg.PPS_RESID_LO : Nat := 0x10030
abbrev Reg.PPS_RESID_HI : Nat := 0x10034
abbrev Reg.PPS_SEC_LO : Nat := 0x10038
abbrev Reg.PPS_SEC_HI : Nat := 0x1003C
abbrev Reg.TOD_NEXT_LO : Nat := 0x10040
abbrev Reg.TOD_NEXT_HI : Nat := 0x10044
abbrev Reg.TOD_CMD : Nat := 0x10048
abbrev Reg.TOD_RESULT : Nat := 0x1004C
abbrev Reg.TIME_NOW (i : Nat) : Nat := 0x10050 + 4 * i
abbrev Reg.OUT_SYNC_AT_LO : Nat := 0x10080
abbrev Reg.OUT_SYNC_AT_HI : Nat := 0x10084
abbrev Reg.OUT_SYNC_MASK : Nat := 0x10088
abbrev Reg.OUT_SYNC_CMD : Nat := 0x1008C
abbrev Reg.OUT_SYNC_LATE : Nat := 0x10090
abbrev Reg.PTP_RX_LAT : Nat := 0x100C0
abbrev Reg.PTP_TX_LAT : Nat := 0x100C4
abbrev Reg.PTP_TS_ID : Nat := 0x100C8
abbrev Reg.PTP_DROPS : Nat := 0x100CC
abbrev Reg.PTP_TS (i : Nat) : Nat := 0x100D0 + 4 * i
abbrev Reg.OUT_CFG (i : Nat) : Nat := 0x10100 + 16 * i
abbrev Reg.OUT_DELAY (i : Nat) : Nat := 0x10104 + 16 * i
abbrev Reg.OUT_SSC (i : Nat) : Nat := 0x10108 + 16 * i
abbrev Reg.OUT_SSC_AUX (i : Nat) : Nat := 0x101A8 + 16 * i

/-- Rows of Timebase (R64 to R67), part 1. -/
def descs_tb_0 : List Desc := [
  { off := 0x0000, acc := .sq, rst := fun _ _ _ => 0x40, mask := 0xFF00 },
  { off := 0x0004, acc := .pw, rst := fun _ _ _ => 0x400C8640, norm := normTbCtrl },
  { off := 0x0008, acc := .pw, rst := fun _ _ _ => 0x80000000 },
  { off := 0x000C, acc := .ro, rst := fun _ _ _ => 0 },
  { off := 0x0010, acc := .pw, rst := fun _ _ _ => 0x5AFE5357, pair := .lo },
  { off := 0x0014, acc := .pw, rst := fun _ _ _ => 0x3, pair := .hi },
  { off := 0x0018, acc := .pw, rst := fun _ _ _ => 0xB2B5 },
  { off := 0x001C, acc := .pw, rst := fun _ _ _ => 0x1312D },
  { off := 0x0024, acc := .pw, rst := fun _ _ _ => 0, pair := .lo },
  { off := 0x0028, acc := .pw, rst := fun _ _ _ => 0, pair := .hi },
  { off := 0x002C, acc := .pw, rst := fun _ _ _ => 0x3E8, norm := normPpsWin },
  { off := 0x0030, acc := .ro, rst := fun _ _ _ => 0, pair := .lo },
  { off := 0x0034, acc := .ro, rst := fun _ _ _ => 0, pair := .hi },
  { off := 0x0038, acc := .ro, rst := fun _ _ _ => 0, pair := .lo },
  { off := 0x003C, acc := .ro, rst := fun _ _ _ => 0, pair := .hi },
  { off := 0x0040, acc := .pw, rst := fun _ _ _ => 0, pair := .lo },
  { off := 0x0044, acc := .pw, rst := fun _ _ _ => 0, mask := 0xFFFF, pair := .hi },
  { off := 0x0048, acc := .cmd, rst := fun _ _ _ => 0 },
  { off := 0x004C, acc := .ro, rst := fun _ _ _ => 0 },
  { off := 0x0050, acc := .ro, rst := fun _ _ _ => 0, n := 4, s := 4 }]

/-- Rows of Timebase (R64 to R67), part 2. -/
def descs_tb_1 : List Desc := [
  { off := 0x0080, acc := .pw, rst := fun _ _ _ => 0, pair := .lo },
  { off := 0x0084, acc := .pw, rst := fun _ _ _ => 0, pair := .hi },
  { off := 0x0088, acc := .pw, rst := fun _ _ _ => 0, mask := 0xFFF },
  { off := 0x008C, acc := .cmd, rst := fun _ _ _ => 0 },
  { off := 0x0090, acc := .sq, rst := fun _ _ _ => 0, mask := 0x1 },
  { off := 0x00C0, acc := .pw, rst := fun _ _ _ => 0 },
  { off := 0x00C4, acc := .pw, rst := fun _ _ _ => 0 },
  { off := 0x00C8, acc := .ro, rst := fun _ _ _ => 0 },
  { off := 0x00CC, acc := .ro, rst := fun _ _ _ => 0 },
  { off := 0x00D0, acc := .ro, rst := fun _ _ _ => 0, n := 4, s := 4 },
  { off := 0x0100, acc := .pw, rst := fun _ _ _ => 0x00100000, mask := 0xFFF00FFF, n := 12, s := 16, norm := normOutCfg },
  { off := 0x0104, acc := .pw, rst := fun _ _ _ => 0, mask := 0x3FFF, n := 12, s := 16 },
  { off := 0x0108, acc := .ro, rst := fun _ _ _ => 0, n := 10, s := 16 },
  { off := 0x01A8, acc := .pw, rst := fun _ _ _ => 0x1, mask := 0xC000000F, n := 2, s := 16 }]

/-- Timebase (R64 to R67): its rows. -/
def descs_tb : List Desc := descs_tb_0 ++ descs_tb_1

/-! ### Event controller (R521) -/
abbrev Reg.EVC_STATUS : Nat := 0x280000
abbrev Reg.EV_RAISE : Nat := 0x280004
abbrev Reg.EVC_CMD : Nat := 0x280008
abbrev Reg.CLAIM (i : Nat) : Nat := 0x280100 + 16 * i
abbrev Reg.CLAIM_SEQ (i : Nat) : Nat := 0x280104 + 16 * i
abbrev Reg.CLAIM_MERGED (i : Nat) : Nat := 0x280108 + 16 * i
abbrev Reg.THRESH (i : Nat) : Nat := 0x28010C + 16 * i
abbrev Reg.EV_CFG (i : Nat) : Nat := 0x281000 + 4 * i
abbrev Reg.EV_SEQ (i : Nat) : Nat := 0x283000 + 4 * i
abbrev Reg.EV_PEND (i : Nat) : Nat := 0x285000 + 4 * i

/-- Rows of Event controller (R521), part 1. -/
def descs_evc_0 : List Desc := [
  { off := 0x0000, acc := .sq, rst := fun _ _ _ => 0, mask := 0 },
  { off := 0x0004, acc := .cmd, rst := fun _ _ _ => 0 },
  { off := 0x0008, acc := .cmd, rst := fun _ _ _ => 0 },
  { off := 0x0100, acc := .ro, rst := fun _ _ _ => 0, n := 16, s := 16 },
  { off := 0x0104, acc := .ro, rst := fun _ _ _ => 0, n := 16, s := 16 },
  { off := 0x0108, acc := .ro, rst := fun _ _ _ => 0, n := 16, s := 16 },
  { off := 0x010C, acc := .rw, rst := fun _ _ _ => 0, mask := 0xF, n := 16, s := 16 },
  { off := 0x1000, acc := .rw, rst := fun _ _ _ => 0, mask := 0x800F000F, n := 1536, s := 4 },
  { off := 0x3000, acc := .ro, rst := fun _ _ _ => 0, n := 1536, s := 4 },
  { off := 0x5000, acc := .ro, rst := fun _ _ _ => 0, n := 48, s := 4 }]

/-- Event controller (R521): its rows. -/
def descs_evc : List Desc := descs_evc_0

/-! ### Sump (R522) -/
abbrev Reg.SUMP_STATUS : Nat := 0x290000
abbrev Reg.SUMP_CMD : Nat := 0x290004
abbrev Reg.SUMP_OPEN : Nat := 0x290008
abbrev Reg.SUMP_OVF : Nat := 0x29000C
abbrev Reg.SUMP_ROOTS : Nat := 0x290010
abbrev Reg.SUMP_MAP_LO : Nat := 0x290014
abbrev Reg.SUMP_MAP_HI : Nat := 0x290018
abbrev Reg.REC_ROOT (i : Nat) : Nat := 0x290100 + 32 * i
abbrev Reg.REC_DUP (i : Nat) : Nat := 0x290104 + 32 * i
abbrev Reg.REC_REPORTERS (i : Nat) : Nat := 0x290108 + 32 * i
abbrev Reg.REC_FIRST_LO (i : Nat) : Nat := 0x29010C + 32 * i
abbrev Reg.REC_FIRST_HI (i : Nat) : Nat := 0x290110 + 32 * i
abbrev Reg.REC_NUM (i : Nat) : Nat := 0x290114 + 32 * i

/-- Rows of Sump (R522), part 1. -/
def descs_sump_0 : List Desc := [
  { off := 0x0000, acc := .sq, rst := fun _ _ _ => 0, mask := 0xE },
  { off := 0x0004, acc := .cmd, rst := fun _ _ _ => 0 },
  { off := 0x0008, acc := .ro, rst := fun _ _ _ => 0 },
  { off := 0x000C, acc := .ro, rst := fun _ _ _ => 0 },
  { off := 0x0010, acc := .ro, rst := fun _ _ _ => 0 },
  { off := 0x0014, acc := .ro, rst := fun _ _ _ => 0, pair := .lo },
  { off := 0x0018, acc := .ro, rst := fun _ _ _ => 0, pair := .hi },
  { off := 0x0100, acc := .ro, rst := fun _ _ _ => 0, n := 64, s := 32 },
  { off := 0x0104, acc := .ro, rst := fun _ _ _ => 0, n := 64, s := 32 },
  { off := 0x0108, acc := .ro, rst := fun _ _ _ => 0, n := 64, s := 32 },
  { off := 0x010C, acc := .ro, rst := fun _ _ _ => 0, n := 64, s := 32, pair := .lo },
  { off := 0x0110, acc := .ro, rst := fun _ _ _ => 0, n := 64, s := 32, pair := .hi },
  { off := 0x0114, acc := .ro, rst := fun _ _ _ => 0, n := 64, s := 32 }]

/-- Sump (R522): its rows. -/
def descs_sump : List Desc := descs_sump_0

/-! ### Access windows (R544) -/
abbrev Reg.WIN_STATUS : Nat := 0x2A0000
abbrev Reg.WIN_EPOCH : Nat := 0x2A0004
abbrev Reg.WIN_COMMIT_ARM : Nat := 0x2A0008
abbrev Reg.WIN_COMMIT_FIRE : Nat := 0x2A000C
abbrev Reg.DENY_COUNT : Nat := 0x2A0010
abbrev Reg.DENY_ADDR_LO : Nat := 0x2A0014
abbrev Reg.DENY_ADDR_HI : Nat := 0x2A0018
abbrev Reg.DENY_INFO : Nat := 0x2A001C
abbrev Reg.WIN_DIGEST (i : Nat) : Nat := 0x2A0020 + 4 * i
abbrev Reg.EPOCH_TIME_LO : Nat := 0x2A0040
abbrev Reg.EPOCH_TIME_HI : Nat := 0x2A0044
abbrev Reg.WIN_STAGED (i j : Nat) : Nat := 0x2A1000 + 16 * i + 4 * j
abbrev Reg.WIN_FORCE (i j : Nat) : Nat := 0x2A3000 + 16 * i + 4 * j

/-- Rows of Access windows (R544), part 1. -/
def descs_win_0 : List Desc := [
  { off := 0x0000, acc := .sq, rst := fun _ _ _ => 0, mask := 0xC },
  { off := 0x0004, acc := .ro, rst := fun _ _ _ => 0 },
  { off := 0x0008, acc := .g2a, rst := fun _ _ _ => 0 },
  { off := 0x000C, acc := .g2f, rst := fun _ _ _ => 0 },
  { off := 0x0010, acc := .ro, rst := fun _ _ _ => 0 },
  { off := 0x0014, acc := .ro, rst := fun _ _ _ => 0, pair := .lo },
  { off := 0x0018, acc := .ro, rst := fun _ _ _ => 0, pair := .hi },
  { off := 0x001C, acc := .ro, rst := fun _ _ _ => 0 },
  { off := 0x0020, acc := .ro, rst := rstWinDigest, n := 8, s := 4 },
  { off := 0x0040, acc := .ro, rst := fun _ _ _ => 0, pair := .lo },
  { off := 0x0044, acc := .ro, rst := fun _ _ _ => 0, pair := .hi },
  { off := 0x1000, acc := .rw, rst := fun _ _ _ => 0, n := 512, s := 16, m := 4, t := 4, norm := normWin },
  { off := 0x3000, acc := .ro, rst := fun _ _ _ => 0, n := 512, s := 16, m := 4, t := 4 }]

/-- Access windows (R544): its rows. -/
def descs_win : List Desc := descs_win_0

/-! ### Power and reset (R581, R582) -/
abbrev Reg.PR_STATUS : Nat := 0x2C0000
abbrev Reg.PD_REQ : Nat := 0x2C0004
abbrev Reg.PD_STATE : Nat := 0x2C0008
abbrev Reg.PD_PEND : Nat := 0x2C000C
abbrev Reg.PD_REFUSE_INFO : Nat := 0x2C0010
abbrev Reg.RST_CAUSE : Nat := 0x2C0014
abbrev Reg.RST_CMD_ARM : Nat := 0x2C0018
abbrev Reg.RST_CMD_FIRE : Nat := 0x2C001C
abbrev Reg.WDOG_CFG : Nat := 0x2C0020
abbrev Reg.WDOG_KICK : Nat := 0x2C0024
abbrev Reg.BOOT_STAGE : Nat := 0x2C0028
abbrev Reg.BOOT_COUNT : Nat := 0x2C002C
abbrev Reg.OTP_STATUS : Nat := 0x2C0030
abbrev Reg.CORE_EN : Nat := 0x2C0034

/-- Rows of Power and reset (R581, R582), part 1. -/
def descs_pwr_0 : List Desc := [
  { off := 0x0000, acc := .sq, rst := fun _ _ _ => 0, mask := 0xE },
  { off := 0x0004, acc := .rw, rst := fun _ _ _ => 0x003FFFF8 },
  { off := 0x0008, acc := .ro, rst := fun _ _ _ => 0x003FFFFF },
  { off := 0x000C, acc := .ro, rst := fun _ _ _ => 0 },
  { off := 0x0010, acc := .ro, rst := fun _ _ _ => 0 },
  { off := 0x0014, acc := .ro, rst := fun _ _ _ => 0x0101 },
  { off := 0x0018, acc := .g2a, rst := fun _ _ _ => 0, mask := 0x3 },
  { off := 0x001C, acc := .g2f, rst := fun _ _ _ => 0 },
  { off := 0x0020, acc := .lk, rst := fun _ _ _ => 0, mask := 0x8000FFFF },
  { off := 0x0024, acc := .cmd, rst := fun _ _ _ => 0 },
  { off := 0x0028, acc := .ro, rst := fun _ _ _ => 0 },
  { off := 0x002C, acc := .ro, rst := fun _ _ _ => 0 },
  { off := 0x0030, acc := .ro, rst := fun _ _ _ => 0 },
  { off := 0x0034, acc := .rw, rst := fun _ _ _ => 0x1, mask := 0xFF }]

/-- Power and reset (R581, R582): its rows. -/
def descs_pwr : List Desc := descs_pwr_0

/-! ### Boot flash controller (R582) -/
abbrev Reg.XSPI_STATUS : Nat := 0x2D0000
abbrev Reg.XSPI_CMD : Nat := 0x2D0004
abbrev Reg.XSPI_ADDR : Nat := 0x2D0008

/-- Rows of Boot flash controller (R582), part 1. -/
def descs_xspi_0 : List Desc := [
  { off := 0x0000, acc := .ro, rst := fun _ _ _ => 0 },
  { off := 0x0004, acc := .rw, rst := fun _ _ _ => 0 },
  { off := 0x0008, acc := .rw, rst := fun _ _ _ => 0 }]

/-- Boot flash controller (R582): its rows. -/
def descs_xspi : List Desc := descs_xspi_0

/-! ### Management port (no register but the write-fault capture of R532) -/

/-- Rows of Management port (no register but the write-fault capture of R532), part 1. -/
def descs_mgt_0 : List Desc := [
  ]

/-- Management port (no register but the write-fault capture of R532): its rows. -/
def descs_mgt : List Desc := descs_mgt_0

/-! ### Floor, ageing and seep (R431, R432) -/
abbrev Reg.FL_STATUS : Nat := 0x210000
abbrev Reg.FL_CTRL : Nat := 0x210004
abbrev Reg.FL_CMD : Nat := 0x210008
abbrev Reg.VDD_NOW : Nat := 0x21000C
abbrev Reg.VDD_BOOT : Nat := 0x210010
abbrev Reg.WORST : Nat := 0x210014
abbrev Reg.MARGIN : Nat := 0x210018
abbrev Reg.DIE_TEMP : Nat := 0x21001C
abbrev Reg.PLAN_RESULT : Nat := 0x210020
abbrev Reg.PLAN_COUNT : Nat := 0x210024
abbrev Reg.PLAN_TIME_LO : Nat := 0x210028
abbrev Reg.PLAN_TIME_HI : Nat := 0x21002C
abbrev Reg.DERATE_CAUSE : Nat := 0x210030
abbrev Reg.SHED : Nat := 0x210034
abbrev Reg.GUAR_LAPSED : Nat := 0x210038
abbrev Reg.AGE_DRIFT_MAX : Nat := 0x21003C
abbrev Reg.AGE_SEL : Nat := 0x210040
abbrev Reg.AGE_DATA : Nat := 0x210044
abbrev Reg.AGE_BASE : Nat := 0x210048
abbrev Reg.V_TABLE (i : Nat) : Nat := 0x210050 + 4 * i
abbrev Reg.SHED_PRI (i : Nat) : Nat := 0x210080 + 4 * i
abbrev Reg.SHED_CAP_LO : Nat := 0x210098
abbrev Reg.SHED_CAP_HI : Nat := 0x21009C
abbrev Reg.DERATE_OVR_ARM : Nat := 0x2100A0
abbrev Reg.DERATE_OVR_FIRE : Nat := 0x2100A4
abbrev Reg.VDD_OVR_ARM : Nat := 0x2100A8
abbrev Reg.VDD_OVR_FIRE : Nat := 0x2100AC
abbrev Reg.LOG_HEAD (i : Nat) : Nat := 0x2100C0 + 4 * i
abbrev Reg.LOG_ENTRIES : Nat := 0x2100E0
abbrev Reg.LOG_PARTIAL : Nat := 0x2100E4
abbrev Reg.LOG_OVERFLOW : Nat := 0x2100E8
abbrev Reg.LOG_CHECK : Nat := 0x2100EC
abbrev Reg.SEEP_CTRL : Nat := 0x210100
abbrev Reg.SCRUB_CTRL : Nat := 0x210104
abbrev Reg.MARCH_CTRL : Nat := 0x210108
abbrev Reg.SCRUB_PASSES : Nat := 0x21010C
abbrev Reg.SCRUB_CE : Nat := 0x210110
abbrev Reg.SCRUB_UE : Nat := 0x210114
abbrev Reg.SCRUB_UE_ADDR_LO : Nat := 0x210118
abbrev Reg.SCRUB_UE_ADDR_HI : Nat := 0x21011C
abbrev Reg.SCRUB_PROG : Nat := 0x210120
abbrev Reg.KAT_FAILS : Nat := 0x210124
abbrev Reg.MARCH_FAILS : Nat := 0x210128
abbrev Reg.ENG_UNTESTED : Nat := 0x21012C

/-- Rows of Floor, ageing and seep (R431, R432), part 1. -/
def descs_fl_0 : List Desc := [
  { off := 0x0000, acc := .sq, rst := fun _ _ _ => 0x2, mask := 0x1FC0 },
  { off := 0x0004, acc := .rw, rst := fun _ _ _ => 0x50690064, norm := normFlCtrl },
  { off := 0x0008, acc := .cmd, rst := fun _ _ _ => 0 },
  { off := 0x000C, acc := .ro, rst := rstVddNow },
  { off := 0x0010, acc := .ro, rst := rstVddBoot },
  { off := 0x0014, acc := .ro, rst := fun _ _ _ => 0 },
  { off := 0x0018, acc := .ro, rst := fun _ _ _ => 0 },
  { off := 0x001C, acc := .ro, rst := fun _ _ _ => 0 },
  { off := 0x0020, acc := .ro, rst := fun _ _ _ => 0 },
  { off := 0x0024, acc := .ro, rst := fun _ _ _ => 0 },
  { off := 0x0028, acc := .ro, rst := fun _ _ _ => 0, pair := .lo },
  { off := 0x002C, acc := .ro, rst := fun _ _ _ => 0, pair := .hi },
  { off := 0x0030, acc := .ro, rst := fun _ _ _ => 0x1 },
  { off := 0x0034, acc := .ro, rst := fun _ _ _ => 0x1 },
  { off := 0x0038, acc := .ro, rst := fun _ _ _ => 0x17 },
  { off := 0x003C, acc := .ro, rst := fun _ _ _ => 0 },
  { off := 0x0040, acc := .rw, rst := fun _ _ _ => 0, norm := normAgeSel },
  { off := 0x0044, acc := .ro, rst := fun _ _ _ => 0 },
  { off := 0x0048, acc := .ro, rst := fun _ _ _ => 0 },
  { off := 0x0050, acc := .ro, rst := fun _ _ _ => 0, n := 9, s := 4 }]

/-- Rows of Floor, ageing and seep (R431, R432), part 2. -/
def descs_fl_1 : List Desc := [
  { off := 0x0080, acc := .rw, rst := fun _ _ _ => 0x88888888, n := 6, s := 4 },
  { off := 0x0098, acc := .rw, rst := fun _ _ _ => 0, pair := .lo },
  { off := 0x009C, acc := .rw, rst := fun _ _ _ => 0, mask := 0xFFFF, pair := .hi },
  { off := 0x00A0, acc := .g2a, rst := fun _ _ _ => 0, mask := 0x3 },
  { off := 0x00A4, acc := .g2f, rst := fun _ _ _ => 0 },
  { off := 0x00A8, acc := .g2a, rst := fun _ _ _ => 0, mask := 0x8000FFFF },
  { off := 0x00AC, acc := .g2f, rst := fun _ _ _ => 0 },
  { off := 0x00C0, acc := .ro, rst := rstLogHead, n := 8, s := 4 },
  { off := 0x00E0, acc := .ro, rst := fun _ _ _ => 0 },
  { off := 0x00E4, acc := .ro, rst := fun _ _ _ => 0 },
  { off := 0x00E8, acc := .ro, rst := fun _ _ _ => 0 },
  { off := 0x00EC, acc := .ro, rst := fun _ _ _ => 0 },
  { off := 0x0100, acc := .rw, rst := fun _ _ _ => 0x80000008, norm := normSeepCtrl },
  { off := 0x0104, acc := .rw, rst := fun _ _ _ => 0x18, norm := normScrubCtrl },
  { off := 0x0108, acc := .rw, rst := fun _ _ _ => 0x258, norm := normMarchCtrl },
  { off := 0x010C, acc := .ro, rst := fun _ _ _ => 0 },
  { off := 0x0110, acc := .ro, rst := fun _ _ _ => 0 },
  { off := 0x0114, acc := .ro, rst := fun _ _ _ => 0 },
  { off := 0x0118, acc := .ro, rst := fun _ _ _ => 0, pair := .lo },
  { off := 0x011C, acc := .ro, rst := fun _ _ _ => 0, pair := .hi }]

/-- Rows of Floor, ageing and seep (R431, R432), part 3. -/
def descs_fl_2 : List Desc := [
  { off := 0x0120, acc := .ro, rst := fun _ _ _ => 0 },
  { off := 0x0124, acc := .ro, rst := fun _ _ _ => 0 },
  { off := 0x0128, acc := .ro, rst := fun _ _ _ => 0 },
  { off := 0x012C, acc := .ro, rst := fun _ _ _ => 0 }]

/-- Floor, ageing and seep (R431, R432): its rows. -/
def descs_fl : List Desc := descs_fl_0 ++ descs_fl_1 ++ descs_fl_2

/-! ### Sample ports (R98, R99) -/
abbrev Reg.PORT_STATUS (k : Nat) : Nat := 0x20000 + 0x10000 * k
abbrev Reg.PORT_CMD (k : Nat) : Nat := 0x20004 + 0x10000 * k
abbrev Reg.LINK_STATE (k : Nat) : Nat := 0x20008 + 0x10000 * k
abbrev Reg.LEMC_ANCHOR_LO (k : Nat) : Nat := 0x2000C + 0x10000 * k
abbrev Reg.LEMC_ANCHOR_HI (k : Nat) : Nat := 0x20010 + 0x10000 * k
abbrev Reg.FAULT_CAUSE (k : Nat) : Nat := 0x20014 + 0x10000 * k
abbrev Reg.GAP_COUNT (k : Nat) : Nat := 0x20018 + 0x10000 * k
abbrev Reg.SAT_COUNT (k : Nat) : Nat := 0x2001C + 0x10000 * k
abbrev Reg.EQ_CAL_COUNT (k : Nat) : Nat := 0x20020 + 0x10000 * k
abbrev Reg.EQ_CAL_TIME_LO (k : Nat) : Nat := 0x20024 + 0x10000 * k
abbrev Reg.EQ_CAL_TIME_HI (k : Nat) : Nat := 0x20028 + 0x10000 * k
abbrev Reg.EQ_QUALITY (k : Nat) : Nat := 0x2002C + 0x10000 * k
abbrev Reg.EQ_CTRL (k : Nat) : Nat := 0x20030 + 0x10000 * k
abbrev Reg.LANE_CRC_ERR (k i : Nat) : Nat := 0x20100 + 0x10000 * k + 4 * i
abbrev Reg.LANE_EQ (k i : Nat) : Nat := 0x20200 + 0x10000 * k + 4 * i
abbrev Reg.LANE_EYE (k i : Nat) : Nat := 0x20280 + 0x10000 * k + 4 * i

/-- Rows of Sample ports (R98, R99), part 1. -/
def descs_port_0 : List Desc := [
  { off := 0x0000, acc := .sq, rst := fun _ _ _ => 0, mask := 0xFF80 },
  { off := 0x0004, acc := .cmd, rst := fun _ _ _ => 0 },
  { off := 0x0008, acc := .ro, rst := fun _ _ _ => 0 },
  { off := 0x000C, acc := .ro, rst := fun _ _ _ => 0, pair := .lo },
  { off := 0x0010, acc := .ro, rst := fun _ _ _ => 0, pair := .hi },
  { off := 0x0014, acc := .ro, rst := fun _ _ _ => 0 },
  { off := 0x0018, acc := .ro, rst := fun _ _ _ => 0 },
  { off := 0x001C, acc := .ro, rst := fun _ _ _ => 0 },
  { off := 0x0020, acc := .ro, rst := fun _ _ _ => 0 },
  { off := 0x0024, acc := .ro, rst := fun _ _ _ => 0, pair := .lo },
  { off := 0x0028, acc := .ro, rst := fun _ _ _ => 0, pair := .hi },
  { off := 0x002C, acc := .ro, rst := fun _ _ _ => 0 },
  { off := 0x0030, acc := .pw, rst := fun _ _ _ => 0x81200007, mask := 0x83FF003F },
  { off := 0x0100, acc := .ro, rst := fun _ _ _ => 0, n := 24, s := 4 },
  { off := 0x0200, acc := .pw, rst := fun _ _ _ => 0, n := 24, s := 4 },
  { off := 0x0280, acc := .ro, rst := fun _ _ _ => 0, n := 24, s := 4 }]

/-- Sample ports (R98, R99): its rows. -/
def descs_port : List Desc := descs_port_0

/-! ### Lane groups (R137 to R139, R170, R171, R231) -/
abbrev Reg.GRP_STATUS (k : Nat) : Nat := 0x80000 + 0x10000 * k
abbrev Reg.GRP_MAP_LO (k : Nat) : Nat := 0x80004 + 0x10000 * k
abbrev Reg.GRP_MAP_HI (k : Nat) : Nat := 0x80008 + 0x10000 * k
abbrev Reg.GRP_RETIRED (k : Nat) : Nat := 0x8000C + 0x10000 * k
abbrev Reg.ROT_COUNT (k : Nat) : Nat := 0x80010 + 0x10000 * k
abbrev Reg.MISMATCH_COUNT (k : Nat) : Nat := 0x80014 + 0x10000 * k
abbrev Reg.ROT_TIME_LO (k : Nat) : Nat := 0x80018 + 0x10000 * k
abbrev Reg.ROT_TIME_HI (k : Nat) : Nat := 0x8001C + 0x10000 * k
abbrev Reg.SPEC_DROPS (k : Nat) : Nat := 0x80020 + 0x10000 * k
abbrev Reg.OVERRUN_FRAMES (k : Nat) : Nat := 0x80024 + 0x10000 * k
abbrev Reg.WIN_S1_LO (k i : Nat) : Nat := 0x80100 + 0x10000 * k + 16 * i
abbrev Reg.WIN_S1_HI (k i : Nat) : Nat := 0x80104 + 0x10000 * k + 16 * i
abbrev Reg.WIN_S2_LO (k i : Nat) : Nat := 0x80108 + 0x10000 * k + 16 * i
abbrev Reg.WIN_S2_HI (k i : Nat) : Nat := 0x8010C + 0x10000 * k + 16 * i
abbrev Reg.LANE_INFO (k i : Nat) : Nat := 0x80200 + 0x10000 * k + 4 * i
abbrev Reg.LANE_FRAMES (k i : Nat) : Nat := 0x80240 + 0x10000 * k + 4 * i
abbrev Reg.LANE_SAT (k i : Nat) : Nat := 0x80280 + 0x10000 * k + 4 * i
abbrev Reg.DET_STATUS (k : Nat) : Nat := 0x80400 + 0x10000 * k
abbrev Reg.DET_SKIPS (k : Nat) : Nat := 0x80404 + 0x10000 * k
abbrev Reg.FLAT_VER_COUNT (k : Nat) : Nat := 0x80408 + 0x10000 * k
abbrev Reg.FLAT_VER_TIME_LO (k : Nat) : Nat := 0x8040C + 0x10000 * k
abbrev Reg.FLAT_VER_TIME_HI (k : Nat) : Nat := 0x80410 + 0x10000 * k
abbrev Reg.FLAT_RESID (k : Nat) : Nat := 0x80414 + 0x10000 * k
abbrev Reg.FLAT_CTRL (k : Nat) : Nat := 0x80418 + 0x10000 * k
abbrev Reg.DET_CMD (k : Nat) : Nat := 0x8041C + 0x10000 * k
abbrev Reg.DET_RED (k i : Nat) : Nat := 0x80440 + 0x10000 * k + 4 * i
abbrev Reg.DET_EXC (k i : Nat) : Nat := 0x80480 + 0x10000 * k + 4 * i
abbrev Reg.DET_SKF (k i : Nat) : Nat := 0x804C0 + 0x10000 * k + 4 * i
abbrev Reg.DET_PROG (k i : Nat) : Nat := 0x80500 + 0x10000 * k + 4 * i
abbrev Reg.DENS_STATUS (k : Nat) : Nat := 0x80600 + 0x10000 * k
abbrev Reg.DENS_SKIPS (k : Nat) : Nat := 0x80604 + 0x10000 * k
abbrev Reg.DENS_EPOCHS (k i : Nat) : Nat := 0x80640 + 0x10000 * k + 4 * i
abbrev Reg.DENS_CLIPHI (k i : Nat) : Nat := 0x80680 + 0x10000 * k + 4 * i
abbrev Reg.DENS_CLIPLO (k i : Nat) : Nat := 0x806C0 + 0x10000 * k + 4 * i

/-- Rows of Lane groups (R137 to R139, R170, R171, R231), part 1. -/
def descs_grp_0 : List Desc := [
  { off := 0x0000, acc := .sq, rst := fun _ _ _ => 0x1, mask := 0xF8 },
  { off := 0x0004, acc := .ro, rst := fun _ _ _ => 0x76543210 },
  { off := 0x0008, acc := .ro, rst := fun _ _ _ => 0xC000BA98 },
  { off := 0x000C, acc := .ro, rst := fun _ _ _ => 0 },
  { off := 0x0010, acc := .ro, rst := fun _ _ _ => 0 },
  { off := 0x0014, acc := .ro, rst := fun _ _ _ => 0 },
  { off := 0x0018, acc := .ro, rst := fun _ _ _ => 0, pair := .lo },
  { off := 0x001C, acc := .ro, rst := fun _ _ _ => 0, pair := .hi },
  { off := 0x0020, acc := .ro, rst := fun _ _ _ => 0 },
  { off := 0x0024, acc := .ro, rst := fun _ _ _ => 0 },
  { off := 0x0100, acc := .ro, rst := fun _ _ _ => 0, n := 12, s := 16, pair := .lo },
  { off := 0x0104, acc := .ro, rst := fun _ _ _ => 0, n := 12, s := 16, pair := .hi },
  { off := 0x0108, acc := .ro, rst := fun _ _ _ => 0, n := 12, s := 16, pair := .lo },
  { off := 0x010C, acc := .ro, rst := fun _ _ _ => 0, n := 12, s := 16, pair := .hi },
  { off := 0x0200, acc := .ro, rst := rstLaneInfo, n := 12, s := 4 },
  { off := 0x0240, acc := .ro, rst := fun _ _ _ => 0, n := 12, s := 4 },
  { off := 0x0280, acc := .ro, rst := fun _ _ _ => 0, n := 12, s := 4 },
  { off := 0x0400, acc := .sq, rst := fun _ _ _ => 0x8, mask := 0xF0 },
  { off := 0x0404, acc := .ro, rst := fun _ _ _ => 0 },
  { off := 0x0408, acc := .ro, rst := fun _ _ _ => 0 }]

/-- Rows of Lane groups (R137 to R139, R170, R171, R231), part 2. -/
def descs_grp_1 : List Desc := [
  { off := 0x040C, acc := .ro, rst := fun _ _ _ => 0, pair := .lo },
  { off := 0x0410, acc := .ro, rst := fun _ _ _ => 0, pair := .hi },
  { off := 0x0414, acc := .ro, rst := fun _ _ _ => 0 },
  { off := 0x0418, acc := .rw, rst := fun _ _ _ => 0x87000014, mask := 0xBF00FFFF },
  { off := 0x041C, acc := .cmd, rst := fun _ _ _ => 0 },
  { off := 0x0440, acc := .ro, rst := fun _ _ _ => 0, n := 12, s := 4 },
  { off := 0x0480, acc := .ro, rst := fun _ _ _ => 0, n := 12, s := 4 },
  { off := 0x04C0, acc := .ro, rst := fun _ _ _ => 0, n := 12, s := 4 },
  { off := 0x0500, acc := .ro, rst := fun _ _ _ => 0, n := 12, s := 4 },
  { off := 0x0600, acc := .sq, rst := fun _ _ _ => 0, mask := 0xE },
  { off := 0x0604, acc := .ro, rst := fun _ _ _ => 0 },
  { off := 0x0640, acc := .ro, rst := fun _ _ _ => 0, n := 12, s := 4 },
  { off := 0x0680, acc := .ro, rst := fun _ _ _ => 0, n := 12, s := 4 },
  { off := 0x06C0, acc := .ro, rst := fun _ _ _ => 0, n := 12, s := 4 }]

/-- Lane groups (R137 to R139, R170, R171, R231): its rows. -/
def descs_grp : List Desc := descs_grp_0 ++ descs_grp_1

/-! ### Causeway (R381, R382) -/
abbrev Reg.CW_STATUS : Nat := 0x200000
abbrev Reg.CW_CTRL : Nat := 0x200004
abbrev Reg.CW_CMD_BASE_LO : Nat := 0x200008
abbrev Reg.CW_CMD_BASE_HI : Nat := 0x20000C
abbrev Reg.CW_CMD_HEAD : Nat := 0x200010
abbrev Reg.CW_CMD_TAIL : Nat := 0x200014
abbrev Reg.CW_DONE_BASE_LO : Nat := 0x200018
abbrev Reg.CW_DONE_BASE_HI : Nat := 0x20001C
abbrev Reg.CW_DONE_HEAD : Nat := 0x200020
abbrev Reg.CW_DONE_TAIL : Nat := 0x200024
abbrev Reg.CW_LATE_LIMIT : Nat := 0x200028
abbrev Reg.CW_GROUPS : Nat := 0x20002C
abbrev Reg.CW_SWITCHES : Nat := 0x200030
abbrev Reg.CW_STORE : Nat := 0x200034
abbrev Reg.CW_SDIGEST (i : Nat) : Nat := 0x200040 + 4 * i
abbrev Reg.TGT_STATE (i : Nat) : Nat := 0x200100 + 4 * i

/-- Rows of Causeway (R381, R382), part 1. -/
def descs_cw_0 : List Desc := [
  { off := 0x0000, acc := .sq, rst := fun _ _ _ => 0x1, mask := 0xF0 },
  { off := 0x0004, acc := .rw, rst := fun _ _ _ => 0x404, norm := normCwCtrl },
  { off := 0x0008, acc := .rw, rst := fun _ _ _ => 0, mask := 0xFFFFFFC0, pair := .lo },
  { off := 0x000C, acc := .rw, rst := fun _ _ _ => 0, pair := .hi },
  { off := 0x0010, acc := .rw, rst := fun _ _ _ => 0, mask := 0xFFF },
  { off := 0x0014, acc := .ro, rst := fun _ _ _ => 0 },
  { off := 0x0018, acc := .rw, rst := fun _ _ _ => 0, mask := 0xFFFFFFC0, pair := .lo },
  { off := 0x001C, acc := .rw, rst := fun _ _ _ => 0, pair := .hi },
  { off := 0x0020, acc := .ro, rst := fun _ _ _ => 0 },
  { off := 0x0024, acc := .rw, rst := fun _ _ _ => 0, mask := 0xFFF },
  { off := 0x0028, acc := .rw, rst := fun _ _ _ => 0xA, mask := 0xFFFF },
  { off := 0x002C, acc := .ro, rst := fun _ _ _ => 0 },
  { off := 0x0030, acc := .ro, rst := fun _ _ _ => 0 },
  { off := 0x0034, acc := .ro, rst := fun _ _ _ => 0 },
  { off := 0x0040, acc := .ro, rst := rstSdigest, n := 8, s := 4 },
  { off := 0x0100, acc := .ro, rst := fun _ _ _ => 0, n := 64, s := 4 }]

/-- Causeway (R381, R382): its rows. -/
def descs_cw : List Desc := descs_cw_0

/-! ### Trigger fabric (R199 to R201) -/
abbrev Reg.FAB_STATUS : Nat := 0xC0000
abbrev Reg.FAB_CMD : Nat := 0xC0004
abbrev Reg.COMMIT_AT_LO : Nat := 0xC0008
abbrev Reg.COMMIT_AT_HI : Nat := 0xC000C
abbrev Reg.REC_SKIPS : Nat := 0xC0010
abbrev Reg.COMMITS : Nat := 0xC0014
abbrev Reg.XT_CFG : Nat := 0xC0018
abbrev Reg.XT_TX (i : Nat) : Nat := 0xC0020 + 4 * i
abbrev Reg.XT_PAD (i : Nat) : Nat := 0xC0030 + 4 * i
abbrev Reg.XT_ERR (i : Nat) : Nat := 0xC0040 + 4 * i
abbrev Reg.LINE_CFG (i : Nat) : Nat := 0xC0100 + 4 * i
abbrev Reg.QS_CFG (i : Nat) : Nat := 0xC0200 + 32 * i
abbrev Reg.QS_COUNT (i : Nat) : Nat := 0xC0204 + 32 * i
abbrev Reg.QS_WINDOW (i : Nat) : Nat := 0xC0208 + 32 * i
abbrev Reg.QS_HOLDOFF (i : Nat) : Nat := 0xC020C + 32 * i
abbrev Reg.QS_FIRES (i : Nat) : Nat := 0xC0210 + 32 * i
abbrev Reg.TRIG_CFG (i : Nat) : Nat := 0xC0300 + 4 * i
abbrev Reg.BLANK_CFG (i : Nat) : Nat := 0xC0340 + 16 * i
abbrev Reg.BLANK_MASK_LO (i : Nat) : Nat := 0xC0344 + 16 * i
abbrev Reg.BLANK_MASK_HI (i : Nat) : Nat := 0xC0348 + 16 * i
abbrev Reg.BLANK_COUNT (i : Nat) : Nat := 0xC034C + 16 * i
abbrev Reg.TM_AT_LO (i : Nat) : Nat := 0xC0380 + 16 * i
abbrev Reg.TM_AT_HI (i : Nat) : Nat := 0xC0384 + 16 * i
abbrev Reg.TM_CFG (i : Nat) : Nat := 0xC0388 + 16 * i

/-- Rows of Trigger fabric (R199 to R201), part 1. -/
def descs_fab_0 : List Desc := [
  { off := 0x0000, acc := .sq, rst := fun _ _ _ => 0, mask := 0x3C0 },
  { off := 0x0004, acc := .cmd, rst := fun _ _ _ => 0 },
  { off := 0x0008, acc := .rw, rst := fun _ _ _ => 0, pair := .lo },
  { off := 0x000C, acc := .rw, rst := fun _ _ _ => 0, pair := .hi },
  { off := 0x0010, acc := .ro, rst := fun _ _ _ => 0 },
  { off := 0x0014, acc := .ro, rst := fun _ _ _ => 0 },
  { off := 0x0018, acc := .rw, rst := fun _ _ _ => 0, mask := 0xF0001F0F },
  { off := 0x0020, acc := .rw, rst := fun _ _ _ => 0, mask := 0x71FF, n := 4, s := 4 },
  { off := 0x0030, acc := .rw, rst := fun _ _ _ => 0, mask := 0xFF, n := 4, s := 4 },
  { off := 0x0040, acc := .ro, rst := fun _ _ _ => 0, n := 4, s := 4 },
  { off := 0x0100, acc := .rw, rst := fun _ _ _ => 0, mask := 0xDFF7FC00, n := 64, s := 4 },
  { off := 0x0200, acc := .rw, rst := fun _ _ _ => 0, mask := 0xF83F3F00, n := 8, s := 32 },
  { off := 0x0204, acc := .rw, rst := fun _ _ _ => 0, mask := 0xFFFF, n := 8, s := 32 },
  { off := 0x0208, acc := .rw, rst := fun _ _ _ => 0x1, mask := 0xFFFFFF, n := 8, s := 32 },
  { off := 0x020C, acc := .rw, rst := fun _ _ _ => 0, mask := 0xFFFFFF, n := 8, s := 32 },
  { off := 0x0210, acc := .ro, rst := fun _ _ _ => 0, n := 8, s := 32 },
  { off := 0x0300, acc := .rw, rst := fun _ _ _ => 0, mask := 0xDFF0FFFF, n := 8, s := 4 },
  { off := 0x0340, acc := .rw, rst := fun _ _ _ => 0x1, mask := 0xE0FFFFFF, n := 4, s := 16 },
  { off := 0x0344, acc := .rw, rst := fun _ _ _ => 0, n := 4, s := 16, pair := .lo },
  { off := 0x0348, acc := .rw, rst := fun _ _ _ => 0, n := 4, s := 16, pair := .hi }]

/-- Rows of Trigger fabric (R199 to R201), part 2. -/
def descs_fab_1 : List Desc := [
  { off := 0x034C, acc := .ro, rst := fun _ _ _ => 0, n := 4, s := 16 },
  { off := 0x0380, acc := .rw, rst := fun _ _ _ => 0, n := 8, s := 16, pair := .lo },
  { off := 0x0384, acc := .rw, rst := fun _ _ _ => 0, n := 8, s := 16, pair := .hi },
  { off := 0x0388, acc := .rw, rst := fun _ _ _ => 0, mask := 0x80FFFFFF, n := 8, s := 16 }]

/-- Trigger fabric (R199 to R201): its rows. -/
def descs_fab : List Desc := descs_fab_0 ++ descs_fab_1

/-! ### Edge inputs (R265 to R267) -/
abbrev Reg.EI_STATUS : Nat := 0x140000
abbrev Reg.EI_CMD : Nat := 0x140004
abbrev Reg.EI_COMMIT_AT_LO : Nat := 0x140008
abbrev Reg.EI_COMMIT_AT_HI : Nat := 0x14000C
abbrev Reg.EI_CAL_MASK : Nat := 0x140010
abbrev Reg.ILV_COMMIT_AT_LO : Nat := 0x140014
abbrev Reg.ILV_COMMIT_AT_HI : Nat := 0x140018
abbrev Reg.EI_COMMITS : Nat := 0x14001C
abbrev Reg.CAL_SEL : Nat := 0x140020
abbrev Reg.CAL_DATA : Nat := 0x140024
abbrev Reg.THR_RB_SEL : Nat := 0x140028
abbrev Reg.EI_CAL_CTRL : Nat := 0x14002C
abbrev Reg.CAL_LIMIT : Nat := 0x140030
abbrev Reg.EI_CFG (i : Nat) : Nat := 0x140100 + 128 * i
abbrev Reg.EI_BLOCK (i : Nat) : Nat := 0x140104 + 128 * i
abbrev Reg.EI_DESKEW (i : Nat) : Nat := 0x140108 + 128 * i
abbrev Reg.EI_RAMP (i : Nat) : Nat := 0x14010C + 128 * i
abbrev Reg.EI_RAMP_LEN (i : Nat) : Nat := 0x140110 + 128 * i
abbrev Reg.EI_STATE (i : Nat) : Nat := 0x140114 + 128 * i
abbrev Reg.EI_CROSS_LO (i : Nat) : Nat := 0x140118 + 128 * i
abbrev Reg.EI_CROSS_HI (i : Nat) : Nat := 0x14011C + 128 * i
abbrev Reg.EI_LOST (i : Nat) : Nat := 0x140120 + 128 * i
abbrev Reg.EI_OVER (i : Nat) : Nat := 0x140124 + 128 * i
abbrev Reg.EI_CAL_COUNT (i : Nat) : Nat := 0x140128 + 128 * i
abbrev Reg.CAL_QUAL (i : Nat) : Nat := 0x14012C + 128 * i
abbrev Reg.EI_CAL_TIME_LO (i : Nat) : Nat := 0x140130 + 128 * i
abbrev Reg.EI_CAL_TIME_HI (i : Nat) : Nat := 0x140134 + 128 * i
abbrev Reg.EI_CAL_RESULT (i : Nat) : Nat := 0x140138 + 128 * i
abbrev Reg.THR_TRIM (i : Nat) : Nat := 0x14013C + 128 * i
abbrev Reg.THR_CAL (i : Nat) : Nat := 0x140140 + 128 * i
abbrev Reg.THR_CAL_TIME_LO (i : Nat) : Nat := 0x140144 + 128 * i
abbrev Reg.THR_CAL_TIME_HI (i : Nat) : Nat := 0x140148 + 128 * i
abbrev Reg.EI_DFIX (i : Nat) : Nat := 0x14014C + 128 * i

/-- Rows of Edge inputs (R265 to R267), part 1. -/
def descs_ei_0 : List Desc := [
  { off := 0x0000, acc := .sq, rst := fun _ _ _ => 0, mask := 0xFFE0 },
  { off := 0x0004, acc := .cmd, rst := fun _ _ _ => 0 },
  { off := 0x0008, acc := .rw, rst := fun _ _ _ => 0, pair := .lo },
  { off := 0x000C, acc := .rw, rst := fun _ _ _ => 0, pair := .hi },
  { off := 0x0010, acc := .rw, rst := fun _ _ _ => 0, mask := 0xFFFF },
  { off := 0x0014, acc := .rw, rst := fun _ _ _ => 0, pair := .lo },
  { off := 0x0018, acc := .rw, rst := fun _ _ _ => 0, pair := .hi },
  { off := 0x001C, acc := .ro, rst := fun _ _ _ => 0 },
  { off := 0x0020, acc := .rw, rst := fun _ _ _ => 0, mask := 0x1F3FFF },
  { off := 0x0024, acc := .cmd, rst := fun _ _ _ => 0 },
  { off := 0x0028, acc := .rw, rst := fun _ _ _ => 0, mask := 0xF },
  { off := 0x002C, acc := .rw, rst := fun _ _ _ => 0x87000014, mask := 0xBF00FFFF },
  { off := 0x0030, acc := .rw, rst := fun _ _ _ => 0x2710, mask := 0xFFFF },
  { off := 0x0100, acc := .rw, rst := fun _ _ _ => 0x003F5555, n := 16, s := 128 },
  { off := 0x0104, acc := .rw, rst := fun _ _ _ => 0xFFE000C8, mask := 0xFFEFFFFF, n := 16, s := 128 },
  { off := 0x0108, acc := .rw, rst := fun _ _ _ => 0, n := 16, s := 128 },
  { off := 0x010C, acc := .rw, rst := fun _ _ _ => 0, mask := 0xFFFF01FF, n := 16, s := 128 },
  { off := 0x0110, acc := .rw, rst := fun _ _ _ => 0x1, mask := 0xFFFFFF, n := 16, s := 128 },
  { off := 0x0114, acc := .ro, rst := fun _ _ _ => 0x5555, n := 16, s := 128 },
  { off := 0x0118, acc := .ro, rst := fun _ _ _ => 0, n := 16, s := 128, pair := .lo }]

/-- Rows of Edge inputs (R265 to R267), part 2. -/
def descs_ei_1 : List Desc := [
  { off := 0x011C, acc := .ro, rst := fun _ _ _ => 0, n := 16, s := 128, pair := .hi },
  { off := 0x0120, acc := .ro, rst := fun _ _ _ => 0, n := 16, s := 128 },
  { off := 0x0124, acc := .ro, rst := fun _ _ _ => 0, n := 16, s := 128 },
  { off := 0x0128, acc := .ro, rst := fun _ _ _ => 0, n := 16, s := 128 },
  { off := 0x012C, acc := .ro, rst := fun _ _ _ => 0xFFFFFFFF, n := 16, s := 128 },
  { off := 0x0130, acc := .ro, rst := fun _ _ _ => 0, n := 16, s := 128, pair := .lo },
  { off := 0x0134, acc := .ro, rst := fun _ _ _ => 0, n := 16, s := 128, pair := .hi },
  { off := 0x0138, acc := .ro, rst := fun _ _ _ => 0, n := 16, s := 128 },
  { off := 0x013C, acc := .rw, rst := fun _ _ _ => 0, mask := 0xFFFF, n := 16, s := 128 },
  { off := 0x0140, acc := .ro, rst := fun _ _ _ => 0xFFFF, n := 16, s := 128 },
  { off := 0x0144, acc := .ro, rst := fun _ _ _ => 0, n := 16, s := 128, pair := .lo },
  { off := 0x0148, acc := .ro, rst := fun _ _ _ => 0, n := 16, s := 128, pair := .hi },
  { off := 0x014C, acc := .ro, rst := fun _ _ _ => 0, n := 16, s := 128 }]

/-- Edge inputs (R265 to R267): its rows. -/
def descs_ei : List Desc := descs_ei_0 ++ descs_ei_1

/-! ### Stamp statistics (R295 to R297) -/
abbrev Reg.SU_STATUS : Nat := 0x150000
abbrev Reg.SU_CMD : Nat := 0x150004
abbrev Reg.SU_COMMIT_AT_LO : Nat := 0x150008
abbrev Reg.SU_COMMIT_AT_HI : Nat := 0x15000C
abbrev Reg.SU_COMMITS : Nat := 0x150010
abbrev Reg.SU_CFG (i : Nat) : Nat := 0x150100 + 64 * i
abbrev Reg.SU_N (i : Nat) : Nat := 0x150104 + 64 * i
abbrev Reg.SU_REJ (i : Nat) : Nat := 0x150108 + 64 * i
abbrev Reg.SU_GATE (i : Nat) : Nat := 0x15010C + 64 * i
abbrev Reg.SU_TLIM (i : Nat) : Nat := 0x150110 + 64 * i
abbrev Reg.SU_BLOCK (i : Nat) : Nat := 0x150114 + 64 * i
abbrev Reg.SU_NEAR (i : Nat) : Nat := 0x150118 + 64 * i
abbrev Reg.SU_STATE (i : Nat) : Nat := 0x15011C + 64 * i
abbrev Reg.SU_PROG_LO (i : Nat) : Nat := 0x150120 + 64 * i
abbrev Reg.SU_PROG_HI (i : Nat) : Nat := 0x150124 + 64 * i
abbrev Reg.SU_BATCHES (i : Nat) : Nat := 0x150128 + 64 * i
abbrev Reg.SU_PAIRS (i : Nat) : Nat := 0x15012C + 64 * i
abbrev Reg.SU_ORPHANS (i : Nat) : Nat := 0x150130 + 64 * i
abbrev Reg.SU_REJECTED (i : Nat) : Nat := 0x150134 + 64 * i
abbrev Reg.SU_EXCLUDED (i : Nat) : Nat := 0x150138 + 64 * i

/-- Rows of Stamp statistics (R295 to R297), part 1. -/
def descs_su_0 : List Desc := [
  { off := 0x0000, acc := .sq, rst := fun _ _ _ => 0, mask := 0xF8 },
  { off := 0x0004, acc := .cmd, rst := fun _ _ _ => 0 },
  { off := 0x0008, acc := .rw, rst := fun _ _ _ => 0, pair := .lo },
  { off := 0x000C, acc := .rw, rst := fun _ _ _ => 0, pair := .hi },
  { off := 0x0010, acc := .ro, rst := fun _ _ _ => 0 },
  { off := 0x0100, acc := .rw, rst := fun _ _ _ => 0, mask := 0xFFFEFCFC, n := 16, s := 64 },
  { off := 0x0104, acc := .rw, rst := fun _ _ _ => 0x3E7, n := 16, s := 64 },
  { off := 0x0108, acc := .rw, rst := fun _ _ _ => 0, mask := 0xFFFFF, n := 16, s := 64 },
  { off := 0x010C, acc := .rw, rst := fun _ _ _ => 0x00138800, mask := 0xFFFFFF, n := 16, s := 64 },
  { off := 0x0110, acc := .rw, rst := fun _ _ _ => 0, mask := 0xFFFFF, n := 16, s := 64 },
  { off := 0x0114, acc := .rw, rst := fun _ _ _ => 0xFFC000C8, mask := 0xFFCFFFFF, n := 16, s := 64 },
  { off := 0x0118, acc := .rw, rst := fun _ _ _ => 0, mask := 0xFFFF, n := 16, s := 64 },
  { off := 0x011C, acc := .ro, rst := fun _ _ _ => 0, n := 16, s := 64 },
  { off := 0x0120, acc := .ro, rst := fun _ _ _ => 0, n := 16, s := 64, pair := .lo },
  { off := 0x0124, acc := .ro, rst := fun _ _ _ => 0, n := 16, s := 64, pair := .hi },
  { off := 0x0128, acc := .ro, rst := fun _ _ _ => 0, n := 16, s := 64 },
  { off := 0x012C, acc := .ro, rst := fun _ _ _ => 0, n := 16, s := 64 },
  { off := 0x0130, acc := .ro, rst := fun _ _ _ => 0, n := 16, s := 64 },
  { off := 0x0134, acc := .ro, rst := fun _ _ _ => 0, n := 16, s := 64 },
  { off := 0x0138, acc := .ro, rst := fun _ _ _ => 0, n := 16, s := 64 }]

/-- Stamp statistics (R295 to R297): its rows. -/
def descs_su : List Desc := descs_su_0

/-! ### Auxiliary converter (R402 to R404) -/
abbrev Reg.AUX_STATUS : Nat := 0x160000
abbrev Reg.AUX_CMD : Nat := 0x160004
abbrev Reg.SEQ_CTRL : Nat := 0x160008
abbrev Reg.SEQ_PERIOD : Nat := 0x16000C
abbrev Reg.SEQ_DELAY : Nat := 0x160010
abbrev Reg.HK_PERIOD : Nat := 0x160014
abbrev Reg.AUX_CAL_CTRL : Nat := 0x160018
abbrev Reg.AUX_CAL_COUNT : Nat := 0x16001C
abbrev Reg.AUX_CAL_TIME_LO : Nat := 0x160020
abbrev Reg.AUX_CAL_TIME_HI : Nat := 0x160024
abbrev Reg.AUX_CAL_RESULT : Nat := 0x160028
abbrev Reg.CAL_OFS (i : Nat) : Nat := 0x160030 + 4 * i
abbrev Reg.CAL_GAIN (i : Nat) : Nat := 0x160050 + 4 * i
abbrev Reg.ROUND_MISSES : Nat := 0x160070
abbrev Reg.INJ_MISSES : Nat := 0x160074
abbrev Reg.RES_DROPS : Nat := 0x160078
abbrev Reg.RES (i : Nat) : Nat := 0x160080 + 4 * i
abbrev Reg.ENTRY (i : Nat) : Nat := 0x160100 + 4 * i
abbrev Reg.ENTRY_STAT (i : Nat) : Nat := 0x160140 + 4 * i
abbrev Reg.INJ_CFG (i : Nat) : Nat := 0x160180 + 8 * i
abbrev Reg.INJ_TRIG (i : Nat) : Nat := 0x160184 + 8 * i
abbrev Reg.HK (i : Nat) : Nat := 0x160200 + 4 * i
abbrev Reg.PWM_CFG (i : Nat) : Nat := 0x160400 + 16 * i
abbrev Reg.PWM_PER (i : Nat) : Nat := 0x160404 + 16 * i
abbrev Reg.PWM_DUTY (i : Nat) : Nat := 0x160408 + 16 * i
abbrev Reg.TACH_CFG (i : Nat) : Nat := 0x160480 + 8 * i
abbrev Reg.TACH_PER (i : Nat) : Nat := 0x160484 + 8 * i

/-- Rows of Auxiliary converter (R402 to R404), part 1. -/
def descs_aux_0 : List Desc := [
  { off := 0x0000, acc := .sq, rst := fun _ _ _ => 0, mask := 0xFF80 },
  { off := 0x0004, acc := .cmd, rst := fun _ _ _ => 0 },
  { off := 0x0008, acc := .pw, rst := fun _ _ _ => 0, mask := 0xFF1E01FF },
  { off := 0x000C, acc := .pw, rst := fun _ _ _ => 0x1, mask := 0xFFFFFF },
  { off := 0x0010, acc := .pw, rst := fun _ _ _ => 0, mask := 0xFFFF },
  { off := 0x0014, acc := .pw, rst := fun _ _ _ => 0x64, norm := normHkPeriod },
  { off := 0x0018, acc := .pw, rst := fun _ _ _ => 0x87000014, mask := 0xBF00FFFF },
  { off := 0x001C, acc := .ro, rst := fun _ _ _ => 0 },
  { off := 0x0020, acc := .ro, rst := fun _ _ _ => 0, pair := .lo },
  { off := 0x0024, acc := .ro, rst := fun _ _ _ => 0, pair := .hi },
  { off := 0x0028, acc := .ro, rst := fun _ _ _ => 0 },
  { off := 0x0030, acc := .pw, rst := fun _ _ _ => 0, mask := 0xFFFFFF, n := 5, s := 4 },
  { off := 0x0050, acc := .pw, rst := fun _ _ _ => 0x400000, mask := 0xFFFFFF, n := 5, s := 4 },
  { off := 0x0070, acc := .ro, rst := fun _ _ _ => 0 },
  { off := 0x0074, acc := .ro, rst := fun _ _ _ => 0 },
  { off := 0x0078, acc := .ro, rst := fun _ _ _ => 0 },
  { off := 0x0080, acc := .ro, rst := fun _ _ _ => 0, n := 4, s := 4 },
  { off := 0x0100, acc := .pw, rst := fun _ _ _ => 0, n := 16, s := 4 },
  { off := 0x0140, acc := .ro, rst := fun _ _ _ => 0, n := 16, s := 4 },
  { off := 0x0180, acc := .pw, rst := fun _ _ _ => 0, n := 4, s := 8 }]

/-- Rows of Auxiliary converter (R402 to R404), part 2. -/
def descs_aux_1 : List Desc := [
  { off := 0x0184, acc := .pw, rst := fun _ _ _ => 0, mask := 0xDFF0FFFF, n := 4, s := 8 },
  { off := 0x0200, acc := .ro, rst := fun _ _ _ => 0, n := 12, s := 4 },
  { off := 0x0400, acc := .pw, rst := fun _ _ _ => 0, mask := 0xE00000FF, n := 8, s := 16 },
  { off := 0x0404, acc := .pw, rst := fun _ _ _ => 0xFFFF, mask := 0xFFFF, n := 8, s := 16 },
  { off := 0x0408, acc := .pw, rst := fun _ _ _ => 0, mask := 0xFFFFFF, n := 8, s := 16 },
  { off := 0x0480, acc := .pw, rst := fun _ _ _ => 0x100, mask := 0x8000FFFF, n := 4, s := 8 },
  { off := 0x0484, acc := .ro, rst := fun _ _ _ => 0, n := 4, s := 8 }]

/-- Auxiliary converter (R402 to R404): its rows. -/
def descs_aux : List Desc := descs_aux_0 ++ descs_aux_1

/-! ### Display (R232, R233) -/
abbrev Reg.DISP_STATUS : Nat := 0x100000
abbrev Reg.DISP_CTRL : Nat := 0x100004
abbrev Reg.DISP_CMD : Nat := 0x100008
abbrev Reg.DISP_H : Nat := 0x100010
abbrev Reg.DISP_HS : Nat := 0x100014
abbrev Reg.DISP_V : Nat := 0x100018
abbrev Reg.DISP_VS : Nat := 0x10001C
abbrev Reg.VTOTAL_MAX : Nat := 0x100020
abbrev Reg.PCLK_KHZ : Nat := 0x100024
abbrev Reg.FB_BASE_LO : Nat := 0x100028
abbrev Reg.FB_BASE_HI : Nat := 0x10002C
abbrev Reg.BG_COLOUR : Nat := 0x100030
abbrev Reg.FRAMES_SHOWN : Nat := 0x100040
abbrev Reg.FRAMES_NOT_SHOWN : Nat := 0x100044
abbrev Reg.REPEATS : Nat := 0x100048
abbrev Reg.UNDERFLOW_LINES : Nat := 0x10004C
abbrev Reg.RENDERS : Nat := 0x100050
abbrev Reg.RENDER_LATES : Nat := 0x100054
abbrev Reg.CREMA_CTRL : Nat := 0x100058
abbrev Reg.PANE_CFG (i : Nat) : Nat := 0x100080 + 16 * i
abbrev Reg.PANE_POS (i : Nat) : Nat := 0x100084 + 16 * i
abbrev Reg.PANE_NORM (i : Nat) : Nat := 0x100088 + 16 * i
abbrev Reg.AUX_TR : Nat := 0x1000C0
abbrev Reg.AUX_LEN : Nat := 0x1000C4
abbrev Reg.AUX_DATA (i : Nat) : Nat := 0x1000D0 + 4 * i
abbrev Reg.CREMA_COL (i : Nat) : Nat := 0x100200 + 4 * i
abbrev Reg.LUT0 (i : Nat) : Nat := 0x101000 + 4 * i
abbrev Reg.LUT1 (i : Nat) : Nat := 0x102000 + 4 * i

/-- Rows of Display (R232, R233), part 1. -/
def descs_disp_0 : List Desc := [
  { off := 0x0000, acc := .sq, rst := fun _ _ _ => 0, mask := 0xFE00 },
  { off := 0x0004, acc := .pw, rst := fun _ _ _ => 0x04000000, mask := 0xFFF00000 },
  { off := 0x0008, acc := .cmd, rst := fun _ _ _ => 0 },
  { off := 0x0010, acc := .pw, rst := fun _ _ _ => 0 },
  { off := 0x0014, acc := .pw, rst := fun _ _ _ => 0 },
  { off := 0x0018, acc := .pw, rst := fun _ _ _ => 0 },
  { off := 0x001C, acc := .pw, rst := fun _ _ _ => 0 },
  { off := 0x0020, acc := .pw, rst := fun _ _ _ => 0, mask := 0xFFFF },
  { off := 0x0024, acc := .pw, rst := fun _ _ _ => 0 },
  { off := 0x0028, acc := .pw, rst := fun _ _ _ => 0, pair := .lo },
  { off := 0x002C, acc := .pw, rst := fun _ _ _ => 0, pair := .hi },
  { off := 0x0030, acc := .pw, rst := fun _ _ _ => 0x8080, mask := 0xFFFFFF },
  { off := 0x0040, acc := .ro, rst := fun _ _ _ => 0 },
  { off := 0x0044, acc := .ro, rst := fun _ _ _ => 0 },
  { off := 0x0048, acc := .ro, rst := fun _ _ _ => 0 },
  { off := 0x004C, acc := .ro, rst := fun _ _ _ => 0 },
  { off := 0x0050, acc := .ro, rst := fun _ _ _ => 0 },
  { off := 0x0054, acc := .ro, rst := fun _ _ _ => 0 },
  { off := 0x0058, acc := .pw, rst := fun _ _ _ => 0, mask := 0xFF },
  { off := 0x0080, acc := .pw, rst := fun _ _ _ => 0, mask := 0xFFE0003F, n := 4, s := 16 }]

/-- Rows of Display (R232, R233), part 2. -/
def descs_disp_1 : List Desc := [
  { off := 0x0084, acc := .pw, rst := fun _ _ _ => 0, n := 4, s := 16 },
  { off := 0x0088, acc := .pw, rst := fun _ _ _ => 0x1, n := 4, s := 16 },
  { off := 0x00C0, acc := .pw, rst := fun _ _ _ => 0 },
  { off := 0x00C4, acc := .pw, rst := fun _ _ _ => 0, mask := 0xF },
  { off := 0x00D0, acc := .pw, rst := fun _ _ _ => 0, n := 4, s := 4 },
  { off := 0x0200, acc := .pw, rst := fun _ _ _ => 0x00FFFFFF, mask := 0xFFFFFF, n := 16, s := 4 },
  { off := 0x1000, acc := .pw, rst := fun _ _ _ => 0, mask := 0xFFFFFF, n := 1024, s := 4 },
  { off := 0x2000, acc := .pw, rst := fun _ _ _ => 0, mask := 0xFFFFFF, n := 1024, s := 4 }]

/-- Display (R232, R233): its rows. -/
def descs_disp : List Desc := descs_disp_0 ++ descs_disp_1

/-! ### Crema banks (R224) -/
abbrev Reg.CREMA_MEM (k i : Nat) : Nat := 0x120000 + 0x10000 * k + 4 * i

/-- Rows of Crema banks (R224), part 1. -/
def descs_crema_0 : List Desc := [
  { off := 0x0000, acc := .rw, rst := fun _ _ _ => 0, n := 16384, s := 4 }]

/-- Crema banks (R224): its rows. -/
def descs_crema : List Desc := descs_crema_0

/-! ### Clusters (R333, R334) -/
abbrev Reg.CL_STATUS (k : Nat) : Nat := 0x180000 + 0x10000 * k
abbrev Reg.CL_CMD (k : Nat) : Nat := 0x180004 + 0x10000 * k
abbrev Reg.CL_MAP (k i : Nat) : Nat := 0x180008 + 0x10000 * k + 4 * i
abbrev Reg.CL_SPARE (k : Nat) : Nat := 0x180018 + 0x10000 * k
abbrev Reg.CL_RETIRED (k : Nat) : Nat := 0x18001C + 0x10000 * k
abbrev Reg.MIG_COUNT (k : Nat) : Nat := 0x180020 + 0x10000 * k
abbrev Reg.MIG_TIME_LO (k : Nat) : Nat := 0x180024 + 0x10000 * k
abbrev Reg.MIG_TIME_HI (k : Nat) : Nat := 0x180028 + 0x10000 * k
abbrev Reg.ENG_STATE (k i : Nat) : Nat := 0x180100 + 0x10000 * k + 32 * i
abbrev Reg.ENG_AOV (k i : Nat) : Nat := 0x180104 + 0x10000 * k + 32 * i
abbrev Reg.ENG_ENTRIES (k i : Nat) : Nat := 0x180108 + 0x10000 * k + 32 * i
abbrev Reg.ENG_MAXDELAY (k i : Nat) : Nat := 0x18010C + 0x10000 * k + 32 * i
abbrev Reg.ENG_RECORDS (k i : Nat) : Nat := 0x180110 + 0x10000 * k + 32 * i
abbrev Reg.ENG_OUT_SKIPS (k i : Nat) : Nat := 0x180114 + 0x10000 * k + 32 * i
abbrev Reg.ENG_TESTS (k i : Nat) : Nat := 0x180118 + 0x10000 * k + 32 * i
abbrev Reg.WIN_FILL (k i : Nat) : Nat := 0x180400 + 0x10000 * k + 16 * i
abbrev Reg.WIN_OVERRUNS (k i : Nat) : Nat := 0x180404 + 0x10000 * k + 16 * i

/-- Rows of Clusters (R333, R334), part 1. -/
def descs_cl_0 : List Desc := [
  { off := 0x0000, acc := .sq, rst := fun _ _ _ => 0x1, mask := 0xF8 },
  { off := 0x0004, acc := .cmd, rst := fun _ _ _ => 0 },
  { off := 0x0008, acc := .ro, rst := rstClMap, n := 4, s := 4 },
  { off := 0x0018, acc := .ro, rst := fun _ _ _ => 0x10 },
  { off := 0x001C, acc := .ro, rst := fun _ _ _ => 0 },
  { off := 0x0020, acc := .ro, rst := fun _ _ _ => 0 },
  { off := 0x0024, acc := .ro, rst := fun _ _ _ => 0, pair := .lo },
  { off := 0x0028, acc := .ro, rst := fun _ _ _ => 0, pair := .hi },
  { off := 0x0100, acc := .ro, rst := fun _ _ _ => 0, n := 16, s := 32 },
  { off := 0x0104, acc := .ro, rst := fun _ _ _ => 0, n := 16, s := 32 },
  { off := 0x0108, acc := .ro, rst := fun _ _ _ => 0, n := 16, s := 32 },
  { off := 0x010C, acc := .ro, rst := fun _ _ _ => 0, n := 16, s := 32 },
  { off := 0x0110, acc := .ro, rst := fun _ _ _ => 0, n := 16, s := 32 },
  { off := 0x0114, acc := .ro, rst := fun _ _ _ => 0, n := 16, s := 32 },
  { off := 0x0118, acc := .ro, rst := fun _ _ _ => 0, n := 16, s := 32 },
  { off := 0x0400, acc := .ro, rst := fun _ _ _ => 0, n := 16, s := 16 },
  { off := 0x0404, acc := .ro, rst := fun _ _ _ => 0, n := 16, s := 16 }]

/-- Clusters (R333, R334): its rows. -/
def descs_cl : List Desc := descs_cl_0

/-! ### Memory controller (R440, R461) -/
abbrev Reg.MC_STATUS : Nat := 0x220000
abbrev Reg.MC_CTRL : Nat := 0x220004
abbrev Reg.MC_CMD : Nat := 0x220008
abbrev Reg.MEM_CE : Nat := 0x220010
abbrev Reg.MEM_UE : Nat := 0x220014
abbrev Reg.MEM_UE_ADDR_LO : Nat := 0x220018
abbrev Reg.MEM_UE_ADDR_HI : Nat := 0x22001C
abbrev Reg.REFRESH_STATE : Nat := 0x220020
abbrev Reg.SPLITS : Nat := 0x220024
abbrev Reg.PORT_REG (i : Nat) : Nat := 0x220100 + 8 * i
abbrev Reg.PORT_BYTES (i : Nat) : Nat := 0x220104 + 8 * i
abbrev Reg.RGN_SEL : Nat := 0x220200
abbrev Reg.RGN_BASE_LO : Nat := 0x220204
abbrev Reg.RGN_BASE_HI : Nat := 0x220208
abbrev Reg.RGN_LEN : Nat := 0x22020C
abbrev Reg.RGN_CFG : Nat := 0x220210
abbrev Reg.RGN_WP : Nat := 0x220214
abbrev Reg.RGN_CP : Nat := 0x220218
abbrev Reg.RGN_STAT : Nat := 0x22021C

/-- Rows of Memory controller (R440, R461), part 1. -/
def descs_mc_0 : List Desc := [
  { off := 0x0000, acc := .sq, rst := fun _ _ _ => 0, mask := 0xE0 },
  { off := 0x0004, acc := .rw, rst := fun _ _ _ => 0x0C000008, norm := normMcCtrl },
  { off := 0x0008, acc := .cmd, rst := fun _ _ _ => 0 },
  { off := 0x0010, acc := .ro, rst := fun _ _ _ => 0 },
  { off := 0x0014, acc := .ro, rst := fun _ _ _ => 0 },
  { off := 0x0018, acc := .ro, rst := fun _ _ _ => 0, pair := .lo },
  { off := 0x001C, acc := .ro, rst := fun _ _ _ => 0, pair := .hi },
  { off := 0x0020, acc := .ro, rst := fun _ _ _ => 0 },
  { off := 0x0024, acc := .ro, rst := fun _ _ _ => 0 },
  { off := 0x0100, acc := .rw, rst := rstPortReg, mask := 0x03FF07FF, n := 24, s := 8 },
  { off := 0x0104, acc := .ro, rst := fun _ _ _ => 0, n := 24, s := 8 },
  { off := 0x0200, acc := .rw, rst := fun _ _ _ => 0, mask := 0x1FF },
  { off := 0x0204, acc := .rw, rst := fun _ _ _ => 0, mask := 0xFFFF0000, pair := .lo },
  { off := 0x0208, acc := .rw, rst := fun _ _ _ => 0, pair := .hi },
  { off := 0x020C, acc := .rw, rst := fun _ _ _ => 0, mask := 0xFFFFF },
  { off := 0x0210, acc := .rw, rst := fun _ _ _ => 0, mask := 0x1 },
  { off := 0x0214, acc := .ro, rst := fun _ _ _ => 0 },
  { off := 0x0218, acc := .rw, rst := fun _ _ _ => 0 },
  { off := 0x021C, acc := .ro, rst := fun _ _ _ => 0 }]

/-- Memory controller (R440, R461): its rows. -/
def descs_mc : List Desc := descs_mc_0

/-! ### Capture rings and extractors (R453, R462) -/
abbrev Reg.CAP_STATUS : Nat := 0x230000
abbrev Reg.CAP_CMD : Nat := 0x230004
abbrev Reg.RLEN_FORCE_ARM : Nat := 0x230008
abbrev Reg.RLEN_FORCE_FIRE : Nat := 0x23000C
abbrev Reg.RBASE_LO (i : Nat) : Nat := 0x230100 + 64 * i
abbrev Reg.RBASE_HI (i : Nat) : Nat := 0x230104 + 64 * i
abbrev Reg.RLEN (i : Nat) : Nat := 0x230108 + 64 * i
abbrev Reg.RLEN_PEND (i : Nat) : Nat := 0x23010C + 64 * i
abbrev Reg.RING_WP (i : Nat) : Nat := 0x230110 + 64 * i
abbrev Reg.TWP_LO (i : Nat) : Nat := 0x230114 + 64 * i
abbrev Reg.TWP_HI (i : Nat) : Nat := 0x230118 + 64 * i
abbrev Reg.OLDEST_LO (i : Nat) : Nat := 0x23011C + 64 * i
abbrev Reg.OLDEST_HI (i : Nat) : Nat := 0x230120 + 64 * i
abbrev Reg.CAP_LOST (i : Nat) : Nat := 0x230124 + 64 * i
abbrev Reg.SPANS (i : Nat) : Nat := 0x230128 + 64 * i
abbrev Reg.CX_CFG (i : Nat) : Nat := 0x231000 + 64 * i
abbrev Reg.CX_PRE (i : Nat) : Nat := 0x231004 + 64 * i
abbrev Reg.CX_POST (i : Nat) : Nat := 0x231008 + 64 * i
abbrev Reg.CX_AT_LO (i : Nat) : Nat := 0x23100C + 64 * i
abbrev Reg.CX_AT_HI (i : Nat) : Nat := 0x231010 + 64 * i
abbrev Reg.CX_RESULT (i : Nat) : Nat := 0x231014 + 64 * i
abbrev Reg.CX_PROGRESS (i : Nat) : Nat := 0x231018 + 64 * i
abbrev Reg.CX_COUNT (i : Nat) : Nat := 0x23101C + 64 * i
abbrev Reg.CX_MISSES (i : Nat) : Nat := 0x231020 + 64 * i

/-- Rows of Capture rings and extractors (R453, R462), part 1. -/
def descs_cap_0 : List Desc := [
  { off := 0x0000, acc := .sq, rst := fun _ _ _ => 0, mask := 0x6 },
  { off := 0x0004, acc := .cmd, rst := fun _ _ _ => 0 },
  { off := 0x0008, acc := .g2a, rst := fun _ _ _ => 0, mask := 0x03FFFFFF },
  { off := 0x000C, acc := .g2f, rst := fun _ _ _ => 0 },
  { off := 0x0100, acc := .rw, rst := rstRbaseLo, mask := 0xFFFF0000, n := 48, s := 64, pair := .lo },
  { off := 0x0104, acc := .rw, rst := rstRbaseHi, n := 48, s := 64, pair := .hi },
  { off := 0x0108, acc := .rw, rst := fun _ _ _ => 0x31AC, mask := 0xFFFFF, n := 48, s := 64 },
  { off := 0x010C, acc := .ro, rst := fun _ _ _ => 0, n := 48, s := 64 },
  { off := 0x0110, acc := .ro, rst := fun _ _ _ => 0, n := 48, s := 64 },
  { off := 0x0114, acc := .ro, rst := fun _ _ _ => 0, n := 48, s := 64, pair := .lo },
  { off := 0x0118, acc := .ro, rst := fun _ _ _ => 0, n := 48, s := 64, pair := .hi },
  { off := 0x011C, acc := .ro, rst := fun _ _ _ => 0, n := 48, s := 64, pair := .lo },
  { off := 0x0120, acc := .ro, rst := fun _ _ _ => 0, n := 48, s := 64, pair := .hi },
  { off := 0x0124, acc := .ro, rst := fun _ _ _ => 0, n := 48, s := 64 },
  { off := 0x0128, acc := .ro, rst := fun _ _ _ => 0, n := 48, s := 64 },
  { off := 0x1000, acc := .rw, rst := fun _ _ _ => 0, mask := 0xC03F01FF, n := 16, s := 64 },
  { off := 0x1004, acc := .rw, rst := fun _ _ _ => 0, mask := 0xFFFFFF, n := 16, s := 64 },
  { off := 0x1008, acc := .rw, rst := fun _ _ _ => 0x1, mask := 0xFFFFFF, n := 16, s := 64 },
  { off := 0x100C, acc := .rw, rst := fun _ _ _ => 0, n := 16, s := 64, pair := .lo },
  { off := 0x1010, acc := .rw, rst := fun _ _ _ => 0, n := 16, s := 64, pair := .hi }]

/-- Rows of Capture rings and extractors (R453, R462), part 2. -/
def descs_cap_1 : List Desc := [
  { off := 0x1014, acc := .ro, rst := fun _ _ _ => 0, n := 16, s := 64 },
  { off := 0x1018, acc := .ro, rst := fun _ _ _ => 0, n := 16, s := 64 },
  { off := 0x101C, acc := .ro, rst := fun _ _ _ => 0, n := 16, s := 64 },
  { off := 0x1020, acc := .ro, rst := fun _ _ _ => 0, n := 16, s := 64 }]

/-- Capture rings and extractors (R453, R462): its rows. -/
def descs_cap : List Desc := descs_cap_0 ++ descs_cap_1

/-! ### Trust and identity (R565) -/
abbrev Reg.TR_STATUS : Nat := 0x2B0000
abbrev Reg.ID_STATE : Nat := 0x2B0004
abbrev Reg.KEY_SLOTS : Nat := 0x2B0008
abbrev Reg.KEY_REVOKE_ARM : Nat := 0x2B000C
abbrev Reg.KEY_REVOKE_FIRE : Nat := 0x2B0010
abbrev Reg.RB_ADV_ARM : Nat := 0x2B0014
abbrev Reg.RB_ADV_FIRE : Nat := 0x2B0018
abbrev Reg.ID_KEY_ARM : Nat := 0x2B001C
abbrev Reg.ID_KEY_FIRE : Nat := 0x2B0020
abbrev Reg.ATT_CMD : Nat := 0x2B0024
abbrev Reg.ATT_ADDR_LO : Nat := 0x2B0028
abbrev Reg.ATT_ADDR_HI : Nat := 0x2B002C
abbrev Reg.ATT_RESULT : Nat := 0x2B0030
abbrev Reg.EVD_CTRL : Nat := 0x2B0034
abbrev Reg.EVD_COUNT : Nat := 0x2B0038
abbrev Reg.EVD_SKIPS : Nat := 0x2B003C
abbrev Reg.EVD_FLOW (i : Nat) : Nat := 0x2B0040 + 4 * i
abbrev Reg.LAST_FAIL : Nat := 0x2B0060
abbrev Reg.JTAG_LOCK_ARM : Nat := 0x2B0064
abbrev Reg.JTAG_LOCK_FIRE : Nat := 0x2B0068
abbrev Reg.ATT_NONCE (i : Nat) : Nat := 0x2B0080 + 4 * i
abbrev Reg.ID_PUB (i : Nat) : Nat := 0x2B00A0 + 4 * i
abbrev Reg.RB_CTR (i : Nat) : Nat := 0x2B0100 + 4 * i
abbrev Reg.BOOT_MON_DIGEST (i : Nat) : Nat := 0x2B0200 + 4 * i
abbrev Reg.BOOT_LDR_DIGEST (i : Nat) : Nat := 0x2B0220 + 4 * i
abbrev Reg.BOOT_LRX_DIGEST (i : Nat) : Nat := 0x2B0240 + 4 * i
abbrev Reg.STORE_DIGEST (i : Nat) : Nat := 0x2B0260 + 4 * i

/-- Rows of Trust and identity (R565), part 1. -/
def descs_trust_0 : List Desc := [
  { off := 0x0000, acc := .sq, rst := fun _ _ _ => 0, mask := 0xF8 },
  { off := 0x0004, acc := .ro, rst := fun _ _ _ => 0 },
  { off := 0x0008, acc := .ro, rst := fun _ _ _ => 0 },
  { off := 0x000C, acc := .g2a, rst := fun _ _ _ => 0, mask := 0xF },
  { off := 0x0010, acc := .g2f, rst := fun _ _ _ => 0 },
  { off := 0x0014, acc := .g2a, rst := fun _ _ _ => 0, mask := 0x3F3F },
  { off := 0x0018, acc := .g2f, rst := fun _ _ _ => 0 },
  { off := 0x001C, acc := .g2a, rst := fun _ _ _ => 0, mask := 0x3 },
  { off := 0x0020, acc := .g2f, rst := fun _ _ _ => 0 },
  { off := 0x0024, acc := .cmd, rst := fun _ _ _ => 0 },
  { off := 0x0028, acc := .rw, rst := fun _ _ _ => 0, mask := 0xFFFFFFF0, pair := .lo },
  { off := 0x002C, acc := .rw, rst := fun _ _ _ => 0, pair := .hi },
  { off := 0x0030, acc := .ro, rst := fun _ _ _ => 0 },
  { off := 0x0034, acc := .rw, rst := fun _ _ _ => 0xA, norm := normEvdCtrl },
  { off := 0x0038, acc := .ro, rst := fun _ _ _ => 0 },
  { off := 0x003C, acc := .ro, rst := fun _ _ _ => 0 },
  { off := 0x0040, acc := .rw, rst := fun _ _ _ => 0, mask := 0x800001FF, n := 8, s := 4 },
  { off := 0x0060, acc := .ro, rst := fun _ _ _ => 0 },
  { off := 0x0064, acc := .g2a, rst := fun _ _ _ => 0, mask := 0x1 },
  { off := 0x0068, acc := .g2f, rst := fun _ _ _ => 0 }]

/-- Rows of Trust and identity (R565), part 2. -/
def descs_trust_1 : List Desc := [
  { off := 0x0080, acc := .rw, rst := fun _ _ _ => 0, n := 8, s := 4 },
  { off := 0x00A0, acc := .ro, rst := fun _ _ _ => 0, n := 15, s := 4 },
  { off := 0x0100, acc := .ro, rst := fun _ _ _ => 0, n := 64, s := 4 },
  { off := 0x0200, acc := .ro, rst := fun _ _ _ => 0, n := 8, s := 4 },
  { off := 0x0220, acc := .ro, rst := fun _ _ _ => 0, n := 8, s := 4 },
  { off := 0x0240, acc := .ro, rst := fun _ _ _ => 0, n := 8, s := 4 },
  { off := 0x0260, acc := .ro, rst := rstStoreDigest, n := 8, s := 4 }]

/-- Trust and identity (R565): its rows. -/
def descs_trust : List Desc := descs_trust_0 ++ descs_trust_1

/-! ### Stream-out ports (R481) -/
abbrev Reg.SO_STATUS (k : Nat) : Nat := 0x240000 + 0x10000 * k
abbrev Reg.SO_CTRL (k : Nat) : Nat := 0x240004 + 0x10000 * k
abbrev Reg.SRC_MAC_LO (k : Nat) : Nat := 0x240008 + 0x10000 * k
abbrev Reg.SRC_MAC_HI (k : Nat) : Nat := 0x24000C + 0x10000 * k
abbrev Reg.SRC_IP (k i : Nat) : Nat := 0x240010 + 0x10000 * k + 4 * i
abbrev Reg.SO_CMD (k : Nat) : Nat := 0x240020 + 0x10000 * k
abbrev Reg.TX_PKTS (k : Nat) : Nat := 0x240040 + 0x10000 * k
abbrev Reg.TX_BYTES_LO (k : Nat) : Nat := 0x240044 + 0x10000 * k
abbrev Reg.TX_BYTES_HI (k : Nat) : Nat := 0x240048 + 0x10000 * k
abbrev Reg.RESENDS (k : Nat) : Nat := 0x24004C + 0x10000 * k
abbrev Reg.RX_PFC (k : Nat) : Nat := 0x240050 + 0x10000 * k
abbrev Reg.RX_DISCARDS (k : Nat) : Nat := 0x240054 + 0x10000 * k
abbrev Reg.FEC_CORR (k : Nat) : Nat := 0x240058 + 0x10000 * k
abbrev Reg.FEC_UNCORR (k : Nat) : Nat := 0x24005C + 0x10000 * k
abbrev Reg.PAUSED (k : Nat) : Nat := 0x240060 + 0x10000 * k
abbrev Reg.SO_GAPS (k : Nat) : Nat := 0x240064 + 0x10000 * k
abbrev Reg.FLOW_SEL (k : Nat) : Nat := 0x240070 + 0x10000 * k
abbrev Reg.FLOW_PKT_LO (k : Nat) : Nat := 0x240074 + 0x10000 * k
abbrev Reg.FLOW_PKT_HI (k : Nat) : Nat := 0x240078 + 0x10000 * k
abbrev Reg.FLOW_HEAD (k i : Nat) : Nat := 0x240080 + 0x10000 * k + 4 * i
abbrev Reg.NH_MAC_LO (k i : Nat) : Nat := 0x240100 + 0x10000 * k + 8 * i
abbrev Reg.NH_MAC_HI (k i : Nat) : Nat := 0x240104 + 0x10000 * k + 8 * i

/-- Rows of Stream-out ports (R481), part 1. -/
def descs_so_0 : List Desc := [
  { off := 0x0000, acc := .sq, rst := fun _ _ _ => 0, mask := 0xF800 },
  { off := 0x0004, acc := .pw, rst := fun _ _ _ => 0xFF, mask := 0x800000FF },
  { off := 0x0008, acc := .pw, rst := fun _ _ _ => 0, pair := .lo },
  { off := 0x000C, acc := .pw, rst := fun _ _ _ => 0, mask := 0xFFFF, pair := .hi },
  { off := 0x0010, acc := .pw, rst := fun _ _ _ => 0, n := 4, s := 4 },
  { off := 0x0020, acc := .cmd, rst := fun _ _ _ => 0 },
  { off := 0x0040, acc := .ro, rst := fun _ _ _ => 0 },
  { off := 0x0044, acc := .ro, rst := fun _ _ _ => 0, pair := .lo },
  { off := 0x0048, acc := .ro, rst := fun _ _ _ => 0, pair := .hi },
  { off := 0x004C, acc := .ro, rst := fun _ _ _ => 0 },
  { off := 0x0050, acc := .ro, rst := fun _ _ _ => 0 },
  { off := 0x0054, acc := .ro, rst := fun _ _ _ => 0 },
  { off := 0x0058, acc := .ro, rst := fun _ _ _ => 0 },
  { off := 0x005C, acc := .ro, rst := fun _ _ _ => 0 },
  { off := 0x0060, acc := .ro, rst := fun _ _ _ => 0 },
  { off := 0x0064, acc := .ro, rst := fun _ _ _ => 0 },
  { off := 0x0070, acc := .pw, rst := fun _ _ _ => 0, mask := 0xFF },
  { off := 0x0074, acc := .ro, rst := fun _ _ _ => 0, pair := .lo },
  { off := 0x0078, acc := .ro, rst := fun _ _ _ => 0, pair := .hi },
  { off := 0x0080, acc := .ro, rst := fun _ _ _ => 0, n := 8, s := 4 }]

/-- Rows of Stream-out ports (R481), part 2. -/
def descs_so_1 : List Desc := [
  { off := 0x0100, acc := .pw, rst := fun _ _ _ => 0, n := 16, s := 8, pair := .lo },
  { off := 0x0104, acc := .pw, rst := fun _ _ _ => 0, mask := 0xFFFF, n := 16, s := 8, pair := .hi }]

/-- Stream-out ports (R481): its rows. -/
def descs_so : List Desc := descs_so_0 ++ descs_so_1

/-! ### Compressor (R482) -/
abbrev Reg.CP_STATUS : Nat := 0x260000
abbrev Reg.K_CMD : Nat := 0x260004
abbrev Reg.K_CFG (i : Nat) : Nat := 0x260100 + 64 * i
abbrev Reg.K_STAT (i : Nat) : Nat := 0x260104 + 64 * i
abbrev Reg.K_IN_LO (i : Nat) : Nat := 0x260108 + 64 * i
abbrev Reg.K_IN_HI (i : Nat) : Nat := 0x26010C + 64 * i
abbrev Reg.K_OUT_LO (i : Nat) : Nat := 0x260110 + 64 * i
abbrev Reg.K_OUT_HI (i : Nat) : Nat := 0x260114 + 64 * i
abbrev Reg.K_BLOCKS (i : Nat) : Nat := 0x260118 + 64 * i
abbrev Reg.K_STALLS (i : Nat) : Nat := 0x26011C + 64 * i
abbrev Reg.K_SATS (i : Nat) : Nat := 0x260120 + 64 * i
abbrev Reg.RP_CMD : Nat := 0x264000
abbrev Reg.RP_CFG : Nat := 0x264004
abbrev Reg.RP_SRC_LO : Nat := 0x264008
abbrev Reg.RP_SRC_HI : Nat := 0x26400C
abbrev Reg.RP_LEN : Nat := 0x264010
abbrev Reg.RP_DST_LO : Nat := 0x264014
abbrev Reg.RP_DST_HI : Nat := 0x264018
abbrev Reg.RP_MAX : Nat := 0x26401C
abbrev Reg.RP_HIST_LO : Nat := 0x264020
abbrev Reg.RP_HIST_HI : Nat := 0x264024
abbrev Reg.RP_RESULT : Nat := 0x264028
abbrev Reg.RP_IN_DONE : Nat := 0x26402C
abbrev Reg.RP_OUT_DONE : Nat := 0x264030
abbrev Reg.KP_CMD : Nat := 0x268004
abbrev Reg.KP_CFG (i : Nat) : Nat := 0x268100 + 64 * i
abbrev Reg.KP_STAT (i : Nat) : Nat := 0x268104 + 64 * i
abbrev Reg.KP_IN_LO (i : Nat) : Nat := 0x268108 + 64 * i
abbrev Reg.KP_IN_HI (i : Nat) : Nat := 0x26810C + 64 * i
abbrev Reg.KP_OUT_LO (i : Nat) : Nat := 0x268110 + 64 * i
abbrev Reg.KP_OUT_HI (i : Nat) : Nat := 0x268114 + 64 * i
abbrev Reg.KP_BLOCKS (i : Nat) : Nat := 0x268118 + 64 * i
abbrev Reg.KP_STALLS (i : Nat) : Nat := 0x26811C + 64 * i
abbrev Reg.KP_SATS (i : Nat) : Nat := 0x268120 + 64 * i
abbrev Reg.KP_SAVE_LO (i : Nat) : Nat := 0x268128 + 64 * i
abbrev Reg.KP_SAVE_HI (i : Nat) : Nat := 0x26812C + 64 * i

/-- Rows of Compressor (R482), part 1. -/
def descs_comp_0 : List Desc := [
  { off := 0x0000, acc := .sq, rst := fun _ _ _ => 0, mask := 0x1E },
  { off := 0x0004, acc := .cmd, rst := fun _ _ _ => 0 },
  { off := 0x0100, acc := .rw, rst := fun _ _ _ => 0xC0000, n := 16, s := 64, norm := normCtxCfg },
  { off := 0x0104, acc := .ro, rst := fun _ _ _ => 0, n := 16, s := 64 },
  { off := 0x0108, acc := .ro, rst := fun _ _ _ => 0, n := 16, s := 64, pair := .lo },
  { off := 0x010C, acc := .ro, rst := fun _ _ _ => 0, n := 16, s := 64, pair := .hi },
  { off := 0x0110, acc := .ro, rst := fun _ _ _ => 0, n := 16, s := 64, pair := .lo },
  { off := 0x0114, acc := .ro, rst := fun _ _ _ => 0, n := 16, s := 64, pair := .hi },
  { off := 0x0118, acc := .ro, rst := fun _ _ _ => 0, n := 16, s := 64 },
  { off := 0x011C, acc := .ro, rst := fun _ _ _ => 0, n := 16, s := 64 },
  { off := 0x0120, acc := .ro, rst := fun _ _ _ => 0, n := 16, s := 64 },
  { off := 0x4000, acc := .cmd, rst := fun _ _ _ => 0 },
  { off := 0x4004, acc := .rw, rst := fun _ _ _ => 0, mask := 0x80000001 },
  { off := 0x4008, acc := .rw, rst := fun _ _ _ => 0, mask := 0xFFFFFFF0, pair := .lo },
  { off := 0x400C, acc := .rw, rst := fun _ _ _ => 0, pair := .hi },
  { off := 0x4010, acc := .rw, rst := fun _ _ _ => 0 },
  { off := 0x4014, acc := .rw, rst := fun _ _ _ => 0, mask := 0xFFFFFFF0, pair := .lo },
  { off := 0x4018, acc := .rw, rst := fun _ _ _ => 0, pair := .hi },
  { off := 0x401C, acc := .rw, rst := fun _ _ _ => 0 },
  { off := 0x4020, acc := .rw, rst := fun _ _ _ => 0, pair := .lo }]

/-- Rows of Compressor (R482), part 2. -/
def descs_comp_1 : List Desc := [
  { off := 0x4024, acc := .rw, rst := fun _ _ _ => 0, pair := .hi },
  { off := 0x4028, acc := .ro, rst := fun _ _ _ => 0 },
  { off := 0x402C, acc := .ro, rst := fun _ _ _ => 0 },
  { off := 0x4030, acc := .ro, rst := fun _ _ _ => 0 },
  { off := 0x8004, acc := .cmd, rst := fun _ _ _ => 0 },
  { off := 0x8100, acc := .rw, rst := fun _ _ _ => 0xC0000, n := 4, s := 64, norm := normCtxCfg },
  { off := 0x8104, acc := .ro, rst := fun _ _ _ => 0, n := 4, s := 64 },
  { off := 0x8108, acc := .ro, rst := fun _ _ _ => 0, n := 4, s := 64, pair := .lo },
  { off := 0x810C, acc := .ro, rst := fun _ _ _ => 0, n := 4, s := 64, pair := .hi },
  { off := 0x8110, acc := .ro, rst := fun _ _ _ => 0, n := 4, s := 64, pair := .lo },
  { off := 0x8114, acc := .ro, rst := fun _ _ _ => 0, n := 4, s := 64, pair := .hi },
  { off := 0x8118, acc := .ro, rst := fun _ _ _ => 0, n := 4, s := 64 },
  { off := 0x811C, acc := .ro, rst := fun _ _ _ => 0, n := 4, s := 64 },
  { off := 0x8120, acc := .ro, rst := fun _ _ _ => 0, n := 4, s := 64 },
  { off := 0x8128, acc := .rw, rst := fun _ _ _ => 0, mask := 0xFFFFFF80, n := 4, s := 64, pair := .lo },
  { off := 0x812C, acc := .rw, rst := fun _ _ _ => 0, n := 4, s := 64, pair := .hi }]

/-- Compressor (R482): its rows. -/
def descs_comp : List Desc := descs_comp_0 ++ descs_comp_1

/-! ### DMA channels (R499) -/
abbrev Reg.DMA_STATUS : Nat := 0x270000
abbrev Reg.DMA_CTRL : Nat := 0x270004
abbrev Reg.DMA_CMD : Nat := 0x270008
abbrev Reg.MISALIGNED : Nat := 0x27000C
abbrev Reg.DRLEN_FORCE_ARM : Nat := 0x270010
abbrev Reg.DRLEN_FORCE_FIRE : Nat := 0x270014
abbrev Reg.DCH_CFG (i : Nat) : Nat := 0x270100 + 64 * i
abbrev Reg.DRING_BASE_LO (i : Nat) : Nat := 0x270104 + 64 * i
abbrev Reg.DRING_BASE_HI (i : Nat) : Nat := 0x270108 + 64 * i
abbrev Reg.DRLEN (i : Nat) : Nat := 0x27010C + 64 * i
abbrev Reg.DRLEN_PEND (i : Nat) : Nat := 0x270110 + 64 * i
abbrev Reg.DHEAD (i : Nat) : Nat := 0x270114 + 64 * i
abbrev Reg.DTAIL (i : Nat) : Nat := 0x270118 + 64 * i
abbrev Reg.DCPL_BASE_LO (i : Nat) : Nat := 0x27011C + 64 * i
abbrev Reg.DCPL_BASE_HI (i : Nat) : Nat := 0x270120 + 64 * i
abbrev Reg.DCPL_HEAD (i : Nat) : Nat := 0x270124 + 64 * i
abbrev Reg.DCPL_TAIL (i : Nat) : Nat := 0x270128 + 64 * i
abbrev Reg.DCH_STAT (i : Nat) : Nat := 0x27012C + 64 * i
abbrev Reg.DCRC (i : Nat) : Nat := 0x270130 + 64 * i

/-- Rows of DMA channels (R499), part 1. -/
def descs_dma_0 : List Desc := [
  { off := 0x0000, acc := .sq, rst := fun _ _ _ => 0, mask := 0xF8 },
  { off := 0x0004, acc := .rw, rst := fun _ _ _ => 0x32, norm := normDmaCtrl },
  { off := 0x0008, acc := .cmd, rst := fun _ _ _ => 0 },
  { off := 0x000C, acc := .ro, rst := fun _ _ _ => 0 },
  { off := 0x0010, acc := .g2a, rst := fun _ _ _ => 0, mask := 0xFC01FFFF },
  { off := 0x0014, acc := .g2f, rst := fun _ _ _ => 0 },
  { off := 0x0100, acc := .rw, rst := fun _ _ _ => 0x20000400, n := 64, s := 64, norm := normDchCfg },
  { off := 0x0104, acc := .rw, rst := fun _ _ _ => 0, mask := 0xFFFFFFC0, n := 64, s := 64, pair := .lo },
  { off := 0x0108, acc := .rw, rst := fun _ _ _ => 0, n := 64, s := 64, pair := .hi },
  { off := 0x010C, acc := .rw, rst := fun _ _ _ => 0x10, mask := 0x1FFFF, n := 64, s := 64 },
  { off := 0x0110, acc := .ro, rst := fun _ _ _ => 0, n := 64, s := 64 },
  { off := 0x0114, acc := .rw, rst := fun _ _ _ => 0, mask := 0xFFFF, n := 64, s := 64 },
  { off := 0x0118, acc := .ro, rst := fun _ _ _ => 0, n := 64, s := 64 },
  { off := 0x011C, acc := .rw, rst := fun _ _ _ => 0, mask := 0xFFFFFFC0, n := 64, s := 64, pair := .lo },
  { off := 0x0120, acc := .rw, rst := fun _ _ _ => 0, n := 64, s := 64, pair := .hi },
  { off := 0x0124, acc := .ro, rst := fun _ _ _ => 0, n := 64, s := 64 },
  { off := 0x0128, acc := .rw, rst := fun _ _ _ => 0, mask := 0xFFF, n := 64, s := 64 },
  { off := 0x012C, acc := .ro, rst := fun _ _ _ => 0, n := 64, s := 64 },
  { off := 0x0130, acc := .ro, rst := fun _ _ _ => 0, n := 64, s := 64 }]

/-- DMA channels (R499): its rows. -/
def descs_dma : List Desc := descs_dma_0

/-- The write-fault capture that every posted block has (R532). -/
def descsPwErr : List Desc := [
  { off := 0xFF00, acc := .ro, rst := fun _ _ _ => 0, pair := .lo },
  { off := 0xFF04, acc := .ro, rst := fun _ _ _ => 0, pair := .hi },
  { off := 0xFF08, acc := .ro, rst := fun _ _ _ => 0 },
  { off := 0xFF0C, acc := .ro, rst := fun _ _ _ => 0 }]

abbrev Reg.PW_ERR_TIME_LO (b : Nat) : Nat := b * 0x10000 + 0xFF00
abbrev Reg.PW_ERR_TIME_HI (b : Nat) : Nat := b * 0x10000 + 0xFF04
abbrev Reg.PW_ERR_DATA (b : Nat) : Nat := b * 0x10000 + 0xFF08
abbrev Reg.PW_ERR_INFO (b : Nat) : Nat := b * 0x10000 + 0xFF0C

/-- The posted blocks of R524: timebase, sample ports, display, auxiliary converter, stream-out, management port. -/
def isPosted (b : Nat) : Bool :=
  b = 0x01 || (0x02 ≤ b && b ≤ 0x07) || b = 0x10 || b = 0x16 || b = 0x24 || b = 0x25 || b = 0x2E

/-- The rows of a block. -/
def blockDescs (b : Nat) : List Desc :=
  if b = 0x00 then descs_sys
  else if b = 0x01 then descs_tb ++ descsPwErr
  else if b = 0x28 then descs_evc
  else if b = 0x29 then descs_sump
  else if b = 0x2A then descs_win
  else if b = 0x2C then descs_pwr
  else if b = 0x2D then descs_xspi
  else if b = 0x2E then descs_mgt ++ descsPwErr
  else if b = 0x21 then descs_fl
  else if 0x02 ≤ b ∧ b < 0x08 then descs_port ++ descsPwErr
  else if 0x08 ≤ b ∧ b < 0x0C then descs_grp
  else if b = 0x20 then descs_cw
  else if b = 0x0C then descs_fab
  else if b = 0x14 then descs_ei
  else if b = 0x15 then descs_su
  else if b = 0x16 then descs_aux ++ descsPwErr
  else if b = 0x10 then descs_disp ++ descsPwErr
  else if 0x12 ≤ b ∧ b < 0x14 then descs_crema
  else if 0x18 ≤ b ∧ b < 0x20 then descs_cl
  else if b = 0x22 then descs_mc
  else if b = 0x23 then descs_cap
  else if b = 0x2B then descs_trust
  else if 0x24 ≤ b ∧ b < 0x26 then descs_so ++ descsPwErr
  else if b = 0x26 then descs_comp
  else if b = 0x27 then descs_dma
  else []

/-- The row of a register key, with the key's indices in it. -/
def keyDesc (k : Nat) : Option (Desc × Nat × Nat) := findDesc (blockDescs (keyBlock k)) (keyOff k)

/-- The value a register holds after a reset of its power domain. -/
def regReset (k : Nat) : BitVec 32 :=
  match keyDesc k with
  | some (d, i, j) => BitVec.ofNat 32 (d.rst (keyBlock k) i j)
  | .none => 0

end Sys2Proof.Machine
end

