-- ==== Sys2Proof/Machine/Ops.lean ====
section
/-! DEFINITION. The operations every unit shares: registers, device time, events, fault reports, records, and the bus with its windows, guarded pairs and posted writes. -/
namespace Sys2Proof.Machine

/-! ### Registers -/

/-- The value in force of a register, by key: block × 0x1_0000 + offset. -/
def Dev.rd (d : Dev) (k : Nat) : Word := d.regs.get regReset k

/-- Sets a register. -/
def Dev.wr (d : Dev) (k : Nat) (v : Word) : Dev := { d with regs := d.regs.set regReset k v }

/-- A field of a register. -/
def Dev.f (d : Dev) (k lo len : Nat) : Nat := fld (d.rd k) lo len

/-- Sets a field of a register. -/
def Dev.wrF (d : Dev) (k lo len v : Nat) : Dev := d.wr k (put (d.rd k) lo len v)

/-- One bit of a register. -/
def Dev.on (d : Dev) (k i : Nat) : Bool := bit (d.rd k) i

/-- Sets one bit of a register. -/
def Dev.setB (d : Dev) (k i : Nat) : Dev := d.wr k (d.rd k ||| BitVec.ofNat 32 (2 ^ i))

/-- Clears one bit of a register. -/
def Dev.clrB (d : Dev) (k i : Nat) : Dev := d.wr k (d.rd k &&& ~~~(BitVec.ofNat 32 (2 ^ i)))

/-- Sets or clears one bit. -/
def Dev.putB (d : Dev) (k i : Nat) (b : Bool) : Dev := if b then d.setB k i else d.clrB k i

/-- A register as a number. -/
def Dev.n (d : Dev) (k : Nat) : Nat := (d.rd k).toNat

/-- Sets a register to a number. -/
def Dev.wrN (d : Dev) (k v : Nat) : Dev := d.wr k (BitVec.ofNat 32 v)

/-- Adds to a count, modulo 2^32. -/
def Dev.add (d : Dev) (k v : Nat) : Dev := d.wrN k (d.n k + v)

/-- Adds to a saturating count. -/
def Dev.addSat (d : Dev) (k v : Nat) : Dev := d.wrN k (satAdd 32 (d.n k) v)

/-- The value of a 64-bit pair, low word first. -/
def Dev.n64 (d : Dev) (lo hi : Nat) : Nat := d.n hi * 2 ^ 32 + d.n lo

/-- Sets a 64-bit pair. -/
def Dev.wr64 (d : Dev) (lo hi v : Nat) : Dev := (d.wrN lo v).wrN hi (v / 2 ^ 32)

/-- Draws the next free value's index. -/
def Dev.draw (d : Dev) : Dev := { d with fresh := d.fresh + 1 }

/-! ### Device time (R46 to R48, R57) -/

/-- Device time now, in units of 2^-64 s. -/
def Dev.now (d : Dev) : Nat := d.tb.dt

/-- The time since the release of the timebase, which a set of the time of day does not move (R51): durations are taken on it (log entry 91). -/
def Dev.up (d : Dev) : Nat := d.tb.dt - d.tb.jump

/-- The short time of an instant: bits [111:48] of its device-time word (R57). -/
def shortTime (t : Nat) : Nat := t / 2 ^ 32 % 2 ^ 64

/-- The instant a short time names. -/
def ofShort (s : Nat) : Nat := s * 2 ^ 32

/-- k nanoseconds have passed from t0 to t. -/
def elapsedNs (t0 t k : Nat) : Bool := k * 2 ^ 64 ≤ (t - t0) * 1000000000

/-- k nanoseconds in units of 2^-64 s, rounded up. -/
def nsUnits (k : Nat) : Nat := (k * 2 ^ 64 + 999999999) / 1000000000

/-- n REF_IN periods in units of 2^-64 s, rounded down, at the period in force (R48). -/
def Dev.periods (d : Dev) (n : Nat) : Nat := n * d.tb.period + n * d.tb.remNum / d.tb.remDen

/-- The device time of a REF_IN edge by its number, at the period and remainder in force (R48). -/
def Dev.edgeTime (d : Dev) (e : Nat) : Nat :=
  let x := d.tb
  let unit := x.period * x.remDen + x.remNum
  if x.remDen = 0 then x.dt + e * x.period - x.edges * x.period
  else (x.dt * x.remDen + x.remAcc + e * unit - x.edges * unit) / x.remDen

/-- The device is in the derated state (R12). -/
def Dev.derated (d : Dev) : Bool := d.on Reg.FL_STATUS 1

/-- The device-time word of an instant: its flags are sampled when the word is formed (R46). -/
def Dev.timeWord (d : Dev) (cls : Nat) (interp : Bool) (t : Nat) : Word128 :=
  BitVec.ofNat 128 (t * 2 ^ 16 + cls * 32 + b2n d.derated * 16 + b2n interp * 8
    + b2n (!d.on Reg.TB_STATUS 5) * 4 + b2n (!d.on Reg.TB_STATUS 1) * 2 + b2n (d.on Reg.TB_STATUS 3))

/-- The instant a device-time word names. -/
def wordTime (w : Word128) : Nat := w.toNat / 2 ^ 16

/-- The housekeeping code of channel AX(16 + k) (R395, R402). -/
def Dev.hk (d : Dev) (k : Nat) : Int := sfld (d.rd (Reg.HK k)) 8 24

/-- The die temperature as a code: the largest of AX16 to AX18 (R411). -/
def Dev.dieQ (d : Dev) : Int := max (d.hk 0) (max (d.hk 1) (d.hk 2))

/-- Two temperature codes differ by more than n units of 0.25 °C: 0.25 °C is 0.5 mV at a gain of 1, and a code is 1.25 V / 2^23 (R385, R386). -/
def tempMoved (a b : Int) (n : Nat) : Bool := decide (5 * n * 2 ^ 23 < 12500 * (a - b).natAbs)

/-- The first REF_IN edge at or after an instant, while the period in force goes on (R48). -/
def Dev.edgeAt (d : Dev) (t : Nat) : Nat :=
  if t ≤ d.now then d.now
  else
    let x := d.tb
    let at0 := fun k => d.now + k * x.period + (if x.remDen = 0 then 0 else (x.remAcc + k * x.remNum) / x.remDen)
    let k := if x.period * x.remDen + x.remNum = 0 then 0 else (t - d.now) * x.remDen / (x.period * x.remDen + x.remNum)
    if t ≤ at0 k then at0 k else if t ≤ at0 (k + 1) then at0 (k + 1) else at0 (k + 2)

/-! ### Events (R502, R503) -/

/-- Raises event n: its sequence number increments, and the raise starts toward cores and engines (R503). -/
def Dev.raise (d : Dev) (n : Nat) : Dev :=
  let d := d.add (Reg.EV_SEQ n) 1
  let s := d.n (Reg.EV_SEQ n)
  { d with ev := { d.ev with toCores := d.ev.toCores ++ [(n, s)], toEngines := d.ev.toEngines ++ [(n, s)] } }

/-- SEQ of a status word after one more event: 0x0001 to 0xFFFF, then 0x0001 (R530). -/
def seqNext (w : Word) : Word :=
  let s := fld w 16 16
  put w 16 16 (if s = 0xFFFF then 1 else s + 1)

/-- SEQ of a status register increments. -/
def Dev.seqInc (d : Dev) (k : Nat) : Dev := d.wr k (seqNext (d.rd k))

/-- An event of a block: SEQ of its status register increments and the event is raised. -/
def Dev.event (d : Dev) (status n : Nat) : Dev := (d.seqInc status).raise n

/-- A status bit sets; on its change from 0 to 1, SEQ increments and the event is raised. -/
def Dev.sqEvent (d : Dev) (status b n : Nat) : Dev :=
  if d.on status b then d else (d.setB status b).event status n

/-- A status bit sets; on its change from 0 to 1, SEQ increments. -/
def Dev.sqBit (d : Dev) (status b : Nat) : Dev :=
  if d.on status b then d else (d.setB status b).seqInc status

/-! ### Condition status (R37, R38) -/

/-- DERATED_SEEN sets (R37, R38). -/
def Dev.deratedSeen (d : Dev) : Dev := d.sqEvent Reg.COND_STATUS 1 1473

/-- A port on a class-0 path reported a link-level fault (R37, R38). -/
def Dev.condLinkFault (d : Dev) : Dev := d.sqEvent Reg.COND_STATUS 3 1473

/-- A class-0 source exceeded its allotment: the first one since the clear is kept (R37, R38). -/
def Dev.condOverAllot (d : Dev) (src : Nat) : Dev :=
  if d.on Reg.COND_STATUS 2 then d
  else ((d.wrN Reg.COND_SOURCE src).setB Reg.COND_STATUS 2).event Reg.COND_STATUS 1472

/-- The COND flag of a record whose source event was at t0: the device was derated at some instant since (R25). -/
def Dev.cond (d : Dev) (t0 : Nat) : Bool := d.derated || t0 < d.lastDerated

/-! ### Fault reports (R510) -/

/-- A unit sends the sump a report. -/
def Dev.report (d : Dev) (code root port : Nat) : Dev :=
  { d with sump := { d.sump with reports := d.sump.reports ++ [⟨d.now, port, root, code⟩] } }

/-! ### Peat log entries and seep findings (R426, R427, R430) -/

/-- An entry for the peat log waits in the 16-entry buffer; one that finds it full, or the log full, is counted in LOG_OVERFLOW (R427, R428). -/
def Dev.logEntry (d : Dev) (kind : Nat) (payload : Word128) : Dev :=
  if 16 ≤ d.logBuf.length ∨ d.on Reg.FL_STATUS 4 then d.addSat Reg.LOG_OVERFLOW 1
  else { d with logBuf := d.logBuf ++ [⟨kind, payload, d.timeWord 5 false d.now⟩] }

/-- The RETIRE entry of a unit (R426): 1 lane, 2 engine, 3 interpolator, 4 SRAM bank, 5 sensor. -/
def Dev.logRetire (d : Dev) (unit phys finding : Nat) : Dev :=
  d.logEntry 0x05 (packBE 128 [(unit, 4), (phys, 12), (finding, 8), (0, 104)])

/-- A seep finding: SEEP_FIND sets, and the sump takes a report (R430, R435). -/
def Dev.seepFind (d : Dev) (code root port : Nat) : Dev :=
  (d.sqEvent Reg.FL_STATUS 11 1505).report code root port

/-! ### Records (R31 to R36) -/

/-- What a producer gives of a record's header: TYPE, SOURCE_ID, PHYS, FLAGS without LANE_CHANGE, SLOT, SWITCHES and the time word. -/
structure Hdr where
  typ : Nat
  src : Nat
  phys : Nat := 0xFF
  flags : Nat := 0
  slot : Nat := 0
  sw : Nat := 0
  time : Word128
deriving DecidableEq, Repr

/-- Header word 0 (R31); FMT is 0x1 on stepping B1. -/
def hdrWord (h : Hdr) (flags len seq : Nat) : Word128 :=
  packBE 128 [(h.typ, 8), (1, 4), (len, 20), (h.src, 16), (h.phys, 8), (flags, 8), (seq, 32), (h.slot, 4), (h.sw, 28)]

/-- The sequence number the next record of a source carries (R35). -/
def Dev.nextSeq (d : Dev) (src : Nat) : Nat := d.recSeq.get (fun _ => 0) src

/-- Forms a record: SEQ increments per source (R35), and LANE_CHANGE is set when PHYS differs from the source's previous record (R34). -/
def Dev.form (d : Dev) (h : Hdr) (payload : List Word128) : Dev × Rec :=
  let seq := d.nextSeq h.src
  let last := d.recPhys.get (fun _ => 0) h.src
  let flags := if last ≠ 0 ∧ last ≠ h.phys + 1 then h.flags % 64 + h.flags / 128 * 128 + 64 else h.flags
  ({ d with recSeq := d.recSeq.set (fun _ => 0) h.src ((seq + 1) % 2 ^ 32),
            recPhys := d.recPhys.set (fun _ => 0) h.src (h.phys + 1) },
   hdrWord h flags (payload.length + 2) seq :: h.time :: payload)

/-- The records a writer holds for a region, oldest first. -/
def Dev.outOf (d : Dev) (r : Nat) : List Rec := d.out.get (fun _ => []) r

/-- Puts a record behind the others a region's writer holds. -/
def Dev.push (d : Dev) (r : Nat) (rec : Rec) : Dev :=
  { d with out := d.out.set (fun _ => []) r (d.outOf r ++ [rec]) }

/-- Forms a record and puts it into a region's output buffer. -/
def Dev.emit (d : Dev) (r : Nat) (h : Hdr) (payload : List Word128) : Dev :=
  let p := d.form h payload
  p.1.push r p.2

/-- The number of 128-bit words in a region's output buffer. -/
def Dev.outWords (d : Dev) (r : Nat) : Nat := (d.outOf r).foldl (fun a x => a + x.length) 0

/-- Word 2 of a GAP or ERROR record (R517). -/
def lossWord (cause ckind count : Nat) : Word128 :=
  packBE 128 [(cause, 8), (ckind, 4), (0, 52), (count, 64)]

/-- The payload of a GAP record (R517). -/
def gapPayload (cause ckind count : Nat) (start stop : Word128) : List Word128 :=
  [lossWord cause ckind count, start, stop]

/-- The payload of an ERROR record (R517). -/
def errPayload (cause ckind count : Nat) (start stop detail : Word128) : List Word128 :=
  [lossWord cause ckind count, start, stop, detail]

/-! ### Pulses toward the trigger fabric (R183) -/

/-- SOURCE_CLASS of a cause time (R47): 0 a port's sample, 1 a lane, 2 an edge stamp, 3 the fabric itself. -/
def causeClass (code : Nat) : Nat :=
  if code ≤ 48 then 0 else if code < 384 then 1 else if code < 448 then 2 else 3

/-- A source pulses, with the physical lane and the detail of its cause. -/
def Dev.pulse (d : Dev) (code cause phys : Nat) (detail : Word128) : Dev :=
  let w := d.timeWord (causeClass code) (causeClass code == 2) cause
  { d with pulses := d.pulses ++ [{ code := code, cause := cause, word := w, phys := phys, detail := detail, path := code, from_ := d.tb.edges }] }

/-! ### Blocks and domains (R524, R568) -/

/-- The power domain of a register block. -/
def domainOf (b : Nat) : Nat :=
  if b = 0x01 then 1
  else if 0x02 ≤ b ∧ b ≤ 0x07 then 3 + (b - 2)
  else if 0x08 ≤ b ∧ b ≤ 0x0B then 9 + (b - 8)
  else if b = 0x10 ∨ b = 0x12 ∨ b = 0x13 then 21
  else if 0x18 ≤ b ∧ b ≤ 0x1F then 13 + (b - 0x18)
  else if b = 0x2C ∨ b = 0x2D then 0
  else 2

/-- A domain is up (R582), and no reset in progress holds it (R574): MAIN and the switchable domains until the end, TIMEBASE in POWER_ON and DEVICE resets. -/
def Dev.domUp (d : Dev) (dom : Nat) : Bool :=
  d.on Reg.PD_STATE dom && (match d.pw.reset with
    | some (level, _) => dom == 0 || (dom == 1 && level == 3)
    | none => true)

/-- A block number is assigned (R524). -/
def blockAssigned (b : Nat) : Bool :=
  b ≤ 0x0C || b = 0x10 || b = 0x12 || b = 0x13 || (0x14 ≤ b && b ≤ 0x16) || (0x18 ≤ b && b ≤ 0x2E)

/-- The status register of a posted block. The management port has none in the manual; its BUSY, LOST and ERR stand at an offset no chapter defines, which no access reads (log entry 20). -/
def statusKey (b : Nat) : Nat := if b = 0x2E then 0x2EFF10 else b * 0x10000

/-- The BUSY bit of a posted block's status register (R65, R99, R233, R403, R481). -/
def busyBit (b : Nat) : Nat := if b = 0x01 ∨ b = 0x24 ∨ b = 0x25 ∨ b = 0x2E then 7 else 6

/-- A posted block's own write-fault event (R68, R101, R235, R406, R484); the management port has none. -/
def writeFaultEvent (b : Nat) : Option Nat :=
  if b = 0x01 then some 1489
  else if 0x02 ≤ b ∧ b ≤ 0x07 then some (1410 + 5 * (b - 2) + 4)
  else if b = 0x10 then some 1397
  else if b = 0x16 then some 1407
  else if b = 0x24 then some 1523
  else if b = 0x25 then some 1527
  else none

/-- A posted block is busy (R531). -/
def Dev.busy (d : Dev) (b : Nat) : Bool := d.on (statusKey b) (busyBit b)

/-- The posted write in flight in a block. -/
def Dev.flight (d : Dev) (b : Nat) : Option PostedW := d.inflight.get (fun _ => none) b

/-- LOST (bit 14) or ERR (bit 15) sets, with the block's write-fault event on a change from 0 to 1. -/
def Dev.writeFault (d : Dev) (b i : Nat) : Dev :=
  match writeFaultEvent b with
  | some n => d.sqEvent (statusKey b) i n
  | none => d.sqBit (statusKey b) i

/-! ### Late writes (R535, R536) -/

/-- A late write: the block's LATE_WRITE sets, and initiator, cause and offset are captured (R535). -/
def Dev.lateWrite (d : Dev) (i : Ini) (k cause : Nat) : Dev :=
  let b := keyBlock k
  let st := Reg.LW_STAT b
  let was := d.on st 0
  let d := (d.setB st 0).seqInc st
  let d := d.wr (Reg.LW_INFO b) (packBE 32 [(i.toNat, 10), (cause, 3), (0, 3), (keyOff k / 4, 14), (0, 2)])
  if was then d else d.raise 1474

/-! ### Access windows and denials (R537 to R545) -/

/-- The base of register space (R524). -/
def regBase : Nat := 0x0F0000000000

/-- A machine-level core or the boot ROM (R540). -/
def isMonitor (i : Ini) : Bool := (i.toNat < 0x20 && i.toNat % 4 = 3) || i.toNat = 0x1F1

/-- The kind of an access. -/
inductive Kind where
  | read | write | fetch
deriving DecidableEq, Repr

/-- Entry e of the table in force matches an access of `size` bytes (R539). -/
def Dev.winMatch (d : Dev) (e : Nat) (i : Ini) (addr size : Nat) : Bool :=
  let hi := d.n (Reg.WIN_FORCE e 2)
  let c := d.rd (Reg.WIN_FORCE e 3)
  let base := (hi % 16 * 2 ^ 32 + d.n (Reg.WIN_FORCE e 0)) * 4096
  let top := (hi / 16 % 16 * 2 ^ 32 + d.n (Reg.WIN_FORCE e 1)) * 4096 + 4096
  bit c 31 && decide (base ≤ addr) && decide (addr + size ≤ top)
    && (i &&& BitVec.ofNat 10 (fld c 16 10)) == (BitVec.ofNat 10 (fld c 0 10) &&& BitVec.ofNat 10 (fld c 16 10))

/-- The entries of the table in force whose control word is not zero: the others have EN clear and match nothing. -/
def Dev.winEntries (d : Dev) : List Nat :=
  d.regs.filterMap fun e => if 0x2A3000 ≤ e.1 ∧ e.1 < 0x2A5000 ∧ e.1 % 16 = 12 then some ((e.1 - 0x2A3000) / 16) else none

/-- The least number of a list. -/
def lowest : List Nat → Option Nat
  | [] => none
  | a :: l => some (l.foldl min a)

/-- The reason the table refuses an access, if it does (R539, R543). -/
def Dev.tableDeny (d : Dev) (i : Ini) (addr size : Nat) (kd : Kind) : Option Nat :=
  match lowest (d.winEntries.filter fun e => d.winMatch e i addr size) with
  | none => some 1
  | some e =>
    let c := d.rd (Reg.WIN_FORCE e 3)
    if bit c 30 then some 2
    else if (match kd with | .read => bit c 29 | .write => bit c 28 | .fetch => bit c 27) then none
    else some 3

/-- The reason a register-space access is refused, if it is: the fixed rules, then the table, then the size (R525, R540, R543). -/
def Dev.regDeny (d : Dev) (i : Ini) (addr size : Nat) (kd : Kind) : Option Nat :=
  let b := (addr - regBase) / 0x10000
  if addr < regBase ∨ 0x1000 ≤ b ∨ !blockAssigned b then some 4
  else if b = 0x2A ∧ !isMonitor i then some 4
  else
    match (if isMonitor i then none else d.tableDeny i addr size kd) with
    | some r => some r
    | none => if size = 4 ∧ addr % 4 = 0 ∨ size = 8 ∧ addr % 8 = 0 then none else some 5

/-- The consequences of a denied access (R543); the reporting port is 24 for register space and device regions (R510). -/
def Dev.deny (d : Dev) (i : Ini) (addr : Nat) (kd : Kind) (reason port : Nat) : Dev :=
  let d := d.report 0x02 (0x6000 + i.toNat) port
  let d := d.addSat Reg.DENY_COUNT 1
  let d := d.wr64 Reg.DENY_ADDR_LO Reg.DENY_ADDR_HI addr
  let d := d.wr Reg.DENY_INFO (packBE 32 [(i.toNat, 10), (b2n (kd = .write), 1), (b2n (kd = .fetch), 1), (reason, 4), (0, 16)])
  let d := { d with resp := ⟨false, 0⟩ }
  d.sqEvent Reg.WIN_STATUS 3 1475

/-- A register-space access of an initiator abandons its pending arms (R534), except the arm of the register whose FIRE it writes. -/
def Dev.abandon (d : Dev) (i : Ini) (keep : Nat) : Dev :=
  { d with arms := d.arms.filter fun a => a.ini ≠ i || a.key = keep }

/-- What the bus answers to the sender. -/
def Dev.answer (d : Dev) (r : Resp) : Dev := { d with resp := r }

/-- The front part of every register-space access: the arms it abandons, the windows, and the block's power domain. The flag says that the access reaches its register. -/
def Dev.access (d : Dev) (i : Ini) (addr size : Nat) (kd : Kind) (keep : Nat) : Dev × Bool :=
  let d := d.abandon i keep
  match d.regDeny i addr size kd with
  | some r => (d.deny i addr kd r 24, false)
  | none =>
    if d.domUp (domainOf ((addr - regBase) / 0x10000)) then (d.answer ⟨true, 0⟩, true)
    else (d.answer ⟨false, 0⟩, false)

/-- A 32-bit write of an initiator to a register key that reaches a core-domain register and takes an effect. -/
def Dev.onWrite (d : Dev) (i : Ini) (k : Nat) (eff : Dev → Dev) : Dev :=
  let p := d.access i (regBase + k) 4 .write 0
  if p.2 then eff p.1 else p.1

/-- A write to a posted block: discarded with LOST while BUSY reads 1 (R531), and otherwise accepted and in effect. -/
def Dev.onPosted (d : Dev) (i : Ini) (k : Nat) (eff : Dev → Dev) : Dev :=
  let p := d.access i (regBase + k) 4 .write 0
  if !p.2 then p.1
  else if p.1.busy (keyBlock k) then p.1.writeFault (keyBlock k) 14
  else eff p.1

/-- A 32-bit read of an initiator that reaches its register: the effect gives the data. -/
def Dev.onRead (d : Dev) (i : Ini) (k : Nat) (eff : Dev → Dev × Word) : Dev :=
  let p := d.access i (regBase + k) 4 .read 0
  if p.2 then
    let q := eff p.1
    q.1.answer ⟨true, q.2⟩
  else p.1

/-! ### Guarded pairs (R534) -/

/-- The arm that a FIRE of an initiator completes: its own, within 10 µs, with complementary data. -/
def Dev.armedBy (d : Dev) (i : Ini) (armKey : Nat) (data : Word) : Option Word :=
  match d.arms.find? fun a => a.key = armKey with
  | some a => if a.ini = i ∧ !elapsedNs a.time d.up 10000 ∧ a.val = ~~~data then some a.val else none
  | none => none

/-- Every pending arm of an initiator is abandoned. -/
def Dev.disarm (d : Dev) (i : Ini) : Dev := { d with arms := d.arms.filter fun a => a.ini ≠ i }

/-- What a guarded register's owner does with a valid value: refuse it, or take it. -/
inductive Guarded where
  | locked
  | refused
  | take (d : Dev)

/-- The defined fields of a guarded register: the other bits of a value are ignored (R9). -/
def guardMask (armKey : Nat) : Word :=
  match keyDesc armKey with
  | some (ds, _, _) => BitVec.ofNat 32 ds.mask
  | .none => 0xFFFFFFFF

/-- A write that has reached a FIRE address (R534): GUARD_BROKEN, LOCKED and REFUSED are late writes; a valid value takes force. -/
def Dev.fire (d : Dev) (i : Ini) (fireKey : Nat) (data : Word) (eff : Word → Dev → Guarded) : Dev :=
  let armKey := fireKey - 4
  let e := d.disarm i
  match d.armedBy i armKey data with
  | none => e.lateWrite i fireKey 3
  | some v0 =>
    let v := v0 &&& guardMask armKey
    match eff v e with
    | .locked => e.lateWrite i fireKey 1
    | .refused => e.lateWrite i fireKey 4
    | .take e' => e'.wr armKey v

/-- A write to an ARM address: the register holds this arm alone (R534). -/
def Dev.armWrite (d : Dev) (i : Ini) (armKey : Nat) (data : Word) : Dev :=
  { d with arms := d.arms.filter (fun a => a.key ≠ armKey) ++ [⟨armKey, i, data, d.up⟩] }

/-- A 32-bit write of an initiator to a FIRE address. -/
def Dev.onFire (d : Dev) (i : Ini) (fireKey : Nat) (data : Word) (eff : Word → Dev → Guarded) : Dev :=
  let p := d.access i (regBase + fireKey) 4 .write (fireKey - 4)
  if p.2 then p.1.fire i fireKey data eff else p.1.disarm i

end Sys2Proof.Machine
end

