-- ==== Sys2Proof/Machine/AuxConv.lean ====
section
/-! DEFINITION. The auxiliary converter, its calibration and results, PWM and tachometers (chapter Auxiliary Converter, PWM and Housekeeping). -/
namespace Sys2Proof.Machine

/-! ### Modulator time (R387) -/

def Dev.onAux (d : Dev) (f : AuxSt → AuxSt) : Dev := { d with ax := f d.ax }

/-- The REF_IN edges for which the modulator has run, at f_mod = REF_IN / 100; it stands while the DLL is not locked. -/
def Dev.modEdges (d : Dev) : Nat := match d.ax.stop with
  | some e => e
  | none => d.tb.edges - d.ax.off

/-- The modulator period that begins at or after now. -/
def Dev.modUp (d : Dev) : Nat := (d.modEdges + 99) / 100

/-- Modulator period m has begun. -/
def Dev.modPast (d : Dev) (m : Nat) : Bool := decide (100 * m ≤ d.modEdges)

/-- The device time at which the modulator had run for so many REF_IN edges. -/
def Dev.modTime (d : Dev) (e : Nat) : Nat := d.edgeTime (d.ax.off + e)

/-- SEQ of AUX_STATUS increments on each event but 1400 (R403, R406). -/
def Dev.auxEvent (d : Dev) (b n : Nat) : Dev := d.sqEvent Reg.AUX_STATUS b n

/-! ### Entries (R388, R404) -/

def auxChan (w : Word) : Nat := fld w 27 5
def auxGain (w : Word) : Nat := min 4 (fld w 24 3)
def auxFilt (w : Word) : Nat := fld w 22 2
def auxOsr (w : Word) : Nat := 2 ^ (min 11 (fld w 18 4) + 5)
def auxNv (w : Word) : Nat := fld w 3 8 + 1

/-- SETTLE of a filter, in output periods. -/
def auxSettle (filt : Nat) : Nat := nth [1, 3, 4, 5] filt 1

/-- Twice the group delay of a filter, in modulator periods. -/
def auxGd2 (filt osr : Nat) : Nat := nth [1, 3, 4, 5] filt 1 * (osr - 1)

/-- K of MED (R390). -/
def auxMed (w : Word) : Nat := let m := min 4 (fld w 0 3); if m = 0 then 1 else 2 * m + 1

/-- The settings whose change restarts the filter (R389). -/
def auxKey (w : Word) : Nat := auxChan w * 2 ^ 16 + auxGain w * 2 ^ 12 + auxFilt w * 2 ^ 8 + min 11 (fld w 18 4)

/-- The entry word of a housekeeping conversion: AX(16 + k), SINC3, OSR 256, gain 1, STIME 0, NV 1 (R395). -/
def hkEntry (k : Nat) : Word := packBE 32 [(16 + k, 5), (0, 3), (1, 2), (3, 4), (0, 7), (0, 8), (0, 3)]

/-! ### Status -/

/-- AUX_STATUS shows what runs and waits (R403). -/
def Dev.auxShow (d : Dev) : Dev :=
  let x := d.ax
  let inj := !x.injQ.isEmpty || x.injDue.any (fun e => e.2.isSome) || (match x.run with | some r => decide (1 ≤ r.who ∧ r.who ≤ 4) | none => false)
  ((((((d.putB Reg.AUX_STATUS 5 x.calRun.isSome).putB Reg.AUX_STATUS 4 x.calQ).putB Reg.AUX_STATUS 3 inj).putB Reg.AUX_STATUS 2 x.seq.isSome).putB
    Reg.AUX_STATUS 1 (!x.fifo.isEmpty)).putB Reg.AUX_STATUS 0 x.ready)

/-! ### Conversion starts (R389, R394, R397) -/

/-- Values that wait take force at a conversion start: a calibration's, or those written (R397). -/
def Dev.auxCorrect (d : Dev) : Dev :=
  match d.ax.calNew with
  | some l =>
    let d := (List.range 5).foldl (fun d g =>
      let c := nth l g (0, 0)
      (d.wrN (Reg.CAL_OFS g) (wrapU 24 c.1)).wrN (Reg.CAL_GAIN g) (c.2 % 2 ^ 24)) d
    (d.onAux fun x => { x with calNew := none, written := false, corr := l }).add Reg.AUX_CAL_COUNT 1
  | none =>
    if !d.ax.written then d
    else
      let l := (List.range 5).map fun g => (sfld (d.rd (Reg.CAL_OFS g)) 0 24, d.f (Reg.CAL_GAIN g) 0 24)
      (d.onAux fun x => { x with written := false, corr := l }).add Reg.AUX_CAL_COUNT 1

/-- A conversion starts at modulator period m (R389). -/
def Dev.auxBegin (d : Dev) (who idx m : Nat) (cfg : Word) : Dev :=
  let d := d.auxCorrect
  let again := who == 6 && d.ax.last == some (m, auxKey cfg)
  let c := nth d.ax.corr (auxGain cfg) (0, 0x400000)
  let r : AuxRun := { who := who, idx := idx, cfg := cfg, start := m, inv := if again then 0 else fld cfg 11 7 + auxSettle (auxFilt cfg), ofs := c.1, gain := c.2 }
  d.onAux fun x => { x with run := some r, last := none }

/-- LAST of the SEQ_CTRL in force. -/
def AuxSt.lastEntry (x : AuxSt) : Nat := fld x.ctrl 24 4

/-- A round begins: SEQ_CTRL and the entries take force (R392, R402). -/
def Dev.auxRound (d : Dev) : Dev :=
  let c := d.rd Reg.SEQ_CTRL
  if !bit c 31 then d
  else d.onAux fun x => { x with seq := some 0, ctrl := c, entries := (List.range 16).map fun k => d.rd (Reg.ENTRY k) }

/-- START_SRC, where 5 to 7 act as 0. -/
def Dev.startSrc (d : Dev) : Nat := let s := d.f Reg.SEQ_CTRL 28 3; if 5 ≤ s then 0 else s

/-- The first of what is queued starts, in the order of R394, if the converter is free at modulator period m. -/
def Dev.auxNext (d : Dev) (m : Nat) : Dev :=
  let x := d.ax
  if !x.ready || x.run.isSome || x.calRun.isSome then d.auxShow
  else
    match x.hk, x.injQ, x.calQ, x.seq with
    | some k, _, _, _ => (d.auxBegin 0 k m (hkEntry k)).auxShow
    | none, j :: l, _, _ => ((d.onAux fun x => { x with injQ := l }).auxBegin (1 + j) j m (d.rd (Reg.INJ_CFG j))).auxShow
    | none, [], true, _ => (d.onAux fun x => { x with calQ := false, calRun := some m, last := none }).auxShow
    | none, [], false, some e => (d.auxBegin 6 e m (nth x.entries e 0)).auxShow
    | none, [], false, none => d.auxShow

/-- A round ends; a continuous sequence begins the next one at once (R392). -/
def Dev.auxRoundEnd (d : Dev) : Dev :=
  let d := d.onAux fun x => { x with seq := none }
  if d.startSrc = 1 then d.auxRound else d

/-- A run ends (R389, R394): its statistics, and what comes after it. -/
def Dev.auxEnd (d : Dev) (r : AuxRun) (cut : Bool) (m : Nat) : Dev :=
  let d := d.onAux fun x => { x with run := none }
  if r.who = 6 then
    let st := Reg.ENTRY_STAT r.idx
    let d := d.wr st (packBE 32 [(min r.outs r.inv, 8), (b2n cut, 1), (b2n r.clip, 1), (0, 6), (d.f st 0 16 + 1, 16)])
    let d := d.onAux fun x => { x with last := if cut then none else some (m, auxKey r.cfg) }
    if d.ax.lastEntry ≤ r.idx then d.auxRoundEnd else d.onAux fun x => { x with seq := some (r.idx + 1) }
  else if r.who = 0 then d.onAux fun x => { x with hk := if r.idx = 11 then none else some (r.idx + 1) }
  else d

/-! ### Triggers (R392, R393) -/

/-- A start of the sequence arrives: at the end of a delay of so many modulator periods it takes effect; while a round or a delay runs it is a miss. -/
def Dev.seqArrive (d : Dev) (delay : Nat) : Dev :=
  if d.ax.seq.isSome ∨ d.ax.due.isSome then (d.addSat Reg.ROUND_MISSES 1).auxEvent 10 1404
  else d.onAux fun x => { x with due := some (d.modEdges + 100 * delay) }

/-- A trigger of an injection arrives. -/
def Dev.injArrive (d : Dev) (j : Nat) : Dev :=
  let x := d.ax
  let busy := x.injQ.contains j || (x.injDue.get (fun _ => none) j).isSome || (match x.run with | some r => r.who == 1 + j | none => false)
  if busy then (d.addSat Reg.INJ_MISSES 1).auxEvent 9 1404
  else (d.onAux fun x => { x with injDue := x.injDue.set (fun _ => none) j (some (d.modEdges + 100 * d.f (Reg.INJ_TRIG j) 0 16)) }).auxShow

/-- Pulses of fabric sources reach the island (R392, R393). -/
def Dev.auxPulses (d : Dev) (l : List Pulse) : Dev :=
  l.foldl (fun d q =>
    let d := if d.on Reg.SEQ_CTRL 31 ∧ d.startSrc = 3 ∧ d.f Reg.SEQ_CTRL 0 9 = q.code then d.seqArrive (d.f Reg.SEQ_DELAY 0 16) else d
    (List.range 4).foldl (fun d j =>
      if d.f (Reg.INJ_TRIG j) 30 2 = 1 ∧ d.f (Reg.INJ_TRIG j) 20 9 = q.code then d.injArrive j else d) d) d

/-- A PWM event: EVT 0 a period start, EVT 1 a compare (R400). -/
def Dev.auxPwmEvent (d : Dev) (c evt : Nat) : Dev :=
  let d := if d.on Reg.SEQ_CTRL 31 ∧ d.startSrc = 4 ∧ d.f Reg.SEQ_CTRL 18 3 = c ∧ d.f Reg.SEQ_CTRL 17 1 = evt then d.seqArrive (d.f Reg.SEQ_DELAY 0 16) else d
  (List.range 4).foldl (fun d j =>
    if d.f (Reg.INJ_TRIG j) 30 2 = 2 ∧ d.f (Reg.INJ_TRIG j) 22 3 = c ∧ d.f (Reg.INJ_TRIG j) 20 1 = evt then d.injArrive j else d) d

/-- SEQ_GO (R392). -/
def auxSeqGo (d : Dev) : Dev := if d.on Reg.SEQ_CTRL 31 ∧ d.startSrc = 0 then d.seqArrive 0 else d

/-- INJ_GO of INJj (R393): its trigger is a software command. -/
def injGo (j : Nat) (d : Dev) : Dev := if d.f (Reg.INJ_TRIG j) 30 2 % 3 = 0 then d.injArrive j else d

/-- 10 µs in REF_IN edges: 128 modulator periods. -/
def tenUs : Nat := 12800

/-- SEQ_CTRL is written (R392): a continuous sequence starts, and a timer counts from now. -/
def Dev.auxSeqCtrl (d : Dev) : Dev :=
  let on := d.on Reg.SEQ_CTRL 31
  let d := d.onAux fun x => { x with timer := if on ∧ d.startSrc = 2 then some (d.modEdges + max 1 (d.n Reg.SEQ_PERIOD) * tenUs) else none }
  if on ∧ d.startSrc = 1 ∧ d.ax.seq.isNone ∧ d.ax.due.isNone then d.onAux fun x => { x with due := some d.modEdges } else d

/-- A sequence round starts at the first modulator edge at or after its start instant (R392): a start whose delay has run, or the timer's, which is a miss while a round runs. -/
def seqRoundStart (d : Dev) : Dev :=
  let d := match d.ax.timer with
    | some t => if t ≤ d.modEdges then (d.onAux fun x => { x with timer := some (t + max 1 (d.n Reg.SEQ_PERIOD) * tenUs) }).seqArrive 0 else d
    | none => d
  match d.ax.due with
  | some t =>
    if t ≤ d.modEdges then ((d.onAux fun x => { x with due := none }).auxRound).auxNext d.modUp else d
  | none => d

/-- An injection's delay has run: its start is queued (R394). -/
def injStartQueue (j : Nat) (d : Dev) : Dev :=
  match d.ax.injDue.get (fun _ => none) j with
  | some t =>
    if t ≤ d.modEdges then
      (d.onAux fun x => { x with
        injDue := x.injDue.set (fun _ => none) j none
        injQ := x.injQ.filter (· < j) ++ j :: x.injQ.filter (j < ·) }).auxNext d.modUp
    else d
  | none => d

/-! ### Results (R386, R390, R391, R397, R399) -/

/-- A code corrected. -/
def auxCode (r : AuxRun) (raw : Int) : Int := satS 24 (rshr ((raw - r.ofs) * r.gain) 22)

/-- The median of codes. -/
def medianInt (l : List Int) : Int :=
  let s := l.foldl (fun (a : List Int) v => a.filter (· ≤ v) ++ v :: a.filter (v < ·)) []
  nth s ((l.length - 1) / 2) 0

/-- A result enters the FIFO. -/
def Dev.auxPut (d : Dev) (res : List Word) : Dev :=
  if 256 ≤ d.ax.fifo.length then (d.addSat Reg.RES_DROPS 1).auxEvent 11 1401
  else
    let was := d.ax.fifo.isEmpty
    let d := d.onAux fun x => { x with fifo := x.fifo ++ [res] }
    if was then d.raise 1400 else d

/-- A queued start interrupts a running conversion that stands after it in the order of R394: 0 housekeeping, 1 + j INJj, then a calibration, then 6 the sequence (R394, R398). -/
def AuxSt.interrupts (x : AuxSt) (who : Nat) : Bool :=
  Decidable.decide (who ≠ 0) && (x.hk.isSome || x.injQ.any (fun j => Decidable.decide (1 + j < who)) || (x.calQ && who == 6))

/-- An output period ends (R386 to R391, R394): its result is delivered, and then a queued start may interrupt the run. `raw` is the converter's code before clipping. -/
def conversionOutput (raw : Int) (d : Dev) : Dev :=
  match d.ax.run with
  | none => d
  | some r =>
    let osr := auxOsr r.cfg
    let m := r.start + (r.outs + 1) * osr
    if !d.modPast m then d
    else
      let clip := decide (raw < -(2 ^ 23)) || decide (2 ^ 23 - 1 < raw)
      let raw := satS 24 raw
      let valid := decide (r.inv ≤ r.outs)
      let med := if valid then (raw :: r.med).take (auxMed r.cfg) else r.med
      let code := auxCode r (if valid then medianInt med else raw)
      let tag := shortTime (d.modTime (100 * m - 50 * auxGd2 (auxFilt r.cfg) osr))
      let r : AuxRun := { r with outs := r.outs + 1, med := med, clip := r.clip || clip }
      let d := d.onAux fun x => { x with run := some r }
      let d :=
        if r.who = 0 then (if valid then d.wr (Reg.HK r.idx) (packBE 32 [(wrapU 24 code, 24), (0, 7), (b2n clip, 1)]) else d)
        else
          let entry := if r.who = 6 then r.idx else 16 + r.idx
          d.auxPut [packBE 32 [(1, 1), (b2n (!valid), 1), (b2n (r.who ≠ 6), 1), (b2n clip, 1), (auxChan r.cfg, 5), (entry, 5), (0, 2), (d.n Reg.AUX_CAL_COUNT, 16)],
            packBE 32 [(wrapU 24 code, 24), (0, 8)], BitVec.ofNat 32 tag, BitVec.ofNat 32 (tag / 2 ^ 32)]
      let d := if clip then d.auxEvent 8 1405 else d
      let done := r.outs == r.inv + auxNv r.cfg
      let x := d.ax
      let cut := x.interrupts r.who
      if done || cut then (d.auxEnd r (!done) m).auxNext m else d.auxShow

/-- A read of RES_0 pops the oldest result into the latched view (R399). -/
def resPop (d : Dev) : Dev × Word :=
  match d.ax.fifo with
  | [] => (d.wrN (Reg.RES 0) 0, 0)
  | e :: l =>
    let d := (List.range 4).foldl (fun d k => d.wr (Reg.RES k) (nth e k 0)) (d.onAux fun x => { x with fifo := l })
    (d.auxShow, nth e 0 0)

/-! ### Housekeeping (R395) -/

/-- The housekeeping round starts. -/
def hkRoundStart (d : Dev) : Dev :=
  match d.ax.hkAt with
  | some t =>
    if t ≤ d.modEdges ∧ d.ax.ready then
      let d := d.onAux fun x => { x with hkAt := some (t + d.n Reg.HK_PERIOD * 100 * tenUs), hk := some (x.hk.getD 0) }
      d.auxNext d.modUp
    else d
  | none => d

/-- MOD_READY sets when the DLL locks, and the modulator runs on (R387); at the first one housekeeping starts, and with AUTO a calibration is due (R396, R405). -/
def Dev.modReady (d : Dev) : Dev :=
  if d.ax.ready then d
  else
    let first := d.ax.hkAt.isNone
    let d := d.onAux fun x => { x with
      ready := true, off := d.tb.edges - d.modEdges, stop := none, hkAt := some (x.hkAt.getD d.modEdges)
      autoDue := x.autoDue || (first && d.on Reg.AUX_CAL_CTRL 31) }
    d.auxNext d.modUp

/-- MOD_READY clears (R387): the running output period yields no result, its run ends with CUT, and a running calibration waits again (log entry 67). -/
def Dev.modLost (d : Dev) : Dev :=
  let d := d.onAux fun x => { x with ready := false, stop := some d.modEdges, last := none, calQ := x.calQ || x.calRun.isSome, calRun := none }
  match d.ax.run with
  | some r => (d.auxEnd r true d.modUp).auxShow
  | none => d.auxShow

/-! ### Calibration (R396 to R398) -/

/-- The CAL command. -/
def auxCal (d : Dev) : Dev :=
  if d.ax.calQ ∨ d.ax.calRun.isSome then d else (d.onAux fun x => { x with calQ := true }).auxNext d.modUp

/-- An automatic calibration falls due: at the first MOD_READY with AUTO set, or when AX16 has moved by more than TDELTA since the last one. -/
def auxCalAuto (d : Dev) : Dev :=
  if d.ax.autoDue then auxCal (d.onAux fun x => { x with autoDue := false })
  else
    match d.ax.temp with
    | some t => if d.on Reg.AUX_CAL_CTRL 31 ∧ d.ax.ready ∧ tempMoved (d.hk 0) t (d.f Reg.AUX_CAL_CTRL 24 6 + 1) then auxCal d else d
    | none => d

/-- The modulator periods of a calibration: 11 runs of 21 outputs of OSR 4,096. -/
def calLength : Nat := 946176

/-- The mean of the NV = 16 valid outputs of a calibration run, to the nearest code. -/
def calMean (l : List Int) : Int := rshr ((l.take 16).foldl (fun a v => a + satS 24 v) 0) 4

/-- The code that stands for 1.000 V at gain 2^g (R386): beyond the range from g = 1 on. -/
def voltCode (g : Nat) : Int := rshr ((2 ^ (24 + g) * 4 / 5 : Nat) : Int) 1

/-- OFS and GAIN of a gain from its outputs on AX29 and AX28 (R396): the mean offset, and the factor by which AX28 reads 1.000 V; where no 24-bit factor does that, a free value. -/
def calPair (free g : Nat) (zero ref : List Int) : Int × Nat :=
  let ofs := calMean zero
  let span := calMean ref - ofs
  let gain := if 0 < span then (2 * (voltCode g * 2 ^ 22) + span) / (2 * span) else 0
  (ofs, if 0 < gain ∧ gain < 2 ^ 24 then gain.toNat else Config.freeNat (free + g) % 2 ^ 24)

/-- The residual offset in µV of the final AX29 run at gain 1 under a correction, rounded half up; its magnitude is the quality figure. -/
def calResidual (c : Int × Nat) (zero : List Int) : Nat :=
  (rshr ((zero.take 16).foldl (fun a v => a + satS 24 (rshr ((satS 24 v - c.1) * c.2) 22)) 0 * 1250000) 27).natAbs

/-- A calibration ends (R396): `runs` are the valid outputs on AX29 and AX28 of each gain, `check` those of the final AX29 run. -/
def auxCalEnd (runs : List (List Int × List Int)) (check : List Int) (d0 : Dev) : Dev :=
  match d0.ax.calRun with
  | none => d0
  | some m =>
    if !d0.modPast (m + calLength) then d0
    else
      let new := (List.range 5).map fun g => let r := nth runs g ([], []); calPair d0.fresh g r.1 r.2
      let resid := calResidual (nth new 0 (0, 0)) check
      let d : Dev := { d0 with fresh := d0.fresh + 5 }
      let ok := decide (resid ≤ d.f Reg.AUX_CAL_CTRL 0 16)
      let d := d.onAux fun x => { x with calRun := none, temp := some (d.hk 0), calNew := if ok then some new else none }
      let d := d.wr64 Reg.AUX_CAL_TIME_LO Reg.AUX_CAL_TIME_HI (shortTime (d.modTime (100 * (m + calLength))))
      let d := d.wr Reg.AUX_CAL_RESULT (packBE 32 [(if ok then 1 else 2, 4), (0, 12), (min 0xFFFF resid, 16)])
      let d := if ok then d.auxEvent 12 1402 else d.auxEvent 13 1403
      d.auxNext (m + calLength)

/-- CAL_ABORT (R398): ABORTED unless the new values have taken force; starts queued behind it run at once. -/
def auxCalAbort (d : Dev) : Dev :=
  let x := d.ax
  if x.calQ ∨ x.calRun.isSome ∨ x.calNew.isSome then
    let d := d.onAux fun x => { x with calQ := false, calRun := none, calNew := none }
    (d.wr Reg.AUX_CAL_RESULT (packBE 32 [(3, 4), (0, 28)])).auxNext d.modUp
  else if d.f Reg.AUX_CAL_RESULT 28 4 = 1 then d.setB Reg.AUX_CAL_RESULT 24
  else d

/-- CLEAR_COUNTS (R402). -/
def auxClear (d : Dev) : Dev := ((d.wrN Reg.ROUND_MISSES 0).wrN Reg.INJ_MISSES 0).wrN Reg.RES_DROPS 0

/-! ### PWM (R400) -/

def Dev.pwm (d : Dev) (c : Nat) : PwmSt := d.ax.pwm.get (fun _ => {}) c
def Dev.setPwm (d : Dev) (c : Nat) (p : PwmSt) : Dev := d.onAux fun x => { x with pwm := x.pwm.set (fun _ => {}) c p }

/-- A period starts: what was written takes force; with EN clear the output parks inactive. An output that was active to the period's end and now goes inactive raises EVT 1. -/
def pwmPeriodStart (c : Nat) (d : Dev) : Dev :=
  let p := d.pwm c
  let cfg := d.rd (Reg.PWM_CFG c)
  let m := if p.on then p.start + (p.presc + 1) * (p.per + 1) else d.modUp
  if d.ax.stop.isSome ∨ (!d.modPast m ∧ p.on) then d
  else if !bit cfg 31 then
    if !p.on then d
    else
      let d := d.setPwm c { p with on := false, active := false }
      if p.active then d.auxPwmEvent c 1 else d
  else
    let v := d.f (Reg.PWM_DUTY c) 0 24
    let acc := if bit cfg 29 then p.acc + v % 256 else p.acc
    let duty := v / 256 + acc / 256
    let d := d.setPwm c {
      on := true, start := m, acc := acc % 256, duty := duty, presc := fld cfg 0 8, per := d.f (Reg.PWM_PER c) 0 16, pol := bit cfg 30
      active := decide (0 < duty), driven := true }
    let d := if p.active ∧ duty = 0 then d.auxPwmEvent c 1 else d
    d.auxPwmEvent c 0

/-- The count reaches the duty count: the output goes inactive and the compare event fires. -/
def pwmCompare (c : Nat) (d : Dev) : Dev :=
  let p := d.pwm c
  if d.ax.stop.isNone ∧ p.on ∧ p.active ∧ p.duty ≤ p.per ∧ d.modPast (p.start + p.duty * (p.presc + 1)) then (d.setPwm c { p with active := false }).auxPwmEvent c 1
  else d

/-! ### Tachometers (R401) -/

def Dev.tach (d : Dev) (k : Nat) : TachSt := d.ax.tach.get (fun _ => {}) k
def Dev.setTach (d : Dev) (k : Nat) (t : TachSt) : Dev := d.onAux fun x => { x with tach := x.tach.set (fun _ => {}) k t }

/-- TACH_CFG is written: with EN set the input waits for an edge from now; with EN clear it measures nothing. -/
def Dev.tachCfg (d : Dev) (k : Nat) : Dev :=
  if d.on (Reg.TACH_CFG k) 31 then (if (d.tach k).since.isSome then d else d.setTach k { since := some (d.modEdges / 100) })
  else d.setTach k {}

/-- A rising edge. -/
def tachEdge (k : Nat) (d : Dev) : Dev :=
  let m := d.modEdges / 100
  if !d.on (Reg.TACH_CFG k) 31 then d
  else
    match (d.tach k).last with
    | some a => if m - a ≤ d.f (Reg.TACH_CFG k) 0 16 then d else (d.setTach k ⟨some m, some m⟩).wrN (Reg.TACH_PER k) ((m - a) % 2 ^ 24)
    | none => d.setTach k ⟨some m, some m⟩

/-- No edge for 2^24 modulator periods. -/
def tachStall (k : Nat) (d : Dev) : Dev :=
  match (d.tach k).since with
  | some a =>
    if d.on (Reg.TACH_CFG k) 31 ∧ a + 2 ^ 24 ≤ d.modEdges / 100 then ((d.setTach k {}).wrN (Reg.TACH_PER k) 0).auxEvent 7 1406 else d
  | none => d

end Sys2Proof.Machine
end

