-- ==== Sys2Proof/Machine/Outputs.lean ====
section
/-! DEFINITION. The twelve outputs of the timebase: their periods, edges and levels (R54 to R58). -/
namespace Sys2Proof.Machine

/-- One output. -/
def Dev.outp (d : Dev) (n : Nat) : OutSt := d.tb.outs.get (fun _ => {}) n

/-- Sets one output. -/
def Dev.setOut (d : Dev) (n : Nat) (o : OutSt) : Dev := { d with tb := { d.tb with outs := d.tb.outs.set (fun _ => {}) n o } }

/-- REF_IN edges since the output's present period began (R57). -/
def Dev.outPlace (d : Dev) (n : Nat) : Nat := (d.tb.edges - (d.outp n).t0) % ((d.outp n).divm1 + 1)

/-- The present REF_IN edge begins a period of the output's divider (R57). -/
def Dev.periodStart (d : Dev) (n : Nat) : Bool := d.outPlace n = 0

/-- The present REF_IN edge lies in the high phase of the output's period, its first half (R54); with DIV = 1 that phase ends between two edges. -/
def Dev.highPhase (d : Dev) (n : Nat) : Bool := 2 * d.outPlace n ≤ (d.outp n).divm1 && (d.outp n).divm1 ≠ 0

/-- A SYSREF output in MODE 1 (R58); other modes act as 0. -/
def Dev.oneShot (d : Dev) (n : Nat) : Bool := 4 ≤ n && n ≤ 9 && d.f (Reg.OUT_CFG n) 28 3 = 1

/-- SHOTS; 0 acts as 1 (R67). -/
def Dev.shotLimit (d : Dev) (n : Nat) : Nat := max 1 (d.f (Reg.OUT_CFG n) 20 8)

/-- The pulses whose periods have ended since the output was enabled or synced (R58). -/
def Dev.shotsOver (d : Dev) (n : Nat) : Nat := (d.outp n).shots + (d.tb.edges - (d.outp n).since) / ((d.outp n).divm1 + 1)

/-- The output emits the pulse of its present period: it runs, and in MODE 1 its shots are not used up (R58). -/
def Dev.emits (d : Dev) (n : Nat) : Bool := (d.outp n).running && (!d.oneShot n || decide (d.shotsOver n < d.shotLimit n))

/-- t_OUT, 420 ps (R593). -/
def outDelay : Nat := 420 * 2 ^ 64 / 1000000000000

/-- The instant at which rising edge k of the output's present series leaves its ball: T0 + k × DIV × T_REF + DELAY × T_REF / 1,024 + t_OUT (R57). -/
def Dev.outEdge (d : Dev) (n k : Nat) : Nat :=
  let o := d.outp n
  d.edgeTime (o.t0 + k * (o.divm1 + 1)) + o.delay * d.periods 1 / 1024 + outDelay

/-- The number of the output's present period in its series. -/
def Dev.outIndex (d : Dev) (n : Nat) : Nat := (d.tb.edges - (d.outp n).t0) / ((d.outp n).divm1 + 1)

/-- The level at the ball of an output at an instant of its present period: high for half a period from its rising edge (R54, R57), low where it emits no pulse (R56, R58). -/
def Dev.outLevel (d : Dev) (n t : Nat) : Bool :=
  let rise := d.outEdge n (d.outIndex n)
  d.emits n && decide (rise ≤ t) && decide (2 * (t - rise) < d.periods ((d.outp n).divm1 + 1))

/-- DEPTH in force, in 0.1 % units: 0 acts as 1, 11 to 15 act as 10 (R67). -/
def Dev.spreadDepth (d : Dev) (n : Nat) : Nat := clampN 1 10 (d.f (Reg.OUT_SSC n) 0 4)

/-- The deviation of an AUXCLK's frequency from REF_IN / DIV at the present edge, in units of 1/20,480,000 (R55): triangular over 40,960 REF_IN periods, downward, or centred on REF_IN / DIV (log entry 92). -/
def Dev.spread (d : Dev) (n : Nat) : Int :=
  let c := d.rd (Reg.OUT_SSC n)
  let x := (d.tb.edges + Config.spreadPhase n) % 40960
  let y : Int := (d.spreadDepth n * min x (40960 - x) : Nat)
  if !bit c 31 then 0 else if bit c 30 then y - (d.spreadDepth n * 10240 : Nat) else -y

/-- The length of the output's present period, with its spread (R54, R55). -/
def Dev.outPeriod (d : Dev) (n : Nat) : Nat := (d.periods ((d.outp n).divm1 + 1) * 20480000) / (20480000 + d.spread n).toNat

/-- An output begins to emit: its pulses count from the present edge (R56, R58). -/
def OutSt.start (o : OutSt) (e : Nat) : OutSt := { o with running := true, parked := false, shots := 0, since := e }

end Sys2Proof.Machine
end

