-- ==== Sys2Proof/Machine/Setups.lean ====
section
/-! DEFINITION. Setups in force: the slots of the 64 targets, and the switch of one target at its own boundary. -/
namespace Sys2Proof.Machine

/-- The target number of a target code (R362). -/
def targetNum (code : Nat) : Option Nat :=
  let k := code / 4096
  let i := code % 4096
  if k = 1 ∧ i < 48 then some i
  else if k = 2 ∧ i < 6 then some (48 + i)
  else if k = 3 ∧ i < 8 then some (54 + i)
  else if k = 4 ∧ i < 2 then some (62 + i)
  else none

/-- The target code of a target number (R362). -/
def targetCode (t : Nat) : Nat :=
  if t < 48 then 0x1000 + t else if t < 54 then 0x2000 + (t - 48) else if t < 62 then 0x3000 + (t - 54) else 0x4000 + (t - 62)

/-- The setup length of a target in words (R362). -/
def targetLen (t : Nat) : Nat := if t < 48 then 6 else if t < 54 then 11 else if t < 62 then 33 else 513

/-- One slot of a target. -/
def Dev.slot (d : Dev) (t k : Nat) : Slot := d.cw.slots.get (fun _ => {}) (16 * t + k)

/-- Sets one slot of a target. -/
def Dev.setSlot (d : Dev) (t k : Nat) (s : Slot) : Dev :=
  { d with cw := { d.cw with slots := d.cw.slots.set (fun _ => {}) (16 * t + k) s } }

/-- The slot of a target in a given state (R363: at most one ARMED and one IN_FORCE). -/
def Dev.slotIn (d : Dev) (t st : Nat) : Option Nat := (List.range 16).find? fun k => (d.slot t k).st = st

/-- The setup words in force on a target; none: the empty list. -/
def Dev.force (d : Dev) (t : Nat) : List Word128 :=
  match d.slotIn t 3 with
  | some k => (d.slot t k).words
  | none => []

/-- The setup words armed on a target; none: the empty list. -/
def Dev.armed (d : Dev) (t : Nat) : List Word128 :=
  match d.slotIn t 2 with
  | some k => (d.slot t k).words
  | none => []

/-- The number of the slot in force on a target, for SLOT of its records (R31). -/
def Dev.slotOf (d : Dev) (t : Nat) : Nat := (d.slotIn t 3).getD 0

/-- The switches a target has taken since reset, modulo 2^28 (R31). -/
def Dev.swOf (d : Dev) (t : Nat) : Nat := d.cw.switches.get (fun _ => 0) t % 2 ^ 28

/-- Word k of a setup. -/
def wd (ws : List Word128) (k : Nat) : Word128 := nth ws k 0

/-- TGT_STATE_t shows the slots of a target (R381). -/
def Dev.showTarget (d : Dev) (t : Nat) : Dev :=
  let fv := d.slotIn t 3
  let av := d.slotIn t 2
  d.wr (Reg.TGT_STATE t) (packBE 32 [(b2n fv.isSome, 1), (b2n av.isSome, 1), (0, 2), (fv.getD 0, 4), (0, 4),
    (av.getD 0, 4), (0, 8), (d.f (Reg.TGT_STATE t) 0 8, 8)])

/-- The committed group that a target is still to switch for. -/
def Dev.dueGroup (d : Dev) (t : Nat) : Option (Grp × Nat) :=
  d.cw.groups.findSome? fun g =>
    if g.strobed ∧ t ∉ g.passed then (g.pairs.find? fun p => p.1 = t).map fun p => (g, p.2) else none

/-- What a target's switch replaced, brought in, and when it is effective. -/
structure Switch where
  old : List Word128
  new : List Word128
  teff : Nat

/-- A target takes its armed setup (R363, R374): the armed slot becomes IN_FORCE, the slot it replaces HELD, and SWITCHES advances. -/
def Dev.takeSwitch (d : Dev) (t : Nat) : Option (Switch × Dev) :=
  match d.dueGroup t with
  | none => none
  | some (g, k) =>
    let old := d.force t
    let new := (d.slot t k).words
    let d1 := match d.slotIn t 3 with
      | some j => d.setSlot t j { d.slot t j with st := 1 }
      | none => d
    let d2 := d1.setSlot t k { st := 3, words := new }
    let d3 := { d2 with cw := { d2.cw with
      switches := d2.cw.switches.set (fun _ => 0) t ((d2.cw.switches.get (fun _ => 0) t + 1) % 2 ^ 28),
      groups := d2.cw.groups.map fun (h : Grp) => if h.num = g.num then { h with passed := h.passed ++ [t] } else h } }
    some (⟨old, new, g.teff⟩, d3.showTarget t)

/-! ### Port setups (R97) -/

/-- The setup in force on a port. -/
def Dev.portForce (d : Dev) (p : Nat) : List Word128 := d.force (48 + p)

/-- W, the width of every stream of a port. -/
def portW (ws : List Word128) : Nat := 2 ^ fld (wd ws 0) 76 2

/-- The real form is selected. -/
def portReal (ws : List Word128) : Bool := bit (wd ws 0) 121

/-- L, M, F, S and E of a port setup. -/
def portL (ws : List Word128) : Nat := fld (wd ws 0) 116 5 + 1
def portM (ws : List Word128) : Nat := fld (wd ws 0) 112 4 + 1
def portF (ws : List Word128) : Nat := fld (wd ws 0) 104 8 + 1
def portS (ws : List Word128) : Nat := fld (wd ws 0) 99 5 + 1
def portE (ws : List Word128) : Nat := fld (wd ws 0) 90 4 + 1

/-- SR_MUL and SR_DIV. -/
def portMul (ws : List Word128) : Nat := fld (wd ws 0) 84 6 + 1
def portDiv (ws : List Word128) : Nat := fld (wd ws 0) 78 6 + 1

/-- A slot of a port setup begins a stream. -/
def slotStarts (ws : List Word128) (k : Nat) : Bool := !ws.isEmpty && bit (wd ws (3 + k)) 127

/-- The first slot of the stream that a slot belongs to, if it carries one (R76). -/
def streamSlot (ws : List Word128) (k : Nat) : Option Nat :=
  let w := portW ws
  let f := k - k % w
  if slotStarts ws f then some f else none

/-- DEC of a stream's slot word. -/
def slotDec (ws : List Word128) (k : Nat) : Nat := fld (wd ws (3 + k)) 121 5

/-- Samples per extended multiblock of one converter (R82): 256 × E / F × S. -/
def embSamples (ws : List Word128) : Nat := 256 * portE ws / portF ws * portS ws

/-- The physical lane of logical lane i of a port (R71, R97). -/
def laneMap (ws : List Word128) (i : Nat) : Nat := fld (wd ws 1) (5 * i) 5

/-- The logical lane that a physical lane of a port carries; none: it is powered down (R71). -/
def logicalOf (ws : List Word128) (phys : Nat) : Option Nat :=
  if ws.isEmpty then none else (List.range (portL ws)).find? fun i => laneMap ws i = phys

/-- n converter sample periods in units of 2^-64 s: exact on the REF_IN grid, rounded down (R72, R84). -/
def Dev.convTime (d : Dev) (ws : List Word128) (n : Nat) : Nat :=
  n * portDiv ws * (d.tb.period * d.tb.remDen + d.tb.remNum) / (portMul ws * d.tb.remDen)

/-- Converter samples per stream sample: 1 in the complex form, 2 in the real form (R77). -/
def formStep (ws : List Word128) : Nat := if portReal ws then 2 else 1

/-- PIPE_DELAY in units of 2^-64 s (R84, R97). -/
def pipeUnits (ws : List Word128) : Int := sfld (wd ws 2) 104 24 * 2 ^ 64 / 1000000000000

/-- GD of the ROM chain in DDC input samples (R87). -/
def groupDelay (dec : Nat) : Nat := if dec = 0 then 0 else 42 * 2 ^ (dec - 1) - 11

/-! ### Streams and lanes -/

/-- A stream's state. -/
def Dev.stream (d : Dev) (s : Nat) : StreamSt := d.streams.get (fun _ => {}) s

/-- The instant of port sample k of a series (R84). -/
def Series.time (x : Series) (k : Nat) : Nat :=
  if x.k0 ≤ k then x.base + (k - x.k0) * x.num / x.den else x.base - ((x.k0 - k) * x.num + x.den - 1) / x.den

/-- The first port sample of a series at or after an instant, and after its start. -/
def Series.firstAt (x : Series) (t : Nat) : Nat := if x.num = 0 then x.k0 else x.k0 + ((t - x.base) * x.den + x.num - 1) / x.num

/-- The lane input with an index (R84, R87). -/
def Mark.time (m : Mark) (i : Nat) : Nat := m.ser.time (m.off + (i - m.idx) * m.step)

/-- The last element of a list that passes a test, or the first of all. -/
def lastWhere {α : Type} (p : α → Bool) (l : List α) : Option α :=
  match (l.filter p).getLast? with
  | some x => some x
  | none => l.head?

/-- The tag of a lane-input index of a stream (R84, R87). -/
def StreamSt.tagOf (x : StreamSt) (i : Nat) : Nat :=
  match lastWhere (fun m => m.idx ≤ i) x.marks with
  | some m => m.time i
  | none => 0

/-- The first lane-input index of a stream whose tag is at or after an instant. -/
def StreamSt.idxAt (x : StreamSt) (t : Nat) : Nat :=
  match lastWhere (fun m => m.time m.idx ≤ t) x.marks with
  | none => 0
  | some m =>
    let k := m.idx + (m.ser.firstAt t - m.off + m.step - 1) / m.step
    match x.marks.find? fun a => decide (m.idx < a.idx) && decide (t < a.time a.idx) with
    | some a => min k a.idx
    | none => k

/-- Sets a stream's state. -/
def Dev.setStream (d : Dev) (s : Nat) (x : StreamSt) : Dev :=
  { d with streams := d.streams.set (fun _ => {}) s x }

/-- The governing logical lane of a lane: member 0 of its gang (R105). -/
def Dev.governing (d : Dev) (l : Nat) : Nat :=
  let ws := d.portForce (l / 8)
  match streamSlot ws (l % 8) with
  | some f => l / 8 * 8 + f
  | none => l

/-- The lane setup that governs a lane (R105). -/
def Dev.laneForce (d : Dev) (l : Nat) : List Word128 := d.force (d.governing l)

/-- LOG2N of a lane setup; zero means IDLE (R135). -/
def laneLog2N (ws : List Word128) : Nat := fld (wd ws 0) 123 5

/-- The lane's slot carries a stream and its governing setup has LOG2N ≠ 0: it should be LIVE or GANG (R103). -/
def Dev.laneWanted (d : Dev) (l : Nat) : Bool :=
  (streamSlot (d.portForce (l / 8)) (l % 8)).isSome && laneLog2N (d.laneForce l) ≠ 0

end Sys2Proof.Machine
end

