-- ==== Sys2Proof/Machine/Engine.lean ====
section
/-! DEFINITION. Clusters and engines: binding, memories, the control region, records, windows, events, switches, faults and migration (chapter Analysis Engines). -/
namespace Sys2Proof.Machine

def Dev.eng (d : Dev) (n : Nat) : EngSt := d.engs.get (fun _ => {}) n
def Dev.setEng (d : Dev) (n : Nat) (x : EngSt) : Dev := { d with engs := d.engs.set (fun _ => {}) n x }
def Dev.cl (d : Dev) (c : Nat) : ClSt := d.cls.get (fun _ => {}) c
def Dev.setCl (d : Dev) (c : Nat) (x : ClSt) : Dev := { d with cls := d.cls.set (fun _ => {}) c x }
def Dev.clWin (d : Dev) (c w : Nat) : WinSt := (d.cl c).wins.get (fun _ => {}) w
def Dev.setClWin (d : Dev) (c w : Nat) (x : WinSt) : Dev := d.setCl c { d.cl c with wins := (d.cl c).wins.set (fun _ => {}) w x }

/-! ### The setup in force (R326) -/

/-- The cluster setup in force. -/
def Dev.clForce (d : Dev) (c : Nat) : List Word128 := d.force (54 + c)

/-- The word of a window. -/
def winWord (ws : List Word128) (w : Nat) : Word128 := wd ws (1 + w)

/-- The word of a logical engine of the cluster. -/
def engWord (ws : List Word128) (i : Nat) : Word128 := wd ws (17 + i)

/-- EVSEL_k. -/
def evsel (w : Word128) (k : Nat) : Nat := fld w (104 - 11 * k) 11

/-- The window bound to an aperture of a logical engine, if there is one (R319). -/
def Dev.apertureWin (d : Dev) (n a : Nat) : Option Nat :=
  let ws := d.clForce (n / 16)
  (List.range 16).find? fun w =>
    let x := winWord ws w
    bit x 127 && fld x 101 4 == n % 16 && fld x 99 2 == a

/-- The ring size of a window in bytes (R319, R326). -/
def winSize (x : Word128) : Nat := 2 ^ (12 + fld x 105 4)

/-! ### Binding (R300, R333, R334) -/

/-- The physical index within the cluster of a logical engine; 0xFF: none. -/
def Dev.engPhys (d : Dev) (n : Nat) : Nat := d.f (Reg.CL_MAP (n / 16) (n % 16 / 4)) (8 * (n % 4)) 8

/-- PHYS of an engine's records: E0 to E135 (R31). -/
def Dev.engPhysNum (d : Dev) (n : Nat) : Nat := if d.engPhys n = 0xFF then 0xFF else 17 * (n / 16) + d.engPhys n

/-- Binds a logical engine. -/
def Dev.bindEng (d : Dev) (n q : Nat) : Dev := d.wrF (Reg.CL_MAP (n / 16) (n % 16 / 4)) (8 * (n % 4)) 8 q

/-- The spare's index; 0x1F: none. -/
def Dev.clSpare (d : Dev) (c : Nat) : Nat := d.f (Reg.CL_SPARE c) 0 5

/-- Sets the spare; SPARE_PRESENT follows. -/
def Dev.setClSpare (d : Dev) (c q : Nat) : Dev := (d.wrN (Reg.CL_SPARE c) q).putB (Reg.CL_STATUS c) 0 (q ≠ 0x1F)

/-- A cluster status bit sets, with event 1152 + 4c + e (R337). -/
def Dev.clEvent (d : Dev) (c b e : Nat) : Dev := d.sqEvent (Reg.CL_STATUS c) b (1152 + 4 * c + e)

/-- MIG_TIME takes the instant of a migration or retirement (R334). -/
def Dev.migTime (d : Dev) (c : Nat) : Dev := d.wr64 (Reg.MIG_TIME_LO c) (Reg.MIG_TIME_HI c) (shortTime d.now)

/-- A physical engine is retired: its bit, the event, the time and the peat log (R331, R332, R337). -/
def Dev.retireEng (d : Dev) (c q finding : Nat) : Dev :=
  (((d.setB (Reg.CL_RETIRED c) q).migTime c).event (Reg.CL_STATUS c) (1152 + 4 * c + 1)).logRetire 2 (17 * c + q) finding

/-- The word ENG_STATE reads (R335). -/
def Dev.engStateRead (d : Dev) (n : Nat) : Word :=
  let x := d.eng n
  packBE 32 [(x.state, 3), (x.cause, 5), (x.fault, 4), (0, 8), (x.pc, 12)]

/-- The word ENG_AOV reads (R334). -/
def Dev.engAovRead (d : Dev) (n : Nat) : Word := (d.eng n).aov

/-! ### Causes (R315, R320) -/

/-- A cause becomes pending; the wait for an entry starts with the first one (R315, R317). -/
def EngSt.latch (x : EngSt) (k : Nat) : EngSt :=
  { x with pend := if x.pend / 2 ^ k % 2 = 1 then x.pend else x.pend + 2 ^ k, since := if x.since.isSome then x.since else some x.steps }

/-- The lowest pending cause that EVEN enables. -/
def EngSt.ready (x : EngSt) : Option Nat := ([1, 2, 3, 4, 5, 6, 7, 8, 9, 10, 11] : List Nat).find? fun k => x.pend / 2 ^ k % 2 == 1 && x.even / 2 ^ k % 2 == 1

/-- An event is delivered to the engines that select it, but not to one in LOADING (R315, R509). -/
def Dev.engDeliver (d : Dev) (ev seq : Nat) : Dev :=
  (List.range 128).foldl (fun d n =>
    let w := engWord (d.clForce (n / 16)) (n % 16)
    let ks := (List.range 8).filter fun k => evsel w k = ev
    if ks.isEmpty ∨ (d.eng n).state = 5 then d
    else d.setEng n (ks.foldl (fun (x : EngSt) k => { x.latch (2 + k) with evseq := x.evseq.set (fun _ => 0) k seq }) (d.eng n))) d

/-! ### Windows (R319 to R321) -/

/-- The bytes of whole records from the tail on. -/
def WinSt.avail (x : WinSt) : Nat := 16 * x.data.length

/-- WIN_FILL follows the window (R334). -/
def Dev.showWin (d : Dev) (c w : Nat) : Dev := d.wrN (Reg.WIN_FILL c w) (d.clWin c w).avail

/-- Words enter a window's ring; cause WIN becomes pending when WAVAIL rises to WMARK (R320). -/
def Dev.winPut (d : Dev) (c w : Nat) (l : List Word128) : Dev :=
  let x := d.clWin c w
  let word := winWord (d.clForce c) w
  let mark := 16 * fld word 87 12
  let d := (d.setClWin c w { x with data := x.data ++ l }).showWin c w
  let n := 16 * c + fld word 101 4
  if mark ≠ 0 ∧ x.avail < mark ∧ mark ≤ x.avail + 16 * l.length then d.setEng n ((d.eng n).latch 10) else d

/-- WREL releases bytes from the tail, in 16-byte units (R320). -/
def Dev.winRelease (d : Dev) (n a bytes : Nat) : Dev :=
  match d.apertureWin n a with
  | none => d
  | some w =>
    let c := n / 16
    let x := d.clWin c w
    let k := min (bytes / 16) x.data.length
    let size := winSize (winWord (d.clForce c) w)
    (d.setClWin c w { x with data := x.data.drop k, tail := (x.tail + 16 * k) % size }).showWin c w

/-- A window has room for so many words beside what it holds and what is on its way. -/
def Dev.winRoom (d : Dev) (c w n : Nat) : Bool :=
  let x := d.clWin c w
  let q := x.queue.foldl (fun a r => a + r.length) 0
  decide (16 * (x.data.length + q + n) ≤ winSize (winWord (d.clForce c) w))

/-- The GAP of lost records that stands in a window before the record that follows them (R321). -/
def winGap (lost : Word128 × Word128 × Nat) (next : Word128) : Rec :=
  put (put (put lost.1 120 8 0x09) 96 20 5) 64 8 0 :: lost.2.1 :: gapPayload 0x44 3 lost.2.2 lost.2.1 next

/-- A stamp record reaches the windows that take its input's stamps directly (R319, R321). -/
def Dev.tapStamps (d : Dev) (n : Nat) (r : Rec) : Dev :=
  (List.range 128).foldl (fun d k =>
    let c := k / 16
    let w := k % 16
    let word := winWord (d.clForce c) w
    if bit word 127 ∧ fld word 125 2 = 2 ∧ fld word 109 16 = 0x3000 + n then
      let x := d.clWin c w
      let gap := match x.lost with
        | some l => [winGap l (nth r 1 0)]
        | none => []
      let words := r.length + (match gap with | g :: _ => g.length | [] => 0)
      if d.winRoom c w words then d.setClWin c w { x with queue := x.queue ++ gap ++ [r], lost := none }
      else
        let lost := match x.lost with
          | some l => (l.1, l.2.1, l.2.2 + 1)
          | none => (nth r 0 0, nth r 1 0, 1)
        (d.setClWin c w { x with lost := some lost }).addSat (Reg.WIN_OVERRUNS c w) 1 |>.clEvent c 6 2
    else d) d

/-! ### Records (R322, R323) -/

/-- Free words of the output buffer (R322, R324). -/
def Dev.engFree (d : Dev) (n : Nat) : Nat := 1024 - d.outWords (128 + n) - (d.eng n).out.length

/-- A word written to OUT (R322, R323). -/
def Dev.outPut (d : Dev) (n : Nat) (w : Word128) : Dev :=
  let x := d.eng n
  if d.engFree n = 0 then d.setEng n { x with ovf := true } else d.setEng n { x with out := x.out ++ [w] }

/-- A replacement record, counted in ENG_OUT_SKIPS (R323). -/
def Dev.engReplace (d : Dev) (n typ : Nat) (time : Word128) (payload : List Word128) : Dev :=
  let c := n / 16
  let hdr : Hdr := { typ := typ, src := 0x5000 + n, phys := d.engPhysNum n, slot := d.slotOf (54 + c), sw := d.swOf (54 + c), time := time }
  ((d.emit (128 + n) hdr payload).addSat (Reg.ENG_OUT_SKIPS c (n % 16)) 1).clEvent c 7 3

/-- OUT_CTL COMMIT (R322, R323): the header keeps TYPE, FMT, CONT and RFI as written. -/
def Dev.outCommit (d : Dev) (n : Nat) : Dev :=
  let x := d.eng n
  let c := n / 16
  let now := d.timeWord 5 false d.now
  let h := nth x.out 0 0
  let d := d.setEng n { x with out := [], ovf := false, lastCommit := if x.ovf ∨ !x.out.isEmpty then some d.now else x.lastCommit }
  if x.ovf then
    let a := d.timeWord 5 false (x.lastCommit.getD x.begun)
    d.engReplace n 0x09 a (gapPayload 0x42 0 0 a now)
  else if x.out.isEmpty then d
  else if fld h 120 8 < 0x80 ∨ x.out.length < 2 then
    d.engReplace n 0x0A now (errPayload 0x43 0 0 now now (packBE 128 [(fld h 120 8, 8), (x.out.length, 11), (0, 109)]))
  else
    let hdr : Hdr := {
      typ := fld h 120 8, src := 0x5000 + n, phys := d.engPhysNum n, flags := fld h 68 2 * 16,
      slot := d.slotOf (54 + c), sw := d.swOf (54 + c), time := now }
    let p := d.form hdr (x.out.drop 2)
    let r := match p.2 with
      | w0 :: l => put w0 116 4 (fld h 116 4) :: l
      | [] => []
    (p.1.push (128 + n) r).add (Reg.ENG_RECORDS c (n % 16)) 1

/-- OUT_CTL DISCARD (R322). -/
def Dev.outDiscard (d : Dev) (n : Nat) : Dev := d.setEng n { d.eng n with out := [] }

/-! ### Block mover and signal (R324, R325) -/

/-- A 128-bit write to BM (R325). -/
def Dev.bmStart (d : Dev) (n : Nat) (w : Word128) : Dev :=
  let x := d.eng n
  if x.bm.isSome ∨ fld w 0 2 = 0 ∨ fld w 0 2 = 3 then d else d.setEng n { x with bm := some w }

/-- A write to SIGNAL (R324, R337). -/
def Dev.engSignal (d : Dev) (n : Nat) : Dev := d.raise (1024 + n)

/-! ### Memories (R303 to R306, R324) -/

/-- The 32-bit lane of a 128-bit word. -/
def lane32 (w : Word128) (j : Nat) : Nat := fld w (32 * j) 32

/-- A word of an aperture: outside the available data it reads zero, and WUND tells (R320). -/
def Dev.winRead (d : Dev) (n a off size : Nat) : Word128 × Bool :=
  match d.apertureWin n a with
  | none => (0, false)
  | some w =>
    let c := n / 16
    let x := d.clWin c w
    let ring := winSize (winWord (d.clForce c) w)
    let k := (off % ring + ring - x.tail) % ring
    if k + size ≤ x.avail then (nth x.data (k / 16) 0, true) else (0, false)

/-- A word of the control region (R324). -/
def Dev.ctlRead (d : Dev) (n off : Nat) : Word128 :=
  let x := d.eng n
  let o := off / 16 * 16
  if o = 0x10 then BitVec.ofNat 128 (d.engFree n * 65536 + b2n x.ovf)
  else if o = 0x20 then d.timeWord 6 false d.now
  else if o = 0x30 then x.aov.setWidth 128
  else if 0x40 ≤ o ∧ o < 0x80 then
    match d.apertureWin n ((o - 0x40) / 16) with
    | none => 0
    | some w =>
      let s := d.clWin (n / 16) w
      BitVec.ofNat 128 (fld (winWord (d.clForce (n / 16)) w) 87 12 * 2 ^ 48 + s.avail % 2 ^ 17 * 65536 + s.tail % 65536)
  else if o = 0xC0 then BitVec.ofNat 128 (b2n x.bm.isSome * 2 ^ 127 + x.bmRes)
  else if o = 0xE0 then BitVec.ofNat 128 x.even
  else if o = 0xF0 then BitVec.ofNat 128 x.pend
  else if 0x100 ≤ o ∧ o < 0x180 then BitVec.ofNat 128 (x.evseq.get (fun _ => 0) ((o - 0x100) / 16))
  else 0

/-- A write to the control region, 128 bits or the low 32 (R324). -/
def Dev.ctlWrite (d : Dev) (n off : Nat) (v : Word128) (wide : Bool) : Dev :=
  let x := d.eng n
  if off = 0 ∧ wide then d.outPut n v
  else if off = 0x10 then
    if v = 1 then d.outCommit n else if v = 2 then d.outDiscard n else d
  else if off = 0x30 then d.setEng n { x with aov := v.setWidth 32 }
  else if 0x40 ≤ off ∧ off < 0x80 ∧ off % 16 = 0 then d.winRelease n ((off - 0x40) / 16) (fld v 0 17)
  else if off = 0xC0 ∧ wide then d.bmStart n v
  else if off = 0xD0 then d.engSignal n
  else if off = 0xE0 then d.setEng n { x with even := fld v 1 11 * 2 }
  else d

/-- The region an engine data address lies in (R304): 0 X, 1 Y, 2 C, 3 shared, 4 an aperture, 5 control, 6 reserved. -/
def engRegion (a : Nat) : Nat :=
  if a < 0x10000 then 0 else if a < 0x20000 then 1 else if a < 0x28000 then 2
  else if 0x200000 ≤ a ∧ a < 0x400000 then 3
  else if 0x400000 ≤ a ∧ a < 0x800000 then 4
  else if 0x800000 ≤ a ∧ a < 0x801000 then 5
  else 6

/-- The slots that may reach a region (R304, R360): 0 X, 1 Y, 2 C, 3 absolute, 4 absolute for accumulators. -/
def slotReaches (slot region : Nat) (store : Bool) : Bool :=
  let ok : List Nat := match slot with
    | 0 => if store then [0, 3, 5] else [0, 3, 4, 5]
    | 1 => if store then [1, 3] else [1, 3, 4]
    | 2 => if store then [] else [2]
    | 3 => if store then [0, 1, 3, 5] else [0, 1, 2, 3, 4, 5]
    | _ => [0, 3]
  ok.contains region

/-- A read of an engine address that its slot may reach, aligned (R305): the 128-bit word that holds it, and whether WUND sets. -/
def Dev.engRead (d : Dev) (n a size : Nat) : Word128 × Bool :=
  let x := d.eng n
  match engRegion a with
  | 0 => (x.x.get (fun _ => 0) (a / 16), false)
  | 1 => (x.y.get (fun _ => 0) (a % 0x10000 / 16), false)
  | 2 => (x.c.get (fun _ => 0) (a % 0x10000 / 16), false)
  | 3 => ((d.cl (n / 16)).shared.get (fun _ => 0) ((a - 0x200000) / 16), false)
  | 4 =>
    let r := d.winRead n ((a - 0x400000) / 0x100000) (a % 0x100000) size
    (r.1, !r.2)
  | _ => (d.ctlRead n (a - 0x800000), false)

/-! ### Uncorrectable words (R303) -/

/-- A word of a memory becomes uncorrectable: of shared memory for the addresses of R304 that name it, of the engine's own memories otherwise (`EngSt.bad`). -/
def Dev.engUpset (d : Dev) (n : Nat) (up : Option Nat) : Dev :=
  match up with
  | none => d
  | some k =>
    if 0x20000 ≤ k ∧ k < 0x40000 then let c := d.cl (n / 16); d.setCl (n / 16) { c with bad := (k - 0x20000) :: c.bad.filter (· != k - 0x20000) }
    else let x := d.eng n; d.setEng n { x with bad := k :: x.bad.filter (· != k) }

/-- A read of an engine address meets an uncorrectable word. -/
def Dev.engBad (d : Dev) (n a : Nat) : Bool :=
  if engRegion a = 3 then (d.cl (n / 16)).bad.contains ((a - 0x200000) / 16) else (d.eng n).bad.contains (a / 16)

/-- A write of a whole word ends its error. -/
def Dev.engMend (d : Dev) (n a : Nat) : Dev :=
  if engRegion a = 3 then let c := d.cl (n / 16); d.setCl (n / 16) { c with bad := c.bad.filter (· != (a - 0x200000) / 16) }
  else let x := d.eng n; d.setEng n { x with bad := x.bad.filter (· != a / 16) }

/-- The uncorrectable words after the C banks have flipped; the program bank that takes force was written just before. -/
def flipBad (l : List Nat) : List Nat :=
  l.filterMap fun k =>
    if 0x100000 ≤ k ∧ k < 0x101000 then none
    else if 0x2000 ≤ k ∧ k < 0x2800 then some (k - 0x2000 + 0x110000)
    else if 0x110000 ≤ k ∧ k < 0x110800 then some (k - 0x110000 + 0x2000)
    else some k

/-- The word with a 32-bit lane replaced. -/
def putLane (w : Word128) (j v : Nat) : Word128 := put w (32 * j) 32 v

/-- A write of an engine address that its slot may reach: 128 bits, or one 32-bit lane. -/
def Dev.engWrite (d : Dev) (n a : Nat) (v : Word128) (wide : Bool) : Dev :=
  let upd := fun (t : Tab Word128) (k : Nat) =>
    t.set (fun _ => 0) k (if wide then v else putLane (t.get (fun _ => 0) k) (a / 4 % 4) (lane32 v 0))
  let d := if wide then d.engMend n a else d
  let x := d.eng n
  match engRegion a with
  | 0 => d.setEng n { x with x := upd x.x (a / 16) }
  | 1 => d.setEng n { x with y := upd x.y (a % 0x10000 / 16) }
  | 3 => let c := d.cl (n / 16); d.setCl (n / 16) { c with shared := upd c.shared ((a - 0x200000) / 16) }
  | 5 => d.ctlWrite n (a - 0x800000) (if wide then v else BitVec.ofNat 128 (lane32 v 0)) wide
  | _ => d

/-! ### Image start, entry and stops (R316, R328, R329, R358) -/

/-- What an image start clears: registers, EVEN and the output buffer; memories and causes stay (R328). -/
def EngSt.fresh (x : EngSt) (now : Nat) : EngSt :=
  { x with
    pc := x.entry, v := [], acc := [], p := [], m := [], lc := 0, ls := 0, le := 0, sr := 0, ra := 0, ssr := 0, aov := 0
    loads := [], stale := [], slot := none, rep := none, aovDue := false, stop := 0, even := 0, out := [], ovf := false
    fault := 0, testing := false, begun := now }

/-- An image start outside a switch (R329): at ENTRY; an engine that a switch is stopping has reached its boundary with it (R328). -/
def EngSt.restart (x : EngSt) (now : Nat) : EngSt := { x.fresh now with state := if x.stop = 2 then 5 else 1 }

/-- Instructions that have issued complete: outstanding loads reach their registers (R316). The register writes are `put`. -/
def EngSt.put (x : EngSt) (r : CrDst) (v : Nat) : EngSt :=
  match r with
  | .v k => { x with v := x.v.set (fun _ => 0) k (BitVec.ofNat 128 v) }
  | .acc k => { x with acc := x.acc.set (fun _ => 0) k (BitVec.ofNat 320 v) }
  | .accPart k j =>
    let a := x.acc.get (fun _ => 0) k
    { x with acc := x.acc.set (fun _ => 0) k (if j = 2 then Machine.put a 256 64 v else Machine.put a (128 * j) 128 v) }
  | .s k =>
    if k < 8 then { x with p := x.p.set (fun _ => 0) k (v % 2 ^ 24) }
    else if k < 16 then { x with m := x.m.set (fun _ => 0) (k - 8) (BitVec.ofNat 32 v &&& 0xCFFFFFFF) }
    else if k = 16 then { x with lc := v }
    else if k = 17 then { x with ls := v % 4096 }
    else if k = 18 then { x with le := v % 4096 }
    else if k = 19 then { x with sr := BitVec.ofNat 32 v &&& 0xC0FF780F }
    else if k = 20 then { x with ra := v % 4096 }
    else if k = 21 then { x with ssr := BitVec.ofNat 32 v &&& 0xC0FF780F }
    else if k = 22 then { x with aov := BitVec.ofNat 32 v }
    else x
  | .flags => { x with sr := Machine.put x.sr 0 4 v }
  | .sticky => { x with sr := x.sr ||| BitVec.ofNat 32 v }
  | .aovOr => { x with aov := x.aov ||| BitVec.ofNat 32 v }

/-- The outstanding loads complete. -/
def EngSt.settle (x : EngSt) : EngSt :=
  let y := x.loads.foldl (fun y l => y.put l.1 l.2) x
  { y with loads := [], stale := [] }

/-- The engine stands at an instruction boundary where it can stop or enter (R316). -/
def EngSt.boundary (x : EngSt) : Bool := x.slot.isNone && x.rep.isNone

/-- Entry into a cause (R316). -/
def Dev.engEnter (d : Dev) (n k : Nat) : Dev :=
  let c := n / 16
  let i := n % 16
  let x := (d.eng n).settle
  let d := match x.since with
    | some s =>
      let delay := min 0xFFFF (x.steps - s + 13)
      if d.f (Reg.ENG_MAXDELAY c i) 0 16 < delay then d.wrN (Reg.ENG_MAXDELAY c i) delay else d
    | none => d
  let d := d.setEng n { x with
    state := 1, cause := k, ra := x.pc, ssr := x.sr, sr := (x.sr &&& 0x7FFFF7FF) ||| 0x40000000, pc := x.vbase + 8 * k
    pend := x.pend - 2 ^ k, since := none, testing := false }
  d.add (Reg.ENG_ENTRIES c i) 1

/-- An entry is due: IE set and an enabled cause pending, at a boundary (R316). -/
def EngSt.entryDue (x : EngSt) : Option Nat := if bit x.sr 31 && x.boundary then x.ready else none

/-- With IE set, the engine enters the lowest pending cause (R316). -/
def eventEntry (n : Nat) (d : Dev) : Dev :=
  let x := d.eng n
  if x.state ≠ 1 then d
  else match x.entryDue with
    | some k => d.engEnter n k
    | none => d

/-- A waiting engine resumes (R358): with IE set it enters the cause with RA = PC. -/
def waitResume (n : Nat) (d : Dev) : Dev :=
  let x := d.eng n
  if x.state ≠ 2 then d
  else match x.ready with
    | some k => if bit x.sr 31 then d.engEnter n k else d.setEng n { x with state := 1, testing := false }
    | none => d

/-- A requested stop takes effect at a boundary: HALT, or the loading of a switch (R328, R334). -/
def EngSt.tryStop (x : EngSt) : EngSt :=
  if x.stop = 0 ∨ !x.boundary then x
  else { x.settle with state := if x.stop = 1 then 3 else 5, stop := 0, testing := false }

/-- A program fault (R329): ACCESS 1, ILLEGAL 2, ECC 3. -/
def Dev.engFault (d : Dev) (n code : Nat) : Dev :=
  let c := n / 16
  let x := d.eng n
  let d := d.setEng n { x.settle with state := 4, fault := code }
  let now := d.timeWord 5 false d.now
  let q := d.engPhysNum n
  let hdr : Hdr := { typ := 0x0A, src := 0x5000 + n, phys := q, slot := d.slotOf (54 + c), sw := d.swOf (54 + c), time := now }
  let d := d.emit (128 + n) hdr (errPayload 0x40 0 0 now now (packBE 128 [(code, 4), (x.pc, 12), (q, 8), (0, 104)]))
  (d.report 0x07 (0x3000 + q) 24).clEvent c 4 0

/-- CL_CMD HALT (R334). -/
def engHalt (c i : Nat) (d : Dev) : Dev :=
  let n := 16 * c + i
  let x := d.eng n
  if x.state = 1 then d.setEng n ({ x with stop := max 1 x.stop }).tryStop
  else if x.state = 2 then d.setEng n { x with state := 3, testing := false }
  else d

/-- CL_CMD RESUME (R334). -/
def engResume (c i : Nat) (d : Dev) : Dev :=
  let n := 16 * c + i
  if (d.eng n).state = 3 then d.setEng n { d.eng n with state := 1 } else d

/-- CL_CMD RESTART (R329, R334): an image start of the image in force. -/
def engRestart (c i : Nat) (d : Dev) : Dev :=
  let n := 16 * c + i
  let x := d.eng n
  if bit (engWord (d.clForce c) i) 127 ∧ x.state ≠ 5 ∧ x.state ≠ 6 ∧ d.engPhys n ≠ 0xFF then d.setEng n (x.restart d.now) else d

/-- CL_CMD CLEAR_COUNTS (R334). -/
def clClear (c i : Nat) (d : Dev) : Dev := (d.wr (Reg.ENG_MAXDELAY c i) 0).wr (Reg.ENG_OUT_SKIPS c i) 0

/-! ### The cluster switch (R327, R328) -/

/-- An image's header fields: NPROG, NCOEF, ENTRY, VBASE (R326). -/
def imgProg (w : Word128) : Nat := fld w 115 13
def imgCoef (w : Word128) : Nat := fld w 103 12
def imgEntry (w : Word128) : Nat := fld w 91 12
def imgBase (w : Word128) : Nat := fld w 79 12

/-- An engine is touched when its EEN or IMAGE changes (R328). -/
def engTouched (old new : List Word128) (i : Nat) : Bool := fld (engWord old i) 115 13 != fld (engWord new i) 115 13

/-- An armed cluster setup's changed images enter the shadow banks (R327). -/
def Dev.loadShadows (d : Dev) (c : Nat) (new : List Word128) : Dev :=
  let old := d.clForce c
  let d := (List.range 16).foldl (fun d i =>
    let w := engWord new i
    if bit w 127 ∧ engTouched old new i then
      let img := d.cw.images.get (fun _ => []) (0xA000 + fld w 115 12)
      let n := 16 * c + i
      let x := d.eng n
      let h := nth img 0 0
      let coef := (img.drop (1 + (imgProg h + 1) / 2)).take (imgCoef h)
      let cs := (List.range coef.length).foldl (fun (t : Tab Word128) k => t.set (fun _ => 0) k (nth coef k 0)) x.cShadow
      d.setEng n { x with shadow := some img, cShadow := cs, bad := x.bad.filter fun k => !(decide (0x110000 ≤ k) && decide (k < 0x110000 + coef.length)) }
    else d) d
  d.setB (Reg.CL_STATUS c) 1

/-- The switch of a cluster at T_sw (R328): touched engines stop; changed windows restart empty. -/
def clusterSwitch (c : Nat) (d : Dev) : Dev :=
  match d.takeSwitch (54 + c) with
  | none => d
  | some (sw, d') =>
    if d.now < sw.teff then d
    else
      let d := d'.clrB (Reg.CL_STATUS c) 1
      let ts := (List.range 16).filter fun i => engTouched sw.old sw.new i
      let d := ts.foldl (fun d i =>
        let n := 16 * c + i
        let x := d.eng n
        if x.state = 1 then d.setEng n ({ x with stop := 2 }).tryStop
        else if x.state = 6 then d.setEng n { x with stop := 2 }
        else d.setEng n { x with state := 5, testing := false }) d
      let d := (List.range 16).foldl (fun d w =>
        if winWord sw.old w ≠ winWord sw.new w then (d.setClWin c w { pos := d.now, seq := 1 }).showWin c w else d) d
      if ts.isEmpty then d else d.setCl c { d.cl c with loading := some (sw.teff, ts) }

/-- Every touched engine is released at once, at the first REF_IN edge at or after T_sw + 812.5 ns or later (R328). -/
def engineRelease (c : Nat) (d : Dev) : Dev :=
  match (d.cl c).loading with
  | none => d
  | some (t, ts) =>
    let due := t + (8125 * 2 ^ 64 + 9999999999) / 10000000000
    if d.now < due ∨ ts.any (fun i => (d.eng (16 * c + i)).state ≠ 5) then d
    else
      let d := d.setCl c { d.cl c with loading := none }
      let d := ts.foldl (fun d i =>
        let n := 16 * c + i
        let x := d.eng n
        let on := bit (engWord (d.clForce c) i) 127
        let x : EngSt := match x.shadow with
          | some img =>
            let h := nth img 0 0
            { x with
              prog := (img.drop 1).take ((imgProg h + 1) / 2), nprog := imgProg h, entry := imgEntry h, vbase := imgBase h
              shadow := none }
          | none => x
        let x : EngSt := { x with c := x.cShadow, cShadow := x.c, bad := flipBad x.bad }
        d.setEng n { x.fresh d.now with state := if !on then 0 else if d.engPhys n = 0xFF then 4 else 1, fault := if on ∧ d.engPhys n = 0xFF then 5 else 0 }) d
      if due + d.periods 1 ≤ d.now then d.clEvent c 3 3 else d

/-! ### Tests, faults and migration (R329 to R332, R430) -/

/-- The logical engine that runs on a physical engine. -/
def Dev.engOn (d : Dev) (c q : Nat) : Option Nat := ((List.range 16).find? fun i => d.engPhys (16 * c + i) = q).map (16 * c + ·)

/-- The engine of a cluster in MIGRATING. -/
def Dev.migrant (d : Dev) (c : Nat) : Option Nat := ((List.range 16).find? fun i => (d.eng (16 * c + i)).state = 6).map (16 * c + ·)

/-- An engine whose test failed has no spare to go to: its physical engine is retired, and it is FAULTED with code HW (R331). -/
def Dev.engStrand (d : Dev) (n : Nat) : Dev :=
  let c := n / 16
  let d := ((d.retireEng c (d.engPhys n) 4).bindEng n 0xFF).clrB (Reg.CL_STATUS c) 2
  (d.setEng n { d.eng n with testing := false, state := if (d.eng n).stop = 2 then 5 else 4, fault := 5 }).clEvent c 4 0

/-- The spare is no longer free: a migration to it cannot end there (R331). -/
def Dev.loseSpare (d : Dev) (c : Nat) : Dev :=
  let d := d.setClSpare c 0x1F
  match d.migrant c with
  | some n => d.engStrand n
  | none => d

/-- The cluster spare fails its tests (R430 finding 3). -/
def clSpareFail (c : Nat) (d : Dev) : Dev :=
  let q := d.clSpare c
  if q = 0x1F then d
  else ((d.retireEng c q 3).seepFind 0x0A (0x3000 + 17 * c + q) 24).loseSpare c

/-- A datapath parity error or watchdog (R329): the logical engine restarts on the spare, or is FAULTED. -/
def engHwFault (c q : Nat) (d : Dev) : Dev :=
  if d.on (Reg.CL_RETIRED c) q then d
  else if d.clSpare c = q then clSpareFail c d
  else
    let d1 := (d.retireEng c q 0).report 0x08 (0x3000 + 17 * c + q) 24
    match d.engOn c q with
    | none => d1
    | some n =>
      let own := d.migrant c == some n
      let s := if (d.migrant c).isSome && !own then 0x1F else d.clSpare c
      let d1 := if own then d1.clrB (Reg.CL_STATUS c) 2 else d1
      let old := 17 * c + q
      let now := d.timeWord 5 false d.now
      let x := d.eng n
      let run := x.state ≠ 0
      let err := fun (d : Dev) =>
        if run then
          let det := packBE 128 [(0, 16), (old, 8), (if s = 0x1F then 0xFF else 17 * c + s, 8), (0, 96)]
          let hdr : Hdr := { typ := 0x0A, src := 0x5000 + n, phys := old, slot := d.slotOf (54 + c), sw := d.swOf (54 + c), time := now }
          (d.emit (128 + n) hdr (errPayload 0x41 0 0 now now det)).clEvent c 4 0
        else d
      if s = 0x1F then
        let d2 := (err d1).bindEng n 0xFF
        if run then d2.setEng n { x.settle with state := 4, fault := 5 } else d2
      else
        let d2 := ((err d1).setClSpare c 0x1F).bindEng n s
        let wiped : EngSt := { x with x := [], y := [], bad := x.bad.filter (fun k => 0x2000 ≤ k) }
        if x.state = 5 then d2.setEng n wiped
        else if run then d2.setEng n (wiped.restart d.now)
        else d2

/-- The seep starts a known-answer test on an engine in WAIT (R330); not while a switch of its cluster is armed. -/
def engTestStart (n : Nat) (d : Dev) : Dev :=
  let x := d.eng n
  if x.state = 2 ∧ (d.slotIn (54 + n / 16) 2).isNone ∧ (d.cl (n / 16)).loading.isNone then d.setEng n { x with testing := true } else d

/-- ENG_UNTESTED (R429): the engines that have completed no whole test in the last 3,600 s, counted from the reset. -/
def Dev.engUntested (d : Dev) : Nat :=
  (List.range 128).countP fun n => elapsedNs ((d.eng n).testedAt.getD d.fl.resetAt) d.up 3600000000000

/-- A WAIT-state test ends (R331). -/
def engTestEnd (n : Nat) (pass : Bool) (d : Dev) : Dev :=
  let x := d.eng n
  let c := n / 16
  if !x.testing then d
  else
    let d := d.setEng n { x with testing := false, testedAt := if pass then some d.up else x.testedAt }
    if pass then d.add (Reg.ENG_TESTS c (n % 16)) 1
    else
      let q := d.engPhys n
      let d := d.seepFind 0x09 (0x3000 + 17 * c + q) 24
      if d.clSpare c = 0x1F ∨ (d.migrant c).isSome then d.engStrand n
      else (d.setEng n { x with testing := false, state := 6 }).setB (Reg.CL_STATUS c) 2

/-- The migration of a cluster's engine is done (R331). -/
def migrationDone (c : Nat) (d : Dev) : Dev :=
  match d.migrant c with
  | none => d
  | some n =>
    let q := d.engPhys n
    let s := d.clSpare c
    let d := ((d.bindEng n s).setClSpare c 0x1F).setEng n { d.eng n with state := if (d.eng n).stop = 2 then 5 else 2, stop := 0 }
    let d := ((d.clrB (Reg.CL_STATUS c) 2).setB (Reg.CL_STATUS c) 5).add (Reg.MIG_COUNT c) 1
    d.retireEng c q 4

end Sys2Proof.Machine
end

