-- ==== Sys2Proof/Machine/Mem.lean ====
section
/-! DEFINITION. HBM: its bytes, the map, error correction, requester ports, refresh, and the record regions (chapter Memory and the Capture Rings). -/
namespace Sys2Proof.Machine

/-! ### Bytes -/

/-- HBM, by address; an unlisted byte reads zero (log entry 2: memory contents are undefined until written). -/
abbrev Mem := Tab Byte

/-- What a byte that nothing has written reads as. -/
def memDflt : Nat → Byte := fun _ => 0

/-- One byte. -/
def Mem.byte (m : Mem) (a : Nat) : Byte := m.get memDflt a

/-- One byte set. -/
def Mem.setByte (m : Mem) (a : Nat) (b : Byte) : Mem := m.set memDflt a b

/-- Bytes from an address on. -/
def Mem.bytes (m : Mem) (a n : Nat) : List Byte := (List.range n).map fun k => m.byte (a + k)

/-- Bytes set from an address on. -/
def Mem.store (m : Mem) (a : Nat) : List Byte → Mem
  | [] => m
  | b :: l => Mem.store (m.setByte a b) (a + 1) l

/-- Bytes set from an address on, but for the 32-byte units listed. -/
def Mem.storeBut (m : Mem) (skip : List Nat) (a : Nat) : List Byte → Mem
  | [] => m
  | b :: l => Mem.storeBut (if skip.contains (a / 32) then m else m.setByte a b) skip (a + 1) l

/-- The canonical form: addresses strictly rising, and no entry equal to what an unlisted byte reads as. -/
abbrev Mem.wf (m : Mem) : Bool := Tab.wf memDflt m

/-- HBM and the device: what a command that moves data acts on. -/
structure Sys where
  mem : Mem
  dev : Dev
deriving DecidableEq, Repr

/-- The device changes, HBM does not. -/
def Sys.on (s : Sys) (f : Dev → Dev) : Sys := { s with dev := f s.dev }

/-- The 16 bytes of a 128-bit word in memory: the byte at address + k holds bits [8k + 7 : 8k] (R342). -/
def memWord (w : Word128) : List Byte := bytesLE 16 w.toNat

/-- The 128-bit words that bytes of memory hold (R342). -/
def words128 (l : List Byte) : List Word128 := (chunks 16 l).map fun c => BitVec.ofNat 128 (natLE c)

/-! ### The map and the windows (R437, R438, R540) -/

/-- The reason an access within one page of HBM is refused, if it is. -/
def Dev.hbmDeny (d : Dev) (i : Ini) (a n : Nat) (kd : Kind) : Option Nat :=
  if 0xC00000000 < a + n then some 4
  else if 0x1FC000000 < a + n ∧ a < 0x200000000 then (if i = 0x1E3 then none else some 4)
  else if isMonitor i then none
  else d.tableDeny i a n kd

/-- The pages of a range, by fuel: windows end at page boundaries (R538), so each part is decided as a whole. -/
def pages : Nat → Nat → Nat → List (Nat × Nat)
  | 0, _, _ => []
  | k + 1, a, n =>
    if n = 0 then []
    else
      let z := min n (4096 - a % 4096)
      (a, z) :: pages k (a + z) (n - z)

/-- Consequences of a denied access of a unit (R543): the bus's last answer to a register access is not touched. JTAG and the boot ROM use no requester port (R510). -/
def Dev.denyUnit (d : Dev) (i : Ini) (port a : Nat) (kd : Kind) (reason : Nat) : Dev :=
  { d.deny i a kd reason (if i = 0x1F0 ∨ i = 0x1F1 then 24 else port) with resp := d.resp }

/-- The windows check a range of HBM for a unit. -/
def Dev.checkMem (d : Dev) (i : Ini) (port a n : Nat) (kd : Kind) : Dev × Bool :=
  match (pages (n / 4096 + 2) a n).findSome? fun p => (d.hbmDeny i p.1 p.2 kd).map fun r => (p.1, r) with
  | none => (d, true)
  | some (x, r) => (d.denyUnit i port x kd r, false)

/-- The pseudo-channel of an address (R438). -/
def Dev.pseudo (d : Dev) (a : Nat) : Nat := a / 2 ^ clampN 8 16 (d.f Reg.MC_CTRL 24 5) % 64

/-! ### Uncorrectable units (R439) -/

/-- The lowest uncorrectable unit of a range. -/
def Dev.ueIn (d : Dev) (a n : Nat) : Option Nat :=
  if n = 0 then none else d.mc.ue.find? fun u => decide (a / 32 ≤ u) && decide (u ≤ (a + n - 1) / 32)

/-- A unit becomes uncorrectable. -/
def Dev.addUe (d : Dev) (u : Nat) : Dev :=
  if d.mc.ue.contains u then d
  else { d with mc := { d.mc with ue := d.mc.ue.filter (· < u) ++ u :: d.mc.ue.filter (u < ·) } }

/-- An access meets an uncorrectable unit. -/
def Dev.meetUe (d : Dev) (port u : Nat) : Dev :=
  let d := (d.addSat Reg.MEM_UE 1).wr64 Reg.MEM_UE_ADDR_LO Reg.MEM_UE_ADDR_HI (32 * u)
  (d.sqEvent Reg.MC_STATUS 5 1510).report 0x01 (0x1000 + d.pseudo (32 * u)) port

/-! ### Ports and regulators (R440, R441) -/

def Dev.mport (d : Dev) (p : Nat) : MemPort := d.mc.ports.get (fun _ => {}) p
def Dev.setMport (d : Dev) (p : Nat) (x : MemPort) : Dev := { d with mc := { d.mc with ports := d.mc.ports.set (fun _ => {}) p x } }

def Dev.rgn (d : Dev) (r : Nat) : Region := d.mc.regions.get (fun _ => {}) r
def Dev.setRgn (d : Dev) (r : Nat) (x : Region) : Dev := { d with mc := { d.mc with regions := d.mc.regions.set (fun _ => {}) r x } }

/-- The size of a region in 16-byte units. -/
def Region.cap (x : Region) : Nat := x.len * 4096

/-- The region in whose memory an address lies. -/
def Dev.rgnAt (d : Dev) (a : Nat) : Option Nat :=
  (List.range 259).find? fun r => decide (0 < (d.rgn r).len) && decide ((d.rgn r).base ≤ a) && decide (a < (d.rgn r).base + 16 * (d.rgn r).cap)

/-- The class of a record of a region (R24, R287, R440): STAMP records are class 0, but for those formed from excess requests; INTERVAL, STATS and EVIDENCE records are class 1. -/
def Dev.recClass (d : Dev) (r : Nat) : Nat :=
  if 96 ≤ r ∧ r < 112 then (match d.outOf r with | x :: _ => b2n (d.slow.contains x) | [] => 0)
  else if (112 ≤ r ∧ r < 128) ∨ r = 257 then 1 else 0

/-- The class of a cluster's memory port: CLASS of the setup in force, at reset 2 (R20, R326, R440). -/
def Dev.clClass (d : Dev) (c : Nat) : Nat := if d.force (54 + c) = [] then 2 else max 1 (fld (wd (d.force (54 + c)) 0) 126 2)

/-- The class of a DMA channel (R21, R499). -/
def Dev.dmaClass (d : Dev) (c : Nat) : Nat := d.f (Reg.DCH_CFG c) 28 2

/-- The class of a request of an initiator on a port, for an address (R20, R21, R24, R440). -/
def Dev.memClass (d : Dev) (p : Nat) (i : Ini) (a : Nat) : Nat :=
  let k := i.toNat
  if p < 6 then (if 0x1D0 ≤ k ∧ k < 0x1E0 then 2 else 1)
  else if p < 10 then 1
  else if p < 18 then d.clClass (p - 10)
  else if p = 18 then (if 0x140 ≤ k ∧ k < 0x180 then max 1 (d.dmaClass (k - 0x140)) else 2)
  else if p < 22 then 1
  else if p = 22 then (if k = 0x1B0 ∨ k = 0x1B1 then 3 else 2)
  else if k = 0x1E4 then 1
  else if k = 0x1E0 then (match d.rgnAt a with | some r => d.recClass r | none => 0)
  else 0

/-- What a port's bucket lacks now, in 2^-64 bytes: it fills at RATE × 1.6 GB/s. -/
def Dev.lacks (d : Dev) (p : Nat) : Nat :=
  (d.mport p).lacks - min 1024 (d.f (Reg.PORT_REG p) 0 11) * 1600000000 * (d.up - (d.mport p).at_)

/-- The bytes a port's bucket holds when full. -/
def Dev.burst (d : Dev) (p : Nat) : Nat := (d.f (Reg.PORT_REG p) 16 10 + 1) * 256

/-- The bucket covers a request. -/
def Dev.covers (d : Dev) (p n : Nat) : Bool := decide (d.lacks p + n * 2 ^ 64 ≤ d.burst p * 2 ^ 64)

/-- A request takes its length in tokens. -/
def Dev.takeTokens (d : Dev) (p n : Nat) : Dev :=
  d.setMport p { d.mport p with lacks := d.lacks p + n * 2 ^ 64, at_ := d.up }

/-- A request of a unit passes the regulator of its port (R441, R442): of class 1 or 2 it takes its length in tokens, or, with too few, is scheduled as class 3. -/
def Dev.meter (d : Dev) (p : Nat) (i : Ini) (a n : Nat) : Dev :=
  let c := d.memClass p i a
  if p < 24 ∧ (c = 1 ∨ c = 2) ∧ d.covers p n = true then d.takeTokens p n else d

/-- Bytes moved through a port, in PORT_BYTES (R461); the boot ROM and JTAG use none. -/
def Dev.moved (d : Dev) (p n : Nat) : Dev :=
  let k := (d.mport p).part + n
  if 24 ≤ p then d else (d.setMport p { d.mport p with part := k % 256 }).add (Reg.PORT_BYTES p) (k / 256)

/-- A port carries class-1 requests (R440). -/
def Dev.carries1 (d : Dev) (p : Nat) : Bool :=
  if 10 ≤ p ∧ p < 18 then d.clClass (p - 10) == 1
  else if p = 18 then (List.range 64).any fun c => d.on (Reg.DCH_CFG c) 31 && d.dmaClass c == 1
  else p != 22

/-- The sum of RATE over the ports that carry class-1 requests exceeds 768 (R442). -/
def Dev.oversub (d : Dev) : Bool :=
  decide (768 < ((List.range 24).filter d.carries1).foldl (fun a p => a + min 1024 (d.f (Reg.PORT_REG p) 0 11)) 0)

/-- The word MC_STATUS reads (R461): OVERSUB and MC_READY are computed. -/
def Dev.mcStatusRead (d : Dev) : Word :=
  put (put (d.rd Reg.MC_STATUS) 4 1 (b2n d.oversub)) 0 1 (b2n (d.mc.trained && d.on Reg.MC_CTRL 31))

/-! ### Accesses of the device's own units -/

/-- How a unit's access to HBM ended: its bytes, denied, or the uncorrectable unit it met. -/
inductive MemRes where
  | ok (l : List Byte)
  | denied
  | ue (u : Nat)
deriving DecidableEq, Repr

/-- A unit reads HBM (R439, R441, R543). Its request is accepted, taken and completed in one step (log entry 104). -/
def memRead (i : Ini) (port a n : Nat) (m : Mem) (d : Dev) : Dev × MemRes :=
  let p := d.checkMem i port a n .read
  if !p.2 then (p.1, .denied)
  else
    let d := p.1.meter port i a n
    match d.ueIn a n with
    | some u => (d.meetUe port u, .ue u)
    | none => (d.moved port n, .ok (m.bytes a n))

/-- The uncorrectable units of a range that a write does not cover whole (R439). -/
def Dev.ueEdges (d : Dev) (a n : Nat) : List Nat :=
  d.mc.ue.filter fun u => decide (0 < n) && (decide (a < 32 * u + 32) && decide (32 * u < a + n)) && !(decide (a ≤ 32 * u) && decide (32 * u + 32 ≤ a + n))

/-- The write of a range that the windows have passed: units covered whole become good; a part of an uncorrectable unit is not written, and the first such unit is given (R439). -/
def memPut (port a : Nat) (l : List Byte) (s : Sys) : Sys × Option Nat :=
  let n := l.length
  let bad := s.dev.ueEdges a n
  let d := { s.dev with mc := { s.dev.mc with ue := s.dev.mc.ue.filter fun u => !(decide (a ≤ 32 * u) && decide (32 * u + 32 ≤ a + n)) } }
  let d := d.moved port n
  match bad with
  | [] => (⟨s.mem.store a l, d⟩, none)
  | u :: _ => (⟨s.mem.storeBut bad a l, bad.foldl (fun d u => d.meetUe port u) d⟩, some u)

/-- A unit writes HBM. -/
def memWrite (i : Ini) (port a : Nat) (l : List Byte) (s : Sys) : Sys × MemRes :=
  let p := s.dev.checkMem i port a l.length .write
  if !p.2 then ({ s with dev := p.1 }, .denied)
  else
    let q := memPut port a l { s with dev := p.1.meter port i a l.length }
    (q.1, match q.2 with | some u => .ue u | none => .ok [])

/-! ### Requests of the ports (R441, R443) -/

/-- The class in which the scheduler takes a request now (R441, R443). -/
def MemReq.classNow (r : MemReq) : Nat := if r.cls = 0 then 0 else max 1 ((if r.short then 3 else r.cls) - r.promo)

/-- A port's oldest request takes its tokens once the bucket covers it (R441). -/
def Dev.payShort (d : Dev) (p : Nat) : Dev :=
  match (d.mport p).reqs with
  | r :: l =>
    if r.short ∧ d.covers p r.size then
      let d := d.takeTokens p r.size
      d.setMport p { d.mport p with reqs := { r with short := false } :: l }
    else d
  | [] => d

/-- The oldest request of a port, where it goes to a pseudo-channel: responses return to each port in issue order (R443). -/
def Dev.frontAt (d : Dev) (pc p : Nat) : Option MemReq :=
  match (d.mport p).reqs with
  | r :: _ => if d.pseudo r.addr = pc then some r else none
  | [] => none

/-- The port whose request the scheduler takes next for a pseudo-channel (R443): of the lowest class, and within it the oldest. -/
def Dev.choose (d : Dev) (pc : Nat) : Option Nat :=
  (List.range 24).foldl (fun a p =>
    match d.frontAt pc p, a.bind (fun q => d.frontAt pc q) with
    | none, _ => a
    | some _, none => some p
    | some r, some r' => if r.classNow < r'.classNow ∨ (r.classNow = r'.classNow ∧ r.since < r'.since) then some p else a) none

/-- A pseudo-channel that serves nothing takes a request. -/
def Dev.schedule (d : Dev) (pc : Nat) : Dev :=
  let d := (List.range 24).foldl (fun d p => d.payShort p) d
  match (d.mc.flight.get (fun _ => none) pc).bind (fun p => d.frontAt pc p) with
  | some _ => d
  | none => { d with mc := { d.mc with flight := d.mc.flight.set (fun _ => none) pc (d.choose pc) } }

/-- A pseudo-channel has served a port's request: it takes the next, and the port's next request may be taken elsewhere. -/
def Dev.served (d : Dev) (pc p : Nat) : Dev :=
  let d := ({ d with mc := { d.mc with flight := d.mc.flight.set (fun _ => none) pc none } }).schedule pc
  match (d.mport p).reqs with
  | r :: _ => d.schedule (d.pseudo r.addr)
  | [] => d

/-- A port's oldest request can be served now (R443): it is the one taken, or of the same class, which its bank may put first. -/
def Dev.mayServe (d : Dev) (p : Nat) (r : MemReq) : Bool :=
  let pc := d.pseudo r.addr
  match d.mc.flight.get (fun _ => none) pc with
  | none => true
  | some q => q == p || (match d.frontAt pc q with
    | some r' => r.classNow == r'.classNow
    | none => true)

/-- The scheduler accepts a request (R441), or the map and the windows refuse it (R437, R543). A request that finds too few tokens is scheduled as class 3; class 0 and class 3 are not metered. -/
def requestAccept (p : Nat) (i : Ini) (write : Bool) (a n : Nat) (data : List Byte) (d : Dev) : Dev :=
  let kd := if write then Kind.write else Kind.read
  let c := d.checkMem i p a n kd
  if !c.2 then c.1.setMport p { c.1.mport p with resp := some (false, []) }
  else
    let cls := d.memClass p i a
    let metered := decide (cls = 1 ∨ cls = 2)
    let short := metered && !d.covers p n
    let d := if metered && !short then d.takeTokens p n else d
    let r : MemReq := ⟨i, write, a, n, data.take n, cls, 0, d.up, short, d.n Reg.WIN_EPOCH⟩
    let d := d.setMport p { d.mport p with reqs := (d.mport p).reqs ++ [r] }
    d.schedule (d.pseudo a)

/-- A request that has waited AGE_LIMIT, and each further AGE_LIMIT, is promoted by one class, never into class 0; a request the bucket now covers takes its tokens (R441, R443). -/
def agePromotion (p : Nat) (d : Dev) : Dev :=
  let limit := d.f Reg.MC_CTRL 0 6 * 1000
  let d := d.payShort p
  match (d.mport p).reqs with
  | r :: l =>
    let r := if 1 < r.classNow ∧ elapsedNs r.since d.up ((r.promo + 1) * limit) then { r with promo := r.promo + 1 } else r
    d.setMport p { d.mport p with reqs := r :: l }
  | [] => d

/-- A memory access completes (R439): the oldest request of its port takes effect and answers, unless its pseudo-channel serves one that comes first (R443). `ce`: a unit was corrected in the data returned; `ue`: the first unit of the access is uncorrectable. -/
def memResponse (p : Nat) (ce ue : Bool) (s : Sys) : Sys :=
  match (s.dev.mport p).reqs with
  | [] => s
  | r :: l =>
    if !s.dev.mayServe p r then s
    else
      let pc := s.dev.pseudo r.addr
      let d := s.dev.setMport p { s.dev.mport p with reqs := l }
      let whole := r.write && decide (r.addr % 32 = 0) && decide (32 ≤ r.size)
      let d := if ue ∧ !whole ∧ r.size ≠ 0 then d.addUe (r.addr / 32) else d
      if r.write then
        let q := memPut p r.addr r.data ⟨s.mem, d⟩
        { q.1 with dev := (q.1.dev.setMport p { q.1.dev.mport p with resp := some (q.2.isNone, []) }).served pc p }
      else
        let d := if ce then d.addSat Reg.MEM_CE 1 else d
        match d.ueIn r.addr r.size with
        | some u => { s with dev := ((d.meetUe p u).setMport p { (d.meetUe p u).mport p with resp := some (false, []) }).served pc p }
        | none =>
          let d := d.moved p r.size
          { s with dev := (d.setMport p { d.mport p with resp := some (true, s.mem.bytes r.addr r.size) }).served pc p }

/-! ### Refresh (R445 to R447) -/

/-- The refresh debt of a pseudo-channel. -/
def Dev.debt (d : Dev) (pc : Nat) : Nat := d.mc.debt.get (fun _ => 0) pc

/-- Sets a debt; REFRESH_STATE keeps the largest one of the stack, within its field. -/
def Dev.setDebt (d : Dev) (pc v : Nat) : Dev :=
  let k := pc / 32
  let d := { d with mc := { d.mc with debt := d.mc.debt.set (fun _ => 0) pc v } }
  if d.f Reg.REFRESH_STATE (8 * k) 8 < v then d.wrF Reg.REFRESH_STATE (8 * k) 8 (min 255 v) else d

/-- tREFI of a stack in ns: halved while it is HOT (R445, R446). -/
def Dev.trefi (d : Dev) (stack : Nat) : Nat := if d.on Reg.MC_STATUS (1 + stack) then 1950 else 3900

/-- A tREFI of a stack has passed since its last one: each of its pseudo-channels owes one unit more (R445). -/
def refreshInterval (stack : Nat) (d : Dev) : Dev :=
  let last := d.mc.refi.get (fun _ => d.fl.resetAt) stack
  if !elapsedNs last d.up (d.trefi stack) then d
  else
    let d := { d with mc := { d.mc with refi := d.mc.refi.set (fun _ => d.fl.resetAt) stack (last + nsUnits (d.trefi stack)) } }
    (List.range 32).foldl (fun d j => d.setDebt (32 * stack + j) (d.debt (32 * stack + j) + 1)) d

/-- One bank is refreshed; the sixteenth pays a unit (R445). A stack catches up until its debts are zero (R446). -/
def Dev.payBank (d : Dev) (pc : Nat) : Dev :=
  let k := d.mc.paid.get (fun _ => 0) pc + 1
  if k < 16 then { d with mc := { d.mc with paid := d.mc.paid.set (fun _ => 0) pc k } }
  else
    let d := ({ d with mc := { d.mc with paid := d.mc.paid.set (fun _ => 0) pc 0 } }).setDebt pc (d.debt pc - 1)
    { d with mc := { d.mc with catchUp := d.mc.catchUp.filter fun c => c ≠ pc ∨ d.debt pc ≠ 0 } }

/-- A per-bank refresh falls due (R445, R447): it is made on an idle bank; on a bank a class-1 burst uses it is postponed while the debt is below 8 and no catch-up runs, and else splits the burst. -/
def bankRefresh (pc : Nat) (idle : Bool) (d : Dev) : Dev :=
  if d.debt pc = 0 then d
  else if idle then d.payBank pc
  else if d.debt pc < 8 ∧ pc ∉ d.mc.catchUp then d
  else (d.add Reg.SPLITS 1).payBank pc

/-- A stack's temperature report, in °C (R446). -/
def hbmTemp (stack temp : Nat) (d : Dev) : Dev :=
  let hot := d.on Reg.MC_STATUS (1 + stack)
  let l := (List.range 32).map (32 * stack + ·)
  let set := fun (d : Dev) (b : Bool) => ((d.putB Reg.MC_STATUS (1 + stack) b).putB Reg.REFRESH_STATE (16 + stack) b).sqEvent Reg.MC_STATUS 6 1511
  if !hot ∧ 85 < temp then
    let d := l.foldl (fun d pc => d.setDebt pc (2 * d.debt pc)) (set d true)
    { d with mc := { d.mc with catchUp := d.mc.catchUp ++ l.filter fun pc => d.debt pc ≠ 0 ∧ pc ∉ d.mc.catchUp } }
  else if hot ∧ temp ≤ 80 then l.foldl (fun d pc => d.setDebt pc ((d.debt pc + 1) / 2)) (set d false)
  else d

/-- MC_CMD CLEAR_COUNTS (R461). -/
def mcClear (d : Dev) : Dev :=
  let d := ((d.wrN Reg.MEM_CE 0).wrN Reg.MEM_UE 0).wrN Reg.SPLITS 0
  d.wrF Reg.REFRESH_STATE 0 16 0

/-! ### Record regions (R451, R452) -/

/-- The initiator that writes a region (R537): capture writers for streams, lanes, the stamp writer, engines, the fabric, the evidence unit, the sump. -/
def rgnWriter (r : Nat) : Ini :=
  if r < 48 then BitVec.ofNat 10 (0x1C0 + r / 8)
  else if r < 96 then BitVec.ofNat 10 (0x100 + (r - 48))
  else if r < 128 then 0x1E0
  else if r < 256 then BitVec.ofNat 10 (0x80 + (r - 128))
  else if r = 256 then 0x1E1
  else if r = 257 then 0x1E4
  else 0x1E2

/-- The requester port through which a region is written (R440). -/
def rgnPort (r : Nat) : Nat :=
  if r < 48 then r / 8 else if r < 96 then 6 + (r - 48) / 12 else if r < 128 then 23
  else if r < 256 then 10 + (r - 128) / 16 else 23

/-- The 16-byte word at an offset of a region. -/
def Region.word (x : Region) (m : Mem) (o : Nat) : Word128 := BitVec.ofNat 128 (natLE (m.bytes (x.base + 16 * o) 16))

/-- The words between CP and WP. -/
def Region.held (x : Region) : Nat := if x.cp ≤ x.wp then x.wp - x.cp else x.wp + x.cap - x.cp

/-- Where a record of n words goes, if it fits without reaching CP: its offset, and whether the zero word of a wrap comes first. -/
def Region.place (x : Region) (n : Nat) : Option (Nat × Bool) :=
  let cap := x.cap
  if x.cp ≤ x.wp then
    if x.wp + n < cap ∨ (x.wp + n = cap ∧ x.cp ≠ 0) then some (x.wp, false)
    else if x.wp + n ≤ cap then none
    else if n < x.cp then some (0, true)
    else none
  else if x.wp + n < x.cp then some (x.wp, false)
  else none

/-- The consumer's next record at CP is dropped (R452): past a zero word to offset 0, past a record by its LENGTH. -/
def Region.dropOldest (x : Region) (m : Mem) : Region :=
  let h := x.word m x.cp
  if fld h 120 8 = 0 then { x with cp := 0 }
  else
    let n := max 1 (fld h 96 20)
    let lost := match x.lost with
      | some (a, b, k) => some (a, b, k + 1)
      | none => some (h, x.word m ((x.cp + 1) % x.cap), 1)
    { x with cp := (x.cp + n) % x.cap, overs := min 0xFFFF (x.overs + 1), lost := lost }

/-- Oldest records are dropped until a record of n words fits (rolling mode). An empty region starts again at offset 0. -/
def Region.roll (m : Mem) (n : Nat) : Nat → Region → Region × Option (Nat × Bool)
  | 0, x => (x, none)
  | k + 1, x =>
    match x.place n with
    | some p => (x, some p)
    | none =>
      if x.cp = x.wp then (if x.cap ≤ n then (x, none) else ({ x with cp := 0 }, some (0, true)))
      else Region.roll m n k (x.dropOldest m)

/-- A writer places its oldest record in its region (R451, R452). With LEN = 0 it is discarded; a record that does not fit stays in the output buffer (hold) or overwrites the oldest whole records (rolling). A record whose write the windows deny stays in the output buffer (log entry 58). -/
def recordWrite (r : Nat) (s : Sys) : Sys :=
  let d := s.dev
  match d.outOf r with
  | [] => s
  | rec0 :: rest =>
    let x := d.rgn r
    let popped := fun (d : Dev) => { d with out := d.out.set (fun _ => []) r rest, slow := d.slow.erase rec0 }
    if x.len = 0 then { s with dev := popped (d.setRgn r { x with disc := min 0xFFFF (x.disc + 1) }) }
    else
      let n := rec0.length
      let p := if x.mode then Region.roll s.mem n (x.cap + 2) x else (x, x.place n)
      match p.2 with
      | none => { s with dev := (d.setRgn r p.1).sqEvent Reg.MC_STATUS 7 1512 }
      | some (o, wrap) =>
        let y := p.1
        let i := rgnWriter r
        let port := rgnPort r
        let q := memWrite i port (y.base + 16 * o) (rec0.flatMap memWord) s
        match q.2 with
        | .denied => q.1
        | _ =>
          let s2 := if wrap then (memWrite i port (y.base + 16 * x.wp) (List.replicate 16 0) q.1).1 else q.1
          let skipped := if wrap then x.cap - x.wp else 0
          let y := { y with wp := (o + n) % y.cap, total := y.total + skipped + n }
          { s2 with dev := popped (s2.dev.setRgn r y) }

/-- The region RGN_SEL names, if it names one. -/
def Dev.rgnSel (d : Dev) : Option Nat := if d.f Reg.RGN_SEL 0 9 < 259 then some (d.f Reg.RGN_SEL 0 9) else none

/-- What the region registers read (R461). -/
def Dev.rgnRead (d : Dev) (off : Nat) : Word :=
  match d.rgnSel with
  | none => 0
  | some r =>
    let x := d.rgn r
    BitVec.ofNat 32 (
      if off = 0x204 then x.base else if off = 0x208 then x.base / 2 ^ 32 else if off = 0x20C then x.len
      else if off = 0x210 then b2n x.mode else if off = 0x214 then x.wp else if off = 0x218 then x.cp
      else if off = 0x21C then x.overs * 65536 + x.disc else 0)

/-- A write to BASE or LEN (R452): REFUSED while LEN ≠ 0 and WP ≠ CP; one that takes effect empties the region. -/
def rgnPlace (i : Ini) (off v : Nat) (d : Dev) : Dev :=
  match d.rgnSel with
  | none => d
  | some r =>
    let x := d.rgn r
    if x.len ≠ 0 ∧ x.wp ≠ x.cp then d.lateWrite i (0x220000 + off) 4
    else
      let x := if off = 0x20C then { x with len := v % 2 ^ 20 } else { x with base := v / 65536 * 65536 }
      d.setRgn r { x with wp := 0, cp := 0, total := 0, gen := x.gen + 1, lost := none }

/-- A write to CP (R461): a value beyond WP is a REFUSED late write. -/
def rgnCp (i : Ini) (v : Nat) (d : Dev) : Dev :=
  match d.rgnSel with
  | none => d
  | some r =>
    let x := d.rgn r
    let ok := if x.cp ≤ x.wp then decide (x.cp ≤ v ∧ v ≤ x.wp) else decide ((x.cp ≤ v ∧ v < x.cap) ∨ v ≤ x.wp)
    if ok then d.setRgn r { x with cp := v } else d.lateWrite i Reg.RGN_CP 4

/-- A write to RGN_CFG. -/
def rgnCfg (v : Word) (d : Dev) : Dev :=
  match d.rgnSel with
  | none => d
  | some r => d.setRgn r { d.rgn r with mode := bit v 0 }

/-- A write to PORT_REG: the bucket keeps the tokens it holds, as far as the new BURST allows (R441). -/
def portRegWrite (p k : Nat) (v : Word) (d : Dev) : Dev :=
  let held := d.burst p * 2 ^ 64 - d.lacks p
  let d := d.wr k (v &&& 0x03FF07FF)
  d.setMport p { d.mport p with lacks := d.burst p * 2 ^ 64 - held, at_ := d.up }

/-- A write to MC_CTRL (R438): while MC_EN is 1, one whose IGRAIN differs from the value in force is discarded whole as REFUSED. -/
def mcCtrlWrite (i : Ini) (v : Word) (d : Dev) : Dev :=
  if d.on Reg.MC_CTRL 31 ∧ fld v 24 5 ≠ d.f Reg.MC_CTRL 24 5 then d.lateWrite i Reg.MC_CTRL 4
  else d.wrN Reg.MC_CTRL (normMcCtrl 0 0 v.toNat)

end Sys2Proof.Machine
end

