-- ==== Sys2Proof/Machine/Transform.lean ====
section
/-! DEFINITION. The transform arithmetic of R111 and R115: ROM windows, twiddles, and the bit-exact spectrum of one frame. -/
namespace Sys2Proof.Machine

/-- The fixed-point scale of the ROM computations: 2^96. -/
def fpOne : Int := 2 ^ 96

/-- π in units of 2^-96. -/
def fpPi : Int := 248902613312231085230521944622

/-- Σ terms of a series by fuel: each term is the last times z / (k (k + s)), all in fixed point, with a sign per term. -/
def fpSeries (z : Int) (s : Int) (sign : Int) : Nat → Int → Int → Int → Int
  | 0, _, _, acc => acc
  | n + 1, k, t, acc =>
    let t' := sign * (t * z / fpOne) / (k * (k + s))
    fpSeries z s sign n (k + (if s = 0 then 1 else 2)) t' (acc + t')

/-- cos of an angle in [0, π/2], in fixed point. -/
def fpCos (a : Int) : Int := fpSeries (a * a / fpOne) 1 (-1) 20 1 fpOne fpOne

/-- sin of an angle in [0, π/2], in fixed point. -/
def fpSin (a : Int) : Int := fpSeries (a * a / fpOne) 1 (-1) 20 2 a a

/-- cos(2π i / n) in fixed point, exact on the axes. -/
def fpCosTurn (i n : Nat) : Int :=
  let r := (4 * (i % n)) % n
  let q := 4 * (i % n) / n
  if r = 0 then (if q = 0 then fpOne else if q = 2 then -fpOne else 0)
  else
    let a := fpPi * r / (2 * n)
    if q = 0 then fpCos a else if q = 1 then -(fpSin a) else if q = 2 then -(fpCos a) else fpSin a

/-- sin(2π i / n) in fixed point: the cosine a quarter turn back. -/
def fpSinTurn (i n : Nat) : Int := fpCosTurn (4 * (i % n) + 3 * n) (4 * n)

/-- floor(65,536 v + 0.5) of a fixed-point value (R111, R115). -/
def rom (v : Int) : Int := (65536 * v + fpOne / 2) / fpOne

/-- A decimal coefficient of R111 in units of 10^-9, as fixed point. -/
def fpDec (v : Int) : Int := v * fpOne / 1000000000

/-- A cosine-sum window at n of N (R111). -/
def cosSum (cs : List Int) (n len : Nat) : Int :=
  (List.range cs.length).foldl (fun a k => a + nth cs k 0 * fpCosTurn (k * n) len / 1000000000) 0

/-- The Bessel function I0 of argument z, given q = z² / 4 in fixed point: Σ q^k / (k!)². -/
def fpBessel (q : Int) : Int := fpSeries q 0 1 60 1 fpOne fpOne

/-- e^t in fixed point for t ≥ 0: Σ t^k / k!. -/
def fpExp (t : Int) : Nat → Int → Int → Int → Int
  | 0, _, _, acc => acc
  | n + 1, k, x, acc =>
    let x' := x * t / fpOne / k
    fpExp t n (k + 1) x' (acc + x')

/-- A ROM window coefficient c[n] of length N (R111); user tables are not in this ROM. -/
def romCoef (win n len : Nat) : Int :=
  match win with
  | 0 => 65536
  | 1 => rom (cosSum [500000000, -500000000] n len)
  | 2 => rom (cosSum [358750000, -488290000, 141280000, -11680000] n len)
  | 3 => rom (cosSum [215578950, -416631580, 277263158, -83578947, 6947368] n len)
  | 4 => rom (fpBessel (36 * (n * (len - n)) * fpOne / (len * len)) * fpOne / fpBessel (9 * fpOne))
  | 5 => rom (fpBessel (81 * (n * (len - n)) * fpOne / (len * len)) * fpOne / fpBessel (81 * fpOne / 4))
  | 6 => rom (fpBessel (169 * (n * (len - n)) * fpOne / (len * len)) * fpOne / fpBessel (169 * fpOne / 4))
  | 7 =>
    let u := 2 * (n : Int) - len
    rom (fpOne * fpOne / fpExp (25 * (u * u) * fpOne / (8 * (len * len))) 80 1 fpOne fpOne)
  | _ => 0

/-- The twiddle TW[i] of length N (R115). -/
def twiddle (i len : Nat) : Int × Int := (rom (fpCosTurn i len), rom (-(fpSinTurn i len)))

/-- Saturation to 24 bits (R115). -/
def sat24 (v : Int) : Int := satS 24 v

/-- Rounding shift by k of both parts. -/
def rhuC (v : Int × Int) (k : Nat) : Int × Int := (rshr v.1 k, rshr v.2 k)

/-- One butterfly at position j of a block of `span` in a transform of length N (R115). -/
def butterfly (len span k j : Nat) (a b : Int × Int) : (Int × Int) × (Int × Int) :=
  let t := twiddle (j * len / span) len
  let e := (a.1 - b.1, a.2 - b.2)
  (rhuC (a.1 + b.1, a.2 + b.2) k, rhuC (e.1 * t.1 - e.2 * t.2, e.1 * t.2 + e.2 * t.1) (16 + k))

/-- One block of a stage: its halves are combined element by element. -/
def block (len span k : Nat) (l : List (Int × Int)) : List (Int × Int) :=
  let h := span / 2
  let r := List.zipWith (fun j p => butterfly len span k j p.1 p.2) (List.range h) ((l.take h).zip (l.drop h))
  r.map (·.1) ++ r.map (·.2)

/-- The largest magnitude of any part. -/
def maxPart (l : List (Int × Int)) : Nat := l.foldl (fun m v => max m (max v.1.natAbs v.2.natAbs)) 0

/-- The stages of the transform from a span down, by fuel: the values and the block exponent (R115). -/
def stages (len : Nat) : Nat → Nat → List (Int × Int) → Nat → List (Int × Int) × Nat
  | 0, _, x, e => (x, e)
  | n + 1, span, x, e =>
    let m := maxPart x
    let k := if 2 ^ 22 ≤ m then 2 else if 2 ^ 21 ≤ m then 1 else 0
    stages len n (span / 2) ((chunks span x).flatMap (block len span k)) (e + k)

/-- The elements at even and at odd positions. -/
def unzipAlt {α : Type} : List α → List α × List α
  | [] => ([], [])
  | [a] => ([a], [])
  | a :: b :: r => let p := unzipAlt r; (a :: p.1, b :: p.2)

/-- The bit-reversal permutation of a list of 2^k elements. -/
def bitrevList {α : Type} : Nat → List α → List α
  | 0, l => l
  | k + 1, l => let p := unzipAlt l; bitrevList k p.1 ++ bitrevList k p.2

/-- The spectrum of a frame: the bins X in ascending frequency, the block exponent, and whether the window stage saturated (R115, R116). -/
structure Spectrum where
  bins : List (Int × Int)
  exp : Nat
  sat : Bool
deriving DecidableEq, Repr

/-- The reference computation of R115 on a frame of 2^log2n samples with its window coefficients. -/
def transform (log2n : Nat) (s : List (Int × Int)) (c : List Int) : Spectrum :=
  let len := 2 ^ log2n
  let w := List.zipWith (fun (v : Int × Int) (c : Int) => (rshr (v.1 * c) 9, rshr (v.2 * c) 9)) s c
  let x := w.map fun v => (sat24 v.1, sat24 v.2)
  let r := stages len log2n len x 0
  let b := bitrevList log2n r.1
  ⟨b.drop (len / 2) ++ b.take (len / 2), r.2, decide (w ≠ x)⟩

/-- The power value of a bin: rhu(re² + im², 16) (R117). -/
def powerOf (v : Int × Int) : Nat := (rshr (v.1 * v.1 + v.2 * v.2) 16).toNat

end Sys2Proof.Machine
end

