-- ==== Sys2Proof/Machine/Ports.lean ====
section
/-! DEFINITION. Sample ports and streams: link bring-up and faults, zero-fill and GAP records, unpacking, the DDC, the time-domain trigger and the equaliser (chapter Sample Ports and Streams, R176, R177). -/
namespace Sys2Proof.Machine

/-- A port's state. -/
def Dev.port (d : Dev) (p : Nat) : PortSt := d.ports.get (fun _ => {}) p

/-- Sets a port's state. -/
def Dev.setPort (d : Dev) (p : Nat) (x : PortSt) : Dev := { d with ports := d.ports.set (fun _ => {}) p x }

/-- The link state of R98: 0 DISABLED, 1 CDR, 2 SH_SEARCH, 3 EMB_SEARCH, 4 ALIGN, 5 UP. -/
def Dev.linkState (d : Dev) (p : Nat) : Nat := d.f (Reg.LINK_STATE p) 29 3

/-- Sets the link state and the lanes with sync-header lock; LINK_UP follows (R99). -/
def Dev.setLink (d : Dev) (p st lanes : Nat) : Dev :=
  (d.wr (Reg.LINK_STATE p) (packBE 32 [(st, 3), (0, 5), (lanes, 24)])).putB (Reg.PORT_STATUS p) 0 (st = 5)

/-- An event of a port (R101). -/
def Dev.portEvent (d : Dev) (p e : Nat) : Dev := d.event (Reg.PORT_STATUS p) (1410 + 5 * p + e)

/-- The streams of a port under its setup in force, by stream number (R76). -/
def Dev.portStreams (d : Dev) (p : Nat) : List Nat :=
  let ws := d.portForce p
  ((List.range 8).filter fun k => streamSlot ws k = some k).map fun k => 8 * p + k

/-- The sample period of a stream at the port, for n samples (R77, R84). -/
def Dev.streamTime (d : Dev) (s n : Nat) : Nat :=
  let ws := d.portForce (s / 8)
  d.convTime ws (n * formStep ws)

/-- The tag of a lane-input index of a stream (R84, R87). -/
def Dev.tagOf (d : Dev) (s idx : Nat) : Nat := (d.stream s).tagOf idx

/-- The series of the stream samples of a port's setup, whose sample k0 has a tag (R77, R84). -/
def Dev.seriesFrom (d : Dev) (ws : List Word128) (base k0 : Nat) : Series :=
  { base := base, k0 := k0, num := formStep ws * portDiv ws * (d.tb.period * d.tb.remDen + d.tb.remNum), den := portMul ws * d.tb.remDen }

/-- The number of whole stream sample periods in a span, to the nearest. -/
def Dev.samplesIn (d : Dev) (s span : Nat) : Nat :=
  let one := d.streamTime s 1048576
  if one = 0 then 0 else divRound (span * 1048576) one

/-- The reach of the quadrature filter to each side, in real sample periods (R81). -/
def reach (ws : List Word128) : Nat := if portReal ws then 47 else 0

/-- The tag of a converter sample of a port's present series (R80, R84). -/
def Dev.convTag (d : Dev) (p : Nat) (c : Int) : Nat :=
  let ws := d.portForce p
  let x := (d.port p).ser
  (x.base + (c - (x.k0 * formStep ws : Nat)) * x.num / (x.den * formStep ws : Nat)).toNat

/-- The tag of the next sample of a port's streams, once its link has been up. -/
def Dev.nextTag (d : Dev) (p : Nat) : Option Nat := if (d.port p).live then some ((d.port p).ser.time (d.port p).pos) else none

/-- A record whose source event was at t0 crossed a port with a link-level fault open at or since that instant (R22, R25). -/
def Dev.portCond (d : Dev) (p t0 : Nat) : Bool := (d.port p).open_ || decide (t0 < (d.port p).faultAt)

/-- One GAP record of a stream, in region s (R95, R451, R517). -/
def Dev.streamGap (d : Dev) (s cause ckind count t0 t1 : Nat) (cont : Bool) : Dev :=
  let p := s / 8
  d.emit s { typ := 0x09, src := 0x1000 + s, flags := b2n cont * 32 + b2n (d.cond t0 || d.portCond p t0) * 128,
             slot := d.slotOf (48 + p), sw := d.swOf (48 + p), time := d.timeWord 0 false t0 }
    (gapPayload cause ckind count (d.timeWord 0 false t0) (d.timeWord 0 false t1))

/-- A GAP record of a port fault, counted in GAP_COUNT. -/
def Dev.portGap (d : Dev) (s cause t0 t1 : Nat) (cont : Bool) : Dev :=
  (d.streamGap s cause 1 (d.samplesIn s (t1 - t0)) t0 t1 cont).addSat (Reg.GAP_COUNT (s / 8)) 1

/-- Zeros toward a lane: n lane-input samples of a cause (R95, R127), with a run before them if it has the same cause. -/
def StreamSt.addFill (x : StreamSt) (n cause : Nat) : StreamSt :=
  if n = 0 then x
  else match x.segs.getLast? with
    | some g =>
      if g.data.isEmpty ∧ g.cause = cause ∧ g.start + g.n = x.next then
        { x with segs := x.segs.dropLast ++ [{ g with n := g.n + n }], next := x.next + n }
      else { x with segs := x.segs ++ [⟨x.next, n, cause, []⟩], next := x.next + n }
    | none => { x with segs := [⟨x.next, n, cause, []⟩], next := x.next + n }

/-- Listed samples toward a lane. -/
def StreamSt.addData (x : StreamSt) (l : List Smp) : StreamSt :=
  if l.isEmpty then x
  else { x with segs := x.segs ++ [⟨x.next, l.length, 0, l⟩], next := x.next + l.length }

/-- The lane-input sample at an index, if it has been produced and is still held. -/
def StreamSt.sample (x : StreamSt) (idx : Nat) : Option Smp :=
  match x.segs.find? fun g => g.start ≤ idx ∧ idx < g.start + g.n with
  | some g => if g.data.isEmpty then some { fill := g.cause } else g.data[idx - g.start]?
  | none => none

/-- The group delay of a stream's DDC in time (R87). -/
def Dev.ddcDelay (d : Dev) (s : Nat) : Nat := d.streamTime s (groupDelay (slotDec (d.portForce (s / 8)) (s % 8)))

/-- The settling span that a GAP range leaves at DEC ≥ 1: the outputs whose filter spans overlap it (R88). -/
def Dev.gapSpan (d : Dev) (s t0 t1 : Nat) : List (Nat × Nat) :=
  let gd := d.ddcDelay s
  if gd = 0 then [] else [(t0 - gd, t1 + gd)]

/-! ### Zero-fill (R95) -/

/-- n DDC outputs with free values, of a fill cause or none (R87, log entry 32). -/
def freeSmps (fresh n cause : Nat) : List Smp :=
  (List.range n).map fun i =>
    let r := Config.freeWord128 (fresh + i)
    ⟨toS 16 r.toNat, toS 16 (r.toNat / 2 ^ 16), cause, bit r 32⟩

/-- Saturated DDC outputs of a port are counted (R87, R101). -/
def Dev.noteSat (d : Dev) (p : Nat) (l : List Smp) : Dev :=
  let n := (l.filter fun y => y.sat).length
  if n = 0 then d else (d.addSat (Reg.SAT_COUNT p) n).sqEvent (Reg.PORT_STATUS p) 11 (1410 + 5 * p + 3)

/-- The DDC takes n zeros for lost samples (R95): at DEC = 0 they are its outputs; at DEC ≥ 1 an output is zero once its whole filter span is, and free before (R88). -/
def Dev.fillStream (d : Dev) (s n : Nat) : Dev :=
  let x := d.stream s
  let sw := wd (d.portForce (s / 8)) (3 + s % 8)
  let dec := fld sw 121 5
  let step := 2 ^ dec
  let skip := (step - x.phase % step) % step
  let m := if n ≤ skip then 0 else (n - skip - 1) / step + 1
  let a := if dec = 0 then 0 else min m (x.idxAt (x.zeroFrom + d.ddcDelay s) - x.next)
  let l := freeSmps d.fresh a x.gapCause
  let x' := ({ x with phase := (x.phase + n) % step, nco := (x.nco + n * fld sw 72 48) % 2 ^ 48 }.addData l).addFill (m - a) x.gapCause
  ({ d.setStream s x' with fresh := d.fresh + a }).noteSat (s / 8) l

/-- The last outputs of a fill at DEC ≥ 1 draw on samples from the first delivered tag on: their values are free (R88). -/
def Dev.freeTail (d : Dev) (s first : Nat) : Dev :=
  let x := d.stream s
  let a := x.next - x.idxAt (first - d.ddcDelay s)
  match x.segs.getLast? with
  | some g =>
    let a := min a g.n
    if slotDec (d.portForce (s / 8)) (s % 8) = 0 ∨ a = 0 ∨ !g.data.isEmpty then d
    else
      let l := freeSmps d.fresh a g.cause
      let keep : List Seg := if a = g.n then [] else [{ g with n := g.n - a }]
      ({ d.setStream s { x with segs := x.segs.dropLast ++ keep ++ [(⟨x.next - a, a, g.cause, l⟩ : Seg)] } with fresh := d.fresh + a }).noteSat (s / 8) l
  | none => d

/-- A port supplies zeros to its streams up to a sample of its series (R95). -/
def Dev.fillPort (d : Dev) (p upto : Nat) : Dev :=
  let n := upto - (d.port p).pos
  let d := ((d.portStreams p).filter fun s => (d.stream s).live).foldl (fun d s => d.fillStream s n) d
  d.setPort p { d.port p with pos := (d.port p).pos + n }

/-- RBD block periods (R83): a block is 64 bits of every lane, 8 × S / F converter sample periods. -/
def Dev.rbdTime (d : Dev) (p : Nat) : Nat :=
  let ws := d.portForce p
  fld (wd ws 2) 73 7 * d.convTime ws (8 * portS ws) / portF ws

/-- In an outage a port supplies zeros timed by device time (R95): those of the tags whose release instants under R83 have passed. -/
def Dev.fillNow (d : Dev) (p : Nat) : Dev :=
  let x := d.port p
  if x.open_ ∧ x.live then d.fillPort p (x.ser.firstAt ((d.now : Int) - d.rbdTime p - pipeUnits (d.portForce p)).toNat) else d

/-! ### Link faults (R93, R96, R101) -/

/-- The status bit of a fault cause (R99), if it has one. -/
def faultBit (cause : Nat) : Option Nat :=
  if cause = 0x10 ∨ cause = 0x11 ∨ cause = 0x15 then some 7
  else if cause = 0x12 then some 8
  else if cause = 0x13 then some 9
  else if cause = 0x14 ∨ cause = 0x18 then some 10
  else none

/-- A fault is detected: its status bit, FAULT_CAUSE for the first one, the condition status, and LINK_FAULT where no fault is open (R93, R99, R101, R37). -/
def Dev.noteFault (d : Dev) (p cause lane : Nat) : Dev :=
  let d := match faultBit cause with
    | some b => d.setB (Reg.PORT_STATUS p) b
    | none => d
  let d := if d.rd (Reg.FAULT_CAUSE p) = 0 then d.wrN (Reg.FAULT_CAUSE p) (cause * 256 + lane) else d
  let d := d.condLinkFault
  if (d.port p).open_ then d else d.portEvent p 0

/-- Every stream of a port that has no running loss starts one at its next sample (R95, R96), widened (R81). -/
def Dev.startOutage (d : Dev) (p : Nat) : Dev :=
  let ws := d.portForce p
  let x := d.port p
  let t := x.ser.time x.pos
  let from_ := if portReal ws then d.convTag p (2 * x.pos - 1) else t
  if x.live then (d.portStreams p).foldl (fun d s =>
    let y := d.stream s
    if !y.live then d
    else match y.gapFrom with
      | none => d.setStream s { y with gapFrom := some from_, gapCause := x.cause, zeroFrom := t, td := {} }
      | some _ => d.setStream s { y with zeroFrom := t, td := {} }) d
  else d

/-- A fault that restarts, holds or disables the link: the outage opens, and the link goes to a state (R93, R95). -/
def Dev.linkFault (d : Dev) (p cause lane st : Nat) : Dev :=
  let d := d.noteFault p cause lane
  let x := d.port p
  let d := d.setPort p { x with open_ := true, cause := if x.open_ then x.cause else cause, crc := [], held := none }
  let d := if x.open_ then d else d.startOutage p
  (d.setLink p st 0).clrB (Reg.PORT_STATUS p) 4

/-- REF_IN is declared absent: every enabled port reports REF_LOSS and restarts its link (R44, R93). -/
def Dev.refLoss (d : Dev) : Dev :=
  (List.range 6).foldl (fun d p => if d.linkState p = 0 then d else d.linkFault p 0x15 0x1F 1) d

/-- The port's domain is brought down: the link is disabled (R569, R93). -/
def Dev.portPowerDown (d : Dev) (p : Nat) : Dev :=
  if d.linkState p = 0 then d else d.linkFault p 0x17 0x1F 0

/-! ### Bring-up (R69, R82, R85) -/

/-- Bits per block of a setup's line coding (R72). -/
def lineBits (ws : List Word128) : Nat := if fld (wd ws 0) 126 2 = 1 then 80 else 66

/-- CDR lock at a lane rate of num / den bits per REF_IN period: that of the setup in force (R69, R72, R93), with REF_IN present (R93). -/
def cdrLock (p num den : Nat) (d : Dev) : Dev :=
  let ws := d.portForce p
  if d.linkState p = 1 ∧ d.tb.refPresent ∧ den ≠ 0
      ∧ num * (portDiv ws * portS ws * 64) = den * (8 * portF ws * portMul ws * lineBits ws) then d.setLink p 2 0 else d

/-- A physical lane achieves sync-header lock (R69, R98): with the setup's coding, 0 64b/66b or 1 64b/80b; 8b/10b (2) never locks. With every logical lane locked the link moves on. -/
def syncHeaderLock (p phys coding : Nat) (d : Dev) : Dev :=
  let ws := d.portForce p
  match logicalOf ws phys with
  | none => d
  | some i =>
    if d.linkState p = 2 ∧ d.tb.refPresent ∧ coding < 2 ∧ coding = fld (wd ws 0) 126 2 then
      let lanes := d.f (Reg.LINK_STATE p) 0 24 ||| 2 ^ i
      d.setLink p (if lanes = 2 ^ portL ws - 1 then 3 else 2) lanes
    else d

/-- The SYSREF period is a whole multiple of T_EMB (R82). -/
def Dev.sysrefOk (d : Dev) (p : Nat) : Bool :=
  let ws := d.portForce p
  fld (wd ws 0) 124 2 = 0 || ((d.outp (4 + p)).divm1 + 1) * portMul ws % (embSamples ws * portDiv ws) = 0

/-- End-of-multiblock lock (R82): a digitiser that uses the FEC or command channel gives EMB_LOCK_LOST (R69); a SYSREF period that is no multiple of T_EMB holds the link in ALIGN. -/
def embLock (p : Nat) (fecSeen : Bool) (d : Dev) : Dev :=
  if d.linkState p = 3 ∧ d.tb.refPresent then
    if fecSeen then d.linkFault p 0x11 0x1F 1
    else
      let lanes := d.f (Reg.LINK_STATE p) 0 24
      if d.sysrefOk p then d.setLink p 4 lanes
      else (d.linkFault p 0x18 0x1F 4).setLink p 4 lanes
  else d

/-- Subclass 1 (R85). -/
def subclass1 (ws : List Word128) : Bool := fld (wd ws 0) 124 2 = 1

/-- The present REF_IN edge is a rising edge of a port's SYSREF output (R82). -/
def Dev.sysrefEdge (d : Dev) (p : Nat) : Bool := d.emits (4 + p) && d.periodStart (4 + p)

/-- The instant of the anchor: the SYSREF edge leaving the ball in subclass 1 (R82); RBD block periods after link-up in subclass 0 (R85). -/
def Dev.anchorTime (d : Dev) (p : Nat) : Nat :=
  if subclass1 (d.portForce p) then d.outEdge (4 + p) (d.outIndex (4 + p)) else d.now + d.rbdTime p

/-- An equaliser calibration starts (R91): on a running one, or without an UP link, it is deferred (R92). EQ_TDELTA is measured from the die temperature at this start (log entry 30). -/
def Dev.eqCal (d : Dev) (p : Nat) : Dev :=
  if d.linkState p = 5 ∧ !d.on (Reg.PORT_STATUS p) 5 then
    let x := d.port p
    (d.setB (Reg.PORT_STATUS p) 5).setPort p { x with
      eqAdapted := false, eqEyes := [], eqPass := [], eqTemp := d.dieQ }
  else d.setPort p { d.port p with eqDeferred := true }

/-- The NCO phase a stream starts with under PHASE_MODE and PHASE_OFS (R86), `skip` inputs before its first output; with PHASE_MODE 0 a new stream's is free. -/
def ncoStart (sw : Word128) (skip old : Nat) : Nat :=
  if bit sw 120 then (fld sw 56 16 * 2 ^ 32 + 2 ^ 48 * (skip + 1) - skip * fld sw 72 48) % 2 ^ 48 else old % 2 ^ 48

/-- A stream begins, with its lane-input index 0 at a sample of the port's series (R84, R86). -/
def Dev.beginStream (d : Dev) (s pos : Nat) : Dev :=
  let x := d.stream s
  let sw := wd (d.portForce (s / 8)) (3 + s % 8)
  let x := { x with live := true, phase := 0, nco := ncoStart sw 0 (Config.freeNat d.fresh)
                    marks := [⟨x.next, pos, 2 ^ fld sw 121 5, (d.port (s / 8)).ser⟩] }
  { d.setStream s x with fresh := d.fresh + 1 }

/-- A stream's lane inputs follow a new series from its next output on, at a sample of it (R84). -/
def Dev.markStream (d : Dev) (s pos : Nat) : Dev :=
  let x := d.stream s
  let step := 2 ^ slotDec (d.portForce (s / 8)) (s % 8)
  d.setStream s { x with marks := x.marks ++ [⟨x.next, pos + (step - x.phase % step) % step, step, (d.port (s / 8)).ser⟩] }

/-- The loss of a stream ends at a tag: the GAP record that covers it, with the settling it leaves (R88, R95). -/
def Dev.endGap (d : Dev) (s t1 : Nat) : Dev :=
  let x := d.stream s
  match x.gapFrom with
  | some t0 =>
    (d.setStream s { x with gapFrom := none, settle := x.settle ++ d.gapSpan s t0 t1 }).portGap s x.gapCause t0 t1 false
  | none => d

/-- The sample of a series whose tag is nearest to an instant, from a given one on. -/
def Series.nearest (x : Series) (pos t : Nat) : Nat :=
  let k := max pos (x.firstAt t)
  if pos < k ∧ t - x.time (k - 1) < x.time k - t then k - 1 else k

/-- The link becomes UP (R82, R85), in subclass 1 at a rising edge of its SYSREF: the anchor, the events, the end of the zero-fill of any outage (R95), and the link-up calibration (R91). In the real form an outage costs the samples within the filter's reach of it too (R81). -/
def linkUp (p : Nat) (d : Dev) : Dev :=
  let ws := d.portForce p
  if d.linkState p = 4 ∧ d.sysrefOk p ∧ d.tb.refPresent ∧ (!subclass1 ws || d.sysrefEdge p) then
    let a := d.anchorTime p
    let first := ((ofShort (shortTime a) : Int) - pipeUnits ws).toNat
    let d := d.wr64 (Reg.LEMC_ANCHOR_LO p) (Reg.LEMC_ANCHOR_HI p) (shortTime a)
    let x := d.port p
    let d := if x.live then d.fillPort p (x.ser.nearest x.pos first) else d
    let d := (d.portStreams p).foldl (fun d s => d.freeTail s first) d
    let x := d.port p
    let d := d.setPort p { x with
      live := true, ser := d.seriesFrom ws first 0, pos := 0, emb := 0, anchorUp := a - d.tb.jump, anchorEdge := d.tb.edges
      bads := if x.live then [(0, 0)] else [], crc := [], eqFresh := [], eqRevert := [], eqPrev := [] }
    let d := (d.portStreams p).foldl (fun d s => if (d.stream s).live then d.markStream s 0 else d.beginStream s 0) d
    let d := if portReal ws then d else (d.portStreams p).foldl (fun d s => d.endGap s first) d
    let d := (d.setLink p 5 (d.f (Reg.LINK_STATE p) 0 24)).putB (Reg.PORT_STATUS p) 4 (subclass1 ws)
    let d := d.setPort p { d.port p with open_ := false, faultAt := if x.open_ then max x.faultAt d.now else x.faultAt }
    (d.portEvent p 1).eqCal p
  else d

/-- Each 1 ms of a running outage is one GAP record with CONT (R95). -/
def outageSplit (s : Nat) (d : Dev) : Dev :=
  let d := d.fillNow (s / 8)
  let x := d.stream s
  match x.gapFrom with
  | some t0 =>
    if elapsedNs t0 d.now 1000000 ∧ (d.port (s / 8)).open_ then
      let t1 := t0 + nsUnits 1000000
      let d := d.setStream s { x with gapFrom := some t1, settle := x.settle ++ d.gapSpan s t0 t1 }
      d.portGap s x.gapCause t0 t1 true
    else d
  | none => d

/-- SH_LOCK_LOST, EMB_LOCK_LOST and ALIGN_SHIFT on a physical lane of an enabled link (R93); one that no logical lane names is powered down (R71). -/
def laneLinkFault (p cause phys : Nat) (d : Dev) : Dev :=
  match logicalOf (d.portForce p) phys with
  | some lane => if d.linkState p = 0 then d else d.linkFault p cause lane 1
  | none => d

/-! ### Unpacking and the down-converter (R70, R79, R80, R86, R87) -/

/-- The words of an extended multiblock, a list over the converters per converter sample, from the octets of each physical lane: the port takes the lanes of LANE_MAP, inverts those of POLARITY, and maps the octets of each frame by the transport layer's rule (R70, R71): the words of converter 0's S samples, then converter 1's, fill the lanes' F octets in order. -/
def embWords (ws : List Word128) (octets : List (List Nat)) : List (List Nat) :=
  let f := portF ws
  let s := portS ws
  let lanes := (List.range (portL ws)).map fun i =>
    let l := nth octets (laneMap ws i) []
    if bit (wd ws 2) (80 + i) then l.map fun b => 255 - b % 256 else l.map (· % 256)
  (List.range (256 * portE ws / f)).flatMap fun q =>
    let frame := lanes.flatMap fun l => (List.range f).map fun k => nth l (q * f + k) 0
    let words := (chunks 2 frame).map fun b => nth b 0 0 * 256 + nth b 1 0
    (List.range s).map fun i => (List.range (portM ws)).map fun c => nth words (c * s + i) 0

/-- The N most significant bits of a sample word, the lower bits zero (R70). -/
def takeN (n : Nat) (w : Nat) : Int := toS 16 (w % 2 ^ 16 / 2 ^ (16 - n) * 2 ^ (16 - n))

/-- The conjugate of INVERT; the most negative Q has no 16-bit negative and gives 32,767 (R79). -/
def invertQ (inv : Bool) (q : Int) : Int := if inv then satS 16 (-q) else q

/-- One complex sample of a stream: I and Q in the complex form (R77), from the words of its converter sample; the quadrature filter's free output in the real form (R80, log entry 31). -/
def unpack (ws : List Word128) (k fresh : Nat) (words : List Nat) : Int × Int :=
  let sw := wd ws (3 + k)
  let n := fld (wd ws 0) 96 3 + 12
  let src := fld sw 52 4
  let inv := bit sw 126
  if portReal ws then
    let v := (Config.freeWord128 fresh).toNat
    (toS 16 v, invertQ inv (toS 16 (v / 65536)))
  else (takeN n (nth words src 0), invertQ inv (takeN n (nth words (src + 1) 0)))

/-- A fixed-point value rounded half up to a 16-bit sample, which saturates (R87). -/
def toSample (v : Int) : Int × Bool :=
  let r := (v + fpOne / 2) / fpOne
  (satS 16 r, decide (satS 16 r ≠ r))

/-- The DDC's product with e^(−jθ) at an NCO phase of n / 2^48 turns (R86), rounded half up (R87). -/
def ncoMix (n : Nat) (re im : Int) : Int × Int × Bool :=
  let c := fpCosTurn n (2 ^ 48)
  let s := fpSinTurn n (2 ^ 48)
  let a := toSample (re * c + im * s)
  let b := toSample (im * c - re * s)
  (a.1, b.1, a.2 || b.2)

/-- The lane-input samples that the DDC gives for port samples with their lost marks (R86, R87): unchanged at DEC = 0 with FTW = 0; the product with the NCO at DEC = 0; and free values at DEC ≥ 1 (the coefficients are not given; log entry 32). An output at DEC ≥ 1 counts as zero-fill where its input instant is. -/
def ddc (sw : Word128) (phase nco fresh : Nat) (l : List (Int × Int × Nat)) : List Smp :=
  let dec := fld sw 121 5
  let ftw := fld sw 72 48
  if dec = 0 then
    if ftw = 0 then l.map fun v => ⟨v.1, v.2.1, v.2.2, false⟩
    else (List.range l.length).map fun i =>
      let v := nth l i (0, 0, 0)
      let y := ncoMix ((nco + i * ftw) % 2 ^ 48) v.1 v.2.1
      ⟨y.1, y.2.1, v.2.2, y.2.2⟩
  else
    (List.range l.length).filterMap fun i =>
      if (phase + i) % 2 ^ dec = 0 then
        let r := Config.freeWord128 (fresh + i)
        some ⟨toS 16 r.toNat, toS 16 (r.toNat / 2 ^ 16), (nth l i (0, 0, 0)).2.2, bit r 32⟩
      else none

/-! ### Time-domain trigger (R176, R177) -/

/-- The trigger after one sample with tag t; the flag says that it fires. -/
def tdSample (w : Word128) (x : TdSt) (re im : Int) (lost : Bool) : TdSt × Bool :=
  let p := (re * re + im * im).toNat
  let level := fld w 53 32
  let hyst := fld w 21 32
  let dur := fld w 5 16 + 1
  let mode := fld w 85 2
  if lost then ({ key := x.key }, false)
  else
    let ge := decide (level ≤ p)
    let rise := if ge then x.rise + 1 else 0
    let fall := if ge then 0 else x.fall + 1
    let rArm := x.riseArmed || decide (p + hyst < level)
    let fArm := x.fallArmed || decide (level + hyst ≤ p)
    let rFire := rArm && decide (dur ≤ rise) && decide (mode ≠ 1)
    let fFire := fArm && decide (dur ≤ fall) && decide (mode ≠ 0)
    (⟨x.key, rArm && !rFire, fArm && !fFire, rise, fall⟩, rFire || fFire)

/-- What the time-domain trigger follows (R177): the trigger word in force with its number of lane switches; before the boundary of the last lane switch, the word it replaced; and, where a lane switch is committed, the tag of its boundary and the trigger word from there. -/
structure TdRule where
  key : Nat
  word : Word128
  old : Option (Nat × Word128) := none
  next : Option (Nat × Word128) := none

/-- The trigger word at a tag, with its number of lane switches. -/
def TdRule.at_ (u : TdRule) (t : Nat) : Nat × Word128 :=
  match u.next.filter fun b => b.1 ≤ t with
  | some b => (u.key + 1, b.2)
  | none =>
    match u.old.filter fun b => t < b.1 with
    | some b => (u.key - 1, b.2)
    | none => (u.key, u.word)

/-- The time-domain trigger over samples: its state and the tags and powers at which it fires, in order. -/
def tdRun (u : TdRule) : List (Nat × Int × Int × Bool) → TdSt → TdSt × List (Nat × Nat)
  | [], x => (x, [])
  | (t, re, im, lost) :: r, x =>
    let kw := u.at_ t
    let x := if x.key = kw.1 then x else { key := kw.1 }
    if !bit kw.2 87 then tdRun u r { key := kw.1 }
    else
      let y := tdSample kw.2 x re im lost
      let z := tdRun u r y.1
      (z.1, if y.2 then (t, (re * re + im * im).toNat) :: z.2 else z.2)

/-! ### Release of an extended multiblock (R83, R84, R94) -/

/-- A settling span covers an output tag (R88). -/
def settled (spans : List (Nat × Nat)) (t : Nat) : Bool := spans.any fun p => p.1 ≤ t ∧ t < p.2

/-- The lost converter samples that a stream sample's filter span touches (R81, R94). -/
def touched (ws : List Word128) (bads : List (Nat × Nat)) (m : Nat) : List (Nat × Nat) :=
  let c := m * formStep ws
  bads.filter fun b => decide (b.1 < c + 1 + reach ws) && decide (c < b.2 + reach ws)

/-- The tag of stream sample i of extended multiblock j of a port (R84). -/
def Dev.embTag (d : Dev) (p j i : Nat) : Nat :=
  let ws := d.portForce p
  (d.port p).ser.time (j * (embSamples ws / formStep ws) + i)

/-- Maximal runs of lost and good samples from lo to hi, by fuel: whether lost, first, and last plus one. -/
def lossRuns (lost : Nat → Bool) (lo : Nat) : Nat → List (Bool × Nat × Nat)
  | 0 => []
  | n + 1 =>
    let l := lossRuns lost lo n
    let b := lost (lo + n)
    match l.getLast? with
    | some r => if r.1 = b then l.dropLast ++ [(b, r.2.1, lo + n + 1)] else l ++ [(b, lo + n, lo + n + 1)]
    | none => [(b, lo + n, lo + n + 1)]

/-- A run of samples reaches a stream (R95): at its first lost one a loss begins, at its first good one the GAP record of the loss stands before it. The marks of lost samples take the loss's cause. -/
def Dev.streamRun (d : Dev) (p s : Nat) (r : Bool × Nat × Nat) : Dev :=
  let ws := d.portForce p
  let x := d.stream s
  let bads := (d.port p).bads
  if r.1 then
    match x.gapFrom with
    | some _ => d
    | none =>
      let lo := (touched ws bads r.2.1).foldl (fun a b => min a b.1) (r.2.1 * formStep ws)
      d.setStream s { x with gapFrom := some (d.convTag p ((lo : Int) - reach ws)), gapCause := 0x12 }
  else
    let hi := (bads.filter fun b => decide (b.2 ≤ r.2.1 * formStep ws)).foldl (fun a b => max a b.2) 0
    d.endGap s (d.convTag p (hi + reach ws : Nat))

/-- One stream takes samples lo to hi of the port's series: GAP records (R95), trigger (R176), DDC (R86), saturation count (R87); and the samples with their lost marks for the capture writer (R90, R453). -/
def Dev.streamTake (d : Dev) (p k lo hi : Nat) (h : Held) (u : TdRule) : Dev × List (Int × Int × Nat) :=
  let s := 8 * p + k
  let ws := d.portForce p
  let sw := wd ws (3 + k)
  let n := hi - lo
  let bads := (d.port p).bads
  let lost := fun m => !(touched ws bads m).isEmpty
  let r := (lossRuns lost lo n).foldl (fun (a : Dev × List (Int × Int × Nat)) q =>
    let e := a.1.streamRun p s q
    let cause := (e.stream s).gapCause
    (e, a.2 ++ (List.range (q.2.2 - q.2.1)).map fun i =>
      let m := q.2.1 + i
      if q.1 then (0, 0, cause)
      else
        let v := unpack ws k (d.fresh + (m - lo)) (nth h.words (m - h.emb * embSamples ws) [])
        (v.1, v.2, 0))) (d, [])
  let d := { r.1 with fresh := r.1.fresh + n }
  let x := d.stream s
  let out := ddc sw x.phase x.nco d.fresh r.2
  let ser := (d.port p).ser
  let td := tdRun u ((List.range n).map fun i => let v := nth r.2 i (0, 0, 0); (ser.time (lo + i), v.1, v.2.1, decide (v.2.2 ≠ 0))) x.td
  let x' := ({ x with phase := (x.phase + n) % 2 ^ fld sw 121 5, nco := (x.nco + n * fld sw 72 48) % 2 ^ 48, td := td.1 }).addData out
  let d := { d.setStream s x' with fresh := d.fresh + n }
  let d := td.2.foldl (fun d t => d.pulse (1 + s) t.1 0xFF (packBE 128 [(t.2, 32), (0, 96)])) d
  (d.noteSat p out, r.2)

/-- What the capture writer takes of a stream: its number, the tag after the last sample, and the samples with the causes of lost ones (R90, R453). -/
abbrev CapTake := Nat × Nat × List (Int × Int × Nat)

/-- Every stream of a port takes the samples up to one of the port's series (R90). -/
def Dev.portTake (d : Dev) (p upto : Nat) (h : Held) (u : Nat → TdRule) : Dev × List CapTake :=
  let lo := (d.port p).pos
  let r := (d.portStreams p).foldl (fun (a : Dev × List CapTake) s =>
    let q := a.1.streamTake p (s % 8) lo (max lo upto) h (u s)
    (q.1, a.2 ++ [(s, (d.port p).ser.time (max lo upto), q.2)])) (d, [])
  let x := r.1.port p
  (r.1.setPort p { x with pos := max lo upto, bads := x.bads.filter fun b => decide (max lo upto * formStep (d.portForce p) < b.2 + 96) }, r.2)

/-- The CRC history of a lane: the multiblocks, counted since link-up, of its faults within the last 16 (R94). -/
def crcNote (h : List Nat) (m : Nat) : List Nat := (h.filter fun a => m < a + 16) ++ [m]

/-- The converter samples of multiblock m of extended multiblock j (R94). -/
def mbRange (ws : List Word128) (j m : Nat) : Nat × Nat :=
  let n := embSamples ws
  let e := portE ws
  (j * n + m * n / e, j * n + ((m + 1) * n + e - 1) / e)

/-- A CRC fault on a logical lane in multiblock m of extended multiblock j: its count and history, and the lane's revert where the multiblock is the first after a swap (R92, R94). The flag says that it is the fourth within 16 multiblocks. -/
def Dev.crcLane (d : Dev) (p j m lane : Nat) : Dev × Bool :=
  let d := d.addSat (Reg.LANE_CRC_ERR p lane) 1
  let x := d.port p
  let h := crcNote (x.crc.get (fun _ => []) lane) (j * portE (d.portForce p) + m)
  let again := lane ∈ x.eqFresh ∧ j = x.eqEmb ∧ m = 0 ∧ lane ∉ x.eqRevert
  (d.setPort p { x with
    crc := x.crc.set (fun _ => []) lane h
    eqRevert := if again then x.eqRevert ++ [lane] else x.eqRevert }, decide (4 ≤ h.length))

/-- CRC faults of an extended multiblock, in order (R94, R101): each multiblock with one loses its samples and is a fault of its own, named by its lowest lane (log entry 97), until one is the fourth of a lane within 16, which is a loss of sync-header lock from that multiblock on (log entry 97). -/
def Dev.crcFaults (d : Dev) (p j : Nat) (bad : List (Nat × Nat)) : Dev × Option (Nat × Nat) :=
  let ws := d.portForce p
  (List.range (portE ws)).foldl (fun a m =>
    let lanes := (List.range (portL ws)).filter fun i => decide ((laneMap ws i, m) ∈ bad)
    match a.2, lanes with
    | none, lane :: _ =>
      let r := lanes.foldl (fun (b : Dev × Option Nat) i =>
        let c := b.1.crcLane p j m i
        (c.1, if c.2 ∧ b.2.isNone then some i else b.2)) (a.1, none)
      match r.2 with
      | some i => (r.1, some (m, i))
      | none =>
        let x := r.1.port p
        let g := mbRange ws j m
        ((r.1.noteFault p 0x12 lane).setPort p { x with bads := x.bads ++ [g], faultAt := max x.faultAt (r.1.convTag p g.2) }, none)
    | _, _ => a) (d, none)

/-- The release instant of extended multiblock j, as time since release: RBD block periods after its LEMC boundary in subclass 1; in subclass 0 the anchor is that of the first one (R83, R85). -/
def Dev.releaseUp (d : Dev) (p j : Nat) : Nat :=
  let ws := d.portForce p
  (d.port p).anchorUp + d.convTime ws (j * embSamples ws) + (if subclass1 ws then d.rbdTime p else 0)

/-- The stream samples of a port that are complete once n converter samples have come: in the real form, those whose filter span they hold (R80). -/
def complete (ws : List Word128) (n : Nat) : Nat := if portReal ws then (n - 46) / 2 else n

/-- The elastic buffer releases an extended multiblock (R83, R84, R94): `octets` of each physical lane, after how long from the LEMC boundary each lane's blocks `arrive`, and which multiblocks fail their CRC, by physical lane. A lane later than RBD block periods is ELASTIC_LATE, named by the lowest one (log entry 97). Samples from a committed setup's boundary on wait for the switch. What the capture writer takes is given per stream. -/
def embRelease (p : Nat) (octets : List (List Nat)) (arrive : List Nat) (bad : List (Nat × Nat)) (u : Nat → TdRule) (d : Dev) : Dev × List CapTake :=
  let ws := d.portForce p
  let x := d.port p
  let j := x.emb
  if d.linkState p ≠ 5 ∨ x.held.isSome ∨ d.up < d.releaseUp p j then (d, [])
  else match (List.range (portL ws)).find? fun i => decide (d.rbdTime p < nth arrive (laneMap ws i) 0) with
  | some lane => (d.linkFault p 0x13 lane 1, [])
  | none =>
    let c := d.crcFaults p j bad
    let d := c.1
    let got := match c.2 with
      | some (m, _) => (mbRange ws j m).1
      | none => (j + 1) * embSamples ws
    let upto := complete ws got
    let words := embWords ws octets
    let cut := match d.dueGroup (48 + p) with
      | some (g, _) => min upto (x.ser.firstAt g.teff)
      | none => upto
    let r := d.portTake p cut ⟨j, words, upto⟩ u
    let d := r.1
    let d := d.setPort p { d.port p with
      emb := j + 1, held := if max x.pos cut < upto then some ⟨j, words, upto⟩ else none
      eqFresh := if (d.port p).eqEmb ≤ j then [] else (d.port p).eqFresh }
    match c.2 with
    | some (_, lane) => (d.linkFault p 0x10 lane 1, r.2)
    | none => (d, r.2)

/-! ### Port commands and the equaliser (R91, R92, R98) -/

/-- PORT_CMD LINK_RESTART (R93): without a setup in force the port has no link. -/
def linkRestart (p : Nat) (d : Dev) : Dev := if d.linkState p = 0 then d else d.linkFault p 0x19 0x1F 1

/-- PORT_CMD CLEAR_COUNTS (R98). -/
def portClearCounts (p : Nat) (d : Dev) : Dev :=
  let d := ((d.wrN (Reg.GAP_COUNT p) 0).wrN (Reg.SAT_COUNT p) 0).wrN (Reg.FAULT_CAUSE p) 0
  (List.range 24).foldl (fun d i => d.wrN (Reg.LANE_CRC_ERR p i) 0) d

/-- With AUTO set, a die-temperature move beyond EQ_TDELTA (in 0.25 °C units, minus 1 in the field) starts a calibration (R91, R98). -/
def eqCalAuto (p : Nat) (d : Dev) : Dev :=
  let c := d.rd (Reg.EQ_CTRL p)
  if bit c 31 ∧ tempMoved d.dieQ (d.port p).eqTemp (fld c 0 6 + 1) ∧ d.linkState p ≠ 0 then d.eqCal p else d

/-- A deferred request runs once the link is UP and no calibration runs (R92). -/
def eqDeferredRun (p : Nat) (d : Dev) : Dev :=
  if (d.port p).eqDeferred ∧ d.linkState p = 5 ∧ !d.on (Reg.PORT_STATUS p) 5 then
    (d.setPort p { d.port p with eqDeferred := false }).eqCal p
  else d

/-- The nominated boundary at the present REF_IN edge (R91), if it is one: in subclass 1 an LEMC boundary that coincides with a SYSREF edge; in subclass 0 an LEMC boundary within the present period. Its device time, and the number of the extended multiblock that begins there. -/
def Dev.nominated (d : Dev) (p : Nat) : Option (Nat × Nat) :=
  let ws := d.portForce p
  let x := d.port p
  let n := embSamples ws * portDiv ws
  if d.linkState p ≠ 5 then none
  else if subclass1 ws then
    let k := (d.tb.edges - x.anchorEdge) * portMul ws
    if d.sysrefEdge p ∧ n ≠ 0 ∧ k % n = 0 then some (d.outEdge (4 + p) (d.outIndex (4 + p)), k / n) else none
  else
    let one := d.convTime ws (embSamples ws)
    let k := if one = 0 then 0 else (d.up - x.anchorUp) / one
    let b := x.anchorUp + d.convTime ws (k * embSamples ws)
    if x.anchorUp ≤ d.up ∧ d.up < b + d.periods 1 then some (b + d.tb.jump, k) else none

/-- A setup switch takes effect on a port at a boundary: it has at this edge, or a committed one is due by then (R92). -/
def Dev.switchAt (d : Dev) (p b : Nat) : Bool :=
  decide ((d.port p).switchEdge = some d.tb.edges) || (match d.dueGroup (48 + p) with | some (g, _) => decide (g.teff ≤ b) | none => false)

/-- A calibration ends at an instant (R91). -/
def Dev.eqEnd (d : Dev) (p t : Nat) : Dev :=
  let d := (d.clrB (Reg.PORT_STATUS p) 5).add (Reg.EQ_CAL_COUNT p) 1
  let d := d.wr64 (Reg.EQ_CAL_TIME_LO p) (Reg.EQ_CAL_TIME_HI p) (shortTime t)
  (d.setPort p { d.port p with eqAdapted := false, eqPass := [] }).portEvent p 2

/-- Adaptation ends with the eye width of each logical lane (R91). -/
def eqAdaptEnd (p : Nat) (eyes : List Nat) (d : Dev) : Dev :=
  if d.on (Reg.PORT_STATUS p) 5 ∧ !(d.port p).eqAdapted then
    let n := portL (d.portForce p)
    let emin := d.f (Reg.EQ_CTRL p) 16 10
    let pass := (List.range n).filter fun i => emin ≤ nth eyes i 0
    let d := if pass.length < n then d.sqBit (Reg.PORT_STATUS p) 13 else d
    let d := d.setPort p { d.port p with eqAdapted := true, eqAt := d.up, eqEyes := eyes, eqPass := pass }
    if pass.isEmpty then d.eqEnd p d.now else d
  else d

/-- EQ_QUALITY: the smallest eye width of the live slices, and its logical lane (R98). -/
def Dev.eqQuality (d : Dev) (p : Nat) : Dev :=
  let n := portL (d.portForce p)
  let best := (List.range n).foldl (fun a i =>
    let v := d.f (Reg.LANE_EYE p i) 0 10
    if v < a.1 then (v, i) else a) (1024, 0)
  d.wrN (Reg.EQ_QUALITY p) (best.1 % 1024 * 65536 + best.2)

/-- A valid equaliser code with the given upper bits (R98). -/
def eqCode (hi : Nat) : Word := BitVec.ofNat 32 (hi % 2 ^ 28 * 16 + Config.eqCheck (hi % 2 ^ 28) % 16)

/-- The check bits of an equaliser code hold (R98); the factory code, which reads back, is valid (log entry 30). -/
def eqCodeOk (p lane : Nat) (v : Word) : Bool := v == eqCode (v.toNat / 16) || v == regReset (Reg.LANE_EQ p lane)

/-- At the nominated boundary, at least 2 µs after adaptation ended and with no setup switch of the port there, the slices that passed go live and the calibration ends (R91, R92); the upper bits of an adapted slice's code are free (R98). -/
def eqSwap (p : Nat) (d : Dev) : Dev :=
  let x := d.port p
  match d.nominated p with
  | none => d
  | some (b, j) =>
    if x.eqAdapted ∧ elapsedNs x.eqAt (b - d.tb.jump) 2000 ∧ !d.switchAt p b then
      let d := x.eqPass.foldl (fun d i =>
        let y := d.port p
        let d := d.setPort p { y with
          eqPrev := y.eqPrev.set (fun _ => none) i (some (d.f (Reg.LANE_EYE p i) 0 10, d.rd (Reg.LANE_EQ p i))) }
        let d := d.wrN (Reg.LANE_EYE p i) (nth x.eqEyes i 0 % 1024)
        (d.wr (Reg.LANE_EQ p i) (eqCode (Config.freeWord d.fresh).toNat)).draw) d
      let d := (d.setPort p { d.port p with eqFresh := x.eqPass, eqEmb := j }).eqQuality p
      d.eqEnd p b
    else d

/-- After a CRC error in the multiblock after a swap, the lane reverts to its previous slice at the next nominated boundary (R92). -/
def eqRevert (p lane : Nat) (d : Dev) : Dev :=
  let x := d.port p
  if lane ∈ x.eqRevert ∧ (d.nominated p).isSome then
    match x.eqPrev.get (fun _ => none) lane with
    | some (eye, code) =>
      let d := (d.wrN (Reg.LANE_EYE p lane) eye).wr (Reg.LANE_EQ p lane) code
      let d := d.setPort p { x with eqRevert := x.eqRevert.filter (· ≠ lane), eqPrev := x.eqPrev.set (fun _ => none) lane none }
      ((d.setB (Reg.PORT_STATUS p) 12).eqQuality p).portEvent p 2
    | none => d
  else d

/-- A write to LANE_EQ_i (R98): a code whose check fails is discarded with LOST; a valid one is staged. -/
def laneEqWrite (p lane : Nat) (data : Word) (d : Dev) : Dev :=
  if eqCodeOk p lane data then
    d.setPort p { d.port p with eqStaged := (d.port p).eqStaged.set (fun _ => none) lane (some data) }
  else d.writeFault (2 + p) 14

/-- A staged code takes effect at the next nominated boundary (R98). -/
def laneEqApply (p lane : Nat) (d : Dev) : Dev :=
  match (d.port p).eqStaged.get (fun _ => none) lane with
  | some c =>
    if (d.nominated p).isSome then
      (d.setPort p { d.port p with eqStaged := (d.port p).eqStaged.set (fun _ => none) lane none }).wr (Reg.LANE_EQ p lane) c
    else d
  | none => d

/-- The equaliser slices are the physical lanes': with a new LANE_MAP, codes and eye widths go with them (R71, R91). -/
def Dev.eqRemap (d : Dev) (p : Nat) (old new : List Word128) : Dev :=
  let reset := fun i => (0, regReset (Reg.LANE_EQ p i))
  let x := d.port p
  let idle := (List.range (if old.isEmpty then 0 else portL old)).foldl (fun (t : Tab (Nat × Word)) i =>
    t.set reset (laneMap old i) (d.f (Reg.LANE_EYE p i) 0 10, d.rd (Reg.LANE_EQ p i))) x.eqIdle
  let d := (List.range 24).foldl (fun d i =>
    let v := if i < portL new then idle.get reset (laneMap new i) else reset i
    (d.wrN (Reg.LANE_EYE p i) v.1).wr (Reg.LANE_EQ p i) v.2) d
  d.setPort p { d.port p with eqIdle := idle, eqPrev := [], eqFresh := [], eqRevert := [], eqAdapted := false }

/-! ### Setup switch of a port (R86, R88, R93, R374) -/

/-- The DDC fields of a slot word whose change gives a settling span (R88): DEC, PHASE_MODE, FTW, PHASE_OFS. -/
def ddcFields (w : Word128) : Nat := fld w 56 70

/-- The instant at which the streams of a port switch (R88, R374): the tag of the first stream sample at or after T_eff. -/
def Dev.switchTag (d : Dev) (p teff : Nat) : Nat :=
  let x := (d.port p).ser
  if (d.port p).live then x.time (x.firstAt teff) else teff

/-- The settling span of a DDC switch of a committed group, at the new DEC (R88). -/
def Dev.switchSpan (d : Dev) (s teff : Nat) (new : List Word128) : List (Nat × Nat) :=
  let gd := d.streamTime s (groupDelay (slotDec new (s % 8)))
  let t := d.switchTag (s / 8) teff
  [(t - gd, t + gd)]

/-- The settling spans that bear on a stream's outputs: those recorded, that of a running loss, and that of a committed port setup that changes its DDC (R88). -/
def Dev.settleSpans (d : Dev) (s : Nat) : List (Nat × Nat) :=
  let x := d.stream s
  let old := d.portForce (s / 8)
  x.settle
    ++ (match x.gapFrom, d.nextTag (s / 8) with
        | some t, some n => d.gapSpan s t n
        | _, _ => [])
    ++ (match d.dueGroup (48 + s / 8) with
        | some (g, k) =>
          let new := (d.slot (48 + s / 8) k).words
          if streamSlot new (s % 8) = some (s % 8) ∧ ddcFields (wd old (3 + s % 8)) ≠ ddcFields (wd new (3 + s % 8))
          then d.switchSpan s g.teff new else []
        | none => [])

/-- The output with a tag has left the DDC (R88, R89): the inputs up to the tag plus the group delay have arrived, or a committed port setup stands before them. -/
def Dev.ddcOut (d : Dev) (s t : Nat) : Bool :=
  match d.nextTag (s / 8) with
  | none => true
  | some n => Decidable.decide (t + d.ddcDelay s < n)
      || (match d.dueGroup (48 + s / 8) with
          | some (g, _) => Decidable.decide (g.teff ≤ n)
          | none => false)

/-- The stream's width or first slot changes, or it starts (R108). -/
def streamMoved (old new : List Word128) (k : Nat) : Bool :=
  old.isEmpty || slotStarts old k ≠ slotStarts new k || portW old ≠ portW new

/-- The stream is another one for its capture ring: its width, first slot, form or rate changes (R454). -/
def streamRemade (old new : List Word128) (k : Nat) : Bool :=
  streamMoved old new k || portReal old ≠ portReal new || portMul old ≠ portMul new || portDiv old ≠ portDiv new

/-- One slot of a port takes its new slot word, the port's series standing at t_sw: a new stream starts, an ended one stops, a changed DDC takes its NCO phase and leaves a settling span, and a changed DEC restarts the chain (R76, R86, R88). -/
def Dev.slotSwitch (d : Dev) (p k tsw : Nat) (sw : Switch) : Dev :=
  let s := 8 * p + k
  let x := d.stream s
  let y := d.port p
  let old := wd sw.old (3 + k)
  let new := wd sw.new (3 + k)
  let gd := d.streamTime s (groupDelay (fld new 121 5))
  let span := if sw.old.isEmpty ∨ ddcFields old = ddcFields new then [] else [(tsw - gd, tsw + gd)]
  if streamSlot sw.new k ≠ some k then d.setStream s {}
  else if streamMoved sw.old sw.new k then
    let d := d.setStream s { on := true, settle := x.settle ++ span, zeroFrom := tsw
                             gapFrom := if x.gapFrom.isSome then x.gapFrom else if y.open_ ∧ y.live then some tsw else none
                             gapCause := if x.gapFrom.isSome then x.gapCause else y.cause }
    if y.live then d.beginStream s y.pos else d
  else
    let restart := decide (fld old 121 5 ≠ fld new 121 5)
    let step := 2 ^ fld new 121 5
    let skip := if restart then 0 else (step - x.phase % step) % step
    let x := { x with settle := x.settle ++ span, td := {}
                      phase := if restart then 0 else x.phase
                      nco := if span.isEmpty then x.nco else ncoStart new skip x.nco }
    let d := d.setStream s x
    if x.live ∧ restart then d.markStream s y.pos else d

/-- A committed port setup reaches its boundary (R374): words 0 to 2 at T_eff, slot words where the samples before T_eff have all passed. -/
def Dev.portDue (d : Dev) (p : Nat) : Bool :=
  match d.dueGroup (48 + p) with
  | none => false
  | some (g, k) =>
    let old := d.portForce p
    let past := decide (g.teff ≤ d.now)
    if old.take 3 ≠ (d.slot (48 + p) k).words.take 3 then past
    else (d.port p).held.isSome || (match d.nextTag p with | some t => decide (g.teff ≤ t) | none => past)

/-- Words 0 to 2 change at T_eff (R93): the link restarts there, with the zero-fill before it at the old rate and after it at the new one, and the slices follow LANE_MAP. -/
def Dev.linkSwitch (d : Dev) (p : Nat) (old new : List Word128) (teff : Nat) : Dev :=
  let x := d.port p
  let d := if portReal old = portReal new ∧ portMul old = portMul new ∧ portDiv old = portDiv new then d
    else d.setPort p { x with ser := d.seriesFrom new (max teff (x.ser.time x.pos)) 0, pos := 0, bads := [] }
  let d := if wd old 1 = wd new 1 ∧ portL old = portL new then d else d.eqRemap p old new
  d.setPort p { d.port p with emb := 0 }

/-- A committed port setup takes effect (R374): slot words at each stream's first sample, words 0 to 2 by a link restart (R93); a first setup starts bring-up (R100). The switch is given for what else depends on it, and what the capture writer takes of the samples that waited. -/
def portSwitch (p : Nat) (u : Nat → TdRule) (d : Dev) : Dev × Option (Switch × List CapTake) :=
  let d := d.fillNow p
  if !d.portDue p then (d, none)
  else
    let old := d.portForce p
    let h := (d.port p).held
    let new := match d.dueGroup (48 + p) with | some (_, k) => (d.slot (48 + p) k).words | none => []
    let link := decide (old.take 3 ≠ new.take 3)
    let teff := match d.dueGroup (48 + p) with | some (g, _) => g.teff | none => 0
    let d := if old.isEmpty ∨ !link then d
      else
        let d := d.linkFault p 0x16 0x1F 1
        if (d.port p).live then d.fillPort p ((d.port p).ser.firstAt teff) else d
    match d.takeSwitch (48 + p) with
    | none => (d, none)
    | some (sw, d) =>
      let tsw := d.switchTag p sw.teff
      let moved := link && !(portReal old == portReal new && portMul old == portMul new && portDiv old == portDiv new)
      let d := if old.isEmpty then (d.eqRemap p old new).setLink p 1 0 else if link then d.linkSwitch p old new sw.teff else d
      let d := (List.range 8).foldl (fun d k => d.slotSwitch p k tsw sw) d
      let d := if moved ∧ (d.port p).live then (d.portStreams p).foldl (fun d s => d.markStream s (d.port p).pos) d else d
      let d := d.setPort p { d.port p with held := none, switchEdge := some d.tb.edges }
      match h with
      | some x => if link then (d, some (sw, [])) else let r := d.portTake p x.upto x u; (r.1, some (sw, r.2))
      | none => (d, some (sw, []))

/-- PERIOD is committed with a set (R51): the stream samples still to come are spaced by it (R84). -/
def Dev.portsPeriod (d : Dev) : Dev :=
  (List.range 6).foldl (fun d p =>
    let x := d.port p
    if !x.live then d
    else
      let d := d.setPort p { x with ser := d.seriesFrom (d.portForce p) (x.ser.time x.pos) x.pos }
      (d.portStreams p).foldl (fun d s => if (d.stream s).live then d.markStream s x.pos else d) d) d

end Sys2Proof.Machine
end

