-- ==== Sys2Proof/Machine/Capture.lean ====
section
/-! DEFINITION. Capture rings, extractors, stream windows' feeders and block movers (chapter Memory and the Capture Rings; R319 to R325). -/
namespace Sys2Proof.Machine

/-! ### Rings (R453 to R455) -/

def Dev.ring (d : Dev) (s : Nat) : RingSt := d.rings.get (fun _ => {}) s
def Dev.setRing (d : Dev) (s : Nat) (x : RingSt) : Dev := { d with rings := d.rings.set (fun _ => {}) s x }

/-- The ring's length in bytes. -/
def Dev.ringLen (d : Dev) (s : Nat) : Nat := d.f (Reg.RLEN s) 0 20 * 65536

/-- RBASE of a ring. -/
def Dev.ringAt (d : Dev) (s : Nat) : Nat := d.n64 (Reg.RBASE_LO s) (Reg.RBASE_HI s)

/-- The tag of sample `i` of a ring (R454). -/
def Dev.ringTag (d : Dev) (s : Nat) (i : Int) : Nat :=
  let r := (d.ring s).tagged.getD (0, 0)
  if (r.2 : Int) ≤ i then r.1 + d.streamTime s (i - r.2).toNat else r.1 - d.streamTime s (r.2 - i).toNat

/-- The index of the oldest sample held. -/
def RingSt.oldest (x : RingSt) : Nat :=
  match x.runs with
  | r :: _ => r.idx
  | [] => x.idx

/-- A run without what lies at offsets from lo to hi. -/
def Run.cut (lo hi : Nat) (r : Run) : List Run :=
  let stop := r.off + 4 * r.n
  let a : List Run := if r.off < lo then [⟨r.off, r.idx, (min stop lo - r.off) / 4⟩] else []
  let b : List Run := if hi < stop then [⟨max r.off hi, r.idx + (max r.off hi - r.off) / 4, (stop - max r.off hi) / 4⟩] else []
  if hi ≤ r.off ∨ stop ≤ lo then [r] else a ++ b

/-- Runs with one more piece at their end. -/
def addRun (r : Run) : List Run → List Run
  | [] => [r]
  | [p] => if p.off + 4 * p.n = r.off ∧ p.idx + p.n = r.idx then [⟨p.off, p.idx, p.n + r.n⟩] else [p, r]
  | p :: l => p :: addRun r l

/-- Spans with one more at their end. -/
def addSpan (s : Nat × Nat × Nat) : List (Nat × Nat × Nat) → List (Nat × Nat × Nat)
  | [] => [s]
  | [p] => if p.2.1 = s.1 ∧ p.2.2 = s.2.2 then [(p.1, s.2.1, p.2.2)] else [p, s]
  | p :: l => p :: addSpan s l

/-- Spans with one more at its place in their order. -/
def insertSpan (s : Nat × Nat × Nat) : List (Nat × Nat × Nat) → List (Nat × Nat × Nat)
  | [] => [s]
  | p :: l => if s.1 ≤ p.1 then s :: p :: l else p :: insertSpan s l

/-- Spans wholly older than the oldest sample go; of more than 256 the oldest goes, and OLDEST moves past it (R455). -/
def RingSt.trim (x : RingSt) : RingSt :=
  let x := { x with spans := x.spans.filter fun s => decide (x.oldest < s.2.1) }
  if x.spans.length ≤ 256 then x
  else
    match x.spans with
    | s :: l =>
      let runs := x.runs.filterMap fun r =>
        if s.2.1 ≤ r.idx then some r
        else if r.idx + r.n ≤ s.2.1 then none
        else some ⟨r.off + 4 * (s.2.1 - r.idx), s.2.1, r.idx + r.n - s.2.1⟩
      { x with spans := l, runs := runs }
    | [] => x

/-- The writer moves over n samples that lie together: they are held, or a lost span of a cause. -/
def RingSt.advance (x : RingSt) (n : Nat) (lost : Option Nat) : RingSt :=
  if n = 0 then x else
  let runs := x.runs.flatMap fun r => r.cut x.wp (x.wp + 4 * n)
  let y : RingSt := match lost with
    | none => { x with runs := addRun ⟨x.wp, x.idx, n⟩ runs }
    | some c => { x with runs := runs, spans := addSpan (x.idx, x.idx + n, c) x.spans }
  ({ y with idx := x.idx + n, wp := x.wp + 4 * n }).trim

/-- The ring offset of a sample: where it is held, or where the writer stands for one not yet written. -/
def RingSt.offset (x : RingSt) (i : Int) : Nat :=
  match x.runs.find? fun r => decide ((r.idx : Int) ≤ i) && decide (i < (r.idx : Int) + r.n) with
  | some r => r.off + 4 * (i - r.idx).toNat
  | none => if (x.idx : Int) ≤ i then x.wp else 0

/-- The samples the readers of a ring stand at: running extractions and capture windows (R456). -/
def Dev.readers (d : Dev) (s : Nat) : List Int :=
  (d.cxs.filterMap fun e => e.2.bind fun x => if x.stream = s then some x.pos else none)
    ++ (List.range 128).filterMap fun k =>
      let w := winWord (d.clForce (k / 16)) (k % 16)
      if bit w 127 ∧ fld w 125 2 = 1 ∧ fld w 109 16 = 0x1000 + s then (d.clWin (k / 16) (k % 16)).at_ else none

/-- The registers that show a ring (R462). -/
def Dev.showRing (d : Dev) (s : Nat) : Dev :=
  let x := d.ring s
  let d := d.wrN (Reg.RLEN_PEND s) (match x.pend with | some l => 2 ^ 31 + l | none => 0)
  let d := (d.wrN (Reg.RING_WP s) (x.wp / 16)).wrN (Reg.SPANS s) x.spans.length
  let d := if x.tagged.isNone then d else
    (d.wr64 (Reg.TWP_LO s) (Reg.TWP_HI s) (shortTime (d.ringTag s x.idx))).wr64 (Reg.OLDEST_LO s) (Reg.OLDEST_HI s) (shortTime (d.ringTag s x.oldest))
  d.putB Reg.CAP_STATUS 0 (d.rings.any fun r => r.2.pend.isSome)

/-- The pending shorter length takes effect: what lies at or beyond it is discarded, and writing continues at offset 0 (R456). A ring of length 0 is off, and holds nothing. -/
def Dev.shorten (d : Dev) (s l : Nat) : Dev :=
  let x := d.ring s
  let runs := x.runs.flatMap fun r => r.cut (l * 65536) (l * 65536 + 2 ^ 36)
  let x := if l = 0 then {} else ({ x with pend := none, wp := 0, runs := runs }).trim
  (((d.setRing s x).wrN (Reg.RLEN s) l).sqEvent Reg.CAP_STATUS 2 1514).showRing s

/-- The writer stands at the pending length, and every reader below it (R456). -/
def Dev.shortenDue (d : Dev) (s : Nat) : Option Nat :=
  let x := d.ring s
  match x.pend with
  | some l => if x.wp = l * 65536 ∧ (d.readers s).all (fun i => decide (x.offset i < l * 65536)) then some l else none
  | none => none

/-- Before the next sample: the writer turns at the end, and a pending length that is due takes effect. -/
def Dev.ringTurn (d : Dev) (s : Nat) : Dev :=
  let d := if d.ringLen s ≤ (d.ring s).wp then d.setRing s { d.ring s with wp := 0 } else d
  match d.shortenDue s with
  | some l => d.shorten s l
  | none => d

/-- Samples the writer may place before its next turn. -/
def Dev.ringSpace (d : Dev) (s : Nat) : Nat :=
  let x := d.ring s
  let stop := match x.pend with
    | some l => if x.wp < l * 65536 then l * 65536 else d.ringLen s
    | none => d.ringLen s
  (stop - x.wp) / 4

/-- A lost span of n samples, by fuel (R455). -/
def ringLose (s cause : Nat) : Nat → Nat → Dev → Dev
  | 0, _, d => d
  | k + 1, n, d =>
    if n = 0 then d
    else
      let d := d.ringTurn s
      let m := min n (d.ringSpace s)
      if m = 0 then d else ringLose s cause k (n - m) (d.setRing s ((d.ring s).advance m (some cause)))

/-- A lost span of any length: whole turns of the ring beyond two leave nothing held but the span. -/
def Dev.ringLost (d : Dev) (s cause n : Nat) : Dev :=
  let turn := d.ringLen s / 4
  if turn = 0 ∨ n = 0 then d
  else
    let skip := if n < 2 * turn then 0 else (n / turn - 1) * turn
    let x := d.ring s
    let d := if skip = 0 then d else d.setRing s { x with idx := x.idx + skip, runs := [], spans := addSpan (x.idx, x.idx + skip, cause) (x.spans.filter fun p => p.2.1 = x.idx) }
    ringLose s cause 16 (n - skip) d

/-- The four bytes of a sample, from the top of its place in a ring word down (R453). -/
def sampleBytes (v : Int × Int) : List Byte := bytesBE 2 (wrapU 16 v.1) ++ bytesBE 2 (wrapU 16 v.2)

/-- Of n samples from ring offset o, those that lie together in memory, and the place of their lowest byte: sample 0 of a ring word lies in its top bits, so at the highest addresses of its 16 bytes (R342, R453). -/
def ringPiece (o n : Nat) : Nat × Nat :=
  if o % 16 ≠ 0 ∨ n < 4 then
    let m := min n ((16 - o % 16) / 4)
    (m, o / 16 * 16 + 16 - o % 16 - 4 * m)
  else (n / 4 * 4, o)

/-- Bytes of a piece between the order of samples and the order of addresses. -/
def ringFlip (l : List Byte) : List Byte := (chunks 16 l).flatMap List.reverse

/-- CAP_LOST grows (R455, R462). -/
def Dev.capLost (d : Dev) (s n : Nat) : Dev :=
  if n = 0 then d else (d.addSat (Reg.CAP_LOST s) n).sqEvent Reg.CAP_STATUS 1 1513

/-- Of m samples that lie together from an address, those of the first and of the last unit where these are among the units a write could not change (R439). -/
def badEnds (bad : List Nat) (a m : Nat) : Nat × Nat :=
  let last := (a + 4 * m - 1) / 32
  let n := fun (u : Nat) => if bad.contains u then (min (a + 4 * m) (32 * u + 32) - max a (32 * u)) / 4 else 0
  (n (a / 32), if last = a / 32 then 0 else n last)

/-- The capture writer stores samples, by fuel (R453); those a window refuses, or that a part of an uncorrectable unit would take, are lost (R439, R455). -/
def ringStore (s : Nat) : Nat → List (Int × Int) → Sys → Sys
  | 0, _, y => y
  | k + 1, l, y =>
    if l.isEmpty then y
    else
      let d := y.dev.ringTurn s
      let m := min l.length (d.ringSpace s)
      if m = 0 then { y with dev := d }
      else
        let piece := ringPiece (d.ring s).wp m
        let m := piece.1
        let a := d.ringAt s + piece.2
        let p := badEnds (d.ueEdges a (4 * m)) a m
        let q := memWrite (BitVec.ofNat 10 (0x1C0 + s / 8)) (s / 8) a (ringFlip ((l.take m).flatMap sampleBytes)) { y with dev := d }
        let y := match q.2 with
          | .denied => q.1.on fun d => (d.setRing s ((d.ring s).advance m (some 0x46))).capLost s m
          | _ => q.1.on fun d =>
            (d.setRing s ((((d.ring s).advance p.1 (some 0x46)).advance (m - p.1 - p.2) none).advance p.2 (some 0x46))).capLost s (p.1 + p.2)
        ringStore s k (l.drop m) y

/-- SHED_CAP of a stream (R419, R432). -/
def Dev.shedCap (d : Dev) (s : Nat) : Bool := if s < 32 then d.on Reg.SHED_CAP_LO s else d.on Reg.SHED_CAP_HI (s - 32)

/-- The capture writer has stopped for a sample with a tag: its stream is shed then, with SHED_CAP set (R419, R420). -/
def Dev.capShed (d : Dev) (s t : Nat) : Bool :=
  let x := d.stream s
  d.shedCap s && decide (x.shedAt ≤ t) && (x.shed || decide (t < x.shedEnd))

/-- A ring follows the tags of its stream up to one: the samples between are a lost span of a cause (R95, R453, R455). -/
def Dev.ringCatch (d : Dev) (s first cause : Nat) : Dev :=
  match (d.ring s).tagged with
  | none => d.setRing s { d.ring s with tagged := some (first, (d.ring s).idx) }
  | some _ => d.ringLost s cause (d.samplesIn s (first - d.ringTag s (d.ring s).idx))

/-- Maximal runs of samples of one cause. -/
def causeRuns : List (Int × Int × Nat) → List (Nat × List (Int × Int))
  | [] => []
  | v :: l =>
    match causeRuns l with
    | (c, r) :: t => if c = v.2.2 then (c, (v.1, v.2.1) :: r) :: t else (v.2.2, [(v.1, v.2.1)]) :: (c, r) :: t
    | [] => [(v.2.2, [(v.1, v.2.1)])]

/-- The capture writer takes what a port hands it of a stream (R90, R453): lost samples, and those for which it has stopped, are lost spans (R455). The samples between the ring and these are an outage's. -/
def capture (cause : Nat) (p : CapTake) (y : Sys) : Sys :=
  let s := p.1
  let d := y.dev
  let l := p.2.2
  if d.ringLen s = 0 ∨ l.isEmpty then y
  else
    let first := p.2.1 - d.streamTime s l.length
    let l := (List.range l.length).map fun i =>
      let v := nth l i (0, 0, 0)
      if d.capShed s (first + d.streamTime s i) then (v.1, v.2.1, 0x24) else v
    let y := { y with dev := d.ringCatch s first cause }
    let y := (causeRuns l).foldl (fun y r => if r.1 = 0 then ringStore s (r.2.length / 4096 + 16) r.2 y else y.on fun d => d.ringLost s r.1 r.2.length) y
    y.on fun d => (d.setRing s { d.ring s with tagged := some (p.2.1, (d.ring s).idx) }).showRing s

/-- What a port handed over in one release (R453), with the cause of the outage before it. -/
def captureAll (cause : Nat) (l : List CapTake) (y : Sys) : Sys := l.foldl (fun y p => capture cause p y) y

/-- In an outage the rings of a port's streams go on with the zero-fill that the port has supplied (R95, R453, R455). -/
def Dev.ringsFill (d : Dev) (p : Nat) : Dev :=
  match d.nextTag p with
  | none => d
  | some t => (d.portStreams p).foldl (fun d s =>
      if d.ringLen s = 0 ∨ (d.ring s).tagged.isNone ∨ (d.stream s).gapFrom.isNone then d else (d.ringCatch s t (d.port p).cause).showRing s) d

/-- A port switch that remakes a stream restarts its ring empty (R454). -/
def Dev.ringRestart (d : Dev) (s : Nat) : Dev :=
  (d.setRing s { pend := (d.ring s).pend }).showRing s

/-! ### Lengths (R456, R457) -/

/-- A write to RLEN (R456): a longer ring at once, a shorter one pending. -/
def rlenWrite (s : Nat) (v : Word) (d : Dev) : Dev :=
  let l := fld v 0 20
  let x := d.ring s
  if d.f (Reg.RLEN s) 0 20 ≤ l then ((d.setRing s { x with pend := none }).wrN (Reg.RLEN s) l).showRing s
  else (d.setRing s { x with pend := some l }).showRing s

/-- The pending length takes effect where the writer stands (R456). -/
def rlenTake (s : Nat) (d : Dev) : Dev :=
  match d.shortenDue s with
  | some l => d.shorten s l
  | none => d

/-- The COND flag of a record of samples from an instant on (R22, R25, R459). -/
def Dev.capCond (d : Dev) (s t0 : Nat) : Bool := d.cond t0 || d.portCond (s / 8) t0

/-- A valid FIRE of RLEN_FORCE (R457): everything at or beyond the new length is discarded at once; what was newer than data still held is a hole, with one GAP record. -/
def rlenForce (v : Word) (d : Dev) : Guarded :=
  let s := fld v 20 6
  let l := fld v 0 20
  if 48 ≤ s then .refused
  else
    let x := d.ring s
    let gone : List Run := x.runs.flatMap fun r => r.cut 0 (l * 65536)
    let kept : List Run := x.runs.flatMap fun r => r.cut (l * 65536) (l * 65536 + 2 ^ 36)
    let base : Nat := match kept with | r :: _ => r.idx | [] => x.idx
    let holes : List Run := gone.filter fun r => base < r.idx
    let y : RingSt := if l = 0 then {} else {
      x with
      runs := kept, pend := none, wp := if l * 65536 ≤ x.wp then 0 else x.wp
      spans := holes.foldl (fun t r => insertSpan (r.idx, r.idx + r.n, 0x48) t) x.spans }
    let d1 := ((d.setRing s y.trim).wrN (Reg.RLEN s) l).sqEvent Reg.CAP_STATUS 2 1514
    let d2 := match holes with
      | [] => d1
      | _ :: _ =>
        let at_ : Int := if l * 65536 ≤ x.wp then x.idx - ((x.wp - l * 65536) / 4 : Nat) else x.idx - ((x.wp + d.ringLen s - l * 65536) / 4 : Nat)
        let t0 := d.timeWord 0 false (d.ringTag s at_)
        let n := holes.foldl (fun (a : Nat) (r : Run) => a + r.n) 0
        let hdr : Hdr := { typ := 0x09, src := 0x1000 + s, flags := b2n (d.capCond s d.now) * 128, slot := d.slotOf (48 + s / 8), sw := d.swOf (48 + s / 8), time := d.timeWord 0 false d.now }
        d1.emit s hdr (gapPayload 0x48 1 n t0 (d.timeWord 0 false d.now))
    .take (d2.showRing s)

/-! ### Extraction (R458 to R460) -/

def Dev.cx (d : Dev) (x : Nat) : Option Extract := d.cxs.get (fun _ => none) x
def Dev.setCx (d : Dev) (x : Nat) (e : Option Extract) : Dev := { d with cxs := d.cxs.set (fun _ => none) x e }

/-- The first sample of a ring tagged at or after an instant. -/
def Dev.ringIdx (d : Dev) (s t : Nat) : Int :=
  let r := (d.ring s).tagged.getD (t, 0)
  let one := d.streamTime s 1048576
  if one = 0 then 0
  else
    let k : Int := r.2 + ((t : Int) - r.1) * 1048576 / one
    let ok := fun (i : Int) => decide (t ≤ d.ringTag s i)
    if ok (k - 1) then k - 1 else if ok k then k else if ok (k + 1) then k + 1 else k + 2

/-- An extraction starts with its reference time (R458); a start while busy is counted in CX_MISSES. -/
def Dev.cxBegin (d : Dev) (x tref : Nat) : Dev :=
  if (d.cx x).isSome then d.addSat (Reg.CX_MISSES x) 1
  else
    let s := d.f (Reg.CX_CFG x) 16 6
    if 48 ≤ s then d
    else
      let a := d.ringIdx s tref - (d.f (Reg.CX_PRE x) 0 24 : Int)
      let n := d.f (Reg.CX_PRE x) 0 24 + max 1 (d.f (Reg.CX_POST x) 0 24)
      let d := d.setCx x (some { stream := s, first := a, pos := a, stop := a + n, since := d.now })
      (d.wrN (Reg.CX_RESULT x) 1).wrN (Reg.CX_PROGRESS x) 0

/-- CAP_CMD START (R458). -/
def cxStart (x : Nat) (d : Dev) : Dev :=
  if d.on (Reg.CX_CFG x) 31 then d.cxBegin x (ofShort (d.n64 (Reg.CX_AT_LO x) (Reg.CX_AT_HI x))) else d

/-- Pulses that reached the fabric start the extractors whose source they are (R458). -/
def Dev.cxPulses (d : Dev) (l : List Pulse) : Dev :=
  l.foldl (fun d p => (List.range 16).foldl (fun d x =>
    if d.on (Reg.CX_CFG x) 31 ∧ d.f (Reg.CX_CFG x) 0 9 ≠ 0 ∧ d.f (Reg.CX_CFG x) 0 9 = p.code then d.cxBegin x p.cause else d) d) d

/-- An extraction ends with a result: 1 COMPLETE, 2 ABORTED (R458, R460). -/
def Dev.cxEnd (d : Dev) (x result : Nat) : Dev :=
  let d := ((d.setCx x none).wrN (Reg.CX_RESULT x) (result * 2 ^ 28)).add (Reg.CX_COUNT x) 1
  let d := if d.on (Reg.CX_CFG x) 30 then d else d.clrB (Reg.CX_CFG x) 31
  d.raise (1184 + x)

/-- The header of a stream's record in the capture path (R459). -/
def Dev.capHdr (d : Dev) (s typ : Nat) (cont : Bool) (t t0 : Nat) : Hdr :=
  { typ := typ, src := 0x1000 + s, flags := b2n cont * 32 + b2n (d.capCond s t0) * 128, slot := d.slotOf (48 + s / 8)
    sw := d.swOf (48 + s / 8), time := d.timeWord 0 false t }

/-- Word 2 of a CAPTURE record (R459). -/
def Dev.capWord2 (d : Dev) (s n count x : Nat) : Word128 :=
  let ws := d.portForce (s / 8)
  packBE 128 [(n, 13), (s, 6), (fld (wd ws 0) 76 2, 2), (b2n (portReal ws), 1), (b2n (bit (wd ws (3 + s % 8)) 126), 1), (0, 9), (count, 32), (x, 4), (0, 60)]

/-- The data words of samples, zeros filling the last word (R453, R459). -/
def capData (l : List Byte) : List Word128 := (chunks 16 l).map fun c => BitVec.ofNat 128 (natBE (c ++ List.replicate (16 - c.length) 0))

/-- What a reader of a ring finds at a sample: samples lost with their cause up to an index, samples held up to an index, or samples still to come. -/
inductive Found where
  | lost (cause : Nat) (upto : Int)
  | data (upto : Int)
  | await
deriving DecidableEq, Repr

/-- What stands in a ring from a sample on (R455, R458): older than OLDEST is CAP_EXPIRED, a lost span has its own cause. -/
def RingSt.look (x : RingSt) (i stop : Int) : Found :=
  if (x.idx : Int) ≤ i then .await
  else
    match x.spans.find? fun s => decide ((s.1 : Int) ≤ i) && decide (i < (s.2.1 : Int)) with
    | some s => .lost s.2.2 (min stop s.2.1)
    | none =>
      match x.runs.find? fun r => decide ((r.idx : Int) ≤ i) && decide (i < (r.idx : Int) + r.n) with
      | some r => .data (min stop ((r.idx : Int) + r.n))
      | none =>
        let next := x.runs.filterMap fun r => if i < (r.idx : Int) then some (r.idx : Int) else none
        let next2 := x.spans.filterMap fun s => if i < (s.1 : Int) then some (s.1 : Int) else none
        .lost 0x46 (min stop ((next ++ next2).foldl min x.idx))

/-- The samples from i on that lie together in the ring or in the run that follows without a gap. -/
def RingSt.dataTo (x : RingSt) (stop : Int) : Nat → Int → Int
  | 0, i => i
  | k + 1, i =>
    match x.look i stop with
    | .data j => if stop ≤ j then stop else RingSt.dataTo x stop k j
    | _ => i

/-- Reads samples i to j of a ring, piece by piece, as far as no unit is uncorrectable (R439): the bytes in the order of samples, and the unit met. -/
def ringRead (who : Ini) (port s : Nat) (m : Mem) : Nat → Int → Int → Dev → Dev × List Byte × Option MemRes
  | 0, _, _, d => (d, [], none)
  | k + 1, i, j, d =>
    if j ≤ i then (d, [], none)
    else
      match (d.ring s).look i j with
      | .data e =>
        let piece := ringPiece ((d.ring s).offset i) (min (e - i) (j - i)).toNat
        let a := d.ringAt s + piece.2
        let n := 4 * piece.1
        match memRead who port a n m d with
        | (d, .ok l) =>
          let r := ringRead who port s m k (i + piece.1) j d
          (r.1, ringFlip l ++ r.2.1, r.2.2)
        | (d, .ue u) => (d, if n < 16 then [] else ringFlip (m.bytes a (32 * u - a)), some (.ue u))
        | (d, .denied) => (d, [], some .denied)
      | _ => (d, [], none)

/-- The ERROR record that stands for samples i to j that could not be read (R439, R519). -/
def Dev.ringError (d : Dev) (s : Nat) (i j : Int) (addr : Nat) (cont : Bool) : Hdr × List Word128 :=
  let t0 := d.ringTag s i
  (d.capHdr s 0x0A cont t0 t0, errPayload 0x45 1 (j - i).toNat (d.timeWord 0 false t0) (d.timeWord 0 false (d.ringTag s j)) (packBE 128 [(addr, 48), (0, 80)]))

/-- An extractor puts a record up to sample j into the region's output buffer; it delivers n samples once it is written. -/
def Dev.cxEmit (d : Dev) (x : Nat) (e : Extract) (h : Hdr) (pl : List Word128) (j : Int) (n : Nat) : Dev :=
  let p := d.form h pl
  (p.1.push e.stream p.2).setCx x (some { e with wait := some (p.2, j, n) })

/-- An extractor whose record has been written moves on, and ends there if that was its last one (R450, R458). -/
def Dev.cxWritten (d : Dev) (r : Nat) (rec0 : Rec) : Dev :=
  (List.range 16).foldl (fun d x =>
    match d.cx x with
    | some e =>
      match e.wait with
      | some (w, j, n) =>
        if e.stream = r ∧ w = rec0 then
          let d := d.add (Reg.CX_PROGRESS x) n
          if e.stop ≤ j then d.cxEnd x 1 else d.setCx x (some { e with pos := j, wait := none })
        else d
      | none => d
    | none => d) d

/-- A region's writer places its oldest record, and an extractor whose record that was takes note. -/
def regionWrite (r : Nat) (s : Sys) : Sys :=
  let t := recordWrite r s
  match s.dev.outOf r with
  | rec0 :: l => if t.dev.outOf r = l then t.on fun d => d.cxWritten r rec0 else t
  | [] => t

/-- An extractor writes its next record (R458, R459): a GAP for samples that are lost, a CAPTURE record once its 4,096 samples (or the last ones) are in the ring, an ERROR record for a unit that cannot be read. -/
def captureRecord (x : Nat) (y : Sys) : Sys :=
  let d := y.dev
  match d.cx x with
  | none => y
  | some e =>
    if e.wait.isSome then y
    else
    let s := e.stream
    let r := d.ring s
    match r.look e.pos e.stop with
    | .await => y
    | .lost cause j =>
      let t0 := d.ringTag s e.pos
      let pl := gapPayload cause 1 (j - e.pos).toNat (d.timeWord 0 false t0) (d.timeWord 0 false (d.ringTag s j))
      { y with dev := d.cxEmit x e (d.capHdr s 0x09 false t0 t0) pl j 0 }
    | .data _ =>
      let want := min e.stop (e.pos + 4096)
      let j := r.dataTo want 64 e.pos
      if j < want ∧ (r.idx : Int) ≤ j then y
      else
        let who := BitVec.ofNat 10 (0x1D0 + x)
        let q := ringRead who (s / 8) s y.mem 64 e.pos j d
        let d := q.1
        let n := q.2.1.length / 4
        let fail := fun (d : Dev) (addr : Nat) (k : Int) =>
          let z := d.ringError s e.pos k addr false
          d.cxEmit x e z.1 z.2 k 0
        if n = 0 then
          match q.2.2 with
          | some (.ue u) => { y with dev := fail d (32 * u) (min e.stop (e.pos + (32 * u + 32 - (d.ringAt s + r.offset e.pos)) / 4)) }
          | _ => { y with dev := fail d (d.ringAt s + r.offset e.pos) j }
        else
          let j := e.pos + n
          let t := d.ringTag s e.pos
          let head := [d.capWord2 s n (d.n (Reg.CX_COUNT x)) x, packBE 128 [((e.pos - e.first).toNat, 32), (0, 96)]]
          { y with dev := d.cxEmit x e (d.capHdr s 0x08 (decide (j < e.stop)) t t) (head ++ capData q.2.1) j n }

/-- A record that waits in a region's output buffer gives its place to another. -/
def Dev.swapRec (d : Dev) (r : Nat) (old new : Rec) : Dev :=
  { d with out := d.out.set (fun _ => []) r ((d.outOf r).map fun x => if x = old then new else x) }

/-- CAP_CMD CX_ABORT (R460): a running extraction is ABORTED, with one GAP for the remainder, at the place of a record not yet written; an extraction that had completed keeps COMPLETE, with ABORT_LATE. -/
def cxAbort (x : Nat) (d : Dev) : Dev :=
  match d.cx x with
  | none => if d.f (Reg.CX_RESULT x) 28 4 = 1 then d.setB (Reg.CX_RESULT x) 24 else d
  | some e =>
    let s := e.stream
    let t0 := d.ringTag s e.pos
    let pl := gapPayload 0x47 1 (e.stop - e.pos).toNat (d.timeWord 0 false t0) (d.timeWord 0 false (d.ringTag s e.stop))
    let h := d.capHdr s 0x09 false t0 t0
    match e.wait with
    | none => (d.emit s h pl).cxEnd x 2
    | some (w, _) => (d.swapRec s w (hdrWord h h.flags 5 (fld (nth w 0 0) 32 32) :: h.time :: pl)).cxEnd x 2

/-- CAP_CMD CLEAR_COUNTS (R462). -/
def capClear (x : Nat) (d : Dev) : Dev :=
  let d := (List.range 48).foldl (fun d s => d.wrN (Reg.CAP_LOST s) 0) d
  if x < 16 then d.wrN (Reg.CX_MISSES x) 0 else d

/-- A write to CX_CFG_x (R462): locked while BUSY. -/
def cxCfgWrite (i : Ini) (x : Nat) (v : Word) (d : Dev) : Dev :=
  if (d.cx x).isSome then d.lateWrite i (Reg.CX_CFG x) 4 else d.wr (Reg.CX_CFG x) (v &&& 0xC03F01FF)

/-! ### Window feeders (R319 to R321) -/

/-- The record region of a source (R33, R451). -/
def sourceRegion (src : Nat) : Option Nat :=
  let k := src / 4096
  let i := src % 4096
  if k = 1 ∧ i < 48 then some i
  else if k = 2 ∧ i < 48 then some (48 + i)
  else if k = 3 ∧ i < 16 then some (96 + i)
  else if k = 4 ∧ i < 16 then some (112 + i)
  else if k = 5 ∧ i < 128 then some (128 + i)
  else if k = 6 ∧ i = 0 then some 256
  else if k = 7 ∧ i < 2 then some (257 + i)
  else none

/-- Words into a window's ring, with its reader's position and what it delivered last. -/
def Dev.winTake (d : Dev) (c w : Nat) (r : Rec) (f : WinSt → WinSt) : Dev :=
  let d := d.winPut c w r
  let x := d.clWin c w
  d.setClWin c w (f { x with last := nth r 1 0, lastHead := nth r 0 0 })

/-- The feeder of a record-flow window fetches the next record of its source (R319, R321). -/
def feedFlow (c w rg : Nat) (y : Sys) : Sys :=
  let d := y.dev
  let g := d.rgn rg
  let cap := g.cap
  let x := d.clWin c w
  let x := if x.gen = g.gen then x else { x with gen := g.gen, pos := 0 }
  let oldest := g.total - g.held
  let who := BitVec.ofNat 10 (0x1E8 + c)
  if cap = 0 ∨ g.total ≤ x.pos then y
  else if x.pos + cap < g.total then
    let h := g.word y.mem g.cp
    if fld h 120 8 = 0 then { y with dev := d.setClWin c w { x with pos := oldest + (cap - g.cp) } }
    else
      let n := (fld h 32 32 + 2 ^ 32 - fld x.lastHead 32 32 - (if x.last = 0 then 0 else 1)) % 2 ^ 32
      let gap := winGap (if x.last = 0 then h else x.lastHead, if x.last = 0 then g.word y.mem ((g.cp + 1) % cap) else x.last, n) (g.word y.mem ((g.cp + 1) % cap))
      if d.winRoom c w 5 then
        { y with dev := (((d.setClWin c w { x with pos := oldest }).winPut c w gap).addSat (Reg.WIN_OVERRUNS c w) 1).clEvent c 6 2 }
      else y
  else
    let o := x.pos % cap
    match memRead who (10 + c) (g.base + 16 * o) 16 y.mem d with
    | (d, .ok b) =>
      let h := BitVec.ofNat 128 (natLE b)
      if fld h 120 8 = 0 then { y with dev := d.setClWin c w { x with pos := x.pos + (cap - o) } }
      else
        let n := max 2 (fld h 96 20)
        if !d.winRoom c w n then y
        else
          match memRead who (10 + c) (g.base + 16 * o) (16 * n) y.mem d with
          | (d, .ok b) => { y with dev := (d.setClWin c w { x with pos := x.pos + n }).winTake c w (words128 b) id }
          | (d, .ue u) =>
            let next := (x.pos + n) % cap
            let stop := if x.pos + n < g.total then g.word y.mem ((next + 1) % cap) else nth (words128 (y.mem.bytes (g.base + 16 * o) 32)) 1 0
            let head := put (put (put h 120 8 0x0A) 96 20 6) 64 8 0
            let rec0 := head :: x.last :: errPayload 0x45 3 1 x.last stop (packBE 128 [(32 * u, 48), (0, 80)])
            { y with dev := (d.setClWin c w { x with pos := x.pos + n }).winPut c w rec0 }
          | (d, .denied) => { y with dev := d }
    | (d, .ue u) =>
      let rec0 : Rec := put (put (put x.lastHead 120 8 0x0A) 96 20 6) 64 8 0 :: x.last :: errPayload 0x45 3 1 x.last (d.timeWord 4 false d.now) (packBE 128 [(32 * u, 48), (0, 80)])
      if d.winRoom c w 6 then { y with dev := (d.setClWin c w { x with pos := g.total }).winPut c w rec0 } else y
    | (d, .denied) => { y with dev := d }

/-- The samples of a capture window's record: 4,096, or what the window holds at once (log entry 59). -/
def winSamples (size : Nat) : Nat := min 4096 (4 * (size / 16 - 4))

/-- The feeder of a capture window forms its next CAPTURE record from the ring (R319, R321). -/
def feedCapture (c w s : Nat) (y : Sys) : Sys :=
  let d := y.dev
  let word := winWord (d.clForce c) w
  let x := d.clWin c w
  let r := d.ring s
  if r.tagged.isNone then y
  else
    let pos : Int := match x.at_ with
      | some i => i
      | none => d.ringIdx s (ofShort (fld word 23 64))
    let x := { x with at_ := some pos }
    let want := pos + winSamples (winSize word)
    let hdr := fun (typ : Nat) (t : Nat) (n : Nat) => hdrWord (d.capHdr s typ false t t) (b2n (d.capCond s t) * 128) n x.seq
    match r.look pos want with
    | .await => { y with dev := d.setClWin c w x }
    | .lost cause j =>
      let j : Int := if cause = 0x46 then j else (match (r.spans.find? fun p => decide ((p.1 : Int) ≤ pos) && decide (pos < (p.2.1 : Int))) with | some p => (p.2.1 : Int) | none => j)
      if !d.winRoom c w 5 then { y with dev := d.setClWin c w x }
      else
        let t0 := d.ringTag s pos
        let late := decide (cause = 0x46)
        let gap := hdr 0x09 t0 5 :: d.timeWord 0 false t0 :: gapPayload (if late then 0x44 else cause) 1 (j - pos).toNat (d.timeWord 0 false t0) (d.timeWord 0 false (d.ringTag s j))
        let d := (d.setClWin c w { x with at_ := some j, seq := x.seq + 1 }).winPut c w gap
        { y with dev := if late then (d.addSat (Reg.WIN_OVERRUNS c w) 1).clEvent c 6 2 else d }
    | .data _ =>
      let j := r.dataTo want 64 pos
      let n0 := (j - pos).toNat
      if (j < want ∧ (r.idx : Int) ≤ j) ∨ !d.winRoom c w (4 + (n0 + 3) / 4) then { y with dev := d.setClWin c w x }
      else
        let q := ringRead (BitVec.ofNat 10 (0x1E8 + c)) (10 + c) s y.mem 64 pos j d
        let d := q.1
        let n := q.2.1.length / 4
        let t0 := d.ringTag s pos
        if n = 0 then
          let k : Int × Nat := match q.2.2 with
            | some (.ue u) => (pos + (32 * u + 32 - (d.ringAt s + r.offset pos)) / 4, 32 * u)
            | _ => (j, d.ringAt s + r.offset pos)
          let rec0 := hdr 0x0A t0 6 :: d.timeWord 0 false t0 :: errPayload 0x45 1 (k.1 - pos).toNat (d.timeWord 0 false t0) (d.timeWord 0 false (d.ringTag s k.1)) (packBE 128 [(k.2, 48), (0, 80)])
          { y with dev := (d.setClWin c w { x with at_ := some k.1, seq := x.seq + 1 }).winPut c w rec0 }
        else
          let data := capData q.2.1
          let rec0 := hdr 0x08 t0 (4 + data.length) :: d.timeWord 0 false t0 :: d.capWord2 s n 0 0 :: (0 : Word128) :: data
          { y with dev := (d.setClWin c w { x with at_ := some (pos + n), seq := x.seq + 1 }).winPut c w rec0 }

/-- A window feeder places the next whole record in its window (R319). -/
def windowFeed (c w : Nat) (y : Sys) : Sys :=
  if 16 ≤ w then y
  else
    let word := winWord (y.dev.clForce c) w
    let src := fld word 109 16
    if !bit word 127 then y
    else if fld word 125 2 = 0 then
      match sourceRegion src with
      | some rg => feedFlow c w rg y
      | none => y
    else if fld word 125 2 = 1 then (if 0x1000 ≤ src ∧ src < 0x1030 then feedCapture c w (src - 0x1000) y else y)
    else
      let x := y.dev.clWin c w
      match x.queue with
      | r :: l => { y with dev := (y.dev.setClWin c w { x with queue := l }).winTake c w r id }
      | [] => y

/-! ### Block movers (R325) -/

/-- Words of a local range of an engine, or none where it does not lie wholly in X, Y or shared memory (R325). -/
def localRange (a n : Nat) : Option Nat :=
  if a + n ≤ 0x10000 then some 0
  else if 0x10000 ≤ a ∧ a + n ≤ 0x20000 then some 1
  else if 0x200000 ≤ a ∧ a + n ≤ 0x400000 then some 3
  else none

/-- Writes words to consecutive local addresses. -/
def Dev.localPut (d : Dev) (e : Nat) : Nat → List Word128 → Dev
  | _, [] => d
  | a, w :: l => Dev.localPut (d.engWrite e a w true) e (a + 16) l

/-- A block move ends (R325): OK, DENIED and ECC of the HBM range or of a local word read (R303), RANGE of the local one. What an ECC end has moved is not stated: a free number of words before the bad unit. -/
def blockMove (e : Nat) (y : Sys) : Sys :=
  let x := y.dev.eng e
  match x.bm with
  | none => y
  | some w =>
    let a := fld w 80 48
    let lo := fld w 56 24 / 16 * 16
    let n := 16 * (fld w 40 16 + 1)
    let who := BitVec.ofNat 10 (0x80 + e)
    let port := 10 + e / 16
    let stop := fun (d : Dev) (res : Nat) => d.setEng e { d.eng e with bm := none, bmRes := res }
    match localRange lo n with
    | none => { y with dev := stop y.dev 3 }
    | some _ =>
      if fld w 0 2 = 1 then
        match memRead who port a n y.mem y.dev with
        | (d, .ok l) => { y with dev := stop (d.localPut e lo (words128 l)) 0 }
        | (d, .denied) => { y with dev := stop d 1 }
        | (d, .ue u) =>
          let k := min (Config.freeNat d.fresh) ((32 * u - a) / 16)
          { y with dev := stop (d.draw.localPut e lo ((words128 (y.mem.bytes a n)).take k)) 2 }
      else
        let words := (List.range (n / 16)).map fun k => (y.dev.engRead e (lo + 16 * k) 16).1
        match (List.range (n / 16)).find? fun k => y.dev.engBad e (lo + 16 * k) with
        | some k =>
          let m := min (Config.freeNat y.dev.fresh) k
          let whole := memWrite who port a (words.flatMap memWord) y
          let q := match whole.2 with
            | .denied => whole
            | _ => memWrite who port a ((words.take m).flatMap memWord) { y with dev := y.dev.draw }
          { q.1 with dev := stop q.1.dev (match q.2 with | .denied => 1 | _ => 2) }
        | none =>
          let q := memWrite who port a (words.flatMap memWord) y
          { q.1 with dev := stop q.1.dev (match q.2 with | .ok _ => 0 | .denied => 1 | .ue _ => 2) }

end Sys2Proof.Machine
end

