-- ==== Sys2Proof/Machine/Hash.lean ====
section
/-! DEFINITION. SHAKE256 and the CRC-32 of IEEE 802.3, which the digests, links and checks of the manual name. -/
namespace Sys2Proof.Machine

/-! ### Keccak-f[1600]. The state is one number of 1,600 bits: the message block enters and the output leaves it as little-endian bytes, and the cell of column x and plane y has its 64 bits from 64 (x + 5 y) on. -/

/-- The cell number k of a state or a plane. -/
def cell (s k : Nat) : Nat := s >>> (64 * k) % 2 ^ 64

/-- A number from its cells, the first lowest. -/
def ofCells (l : List Nat) : Nat := l.foldr (fun v a => a * 2 ^ 64 + v) 0

/-- The number turned left by k places in a width. -/
def turn (width k v : Nat) : Nat := v * 2 ^ k % 2 ^ width + v / 2 ^ (width - k)

/-- The plane whose column x is the column x + k of another. -/
def shiftColumns (k p : Nat) : Nat := turn 320 (64 * (5 - k)) p

/-- The walk of the columns and planes other than (0, 0): from (1, 0) each (x, y) leads to (y, 2 x + 3 y). -/
def walk : Nat → Nat × Nat → List (Nat × Nat)
  | 0, _ => []
  | n + 1, c => c :: walk n (c.2, (2 * c.1 + 3 * c.2) % 5)

/-- The steps theta: every cell takes the parity of the column before it and, turned by one, of the column after it. -/
def mixColumns (s : Nat) : Nat :=
  let parity := (List.range 5).foldl (fun a y => a ^^^ s / 2 ^ (320 * y) % 2 ^ 320) 0
  let ahead := shiftColumns 1 parity
  let d := shiftColumns 4 parity ^^^ ofCells ((List.range 5).map fun x => turn 64 1 (cell ahead x))
  s ^^^ (List.range 5).foldl (fun a _ => a * 2 ^ 320 + d) 0

/-- The steps rho and pi: the cell at place t of the walk moves on by one place, turned by (t + 1) (t + 2) / 2. -/
def moveCells (s : Nat) : Nat :=
  ((walk 24 (1, 0)).zipIdx.foldl (fun a e =>
    let x := e.1.1
    let y := e.1.2
    let dst := y + 5 * ((2 * x + 3 * y) % 5)
    a + turn 64 ((e.2 + 1) * (e.2 + 2) / 2 % 64) (cell s (x + 5 * y)) * 2 ^ (64 * dst)) (cell s 0))

/-- The step chi on every plane. -/
def crossColumns (s : Nat) : Nat :=
  (List.range 5).foldl (fun a y =>
    let p := s / 2 ^ (320 * y) % 2 ^ 320
    a + (p ^^^ ((shiftColumns 1 p ^^^ (2 ^ 320 - 1)) &&& shiftColumns 2 p)) * 2 ^ (320 * y)) 0

/-- The bits of the shift register x^8 + x^6 + x^5 + x^4 + 1 from a state on. -/
def registerBits : Nat → Nat → List Nat
  | 0, _ => []
  | n + 1, r => r % 2 :: registerBits n (if r < 128 then 2 * r else 2 * r ^^^ 0x171)

/-- The constants of the step iota: seven bits of the register for each round, at places 2^j − 1. -/
def roundConstants : List Nat :=
  (chunks 7 (registerBits 168 1)).map fun l => l.zipIdx.foldl (fun a e => a + e.1 * 2 ^ (2 ^ e.2 - 1)) 0

/-- Keccak-f[1600]. -/
def keccak (s : Nat) : Nat := roundConstants.foldl (fun s rc => crossColumns (moveCells (mixColumns s)) ^^^ rc) s

/-- The padding of SHAKE after a message of n bytes. -/
def shakePad (n : Nat) : List Byte :=
  let z := 136 - n % 136
  if z = 1 then [0x9F] else 0x1F :: List.replicate (z - 2) 0 ++ [0x80]

/-- The output of SHAKE256 from a state on, in blocks of 136 bytes. -/
def shakeOut : Nat → Nat → List Byte
  | 0, _ => []
  | n + 1, s => bytesLE 136 s ++ shakeOut n (keccak s)

/-- SHAKE256 with an output of `n` bytes. -/
def shake256 (n : Nat) (m : List Byte) : List Byte :=
  let s := (chunks 136 (m ++ shakePad m.length)).foldl (fun s b => keccak (s ^^^ natLE b)) 0
  (shakeOut (n / 136 + 1) s).take n

/-- The 16 bytes of a 128-bit word, bit 127 first. -/
def wordBytes (w : Word128) : List Byte := bytesBE 16 w.toNat

/-- The CRC-32 register after one byte. -/
def crcByte (c : Nat) (b : Byte) : Nat :=
  (List.range 8).foldl (fun c _ => if c % 2 = 1 then c / 2 ^^^ 0xEDB88320 else c / 2) (c ^^^ b.toNat)

/-- The CRC-32 of IEEE 802.3. -/
def crc32 (m : List Byte) : Nat := m.foldl crcByte 0xFFFFFFFF ^^^ 0xFFFFFFFF

/-- The 32-byte digests as eight register words, byte 0 in bits [31:24] of the first. -/
def digestWords (l : List Byte) : List Nat := (chunks 4 l).map natBE

end Sys2Proof.Machine
end

