-- ==== Sys2Proof/Machine/Ed448.lean ====
section
/-! DEFINITION. Ed448 of RFC 8032 with a context: keys, signatures, verification (chapter Trust, Identity and Evidence). -/
namespace Sys2Proof.Machine

/-- The field prime 2^448 − 2^224 − 1. -/
def edP : Nat := 2 ^ 448 - 2 ^ 224 - 1

/-- The order of the base point. -/
def edL : Nat := 2 ^ 446 - 13818066809895115352007386748515426880336692474882178609894547503885

/-- d = −39081. -/
def edD : Nat := edP - 39081

def edMul (a b : Nat) : Nat := a * b % edP
def edSub (a b : Nat) : Nat := (a + edP - b % edP) % edP

/-- a^e by squaring, over the bits of the exponent, the lowest first. -/
def edPowBits : Nat → Nat → Nat → Nat → Nat
  | 0, _, _, r => r
  | n + 1, a, e, r => edPowBits n (edMul a a) (e / 2) (if e % 2 = 1 then edMul r a else r)

def edPow (a e : Nat) : Nat := edPowBits 448 (a % edP) e 1
def edInv (a : Nat) : Nat := edPow a (edP - 2)

/-- A point in projective coordinates. -/
structure EdPoint where
  x : Nat
  y : Nat
  z : Nat
deriving DecidableEq, Repr

/-- The base point. -/
def edBase : EdPoint :=
  ⟨224580040295924300187604334099896036246789641632564134246125461686950415467406032909029192869357953282578032075146446173674602635247710,
   298819210078481492676017930443930673437544040154080242095928241372331506189835876003536878655418784733982303233503462500531545062832660, 1⟩

/-- The neutral point. -/
def edZero : EdPoint := ⟨0, 1, 1⟩

/-- Addition on x² + y² = 1 + d x² y². -/
def edAdd (p q : EdPoint) : EdPoint :=
  let a := edMul p.z q.z
  let b := edMul a a
  let c := edMul p.x q.x
  let d := edMul p.y q.y
  let e := edMul edD (edMul c d)
  let f := edSub b e
  let g := (b + e) % edP
  let h := edMul (p.x + p.y) (q.x + q.y)
  ⟨edMul (edMul a f) (edSub (edSub h c) d), edMul (edMul a g) (edSub d c), edMul f g⟩

/-- k P by doubling, over the bits of k, the lowest first. -/
def edScaleBits : Nat → Nat → EdPoint → EdPoint → EdPoint
  | 0, _, _, r => r
  | n + 1, k, p, r => edScaleBits n (k / 2) (edAdd p p) (if k % 2 = 1 then edAdd r p else r)

def edScale (k : Nat) (p : EdPoint) : EdPoint := edScaleBits 456 k p edZero

/-- Two points are the same. -/
def edEq (p q : EdPoint) : Bool := edMul p.x q.z == edMul q.x p.z && edMul p.y q.z == edMul q.y p.z

/-- The 57 bytes of a point. -/
def edEncode (p : EdPoint) : List Byte :=
  let i := edInv p.z
  bytesLE 57 (edMul p.y i + (if edMul p.x i % 2 = 1 then 2 ^ 455 else 0))

/-- The point that 57 bytes spell, if they spell one. -/
def edDecode (l : List Byte) : Option EdPoint :=
  let v := natLE l
  let sign := v / 2 ^ 455
  let y := v % 2 ^ 455
  if l.length ≠ 57 ∨ edP ≤ y then none
  else
    let u := edSub (edMul y y) 1
    let w := edSub (edMul edD (edMul y y)) 1
    let u2 := edMul u u
    let w2 := edMul w w
    let x := edMul (edMul (edMul u2 u) w) (edPow (edMul (edMul (edMul u2 u2) u) (edMul w2 w)) ((edP - 3) / 4))
    if edMul w (edMul x x) ≠ u % edP then none
    else if x = 0 ∧ sign = 1 then none
    else some ⟨if x % 2 = sign then x else edP - x, y, 1⟩

/-- dom4 of a context, for pure Ed448. -/
def edDom (ctx : List Byte) : List Byte :=
  ([0x53, 0x69, 0x67, 0x45, 0x64, 0x34, 0x34, 0x38, 0x00, BitVec.ofNat 8 ctx.length] : List Byte) ++ ctx

/-- The secret scalar and the prefix of a 57-byte private key. -/
def edExpand (sk : List Byte) : Nat × List Byte :=
  let h := shake256 114 sk
  let a := natLE (h.take 57)
  (a % 2 ^ 447 / 4 * 4 + 2 ^ 447, h.drop 57)

/-- The public key of a private key. -/
def edPublic (sk : List Byte) : List Byte := edEncode (edScale (edExpand sk).1 edBase)

/-- The 114-byte signature of a message. -/
def edSign (sk ctx m : List Byte) : List Byte :=
  let s := edExpand sk
  let a := edEncode (edScale s.1 edBase)
  let r := natLE (shake256 114 (edDom ctx ++ s.2 ++ m)) % edL
  let rb := edEncode (edScale r edBase)
  let k := natLE (shake256 114 (edDom ctx ++ rb ++ a ++ m)) % edL
  rb ++ bytesLE 57 ((r + k * s.1) % edL)

/-- A signature of a message under a public key is valid. -/
def edVerify (pub ctx m sig : List Byte) : Bool :=
  let s := natLE (sig.drop 57)
  match edDecode pub, edDecode (sig.take 57) with
  | some a, some r =>
    let k := natLE (shake256 114 (edDom ctx ++ sig.take 57 ++ pub ++ m)) % edL
    decide (sig.length = 114) && decide (s < edL)
      && edEq (edScale (4 * s % edL) edBase) (edAdd (edScale 4 r) (edScale 4 (edScale k a)))
  | _, _ => false

end Sys2Proof.Machine
end

