-- ==== Sys2Proof/Machine/Image.lean ====
section
/-! DEFINITION. Signed images: their header and the steps of a verifier (R549 to R551). -/
namespace Sys2Proof.Machine

/-- A big-endian field of a header. -/
def hdrField (h : List Byte) (o n : Nat) : Nat := natBE ((h.drop o).take n)

/-- "NLDIMG". -/
def ctxImage : List Byte := [0x4E, 0x4C, 0x44, 0x49, 0x4D, 0x47]

/-- The bytes of a header that are reserved (R549). -/
def hdrReserved (h : List Byte) : List Byte := (h.drop 24).take 8 ++ (h.drop 89).take 7 ++ (h.drop 242).take 14

/-- The header of an image of the expected KIND is well formed (R550, step 1). -/
def hdrOk (kind : Nat) (h : List Byte) : Bool :=
  let len := hdrField h 12 4
  hdrField h 0 4 == 0x4E4C4449 && hdrField h 4 1 == kind && (hdrReserved h).all (· == 0)
    && decide (hdrField h 5 1 < 4) && decide (hdrField h 6 1 < 64) && decide (hdrField h 7 1 < 64)
    && (if kind = 3 then decide (len % 16 = 0) && decide (32 ≤ len) && decide (len ≤ 65552)
        else decide (1 ≤ len) && decide (len ≤ 0x1000000))
    && (kind == 1 || kind == 2 || hdrField h 16 8 == 0)

/-- A key slot is programmed and not revoked, and holds the digest of a public key (R547). -/
def Dev.keyOk (d : Dev) (slot : Nat) (pub : List Byte) : Bool :=
  d.on Reg.KEY_SLOTS slot && !d.on Reg.KEY_SLOTS (4 + slot) && d.trust.keys.get (fun _ => []) slot == shake256 32 pub

/-- The steps of a verifier in order (R550): 0 OK, or the first that fails. -/
def Dev.verifyImage (d : Dev) (kind : Nat) (h payload : List Byte) : Nat :=
  let pub := (h.drop 32).take 57
  let dig := (h.drop 96).take 32
  if !hdrOk kind h then 1
  else if !d.keyOk (hdrField h 5 1) pub then 2
  else if hdrField h 7 1 < d.f (Reg.RB_CTR (hdrField h 6 1)) 0 6 then 3
  else if shake256 32 payload ≠ dig then 4
  else if !edVerify pub ctxImage (h.take 128) ((h.drop 128).take 114) then 5
  else 0

/-- A failed verification is recorded in LAST_FAIL (R551, R565). -/
def Dev.lastFail (d : Dev) (h : List Byte) (step index : Nat) : Dev :=
  d.wr Reg.LAST_FAIL (packBE 32 [(step, 4), (hdrField h 4 1, 4), (hdrField h 6 1, 8), (0, 4), (index, 12)])

end Sys2Proof.Machine
end

