-- ==== Sys2Proof/Machine/Lanes.lean ====
section
/-! DEFINITION. Transform lanes: binding, grids, frames, SPECTRUM records, rotations, faults and takeovers (chapter Transform Lanes). -/
namespace Sys2Proof.Machine

/-- A lane's state. -/
def Dev.lane (d : Dev) (l : Nat) : LaneSt := d.lanes.get (fun _ => {}) l

/-- Sets a lane's state. -/
def Dev.setLane (d : Dev) (l : Nat) (x : LaneSt) : Dev := { d with lanes := d.lanes.set (fun _ => {}) l x }

/-- A group's state. -/
def Dev.group (d : Dev) (g : Nat) : GroupSt := d.groups.get (fun _ => {}) g

/-- Sets a group's state. -/
def Dev.setGroup (d : Dev) (g : Nat) (x : GroupSt) : Dev := { d with groups := d.groups.set (fun _ => {}) g x }

/-! ### Binding (R102, R138) -/

/-- The index within its group of the physical lane that runs logical lane l; 0xF: OUT_OF_SERVICE (R138). -/
def Dev.laneNib (d : Dev) (l : Nat) : Nat :=
  let g := l / 12
  let i := l % 12
  if i < 8 then d.f (Reg.GRP_MAP_LO g) (4 * i) 4 else d.f (Reg.GRP_MAP_HI g) (4 * (i - 8)) 4

/-- The physical lane number TL of a logical lane, 0xFF if none (R139). -/
def Dev.lanePhys (d : Dev) (l : Nat) : Nat :=
  let q := d.laneNib l
  if q = 15 then 0xFF else 13 * (l / 12) + q

/-- Binds a logical lane to a physical index of its group, 0xF for none; LANE_INFO follows (R138, R139). -/
def Dev.bindLane (d : Dev) (l q : Nat) : Dev :=
  let g := l / 12
  let i := l % 12
  let d := if i < 8 then d.wrF (Reg.GRP_MAP_LO g) (4 * i) 4 q else d.wrF (Reg.GRP_MAP_HI g) (4 * (i - 8)) 4 q
  d.wrF (Reg.LANE_INFO g i) 0 8 (if q = 15 then 0xFF else 13 * g + q)

/-- The spare's index within the group, 0xF if none (R138). -/
def Dev.spareOf (d : Dev) (g : Nat) : Nat := d.f (Reg.GRP_MAP_HI g) 28 4

/-- The seep's work with a group's spare stands still, derated or with no spare: rotation (R137), and a running flatness verification, which is deferred (R169). -/
def Dev.rotStopped (d : Dev) (g : Nat) : Dev :=
  let off := d.derated || d.spareOf g = 15
  let d := d.putB (Reg.GRP_STATUS g) 2 off
  if off ∧ d.on (Reg.DET_STATUS g) 1 then (d.clrB (Reg.DET_STATUS g) 1).setB (Reg.DET_STATUS g) 8 else d

/-- Sets the spare; SPARE_PRESENT and ROT_STOPPED follow (R137, R138). -/
def Dev.setSpare (d : Dev) (g q : Nat) : Dev :=
  ((d.wrF (Reg.GRP_MAP_HI g) 28 4 q).putB (Reg.GRP_STATUS g) 0 (q ≠ 15)).rotStopped g

/-- An event of a lane group (R141). -/
def Dev.grpEvent (d : Dev) (g b e : Nat) : Dev := d.sqEvent (Reg.GRP_STATUS g) b (1440 + 4 * g + e)

/-- ROT_TIME takes the instant of a rotation or retirement (R138). -/
def Dev.rotTime (d : Dev) (g : Nat) : Dev := d.wr64 (Reg.ROT_TIME_LO g) (Reg.ROT_TIME_HI g) (shortTime d.now)

/-- A physical lane is retired: GRP_RETIRED, the event and the time (R131, R134, R138). -/
def Dev.retireLane (d : Dev) (g q : Nat) : Dev := ((d.setB (Reg.GRP_RETIRED g) q).grpEvent g 4 0).rotTime g

/-- The shadow of a group ends; the spare must pass its tests again before the next rotation (R19). -/
def Dev.endShadow (d : Dev) (g : Nat) : Dev :=
  (d.setGroup g { d.group g with shadow := none, katOk := false }).clrB (Reg.GRP_STATUS g) 1

/-! ### Grid and frames (R105 to R110) -/

/-- N, the frame step H and W of a governing setup. -/
def laneN (ws : List Word128) : Nat := 2 ^ laneLog2N ws
def laneH (ws : List Word128) : Nat := laneN ws / 2 ^ fld (wd ws 0) 116 3

/-- The lane-input index at which frame i of a grid starts (R108). -/
def Dev.frameStart (d : Dev) (gov i : Nat) : Nat := (d.lane gov).b0 + i * laneH (d.force gov)

/-- The first lane-input index whose tag is at or after t (R108). -/
def Dev.idxAt (d : Dev) (s t : Nat) : Nat := (d.stream s).idxAt t

/-- The lane-input index of a switch boundary at or after an instant (R108): the first frame start while a grid is in force, and the first input sample with none. -/
def Dev.boundary (d : Dev) (gov t : Nat) : Nat :=
  let i := d.idxAt gov t
  let b0 := (d.lane gov).b0
  let h := laneH (d.force gov)
  if (d.lane gov).gridOn ∧ h ≠ 0 then b0 + (i - b0 + h - 1) / h * h else i

/-- The instant of that boundary; with no samples yet, the armed one. -/
def Dev.boundaryTag (d : Dev) (gov t : Nat) : Nat := if (d.stream gov).marks.isEmpty then t else d.tagOf gov (d.boundary gov t)

/-- The number of frames of the grid in force that lie before an instant: those that end by it before a restart, and else those that start before it (R109, R110). -/
def Dev.framesTo (d : Dev) (gov t : Nat) (restart : Bool) : Nat :=
  let ws := d.force gov
  let h := laneH ws
  let i := d.idxAt gov t
  let b0 := (d.lane gov).b0
  let top := if d.tagOf gov i = t then i else i - 1
  if h = 0 then 0
  else if !restart then (i - b0 + h - 1) / h
  else if top < b0 + laneN ws then 0 else (top - b0 - laneN ws) / h + 1

/-- A switch of the governing setup restarts the grid: from IDLE, or with LOG2N or OVL changed (R108). -/
def gridChange (old new : List Word128) : Bool :=
  laneLog2N old ≠ laneLog2N new || fld (wd old 0) 116 3 ≠ fld (wd new 0) 116 3

/-- A port setup restarts the grid of a stream's governing lane (R108): a new width or first slot, or a new DEC. -/
def portGridChange (old new : List Word128) (k : Nat) : Bool := streamMoved old new k || decide (slotDec old k ≠ slotDec new k)

/-- The instant up to which the frames of the grid in force are computed where a committed switch will restart it (R109): the lane's boundary, or, of a port setup, t_sw, from which on no samples come at the old rate (log entry 99). -/
def Dev.restartAt (d : Dev) (gov : Nat) : Option Nat :=
  match d.dueGroup gov with
  | some (g, k) => if gridChange (d.force gov) (d.slot gov k).words then some (d.boundaryTag gov g.teff) else none
  | none =>
    match d.dueGroup (48 + gov / 8) with
    | some (g, k) => if portGridChange (d.portForce (gov / 8)) (d.slot (48 + gov / 8) k).words (gov % 8) then some (d.switchTag (gov / 8) g.teff) else none
    | none => none

/-- The boundaries of switches that touch a lane, its port or its DDC (R125): those passed and those committed. -/
def Dev.mixTags (d : Dev) (gov : Nat) : List Nat :=
  (d.lane gov).mixAt
    ++ (match d.dueGroup gov with | some (g, _) => [d.boundaryTag gov g.teff] | none => [])
    ++ (match d.dueGroup (48 + gov / 8) with | some (g, _) => [d.switchTag (gov / 8) g.teff] | none => [])

/-! ### Windows (R111 to R113) -/

/-- Entry n of a user window table (R112): coefficient 4m + q at [127 − 32q : 96 − 32q] of data word m. -/
def userCoef (t : List Word128) (n : Nat) : Int := sfld (nth t (1 + n / 4) 0) (96 - 32 * (n % 4)) 18

/-- log2 of a user table's length (R112). -/
def userLog2 (t : List Word128) : Nat := fld (nth t 0 0) 0 5

/-- A stored table, by its target code. -/
def Dev.table (d : Dev) (code : Nat) : List Word128 := d.cw.tables.get (fun _ => []) code

/-- The window coefficients that a governing setup selects on a group (R111, R112). -/
def Dev.coefs (d : Dev) (g : Nat) (ws : List Word128) : List Int :=
  let win := fld (wd ws 0) 119 4
  let len := laneN ws
  if win < 8 then (List.range len).map fun n => romCoef win n len
  else
    let t := d.table (0x8000 + 4 * g + (win - 8))
    let lt := 2 ^ userLog2 t
    (List.range len).map fun n => userCoef t (n * lt / len)

/-- WIN_S1 and WIN_S2 of a lane under a governing setup (R113). -/
def Dev.showWindow (d : Dev) (l : Nat) (ws : List Word128) : Dev :=
  let g := l / 12
  let i := l % 12
  let c := if laneLog2N ws = 0 then [] else d.coefs g ws
  let s1 := c.foldl (fun a v => a + v) (0 : Int)
  let s2 := c.foldl (fun a v => a + v * v) (0 : Int)
  (d.wr64 (Reg.WIN_S1_LO g i) (Reg.WIN_S1_HI g i) (wrapU 64 s1)).wr64 (Reg.WIN_S2_LO g i) (Reg.WIN_S2_HI g i) (wrapU 64 s2)

/-- LANE_INFO of a lane under the setups in force (R103, R139). -/
def Dev.showLane (d : Dev) (l : Nat) : Dev :=
  let g := l / 12
  let i := l % 12
  let pw := d.portForce (l / 8)
  let ws := d.laneForce l
  let w := if (streamSlot pw (l % 8)).isSome then portW pw else 1
  let st := if !d.laneWanted l then 0 else if d.laneNib l = 15 then 3 else if w = 1 then 1 else 2
  let gang := if w = 1 then 0 else if w = 2 then 1 else 2
  d.wr (Reg.LANE_INFO g i) (packBE 32 [(st, 3), (laneLog2N ws, 5), (fld (wd ws 0) 116 3, 3), (fld (wd ws 0) 119 4, 4),
    (gang, 2), (l - d.governing l, 2), (0, 5), (d.lanePhys l, 8)])

/-- The members of the gang that a governing lane leads (R105). -/
def Dev.members (d : Dev) (gov : Nat) : List Nat :=
  let pw := d.portForce (gov / 8)
  match streamSlot pw (gov % 8) with
  | some _ => (List.range (portW pw)).map (gov + ·)
  | none => [gov]

/-- Starts the grid of a governing lane at a lane-input index: frame 0 is member 0's (R108, R109). -/
def Dev.startGrid (d : Dev) (gov b0 : Nat) (on : Bool) : Dev :=
  let d := (d.members gov).foldl (fun d l => d.setLane l { d.lane l with next := l - gov, fillFrom := none }) d
  d.setLane gov { d.lane gov with gridOn := on, b0 := b0, ord := 0, ready := [] }

/-! ### GAP records of a lane (R127, R128) -/

/-- The COND flag of a lane's record whose source event was at t0 (R22, R25). -/
def Dev.laneCond (d : Dev) (l t0 : Nat) : Bool := d.cond t0 || d.portCond (l / 8) t0

/-- A GAP record of a lane, in its region (R128, R517); CKIND and COUNT are 0 where the rule of the cause names no count (log entry 72). -/
def Dev.laneGap (d : Dev) (l cause ckind count t0 t1 : Nat) (cont : Bool) : Dev :=
  let gov := d.governing l
  d.emit (48 + l) { typ := 0x09, src := 0x2000 + l, phys := d.lanePhys l,
                    flags := b2n cont * 32 + b2n (d.laneCond l t0) * 128, slot := d.slotOf gov, sw := d.swOf gov, time := d.timeWord 1 false t0 }
    (gapPayload cause ckind count (d.timeWord 1 false t0) (d.timeWord 1 false t1))

/-- GAP records over a span, split into pieces of 1 ms with CONT on all but the last (R95, R127), by fuel; their CKIND and COUNT are 0 (log entry 72). -/
def Dev.laneGapSplit (d : Dev) (l cause : Nat) : Nat → Nat → Nat → Dev
  | 0, t0, t1 => d.laneGap l cause 0 0 t0 t1 false
  | n + 1, t0, t1 =>
    if t0 + nsUnits 1000000 < t1 then
      (d.laneGap l cause 0 0 t0 (t0 + nsUnits 1000000) true).laneGapSplit l cause n (t0 + nsUnits 1000000) t1
    else d.laneGap l cause 0 0 t0 t1 false

/-- A run of wholly filled frames ends before a frame start: its last GAP records carry the port's cause (R127). -/
def Dev.endFill (d : Dev) (l t1 : Nat) : Dev :=
  match (d.lane l).fillFrom with
  | some (t0, cause) =>
    let d := d.setLane l { d.lane l with fillFrom := none }
    if t0 < t1 then d.laneGapSplit l cause ((t1 - t0) / nsUnits 1000000 + 1) t0 t1 else d
  | none => d

/-- A wholly filled frame is noted (R127): its run begins, or goes on, with a GAP record for each 1 ms behind it. -/
def Dev.noteFill (d : Dev) (l t0 cause : Nat) : Dev :=
  match (d.lane l).fillFrom with
  | none => d.setLane l { d.lane l with fillFrom := some (t0, cause) }
  | some (a, c) =>
    let k := (t0 - a) / nsUnits 1000000
    (List.range k).foldl (fun d j => d.laneGap l c 0 0 (a + j * nsUnits 1000000) (a + (j + 1) * nsUnits 1000000) true)
      (d.setLane l { d.lane l with fillFrom := some (a + k * nsUnits 1000000, c) })

/-- A run of an overrun ends before an instant (R126). -/
def Dev.endOverrun (d : Dev) (l t1 : Nat) : Dev :=
  match (d.lane l).overFrom with
  | some t0 => (d.setLane l { d.lane l with overFrom := none }).laneGap l 0x22 0 0 t0 t1 false
  | none => d

/-- A lane's OUT_OF_SERVICE span ends before an instant: its last NO_LANE record (R133). -/
def Dev.endOos (d : Dev) (l t1 : Nat) : Dev :=
  match (d.lane l).oosFrom with
  | some t0 =>
    let d := d.setLane l { d.lane l with oosFrom := none }
    if t0 < t1 then d.laneGap l 0x21 0 0 t0 t1 false else d
  | none => d

/-- Every run of a lane ends before an instant. -/
def Dev.endRuns (d : Dev) (l t1 : Nat) : Dev := ((d.endFill l t1).endOverrun l t1).endOos l t1

/-- The frames of a lane that start before a lane-input index: how many there are from its next one on. -/
def Dev.framesBefore (d : Dev) (l idx : Nat) : Nat :=
  let gov := d.governing l
  let hw := laneH (d.force gov) * (d.members gov).length
  if hw = 0 then 0 else (idx - d.frameStart gov (d.lane l).next + hw - 1) / hw

/-- A lane passes over its next n frames. -/
def Dev.skipFrames (d : Dev) (l n : Nat) : Dev :=
  d.setLane l { d.lane l with next := (d.lane l).next + n * (d.members (d.governing l)).length }

/-- The start of a lane's next frame. -/
def Dev.nextStart (d : Dev) (l : Nat) : Nat := d.tagOf (d.governing l) (d.frameStart (d.governing l) (d.lane l).next)

/-! ### Shedding (R419, R420) -/

/-- The next frame of a lane starts at or after the frame boundary at which its stream was shed. -/
def Dev.shedNow (d : Dev) (l : Nat) : Bool :=
  let x := d.stream (d.governing l)
  x.shed && decide (x.shedAt ≤ d.nextStart l)

/-- The GAP of a shed stream over a span, in every lane it feeds (R128). -/
def Dev.shedGap (d : Dev) (s t0 t1 : Nat) (cont : Bool) : Dev :=
  (d.members s).foldl (fun d l => (d.endFill l (d.stream s).shedAt).laneGap l 0x24 0 0 t0 t1 cont) d

/-- The GAP records of a shed stream end before an instant. -/
def Dev.endShed (d : Dev) (s t1 : Nat) : Dev :=
  match (d.stream s).shedFrom with
  | some t0 =>
    let d := d.setStream s { d.stream s with shedFrom := none }
    if t0 < t1 then d.shedGap s t0 t1 false else d
  | none => d

/-! ### Service (R133) -/

/-- The logical lanes of a group, in order. -/
def groupLanes (g : Nat) : List Nat := (List.range 12).map (12 * g + ·)

/-- A physical lane for a logical lane that needs one: the spare, or that of the highest-numbered IDLE lane (R103, R133). -/
def Dev.claimPhys (d : Dev) (g : Nat) : Option (Nat × Dev) :=
  let q := d.spareOf g
  if q ≠ 15 then some (q, d.setSpare g 15)
  else
    match (groupLanes g).reverse.find? fun l => !d.laneWanted l && d.laneNib l ≠ 15 with
    | some l => some (d.laneNib l, (d.bindLane l 15).showLane l)
    | none => none

/-- A logical lane goes OUT_OF_SERVICE from an instant (R133). -/
def Dev.outOfService (d : Dev) (l t : Nat) : Dev :=
  let d := (d.bindLane l 15).setLane l { d.lane l with oosFrom := if d.shedNow l then none else some t }
  (d.showLane l).grpEvent (l / 12) 7 3

/-- A logical lane takes a physical lane; one that was OUT_OF_SERVICE goes on at its next frame start (R133). -/
def Dev.bindServed (d : Dev) (l q : Nat) : Dev :=
  let d := if (d.lane l).oosFrom.isSome then
      let d := d.skipFrames l (d.framesBefore l (d.idxAt (d.governing l) d.now))
      d.endOos l (d.nextStart l)
    else d
  (d.bindLane l q).showLane l

/-- The highest-numbered lane above l that the switch of a group brought into use too, and that runs (R133). -/
def Dev.broughtAbove (d : Dev) (g l num : Nat) : Option Nat :=
  (groupLanes g).reverse.find? fun m => decide (l < m) && d.laneWanted m && d.laneNib m ≠ 15 && decide ((d.lane m).brought = some num)

/-- Every wanted lane without a physical lane claims one, lowest first; of the lanes that one switch brings in, the highest-numbered go without and are OUT_OF_SERVICE (R133). -/
def Dev.serve (d : Dev) (g t num : Nat) : Dev :=
  (groupLanes g).foldl (fun d l =>
    if d.laneWanted l ∧ d.laneNib l = 15 then
      match d.claimPhys g with
      | some (q, d') => d'.bindServed l q
      | none =>
        if (d.lane l).oosFrom.isSome then d
        else match (if (d.lane l).brought = some num then d.broughtAbove g l num else none) with
          | some m =>
            let q := d.laneNib m
            let t1 := d.nextStart m
            ((d.endFill m t1).endOverrun m t1).outOfService m t1 |>.bindServed l q
          | none => d.outOfService l t
    else d) d

/-- Lanes that a switch brings into use are marked with its group. -/
def Dev.markBrought (d : Dev) (was : List Nat) (ls : List Nat) (num : Nat) : Dev :=
  ls.foldl (fun d l => if d.laneWanted l ∧ l ∉ was then d.setLane l { d.lane l with brought := some num } else d) d

/-! ### Lane setup switch (R108 to R110, R18, R19) -/

/-- The former spare of a shadow runs the lane from F_t on, and the relieved one becomes the spare or, after a mismatch, is retired (R130, R131). -/
def Dev.completeShadow (d : Dev) (g : Nat) : Dev :=
  match (d.group g).shadow with
  | none => d
  | some sh =>
    let old := d.laneNib sh.lane
    let d := d.endShadow g
    let d := (d.bindLane sh.lane (d.spareOf g)).showLane sh.lane
    let d := d.addSat (Reg.ROT_COUNT g) 1
    if sh.mismatch then (d.setSpare g 15).retireLane g old
    else (d.setSpare g old).rotTime g

/-- A shadow that a switch has cut ends (R19): a failed comparison hands the lane to the spare and retires the relieved one; else the rotation begins again, with this lane, once the spare has passed its tests. -/
def Dev.abandonShadow (d : Dev) (g : Nat) : Dev :=
  match (d.group g).shadow with
  | none => d
  | some sh =>
    let d := d.endShadow g
    if sh.mismatch then
      let old := d.laneNib sh.lane
      (((d.bindLane sh.lane (d.spareOf g)).showLane sh.lane).setSpare g 15).retireLane g old
    else d.setGroup g { d.group g with lastLane := (sh.lane + 11) % 12, rotAt := 0 }

/-- A switch of a live lane of the group takes effect at a boundary (R19): a shadow whose F_t lies after it keeps only the frames that start before it, and ends with the last of them. Where the shadowed lane's own grid restarts, the shadow ends here: at F_t if that is not later, and else abandoned. -/
def Dev.cutShadow (d : Dev) (g t : Nat) (restarts : List Nat) : Dev :=
  match (d.group g).shadow with
  | none => d
  | some sh =>
    let gov := d.governing sh.lane
    let n := d.framesTo gov t false
    if sh.stop ≤ n then (if gov ∈ restarts ∧ !sh.cut then d.completeShadow g else if gov ∈ restarts then d.abandonShadow g else d)
    else
      let d := d.setGroup g { d.group g with shadow := some { sh with stop := n, cut := true } }
      if n ≤ (d.lane sh.lane).next ∨ gov ∈ restarts then d.abandonShadow g else d

/-- The shadow of a lane of a stream is cut at a boundary. -/
def Dev.cutOwnShadow (d : Dev) (s t : Nat) (restart : Bool) : Dev :=
  match (d.group (s / 12)).shadow with
  | some sh => if d.governing sh.lane = s then d.cutShadow (s / 12) t (if restart then [s] else []) else d
  | none => d

/-- The grid, window and information of a governing lane after a switch at a boundary: restarted at a lane-input index, or continued (R108, R110). -/
def Dev.regrid (d : Dev) (gov b t : Nat) (restart : Bool) : Dev :=
  let on := decide (laneLog2N (d.force gov) ≠ 0)
  let d := if restart then d.startGrid gov b on else d
  let d := d.setLane gov { d.lane gov with mixAt := (d.lane gov).mixAt ++ [t] }
  (d.members gov).foldl (fun d l => (d.showWindow l (d.force gov)).showLane l) d

/-- The lanes of a shed stream begin to write GAP records, unless they do or are IDLE (R128, R419). -/
def Dev.shedStart (d : Dev) (s t : Nat) : Dev :=
  let x := d.stream s
  if x.shed ∧ x.shedFrom.isNone ∧ d.laneWanted s then d.setStream s { x with shedFrom := some (max t x.shedAt) } else d

/-- A lane of a gang takes no frames: it has no physical lane, waits for a takeover, has overrun, or its stream is shed. -/
def Dev.laneStands (d : Dev) (l : Nat) : Bool :=
  let x := d.lane l
  d.laneNib l = 15 || x.lostFrom.isSome || x.overFrom.isSome || d.shedNow l

/-- A committed lane setup reaches its boundary (R108): every frame before it has been taken. -/
def Dev.laneDue (d : Dev) (l : Nat) : Bool :=
  match d.dueGroup l with
  | none => false
  | some (g, k) =>
    let gov := d.governing l
    let restart := gridChange (d.force l) (d.slot l k).words
    if gov = l ∧ (d.lane l).gridOn then
      let n := d.framesTo l (d.boundaryTag l g.teff) restart
      (d.members l).all fun m => decide (n ≤ (d.lane m).next) || (d.laneStands m && decide (g.teff ≤ d.now))
    else decide (g.teff ≤ d.now)

/-- What the time-domain trigger of a stream follows (R177): by tag, the trigger words before and after the last lane switch, and a committed one's from its boundary on. -/
def Dev.tdRule (d : Dev) (s : Nat) : TdRule :=
  let gov := d.governing s
  { key := d.cw.switches.get (fun _ => 0) gov, word := wd (d.force gov) 3, old := (d.lane gov).tdOld
    next := (d.dueGroup gov).map fun g => (d.boundaryTag gov g.1.teff, wd (d.slot gov g.2).words 3) }

/-- A committed lane setup takes effect at the lane's boundary (R108): the flag says that the grid restarted. -/
def laneSwitch (l : Nat) (d : Dev) : Dev × Option (Switch × Bool) :=
  let x := d.lane l
  if !d.laneDue l then (d, none) else
  let num := match d.dueGroup l with | some (g, _) => g.num | none => 0
  let teff := match d.dueGroup l with | some (g, _) => g.teff | none => 0
  let b := d.boundary l teff
  let t := d.boundaryTag l teff
  let gov := d.governing l
  let g := l / 12
  let live := d.laneWanted l
  let was := (groupLanes g).filter d.laneWanted
  let d := if gov = l ∧ live then d.cutShadow g t (if gridChange (d.force l) (match d.dueGroup l with | some (_, k) => (d.slot l k).words | none => []) || !x.gridOn then [l] else []) else d
  match d.takeSwitch l with
  | none => (d, none)
  | some (sw, d) =>
    if gov ≠ l then (d, some (sw, false))
    else
      let restart := gridChange sw.old sw.new || !x.gridOn
      let d := if laneLog2N sw.new = 0 then ((d.members l).foldl (fun d m => d.endRuns m t) d).endShed l t else d
      let d := d.setLane l { d.lane l with tdOld := some (t, wd sw.old 3) }
      let d := (d.regrid l b t restart).markBrought was (d.members l) num
      let d := d.shedStart l t
      (d.serve g t num, some (sw, restart))

/-- After a port switch, the lanes of its slots (R108): a stream with a new width, first slot or DEC restarts its grid at the boundary listed for it, or at its first sample; the others go on. -/
def Dev.portRegrid (d : Dev) (p num : Nat) (was : List Nat) (bs : List (Nat × Nat)) (sw : Switch) : Dev :=
  let d := (List.range 8).foldl (fun d k =>
    let s := 8 * p + k
    let tsw := d.switchTag p sw.teff
    if streamSlot sw.new k = some k then
      let d := if portGridChange sw.old sw.new k then
          let b := match bs.find? fun e => e.1 = s with | some e => d.idxAt s e.2 | none => (d.stream s).next
          d.startGrid s b (decide (laneLog2N (d.force s) ≠ 0))
        else d
      d.setLane s { d.lane s with mixAt := (d.lane s).mixAt ++ [tsw] }
    else if streamSlot sw.new k = none then d.setLane s { d.lane s with gridOn := false }
    else d) d
  let ls := (List.range 8).map (8 * p + ·)
  let d := ls.foldl (fun d l =>
    let d := if d.laneWanted l then d else d.endRuns l sw.teff
    (d.showWindow l (if d.laneWanted l then d.laneForce l else [])).showLane l) d
  let d := d.markBrought was ls num
  (d.serve (8 * p / 12) sw.teff num).serve ((8 * p + 7) / 12) sw.teff num

/-! ### One frame (R110, R115 to R121, R125, R127, R130) -/

/-- FLAGS common to the records of a frame (R34): COND, SETTLING, MIXED. -/
def Frame.flags (f : Frame) : Nat := b2n f.cond * 128 + b2n f.settling * 8 + b2n f.mixed * 4

/-- The data words of a SPECTRUM record (R120). -/
def spectrumWords (power : Bool) (bins : List (Int × Int)) : List Word128 :=
  if power then (chunks 4 bins).map fun c => packBE 128 ((List.range 4).map fun q =>
    (((c.drop q).head?.map powerOf).getD 0, 32))
  else (chunks 2 bins).map fun w => packBE 128 ((List.range 2).flatMap fun q =>
    match w[q]? with | some v => [(wrapU 32 v.1, 32), (wrapU 32 v.2, 32)] | none => [(0, 32), (0, 32)])

/-- Words of SPECTRUM records in a lane's output buffer (R121). -/
def Dev.spectrumHeld (d : Dev) (l : Nat) : Nat :=
  (d.outOf (48 + l)).foldl (fun a r => if fld (nth r 0 0) 120 8 = 1 then a + r.length else a) 0

/-- Word 2 of a SPECTRUM record (R119). -/
def spectrumHead (ws : List Word128) (f : Frame) (w : Nat) : Word128 :=
  let t := wd ws 0
  packBE 128 [(f.exp, 8), (f.log2n, 5), (fld t 119 4, 4), (fld t 116 3, 3), (b2n (bit t 114), 1),
    (if w = 1 then 0 else if w = 2 then 1 else 2, 2), (f.lane - f.gov, 2), (b2n f.fill, 1), (b2n f.sat, 1), (b2n f.shadowed, 1),
    (b2n f.mismatch, 1), (b2n f.gridEnd, 1), (0, 2), (fld t 93 16, 16), (fld t 77 16, 16), (f.idx, 64)]

/-- The SPECTRUM record of a frame that SPEC_DIV selects, or its SPEC_SKIP GAP (R118, R121). -/
def Dev.spectrumRecord (d : Dev) (f : Frame) : Dev :=
  let ws := d.force f.gov
  let t := wd ws 0
  if bit t 115 ∧ f.idx % 2 ^ fld t 109 5 = 0 then
    let pay := spectrumHead ws f (d.members f.gov).length
      :: spectrumWords (bit t 114) ((f.bins.drop (fld t 93 16)).take (fld t 77 16 + 1))
    if d.spectrumHeld f.lane + pay.length + 2 ≤ 32771 then
      d.emit (48 + f.lane) {
        typ := 0x01, src := 0x2000 + f.lane, phys := f.phys, flags := f.flags, slot := d.slotOf f.gov, sw := d.swOf f.gov, time := d.timeWord 1 false f.tMid } pay
    else
      let d := (d.addSat (Reg.SPEC_DROPS (f.lane / 12)) 1).grpEvent (f.lane / 12) 6 2
      d.laneGap f.lane 0x23 2 1 f.t0 f.tEnd false
  else d

/-- The comparison of a shadowed frame fails (R130, R131): the count, the event and the sump report, and with the first of a shadow the peat log entry of the retirement. -/
def Dev.shadowMismatch (d : Dev) (g : Nat) (sh : Shadow) : Dev :=
  let q := d.laneNib sh.lane
  let d := d.setGroup g { d.group g with shadow := some { sh with mismatch := true } }
  let d := ((d.addSat (Reg.MISMATCH_COUNT g) 1).grpEvent g 5 1).seepFind 0x04 (0x2000 + 13 * g + q) 24
  if sh.mismatch then d else d.logRetire 1 (13 * g + q) 1

/-- The samples of the next frame of a lane, if all have left the DDC. -/
def Dev.frameSamples (d : Dev) (gov start n : Nat) : Option (List Smp) :=
  if d.ddcOut gov (d.tagOf gov (start + n - 1)) then (List.range n).mapM fun i => (d.stream gov).sample (start + i) else none

/-- A frame holds an output of a settling span (R88). -/
def Dev.frameSettling (d : Dev) (gov start n : Nat) : Bool :=
  let spans := d.settleSpans gov
  !spans.isEmpty && (List.range n).any fun i => settled spans (d.tagOf gov (start + i))

/-- Samples, settling spans and marks before the frames still to be computed by any member leave the input buffers. -/
def Dev.trimInput (d : Dev) (gov : Nat) : Dev :=
  let need := (d.members gov).foldl (fun m l => min m (d.frameStart gov (d.lane l).next)) (d.stream gov).next
  let x := d.stream gov
  d.setStream gov { x with
    segs := x.segs.filter fun g => decide (need < g.start + g.n),
    marks := x.marks.filter fun m => !(x.marks.any fun a => decide (m.idx < a.idx) && decide (a.idx ≤ need)),
    settle := x.settle.filter fun p => decide (d.tagOf gov need < p.2) }

/-- A shadow cut by a switch ends with the last frame that starts before the boundary (R19). -/
def Dev.endCut (d : Dev) (g : Nat) : Dev :=
  match (d.group g).shadow with
  | some sh => if sh.cut ∧ sh.stop ≤ (d.lane sh.lane).next then d.abandonShadow g else d
  | none => d

/-- The rotation of a lane waits for its handover: its next frame is the former spare's (R130). -/
def Dev.handoverDue (d : Dev) (l : Nat) : Bool :=
  match (d.group (l / 12)).shadow with
  | some sh => decide (sh.lane = l ∧ sh.stop ≤ (d.lane l).next) && !sh.cut
  | none => false

/-- A group of armed setups has a switch, not yet taken, on a live lane of a lane group, or on a port for one of its grids, with its boundary at or before an instant (R19). -/
def Dev.grpSwitches (d : Dev) (gr : Grp) (g t : Nat) : Bool :=
  let at0 := if gr.committed then gr.teff else gr.time
  gr.pairs.any fun p =>
    !gr.passed.contains p.1 && (
      (decide (p.1 / 12 = g) && decide (p.1 < 48) && d.laneWanted p.1 && decide (d.governing p.1 = p.1) && decide (d.boundaryTag p.1 at0 ≤ t))
      || (decide (48 ≤ p.1 ∧ p.1 < 54) && (List.range 8).any fun k =>
        let l := 8 * (p.1 - 48) + k
        decide (l / 12 = g) && d.laneWanted l && decide (d.governing l = l)
          && portGridChange (d.portForce (p.1 - 48)) (d.slot p.1 p.2).words k && decide (d.boundaryTag l at0 ≤ t)))

/-- A switch is armed on a live lane of the group with its boundary at or before an instant (R19). -/
def Dev.switchBefore (d : Dev) (g t : Nat) : Bool := d.cw.groups.any fun gr => d.grpSwitches gr g t

/-- A committed switch abandons the shadow of a group at a boundary at or before an instant (R19). -/
def Dev.shadowCut (d : Dev) (g t : Nat) : Bool := d.cw.groups.any fun gr => gr.strobed && d.grpSwitches gr g t

/-- The next frame of a lane (R115): none while its samples are not complete; a frame of an overrun run is dropped (R126); a wholly filled one is only noted for its GAP (R127); any other is computed and its SPECTRUM record written. -/
def laneFrame (l : Nat) (bad : Bool) (d : Dev) : Dev × Option Frame :=
  let d := d.fillNow (l / 8)
  let gov := d.governing l
  let x := d.lane l
  let ws := d.force gov
  let n := laneN ws
  let g := l / 12
  let start := d.frameStart gov x.next
  let t0 := d.tagOf gov start
  let tEnd := d.tagOf gov (start + n)
  let cut := d.restartAt gov
  let past := (match d.dueGroup gov with
      | some (gr, _) => decide (gr.teff ≤ t0)
      | none => false)
    || (match cut with | some b => decide (b < tEnd) | none => false)
  if !(d.lane gov).gridOn || !d.laneWanted l || d.laneNib l = 15 || x.lostFrom.isSome || d.shedNow l || past || d.handoverDue l then (d, none)
  else
    match d.frameSamples gov start n with
    | none => (d, none)
    | some smp =>
      let d1 := (d.skipFrames l 1).trimInput gov
      if x.overFrom.isSome then (d1.addSat (Reg.OVERRUN_FRAMES g) 1, none)
      else if smp.all fun s => s.fill ≠ 0 then ((d1.noteFill l t0 (smp.headD {}).fill).endCut g, none)
      else
        let sp := transform (laneLog2N ws) (smp.map fun s => (s.re, s.im)) (d.coefs g ws)
        let mixed := (d.mixTags gov).any fun t => t0 < t ∧ t < tEnd
        let sh := match (d.group g).shadow with
          | some sh => if sh.lane = l ∧ sh.first ≤ x.next ∧ x.next < sh.stop ∧ !d.shadowCut g t0 then some sh else none
          | none => none
        let last := match cut with
          | some b => decide (b < d.tagOf gov (start + laneH ws + n))
          | none => false
        let f : Frame := {
          lane := l, gov := gov, idx := x.next, t0 := t0, tMid := d.tagOf gov (start + n / 2), tEnd := tEnd,
          log2n := laneLog2N ws, exp := sp.exp, bins := sp.bins, fill := smp.any fun s => s.fill ≠ 0, mixed := mixed,
          settling := d.frameSettling gov start n, sat := sp.sat || smp.any fun s => s.sat, phys := d.lanePhys l,
          cond := d.laneCond l t0, shadowed := sh.isSome, mismatch := sh.isSome && bad, gridEnd := last }
        let d2 := d1.endFill l t0
        let d2 := d2.add (Reg.LANE_FRAMES g (l % 12)) 1
        let d2 := if f.sat then d2.addSat (Reg.LANE_SAT g (l % 12)) 1 else d2
        let d2 := match sh with
          | some s => if bad then d2.shadowMismatch g s else d2
          | none => d2
        ((d2.spectrumRecord f).endCut g, some f)

/-! ### Overrun in the derated state (R126) -/

/-- A lane whose input buffer of 131,072 samples overflows in the derated state discards the frames that hold overwritten samples (R126). -/
def Dev.laneOverflow (d : Dev) (l : Nat) : Dev :=
  let gov := d.governing l
  let held := (d.stream gov).next
  let start := d.frameStart gov (d.lane l).next
  if d.derated ∧ !d.shedNow l ∧ (d.lane gov).gridOn ∧ d.laneWanted l ∧ d.laneNib l ≠ 15 ∧ (d.lane l).lostFrom.isNone ∧ start + 131072 < held then
    let t0 := d.nextStart l
    let d := d.endFill l t0
    let n := d.framesBefore l (held - 131072)
    let d := d.addSat (Reg.OVERRUN_FRAMES (l / 12)) n
    let d := d.skipFrames l n
    (d.setLane l { d.lane l with overFrom := some ((d.lane l).overFrom.getD t0) }).grpEvent (l / 12) 3 3
  else d

/-- An overrun lane resumes once its buffer holds less than 65,536 samples; one GAP covers the run (R126). It drains by frames that are taken and not computed (log entry 98). -/
def laneOverrunResume (l : Nat) (d : Dev) : Dev :=
  let gov := d.governing l
  if (d.stream gov).next < d.frameStart gov (d.lane l).next + 65536 then d.endOverrun l (d.nextStart l) else d

/-! ### Sparing (R129 to R133, R429) -/

/-- The lane the next rotation relieves: the next in-use lane of the group in ascending order (R129). -/
def Dev.nextRelieved (d : Dev) (g : Nat) : Option Nat :=
  let lastL := (d.group g).lastLane
  ((List.range 12).map fun k => 12 * g + (lastL + 1 + k) % 12).find? fun l => d.laneWanted l && d.laneNib l ≠ 15

/-- ROT_EN and ROT_PERIOD of the seep (R432): the period in seconds. -/
def Dev.rotEnabled (d : Dev) : Bool := d.on Reg.SEEP_CTRL 31

/-- A rotation starts (R129, R130, R19, R429): ROT_EN set, ROT_PERIOD over, the spare tested, floor-held, no verification running, and the last shadow frame over before any armed boundary. -/
def rotationStart (g : Nat) (d : Dev) : Dev :=
  let x := d.group g
  let period := d.f Reg.SEEP_CTRL 0 12
  match d.nextRelieved g with
  | none => d
  | some l =>
    let gov := d.governing l
    let ws := d.force gov
    let j := (d.lane l).next
    let last := d.tagOf gov (d.frameStart gov (j + 2 ^ fld (wd ws 0) 116 3 - 1) + laneN ws)
    if d.rotEnabled ∧ !d.derated ∧ d.spareOf g ≠ 15 ∧ x.katOk ∧ x.shadow.isNone ∧ x.takeover.isEmpty
        ∧ (d.lane gov).gridOn ∧ !d.on (Reg.DET_STATUS g) 1
        ∧ (x.rotAt = 0 ∨ elapsedNs x.rotAt d.up (period * 1000000000)) ∧ !d.switchBefore g last then
      (d.setGroup g { x with shadow := some ⟨l, j, j + 2 ^ fld (wd ws 0) 116 3, false, false⟩, lastLane := l % 12, rotAt := d.up }).setB
        (Reg.GRP_STATUS g) 1
    else d

/-- At F_t a rotation completes (R130, R131). -/
def rotationHandover (g : Nat) (d : Dev) : Dev :=
  match (d.group g).shadow with
  | none => d
  | some sh => if sh.cut ∨ (d.lane sh.lane).next < sh.stop then d else d.completeShadow g

/-- The spare faults during a shadow: the rotation is abandoned and the spare retired (R131). -/
def spareFault (g : Nat) (d : Dev) : Dev :=
  match (d.group g).shadow with
  | none => d
  | some _ =>
    let q := d.spareOf g
    let d := ((d.endShadow g).setSpare g 15).retireLane g q
    d.report 0x03 (0x2000 + 13 * g + q) 24

/-- The physical lanes left for takeovers of a group: its spare and those of IDLE lanes, less those already promised (R132, R133). -/
def Dev.takeable (d : Dev) (g : Nat) : Nat :=
  b2n (d.spareOf g ≠ 15) + ((groupLanes g).filter fun m => !d.laneWanted m && d.laneNib m ≠ 15).length - (d.group g).takeover.length

/-- A live lane faults (R132, R133): it is retired, and its runs end before its first lost frame; the spare takes over at once where it shadows this lane, and otherwise after the detection delay; without any physical lane the logical lane is OUT_OF_SERVICE. -/
def laneFault (phys : Nat) (d : Dev) : Dev :=
  let g := phys / 13
  let q := phys % 13
  match (groupLanes g).find? fun l => d.laneNib l = q with
  | none => d
  | some l =>
    if !d.laneWanted l ∨ (d.lane l).lostFrom.isSome then d
    else
      let d := (d.retireLane g q).report 0x03 (0x2000 + phys) 24
      match (d.group g).shadow.filter fun sh => sh.lane = l with
      | some _ =>
        let d := d.endShadow g
        (((d.bindLane l (d.spareOf g)).setSpare g 15).showLane l)
      | none =>
        let first := d.nextStart l
        let d := (d.endFill l first).endOverrun l first
        let d := if (d.group g).shadow.isSome then d.endShadow g else d
        if d.takeable g = 0 then d.outOfService l first
        else
          (d.setLane l { d.lane l with lostFrom := some first }).setGroup g { d.group g with
            takeover := (d.group g).takeover ++ [(l, d.now)], katRun := false, katOk := false }

/-- The takeover of the lane that faulted first, at the first frame start at least 256 steps, 200 ns at the floor, after detection (R132). -/
def laneTakeover (g : Nat) (d : Dev) : Dev :=
  match (d.group g).takeover with
  | [] => d
  | (l, at0) :: rest =>
    let d := d.setGroup g { d.group g with takeover := rest }
    match (d.lane l).lostFrom, d.claimPhys g with
    | some t0, some (q, d') =>
      let d := d'.skipFrames l (d'.framesBefore l (d'.idxAt (d'.governing l) (at0 + nsUnits 200)))
      let d := (d.laneGap l 0x20 0 0 t0 (d.nextStart l) false).setLane l { d.lane l with lostFrom := none }
      (d.bindLane l q).showLane l
    | some t0, none => (d.setLane l { d.lane l with lostFrom := none }).outOfService l t0
    | none, _ => d

/-- An OUT_OF_SERVICE lane writes one NO_LANE GAP per 1 ms (R133). -/
def noLaneGap (l : Nat) (d : Dev) : Dev :=
  match (d.lane l).oosFrom with
  | some t0 =>
    if elapsedNs t0 d.now 1000000 then
      (d.setLane l { d.lane l with oosFrom := some (t0 + nsUnits 1000000) }).laneGap l 0x21 0 0 t0 (t0 + nsUnits 1000000) true
    else d
  | none => d

/-- The seep starts the known-answer tests of a group's spare (R429). -/
def spareKatStart (g : Nat) (d : Dev) : Dev :=
  if d.spareOf g ≠ 15 ∧ (d.group g).shadow.isNone ∧ !(d.group g).katRun then d.setGroup g { d.group g with katRun := true, katOk := false } else d

/-- The tests end: the spare passes, or is retired with finding 2 (R429, R430). -/
def spareKatEnd (g : Nat) (pass : Bool) (d : Dev) : Dev :=
  let x := d.group g
  if x.katRun then
    let d := d.setGroup g { x with katRun := false, katOk := pass }
    if pass then d
    else
      let q := d.spareOf g
      let d := ((d.setSpare g 15).retireLane g q).addSat Reg.KAT_FAILS 1
      (d.seepFind 0x05 (0x2000 + 13 * g + q) 24).logRetire 1 (13 * g + q) 2
  else d

end Sys2Proof.Machine
end

