-- ==== Sys2Proof/Machine/Causeway.lean ====
section
/-! DEFINITION. The causeway: command and completion rings, checks, digests, arming and switching (chapter The Causeway: Setups and Switching). -/
namespace Sys2Proof.Machine

/-! ### Object names and digests (R379, R380) -/

/-- The engine images a cluster setup names, in ascending engine order (R379). -/
def clusterNames (ws : List Word128) : List Nat :=
  (List.range 16).filterMap fun i => if bit (engWord ws i) 127 then some (0xA000 + fld (engWord ws i) 115 12) else none

/-- The tables and images a setup names (R379). -/
def setupNames (t : Nat) (ws : List Word128) : List Nat :=
  if t < 48 then
    if laneLog2N ws = 0 then []
    else
      let g := t / 12
      let win := fld (wd ws 0) 119 4
      (if 8 ≤ win ∧ win ≤ 11 then [0x8000 + 4 * g + (win - 8)] else [])
        ++ (if bit (wd ws 3) 127 then [0x9000 + 32 * g + fld (wd ws 3) 122 5] else [])
  else if 54 ≤ t ∧ t < 62 then clusterNames ws
  else []

/-- The digest of an object (R379): a class byte, its code, its words, and the digests of what it names. -/
def objDigest (cls code : Nat) (ws : List Word128) (names : List Byte) : List Byte :=
  shake256 32 (bytesBE 1 cls ++ bytesBE 1 (code / 4096) ++ bytesBE 2 (code % 4096) ++ bytesBE 4 ws.length
    ++ ws.flatMap wordBytes ++ names)

/-- The words of a table or an image; none: the empty list. -/
def Dev.object (d : Dev) (code : Nat) : List Word128 :=
  if code / 4096 = 0xA then d.cw.images.get (fun _ => []) code else d.cw.tables.get (fun _ => []) code

/-- The digest of a table or an image; 32 zero bytes for an absent one. -/
def Dev.storedDigest (d : Dev) (code : Nat) : List Byte :=
  let ws := d.object code
  if ws.isEmpty then List.replicate 32 0 else objDigest (if code / 4096 = 0xA then 0x49 else 0x54) code ws []

/-- The digest of a setup of a target, as the objects it names stand (R379). -/
def Dev.setupDigest (d : Dev) (t : Nat) (ws : List Word128) : List Byte :=
  objDigest 0x53 (targetCode t) ws ((setupNames t ws).flatMap d.storedDigest)

/-- The device setup digest (R380). -/
def Dev.deviceDigest (d : Dev) : List Byte :=
  shake256 32 ((List.range 64).flatMap fun t => match d.slotIn t 3 with
    | some k => d.setupDigest t (d.slot t k).words
    | none => List.replicate 32 0)

/-- A table or image is named by a setup IN_FORCE or ARMED (R365). -/
def Dev.inUse (d : Dev) (code : Nat) : Bool :=
  (List.range 64).any fun t => (setupNames t (d.force t)).contains code || (setupNames t (d.armed t)).contains code

/-- The images stored, in ascending order of index, with their words. -/
def Dev.storeList (d : Dev) : Tab (List Word128) := d.cw.images.filter fun e => !e.2.isEmpty

/-- CW_STORE and STORE_DIGEST show the image store (R381, R557). -/
def Dev.showStore (d : Dev) : Dev :=
  let l := d.storeList
  let bytes := l.foldl (fun a e => a + 16 * e.2.length) 0
  let d := d.wrN Reg.CW_STORE (l.length * 65536 + (bytes + 4095) / 4096)
  let dig := shake256 32 (l.flatMap fun e => bytesBE 2 (e.1 % 4096) ++ d.storedDigest e.1)
  let w := digestWords dig
  (List.range 8).foldl (fun d i => d.wrN (Reg.STORE_DIGEST i) (nth w i 0)) d

/-! ### Checks of a setup alone (R371): the failing word of every rule that fails -/

/-- A rule that reads fields up to a word. -/
def need (w : Nat) (ok : Bool) : List Nat := if ok then [] else [w]

/-- Low bits of a word are clear. -/
def lowClear (w : Word128) (n : Nat) : Bool := fld w 0 n == 0

/-- The time-domain fields of word 3, checked even while the lane is IDLE (R135, R182). -/
def tdBad (ws : List Word128) : List Nat :=
  let w := wd ws 3
  let mode := fld w 85 2
  let level := fld w 53 32
  let hyst := fld w 21 32
  need 3 (lowClear w 5) ++
  (if bit w 87 then
    need 3 (mode ≠ 3) ++ need 3 (!((mode = 0 ∨ mode = 2) ∧ level ≤ hyst))
      ++ need 3 (!((mode = 1 ∨ mode = 2) ∧ 2 ^ 32 - 1 < level + hyst))
  else [])

/-- The entry size of R164: the outputs OUTSEL selects, SK, and RFIW. -/
def detSlots (ws : List Word128) : Nat :=
  let w1 := wd ws 1
  let w2 := wd ws 2
  let sel := fld w1 72 8
  let n := ((List.range 7).filter fun b => sel / 2 ^ b % 2 = 1).length
  n * (if bit w1 71 then 1 else 2) + b2n (sel / 128 % 2 = 1) + b2n (bit w2 112 || fld w2 125 3 ≠ 0)

/-- Words 1 and 2 with DET_EN set (R159 to R161). -/
def detBad (ws : List Word128) (n : Nat) : List Nat :=
  let w1 := wd ws 1
  let w2 := wd ws 2
  let lo := fld w1 94 16
  let hi := lo + fld w1 80 14
  let mr := fld w2 125 3
  let sk := bit w2 112
  let hlo := fld w2 55 16
  need 1 (lowClear w1 70) ++ need 2 (lowClear w2 13) ++ need 1 (decide (hi < n))
    ++ need 2 (decide (fld w1 80 14 + 1 ≤ if mr ≠ 0 then 8192 else 16384))
    ++ need 2 (decide (mr ≤ 4)) ++ need 2 (!(mr ≠ 0 ∧ fld w2 113 12 < 16))
    ++ need 2 (!(sk ∧ fld w1 110 16 + 1 < 8)) ++ need 2 (!(bit w1 79 ∧ !sk))
    ++ need 2 (!(sk ∧ !bit w2 111 ∧ fld w2 103 8 = 0)) ++ need 2 (!(sk ∧ bit w2 111 ∧ fld w2 71 16 ≤ fld w2 87 16))
    ++ need 2 (!((fld w2 27 14 ≠ 0 ∨ fld w2 13 14 ≠ 0) ∧ (hlo < lo ∨ hi < hlo + fld w2 41 14)))
    ++ need 2 (!(fld w2 27 14 ≠ 0 ∧ mr = 0)) ++ need 2 (!(fld w2 13 14 ≠ 0 ∧ !sk))
    ++ need 2 (!(bit w1 126 ∧ detSlots ws = 0))

/-- Words 4 and 5 with DENS_EN set (R213 to R215). -/
def densBad (ws : List Word128) (n : Nat) : List Nat :=
  let w4 := wd ws 4
  let w5 := wd ws 5
  let cols := fld w4 106 4
  let bpc := fld w4 102 4
  let rows := fld w4 97 4
  let ranges := decide (6 ≤ cols) && decide (cols ≤ 10) && decide (bpc ≤ 10) && decide (4 ≤ rows) && decide (rows ≤ 8)
  need 4 ranges ++ need 4 (lowClear w4 45) ++ need 5 (lowClear w5 59) ++ need 4 (fld w4 69 12 ≠ 0)
    ++ need 4 (fld w4 66 2 ≠ 3) ++ need 4 (!(fld w4 66 2 = 1 ∧ fld w4 62 4 = 0))
    ++ need 4 (!(ranges ∧ n < fld w4 110 16 + 2 ^ cols * 2 ^ bpc))
    ++ need 5 (!(bit w5 127 ∧ (fld w5 107 10 < fld w5 117 10 ∨ 2 ^ cols ≤ fld w5 107 10 ∨ fld w5 91 8 < fld w5 99 8
      ∨ 2 ^ rows ≤ fld w5 91 8 ∨ fld w5 59 32 = 0)))

/-- A lane setup alone (R135, R161, R182, R215). -/
def laneBad (ws : List Word128) : List Nat :=
  let w0 := wd ws 0
  let lg := laneLog2N ws
  let n := 2 ^ lg
  if lg = 0 then tdBad ws
  else
    tdBad ws ++ need 0 (decide (6 ≤ lg) && decide (lg ≤ 16)) ++ need 0 (decide (fld w0 119 4 < 12)) ++ need 0 (fld w0 116 3 ≠ 7)
      ++ need 0 (decide (fld w0 109 5 ≤ 20)) ++ need 0 (lowClear w0 77) ++ need 0 (decide (fld w0 93 16 + fld w0 77 16 < n))
      ++ (if bit (wd ws 3) 127 then need 3 (fld (wd ws 3) 107 14 ≠ 0 ∨ fld (wd ws 3) 93 14 ≠ 0) else [])
      ++ (if bit (wd ws 1) 127 then detBad ws n else []) ++ (if bit (wd ws 4) 127 then densBad ws n else [])

/-- REF_IN is `num / den` Hz (R48): 2^64 over the period in force. -/
def Dev.refNum (d : Dev) : Nat := 2 ^ 64 * d.tb.remDen
def Dev.refDen (d : Dev) : Nat := d.tb.period * d.tb.remDen + d.tb.remNum

/-- A port setup alone (R75, R97). The reserved bits of a slot word without START are not checked, since R97 ignores every other field of such a word (log entry 110). -/
def Dev.portBad (d : Dev) (ws : List Word128) : List Nat :=
  let w0 := wd ws 0
  let l := portL ws
  let m := portM ws
  let f := portF ws
  let s := portS ws
  let w := portW ws
  let real := portReal ws
  let coding := fld w0 126 2
  let cn := if coding = 1 then 80 else 66
  let rate := d.refNum * (8 * f * portMul ws) * cn
  let unit := d.refDen * (portDiv ws * s) * 64
  let used := (List.range (min l 24)).map (laneMap ws)
  need 0 (decide (coding < 2) && decide (fld w0 122 2 < 2) && decide (l ≤ 24) && decide (fld w0 96 3 < 5) && decide (fld w0 76 2 < 3) && decide (fld w0 124 2 < 2))
    ++ need 0 (lowClear w0 76) ++ need 1 (fld (wd ws 1) 120 8 == 0) ++ need 2 (lowClear (wd ws 2) 73)
    ++ need 0 (f * 8 * l == m * s * 16 && decide (2 ≤ f) && decide (f ≤ 256)) ++ need 0 (256 * portE ws % f == 0)
    ++ need 0 (decide (fld w0 96 3 + 12 + fld w0 94 2 ≤ 16)) ++ need 0 (real || m % 2 == 0)
    ++ need 0 (decide ((if real then m else m / 2) * w ≤ 8))
    ++ need 0 (decide (6375000000 * unit ≤ rate) && decide (rate ≤ 32000000000 * unit))
    ++ need 0 (decide (d.refNum * portMul ws ≤ w * 2560000000 * d.refDen * portDiv ws * (if real then 2 else 1)))
    ++ need 1 (used.all (· < 24) && (List.range used.length).all fun i => !((used.drop (i + 1)).contains (nth used i 0)))
    ++ (List.range 8).flatMap fun k =>
      let x := wd ws (3 + k)
      (if bit x 127 then need (3 + k) (lowClear x 52) ++ need (3 + k) (k % w == 0) ++ need (3 + k) (decide (fld x 121 5 ≤ 16))
        ++ need (3 + k) (decide (fld x 52 4 < m) && (real || fld x 52 4 % 2 == 0))
      else [])

/-- The SOURCE_ID of a window fits its KIND (R319, R327). -/
def winSourceOk (kind src : Nat) : Bool :=
  match kind with
  | 0 => (sourceRegion src).isSome
  | 1 => decide (0x1000 ≤ src) && decide (src < 0x1030)
  | 2 => decide (0x3000 ≤ src) && decide (src < 0x3010)
  | _ => false

/-- A cluster setup alone (R326, R327). -/
def clusterBad (ws : List Word128) : List Nat :=
  let same := fun (a b : Word128) => bit a 127 && bit b 127 && fld a 99 6 == fld b 99 6
  need 0 (fld (wd ws 0) 126 2 ≠ 0) ++ need 0 (lowClear (wd ws 0) 126)
    ++ ((List.range 16).flatMap fun w =>
      let x := winWord ws w
      let e := fld x 101 4
      need (1 + w) (lowClear x 23) ++
      (if bit x 127 then need (1 + w) (winSourceOk (fld x 125 2) (fld x 109 16)) ++ need (1 + w) (decide (fld x 105 4 ≤ 4))
        ++ need (17 + e) (bit (engWord ws e) 127) ++ need (1 + w) (!((List.range w).any fun v => same (winWord ws v) x))
      else []))
    ++ (List.range 16).flatMap fun i =>
      let x := engWord ws i
      need (17 + i) (lowClear x 27) ++ need (17 + i) ((List.range 8).all fun k => decide (evsel x k < 1536) || evsel x k == 0x7FF)

/-- Words A and B of flow f, and its sources that are not 0x1FF (R468). -/
def flowA (ws : List Word128) (f : Nat) : Word128 := wd ws (1 + 2 * f)
def flowB (ws : List Word128) (f : Nat) : Word128 := wd ws (2 + 2 * f)
def flowSrcs (a : Word128) : List Nat := ((List.range 4).map fun j => fld a (37 - 9 * j) 9).filter (· ≠ 0x1FF)

/-- Item words a packet of a flow carries (R472). -/
def packetWords (ws : List Word128) (a : Word128) : Nat := (fld (wd ws 0) 114 14 - (if bit a 126 then 40 else 20) - 52) / 16

/-- A flow setup alone (R468, R469, R563). -/
def flowBad (ws : List Word128) : List Nat :=
  let w0 := wd ws 0
  need 0 (decide (576 ≤ fld w0 114 14) && decide (fld w0 114 14 ≤ 9000)) ++ need 0 (fld w0 106 8 ≠ 0) ++ need 0 (lowClear w0 50)
    ++ (List.range 256).flatMap fun f =>
      let a := flowA ws f
      let b := flowB ws f
      let src := flowSrcs a
      need (1 + 2 * f) (lowClear a 10) ++ need (1 + 2 * f) (!(bit a 127 ∧ (fld a 84 16 = 0 ∨ src.isEmpty)))
        ++ need (1 + 2 * f) (src.all (· < 259)) ++ need (1 + 2 * f) (!(20 ≤ fld a 47 5 ∧ fld a 47 5 ≤ 30))
        ++ need (1 + 2 * f) (!(src.contains 257 ∧ packetWords ws a < 72))
        ++ need (2 + 2 * f) (!(!bit a 126 ∧ fld b 32 96 ≠ 0))

/-- The failing words of a setup alone. -/
def Dev.setupBad (d : Dev) (t : Nat) (ws : List Word128) : List Nat :=
  if t < 48 then laneBad ws else if t < 54 then d.portBad ws else if t < 62 then clusterBad ws else flowBad ws

/-- The failing word of a table, if a rule fails (R112, R178, R371). -/
def tableBad (code : Nat) (ws : List Word128) : Option Nat :=
  let h := wd ws 0
  let body := (List.range ws.length).drop 1
  if code / 4096 = 8 then
    if fld h 5 123 ≠ 0 ∨ fld h 0 5 < 6 ∨ 16 < fld h 0 5 then some 0
    else body.find? fun j => !((List.range 4).all fun q => fld (wd ws j) (114 - 32 * q) 14 == 0)
  else if fld h 10 118 ≠ 0 then some 0
  else body.find? fun j =>
    let w := wd ws j
    fld w 96 14 ≠ 0 || fld w 0 32 ≠ 0 || (decide (2 ≤ j) && decide (fld w 112 16 ≤ fld (wd ws (j - 1)) 112 16))

/-- The words a table's header calls for. -/
def tableWords (code : Nat) (h : Word128) : Nat := if code / 4096 = 8 then 1 + 2 ^ fld h 0 5 / 4 else 2 + fld h 0 10

/-- The words an image's header calls for (R326). -/
def imageWords (h : Word128) : Nat := 1 + (fld h 115 13 + 1) / 2 + fld h 103 12

/-! ### Checks across objects (R372) -/

/-- FLAT_LOADED of a group. -/
def Dev.flatLoaded (d : Dev) (g : Nat) : Bool := d.on (Reg.DET_STATUS g) 0

/-- A lane setup against what lies outside it: tables, FLAT_LOADED, and a port setup that binds it (R107, R112, R161, R182, R215). -/
def Dev.laneFits (d : Dev) (l : Nat) (ws pw : List Word128) : Bool :=
  let g := l / 12
  let lg := laneLog2N ws
  let n := 2 ^ lg
  let win := fld (wd ws 0) 119 4
  let w1 := wd ws 1
  let w3 := wd ws 3
  let w4 := wd ws 4
  let t := d.object (0x8000 + 4 * g + (win - 8))
  if lg = 0 then true
  else
    !(8 ≤ win ∧ win ≤ 11 ∧ (t.isEmpty ∨ userLog2 t < lg))
      && !(bit w3 127 && (d.object (0x9000 + 32 * g + fld w3 122 5)).isEmpty)
      && (d.flatLoaded g || !((bit w3 127 && bit w3 121) || (bit w1 127 && bit w1 70) || (bit w4 127 && bit w4 45)))
      && (if streamSlot pw (l % 8) ≠ some (l % 8) then true
        else
          let w := portW pw
          decide (d.refNum * portMul pw * 2 ^ fld (wd ws 0) 116 3
              ≤ w * 10240000000 * d.refDen * portDiv pw * (if portReal pw then 2 else 1) * 2 ^ slotDec pw (l % 8))
            && !(bit w1 127 && (fld w1 110 16 + 1) % w ≠ 0)
            && !(bit w4 127 && decide ((fld w4 46 16 + 1) * n < w * 2 ^ fld w4 106 4 * 2 ^ fld w4 97 4)))

/-- The setups of a target that a rule is checked against: the group's own, which will be in force; else those in force and armed, where they exist (R107, R372). -/
def Dev.related (d : Dev) (grp : List (Nat × List Word128)) (t : Nat) : List (List Word128) :=
  match grp.find? fun p => p.1 = t with
  | some p => [p.2]
  | none => [d.force t, d.armed t].filter fun ws => !ws.isEmpty

/-- An image can run (R327). -/
def imageOk (ws : List Word128) : Bool :=
  let h := wd ws 0
  let n := fld h 115 13
  !ws.isEmpty && decide (1 ≤ n) && decide (n ≤ 4096) && decide (fld h 103 12 ≤ 2048) && decide (fld h 91 12 < n) && decide (fld h 79 12 + 95 < n)

/-- What a flow setup feeds: region and port with flow, context and port with flow, of enabled flows. -/
def flowUses (p : Nat) (ws : List Word128) : List (Nat × Nat) × List (Nat × Nat) :=
  let on := (List.range 256).filter fun f => bit (flowA ws f) 127
  (on.flatMap fun f => (flowSrcs (flowA ws f)).map fun r => (r, 256 * p + f),
   (on.filter fun f => fld (flowA ws f) 47 5 ≠ 31).map fun f => (fld (flowA ws f) 47 5, 256 * p + f))

/-- No key is used by two flows. -/
def usedOnce : List (Nat × Nat) → Bool
  | [] => true
  | a :: l => !(l.any fun b => b.1 = a.1) && usedOnce l

/-- A setup against everything outside it (R372). -/
def Dev.setupFits (d : Dev) (grp : List (Nat × List Word128)) (t : Nat) (ws : List Word128) : Bool :=
  if t < 48 then
    match d.related grp (48 + t / 8) with
    | [] => d.laneFits t ws []
    | l => l.all fun pw => d.laneFits t ws pw
  else if t < 54 then
    (List.range 8).all fun k =>
      let l := 8 * (t - 48) + k
      (d.related grp l).all fun lw => d.laneFits l lw ws
  else if t < 62 then
    ((clusterNames ws).all fun c => imageOk (d.object c))
      && (List.range 16).all fun w =>
        let x := winWord ws w
        !(bit x 127 && fld x 125 2 == 1 && decide (ofShort (fld x 23 64) < d.now))
  else
    let p := t - 62
    let mine := flowUses p ws
    usedOnce mine.1 && usedOnce mine.2 && (d.related grp (62 + (1 - p))).all fun other =>
      let o := flowUses (1 - p) other
      (mine.1.all fun a => !(o.1.any fun b => b.1 = a.1)) && (mine.2.all fun a => !(o.2.any fun b => b.1 = a.1))

/-! ### Commands and completions (R366 to R370) -/

/-- A command entry. -/
structure Cmd where
  w0 : Word128
  op : Nat
  target : Nat
  slot : Nat
  postpone : Bool
  count : Nat
  addr : Nat
  time : Nat
  bad : Bool
deriving DecidableEq, Repr

/-- A command entry of four words (R367): whether a reserved bit, or a field its opcode does not use, is set. -/
def readCmd (ws : List Word128) : Cmd :=
  let w0 := wd ws 0
  let w1 := wd ws 1
  let op := fld w0 120 8
  let time := fld w1 0 64
  { w0 := w0, op := op, target := fld w0 104 16, slot := fld w0 100 4, postpone := bit w0 99, count := fld w0 64 24, addr := fld w1 80 48, time := time
    bad := fld w0 88 11 ≠ 0 || fld w1 64 16 ≠ 0 || wd ws 2 ≠ 0 || wd ws 3 ≠ 0 || (bit w0 99 && op ≠ 4)
      || (time ≠ 0 && op ≠ 4 && op ≠ 5) || (op == 5 && decide (256 ≤ time)) || op == 0 || decide (8 < op) }

/-- Entries between HEAD and TAIL of the completion ring; it holds one fewer than its size. -/
def Dev.cwFull (d : Dev) : Bool :=
  let n := 2 ^ d.f Reg.CW_CTRL 0 4
  (d.n Reg.CW_DONE_HEAD + n - d.n Reg.CW_DONE_TAIL % n) % n == n - 1

/-- The bits of CW_STATUS and CW_GROUPS that follow the state (R381, R382). -/
def Dev.showCw (d : Dev) : Dev :=
  let d := d.putB Reg.CW_STATUS 0 (d.n Reg.CW_CMD_HEAD = d.n Reg.CW_CMD_TAIL)
  let d := (d.putB Reg.CW_STATUS 1 (!d.cw.groups.isEmpty)).putB Reg.CW_STATUS 2 d.cwFull
  d.wrN Reg.CW_GROUPS d.cw.groups.length

/-- A ring access was denied: EN clears and RING_FAULT sets (R370, R382). -/
def Dev.ringFault (d : Dev) : Dev := ((d.clrB Reg.CW_CTRL 31).sqEvent Reg.CW_STATUS 7 1494).showCw

/-- Writes waiting completion entries while the ring has room, by fuel (R370). -/
def flushDone : Nat → Sys → Sys
  | 0, s => s
  | k + 1, s =>
    let d := s.dev
    match d.cw.waiting with
    | [] => s
    | e :: l =>
      if d.cw.held ∨ d.cwFull then s
      else
        let n := 2 ^ d.f Reg.CW_CTRL 0 4
        let head := d.n Reg.CW_DONE_HEAD
        let q := memWrite 0x1E3 22 (d.n64 Reg.CW_DONE_BASE_LO Reg.CW_DONE_BASE_HI + 64 * head) (e.flatMap memWord) s
        match q.2 with
        | .ok _ =>
          let d := q.1.dev
          let d := { d with cw := { d.cw with waiting := l } }
          let d := d.wrN Reg.CW_DONE_HEAD ((head + 1) % n)
          let d := if head = d.n Reg.CW_DONE_TAIL then d.raise 1490 else d
          flushDone k { q.1 with dev := d }
        | _ => q.1.on fun d => ({ d with cw := { d.cw with held := true } }).ringFault

/-- The waiting entries are written as far as they can be. -/
def Sys.flush (s : Sys) : Sys := (flushDone s.dev.cw.waiting.length s).on Dev.showCw

/-- A completion entry (R370): `own` marks a command's own completion, which sets REFUSED for a RESULT of 0x10 or above (R382). -/
def Sys.done (s : Sys) (c : Cmd) (result : Nat) (own : Bool := true) (target : Nat := c.target) (slot : Nat := c.slot) (group : Nat := 0)
    (detail : Nat := 0) (time : Option Word128 := none) (digest : List Byte := []) : Sys :=
  let d := s.dev
  let w0 : Word128 := packBE 128 [(c.op, 8), (result, 8), (target, 16), (slot, 4), (group, 8), (detail, 20), (fld c.w0 0 64, 64)]
  let dg := natBE (digest ++ List.replicate (32 - digest.length) 0)
  let e : Done := [w0, time.getD (d.timeWord 4 false d.now), BitVec.ofNat 128 (dg / 2 ^ 128), BitVec.ofNat 128 dg]
  let d := { d with cw := { d.cw with waiting := d.cw.waiting ++ [e] } }
  let d := if own ∧ 0x10 ≤ result then d.sqEvent Reg.CW_STATUS 6 1493 else d
  { s with dev := d }.flush

/-- A refused or plainly completed command. -/
def Sys.end_ (s : Sys) (c : Cmd) (result : Nat) : Sys := s.done c result

/-- Fetches the command at TAIL and, if it is of the kind asked for, executes it and advances TAIL (R366). Nothing happens while EN is clear, a completion waits, the completion ring is full or the command ring is empty. -/
def cwRun (mine : Cmd → Bool) (f : Cmd → Sys → Sys) (s : Sys) : Sys :=
  let d := s.dev
  let tail := d.n Reg.CW_CMD_TAIL
  if !d.on Reg.CW_CTRL 31 ∨ !d.cw.waiting.isEmpty ∨ d.cwFull ∨ tail = d.n Reg.CW_CMD_HEAD then s
  else
    match memRead 0x1E3 22 (d.n64 Reg.CW_CMD_BASE_LO Reg.CW_CMD_BASE_HI + 64 * tail) 64 s.mem d with
    | (e, .ok l) =>
      let c := readCmd (words128 l)
      if !mine c then s
      else
        let s := { s with dev := e.wrN Reg.CW_CMD_TAIL ((tail + 1) % 2 ^ e.f Reg.CW_CTRL 8 4) }
        (if c.bad then s.end_ c 0x10 else f c s).on Dev.showCw
    | (e, _) => { s with dev := e.ringFault }

/-- Reads words that a command names: the words, or the result 0x1D DENIED or 0x22 MEM_UE (R368). -/
def cwFetch (a n : Nat) (s : Sys) : Sys × Nat × List Byte :=
  match memRead 0x1E3 22 a n s.mem s.dev with
  | (d, .ok l) => ({ s with dev := d }, 0, l)
  | (d, .denied) => ({ s with dev := d }, 0x1D, [])
  | (d, .ue _) => ({ s with dev := d }, 0x22, [])

/-! ### Commands on slots, tables and images (R363 to R371) -/

/-- WRITE (R368): the slot is HELD if the setup passes R371, and unchanged otherwise. -/
def cwWriteCmd (c : Cmd) (s : Sys) : Sys :=
  match targetNum c.target with
  | none => s.end_ c 0x11
  | some t =>
    if c.count ≠ targetLen t then s.end_ c 0x12
    else if c.addr % 16 ≠ 0 then s.end_ c 0x21
    else if 2 ≤ (s.dev.slot t c.slot).st then s.end_ c 0x14
    else
      let r := cwFetch c.addr (16 * c.count) s
      let s := r.1
      if r.2.1 ≠ 0 then s.end_ c r.2.1
      else
        let ws := words128 r.2.2
        match lowest (s.dev.setupBad t ws) with
        | some k => s.done c 0x13 (detail := k)
        | none => (s.on fun d => d.setSlot t c.slot { st := 1, words := ws }).done c 0 (digest := s.dev.setupDigest t ws)

/-- A table code (R362). -/
def isTable (code : Nat) : Bool := (code / 4096 == 8 && decide (code % 4096 < 16)) || (code / 4096 == 9 && decide (code % 4096 < 128))

/-- READ (R368): the words of the slot, table or image go to ADDR. -/
def cwReadCmd (c : Cmd) (s : Sys) : Sys :=
  let d := s.dev
  let t := targetNum c.target
  let known := t.isSome || isTable c.target || c.target / 4096 == 0xA
  let ws := match t with
    | some t => (d.slot t c.slot).words
    | none => d.object c.target
  let dig := match t with
    | some t => d.setupDigest t ws
    | none => d.storedDigest c.target
  if !known then s.end_ c 0x11
  else if t.isNone ∧ c.slot ≠ 0 then s.end_ c 0x10
  else if c.addr % 16 ≠ 0 then s.end_ c 0x21
  else if ws.isEmpty then s.end_ c 0x17
  else
    let q := memWrite 0x1E3 22 c.addr (ws.flatMap memWord) s
    match q.2 with
    | .ok _ => q.1.done c 0 (digest := dig)
    | .denied => q.1.end_ c 0x1D
    | .ue _ => q.1.end_ c 0x22

/-- CLEAR (R363, R365, R368). -/
def cwClearCmd (c : Cmd) (s : Sys) : Sys :=
  match targetNum c.target with
  | some t =>
    if 2 ≤ (s.dev.slot t c.slot).st then s.end_ c 0x14
    else (s.on fun d => d.setSlot t c.slot {}).end_ c 0
  | none =>
    if !isTable c.target then s.end_ c 0x11
    else if c.slot ≠ 0 then s.end_ c 0x10
    else if s.dev.inUse c.target then s.end_ c 0x1B
    else (s.on fun d => { d with cw := { d.cw with tables := d.cw.tables.erase c.target } }).end_ c 0

/-- TABLE_WRITE (R365, R368, R371). -/
def cwTableCmd (c : Cmd) (s : Sys) : Sys :=
  if !isTable c.target then s.end_ c 0x11
  else if c.slot ≠ 0 then s.end_ c 0x10
  else if c.addr % 16 ≠ 0 then s.end_ c 0x21
  else if s.dev.inUse c.target then s.end_ c 0x1B
  else if c.count = 0 ∨ (if c.target / 4096 = 8 then 16385 else 1025) < c.count then s.end_ c 0x12
  else
    let r := cwFetch c.addr (16 * c.count) s
    let s := r.1
    let ws := words128 r.2.2
    if r.2.1 ≠ 0 then s.end_ c r.2.1
    else if tableBad c.target (ws.take 1) = some 0 then s.done c 0x13 (detail := 0)
    else if c.count ≠ tableWords c.target (wd ws 0) then s.end_ c 0x12
    else
      match tableBad c.target ws with
      | some k => s.done c 0x13 (detail := k)
      | none =>
        let s := s.on fun d => { d with cw := { d.cw with tables := d.cw.tables.set (fun _ => []) c.target ws } }
        s.done c 0 (digest := s.dev.storedDigest c.target)

/-- IMAGE_LOAD (R364, R551): the signed image at ADDR is its 256-byte header and COUNT image words; only the payload is stored. -/
def cwImageCmd (c : Cmd) (s : Sys) : Sys :=
  if c.target / 4096 ≠ 0xA then s.end_ c 0x11
  else if c.slot ≠ 0 then s.end_ c 0x10
  else if c.addr % 16 ≠ 0 then s.end_ c 0x21
  else if s.dev.inUse c.target then s.end_ c 0x1B
  else if c.count < 2 ∨ 4097 < c.count then s.end_ c 0x12
  else
    let r := cwFetch c.addr (256 + 16 * c.count) s
    let s := r.1
    let h := r.2.2.take 256
    let payload := r.2.2.drop 256
    let ws : List Word128 := (chunks 16 payload).map fun b => BitVec.ofNat 128 (natBE b)
    if r.2.1 ≠ 0 then s.end_ c r.2.1
    else if hdrField h 12 4 ≠ 16 * c.count ∨ imageWords (wd ws 0) ≠ c.count then s.end_ c 0x12
    else
      let v := s.dev.verifyImage 3 h payload
      if v ≠ 0 then (s.on fun d => ((d.lastFail h v (c.target % 4096)).setB Reg.TR_STATUS 7).event Reg.TR_STATUS 1497).end_ c 0x1C
      else
        let others := (s.dev.storeList.filter fun e => e.1 ≠ c.target).foldl (fun a e => a + 16 * e.2.length) 0
        if 0x4000000 < others + 16 * c.count then s.end_ c 0x20
        else
          let s := s.on fun d => ({ d with cw := { d.cw with images := d.cw.images.set (fun _ => []) c.target ws } }).showStore
          s.done c 0 (digest := s.dev.storedDigest c.target)

/-- IMAGE_DROP (R365, R368). -/
def cwDropCmd (c : Cmd) (s : Sys) : Sys :=
  if c.target / 4096 ≠ 0xA then s.end_ c 0x11
  else if c.slot ≠ 0 then s.end_ c 0x10
  else if s.dev.inUse c.target then s.end_ c 0x1B
  else (s.on fun d => ({ d with cw := { d.cw with images := d.cw.images.erase c.target } }).showStore).end_ c 0

/-! ### Arming and switching (R372 to R377) -/

/-- A pair of an ARM: the 32-bit word, and the target number it names. -/
def pairTarget (w : Nat) : Option Nat := if w / 16 % 4096 ≠ 0 then none else targetNum (w / 65536)

/-- The first pair that fails a test. -/
def firstPair (l : List Nat) (p : Nat → Bool) : Option Nat := l.find? p

/-- ARM (R372, R373, R379). -/
def cwArmCmd (c : Cmd) (s : Sys) : Sys :=
  if c.count = 0 ∨ 64 < c.count then s.end_ c 0x12
  else if c.addr % 16 ≠ 0 then s.end_ c 0x21
  else
    let r := cwFetch c.addr (4 * c.count) s
    let s := r.1
    let d := s.dev
    let ws := (chunks 4 r.2.2).map natLE
    let tn := fun w => (pairTarget w).getD 64
    let fail := fun (w res : Nat) => s.done c res (target := w / 65536) (slot := w % 16)
    let dup := (List.range ws.length).find? fun j => (pairTarget (nth ws j 0)).isNone || ((ws.take j).any fun v => tn v = tn (nth ws j 0))
    let st := fun w => (d.slot (tn w) (w % 16)).st
    if r.2.1 ≠ 0 then s.end_ c r.2.1
    else
      match dup with
      | some j => fail (nth ws j 0) 0x11
      | none =>
        match ws.find? fun w => st w = 0 with
        | some w => fail w 0x17
        | none =>
          match ws.find? fun w => decide (2 ≤ st w) with
          | some w => fail w 0x14
          | none =>
            match ws.find? fun w => (d.slotIn (tn w) 2).isSome with
            | some w => fail w 0x15
            | none =>
              match ws.find? fun w => !d.domUp (targetDomain (tn w)) with
              | some w => fail w 0x1A
              | none =>
                let grp := ws.map fun w => (tn w, (d.slot (tn w) (w % 16)).words)
                if 16 ≤ d.cw.groups.length then s.end_ c 0x1F
                else
                  match (List.range ws.length).find? fun j =>
                      let p := nth grp j (0, [])
                      !(d.setupBad p.1 p.2).isEmpty || !d.setupFits grp p.1 p.2 with
                  | some j => s.done c 0x16 (target := nth ws j 0 / 65536) (slot := nth ws j 0 % 16) (detail := j)
                  | none =>
                    let g := d.cw.next % 256
                    let dig := shake256 32 (grp.flatMap fun p => d.setupDigest p.1 p.2)
                    let d := ws.foldl (fun d w =>
                      let t := tn w
                      let d := d.setSlot t (w % 16) { d.slot t (w % 16) with st := 2 }
                      (d.wrF (Reg.TGT_STATE t) 0 8 g).showTarget t) d
                    let rec0 : Grp := {
                      num := g, tag := fld c.w0 0 64, pairs := ws.map fun w => (tn w, w % 16), time := ofShort c.time
                      postpone := c.postpone, cmd := c.w0 }
                    let d := { d with cw := { d.cw with groups := d.cw.groups ++ [rec0], next := (g + 1) % 256 } }
                    ({ s with dev := d }).done c 0x01 (group := g) (digest := dig)
where
  /-- The power domain of a target. -/
  targetDomain (t : Nat) : Nat :=
    if t < 48 then 9 + t / 12 else if t < 54 then 3 + (t - 48) else if t < 62 then 13 + (t - 54) else 2

/-- The armed group of a number. -/
def Dev.group? (d : Dev) (g : Nat) : Option Grp := d.cw.groups.find? fun x => x.num = g

/-- A group leaves the armed ones. -/
def Dev.dropGroup (d : Dev) (g : Nat) : Dev := { d with cw := { d.cw with groups := d.cw.groups.filter fun x => x.num ≠ g } }

/-- Changes a group. -/
def Dev.setGrp (d : Dev) (x : Grp) : Dev := { d with cw := { d.cw with groups := d.cw.groups.map fun y => if y.num = x.num then x else y } }

/-- The command of a group, for its final completion. -/
def Grp.command (x : Grp) : Cmd := { readCmd [x.cmd] with bad := false }

/-- A group is abandoned: its slots return to HELD, and its final completion is written (R375 to R377). -/
def abandonGroup (x : Grp) (result : Nat) (s : Sys) : Sys :=
  let d := x.pairs.foldl (fun d p =>
    let k := d.slot p.1 p.2
    let d := (if k.st = 2 then d.setSlot p.1 p.2 { k with st := 1 } else d).showTarget p.1
    if 54 ≤ p.1 ∧ p.1 < 62 then d.clrB (Reg.CL_STATUS (p.1 - 54)) 1 else d) s.dev
  let d := d.dropGroup x.num
  let s := ({ s with dev := d }).done x.command result (own := false) (group := x.num)
  if result = 0x18 ∨ result = 0x19 then s.on fun d => d.sqEvent Reg.CW_STATUS 5 1492 else s

/-- The decision of a group has been taken. -/
def Grp.decided (x : Grp) : Bool := x.committed || x.late

/-- CANCEL (R376). -/
def cwCancelCmd (c : Cmd) (s : Sys) : Sys :=
  let g := c.time
  match s.dev.group? g with
  | none => s.done c 0x1E (group := g)
  | some x =>
    if x.decided then s.done c 0x05 (group := g)
    else abandonGroup x 0x04 (s.done c 0x04 (group := g))

/-- A target acknowledges that it holds its armed setup; a cluster first writes the changed images into its shadow banks (R327, R373). -/
def targetAck (t : Nat) (d : Dev) : Dev :=
  match d.cw.groups.find? fun x => x.pairs.any (fun p => p.1 = t) && !(x.acked.contains t) with
  | none => d
  | some x =>
    let d := if 54 ≤ t ∧ t < 62 then d.loadShadows (t - 54) (d.armed t) else d
    d.setGrp { x with acked := x.acked ++ [t] }

/-- Every target of a group has acknowledged. -/
def Grp.ready (x : Grp) : Bool := x.pairs.all fun p => x.acked.contains p.1

/-- A group is committed at this edge with its effective time (R374, R375). -/
def Dev.commitGroup (d : Dev) (x : Grp) (teff : Nat) : Dev :=
  d.setGrp { x with committed := true, edge := d.tb.edges, teff := teff }

/-- The decision edge of a group: the first REF_IN edge at or after T − 200 ns (R374, R375). -/
def decisionEdge (g : Nat) (s : Sys) : Sys :=
  match s.dev.group? g with
  | none => s
  | some x =>
    if x.decided ∨ s.dev.now + nsUnits 200 < x.time then s
    else if x.ready then s.on fun d => d.commitGroup x x.time
    else if x.postpone then s.on fun d => d.setGrp { x with late := true }
    else abandonGroup x 0x18 s

/-- A late group is committed at the first edge after its last acknowledgement, 200 ns ahead (R375). -/
def lateCommit (g : Nat) (d : Dev) : Dev :=
  match d.group? g with
  | none => d
  | some x => if x.late ∧ !x.committed ∧ x.ready then d.commitGroup x (d.now + nsUnits 200) else d

/-- A late group not acknowledged at T + LATE_LIMIT ends with TIMEOUT (R375). -/
def lateLimit (g : Nat) (s : Sys) : Sys :=
  match s.dev.group? g with
  | none => s
  | some x =>
    if x.late ∧ !x.committed ∧ !x.ready ∧ elapsedNs x.time s.dev.now (max 1 (s.dev.f Reg.CW_LATE_LIMIT 0 16) * 1000000) then abandonGroup x 0x19 s
    else s

/-- The strobe of a commit is sampled 16 REF_IN periods after its edge (R374). -/
def commitStrobe (g : Nat) (d : Dev) : Dev :=
  match d.group? g with
  | none => d
  | some x => if x.committed ∧ !x.strobed ∧ x.edge + 16 ≤ d.tb.edges then d.setGrp { x with strobed := true } else d

/-- Every target of a committed group has passed its boundary (R374, R375, R382). -/
def switchComplete (g : Nat) (s : Sys) : Sys :=
  match s.dev.group? g with
  | none => s
  | some x =>
    if !x.strobed ∨ x.pairs.any (fun p => !(x.passed.contains p.1)) then s
    else
      let d := (s.dev.dropGroup g).add Reg.CW_SWITCHES 1
      let dig := d.deviceDigest
      let w := digestWords dig
      let d := (List.range 8).foldl (fun d i => d.wrN (Reg.CW_SDIGEST i) (nth w i 0)) d
      let s := ({ s with dev := d }).done x.command (if x.late then 0x03 else 0x02) (own := false) (group := g)
        (time := some (d.timeWord 4 false x.teff)) (digest := dig)
      let s := s.on fun d => d.sqEvent Reg.CW_STATUS 4 1491
      if x.late then s.on fun d => d.sqEvent Reg.CW_STATUS 5 1492 else s

/-! ### Registers of the block (R369, R370, R381) -/

/-- A write of CW_CMD_HEAD (R369): a value beyond the ring is a locked write. -/
def cmdHead (i : Ini) (v : Word) (d : Dev) : Dev :=
  let h := fld v 0 12
  if 2 ^ d.f Reg.CW_CTRL 8 4 ≤ h then d.lateWrite i Reg.CW_CMD_HEAD 4 else (d.wrN Reg.CW_CMD_HEAD h).showCw

/-- A write of CW_DONE_TAIL: waiting entries follow (R370). -/
def doneTail (v : Word) (s : Sys) : Sys := (s.on fun d => (d.wrN Reg.CW_DONE_TAIL (fld v 0 12)).showCw).flush

/-- A write of CW_CTRL (R370, R381): a LOG2 field does not change while EN is 1; setting EN releases the entries a denied write held back. -/
def cwCtrl (i : Ini) (v : Word) (s : Sys) : Sys :=
  let d := s.dev
  let n := normCwCtrl 0 0 v.toNat
  if d.on Reg.CW_CTRL 31 ∧ n % 2 ^ 31 ≠ d.n Reg.CW_CTRL % 2 ^ 31 then s.on fun d => d.lateWrite i Reg.CW_CTRL 4
  else
    let d := d.wrN Reg.CW_CTRL n
    let d := if bit v 31 then { d with cw := { d.cw with held := false } } else d
    ({ s with dev := d }).flush

end Sys2Proof.Machine
end

