-- ==== Sys2Proof/Machine/Compress.lean ====
section
/-! DEFINITION. The compression contexts and the replay decompressor (chapter Stream-Out and Compression). -/
namespace Sys2Proof.Machine

/-! ### Registers of contexts 0 to 19 (R482) -/

/-- The key of a context's register at an offset of its block: K0 to K15, then KP0 to KP3. -/
def ctxReg (c off : Nat) : Nat := if c < 16 then 0x260100 + 64 * c + off else 0x268100 + 64 * (c - 16) + off

def Dev.ctx (d : Dev) (c : Nat) : CtxSt := d.ctxs.get (fun _ => {}) c
def Dev.setCtx (d : Dev) (c : Nat) (x : CtxSt) : Dev := { d with ctxs := d.ctxs.set (fun _ => {}) c x }

/-- MODE of a context: fixed-ratio. -/
def Dev.ctxFixed (d : Dev) (c : Nat) : Bool := d.on (ctxReg c 0) 31

/-- Adds to a 64-bit count of a context. -/
def Dev.ctxAdd64 (d : Dev) (c off v : Nat) : Dev :=
  d.wr64 (ctxReg c off) (ctxReg c (off + 4)) ((d.n64 (ctxReg c off) (ctxReg c (off + 4)) + v) % 2 ^ 64)

/-- The initiator of a context (R537). -/
def ctxIni (c : Nat) : Ini := BitVec.ofNat 10 (0x180 + c)

/-- A flow setup in force or armed names a context (R479, R482). -/
def Dev.ctxNamed (d : Dev) (c : Nat) : Bool :=
  [0, 1].any fun p => [d.force (62 + p), d.armed (62 + p)].any fun ws => (flowUses p ws).2.any fun u => u.1 = c

/-- The flow that a context serves, as 256 × port + flow. -/
def Dev.ctxFlow (d : Dev) (c : Nat) : Option Nat :=
  [0, 1].findSome? fun p => ((flowUses p (d.force (62 + p))).2.find? fun u => u.1 = c).map (·.2)

/-! ### Stream-out ports and their flows -/

def Dev.soSt (d : Dev) (p : Nat) : SoSt := d.so.get (fun _ => {}) p
def Dev.setSo (d : Dev) (p : Nat) (x : SoSt) : Dev := { d with so := d.so.set (fun _ => {}) p x }
def Dev.flow (d : Dev) (p f : Nat) : FlowSt := (d.soSt p).flows.get (fun _ => {}) f
def Dev.setFlow (d : Dev) (p f : Nat) (x : FlowSt) : Dev :=
  d.setSo p { d.soSt p with flows := (d.soSt p).flows.set (fun _ => {}) f x }

/-- An item joins its flow's others. -/
def Dev.addItem (d : Dev) (p f : Nat) (i : SoItem) : Dev :=
  d.setFlow p f { d.flow p f with items := (d.flow p f).items ++ [i] }

/-- The words a context's output buffer holds: those of its flow not yet sent. A block's code words leave for the port's transmit buffer as they are made (log entry 63). -/
def Dev.ctxHeld (d : Dev) (c : Nat) : Nat :=
  match d.ctxFlow c with
  | some u => (d.flow (u / 256) (u % 256)).items.foldl (fun a i => a + i.words.length) 0
  | none => 0

/-- A stall (R478). -/
def Dev.ctxStall (d : Dev) (c : Nat) : Dev :=
  ((d.setB (ctxReg c 4) 30).addSat (ctxReg c 0x1C) 1).sqEvent Reg.CP_STATUS 2 1528

/-! ### Fixed-ratio coding (R475) -/

/-- The bits of a component for a BCODE. -/
def codeBits (bcode : Nat) : Nat := nth [12, 10, 8, 6, 4] (min 4 bcode) 4

/-- The range of b bits. -/
def fitsS (b : Nat) (v : Int) : Bool := decide (-(2 ^ (b - 1)) ≤ v) && decide (v ≤ 2 ^ (b - 1) - 1)

/-- The smallest shift from s on at which all components fit, by fuel; the flag says that one was found. -/
def findShift (b : Nat) (l : List Int) : Nat → Nat → Nat × Bool
  | 0, s => (s, l.all fun x => fitsS b (rshr x s))
  | n + 1, s => if l.all fun x => fitsS b (rshr x s) then (s, true) else findShift b l n (s + 1)

/-- A block of 256 components coded: its words and how many components saturated. -/
def codeBlock (bcode : Nat) (l : List Int) : List Word128 × Nat :=
  let b := codeBits bcode
  let (s, fit) := findShift b l (16 - b) 0
  let q := l.map fun x => rshr x s
  let sats := if fit then 0 else (q.filter fun v => !fitsS b v).length
  let v := q.foldl (fun a x => a * 2 ^ b + wrapU b (satS b x)) 0
  (packBE 128 [(min 4 bcode, 3), (s, 5), (0, 120)] :: (bytesBEWords (2 * b) v), sats)
where
  /-- The words of a number, most significant first. -/
  bytesBEWords (n v : Nat) : List Word128 := ((List.range n).map fun k => BitVec.ofNat 128 (v >>> (128 * k))).reverse

/-- The components of data words: I and Q of each sample, 16 bits each, from bit 127 down (R453). -/
def components (l : List Word128) : List Int :=
  l.flatMap fun w => (List.range 8).map fun k => sfld w (112 - 16 * k) 16

/-- The pieces of a record in a fixed-ratio context: a CAPTURE record's first four words and its blocks, any other record's words. -/
def fixedPieces (bcode : Nat) (r : Rec) : List CtxPiece :=
  if fld (wd r 0) 120 8 ≠ 0x08 then r.map fun w => ⟨16, [w], 0, false⟩
  else
    let n := fld (wd r 2) 115 13
    let data := (components (r.drop 4)).take (2 * n)
    ((r.take 4).map fun w => ⟨16, [w], 0, false⟩) ++ (chunks 256 data).map fun c =>
      let q := codeBlock bcode (c ++ List.replicate (256 - c.length) 0)
      ⟨(c.length + 7) / 8 * 16, q.1, q.2, true⟩

/-- A fixed-ratio context emits pieces while its output buffer of 1,024 words has room (R478), into the last item of its flow. -/
def Dev.fixedPump (d : Dev) (c p f : Nat) : List CtxPiece → Dev
  | [] => d.setCtx c { d.ctx c with pieces := [] }
  | q :: l =>
    if 1024 < d.ctxHeld c + q.words.length then (d.setCtx c { d.ctx c with pieces := q :: l }).ctxStall c
    else
      let fl := d.flow p f
      let d := match fl.items.getLast? with
        | some i => d.setFlow p f { fl with items := fl.items.dropLast ++ [{ i with words := i.words ++ q.words, whole := l.isEmpty }] }
        | none => d
      let d := ((d.ctxAdd64 c 8 q.bytes).ctxAdd64 c 0x10 (16 * q.words.length))
      let d := if q.block then d.add (ctxReg c 0x18) 1 else d
      let d := if q.sats = 0 then d else (d.addSat (ctxReg c 0x20) q.sats).sqEvent Reg.CP_STATUS 1 1529
      Dev.fixedPump d c p f l

/-! ### Lossless coding (R476, R477) -/

/-- The bytes of a copy, one at a time; the history has its latest byte first. -/
def copyFrom (dist : Nat) : Nat → List Byte → List Byte
  | 0, _ => []
  | n + 1, h => let b := nth h (dist - 1) 0; b :: copyFrom dist n (b :: h)

/-- The history after more bytes: the last 65,536. -/
def histPush (h l : List Byte) : List Byte := (l.reverse ++ h).take 65536

/-- The waiting literals as a code word. -/
def CtxBlock.flush (x : CtxBlock) : CtxBlock :=
  if x.lits.isEmpty then x
  else { x with code := x.code ++ BitVec.ofNat 8 (x.lits.length - 1) :: x.lits, lits := [] }

/-- KP_SAVE's content: the history and the blocks since HIST_RESET (R479). -/
def CtxSt.snap (x : CtxSt) : CtxSt := if x.xfer = 2 ∧ x.image.isNone then { x with image := some (x.hist, x.blocks) } else x

/-- The open block ends (R477): the item is made, and a standard context empties its history. -/
def Dev.ctxEnd (d : Dev) (c : Nat) : Dev :=
  let x := d.ctx c
  match x.block with
  | none => d
  | some b =>
    let b := b.flush
    let pad := (16 - b.code.length % 16) % 16
    let head : Word128 := packBE 128 [(b.bytes, 32), (b.code.length, 32), (b2n b.reset, 1), (0, 63)]
    let words := head :: (chunks 16 (b.code ++ List.replicate pad 0)).map fun w => BitVec.ofNat 128 (natBE w)
    let x : CtxSt := { x with block := none, hist := if c < 16 then [] else x.hist, blocks := if b.reset then 1 else x.blocks + 1 }
    let d := (d.setCtx c x.snap).clrB (ctxReg c 4) 31
    let d := (d.add (ctxReg c 0x18) 1).ctxAdd64 c 0x10 (16 * words.length)
    match d.ctxFlow c with
    | some u => d.addItem (u / 256) (u % 256) ⟨2, 0, b.time, words, 0, true⟩
    | none => d

/-- Bytes enter the open block, which ends at 2^LOG2BLK of them. -/
def Dev.ctxTake (d : Dev) (c : Nat) (b : CtxBlock) (n : Nat) : Dev :=
  let x := d.ctx c
  let used := x.input.take n
  let b : CtxBlock := { b with bytes := b.bytes + n, time := if x.fresh ∧ !b.began then x.time else b.time, began := b.began || x.fresh }
  let d := d.setCtx c { x with input := x.input.drop n, fresh := false, hist := histPush x.hist used, block := some b }
  let d := (d.ctxAdd64 c 8 n).setB (ctxReg c 4) 31
  if b.bytes = 2 ^ d.f (ctxReg c 0) 16 4 then d.ctxEnd c else d

/-- A lossless context consumes its input, by fuel (R476 to R478). Where a copy starts, its distance and its length are free values: any that decode are conforming. -/
def losslessPump (c : Nat) : Nat → Dev → Dev
  | 0, d => d
  | fuel + 1, d =>
    let x := d.ctx c
    match x.input with
    | [] => d
    | y :: _ =>
      let b : CtxBlock := x.block.getD ⟨d.up, x.time, false, x.hist.isEmpty, 0, [], []⟩
      let dist := Config.freeNat d.fresh % 65536
      let len := Config.freeNat (d.fresh + 1) % 132
      let d := d.draw.draw
      let copy := decide (1 ≤ dist) && decide (dist ≤ x.hist.length) && decide (4 ≤ len) && decide (len ≤ x.input.length)
        && decide (b.bytes + len ≤ 2 ^ d.f (ctxReg c 0) 16 4) && (copyFrom dist len x.hist == x.input.take len)
      let need := if copy then b.lits.length + 4 else b.lits.length + 2
      if 16384 < 16 * d.ctxHeld c + need then d.ctxStall c
      else if copy then
        let b := b.flush
        losslessPump c fuel (d.ctxTake c { b with code := b.code ++ BitVec.ofNat 8 (0x80 + (len - 4)) :: bytesBE 2 dist } len)
      else
        let b : CtxBlock := { b with lits := b.lits ++ [y] }
        losslessPump c fuel (d.ctxTake c (if b.lits.length = 128 then b.flush else b) 1)

/-- A context works on what it holds. -/
def Dev.ctxPump (d : Dev) (c : Nat) : Dev :=
  match d.ctxFlow c with
  | none => d
  | some u => if (d.ctx c).pieces.isEmpty then losslessPump c (d.ctx c).input.length d else d.fixedPump c (u / 256) (u % 256) (d.ctx c).pieces

/-- A context has no record in hand. -/
def Dev.ctxIdle (d : Dev) (c : Nat) : Bool := (d.ctx c).pieces.isEmpty && (d.ctx c).input.isEmpty && !d.on (ctxReg c 4) 30

/-- A record of a flow enters its context (R474). -/
def Dev.ctxRecord (d : Dev) (c p f : Nat) (r : Rec) : Dev :=
  let t := wordTime (wd r 1)
  if d.ctxFixed c then
    let typ := fld (wd r 0) 120 8
    let d := d.addItem p f ⟨if typ = 0x08 then 1 else 0, typ, t, [], 0, false⟩
    d.fixedPump c p f (fixedPieces (d.f (ctxReg c 0) 24 3) r)
  else (d.setCtx c { d.ctx c with input := r.flatMap wordBytes, time := t, fresh := true }).ctxPump c

/-! ### Commands of the contexts -/

/-- FLUSH (R477, R478). -/
def ctxFlush (c : Nat) (d : Dev) : Dev :=
  if (d.ctx c).block.isNone then d
  else if d.on (ctxReg c 4) 30 then d.setB (ctxReg c 4) 29
  else d.ctxEnd c

/-- A block open for FLUSH_AGE µs ends (R477). -/
def flushAge (c : Nat) (d : Dev) : Dev :=
  let age := d.f (ctxReg c 0) 0 16
  match (d.ctx c).block with
  | some b => if age ≠ 0 ∧ elapsedNs b.opened d.up (1000 * age) then ctxFlush c d else d
  | none => d

/-- A stall clears once the output buffer has room for a whole code word or block; a pending FLUSH then ends the block (R478). -/
def stallClear (c : Nat) (d : Dev) : Dev :=
  let x := d.ctx c
  let need := match x.pieces with
    | q :: _ => 16 * q.words.length
    | [] => (x.block.map fun b => b.lits.length).getD 0 + 4
  if !d.on (ctxReg c 4) 30 ∨ 16384 < 16 * d.ctxHeld c + need then d
  else
    let d := d.clrB (ctxReg c 4) 30
    let d := if d.on (ctxReg c 4) 29 then (d.clrB (ctxReg c 4) 29).ctxEnd c else d
    d.ctxPump c

/-- CLEAR_COUNTS of a context (R482). -/
def ctxClear (c : Nat) (d : Dev) : Dev := (d.wrN (ctxReg c 0x1C) 0).wrN (ctxReg c 0x20) 0

/-- The address in KP_SAVE, 128-byte aligned (R479). -/
def Dev.kpAddr (d : Dev) (i : Nat) : Nat := d.n64 (Reg.KP_SAVE_LO i) (Reg.KP_SAVE_HI i) / 128 * 128

/-- SAVE (R479): the open block ends as FLUSH does; the image is written by the transfer. -/
def kpSave (i : Nat) (d : Dev) : Dev :=
  let c := 16 + i
  if (d.ctx c).xfer ≠ 0 then d
  else
    let d := ctxFlush c (d.setCtx c { d.ctx c with xfer := 2, at_ := d.kpAddr i, image := none })
    if d.on (ctxReg c 4) 29 then d else d.setCtx c (d.ctx c).snap

/-- RESTORE (R479). -/
def kpRestore (i : Nat) (d : Dev) : Dev :=
  let c := 16 + i
  if (d.ctx c).xfer ≠ 0 then d else d.setCtx c { d.ctx c with xfer := if d.ctxNamed c then 4 else 3, at_ := d.kpAddr i }

/-- A transfer ends with its result and event 1531. -/
def Dev.kpEnd (d : Dev) (c result : Nat) : Dev :=
  let d := (d.setCtx c { d.ctx c with xfer := 0, image := none }).wrF (ctxReg c 4) 0 4 result
  (d.setB Reg.CP_STATUS 4).event Reg.CP_STATUS 1531

/-- A save image (R479): the history oldest first in whole 4-byte units, bytes the manual does not state, and the last word with the CRC over all before it. -/
def saveImage (fresh : Nat) (hist : List Byte) (blocks : Nat) : List Byte :=
  let h := (hist.take (hist.length / 4 * 4)).reverse
  let body := h ++ bytesBE (65536 - h.length) (Config.freeNat fresh) ++ bytesBE 12 (h.length / 4 * 2 ^ 80 + blocks % 2 ^ 32 * 2 ^ 32)
  body ++ bytesBE 4 (crc32 body)

/-- What a save image holds, if its CRC holds: the history, latest byte first, and the block count. -/
def loadImage (l : List Byte) : Option (List Byte × Nat) :=
  if l.length = 65552 ∧ natBE (l.drop 65548) = crc32 (l.take 65548) then
    some (((l.take (min 65536 (4 * natBE ((l.drop 65536).take 2)))).reverse), natBE ((l.drop 65540).take 4))
  else none

/-- A SAVE or RESTORE ends (R479). -/
def kpDone (i : Nat) (s : Sys) : Sys :=
  let c := 16 + i
  let x := s.dev.ctx c
  let a := x.at_
  if x.xfer = 4 then s.on fun d => d.kpEnd c 2
  else if x.xfer = 3 then
    match memRead (ctxIni c) 18 a 65552 s.mem s.dev with
    | (d, .denied) => { s with dev := d.kpEnd c 4 }
    | (d, .ue _) => { s with dev := (d.setCtx c { d.ctx c with hist := [], blocks := 0 }).kpEnd c 3 }
    | (d, .ok l) =>
      match loadImage l with
      | some (h, n) => { s with dev := (d.setCtx c { d.ctx c with hist := h, blocks := n }).kpEnd c 1 }
      | none => { s with dev := (d.setCtx c { d.ctx c with hist := [], blocks := 0 }).kpEnd c 3 }
  else
    match x.xfer, x.image with
    | 2, some (h, n) =>
      let img := saveImage s.dev.fresh h n
      match memWrite (ctxIni c) 18 a img (s.on Dev.draw) with
      | (s, .denied) => s.on fun d => d.kpEnd c 4
      | (s, _) => s.on fun d => d.kpEnd c 1
    | _, _ => s

/-! ### Replay (R480) -/

/-- How far a replay job has come: the state kept for CONTINUE and the output bytes. -/
structure Replayed where
  st : ReplaySt
  out : List Byte := []

/-- What one code word or item of a job does: it is decoded, its output does not fit, the stream is bad, or nothing is left. -/
inductive ReplayStep where
  | more (r : Replayed)
  | limit
  | bad
  | done

/-- One code word of a lossless job. -/
def replayWord (input : List Byte) (room : Nat) (r : Replayed) : ReplayStep :=
  let l := input.drop r.st.pos
  match r.st.block with
  | none =>
    if l.isEmpty then .done
    else if l.length < 16 then .bad
    else
      let code := natBE ((l.drop 4).take 4)
      let pad := (16 - code % 16) % 16
      let hist := if bit (BitVec.ofNat 8 (nth l 8 0).toNat) 7 then [] else r.st.hist
      if l.length < 16 + code + pad then .bad
      else .more { r with st := ⟨r.st.pos + 16, some (natBE (l.take 4), code, pad), hist⟩ }
  | some (left, 0, pad) => if left = 0 then .more { r with st := { r.st with pos := r.st.pos + pad, block := none } } else .bad
  | some (left, code, pad) =>
    let c := (nth l 0 0).toNat
    let out := if c < 128 then (l.drop 1).take (c + 1) else copyFrom (natBE ((l.drop 1).take 2)) (c - 0x80 + 4) r.st.hist
    let size := if c < 128 then c + 2 else 3
    let dist := natBE ((l.drop 1).take 2)
    if code < size ∨ left < out.length ∨ (128 ≤ c ∧ (dist = 0 ∨ r.st.hist.length < dist)) then .bad
    else if room < r.out.length + out.length then .limit
    else .more ⟨⟨r.st.pos + size, some (left - out.length, code - size, pad), histPush r.st.hist out⟩, r.out ++ out⟩

/-- A coded block restored: its 256 components, or none for a BCODE above 4. -/
def restoreBlock (l : List Word128) : Option (List Int) :=
  let h := wd l 0
  let b := codeBits (fld h 125 3)
  if 4 < fld h 125 3 then none
  else
    let v := (l.drop 1).foldl (fun a w => a * 2 ^ 128 + w.toNat) 0
    some ((List.range 256).map fun k => toS b (v >>> (b * (255 - k))) * 2 ^ fld h 120 5)

/-- Blocks restored one after the other, by fuel: their components and the words read. -/
def restoreBlocks : Nat → List Word128 → Option (List Int × Nat)
  | 0, _ => some ([], 0)
  | n + 1, l =>
    let z := 1 + 2 * codeBits (fld (wd l 0) 125 3)
    if l.length < z then none
    else
      match restoreBlock (l.take z), restoreBlocks n (l.drop z) with
      | some a, some (r, k) => some (a ++ r, z + k)
      | _, _ => none

/-- One record of a fixed-ratio job. A record that is no CAPTURE record stands as it was (log entry 65). -/
def replayRecord (input : List Byte) (room : Nat) (r : Replayed) : ReplayStep :=
  let l := (chunks 16 (input.drop r.st.pos)).map fun c => BitVec.ofNat 128 (natBE c)
  if l.isEmpty then .done
  else
    let h := wd l 0
    let len := fld h 96 20
    let n := fld (wd l 2) 115 13
    let item : Option (List Word128 × Nat) :=
      if fld h 120 8 = 0x08 then
        match restoreBlocks ((n + 127) / 128) (l.drop 4) with
        | some (q, k) =>
          let bytes := (q.take (2 * n)).flatMap fun v => bytesBE 2 (wrapU 16 v)
          some (l.take 4 ++ capData bytes, 4 + k)
        | none => none
      else if len = 0 ∨ l.length < len then none
      else some (l.take len, len)
    match item with
    | none => .bad
    | some (ws, k) =>
      if room < r.out.length + 16 * ws.length then .limit
      else .more ⟨{ r.st with pos := r.st.pos + 16 * k }, r.out ++ ws.flatMap wordBytes⟩

/-- A job run for at most `n` code words or records: where it stands, and the result it ended with, if it did (1 COMPLETE, 3 LIMIT, 4 BAD_STREAM). -/
def replayRun (step : Replayed → ReplayStep) : Nat → Replayed → Replayed × Option Nat
  | 0, r => (r, none)
  | n + 1, r =>
    match step r with
    | .more r => replayRun step n r
    | .limit => (r, some 3)
    | .bad => (r, some 4)
    | .done => (r, some 1)

/-- RP_RESULT and the progress at the end of a job; event 1530 (R484). -/
def Dev.replayStop (d : Dev) (result : Nat) (late : Bool) (st : ReplaySt) (out : Nat) : Dev :=
  let d := { d with replay := st }
  let d := (d.wr Reg.RP_RESULT (packBE 32 [(result, 4), (0, 3), (b2n late, 1), (0, 24)])).wrN Reg.RP_IN_DONE st.pos
  ((d.wrN Reg.RP_OUT_DONE out).setB Reg.CP_STATUS 3).event Reg.CP_STATUS 1530

/-- START (R480). The registers are locked while BUSY; a START then is ignored. -/
def replayStart (d : Dev) : Dev :=
  if d.on Reg.RP_RESULT 0 then d
  else
    let d := ((d.wrN Reg.RP_RESULT 1).wrN Reg.RP_IN_DONE 0).wrN Reg.RP_OUT_DONE 0
    { d with replay := {} }

/-- CONTINUE of a job that ended at LIMIT (R480): the output starts at RP_DST again with a fresh RP_MAX (log entry 65). -/
def replayContinue (d : Dev) : Dev :=
  if d.f Reg.RP_RESULT 28 4 = 3 ∧ !d.on Reg.RP_RESULT 0 then (d.wrN Reg.RP_RESULT 1).wrN Reg.RP_OUT_DONE 0 else d

/-- The job is worked for at most `n` code words or records, and ends; `abort` is an ABORT. -/
def replayWork (abort : Bool) (n : Nat) (s : Sys) : Sys :=
  let d := s.dev
  let src := d.n64 Reg.RP_SRC_LO Reg.RP_SRC_HI
  let dst := d.n64 Reg.RP_DST_LO Reg.RP_DST_HI
  let len := d.n Reg.RP_LEN
  let fixed := d.on Reg.RP_CFG 31
  let load := !fixed && d.on Reg.RP_CFG 0 && decide (d.replay.pos = 0)
  let h := if load then memRead 0x194 18 (d.n64 Reg.RP_HIST_LO Reg.RP_HIST_HI) 65552 s.mem d else (d, .ok [])
  let i := memRead 0x194 18 src len s.mem h.1
  match h.2, i.2 with
  | .ok hl, .ok input =>
    let hist : Option (List Byte) := if load then (loadImage hl).map (·.1) else some i.1.replay.hist
    match hist with
    | none => { s with dev := i.1.replayStop 4 false i.1.replay 0 }
    | some hist =>
      let room := d.n Reg.RP_MAX
      let step := if fixed then replayRecord input room else replayWord input room
      let r := replayRun step n ⟨{ i.1.replay with hist := hist }, []⟩
      let result := match r.2 with
        | some k => k
        | none => 2
      match memWrite 0x194 18 dst r.1.out { s with dev := i.1 } with
      | (s, .denied) => s.on fun d => d.replayStop 5 false d.replay 0
      | (s, _) => s.on fun d => d.replayStop result (abort && decide (result = 1)) r.1.st r.1.out.length
  | .denied, _ => { s with dev := i.1.replayStop 5 false i.1.replay 0 }
  | _, .denied => { s with dev := i.1.replayStop 5 false i.1.replay 0 }
  | _, _ => { s with dev := i.1.replayStop 4 false i.1.replay 0 }

/-- The job ends by itself. -/
def replayEnd (s : Sys) : Sys :=
  if s.dev.on Reg.RP_RESULT 0 then replayWork false (2 * s.dev.n Reg.RP_LEN + 2) s else s

/-- ABORT (R480, R460): of a job whose last write was accepted, COMPLETE with ABORT_LATE; else ABORTED at a boundary the manual does not fix. -/
def replayAbort (s : Sys) : Sys :=
  let d := s.dev
  if d.on Reg.RP_RESULT 0 then replayWork true (Config.freeNat d.fresh % (2 * d.n Reg.RP_LEN + 3)) (s.on Dev.draw)
  else if d.f Reg.RP_RESULT 28 4 = 1 then s.on fun d => d.setB Reg.RP_RESULT 24
  else s

end Sys2Proof.Machine
end

