-- ==== Sys2Proof/Machine/Cratre.lean ====
section
/-! DEFINITION. The Cratre instructions: encodings, legality, results, and the issue of one instruction (chapter The Cratre Instruction Set). -/
namespace Sys2Proof.Machine

/-- An instruction word. -/
abbrev CrW := BitVec 64

/-! ### Encoding (R338 to R341, R361) -/

/-- The opcode: a Format A opcode, or 0x40 plus a Format K opcode. -/
def crOp (w : CrW) : Nat := if bit w 63 then 0x40 + fld w 57 6 else fld w 56 6

/-- The opcode is listed (R349, R351, R352, R356). -/
def crListed (op : Nat) : Bool :=
  decide (op ≤ 0x13) || op == 0x18 || op == 0x19 || (decide (0x20 ≤ op) && decide (op ≤ 0x2A)) || (decide (0x40 ≤ op) && decide (op ≤ 0x53))

def crWd (w : CrW) : Bool := bit w 62
def crD (w : CrW) : Nat := fld w 51 5
def crA (w : CrW) : Nat := fld w 46 5
def crB (w : CrW) : Nat := fld w 41 5
def crAux (w : CrW) : Nat := fld w 36 5

/-- The low two bits that name an accumulator. -/
def crAccD (w : CrW) : Nat := crD w % 4
def crAccA (w : CrW) : Nat := crA w % 4

/-- SREG, the low register field, ADDR and IMM of Format K. -/
def crSreg (w : CrW) : Nat := fld w 52 5
def crReg (w : CrW) : Nat := fld w 0 5
def crAddr (w : CrW) : Nat := fld w 32 24
def crImm (w : CrW) : Nat := fld w 0 32

/-- A move field of Format A: 0 X, 1 Y, 2 C. -/
def crMove (w : CrW) (slot : Nat) : BitVec 12 := BitVec.ofNat 12 (fld w (24 - 12 * slot) 12)

/-- How a Format A operand field is used: not at all, for a vector, or for an accumulator. -/
inductive CrUse where
  | none | vec | acc
deriving DecidableEq, Repr

/-- A field that is used so holds no reserved bit. -/
def CrUse.ok (u : CrUse) (v : Nat) : Bool :=
  match u with
  | .none => v == 0
  | .vec => true
  | .acc => decide (v < 4)

/-- The move fields are legal: absent moves are zero, the C slot only loads, and no two moves load one register (R340, R361). -/
def crMovesLegal (w : CrW) : Bool :=
  let m := fun s => crMove w s
  let loads := ([0, 1, 2] : List Nat).filter fun s => bit (m s) 11 && !bit (m s) 10
  let regs := loads.map fun s => fld (m s) 0 5
  (([0, 1, 2] : List Nat).all fun s => bit (m s) 11 || m s == 0) && !(bit (m 2) 11 && bit (m 2) 10) && decide regs.Nodup

/-- Format A legality: the allowed WD, the operand uses, and the largest values of B and AUX bits. -/
def crLegalA (wd0 wd1 : Bool) (dU aU : CrUse) (bMask auxMask : Nat) (w : CrW) : Bool :=
  (if crWd w then wd1 else wd0) && dU.ok (crD w) && aU.ok (crA w) && crB w &&& bMask == crB w && crAux w &&& auxMask == crAux w && crMovesLegal w

/-- Format K legality: only the listed operand bits may be set. -/
def crLegalK (mask : Nat) (w : CrW) : Bool := fld w 0 57 &&& mask == fld w 0 57

/-! ### Lanes (R309, R342) -/

/-- The vector register k. -/
def EngSt.vr (x : EngSt) (k : Nat) : Word128 := x.v.get (fun _ => 0) k

/-- The accumulator k. -/
def EngSt.ac (x : EngSt) (k : Nat) : BitVec 320 := x.acc.get (fun _ => 0) k

/-- The mode of an accumulator. -/
def EngSt.acm (x : EngSt) (k : Nat) : Nat := fld x.sr (16 + 2 * k) 2

/-- The signed lanes of a vector, of width b. -/
def lanes (b : Nat) (w : Word128) : List Int := (List.range (128 / b)).map fun l => sfld w (b * l) b

/-- A vector of lanes of width b, each cut to it. -/
def ofLanes (b : Nat) (l : List Int) : Nat := (l.zipIdx.foldl (fun a v => a + wrapU b v.1 * 2 ^ (b * v.2)) 0)

/-- The lane width of an instruction. -/
def crWidth (w : CrW) : Nat := if crWd w then 32 else 16

/-- The lane width of an accumulator mode: 40 or 80. -/
def accWidth (mode : Nat) : Nat := if mode % 2 = 0 then 40 else 80

/-- The signed lanes of an accumulator in a mode. -/
def accLanes (mode : Nat) (a : BitVec 320) : List Int :=
  (List.range (320 / accWidth mode)).map fun l => sfld a (accWidth mode * l) (accWidth mode)

/-- An accumulator of signed lanes. -/
def ofAccLanes (mode : Nat) (l : List Int) : Nat := l.zipIdx.foldl (fun a v => a + wrapU (accWidth mode) v.1 * 2 ^ (accWidth mode * v.2)) 0

/-- A narrowing: rhu(v, q) saturated to b bits, and whether it saturated (R311). -/
def narrow (b q : Nat) (v : Int) : Int × Bool :=
  let r := rshr v q
  (satS b r, satS b r ≠ r)

/-- The SAT bit of SR, where any lane saturated. -/
def satBit (l : List (Int × Bool)) : List (CrDst × Nat) := if l.any fun v => v.2 then [(.sticky, 2 ^ 14)] else []

/-- Accumulation of a term into each lane: a frozen lane keeps its value, and a sum outside the range takes the limit and sets AOV (R310). -/
def accumulate (x : EngSt) (k : Nat) (terms : List Int) : List (CrDst × Nat) :=
  let mode := x.acm k
  let old := accLanes mode (x.ac k)
  let res := (List.range old.length).map fun l =>
    let a := nth old l 0
    if bit x.aov (8 * k + l) then (a, false)
    else
      let s := a + nth terms l 0
      (satS (accWidth mode) s, satS (accWidth mode) s ≠ s)
  let aov := (List.range res.length).foldl (fun m l => if (nth res l (0, false)).2 then m + 2 ^ (8 * k + l) else m) 0
  (.acc k, ofAccLanes mode (res.map fun r => r.1)) :: (if aov = 0 then [] else [(.aovOr, aov)])

/-- Lanes that overwrite an accumulator, saturated under R310. -/
def overwrite (mode k : Nat) (vals : List Int) : List (CrDst × Nat) :=
  let res := vals.map fun s => (satS (accWidth mode) s, decide (satS (accWidth mode) s ≠ s))
  let aov := (List.range res.length).foldl (fun m l => if (nth res l (0, false)).2 then m + 2 ^ (8 * k + l) else m) 0
  (.acc k, ofAccLanes mode (res.map fun r => r.1)) :: (if aov = 0 then [] else [(.aovOr, aov)])

/-! ### Results -/

/-- A memory access of an instruction: its slot (R304, R360), address, width, the value it stores or the register it loads, and whether a 32-bit load fills all four lanes. -/
structure CrAcc where
  slot : Nat
  addr : Nat
  wide : Bool
  store : Option Word128 := none
  dst : CrDst := .sticky
  bcast : Bool := false

/-- What an instruction does beside its moves: register writes, a branch (kind and target), a REP count, a state in which it stops, and absolute accesses. -/
structure CrRes where
  writes : List (CrDst × Nat) := []
  jump : Option (Nat × Nat) := none
  rep : Option Nat := none
  stop : Option Nat := none
  accs : List CrAcc := []

/-- The accesses of the three moves (R340, R344). -/
def crMoveAccs (x : EngSt) (w : CrW) : List CrAcc :=
  ([0, 1, 2] : List Nat).filterMap fun s =>
    let m := crMove w s
    if !bit m 11 then none
    else
      let a := x.p.get (fun _ => 0) (fld m 5 3)
      let r := fld m 0 5
      if bit m 10 then some { slot := s, addr := a, wide := !bit m 9, store := some (x.vr r) }
      else some { slot := s, addr := a, wide := !bit m 9, dst := .v r, bcast := true }

/-- A special register that the loop and address hardware sees (R312). -/
def EngSt.hw (x : EngSt) (k : Nat) : Nat :=
  match x.stale.find? fun e => e.1 = k with
  | some e => e.2
  | none => if k = 16 then x.lc else if k = 17 then x.ls else if k = 18 then x.le else (x.m.get (fun _ => 0) (k - 8)).toNat

/-- Addition with the carry running from the top bit of n down (R308). -/
def revAdd (n a b : Nat) : Nat :=
  let rev := fun (v : Nat) => (List.range n).foldl (fun r i => r * 2 + v / 2 ^ i % 2) 0
  rev ((rev a + rev b) % 2 ^ n)

/-- The update of a pointer by its modifier (R308). -/
def postModify (p m : Nat) : Nat :=
  let w := BitVec.ofNat 32 m
  let kind := fld w 30 2
  let step := sfld w 0 16
  let len := (fld w 16 12 + 1) * 16
  let k := if len ≤ 1 then 0 else log2N (len - 1) + 1
  let base := p / 2 ^ k * 2 ^ k
  let pow := len == 2 ^ k
  if kind = 1 then (((base : Int) + ((p : Int) - base + step) % (len : Int)) % 2 ^ 24).toNat
  else if kind = 2 ∧ pow then (base + revAdd k (p - base) (wrapU k step)) % 2 ^ 24
  else (((p : Int) + step) % 2 ^ 24).toNat

/-- The pointer updates of the moves: each named pointer once (R344). -/
def crPointers (x : EngSt) (w : CrW) : List (CrDst × Nat) :=
  let ks := (([0, 1, 2] : List Nat).filterMap fun s => let m := crMove w s; if bit m 11 && bit m 8 then some (fld m 5 3) else none).eraseDups
  ks.map fun k => (.s k, postModify (x.p.get (fun _ => 0) k) (x.hw (8 + k)))

/-- The value of a special register (R355). -/
def EngSt.sreg (x : EngSt) (k : Nat) : Nat :=
  if k < 8 then x.p.get (fun _ => 0) k
  else if k < 16 then (x.m.get (fun _ => 0) (k - 8)).toNat
  else if k = 16 then x.lc else if k = 17 then x.ls else if k = 18 then x.le
  else if k = 19 then x.sr.toNat else if k = 20 then x.ra else if k = 21 then x.ssr.toNat else x.aov.toNat

/-- A write to LC outside 1 to 65,536 (R355). -/
def badLc (sreg v : Nat) : Bool := sreg == 16 && (v == 0 || decide (65536 < v))

/-! ### Issue (R312 to R316, R343, R357, R359) -/

/-- The instruction at an address of the program bank. -/
def EngSt.fetch (x : EngSt) (pc : Nat) : CrW :=
  let w := nth x.prog (pc / 2) 0
  BitVec.ofNat 64 (fld w (if pc % 2 = 0 then 64 else 0) 64)

/-- Where the control instructions are ILLEGAL: in a delay slot, and at the end of a hardware loop (R359, R361). -/
def crPlaceBad (x : EngSt) (op : Nat) : Bool :=
  let ctl := decide (0x40 ≤ op) && decide (op ≤ 0x47)
  let branch := (decide (0x40 ≤ op) && decide (op ≤ 0x43)) || op == 0x45
  let loop := bit x.sr 11
  let le := x.hw 18
  (ctl && x.slot.isSome) || (loop && branch && (x.pc == le || x.pc + 1 == le)) || (loop && ctl && !branch && x.pc == le)

/-- The accesses obey R304 and R360: each slot reaches its region, accumulators stay in one region, OUT takes 128 bits, and the moves make at most one shared-memory access. -/
def crAccessOk (l : List CrAcc) : Bool :=
  let shared := (l.filter fun a => decide (a.slot ≤ 2) && engRegion (a.addr / 4 * 4) == 3).length
  (l.all fun a =>
    let b := if a.wide then a.addr / 16 * 16 else a.addr / 4 * 4
    slotReaches a.slot (engRegion b) a.store.isSome && !(a.store.isSome && !a.wide && b == 0x800000)) && decide (shared ≤ 1)

/-- The outcome of an access: its load, and the sticky bits ALIGN and WUND. -/
def Dev.crLoad (d : Dev) (n : Nat) (a : CrAcc) : List (CrDst × Nat) × Nat :=
  let g := if a.wide then 16 else 4
  let b := a.addr / g * g
  let align := if b = a.addr then 0 else 2 ^ 13
  if a.store.isSome then ([], align)
  else
    let r := d.engRead n b g
    let v := if a.wide then r.1.toNat
      else
        let y := lane32 r.1 (b / 4 % 4)
        if a.bcast then y * (1 + 2 ^ 32 + 2 ^ 64 + 2 ^ 96) else y
    ([(a.dst, v)], if r.2 then align ||| 2 ^ 12 else align)

/-- The stores of an instruction. -/
def Dev.crStores (d : Dev) (n : Nat) (l : List CrAcc) : Dev :=
  l.foldl (fun d a => match a.store with
    | some v => d.engWrite n (if a.wide then a.addr / 16 * 16 else a.addr / 4 * 4) v a.wide
    | none => d) d

/-- Where issue goes on after an instruction: the rest of a REP, a branch after its delay slot, the loop, or the next address. -/
def EngSt.advance (x : EngSt) (r : CrRes) (own : List (CrDst × Nat)) (loopOn : Bool) (lc ls le : Nat) : EngSt :=
  match x.rep with
  | some (k + 2) => { x with rep := some (k + 1) }
  | _ =>
    let x : EngSt := { x with rep := none }
    match x.slot with
    | some (1, _) => { x with slot := none, pc := (own.foldl (fun y l => y.put l.1 l.2) x).ra }
    | some (2, _) =>
      let y := own.foldl (fun y l => y.put l.1 l.2) x
      { x with slot := none, pc := y.ra, sr := y.ssr }
    | some (0, t) => { x with slot := none, pc := t }
    | some _ => { x with slot := none, pc := x.pc + 1 }
    | none =>
      if loopOn ∧ x.pc = le then
        if 1 < lc then
          { x with pc := ls, lc := lc - 1, steps := x.steps + (if 16 < le + 1 - ls then 1 else 0) }
        else { x with pc := x.pc + 1, lc := 1, sr := Machine.put x.sr 11 1 0 }
      else { x with pc := x.pc + 1, slot := r.jump, rep := r.rep }

/-- One issue of the instruction with opcode `op`: the word at PC must be that instruction; a reserved one, one out of place or one beyond the image is ILLEGAL; an access outside its slot is ACCESS. The instruction reads the registers as they were, the loads of the one before it land with its results, and its own land after the next (R312, R343). `up` names a word that has become uncorrectable: the fetch or a load of one is ECC (R303). -/
def crStep (op : Nat) (legal : EngSt → CrW → Bool) (eff : EngSt → CrW → CrRes) (n : Nat) (up : Option Nat) (d0 : Dev) : Dev :=
  let d := d0.engUpset n up
  let x := d.eng n
  if x.state ≠ 1 ∨ x.entryDue.isSome then d
  else if x.nprog ≤ x.pc then d.engFault n 2
  else if x.bad.contains (0x100000 + x.pc) then d.engFault n 3
  else
    let w := x.fetch x.pc
    if !crListed (crOp w) then d.engFault n 2
    else if crOp w ≠ op then d
    else if crPlaceBad x op ∨ !legal x w then d.engFault n 2
    else
      let r := eff x w
      let accs := (if bit w 63 then [] else crMoveAccs x w) ++ r.accs
      if !crAccessOk accs then d.engFault n 1
      else if accs.any fun a => a.store.isNone && d.engBad n a.addr then d.engFault n 3
      else
        let ls := accs.map fun a => d.crLoad n a
        let loads := ls.flatMap fun l => l.1
        if loads.any fun l => (match l.1 with | .s k => badLc k l.2 | _ => false) then d.engFault n 2
        else
          let sticky := ls.foldl (fun a l => a ||| l.2) 0
          let d := d.crStores n accs
          let y := d.eng n
          let writes := r.writes ++ (if bit w 63 then [] else crPointers x w) ++ (if sticky = 0 then [] else [(.sticky, sticky)])
          let z := (x.loads ++ writes).foldl (fun (z : EngSt) l => z.put l.1 l.2) y
          let fresh := r.writes.any fun l => match l.1 with
            | .aovOr => decide (BitVec.ofNat 32 l.2 &&& ~~~x.aov ≠ 0)
            | _ => false
          let stale := writes.filterMap fun l => match l.1 with
            | .s k => if 8 ≤ k ∧ k ≤ 18 ∧ op ≠ 0x45 then some (k, x.sreg k) else none
            | _ => none
          let z : EngSt := { z with loads := loads, stale := stale, steps := z.steps + 1, aovDue := z.aovDue || (fresh && z.even / 2 % 2 == 1) }
          let z := z.advance r loads (bit x.sr 11) (x.hw 16) (x.hw 17) (x.hw 18)
          let z : EngSt := if z.aovDue ∧ z.rep.isNone then { z.latch 1 with aovDue := false } else z
          let z : EngSt := match r.stop with
            | some s => { z.settle with state := s }
            | none => z
          d.setEng n z.tryStop

/-! ### Vector instructions (R349) -/

/-- A lane-wise result of two vectors. -/
def laneOp (f : Int → Int → Int) (x : EngSt) (w : CrW) : List Int :=
  let b := crWidth w
  List.zipWith f (lanes b (x.vr (crA w))) (lanes b (x.vr (crB w)))

/-- The flags of an addition or subtraction on lane 0 (R346): Z and N of the stored result, the given carry, and V of the exact result. -/
def arithFlags (b : Nat) (stored exact : Int) (carry : Bool) : Nat :=
  b2n (satS b exact ≠ exact) * 8 + b2n carry * 4 + b2n (decide (toS b (wrapU b stored) < 0)) * 2 + b2n (wrapU b stored = 0)

/-- Lane 0 of the operands of an instruction. -/
def lane0 (x : EngSt) (w : CrW) : Int × Int :=
  let b := crWidth w
  (sfld (x.vr (crA w)) 0 b, sfld (x.vr (crB w)) 0 b)

/-- The flags of an addition. -/
def addFlags (x : EngSt) (w : CrW) (stored : Int) : Nat :=
  let b := crWidth w
  let p := lane0 x w
  arithFlags b stored (p.1 + p.2) (decide (2 ^ b ≤ wrapU b p.1 + wrapU b p.2))

/-- The flags of a subtraction or comparison. -/
def subFlags (x : EngSt) (w : CrW) (stored : Int) : Nat :=
  let b := crWidth w
  let p := lane0 x w
  arithFlags b stored (p.1 - p.2) (decide (wrapU b p.2 ≤ wrapU b p.1))

def crNopEff (_ : EngSt) (_ : CrW) : CrRes := {}

def crMovEff (x : EngSt) (w : CrW) : CrRes := { writes := [(.v (crD w), (x.vr (crA w)).toNat)] }

def crAddEff (x : EngSt) (w : CrW) : CrRes :=
  let l := laneOp (· + ·) x w
  { writes := [(.v (crD w), ofLanes (crWidth w) l), (.flags, addFlags x w (nth l 0 0))] }

def crSubEff (x : EngSt) (w : CrW) : CrRes :=
  let l := laneOp (· - ·) x w
  { writes := [(.v (crD w), ofLanes (crWidth w) l), (.flags, subFlags x w (nth l 0 0))] }

/-- Saturating lanes, with SAT. -/
def satLanes (b : Nat) (l : List Int) : List (Int × Bool) := l.map fun v => narrow b 0 v

def crAddsEff (x : EngSt) (w : CrW) : CrRes :=
  let s := satLanes (crWidth w) (laneOp (· + ·) x w)
  let l := s.map fun v => v.1
  { writes := [(.v (crD w), ofLanes (crWidth w) l), (.flags, addFlags x w (nth l 0 0))] ++ satBit s }

def crSubsEff (x : EngSt) (w : CrW) : CrRes :=
  let s := satLanes (crWidth w) (laneOp (· - ·) x w)
  let l := s.map fun v => v.1
  { writes := [(.v (crD w), ofLanes (crWidth w) l), (.flags, subFlags x w (nth l 0 0))] ++ satBit s }

def crAbsEff (x : EngSt) (w : CrW) : CrRes :=
  let b := crWidth w
  let s := satLanes b ((lanes b (x.vr (crA w))).map fun v => (v.natAbs : Int))
  { writes := (.v (crD w), ofLanes b (s.map fun v => v.1)) :: satBit s }

def crMinEff (x : EngSt) (w : CrW) : CrRes := { writes := [(.v (crD w), ofLanes (crWidth w) (laneOp min x w))] }

def crMaxEff (x : EngSt) (w : CrW) : CrRes := { writes := [(.v (crD w), ofLanes (crWidth w) (laneOp max x w))] }

/-- A bitwise result: Z and N of lane 0, C and V cleared (R346). -/
def bitRes (w : CrW) (v : Word128) : CrRes :=
  { writes := [(.v (crD w), v.toNat), (.flags, b2n (decide (sfld v 0 16 < 0)) * 2 + b2n (fld v 0 16 = 0))] }

def crAndEff (x : EngSt) (w : CrW) : CrRes := bitRes w (x.vr (crA w) &&& x.vr (crB w))
def crOrEff (x : EngSt) (w : CrW) : CrRes := bitRes w (x.vr (crA w) ||| x.vr (crB w))
def crXorEff (x : EngSt) (w : CrW) : CrRes := bitRes w (x.vr (crA w) ^^^ x.vr (crB w))

def crShlEff (x : EngSt) (w : CrW) : CrRes :=
  let b := crWidth w
  { writes := [(.v (crD w), ofLanes b ((lanes b (x.vr (crA w))).map fun v => v * 2 ^ crAux w))] }

def crShrEff (x : EngSt) (w : CrW) : CrRes :=
  let b := crWidth w
  let s := (lanes b (x.vr (crA w))).map fun v => narrow b (crAux w) v
  { writes := (.v (crD w), ofLanes b (s.map fun v => v.1)) :: satBit s }

def crMulEff (x : EngSt) (w : CrW) : CrRes :=
  let s := (laneOp (· * ·) x w).map fun v => narrow (crWidth w) (crAux w) v
  { writes := (.v (crD w), ofLanes (crWidth w) (s.map fun v => v.1)) :: satBit s }

def crCmpEff (x : EngSt) (w : CrW) : CrRes :=
  let p := lane0 x w
  { writes := [(.flags, subFlags x w (p.1 - p.2))] }

def crBcastEff (x : EngSt) (w : CrW) : CrRes :=
  let l := lanes (crWidth w) (x.vr (crA w))
  { writes := [(.v (crD w), ofLanes (crWidth w) (l.map fun _ => nth l (crAux w) 0))] }

def crPackEff (x : EngSt) (w : CrW) : CrRes :=
  let s := (lanes 32 (x.vr (crA w)) ++ lanes 32 (x.vr (crB w))).map fun v => narrow 16 (crAux w) v
  { writes := (.v (crD w), ofLanes 16 (s.map fun v => v.1)) :: satBit s }

def crUnpkEff (x : EngSt) (w : CrW) : CrRes :=
  { writes := [(.v (crD w), ofLanes 32 (((lanes 16 (x.vr (crA w))).drop (4 * (crAux w % 2))).take 4))] }

def crConjEff (x : EngSt) (w : CrW) : CrRes :=
  let b := crWidth w
  let s := (lanes b (x.vr (crA w))).zipIdx.map fun v => if v.2 % 2 = 0 then (v.1, false) else narrow b 0 (-v.1)
  { writes := (.v (crD w), ofLanes b (s.map fun v => v.1)) :: satBit s }

/-- MAXI and MINI (R353): `better a b` says that a is strictly better than b. -/
def searchEff (better : Int → Int → Bool) (x : EngSt) (w : CrW) : CrRes :=
  let l := lanes (crWidth w) (x.vr (crA w))
  let st := lanes 32 (x.vr (crD w))
  let best := l.zipIdx.foldl (fun (a : Int × Nat) v => if better v.1 a.1 then v else a) (nth l 0 0, 0)
  let next := nth st 2 0
  let (v, k) := if better best.1 (nth st 0 0) then (best.1, next + best.2) else (nth st 0 0, nth st 1 0)
  { writes := [(.v (crD w), ofLanes 32 [v, k, next + l.length, 0])] }

def crMaxiEff (x : EngSt) (w : CrW) : CrRes := searchEff (fun a b => decide (b < a)) x w
def crMiniEff (x : EngSt) (w : CrW) : CrRes := searchEff (fun a b => decide (a < b)) x w

/-! ### Accumulator instructions (R351, R352) -/

/-- WD matches the mode of the accumulator. -/
def wdMatches (x : EngSt) (k : Nat) (w : CrW) : Bool := crWd w == (x.acm k % 2 == 1)

/-- The products of the multiply group, lane by lane; `conj` for MACJ and MPYJ. -/
def products (mode : Nat) (conj : Bool) (a b : List Int) : List Int :=
  if mode < 2 then List.zipWith (· * ·) a b
  else (List.range (a.length / 2)).flatMap fun c =>
    let ar := nth a (2 * c) 0
    let ai := nth a (2 * c + 1) 0
    let br := nth b (2 * c) 0
    let bi := nth b (2 * c + 1) 0
    if conj then [ar * br + ai * bi, ai * br - ar * bi] else [ar * br - ai * bi, ar * bi + ai * br]

/-- The signed products of an instruction of the multiply group, NEG taken in. -/
def crProducts (conj : Bool) (x : EngSt) (w : CrW) : List Int :=
  let b := crWidth w
  let p := products (x.acm (crAccD w)) conj (lanes b (x.vr (crA w))) (lanes b (x.vr (crB w)))
  if crAux w % 2 = 1 then p.map fun v => -v else p

def crMacEff (x : EngSt) (w : CrW) : CrRes := { writes := accumulate x (crAccD w) (crProducts false x w) }
def crMacjEff (x : EngSt) (w : CrW) : CrRes := { writes := accumulate x (crAccD w) (crProducts true x w) }
def crMpyEff (x : EngSt) (w : CrW) : CrRes := { writes := overwrite (x.acm (crAccD w)) (crAccD w) (crProducts false x w) }
def crMpyjEff (x : EngSt) (w : CrW) : CrRes := { writes := overwrite (x.acm (crAccD w)) (crAccD w) (crProducts true x w) }

/-- The lanes of Va extended as AUX[0] says (R352). -/
def extLanes (x : EngSt) (w : CrW) : List Int :=
  let b := crWidth w
  (lanes b (x.vr (crA w))).map fun v => if crAux w % 2 = 1 then (wrapU b v : Int) else v

def crAddaEff (x : EngSt) (w : CrW) : CrRes := { writes := accumulate x (crAccD w) (extLanes x w) }
def crLdaEff (x : EngSt) (w : CrW) : CrRes := { writes := [(.acc (crAccD w), ofAccLanes (x.acm (crAccD w)) (extLanes x w))] }
def crClrEff (_ : EngSt) (w : CrW) : CrRes := { writes := [(.acc (crAccD w), 0)] }

/-- The sum of the lanes of one parity, or of all. -/
def sumLanes (l : List Int) (par : Option Nat) : Int :=
  l.zipIdx.foldl (fun a v => match par with
    | some p => if v.2 % 2 = p then a + v.1 else a
    | none => a + v.1) 0

def crAsumEff (x : EngSt) (w : CrW) : CrRes :=
  let mode := x.acm (crAccA w)
  let l := accLanes mode (x.ac (crAccA w))
  let vals := if mode < 2 then [sumLanes l none, 0, 0, 0] else [sumLanes l (some 0), sumLanes l (some 1), 0, 0]
  { writes := overwrite 1 (crAccD w) vals }

def crAddxEff (x : EngSt) (w : CrW) : CrRes :=
  let mode := x.acm (crAccA w)
  let l := accLanes mode (x.ac (crAccA w))
  let s := crAux w % 2
  let terms := if mode % 2 = 0 then (l.drop (4 * s)).take 4 else l.map fun v => if s = 0 then v % 2 ^ 32 else v / 2 ^ 32
  { writes := accumulate x (crAccD w) terms }

def crRndEff (x : EngSt) (w : CrW) : CrRes :=
  let b := crWidth w
  let s := (accLanes (x.acm (crAccA w)) (x.ac (crAccA w))).map fun v => narrow b (32 * crB w + crAux w) v
  { writes := (.v (crD w), ofLanes b (s.map fun v => v.1)) :: satBit s }

def crExaEff (x : EngSt) (w : CrW) : CrRes :=
  let b := crWidth w
  let l := accLanes (x.acm (crAccA w)) (x.ac (crAccA w))
  { writes := [(.v (crD w), ofLanes b (l.map fun v => v / 2 ^ (b * (crAux w % 4))))] }

/-! ### Control, special registers and absolute moves (R355 to R360) -/

/-- A condition on the flags (R347). -/
def crCond (sr : Word) (c : Nat) : Bool :=
  let z := bit sr 0
  let n := bit sr 1
  let cy := bit sr 2
  let v := bit sr 3
  match c with
  | 0 => true
  | 1 => z
  | 2 => !z
  | 3 => n != v
  | 4 => n == v
  | 5 => z || n != v
  | 6 => !z && n == v
  | 7 => cy
  | 8 => !cy
  | 9 => n
  | 10 => !n
  | 11 => v
  | 12 => !v
  | 13 => bit sr 14
  | _ => false

def crBraEff (x : EngSt) (w : CrW) : CrRes := { jump := some (if crCond x.sr (fld w 48 4) then (0, fld w 0 12) else (3, 0)) }
def crCallEff (x : EngSt) (w : CrW) : CrRes := { writes := [(.s 20, x.pc + 2)], jump := some (0, fld w 0 12) }
def crRetEff (_ : EngSt) (_ : CrW) : CrRes := { jump := some (1, 0) }
def crRteEff (_ : EngSt) (_ : CrW) : CrRes := { jump := some (2, 0) }
def crRepEff (_ : EngSt) (w : CrW) : CrRes := { rep := some (fld w 0 10 + 1) }
def crLoopEff (x : EngSt) (w : CrW) : CrRes :=
  { writes := [(.s 17, x.pc + 2), (.s 18, fld w 0 12), (.s 16, fld w 12 16 + 1), (.sticky, 2 ^ 11)], jump := some (3, 0) }
def crWaitEff (_ : EngSt) (_ : CrW) : CrRes := { stop := some 2 }
def crHaltEff (_ : EngSt) (_ : CrW) : CrRes := { stop := some 3 }
def crLdiEff (_ : EngSt) (w : CrW) : CrRes := { writes := [(.s (crSreg w), crImm w)] }
def crMfsEff (x : EngSt) (w : CrW) : CrRes := { writes := [(.v (crReg w), x.sreg (crSreg w))] }
def crMtsEff (x : EngSt) (w : CrW) : CrRes := { writes := [(.s (crSreg w), lane32 (x.vr (crReg w)) 0)] }
def crLdsEff (_ : EngSt) (w : CrW) : CrRes := { accs := [{ slot := 3, addr := crAddr w, wide := false, dst := .s (crReg w) }] }
def crStsEff (x : EngSt) (w : CrW) : CrRes := { accs := [{ slot := 3, addr := crAddr w, wide := false, store := some (BitVec.ofNat 128 (x.sreg (crReg w))) }] }
def crLdvEff (_ : EngSt) (w : CrW) : CrRes := { accs := [{ slot := 3, addr := crAddr w, wide := !bit w 5, dst := .v (crReg w), bcast := true }] }
def crStvEff (x : EngSt) (w : CrW) : CrRes := { accs := [{ slot := 3, addr := crAddr w, wide := !bit w 5, store := some (x.vr (crReg w)) }] }
def crLdacEff (_ : EngSt) (w : CrW) : CrRes :=
  { accs := ([0, 1, 2] : List Nat).map fun j => { slot := 4, addr := crAddr w + 16 * j, wide := true, dst := .accPart (crReg w % 4) j } }
def crStacEff (x : EngSt) (w : CrW) : CrRes :=
  { accs := ([0, 1, 2] : List Nat).map fun j => { slot := 4, addr := crAddr w + 16 * j, wide := true, store := some (BitVec.ofNat 128 (fld (x.ac (crReg w % 4)) (128 * j) 128)) } }
def crStiEff (_ : EngSt) (w : CrW) : CrRes := { accs := [{ slot := 3, addr := crAddr w, wide := false, store := some (BitVec.ofNat 128 (crImm w)) }] }
def crLdrsEff (_ : EngSt) (w : CrW) : CrRes :=
  { accs := [{ slot := 3, addr := crAddr w, wide := false, dst := .s 20 }, { slot := 3, addr := crAddr w / 4 * 4 + 4, wide := false, dst := .s 21 }] }
def crStrsEff (x : EngSt) (w : CrW) : CrRes :=
  { accs := [{ slot := 3, addr := crAddr w, wide := false, store := some (BitVec.ofNat 128 x.ra) }, { slot := 3, addr := crAddr w / 4 * 4 + 4, wide := false, store := some (x.ssr.setWidth 128) }] }

/-! ### The instructions -/

def crNop (n : Nat) (up : Option Nat) (d : Dev) : Dev := crStep 0x00 (fun _ => crLegalA true false .none .none 0 0) crNopEff n up d
def crMov (n : Nat) (up : Option Nat) (d : Dev) : Dev := crStep 0x01 (fun _ => crLegalA true false .vec .vec 0 0) crMovEff n up d
def crAdd (n : Nat) (up : Option Nat) (d : Dev) : Dev := crStep 0x02 (fun _ => crLegalA true true .vec .vec 31 0) crAddEff n up d
def crSub (n : Nat) (up : Option Nat) (d : Dev) : Dev := crStep 0x03 (fun _ => crLegalA true true .vec .vec 31 0) crSubEff n up d
def crAdds (n : Nat) (up : Option Nat) (d : Dev) : Dev := crStep 0x04 (fun _ => crLegalA true true .vec .vec 31 0) crAddsEff n up d
def crSubs (n : Nat) (up : Option Nat) (d : Dev) : Dev := crStep 0x05 (fun _ => crLegalA true true .vec .vec 31 0) crSubsEff n up d
def crAbs (n : Nat) (up : Option Nat) (d : Dev) : Dev := crStep 0x06 (fun _ => crLegalA true true .vec .vec 0 0) crAbsEff n up d
def crMin (n : Nat) (up : Option Nat) (d : Dev) : Dev := crStep 0x07 (fun _ => crLegalA true true .vec .vec 31 0) crMinEff n up d
def crMax (n : Nat) (up : Option Nat) (d : Dev) : Dev := crStep 0x08 (fun _ => crLegalA true true .vec .vec 31 0) crMaxEff n up d
def crAnd (n : Nat) (up : Option Nat) (d : Dev) : Dev := crStep 0x09 (fun _ => crLegalA true false .vec .vec 31 0) crAndEff n up d
def crOr (n : Nat) (up : Option Nat) (d : Dev) : Dev := crStep 0x0A (fun _ => crLegalA true false .vec .vec 31 0) crOrEff n up d
def crXor (n : Nat) (up : Option Nat) (d : Dev) : Dev := crStep 0x0B (fun _ => crLegalA true false .vec .vec 31 0) crXorEff n up d
def crShl (n : Nat) (up : Option Nat) (d : Dev) : Dev := crStep 0x0C (fun _ => crLegalA true true .vec .vec 0 31) crShlEff n up d
def crShr (n : Nat) (up : Option Nat) (d : Dev) : Dev := crStep 0x0D (fun _ => crLegalA true true .vec .vec 0 31) crShrEff n up d
def crMul (n : Nat) (up : Option Nat) (d : Dev) : Dev := crStep 0x0E (fun _ => crLegalA true true .vec .vec 31 31) crMulEff n up d
def crCmp (n : Nat) (up : Option Nat) (d : Dev) : Dev := crStep 0x0F (fun _ => crLegalA true true .none .vec 31 0) crCmpEff n up d
def crBcast (n : Nat) (up : Option Nat) (d : Dev) : Dev :=
  crStep 0x10 (fun _ w => crLegalA true true .vec .vec 0 31 w && decide (crAux w < 128 / crWidth w)) crBcastEff n up d
def crPack (n : Nat) (up : Option Nat) (d : Dev) : Dev := crStep 0x11 (fun _ => crLegalA false true .vec .vec 31 31) crPackEff n up d
def crUnpk (n : Nat) (up : Option Nat) (d : Dev) : Dev := crStep 0x12 (fun _ => crLegalA false true .vec .vec 0 1) crUnpkEff n up d
def crConj (n : Nat) (up : Option Nat) (d : Dev) : Dev := crStep 0x13 (fun _ => crLegalA true true .vec .vec 0 0) crConjEff n up d
def crMaxi (n : Nat) (up : Option Nat) (d : Dev) : Dev := crStep 0x18 (fun _ => crLegalA true true .vec .vec 0 0) crMaxiEff n up d
def crMini (n : Nat) (up : Option Nat) (d : Dev) : Dev := crStep 0x19 (fun _ => crLegalA true true .vec .vec 0 0) crMiniEff n up d

/-- Legality of the multiply group: WD matches the mode, and the conjugate forms need a complex mode (R351, R361). -/
def mulLegal (conj : Bool) (x : EngSt) (w : CrW) : Bool :=
  crLegalA true true .acc .vec 31 1 w && wdMatches x (crAccD w) w && (!conj || decide (2 ≤ x.acm (crAccD w)))

def crMac (n : Nat) (up : Option Nat) (d : Dev) : Dev := crStep 0x20 (mulLegal false) crMacEff n up d
def crMacj (n : Nat) (up : Option Nat) (d : Dev) : Dev := crStep 0x21 (mulLegal true) crMacjEff n up d
def crMpy (n : Nat) (up : Option Nat) (d : Dev) : Dev := crStep 0x22 (mulLegal false) crMpyEff n up d
def crMpyj (n : Nat) (up : Option Nat) (d : Dev) : Dev := crStep 0x23 (mulLegal true) crMpyjEff n up d
def crAdda (n : Nat) (up : Option Nat) (d : Dev) : Dev :=
  crStep 0x24 (fun x w => crLegalA true true .acc .vec 0 1 w && wdMatches x (crAccD w) w) crAddaEff n up d
def crLda (n : Nat) (up : Option Nat) (d : Dev) : Dev :=
  crStep 0x25 (fun x w => crLegalA true true .acc .vec 0 1 w && wdMatches x (crAccD w) w) crLdaEff n up d
def crClr (n : Nat) (up : Option Nat) (d : Dev) : Dev := crStep 0x26 (fun _ => crLegalA true false .acc .none 0 0) crClrEff n up d
def crAsum (n : Nat) (up : Option Nat) (d : Dev) : Dev :=
  crStep 0x27 (fun x w => crLegalA true false .acc .acc 0 0 w && x.acm (crAccD w) == 1) crAsumEff n up d
def crAddx (n : Nat) (up : Option Nat) (d : Dev) : Dev :=
  crStep 0x28 (fun x w => crLegalA true false .acc .acc 0 1 w && x.acm (crAccD w) == 1) crAddxEff n up d
def crRnd (n : Nat) (up : Option Nat) (d : Dev) : Dev :=
  crStep 0x29 (fun x w => crLegalA true true .vec .acc 3 31 w && wdMatches x (crAccA w) w) crRndEff n up d
def crExa (n : Nat) (up : Option Nat) (d : Dev) : Dev :=
  crStep 0x2A (fun x w => crLegalA true true .vec .acc 0 3 w && wdMatches x (crAccA w) w && decide (crAux w < 3)) crExaEff n up d

def crBra (n : Nat) (up : Option Nat) (d : Dev) : Dev := crStep 0x40 (fun _ w => crLegalK 0x000F000000000FFF w && decide (fld w 48 4 < 14)) crBraEff n up d
def crCall (n : Nat) (up : Option Nat) (d : Dev) : Dev := crStep 0x41 (fun _ => crLegalK 0xFFF) crCallEff n up d
def crRet (n : Nat) (up : Option Nat) (d : Dev) : Dev := crStep 0x42 (fun _ => crLegalK 0) crRetEff n up d
def crRte (n : Nat) (up : Option Nat) (d : Dev) : Dev := crStep 0x43 (fun _ => crLegalK 0) crRteEff n up d

/-- REP must not repeat a branch, REP, WAIT, HALT or RTE (R314). -/
def crRep (n : Nat) (up : Option Nat) (d : Dev) : Dev :=
  crStep 0x44 (fun x w =>
    let op := crOp (x.fetch (x.pc + 1))
    crLegalK 0x3FF w && !(decide (x.pc + 1 < x.nprog) && decide (0x40 ≤ op) && decide (op ≤ 0x47) && op != 0x45)) crRepEff n up d

/-- END must be at least LOOP + 2 (R359). -/
def crLoop (n : Nat) (up : Option Nat) (d : Dev) : Dev :=
  crStep 0x45 (fun x w => crLegalK 0xFFFFFFF w && decide (x.pc + 2 ≤ fld w 0 12)) crLoopEff n up d

def crWait (n : Nat) (up : Option Nat) (d : Dev) : Dev := crStep 0x46 (fun _ => crLegalK 0) crWaitEff n up d
def crHalt (n : Nat) (up : Option Nat) (d : Dev) : Dev := crStep 0x47 (fun _ => crLegalK 0) crHaltEff n up d
def crLdi (n : Nat) (up : Option Nat) (d : Dev) : Dev :=
  crStep 0x48 (fun _ w => crLegalK 0x01F00000FFFFFFFF w && decide (crSreg w < 23) && !badLc (crSreg w) (crImm w)) crLdiEff n up d
def crMfs (n : Nat) (up : Option Nat) (d : Dev) : Dev := crStep 0x49 (fun _ w => crLegalK 0x01F000000000001F w && decide (crSreg w < 23)) crMfsEff n up d
def crMts (n : Nat) (up : Option Nat) (d : Dev) : Dev :=
  crStep 0x4A (fun x w => crLegalK 0x01F000000000001F w && decide (crSreg w < 23) && !badLc (crSreg w) (lane32 (x.vr (crReg w)) 0)) crMtsEff n up d
def crLds (n : Nat) (up : Option Nat) (d : Dev) : Dev := crStep 0x4B (fun _ w => crLegalK 0x00FFFFFF0000001F w && decide (crReg w < 23)) crLdsEff n up d
def crSts (n : Nat) (up : Option Nat) (d : Dev) : Dev := crStep 0x4C (fun _ w => crLegalK 0x00FFFFFF0000001F w && decide (crReg w < 23)) crStsEff n up d
def crLdv (n : Nat) (up : Option Nat) (d : Dev) : Dev := crStep 0x4D (fun _ => crLegalK 0x00FFFFFF0000003F) crLdvEff n up d
def crStv (n : Nat) (up : Option Nat) (d : Dev) : Dev := crStep 0x4E (fun _ => crLegalK 0x00FFFFFF0000003F) crStvEff n up d
def crLdac (n : Nat) (up : Option Nat) (d : Dev) : Dev := crStep 0x4F (fun _ => crLegalK 0x00FFFFFF00000003) crLdacEff n up d
def crStac (n : Nat) (up : Option Nat) (d : Dev) : Dev := crStep 0x50 (fun _ => crLegalK 0x00FFFFFF00000003) crStacEff n up d
def crSti (n : Nat) (up : Option Nat) (d : Dev) : Dev := crStep 0x51 (fun _ => crLegalK 0x00FFFFFFFFFFFFFF) crStiEff n up d
def crLdrs (n : Nat) (up : Option Nat) (d : Dev) : Dev := crStep 0x52 (fun _ => crLegalK 0x00FFFFFF00000000) crLdrsEff n up d
def crStrs (n : Nat) (up : Option Nat) (d : Dev) : Dev := crStep 0x53 (fun _ => crLegalK 0x00FFFFFF00000000) crStrsEff n up d

end Sys2Proof.Machine
end

