-- ==== Sys2Proof/Machine/Detector.lean ====
section
/-! DEFINITION. Spectral detectors: entry values, DF48 arithmetic, reductions, excision, kurtosis, DETECTOR records, flatness verification (chapter Spectral Detectors). -/
namespace Sys2Proof.Machine

/-! ### The DF48 and DF32 formats (R145, R146) -/

/-- The DF48 number of mantissa m and exponent field e; the flag says that it saturated. A value below the range becomes zero. -/
def dfPack (m : Nat) (e : Int) : Nat × Bool :=
  if m = 0 ∨ e < 0 then (0, false)
  else if 255 < e then (2 ^ 48 - 1, true)
  else (e.toNat * 2 ^ 40 + m, false)

/-- a × 2^k, or a / 2^-k as a pair of numerator and denominator. -/
def scaleQ (a b : Nat) (k : Int) : Nat × Nat :=
  if 0 ≤ k then (a * 2 ^ k.toNat, b) else (a, b * 2 ^ (-k).toNat)

/-- The DF48 number nearest num / den × 2^sh, half up to 40 significant bits. -/
def dfMake (num den : Nat) (sh : Int) : Nat × Bool :=
  if num = 0 ∨ den = 0 then (0, false)
  else
    let l : Int := (log2N num : Int) - (log2N den : Int)
    let q := scaleQ num den (-l)
    let e : Int := if q.1 < q.2 then l - 1 else l
    let s := scaleQ num den (39 - e)
    let m := divRound s.1 s.2
    if m = 2 ^ 40 then dfPack (2 ^ 39) (sh + e - 39 + 1 + 170) else dfPack m (sh + e - 39 + 170)

/-- The mantissa of a DF48 number. -/
def dfM (a : Nat) : Nat := a % 2 ^ 40

/-- The exponent of 2 that a DF48 mantissa is scaled by. -/
def dfE (a : Nat) : Int := ((a / 2 ^ 40 : Nat) : Int) - 170

/-- Sum. -/
def dfAdd (a b : Nat) : Nat × Bool :=
  if a = 0 then (b, false)
  else if b = 0 then (a, false)
  else
    let e := min (dfE a) (dfE b)
    dfMake (dfM a * 2 ^ (dfE a - e).toNat + dfM b * 2 ^ (dfE b - e).toNat) 1 e

/-- Product. -/
def dfMul (a b : Nat) : Nat × Bool := dfMake (dfM a * dfM b) 1 (dfE a + dfE b)

/-- Square root. -/
def dfSqrt (a : Nat) : Nat :=
  let odd := dfE a % 2 = 1
  let m := if odd then 2 * dfM a else dfM a
  let e := if odd then dfE a - 1 else dfE a
  (dfMake (isqrtBits 64 (m * 2 ^ 60)) 1 (e / 2 - 30)).1

/-- Quotient by a count. -/
def dfDiv (a m : Nat) : Nat × Bool := dfMake (dfM a) m (dfE a)

/-- DF32 of a DF48 number (R146). -/
def df32 (a : Nat) : Nat × Bool :=
  if a = 0 then (0, false)
  else
    let m := (dfM a + 2 ^ 15) / 2 ^ 16
    let e := a / 2 ^ 40
    let p := if m = 2 ^ 24 then (2 ^ 23, e + 1) else (m, e)
    if 255 < p.2 then (2 ^ 32 - 1, true) else (p.2 * 2 ^ 24 + p.1, false)

/-- A DF32 number as a mantissa and the exponent of 2 it is scaled by. -/
def df32Val (w : Nat) : Nat × Int := (w % 2 ^ 24, ((w / 2 ^ 24 : Nat) : Int) - 154)

/-! ### Entry values (R144, R147, R148) -/

/-- F_b, the flatness gain of bin b (R148). -/
def flatGain (real : Bool) (dec b log2n : Nat) : Nat :=
  let k := b * 1024 / 2 ^ log2n
  let r := b * 1024 - k * 2 ^ log2n
  let f := fun j => ((Config.flatness real dec j).toNat : Int)
  if log2n ≤ 10 then (f k).toNat else (f k + rshr ((f (k + 1) - f k) * r) (log2n - 10)).toNat

/-- The gain G × 65,536 of a bin of a governing lane. -/
def Dev.gain (d : Dev) (gov : Nat) (flat : Bool) (b log2n : Nat) : Nat :=
  if flat then
    let pw := d.portForce (gov / 8)
    flatGain (portReal pw) (slotDec pw (gov % 8)) b log2n
  else 65536

/-- The entry value of a bin, unrounded: a natural number and the exponent of 2 it is scaled by (R144). -/
def Dev.entry (d : Dev) (f : Frame) (flat : Bool) (b : Nat) : Nat × Int :=
  (powerOf (nth f.bins b (0, 0)) * d.gain f.gov flat b f.log2n, 2 * (f.exp : Int) + 2 - 2 * f.log2n - 16)

/-- An entry value as a DF48 number. -/
def Dev.entryDf (d : Dev) (f : Frame) (flat : Bool) (b : Nat) : Nat × Bool :=
  let v := d.entry f flat b
  dfMake v.1 1 v.2

/-! ### The detector words (R159, R160) -/

/-- DET_EN of a lane setup. -/
def detEn (ws : List Word128) : Bool := bit (wd ws 1) 127 && laneLog2N ws != 0

/-- What a change of which starts a new detector run (R149): both words, or nothing while the stage is idle. -/
def detKey (ws : List Word128) : List Word128 := if detEn ws then [wd ws 1, wd ws 2] else []

def detM (ws : List Word128) : Nat := fld (wd ws 1) 110 16 + 1
def detFirst (ws : List Word128) : Nat := fld (wd ws 1) 94 16
def detCount (ws : List Word128) : Nat := fld (wd ws 1) 80 14 + 1
def detOut (ws : List Word128) : Nat := fld (wd ws 1) 72 8
def detFlat (ws : List Word128) : Bool := bit (wd ws 1) 70

/-- K of MR_DEPTH; zero for off. -/
def mrK (ws : List Word128) : Nat := let x := fld (wd ws 2) 125 3; if x = 0 then 0 else 2 * x + 1

def skEn (ws : List Word128) : Bool := bit (wd ws 2) 112

/-- ESLOTS: the entry size in 32-bit slots (R164). -/
def eslots (ws : List Word128) : Nat :=
  let o := detOut ws
  let n := (List.range 7).foldl (fun a i => a + o / 2 ^ i % 2) 0
  (if bit (wd ws 1) 71 then n else 2 * n) + o / 128 + (if skEn ws ∨ mrK ws ≠ 0 then 1 else 0)

/-! ### State -/

def Dev.det (d : Dev) (l : Nat) : DetSt := d.dets.get (fun _ => {}) l

def Dev.setDet (d : Dev) (l : Nat) (x : DetSt) : Dev := { d with dets := d.dets.set (fun _ => {}) l x }

/-- The median history of a member lane: the frame after its latest one, and per bin the raw entry values, latest first (R153). -/
def Dev.hist (d : Dev) (l : Nat) : Nat × List (List Nat) := d.history.get (fun _ => (0, [])) l

def Dev.setHist (d : Dev) (l : Nat) (x : Nat × List (List Nat)) : Dev :=
  { d with history := d.history.set (fun _ => (0, [])) l x }

/-- The tag of sample `off` of frame k of a governing lane's grid. -/
def Dev.frameTag (d : Dev) (gov k off : Nat) : Nat := d.tagOf gov (d.frameStart gov k + off)

/-- DET_PROG shows the spectra accumulated (R171). -/
def Dev.showProg (d : Dev) (gov : Nat) : Dev :=
  d.wrN (Reg.DET_PROG (gov / 12) (gov % 12)) ((d.det gov).parts.foldl (fun a p => a + p.2.m) 0 % 2 ^ 17)

/-- An event of a detector stage (R173). -/
def Dev.detEvent (d : Dev) (g b e : Nat) : Dev := d.sqEvent (Reg.DET_STATUS g) b (1456 + 4 * g + e)

/-! ### Accumulation (R152 to R154, R157) -/

/-- Puts a number into a rising list. -/
def insertSorted (x : Nat) : List Nat → List Nat
  | [] => [x]
  | y :: r => if x ≤ y then x :: y :: r else y :: insertSorted x r

/-- The median of a window (R153). -/
def medianOf (l : List Nat) : Nat := nth (l.foldl (fun a x => insertSorted x a) []) ((l.length - 1) / 2) 0

/-- 16 × v > thr × med, exactly. -/
def dfOver (v thr med : Nat) : Bool :=
  if med = 0 then v ≠ 0
  else
    let e := min (dfE v) (dfE med)
    decide (thr * dfM med * 2 ^ (dfE med - e).toNat < 16 * dfM v * 2 ^ (dfE v - e).toNat)

/-- What one bin adds: the entry value, the value for SA and SV, and whether it was excised. -/
def exciseBin (k thr : Nat) (h : List Nat) (v : Nat) : Nat × Bool :=
  if k = 0 then (v, false)
  else
    let med := medianOf (v :: h)
    if dfOver v thr med then (med, true) else (v, false)

/-- Element-wise sums in DF48, and whether one saturated. -/
def dfAddAll (a b : List Nat) : List Nat × Bool :=
  let r := (List.range b.length).map fun i => dfAdd (nth a i 0) (nth b i 0)
  (r.map fun x => x.1, r.any fun x => x.2)

/-- One spectrum accumulated into a member's part (R152). -/
def DetPart.take (x : DetPart) (idx : Nat) (v e : List Nat) (exc : List Bool) (sat : Bool) : DetPart :=
  let sq := v.map fun a => dfMul a a
  let s1 := dfAddAll x.s1 v
  let s2 := dfAddAll x.s2 (sq.map fun a => a.1)
  let sa := dfAddAll x.sa e
  let sv := dfAddAll x.sv (e.map dfSqrt)
  { m := x.m + 1, last := idx,
    sat := x.sat || sat || s1.2 || s2.2 || sa.2 || sv.2 || sq.any fun a => a.2,
    peak := (List.range v.length).map fun i => max (nth x.peak i 0) (nth v i 0),
    least := (List.range v.length).map fun i => if x.m = 0 then nth v i 0 else min (nth x.least i 0) (nth v i 0),
    samp := v, sa := sa.1, sv := sv.1, s1 := s1.1, s2 := s2.1,
    exc := (List.range v.length).map fun i => nth x.exc i 0 + b2n (nth exc i false) }

/-- The detail word of a lane cause (R196): frame, first bin, number of bins. -/
def laneDetail (frame first viol : Nat) : Word128 := packBE 128 [(frame, 64), (first, 16), (viol, 16), (0, 32)]

/-- A computed frame enters the stage: entry values, excision, sums, counts and MR_HIT. -/
def Dev.detTake (d : Dev) (f : Frame) : Dev :=
  let ws := d.force f.gov
  let st := d.det f.gov
  let first := detFirst ws
  let es := (List.range (detCount ws)).map fun b => d.entryDf f (detFlat ws) (first + b)
  let v := es.map fun x => x.1
  let k := mrK ws
  let w := (d.members f.gov).length
  let h := d.hist f.lane
  let hs := if h.1 = f.idx then h.2 else []
  let ex := (List.range v.length).map fun b => exciseBin k (fld (wd ws 2) 113 12) (nth hs b []) (nth v b 0)
  let hs' := (List.range v.length).map fun b => ((nth v b 0) :: nth hs b []).take (k - 1)
  let p := (st.parts.get (fun _ => {}) (f.lane - f.gov)).take f.idx v (ex.map fun x => x.1) (ex.map fun x => x.2) (es.any fun x => x.2)
  let st := { st with
    parts := st.parts.set (fun _ => {}) (f.lane - f.gov) p, mixed := st.mixed || f.mixed, settling := st.settling || f.settling,
    sat := st.sat || f.sat, fill := st.fill || f.fill, mismatch := st.mismatch || f.mismatch, cond := st.cond || f.cond }
  let d := d.setDet f.gov st
  let d := if k = 0 then d else d.setHist f.lane (f.idx + w, hs')
  let n := (ex.filter fun x => x.2).length
  let d := d.addSat (Reg.DET_EXC (f.lane / 12) (f.lane % 12)) n
  let hf := fld (wd ws 2) 55 16
  let hits := (List.range v.length).filter fun b =>
    (nth ex b (0, false)).2 && decide (hf ≤ first + b) && decide (first + b ≤ hf + fld (wd ws 2) 41 14)
  let need := fld (wd ws 2) 27 14
  if need ≠ 0 ∧ need ≤ hits.length then
    d.pulse (192 + f.lane) f.tMid f.phys (laneDetail f.idx (first + hits.headD 0) hits.length)
  else d

/-! ### The end of a reduction (R150, R151, R155, R156, R162 to R167) -/

/-- The members' parts combined in ascending member order (R151). -/
def combineParts (last : Nat) (ps : List DetPart) : DetPart :=
  match ps with
  | [] => {}
  | p :: r =>
    let c := r.foldl (fun (a b : DetPart) =>
      let s1 := dfAddAll a.s1 b.s1
      let s2 := dfAddAll a.s2 b.s2
      let sa := dfAddAll a.sa b.sa
      let sv := dfAddAll a.sv b.sv
      { m := a.m + b.m,
        last := if b.last = last ∨ (a.last ≠ last ∧ a.last < b.last) then b.last else a.last,
        sat := a.sat || b.sat || s1.2 || s2.2 || sa.2 || sv.2,
        peak := (List.range b.peak.length).map fun i => max (nth a.peak i 0) (nth b.peak i 0),
        least := (List.range b.least.length).map fun i => min (nth a.least i 0) (nth b.least i 0),
        samp := if b.last = last ∨ (a.last ≠ last ∧ a.last < b.last) then b.samp else a.samp,
        s1 := s1.1, s2 := s2.1, sa := sa.1, sv := sv.1,
        exc := (List.range b.exc.length).map fun i => nth a.exc i 0 + nth b.exc i 0 }) p
    c

/-- SK of a bin in 2^-16 units (R155). -/
def skValue (m s1 s2 : Nat) : Nat :=
  if s1 = 0 then 0x10000
  else
    let e := min (2 * dfE s1) (dfE s2)
    let a : Int := m * dfM s2 * 2 ^ (dfE s2 - e).toNat
    let b : Int := dfM s1 * dfM s1 * 2 ^ (2 * dfE s1 - e).toNat
    let num : Int := (m + 1) * (a - b) * 65536
    let den : Int := (m - 1) * b
    clampN 0 0xFFFFFFFF ((2 * num + den) / (2 * den)).toNat

/-- The symmetric bounds at a count m of at least 2 (R156). -/
def skBounds (m sigma : Nat) : Nat × Nat :=
  let q := (m - 1) * (m + 2) * (m + 3)
  let a := 1024 * sigma * m
  let s := isqrtBits 64 (a * a / q)
  let up := (s + 1) / 2
  let down := if s * s * q = a * a then s / 2 else (s + 1) / 2
  (4096 - down, min (4096 + up) 0xFFFF)

/-- The bounds of word 3 of a record of m spectra: free where no bound is defined. -/
def Dev.skUsed (d : Dev) (ws : List Word128) (m : Nat) : (Nat × Nat) × Dev :=
  let w2 := wd ws 2
  if skEn ws ∧ bit w2 111 then ((fld w2 87 16, fld w2 71 16), d)
  else if skEn ws ∧ 2 ≤ m then (skBounds m (fld w2 103 8), d)
  else
    let r := Config.freeWord d.fresh
    ((fld r 0 16, fld r 16 16), d.draw)

/-- One DF48 or DF32 value as slots, and whether it saturated. -/
def dfSlots (short : Bool) (a : Nat) : List Nat × Bool :=
  if short then let p := df32 a; ([p.1], p.2) else ([a / 2 ^ 32, a % 2 ^ 32], false)

/-- The slots of one bin's entry (R164), and whether a conversion saturated. -/
def entrySlots (ws : List Word128) (c : DetPart) (sk : Nat) (flagged : Bool) (b : Nat) : List Nat × Bool :=
  let o := detOut ws
  let rms := dfDiv (nth c.sa b 0) c.m
  let av := dfDiv (nth c.sv b 0) c.m
  let vavg := dfMul av.1 av.1
  let vals : List (Nat × Bool) := [(nth c.peak b 0, false), (nth c.least b 0, false), (nth c.samp b 0, false), rms,
    (vavg.1, vavg.2 || av.2), (nth c.s1 b 0, false), (nth c.s2 b 0, false)]
  let sel := (List.range 7).filterMap fun i => if o / 2 ^ i % 2 = 1 then vals[i]? else none
  let cols := sel.map fun x => (dfSlots (bit (wd ws 1) 71) x.1, x.2)
  let e := nth c.exc b 0
  ((cols.flatMap fun x => x.1.1)
    ++ (if o / 128 % 2 = 1 then [sk] else [])
    ++ (if skEn ws ∨ mrK ws ≠ 0 then [b2n flagged * 2 ^ 31 + b2n (e ≠ 0) * 2 ^ 30 + min e 0x1FFFF] else []),
   cols.any fun x => x.1.2 || x.2)

/-- 32-bit slots packed four to a word, first highest (R164, R218). -/
def slotWords (l : List Nat) : List Word128 :=
  (chunks 4 l).map fun c => packBE 128 ((List.range 4).map fun q => (nth c q 0, 32))

/-- Words of records of one type in a lane's output buffer. -/
def Dev.typeHeld (d : Dev) (r typ : Nat) : Nat :=
  (d.outOf r).foldl (fun a x => if fld (nth x 0 0) 120 8 = typ then a + x.length else a) 0

/-- One DETECTOR record, or the DET_SKIP GAP in its place (R162, R165, R166). -/
def Dev.detRecord (d : Dev) (gov k0 last : Nat) (st : DetSt) (w2 : Word128) (w3 : Word128) (data : List Word128) (cont : Bool) (rfi : Bool) : Dev :=
  let n := laneN (d.force gov)
  let flags := b2n (st.cond || d.laneCond gov (d.frameTag gov k0 0)) * 128 + b2n cont * 32 + b2n rfi * 16 + b2n st.settling * 8 + b2n st.mixed * 4
  if d.typeHeld (48 + gov) 0x02 + data.length + 4 ≤ 32771 then
    d.emit (48 + gov) {
      typ := 0x02, src := 0x2000 + gov, phys := d.lanePhys gov, flags := flags, slot := d.slotOf gov, sw := d.swOf gov,
      time := d.timeWord 1 false (d.frameTag gov last (n / 2)) } (w2 :: w3 :: data)
  else
    let d := (d.addSat (Reg.DET_SKIPS (gov / 12)) 1).detEvent (gov / 12) 5 0
    d.laneGap gov 0x29 2 (last + 1 - k0) (d.frameTag gov k0 0) (d.frameTag gov (last + 1) 0) false

/-- The records of a reduction, split by bins (R165). -/
def Dev.detRecords (d : Dev) (gov k0 last : Nat) (st : DetSt) (w2 : Word128) (w3 : Nat → Nat → Word128) (es : Nat) (rfi : Bool) : Nat → Nat → List (List Nat) → Dev
  | 0, _, _ => d
  | n + 1, b, entries =>
    let per := 131068 / es
    let here := entries.take per
    let rest := entries.drop per
    let d := d.detRecord gov k0 last st w2 (w3 b here.length) (slotWords here.flatten) (!rest.isEmpty) rfi
    if rest.isEmpty then d else d.detRecords gov k0 last st w2 w3 es rfi n (b + per) rest

/-- The outputs of a reduction whose nominal last frame is `last`: kurtosis, SK_HIT, records (R155 to R157, R162 to R165). -/
def Dev.detOutputs (d : Dev) (gov k0 last : Nat) (st : DetSt) : Dev :=
  let ws := d.force gov
  let w1 := wd ws 1
  let w2 := wd ws 2
  let n := laneN ws
  let c := combineParts last (st.parts.map fun p => p.2)
  let nb := detCount ws
  let short := skEn ws && decide (c.m < 8)
  let u := d.skUsed ws c.m
  let lo := u.1.1
  let hi := u.1.2
  let d := u.2
  let sk := (List.range nb).map fun b => if skEn ws && !short then skValue c.m (nth c.s1 b 0) (nth c.s2 b 0) else 0
  let flagged := (List.range nb).map fun b =>
    skEn ws && !short && decide (nth c.s1 b 0 ≠ 0) && (decide (nth sk b 0 < 16 * lo) || decide (16 * hi < nth sk b 0))
  let nf := (flagged.filter id).length
  let d := d.addSat (Reg.DET_SKF (gov / 12) (gov % 12)) nf
  let hf := fld w2 55 16
  let hits := (List.range nb).filter fun b =>
    nth flagged b false && decide (hf ≤ detFirst ws + b) && decide (detFirst ws + b ≤ hf + fld w2 41 14)
  let need := fld w2 13 14
  let d := if need ≠ 0 ∧ need ≤ hits.length then
      d.pulse (256 + gov) (d.frameTag gov last (n / 2)) (d.lanePhys gov) (laneDetail last (detFirst ws + hits.headD 0) hits.length)
    else d
  if bit w1 126 then
    let entries := (List.range nb).map fun b => entrySlots ws c (nth sk b 0) (nth flagged b false) b
    let sat := st.sat || c.sat || entries.any fun x => x.2
    let word2 : Word128 := packBE 128 [(c.m, 17), (fld w1 110 16, 16), (detOut ws, 8), (b2n (bit w1 71), 1), (fld w2 125 3, 3),
      (b2n (skEn ws), 1), (b2n (detFlat ws), 1), (b2n (c.m < detM ws), 1), (b2n st.fill, 1), (b2n sat, 1), (b2n short, 1),
      (b2n st.mismatch, 1), (0, 12), (k0, 64)]
    let word3 := fun b len => packBE 128 [(detFirst ws + b, 16), (len, 15), (eslots ws, 5), (nf, 15), (lo, 16), (hi, 16), (0, 45)]
    d.detRecords gov k0 last st word2 word3 (eslots ws) (skEn ws || mrK ws ≠ 0) nb 0 (entries.map fun x => x.1)
  else d

/-- The DETAIL word of an error in the detector SRAM of a lane (R518). -/
def bankDetail (l : Nat) : Word128 := packBE 128 [(0x5008 + l, 16), (0, 112)]

/-- An ERROR record of a stage's or a grid's SRAM over frames k0 to `last`, naming the bank of a lane (R167, R211). -/
def Dev.bankError (d : Dev) (gov l cause k0 last : Nat) (cond : Bool) : Dev :=
  let t0 := d.frameTag gov k0 0
  let a := d.timeWord 1 false t0
  d.emit (48 + gov) {
    typ := 0x0A, src := 0x2000 + gov, phys := d.lanePhys gov, flags := b2n (cond || d.laneCond gov t0) * 128, slot := d.slotOf gov,
    sw := d.swOf gov, time := a }
    (errPayload cause 2 (last + 1 - k0) a (d.timeWord 1 false (d.frameTag gov (last + 1) 0)) (bankDetail l))

/-- The lanes whose bank fails a reduction or an epoch: those hit in it, and the members whose bank could not be replaced (R167, R211). -/
def Dev.failedBanks (d : Dev) (gov : Nat) (hits bad : List Nat) : List Nat := hits ++ (d.members gov).filter (bad.contains ·)

/-- The reduction in progress ends with nominal last frame `last` (R149 to R151, R167); the next one begins empty, on a replaced bank with an empty history too. -/
def Dev.detClose (d : Dev) (gov last : Nat) : Dev :=
  let st := d.det gov
  match st.run with
  | none => d
  | some f0 =>
    if !st.opened then d
    else
      let ws := d.force gov
      let k0 := f0 + st.r * detM ws
      let d := d.add (Reg.DET_RED (gov / 12) (gov % 12)) 1
      let d := match d.failedBanks gov st.hits (d.group (gov / 12)).detBad with
        | l :: _ => d.bankError gov l 0x28 k0 last st.cond
        | [] => if st.parts.isEmpty then d else d.detOutputs gov k0 last st
      let d := st.hits.foldl (fun d l => d.setHist l (0, [])) d
      (d.setDet gov { run := some f0, r := st.r + 1 }).showProg gov

/-- Frame i of a stream's frame order reaches the stage, computed or not (R149, R150, R154). -/
def Dev.detDeliver (d : Dev) (gov i : Nat) (of : Option Frame) : Dev :=
  let ws := d.force gov
  if !detEn ws then d
  else
    let st := d.det gov
    let st := match st.run, of with
      | none, some _ => { st with run := some i, r := 0 }
      | _, _ => st
    match st.run with
    | none => d
    | some f0 =>
      let d := d.setDet gov { st with opened := true }
      let d := match of with
        | some f => d.detTake f
        | none => d.setHist (gov + i % (d.members gov).length) (0, [])
      let d := d.showProg gov
      let ends := match of with | some f => f.gridEnd | none => false
      if ends ∨ f0 + (st.r + 1) * detM ws ≤ i + 1 then d.detClose gov i else d

/-- The stage starts anew, its members' histories empty (R149, R154): at a new grid its run begins with frame 0, and after a change of words with the next computed frame. -/
def Dev.detRestart (d : Dev) (gov : Nat) (grid : Bool) : Dev :=
  let d := (d.members gov).foldl (fun d l => d.setHist l (0, [])) d
  (d.setDet gov { run := if grid then some 0 else none }).showProg gov

/-! ### Parity (R167) -/

/-- The spare detector SRAM banks of a group (R170). -/
def Dev.spareBanks (d : Dev) (g : Nat) : Nat := d.f (Reg.DET_STATUS g) 2 2

/-- Bank `b` mod 2 of group `b` / 2 is an unused spare. -/
def Dev.isSpareBank (d : Dev) (b : Nat) : Bool := !d.fl.usedBanks.contains b

/-- A spare bank is claimed or retired: SPARE_BANKS decrements (R170, R430). -/
def Dev.dropSpareBank (d : Dev) (b : Nat) : Dev :=
  { d with fl := { d.fl with usedBanks := d.fl.usedBanks ++ [b] } }.wrF (Reg.DET_STATUS (b / 2)) 2 2 (d.spareBanks (b / 2) - 1)

/-- A bank of detector SRAM is replaced by a spare one, the lower of two: the flag says that one was left. The sump and the peat log each take an entry. -/
def Dev.claimBank (d : Dev) (l : Nat) : Dev × Bool :=
  let g := l / 12
  let d := (d.report 0x06 (0x5008 + l) 24).logRetire 4 (8 + l) 0
  match [2 * g, 2 * g + 1].find? d.isSpareBank with
  | none => (d, false)
  | some b => (d.dropSpareBank b, true)

/-- A parity error in a stage's detector SRAM spoils the reduction in progress (R167); its lane's history is lost. -/
def detParity (l : Nat) (d : Dev) : Dev :=
  let gov := d.governing l
  let p := d.claimBank l
  let d := (p.1.detEvent (l / 12) 6 1).setHist l (0, [])
  let st := d.det gov
  let d := if st.opened then d.setDet gov { st with hits := st.hits ++ [l] } else d
  let x := d.group (l / 12)
  if p.2 then d else d.setGroup (l / 12) { x with detBad := x.detBad ++ [l] }

/-! ### Flatness verification (R168, R169) -/

def Dev.flat (d : Dev) (g : Nat) : FlatSt := d.flats.get (fun _ => {}) g

def Dev.setFlat (d : Dev) (g : Nat) (x : FlatSt) : Dev := { d with flats := d.flats.set (fun _ => {}) g x }

/-- Verification starts, or is deferred without a spare or while derated. -/
def Dev.flatTry (d : Dev) (g : Nat) : Dev :=
  if d.spareOf g = 15 ∨ d.derated then d.setB (Reg.DET_STATUS g) 8
  else ((d.clrB (Reg.DET_STATUS g) 8).setB (Reg.DET_STATUS g) 1).setFlat g { d.flat g with temp := some d.dieQ }

/-- A request for a verification: those that arrive while one is deferred or runs are served once (R169). -/
def flatVerify (g : Nat) (d : Dev) : Dev :=
  if d.on (Reg.DET_STATUS g) 1 then d.setFlat g { d.flat g with again := true }
  else if d.on (Reg.DET_STATUS g) 8 then d
  else d.flatTry g

/-- With AUTO, a die-temperature move beyond TDELTA starts a verification; a deferred one starts once its cause is over (R168, R169). -/
def flatAutoStart (g : Nat) (d : Dev) : Dev :=
  if d.on (Reg.DET_STATUS g) 1 then d
  else if d.on (Reg.DET_STATUS g) 8 then d.flatTry g
  else
    match (d.flat g).temp with
    | some t =>
      if d.on (Reg.FLAT_CTRL g) 31 ∧ tempMoved d.dieQ t (d.f (Reg.FLAT_CTRL g) 24 6 + 1) then d.flatTry g else d
    | none => d

/-- A combination of FORM and DEC is in force in a group: a stream of its lanes has it (R168). -/
def Dev.flatInForce (d : Dev) (g : Nat) (form : Bool) (dec : Nat) : Bool :=
  (groupLanes g).any fun l =>
    let pw := d.portForce (l / 8)
    decide (streamSlot pw (l % 8) = some (l % 8)) && portReal pw == form && decide (slotDec pw (l % 8) = dec)

/-- A verification ends with the residual of its worst combination, one in force in the group (R168). -/
def flatVerifyEnd (g : Nat) (form : Bool) (dec resid : Nat) (d : Dev) : Dev :=
  if !d.on (Reg.DET_STATUS g) 1 ∨ !d.flatInForce g form dec then d
  else
    let d := d.clrB (Reg.DET_STATUS g) 1
    let d := d.add (Reg.FLAT_VER_COUNT g) 1
    let d := d.wr64 (Reg.FLAT_VER_TIME_LO g) (Reg.FLAT_VER_TIME_HI g) (shortTime d.now)
    let d := d.wr (Reg.FLAT_RESID g) (packBE 32 [(0, 10), (b2n form, 1), (dec, 5), (min resid 0xFFFF, 16)])
    let d := if d.f (Reg.FLAT_CTRL g) 0 16 < resid then d.detEvent g 7 2 else d
    let d := d.detEvent g 4 3
    if (d.flat g).again then (d.setFlat g { d.flat g with again := false }).flatTry g else d

/-- DET_CMD CLEAR_COUNTS (R171). -/
def detClearCounts (g : Nat) (d : Dev) : Dev :=
  (List.range 12).foldl (fun d i => (d.wrN (Reg.DET_EXC g i) 0).wrN (Reg.DET_SKF g i) 0) (d.wrN (Reg.DET_SKIPS g) 0)

end Sys2Proof.Machine
end

