-- ==== Sys2Proof/Machine/Density.lean ====
section
/-! DEFINITION. The frequency-mask comparator, the density updater, and the frame order in which the stages of a stream take its frames (chapters Triggers and Density Display). -/
namespace Sys2Proof.Machine

/-! ### Frequency-mask trigger (R178 to R182) -/

def Dev.mask (d : Dev) (l : Nat) : MaskSt := d.masks.get (fun _ => {}) l

def Dev.setMask (d : Dev) (l : Nat) (x : MaskSt) : Dev := { d with masks := d.masks.set (fun _ => {}) l x }

/-- a × 2^p > b × 2^q, exactly. -/
def gtScaled (a : Nat) (p : Int) (b : Nat) (q : Int) : Bool :=
  let e := min p q
  decide (b * 2 ^ (q - e).toNat < a * 2 ^ (p - e).toNat)

/-- The entries of a mask table that start below N, each with the bin after its last (R178). -/
def maskEntries (t : List Word128) (n : Nat) : List (Nat × Nat × Word128) :=
  let es := ((t.drop 1).take (fld (nth t 0 0) 0 10 + 1)).filter fun w => decide (fld w 112 16 < n)
  (List.range es.length).map fun i =>
    (fld (nth es i 0) 112 16, (match es[i + 1]? with | some w => fld w 112 16 | none => n), nth es i 0)

/-- Whether a bin violates the upper and the lower mask of an entry (R179). -/
def maskBin (w : Word128) (v : Nat × Int) : Bool × Bool :=
  let u := df32Val (fld w 64 32)
  let l := df32Val (fld w 32 32)
  (bit w 111 && gtScaled v.1 v.2 u.1 u.2, bit w 110 && gtScaled l.1 l.2 v.1 v.2)

/-- CU, CL, the first violating bin and the number of violating bins of a spectrum (R179). -/
def Dev.maskCount (d : Dev) (f : Frame) (flat : Bool) (t : List Word128) : Nat × Nat × Nat × Nat :=
  let bad := (maskEntries t (2 ^ f.log2n)).flatMap fun e =>
    if bit e.2.2 111 || bit e.2.2 110 then
      (List.range (e.2.1 - e.1)).filterMap fun i =>
        let r := maskBin e.2.2 (d.entry f flat (e.1 + i))
        if r.1 || r.2 then some (e.1 + i, r) else none
    else []
  ((bad.filter fun b => b.2.1).length, (bad.filter fun b => b.2.2).length, (bad.head?.map fun b => b.1).getD 0, bad.length)

/-- Frame i of a stream's frame order reaches the mask comparator (R180, R181). -/
def Dev.maskDeliver (d : Dev) (gov : Nat) (of : Option Frame) : Dev :=
  let w := wd (d.force gov) 3
  match of with
  | none => d.setMask gov {}
  | some f =>
    if !bit w 127 ∨ f.fill ∨ (bit w 88 ∧ (f.mixed ∨ f.settling)) then d.setMask gov {}
    else
      let c := d.maskCount f (bit w 121) (d.table (0x9000 + 32 * (gov / 12) + fld w 122 5))
      let minU := fld w 107 14
      let minL := fld w 93 14
      let qual := fld w 89 4 + 1
      let x := d.mask gov
      let y : MaskSt := ⟨if minU ≤ c.1 then x.upper + 1 else 0, if minL ≤ c.2.1 then x.lower + 1 else 0⟩
      let d := d.setMask gov y
      let det := laneDetail f.idx c.2.2.1 c.2.2.2
      let d := if minU ≠ 0 ∧ qual ≤ y.upper then d.pulse (64 + gov) f.tMid f.phys det else d
      if minL ≠ 0 ∧ qual ≤ y.lower then d.pulse (128 + gov) f.tMid f.phys det else d

/-! ### The density words (R213, R214) -/

def densEn (ws : List Word128) : Bool := bit (wd ws 4) 127 && laneLog2N ws != 0

/-- What a change of which restarts the grid of counters (R207). -/
def densKey (ws : List Word128) : List Word128 := if densEn ws then [wd ws 4] else []

def densCols (w : Word128) : Nat := 2 ^ fld w 106 4
def densRows (w : Word128) : Nat := 2 ^ fld w 97 4
def densBpc (w : Word128) : Nat := 2 ^ fld w 102 4
def densEpoch (w : Word128) : Nat := fld w 46 16 + 1

/-- D(c), what persists of a count (R208). -/
def persist (w : Word128) (c : Nat) : Nat :=
  let m := fld w 66 2
  let k := fld w 62 4
  if m = 1 then c * (2 ^ k - 1) / 2 ^ k else if m = 2 then 0 else c

/-! ### Rows (R205) -/

/-- 10^k ≥ a × 2^s, exactly. -/
def tenPowGe (k : Int) (a : Nat) (s : Int) : Bool :=
  let up := fun (e : Int) => 10 ^ e.toNat
  let q := scaleQ a 1 s
  decide (q.1 * up (-k) ≤ q.2 * up k)

/-- The first integer from k on, by fuel, whose power of ten reaches a × 2^s. -/
def tenCeil (a : Nat) (s : Int) : Nat → Int → Int
  | 0, k => k
  | n + 1, k => if tenPowGe k a s then k else tenCeil a s n (k + 1)

/-- The least integer not below 640 log10 v, for v = a × 2^s with a ≠ 0. -/
def ceilLog (a : Nat) (s : Int) : Int :=
  let p := a ^ 640
  let e := 640 * s
  let l : Int := (log2N p : Int) + e
  tenCeil p e 8 (l * 30102999 / 100000000 - 2)

/-- The row of an entry value, and whether it clips high or low (R205). -/
def densRow (w : Word128) (v : Nat × Int) : Nat × Bool × Bool :=
  let rows := densRows w
  if v.1 = 0 then (rows - 1, false, true)
  else
    let r := (sfld w 81 16 - ceilLog v.1 v.2) / (fld w 69 12 : Int)
    if r < 0 then (0, true, false)
    else if (rows : Int) ≤ r then (rows - 1, false, true)
    else (r.toNat, false, false)

/-! ### Counting (R204 to R206, R212) -/

def Dev.den (d : Dev) (l : Nat) : DensSt := d.dens.get (fun _ => {}) l

def Dev.setDen (d : Dev) (l : Nat) (x : DensSt) : Dev := { d with dens := d.dens.set (fun _ => {}) l x }

/-- The counters of a lane's own grid, keyed by row × COLS + column. -/
def Dev.grid (d : Dev) (l : Nat) : Tab Nat := d.grids.get (fun _ => []) l

def Dev.setGrid (d : Dev) (l : Nat) (x : Tab Nat) : Dev := { d with grids := d.grids.set (fun _ => []) l x }

/-- An event of the density unit of a group (R235). -/
def Dev.densEvent (d : Dev) (g b e : Nat) : Dev := d.sqEvent (Reg.DENS_STATUS g) b (1376 + 4 * g + e)

/-- The bins that count in a spectrum, with their columns: all, or the largest of each column (R205). -/
def Dev.densBins (d : Dev) (f : Frame) (w : Word128) : List (Nat × (Nat × Int)) :=
  let first := fld w 110 16
  let bpc := densBpc w
  let v := fun b => d.entry f (bit w 45) b
  if bit w 101 then
    (List.range (densCols w)).map fun c =>
      (c, (List.range bpc).foldl (fun (a : Nat × Int) q =>
        let x := v (first + c * bpc + q)
        if gtScaled x.1 x.2 a.1 a.2 then x else a) (v (first + c * bpc)))
  else (List.range (densCols w * bpc)).map fun b => (b / bpc, v (first + b))

/-- A counted spectrum enters the grid (R205); DENS_HIT pulses on the spectrum that brings the region count to HLEVEL (R212). -/
def Dev.densCount (d : Dev) (f : Frame) : Dev :=
  let ws := d.force f.gov
  let w := wd ws 4
  let w5 := wd ws 5
  let g := f.lane / 12
  let i := f.lane % 12
  let hits := (d.densBins f w).map fun b => (b.1, densRow w b.2)
  let gr := hits.foldl (fun (a : Tab Nat × Bool) h =>
    let k := h.2.1 * densCols w + h.1
    let c := a.1.get (fun _ => 0) k
    (a.1.set (fun _ => 0) k (satAdd 32 c 1), a.2 || decide (c + 1 = 0xFFFFFFFF ∨ c = 0xFFFFFFFF))) (d.grid f.lane, false)
  let d := d.setGrid f.lane gr.1
  let d := d.addSat (Reg.DENS_CLIPHI g i) (hits.filter fun h => h.2.2.1).length
  let d := d.addSat (Reg.DENS_CLIPLO g i) (hits.filter fun h => h.2.2.2).length
  let d := if gr.2 then d.densEvent g 2 1 else d
  let inRegion := (hits.filter fun h => decide (fld w5 117 10 ≤ h.1) && decide (h.1 ≤ fld w5 107 10)
    && decide (fld w5 99 8 ≤ h.2.1) && decide (h.2.1 ≤ fld w5 91 8)).length
  let st := d.den f.gov
  let n := if bit w5 127 then st.region + inRegion else st.region
  let fire := bit w5 127 && !st.hit && decide (fld w5 59 32 ≤ n)
  let d := d.setDen f.gov { st with
    m := st.m + 1, region := n, hit := st.hit || fire, sat := st.sat || gr.2, mixed := st.mixed || f.mixed, settling := st.settling || f.settling }
  if fire then d.pulse (320 + f.gov) f.tMid f.phys (laneDetail f.idx 0 0) else d

/-! ### Epochs and DENSITY records (R207 to R211, R216 to R219) -/

/-- A DENSITY record that the readout did not reach becomes a DENS_SKIP GAP with its reserved SEQ (R219). -/
def densSkip (payload : List Word128) (rec : Rec) : Rec :=
  let h := nth rec 0 0
  put (put (put h 120 8 0x09) 96 20 5) 72 8 (fld h 79 1 * 128) :: nth payload 1 0 :: payload

/-- A readout unfinished at the next epoch boundary stops (R219). -/
def Dev.densStop (d : Dev) (gov : Nat) : Dev :=
  match (d.den gov).span with
  | none => d
  | some (t0, t1) =>
    let old := d.outOf (48 + gov)
    let left := old.filter fun r => fld (nth r 0 0) 120 8 = 0x03
    if left.isEmpty then d
    else
      let pay := gapPayload 0x2A 3 1 (d.timeWord 1 false t0) (d.timeWord 1 false t1)
      let d := { d with out := d.out.set (fun _ => []) (48 + gov) (old.map fun r =>
        if fld (nth r 0 0) 120 8 = 0x03 then densSkip pay r else r) }
      (d.addSat (Reg.DENS_SKIPS (gov / 12)) left.length).densEvent (gov / 12) 1 0

/-- The counters of a stream, its members' added in ascending order (R210), and whether an addition saturated. -/
def densCell (cells : List (Tab Nat)) (k : Nat) : Nat :=
  cells.foldl (fun a t => satAdd 32 a (t.get (fun _ => 0) k)) 0

/-- Rows of a DENSITY record (R217). -/
def densRowsR (w : Word128) : Nat := min (densRows w) (32768 / densCols w)

/-- Counters of a grid. -/
def densSize (w : Word128) : Nat := densCols w * densRows w

/-- A grid of 262,144 counters is sliding (R209). -/
def densSliding (w : Word128) : Bool := decide (131072 < densSize w)

/-- The header and words 2 and 3 of the records of an epoch, row block by row block, with room for their counters (R216 to R218). -/
def Dev.densHeads (d : Dev) (gov k0 last wt : Nat) (st : DensSt) (ended : Bool) : Dev × List Rec :=
  let w := wd (d.force gov) 4
  let rr := densRowsR w
  let n := laneN (d.force gov)
  let time := d.timeWord 1 false (d.frameTag gov last (n / 2))
  let w2 : Word128 := packBE 128 [(fld w 106 4, 4), (fld w 102 4, 4), (fld w 97 4, 4), (fld w 101 1, 1), (fld w 66 2, 2), (fld w 62 4, 4),
    (b2n (densSliding w), 1), (b2n (ended || decide (st.computed < densEpoch w)), 1), (b2n st.sat, 1), (0, 10), (st.m, 32), (st.e, 64)]
  (List.range (densRows w / rr)).foldl (fun (a : Dev × List Rec) b =>
    let cont := decide (b + 1 < densRows w / rr)
    let w3 : Word128 := packBE 128 [(wt, 32), (fld w 81 16, 16), (fld w 69 12, 12), (fld w 110 16, 16), (b * rr, 8), (rr - 1, 8), (0, 36)]
    let p := a.1.form {
      typ := 0x03, src := 0x2000 + gov, phys := d.lanePhys gov,
      flags := b2n (st.cond || d.laneCond gov (d.frameTag gov k0 0)) * 128 + b2n cont * 32 + b2n st.settling * 8 + b2n st.mixed * 4,
      slot := d.slotOf gov, sw := d.swOf gov, time := time } (w2 :: w3 :: List.replicate (rr * densCols w / 4) 0)
    (p.1, a.2 ++ [p.2])) (d, [])

/-- A DENSITY record with its counters. -/
def densFill (r : Rec) (cells : List Nat) : Rec := r.take 4 ++ slotWords cells

/-- What persists of a member's counters from one to another (R208). -/
def persistCells (w : Word128) (lo hi : Nat) (t : Tab Nat) : Tab Nat :=
  t.foldl (fun (t : Tab Nat) c => t.set (fun _ => 0) c.1 (if lo ≤ c.1 ∧ c.1 < hi then persist w c.2 else c.2)) []

/-- The sweep of a sliding grid goes on to a counter: it reads each one it visits and writes back what persists, and a record whose counters are all read is written (R209). -/
def Dev.sweepTo (d : Dev) (gov upto : Nat) : Dev :=
  match (d.den gov).sweep with
  | none => d
  | some x =>
    let w := wd (d.force gov) 4
    let ms := d.members gov
    let cells := ms.map d.grid
    let d := ms.foldl (fun d l => d.setGrid l (persistCells w x.pos upto (d.grid l))) d
    let per := densRowsR w * densCols w
    let all := x.read ++ (List.range (upto - x.pos)).map fun i => densCell cells (x.pos + i)
    let k := min x.recs.length (all.length / per)
    let d := (List.range k).foldl (fun d i => d.push (48 + gov) (densFill (nth x.recs i []) ((all.drop (i * per)).take per))) d
    d.setDen gov { d.den gov with
      sweep := if densSize w ≤ upto then none else some { x with pos := upto, recs := x.recs.drop k, read := if x.recs.length ≤ k then [] else all.drop (k * per) } }

/-- The sweep ends. -/
def Dev.sweepEnd (d : Dev) (gov : Nat) : Dev := d.sweepTo gov (densSize (wd (d.force gov) 4))

/-- Before the spectrum of a frame that ends at an instant is counted, the sweep has reached a counter that no rule gives, at up to 8 per step of the floor (R209, log entry 39). -/
def Dev.sweepOn (d : Dev) (gov tEnd : Nat) : Dev :=
  match (d.den gov).sweep with
  | none => d
  | some x =>
    let most := (tEnd - x.at_) * 10240000000 / 2 ^ 64
    let upto := max x.pos (min (densSize (wd (d.force gov) 4)) (min most (x.pos + Config.freeNat d.fresh)))
    (d.draw).sweepTo gov upto

/-- The epoch in progress ends with last frame `last` (R207 to R211): a banked grid freezes and is read out; the sweep of a sliding one begins. -/
def Dev.densClose (d : Dev) (gov last : Nat) (early : Bool) : Dev :=
  let d := d.sweepEnd gov
  let st := d.den gov
  match st.run with
  | none => d
  | some f0 =>
    if !st.opened then d
    else
      let w := wd (d.force gov) 4
      let ms := d.members gov
      let k0 := f0 + st.e * densEpoch w
      let t0 := d.frameTag gov k0 0
      let t1 := d.frameTag gov (last + 1) 0
      let d := (d.densStop gov).add (Reg.DENS_EPOCHS (gov / 12) (gov % 12)) 1
      let wt := st.wt + st.m
      let cells := ms.map d.grid
      match d.failedBanks gov st.hits (d.group (gov / 12)).densBad with
      | l :: _ =>
        let d := ms.foldl (fun d l => d.setGrid l []) (d.bankError gov l 0x2B k0 last st.cond)
        d.setDen gov { run := some f0, e := st.e + 1 }
      | [] =>
        let p := if bit w 126 then d.densHeads gov k0 last wt st early else (d, [])
        let d := p.1
        let next : DensSt := { run := some f0, e := st.e + 1, wt := persist w wt, frozen := some ⟨w, wt, ms.length, cells⟩, span := some (t0, t1) }
        if densSliding w then d.setDen gov { next with sweep := some ⟨t1, 0, p.2, []⟩ }
        else
          let per := densRowsR w * densCols w
          let d := (List.range p.2.length).foldl (fun d b =>
            d.push (48 + gov) (densFill (nth p.2 b []) ((List.range per).map fun s => densCell cells (b * per + s)))) d
          let d := ms.foldl (fun d l => d.setGrid l (persistCells w 0 (densSize w) (d.grid l))) d
          d.setDen gov next

/-- Frame i of a stream's frame order reaches the density updater (R206, R207). -/
def Dev.densDeliver (d : Dev) (gov i : Nat) (of : Option Frame) : Dev :=
  let ws := d.force gov
  let w := wd ws 4
  if !densEn ws then d
  else
    let st := d.den gov
    let st := match st.run, of with
      | none, some _ => { st with run := some i, e := 0 }
      | _, _ => st
    match st.run with
    | none => d
    | some f0 =>
      let d := d.sweepOn gov (d.frameTag gov i (laneN ws))
      let st := { st with sweep := (d.den gov).sweep }
      let d := match of with
        | none => d.setDen gov { st with opened := true }
        | some f =>
          let d := d.setDen gov { st with opened := true, computed := st.computed + 1, cond := st.cond || f.cond }
          if f.fill ∨ (bit w 68 ∧ (f.mixed ∨ f.settling)) then d else d.densCount f
      let full := decide (f0 + (st.e + 1) * densEpoch w ≤ i + 1)
      let ends := match of with | some f => f.gridEnd | none => false
      if ends ∨ full then d.densClose gov i (!full) else d

/-- The updater starts anew, its members' grids clear (R207): from frame 0 at a new grid, and with the next computed frame after a change of word 4. The readout of the epoch that ended goes on until the next boundary (R219). -/
def Dev.densRestart (d : Dev) (gov : Nat) (grid : Bool) : Dev :=
  let st := d.den gov
  let d := (d.members gov).foldl (fun d l => d.setGrid l []) d
  d.setDen gov { run := if grid then some 0 else none, frozen := st.frozen, span := st.span }

/-- A parity error in grid SRAM spoils the epoch in progress (R211). -/
def densParity (l : Nat) (d : Dev) : Dev :=
  let gov := d.governing l
  let p := d.claimBank l
  let d := p.1.densEvent (l / 12) 3 2
  let st := d.den gov
  let d := if st.run.isSome then d.setDen gov { st with hits := st.hits ++ [l] } else d
  let x := d.group (l / 12)
  if p.2 then d else d.setGroup (l / 12) { x with densBad := x.densBad ++ [l] }

/-! ### Frame order (R28, R105, R207) -/

/-- A frame of the gang's order reaches the three stages, computed or not. -/
def Dev.deliver (d : Dev) (gov i : Nat) (of : Option Frame) : Dev :=
  (((d.detDeliver gov i of).maskDeliver gov of).densDeliver gov i of)

/-- A frame has passed its member (R105): it was taken or lost, or it started before now on a lane that is OUT_OF_SERVICE. -/
def Dev.framePassed (d : Dev) (gov i : Nat) : Bool :=
  let x := d.lane (gov + i % (d.members gov).length)
  decide (i < x.next) || (x.oosFrom.isSome && decide (d.frameTag gov i 0 < d.now))

/-- The stages take the next frame of the order. -/
def Dev.takeNext (d : Dev) (gov : Nat) : Dev :=
  let x := d.lane gov
  let of := x.ready.find? fun f => f.idx = x.ord
  (d.setLane gov { x with ord := x.ord + 1, ready := x.ready.filter fun f => f.idx ≠ x.ord }).deliver gov x.ord of

/-- The stages take every frame whose member has passed it, in frame order, by fuel. -/
def Dev.drainFrames (d : Dev) (gov : Nat) : Nat → Dev
  | 0 => d
  | n + 1 => if d.framePassed gov (d.lane gov).ord then (d.takeNext gov).drainFrames gov n else d

/-- How many frames the stages can take: those before the last one that a lane of the gang has passed. -/
def Dev.drainFuel (d : Dev) (gov : Nat) : Nat :=
  (d.members gov).foldl (fun m l => max m (if (d.lane l).oosFrom.isSome then max (d.lane l).next (d.framesTo gov d.now false) else (d.lane l).next)) 0
    - (d.lane gov).ord + 1

/-- A frame's samples are complete: the lane computes it and passes it on (R115). -/
def frameCompute (l : Nat) (mismatch : Bool) (d : Dev) : Dev :=
  let gov := d.governing l
  let p := laneFrame l mismatch d
  let d := match p.2 with
    | some f => p.1.setLane gov { p.1.lane gov with ready := (p.1.lane gov).ready ++ [f] }
    | none => p.1
  d.drainFrames gov (d.drainFuel gov)

/-- Before a boundary the stages take the frames of the old setup that lie before it, computed or not, and runs of fill end at a restart. -/
def Dev.flushStages (d : Dev) (gov t : Nat) (restart : Bool) : Dev :=
  let n := d.framesTo gov t restart
  let d := (List.range (n - (d.lane gov).ord)).foldl (fun d _ => d.takeNext gov) d
  if restart then (d.members gov).foldl (fun d l => d.endFill l t) d else d

/-- The last frame the stages took. -/
def Dev.lastFrame (d : Dev) (gov : Nat) : Nat := (d.lane gov).ord - 1

/-- The reduction and the epoch in progress end with the last frame taken, before a switch that changes their words or the grid (R149, R207). -/
def Dev.closeStages (d : Dev) (gov : Nat) (det den : Bool) : Dev :=
  let last := d.lastFrame gov
  let d := if det then d.detClose gov last else d
  if den then (d.densClose gov last true).sweepEnd gov else d

/-- The three stages of a stream start anew with a new grid. -/
def Dev.restartStages (d : Dev) (gov : Nat) : Dev := ((d.detRestart gov true).densRestart gov true).setMask gov {}

/-- A committed lane setup takes effect (R108, R109, R149, R207). -/
def laneSwitchBoundary (l : Nat) (d : Dev) : Dev :=
  match d.dueGroup l with
  | none => d
  | some (g, k) =>
    if !d.laneDue l then d
    else if d.governing l ≠ l then (laneSwitch l d).1
    else
      let old := d.force l
      let new := (d.slot l k).words
      let restart := gridChange old new || !(d.lane l).gridOn
      let det := restart || decide (detKey old ≠ detKey new)
      let den := restart || decide (densKey old ≠ densKey new)
      let d := if (d.lane l).gridOn then d.flushStages l (d.boundaryTag l g.teff) restart else d
      let d := d.closeStages l det den
      let d := (laneSwitch l d).1
      if restart then d.restartStages l
      else
        let d := if det then d.detRestart l false else d
        if den then d.densRestart l false else d

/-- The governing lanes of a port whose grids a committed port setup restarts or ends (R108). -/
def Dev.portRestarts (d : Dev) (p : Nat) (new : List Word128) : List Nat :=
  let old := d.portForce p
  (List.range 8).filterMap fun k =>
    if (streamSlot old k = some k) ∧ (streamSlot new k ≠ some k ∨ portGridChange old new k) ∧ (d.lane (8 * p + k)).gridOn then some (8 * p + k) else none

/-- Every frame of the old grids before the boundary has been taken by the lanes whose grids a port setup restarts. -/
def Dev.portLanesReady (d : Dev) (p teff : Nat) (new : List Word128) : Bool :=
  (d.portRestarts p new).all fun gov =>
    let n := d.framesTo gov (d.switchTag p teff) true
    (d.members gov).all fun m => d.laneStands m || !d.laneWanted m || decide (n ≤ (d.lane m).next)

/-- The old grids of a port end at a boundary: frames, reductions and epochs, shadows, and the runs of lanes that go out of use (R19, R108, R109, R149). -/
def Dev.endGrids (d : Dev) (p teff : Nat) (new : List Word128) (rs : List Nat) : Dev :=
  let tsw := d.switchTag p teff
  rs.foldl (fun d s =>
    let t := d.boundaryTag s teff
    let d := ((d.flushStages s tsw true).closeStages s true true).cutShadow (s / 12) t rs
    let d := if streamSlot new (s % 8) = some (s % 8) then d else ((d.members s).foldl (fun d m => d.endRuns m tsw) d).endShed s tsw
    (d.members s).foldl (fun d l => (d.setHist l (0, [])).setGrid l []) d) d

/-- A committed port setup takes effect (R374), with the grids it restarts (R108) and the reductions and epochs that end there. What the capture writer takes, and the switch, are given. -/
def Dev.portSwitchStages (d : Dev) (p : Nat) : Dev × Option (Switch × List CapTake) :=
  match d.dueGroup (48 + p) with
  | none => (d, none)
  | some (g, k) =>
    let new := (d.slot (48 + p) k).words
    if !d.portDue p || !d.portLanesReady p g.teff new then (d, none)
    else
      let rs := d.portRestarts p new
      let bs := rs.map fun s => (s, d.boundaryTag s g.teff)
      let was := ((List.range 8).map (8 * p + ·)).filter d.laneWanted
      let r := portSwitch p d.tdRule (d.endGrids p g.teff new rs)
      match r.2 with
      | none => (r.1, none)
      | some (sw, cap) =>
        let d := r.1.portRegrid p g.num was bs sw
        let ss := (List.range 8).filterMap fun j => if streamSlot sw.new j = some j ∧ portGridChange sw.old sw.new j then some (8 * p + j) else none
        (ss.foldl (fun d s => (d.restartStages s).shedStart s (d.switchTag p g.teff)) d, some (sw, cap))

end Sys2Proof.Machine
end

