-- ==== Sys2Proof/Machine/Display.lean ====
section
/-! DEFINITION. The display: renderer, crema, frame store, timing, DisplayPort link and AUX (chapter Density and Scan-out, R220 to R235). -/
namespace Sys2Proof.Machine

/-! ### Renderer (R220 to R223) -/

/-- The stream a pane shows, if its lane has a density setup in force (R220). -/
def Dev.paneStream (d : Dev) (p : Nat) : Option Nat :=
  let l := d.f (Reg.PANE_CFG p) 0 6
  if l < 48 then
    let g := d.governing l
    if densEn (d.force g) then some g else none
  else none

/-- A pane is enabled. -/
def Dev.paneOn (d : Dev) (p : Nat) : Bool := d.on (Reg.PANE_CFG p) 31

/-- What a pane reads (R223): the density word, WT and the counters of the frozen bank, or of the live grid of a sliding source. -/
def Dev.paneGrid (d : Dev) (p : Nat) : Option (Word128 × Nat × List (Tab Nat)) :=
  match d.paneStream p with
  | none => none
  | some g =>
    let w := wd (d.force g) 4
    let st := d.den g
    if 131072 < densCols w * densRows w then some (w, st.wt + st.m, (d.members g).map d.grid)
    else match st.frozen with
      | some z => some (z.word, z.wt, z.cells)
      | none => none

/-- The LUT index of a counter (R221); LOG is exact: 1,023 less the least j with c^64 2^j ≥ Dn^64. -/
def lutIndex (log : Bool) (dn c : Nat) : Nat :=
  if c = 0 ∨ dn = 0 then 0
  else if log then
    let q := (dn ^ 64 + c ^ 64 - 1) / c ^ 64
    let j := if q ≤ 1 then 0 else log2N (q - 1) + 1
    max 1 (1023 - j)
  else clampN 1 1023 (1024 * c / dn)

/-- Dn of a pane (R221). -/
def Dev.paneDn (d : Dev) (p : Nat) (g : Word128 × Nat × List (Tab Nat)) : Nat :=
  match d.f (Reg.PANE_CFG p) 29 2 with
  | 1 => if bit g.1 101 then g.2.1 else g.2.1 * densBpc g.1
  | 2 => max 1 (d.n (Reg.PANE_NORM p))
  | _ =>
    let keys := (g.2.2.map fun t => t.map fun e => e.1).flatten
    keys.foldl (fun m k => max m (densCell g.2.2 k)) 0

/-- A pane made ready for drawing: its position, scale, columns, rows, and the colour of each of its cells. -/
structure Pane where
  x : Nat
  y : Nat
  xs : Nat
  ys : Nat
  cols : Nat
  rows : Nat
  cell : Nat → Word

/-- The colour word of a LUT entry: Y, Cb and Cr (R222). -/
def Dev.lut (d : Dev) (p k : Nat) : Word := if d.on (Reg.PANE_CFG p) 27 then d.rd (Reg.LUT1 k) else d.rd (Reg.LUT0 k)

/-- The enabled panes that have a grid, in order. -/
def Dev.panes (d : Dev) : List Pane :=
  ((List.range 4).filter fun p => d.paneOn p).filterMap fun p =>
    (d.paneGrid p).map fun g =>
      let dn := d.paneDn p g
      let log := d.on (Reg.PANE_CFG p) 28
      ⟨d.f (Reg.PANE_POS p) 0 16, d.f (Reg.PANE_POS p) 16 16, d.f (Reg.PANE_CFG p) 24 3 + 1, d.f (Reg.PANE_CFG p) 21 3 + 1,
       densCols g.1, densRows g.1, fun k => d.lut p (lutIndex log dn (densCell g.2.2 k))⟩

/-- A pane's colour at a pixel, if it covers the pixel (R220). -/
def Pane.at (p : Pane) (x y : Nat) : Option Word :=
  let c := (x - p.x) / p.xs
  let r := (y - p.y) / p.ys
  if p.x ≤ x ∧ p.y ≤ y ∧ c < p.cols ∧ r < p.rows then some (p.cell (r * p.cols + c)) else none

/-- The colour of a pixel: the topmost pane there, or BG_COLOUR (R220). -/
def pixelAt (bg : Word) (ps : List Pane) (x y : Nat) : Word := (ps.findSome? fun p => p.at x y).getD bg

/-- H_ACTIVE and V_ACTIVE in force (R229). -/
def Dev.active (d : Dev) : Nat × Nat := (fld (nth d.disp.cur 0 0) 0 16, fld (nth d.disp.cur 2 0) 0 16)

/-- The image of a render, in 4:2:0 form (R222). -/
def Dev.drawPic (d : Dev) : Pic :=
  let ps := d.panes
  let bg := d.rd Reg.BG_COLOUR
  let (w, h) := d.active
  let px := pixelAt bg ps
  let y := (List.range h).flatMap fun j => (List.range w).map fun i => fld (px i j) 16 8
  let c := (List.range (h / 2)).flatMap fun j => (List.range (w / 2)).map fun i =>
    let q := [px (2 * i) (2 * j), px (2 * i + 1) (2 * j), px (2 * i) (2 * j + 1), px (2 * i + 1) (2 * j + 1)]
    ((q.foldl (fun a v => a + fld v 8 8) 2) / 4, (q.foldl (fun a v => a + fld v 0 8) 2) / 4)
  ⟨w, h, y, c⟩

def Dev.setDisp (d : Dev) (x : DispSt) : Dev := { d with disp := x }

/-- The epochs each stream has ended (R231). -/
def Dev.epochsEnded (d : Dev) : List Nat := (List.range 48).map fun g => d.n (Reg.DENS_EPOCHS (g / 12) (g % 12))

/-- The streams that the enabled panes show. -/
def Dev.paneSources (d : Dev) : List Nat := ((List.range 4).filter fun p => d.paneOn p).filterMap fun p => d.paneStream p

/-- The stream's grid is banked: the renderer reads its frozen bank (R209, R223). -/
def Dev.banked (d : Dev) (g : Nat) : Bool := let w := wd (d.force g) 4; decide (densCols w * densRows w ≤ 131072)

/-- Every enabled pane's source has ended an epoch since the last render began (R223); a pane without a source does not hold the render back. -/
def Dev.panesFresh (d : Dev) : Bool := d.paneSources.all fun g => nth d.epochsEnded g 0 != nth d.disp.epochs g 0

/-- A render begins: it reads its sources (R223). -/
def Dev.beginRender (d : Dev) : Dev :=
  let e := d.epochsEnded
  d.setDisp { d.disp with render := some ⟨d.drawPic, (d.paneSources.filter d.banked).map fun g => (g, nth e g 0)⟩, epochs := e }

/-- A render starts when the back buffer is free (R223). -/
def renderStart (d : Dev) : Dev :=
  if d.disp.render.isSome ∨ d.disp.ready ∨ !d.panesFresh then d else d.beginRender

/-- An epoch boundary that replaces a bank the renderer still reads abandons the render, and a new one starts at once (R223). -/
def Dev.renderCheck (d : Dev) : Dev :=
  match d.disp.render with
  | none => d
  | some r =>
    let e := d.epochsEnded
    if r.srcs.any fun v => nth e v.1 0 != v.2 then ((d.addSat Reg.RENDER_LATES 1).sqEvent Reg.DISP_STATUS 12 1393).beginRender else d

/-! ### The frame store (R222, R225) -/

/-- The bytes of a buffer (R225). -/
def bufSize (w h : Nat) : Nat := w * h * 3 / 2

/-- The address of a buffer in HBM: FB_BASE, or FB_BASE plus the size rounded up to 64 KB (R225). -/
def Dev.fbHbm (d : Dev) (k : Nat) : Nat :=
  let (w, h) := d.active
  let base := ((nth d.disp.cur 8 0).toNat * 2 ^ 32 + (nth d.disp.cur 7 0).toNat) / 65536 * 65536
  base + k * ((bufSize w h + 65535) / 65536 * 65536)

/-- The offset of a buffer in the on-chip store: one in each half (log entry 107). -/
def fbChip (k : Nat) : Nat := k * 6144000

/-- The bytes of an image: Y row by row, then Cb and Cr of each 2 × 2 block row by row (R222; log entry 107). -/
def Pic.bytes (p : Pic) : List Byte := p.y.map (BitVec.ofNat 8) ++ p.c.flatMap fun c => [BitVec.ofNat 8 c.1, BitVec.ofNat 8 c.2]

/-- Bytes written to the on-chip store. -/
def storePut (t : Tab Byte) (a : Nat) : List Byte → Tab Byte
  | [] => t
  | b :: l => storePut (t.insert a b) (a + 1) l

/-- A render completes (R223): its image lies in the back buffer, on chip or in HBM, where the renderer writes at class 1 (R225, R440). -/
def renderDone (s : Sys) : Sys :=
  let d := s.dev
  match d.disp.render with
  | none => s
  | some r =>
    let k := 1 - d.disp.front
    let s := if d.on Reg.DISP_STATUS 2 then (memWrite 0x1A1 21 (d.fbHbm k) r.pic.bytes s).1
      else s.on fun d => d.setDisp { d.disp with store := storePut d.disp.store (fbChip k) r.pic.bytes }
    s.on fun d => (d.setDisp { d.disp with render := none, ready := true }).addSat Reg.RENDERS 1

/-- The Y, Cb and Cr of a line from the bytes of its row of Y and its row of Cb and Cr, as far as both reach. -/
def linePixels (w : Nat) (y c : List Byte) : List (Option (Nat × Nat × Nat)) :=
  (List.range w).map fun x =>
    if x < y.length ∧ x / 2 * 2 + 1 < c.length then some ((nth y x 0).toNat, (nth c (x / 2 * 2) 0).toNat, (nth c (x / 2 * 2 + 1) 0).toNat) else none

/-- The bytes a fetch brings: all, those before an uncorrectable unit, or none. -/
def fetched (m : Mem) (a : Nat) : MemRes → List Byte
  | .ok l => l
  | .denied => []
  | .ue u => m.bytes a (32 * u - a)

/-- A line of the front buffer is fetched from HBM at class 1 (R226, R440); pixels whose bytes do not come are missing (log entry 108). -/
def fetchLine (y : Nat) (s : Sys) : Sys :=
  let (w, h) := s.dev.active
  if h ≤ y then s
  else
    let base := s.dev.fbHbm s.dev.disp.front
    let ya := base + y * w
    let ca := base + w * h + y / 2 * w
    let p := memRead 0x1A0 21 ya w s.mem s.dev
    let q := memRead 0x1A0 21 ca w s.mem p.1
    { s with dev := q.1.setDisp { q.1.disp with held := q.1.disp.held ++ [linePixels w (fetched s.mem ya p.2) (fetched s.mem ca q.2)] } }

/-- A pixel of the front buffer in the on-chip store; bytes that nothing has written are free values (R234). -/
def Dev.chipPixel (d : Dev) (x y : Nat) : Nat × Nat × Nat :=
  let (w, h) := d.active
  let b := fun (o : Nat) => match d.disp.store.find? (fbChip d.disp.front + o) with
    | some v => v.toNat
    | none => Config.freeNat (d.fresh + o) % 256
  let c := w * h + y / 2 * w + x / 2 * 2
  (b (y * w + x), b c, b (c + 1))

/-! ### Timing and link (R225, R227 to R230) -/

/-- Lane count of a DISP_CTRL word (R233). -/
def dispLanes (c : Word) : Nat := nth [1, 2, 4, 4] (fld c 25 2) 4

/-- The link rates in kbit/s per lane: RBR, HBR, HBR2, HBR3 (R227). -/
def linkRates : List Nat := [1620000, 2700000, 5400000, 8100000]

/-- A link rate carries a pixel rate (R228). -/
def rateFits (c : Word) (pclk r : Nat) : Bool :=
  decide (24 * pclk * 101 * 10000 ≤ dispLanes c * r * 8 * (if bit c 27 then 995 else 1000) * 100)

/-- The lowest of the four rates, from 1, that carries a pixel rate (R228). -/
def autoRate (c : Word) (pclk : Nat) : Option Nat := ([1, 2, 3, 4] : List Nat).find? fun k => rateFits c pclk (nth linkRates (k - 1) 0)

/-- The rate a DISP_CTRL word asks for: 1 to 4 (R228, R233). -/
def linkRate (c : Word) (pclk : Nat) : Nat :=
  let k := fld c 22 3
  if 1 ≤ k ∧ k ≤ 4 then k else (autoRate c pclk).getD 4

/-- The timing words as staged. -/
def Dev.stagedTiming (d : Dev) : List Word :=
  [d.rd Reg.DISP_H, d.rd Reg.DISP_HS, d.rd Reg.DISP_V, d.rd Reg.DISP_VS, d.rd Reg.VTOTAL_MAX, d.rd Reg.PCLK_KHZ,
   d.rd Reg.DISP_CTRL, d.rd Reg.FB_BASE_LO, d.rd Reg.FB_BASE_HI]

/-- A staged timing that APPLY_TIMING refuses (R229). -/
def timingBad (t : List Word) : Bool :=
  let w := fun k => nth t k 0
  let ha := fld (w 0) 0 16
  let ht := fld (w 0) 16 16
  let va := fld (w 2) 0 16
  let vt := fld (w 2) 16 16
  let pclk := (w 5).toNat
  ha % 2 == 1 || decide (ha < 64) || decide (3840 < ha) || va % 2 == 1 || decide (va < 64) || decide (2160 < va)
    || decide (ht ≤ ha + fld (w 1) 16 16 + fld (w 1) 0 16) || decide (vt ≤ va + fld (w 3) 16 16 + fld (w 3) 0 16)
    || decide (fld (w 4) 0 16 < vt) || decide (pclk < 25000) || decide (600000 < pclk) || (autoRate (w 6) pclk).isNone

/-- DISP_CMD APPLY_TIMING (R229). -/
def applyTiming (d : Dev) : Dev :=
  let t := d.stagedTiming
  if timingBad t then (d.setB Reg.DISP_STATUS 9).event Reg.DISP_STATUS 1396
  else (d.setDisp { d.disp with staged := some t }).setB Reg.DISP_STATUS 5

/-- LINK_UP changes to 0 (R235). -/
def Dev.linkDrop (d : Dev) : Dev :=
  if d.on Reg.DISP_STATUS 1 then (d.clrB Reg.DISP_STATUS 1).event Reg.DISP_STATUS 1394 else d

/-- Training starts toward a rate and lane count. -/
def Dev.startTraining (d : Dev) (goal : Nat × Nat) : Dev :=
  (d.linkDrop.setB Reg.DISP_STATUS 4).setDisp { d.linkDrop.disp with goal := goal, link := none, failed := false, shown := false }

/-- DISP_CMD RETRAIN (R227, R233). -/
def dispRetrain (d : Dev) : Dev :=
  let c := nth d.disp.cur 6 0
  d.startTraining (linkRate c (nth d.disp.cur 5 0).toNat, dispLanes c)

/-- DISP_CMD CREMA_FLIP (R224). -/
def cremaFlip (d : Dev) : Dev := d.setDisp { d.disp with flip := true }

/-- DISP_CMD CLEAR_COUNTS (R232). -/
def dispClearCounts (d : Dev) : Dev :=
  [Reg.FRAMES_SHOWN, Reg.FRAMES_NOT_SHOWN, Reg.REPEATS, Reg.UNDERFLOW_LINES, Reg.RENDERS, Reg.RENDER_LATES].foldl (fun d k => d.wr k 0) d

/-- The start of vertical blanking (R224, R225, R229). A link whose training has failed stays down until RETRAIN or hot-plug (R233). -/
def vblankStart (d : Dev) : Dev :=
  let d := if d.disp.flip then (d.putB Reg.CREMA_CTRL 16 (!d.on Reg.CREMA_CTRL 16)).setDisp { d.disp with flip := false } else d
  match d.disp.staged with
  | none => d
  | some t =>
    let c := nth t 6 0
    let goal := (linkRate c (nth t 5 0).toNat, dispLanes c)
    let d := d.setDisp { d.disp with cur := t, staged := none }
    let d := (d.clrB Reg.DISP_STATUS 5).putB Reg.DISP_STATUS 3 (bit c 30)
    let (w, h) := d.active
    let d := d.putB Reg.DISP_STATUS 2 (decide (12288000 < w * h * 3))
    let d := d.event Reg.DISP_STATUS 1396
    if d.disp.failed ∨ d.disp.link = some goal ∨ (d.on Reg.DISP_STATUS 4 = true ∧ d.disp.goal = goal) then d else d.startTraining goal

/-- Scan-out sends frames: EN is set and the link is up. -/
def Dev.scanning (d : Dev) : Bool := d.on Reg.DISP_CTRL 31 && d.on Reg.DISP_STATUS 1

/-- A frame starts (R229, R230): buffers swap if content is ready; with ADAPTIVE, a frame without new content is one that reached VTOTAL_MAX and repeats. From HBM, its first 32 lines are fetched (R226). -/
def displayFrameStart (s : Sys) : Sys :=
  let d := s.dev
  if !d.on Reg.DISP_CTRL 31 then s
  else if d.on Reg.DISP_STATUS 4 then
    if d.disp.shown then s else s.on fun d => d.addSat Reg.FRAMES_NOT_SHOWN 1
  else if !d.on Reg.DISP_STATUS 1 then s
  else
    let d := if d.disp.ready then d.setDisp { d.disp with front := 1 - d.disp.front, ready := false }
      else if d.on Reg.DISP_STATUS 3 then d.addSat Reg.REPEATS 1
      else d
    let s := { s with dev := (d.setDisp { d.disp with line := 0, shown := true, held := [] }).addSat Reg.FRAMES_SHOWN 1 }
    if d.on Reg.DISP_STATUS 2 then (List.range 32).foldl (fun s y => fetchLine y s) s else s

/-- Link training ends (R227, R233). -/
def linkTrainingEnd (ok : Bool) (d : Dev) : Dev :=
  if !d.on Reg.DISP_STATUS 4 then d
  else
    let d := d.clrB Reg.DISP_STATUS 4
    if ok then ((d.setB Reg.DISP_STATUS 1).setDisp { d.disp with link := some d.disp.goal }).event Reg.DISP_STATUS 1394
    else (d.sqEvent Reg.DISP_STATUS 11 1394).setDisp { (d.sqEvent Reg.DISP_STATUS 11 1394).disp with failed := true }

/-- The hot-plug level changes (R233): a plug after a failed training trains again. -/
def hpdChange (level : Bool) (d : Dev) : Dev :=
  if d.on Reg.DISP_STATUS 0 = level then d
  else
    let d := ((d.putB Reg.DISP_STATUS 0 level).setB Reg.DISP_STATUS 10).event Reg.DISP_STATUS 1395
    if level ∧ d.disp.failed then dispRetrain d else d

/-! ### Colour conversion (R222, R224, R227) -/

/-- A rational rounded half up and clamped. -/
def quant (num : Int) (den : Nat) (lo hi : Int) : Nat := (clampI lo hi ((2 * num + den) / (2 * (den : Int)))).toNat

/-- BT.709 from Y, Cb, Cr to R, G, B over the denominator 71,520,000 (full range). -/
def toRgb (y cb cr : Int) : Int × Int × Int :=
  let u := cb - 128
  let v := cr - 128
  (71520000 * y + 112629696 * v, 71520000 * y - 13397432 * u - 33480248 * v, 71520000 * y + 132712512 * u)

/-- BT.709 from R, G, B to Y, Cb − 128, Cr − 128, each over its own denominator: 10^4, 18,556 and 15,748. -/
def fromRgb (r g b : Int) : Int × Int × Int :=
  let y := 2126 * r + 7152 * g + 722 * b
  (y, 10000 * b - y, 10000 * r - y)

/-- An image pixel as sent: RGB or YCbCr, full or limited range (R227). -/
def outPixel (ctrl : Word) (y cb cr : Nat) : Nat :=
  let lim := bit ctrl 28
  let pack := fun (a b c : Nat) => a * 65536 + b * 256 + c
  if bit ctrl 29 then
    if lim then
      pack (quant (255 * 16 + 219 * y) 255 16 235) (quant (255 * 128 + 224 * ((cb : Int) - 128)) 255 16 240) (quant (255 * 128 + 224 * ((cr : Int) - 128)) 255 16 240)
    else pack y cb cr
  else
    let (r, g, b) := toRgb y cb cr
    let q := fun (v : Int) => if lim then quant (16 * 255 * 71520000 + 219 * v) (255 * 71520000) 16 235 else quant v 71520000 0 255
    pack (q r) (q g) (q b)

/-- An overlay pixel as sent: its colour is RGB. -/
def outRgb (ctrl : Word) (c : Word) : Nat :=
  let lim := bit ctrl 28
  let pack := fun (a b c : Nat) => a * 65536 + b * 256 + c
  let r := fld c 16 8
  let g := fld c 8 8
  let b := fld c 0 8
  if bit ctrl 29 then
    let (y, u, v) := fromRgb r g b
    if lim then
      pack (quant (16 * 2550000 + 219 * y) 2550000 16 235) (quant (128 * 255 * 18556 + 224 * u) (255 * 18556) 16 240) (quant (128 * 255 * 15748 + 224 * v) (255 * 15748) 16 240)
    else pack (quant y 10000 0 255) (quant (128 * 18556 + u) 18556 0 255) (quant (128 * 15748 + v) 15748 0 255)
  else
    let q := fun (v : Nat) => if lim then quant (16 * 255 + 219 * v) 255 16 235 else v
    pack (q r) (q g) (q b)

/-! ### Crema (R224) -/

/-- Two bytes of the live crema bank. -/
def Dev.cremaHalf (d : Dev) (off : Nat) : Nat :=
  let w := d.rd (Reg.CREMA_MEM (b2n (d.on Reg.CREMA_CTRL 16)) (off / 4))
  fld w (off % 4 * 8) 16

/-- The line of a trace's entry at a column, if it is valid. -/
def Dev.traceAt (d : Dev) (t x : Nat) : Option Nat :=
  let e := d.cremaHalf (7680 * t + 2 * x)
  if e / 2 ^ 15 % 2 = 1 then some (e % 4096) else none

/-- A trace covers a pixel. -/
def Dev.traceHits (d : Dev) (t x y : Nat) : Bool :=
  match d.traceAt t x with
  | none => false
  | some a =>
    let b := if x = 0 then a else (d.traceAt t (x - 1)).getD a
    decide (min a b ≤ y) && decide (y ≤ max a b)

/-- A marker covers a pixel: its filled box, or its outline. -/
def Dev.markHits (d : Dev) (k x y : Nat) : Bool :=
  let bank := b2n (d.on Reg.CREMA_CTRL 16)
  let w := (d.rd (Reg.CREMA_MEM bank (15360 + 2 * k + 1))).toNat * 2 ^ 32 + (d.rd (Reg.CREMA_MEM bank (15360 + 2 * k))).toNat
  let x0 := w / 2 ^ 52
  let y0 := w / 2 ^ 40 % 4096
  let x1 := w / 2 ^ 28 % 4096
  let y1 := w / 2 ^ 16 % 4096
  let inside := decide (x0 ≤ x) && decide (x ≤ x1) && decide (y0 ≤ y) && decide (y ≤ y1)
  let edge := x == x0 || x == x1 || y == y0 || y == y1
  w / 2 ^ 15 % 2 == 1 && inside && (w / 2 ^ 14 % 2 == 1 || edge)

/-- The colour of a marker (R224). -/
def Dev.markColour (d : Dev) (k : Nat) : Word :=
  let w := d.rd (Reg.CREMA_MEM (b2n (d.on Reg.CREMA_CTRL 16)) (15360 + 2 * k))
  d.rd (Reg.CREMA_COL (8 + fld w 8 3))

/-- The overlay colour at a pixel: markers over traces, lower indices on top. -/
def Dev.overlay (d : Dev) (x y : Nat) : Option Word :=
  match (List.range 64).find? fun k => d.markHits k x y with
  | some k => some (d.markColour k)
  | none => ((List.range 8).find? fun t => d.on Reg.CREMA_CTRL t && d.traceHits t x y).map fun t => d.rd (Reg.CREMA_COL t)

/-! ### Lines (R226) -/

/-- A line is sent (R226): of a fetch from HBM, it is BG_COLOUR from the first pixel that is missing, since it came late or did not come, to its end. The buffer is filled again to 32 lines. -/
def displayLineStart (missingFrom : Nat) (s : Sys) : Sys :=
  let d := s.dev
  let (w, h) := d.active
  let y := d.disp.line
  if !d.scanning ∨ !d.disp.shown ∨ h ≤ y then s
  else
    let hbm := d.on Reg.DISP_STATUS 2
    let line := nth d.disp.held 0 []
    let missing := if hbm then min missingFrom (line.takeWhile Option.isSome).length else w
    let ctrl := nth d.disp.cur 6 0
    let bg := d.rd Reg.BG_COLOUR
    let px := fun x =>
      match d.overlay x y with
      | some c => outRgb ctrl c
      | none =>
        if missing ≤ x then outPixel ctrl (fld bg 16 8) (fld bg 8 8) (fld bg 0 8)
        else
          let v := if hbm then (nth line x none).getD (0, 0, 0) else d.chipPixel x y
          outPixel ctrl v.1 v.2.1 v.2.2
    let d' := d.setDisp { d.disp with line := y + 1, sent := (List.range w).map px, held := d.disp.held.drop 1 }
    let d' := { d' with fresh := d'.fresh + (if hbm then 0 else bufSize w h) }
    let d' := if missing < w then (d'.addSat Reg.UNDERFLOW_LINES 1).sqEvent Reg.DISP_STATUS 13 1392 else d'
    if hbm then fetchLine (y + 32) { s with dev := d' } else { s with dev := d' }

/-! ### AUX channel (R227, R232) -/

/-- A write to AUX_CMD starts a transaction. -/
def auxTransaction (v : Word) (d : Dev) : Dev := (d.wr Reg.AUX_TR v).setDisp { d.disp with aux := some v }

/-- The transaction ends with a reply; an acknowledged read fills AUX_DATA. -/
def auxReply (reply : Nat) (bytes : List Byte) (d : Dev) : Dev :=
  match d.disp.aux with
  | none => d
  | some v =>
    let d := (d.wrF Reg.AUX_TR 0 4 reply).setDisp { d.disp with aux := none }
    if reply = 0 ∧ (fld v 28 4 = 0x9 ∨ fld v 28 4 = 0x1) then
      (List.range (min bytes.length (d.f Reg.AUX_LEN 0 4 + 1))).foldl (fun d k =>
        d.wrF (Reg.AUX_DATA (k / 4)) (k % 4 * 8) 8 (nth bytes k 0).toNat) d
    else d

end Sys2Proof.Machine
end

