-- ==== Sys2Proof/Machine/Dma.lean ====
section
/-! DEFINITION. DMA channels: rings, completions and leases (chapter DMA Channels). The moving of bytes is in DmaMove. -/
namespace Sys2Proof.Machine

def Dev.dmaCh (d : Dev) (c : Nat) : DmaCh := d.dma.get (fun _ => {}) c
def Dev.setDma (d : Dev) (c : Nat) (x : DmaCh) : Dev := { d with dma := d.dma.set (fun _ => {}) c x }
def Dev.setRun (d : Dev) (c : Nat) (r : DmaRun) : Dev := d.setDma c { d.dmaCh c with run := some r }

/-- The initiator of a channel (R537). -/
def dmaIni (c : Nat) : Ini := BitVec.ofNat 10 (0x140 + c)

/-- The domains with a power-down pending (R570). -/
def Dev.pdPending (d : Dev) (dom : Nat) : Bool := (d.pw.pdAt.get (fun _ => none) dom).isSome

/-- A DMA lease is held on a domain (R494). -/
def Dev.leased (d : Dev) (dom : Nat) : Bool :=
  d.dma.any fun e => match e.2.run with | some r => r.doms.contains dom | none => false

/-! ### Completion rings (R489, R490) -/

/-- The length of a completion ring. -/
def Dev.cplLen (d : Dev) (c : Nat) : Nat := 2 ^ d.f (Reg.DCH_CFG c) 8 4

/-- The completion ring holds all the unread entries it can. -/
def Dev.cplFull (d : Dev) (c : Nat) : Bool :=
  let n := d.cplLen c
  decide ((d.n (Reg.DCPL_HEAD c) + n - d.n (Reg.DCPL_TAIL c) % n) % n = n - 1)

/-- DCH_STAT shows a channel's state and leases (R499). -/
def Dev.showDma (d : Dev) (c : Nat) : Dev :=
  let x := d.dmaCh c
  let st := if !d.on (Reg.DCH_CFG c) 31 ∧ x.run.isNone then 0
    else if !x.waiting.isEmpty ∨ d.cplFull c then 3
    else if x.run.isSome ∨ d.n (Reg.DHEAD c) ≠ d.n (Reg.DTAIL c) then 2 else 1
  let wait := match x.run with | some r => r.doms.any fun m => d.pdPending m | none => false
  (d.wrF (Reg.DCH_STAT c) 29 3 st).putB (Reg.DCH_STAT c) 28 wait

/-- Waiting completion entries are written while the ring has room, by fuel; a ring the windows deny holds them back (log entry 73). -/
def cplFlush (c : Nat) : Nat → Sys → Sys
  | 0, s => s
  | k + 1, s =>
    let d := s.dev
    match (d.dmaCh c).waiting with
    | [] => s
    | e :: l =>
      if d.cplFull c then s.on fun d => d.sqEvent Reg.DMA_STATUS 6 1267
      else
        let a := d.n64 (Reg.DCPL_BASE_LO c) (Reg.DCPL_BASE_HI c) + 64 * d.n (Reg.DCPL_HEAD c)
        match memWrite (dmaIni c) 18 a ((e.take 4).flatMap memWord) s with
        | (s, .denied) => s
        | (s, _) =>
          let s := s.on fun d =>
            let d := d.setDma c { d.dmaCh c with waiting := l }
            let d := d.wrN (Reg.DCPL_HEAD c) ((d.n (Reg.DCPL_HEAD c) + 1) % d.cplLen c)
            if e.length = 5 then d.raise (1200 + c) else d
          cplFlush c k s

/-- Completions that wait are written as far as there is room, and the state is shown. -/
def cplWrite (c : Nat) (s : Sys) : Sys :=
  let s := cplFlush c ((s.dev.dmaCh c).waiting.length + 1) s
  s.on fun d =>
    let d := if d.cplFull c ∧ d.on (Reg.DCH_CFG c) 31 then d.sqEvent Reg.DMA_STATUS 6 1267 else d
    d.showDma c

/-- A completion entry (R490); a fifth word marks one whose descriptor raises an event. -/
def Dev.cplEntry (d : Dev) (_c : Nat) (r : DmaRun) (status : Nat) (stored : Bool) : List Word128 :=
  let elems := (r.dst.foldl (fun (a : Nat × Nat) e => (a.1 - e.2, if e.2 ≤ a.1 ∧ a.2 < 2 ^ 20 then a.2 + 1 else a.2 + 2 ^ 20)) (r.moved, 0)).2 % 2 ^ 20
  let en := match r.desc with | [_, w] => bit w 79 | _ => false
  let evt := match r.desc with | [_, w] => bit w 76 | _ => false
  let tag := match r.desc with | w :: _ => fld w 0 64 | [] => 0
  [packBE 128 [(status, 8), (b2n r.late, 1), (b2n r.misalign, 1), (b2n stored, 1), (0, 5), (r.idx, 16), (elems, 32), (tag, 64)],
    packBE 128 [(r.moved, 64), (if en then r.crc else 0, 32), (0, 32)], d.timeWord 5 false d.now, 0] ++ (if evt then [1] else [])

/-- FORCED completions whose place has come join the others. -/
def Dev.forcedDue (d : Dev) (c : Nat) : Dev :=
  let x := d.dmaCh c
  let due := (x.forced.filter fun e => e.1 = 0).map (·.2)
  d.setDma c { x with waiting := x.waiting ++ due, forced := x.forced.filter fun e => e.1 ≠ 0 }

/-- A descriptor has ended with a status (R489 to R491): its completion, the counts and events of the block, and the next place of the ring. -/
def dmaFinish (c status : Nat) (stored : Bool) (s : Sys) : Sys :=
  match (s.dev.dmaCh c).run with
  | none => s
  | some r =>
    let s := s.on fun d =>
      let x := d.dmaCh c
      let d := d.setDma c { x with
        run := none, detached := false, waiting := x.waiting ++ [d.cplEntry c r status stored]
        forced := x.forced.map fun e => (e.1 - 1, e.2) }
      let d := d.forcedDue c
      let d := if x.detached then d else d.wrN (Reg.DTAIL c) ((d.n (Reg.DTAIL c) + 1) % max 1 (d.n (Reg.DRLEN c)))
      let st := Reg.DCH_STAT c
      let d := (d.wrF st 16 8 status).wrF st 0 16 (d.f st 0 16 + 1)
      let d := if 0x10 ≤ status then d.sqEvent Reg.DMA_STATUS 4 1264 else d
      if status = 3 then d.sqEvent Reg.DMA_STATUS 5 1265 else d
    cplWrite c s

/-! ### Commands of the rings (R493, R496 to R499) -/

/-- A write to DHEAD (R496): each descriptor it posts takes the device time. -/
def dmaDoorbell (i : Ini) (c : Nat) (v : Word) (d : Dev) : Dev :=
  let h := v.toNat % 65536
  let n := d.n (Reg.DRLEN c)
  if n ≤ h then d.lateWrite i (Reg.DHEAD c) 4
  else
    let old := d.n (Reg.DHEAD c)
    let k := (h + n - old % max 1 n) % max 1 n
    let x := d.dmaCh c
    let posts := (List.range k).foldl (fun (t : Tab Nat) j => t.insert ((old + j) % max 1 n) (shortTime d.now)) x.posts
    ((d.setDma c { x with posts := posts }).wrN (Reg.DHEAD c) h).showDma c

/-- ANY_PENDING (R499). -/
def Dev.anyPending (d : Dev) : Dev := d.putB Reg.DMA_STATUS 0 ((List.range 64).any fun c => d.on (Reg.DRLEN_PEND c) 31)

/-- A write to DRLEN stays pending (R497); a length outside 2 to 65,536 is ignored (log entry 73). -/
def drlenWrite (c : Nat) (v : Word) (d : Dev) : Dev :=
  let l := fld v 0 17
  if l < 2 ∨ 65536 < l then d else (d.wr (Reg.DRLEN_PEND c) (packBE 32 [(1, 1), (0, 14), (l, 17)])).anyPending

/-- A pending length takes effect once no live descriptor lies at or beyond it (R497). -/
def drlenTake (c : Nat) (d : Dev) : Dev :=
  let l := d.f (Reg.DRLEN_PEND c) 0 17
  let h := d.n (Reg.DHEAD c)
  let t := d.n (Reg.DTAIL c)
  if d.on (Reg.DRLEN_PEND c) 31 ∧ h < l ∧ t < l ∧ t ≤ h then
    (((d.wrN (Reg.DRLEN c) l).wrN (Reg.DRLEN_PEND c) 0).event Reg.DMA_STATUS 1266).anyPending
  else d

/-- A length forced (R498). -/
def Dev.dmaForce (d : Dev) (c l : Nat) : Dev :=
  let x := d.dmaCh c
  let n := max 1 (d.n (Reg.DRLEN c))
  let h := d.n (Reg.DHEAD c)
  let t := d.n (Reg.DTAIL c)
  let first := if x.run.isSome ∧ !x.detached then (t + 1) % n else t
  let live := (List.range ((h + n - first % n) % n)).map fun k => (first + k) % n
  let gone := live.filter fun k => decide (l ≤ k)
  let d := (d.wrN (Reg.DRLEN c) l).wrN (Reg.DRLEN_PEND c) 0
  let d := d.wrN (Reg.DHEAD c) (if l ≤ h then 0 else h)
  let d := if l ≤ t then (d.wrN (Reg.DTAIL c) 0).setDma c { d.dmaCh c with detached := x.run.isSome } else d
  match gone with
  | [] => d.anyPending
  | k :: _ =>
    let before := (live.takeWhile fun j => decide (j < l)).length + b2n x.run.isSome
    let e := [packBE 128 [(5, 8), (0, 8), (k, 16), (gone.length, 32), (0, 64)], 0, d.timeWord 5 false d.now,
      packBE 128 [(x.posts.get (fun _ => 0) k, 64), (shortTime d.now, 64)]]
    let y := d.dmaCh c
    (((d.setDma c { y with forced := y.forced ++ [(before, e)] }).forcedDue c).sqEvent Reg.DMA_STATUS 7 1266).anyPending

/-- A valid FIRE of DRLEN_FORCE: a length outside 2 to 65,536 is refused (log entry 73). -/
def drlenForce (v : Word) (d : Dev) : Guarded :=
  let l := fld v 0 17
  if l < 2 ∨ 65536 < l then .refused else .take (d.dmaForce (fld v 26 6) l)

/-- A write to DCPL_TAIL frees entries (R490). -/
def dcplTail (c : Nat) (v : Word) (s : Sys) : Sys := cplWrite c (s.on fun d => d.wrN (Reg.DCPL_TAIL c) (v.toNat % d.cplLen c))

/-- A write to DCH_CFG (R21, R499): a CLASS of 0 leaves the field and is a late write; a change of CPL_LOG2 while EN is 1 is a late write that changes nothing. -/
def dchCfg (i : Ini) (c : Nat) (v : Word) (d : Dev) : Dev :=
  let k := Reg.DCH_CFG c
  let w := BitVec.ofNat 32 (normDchCfg 0 0 v.toNat)
  if d.on k 31 ∧ fld w 8 4 ≠ d.f k 8 4 then d.lateWrite i k 4
  else if fld w 28 2 = 0 then ((d.wr k (put w 28 2 (d.f k 28 2))).lateWrite i k 4).showDma c
  else (d.wr k w).showDma c

/-- ABORT (R493): EN clears, and the running descriptor is to end; with nothing running it has no effect. -/
def dmaAbort (c : Nat) (d : Dev) : Dev :=
  match (d.dmaCh c).run with
  | none => d
  | some r => ((d.clrB (Reg.DCH_CFG c) 31).setRun c { r with abort := true }).showDma c

/-- CLEAR_COUNTS. -/
def dmaClear (d : Dev) : Dev := d.wrN Reg.MISALIGNED 0

/-- A lease still held LEASE_US after a power-down request: the transfer stops at its next element boundary (R495). -/
def leaseExpire (c : Nat) (d : Dev) : Dev :=
  match (d.dmaCh c).run with
  | none => d
  | some r =>
    let due := r.doms.any fun m => match d.pw.pdAt.get (fun _ => none) m with
      | some t => elapsedNs t d.up (1000 * d.f Reg.DMA_CTRL 0 14)
      | none => false
    if due then d.setRun c { r with stop := true } else d

end Sys2Proof.Machine
end

