-- ==== Sys2Proof/Machine/Floor.lean ====
section
/-! DEFINITION. The floor: step measurement, the margin planner, ageing, shedding, the peat log and the seep (chapter The Floor, Ageing and the Seep). -/
namespace Sys2Proof.Machine

def Dev.onFl (d : Dev) (f : FloorSt → FloorSt) : Dev := { d with fl := f d.fl }

/-! ### Peat log (R424 to R428) -/

/-- The bytes of an entry: its words in order, each bit 127 first. -/
def logBytes (e : List Word128) : List Byte := e.flatMap wordBytes

/-- The latest valid entry, or 64 zero bytes. -/
def Dev.logLast (d : Dev) : List Byte :=
  match (d.fl.log.filter fun e => !e.2.isEmpty).getLast? with
  | some e => logBytes e.2
  | none => List.replicate 64 0

/-- LOG_HEAD shows the head of the log. -/
def Dev.showLog (d : Dev) : Dev :=
  (List.range 8).foldl (fun d k => d.wrN (Reg.LOG_HEAD k) (nth (digestWords (shake256 32 d.logLast)) k 0)) d

/-- LOG_WARN arose (R428, R431). -/
def Dev.logWarn (d : Dev) : Dev := d.sqEvent Reg.FL_STATUS 12 1504

/-- An entry is written to a slot (R425) and counted in its segment (R427). -/
def Dev.logWrite (d : Dev) (slot kind : Nat) (payload time : Word128) : Dev :=
  let link := natBE ((shake256 32 d.logLast).take 16)
  let w0 : Word128 := packBE 128 [(kind, 8), (0, 24), (slot, 32), (d.n Reg.BOOT_COUNT, 32), (0, 32)]
  let e := [w0, time, payload, BitVec.ofNat 128 link]
  let e := listSet e 0 (put w0 0 32 (crc32 (logBytes e)))
  let d := d.onFl fun x => { x with
    log := x.log.insert slot e
    counters := x.counters.set (fun _ => 0) (slot / 1024) (x.counters.get (fun _ => 0) (slot / 1024) + 1) }
  (d.wrN Reg.LOG_ENTRIES (slot + 1)).showLog

/-- The oldest waiting entry is written and read back (R427). One whose read-back fails leaves its slot PARTIAL and waits for the next slot (log entry 71). Nothing is appended before the boot scan has ended. Slot 65,535 takes LOG_FULL (R428). -/
def logAppendDone (readbackOk : Bool) (d : Dev) : Dev :=
  match d.logBuf with
  | [] => d
  | e :: l =>
    let slot := d.n Reg.LOG_ENTRIES
    if !d.fl.scanned then d
    else if d.on Reg.FL_STATUS 4 then ({ d with logBuf := l }).addSat Reg.LOG_OVERFLOW 1
    else if !readbackOk then
      let d := d.onFl fun x => { x with log := x.log.insert slot [] }
      let d := ((d.wrN Reg.LOG_ENTRIES (slot + 1)).add Reg.LOG_PARTIAL 1).logWarn
      if slot = 65535 then (({ d with logBuf := l }).addSat Reg.LOG_OVERFLOW 1).setB Reg.FL_STATUS 4 else d
    else
      let d := { d with logBuf := l }
      let d := if slot = 65535 then (((d.addSat Reg.LOG_OVERFLOW 1).logWrite slot 0x09 0 e.time).setB Reg.FL_STATUS 4).logWarn
        else d.logWrite slot e.kind e.payload e.time
      if slot + 1 = 58982 then d.logWarn else d

/-- The CAL_SUMMARY entry of every 24 h (R426): what the calibration registers show. -/
def calSummary (d : Dev) : Dev :=
  if !elapsedNs d.fl.sumAt d.up 86400000000000 then d
  else
    let sum := fun (n : Nat) (f : Nat → Nat) => ((List.range n).map f).foldl (· + ·) 0
    let best := fun (l : List Nat) => l.foldl max 0
    let runs := sum 16 fun n => d.f (Reg.EI_CAL_COUNT n) 0 16 + d.f (Reg.EI_CAL_COUNT n) 16 16
    let quals := (List.range 32).filterMap fun k =>
      if d.f (Reg.EI_CAL_COUNT (k / 2)) (16 * (k % 2)) 16 = 0 then none else some (d.f (Reg.CAL_QUAL (k / 2)) (16 * (k % 2)) 16)
    let eyes := (List.range 6).filterMap fun p => if d.n (Reg.EQ_CAL_COUNT p) = 0 then none else some (d.f (Reg.EQ_QUALITY p) 16 10)
    let thr := (List.range 16).filterMap fun n => if d.f (Reg.THR_CAL n) 16 16 = 0 then none else some (d.f (Reg.THR_CAL n) 0 16)
    let eye := match eyes with | [] => 0 | a :: l => l.foldl min a
    (d.onFl fun x => { x with sumAt := d.up }).logEntry 0x06
      (packBE 128 [(runs, 32), (best quals, 16), (eye, 16), (d.f Reg.AUX_CAL_RESULT 0 16, 16), (best thr, 16), (sum 6 fun p => d.n (Reg.EQ_CAL_COUNT p), 32)])

/-! ### State, causes and GUAR_LAPSED (R409, R418, R421) -/

/-- A group is without a spare. -/
def Dev.noSpare (d : Dev) : Bool := (List.range 4).any fun g => d.spareOf g == 15

def Dev.shedLevel (d : Dev) : Nat := d.f Reg.SHED 0 5

/-- What GUAR_LAPSED reads (R421). -/
def Dev.guarLapsed (d : Dev) : Nat :=
  let dr := d.derated
  b2n dr * 3 + b2n (1 ≤ d.shedLevel || !d.on Reg.SEEP_CTRL 31 || d.noSpare) * 4 + b2n (2 ≤ d.shedLevel) * 8 + b2n (dr || d.noSpare) * 16

/-- The STATE entry (R426). -/
def Dev.stateEntry (d : Dev) : Dev :=
  d.logEntry 0x04 (packBE 128 [(b2n d.derated, 1), (d.f Reg.DERATE_CAUSE 0 5, 5), (d.shedLevel, 5), (d.guarLapsed, 5), (0, 112)])

/-- A cause of derating comes or goes (R418). -/
def Dev.setCause (d : Dev) (b : Nat) (on : Bool) : Dev :=
  let was := d.f Reg.DERATE_CAUSE 0 5
  let d := d.putB Reg.DERATE_CAUSE b on
  if was ≠ 0 ∧ d.f Reg.DERATE_CAUSE 0 5 = 0 then d.onFl fun x => { x with clearAt := d.up } else d

/-- SHED_LEVEL changes (R419): event 1502 and a STATE entry. -/
def Dev.setShed (d : Dev) (l : Nat) : Dev :=
  if d.shedLevel = l then d else (((d.wrN Reg.SHED l).setB Reg.FL_STATUS 8).event Reg.FL_STATUS 1502).stateEntry

/-- A lane is in a run of overrun (R126); those of a shed stream have ended. -/
def Dev.overrunning (d : Dev) : Bool := (List.range 48).any fun l => (d.lane l).overFrom.isSome

/-- A SHED_DWELL starts (R419). -/
def Dev.dwellStart (d : Dev) : Dev :=
  d.onFl fun x => { x with dwellAt := d.up, hit := decide (781250 < d.f Reg.WORST 0 24) || d.on Reg.DERATE_CAUSE 2 || d.overrunning }

/-- A lane of an unshed stream overran (R419). -/
def Dev.noteOverrun (d : Dev) : Dev :=
  if d.derated ∧ d.overrunning then d.onFl fun x => { x with hit := true } else d

/-- A shed stream returns (R420): its last GAP, and its lanes restart from IDLE at the first input sample from now, with the reductions and epochs that were in progress ended (R149, R150). -/
def Dev.unshed (d : Dev) (s : Nat) : Dev :=
  if !(d.stream s).shed then d
  else
    let at0 := d.idxAt s d.now
    let t := if (d.stream s).marks.isEmpty then d.now else d.tagOf s at0
    let on := decide (laneLog2N (d.force s) ≠ 0) && (d.lane s).gridOn
    let d := if on then ((d.flushStages s t true).closeStages s true true).cutOwnShadow s t true else d
    let d := d.endShed s t
    let d := d.setStream s { d.stream s with shed := false, shedEnd := t, shedFrom := none, td := {} }
    let d := (d.members s).foldl (fun d l => if d.laneWanted l ∧ d.laneNib l = 15 then d.outOfService l t else d) d
    if on then (d.startGrid s at0 true).restartStages s else d

/-- The state is decided at the end of a window (R409, R418): each change raises event 1500, is logged, and sets or clears the shed level (R419, R420). -/
def Dev.decideState (d : Dev) : Dev :=
  let planned := match d.fl.okAt with | some t => Decidable.decide (d.fl.clearAt ≤ t) | none => false
  let held := d.f Reg.DERATE_CAUSE 0 5 == 0 && (!d.derated || planned)
  if held = !d.derated then d
  else if held then
    let d := ((({ d with lastDerated := d.now }).clrB Reg.FL_STATUS 1).setB Reg.FL_STATUS 0).setB Reg.COND_STATUS 0
    let d := ((d.setB Reg.FL_STATUS 6).event Reg.FL_STATUS 1500).stateEntry
    let d := (List.range 48).foldl (fun d s => d.unshed s) (d.setShed 0)
    (List.range 4).foldl (fun d g => d.rotStopped g) d
  else
    let d := ((d.setB Reg.FL_STATUS 1).clrB Reg.FL_STATUS 0).clrB Reg.COND_STATUS 0
    let d := (((d.setB Reg.FL_STATUS 6).event Reg.FL_STATUS 1500).stateEntry).deratedSeen
    let d := (d.setShed 1).dwellStart
    (List.range 4).foldl (fun d g => d.rotStopped g) d

/-! ### Triggers of plans (R413) -/

/-- A trigger: a plan is queued. -/
def Dev.planTrigger (d : Dev) : Dev := d.setB Reg.FL_STATUS 2

def Dev.vddCmd (d : Dev) : Nat := d.f Reg.VDD_NOW 0 16

/-- A VDD override is in force, and its voltage. -/
def Dev.vddOvr (d : Dev) : Option Nat := if d.on Reg.VDD_OVR_ARM 31 then some (d.f Reg.VDD_OVR_ARM 0 16) else none

/-- OVERRIDE shows whether an override is active (R431). -/
def Dev.showOverride (d : Dev) : Dev := d.putB Reg.FL_STATUS 5 (d.vddOvr.isSome || d.f Reg.DERATE_OVR_ARM 0 2 == 1 || d.f Reg.DERATE_OVR_ARM 0 2 == 2)

/-- REPLAN. -/
def replan (d : Dev) : Dev := d.planTrigger

/-! ### Die temperature and bands (R411) -/

/-- 2^23 times the die temperature in °C of a code: 0.500 V + 2.0 mV/°C (R385, R386). -/
def tempScaled (code : Int) : Int := 625 * code - 250 * 2 ^ 23

/-- New housekeeping results: DIE_TEMP, the band in force and OVERTEMP (R411, R413, R418). Before the first result of AX16 to AX18 nothing is known. -/
def Dev.dieUpdate (d : Dev) : Dev :=
  if (List.range 3).all fun k => d.n (Reg.HK k) == 0 then d
  else
  let t := tempScaled d.dieQ
  let b := d.f Reg.DIE_TEMP 16 4
  let lo : Int := -40 + 16 * b
  let up := Decidable.decide (b < 8 ∧ (lo + 18) * 2 ^ 23 ≤ t)
  let down := Decidable.decide (0 < b ∧ t ≤ (lo - 2) * 2 ^ 23)
  let b2 := if up || down then (clampI 0 8 ((t + 40 * 2 ^ 23) / (16 * 2 ^ 23))).toNat else b
  let d := d.wr Reg.DIE_TEMP (packBE 32 [(0, 12), (b2, 4), (0, 8), (wrapU 8 (clampI (-128) 127 (rshr t 23)), 8)])
  let hot := Decidable.decide ((d.f Reg.FL_CTRL 16 8 : Int) * 2 ^ 23 < t)
  let d := d.setCause 2 hot
  let d := if hot then d.onFl fun x => { x with hit := true } else d
  if b2 ≠ b then d.planTrigger else d

/-! ### Ends of plans (R412) -/

/-- A plan ends with a result (R412, R423, R426). -/
def Dev.planEnd (d : Dev) (p : PlanSt) (result : Nat) : Dev :=
  let dur := (d.up - p.t0) * 1000000 / 2 ^ 64
  let d := d.onFl fun x => { x with
    plan := none, planRec := none, target := none, lastPlan := some d.up
    retryAt := if result = 4 then some (d.up + 2 ^ 64) else x.retryAt }
  let d := d.clrB Reg.FL_STATUS 3
  let d := if result = 1 then d.wrN (Reg.V_TABLE p.band) d.vddCmd else if result = 2 then d.wrN (Reg.V_TABLE p.band) 860 else d
  let d := d.wr Reg.PLAN_RESULT (packBE 32 [(result, 4), (p.band, 4), (min 255 p.steps, 8), (min 0xFFFF (dur / 1000), 16)])
  let d := (d.add Reg.PLAN_COUNT 1).wr64 Reg.PLAN_TIME_LO Reg.PLAN_TIME_HI (shortTime d.now)
  let d := d.logEntry 0x02 (packBE 128 [(result, 4), (p.band, 4), (d.vddCmd, 16), (wrapU 16 p.margin, 16), (p.step, 24),
    (wrapU 32 (sfld (d.rd Reg.AGE_DRIFT_MAX) 0 24), 32), (dur, 32)])
  let d := if result = 5 then d else d.wrN Reg.AGE_BASE (d.f Reg.AGE_DRIFT_MAX 0 24)
  let d := (d.setB Reg.FL_STATUS 7).event Reg.FL_STATUS 1501
  let d := d.setCause 0 false
  if result = 1 ∨ result = 2 then d.onFl fun x => { x with okAt := some d.up } else d

/-! ### Measurement (R407 to R409, R412, R414) -/

/-- The number of whole 51.2 µs windows before an instant. -/
def winOf (t : Nat) : Nat := t * 10000000 / (512 * 2 ^ 64)

/-- The first window that begins at or after an instant. -/
def winFrom (t : Nat) : Nat := (t * 10000000 + 512 * 2 ^ 64 - 1) / (512 * 2 ^ 64)

/-- The worst ring and its step in fs, from the tokens each of the 32 rings passed in n windows. -/
def worstRing (n : Nat) (counts : List Nat) : Nat × Nat :=
  ((List.range 32).foldl (fun (b : Nat × Nat) r =>
    let c := nth counts r 0
    let s := if c = 0 then 0xFFFFFF else min 0xFFFFFF ((n * 51200000000 + c - 1) / c)
    if b.2 < s then (r, s) else b) (0, 0))

/-- The margin of a step, in 0.01 % units. -/
def marginOf (step : Nat) : Int := ((7812500000 / max 1 step : Nat) : Int) - 10000

/-- WORST and MARGIN take a measurement. -/
def Dev.setWorst (d : Dev) (w : Nat × Nat) : Dev :=
  (d.wr Reg.WORST (packBE 32 [(w.1, 8), (w.2, 24)])).wrN Reg.MARGIN (wrapU 16 (satS 16 (marginOf w.2)))

/-- 1 ms has passed since the last voltage command (R410). -/
def Dev.stepFree (d : Dev) : Bool := match d.fl.stepAt with | some t => elapsedNs t d.up 1000000 | none => true

/-- Between plans the planner only tracks (R414). -/
def Dev.track (d : Dev) : Dev :=
  if d.fl.plan.isSome ∨ !d.fl.planned ∨ d.vddOvr.isSome ∨ d.on Reg.DERATE_CAUSE 3 then d
  else if sfld (d.rd Reg.MARGIN) 0 16 < 700 ∧ d.vddCmd < 860 then
    d.onFl fun x => { x with tracking := true, target := some (min 860 (d.vddCmd + 5)) }
  else if d.fl.tracking then (d.onFl fun x => { x with tracking := false, target := none }).planTrigger
  else d

/-- A measurement window ends (R408, R409). -/
def measurementWindow (counts : List Nat) (d : Dev) : Dev :=
  if winOf d.up ≤ d.fl.win then d
  else
    let w := worstRing 1 counts
    let d := (d.onFl fun x => { x with win := winOf d.up, hit := x.hit || Decidable.decide (781250 < w.2) }).setWorst w
    ((d.setCause 1 (Decidable.decide (737028 < w.2))).decideState).track

/-! ### The planner (R410 to R415) -/

/-- A plan starts on its first trigger since the last plan (R412, R413); none starts under an override or a regulator fault. -/
def planStart (d : Dev) : Dev :=
  let first := !d.fl.planned && d.ax.ready
  let old := match d.fl.lastPlan with | some t => elapsedNs t d.up 2592000000000000 | none => false
  if d.fl.plan.isSome ∨ d.vddOvr.isSome ∨ d.on Reg.DERATE_CAUSE 3 ∨ !(first || (old || d.on Reg.FL_STATUS 2) && d.fl.planned) then d
  else
    let b := d.f Reg.DIE_TEMP 16 4
    let tv := d.f (Reg.V_TABLE b) 0 16
    let v := if tv = 0 then d.vddCmd else tv
    let call := if v = d.vddCmd then some d.up else none
    let p : PlanSt := { band := b, t0 := d.up, v := v, call := call, margin := sfld (d.rd Reg.MARGIN) 0 16, step := d.f Reg.WORST 0 24 }
    let d := d.onFl fun x => { x with
      plan := some p, planned := true, tracking := false, target := none
      planRec := some (b, d.rd Reg.BOOT_COUNT, shortTime d.now) }
    (d.setB Reg.FL_STATUS 3).clrB Reg.FL_STATUS 2

/-- The voltage the planner moves toward now. -/
def Dev.vddGoal (d : Dev) : Option Nat :=
  match d.fl.plan with
  | some p => if p.call.isNone then some p.v else none
  | none => match d.vddOvr with | some v => some v | none => d.fl.target

/-- The readback lies within 10 mV of the command. -/
def Dev.vddNear (d : Dev) (readback : Nat) : Bool := Decidable.decide (readback ≤ d.vddCmd + 10) && Decidable.decide (d.vddCmd ≤ readback + 10)

/-- A regulator fault (R415): the planner stops, the device derates with cause REGULATOR, and a running plan ends. -/
def Dev.regFault (d : Dev) : Dev :=
  if d.on Reg.DERATE_CAUSE 3 then d
  else
    let d := ((d.setCause 3 true).sqEvent Reg.FL_STATUS 9 1503).onFl fun x => { x with faultAt := d.up, target := none, tracking := false }
    match d.fl.plan with
    | some p => d.planEnd p 3
    | none => d

/-- The planner commands the next step of at most 5 mV, no sooner than 1 ms after the last (R410), and reads Voltage and Status back (R415). -/
def voltageStep (ack fault : Bool) (readback : Nat) (d : Dev) : Dev :=
  match d.vddGoal with
  | none => d
  | some v =>
    if v = d.vddCmd ∨ !d.stepFree ∨ d.on Reg.DERATE_CAUSE 3 then d
    else
      let c := clampN 680 860 (if d.vddCmd < v then min v (d.vddCmd + 5) else max v (d.vddCmd - 5))
      let d := (d.wrF Reg.VDD_NOW 0 16 c).onFl fun x => { x with stepAt := some d.up }
      if !ack ∨ fault then d.regFault else d.wrF Reg.VDD_NOW 16 16 readback

/-- 1 ms of settling at the plan's voltage ends: the next measurement is called for (R412). -/
def planSettleEnd (d : Dev) : Dev :=
  match d.fl.plan with
  | some p =>
    if p.call.isNone ∧ p.v = d.vddCmd ∧ d.stepFree then d.onFl fun x => { x with plan := some { p with call := some d.up } } else d
  | none => d

/-- A measurement over 256 windows ends, and the plan steps the voltage or ends (R412). -/
def planMeasurementEnd (counts : List Nat) (d : Dev) : Dev :=
  match d.fl.plan with
  | none => d
  | some p =>
    match p.call with
    | none => d
    | some t =>
      if winOf d.up < winFrom t + 256 then d
      else
        let w := worstRing 256 counts
        let m := marginOf w.2
        let target : Int := 10 * d.f Reg.FL_CTRL 24 8
        let d := d.setWorst w
        let p : PlanSt := { p with margin := m, step := w.2, call := none }
        let lower := p.down && Decidable.decide (target + 100 ≤ m) && Decidable.decide (680 < p.v)
        if lower then d.onFl fun x => { x with plan := some { p with v := max 680 (p.v - 5), steps := p.steps + 1 } }
        else
          let p : PlanSt := { p with down := false }
          if m < target ∧ p.v < 860 then d.onFl fun x => { x with plan := some { p with v := min 860 (p.v + 5), steps := p.steps + 1 } }
          else d.planEnd p (if target ≤ m then 1 else 2)

/-- A plan still running after 2 s ends with TIMEOUT (R412). -/
def planTimeout (d : Dev) : Dev :=
  match d.fl.plan with
  | some p => if elapsedNs p.t0 d.up 2000000000 then d.planEnd p 4 else d
  | none => d

/-- 1 s after a TIMEOUT, a plan is triggered (R413). -/
def planRetry (d : Dev) : Dev :=
  match d.fl.retryAt with
  | some t => if t ≤ d.up then (d.onFl fun x => { x with retryAt := none }).planTrigger else d
  | none => d

/-- The planner reads Status and Voltage every 10 ms, and 2 ms after a step (R415). -/
def regulatorPoll (ack fault : Bool) (readback : Nat) (d : Dev) : Dev :=
  let settled : Bool := match d.fl.stepAt with | some t => elapsedNs t d.up 2000000 | none => true
  let fresh : Bool := match d.fl.stepAt with | some t => Decidable.decide (d.fl.pollAt < t) && settled | none => false
  if d.on Reg.DERATE_CAUSE 3 ∨ !(elapsedNs d.fl.pollAt d.up 10000000 || fresh) then d
  else
    let d := d.onFl fun x => { x with pollAt := d.up }
    if !ack ∨ fault then d.regFault
    else
      let d := d.wrF Reg.VDD_NOW 16 16 readback
      if settled ∧ !d.vddNear readback then d.regFault else d

/-- Every 100 ms of a regulator fault the last command is retried; a readback within 10 mV clears the cause, and a plan starts (R415). -/
def regulatorRetry (ack : Bool) (readback : Nat) (d : Dev) : Dev :=
  if !d.on Reg.DERATE_CAUSE 3 ∨ !elapsedNs d.fl.faultAt d.up 100000000 then d
  else
    let d := d.onFl fun x => { x with faultAt := d.up }
    if !ack then d
    else
      let d := d.wrF Reg.VDD_NOW 16 16 readback
      if d.vddNear readback then (d.setCause 3 false).planTrigger else d

/-! ### Overrides (R416, R422) -/

/-- The OVERRIDE entry (R426). -/
def Dev.overrideEntry (d : Dev) (kind : Nat) (v : Word) (i : Ini) : Dev :=
  d.logEntry 0x08 (packBE 128 [(kind, 4), (v.toNat, 28), (0, 86), (i.toNat, 10)])

/-- A value for VDD_OVR (R416). -/
def vddOverride (i : Ini) (v : Word) (d : Dev) : Guarded :=
  let mv := fld v 0 16
  if bit v 31 ∧ (mv < 680 ∨ 860 < mv) then .refused
  else
    let was := d.vddOvr.isSome
    let d := (d.overrideEntry 1 v i).wr Reg.VDD_OVR_ARM v
    let d := if bit v 31 then
        let d := d.onFl fun x => { x with tracking := false, target := none }
        match d.fl.plan with
        | some p => d.planEnd p 5
        | none => d
      else if was then d.planTrigger else d
    .take d.showOverride

/-- A value for DERATE_OVR (R422). -/
def derateOverride (i : Ini) (v : Word) (d : Dev) : Guarded :=
  let d := if v = d.rd Reg.DERATE_OVR_ARM then d else d.overrideEntry 2 v i
  let d := (d.wr Reg.DERATE_OVR_ARM v).setCause 4 (v == 1)
  .take (d.putB Reg.FL_STATUS 5 (d.vddOvr.isSome || v == 1 || v == 2))

/-! ### Ageing (R417) -/

/-- A measurement of every sensor begins: when the DLL first locks, then 600 s after the previous one began. -/
def ageingStart (d : Dev) : Dev :=
  let due := match d.fl.ageAt with | some t => elapsedNs t d.up 600000000000 | none => d.on Reg.TB_STATUS 0
  if d.fl.ageEdge.isSome ∨ !due then d
  else d.onFl fun x => { x with ageAt := some d.up, ageEdge := some d.tb.edges }

/-- A drift in ppm from the counts of the stressed and the fresh ring. -/
def driftOf (s f : Nat) : Int := (2 * ((f : Int) - s) * 1000000 + f) / (2 * f)

/-- AGE_DATA of the selected sensor. -/
def Dev.ageData (d : Dev) : Word :=
  let x := d.fl.drifts.get (fun _ => (0, false)) (d.f Reg.AGE_SEL 0 7)
  packBE 32 [(b2n x.2, 1), (0, 7), (wrapU 24 x.1, 24)]

/-- A measurement ends (R413, R417): the counts of both rings of the 96 sensors over 2^20 REF_IN periods. -/
def ageingEnd (pairs : List (Nat × Nat)) (d : Dev) : Dev :=
  match d.fl.ageEdge with
  | none => d
  | some e =>
    if d.tb.edges < e + 2 ^ 20 then d
    else
      let d := (List.range 96).foldl (fun d k =>
        let c := nth pairs k (0, 0)
        let old := d.fl.drifts.get (fun _ => (0, false)) k
        let dead := old.2 || c.2 == 0
        let v := if c.2 = 0 then old.1 else driftOf c.1 c.2
        let d := if dead && !old.2 then d.logRetire 5 k 0 else d
        d.onFl fun x => { x with drifts := x.drifts.set (fun _ => (0, false)) k (v, dead) }) (d.onFl fun x => { x with ageEdge := none })
      let best := (List.range 96).foldl (fun (b : Option (Nat × Int)) k =>
        let x := d.fl.drifts.get (fun _ => (0, false)) k
        if x.2 then b
        else match b with
          | some (_, v) => if v < x.1 then some (k, x.1) else b
          | none => some (k, x.1)) none
      match best with
      | none => d
      | some (k, v) =>
        let d := d.wr Reg.AGE_DRIFT_MAX (packBE 32 [(k, 8), (wrapU 24 v, 24)])
        if 4000 < (v - sfld (d.rd Reg.AGE_BASE) 0 24).natAbs then d.planTrigger else d

/-! ### Shedding (R419, R420) -/

/-- A SHED_DWELL ends: the level rises if a condition held in it and DERATE_OVR does not suspend rises. -/
def shedDwellEnd (d : Dev) : Dev :=
  if !d.derated ∨ !elapsedNs d.fl.dwellAt d.up (d.f Reg.FL_CTRL 0 16 * 1000000) then d
  else
    let rise := d.fl.hit && d.n Reg.DERATE_OVR_ARM != 2 && Decidable.decide (d.shedLevel < 16)
    (if rise then d.setShed (d.shedLevel + 1) else d).dwellStart

/-- SHED_PRI of a stream. -/
def Dev.shedPri (d : Dev) (s : Nat) : Nat := d.f (Reg.SHED_PRI (s / 8)) (4 * (s % 8)) 4

/-- The level sheds a stream. -/
def Dev.mustShed (d : Dev) (s : Nat) : Bool :=
  d.derated && Decidable.decide (2 ≤ d.shedLevel) && d.shedPri s != 15 && Decidable.decide (d.shedPri s + 2 ≤ d.shedLevel)

/-- A stream being shed stops at its lanes' next frame boundary, where runs of overrun and of NO_LANE end and a shadow of its lanes does (R19, R126, R133, R419). -/
def streamShed (s : Nat) (d : Dev) : Dev :=
  if !d.mustShed s ∨ (d.stream s).shed then d
  else
    let t := d.boundaryTag s d.now
    let d := d.cutOwnShadow s t false
    let d := (d.members s).foldl (fun d l =>
      let d := (d.endOos l t)
      if (d.lane l).overFrom.isSome then (d.endOverrun l t).skipFrames l (d.framesBefore l (d.boundary s d.now)) else d) d
    (d.setStream s { d.stream s with shed := true, shedAt := t }).shedStart s t

/-- A shed stream's GAP record of 1 ms. -/
def shedGapRow (s : Nat) (d : Dev) : Dev :=
  match (d.stream s).shedFrom with
  | some t =>
    let t1 := t + nsUnits 1000000
    if (d.stream s).shed ∧ t1 ≤ d.now then (d.shedGap s t t1 true).setStream s { (d.stream s) with shedFrom := some t1 } else d
  | none => d

/-! ### The seep (R429, R430) -/

/-- CLEAR_COUNTS (R432). -/
def flClear (d : Dev) : Dev := [Reg.SCRUB_CE, Reg.SCRUB_UE, Reg.KAT_FAILS, Reg.MARCH_FAILS, Reg.LOG_OVERFLOW].foldl (fun d k => d.wrN k 0) d

/-- The end of HBM, which both stacks fill. -/
def hbmEnd : Nat := 0xC00000000

/-- The scrub reads the next 32-byte unit (R430, R439): a corrected error is written back, an uncorrectable one is left as read. -/
def scrubRead (ce ue : Bool) (d : Dev) : Dev :=
  let a := d.fl.scrub
  if hbmEnd ≤ a then d
  else
    let bad := ue || d.mc.ue.contains (a / 32)
    let d := d.onFl fun x => { x with scrub := a + 32 }
    let d := d.wrF Reg.SCRUB_PROG 0 16 (min 0xFFFF ((a + 32) * 65536 / hbmEnd))
    if bad then
      let d := (d.addUe (a / 32)).addSat Reg.SCRUB_UE 1
      let d := ((d.addSat Reg.MEM_UE 1).wr64 Reg.MEM_UE_ADDR_LO Reg.MEM_UE_ADDR_HI a).sqEvent Reg.MC_STATUS 5 1510
      let d := (d.wr64 Reg.SCRUB_UE_ADDR_LO Reg.SCRUB_UE_ADDR_HI a).sqEvent Reg.FL_STATUS 10 1506
      (d.onFl fun x => { x with scrubUe := x.scrubUe + 1 }).seepFind 0x0D (0x1000 + d.pseudo a) 22
    else if ce then ((d.addSat Reg.SCRUB_CE 1).addSat Reg.MEM_CE 1).onFl fun x => { x with scrubCe := x.scrubCe + 1 }
    else d

/-- A pass is complete: the SCRUB entry, and the next pass starts. -/
def scrubPassEnd (d : Dev) : Dev :=
  if d.fl.scrub < hbmEnd then d
  else
    let d := d.add Reg.SCRUB_PASSES 1
    let d := d.logEntry 0x07 (packBE 128 [(d.n Reg.SCRUB_PASSES, 32), (d.fl.scrubCe, 32), (d.fl.scrubUe, 32), (0, 32)])
    (d.wrN Reg.SCRUB_PROG 0).onFl fun x => { x with scrub := 0, scrubAt := d.up, scrubCe := 0, scrubUe := 0 }

/-- A pass not completed within SCRUB_HOURS. -/
def scrubLate (d : Dev) : Dev :=
  if elapsedNs d.fl.scrubAt d.up (d.f Reg.SCRUB_CTRL 0 8 * 3600000000000) then d.setB Reg.SCRUB_PROG 31 else d

/-- Every MARCH_PERIOD an unused spare bank starts its test. -/
def marchStart (g bank : Nat) (d : Dev) : Dev :=
  let x := d.fl.march.get (fun _ => (false, none)) (2 * g + bank)
  let due := match x.2 with | some t => elapsedNs t d.up (d.f Reg.MARCH_CTRL 0 16 * 1000000000) | none => true
  if x.1 ∨ !d.isSpareBank (2 * g + bank) ∨ !due then d
  else d.onFl fun y => { y with march := y.march.set (fun _ => (false, none)) (2 * g + bank) (true, some d.up) }

/-- A March test ends; a bank claimed meanwhile is no longer under test. -/
def marchEnd (g bank : Nat) (pass : Bool) (d : Dev) : Dev :=
  let x := d.fl.march.get (fun _ => (false, none)) (2 * g + bank)
  if !x.1 then d
  else
    let d := d.onFl fun y => { y with march := y.march.set (fun _ => (false, none)) (2 * g + bank) (false, x.2) }
    if pass ∨ !d.isSpareBank (2 * g + bank) then d
    else
      let d := (d.dropSpareBank (2 * g + bank)).addSat Reg.MARCH_FAILS 1
      (d.seepFind 0x0C (0x5000 + 2 * g + bank) 24).logRetire 4 (2 * g + bank) 5

end Sys2Proof.Machine
end

