-- ==== Sys2Proof/Machine/EventUnit.lean ====
section
/-! DEFINITION. The event controller and the sump (chapter Events, the Sump and Ordered Recovery). -/
namespace Sys2Proof.Machine

/-! ### Delivery to cores, claims (R503 to R508) -/

/-- An event is pending (R521). -/
def Dev.pendingEv (d : Dev) (n : Nat) : Bool := d.on (Reg.EV_PEND (n / 32)) (n % 32)

/-- The first raise of event n in a queue, and the queue without it. -/
def takeRaise (n : Nat) : List (Nat × Nat) → Option (Nat × List (Nat × Nat))
  | [] => none
  | (m, s) :: r => if m = n then some (s, r) else (takeRaise n r).map fun p => (p.1, (m, s) :: p.2)

/-- A raised event reaches the controller (R505, R506): pending sets, and the raise is merged. -/
def eventDelivery (n : Nat) (d : Dev) : Dev :=
  match takeRaise n d.ev.toCores with
  | none => d
  | some (s, q) =>
    let d := d.setB (Reg.EV_PEND (n / 32)) (n % 32)
    { d with ev := { d.ev with
      toCores := q, merged := d.ev.merged.set (fun _ => 0) n (satAdd 16 (d.ev.merged.get (fun _ => 0) n) 1),
      latest := d.ev.latest.set (fun _ => 0) n s } }

/-- The claim block an event targets: 2 × core + level (R505). -/
def Dev.evBlock (d : Dev) (n : Nat) : Nat := 2 * d.f (Reg.EV_CFG n) 16 3 + d.f (Reg.EV_CFG n) 19 1

/-- An event is eligible at claim block k (R505). -/
def Dev.eligible (d : Dev) (k n : Nat) : Bool :=
  d.pendingEv n && d.on (Reg.EV_CFG n) 31 && decide (d.evBlock n = k)
    && decide (d.f (Reg.THRESH k) 0 4 < d.f (Reg.EV_CFG n) 0 4)

/-- The events pending, in ascending order. -/
def Dev.pendingList (d : Dev) : List Nat :=
  (List.range 48).flatMap fun m =>
    if d.rd (Reg.EV_PEND m) = 0 then [] else ((List.range 32).filter fun i => d.on (Reg.EV_PEND m) i).map (32 * m + ·)

/-- The interrupt input that claim block k serves is asserted (R505). -/
def Dev.irq (d : Dev) (k : Nat) : Bool := d.pendingList.any fun n => d.eligible k n

/-- The event a claim takes: the highest PRIO, and of equals the lowest number (R506). -/
def Dev.best (d : Dev) (k : Nat) : Option Nat :=
  (d.pendingList.filter fun n => d.eligible k n).foldl (fun a n =>
    match a with
    | none => some n
    | some m => if d.f (Reg.EV_CFG m) 0 4 < d.f (Reg.EV_CFG n) 0 4 then some n else some m) none

/-- Pending and merged count of an event clear. -/
def Dev.clearEv (d : Dev) (n : Nat) : Dev :=
  let d := d.clrB (Reg.EV_PEND (n / 32)) (n % 32)
  { d with ev := { d.ev with merged := d.ev.merged.set (fun _ => 0) n 0 } }

/-- A read of CLAIM_k (R506). -/
def claim (k : Nat) (d : Dev) : Dev × Word :=
  match d.best k with
  | none => (d, 0)
  | some n =>
    let w : Word := packBE 32 [(1, 1), (0, 7), (d.f (Reg.EV_CFG n) 0 4, 4), (0, 9), (n, 11)]
    let d := d.wrN (Reg.CLAIM_SEQ k) (d.ev.latest.get (fun _ => 0) n)
    let d := d.wrN (Reg.CLAIM_MERGED k) (d.ev.merged.get (fun _ => 0) n)
    (d.clearEv n, w)

/-- EVC_CMD CLEAR_PENDING: one event's pending bit clears and its merged count is discarded; SEQ of EVC_STATUS counts a non-zero discard (R507, R521). -/
def clearPending (n : Nat) (d : Dev) : Dev :=
  if 1536 ≤ n then d
  else
    let m := d.ev.merged.get (fun _ => 0) n
    let d := d.clearEv n
    if m = 0 then d else d.seqInc Reg.EVC_STATUS

/-- A write to EV_CFG_n: a pending event is at its new claim block at once, for the block is read from EV_CFG (R507). -/
def evCfgWrite (n : Nat) (data : Word) (d : Dev) : Dev := d.wr (Reg.EV_CFG n) (data &&& 0x800F000F)

/-- A write to EV_RAISE raises a software event once; a value of 1,024 or above is a late write (R504). -/
def evRaise (i : Ini) (data : Word) (d : Dev) : Dev :=
  if data.toNat < 1024 then d.raise data.toNat else d.lateWrite i Reg.EV_RAISE 4

/-! ### The sump (R510 to R516) -/

/-- Of the waiting reports, the one taken next: the earliest, and of equals the lowest port (R510). -/
def nextReport : List Report → Option Report
  | [] => none
  | r :: l =>
    match nextReport l with
    | none => some r
    | some b => if b.time < r.time ∨ (b.time = r.time ∧ b.port < r.port) then some b else some r

/-- The slot of an open record of a root (R512). -/
def Dev.openSlot (d : Dev) (root : Nat) : Option Nat :=
  (List.range 64).find? fun i => d.on (Reg.REC_ROOT i) 31 && d.f (Reg.REC_ROOT i) 0 16 = root

/-- The lowest free slot (R513). -/
def Dev.freeSlot (d : Dev) : Option Nat := (List.range 64).find? fun i => !d.on (Reg.REC_ROOT i) 31

/-- The sump detail of slot i (R518). -/
def Dev.sumpDetail (d : Dev) (i : Nat) : Word128 :=
  let r := d.rd (Reg.REC_ROOT i)
  packBE 128 [(fld r 0 16, 16), (fld r 16 8, 8), (b2n (bit r 30), 1), (0, 1), (i, 6), (d.n (Reg.REC_DUP i), 32),
    (d.n (Reg.REC_NUM i), 32), (0, 7), (d.f (Reg.REC_REPORTERS i) 0 25, 25)]

/-- The header of a sump record (R516): SOURCE_ID 0x7001, PHYS 0xFF, times of SOURCE_CLASS 4. -/
def Dev.sumpHdr (d : Dev) (typ t : Nat) : Hdr :=
  { typ := typ, src := 0x7001, flags := b2n (d.cond t) * 128, time := d.timeWord 4 false t }

/-- A sump record enters the output buffer of 128 records, after the GAP of any run of skipped ones; one that does not fit is skipped (R516). -/
def Dev.sumpRecord (d : Dev) (cause i first t : Nat) : Dev :=
  let held := (d.outOf 258).length
  let need := if d.sump.skipped = 0 then 1 else 2
  if held + need ≤ 128 then
    let d := if d.sump.skipped = 0 then d else
      let t0 := d.sump.skipFrom
      let d := d.emit 258 (d.sumpHdr 0x09 t0) (gapPayload 0x62 3 d.sump.skipped (d.timeWord 4 false t0) (d.timeWord 4 false t))
      { d with sump := { d.sump with skipped := 0 } }
    d.emit 258 (d.sumpHdr 0x0A t) (errPayload cause 0 0 (d.timeWord 4 false first) (d.timeWord 4 false t) (d.sumpDetail i))
  else
    let d := { d with sump := { d.sump with
      skipFrom := if d.sump.skipped = 0 then t else d.sump.skipFrom, skipped := d.sump.skipped + 1 } }
    d.setB Reg.SUMP_STATUS 1

/-- SUMP_OPEN, SUMP_MAP and FULL show the open slots (R522). -/
def Dev.showSump (d : Dev) : Dev :=
  let l := (List.range 64).filter fun i => d.on (Reg.REC_ROOT i) 31
  let d := d.wrN Reg.SUMP_OPEN l.length
  let d := d.wr64 Reg.SUMP_MAP_LO Reg.SUMP_MAP_HI (l.foldl (fun a i => a + 2 ^ i) 0)
  d.putB Reg.SUMP_STATUS 0 (l.length = 64)

/-- A report of a new root opens a slot (R513). -/
def Dev.openRecord (d : Dev) (i : Nat) (r : Report) : Dev :=
  let d := d.add Reg.SUMP_ROOTS 1
  let d := d.wr (Reg.REC_ROOT i) (packBE 32 [(1, 1), (0, 7), (r.code, 8), (r.root, 16)])
  let d := (d.wrN (Reg.REC_DUP i) 0).wrN (Reg.REC_REPORTERS i) (2 ^ r.port)
  let d := (d.wr64 (Reg.REC_FIRST_LO i) (Reg.REC_FIRST_HI i) (shortTime r.time)).wrN (Reg.REC_NUM i) (d.n Reg.SUMP_ROOTS)
  let d := { d with sump := { d.sump with first := d.sump.first.set (fun _ => 0) i r.time } }
  let d := (d.sumpRecord 0x60 i r.time r.time).showSump
  (d.setB Reg.SUMP_STATUS 2).event Reg.SUMP_STATUS 1532

/-- A duplicate of an open record (R512). -/
def Dev.dupRecord (d : Dev) (i : Nat) (r : Report) : Dev :=
  let d := (d.addSat (Reg.REC_DUP i) 1).setB (Reg.REC_REPORTERS i) r.port
  if d.f (Reg.REC_ROOT i) 16 8 = r.code then d else d.setB (Reg.REC_ROOT i) 30

/-- A report reaches the sump (R510 to R514). -/
def sumpReport (d : Dev) : Dev :=
  match nextReport d.sump.reports with
  | none => d
  | some r =>
    let d := { d with sump := { d.sump with reports := d.sump.reports.erase r } }
    match d.openSlot r.root with
    | some i => d.dupRecord i r
    | none =>
      match d.freeSlot with
      | some i => d.openRecord i r
      | none => (d.addSat Reg.SUMP_OVF 1).sqEvent Reg.SUMP_STATUS 3 1533

/-- SUMP_CMD ACK for slot i (R515): reports of the same step are ordered before it, so those waiting with a time up to now are taken first by their own commands. -/
def sumpAck (i : Nat) (d : Dev) : Dev :=
  if d.on (Reg.REC_ROOT i) 31 then
    let d := d.sumpRecord 0x61 i (d.sump.first.get (fun _ => 0) i) d.now
    (d.clrB (Reg.REC_ROOT i) 31).showSump
  else d

/-- SUMP_CMD CLEAR_COUNTS zeroes SUMP_OVF and clears OVERFLOW (R522). -/
def sumpClear (d : Dev) : Dev := (d.wrN Reg.SUMP_OVF 0).clrB Reg.SUMP_STATUS 3

end Sys2Proof.Machine
end

