-- ==== Sys2Proof/Machine/Stats.lean ====
section
/-! DEFINITION. The stamp statistics units (chapter Counting, Intervals and Statistics). -/
namespace Sys2Proof.Machine

/-! ### Edge inputs as the units see them -/

/-- An edge-input configuration register as in force (R265). -/
def Dev.eb (d : Dev) (k : Nat) : Word := d.edge.bank.get regReset k

def Dev.eiSt (d : Dev) (n : Nat) : EiSt := d.edge.ins.get (fun _ => {}) n
def Dev.setEi (d : Dev) (n : Nat) (x : EiSt) : Dev := { d with edge := { d.edge with ins := d.edge.ins.set (fun _ => {}) n x } }

/-- A configuration register as the crossings of an input meet it: the bank reaches them in crossing order (R242, R265). -/
def Dev.ep (d : Dev) (n k : Nat) : Word := (d.eiSt n).bank.get regReset k

/-- Femtoseconds in 2^-64 s units, rounded half up (R250). -/
def fsUnits (fs : Int) : Int := (2 * fs * 2 ^ 64 + 10 ^ 15) / (2 * 10 ^ 15)

/-- The code of PRESCALE that acts: only EI0 to EI3 have prescalers (R244, R267). -/
def Dev.eiPrescale (d : Dev) (n : Nat) : Nat := if n < 4 then fld (d.ep n (Reg.EI_CFG n)) 26 2 % 3 else 0

/-- The prescale factor. -/
def Dev.eiFactor (d : Dev) (n : Nat) : Nat := 4 ^ d.eiPrescale n

/-- The edges an input stamps: 0 both, 1 rising, 2 falling; rising with a prescaler (R244, R267). -/
def Dev.eiEdges (d : Dev) (n : Nat) : Nat :=
  if d.eiPrescale n = 0 then fld (d.ep n (Reg.EI_CFG n)) 28 2 % 3 else 1

/-- D_FIX in 2^-64 s units (R250). -/
def Dev.eiFix (d : Dev) (n : Nat) : Nat := (fsUnits (d.n (Reg.EI_DFIX n))).toNat

/-- The path delay of an input, D_FIX + DESKEW, in 2^-64 s units (R250). -/
def Dev.eiDelay (d : Dev) (n : Nat) : Int := (d.eiFix n : Int) + fsUnits (sfld (d.ep n (Reg.EI_DESKEW n)) 0 32)

/-- The progress an input reports (R271): every stamp of an earlier time has been delivered. An input that is disabled, with no crossing on its way, reports the present; an enabled one is behind by its conversion, a change that its crossings have still to meet holds it, and a loss holds it at the start of its GAP. -/
def Dev.eiProgress (d : Dev) (n : Nat) : Nat :=
  let x := d.eiSt n
  if !x.on ∧ x.lag.isEmpty then d.now
  else
    let p := ((d.now : Int) - d.periods 1 - 1 - d.eiDelay n).toNat
    let p := x.lag.foldl (fun a l => min a l.t) p
    let p := match x.gap with | some g => min p g.t0 | none => p
    match x.fault with | some g => min p g.t0 | none => p

/-! ### Configuration -/

/-- The reset values of SU_CFG to SU_NEAR (R295). -/
def suResetCfg : List Word := [0, 0x3E7, 0, 0x138800, 0, 0xFFC000C8, 0]

/-- The keys of the pending bank (R292). -/
def suBankKey (k : Nat) : Bool :=
  let o := keyOff k
  keyBlock k == 0x15 && decide (0x100 ≤ o) && decide (o < 0x500) && decide (o % 64 < 0x1C)

/-- The registers of a unit's configuration, as pending. -/
def Dev.suPending (d : Dev) (u : Nat) : List Word :=
  [d.rd (Reg.SU_CFG u), d.rd (Reg.SU_N u), d.rd (Reg.SU_REJ u), d.rd (Reg.SU_GATE u), d.rd (Reg.SU_TLIM u),
   d.rd (Reg.SU_BLOCK u), d.rd (Reg.SU_NEAR u)]

/-- A unit's configuration in force. -/
def SuSt.c (x : SuSt) (k : Nat) : Word := nth (if x.cfg.isEmpty then suResetCfg else x.cfg) k 0

/-- A configuration's fields (R297). -/
def suOn (c : Word) : Bool := bit c 31
def suFunc (c : Word) : Nat := fld c 28 3
def suInA (c : Word) : Nat := fld c 12 4
def suInB (c : Word) : Nat := fld c 4 4
def suEdgeA (c : Word) : Nat := fld c 10 2
def suEdgeB (c : Word) : Nat := fld c 2 2

/-- The function reads IN_B (R274). -/
def suUsesB (c : Word) : Bool := suFunc c == 1 || suFunc c == 3

/-- REJ_MIN in ps, 0 for none (R292). -/
def SuSt.rej (x : SuSt) : Nat :=
  let r := fld (x.c 2) 0 20
  if r = 0 then 0 else clampN 1000 1000000 r

def Dev.su (d : Dev) (u : Nat) : SuSt := d.stats.units.get (fun _ => {}) u
def Dev.setSu (d : Dev) (u : Nat) (x : SuSt) : Dev := { d with stats := { d.stats with units := d.stats.units.set (fun _ => {}) u x } }

/-- SU_STATE and SU_PROG follow the unit (R295). -/
def Dev.suShow (d : Dev) (u : Nat) : Dev :=
  let x := d.su u
  let st := b2n (suOn (x.c 0)) * 2 ^ 31 + b2n x.start.isSome * 2 ^ 30 + b2n x.held.isSome * 2 ^ 29
  let n := if bit (x.c 0) 25 then x.cum.n else x.batch.n
  (d.wrN (Reg.SU_STATE u) st).wr64 (Reg.SU_PROG_LO u) (Reg.SU_PROG_HI u) n

/-! ### Records (R287 to R291) -/

/-- A record of a unit goes into its buffer of 4,096 words, or is skipped; one GAP stands before the first record after a run of skipped ones (R291). -/
def Dev.suWrite (d : Dev) (u : Nat) (typ : Nat) (w : Word128) (cond : Bool) (payload : List Word128) : Dev :=
  let x := d.su u
  let hdr : Hdr := { typ := typ, src := 0x4000 + u, flags := b2n cond * 128, sw := x.sw, time := w }
  let room := fun (k : Nat) => decide (d.outWords (112 + u) + payload.length + 2 + k ≤ 4096)
  if x.skips = 0 ∧ room 0 then d.emit (112 + u) hdr payload
  else if x.skips = 0 then
    (d.setSu u { x with skipFrom := w, skips := 1, skipCond := cond }).sqEvent Reg.SU_STATUS 4 1329
  else if room 5 then
    let d := d.emit (112 + u) { hdr with typ := 0x09, flags := b2n (x.skipCond || d.cond (wordTime x.skipFrom)) * 128, time := x.skipFrom } (gapPayload 0x3A 3 x.skips x.skipFrom w)
    (d.setSu u { x with skips := 0, skipCond := false }).emit (112 + u) hdr payload
  else (d.setSu u { x with skips := x.skips + 1, skipCond := x.skipCond || cond }).sqEvent Reg.SU_STATUS 4 1329

/-- A STATS or GAP record takes its place in the unit's flow: behind an open INTERVAL record whose header time is not later (R28, R287). -/
def Dev.suFlow (d : Dev) (u : Nat) (typ : Nat) (w : Word128) (cond : Bool) (payload : List Word128) : Dev :=
  let x := d.su u
  match x.open_ with
  | some r => if r.t0 ≤ wordTime w then d.setSu u { x with later := x.later ++ [(w, typ, cond, payload)] } else d.suWrite u typ w cond payload
  | none => d.suWrite u typ w cond payload

/-- Word 2 of an INTERVAL record (R288). -/
def SuSt.word2 (x : SuSt) (close n first : Nat) : Word128 :=
  let c := x.c 0
  packBE 128 [(n, 11), (b2n (bit c 27), 1), (close, 4), (suInA c, 4), (suEdgeA c, 2), (suInB c, 4), (suEdgeB c, 2), (0, 36), (first, 64)]

/-- The open INTERVAL record closes, and the records behind it follow (R289). -/
def Dev.suClose (d : Dev) (u close : Nat) : Dev :=
  let x := d.su u
  match x.open_ with
  | none => d
  | some r =>
    let body := r.ents.flatMap fun e => [BitVec.ofNat 128 (e.head * 2 ^ 56 + (e.t - r.t0) % 2 ^ 56), BitVec.ofInt 128 e.x]
    let d := d.setSu u { x with open_ := none, later := [] }
    let d := d.suWrite u 0x05 r.w r.cond (x.word2 close r.ents.length r.first :: body)
    x.later.foldl (fun d l => d.suWrite u l.2.1 l.1 l.2.2.1 l.2.2.2) d

/-- An entry of a pair or an orphan (R289): the record open takes it, or closes before it for COND or SPAN; ENTRY_MAX closes it. -/
def Dev.suEntry (d : Dev) (u : Nat) (it : SuItem) (kind : Nat) (near q : Bool) (skipped : Nat) (x : Int) (cond : Bool) : Dev :=
  let d := if kind = 1 then d.add (Reg.SU_PAIRS u) 1 else d.addSat (Reg.SU_ORPHANS u) 1
  if !bit ((d.su u).c 0) 24 then d
  else
    let d := match (d.su u).open_ with
      | some r => if r.cond ≠ cond then d.suClose u 0x6 else if r.t0 + 2 ^ 56 ≤ it.t then d.suClose u 0x7 else d
      | none => d
    let s := d.su u
    let head := kind * 2 ^ 68 + b2n near * 2 ^ 67 + b2n q * 2 ^ 66 + min skipped 0xFFFF * 2 ^ 48
    let e : SuEntry := ⟨it.t, head, x⟩
    let r := match s.open_ with
      | some r => { r with ents := r.ents ++ [e] }
      | none => ⟨it.t, it.w, d.up, cond, s.entries, [e]⟩
    let d := d.setSu u { s with open_ := some r, entries := s.entries + 1 }
    if fld (s.c 5) 22 10 + 1 ≤ r.ents.length then d.suClose u 0x9 else d

/-! ### Statistics (R283 to R285) -/

/-- MEAN, rounded half up (R284). -/
def SuBatch.mean (b : SuBatch) : Int := (2 * b.s1 + b.n) / (2 * (b.n : Int))

/-- DEV, rounded half up; 0 with one sample (R284). -/
def SuBatch.dev (b : SuBatch) : Nat :=
  if b.n < 2 then 0
  else
    let v := ((b.n : Int) * b.s2 - b.s1 * b.s1).toNat
    (isqrtBits 130 (4 * v / (b.n * (b.n - 1))) + 1) / 2

/-- One more stamp in a regression (R285). -/
def SuReg.put (r : SuReg) (t : Nat) (k : Int) : SuReg :=
  if r.n = 0 then { n := 1, t0 := t, k0 := k }
  else
    let u := k - r.k0
    let v : Int := (t : Int) - r.t0
    { r with n := r.n + 1, u := r.u + u, uu := r.uu + u * u, t := r.t + v, ut := r.ut + u * v }

/-- The regression of some stamps. -/
def SuReg.from_ (l : List SuItem) : SuReg := l.foldl (fun r s => r.put s.t s.k) {}

/-- FREQ of a regression in 2^-64 Hz, rounded half up, for a prescale factor and E (R285); none where the fitted slope is not positive, for which the manual states no value. -/
def SuReg.freq (r : SuReg) (ps e : Nat) : Option Nat :=
  let num := (r.n : Int) * r.ut - r.u * r.t
  let den := (r.n : Int) * r.uu - r.u * r.u
  if num ≤ 0 ∨ den ≤ 0 then none else some (divRound (ps * 2 ^ 128 * den.toNat) (e * num.toNat))

/-- A sample joins the sums (R284). -/
def SuBatch.put (b : SuBatch) (x : Int) (w : Word128) (cond : Bool) : SuBatch :=
  { b with
    n := b.n + 1, s1 := b.s1 + x, s2 := b.s2 + (x * x).toNat, last := w, cond := b.cond || cond
    lo := if b.n = 0 then x else min b.lo x, hi := if b.n = 0 then x else max b.hi x }

/-- The batch holds a sample. -/
def SuBatch.live (b : SuBatch) : Bool := decide (0 < b.n + b.excluded)

/-- The batch ends (R283): its record, its event, and the next batch, which for PERIOD begins at the same stamp (R279). -/
def Dev.suEndBatch (d : Dev) (u : Nat) : Dev :=
  let x := d.su u
  if !x.batch.live then d
  else
    let c := x.c 0
    let cumul := bit c 25
    let b := x.batch
    let a := if cumul then x.cum else b
    let noReg := suFunc c != 2 || decide (x.reg.n < 2)
    let e := if d.eiEdges (suInA c) = 0 then 2 else 1
    let fr := if noReg then some 0 else x.reg.freq (d.eiFactor (suInA c)) e
    let d := if fr.isSome then d else d.draw
    let freq := fr.getD (Config.freeNat d.fresh)
    let word2 := packBE 128 [(suFunc c, 3), (b2n (decide (b.n < (x.c 1).toNat + 1)), 1), (b2n b.gapped, 1), (b2n cumul, 1),
      (b2n x.restart, 1), (b2n (decide (a.n < 2)), 1), (b2n noReg, 1), (0, 15), (x.batchNo, 32), (0, 31), (a.n, 41)]
    let sat := fun (v : Nat) => min v (2 ^ 32 - 1)
    let pay : List Word128 := [word2, BitVec.ofInt 128 a.mean, BitVec.ofNat 128 a.dev, BitVec.ofInt 128 a.lo, BitVec.ofInt 128 a.hi,
      BitVec.ofNat 128 freq, packBE 128 [(sat b.rejected, 32), (sat b.excluded, 32), (sat b.orphans, 32), (sat b.gaps, 32)]]
    let write := b.n ≠ 0 ∧ bit c 23
    let d := if write then d.suFlow u 0x06 a.last a.cond pay else d
    let x := d.su u
    let reg : SuReg := if cumul then x.reg else SuReg.from_ x.last.toList
    let d := d.setSu u { x with batch := {}, reg := reg, batchNo := (x.batchNo + 1) % 2 ^ 32, restart := x.restart && !write }
    let d := d.add (Reg.SU_BATCHES u) 1
    if bit c 22 then d.raise (1312 + u) else d

/-- The end of a batch by TLIM, if it has one (R283). -/
def SuSt.limit (x : SuSt) : Option Nat :=
  let ms := fld (x.c 4) 0 20
  if ms = 0 ∨ !x.batch.live then none else some (x.batch.first + (ms * 2 ^ 64 + 999) / 1000)

/-- The batch ends where its limit lies at or before a reference time (R283). -/
def Dev.suLimit (d : Dev) (u t : Nat) : Dev :=
  match (d.su u).limit with
  | some l => if l ≤ t then d.suEndBatch u else d
  | none => d

/-- A sample with its reference time and the flags of its stamps (R282, R283). Where the cumulative sums clear, the regression begins again with the sample's stamps, `own`. -/
def Dev.suSample (d : Dev) (u : Nat) (v : Int) (t : Nat) (w : Word128) (flags : Nat) (own : List SuItem) : Dev :=
  let d := d.suLimit u t
  let x := d.su u
  let b := if x.batch.live then x.batch else { x.batch with first := t }
  if (BitVec.ofNat 5 flags &&& BitVec.ofNat 5 (fld (x.c 0) 17 5)) ≠ 0 then
    (d.setSu u { x with batch := { b with excluded := b.excluded + 1 } }).addSat (Reg.SU_EXCLUDED u) 1
  else
    let cond := flags / 16 % 2 = 1
    let full := bit (x.c 0) 25 && decide (2 ^ 40 ≤ x.cum.n)
    let cum : SuBatch := if full then {} else x.cum
    let reg : SuReg := if full then SuReg.from_ own else x.reg
    let d := d.setSu u { x with batch := b.put v w cond, cum := cum.put v w cond, reg := reg, restart := x.restart || full }
    if (x.c 1).toNat + 1 ≤ b.n + 1 then d.suEndBatch u else d

/-! ### Pairing (R275 to R278) -/

/-- A pair's β in fs (R275). -/
def SuSt.beta (x : SuSt) (stop : SuItem) : Nat :=
  let b := fld (x.c 6) 0 16
  if b ≠ 0 then b else stop.beta

/-- A span lies below so many fs. -/
def belowFs (span fs : Nat) : Bool := decide (span * 10 ^ 15 < fs * 2 ^ 64)

/-- A pair: its entry, then its sample (R275, R282). -/
def Dev.suPair (d : Dev) (u : Nat) (start stop : SuItem) : Dev :=
  let x := d.su u
  let v : Int := (stop.t : Int) - start.t
  let fl := (BitVec.ofNat 5 start.flags ||| BitVec.ofNat 5 stop.flags).toNat
  let d := d.setSu u { x with skipped := 0 }
  let d := d.suEntry u stop 1 (belowFs v.natAbs (x.beta stop)) (fl % 16 ≠ 0) x.skipped v (fl / 16 % 2 = 1)
  d.suSample u v stop.t stop.w fl []

/-- An unpaired stop (R276, R277). -/
def Dev.suOrphan (d : Dev) (u : Nat) (stop : SuItem) : Dev :=
  let x := d.su u
  let d := d.setSu u { x with batch := { x.batch with orphans := x.batch.orphans + 1 } }
  d.suEntry u stop 2 false (stop.flags % 16 ≠ 0) 0 0 (stop.flags / 16 % 2 = 1)

/-- The pairing state closes (R278): an open start is discarded, held and undecided stops become ORPHAN. Starts skipped so far stay counted for the next pair (R276). -/
def Dev.suUnpair (d : Dev) (u : Nat) : Dev :=
  let x := d.su u
  let d := d.setSu u { x with start := none, held := none, pend := [], prev := if suFunc (x.c 0) = 1 then none else x.prev }
  let d := x.held.toList.foldl (fun d s => d.suOrphan u s) d
  x.pend.foldl (fun d s => d.suOrphan u s.1) d

/-- A stretch free of GAPs ends (R278 to R280): the pairing state closes, and no period or phase reaches across. -/
def Dev.suBreak (d : Dev) (u : Nat) : Dev :=
  let d := d.suUnpair u
  d.setSu u { d.su u with prev := none, bs := [] }

/-- Ordered pairing of one stamp (R276). -/
def Dev.suOrdered (d : Dev) (u : Nat) (isStart : Bool) (s : SuItem) : Dev :=
  let x := d.su u
  match isStart, x.start, x.held with
  | true, some _, _ => d.setSu u { x with skipped := x.skipped + 1 }
  | true, none, some h =>
    if belowFs (s.t - h.t) (x.beta h) then (d.setSu u { x with held := none }).suPair u s h
    else ((d.setSu u { x with held := none }).suOrphan u h) |> fun d => d.setSu u { d.su u with start := some s }
  | true, none, none => d.setSu u { x with start := some s }
  | false, some a, _ => (d.setSu u { x with start := none }).suPair u a s
  | false, none, some h => ((d.setSu u { x with held := none }).suOrphan u h) |> fun d => d.setSu u { d.su u with held := some s }
  | false, none, none => d.setSu u { x with held := some s }

/-- Signed pairing of one stamp (R277): a start decides every undecided stop. -/
def Dev.suSigned (d : Dev) (u : Nat) (isStart : Bool) (s : SuItem) : Dev :=
  let x := d.su u
  if isStart then
    let d := d.setSu u { x with pend := [], prev := some s }
    x.pend.foldl (fun d p =>
      match p.2 with
      | some e => if s.t - p.1.t < p.1.t - e.t then d.suPair u s p.1 else d.suPair u e p.1
      | none => d.suPair u s p.1) d
  else d.setSu u { x with pend := x.pend ++ [(s, x.prev)] }

/-- The undecided stops whose decision point IN_A's progress has reached pair with the earlier start (R277). -/
def Dev.suDecide (d : Dev) (u : Nat) (progress : Nat) : Dev :=
  let x := d.su u
  let due := x.pend.takeWhile fun p => match p.2 with
    | some e => decide (p.1.t + (p.1.t - e.t) ≤ progress)
    | none => false
  let d := if due.isEmpty then d else d.setSu u { x with pend := x.pend.drop due.length }
  due.foldl (fun d p => match p.2 with
    | some e => d.suPair u e p.1
    | none => d) d

/-! ### The other functions (R279 to R281) -/

/-- PERIOD (R279): a batch whose limit has passed ends before the stamp, and the next begins with the stamp they share. -/
def Dev.suPeriod (d : Dev) (u : Nat) (s : SuItem) : Dev :=
  let d := d.suLimit u s.t
  let x := d.su u
  let d := d.setSu u { x with prev := some s, last := some s, reg := x.reg.put s.t s.k }
  match x.prev with
  | some p => d.suSample u ((s.t : Int) - p.t) s.t s.w (BitVec.ofNat 5 p.flags ||| BitVec.ofNat 5 s.flags).toNat [p, s]
  | none => d

/-- PHASE (R280). -/
def Dev.suPhase (d : Dev) (u : Nat) (isA : Bool) (s : SuItem) : Dev :=
  let x := d.su u
  if isA then
    let d := d.setSu u { x with prev := some s, bs := [] }
    match x.prev with
    | some p =>
      if s.t ≤ p.t then d
      else x.bs.foldl (fun d b =>
        let phi : Int := divRound ((b.t - p.t) * 2 ^ 64) (s.t - p.t)
        let phi := if bit (x.c 0) 26 ∧ (2 : Int) ^ 63 ≤ phi then phi - 2 ^ 64 else phi
        d.suSample u phi b.t b.w (BitVec.ofNat 5 p.flags ||| BitVec.ofNat 5 b.flags ||| BitVec.ofNat 5 s.flags).toNat []) d
    | none => d
  else if x.prev.isSome then d.setSu u { x with bs := x.bs ++ [s] }
  else d

/-- The instant at which gate g starts (R281). -/
def Dev.gateAt (d : Dev) (u g : Nat) : Nat :=
  let x := d.su u
  x.since + d.periods (g * max 1 (fld (x.c 3) 0 24))

/-- The gate in progress closes (R281). -/
def Dev.suGate (d : Dev) (u : Nat) : Dev :=
  let x := d.su u
  let stop := d.gateAt u (x.gate + 1)
  let gap := decide (d.gateAt u x.gate < x.gapTo)
  let d := d.setSu u { x with gate := x.gate + 1, gateN := 0, gateFlags := 0 }
  if gap then
    let x := d.su u
    d.setSu u { x with batch := { x.batch with gaps := x.batch.gaps + 1 } }
  else d.suSample u x.gateN stop (d.timeWord 2 true stop) x.gateFlags []

/-- Every gate that ends at or before an instant closes. -/
def Dev.suGatesTo (d : Dev) (u t : Nat) : Dev :=
  let len := d.periods (max 1 (fld ((d.su u).c 3) 0 24))
  let n := if len = 0 then 0 else (t - d.gateAt u (d.su u).gate) / len + 1
  (List.range n).foldl (fun d _ => if d.gateAt u ((d.su u).gate + 1) ≤ t then d.suGate u else d) d

/-- TOTAL: a stamp counts in the gate its time lies in (R281). -/
def Dev.suTotal (d : Dev) (u : Nat) (s : SuItem) : Dev :=
  let d := d.suGatesTo u s.t
  let x := d.su u
  d.setSu u { x with gateN := x.gateN + 1, gateFlags := (BitVec.ofNat 5 x.gateFlags ||| BitVec.ofNat 5 s.flags).toNat }

/-! ### The merged stamps (R271 to R274) -/

/-- The edge is selected (R274). -/
def edgeSelected (sel : Nat) (rising : Bool) : Bool :=
  if sel = 1 then rising else if sel = 2 then !rising else true

/-- One step of the rejection scan (R272, R273): how many stamps it removed, and the input after it. `done` says that the candidate's hold has passed; stamps of the present or a later time wait, so that a commit still finds them (R292). -/
def SuIn.scan1 (i : SuIn) (now rej sel : Nat) (done : Bool) : Nat × SuIn :=
  let keep := fun (i : SuIn) (s : SuItem) =>
    if edgeSelected sel s.edge then { i with live := i.live ++ [{ s with k := s.k - i.off }] } else i
  match i.cand, i.buf with
  | none, [] => (0, i)
  | some c, [] => if done then (0, keep { i with cand := none } c) else (0, i)
  | none, s :: r =>
    if now ≤ s.t then (0, i)
    else
      let i := { i with buf := r }
      if s.kind ≠ 0 then (0, { i with live := i.live ++ [s] })
      else if rej = 0 then (0, keep i s)
      else (0, { i with cand := some s })
  | some c, s :: r =>
    if s.kind ≠ 0 then (0, keep { i with cand := none } c)
    else if (s.t - c.t) * 10 ^ 12 < rej * 2 ^ 64 then
      if now ≤ s.t then (0, i) else (2, { i with buf := r, cand := none, off := i.off + 2 })
    else (0, keep { i with cand := none } c)

/-- The rejection scan of an input, as far as it can go. -/
def SuIn.scan (i : SuIn) (now rej sel progress : Nat) (close : Bool) : Nat × SuIn :=
  (List.range (2 * i.buf.length + 2)).foldl (fun a _ =>
    let done := close || (match a.2.cand with
      | some c => decide (c.t * 10 ^ 12 + rej * 2 ^ 64 ≤ progress * 10 ^ 12)
      | none => false)
    let r := a.2.scan1 now rej sel done
    (a.1 + r.1, r.2)) (0, i)

/-- The time of an input's first stamp not yet processed, or its progress. -/
def SuIn.front (i : SuIn) (progress : Nat) : Nat :=
  match i.live, i.cand, i.buf with
  | s :: _, _, _ => s.t
  | [], some c, _ => c.t
  | [], none, s :: _ => s.t
  | [], none, [] => progress

/-- T_c of the configuration that waits first. -/
def SuSt.until_ (x : SuSt) : Option Nat := x.nexts.head?.map fun n => n.at_

/-- The inputs of a unit are scanned (R272). -/
def Dev.suScan (d : Dev) (u : Nat) : Dev :=
  let x := d.su u
  let c := x.c 0
  let pa := d.eiProgress (suInA c)
  let pb := d.eiProgress (suInB c)
  let close := fun p => match x.until_ with
    | some t => decide (t ≤ p)
    | none => false
  let a := x.a.scan d.now x.rej (suEdgeA c) pa (close pa)
  let b := x.b.scan d.now x.rej (suEdgeB c) pb (close pb)
  let n := a.1 + (if suInA c = suInB c then 0 else b.1)
  let d := d.setSu u { x with a := a.2, b := b.2, batch := { x.batch with rejected := x.batch.rejected + n } }
  if n = 0 then d else d.addSat (Reg.SU_REJECTED u) n

/-- How far IN_A is known: the time of its first stamp not yet processed, or its progress. -/
def Dev.suFrontA (d : Dev) (u : Nat) : Nat := (d.su u).a.front (d.eiProgress (suInA ((d.su u).c 0)))

/-- A GAP at its place in the unit's flow (R278, R283, R291). -/
def Dev.suGap (d : Dev) (u : Nat) (isA : Bool) (g : SuItem) : Dev :=
  let c := (d.su u).c 0
  if !isA ∧ suInA c = suInB c then d
  else
    let total := suFunc c = 4
    let d := if total then d.suGatesTo u g.t else d
    let d := d.suBreak u
    let d := d.suClose u (if g.cause = 0x39 then 0x5 else 0x4)
    let x := d.su u
    let b := x.batch
    let d := d.setSu u { x with gapTo := max x.gapTo (max g.t1 (g.t + 1)), batch := { b with gapped := true, gaps := b.gaps + b2n (!total) } }
    d.suFlow u 0x09 g.w (decide (g.flags / 16 % 2 = 1)) (gapPayload g.cause 4 g.k.toNat g.w g.w1)

/-- The input is disabled (R278, R283, R289). Its index begins again at the next enable, so the regression does too. -/
def Dev.suDisable (d : Dev) (u : Nat) : Dev :=
  let d := ((d.suBreak u).suEndBatch u).suClose u 0x1
  let x := d.su u
  d.setSu u { x with last := none, reg := if bit (x.c 0) 25 then x.reg else {} }

/-- One item of IN_A or IN_B. -/
def Dev.suItem (d : Dev) (u : Nat) (isA : Bool) (s : SuItem) : Dev :=
  let c := (d.su u).c 0
  if s.kind = 1 then d.suGap u isA s
  else if s.kind = 2 then d.suDisable u
  else
    match suFunc c with
    | 1 => if bit c 27 then d.suSigned u isA s else d.suOrdered u isA s
    | 2 => d.suPeriod u s
    | 3 => d.suPhase u isA s
    | 4 => d.suTotal u s
    | _ => d

/-- A running overrun of an input ends: its GAP takes its place (R286). -/
def Dev.suOverEnd (d : Dev) (u : Nat) (isA : Bool) : Dev :=
  let x := d.su u
  match (if isA then x.a.overrun else x.b.overrun) with
  | none => d
  | some g => (d.setSu u (if isA then { x with a := { x.a with overrun := none } } else { x with b := { x.b with overrun := none } })).suGap u isA g

/-- A commit that waits for the inputs' progress takes force in the unit (R292). -/
def Dev.suSwitch (d : Dev) (u : Nat) (n : SuNext) (rest : List SuNext) : Dev :=
  let c := (d.su u).c 0
  let d := d.suDecide u (min n.at_ (d.suFrontA u))
  let d := (d.suOverEnd u true).suOverEnd u false
  let d := if suFunc c = 4 then d.suGatesTo u n.at_ else d
  let d := d.suBreak u
  let d := d.suEndBatch u
  let d := d.suClose u 0x2
  let x := d.su u
  d.setSu u { cfg := n.cfg, since := n.at_, nexts := rest, a := n.a, b := n.b, sw := (x.sw + 1) % 2 ^ 28,
              gapTo := max n.gapTo (if suInA c = suInA (nth n.cfg 0 0) then x.gapTo else 0),
              skipFrom := x.skipFrom, skips := x.skips, skipCond := x.skipCond }

/-- The transition of R292, once every stamp before T_c has been processed. -/
def Dev.suTryNext (d : Dev) (u : Nat) : Dev :=
  let d := if (d.su u).nexts.isEmpty then d else d.suScan u
  let x := d.su u
  let c := x.c 0
  match x.nexts with
  | [] => d
  | n :: rest =>
    let fb := if suUsesB c then x.b.front (d.eiProgress (suInB c)) else n.at_
    if suOn c ∧ (d.suFrontA u < n.at_ ∨ fb < n.at_) then d else d.suSwitch u n rest

/-- A unit processes a stamp (R271): the earliest one that the other input's progress has passed, IN_A's first at equal times. Stops whose decision point IN_A has passed by then are decided first (R277). -/
def stampProcess (u : Nat) (d : Dev) : Dev :=
  let d := d.suScan u
  let d := d.suDecide u (d.suFrontA u)
  let x := d.su u
  let c := x.c 0
  let fa := d.suFrontA u
  let fb := x.b.front (d.eiProgress (suInB c))
  let useB := suUsesB c
  let d :=
    match x.a.live, x.b.live with
    | s :: r, bl =>
      let idle := bl.isEmpty && x.b.cand.isNone && x.b.buf.isEmpty
      if !useB || (if idle then decide (s.t < fb) else decide (s.t ≤ fb)) then
        (d.setSu u { x with a := { x.a with live := r } }).suItem u true s
      else match bl with
        | s' :: r' => if s'.t < s.t then (d.setSu u { x with b := { x.b with live := r' } }).suItem u false s' else d
        | [] => d
    | [], s :: r => if s.t < fa then (d.setSu u { x with b := { x.b with live := r } }).suItem u false s else d
    | [], [] => d
  let d := d.suDecide u (d.suFrontA u)
  (d.suTryNext u).suShow u

/-- A TOTAL gate closes (R281). -/
def gateClose (u : Nat) (d : Dev) : Dev :=
  let x := d.su u
  let c := x.c 0
  let stop := d.gateAt u (x.gate + 1)
  if suOn c ∧ suFunc c = 4 ∧ stop ≤ d.suFrontA u then (d.suGate u).suShow u else d

/-- A batch ends at its time limit (R283), once the stamps before it have been processed. -/
def batchTimeLimit (u : Nat) (d : Dev) : Dev :=
  let x := d.su u
  let c := x.c 0
  match x.limit with
  | none => d
  | some l =>
    let fb := if suUsesB c then x.b.front (d.eiProgress (suInB c)) else l
    if l ≤ d.suFrontA u ∧ l ≤ fb ∧ l ≤ d.now then (d.suEndBatch u).suShow u else d

/-- An INTERVAL record closes for AGE (R289). -/
def suRecordAge (u : Nat) (d : Dev) : Dev :=
  let x := d.su u
  match x.open_ with
  | some r => if r.opened + d.periods (64 * max 1 (fld (x.c 5) 0 20)) ≤ d.up then d.suClose u 0x8 else d
  | none => d

/-! ### Delivery from the edge inputs (R270, R286) -/

/-- The stamps a unit holds for an input. -/
def SuIn.count (i : SuIn) : Nat := i.buf.length + i.live.length + b2n i.cand.isSome

/-- An item enters a unit's buffer, or is lost (R286): `full` says that the buffer has no room for it. The GAP's END lies just behind the last lost stamp (R517; log entry 100). The flag says that it was lost. -/
def SuIn.take (i : SuIn) (full : Bool) (s : SuItem) : SuIn × Bool :=
  if s.kind ≠ 0 then ({ i with buf := i.buf ++ [s] }, false)
  else match i.overrun with
    | some g => ({ i with overrun := some { g with t1 := s.t + 1, w1 := s.w + 2 ^ 16, k := g.k + 1, flags := (BitVec.ofNat 5 g.flags ||| BitVec.ofNat 5 s.flags).toNat } }, true)
    | none =>
      if !full then ({ i with buf := i.buf ++ [s] }, false)
      else
        let g : SuItem := { kind := 1, t := s.t, t1 := s.t + 1, w := s.w, w1 := s.w + 2 ^ 16, k := 1, cause := 0x3B, flags := s.flags }
        ({ i with overrun := some g }, true)

/-- The stamps a unit holds for IN_A, or for IN_B, those of configurations that wait among them. -/
def SuSt.held4096 (x : SuSt) (isA : Bool) : Nat :=
  x.nexts.foldl (fun k n => k + (if isA then n.a.count else n.b.count)) (if isA then x.a.count else x.b.count)

/-- A buffer has no room: 4,096 stamps are in it, or an overrun of it runs. -/
def SuSt.full (x : SuSt) (isA : Bool) : Bool :=
  decide (4096 ≤ x.held4096 isA) || (if isA then x.a.overrun.isSome || x.nexts.any fun n => n.a.overrun.isSome
    else x.b.overrun.isSome || x.nexts.any fun n => n.b.overrun.isSome)

/-- A waiting configuration takes an item of input n; of a GAP that began before its T_c it notes the end. -/
def SuNext.take (x : SuSt) (v : SuNext) (n : Nat) (s : SuItem) : SuNext × Bool :=
  let c := nth v.cfg 0 0
  let a := if suOn c ∧ suInA c = n then v.a.take (x.full true) s else (v.a, false)
  let b := if suOn c ∧ suUsesB c ∧ suInB c = n then v.b.take (x.full false) s else (v.b, false)
  ({ v with a := a.1, b := b.1 }, a.2 || b.2)

/-- A unit takes an item of input n (R270, R292): the last configuration whose T_c is not later than its time; a GAP that reaches beyond a T_c keeps the gates after it from giving samples. -/
def Dev.suTake (d : Dev) (u n : Nat) (s : SuItem) : Dev :=
  let x := d.su u
  let early := x.nexts.takeWhile fun v => decide (v.at_ ≤ s.t)
  let late := (x.nexts.drop early.length).map fun v =>
    if v.at_ < s.t1 ∧ suInA (nth v.cfg 0 0) = n then { v with gapTo := max v.gapTo s.t1 } else v
  match early.getLast? with
  | some v =>
    let r := SuNext.take x v n s
    let d := d.setSu u { x with nexts := early.dropLast ++ r.1 :: late }
    if r.2 then d.sqEvent Reg.SU_STATUS 3 1330 else d
  | none =>
    let x := { x with nexts := late }
    if suOn (x.c 0) ∧ x.since ≤ max s.t s.t1 then
      let c := x.c 0
      let a := if suInA c = n then x.a.take (x.full true) s else (x.a, false)
      let b := if suUsesB c ∧ suInB c = n then x.b.take (x.full false) s else (x.b, false)
      let d := d.setSu u { x with a := a.1, b := b.1 }
      if a.2 ∨ b.2 then d.sqEvent Reg.SU_STATUS 3 1330 else d
    else d.setSu u x

/-- Every unit that reads input n takes an item (R270). -/
def Dev.suFeed (d : Dev) (n : Nat) (s : SuItem) : Dev :=
  (d.stats.units.map fun e => e.1).foldl (fun d u => d.suTake u n s) d

/-- A unit resumes once its buffer has drained (R286): the GAP of the lost stamps takes its place. -/
def suOverrunResume (u : Nat) (d : Dev) : Dev :=
  let x := d.su u
  let go := fun (held : Nat) (i : SuIn) => match i.overrun with
    | some g => if held < 2048 then { i with buf := i.buf ++ [g], overrun := none } else i
    | none => i
  let ga := go (x.held4096 true)
  let gb := go (x.held4096 false)
  d.setSu u { x with a := ga x.a, b := gb x.b, nexts := x.nexts.map fun n => { n with a := ga n.a, b := gb n.b } }

/-! ### Commands (R292, R295) -/

/-- Two edge selections share an edge (R292). -/
def sharesEdge (a b : Nat) : Bool := a % 3 == 0 || b % 3 == 0 || a == b

/-- A configuration that a commit refuses (R292). -/
def suBad (c : Word) : Bool :=
  decide (5 ≤ suFunc c) || (suFunc c == 3 && suInA c == suInB c)
    || (suFunc c == 1 && suInA c == suInB c && sharesEdge (suEdgeA c) (suEdgeB c))

/-- SU_CMD COMMIT (R292). -/
def suCommit (d : Dev) : Dev :=
  if d.stats.commitAt.isSome then d
  else if (List.range 16).any fun u => suBad (d.rd (Reg.SU_CFG u)) then (d.setB Reg.SU_STATUS 6).event Reg.SU_STATUS 1328
  else
    let at0 := ofShort (d.n64 Reg.SU_COMMIT_AT_LO Reg.SU_COMMIT_AT_HI)
    let d := d.setB Reg.SU_STATUS 0
    if at0 < d.now then (d.setB Reg.SU_STATUS 5) |> fun d => { d with stats := { d.stats with commitAt := some (d.now + 1) } }
    else { d with stats := { d.stats with commitAt := some at0 } }

/-- SU_CMD CANCEL_COMMIT (R198, R292). -/
def suCancel (d : Dev) : Dev :=
  { d.clrB Reg.SU_STATUS 0 with stats := { d.stats with commitAt := none } }

/-- The stamps of input n at or after T_c that a unit has taken already: their times lie ahead of the present (R292). -/
def SuSt.ahead (x : SuSt) (n t : Nat) : List SuItem :=
  let c := x.c 0
  (if suInA c = n then x.a.buf else if suUsesB c ∧ suInB c = n then x.b.buf else []).filter fun s => t ≤ s.t

/-- A unit is to take a configuration at T_c (R292). -/
def SuSt.queue (x : SuSt) (p : List Word) (t : Nat) : SuSt :=
  let c := nth p 0 0
  let ahead := fun (n : Nat) => if x.nexts.isEmpty then x.ahead n t else []
  let v : SuNext := { cfg := p, at_ := t, a := { buf := if suOn c then ahead (suInA c) else [] }, b := { buf := if suOn c ∧ suUsesB c then ahead (suInB c) else [] } }
  let cut := fun (i : SuIn) => { i with buf := i.buf.filter fun s => s.t < t }
  let x := if x.nexts.isEmpty then { x with a := cut x.a, b := cut x.b } else x
  { x with nexts := x.nexts ++ [v] }

/-- The configuration a unit will have once every taken one is in force. -/
def SuSt.newest (x : SuSt) : List Word :=
  match x.nexts.getLast? with
  | some n => n.cfg
  | none => if x.cfg.isEmpty then suResetCfg else x.cfg

/-- The bank takes force (R292): each changed unit changes over in stamp-time order. -/
def suCommitTake (d : Dev) : Dev :=
  match d.stats.commitAt with
  | none => d
  | some t =>
    if d.now < t then d
    else
      let d := { d.clrB Reg.SU_STATUS 0 with stats := { d.stats with commitAt := none, bank := d.regs.filter fun r => suBankKey r.1 } }
      let d := d.add Reg.SU_COMMITS 1
      let d := (List.range 16).foldl (fun d u =>
        let x := d.su u
        let p := d.suPending u
        if p = x.newest then d else ((d.setSu u (x.queue p d.now)).suTryNext u).suShow u) d
      d.event Reg.SU_STATUS 1328

/-- SU_CMD FLUSH (R278, R283, R295): without an open batch or record it has no effect; otherwise every unit's pairing state closes, its batch ends and its record closes. -/
def suFlush (d : Dev) : Dev :=
  let us := d.stats.units.map fun e => e.1
  if us.any fun u => (d.su u).batch.live || (d.su u).open_.isSome then
    us.foldl (fun d u => ((((d.suDecide u (d.suFrontA u)).suUnpair u).suEndBatch u).suClose u 0xA).suShow u) d
  else d

/-- SU_CMD CLEAR_COUNTS (R295). -/
def suClearCounts (d : Dev) : Dev :=
  (List.range 16).foldl (fun d u => ((d.wr (Reg.SU_ORPHANS u) 0).wr (Reg.SU_REJECTED u) 0).wr (Reg.SU_EXCLUDED u) 0) d

end Sys2Proof.Machine
end

