-- ==== Sys2Proof/Machine/Edge.lean ====
section
/-! DEFINITION. The edge inputs: stamps, queues, blocks, ramps, enables, faults, calibration and the commit (chapter Edge Inputs and Time Stamps). -/
namespace Sys2Proof.Machine

/-! ### Configuration in force -/

/-- The keys of the pending bank (R265). -/
def eiBankKey (k : Nat) : Bool :=
  let o := keyOff k
  keyBlock k == 0x14 && decide (0x100 ≤ o) && decide (o < 0x900) && decide (o % 128 < 0x14)

/-- A field of EI_CFG in force. -/
def Dev.eiF (d : Dev) (n lo len : Nat) : Nat := fld (d.eb (Reg.EI_CFG n)) lo len

/-- The input is at or after T_EN. -/
def Dev.eiOn (d : Dev) (n : Nat) : Bool := d.on (Reg.EI_STATE n) 31

/-- The interpolator is retired (R248). -/
def Dev.ipRetired (d : Dev) (n ip : Nat) : Bool := d.on (Reg.EI_STATE n) (22 + ip)

/-- The input runs INTERLEAVED: with one interpolator retired it runs in SINGLE mode (R245, R248). -/
def Dev.eiIlv (d : Dev) (n : Nat) : Bool := d.eiF n 25 1 == 1 && !d.ipRetired n 0 && !d.ipRetired n 1

/-- LIVE_IP. -/
def Dev.eiLive (d : Dev) (n : Nat) : Nat := d.f (Reg.EI_STATE n) 29 1

/-- A field of EI_CFG as the crossings of the input meet it. -/
def Dev.epF (d : Dev) (n lo len : Nat) : Nat := fld (d.ep n (Reg.EI_CFG n)) lo len

/-- The crossings of the input meet INTERLEAVED mode. -/
def Dev.epIlv (d : Dev) (n : Nat) : Bool := d.epF n 25 1 == 1 && !(d.eiSt n).solo

/-- PHYS of the input's records (R261). -/
def Dev.eiPhys (d : Dev) (n : Nat) : Nat := if d.epIlv n then 0xFF else (d.eiSt n).ip

/-- The queue depth B (R245). -/
def Dev.eiDepth (d : Dev) (n : Nat) : Nat := if d.epIlv n then 2048 else 32

/-- The code table of an interpolator. -/
def EiSt.tab (x : EiSt) (ip : Nat) : IpTab := if ip = 0 then x.tab0 else x.tab1

/-- Installs a code table. -/
def EiSt.setTab (x : EiSt) (ip : Nat) (t : IpTab) : EiSt := if ip = 0 then { x with tab0 := t } else { x with tab1 := t }

/-- Entry c of the nominal linear table (R268): the centre of code c of N equal ones (log entry 34). -/
def nominalF (c : Nat) : Word :=
  let n := max 1 Config.nominalCodes
  BitVec.ofNat 32 (min (2 ^ 32 - 1) ((2 * c + 1) * 2 ^ 31 / n))

/-- F of a code, and RANGE for a code outside the live range, which takes the nearest live code (R251). -/
def IpTab.look (t : IpTab) (c : Nat) : Nat × Bool :=
  let k := min c (t.ncodes - 1)
  ((if t.f.isEmpty then nominalF k else nth t.f k 0).toNat, decide (t.ncodes ≤ c))

/-- τ(c) = rhu(F × P, 32), with P the exact REF_IN period (R250). -/
def Dev.tau (d : Dev) (f : Nat) : Nat :=
  let den := max 1 d.tb.remDen
  (2 * f * (d.tb.period * den + d.tb.remNum) + 2 ^ 32 * den) / (2 ^ 33 * den)

/-- The threshold code in force at update u of a ramp (R243), or at rest (u = 0). -/
def Dev.threshAt (d : Dev) (n u : Nat) : Nat :=
  (clampI 0 65535 ((d.eiF n 0 16 : Int) + rshr ((u : Int) * sfld (d.eb (Reg.EI_RAMP n)) 16 16) 8)).toNat

/-- RAMP_LEN; 0 acts as 1 (R265). -/
def Dev.rampLen (d : Dev) (n : Nat) : Nat := max 1 (fld (d.eb (Reg.EI_RAMP_LEN n)) 0 24)

/-- THRESH_NOW (R243, R267): the update after RAMP_LEN returns to THRESH. -/
def Dev.threshNow (d : Dev) (n : Nat) : Nat :=
  match (d.eiSt n).ramp with
  | some r => let u := (d.tb.edges - r.1) / 8; if u ≤ d.rampLen n then d.threshAt n u else d.eiF n 0 16
  | none => d.eiF n 0 16

/-- TRIM in force, in LSB (R237, R259, R260): one that was written later waits for the next block boundary. -/
def Dev.trimNow (d : Dev) (n : Nat) : Int := sfld (BitVec.ofNat 32 ((d.eiSt n).trimWas.getD (d.n (Reg.THR_TRIM n)))) 0 16

/-- The code at the threshold DAC, clamped (R237): V_TH = −1.0 V + code × 3.0 V / 65,536. It is what THR_RB_SEL presents to AX30 (R240). -/
def Dev.dacCode (d : Dev) (n : Nat) : Nat := (clampI 0 65535 ((d.threshNow n : Int) + d.trimNow n)).toNat

/-- The word EI_STATE reads (R267). -/
def Dev.eiStateRead (d : Dev) (n : Nat) : Word := put (d.rd (Reg.EI_STATE n)) 0 16 (d.threshNow n)

/-! ### Blocks and records (R261 to R264) -/

/-- A record of the stamp writer for an input: to its region, and to the windows that take its stamps directly (R261, R319); a record formed from excess requests is carried at class 1 (R24). -/
def Dev.stampEmit (d : Dev) (n : Nat) (hdr : Hdr) (payload : List Word128) (excess : Bool) : Dev :=
  let p := d.form hdr payload
  let d := (p.1.push (96 + n) p.2).tapStamps n p.2
  if excess then { d with slow := d.slow ++ [p.2] } else d

/-- A static change of the threshold: crossings of the next 20 ns carry THR_SETTLE (R239). -/
def Dev.eiSettle (d : Dev) (n : Nat) : Dev := d.setEi n { d.eiSt n with settles := (d.eiSt n).settles ++ [d.up] }

/-- BLOCK_AGE has passed since a block's first entry (R264). -/
def Dev.eiAged (d : Dev) (n : Nat) (b : EiBlk) : Bool :=
  decide (b.opened + d.periods (64 * max 1 (fld (d.ep n (Reg.EI_BLOCK n)) 0 20)) ≤ d.up)

/-- The open block closes; of several causes that apply, CLOSE holds the lowest (R264). A waiting trim takes force at the boundary (R259, R260). -/
def Dev.eiClose (d : Dev) (n close : Nat) : Dev :=
  let x := d.eiSt n
  match x.blk with
  | none => d
  | some b =>
    let code := if x.trimWas.isSome then min close 0x3 else close
    let code := if d.eiAged n b then min code 0x8 else code
    let init := match b.init with
      | some (t, level) => 2 ^ 109 + b2n level * 2 ^ 108 + b2n (decide (x.unk = some t)) * 2 ^ 107
      | none => 0
    let w2 := BitVec.ofNat 128 (b.ents.length * 2 ^ 116 + b.base + init + b2n b.uncal * 2 ^ 106 + code * 2 ^ 102)
    let body := (chunks 2 b.ents).map fun c => packBE 128 [(nth c 0 0, 64), (nth c 1 0, 64)]
    let hdr : Hdr := { typ := 0x04, src := 0x3000 + n, phys := b.phys, flags := b2n (b.cond || d.cond b.t0) * 128, sw := b.sw, time := b.w }
    let d := (d.setEi n { x with blk := none, trimWas := none }).stampEmit n hdr (w2 :: body) b.excess
    if x.trimWas.isSome then d.eiSettle n else d

/-- A trim waits for the next block boundary; with no block open it takes force at once (R259, R260). -/
def Dev.eiTrim (d : Dev) (n trim : Nat) : Dev :=
  let x := d.eiSt n
  let was := d.n (Reg.THR_TRIM n)
  let d := d.wrN (Reg.THR_TRIM n) (trim % 2 ^ 16)
  match x.blk with
  | some _ => d.setEi n { x with trimWas := some (x.trimWas.getD was) }
  | none => d.eiSettle n

/-- The fields of word 2 that are fixed when a block opens (R262). -/
def Dev.eiBase (d : Dev) (n first : Nat) : Nat :=
  let x := d.eiSt n
  b2n (d.epIlv n) * 2 ^ 115 + d.eiPrescale n * 2 ^ 113 + d.eiEdges n * 2 ^ 111 + d.epF n 24 1 * 2 ^ 110 + d.epF n 0 16 * 2 ^ 80
    + x.tab0.gen % 256 * 2 ^ 72 + x.tab1.gen % 256 * 2 ^ 64 + first % 2 ^ 64

/-- An entry joins the open block, or opens one; COND and SPAN close before it, FULL after it (R264). `bits` are the entry's bits 63 to 57; OFFSET is modulo 2^56, since an entry's time may lie before the header's (log entry 101). -/
def Dev.eiEntry (d : Dev) (n t : Nat) (w : Word128) (bits : Nat) (cond excess uncal : Bool) (index : Nat) : Dev :=
  let d := match (d.eiSt n).blk with
    | some b => if b.cond ≠ cond then d.eiClose n 0x6 else if b.t0 + 2 ^ 56 ≤ t then d.eiClose n 0x7 else d
    | none => d
  let x := d.eiSt n
  let b : EiBlk := match x.blk with
    | some b => { b with excess := b.excess || excess, uncal := b.uncal || uncal, ents := b.ents ++ [bits * 2 ^ 57 + wrapU 56 ((t : Int) - b.t0)] }
    | none => ⟨t, w, d.up, cond, excess, uncal, d.eiBase n index, d.eiPhys n, x.sw, x.init, [bits * 2 ^ 57]⟩
  let d := d.setEi n { x with blk := some b, init := none }
  if fld (d.ep n (Reg.EI_BLOCK n)) 21 11 + 1 ≤ b.ents.length then d.eiClose n 0x9 else d

/-- A GAP of stamps is written and given to the statistics units (R25, R247, R248, R291). -/
def Dev.eiGap (d : Dev) (n cause : Nat) (g : EiGap) (t1 : Nat) (w1 : Word128) : Dev :=
  let x := d.eiSt n
  let c := d.cond g.t0
  let d := d.stampEmit n { typ := 0x09, src := 0x3000 + n, phys := g.phys, flags := b2n c * 128, sw := x.sw, time := g.w }
    (gapPayload cause 4 g.count g.w w1) false
  d.suFeed n { kind := 1, t := g.t0, t1 := t1, w := g.w, w1 := w1, k := g.count, cause := cause, flags := b2n c * 16 }

/-- A waiting STAMP_LOSS GAP ends at an instant (R247). -/
def Dev.eiLossEnd (d : Dev) (n t : Nat) (w : Word128) : Dev :=
  let x := d.eiSt n
  match x.gap with
  | some g => (d.setEi n { x with gap := none }).eiGap n 0x38 g t w
  | none => d

/-- A waiting EDGE_FAULT GAP ends at an instant (R248). -/
def Dev.eiFaultEnd (d : Dev) (n t : Nat) (w : Word128) : Dev :=
  let x := d.eiSt n
  match x.fault with
  | some g => (d.setEi n { x with fault := none }).eiGap n 0x39 g t w
  | none => d

/-! ### Changes that crossings meet in order (R242, R243, R248, R255, R256) -/

/-- A change takes place now: crossings at or after this instant meet it. -/
def Dev.eiPut (d : Dev) (n : Nat) (a : EiAct) : Dev :=
  let x := d.eiSt n
  d.setEi n { x with lag := x.lag ++ [⟨d.up, d.now, a⟩] }

/-- The cause for which a change closes the open block (R264). -/
def EiAct.close : EiAct → Option Nat
  | .bank _ off _ => some (if off then 0x1 else 0x2)
  | .tables _ _ => some 0x3
  | .fault _ => some 0x5
  | _ => none

/-- A table as it takes force: a restored image keeps what is known of its interpolator (R251, R260). -/
def EiSt.install (x : EiSt) (v : IpNew) : EiSt :=
  let o := x.tab v.ip
  x.setTab v.ip (if v.image then { v.tab with cal := o.cal, meanBin := o.meanBin, gen := o.gen } else v.tab)

/-- The crossings of an input meet a change; the open block has closed where it closes one. -/
def Dev.eiMeet (d : Dev) (n : Nat) (l : EiLag) : Dev :=
  let x := d.eiSt n
  match l.act with
  | .enable level pre =>
    d.setEi n { x with on := true, idx := 0, init := some (l.at_, level), level := some level, pre := pre, alt := 0 }
  | .bank words off w =>
    let d := d.setEi n { x with bank := words, sw := (x.sw + 1) % 2 ^ 28 }
    if off then
      let d := (d.eiLossEnd n l.t w).eiFaultEnd n l.t w
      let d := d.setEi n { d.eiSt n with on := false, losing := false }
      d.suFeed n { kind := 2, t := l.t, t1 := l.t, w := w }
    else d
  | .tables vs ip => d.setEi n { vs.foldl (fun x v => x.install v) x with ip := ip.getD x.ip }
  | .live ip => d.setEi n { x with ip := ip }
  | .mark w => if x.on then d.eiEntry n l.t w 2 (d.cond l.t) false false x.idx else d
  | .fault w =>
    let d := d.eiLossEnd n l.t w
    d.setEi n { d.eiSt n with fault := some ⟨l.t, w, 0, d.eiPhys n⟩, solo := true }
  | .takeover ip w =>
    let d := d.eiFaultEnd n l.t w
    d.setEi n { d.eiSt n with ip := ip }

/-- The changes of one instant are met: a block closes for the lowest of their causes (R264). -/
def Dev.eiMeetAll (d : Dev) (n : Nat) (l : List EiLag) : Dev :=
  let d := match l.filterMap fun v => v.act.close with
    | [] => d
    | c :: r => d.eiClose n (r.foldl min c)
  l.foldl (fun d v => d.eiMeet n v) d

/-- The changes at or before an instant are met, instant by instant; the fuel is their number. -/
def Dev.eiDrain : Nat → Nat → Nat → Dev → Dev
  | 0, _, _, d => d
  | k + 1, n, t, d =>
    let x := d.eiSt n
    match x.lag with
    | [] => d
    | l :: _ =>
      if t < l.at_ then d
      else
        let g := x.lag.takeWhile fun v => v.at_ = l.at_
        Dev.eiDrain k n t ((d.setEi n { x with lag := x.lag.drop g.length }).eiMeetAll n g)

/-- Changes at or before an instant are met by an input. -/
def Dev.eiReach (d : Dev) (n t : Nat) : Dev := Dev.eiDrain (d.eiSt n).lag.length n t d

/-- Every crossing of an earlier instant has been captured: an interpolator is reached D_FIX after the ball and captures within one REF_IN period (R250). -/
def Dev.eiSeen (d : Dev) (n : Nat) : Nat := d.up - (d.eiFix n + d.periods 1 + 2)

/-- What no crossing can meet any more is done with: changes take place, and past settling and ramps are forgotten. -/
def Dev.eiCatch (d : Dev) (n : Nat) : Dev :=
  let t := d.eiSeen n
  let d := d.eiReach n t
  let x := d.eiSt n
  d.setEi n { x with settles := x.settles.filter fun s => !elapsedNs s t 20, ramped := x.ramped.filter fun r => t < r.2 }

/-- Every input does so. -/
def Dev.eiCatchAll (d : Dev) : Dev := (d.edge.ins.map fun e => e.1).foldl (fun d n => d.eiCatch n) d

/-! ### Crossings (R238, R244 to R247, R250, R251) -/

/-- A crossing beyond what can be taken is lost (R247, R248). -/
def Dev.eiLose (d : Dev) (n : Nat) : Dev := d.addSat (Reg.EI_LOST n) 1

/-- The time between stamps at the rate of an input's allotment, in 2^-80 s (R246). -/
def Dev.eiPeriod (d : Dev) (n : Nat) : Nat := 256 * 2 ^ 80 / ((d.epF n 16 8 + 1) * 500000000)

/-- The time the queue of an input takes for one stamp, in 2^-80 s: a free value, and no longer than the allotment's, so that what R246 promises is kept (log entry 44). -/
def Dev.eiService (d : Dev) (n : Nat) : Nat := max 1 (min (Config.edgeService n) (d.eiPeriod n))

/-- The stamps in the queue of an input at a time since release (R246, R247). -/
def Dev.eiQueued (d : Dev) (n t : Nat) : Nat :=
  let left := (d.eiSt n).busy - t * 2 ^ 16
  if left = 0 then 0 else (left + d.eiService n - 1) / d.eiService n

/-- The crossing at instant c carries THR_SETTLE (R239). -/
def EiSt.settling (x : EiSt) (c : Nat) : Bool := x.settles.any fun s => decide (s ≤ c) && !elapsedNs s c 20

/-- The crossing at instant c was taken while a ramp ran (R243). -/
def EiSt.ramping (x : EiSt) (c : Nat) : Bool :=
  (match x.ramp with | some r => decide (r.2 ≤ c) | none => false) || x.ramped.any fun r => decide (r.1 ≤ c) && decide (c < r.2)

/-- A crossing is lost at a full queue (R247): the block closes, and a GAP begins at the arrival at REF_IN resolution. -/
def Dev.eiLoss (d : Dev) (n : Nat) : Dev :=
  let x := d.eiSt n
  if x.losing then (d.eiLose n).setEi n { x with gap := x.gap.map fun g => { g with count := g.count + 1 } }
  else
    let d := (d.eiClose n 0x4).eiLose n
    let g := ((d.eiSt n).gap).getD ⟨d.now, d.timeWord 2 false d.now, 0, d.eiPhys n⟩
    (d.setEi n { d.eiSt n with losing := true, gap := some { g with count := g.count + 1 } }).sqEvent Reg.EI_STATUS 10 1297

/-- A selected crossing at instant c, of time t, is stamped: the allotment check, the queue, the entry and its delivery (R24, R246, R247, R250, R251). -/
def Dev.eiStamp (d : Dev) (n ip c t : Nat) (rising range near : Bool) (index : Nat) : Dev :=
  let x := d.eiSt n
  let depth := d.eiDepth n
  let losing := x.losing && decide (depth / 2 ≤ d.eiQueued n c)
  if losing ∨ depth ≤ d.eiQueued n c then (d.setEi n { x with losing := losing }).eiLoss n
  else
    let tab := x.tab ip
    let w := d.timeWord 2 true t
    let d := (d.setEi n { x with losing := false }).eiLossEnd n t w
    let inc := d.eiPeriod n
    let now := c * 2 ^ 16
    let tat := max now x.tat
    let excess := decide (depth * inc < tat - now + inc)
    let x := d.eiSt n
    let d := d.setEi n { x with tat := if excess then x.tat else tat + inc, busy := max now x.busy + d.eiService n }
    let d := if excess then ((d.addSat (Reg.EI_OVER n) 1).sqEvent Reg.EI_STATUS 9 1298).condOverAllot (0x3000 + n) else d
    let cond := excess || d.cond t
    let settle := x.settling c
    let uncal := !tab.cal || tab.stale
    let bits := b2n rising * 64 + ip * 32 + b2n near * 16 + b2n settle * 8 + b2n (x.ramping c) * 4 + b2n range
    let d := d.eiEntry n t w bits cond excess uncal index
    let flags := b2n near + b2n settle * 2 + b2n range * 4 + b2n uncal * 8 + b2n cond * 16
    d.suFeed n { kind := 0, t := t, w := w, edge := rising, k := index, flags := flags, beta := if tab.cal then tab.meanBin else 600 }

/-- The prescaler takes a crossing: its output crossing, if there is one (R244). The output falls half a cycle after it rises. -/
def Dev.eiPre (d : Dev) (n : Nat) (rising : Bool) : Dev × Option Bool :=
  let f := d.eiFactor n
  if f = 1 then (d, some rising)
  else if !rising then (d, none)
  else
    let x := d.eiSt n
    let k := (x.pre + 1) % f
    (d.setEi n { x with pre := k }, if k = 0 then some true else if k = f / 2 then some false else none)

/-- The interpolator that takes the next crossing, and what its table says of a fine code: τ and RANGE (R245, R250, R251). -/
def Dev.eiConvert (d : Dev) (n fine : Nat) : Nat × Nat × Bool :=
  let x := d.eiSt n
  let ip := if d.epIlv n then x.alt else x.ip
  let look := (x.tab ip).look fine
  (ip, d.tau look.1, look.2)

/-- A crossing of the prescaler's output (R183, R244, R245, R248): its pulse, and its stamp where its direction is selected. -/
def Dev.eiTakeUp (d : Dev) (n ip c t : Nat) (up range near : Bool) : Dev :=
  let d := d.pulse (if up then 384 + n else 400 + n) t 0xFF 0
  if !edgeSelected (d.eiEdges n) up then d
  else
    let x := d.eiSt n
    let d := d.setEi n { x with idx := x.idx + 1, alt := 1 - x.alt }
    let d := if x.enAt ≤ c then d.wr64 (Reg.EI_CROSS_LO n) (Reg.EI_CROSS_HI n) (x.idx + 1) else d
    match x.fault with
    | some g => (d.eiLose n).setEi n { d.eiSt n with fault := some { g with count := g.count + 1 } }
    | none => d.eiStamp n ip c t up range near x.idx

/-- A crossing of the threshold is captured at the present REF_IN edge with its fine code (R250). It crossed V_TH at the ball τ and D_FIX earlier, and meets the changes up to that instant. The comparator's level changes with every crossing (R238). -/
def edgeCrossing (n : Nat) (rising : Bool) (fine : Nat) (d : Dev) : Dev :=
  let c := d.up - (d.eiConvert n fine).2.1 - d.eiFix n
  let d := d.eiReach n c
  let x := d.eiSt n
  if x.level = some rising then d
  else
    let near := match x.last with
      | some l => !elapsedNs l c 1
      | none => false
    let d := d.setEi n { x with last := some c, level := some rising }
    if !x.on then d
    else
      let v := d.eiConvert n fine
      let t := ((d.now : Int) - v.2.1 - d.eiDelay n).toNat
      let p := d.eiPre n rising
      match p.2 with
      | none => p.1
      | some up => p.1.eiTakeUp n v.1 c t up v.2.2 near

/-- Stamping resumes once the queue has drained below B / 2 (R247). -/
def stampResume (n : Nat) (d : Dev) : Dev :=
  let x := d.eiSt n
  if x.losing ∧ d.eiQueued n d.up < d.eiDepth n / 2 then d.setEi n { x with losing := false } else d

/-- A block closes for AGE (R264). -/
def stampBlockAge (n : Nat) (d : Dev) : Dev :=
  let d := d.eiCatch n
  match (d.eiSt n).blk with
  | some b => if d.eiAged n b then d.eiClose n 0x8 else d
  | none => d

/-! ### Enable (R241, R242) -/

/-- PWR_READY sets 20 µs after the front end is powered. -/
def pwrReady (n : Nat) (d : Dev) : Dev :=
  match (d.eiSt n).pwrAt with
  | some t => if elapsedNs t d.up 20000 then d.setB (Reg.EI_STATE n) 30 else d
  | none => d

/-- The enable instant T_EN; the prescaler's phase after it is a free value (R244). -/
def edgeEnable (n : Nat) (level : Bool) (d : Dev) : Dev :=
  if d.eiF n 31 1 = 0 ∨ !d.on (Reg.EI_STATE n) 30 ∨ d.eiOn n then d
  else
    let x := d.eiSt n
    let auto := d.on Reg.EI_CAL_CTRL 31 && !x.enabledOnce
    let d := ((d.setB (Reg.EI_STATE n) 31).putB (Reg.EI_STATE n) 28 level).clrB (Reg.EI_STATE n) 27
    let d := d.wr64 (Reg.EI_CROSS_LO n) (Reg.EI_CROSS_HI n) 0
    let pre := Config.freeNat d.fresh % 4 ^ (if n < 4 then d.eiF n 26 2 % 3 else 0)
    let d := d.setEi n { x with enAt := d.up, window := some d.up, enabledOnce := true, autoDue := x.autoDue || auto }
    (d.eiPut n (.enable level pre)).draw

/-- The initial-state window (R241): with `near` the second pair of comparators sees the input between its levels; the window ends after 200 ns. -/
def initWindowEnd (n : Nat) (near : Bool) (d : Dev) : Dev :=
  let x := d.eiSt n
  match x.window with
  | some t =>
    let d := d.setEi n { x with window := if elapsedNs t d.up 200 then none else some t, unk := if near then some t else x.unk }
    if near then (d.setB (Reg.EI_STATE n) 27).sqEvent Reg.EI_STATUS 6 1301 else d
  | none => d

/-- 20 ns after a static change of the threshold (R239), once the crossings of that time are captured. -/
def thresholdSettled (n : Nat) (d : Dev) : Dev := d.eiCatch n

/-! ### Ramps (R243) -/

/-- RAMP_SRC pulses arrive: an input that waits for its source arms its ramp. -/
def Dev.eiRampPulses (d : Dev) (ps : List Pulse) : Dev :=
  if ps.isEmpty then d
  else (List.range 16).foldl (fun d n =>
    let x := d.eiSt n
    if d.eiF n 24 1 = 1 ∧ x.ramp.isNone ∧ x.rampPend.isNone
        ∧ ps.any (fun p => p.code = fld (d.eb (Reg.EI_RAMP n)) 0 9) then d.setEi n { x with rampPend := some d.tb.edges }
    else d) d

/-- The ramp starts at a DAC update instant, and writes its MARK. -/
def rampStart (n : Nat) (d : Dev) : Dev :=
  let x := d.eiSt n
  match x.rampPend with
  | some e =>
    if d.tb.edges % 8 ≠ 0 ∨ d.tb.edges ≤ e then d
    else
      let d := (d.setEi n { x with rampPend := none, ramp := some (d.tb.edges, d.up) }).setB (Reg.EI_STATE n) 26
      if d.eiOn n then d.eiPut n (.mark (d.timeWord 2 true d.now)) else d
  | none => d

/-- The ramp is over: the threshold returns to THRESH (R239). -/
def Dev.eiRampStop (d : Dev) (n : Nat) : Dev :=
  let x := d.eiSt n
  match x.ramp with
  | some r => ((d.setEi n { x with ramp := none, ramped := x.ramped ++ [(r.2, d.up)] }).eiSettle n).clrB (Reg.EI_STATE n) 26
  | none => d

/-- The update after RAMP_LEN ends the ramp. -/
def rampEnd (n : Nat) (d : Dev) : Dev :=
  match (d.eiSt n).ramp with
  | some r => if r.1 + 8 * (d.rampLen n + 1) ≤ d.tb.edges then d.eiRampStop n else d
  | none => d

/-! ### Calibration (R253 to R259) -/

/-- CAL_BUSY and CAL_DEFERRED of EI_STATUS follow the inputs (R266). -/
def Dev.eiShow (d : Dev) : Dev :=
  let any := fun (p : EiSt → Bool) => d.edge.ins.any fun e => p e.2
  (d.putB Reg.EI_STATUS 1 (any fun x => x.run.isSome)).putB Reg.EI_STATUS 2 (any fun x => x.deferred)

/-- A result enters CAL_RESULT (R258); MEAN_BIN stays unless it is given. -/
def Dev.calResult (d : Dev) (n code ip : Nat) (meanBin : Option Nat) : Dev :=
  let mb := meanBin.getD (d.f (Reg.EI_CAL_RESULT n) 0 16)
  d.wr (Reg.EI_CAL_RESULT n) (packBE 32 [(code, 4), (0, 7), (ip, 1), (0, 4), (min mb 0xFFFF, 16)])

/-- The run of an input is over. -/
def Dev.calStop (d : Dev) (n : Nat) : Dev :=
  ((d.setEi n { d.eiSt n with run := none }).clrB (Reg.EI_STATE n) 24).eiShow

/-- The threshold-offset calibration that begins every run (R259): the trim it chooses and the residual it measures are free values (log entry 102). -/
def Dev.thrCal (d : Dev) (n : Nat) : Dev :=
  let trim := Config.freeNat d.fresh
  let d := d.draw
  let resid := Config.freeNat d.fresh % 2 ^ 16
  let d := d.draw
  let d := d.wr (Reg.THR_CAL n) (packBE 32 [(d.f (Reg.THR_CAL n) 16 16 + 1, 16), (resid, 16)])
  let d := d.wr64 (Reg.THR_CAL_TIME_LO n) (Reg.THR_CAL_TIME_HI n) (shortTime d.now)
  d.eiTrim n trim

/-- A run is in progress, or what it has accepted has still to take force in SINGLE mode (R255). -/
def EiSt.calBusy (x : EiSt) : Bool := x.run.isSome || x.swap.any fun v => !v.1.image

/-- A request for a run (R257): deferred without lock, one further run behind a running or a deferred one, NO_STANDBY with a retired interpolator (R248). -/
def Dev.calRequest (d : Dev) (n : Nat) : Dev :=
  let x := d.eiSt n
  if x.calBusy ∨ x.deferred then d.setEi n { x with again := true, autoDue := false }
  else if !d.on Reg.TB_STATUS 1 then (d.setEi n { x with deferred := true, autoDue := false }).eiShow
  else
    let x : EiSt := { x with autoDue := false, temp := some (d.hk 1) }
    if d.ipRetired n 0 ∨ d.ipRetired n 1 then (d.setEi n x).calResult n 5 (1 - d.eiLive n) none
    else
      let ips := if d.eiIlv n then [0, 1] else [1 - d.eiLive n]
      (((d.setEi n { x with run := some (ips, d.up) }).setB (Reg.EI_STATE n) 24).eiShow).thrCal n

/-- A request that waited behind a run is served. -/
def Dev.calAgain (d : Dev) (n : Nat) : Dev :=
  let x := d.eiSt n
  if x.again then (d.setEi n { x with again := false }).calRequest n else d

/-- EI_CMD CAL (R257). -/
def eiCal (d : Dev) : Dev :=
  (List.range 16).foldl (fun d n => if d.on Reg.EI_CAL_MASK n then d.calRequest n else d) d

/-- A run that was deferred starts (R257); a request that came meanwhile waits behind it. -/
def Dev.calUndefer (d : Dev) (n : Nat) : Dev :=
  let x := d.eiSt n
  let d := (d.setEi n { x with deferred := false, again := false }).calRequest n
  let d := (d.setEi n { d.eiSt n with again := x.again }).eiShow
  if (d.eiSt n).calBusy then d else d.calAgain n

/-- The automatic starts of R257, and the start of a deferred run once REF_LOCKED is 1. -/
def eiCalAuto (d : Dev) : Dev :=
  (List.range 16).foldl (fun d n =>
    let x := d.eiSt n
    let auto := d.on Reg.EI_CAL_CTRL 31
    let moved : Bool := match x.temp with
      | some t => tempMoved (d.hk 1) t (d.f Reg.EI_CAL_CTRL 24 6 + 1)
      | none => false
    if x.deferred then
      if d.on Reg.TB_STATUS 1 then d.calUndefer n else d
    else if auto ∧ (moved ∨ x.autoDue) then d.calRequest n
    else d) d

/-- A table predates a commit of PERIOD. -/
def IpNew.old (v : IpNew) : IpNew := { v with tab := { v.tab with stale := true } }

/-- A commit of PERIOD makes every table one that predates it, those that have still to take force among them (R51, R251); with AUTO set, runs are due (R257). -/
def Dev.eiPeriodCommit (d : Dev) : Dev :=
  (List.range 16).foldl (fun d n =>
    let x := d.eiSt n
    let old := fun (t : IpTab) => { t with stale := true }
    let lag := x.lag.map fun l => match l.act with
      | .tables vs ip => { l with act := .tables (vs.map IpNew.old) ip }
      | _ => l
    d.setEi n { x with tab0 := old x.tab0, tab1 := old x.tab1, lag := lag, swap := x.swap.map fun v => (v.1.old, v.2),
                       staged := x.staged.map IpNew.old, autoDue := x.autoDue || d.on Reg.EI_CAL_CTRL 31 }) d

/-- The exact REF_IN period in fs, as a numerator and a denominator (R253). -/
def Dev.periodFs (d : Dev) : Nat × Nat :=
  let den := max 1 d.tb.remDen
  ((d.tb.period * den + d.tb.remNum) * 10 ^ 15, den * 2 ^ 64)

/-- QUALITY of a chain in fs (R253): the RMS over live codes of (w^a − w^b) / 2, rounded half up. -/
def chainQuality (tn td : Nat) (codes : List (Nat × Nat)) : Nat :=
  let s := codes.foldl (fun a c => let v := (c.1 : Int) - c.2; a + (v * v).toNat) 0
  let n := max 1 codes.length
  (isqrtBits 60 (4 * s * tn * tn / (n * 2 ^ 48 * td * td)) + 1) / 2

/-- The code table of a chain (R253): F(c) = 128 × (2 S_c + H_c). -/
def chainTable : Nat → List (Nat × Nat) → List Word
  | _, [] => []
  | s, c :: r => BitVec.ofNat 32 (128 * (2 * s + c.1 + c.2)) :: chainTable (s + c.1 + c.2) r

/-- A width of so many hits of 2^24 lies below 0.3 ps (R253). -/
def Dev.narrow (d : Dev) (hits : Nat) : Bool :=
  let (tn, td) := d.periodFs
  decide (hits * tn < 300 * 2 ^ 24 * td)

/-- The taps of a chain with their hits in the two halves become its live codes (R253): a tap that is too narrow, or that follows a code that is, is merged with what comes before it (log entry 103). -/
def Dev.mergeTaps (d : Dev) : List (Nat × Nat) → List (Nat × Nat) → List (Nat × Nat)
  | acc, [] => acc.reverse
  | [], h :: r => d.mergeTaps [h] r
  | a :: acc, h :: r =>
    if d.narrow (a.1 + a.2) ∨ d.narrow (h.1 + h.2) then d.mergeTaps ((a.1 + h.1, a.2 + h.2) :: acc) r
    else d.mergeTaps (h :: a :: acc) r

/-- A histogram of taps is that of a whole run (R253): at most 8,192 taps, and at most 2^23 hits in each half; the hits that lack fell beyond the last tap. -/
def tapsOk (l : List (Nat × Nat)) : Bool :=
  decide (l.length ≤ 8192) && decide ((l.map (·.1)).sum ≤ 2 ^ 23) && decide ((l.map (·.2)).sum ≤ 2 ^ 23)

/-- A hit fell beyond the chain's last tap (R254). -/
def tapsBeyond (l : List (Nat × Nat)) : Bool := decide ((l.map (·.1)).sum + (l.map (·.2)).sum < 2 ^ 24)

/-- One interpolator's run is judged (R253, R254): the chain of the smallest QUALITY, the lowest-numbered of equals; the result and whether it is accepted. -/
def Dev.judge (d : Dev) (ip : Nat) (chains : List (List (Nat × Nat))) : IpNew × Bool :=
  let (tn, td) := d.periodFs
  let codes := chains.map fun c => d.mergeTaps [] c
  let q := codes.map fun c => chainQuality tn td c
  let best := (List.range codes.length).foldl (fun a k => if nth q k 0 < nth q a 0 then k else a) 0
  let c := nth codes best []
  let n := c.length
  let mean := divRound tn (td * max 1 n)
  let tab : IpTab := { chain := best, ncodes := n, f := chainTable 0 c, cal := true, meanBin := mean }
  let wide := c.any fun h => decide (1500 * 2 ^ 24 * td < (h.1 + h.2) * tn)
  (⟨ip, tab, nth q best 0, mean, false⟩,
    decide (nth q best 0 ≤ d.f Reg.EI_CAL_CTRL 0 16) && !wide && !tapsBeyond (nth chains best []) && decide (0 < n))

/-- The registers of a table that takes force: counts, qualities and time (R255, R260); the table with its CAL_COUNT. -/
def Dev.ipCount (d : Dev) (n : Nat) (v : IpNew) : Dev × IpNew :=
  let lo := 16 * v.ip
  let gen := (d.f (Reg.EI_CAL_COUNT n) lo 16 + 1) % 2 ^ 16
  let d := d.wr64 (Reg.EI_CAL_TIME_LO n) (Reg.EI_CAL_TIME_HI n) (shortTime d.now)
  if v.image then (d, v)
  else
    ((d.wrF (Reg.EI_CAL_COUNT n) lo 16 gen).wrF (Reg.CAL_QUAL n) lo 16 (min v.quality 0xFFFF), { v with tab := { v.tab with gen := gen } })

/-- Tables take force now, and an interpolator becomes live (R255, R256): crossings at or after this instant meet them. -/
def Dev.ipInstall (d : Dev) (n : Nat) (l : List IpNew) (ip : Option Nat) : Dev :=
  let r := l.foldl (fun (a : Dev × List IpNew) v => let p := a.1.ipCount n v; (p.1, a.2 ++ [p.2])) (d, [])
  r.1.eiPut n (.tables r.2 ip)

/-- A run has completed (R255, R256, R266). -/
def Dev.calComplete (d : Dev) (n ip meanBin : Nat) : Dev :=
  (d.calResult n 1 ip (some meanBin)).sqEvent Reg.EI_STATUS 7 1299

/-- The run among tables that take force completes. -/
def Dev.calDone (d : Dev) (n : Nat) (l : List IpNew) : Dev :=
  match (l.filter fun v => !v.image).getLast? with
  | some v => d.calComplete n v.ip v.meanBin
  | none => d

/-- The swap of R255, with the tables that were ready; the interpolator of the last one becomes live. -/
def Dev.ipSwap (d : Dev) (n : Nat) (ready : List IpNew) (rest : List (IpNew × Nat)) : Dev :=
  match ready.getLast? with
  | none => d
  | some v =>
    let d := (d.setEi n { d.eiSt n with swap := rest }).ipInstall n ready (some v.ip)
    let d := (d.wrF (Reg.EI_STATE n) 29 1 v.ip).calDone n ready
    if (d.eiSt n).calBusy then d else d.calAgain n

/-- At the first REF_IN edge after an accepted table is ready, the interpolators swap (R255). -/
def interpolatorSwap (n : Nat) (d : Dev) : Dev :=
  let l := (d.eiSt n).swap
  let due := fun (v : IpNew × Nat) => decide (v.2 < d.tb.edges)
  d.ipSwap n ((l.filter due).map (·.1)) (l.filter fun v => !due v)

/-- A table is accepted for a swap; while the input is disabled the swap takes place at once (R255). -/
def Dev.acceptSwap (d : Dev) (n : Nat) (v : IpNew) : Dev :=
  if d.eiOn n then d.setEi n { d.eiSt n with swap := (d.eiSt n).swap ++ [(v, d.tb.edges)] }
  else d.ipSwap n [v] []

/-- A table is staged for ILV_COMMIT; a newer staging replaces an older one (R256, R260). -/
def Dev.stage (d : Dev) (n : Nat) (l : List IpNew) : Dev :=
  let x := d.eiSt n
  let keep := x.staged.filter fun o => l.all fun v => v.ip ≠ o.ip
  (d.setEi n { x with staged := keep ++ l }).setB (Reg.EI_STATE n) 25

/-- A code-density run ends (R253 to R256): per interpolator under test, its three chains with the hits of each tap in the first and the last 2^23 hits. -/
def eiCalRunEnd (n : Nat) (runs : List (List (List (Nat × Nat)))) (d : Dev) : Dev :=
  match (d.eiSt n).run with
  | none => d
  | some r =>
    if runs.length ≠ r.1.length ∨ !runs.all (fun c => decide (c.length = 3) && c.all tapsOk) then d
    else
      let d := d.calStop n
      let res := (r.1.zip runs).map fun p => d.judge p.1 p.2
      let lastIp := nth r.1 (r.1.length - 1) 0
      if !res.all fun v => v.2 then (((d.calResult n 2 lastIp none).sqEvent Reg.EI_STATUS 8 1300)).calAgain n
      else
        match res.map fun v => v.1 with
        | [v] => d.acceptSwap n v
        | l => (d.stage n l).calAgain n

/-- An INTERLEAVED run exceeds CAL_LIMIT (R256). -/
def eiCalTimeout (n : Nat) (d : Dev) : Dev :=
  match (d.eiSt n).run with
  | some r =>
    if r.1.length = 2 ∧ elapsedNs r.2 d.up (1000000 * max 1 (d.f Reg.CAL_LIMIT 0 16)) then
      ((d.calStop n).calResult n 4 1 none).calAgain n
    else d
  | none => d

/-- A run or what it left to take force is abandoned (R245, R248, R258); an abort leaves restored images as they are. -/
def Dev.calAbandon (d : Dev) (n : Nat) (images : Bool) : Dev :=
  let x := d.eiSt n
  let ip := match x.run, x.swap.getLast? with
    | some r, _ => nth r.1 (r.1.length - 1) 0
    | none, some v => v.1.ip
    | none, none => 1
  let own := x.run.isSome || (x.swap.any fun v => !v.1.image) || x.staged.any fun v => !v.image
  let staged := x.staged.filter fun v => v.image && images
  let d := (d.setEi n { x with swap := x.swap.filter (fun v => v.1.image && images), staged := staged, again := false }).putB (Reg.EI_STATE n) 25 (!staged.isEmpty)
  if own then (d.calStop n).calResult n 3 ip none else d

/-- EI_CMD CAL_ABORT (R258): COMPLETE with ABORT_LATE where the tables took force before it. -/
def eiCalAbort (d : Dev) : Dev :=
  (List.range 16).foldl (fun d n =>
    if !d.on Reg.EI_CAL_MASK n then d
    else
      let x := d.eiSt n
      if x.calBusy ∨ (x.staged.any fun v => !v.image) then d.calAbandon n true
      else if x.deferred then ((d.setEi n { x with deferred := false, again := false }).calResult n 3 (1 - d.eiLive n) none).eiShow
      else if d.f (Reg.EI_CAL_RESULT n) 28 4 = 1 then d.setB (Reg.EI_CAL_RESULT n) 24
      else d) d

/-- EI_CMD ILV_COMMIT (R256). -/
def ilvCommit (d : Dev) : Dev :=
  let at0 := ofShort (d.n64 Reg.ILV_COMMIT_AT_LO Reg.ILV_COMMIT_AT_HI)
  let late := decide (at0 < d.now)
  let d := d.setB Reg.EI_STATUS 3
  let d := if late then d.setB Reg.EI_STATUS 11 else d
  { d with edge := { d.edge with ilvAt := some (if late then d.now + 1 else at0) } }

/-- The staged tables take force together (R256). -/
def ilvCommitTake (d : Dev) : Dev :=
  match d.edge.ilvAt with
  | none => d
  | some t =>
    if d.now < t then d
    else
      let d := { d with edge := { d.edge with ilvAt := none } }.clrB Reg.EI_STATUS 3
      let any := d.edge.ins.any fun e => !e.2.staged.isEmpty
      let d := (List.range 16).foldl (fun d n =>
        let x := d.eiSt n
        if x.staged.isEmpty then d
        else (((d.setEi n { x with staged := [] }).clrB (Reg.EI_STATE n) 25).ipInstall n x.staged none).calDone n x.staged) d
      if any then d.event Reg.EI_STATUS 1304 else d

/-! ### Table images (R260) -/

/-- Word k of the image of a table in force; beyond the last word the manual states none. -/
def Dev.imageWord (d : Dev) (t : IpTab) (k : Nat) : Word :=
  let head := packBE 32 [(t.chain, 2), (0, 16), (t.ncodes, 14)]
  let body := fun (c : Nat) => BitVec.ofNat 32 (t.look c).1
  if k = 0 then head
  else if k ≤ 8192 then body (k - 1)
  else if k = 8193 then
    BitVec.ofNat 32 (crc32 ((bytesLE 4 head.toNat) ++ (List.range 8192).flatMap fun c => bytesLE 4 (body c).toNat))
  else Config.freeWord d.fresh

/-- The index in CAL_SEL advances. -/
def Dev.calNext (d : Dev) : Dev := d.wrF Reg.CAL_SEL 0 14 (d.f Reg.CAL_SEL 0 14 + 1)

/-- A read of CAL_DATA. -/
def calDataRead (d : Dev) : Dev × Word :=
  let w := d.imageWord ((d.eiSt (d.f Reg.CAL_SEL 16 4)).tab (d.f Reg.CAL_SEL 20 1)) (d.f Reg.CAL_SEL 0 14)
  (d.calNext.draw, w)

/-- A write of CAL_DATA; the last word decides (R260). -/
def calDataWrite (v : Word) (d : Dev) : Dev :=
  let n := d.f Reg.CAL_SEL 16 4
  let ip := d.f Reg.CAL_SEL 20 1
  let k := d.f Reg.CAL_SEL 0 14
  let d := d.calNext
  let x := d.eiSt n
  let img := if ip = 0 then x.img0 else x.img1
  if 8193 < k then d
  else if k < 8193 then
    let img := img.set (fun _ => 0) k v
    d.setEi n (if ip = 0 then { x with img0 := img } else { x with img1 := img })
  else
    let words := (List.range 8193).map fun c => img.get (fun _ => 0) c
    let crc := crc32 (words.flatMap fun w => bytesLE 4 w.toNat)
    let d := d.setEi n (if ip = 0 then { x with img0 := [] } else { x with img1 := [] })
    let live := !d.eiIlv n && ip == d.eiLive n
    if crc ≠ v.toNat ∨ live ∨ d.ipRetired n ip then d.sqEvent Reg.EI_STATUS 15 1303
    else
      let head := nth words 0 0
      let tab : IpTab := { chain := fld head 30 2, ncodes := clampN 1 8192 (fld head 0 14), f := words.drop 1 }
      let v : IpNew := ⟨ip, tab, 0, 0, true⟩
      if d.eiIlv n then d.stage n [v] else d.acceptSwap n v

/-- A write of THR_TRIM takes force at the next block boundary (R260). -/
def thrTrimWrite (n : Nat) (v : Word) (d : Dev) : Dev := d.eiTrim n (fld v 0 16)

/-! ### Interpolator faults (R248) -/

/-- A parity error or watchdog expiry retires an interpolator. -/
def interpolatorFault (n ip : Nat) (d : Dev) : Dev :=
  if d.ipRetired n ip then d
  else
    let used := d.eiIlv n || ip == d.eiLive n
    let d := d.setB (Reg.EI_STATE n) (22 + ip)
    let d := (d.report 0x0B (0x4000 + 2 * n + ip) 24).logRetire 3 (2 * n + ip) 0
    let d := (d.calAbandon n false).sqEvent Reg.EI_STATUS 5 1302
    if used ∧ d.eiOn n then
      if (d.eiSt n).faultEdge.isSome then d
      else (d.setEi n { d.eiSt n with faultEdge := some d.tb.edges }).eiPut n (.fault (d.timeWord 2 false d.now))
    else if used ∧ !d.ipRetired n (1 - ip) then (d.wrF (Reg.EI_STATE n) 29 1 (1 - ip)).eiPut n (.live (1 - ip))
    else d

/-- The surviving interpolator takes over at the next REF_IN edge, and one GAP covers the lost crossings. -/
def interpolatorTakeover (n : Nat) (d : Dev) : Dev :=
  let x := d.eiSt n
  match x.faultEdge with
  | none => d
  | some e =>
    let ip := if d.ipRetired n 0 then 1 else 0
    if d.ipRetired n ip ∨ d.tb.edges ≤ e then d
    else
      let d := (d.setEi n { x with faultEdge := none }).wrF (Reg.EI_STATE n) 29 1 ip
      d.eiPut n (.takeover ip (d.timeWord 2 false d.now))

/-! ### The bank (R242, R245 to R248, R265) -/

/-- EI_CMD COMMIT. -/
def eiCommit (d : Dev) : Dev :=
  if d.edge.commitAt.isSome then d
  else
    let cfg := (List.range 16).map fun n => d.rd (Reg.EI_CFG n)
    let sum := cfg.foldl (fun a c => if bit c 31 then a + fld c 16 8 + 1 else a) 0
    if 1024 < sum then (d.setB Reg.EI_STATUS 13).event Reg.EI_STATUS 1296
    else if (List.range 16).any fun n => bit (nth cfg n 0) 25 && (d.ipRetired n 0 || d.ipRetired n 1) then
      (d.sqEvent Reg.EI_STATUS 5 1302).event Reg.EI_STATUS 1296
    else
      let at0 := ofShort (d.n64 Reg.EI_COMMIT_AT_LO Reg.EI_COMMIT_AT_HI)
      let late := decide (at0 < d.now)
      let d := d.setB Reg.EI_STATUS 4
      let d := if late then d.setB Reg.EI_STATUS 12 else d
      { d with edge := { d.edge with commitAt := some (if late then d.now + 1 else at0) } }

/-- EI_CMD CANCEL_COMMIT. -/
def eiCancel (d : Dev) : Dev := { d.clrB Reg.EI_STATUS 4 with edge := { d.edge with commitAt := none } }

/-- The registers of one input's bank. -/
def eiKeys (n : Nat) : List Nat := [Reg.EI_CFG n, Reg.EI_BLOCK n, Reg.EI_DESKEW n, Reg.EI_RAMP n, Reg.EI_RAMP_LEN n]

/-- The bank of one input takes force: its crossings meet it from this instant on (R242, R245, R264, R265). -/
def Dev.eiTake (d : Dev) (n : Nat) (old : Dev) : Dev :=
  if (eiKeys n).all fun k => d.eb k = old.eb k then d
  else
    let was := old.eb (Reg.EI_CFG n)
    let c := d.eb (Reg.EI_CFG n)
    let off := d.eiOn n && !bit c 31
    let d := d.eiPut n (.bank (d.edge.bank.filter fun r => (eiKeys n).contains r.1) off (d.timeWord 2 false d.now))
    let d := if off then (d.clrB (Reg.EI_STATE n) 31).setEi n { d.eiSt n with window := none, faultEdge := none } else d
    let d := if !bit was 30 ∧ bit c 30 then d.setEi n { d.eiSt n with pwrAt := some d.up }
      else if bit was 30 ∧ !bit c 30 then (d.setEi n { d.eiSt n with pwrAt := none }).clrB (Reg.EI_STATE n) 30
      else d
    let moved := fld was 0 16 ≠ fld c 0 16
    let d := if moved then d.eiSettle n else d
    let d := d.wrF (Reg.EI_STATE n) 0 16 (fld c 0 16)
    let ramp := moved ∨ bit was 24 ≠ bit c 24 ∨ d.eb (Reg.EI_RAMP n) ≠ old.eb (Reg.EI_RAMP n) ∨ d.eb (Reg.EI_RAMP_LEN n) ≠ old.eb (Reg.EI_RAMP_LEN n)
    let d := if ramp then (d.setEi n { d.eiSt n with rampPend := none }).eiRampStop n else d
    if !bit was 25 ∧ bit c 25 then d.calAbandon n false else d

/-- The bank takes force at the first REF_IN edge at or after COMMIT_AT (R265). -/
def eiCommitTake (d : Dev) : Dev :=
  match d.edge.commitAt with
  | none => d
  | some t =>
    if d.now < t then d
    else
      let old := d
      let bank := d.regs.filter fun r => eiBankKey r.1
      let d := { d.clrB Reg.EI_STATUS 4 with edge := { d.edge with commitAt := none, bank := bank } }
      let d := d.add Reg.EI_COMMITS 1
      let d := (List.range 16).foldl (fun d n => d.eiTake n old) d
      d.event Reg.EI_STATUS 1296

/-- EI_CMD CLEAR_COUNTS (R265). -/
def eiClearCounts (d : Dev) : Dev :=
  (List.range 16).foldl (fun d n => (d.wr (Reg.EI_LOST n) 0).wr (Reg.EI_OVER n) 0) d

end Sys2Proof.Machine
end

