-- ==== Sys2Proof/Machine/Fabric.lean ====
section
/-! DEFINITION. The trigger fabric: lines, sequencers, pins, timers, the cross-trigger bus, TRIGGER records and the commit (chapter Triggers, Blanking and the Cross-Trigger Bus). -/
namespace Sys2Proof.Machine

/-- n REF_IN periods have passed since a REF_IN edge (R186, R603). -/
def Dev.passed (d : Dev) (e n : Nat) : Bool := decide (e + n ≤ d.tb.edges)

/-! ### The bank in force (R198) -/

/-- A fabric configuration register as in force. -/
def Dev.fb (d : Dev) (k : Nat) : Word := d.fab.bank.get regReset k

/-- A field of it. -/
def Dev.fbf (d : Dev) (k lo len : Nat) : Nat := fld (d.fb k) lo len

/-- A bit of it. -/
def Dev.fbOn (d : Dev) (k i : Nat) : Bool := bit (d.fb k) i

/-- The keys of the pending bank (R198, R199, R201): the configuration registers of the fabric. -/
def fabBankKey (k : Nat) : Bool :=
  let o := keyOff k
  keyBlock k == 0x0C && (o == 0x18 || (decide (0x20 ≤ o) && decide (o < 0x40)) || (decide (0x100 ≤ o) && decide (o < 0x200))
    || (decide (0x200 ≤ o) && decide (o < 0x300) && decide (o % 32 < 16)) || (decide (0x300 ≤ o) && decide (o < 0x320))
    || (decide (0x340 ≤ o) && decide (o < 0x380) && decide (o % 16 < 12)) || (decide (0x380 ≤ o) && decide (o < 0x400) && decide (o % 16 < 12)))

/-! ### State -/

def Dev.setFab (d : Dev) (x : FabSt) : Dev := { d with fab := x }
def Dev.qs (d : Dev) (q : Nat) : QsSt := d.fab.qs.get (fun _ => {}) q
def Dev.setQs (d : Dev) (q : Nat) (x : QsSt) : Dev := d.setFab { d.fab with qs := d.fab.qs.set (fun _ => {}) q x }
def Dev.blank (d : Dev) (k : Nat) : BlankSt := d.fab.blank.get (fun _ => {}) k
def Dev.setBlank (d : Dev) (k : Nat) (x : BlankSt) : Dev := d.setFab { d.fab with blank := d.fab.blank.set (fun _ => {}) k x }
def Dev.xt (d : Dev) (k : Nat) : XtSt := d.fab.xt.get (fun _ => {}) k
def Dev.setXt (d : Dev) (k : Nat) (x : XtSt) : Dev := d.setFab { d.fab with xt := d.fab.xt.set (fun _ => {}) k x }

/-- The REF_IN edge that ends a TRIG pin's active level, while it is active. -/
def Dev.trigUntil (d : Dev) (t : Nat) : Option Nat := d.fab.trig.get (fun _ => none) t
def Dev.setTrig (d : Dev) (t : Nat) (x : Option Nat) : Dev := d.setFab { d.fab with trig := d.fab.trig.set (fun _ => none) t x }

/-- The level of a TRIG pin (R187). -/
def Dev.trigPin (d : Dev) (t : Nat) : Bool := (d.trigUntil t).isSome != d.fbOn (Reg.TRIG_CFG t) 30

/-- The level of a BLANK pin (R188). -/
def Dev.blankPin (d : Dev) (k : Nat) : Bool := (d.blank k).until_.isSome != d.fbOn (Reg.BLANK_CFG k) 30

/-! ### TRIGGER records (R195 to R197) -/

/-- Records of one step are ordered by KIND, then by UNIT (R195). -/
def insertRec (r : FabRec) : List FabRec → List FabRec
  | [] => [r]
  | x :: l => if r.kind * 256 + r.unit < x.kind * 256 + x.unit then r :: x :: l else x :: insertRec r l

/-- A condition of R22 failed on the path of a pulse since its cause (R25): derating, a link-level fault of the port of its stream or lane, or a fault of its cross-trigger bus (R194). -/
def Dev.pathCond (d : Dev) (p : Pulse) : Bool :=
  d.cond p.cause
    || (decide (1 ≤ p.path ∧ p.path ≤ 48) && d.portCond ((p.path - 1) / 8) p.cause)
    || (decide (64 ≤ p.path ∧ p.path < 384) && d.portCond (p.path % 64 / 8) p.cause)
    || (decide (448 ≤ p.path ∧ p.path < 452) && (match (d.xt (p.path - 448)).fault with | some e => decide (p.from_ ≤ e) | none => false))

/-- The payload of a TRIGGER record (R196). -/
def FabRec.payload (r : FabRec) : List Word128 :=
  [packBE 128 [(r.kind, 8), (r.unit, 8), (r.pulse.code, 9), (b2n r.forced, 1), (0, 6), (r.count, 32), (0, 64)], r.pulse.word, r.pulse.detail]

/-- One record takes its place in the buffer of 4,096, or is skipped; a GAP stands before the first record after a run of skipped ones (R197). -/
def Dev.fabPlace (d : Dev) (t : Nat) (r : FabRec) : Dev :=
  let w := d.timeWord 3 false t
  let hdr : Hdr := { typ := 0x07, src := 0x6000, phys := r.pulse.phys, flags := b2n r.cond * 128, sw := r.sw, time := w }
  let x := d.fab
  let held := (d.outOf 256).length
  if held + 1 + b2n (x.skipped ≠ 0) ≤ 4096 then
    let a := d.timeWord 3 false x.skipFrom
    let d := if x.skipped = 0 then d
      else (d.emit 256 { typ := 0x09, src := 0x6000, flags := b2n (x.skipCond || d.cond x.skipFrom) * 128, sw := r.sw, time := a }
        (gapPayload 0x30 3 x.skipped a w)).setFab { x with skipped := 0, skipCond := false }
    d.emit 256 hdr r.payload
  else
    let d := d.setFab { x with skipFrom := if x.skipped = 0 then t else x.skipFrom, skipped := x.skipped + 1, skipCond := x.skipCond || r.cond }
    (d.addSat Reg.REC_SKIPS 1).sqEvent Reg.FAB_STATUS 6 1372

/-- The records of the last step take their places. -/
def Dev.fabFlush (d : Dev) : Dev :=
  let l := d.fab.step
  l.foldl (fun d r => d.fabPlace d.fab.stepAt r) (d.setFab { d.fab with step := [] })

/-- A step of the fabric is one REF_IN period (R603): at a later edge than its last, a new one begins. -/
def Dev.fabNow (d : Dev) : Dev :=
  if d.fab.stepEdge = d.tb.edges then d
  else
    let d := d.fabFlush
    d.setFab { d.fab with stepEdge := d.tb.edges, stepAt := d.now, seen := [] }

/-- A record of the present step (R195, R196). -/
def Dev.fabRecord (d : Dev) (kind unit : Nat) (p : Pulse) (count : Nat) (forced : Bool) : Dev :=
  let d := d.fabNow
  d.setFab { d.fab with step := insertRec ⟨kind, unit, p, count, forced, d.pathCond p, d.n Reg.COMMITS % 2 ^ 28⟩ d.fab.step }

/-! ### Lines and sequencers (R184, R185) -/

/-- The pulse of the lower code, of two that reach one consumer in one step (R175). -/
def lowerPulse (a b : Option Pulse) : Option Pulse :=
  match a, b with
  | some x, some y => if y.code < x.code then some y else some x
  | some x, none => some x
  | none, y => y

/-- The pulse of a source among those that arrive. -/
def arrived (ps : List Pulse) (code : Nat) : Option Pulse := ps.find? fun p => p.code = code

/-- The pulse of a trigger line, if it pulses (R184). -/
def Dev.linePulse (d : Dev) (ps : List Pulse) (n : Nat) : Option Pulse :=
  let c := d.fb (Reg.LINE_CFG n)
  if bit c 31 then
    lowerPulse (arrived ps (fld c 10 9)) (if bit c 30 then arrived ps (fld c 20 9) else none)
  else none

/-- A sequencer fires (R185, R203): its count restarts, the holdoff starts, source 456 + q pulses with the cause of the completing pulse. -/
def Dev.qsFire (d : Dev) (q : Nat) (p : Pulse) : Dev :=
  let x := d.qs q
  let d := d.add (Reg.QS_FIRES q) 1
  let d := d.setQs q { hold := if d.fbf (Reg.QS_HOLDOFF q) 0 24 = 0 then none else some d.tb.edges }
  let d := if d.fbOn (Reg.QS_CFG q) 28 then d.fabRecord 0x01 q p x.pulses false else d
  let d := if d.fbOn (Reg.QS_CFG q) 27 then d.raise (1360 + q) else d
  { d with pulses := d.pulses ++ [{ p with code := 456 + q }] }

/-- MODE of a sequencer; 3 acts as 0. -/
def Dev.qsMode (d : Dev) (q : Nat) : Nat := d.fbf (Reg.QS_CFG q) 29 2 % 3

/-- WINDOW of a sequencer; 0 acts as 1. -/
def Dev.qsWindow (d : Dev) (q : Nat) : Nat := max 1 (d.fbf (Reg.QS_WINDOW q) 0 24)

/-- One step of a sequencer with the pulses of its lines (R185). -/
def Dev.qsStep (d : Dev) (q : Nat) (a b : Option Pulse) : Dev :=
  if !d.fbOn (Reg.QS_CFG q) 31 then d
  else
    let x := d.qs q
    let x := { x with pulses := x.pulses + b2n a.isSome }
    match x.win with
    | some (t, _) =>
      match b with
      | some p =>
        if t < d.tb.edges ∧ d.tb.edges ≤ t + d.qsWindow q then
          if d.qsMode q = 1 then (d.setQs q { x with win := none }).qsFire q p
          else d.setQs q { x with win := none, count := 0 }
        else d.setQs q x
      | none => d.setQs q x
    | none =>
      match a with
      | none => d.setQs q x
      | some p =>
        let held := match x.hold with
          | some t => decide (d.tb.edges ≤ t + d.fbf (Reg.QS_HOLDOFF q) 0 24)
          | none => false
        if held then d.setQs q x
        else
          let n := x.count + 1
          if n < d.fbf (Reg.QS_COUNT q) 0 16 + 1 then d.setQs q { x with count := n }
          else if d.qsMode q = 0 then (d.setQs q x).qsFire q p
          else d.setQs q { x with count := n, win := some (d.tb.edges, p) }

/-- A pulse of a lower code reaches a sequencer in the step in which it has seen another (R175): what that one caused takes the new cause. -/
def Dev.qsRecause (d : Dev) (q : Nat) (old new : Pulse) : Dev :=
  let x := d.qs q
  let d := d.setQs q { x with win := x.win.map fun w => if w.1 = d.tb.edges ∧ w.2 = old then (w.1, new) else w }
  let d := d.setFab { d.fab with step := d.fab.step.map fun r => if r.kind = 0x01 ∧ r.unit = q ∧ r.pulse = old then { r with pulse := new } else r }
  { d with pulses := d.pulses.map fun p => if p = { old with code := 456 + q } then { new with code := 456 + q } else p }

/-- A sequencer's window ends (R185). -/
def qsWindowExpire (q : Nat) (d : Dev) : Dev :=
  let x := d.qs q
  match x.win with
  | some (t, p) =>
    if !d.passed t (d.qsWindow q) then d
    else if d.qsMode q = 1 then d.setQs q { x with win := none, count := 0 }
    else (d.setQs q { x with win := none }).qsFire q p
  | none => d

/-- A sequencer's holdoff ends (R185). -/
def qsHoldoffEnd (q : Nat) (d : Dev) : Dev :=
  let x := d.qs q
  match x.hold with
  | some t => if d.passed t (d.fbf (Reg.QS_HOLDOFF q) 0 24) then d.setQs q { x with hold := none } else d
  | none => d

/-! ### Pins (R187, R188) -/

/-- A TRIG pin with the pulses that arrive (R187). -/
def Dev.trigStep (d : Dev) (ps : List Pulse) (t : Nat) : Dev :=
  let c := d.fb (Reg.TRIG_CFG t)
  if bit c 31 ∧ (arrived ps (fld c 20 9)).isSome then d.setTrig t (some (d.tb.edges + fld c 0 16 + 1)) else d

/-- A TRIG pin leaves its active level (R187). -/
def trigPinRelease (t : Nat) (d : Dev) : Dev :=
  match d.trigUntil t with
  | some e => if e ≤ d.tb.edges then d.setTrig t none else d
  | none => d

/-- A BLANK pin with the pulse of its selected lines (R188). -/
def Dev.blankStep (d : Dev) (k : Nat) (p : Option Pulse) : Dev :=
  match p with
  | none => d
  | some p =>
    if !d.fbOn (Reg.BLANK_CFG k) 31 then d
    else
      let x := d.blank k
      let e := d.tb.edges + max 1 (d.fbf (Reg.BLANK_CFG k) 0 24)
      match x.until_ with
      | some _ => d.setBlank k ⟨some e, x.count + 1, some p⟩
      | none =>
        let d := d.setBlank k ⟨some e, 1, some p⟩
        let d := (d.add (Reg.BLANK_COUNT k) 1).setB Reg.FAB_STATUS k
        let d := if d.fbOn (Reg.BLANK_CFG k) 29 then d.fabRecord 0x02 k p 1 false else d
        d.event Reg.FAB_STATUS (1368 + k)

/-- A BLANK pin releases, with its record as the bank before the release has it (R188). -/
def Dev.blankOff (d : Dev) (k : Nat) (forced recEn : Bool) : Dev :=
  let x := d.blank k
  match x.last with
  | none => d
  | some p =>
    let d := (d.setBlank k {}).clrB Reg.FAB_STATUS k
    let d := if recEn then d.fabRecord 0x03 k p x.count forced else d
    d.event Reg.FAB_STATUS (1368 + k)

/-- A pulse of a lower code reaches a BLANK pin in the step in which it has seen another (R175). -/
def Dev.blankRecause (d : Dev) (k : Nat) (old new : Pulse) : Dev :=
  let x := d.blank k
  let d := d.setBlank k { x with last := if x.last = some old then some new else x.last }
  d.setFab { d.fab with step := d.fab.step.map fun r => if r.kind = 0x02 ∧ r.unit = k ∧ r.pulse = old then { r with pulse := new } else r }

/-- HOLD has passed without a further pulse (R188). -/
def blankRelease (k : Nat) (d : Dev) : Dev :=
  match (d.blank k).until_ with
  | some e => if e ≤ d.tb.edges then d.blankOff k false (d.fbOn (Reg.BLANK_CFG k) 29) else d
  | none => d

/-! ### Cross-trigger bus (R192 to R194) -/

/-- A source pulse reaches the transmitter of an XT line: one frame waits, further pulses merge into it (R192). -/
def Dev.xtSource (d : Dev) (ps : List Pulse) (k : Nat) : Dev :=
  if (arrived ps (d.fbf (Reg.XT_TX k) 0 9)).isNone ∨ !d.fbOn Reg.XT_CFG (8 + k) then d
  else
    let x := d.xt k
    match x.pending with
    | none => d.setXt k { x with pending := some d.tb.edges }
    | some _ => d.wrF (Reg.XT_ERR k) 0 8 (satAdd 8 (d.f (Reg.XT_ERR k) 0 8) 1)

/-- A frame starts at the first REF_IN edge after its pulse at which the line is free (R192). -/
def xtFrameStart (k : Nat) (d : Dev) : Dev :=
  let x := d.xt k
  match x.sending, x.pending with
  | none, some e =>
    if e < d.tb.edges then
      let f : XtFrame := ⟨d.tb.edges, d.fbf Reg.XT_CFG 28 4, d.fbf (Reg.XT_TX k) 12 3⟩
      d.setXt k { x with sending := some f, pending := none, ownDue := x.ownDue ++ [f] }
    else d
  | _, _ => d

/-- A fault of the bus (R194). -/
def Dev.xtFault (d : Dev) (k : Nat) : Dev :=
  ((d.setXt k { d.xt k with fault := some d.tb.edges }).sqEvent Reg.FAB_STATUS 7 1373).condLinkFault

/-- A frame of 40 REF_IN periods ends (R192); a readback mismatch is a collision, and abandons it (R194). -/
def xtFrameEnd (k : Nat) (mismatch : Bool) (d : Dev) : Dev :=
  let x := d.xt k
  match x.sending with
  | none => d
  | some f =>
    if mismatch then
      let d := d.setXt k { x with sending := none, ownDue := x.ownDue.filter fun g => g.start ≠ f.start }
      (d.wrF (Reg.XT_ERR k) 8 12 (satAdd 12 (d.f (Reg.XT_ERR k) 8 12) 1)).xtFault k
    else if d.passed f.start 40 then d.setXt k { x with sending := none }
    else d

/-- The local pulse of a frame, whose path began with its start (R193, R194). -/
def Dev.xtPulse (d : Dev) (k : Nat) (f : XtFrame) (own : Bool) : Dev :=
  let d := d.pulse (448 + k) d.now 0xFF (packBE 128 [(f.dev, 4), (f.code, 3), (0, 121)])
  { d with pulses := d.pulses.dropLast ++ d.pulses.getLast?.toList.map fun p => { p with own := own, from_ := f.start } }

/-- The driving device pulses its own source 64 + XT_PAD periods after the frame's start (R193). -/
def xtLocalPulse (k : Nat) (d : Dev) : Dev :=
  let x := d.xt k
  match x.ownDue with
  | [] => d
  | f :: r => if d.passed f.start (64 + d.fbf (Reg.XT_PAD k) 0 8) then (d.setXt k { x with ownDue := r }).xtPulse k f true else d

/-- A frame has been received whole, 40 periods after its start arrived (R193); a parity error discards it (R194). -/
def xtFrameReceive (k dev code : Nat) (parity : Bool) (d : Dev) : Dev :=
  if !d.fbOn Reg.XT_CFG k then d
  else
    let ones := (List.range 4).foldl (fun a i => a + dev / 2 ^ i % 2) 0 + (List.range 3).foldl (fun a i => a + code / 2 ^ i % 2) 0 + b2n parity
    if ones % 2 = 1 then (d.wrF (Reg.XT_ERR k) 20 12 (satAdd 12 (d.f (Reg.XT_ERR k) 20 12) 1)).xtFault k
    else d.setXt k { d.xt k with rxDue := (d.xt k).rxDue ++ [⟨d.tb.edges - 40, dev, code⟩] }

/-- A receiver pulses its source 64 + XT_PAD periods after the frame's start arrived (R193). -/
def xtRxPulse (k : Nat) (d : Dev) : Dev :=
  let x := d.xt k
  match x.rxDue with
  | [] => d
  | f :: r => if d.passed f.start (64 + d.fbf (Reg.XT_PAD k) 0 8) then (d.setXt k { x with rxDue := r }).xtPulse k f false else d

/-- The record of a cross-trigger pulse (R195). -/
def Dev.xtRecord (d : Dev) (ps : List Pulse) (k : Nat) : Dev :=
  match arrived ps (448 + k) with
  | none => d
  | some p => if d.fbOn Reg.XT_CFG 12 then d.fabRecord (if p.own then 0x05 else 0x04) k p 1 false else d

/-! ### Arrival of source pulses (R175) -/

/-- The waiting pulses that arrive: the oldest of each listed code. -/
def takePulses (codes : List Nat) (l : List Pulse) : List Pulse × List Pulse :=
  codes.foldl (fun a c =>
    match a.2.find? fun p => p.code = c with
    | some p => (a.1 ++ [p], a.2.erase p)
    | none => a) ([], l)

/-- What a consumer sees of its pulses in one step (R175): one pulse, of the lower code. Given are the pulse it has seen in the step, if any, and that of all sources: nothing where it has seen one, which a lower code only replaces as the cause. -/
def newPulse (seen all : Option Pulse) : Option Pulse := if seen.isSome then none else all

/-- The pulse that replaces the cause a consumer has seen in the step. -/
def lowerCause (seen all : Option Pulse) : Option (Pulse × Pulse) :=
  match seen, all with
  | some a, some b => if b.code < a.code then some (a, b) else none
  | _, _ => none

/-- The pulse of the lines that a BLANK pin selects (R188). -/
def Dev.blankPulse (d : Dev) (lines : List (Option Pulse)) (k : Nat) : Option Pulse :=
  let mask := (d.fb (Reg.BLANK_MASK_HI k)).toNat * 2 ^ 32 + (d.fb (Reg.BLANK_MASK_LO k)).toNat
  (List.range 64).foldl (fun a n => if mask / 2 ^ n % 2 = 1 then lowerPulse a (nth lines n none) else a) none

/-- Pulses reach lines, sequencers, pins, cross-trigger drivers and records (R175, R184 to R188, R192, R195): `old` those that have arrived in this step before, `ps` the new ones. -/
def Dev.fabStep (d : Dev) (old ps : List Pulse) : Dev :=
  let was := (List.range 64).map fun n => d.linePulse old n
  let lines := (List.range 64).map fun n => d.linePulse (old ++ ps) n
  let d := (List.range 8).foldl (fun d q =>
    let i := d.fbf (Reg.QS_CFG q) 8 6
    let j := d.fbf (Reg.QS_CFG q) 16 6
    let d := d.qsStep q (newPulse (nth was i none) (nth lines i none)) (newPulse (nth was j none) (nth lines j none))
    let d := match lowerCause (nth was i none) (nth lines i none) with | some (a, b) => d.qsRecause q a b | none => d
    match lowerCause (nth was j none) (nth lines j none) with | some (a, b) => d.qsRecause q a b | none => d) d
  let d := (List.range 8).foldl (fun d t => d.trigStep ps t) d
  let d := (List.range 4).foldl (fun d k =>
    let a := d.blankPulse was k
    let b := d.blankPulse lines k
    let d := d.blankStep k (newPulse a b)
    match lowerCause a b with | some (x, y) => d.blankRecause k x y | none => d) d
  let d := (List.range 4).foldl (fun d k => (d.xtSource ps k).xtRecord ps k) d
  match arrived ps 480 with
  | some p => d.fabRecord 0x06 0 p 1 false
  | none => d

/-- Source pulses reach the fabric: those whose source has not pulsed before in this step are given for the other consumers (R175). -/
def fabricArrival (codes : List Nat) (d : Dev) : Dev × List Pulse :=
  let d := d.fabNow
  let t := takePulses codes d.pulses
  let old := d.fab.seen
  let ps := t.1.filter fun p => !(old.any fun q => q.code = p.code)
  let d := { d with pulses := t.2 }.setFab { d.fab with seen := old ++ ps }
  (d.fabStep old ps, ps)

/-! ### Timers, the software trigger and the commit (R183, R198) -/

/-- A timer pulses at its REF_IN edge (R183). -/
def timerPulse (m : Nat) (d : Dev) : Dev :=
  match d.fab.timers.get (fun _ => none) m with
  | some t =>
    if t.at_ ≤ d.now ∧ t.edge ≤ d.tb.edges then
      let p := d.fbf (Reg.TM_CFG m) 0 24
      let d := d.setFab { d.fab with timers := d.fab.timers.set (fun _ => none) m (if p = 0 then none else some ⟨0, d.tb.edges + p⟩) }
      d.pulse (464 + m) d.now 0xFF 0
    else d
  | none => d

/-- FAB_CMD SW_TRIG (R183). -/
def swTrig (d : Dev) : Dev := d.pulse 480 d.now 0xFF 0

/-- FAB_CMD COMMIT (R198): a COMMIT_AT already past takes the next REF_IN edge, with COMMIT_LATE; one that is armed already stays. -/
def fabCommit (d : Dev) : Dev :=
  if d.fab.commitAt.isSome then d
  else
    let at0 := ofShort (d.n64 Reg.COMMIT_AT_LO Reg.COMMIT_AT_HI)
    let d := d.setB Reg.FAB_STATUS 5
    if at0 < d.now then (d.setB Reg.FAB_STATUS 8).setFab { d.fab with commitAt := some (d.now + 1) }
    else d.setFab { d.fab with commitAt := some at0 }

/-- FAB_CMD CANCEL_COMMIT (R198). -/
def fabCancel (d : Dev) : Dev := (d.clrB Reg.FAB_STATUS 5).setFab { d.fab with commitAt := none }

/-- The registers of the pending bank, as listed. -/
def Dev.fabPending (d : Dev) : Tab Word := d.regs.filter fun r => fabBankKey r.1

/-- The bank takes force at the first REF_IN edge at or after COMMIT_AT (R198). -/
def fabCommitTake (d : Dev) : Dev :=
  match d.fab.commitAt with
  | none => d
  | some t =>
    if d.now < t then d
    else
      let old := d
      let d := (d.clrB Reg.FAB_STATUS 5).setFab { d.fab with bank := d.fabPending, commitAt := none }
      let d := d.wrN Reg.COMMITS ((d.n Reg.COMMITS + 1) % 2 ^ 28)
      let changed := fun (ks : List Nat) => ks.any fun k => d.fb k ≠ old.fb k
      let d := (List.range 8).foldl (fun d q =>
        if changed [Reg.QS_CFG q, Reg.QS_COUNT q, Reg.QS_WINDOW q, Reg.QS_HOLDOFF q] then d.setQs q {} else d) d
      let d := (List.range 4).foldl (fun d k =>
        if (d.blank k).until_.isSome ∧ (!d.fbOn (Reg.BLANK_CFG k) 31
            ∨ (d.fb (Reg.BLANK_MASK_LO k) = 0 ∧ d.fb (Reg.BLANK_MASK_HI k) = 0)) then
          d.blankOff k true (old.fbOn (Reg.BLANK_CFG k) 29)
        else d) d
      let d := (List.range 8).foldl (fun d m =>
        if changed [Reg.TM_AT_LO m, Reg.TM_AT_HI m, Reg.TM_CFG m] then
          let at0 := ofShort ((d.fb (Reg.TM_AT_HI m)).toNat * 2 ^ 32 + (d.fb (Reg.TM_AT_LO m)).toNat)
          let next := if d.fbOn (Reg.TM_CFG m) 31 then some (if at0 < d.now then ⟨0, d.tb.edges + 1⟩ else ⟨at0, 0⟩) else none
          d.setFab { d.fab with timers := d.fab.timers.set (fun _ => none) m next }
        else d) d
      d.event Reg.FAB_STATUS 1374

end Sys2Proof.Machine
end

