-- ==== Sys2Proof/Machine/StreamOut.lean ====
section
/-! DEFINITION. The two stream-out ports: links, pauses, the merge of a flow's sources, packets and hash chains (chapter Stream-Out and Compression). -/
namespace Sys2Proof.Machine

/-! ### Links and pauses (R465 to R467) -/

/-- PAUSED and PAUSED_ANY show the priorities paused. -/
def Dev.showPaused (d : Dev) (p : Nat) : Dev :=
  let v := (d.soSt p).pauses.foldl (fun a e => a + 2 ^ e.1) 0
  (d.wrN (Reg.PAUSED p) v).putB (Reg.SO_STATUS p) 1 (v ≠ 0)

/-- A priority is paused. -/
def Dev.isPaused (d : Dev) (p prio : Nat) : Bool := (d.soSt p).pauses.any fun e => e.1 == prio

/-- The pause state of one priority: a timer in quanta of 1.28 ns; a timer of 0 releases it. -/
def Dev.pause (d : Dev) (p prio quanta : Nat) : Dev :=
  d.setSo p { d.soSt p with pauses := (d.soSt p).pauses.set (fun _ => 0) prio (if quanta = 0 then 0 else d.up + (quanta * 128 * 2 ^ 64 + 99999999999) / 100000000000) }

/-- A PFC frame arrives (R466). -/
def pfcFrame (p : Nat) (fcsOk : Bool) (enables : Nat) (timers : List Nat) (d : Dev) : Dev :=
  if !fcsOk then d.addSat (Reg.RX_DISCARDS p) 1
  else
    let d := d.addSat (Reg.RX_PFC p) 1
    ((List.range 8).foldl (fun d k =>
      if (enables >>> k) % 2 = 1 ∧ d.on (Reg.SO_CTRL p) k then d.pause p k (nth timers k 0 % 65536) else d) d).showPaused p

/-- A pause timer expires (R466). -/
def pfcExpire (p prio : Nat) (d : Dev) : Dev :=
  if d.isPaused p prio ∧ (d.soSt p).pauses.get (fun _ => 0) prio ≤ d.up then (d.pause p prio 0).showPaused p else d

/-- Any other frame received is discarded and counted (R465). -/
def rxDiscard (p : Nat) (d : Dev) : Dev := d.addSat (Reg.RX_DISCARDS p) 1

/-- The time of a frame on the wire with preamble and gap, at 400 Gbit/s. -/
def frameTime (bytes : Nat) : Nat := ((bytes + 20) * 8 * 2 ^ 64 + 399999999999) / 400000000000

/-- The link goes down: a packet in transmission is cut short (R467). -/
def soLinkDown (p : Nat) (d : Dev) : Dev :=
  if !d.on (Reg.SO_STATUS p) 0 then d
  else
    let x := d.soSt p
    let d := d.setSo p { x with cut := x.cut || decide (d.up < x.until_) }
    (d.clrB (Reg.SO_STATUS p) 0).sqEvent (Reg.SO_STATUS p) 13 (1520 + 4 * p)

/-- The link comes up: a packet that was cut short is sent again whole (R467). -/
def soLinkUp (p : Nat) (d : Dev) : Dev :=
  if d.on (Reg.SO_STATUS p) 0 then d
  else
    let d := (d.setB (Reg.SO_STATUS p) 0).sqEvent (Reg.SO_STATUS p) 13 (1520 + 4 * p)
    let x := d.soSt p
    if !x.cut then d
    else
      let d := d.setSo p { x with cut := false, until_ := d.up + frameTime x.frame.length }
      (d.addSat (Reg.RESENDS p) 1).sqEvent (Reg.SO_STATUS p) 11 (1522 + 4 * p)

/-- CLEAR_COUNTS of a port (R481). -/
def soClear (p : Nat) (d : Dev) : Dev :=
  [Reg.TX_PKTS p, Reg.TX_BYTES_LO p, Reg.TX_BYTES_HI p, Reg.RESENDS p, Reg.RX_PFC p, Reg.RX_DISCARDS p, Reg.FEC_CORR p, Reg.FEC_UNCORR p,
    Reg.SO_GAPS p].foldl (fun d k => d.wrN k 0) d

/-- FLOW_PKT and FLOW_HEAD show the flow FLOW_SEL selects. -/
def Dev.showFlow (d : Dev) (p : Nat) : Dev :=
  let x := d.flow p (d.n (Reg.FLOW_SEL p) % 256)
  let d := d.wr64 (Reg.FLOW_PKT_LO p) (Reg.FLOW_PKT_HI p) (x.pkt % 2 ^ 64)
  (List.range 8).foldl (fun d k => d.wrN (Reg.FLOW_HEAD p k) (nth (digestWords x.head) k 0)) d

/-! ### The merge (R29, R470) -/

/-- The earliest of some instants and now. -/
def Dev.earliest (d : Dev) (l : List (Option Nat)) : Nat := (l.filterMap id).foldl min d.now

/-- The device time to which the producer of a region has reported progress: that of its oldest record on the way, else the start of what it still holds back, else now. -/
def Dev.progress (d : Dev) (r : Nat) : Nat :=
  match d.outOf r with
  | x :: _ => wordTime (wd x 1)
  | [] =>
    if r < 48 then
      let p := r / 8
      let ws := d.portForce p
      let coming := if (d.stream r).live then some (d.convTag p (((d.port p).pos * formStep ws : Nat) - (reach ws : Nat) : Int)) else none
      d.earliest ([(d.stream r).gapFrom, coming] ++ (List.range 16).map fun x =>
        (d.cx x).bind fun e => if e.stream = r then some (d.ringTag r e.pos) else none)
    else if r < 96 then
      let l := r - 48
      let x := d.lane l
      let gov := d.governing l
      let next := if (d.lane gov).gridOn ∧ d.laneWanted l then some (d.tagOf gov (d.frameStart gov (if gov = l then x.ord else x.next))) else none
      let sweep := (d.dens.get (fun _ => {}) l).sweep.bind fun y => y.recs.head?.map fun q => wordTime (wd q 1)
      d.earliest [next, x.fillFrom.map (·.1), x.overFrom, x.lostFrom, x.oosFrom, if d.laneWanted l then (d.stream gov).shedFrom else none, sweep]
    else if r < 112 then
      let n := r - 96
      min (d.eiProgress n) (d.earliest [(d.eiSt n).blk.map (·.t0)])
    else if r < 128 then
      let x := d.su (r - 112)
      let c := x.c 0
      let ins := if suOn c then [some (d.eiProgress (suInA c)), if suUsesB c then some (d.eiProgress (suInB c)) else none] else []
      d.earliest ([x.open_.map (·.t0), x.later.head?.map fun e => wordTime e.1, x.a.overrun.map (·.t), x.b.overrun.map (·.t),
        x.a.buf.head?.map (·.t), x.b.buf.head?.map (·.t), x.a.cand.map (·.t), x.b.cand.map (·.t)] ++ ins)
    else if r = 256 then d.earliest [if d.fab.step.isEmpty then none else some d.fab.stepAt, if d.fab.skipped = 0 then none else some d.fab.skipFrom]
    else if r = 258 then d.earliest [if d.sump.skipped = 0 then none else some d.sump.skipFrom]
    else d.now

/-- What a port finds at the place a source's consumer stands at. -/
inductive Front where
  | empty
  | whole (r : Rec)
  /-- Unreadable words, of this unit; what will be read next once it stands, and the units' records in between. -/
  | bad (unit : Nat) (skipped : Nat) (cp : Nat) (next : Option (Word128 × Word128))
  | denied
deriving DecidableEq, Repr

/-- The initiator of a flow (R537). -/
def flowIni (p f : Nat) : Ini := BitVec.ofNat 10 (0x200 + 256 * p + f)

/-- The first record at or after an offset whose header the port reads whole, by fuel: its header words, its offset, and the records passed over. -/
def Dev.nextWhole (d : Dev) (x : Region) (m : Mem) : Nat → Nat → Nat → Option (Word128 × Word128 × Nat × Nat)
  | 0, _, _ => none
  | n + 1, o, k =>
    if o = x.wp then none
    else
      let h := x.word m o
      if fld h 120 8 = 0 then Dev.nextWhole d x m n 0 k
      else if (d.ueIn (x.base + 16 * o) 32).isNone then some (h, x.word m ((o + 1) % x.cap), o, k)
      else Dev.nextWhole d x m n ((o + max 2 (fld h 96 20)) % x.cap) (k + 1)

/-- The port reads the next record of a source (R452, R519). -/
def soFront (p f r : Nat) (m : Mem) (d : Dev) : Dev × Nat × Front :=
  let x := d.rgn r
  let who := flowIni p f
  let o := if x.cp ≠ x.wp ∧ fld (x.word m x.cp) 120 8 = 0 then 0 else x.cp
  if x.cap = 0 ∨ o = x.wp then (d, o, .empty)
  else
    let bad := fun (d : Dev) (u o1 : Nat) =>
      match d.nextWhole x m (x.cap + 1) o1 1 with
      | some (h, t, o2, k) => (d, o, Front.bad u k o2 (some (h, t)))
      | none => (d, o, Front.bad u 1 o1 none)
    let len := max 2 (fld (x.word m o) 96 20)
    match memRead who (19 + p) (x.base + 16 * o) (16 * len) m d with
    | (d, .ok l) => (d, o, .whole (words128 l))
    | (d, .denied) => (d, o, .denied)
    | (d, .ue u) => bad d u ((o + len) % x.cap)

/-- The record a source would give next: its words, the consumer's new place, and the record as known to the order of R28. -/
structure Offer where
  src : Nat
  words : Rec
  cp : Nat
  cause : Nat
deriving DecidableEq, Repr

/-- A source's loss by overwriting (R470): the GAP record in the place of the records lost. -/
def overrunGap (h t : Word128) (n : Nat) (stop : Word128) : Rec :=
  put (put (put h 120 8 0x09) 96 20 5) 64 8 0 :: t :: gapPayload 0x50 3 n t stop

/-- What could not be read, as its ERROR record (R519). -/
def unreadable (last : Option (Word128 × Word128)) (next : Word128 × Word128) (skipped unit : Nat) : Rec :=
  let seq := match last with
    | some l => (fld l.1 32 32 + 1) % 2 ^ 32
    | none => (fld next.1 32 32 + 2 ^ 32 - skipped % 2 ^ 32) % 2 ^ 32
  let n := (fld next.1 32 32 + 2 ^ 32 - seq) % 2 ^ 32
  let l := last.getD next
  put (put (put (put l.1 120 8 0x0A) 96 20 6) 64 8 0) 32 32 seq :: l.2 :: errPayload 0x45 3 n l.2 next.2 (packBE 128 [(32 * unit, 48), (0, 80)])

/-- A record of reserved TYPE goes out as an ERROR record of the same source (R32); the manual gives it no cause. -/
def reservedRecord (fresh : Nat) (r : Rec) : Rec :=
  put (put (wd r 0) 120 8 0x0A) 96 20 6 :: wd r 1 :: errPayload (Config.freeNat fresh % 256) 0 0 (wd r 1) (wd r 1) 0

/-- What a source offers: a record, or the GAP or ERROR that stands for what was lost before it. -/
def soOffer (p f r : Nat) (m : Mem) (d : Dev) : Dev × Option Offer :=
  let q := soFront p f r m d
  let x := q.1.rgn r
  match x.lost, q.2.2 with
  | some (h, t, n), .whole rec0 => (q.1, some ⟨r, overrunGap h t n (wd rec0 1), x.cp, 0x50⟩)
  | some (h, t, n), .bad _ _ _ (some next) => (q.1, some ⟨r, overrunGap h t n next.2, x.cp, 0x50⟩)
  | none, .whole rec0 => (q.1, some ⟨r, rec0, (q.2.1 + max 2 (fld (wd rec0 0) 96 20)) % x.cap, 0⟩)
  | none, .bad u k cp (some next) => (q.1, some ⟨r, unreadable ((q.1.flow p f).last.find? r) next k u, cp, 0x45⟩)
  | _, _ => (q.1, none)

/-- The order of R28: header time, then SOURCE_ID, then SEQ. -/
def Offer.before (a b : Offer) : Bool :=
  let ka := [wordTime (wd a.words 1), fld (wd a.words 0) 80 16, fld (wd a.words 0) 32 32]
  let kb := [wordTime (wd b.words 1), fld (wd b.words 0) 80 16, fld (wd b.words 0) 32 32]
  decide (ka < kb)

/-- The offers of several sources. -/
def soOffers (p f : Nat) (m : Mem) : List Nat → Dev → Dev × List (Nat × Option Offer)
  | [], d => (d, [])
  | r :: l, d =>
    let a := soOffer p f r m d
    let b := soOffers p f m l a.1
    (b.1, (r, a.2) :: b.2)

/-- A flow is enabled and may send: port, link and priority (R466, R467). -/
def Dev.flowRuns (d : Dev) (p f : Nat) : Bool :=
  let a := flowA (d.force (62 + p)) f
  d.on (Reg.SO_CTRL p) 31 && d.on (Reg.SO_STATUS p) 0 && bit a 127 && !d.isPaused p (fld a 123 3)

/-- The effective time of a committed switch of the flow setup that is still to come. -/
def Dev.flowSwitchAt (d : Dev) (p : Nat) : Option Nat := (d.dueGroup (62 + p)).map (·.1.teff)

/-- A flow can take a record: its context, if any, or its packet stage has none in hand. -/
def Dev.flowFree (d : Dev) (p f : Nat) : Bool :=
  let c := fld (flowA (d.force (62 + p)) f) 47 5
  if c = 31 then (d.flow p f).items.isEmpty else d.ctxIdle c

/-- A record passes from a flow's merge to its context or packets. -/
def Dev.flowTake (d : Dev) (p f : Nat) (o : Offer) : Dev :=
  let x := d.flow p f
  let d := d.setFlow p f { x with last := x.last.insert o.src (wd o.words 0, wd o.words 1) }
  let g := d.rgn o.src
  let d := d.setRgn o.src { g with cp := o.cp, lost := if o.cause = 0x50 then none else g.lost }
  let d := if o.cause = 0x50 then (d.addSat (Reg.SO_GAPS p) 1).sqEvent (Reg.SO_STATUS p) 12 (1521 + 4 * p) else d
  let typ := fld (wd o.words 0) 120 8
  let odd := decide (0x0C ≤ typ) && decide (typ < 0x80)
  let words := if odd then reservedRecord d.fresh o.words else o.words
  let d := if odd then d.draw else d
  let c := fld (flowA (d.force (62 + p)) f) 47 5
  if c < 20 then d.ctxRecord c p f words
  else d.addItem p f ⟨0, fld (wd words 0) 120 8, wordTime (wd words 1), words, 0, true⟩

/-- A region holds nothing for its consumer but the zero word of a wrap. -/
def Dev.rgnEmpty (d : Dev) (r : Nat) (m : Mem) : Bool :=
  let x := d.rgn r
  let o := if x.cp ≠ x.wp ∧ fld (x.word m x.cp) 120 8 = 0 then 0 else x.cp
  decide (x.cap = 0 ∨ o = x.wp)

/-- A flow releases its next record once every other source has reported progress to its time (R29, R470). -/
def flowRelease (p f : Nat) (s : Sys) : Sys :=
  let d := s.dev
  if !d.flowRuns p f || !d.flowFree p f then s
  else
    let q := soOffers p f s.mem (flowSrcs (flowA (d.force (62 + p)) f)) d
    let s := { s with dev := q.1 }
    match (q.2.filterMap (·.2)).foldl (fun (b : Option Offer) o => match b with | some a => if o.before a then some o else some a | none => some o) none with
    | none => s
    | some o =>
      let t := wordTime (wd o.words 1)
      let ready := q.2.all fun e => e.2.isSome || s.dev.rgnEmpty e.1 s.mem && decide (t ≤ s.dev.progress e.1)
      let late := match s.dev.flowSwitchAt p with
        | some te => decide (te ≤ t)
        | none => false
      if !ready || late then s else s.on fun d => d.flowTake p f o

/-! ### Setup switches (R470, R473, R477) -/

/-- The flows that a switch touches: all where the port word changes, else those whose words change. -/
def touchedFlows (old new : List Word128) : List Nat :=
  if old.isEmpty ∨ wd old 0 ≠ wd new 0 then List.range 256
  else (List.range 256).filter fun f => flowA old f ≠ flowA new f ∨ flowB old f ≠ flowB new f

/-- H_0 of a flow's chain (R473). -/
def chainStart (p f : Nat) (origin : Word128) : List Byte :=
  shake256 32 ([0x43, BitVec.ofNat 8 p] ++ bytesBE 2 f ++ [0, 0, 0, 0] ++ wordBytes origin)

/-- Every source of a flow has passed T_eff: no record timed before it waits or can still come. -/
def Dev.flowPast (d : Dev) (p f te : Nat) (m : Mem) : Bool :=
  (flowSrcs (flowA (d.force (62 + p)) f)).all fun r =>
    let x := d.rgn r
    let o := if x.cp ≠ x.wp ∧ fld (x.word m x.cp) 120 8 = 0 then 0 else x.cp
    if d.rgnEmpty r m then decide (te ≤ d.progress r)
    else x.lost.isNone && decide (te ≤ wordTime (x.word m ((o + 1) % x.cap)))

/-- A flow setup takes effect (R470, R473): once every flow has released the records before T_eff, open blocks of the touched flows end; once their packets have left, chain origins are set and the histories of the privileged contexts that served them emptied; one that served no flow keeps what a RESTORE gave it (R479). -/
def flowSwitch (p : Nat) (s : Sys) : Sys :=
  let d := s.dev
  match d.takeSwitch (62 + p) with
  | none => s
  | some (sw, d2) =>
    let live := (List.range 256).filter fun f => bit (flowA sw.old f) 127
    if d.now < sw.teff || !(live.all fun f => d.flowPast p f sw.teff s.mem && (d.flowFree p f || !bit (flowA sw.old f) 127)) then s
    else
      let touched := touchedFlows sw.old sw.new
      let ctxs := fun (ws : List Word128) => (touched.filter fun f => bit (flowA ws f) 127).map fun f => fld (flowA ws f) 47 5
      let open_ := (ctxs sw.old).filter fun c => decide (c < 20) && (d.ctx c).block.isSome
      if !open_.isEmpty then s.on fun d => open_.foldl (fun d c => d.ctxEnd c) d
      else if touched.any fun f => !(d.flow p f).items.isEmpty then s
      else
        let w := d2.timeWord 4 false sw.teff
        let d := touched.foldl (fun d f =>
          let a := flowA sw.new f
          d.setFlow p f (if bit a 127 then { origin := w, head := if bit a 46 then chainStart p f w else [] } else {})) d2
        let kp := (ctxs sw.old).filter fun c => decide (16 ≤ c) && decide (c < 20)
        { s with dev := (kp.foldl (fun d c => d.setCtx c { d.ctx c with hist := [], blocks := 0 }) d).showFlow p }

/-! ### Packets (R471 to R473, R563) -/

/-- The ones'-complement checksum of 16-bit words. -/
def inetSum (l : List Byte) : Nat :=
  let v := (chunks 2 (l ++ List.replicate (l.length % 2) 0)).foldl (fun a c => a + natBE c) 0
  let v := v % 65536 + v / 65536
  65535 - (v % 65536 + v / 65536)

/-- The UDP payload: one VITA 49.2 packet that carries words of an item (R471, R472, R563). -/
def vitaPacket (ws : List Word128) (f pkt item : Nat) (i : SoItem) (n : Nat) (last : Bool) : List Byte :=
  let w0 := wd ws 0
  let evid := decide (i.kind = 0 ∧ i.typ = 0x0B)
  let head := packBE 128 [(if evid then 5 else 3, 4), (1, 1), (0, 3), (3, 2), (2, 2), (pkt, 4), (11 + 4 * n, 16),
    (fld (flowA ws f) 52 32, 32), (0, 8), (fld w0 50 24, 24), (fld w0 74 16, 16), (i.kind, 8), (i.typ, 8)]
  let frac := (rshr (((i.time % 2 ^ 64 * 1000000000000 : Nat)) : Int) 64).toNat
  let frag := packBE 128 [(pkt, 64), (item, 32), (i.sent, 20), (b2n (i.sent = 0), 1), (b2n last, 1), (i.kind, 2), (0, 8)]
  wordBytes head ++ bytesBE 4 (i.time / 2 ^ 64) ++ bytesBE 8 frac ++ wordBytes frag ++ (i.words.take n).flatMap wordBytes

/-- The Ethernet frame of a UDP payload, FCS included (R471). -/
def Dev.ethFrame (d : Dev) (p f : Nat) (pay : List Byte) : List Byte :=
  let ws := d.force (62 + p)
  let w0 := wd ws 0
  let a := flowA ws f
  let b := flowB ws f
  let v6 := bit a 126
  let nh := fld a 100 4
  let sport := bytesBE 2 (fld w0 90 16 + f)
  let udpLen := 8 + pay.length
  let src := if v6 then (List.range 4).reverse.flatMap fun k => bytesBE 4 (d.n (Reg.SRC_IP p k)) else bytesBE 4 (d.n (Reg.SRC_IP p 0))
  let dst := if v6 then wordBytes b else bytesBE 4 (fld b 0 32)
  let pseudo := if v6 then src ++ dst ++ bytesBE 4 udpLen ++ [0, 0, 0, 17] else src ++ dst ++ [0, 17] ++ bytesBE 2 udpLen
  let udp := sport ++ bytesBE 2 (fld a 84 16) ++ bytesBE 2 udpLen
  let sum := inetSum (pseudo ++ udp ++ [0, 0] ++ pay)
  let udp := udp ++ bytesBE 2 (if sum = 0 then 65535 else sum) ++ pay
  let ttl := fld w0 106 8
  let ip :=
    if v6 then bytesBE 4 (6 * 2 ^ 28 + fld a 117 6 * 2 ^ 22) ++ bytesBE 2 udpLen ++ [17, BitVec.ofNat 8 ttl] ++ src ++ dst
    else
      let h1 := [0x45, BitVec.ofNat 8 (fld a 117 6 * 4)] ++ bytesBE 2 (20 + udpLen) ++ [0, 0, 0x40, 0, BitVec.ofNat 8 ttl, 17]
      h1 ++ bytesBE 2 (inetSum (h1 ++ src ++ dst)) ++ src ++ dst
  let mac := fun (hi lo : Nat) => bytesBE 2 (d.n hi) ++ bytesBE 4 (d.n lo)
  let tag := if bit a 116 then [0x81, 0x00] ++ bytesBE 2 (fld a 123 3 * 2 ^ 13 + fld a 104 12) else []
  let frame := mac (Reg.NH_MAC_HI p nh) (Reg.NH_MAC_LO p nh) ++ mac (Reg.SRC_MAC_HI p) (Reg.SRC_MAC_LO p) ++ tag
    ++ (if v6 then [0x86, 0xDD] else [0x08, 0x00]) ++ ip ++ udp
  frame ++ bytesLE 4 (crc32 frame)

/-- The port serves a flow: it runs, and a packet's words of its first item stand (R470). -/
def Dev.flowReady (d : Dev) (p f : Nat) : Bool :=
  let ws := d.force (62 + p)
  match (d.flow p f).items with
  | i :: _ => d.flowRuns p f && (i.whole && !i.words.isEmpty || decide (packetWords ws (flowA ws f) ≤ i.words.length))
  | [] => false

/-- The next ready flow after the one served last, round-robin. -/
def Dev.nextFlow (d : Dev) (p : Nat) : Option Nat :=
  ((List.range 256).map fun k => ((d.soSt p).turn + 1 + k) % 256).find? fun f => d.flowReady p f

/-- The port forms the next packet of a ready flow and sends it (R467, R470 to R473). -/
def packetSend (p : Nat) (d : Dev) : Dev :=
  if d.up < (d.soSt p).until_ ∨ (d.soSt p).cut then d
  else
    match d.nextFlow p with
    | none => d
    | some f =>
      let ws := d.force (62 + p)
      let x := d.flow p f
      match x.items with
      | [] => d
      | i :: rest =>
        let n := min (packetWords ws (flowA ws f)) i.words.length
        let last := i.whole && n == i.words.length
        let pkt := x.pkt + 1
        let pay := vitaPacket ws f pkt x.item i n last
        let frame := d.ethFrame p f pay
        let i2 : SoItem := { i with words := i.words.drop n, sent := i.sent + n }
        let x : FlowSt := {
          x with
          pkt := pkt
          item := if last then (x.item + 1) % 2 ^ 32 else x.item
          head := if bit (flowA ws f) 46 then shake256 32 (x.head ++ pay) else x.head
          items := if last then rest else i2 :: rest }
        let d := d.setFlow p f x
        let d := d.setSo p { d.soSt p with turn := f, frame := frame, until_ := d.up + frameTime frame.length }
        let d := d.add (Reg.TX_PKTS p) 1
        (d.wr64 (Reg.TX_BYTES_LO p) (Reg.TX_BYTES_HI p) ((d.n64 (Reg.TX_BYTES_LO p) (Reg.TX_BYTES_HI p) + frame.length) % 2 ^ 64)).showFlow p

end Sys2Proof.Machine
end

