-- ==== Sys2Proof/Machine/Trust.lean ====
section
/-! DEFINITION. Trust: OTP items, the device's identity, attestation and evidence (chapter Trust, Identity and Evidence). -/
namespace Sys2Proof.Machine

def Dev.onTrust (d : Dev) (f : TrustSt → TrustSt) : Dev := { d with trust := f d.trust }

/-- An event of the block: its status bit sets, SEQ increments and the event is raised (R565, R566). -/
def Dev.trEvent (d : Dev) (b n : Nat) : Dev := (d.setB Reg.TR_STATUS b).event Reg.TR_STATUS n

/-! ### OTP words (R576, R577) -/

def Dev.otp (d : Dev) (k : Nat) : OtpItem := d.trust.otp.get (fun _ => {}) k
def Dev.setOtp (d : Dev) (k : Nat) (x : OtpItem) : Dev := d.onTrust fun t => { t with otp := t.otp.set (fun _ => {}) k x }

/-- The item has a valid value. -/
def OtpItem.valid (x : OtpItem) : Bool := x.prim == 1 || x.spare == 1

/-- A word of the item can still be programmed. -/
def OtpItem.open_ (x : OtpItem) : Bool := !x.valid && (x.prim == 0 || (x.prim == 2 && x.spare == 0))

/-- The word being programmed takes a state: the primary one if it is BLANK, and else the spare. -/
def OtpItem.put (x : OtpItem) (st : Nat) : OtpItem := if x.prim = 0 then { x with prim := st } else { x with spare := st }

/-- The OTP item of cell k of counter c. -/
def rbItem (c k : Nat) : Nat := 100 + 63 * c + k

/-- A counter's value counts its VALID cells (R576). -/
def Dev.rbValue (d : Dev) (c : Nat) : Nat := ((List.range 63).filter fun k => (d.otp (rbItem c k)).valid).length

/-- What an item that now reads VALID shows: a counter's value, or JTAG_LOCKED. -/
def Dev.otpShow (d : Dev) (k : Nat) : Dev :=
  if 100 ≤ k then d.wrN (Reg.RB_CTR ((k - 100) / 63)) (d.rbValue ((k - 100) / 63))
  else if k = 4 then d.setB Reg.ID_STATE 28
  else d

/-- A PARTIAL word comes about (R577). -/
def Dev.otpPartial (d : Dev) : Dev :=
  ((d.wrF Reg.OTP_STATUS 16 16 (satAdd 16 (d.f Reg.OTP_STATUS 16 16) 1)).setB Reg.PR_STATUS 3).event Reg.PR_STATUS 1509

/-- An item ends OTP_EXHAUSTED: the manual gives its sump report no code or root (log entry 75). -/
def Dev.otpExhausted (d : Dev) : Dev :=
  let d := d.wrF Reg.OTP_STATUS 0 16 (satAdd 16 (d.f Reg.OTP_STATUS 0 16) 1)
  (d.report (Config.freeNat d.fresh % 256) (Config.freeNat (d.fresh + 1) % 65536) 24).draw.draw

/-- The word at the head of the program queue is done with: the last of an advance raises event 1499. -/
def Dev.otpNext (d : Dev) : Dev :=
  match d.trust.prog with
  | [] => d
  | (_, fin) :: l =>
    let d := d.onTrust fun t => { t with prog := l }
    if fin then d.trEvent 4 1499 else d

/-- An OTP word finishes programming (R576); `cut` leaves it PARTIAL, and the spare is programmed next if it is BLANK. -/
def otpProgramDone (cut : Bool) (d : Dev) : Dev :=
  match d.trust.prog with
  | [] => d
  | (k, _) :: _ =>
    let x := d.otp k
    if x.valid then d.otpNext
    else if !x.open_ then d.otpExhausted.otpNext
    else if cut then
      let d := (d.setOtp k (x.put 2)).otpPartial
      if (x.put 2).open_ then d else d.otpExhausted.otpNext
    else ((d.setOtp k (x.put 1)).otpShow k).otpNext

/-- Words join the program queue. -/
def Dev.otpQueue (d : Dev) (l : List (Nat × Bool)) : Dev := d.onTrust fun t => { t with prog := t.prog ++ l }

/-- A reset cuts the word that is being programmed short and drops the others; revoke bits not yet programmed are lost (R548, R576). The flag says that a word became PARTIAL. -/
def Dev.otpReset (d : Dev) : Dev × Bool :=
  let lost := (d.trust.prog.filter fun e => e.1 < 4).foldl (fun (d : Dev) e => if (d.otp e.1).valid then d else d.clrB Reg.KEY_SLOTS (4 + e.1)) d
  let d := lost
  match d.trust.prog with
  | [] => (d, false)
  | (k, _) :: _ =>
    let x := d.otp k
    let d := d.onTrust fun t => { t with prog := [] }
    if x.open_ then (d.setOtp k (x.put 2), true) else (d, false)

/-- The PARTIAL words of OTP. -/
def Dev.otpPartials (d : Dev) : Nat :=
  d.trust.otp.foldl (fun n e => n + b2n (e.2.prim == 2) + b2n (e.2.spare == 2)) 0

/-! ### Guarded commands (R547, R548, R552 to R554) -/

/-- A valid FIRE of KEY_REVOKE: REFUSED where no slot would stay usable. -/
def keyRevoke (v : Word) (d : Dev) : Guarded :=
  let l := (List.range 4).filter fun k => bit v k && !d.on Reg.KEY_SLOTS (4 + k)
  let e := l.foldl (fun (d : Dev) k => d.setB Reg.KEY_SLOTS (4 + k)) d
  if (List.range 4).all fun k => !e.on Reg.KEY_SLOTS k || e.on Reg.KEY_SLOTS (4 + k) then .refused
  else if l.isEmpty then .take d
  else .take ((e.otpQueue (l.map fun k => (k, false))).trEvent 5 1498)

/-- A valid FIRE of RB_ADV: a lower value is REFUSED, an equal one changes nothing, and a greater one programs cells in ascending order. -/
def rbAdvance (v : Word) (d : Dev) : Guarded :=
  let c := fld v 8 6
  let n := fld v 0 6
  let now := d.f (Reg.RB_CTR c) 0 6
  if n < now then .refused
  else if n = now then .take d
  else
    let queued := d.trust.prog.map (·.1)
    let cells := ((List.range 63).map (rbItem c)).filter fun k => (d.otp k).open_ && !queued.contains k
    match (cells.take (n - now)).reverse with
    | [] => .take (d.trEvent 4 1499)
    | k :: l => .take (d.otpQueue (l.reverse.map (fun j => (j, false)) ++ [(k, true)]))

/-- A valid FIRE of ID_KEY: 1 GENERATE is REFUSED once provisioned or retired; 2 RETIRE is REFUSED once retired; 0 and 3 change nothing (log entry 75). -/
def idKey (v : Word) (d : Dev) : Guarded :=
  let prov := d.on Reg.ID_STATE 31
  let gone := d.on Reg.ID_STATE 30
  match fld v 0 2 with
  | 1 => if prov ∨ gone then .refused else .take (d.setB Reg.ID_STATE 29)
  | 2 =>
    if gone then .refused
    else .take (((d.onTrust fun t => { t with priv := [] }).clrB Reg.ID_STATE 29).setB Reg.ID_STATE 30 |>.trEvent 5 1498)
  | _ => .take d

/-- Key generation ends (R552): the key derives from a seed of the entropy source, a free value. -/
def idKeyGenerated (d : Dev) : Dev :=
  if !d.on Reg.ID_STATE 29 then d
  else
    let seed := ((List.range 4).flatMap fun k => wordBytes (Config.freeWord128 (d.fresh + k))).take 57
    let pub := chunks 4 (edPublic seed ++ [0, 0, 0])
    let d := d.draw.draw.draw.draw.onTrust fun t => { t with priv := seed }
    let d := (List.range 15).foldl (fun (d : Dev) k => d.wrN (Reg.ID_PUB k) (natBE (nth pub k []))) d
    ((d.clrB Reg.ID_STATE 29).setB Reg.ID_STATE 31).trEvent 5 1498

/-- A valid FIRE of JTAG_LOCK: only the value 1 programs the fuse (R554). -/
def jtagLock (v : Word) (d : Dev) : Guarded :=
  if v ≠ 1 ∨ d.on Reg.ID_STATE 28 then .refused else .take (d.otpQueue [(4, false)])

/-! ### Words of reports -/

/-- Two words that hold a 32-byte digest, from eight registers. -/
def Dev.digest2 (d : Dev) (key : Nat → Nat) : List Word128 :=
  [0, 1].map fun h => packBE 128 ((List.range 4).map fun k => (d.n (key (4 * h + k)), 32))

/-- Four 32-bit slots of a word. -/
def slots4 (l : List Nat) : Word128 := packBE 128 ((l ++ List.replicate (4 - l.length) 0).map fun v => (v, 32))

/-- Words that hold bytes, byte 0 in bits [127:120]. -/
def wordsBE (l : List Byte) : List Word128 := (chunks 16 l).map fun c => BitVec.ofNat 128 (natBE c)

/-- The serial number. -/
def Dev.serial (d : Dev) : Nat := d.n64 Reg.DEV_SERIAL_LO Reg.DEV_SERIAL_HI

/-- The device's key can sign. -/
def Dev.canSign (d : Dev) : Bool := d.on Reg.ID_STATE 31 && !d.on Reg.ID_STATE 30 && !d.trust.priv.isEmpty

/-- The eight words of a signature over words, each bit 127 first (R557). -/
def Dev.signWords (d : Dev) (ctx : List Byte) (ws : List Word128) : List Word128 :=
  wordsBE (edSign d.trust.priv ctx (ws.flatMap wordBytes) ++ List.replicate 14 0)

/-- "NLDATT" and "NLDEVD". -/
def ctxAttest : List Byte := [0x4E, 0x4C, 0x44, 0x41, 0x54, 0x54]
def ctxEvidence : List Byte := [0x4E, 0x4C, 0x44, 0x45, 0x56, 0x44]

/-! ### Attestation (R556, R557) -/

/-- Words 0 to 22 of a report, as of now. -/
def Dev.attWords (d : Dev) : List Word128 :=
  let id := d.rd Reg.DEV_ID
  let rbs := wordsBE ((List.range 64).map fun c => BitVec.ofNat 8 (d.n (Reg.RB_CTR c)))
  [packBE 128 [(0x4E4C4154, 32), (1, 8), (fld id 8 8, 8), (fld id 0 8, 8), (0, 8), (d.serial, 64)], d.timeWord 5 false d.now]
    ++ d.digest2 Reg.ATT_NONCE ++ d.digest2 Reg.BOOT_MON_DIGEST ++ d.digest2 Reg.BOOT_LDR_DIGEST ++ d.digest2 Reg.BOOT_LRX_DIGEST
    ++ d.digest2 Reg.CW_SDIGEST ++ d.digest2 Reg.STORE_DIGEST ++ d.digest2 Reg.WIN_DIGEST ++ d.digest2 Reg.LOG_HEAD
    ++ [packBE 128 [(d.n Reg.LOG_ENTRIES, 32), (d.n Reg.WIN_EPOCH, 32), (d.n Reg.CW_SWITCHES, 32), (d.f Reg.KEY_SLOTS 4 4, 4), (d.f Reg.KEY_SLOTS 0 4, 4), (0, 24)]]
    ++ rbs

/-- ATT_CMD START: REFUSED while a report is in progress. -/
def attStart (i : Ini) (d : Dev) : Dev :=
  if d.on Reg.TR_STATUS 0 then d.lateWrite i Reg.ATT_CMD 4
  else (d.setB Reg.TR_STATUS 0).onTrust fun t => { t with att := some { edge := d.tb.edges, addr := d.n64 Reg.ATT_ADDR_LO Reg.ATT_ADDR_HI } }

/-- The snapshot is taken at the end of the first REF_IN edge after the command, when every change of that edge is in force (R556). -/
def attSnap (d : Dev) : Dev :=
  match d.trust.att with
  | some x => if x.snap.isNone ∧ x.edge < d.tb.edges then d.onTrust fun t => { t with att := some { x with snap := some d.attWords } } else d
  | none => d

/-- The signed report is written, or the key is missing (R556). -/
def attestationDone (s : Sys) : Sys :=
  let s := s.on attSnap
  match s.dev.trust.att with
  | some ⟨_, addr, some ws⟩ =>
    let fin := fun (d : Dev) (result : Nat) =>
      ((d.onTrust fun t => { t with att := none }).wrF Reg.ATT_RESULT 28 4 result |>.clrB Reg.TR_STATUS 0).trEvent 3 1495
    if !s.dev.canSign then s.on fun d => fin d 2
    else
      match memWrite 0x1E4 22 addr ((ws ++ s.dev.signWords ctxAttest ws).flatMap memWord) s with
      | (s, .denied) => s.on fun d => fin d 3
      | (s, _) => s.on fun d => fin d 1
  | _ => s

/-! ### Evidence (R558 to R563) -/

/-- Slot s of the calibration block (R560). -/
def Dev.calSlot (d : Dev) (s : Nat) : Nat :=
  if s < 32 then d.n (if s % 2 = 0 then Reg.EI_CAL_COUNT (s / 2) else Reg.CAL_QUAL (s / 2))
  else if s < 48 then d.n (Reg.THR_CAL (s - 32))
  else if s < 60 then d.n (if s % 2 = 0 then Reg.EQ_CAL_COUNT ((s - 48) / 2) else Reg.EQ_QUALITY ((s - 48) / 2))
  else if s < 68 then d.n (if s % 2 = 0 then Reg.FLAT_VER_COUNT ((s - 60) / 2) else Reg.FLAT_RESID ((s - 60) / 2))
  else if s = 68 then d.n Reg.AUX_CAL_COUNT
  else if s = 69 then d.n Reg.AUX_CAL_RESULT
  else 0

/-- A flow entry (R561). -/
def Dev.evdFlow (d : Dev) (v : Word) : List Word128 :=
  let p := fld v 8 1
  let f := fld v 0 8
  let a := flowA (d.force (62 + p)) f
  if bit a 127 && bit a 46 then
    let x := d.flow p f
    packBE 128 [(0, 7), (p, 1), (f, 8), (0, 48), (x.pkt, 64)] :: x.origin :: wordsBE x.head
  else [packBE 128 [(1, 1), (0, 127)], 0, 0, 0]

/-- Words 2 to 31 + 4N of an EVIDENCE record, as of now (R559); UNSIGNED is set at the signing. -/
def Dev.evdWords (d : Dev) (ctrl : Word) (flows : List Word) (num : Nat) : List Word128 :=
  let on := flows.filter fun v => bit v 31
  [packBE 128 [(0, 4), (on.length, 4), (fld ctrl 0 10, 10), (0, 14), (num, 32), (d.serial, 64)],
    slots4 [d.n Reg.COND_STATUS, d.n Reg.TB_STATUS, d.n Reg.TB_CTRL, d.n Reg.LOCK_MEAS],
    packBE 128 [(d.n64 Reg.PPS_RESID_LO Reg.PPS_RESID_HI, 64), (d.n64 Reg.PPS_SEC_LO Reg.PPS_SEC_HI, 64)],
    slots4 [d.n Reg.FL_STATUS, d.n Reg.DERATE_CAUSE, d.n Reg.SHED, d.guarLapsed],
    slots4 [d.n Reg.MARGIN, d.n Reg.WORST, d.n Reg.VDD_NOW, d.n Reg.AGE_DRIFT_MAX]]
    ++ d.digest2 Reg.CW_SDIGEST ++ d.digest2 Reg.WIN_DIGEST ++ d.digest2 Reg.LOG_HEAD
    ++ [slots4 [d.n Reg.LOG_ENTRIES, d.n Reg.WIN_EPOCH, d.n Reg.CW_SWITCHES]]
    ++ (List.range 18).map (fun w => slots4 ((List.range 4).map fun k => d.calSlot (4 * w + k)))
    ++ on.flatMap d.evdFlow

/-- The first whole multiple of PERIOD × 0.1 s at or after an instant, in units of 2^-64 s, rounded up. -/
def evdNext (period t : Nat) : Nat :=
  let k := (t * 10 + period * 2 ^ 64 - 1) / (max 1 period * 2 ^ 64)
  (k * period * 2 ^ 64 + 9) / 10

/-- EVD_CTRL and EVD_FLOW as last written take force. -/
def Dev.evdTake (d : Dev) : Dev :=
  d.onTrust fun t => { t with evd := { t.evd with
    ctrl := d.rd Reg.EVD_CTRL
    flows := (List.range 8).map fun k => d.rd (Reg.EVD_FLOW k) } }

/-- A write to EVD_CTRL or EVD_FLOW_k takes force at the next evidence instant; with no instant to come, EN takes force at once (R558, R565; log entry 77). -/
def evdWritten (d : Dev) : Dev :=
  if bit d.trust.evd.ctrl 31 ∨ !d.on Reg.EVD_CTRL 31 then d
  else d.evdTake.onTrust fun t => { t with evd := { t.evd with next := evdNext (fld t.evd.ctrl 0 10) d.now, num := 0 } }

/-- EVD_BUSY: a snapshot awaits signing. -/
def Dev.evdShow (d : Dev) : Dev := d.putB Reg.TR_STATUS 1 (!d.trust.evd.waiting.isEmpty)

/-- An evidence instant (R558): a snapshot, or a skip where two wait. -/
def evidenceInstant (d : Dev) : Dev :=
  let e := d.trust.evd
  if !bit e.ctrl 31 ∨ d.now < d.edgeAt e.next then d
  else
    let d := d.evdTake
    let c := d.trust.evd.ctrl
    let step := fun (d : Dev) => d.onTrust fun t => { t with evd := { t.evd with next := evdNext (fld c 0 10) (d.now + 1), num := t.evd.num + 1 } }
    if !bit c 31 then d
    else if 2 ≤ e.waiting.length then ((step d).addSat Reg.EVD_SKIPS 1).trEvent 6 1496
    else
      let x : EvdSnap := ⟨d.now, d.timeWord 5 false d.now, d.n Reg.CW_SWITCHES % 2 ^ 28, d.evdWords c d.trust.evd.flows e.num⟩
      ((step d).onTrust fun t => { t with evd := { t.evd with waiting := t.evd.waiting ++ [x] } }).evdShow

/-- A signed EVIDENCE record is committed to region 257 (R558, R559, R562). -/
def evidenceCommit (d : Dev) : Dev :=
  match d.trust.evd.waiting with
  | [] => d
  | x :: l =>
    let d := d.onTrust fun t => { t with evd := { t.evd with waiting := l } }
    let body := if d.canSign then x.words else listSet x.words 0 (put (nth x.words 0 0) 127 1 1)
    let h : Hdr := { typ := 0x0B, src := 0x7000, flags := b2n (d.cond x.t) * 128, sw := x.sw, time := x.w }
    let p := d.form h (body ++ List.replicate 8 0)
    let head := p.2.take (2 + body.length)
    let sig := if d.canSign then d.signWords ctxEvidence head else List.replicate 8 0
    ((p.1.push 257 (head ++ sig)).add Reg.EVD_COUNT 1).evdShow

end Sys2Proof.Machine
end

