-- ==== Sys2Proof/Machine/Windows.lean ====
section
/-! DEFINITION. The commit of the access-window table (R541, R542). -/
namespace Sys2Proof.Machine

/-- A FIRE of WIN_COMMIT: only the value 1 commits, and none while EPOCH_PENDING is set (R541). -/
def winCommit (v : Word) (d : Dev) : Guarded :=
  if v ≠ 1 ∨ d.on Reg.WIN_STATUS 1 then .refused
  else .take { d.setB Reg.WIN_STATUS 1 with winPend := some ⟨d.tb.edges + 16, false⟩ }

/-- The 8,192 bytes of the table in force, entry by entry, each word most significant byte first (R542). -/
def Dev.winBytes (d : Dev) : List Byte :=
  (List.range 512).flatMap fun e => (List.range 4).flatMap fun j => bytesBE 4 (d.n (Reg.WIN_FORCE e j))

/-- Sets digest registers from 32 bytes. -/
def Dev.wrDigest (d : Dev) (key : Nat → Nat) (l : List Byte) : Dev :=
  let w := digestWords l
  (List.range 8).foldl (fun d i => d.wrN (key i) (nth w i 0)) d

/-- The staged table takes force at the first REF_IN edge 16 periods after its FIRE: WIN_EPOCH and the digest update (R541, R542). -/
def windowEpochCommit (d : Dev) : Dev :=
  match d.winPend with
  | some ⟨e, false⟩ =>
    if e ≤ d.tb.edges then
      let staged := d.regs.filter fun r => 0x2A1000 ≤ r.1 ∧ r.1 < 0x2A3000
      let d := { d with regs := d.regs.drop fun k => 0x2A3000 ≤ k && k < 0x2A5000, winPend := some ⟨e, true⟩ }
      let d := staged.foldl (fun d r => d.wr (r.1 + 0x2000) r.2) d
      (d.add Reg.WIN_EPOCH 1).wrDigest Reg.WIN_DIGEST (shake256 32 d.winBytes)
    else d
  | _ => d

/-- An access accepted under an earlier table waits at a port of the memory controller (R541). -/
def Dev.oldEpoch (d : Dev) : Bool := d.mc.ports.any fun p => p.2.reqs.any fun r => r.epoch != d.n Reg.WIN_EPOCH

/-- Every old-epoch access has completed (R541). -/
def epochDone (d : Dev) : Dev :=
  match d.winPend with
  | some ⟨_, true⟩ =>
    if d.oldEpoch then d
    else
    let d := ({ d with winPend := none }.clrB Reg.WIN_STATUS 1).wr64 Reg.EPOCH_TIME_LO Reg.EPOCH_TIME_HI (shortTime d.now)
    (d.setB Reg.WIN_STATUS 2).event Reg.WIN_STATUS 1476
  | _ => d

end Sys2Proof.Machine
end

