-- ==== Sys2Proof/Machine/Power.lean ====
section
/-! DEFINITION. Power domains, resets, the watchdog, boot and JTAG (chapters Power, Reset and Start-Up, and Electrical Characteristics and Package). -/
namespace Sys2Proof.Machine

def Dev.onPw (d : Dev) (f : PwrSt → PwrSt) : Dev := { d with pw := f d.pw }

/-! ### What outlives a reset (R568, R573) -/

/-- Retirements and bindings, which live in AON (R568, R571). -/
def retirementKey (k : Nat) : Bool :=
  let b := keyBlock k
  let o := keyOff k
  (decide (8 ≤ b ∧ b < 12) && (o == 4 || o == 8 || o == 12))
    || (decide (0x18 ≤ b ∧ b < 0x20) && decide (8 ≤ o) && decide (o < 0x20))

/-- Fused and OTP registers. -/
def otpKey (k : Nat) : Bool :=
  k < 0x10 || k == Reg.BOOT_COUNT || k == Reg.ID_STATE || k == Reg.KEY_SLOTS
    || (decide (Reg.ID_PUB 0 ≤ k) && decide (k ≤ Reg.ID_PUB 14)) || (decide (Reg.RB_CTR 0 ≤ k) && decide (k ≤ Reg.RB_CTR 63))

/-- The registers a reset of a level keeps (1 POWER_ON, 2 DEVICE, 3 WARM). -/
def keepKey (level k : Nat) : Bool :=
  otpKey k || (level ≠ 1 && (retirementKey k || keyBlock k == 0x2C || keyBlock k == 0x2D)) || (level == 3 && keyBlock k == 0x01)

/-- Retirement fields that share a register with others: the spare banks of a group's detector SRAM and retired interpolators. -/
def Dev.keepFields (d new : Dev) : Dev :=
  let new := (List.range 4).foldl (fun (n : Dev) g => n.wrF (Reg.DET_STATUS g) 2 2 (d.f (Reg.DET_STATUS g) 2 2)) new
  (List.range 16).foldl (fun (n : Dev) i =>
    let r := d.f (Reg.EI_STATE i) 22 2
    if r = 0 then n else (n.wrF (Reg.EI_STATE i) 22 2 r).wrF (Reg.EI_STATE i) 29 1 (r % 2)) new

/-- LANE_INFO of a group's lanes shows their bindings (R139). -/
def Dev.showBindings (d : Dev) (g : Nat) : Dev := (groupLanes g).foldl (fun (d : Dev) l => d.bindLane l (d.laneNib l)) d

/-- SPARE_PRESENT bits and PHYS follow the bindings kept; ROT_STOPPED takes its reset value 0 with a spare, though a device leaves reset derated (R137, log entry 80). -/
def Dev.showSpares (d : Dev) : Dev :=
  let d := (List.range 4).foldl Dev.showBindings d
  let d := (List.range 4).foldl (fun (d : Dev) g => (d.setSpare g (d.spareOf g)).putB (Reg.GRP_STATUS g) 2 (d.spareOf g == 15)) d
  (List.range 8).foldl (fun (d : Dev) c => d.setClSpare c (d.clSpare c)) d

/-- The device after a reset of a level, before its phases (R573): everything the level resets starts anew. -/
def Dev.cleared (d : Dev) (level : Nat) : Dev :=
  let p := d.otpReset
  let d := p.1
  let warm := level == 3
  let deep := level == 1
  let tb : Tb := if warm then d.tb else { refPresent := d.tb.refPresent, freqPresent := d.tb.freqPresent, warmPin := d.tb.warmPin }
  let up := tb.dt - tb.jump
  let fl : FloorSt := {
    planRec := d.fl.planRec, log := d.fl.log, counters := d.fl.counters
    usedBanks := if deep then [] else d.fl.usedBanks
    dwellAt := up, pollAt := up, scrubAt := up, resetAt := up, win := winFrom up
    sumAt := if warm then d.fl.sumAt else 0 }
  let pw : PwrSt := { d.pw with
    pdAt := []
    wdBase := if deep then 0 else if warm then d.pw.wdBase else d.pw.wdBase + (d.up - d.pw.kick)
    kick := if warm then d.pw.kick else 0 }
  let new : Dev := {
    regs := d.regs.drop fun k => !keepKey level k
    resp := d.resp, inflight := if warm then d.inflight.drop fun b => b ≠ 1 else [], fresh := d.fresh, lastDerated := tb.dt
    tb := tb, fl := fl, pw := pw
    mc := { ue := if deep then [] else d.mc.ue }
    trust := { keys := d.trust.keys, priv := d.trust.priv, otp := d.trust.otp } }
  let new := new.clrB Reg.ID_STATE 29
  let new := (if deep then new else d.keepFields new).showSpares
  let new := new.putB Reg.TB_STATUS 3 (tb.warmPin != new.on Reg.TB_CTRL 2)
  let new := ((new.wrN Reg.PD_REQ 0x3FFFF8).wrN Reg.PD_STATE 0x3FFFFF).wrN Reg.PD_PEND 0
  let new := new.wrN Reg.BOOT_STAGE 0
  if p.2 ∧ !deep then new.otpPartial else new

/-! ### Resets (R572 to R574) -/

/-- Something holds the device in step 1 of a reset. -/
def Dev.heldInReset (d : Dev) : Bool := d.pw.por || d.pw.trip || d.pw.jtag

/-- A held reset proceeds to its voltage phase once nothing holds it (R574). -/
def Dev.resetGo (d : Dev) : Dev :=
  match d.pw.reset with
  | some (level, 0) => if d.heldInReset then d else (d.onPw fun x => { x with reset := some (level, 1), tries := 0 }).wrF Reg.BOOT_STAGE 28 4 1
  | _ => d

/-- A reset begins (R572 to R574): the cause is recorded, and of causes that coincide the lowest; one that arrives during a deeper one keeps its depth (log entry 79). A POWER_ON reset loses HBM. -/
def resetStart (level cause : Nat) (s : Sys) : Sys :=
  let d := s.dev
  let coincide := match d.pw.reset with
    | some (_, 0) => decide (d.f Reg.RST_CAUSE 0 8 < cause)
    | _ => false
  let deep := match d.pw.reset with
    | some (l, _) => min l level
    | none => level
  let old := d.rd Reg.RST_CAUSE
  let d := d.cleared level
  let d := d.wr Reg.RST_CAUSE (if coincide then old else packBE 32 [(0, 16), (level, 8), (cause, 8)])
  { mem := if level = 1 then [] else s.mem, dev := (d.onPw fun x => { x with reset := some (deep, 0) }).resetGo }

/-- VDD_IO fell below its detector threshold: nothing survives, and POR_N holds the device until it is released. -/
def supplyReset (s : Sys) : Sys :=
  resetStart 1 0x01 (s.on fun d => (d.onPw fun x => { x with por := true }).onFl fun x => { x with planRec := none })

/-- POR_N is asserted. -/
def porAssert (s : Sys) : Sys := resetStart 1 0x02 (s.on fun d => d.onPw fun x => { x with por := true })

/-- POR_N is released with every rail in range (R567, R589). -/
def porRelease (d : Dev) : Dev := (d.onPw fun x => { x with por := false }).resetGo

/-- WARM_N is asserted. -/
def warmAssert (s : Sys) : Sys := resetStart 3 0x07 s

/-- The trip sensor exceeds 125 °C: THERMTRIP_N is asserted (R599). -/
def thermalTrip (s : Sys) : Sys := if s.dev.pw.trip then s else resetStart 2 0x04 (s.on fun d => d.onPw fun x => { x with trip := true })

/-- The trip sensor reads below 115 °C (R599). -/
def thermtripClear (d : Dev) : Dev := (d.onPw fun x => { x with trip := false }).resetGo

/-- RESET_OUT_N is asserted: until the boot ROM starts (R573, R574). -/
def Dev.resetOut (d : Dev) : Bool := d.pw.reset.isSome || decide (d.f Reg.BOOT_STAGE 28 4 < 3)

/-- THERMTRIP_N is asserted (R599). -/
def Dev.thermtrip (d : Dev) : Bool := d.pw.trip

/-- The fused boot voltage in mV. -/
def Dev.vddBoot (d : Dev) : Nat := d.f Reg.VDD_BOOT 0 16

/-- The readback of VDD_CORE comes within 10 mV of VDD_BOOT: OTP sensing follows in a POWER_ON reset, and else the release of the domains (R423, R574). `vdd` is what was read before the first command. -/
def resetVoltageReady (vdd readback : Nat) (d : Dev) : Dev :=
  match d.pw.reset with
  | some (level, 1) =>
    if readback ≤ d.vddBoot + 10 ∧ d.vddBoot ≤ readback + 10 then
      let d := (d.onFl fun x => { x with vddRead := vdd }).wr Reg.VDD_NOW (packBE 32 [(readback, 16), (d.vddBoot, 16)])
      if level = 1 then (d.onPw fun x => { x with reset := some (1, 2) }).wrF Reg.BOOT_STAGE 28 4 2
      else d.onPw fun x => { x with reset := none }
    else d
  | _ => d

/-- 100 ms without a good readback: the command is repeated (R574). -/
def resetVoltageRetry (d : Dev) : Dev :=
  match d.pw.reset with
  | some (_, 1) => d.onPw fun x => { x with tries := x.tries + 1 }
  | _ => d

/-- OTP sensing ends: PARTIAL words are counted (R574, R577). -/
def otpSenseEnd (d : Dev) : Dev :=
  match d.pw.reset with
  | some (_, 2) => (d.wrF Reg.OTP_STATUS 16 16 (min 65535 d.otpPartials)).onPw fun x => { x with reset := none }
  | _ => d

/-- A valid FIRE of RST_CMD (R582): values other than 1 and 2 are REFUSED. The reset itself follows the write. -/
def rstCmd (v : Word) (d : Dev) : Guarded := if v = 1 ∨ v = 2 then .take d else .refused

/-! ### The watchdog (R575) -/

/-- A write to WDOG_CFG: EN locks it. A write of EN with a timeout of 0 is ignored (log entry 79). -/
def wdogCfg (i : Ini) (v : Word) (d : Dev) : Dev :=
  if d.on Reg.WDOG_CFG 31 then d.lateWrite i Reg.WDOG_CFG 1
  else if bit v 31 ∧ fld v 0 16 = 0 then d
  else
    let d := d.wr Reg.WDOG_CFG (v &&& 0x8000FFFF)
    if bit v 31 then (d.setB Reg.PR_STATUS 0).onPw fun x => { x with wdBase := 0, kick := d.up } else d

/-- A write to WDOG_KICK: only 0x0000_4B1C restarts the count. -/
def wdogKick (v : Word) (d : Dev) : Dev := if v = 0x4B1C then d.onPw fun x => { x with wdBase := 0, kick := d.up } else d

/-- The timeout has passed without a kick, by device time (log entry 79): a WARM reset, and the count starts again. -/
def watchdogExpire (s : Sys) : Sys :=
  let d := s.dev
  if d.on Reg.PR_STATUS 0 ∧ elapsedNs 0 (d.pw.wdBase + (d.up - d.pw.kick)) (d.f Reg.WDOG_CFG 0 16 * 1000000) then
    resetStart 3 0x08 (s.on fun d => d.onPw fun x => { x with wdBase := 0, kick := d.up })
  else s

/-! ### Power domains (R568 to R571) -/

/-- The domain of a target. -/
def targetDomain (t : Nat) : Nat :=
  if t < 48 then 9 + t / 12 else if t < 54 then 3 + (t - 48) else if t < 62 then 13 + (t - 54) else 2

/-- A domain is in use, so that its power-down is refused (R569). -/
def Dev.domainUsed (d : Dev) (m : Nat) : Bool :=
  if 9 ≤ m ∧ m < 13 then (groupLanes (m - 9)).any d.laneWanted
  else if 13 ≤ m ∧ m < 21 then (List.range 16).any fun i => bit (engWord (d.clForce (m - 13)) i) 127
  else m == 21 && d.on Reg.DISP_CTRL 31

/-- A committed group has yet to pass its boundary on the domain (R377, R570). -/
def Dev.switchPending (d : Dev) (m : Nat) : Bool :=
  d.cw.groups.any fun g => g.decided && g.pairs.any fun p => targetDomain p.1 == m && !g.passed.contains p.1

/-- The power-down is deferred (R570). -/
def Dev.pdDeferred (d : Dev) (m : Nat) : Bool := d.leased m || d.switchPending m

/-- A request to power a domain down (R569, R570, R377). -/
def pdDown (m : Nat) (s : Sys) : Sys :=
  let d := s.dev
  if !(3 ≤ m ∧ m ≤ 21) ∨ !d.on Reg.PD_REQ m then s
  else if !d.on Reg.PD_STATE m then s.on fun d => d.clrB Reg.PD_REQ m
  else if d.domainUsed m then
    s.on fun d => (d.wr Reg.PD_REFUSE_INFO (packBE 32 [(0, 11), (m, 5), (0, 12), (1, 4)])).sqEvent Reg.PR_STATUS 2 1508
  else
    let s := s.on fun d =>
      let d := (d.clrB Reg.PD_REQ m).setB Reg.PD_PEND m
      let d := if (d.pw.pdAt.get (fun _ => none) m).isSome then d else d.onPw fun x => { x with pdAt := x.pdAt.set (fun _ => none) m (some d.up) }
      (List.range 64).foldl (fun (d : Dev) c => if (d.dmaCh c).run.isSome then d.showDma c else d) d
    let gs := s.dev.cw.groups.filter fun g => !g.decided && g.pairs.any fun p => targetDomain p.1 == m
    gs.foldl (fun s g => abandonGroup g 0x1A s) s

/-- A request to power a domain up (R570, R571): it cancels a deferred power-down, waits for one that has begun, and else powers the domain up. -/
def pdUp (m : Nat) (d : Dev) : Dev :=
  if !(3 ≤ m ∧ m ≤ 21) ∨ d.on Reg.PD_REQ m then d
  else
    let d := d.setB Reg.PD_REQ m
    if !d.on Reg.PD_STATE m then d.setB Reg.PD_PEND m
    else if d.pdDeferred m then
      let d := (d.clrB Reg.PD_PEND m).onPw fun x => { x with pdAt := x.pdAt.set (fun _ => none) m none }
      (List.range 64).foldl (fun (d : Dev) c => if (d.dmaCh c).run.isSome then d.showDma c else d) d
    else d

/-- A write to PD_REQ: bits 0 to 2 and 22 to 31 are ignored (R569). -/
def pdWrite (v : Word) (s : Sys) : Sys :=
  ((List.range 19).map (· + 3)).foldl (fun s m => if bit v m then s.on (pdUp m) else pdDown m s) s

/-- A domain's units return to the state after reset, but for what lives in AON and, of a port, its outage (R571). -/
def Dev.domainReset (d : Dev) (m : Nat) : Dev :=
  let new := { d with regs := d.regs.drop fun k => domainOf (keyBlock k) == m && !retirementKey k, inflight := d.inflight.drop fun b => domainOf b == m }
  if m < 9 then
    let p := m - 3
    let x := d.port p
    let new := new.setPort p { open_ := x.open_, cause := x.cause, emb := x.emb }
    if (d.portForce p).isEmpty then new else new.setLink p 1 0
  else if m < 13 then
    let g := m - 9
    let gone := fun (l : Nat) => l / 12 == g
    let new := { new with
      lanes := d.lanes.drop gone, dets := d.dets.drop gone, history := d.history.drop gone, masks := d.masks.drop gone
      dens := d.dens.drop gone, grids := d.grids.drop gone, groups := d.groups.drop (· == g), flats := d.flats.drop (· == g) }
    let new := new.wrF (Reg.DET_STATUS g) 2 2 (d.f (Reg.DET_STATUS g) 2 2)
    let new := new.showBindings g
    (groupLanes g).foldl (fun (n : Dev) l => n.showLane l) (new.setSpare g (new.spareOf g))
  else if m < 21 then
    let c := m - 13
    let new := { new with engs := d.engs.drop (fun n => n / 16 == c), cls := d.cls.drop (· == c) }
    new.setClSpare c (new.clSpare c)
  else { new with disp := {} }

/-- PD_DONE (R581, R584). -/
def Dev.pdDone (d : Dev) : Dev := d.sqEvent Reg.PR_STATUS 1 1507

/-- The power of a domain is removed (R570); a power-up that arrived meanwhile follows. -/
def powerDownDone (m : Nat) (d : Dev) : Dev :=
  if !d.pdPending m ∨ d.pdDeferred m ∨ !d.on Reg.PD_STATE m then d
  else
    let d := if 3 ≤ m ∧ m < 9 then d.portPowerDown (m - 3) else d
    let d := (d.clrB Reg.PD_STATE m).onPw fun x => { x with pdAt := x.pdAt.set (fun _ => none) m none }
    (d.putB Reg.PD_PEND m (d.on Reg.PD_REQ m)).pdDone

/-- A domain's registers are ready after its power-up (R571); a request to power it down that came meanwhile is taken then (log entry 81). -/
def powerUpDone (m : Nat) (s : Sys) : Sys :=
  if s.dev.on Reg.PD_STATE m ∨ !s.dev.on Reg.PD_PEND m then s
  else
    let s := s.on fun d => (((d.domainReset m).setB Reg.PD_STATE m).clrB Reg.PD_PEND m).pdDone
    if s.dev.on Reg.PD_REQ m then s else pdDown m (s.on fun d => d.setB Reg.PD_REQ m)

/-! ### The boot flash (R424, R526, R578) -/

/-- An offset lies in the peat log region. -/
def inLog (a : Nat) : Bool := decide (Config.logBase ≤ a) && decide (a < Config.logBase + 0x400000)

/-- One byte of the boot flash. -/
def Dev.flashByte (d : Dev) (a : Nat) : Byte :=
  let o := a - Config.logBase
  if inLog a then
    match d.fl.log.find? (o / 64) with
    | some e => nth (logBytes e) (o % 64) (Config.flashByte d.pw.era a)
    | none => Config.flashByte d.pw.era a
  else (d.pw.flash.find? a).getD (Config.flashByte d.pw.era a)

/-- Bytes of the boot flash. -/
def Dev.flashBytes (d : Dev) (a n : Nat) : List Byte := (List.range n).map fun k => d.flashByte (a + k)

/-- A write to XSPI_CMD issues a program or erase command (R424): one that addresses the peat log is a denied access; of any other the manual states neither the range nor the data, so the flash's contents become unknown (log entry 25). -/
def xspiCmd (i : Ini) (v : Word) (d : Dev) : Dev :=
  if inLog (d.n Reg.XSPI_ADDR) then d.deny i (regBase + Reg.XSPI_CMD) .write 4 24
  else (d.wr Reg.XSPI_CMD v).onPw fun x => { x with flash := [], era := x.era + 1 }

/-! ### Boot (R577 to R579) -/

/-- A boot descriptor passes its checks (R578, R598). -/
def descOk (l : List Byte) : Bool :=
  let bus := hdrField l 5 1
  let clk := hdrField l 6 2
  hdrField l 0 4 == 0x4E4C4244 && hdrField l 4 1 == 1 && hdrField l 60 4 == crc32 (l.take 60)
    && decide (bus ≤ 1) && decide (25 ≤ clk) && decide (clk ≤ if bus = 0 then 50 else 200)
    && ((l.drop 8).take 8 ++ (l.drop 52).take 8).all (· == 0)

/-- A range of the flash overlaps the peat log. -/
def overlapsLog (a n : Nat) : Bool := decide (a < Config.logBase + 0x400000) && decide (Config.logBase < a + max 1 n)

/-- An area the descriptor names overlaps the peat log (R578). -/
def Dev.descOverlaps (d : Dev) (l : List Byte) : Bool :=
  ((List.range 6).any fun k =>
    let a := hdrField l (16 + 4 * k) 4
    overlapsLog a (256 + hdrField (d.flashBytes a 16) 12 4))
    || overlapsLog (hdrField l 40 4) (hdrField l 44 4) || overlapsLog (hdrField l 48 4) 1

/-- A slot of the log scan: its entry is valid where its CRC and LINK hold (R425, R428). -/
def logValid (last : List Byte) (e : List Word128) : Bool :=
  let w0 := nth e 0 0
  !e.isEmpty && crc32 (logBytes (listSet e 0 (put w0 0 32 0))) == fld w0 0 32 && fld (nth e 3 0) 0 128 == natBE ((shake256 32 last).take 16)

/-- The scan of the peat log (R428): PARTIAL slots, and the valid entries of each segment. -/
def logScan : Tab (List Word128) → List Byte → Nat → Tab Nat → Nat × Tab Nat
  | [], _, part, segs => (part, segs)
  | (k, e) :: l, last, part, segs =>
    if logValid last e then logScan l (logBytes e) part (segs.set (fun _ => 0) (k / 1024) (segs.get (fun _ => 0) (k / 1024) + 1))
    else logScan l last (part + 1) segs

/-- The LOG stage (R428, R423): the scan, the BOOT entry, and the entry of an interrupted plan. -/
def Dev.bootLog (d : Dev) : Dev :=
  let p := logScan d.fl.log (List.replicate 64 0) 0 []
  let used := match d.fl.log.getLast? with | some e => e.1 + 1 | none => 0
  let count := fun (c : Nat) => p.2.get (fun _ => 0) c
  let ctr := fun (c : Nat) => d.fl.counters.get (fun _ => 0) c
  let bad := (List.range 64).find? fun c => count c ≠ ctr c ∧ count c ≠ ctr c + 1
  let d := d.onFl fun x => { x with
    counters := (List.range 64).foldl (fun (t : Tab Nat) c => if count c = ctr c + 1 then t.set (fun _ => 0) c (count c) else t) x.counters }
  let d := (((d.onFl fun x => { x with scanned := true }).wrN Reg.LOG_ENTRIES used).wrN Reg.LOG_PARTIAL p.1).showLog
  let d := if 65536 ≤ used then d.setB Reg.FL_STATUS 4 else d
  let d := if p.1 ≠ 0 ∨ 58982 ≤ used ∨ bad.isSome then d.logWarn else d
  let d := d.add Reg.BOOT_COUNT 1
  let d := match bad with
    | some c => (d.wr Reg.LOG_CHECK (packBE 32 [(1, 1), (0, 25), (c, 6)])).logEntry 0x0A (packBE 128 [(0, 122), (c, 6)])
    | none => d
  let d := d.logEntry 0x01 (packBE 128 [(d.vddBoot, 16), (d.fl.vddRead, 16), (d.f Reg.DEV_ID 8 8, 8), (d.f Reg.RST_CAUSE 0 8, 8), (0, 80)])
  match d.fl.planRec with
  | some (band, boot, t) =>
    (d.logEntry 0x03 (packBE 128 [(d.fl.vddRead, 16), (band, 4), (0, 12), (boot.toNat, 32), (t, 64)])).onFl fun x => { x with planRec := none }
  | none => d

/-- The HBM stage: the stacks are trained and MC_EN sets (R463, R579). -/
def Dev.bootHbm (d : Dev) : Dev := { d.setB Reg.MC_CTRL 31 with mc := { d.mc with trained := true } }

/-- A lane group's binding: its lanes take the physical lanes not retired in ascending order, and the next one is the spare (R102, R134). -/
def Dev.bindGroup (d : Dev) (g : Nat) : Dev :=
  let good := (List.range 13).filter fun q => !d.on (Reg.GRP_RETIRED g) q
  let d := (List.range 12).foldl (fun (d : Dev) i => d.bindLane (12 * g + i) (nth good i 15)) d
  d.setSpare g (nth good 12 15)

/-- A cluster's binding (R300, R332). -/
def Dev.bindCluster (d : Dev) (c : Nat) : Dev :=
  let good := (List.range 17).filter fun q => !d.on (Reg.CL_RETIRED c) q
  let d := (List.range 16).foldl (fun (d : Dev) i => d.bindEng (16 * c + i) (nth good i 0xFF)) d
  d.setClSpare c (nth good 16 0x1F)

/-- The SELFTEST stage: what fails is retired with a RETIRE entry, and the bindings are formed (R579). -/
def Dev.bootTest (d : Dev) (lanes engines banks : List Nat) : Dev :=
  let d := (lanes.filter fun p => decide (p < 52) && !d.on (Reg.GRP_RETIRED (p / 13)) (p % 13)).foldl
    (fun (d : Dev) p => (d.setB (Reg.GRP_RETIRED (p / 13)) (p % 13)).logRetire 1 p 0) d
  let d := (engines.filter fun p => decide (p < 136) && !d.on (Reg.CL_RETIRED (p / 17)) (p % 17)).foldl
    (fun (d : Dev) p => (d.setB (Reg.CL_RETIRED (p / 17)) (p % 17)).logRetire 2 p 0) d
  let d := (banks.filter fun b => decide (b < 8)).foldl
    (fun (d : Dev) b => if d.isSpareBank b then (d.dropSpareBank b).logRetire 4 b 0 else d) d
  let d := (List.range 4).foldl Dev.bindGroup d
  (List.range 8).foldl Dev.bindCluster d

/-- An image at an offset of the flash: its header and its payload. -/
def Dev.flashImage (d : Dev) (a : Nat) : List Byte × List Byte :=
  let h := d.flashBytes a 256
  (h, d.flashBytes (a + 256) (min 0x1000000 (hdrField h 12 4)))

/-- The boot ROM verifies copy A of an image, and copy B where A fails (R551, R579): which copy was accepted (3: none), with its header and payload. -/
def Dev.bootImage (d : Dev) (kind a b : Nat) : Dev × Nat × List Byte × List Byte :=
  let fail := fun (d : Dev) (h : List Byte) (v : Nat) => ((d.lastFail h v 0).setB Reg.TR_STATUS 7).event Reg.TR_STATUS 1497
  let x := d.flashImage a
  let v := d.verifyImage kind x.1 x.2
  if v = 0 then (d, 1, x)
  else
    let d := fail d x.1 v
    let y := d.flashImage b
    let v := d.verifyImage kind y.1 y.2
    if v = 0 then (d, 2, y) else (fail d y.1 v, 3, ([], []))

/-- The DIGEST field of an accepted image is kept (R551). -/
def Dev.bootDigest (d : Dev) (key : Nat → Nat) (h : List Byte) : Dev := d.wrDigest key ((h.drop 96).take 32)

/-- Boot stops with FAILED (R579): the boot ROM commits a table that grants JTAG reads of blocks 0x002B to 0x002D and of the flash aperture. -/
def Dev.bootFail (d : Dev) (code : Nat) : Dev :=
  let d := (d.wrF Reg.BOOT_STAGE 28 4 15).wrF Reg.BOOT_STAGE 24 4 code
  let set := fun (d : Dev) (e lo hi : Nat) =>
    ((d.wrN (Reg.WIN_STAGED e 0) lo).wrN (Reg.WIN_STAGED e 1) hi).wr (Reg.WIN_STAGED e 3) (packBE 32 [(1, 1), (0, 1), (1, 1), (0, 3), (0x3FF, 10), (0, 6), (0x1F0, 10)])
  let d := { d with regs := d.regs.drop fun k => 0x2A1000 ≤ k && k < 0x2A3000 }
  let d := set (set d 0 0xF00002B0 0xF00002DF) 1 0xF0020000 0xF002FFFF
  epochDone (windowEpochCommit { d.setB Reg.WIN_STATUS 1 with winPend := some ⟨d.tb.edges, false⟩ })

/-- The boot ROM runs its stages to HANDOFF or FAILED (R579). `trained`: the stacks trained; the lists name the physical lanes, engines and spare banks (2 g + bank) that fail their tests. -/
def bootRomStart (trained : Bool) (lanes engines banks : List Nat) (s : Sys) : Sys :=
  if s.dev.pw.reset.isSome ∨ 3 ≤ s.dev.f Reg.BOOT_STAGE 28 4 then s
  else
    let d := s.dev.wrF Reg.BOOT_STAGE 28 4 3
    let l0 := d.flashBytes 0 64
    let l := if descOk l0 then l0 else d.flashBytes 0x10000 64
    if !descOk l then { s with dev := d.bootFail 1 }
    else if d.descOverlaps l then { s with dev := d.bootFail 2 }
    else
      let d := d.bootLog.wrF Reg.BOOT_STAGE 28 4 5
      if !trained then { s with dev := d.bootFail 3 }
      else
        let d := ((d.bootHbm.wrF Reg.BOOT_STAGE 28 4 6).bootTest lanes engines banks).wrF Reg.BOOT_STAGE 28 4 7
        let at_ := fun (k : Nat) => hdrField l (16 + 4 * k) 4
        let (d, cx, hx, _) := d.bootImage 4 (at_ 4) (at_ 5)
        let d := d.wrF Reg.BOOT_STAGE 4 2 cx
        let d := if cx = 3 then d else (List.range 4).foldl (fun (d : Dev) g => d.setB (Reg.DET_STATUS g) 0) (d.bootDigest Reg.BOOT_LRX_DIGEST hx)
        let (d, cm, hm, pm) := d.bootImage 1 (at_ 0) (at_ 1)
        let d := d.wrF Reg.BOOT_STAGE 0 2 cm
        if cm = 3 then { s with dev := d.bootFail 4 }
        else
          let d := d.bootDigest Reg.BOOT_MON_DIGEST hm
          let (d, cl, hl, _) := d.bootImage 2 (at_ 2) (at_ 3)
          let d := d.wrF Reg.BOOT_STAGE 2 2 cl
          if cl = 3 then { s with dev := d.bootFail 5 }
          else
            let d := (d.bootDigest Reg.BOOT_LDR_DIGEST hl).wrF Reg.BOOT_STAGE 28 4 8
            (memWrite 0x1F1 24 (hdrField hm 16 8) pm { s with dev := d }).1

/-! ### JTAG (R580) -/

/-- A TAP instruction is selected; its data register will shift out a word. -/
def Dev.tapSelect (d : Dev) (op : Nat) (tdo : Word) : Dev := d.onPw fun x => { x with tap := op, tdo := tdo }

/-- An instruction that takes the pins: until test-logic reset, the device is held in reset with cause JTAG. -/
def tapPins (op : Nat) (s : Sys) : Sys :=
  let s := s.on fun d => d.tapSelect op 0
  if s.dev.pw.jtag then s else resetStart 2 0x05 (s.on fun d => d.onPw fun x => { x with jtag := true })

/-- Test-logic reset selects IDCODE and gives the pins back. -/
def testLogicReset (d : Dev) : Dev := ((d.tapSelect 1 0x26148969).onPw fun x => { x with jtag := false }).resetGo

end Sys2Proof.Machine
end

