-- ==== Sys2Proof/Machine/Timebase.lean ====
section
/-! DEFINITION. Device time and the reference: lock, holdover, time of day, outputs and PTP stamps (chapter Device Time and the Reference). -/
namespace Sys2Proof.Machine

/-- An event of the timebase block: SEQ increments on each of them except 1487 (R65). -/
def Dev.tbEvent (d : Dev) (n : Nat) : Dev := d.event Reg.TB_STATUS n

/-- Changes the timebase's own state. -/
def Dev.onTb (d : Dev) (f : Tb → Tb) : Dev := { d with tb := f d.tb }

/-- One REF_IN edge (R48): FRACTION increases by PERIOD, and by one more unit whenever the remainder reaches REM_DEN. -/
def Tb.edge (x : Tb) : Tb :=
  let r := x.remAcc + x.remNum
  if x.remDen ≤ r ∧ x.remDen ≠ 0 then { x with dt := x.dt + x.period + 1, remAcc := r - x.remDen, edges := x.edges + 1 }
  else { x with dt := x.dt + x.period, remAcc := r, edges := x.edges + 1 }

/-- Device time returns to REF_IN counting at an edge after the DLL has relocked, from its current value (R45). -/
def holdoverExit (d : Dev) : Dev :=
  if d.on Reg.TB_STATUS 6 ∧ d.on Reg.TB_STATUS 0 then d.clrB Reg.TB_STATUS 6 else d

/-- What an idle step does: one REF_IN edge; in holdover, a free advance from the on-die oscillator and a free number of REF_IN edges at the ball, or the return to REF_IN once the DLL has locked (R44, R45, R48). -/
def refEdge (d : Dev) : Dev :=
  if d.on Reg.TB_STATUS 6 then
    if d.on Reg.TB_STATUS 0 then holdoverExit d
    else { d with
      tb := { d.tb with dt := d.tb.dt + Config.holdoverAdvance d.fresh, edges := d.tb.edges + Config.holdoverEdges d.fresh }
      fresh := d.fresh + 1 }
  else d.onTb Tb.edge

/-! ### Lock (R40 to R45) -/

/-- Lock is declared (R41, R42, R68). -/
def Dev.lockDeclare (d : Dev) : Dev := if d.on Reg.TB_STATUS 1 then d else (d.setB Reg.TB_STATUS 1).tbEvent 1480

/-- Lock is lost: REF_LOCKED clears, LOCK_LOST sets, event 1480 (R41, R65, R68). -/
def Dev.lockLost (d : Dev) : Dev :=
  if d.on Reg.TB_STATUS 1 then ((d.clrB Reg.TB_STATUS 1).setB Reg.TB_STATUS 8).tbEvent 1480 else d

/-- LOCK_MODE is compare (R41). -/
def Dev.compareMode (d : Dev) : Bool := d.f Reg.TB_CTRL 0 2 = 0

/-- A new gate starts, with FREQ_STD present and the DLL locked (R41). -/
def Dev.startGate (d : Dev) : Dev :=
  d.onTb fun x => { x with gateOpen := x.freqPresent && d.on Reg.TB_STATUS 0, goodGates := 0 }

/-- The DLL locks on a present REF_IN (R40); the first gate starts. A REF_IN that was absent is present again. -/
def dllLock (d : Dev) : Dev :=
  if d.on Reg.TB_STATUS 0 then d
  else
    let d := d.setB Reg.TB_STATUS 0
    (d.onTb fun x => { x with refPresent := true, refSince := d.up }).startGate

/-- DLL lock is lost (R40): DLL_LOCKED and REF_LOCKED clear, DLL_LOST sets, event 1482, and device time runs in holdover. -/
def dllLost (d : Dev) : Dev :=
  if d.on Reg.TB_STATUS 0 then
    let d := ((d.clrB Reg.TB_STATUS 0).setB Reg.TB_STATUS 10).tbEvent 1482
    let d := (d.setB Reg.TB_STATUS 6).lockLost
    d.onTb fun x => { x with gateOpen := false, goodGates := 0 }
  else d

/-- The expected count of a gate, in units of 2^-24 (R41). -/
def Dev.gateExpected (d : Dev) : Nat := d.n Reg.REF_RATIO * 10000 * d.f Reg.TB_CTRL 4 10

/-- The window of a gate in counts: floor(TOL_PPB × 10^-9 × expected), at least 1 (R41). -/
def Dev.gateWindow (d : Dev) : Nat := max 1 (d.f Reg.TB_CTRL 14 14 * d.gateExpected / (1000000000 * 2 ^ 24))

/-- A compare-mode gate ends with its count (R41). The gate is judged by the registers as they read at its end (log entry 10), and LOCK_MEAS is rounded and clamped as log entry 8 says. -/
def lockGateEnd (count : Nat) (d : Dev) : Dev :=
  if d.compareMode ∧ d.tb.gateOpen then
    let e := d.gateExpected
    let dev : Int := (count * 2 ^ 24 : Nat) - (e : Int)
    let ok := decide (dev.natAbs ≤ d.gateWindow * 2 ^ 24)
    let d := d.wrN Reg.LOCK_MEAS (wrapU 32 (satS 32 (roundAway dev (2 ^ 24))))
    if ok then
      let d := d.onTb fun x => { x with goodGates := x.goodGates + 1 }
      if d.f Reg.TB_CTRL 28 4 ≤ d.tb.goodGates then d.lockDeclare else d
    else (d.onTb fun x => { x with goodGates := 0 }).lockLost
  else d

/-- FREQ_STD is declared absent: the gate in progress ends out of tolerance, and compare-mode lock is lost (R41). -/
def freqAbsent (d : Dev) : Dev :=
  if d.tb.freqPresent then
    let d := d.onTb fun x => { x with freqPresent := false, gateOpen := false, goodGates := 0 }
    if d.compareMode then d.lockLost else d
  else d

/-- The first FREQ_STD edge after an absence starts a new gate (R41). -/
def freqReturn (d : Dev) : Dev :=
  if d.tb.freqPresent then d else (d.onTb fun x => { x with freqPresent := true }).startGate

/-- In activity mode, lock is declared once REF_IN has been present for LOCK_COUNT × GATE_MS after the DLL locked (R42). -/
def activityLock (d : Dev) : Dev :=
  if !d.compareMode ∧ d.on Reg.TB_STATUS 0 ∧ d.tb.refPresent
      ∧ elapsedNs d.tb.refSince d.up (d.f Reg.TB_CTRL 28 4 * d.f Reg.TB_CTRL 4 10 * 1000000) then d.lockDeclare
  else d

/-- WARM shows the OCXO_WARM pin under WARM_POL; event 1483 on each change (R43, R65, R68). -/
def Dev.showWarm (d : Dev) : Dev :=
  let w := d.tb.warmPin != d.on Reg.TB_CTRL 2
  if d.on Reg.TB_STATUS 3 = w then d else (d.putB Reg.TB_STATUS 3 w).tbEvent 1483

/-- The OCXO_WARM level changes (R43). -/
def warmChange (level : Bool) (d : Dev) : Dev := (d.onTb fun x => { x with warmPin := level }).showWarm

/-- REF_IN is declared absent (R44): holdover, events 1481 and 1482, loss of lock. Each declaration raises event 1481, also of a REF_IN that had returned without the DLL locking on it. The ports' link faults follow it (R93). -/
def holdoverEnter (d : Dev) : Dev :=
  let d := ((d.onTb fun x => { x with refPresent := false }).setB Reg.TB_STATUS 9).tbEvent 1481
  let d := (dllLost d).setB Reg.TB_STATUS 6
  (d.lockLost).refLoss

/-! ### Time of day (R51 to R53) -/

/-- TOD_CMD ARM (R51). -/
def todArm (d : Dev) : Dev := d.setB Reg.TB_STATUS 4

/-- A set is refused with a reason (R52). -/
def Dev.todRefuse (d : Dev) (reason : Nat) : Dev :=
  (((d.clrB Reg.TB_STATUS 4).setB Reg.TB_STATUS 12).wrN Reg.TOD_RESULT reason).tbEvent 1485

/-- TOD_CMD CANCEL refuses the pending set (R52). -/
def todCancel (d : Dev) : Dev := if d.on Reg.TB_STATUS 4 then d.todRefuse 5 else d

/-- The staged period in units of 2^-64 s, times REM_DEN. -/
def Dev.stagedPeriod (d : Dev) : Nat := d.n64 Reg.PERIOD_LO Reg.PERIOD_HI * d.n Reg.REM_DEN + d.n Reg.REM_NUM

/-- The staged period is unusable (R52). -/
def Dev.periodInvalid (d : Dev) : Bool :=
  let den := d.n Reg.REM_DEN
  den = 0 || den ≤ d.n Reg.REM_NUM || decide (d.stagedPeriod * 1600000000 < 2 ^ 64 * den)
    || decide (2 ^ 64 * den < d.stagedPeriod * 500000000)

/-- In compare mode, the staged period differs from 2^64 / (REF_RATIO × 10 MHz) by more than TOL_PPB (R52). -/
def Dev.ratioMismatch (d : Dev) : Bool :=
  let a : Nat := d.stagedPeriod * d.n Reg.REF_RATIO * 10000000
  let b : Nat := 2 ^ 88 * d.n Reg.REM_DEN
  d.compareMode && decide (d.f Reg.TB_CTRL 14 14 * b < ((a : Int) - (b : Int)).natAbs * 1000000000)

/-- The instant a set assigns to its PPS edge (R51). -/
def Dev.todTarget (d : Dev) : Nat :=
  (d.n64 Reg.TOD_NEXT_LO Reg.TOD_NEXT_HI) % 2 ^ 48 * 2 ^ 64 + d.n64 Reg.PPS_FRAC_LO Reg.PPS_FRAC_HI

/-- The set at a PPS edge that lies `back` units before now (R51, R52): refused with the first cause that holds, or device time is set and the staged period committed, with the remainder counted from zero (log entry 93). -/
def Dev.todSet (d : Dev) (back : Nat) : Dev :=
  if d.periodInvalid then d.todRefuse 3
  else if d.ratioMismatch then d.todRefuse 4
  else if d.todTarget < d.now - back then d.todRefuse 2
  else
    let d := d.onTb fun x => { x with
      dt := d.todTarget + back, jump := x.jump + (d.todTarget + back - x.dt), remAcc := 0, period := d.n64 Reg.PERIOD_LO Reg.PERIOD_HI, remNum := d.n Reg.REM_NUM, remDen := d.n Reg.REM_DEN }
    (((d.clrB Reg.TB_STATUS 4).setB Reg.TB_STATUS 5).wrN Reg.TOD_RESULT 1).tbEvent 1485

/-- PPS_MISSING sets, with event 1484 on its change (R53). -/
def Dev.ppsMissing (d : Dev) : Dev := d.sqEvent Reg.TB_STATUS 11 1484

/-- PPS_WIN in units of 2^-64 s. -/
def Dev.ppsWin (d : Dev) : Nat := d.n Reg.PPS_WIN * 2 ^ 64 / 1000000000

/-- The signed residual of an edge: device time minus PPS_FRAC, whole seconds removed, wrapped to ± 0.5 s (R53). -/
def ppsResidual (t frac : Nat) : Nat := (t % 2 ^ 64 + 2 ^ 64 - frac % 2 ^ 64) % 2 ^ 64

/-- A second marker (R53), `back` units of device time before now; an armed set takes it first, and the residual is of the new device time (log entry 22). -/
def Dev.ppsMark (d : Dev) (back : Nat) : Dev :=
  let te := d.now - back
  let outside := match d.tb.ppsLast with
    | some l => decide (te < l + 2 ^ 64 - d.ppsWin) || decide (l + 2 ^ 64 + d.ppsWin < te)
    | none => false
  let d := if d.on Reg.TB_STATUS 4 then d.todSet back else d
  let te := d.now - back
  let d := d.wr64 Reg.PPS_RESID_LO Reg.PPS_RESID_HI (ppsResidual te (d.n64 Reg.PPS_FRAC_LO Reg.PPS_FRAC_HI))
  let d := d.wr64 Reg.PPS_SEC_LO Reg.PPS_SEC_HI (te / 2 ^ 64 % 2 ^ 48)
  let d := d.setB Reg.TB_STATUS 2
  let d := d.onTb fun x => { x with ppsLast := some te, ppsDue := some (te + 2 ^ 64 + d.ppsWin) }
  if outside then d.ppsMissing else d

/-- PPS_IN rises or falls; the edge of PPS_POL is the second marker (R39, R66). -/
def ppsEdge (rising : Bool) (back : Nat) (d : Dev) : Dev := if rising = d.on Reg.TB_CTRL 3 then d else d.ppsMark back

/-- No PPS edge has arrived within its window: PPS_MISSING sets, and again at each further second (R53). -/
def ppsMissingExpire (d : Dev) : Dev :=
  match d.tb.ppsDue with
  | some t => if t ≤ d.now then (d.onTb fun x => { x with ppsDue := some (t + 2 ^ 64) }).ppsMissing else d
  | none => d

/-! ### Outputs (R54 to R58) -/

/-- An enabled output starts at the beginning of its divider's next period (R56). -/
def outputStart (n : Nat) (d : Dev) : Dev :=
  let o := d.outp n
  if d.on (Reg.OUT_CFG n) 31 ∧ !o.running ∧ !o.parked ∧ d.periodStart n then d.setOut n (o.start d.tb.edges) else d

/-- A disabled output stops once its high phase is over, and is parked low (R56). -/
def outputStop (n : Nat) (d : Dev) : Dev :=
  let o := d.outp n
  if !d.on (Reg.OUT_CFG n) 31 ∧ o.running ∧ !d.highPhase n then d.setOut n { o with running := false } else d

/-- The delay in force walks one fine step toward DELAY at the start of an output period (R56). -/
def delayWalk (n : Nat) (d : Dev) : Dev :=
  let o := d.outp n
  let want := d.f (Reg.OUT_DELAY n) 0 14
  if !d.periodStart n ∨ o.walked = some d.tb.edges then d
  else if o.delay < want then d.setOut n { o with delay := o.delay + 1, walked := some d.tb.edges }
  else if want < o.delay then d.setOut n { o with delay := o.delay - 1, walked := some d.tb.edges }
  else d

/-- A port that waits in ALIGN with a SYSREF period that has become no multiple of T_EMB has the fault SYSREF_INVALID (R82). -/
def Dev.sysrefCheck (d : Dev) (n : Nat) : Dev :=
  let p := n - 4
  if 4 ≤ n ∧ n ≤ 9 ∧ d.linkState p = 4 ∧ !d.sysrefOk p ∧ (d.port p).cause ≠ 0x18 then (d.linkFault p 0x18 0x1F 4).setLink p 4 (d.f (Reg.LINK_STATE p) 0 24) else d

/-- A changed DIV takes effect at the end of the current output period and clears ALIGNED (R56, R57). -/
def divChange (n : Nat) (d : Dev) : Dev :=
  let o := d.outp n
  let want := d.f (Reg.OUT_CFG n) 0 12
  if o.divm1 ≠ want ∧ d.periodStart n then
    let d := d.setOut n { o with divm1 := want, t0 := d.tb.edges, shots := d.shotsOver n, since := d.tb.edges }
    (d.clrB (Reg.OUT_CFG n) 19).sysrefCheck n
  else d

/-- A write of 1 to OUT_SYNC_CMD requests a restart at OUT_SYNC_AT; the sync is late if that is already past (R57). -/
def outSyncCmd (d : Dev) : Dev :=
  let t := d.n64 Reg.OUT_SYNC_AT_LO Reg.OUT_SYNC_AT_HI
  d.onTb fun x => { x with
    syncAt := some t, syncMask := d.f Reg.OUT_SYNC_MASK 0 12, syncLate := decide (t < shortTime x.dt), syncEdge := x.edges }

/-- One output restarts at a sync edge: its divider starts its first period, ALIGNED sets, and a pulse count begins anew (R57, R58). -/
def Dev.syncOutput (d : Dev) (n : Nat) : Dev :=
  let o := { (d.outp n).start d.tb.edges with
    divm1 := d.f (Reg.OUT_CFG n) 0 12, t0 := d.tb.edges, running := d.on (Reg.OUT_CFG n) 31 }
  ((d.setOut n o).setB (Reg.OUT_CFG n) 19).sysrefCheck n

/-- The sync executes at the first REF_IN edge at or after OUT_SYNC_AT, or, if that was past, at the edge after the request (R57). OUT_SYNC_LATE stays set until its sequence clear, also over later syncs that are on time (log entry 94). -/
def outSyncExecute (d : Dev) : Dev :=
  match d.tb.syncAt with
  | none => d
  | some t =>
    if t ≤ shortTime d.now ∧ (d.tb.syncLate → d.tb.syncEdge < d.tb.edges) then
      let late := d.tb.syncLate
      let d := ((List.range 12).filter fun n => d.tb.syncMask.testBit n).foldl Dev.syncOutput d
      let d := d.onTb fun x => { x with syncAt := none }
      let d := if late then (d.setB Reg.OUT_SYNC_LATE 0).seqInc Reg.OUT_SYNC_LATE else d
      d.tbEvent 1486
    else d

/-- A MODE 1 SYSREF output whose last shot has had its high phase parks low (R58). -/
def sysrefDone (n : Nat) (d : Dev) : Dev :=
  let o := d.outp n
  let done := d.shotsOver n + b2n (!d.highPhase n)
  if d.oneShot n ∧ o.running ∧ d.shotLimit n ≤ done then d.setOut n { o with running := false, parked := true } else d

/-- A write of OUT_CFG has taken effect: an output whose EN is clear may be enabled again after its shots (R58). -/
def Dev.outCfgWritten (d : Dev) (n : Nat) : Dev :=
  if d.on (Reg.OUT_CFG n) 31 then d else d.setOut n { d.outp n with parked := false }

/-! ### PTP stamps (R59 to R63) -/

/-- A latency in ps in units of 2^-64 s, to the nearest. -/
def psUnits (ps : Nat) : Nat := divRound (ps * 2 ^ 64) 1000000000000

/-- The EtherType and what follows it, after up to two VLAN tags (R59; the codes are those of IEEE 802: log entry 95). -/
def etherPayload : Nat → List Byte → Nat × List Byte
  | 0, l => (natBE (l.take 2), l.drop 2)
  | k + 1, l =>
    let t := natBE (l.take 2)
    if t = 0x8100 ∨ t = 0x88A8 then etherPayload k (l.drop 4) else (t, l.drop 2)

/-- The PTP message that a UDP datagram to the event port 319 carries (IEEE 1588-2019, Annexes C and D). -/
def udpMessage (l : List Byte) : Option (List Byte) := if natBE ((l.drop 2).take 2) = 319 then some (l.drop 8) else none

/-- The PTP message that an Ethernet frame carries, over UDP and IPv4, UDP and IPv6, or IEEE 802.3 (R59). -/
def ptpMessage (frame : List Byte) : Option (List Byte) :=
  let e := etherPayload 2 (frame.drop 12)
  let b := fun k => (nth e.2 k (0 : Byte)).toNat
  if e.1 = 0x88F7 then some e.2
  else if e.1 = 0x0800 ∧ b 0 / 16 = 4 ∧ b 9 = 17 then udpMessage (e.2.drop (4 * (b 0 % 16)))
  else if e.1 = 0x86DD ∧ b 0 / 16 = 6 ∧ b 6 = 17 then udpMessage (e.2.drop 40)
  else none

/-- messageType and sequenceId of an event message: Sync, Delay_Req, Pdelay_Req or Pdelay_Resp (R59). -/
def ptpEvent (frame : List Byte) : Option (Nat × Nat) :=
  match ptpMessage frame with
  | some m =>
    let k := (nth m 0 (0 : Byte)).toNat % 16
    if k < 4 ∧ (nth m 1 (0 : Byte)).toNat % 16 = 2 then some (k, natBE ((m.drop 30).take 2)) else none
  | none => none

/-- A frame passes the management port, `back` units before now: the stamp of an event message refers to the PHY's medium interface and enters the FIFO (R59, R61, R63). The frame itself is not changed (R60). -/
def ptpStamp (tx : Bool) (frame : List Byte) (back : Nat) (d : Dev) : Dev :=
  match ptpEvent frame with
  | none => d
  | some (msgType, seqId) =>
    let t := d.now - back
    let t := if tx then t + psUnits (d.n Reg.PTP_TX_LAT) else t - psUnits (d.n Reg.PTP_RX_LAT)
    if 64 ≤ d.tb.ptp.length then (d.addSat Reg.PTP_DROPS 1).sqEvent Reg.TB_STATUS 13 1488
    else
      let e : Word × Word128 := (packBE 32 [(1, 1), (b2n tx, 1), (0, 2), (msgType, 4), (0, 8), (seqId, 16)], d.timeWord 7 true t)
      let first := d.tb.ptp.isEmpty
      let d := d.onTb fun x => { x with ptp := x.ptp ++ [e] }
      if first then d.raise 1487 else d

/-- The four words of a device-time word into four registers, bits [31:0] first (R64). -/
def Dev.wr128 (d : Dev) (key : Nat → Nat) (w : Word128) : Dev :=
  (List.range 4).foldl (fun d i => d.wrN (key i) (fld w (32 * i) 32)) d

/-- A read of PTP_TS_ID pops the oldest stamp into the latched view (R63). -/
def ptpPop (d : Dev) : Dev × Word :=
  match d.tb.ptp with
  | [] => let d := d.wr Reg.PTP_TS_ID 0; (d, 0)
  | (id, w) :: r => (((d.onTb fun x => { x with ptp := r }).wr Reg.PTP_TS_ID id).wr128 Reg.PTP_TS w, id)

/-- A read of TIME_NOW_0 latches the whole device-time word (R50). -/
def timeNow (d : Dev) : Dev × Word :=
  let w := d.timeWord 6 false d.now
  (d.wr128 Reg.TIME_NOW w, BitVec.ofNat 32 w.toNat)

end Sys2Proof.Machine
end

