-- ==== Sys2Proof/Machine/Registers.lean ====
section
/-! DEFINITION. The register space: what a read or a write of any register does, pairs, sequence clears, posted writes, guarded pairs, and the device regions (chapter Registers and Access Windows). -/
namespace Sys2Proof.Machine

/-! ### Reads -/

/-- What a register reads, without the effects of the read: registers that show other state are computed. -/
def Dev.regPeek (d : Dev) (k : Nat) : Word :=
  match keyDesc k with
  | .none => 0
  | some (ds, i, _) =>
    let b := keyBlock k
    let o := keyOff k
    match ds.acc with
    | .cmd => 0
    | .g2f => 0
    | _ =>
      if b = 0x22 ∧ 0x204 ≤ o ∧ o ≤ 0x21C then d.rgnRead o
      else if k = Reg.MC_STATUS then d.mcStatusRead
      else if b = 0x14 ∧ ds.off = 0x114 then d.eiStateRead i
      else if 0x18 ≤ b ∧ b < 0x20 ∧ ds.off = 0x100 then d.engStateRead (16 * (b - 0x18) + i)
      else if 0x18 ≤ b ∧ b < 0x20 ∧ ds.off = 0x104 then d.engAovRead (16 * (b - 0x18) + i)
      else if k = Reg.GUAR_LAPSED then BitVec.ofNat 32 d.guarLapsed
      else if k = Reg.AGE_DATA then d.ageData
      else if k = Reg.ENG_UNTESTED then BitVec.ofNat 32 d.engUntested
      else d.rd k

/-- A read of PW_ERR_INFO releases the fence: BUSY clears (R532). -/
def Dev.fenceRead (d : Dev) (b : Nat) : Dev × Word :=
  let w := d.rd (Reg.PW_ERR_INFO b)
  (if fld w 16 4 ≠ 0 ∧ (d.flight b).isNone then d.clrB (statusKey b) (busyBit b) else d, w)

/-- What a read of a register that is no word of a pair does and gives. -/
def Dev.regRead (d : Dev) (k : Nat) : Dev × Word :=
  let b := keyBlock k
  let o := keyOff k
  if k = Reg.TIME_NOW 0 then timeNow d
  else if k = Reg.PTP_TS_ID then ptpPop d
  else if b = 0x28 ∧ 0x100 ≤ o ∧ o < 0x200 ∧ o % 16 = 0 then claim ((o - 0x100) / 16) d
  else if k = Reg.CAL_DATA then calDataRead d
  else if k = Reg.RES 0 then resPop d
  else if isPosted b ∧ o = 0xFF0C then d.fenceRead b
  else (d, d.regPeek k)

/-- The low word of a pair latches the high word for its reader (R529). -/
def Dev.pairLow (d : Dev) (i : Ini) (k : Nat) : Dev × Word :=
  ({ d with shadow := d.shadow.set (fun _ => none) (keyBlock k) (some (i, k + 4, d.regPeek (k + 4))) }, d.regPeek k)

/-- The high word of a pair: the shadow for the initiator that latched it, and else the live word (R529). -/
def Dev.pairHigh (d : Dev) (i : Ini) (k : Nat) : Dev × Word :=
  match d.shadow.get (fun _ => none) (keyBlock k) with
  | some (j, h, w) =>
    if j = i ∧ h = k then ({ d with shadow := d.shadow.set (fun _ => none) (keyBlock k) none }, w) else (d, d.regPeek k)
  | none => (d, d.regPeek k)

/-- A 32-bit read of a register that the access has reached. -/
def Dev.wordRead (d : Dev) (i : Ini) (k : Nat) : Dev × Word :=
  match keyDesc k with
  | some (ds, _, _) =>
    match ds.pair with
    | .lo => d.pairLow i k
    | .hi => d.pairHigh i k
    | .none => d.regRead k
  | .none => (d, 0)

/-! ### Writes that take effect -/

/-- A register takes a value: its range rule, and only its writable bits. -/
def Dev.regStore (d : Dev) (k : Nat) (v : Word) : Dev :=
  match keyDesc k with
  | some (ds, i, j) =>
    let m := BitVec.ofNat 32 ds.mask
    d.wr k ((d.rd k &&& ~~~m) ||| (BitVec.ofNat 32 (ds.norm i j v.toNat) &&& m))
  | .none => d

/-- Both words of a pair, or its high word alone (R529). -/
def Dev.storePair (d : Dev) (k : Nat) (low : Option Word) (v : Word) : Dev :=
  match low with
  | some l => (d.regStore (k - 4) l).regStore k v
  | none => d.regStore k v

/-- A sequence clear (R530); DERATED_SEEN sets again at once while the device is derated (R37). FIRST_SOURCE keeps its old number until a source exceeds its allotment again (log entry 110). -/
def Dev.sqClear (d : Dev) (k : Nat) (v : Word) : Dev :=
  match keyDesc k with
  | some (ds, _, _) =>
    if fld v 16 16 = d.f k 16 16 then
      let d := d.wr k (d.rd k &&& BitVec.ofNat 32 (0xFFFF ^^^ (ds.mask &&& 0xFFFF)))
      if k = Reg.COND_STATUS ∧ d.derated then d.deratedSeen else d
    else d
  | .none => d

/-- A write to a command register of a posted block. -/
def Dev.islandCmd (d : Dev) (k : Nat) (v : Word) : Dev :=
  let b := keyBlock k
  let n := v.toNat
  if k = Reg.TOD_CMD then (if n = 1 then todArm d else if n = 2 then todCancel d else d)
  else if k = Reg.OUT_SYNC_CMD then (if n = 1 then outSyncCmd d else d)
  else if 2 ≤ b ∧ b < 8 then
    (if n = 1 then linkRestart (b - 2) d else if n = 2 then d.eqCal (b - 2) else if n = 3 then portClearCounts (b - 2) d else d)
  else if b = 0x10 then
    (if n = 1 then applyTiming d else if n = 2 then dispRetrain d else if n = 3 then cremaFlip d else if n = 4 then dispClearCounts d else d)
  else if b = 0x16 then
    (if n = 1 then auxSeqGo d else if n = 2 then auxCal d else if n = 3 then auxCalAbort d else if n = 4 then auxClear d
      else if 5 ≤ n ∧ n ≤ 8 then injGo (n - 5) d else d)
  else if b = 0x24 ∨ b = 0x25 then (if n = 1 then soClear (b - 0x24) d else d)
  else d

/-- A write takes effect in a posted block, with the low word it carries (R531). -/
def Dev.islandWrite (d : Dev) (k : Nat) (low : Option Word) (v : Word) : Dev :=
  match keyDesc k with
  | .none => d
  | some (ds, i, _) =>
    let b := keyBlock k
    let o := keyOff k
    match ds.acc with
    | .sq => d.sqClear k v
    | .cmd => d.islandCmd k v
    | .pw =>
      if k = Reg.TB_CTRL then (d.regStore k v).showWarm
      else if b = 0x01 ∧ ds.off = 0x100 then (d.regStore k v).outCfgWritten i
      else if 2 ≤ b ∧ b < 8 ∧ ds.off = 0x200 then laneEqWrite (b - 2) i v d
      else if k = Reg.AUX_TR then auxTransaction v d
      else if k = Reg.SEQ_CTRL then (d.regStore k v).auxSeqCtrl
      else if b = 0x16 ∧ (ds.off = 0x30 ∨ ds.off = 0x50) then (d.regStore k v).onAux fun x => { x with written := true }
      else if b = 0x16 ∧ ds.off = 0x480 then (d.regStore k v).tachCfg i
      else if (b = 0x24 ∨ b = 0x25) ∧ o = 0x70 then (d.regStore k v).showFlow (b - 0x24)
      else d.storePair k low v
    | _ => d

/-- A write to a command register of the core domain. -/
def Dev.coreCmd (d : Dev) (i : Ini) (k : Nat) (v : Word) : Dev :=
  let b := keyBlock k
  let n := v.toNat
  let op := fld v 24 8
  let lo := fld v 0 4
  if 8 ≤ b ∧ b < 12 then (if n = 1 then flatVerify (b - 8) d else if n = 2 then detClearCounts (b - 8) d else d)
  else if k = Reg.FAB_CMD then (if n = 1 then fabCommit d else if n = 2 then swTrig d else if n = 3 then fabCancel d else d)
  else if k = Reg.EI_CMD then
    (if n = 1 then eiCommit d else if n = 2 then eiCancel d else if n = 3 then eiCal d else if n = 4 then eiCalAbort d
      else if n = 5 then ilvCommit d else if n = 6 then eiClearCounts d else d)
  else if k = Reg.CAL_DATA then calDataWrite v d
  else if k = Reg.SU_CMD then (if n = 1 then suCommit d else if n = 2 then suCancel d else if n = 3 then suFlush d else if n = 4 then suClearCounts d else d)
  else if 0x18 ≤ b ∧ b < 0x20 then
    let c := b - 0x18
    (if op = 1 then engHalt c lo d else if op = 2 then engResume c lo d else if op = 3 then engRestart c lo d else if op = 4 then clClear c lo d else d)
  else if k = Reg.FL_CMD then (if n = 1 then replan d else if n = 2 then flClear d else d)
  else if k = Reg.MC_CMD then (if n = 1 then mcClear d else d)
  else if k = Reg.CAP_CMD then (if op = 1 then cxStart lo d else if op = 2 then cxAbort lo d else if op = 3 then capClear lo d else d)
  else if k = Reg.K_CMD then (if op = 1 then ctxFlush lo d else if op = 4 then ctxClear lo d else d)
  else if k = Reg.KP_CMD then
    let c := fld v 0 2
    (if op = 1 then ctxFlush (16 + c) d else if op = 2 then kpSave c d else if op = 3 then kpRestore c d else if op = 4 then ctxClear (16 + c) d else d)
  else if k = Reg.RP_CMD then (if n = 1 then replayStart d else if n = 3 then replayContinue d else d)
  else if k = Reg.DMA_CMD then (if op = 1 then dmaAbort (fld v 0 6) d else if op = 2 then dmaClear d else d)
  else if k = Reg.EV_RAISE then evRaise i v d
  else if k = Reg.EVC_CMD then (if op = 1 then clearPending (fld v 0 11) d else d)
  else if k = Reg.SUMP_CMD then (if op = 1 then sumpAck (fld v 0 6) d else if op = 2 then sumpClear d else d)
  else if k = Reg.ATT_CMD then (if n = 1 then attStart i d else d)
  else if k = Reg.WDOG_KICK then wdogKick v d
  else d

/-- A write to a bank register while a commit is pending is discarded and sets LOST (R198, R265, R295). -/
def Dev.bankLost (d : Dev) (k : Nat) : Option Dev :=
  if fabBankKey k ∧ d.fab.commitAt.isSome then some (d.sqEvent Reg.FAB_STATUS 9 1375)
  else if eiBankKey k ∧ d.edge.commitAt.isSome then some (d.sqEvent Reg.EI_STATUS 14 1303)
  else if suBankKey k ∧ d.stats.commitAt.isSome then some (d.sqEvent Reg.SU_STATUS 7 1331)
  else none

/-- The value of a pair as one number. -/
def pairValue (low high : Word) : Nat := high.toNat * 2 ^ 32 + low.toNat

/-- A write to a register of the memory controller. -/
def Dev.mcWrite (d : Dev) (i : Ini) (k : Nat) (low : Option Word) (v : Word) : Dev :=
  let o := keyOff k
  if k = Reg.MC_CTRL then mcCtrlWrite i v d
  else if o = 0x208 then rgnPlace i o (pairValue (low.getD (d.rgnRead 0x204)) v) d
  else if o = 0x20C then rgnPlace i o v.toNat d
  else if o = 0x210 then rgnCfg v d
  else if o = 0x218 then rgnCp i v.toNat d
  else if 0x100 ≤ o ∧ o < 0x1C0 ∧ o % 8 = 0 then portRegWrite ((o - 0x100) / 8) k v d
  else d.storePair k low v

/-- A write to a register of the capture block: the base of a ring with a length is REFUSED (R453). -/
def Dev.capWrite (d : Dev) (i : Ini) (k n : Nat) (off : Nat) (low : Option Word) (v : Word) : Dev :=
  if off = 0x104 then (if d.f (Reg.RLEN n) 0 20 ≠ 0 then d.lateWrite i k 4 else d.storePair k low v)
  else if off = 0x108 then rlenWrite n v d
  else if off = 0x1000 then cxCfgWrite i n v d
  else d.storePair k low v

/-- A write to a register of the compressor: the configuration of a context that a flow setup names, and the replay registers while BUSY, are REFUSED (R482). -/
def Dev.compWrite (d : Dev) (i : Ini) (k n off : Nat) (low : Option Word) (v : Word) : Dev :=
  if off = 0x100 ∧ d.ctxNamed n ∨ off = 0x8100 ∧ d.ctxNamed (16 + n) ∨ (0x4004 ≤ off ∧ off ≤ 0x4024 ∧ d.on Reg.RP_RESULT 0) then d.lateWrite i k 4
  else d.storePair k low v

/-- A write to a register of a DMA channel (R496 to R499). -/
def Dev.dmaWrite (d : Dev) (i : Ini) (k c off : Nat) (low : Option Word) (v : Word) : Dev :=
  if off = 0x100 then dchCfg i c v d
  else if (off = 0x108 ∨ off = 0x120) ∧ d.on (Reg.DCH_CFG c) 31 then d.lateWrite i k 4
  else if off = 0x10C then drlenWrite c v d
  else if off = 0x114 then dmaDoorbell i c v d
  else d.storePair k low v

/-- A write to an RW register of the core domain takes effect. -/
def coreWrite (i : Ini) (k : Nat) (low : Option Word) (v : Word) (s : Sys) : Sys :=
  match keyDesc k with
  | .none => s
  | some (ds, n, _) =>
    let b := keyBlock k
    let off := ds.off
      if k = Reg.CW_CTRL then cwCtrl i v s
      else if k = Reg.CW_CMD_HEAD then s.on (cmdHead i v)
      else if k = Reg.CW_DONE_TAIL then doneTail v s
      else if (k = Reg.CW_CMD_BASE_HI ∨ k = Reg.CW_DONE_BASE_HI) ∧ s.dev.on Reg.CW_CTRL 31 then s.on fun d => d.lateWrite i k 4
      else if k = Reg.PD_REQ then pdWrite v s
      else if b = 0x27 ∧ off = 0x128 then dcplTail n v s
      else s.on fun d =>
        if b = 0x22 then d.mcWrite i k low v
        else if b = 0x23 then d.capWrite i k n off low v
        else if b = 0x26 then d.compWrite i k n off low v
        else if b = 0x27 then d.dmaWrite i k n off low v
        else if b = 0x14 ∧ off = 0x13C then thrTrimWrite n v d
        else if k = Reg.FL_CTRL then (d.regStore k v).dieUpdate
        else if k = Reg.EVD_CTRL ∨ (b = 0x2B ∧ off = 0x40) then evdWritten (d.regStore k v)
        else if k = Reg.XSPI_CMD then xspiCmd i v d
        else d.storePair k low v

/-! ### Guarded pairs (R534) -/

/-- What each guarded register's owner does with a valid value. -/
def guardEffect (i : Ini) (k : Nat) (v : Word) (d : Dev) : Guarded :=
  if k = Reg.WIN_COMMIT_FIRE then winCommit v d
  else if k = Reg.VDD_OVR_FIRE then vddOverride i v d
  else if k = Reg.DERATE_OVR_FIRE then derateOverride i v d
  else if k = Reg.RLEN_FORCE_FIRE then rlenForce v d
  else if k = Reg.DRLEN_FORCE_FIRE then drlenForce v d
  else if k = Reg.KEY_REVOKE_FIRE then keyRevoke v d
  else if k = Reg.RB_ADV_FIRE then rbAdvance v d
  else if k = Reg.ID_KEY_FIRE then idKey v d
  else if k = Reg.JTAG_LOCK_FIRE then jtagLock v d
  else if k = Reg.RST_CMD_FIRE then rstCmd v d
  else .refused

/-- A write that has reached a FIRE address: a reset command starts its reset after the write, and a forced ring length writes what completions it can. -/
def fireWrite (i : Ini) (k : Nat) (v : Word) (s : Sys) : Sys :=
  let armed := s.dev.armedBy i (k - 4) v
  let s := s.on fun d => d.fire i k v (guardEffect i k)
  match armed with
  | none => s
  | some a =>
    if k = Reg.RST_CMD_FIRE then (if a = 1 then resetStart 3 0x06 s else if a = 2 then resetStart 2 0x03 s else s)
    else if k = Reg.DRLEN_FORCE_FIRE then cplWrite (fld a 26 6) s
    else s

/-! ### Staging, posting and the bus -/

/-- The low word an initiator has staged for a pair. -/
def Dev.staged (d : Dev) (i : Ini) (k : Nat) : Option Word := (d.lows.find? fun e => e.1 = i ∧ e.2.1 = k).map (·.2.2)

/-- An initiator's staged low word is used up. -/
def Dev.unstage (d : Dev) (i : Ini) (k : Nat) : Dev := { d with lows := d.lows.filter fun e => !(e.1 = i ∧ e.2.1 = k) }

/-- A low word is staged for its initiator (R529). -/
def Dev.stageLow (d : Dev) (i : Ini) (k : Nat) (v : Word) : Dev := { d.unstage i k with lows := (d.unstage i k).lows ++ [(i, k, v)] }

/-- A register of a posted block takes no write. -/
def readOnly (k : Nat) : Bool :=
  match keyDesc k with
  | some (ds, _, _) => ds.acc == .ro
  | .none => true

/-- The position of a register in a pair. -/
def pairPos (k : Nat) : PairPos :=
  match keyDesc k with
  | some (ds, _, _) => ds.pair
  | .none => .none

/-- A write to a posted block (R531): discarded with LOST while BUSY; a low word is staged; any other is accepted, with the low word its initiator has staged. -/
def Dev.post (d : Dev) (i : Ini) (k : Nat) (v : Word) : Dev :=
  let b := keyBlock k
  if d.busy b then d.writeFault b 14
  else if readOnly k then d
  else if pairPos k = .lo then d.stageLow i k v
  else
    let low := if pairPos k = .hi then d.staged i (k - 4) else none
    let d := d.unstage i (k - 4)
    { d.setB (statusKey b) (busyBit b) with inflight := d.inflight.set (fun _ => none) b (some ⟨i, k, low, v, d.up⟩) }

/-- A posted write fails (R532): ERR sets, BUSY stays, the failure is captured, and the sump and the events are told. -/
def Dev.postFail (d : Dev) (b : Nat) (w : PostedW) (cause : Nat) : Dev :=
  let d := { d with inflight := d.inflight.set (fun _ => none) b none }
  let d := (d.wr64 (Reg.PW_ERR_TIME_LO b) (Reg.PW_ERR_TIME_HI b) (shortTime d.now)).wr (Reg.PW_ERR_DATA b) w.data
  let d := d.wr (Reg.PW_ERR_INFO b) (packBE 32 [(w.ini.toNat, 10), (0, 2), (cause, 4), (keyOff w.key / 4, 14), (0, 2)])
  ((d.writeFault b 15).raise 1477).report 0x0E (0x7000 + b) 24

/-- The posted write in flight takes effect in the island, or fails (R531, R532). -/
def postedEffect (b : Nat) (parityBad : Bool) (d : Dev) : Dev :=
  match d.flight b with
  | none => d
  | some w =>
    if !d.domUp (domainOf b) then d.postFail b w 1
    else if parityBad then d.postFail b w 3
    else
      let d := { d with inflight := d.inflight.set (fun _ => none) b none }
      (d.clrB (statusKey b) (busyBit b)).islandWrite w.key w.low w.data

/-- The island's clock has stopped for 10 µs (R532). -/
def noClock (b : Nat) (d : Dev) : Dev :=
  match d.flight b with
  | some w => if elapsedNs w.time d.up 10000 then d.postFail b w 2 else d
  | none => d

/-- A 32-bit write that has reached its register. -/
def wordWrite (i : Ini) (k : Nat) (v : Word) (s : Sys) : Sys :=
  if isPosted (keyBlock k) then s.on fun d => d.post i k v
  else
    match keyDesc k with
    | .none => s
    | some (ds, _, _) =>
      match ds.acc with
      | .ro => s
      | .pw => s
      | .sq => s.on fun d => d.sqClear k v
      | .lk => s.on (wdogCfg i v)
      | .g2a => s.on fun d => d.armWrite i k v
      | .g2f => fireWrite i k v s
      | .cmd => if k = Reg.RP_CMD ∧ v = 2 then replayAbort s else s.on fun d => d.coreCmd i k v
      | .rw =>
        match s.dev.bankLost k with
        | some d => { s with dev := d }
        | none =>
        match ds.pair with
        | .lo => s.on fun d => d.stageLow i k v
        | .hi => coreWrite i k (s.dev.staged i (k - 4)) v (s.on fun d => d.unstage i (k - 4))
        | .none => coreWrite i k none v s

/-- A 64-bit write that has reached its registers (R525): one posted write of a PW pair, and else two 32-bit writes, low word first. -/
def longWrite (i : Ini) (k : Nat) (v : Nat) (s : Sys) : Sys :=
  let lo : Word := BitVec.ofNat 32 v
  let hi : Word := BitVec.ofNat 32 (v / 2 ^ 32)
  if isPosted (keyBlock k) ∧ pairPos k = .lo ∧ !readOnly k then
    s.on fun d => if d.busy (keyBlock k) then d.writeFault (keyBlock k) 14 else (d.stageLow i k lo).post i (k + 4) hi
  else wordWrite i (k + 4) hi (wordWrite i k lo s)

/-! ### Device regions (R526) -/

/-- What lies at a device-region address: 0 the shared memory of a cluster, 1 the frame store, 2 the flash aperture, 3 reserved; with the cluster and the offset. -/
def devRegion (a n : Nat) : Nat × Nat × Nat :=
  let x := a - regBase
  if 0x10000000 ≤ x ∧ x + n ≤ 0x11000000 ∧ x / 0x200000 = (x + max 1 n - 1) / 0x200000 then (0, (x - 0x10000000) / 0x200000, x % 0x200000)
  else if 0x11000000 ≤ x ∧ x + n ≤ 0x11BB8000 then (1, 0, x - 0x11000000)
  else if 0x20000000 ≤ x ∧ x + n ≤ 0x30000000 then (2, 0, x - 0x20000000)
  else (3, 0, 0)

/-- An address lies in the device regions. -/
def inDevice (a : Nat) : Bool := decide (regBase + 0x10000000 ≤ a) && decide (a < regBase + 0x30000000)

/-- The reason a device-region access is refused, if it is: reserved ranges and writes to the flash, then the table. -/
def Dev.devDeny (d : Dev) (i : Ini) (a n : Nat) (kd : Kind) : Option Nat :=
  let r := (devRegion a n).1
  if r = 3 ∨ (r = 2 ∧ kd ≠ .read) then some 4
  else if isMonitor i then none
  else (pages (n / 4096 + 2) a n).findSome? fun p => d.tableDeny i p.1 p.2 kd

/-- An access to a device region: the windows, then the region's domain. The flag says that it is served. -/
def Dev.devAccess (d : Dev) (i : Ini) (a n : Nat) (kd : Kind) : Dev × Bool :=
  match d.devDeny i a n kd with
  | some r => (d.deny i a kd r 24, false)
  | none =>
    let x := devRegion a n
    let up := d.domUp (if x.1 = 0 then 13 + x.2.1 else if x.1 = 1 then 21 else 0)
    (d.answer ⟨up, 0⟩, up)

/-- The byte at an offset of a cluster's shared memory (R342). -/
def Dev.sharedByte (d : Dev) (c o : Nat) : Byte := BitVec.ofNat 8 (fld ((d.cl c).shared.get (fun _ => 0) (o / 16)) (8 * (o % 16)) 8)

/-- One byte of a cluster's shared memory is set. -/
def Dev.sharedPut (d : Dev) (c o : Nat) (b : Byte) : Dev :=
  let x := d.cl c
  d.setCl c { x with shared := x.shared.set (fun _ => 0) (o / 16) (put (x.shared.get (fun _ => 0) (o / 16)) (8 * (o % 16)) 8 b.toNat) }

/-- The bytes of a device region from an address on; a byte of the frame store that nothing has written is a free value. -/
def Dev.devBytes (d : Dev) (a n : Nat) : Dev × List Byte :=
  let x := devRegion a n
  if x.1 = 0 then (d, (List.range n).map fun k => d.sharedByte x.2.1 (x.2.2 + k))
  else if x.1 = 1 then
    ({ d with fresh := d.fresh + n }, (List.range n).map fun k => (d.disp.store.find? (x.2.2 + k)).getD (BitVec.ofNat 8 (Config.freeNat (d.fresh + k))))
  else (d, d.flashBytes x.2.2 n)

/-- Bytes written to a device region: shared memory, where a whole word written ends its error (R303), or the on-chip frame store (R225). -/
def Dev.devPut (d : Dev) (a : Nat) (l : List Byte) : Dev :=
  let x := devRegion a l.length
  let idx := (List.range l.length).zip l
  if x.1 = 0 then
    let d := idx.foldl (fun (d : Dev) e => d.sharedPut x.2.1 (x.2.2 + e.1) e.2) d
    let c := d.cl x.2.1
    d.setCl x.2.1 { c with bad := c.bad.filter fun k => !(decide (x.2.2 ≤ 16 * k) && decide (16 * k + 16 ≤ x.2.2 + l.length)) }
  else if x.1 = 1 then
    d.setDisp { d.disp with store := storePut d.disp.store x.2.2 l }
  else d

/-! ### Accesses of an initiator -/

/-- The ARM address whose arm an access to a key keeps: that of the FIRE address it writes. -/
def keepArm (k : Nat) : Nat :=
  match keyDesc k with
  | some (ds, _, _) => if ds.acc == .g2f then k - 4 else 0
  | .none => 0

/-- An initiator writes to register space or to a device region. -/
def busWrite (i : Ini) (addr size data : Nat) (s : Sys) : Sys :=
  if inDevice addr then
    let p := s.dev.devAccess i addr size .write
    { s with dev := if p.2 then p.1.devPut addr (bytesLE size data) else p.1 }
  else
    let k := addr - regBase
    let p := s.dev.access i addr size .write (keepArm k)
    if !p.2 then { s with dev := p.1 }
    else if size = 8 then longWrite i k data { s with dev := p.1 }
    else wordWrite i k (BitVec.ofNat 32 data) { s with dev := p.1 }

/-- An initiator reads a word of register space or of a device region; a read of a posted block waits until its initiator's earlier write has taken effect (R531). -/
def busRead (i : Ini) (addr : Nat) (d : Dev) : Dev :=
  if inDevice addr then
    let p := d.devAccess i addr 4 .read
    if p.2 then
      let q := p.1.devBytes addr 4
      q.1.answer ⟨true, BitVec.ofNat 32 (natLE q.2)⟩
    else p.1
  else
    let k := addr - regBase
    let p := d.access i addr 4 .read 0
    if !p.2 then p.1
    else
      let d := match p.1.flight (keyBlock k) with
        | some w => if w.ini = i then postedEffect (keyBlock k) false p.1 else p.1
        | none => p.1
      let q := d.wordRead i k
      q.1.answer ⟨true, q.2⟩

/-- An arm whose 10 µs have passed is abandoned (R534). -/
def armExpire (k : Nat) (d : Dev) : Dev := { d with arms := d.arms.filter fun a => !(a.key = k ∧ elapsedNs a.time d.up 10000) }

end Sys2Proof.Machine
end

