-- ==== Sys2Proof/Machine/DmaMove.lean ====
section
/-! DEFINITION. What a DMA descriptor does: its lists, the moving of bytes, its end, and an abort (R485 to R495). -/
namespace Sys2Proof.Machine

/-- An address lies in register space. -/
def inRegs (a : Nat) : Bool := decide (regBase ≤ a) && decide (a < regBase + 0x10000000)

/-- The power domain an address lies in (R494). -/
def addrDomain (a : Nat) : Nat :=
  if inRegs a then domainOf ((a - regBase) / 0x10000)
  else if inDevice a then
    let x := devRegion a 1
    if x.1 = 0 then 13 + x.2.1 else if x.1 = 1 then 21 else if x.1 = 2 then 0 else 2
  else 2

/-- The bus's last answer is that to the senders of commands, not to a channel's accesses. -/
def Sys.keepResp (s0 s : Sys) : Sys := s.on fun d => { d with resp := s0.dev.resp }

/-- Words of registers are read until one is refused. -/
def readWords (i : Ini) : Nat → Nat → Dev → Dev × List Byte × Option Nat
  | 0, _, d => (d, [], none)
  | k + 1, a, d =>
    let d := busRead i a d
    if d.resp.ok then
      let r := readWords i k (a + 4) d
      (r.1, bytesLE 4 d.resp.data.toNat ++ r.2.1, r.2.2)
    else (d, [], some 0x13)

/-- Words of registers are written until one is refused: how many bytes were written. -/
def writeWords (i : Ini) : List (List Byte) → Nat → Nat → Sys → Sys × Nat × Option Nat
  | [], _, n, s => (s, n, none)
  | w :: l, a, n, s =>
    let s := busWrite i a 4 (natLE w) s
    if s.dev.resp.ok then writeWords i l (a + 4) (n + 4) s else (s, n, some 0x13)

/-- The bytes of a range of memory before the first page the windows refuse. -/
def Dev.grantedTo (d : Dev) (i : Ini) (a n : Nat) (kd : Kind) : Dev × Nat × Bool :=
  match (pages (n / 4096 + 2) a n).findSome? fun p => (d.hbmDeny i p.1 p.2 kd).map fun r => (p.1, r) with
  | some (x, r) => (d.denyUnit i 18 x kd r, x - a, true)
  | none => (d, n, false)

/-- A channel reads up to n bytes: those before a denied access (0x13) or an uncorrectable unit (0x14). -/
def dmaRead (c a n : Nat) (s : Sys) : Sys × List Byte × Option Nat :=
  let i := dmaIni c
  if inRegs a then
    let r := readWords i ((n + 3) / 4) a s.dev
    (s.keepResp { s with dev := r.1 }, r.2.1.take n, r.2.2)
  else if inDevice a then
    let p := s.dev.devAccess i a n .read
    if p.2 then
      let q := p.1.devBytes a n
      (s.keepResp { s with dev := q.1 }, q.2, none)
    else (s.keepResp { s with dev := p.1 }, [], some 0x13)
  else
    let g := s.dev.grantedTo i a n .read
    let g := (g.1.meter 18 i a g.2.1, g.2)
    match g.1.ueIn a g.2.1 with
    | some u =>
      let m := 32 * u - a
      ({ s with dev := (g.1.meetUe 18 u).moved 18 m }, s.mem.bytes a m, some 0x14)
    | none => ({ s with dev := g.1.moved 18 g.2.1 }, s.mem.bytes a g.2.1, if g.2.2 then some 0x13 else none)

/-- A channel writes bytes: how many were written before a denied access or a part of an uncorrectable unit. -/
def dmaWrite (c a : Nat) (l : List Byte) (s : Sys) : Sys × Nat × Option Nat :=
  let i := dmaIni c
  if inRegs a then
    let r := writeWords i (chunks 4 l) a 0 s
    (s.keepResp r.1, r.2)
  else if inDevice a then
    let p := s.dev.devAccess i a l.length .write
    if p.2 then (s.keepResp { s with dev := p.1.devPut a l }, l.length, none)
    else (s.keepResp { s with dev := p.1 }, 0, some 0x13)
  else
    let g := s.dev.grantedTo i a l.length .write
    let g := (g.1.meter 18 i a g.2.1, g.2)
    match (g.1.ueEdges a g.2.1).head? with
    | some u =>
      let m := 32 * u - a
      let q := memPut 18 a (l.take m) { s with dev := g.1 }
      (q.1.on fun d => d.meetUe 18 u, m, some 0x14)
    | none => ((memPut 18 a (l.take g.2.1) { s with dev := g.1 }).1, g.2.1, if g.2.2 then some 0x13 else none)

/-! ### Start (R485, R486, R489, R495) -/

/-- The elements of a list. -/
def elements (l : List Word128) : List (Nat × Nat) := l.map fun w => (fld w 80 48, fld w 32 20 + 1)

/-- A reserved bit of an element is set. -/
def elementBad (w : Word128) : Bool := fld w 52 28 != 0 || fld w 0 32 != 0

/-- The sum of the lengths. -/
def total (l : List (Nat × Nat)) : Nat := l.foldl (fun a e => a + e.2) 0

/-- An element in the register space is not of whole words. -/
def regUnaligned (e : Nat × Nat) : Bool := inRegs e.1 && (e.1 % 4 != 0 || e.2 % 4 != 0)

/-- An element in memory begins or ends within a 32-byte unit (R487). -/
def misaligned (e : Nat × Nat) : Bool := !inRegs e.1 && !inDevice e.1 && (e.1 % 32 != 0 || e.2 % 32 != 0)

/-- The lists of a descriptor, or the status with which it ends before a byte moves. -/
def readLists (c : Nat) (w0 w1 : Word128) (s : Sys) : Sys × Option Nat × List (Nat × Nat) × List (Nat × Nat) :=
  let sa := fld w0 80 48
  let da := fld w1 80 48
  if fld w1 0 76 ≠ 0 then (s, some 0x10, [], [])
  else if sa % 16 ≠ 0 ∨ da % 16 ≠ 0 then (s, some 0x12, [], [])
  else
    match dmaRead c sa (16 * (fld w0 72 8 + 1)) s with
    | (s, _, some st) => (s, some st, [], [])
    | (s, sb, none) =>
      match dmaRead c da (16 * (fld w0 64 8 + 1)) s with
      | (s, _, some st) => (s, some st, [], [])
      | (s, db, none) =>
        let sw := words128 sb
        let dw := words128 db
        let src := elements sw
        let dst := elements dw
        let st := if (sw ++ dw).any elementBad then some 0x10
          else if total src ≠ total dst then some 0x11
          else if (src ++ dst).any regUnaligned then some 0x12
          else if (src ++ dst).any fun e => !s.dev.domUp (addrDomain e.1) then some 4
          else none
        (s, st, src, dst)

/-- A channel may start its next descriptor. -/
def Dev.dmaCanStart (d : Dev) (c : Nat) : Bool :=
  d.on (Reg.DCH_CFG c) 31 && decide (d.n (Reg.DHEAD c) ≠ d.n (Reg.DTAIL c)) && (d.dmaCh c).run.isNone
    && (d.dmaCh c).waiting.isEmpty && !d.cplFull c

/-- A channel starts its next descriptor (R489): one that names a domain whose power-down is pending does not start (R494). -/
def descriptorStart (c : Nat) (s0 : Sys) : Sys :=
  let s := s0.on fun d => d.forcedDue c
  if !s.dev.dmaCanStart c then s0
  else
    let idx := s.dev.n (Reg.DTAIL c)
    let a := s.dev.n64 (Reg.DRING_BASE_LO c) (Reg.DRING_BASE_HI c) + 32 * idx
    let p := dmaRead c a 32 s
    match p.2.2 with
    | some st => p.1.on fun d => (d.setRun c { idx := idx, desc := [0, 0], result := some st }).showDma c
    | none =>
      let ws := words128 p.2.1
      let w1 := nth ws 1 0
      let q := readLists c (nth ws 0 0) w1 p.1
      let src := q.2.2.1
      let dst := q.2.2.2
      match q.2.1 with
      | some st => q.1.on fun d => (d.setRun c { idx := idx, desc := ws, src := src, dst := dst, result := some st }).showDma c
      | none =>
        let doms := ((src ++ dst).map fun e => addrDomain e.1).eraseDups
        if doms.any fun m => s0.dev.pdPending m then s0
        else
          let bad := ((src ++ dst).filter misaligned).length
          q.1.on fun d =>
            let d := if bad = 0 then d else (d.addSat Reg.MISALIGNED bad).setB Reg.DMA_STATUS 3
            let run : DmaRun := {
              idx := idx, desc := ws, src := src, dst := dst
              crc := if bit w1 78 then d.n (Reg.DCRC c) else 0
              doms := doms, misalign := bad ≠ 0 }
            (d.setRun c run).showDma c

/-! ### Moving (R486 to R489) -/

/-- Where byte k of a transfer lies: its address, and how many bytes are left in its element. -/
def position : List (Nat × Nat) → Nat → Option (Nat × Nat)
  | [], _ => none
  | (a, n) :: l, k => if k < n then some (a + k, n - k) else position l (k - n)

/-- The CRC-32 of a stream so far takes more bytes. -/
def crcMore (crc : Nat) (l : List Byte) : Nat := l.foldl crcByte (crc ^^^ 0xFFFFFFFF) ^^^ 0xFFFFFFFF

/-- A channel moves bytes of its descriptor, at most to the next element boundary; a refusal or an error gives its result. -/
def moveBytes (c : Nat) (limit : Nat → Nat → Nat) (s : Sys) : Sys :=
  match (s.dev.dmaCh c).run with
  | none => s
  | some r =>
    match r.result, position r.src r.moved, position r.dst r.moved with
    | none, some (sa, sn), some (da, dn) =>
      let p := dmaRead c sa (limit da (min sn dn)) s
      let q := dmaWrite c da p.2.1 p.1
      let st := match q.2.2 with | some x => some x | none => p.2.2
      q.1.on fun d =>
        match (d.dmaCh c).run with
        | none => d
        | some r =>
          let moved := r.moved + q.2.1
          d.setRun c { r with
            moved := moved, crc := crcMore r.crc (p.2.1.take q.2.1)
            result := match st with
              | some x => some x
              | none => if moved = total r.dst then some 1 else none }
    | _, _, _ => s

/-- A source or destination element finishes: a marked transfer stops here with POWER_ABORT (R495). -/
def elementDone (c : Nat) (s : Sys) : Sys :=
  let s := moveBytes c (fun _ n => n) s
  s.on fun d =>
    match (d.dmaCh c).run with
    | some r => if r.result.isNone ∧ r.stop ∧ 0 < r.moved then d.setRun c { r with result := some 3 } else d
    | none => d

/-! ### End (R488, R490) -/

/-- The CRC is stored after the data (R488): the status it leaves. -/
def storeCrc (c : Nat) (r : DmaRun) (s : Sys) : Sys × Nat :=
  match r.dst.getLast? with
  | some e =>
    let p := dmaWrite c (e.1 + e.2) (bytesLE 4 r.crc) s
    (p.1, p.2.2.getD 1)
  | none => (s, 1)

/-- A descriptor that has its result ends: its CRC is stored, DCRC follows, and its completion is written or waits. -/
def descriptorEnd (c : Nat) (s : Sys) : Sys :=
  match (s.dev.dmaCh c).run with
  | some r =>
    match r.result with
    | none => s
    | some st =>
      let w1 := nth r.desc 1 0
      let en := bit w1 79
      let store := decide (st = 1) && en && bit w1 77
      let p := if store then storeCrc c r s else (s, st)
      let s := if p.2 = 1 ∧ en then p.1.on fun d => d.wrN (Reg.DCRC c) r.crc else p.1
      dmaFinish c p.2 (store && decide (p.2 = 1)) s
  | none => s

/-- A transfer that an ABORT has reached stops at a 32-byte unit boundary of its element, which of them is a free value, and ends (R493). -/
def abortEnd (c : Nat) (s : Sys) : Sys :=
  match (s.dev.dmaCh c).run with
  | some r =>
    if !r.abort then s
    else
      match r.result with
      | some st => descriptorEnd c (s.on fun d => d.setRun c { r with late := decide (st = 1) })
      | none =>
        let k := Config.freeNat s.dev.fresh
        let stop := fun (a n : Nat) => min n (32 * (a / 32 + 1 + k % ((a + n - 1) / 32 + 1 - a / 32)) - a)
        let s := moveBytes c stop (s.on Dev.draw)
        descriptorEnd c (s.on fun d => match (d.dmaCh c).run with
          | some r => d.setRun c { r with result := match r.result with | some 1 => some 2 | some x => some x | none => some 2 }
          | none => d)
  | none => s

/-- Every channel an ABORT has reached ends its descriptor. -/
def settleAborts (s : Sys) : Sys :=
  ((s.dev.dma.filter fun e => match e.2.run with | some r => r.abort | none => false).map (·.1)).foldl (fun s c => abortEnd c s) s

end Sys2Proof.Machine
end

