-- ==== Sys2Proof/Machine/Hooks.lean ====
section
/-! DEFINITION. Commands whose effect reaches several units at once: what follows in one unit from what another has done. -/
namespace Sys2Proof.Machine

/-- A write of an initiator that reaches its register and acts on the device and HBM. -/
def Sys.onWrite (i : Ini) (k : Nat) (eff : Sys → Sys) (s : Sys) : Sys :=
  let p := s.dev.access i (regBase + k) 4 .write 0
  if p.2 then eff { s with dev := p.1 } else { s with dev := p.1 }

/-- An abort that a register write has asked for stops its descriptor (R493): the write is one to DMA_CMD. -/
def settleAt (addr : Nat) (s : Sys) : Sys := if addr / 8 = (regBase + Reg.DMA_CMD) / 8 then settleAborts s else s

/-- The modulator follows the DLL from one state of the device to the next: MOD_READY sets with DLL_LOCKED and clears with it (R40, R387). -/
def Dev.modFollow (old new : Dev) : Dev :=
  if new.on Reg.TB_STATUS 0 then (if old.on Reg.TB_STATUS 0 then new else new.modReady)
  else if old.on Reg.TB_STATUS 0 then new.modLost else new

/-- A time-of-day set that succeeded commits PERIOD: samples are spaced by it, and every interpolator table predates it (R51, R84, R251). -/
def Dev.periodFollow (old new : Dev) : Dev :=
  if old.on Reg.TB_STATUS 4 ∧ !new.on Reg.TB_STATUS 4 ∧ new.n Reg.TOD_RESULT = 1 then new.portsPeriod.eiPeriodCommit else new

/-- Lanes whose input buffers are over their limit lose frames, and the floor notes it (R126, R419). -/
def Dev.lanesOverflow (d : Dev) : Dev := ((List.range 48).foldl (fun (d : Dev) l => d.laneOverflow l) d).noteOverrun

/-- An extended multiblock is released to the trigger, the DDC, the lanes and the capture writer (R83, R90, R453). -/
def releaseAll (p : Nat) (octets : List (List Nat)) (arrive : List Nat) (bad : List (Nat × Nat)) (s : Sys) : Sys :=
  let d := s.dev
  let r := embRelease p octets arrive bad d.tdRule d
  (captureAll (d.port p).cause r.2 { s with dev := r.1 }).on Dev.lanesOverflow

/-- Each 1 ms of a running outage is one GAP record, and the rings go on with the zeros supplied (R95, R453). -/
def outageGap (s : Nat) (d : Dev) : Dev := (outageSplit s d).ringsFill (s / 8)

/-- A committed port setup takes effect: rings of remade streams restart, and the samples that waited go to the capture writer (R374, R454). -/
def switchPort (p : Nat) (s : Sys) : Sys :=
  let d := s.dev
  let r := d.portSwitchStages p
  match r.2 with
  | none => { s with dev := r.1 }
  | some (sw, cap) =>
    let e := (List.range 8).foldl (fun (e : Dev) k => if streamRemade sw.old sw.new k then e.ringRestart (8 * p + k) else e) r.1
    (captureAll (d.port p).cause cap { s with dev := e }).on fun d => d.lanesOverflow.renderCheck

/-- Pulses reach the fabric in one step, and the units outside it that they start (R175, R243, R393, R458). -/
def pulsesArrive (codes : List Nat) (d : Dev) : Dev :=
  let r := fabricArrival codes d
  ((r.1.eiRampPulses r.2).cxPulses r.2).auxPulses r.2

/-- The oldest raise of an event on its way to the engines arrives (R509). -/
def engineDelivery (n : Nat) (d : Dev) : Dev :=
  match takeRaise n d.ev.toEngines with
  | none => d
  | some (q, l) => ({ d with ev := { d.ev with toEngines := l } }).engDeliver n q

/-- An output period of the converter ends; a new temperature goes to the floor unit (R389, R414). -/
def convert (raw : Int) (d : Dev) : Dev :=
  let e := conversionOutput raw d
  match d.ax.run with
  | some r => if r.who = 0 then e.dieUpdate else e
  | none => e

/-- A writer places its oldest record; the fabric's records of a past step, and the blocks that changes have closed, have their places by then (R195, R242, R451). -/
def writeRecord (r : Nat) (s : Sys) : Sys :=
  regionWrite r (s.on fun d =>
    if r = 256 then (if d.fab.stepEdge < d.tb.edges then d.fabFlush else d)
    else if 96 ≤ r ∧ r < 112 then d.eiCatch (r - 96) else d)

/-- TAP instruction REG_ACCESS (R554, R574, R580): BYPASS once JTAG_LOCK is programmed; in a reset a read of BOOT_STAGE is answered. -/
def tapAccess (write : Bool) (addr : Nat) (data : Word) (s : Sys) : Sys :=
  if s.dev.on Reg.ID_STATE 28 then s.on fun d => d.tapSelect 0x10 0
  else if write then settleAt addr (busWrite 0x1F0 addr 4 data.toNat (s.on fun d => d.tapSelect 0x10 0))
  else if s.dev.pw.reset.isSome ∧ addr = regBase + Reg.BOOT_STAGE then
    s.on fun d => ({ d with resp := ⟨true, d.rd Reg.BOOT_STAGE⟩ }).tapSelect 0x10 (d.rd Reg.BOOT_STAGE)
  else s.on fun d => let d := busRead 0x1F0 addr d; d.tapSelect 0x10 d.resp.data

/-- The timebase is held: a POWER_ON or DEVICE reset is in progress (R574). -/
def Dev.timeHeld (d : Dev) : Bool :=
  match d.pw.reset with
  | some (level, _) => level != 3
  | none => false

/-- What passes between commands (log entry 1): a pending attestation snapshot is taken at the end of the present edge, the records of the fabric's step take their places (R195, R197), edge inputs meet the changes that no crossing can precede any more (R242), and device time moves on by one REF_IN edge, or by a free amount in holdover (R44, R48, R556). -/
def idle (d : Dev) : Dev := if d.timeHeld then d else ((refEdge (attSnap d)).fabNow).eiCatchAll

end Sys2Proof.Machine
end

