-- ==== Sys2Proof/Machine/State.lean ====
section
/-! DEFINITION. The state of the block, its reset, and the reasons it can stop. -/
namespace Sys2Proof.Machine

/-- The state: the device, HBM, and the commands that wait, first in, first out. -/
structure State where
  dev : Dev := {}
  mem : Mem := []
  pending : List Instr := []
deriving DecidableEq, Repr

/-- The reasons to fault. No command of this device faults: what the manual calls a fault is a bit, an event, a record or an error response, and is part of the next state. The constructor stands for that absence; nothing raises it. Safe. -/
inductive Fault where
  /-- Raised by no command. Safe. -/
  | neverRaised
deriving DecidableEq, Repr

/-- The reasons to refuse a command. -/
inductive Refusal where
  /-- A command whose meaning is still to be written, by its mnemonic: raised by no arm of the finished model. Safe. -/
  | notModelled (mnemonic : String)
deriving DecidableEq, Repr

/-- The device right after a POWER_ON reset by the supply, its phases over and the boot ROM not yet started: every register at its reset column, with the values of the log where the manual gives none (log entries 3 and 5); HBM lists nothing, and no command waits. -/
def State.reset : State := {}

end Sys2Proof.Machine
end

