-- ==== Sys2Proof/Machine/Act.lean ====
section
/-! DEFINITION. How a command acts on the state: through the device alone, or through the device and HBM. The queue is never touched. -/
namespace Sys2Proof.Machine

/-- The outcome of a command. -/
abbrev Out := Host.Outcome State Fault Refusal

/-- A command that changes the device alone. -/
def State.onDev (s : State) (f : Dev → Dev) : Out := .next { s with dev := f s.dev }

/-- A command that changes the device and HBM. -/
def State.onSys (s : State) (f : Sys → Sys) : Out :=
  let r := f ⟨s.mem, s.dev⟩
  .next { s with dev := r.dev, mem := r.mem }

/-- The number of a posted block (R524). -/
def blockNum : PostedBlock → Nat
  | .timebase => 0x01
  | .port p => 0x02 + p.val
  | .display => 0x10
  | .auxConverter => 0x16
  | .streamOut p => 0x24 + p.val
  | .management => 0x2E

end Sys2Proof.Machine
end

