-- ==== Sys2Proof/Machine/CmdAux.lean ====
section
/-! DEFINITION. The meanings of the commands of the chapter Auxiliary Converter. -/
namespace Sys2Proof.Machine

/-- AUX_SEQ_GO (R392). -/
def execAuxSeqGo (i : Ini) (s : State) : Out :=
  s.onDev fun d => d.onPosted i Reg.AUX_CMD auxSeqGo

/-- AUX_CAL (R396). -/
def execAuxCal (i : Ini) (s : State) : Out :=
  s.onDev fun d => d.onPosted i Reg.AUX_CMD auxCal

/-- AUX_CAL_ABORT (R398). -/
def execAuxCalAbort (i : Ini) (s : State) : Out :=
  s.onDev fun d => d.onPosted i Reg.AUX_CMD auxCalAbort

/-- AUX_CLEAR_COUNTS (R402). -/
def execAuxClearCounts (i : Ini) (s : State) : Out :=
  s.onDev fun d => d.onPosted i Reg.AUX_CMD auxClear

/-- INJ_GO (R393). -/
def execInjGo (i : Ini) (j : Fin 4) (s : State) : Out :=
  s.onDev fun d => d.onPosted i Reg.AUX_CMD (injGo j.val)

/-- SEQ_ROUND_START (R392). -/
def execSeqRoundStart (s : State) : Out :=
  s.onDev seqRoundStart

/-- INJ_START_QUEUE (R394). -/
def execInjStartQueue (j : Fin 4) (s : State) : Out :=
  s.onDev (injStartQueue j.val)

/-- CONVERSION_OUTPUT (R389). -/
def execConversionOutput (raw : Int) (s : State) : Out :=
  s.onDev (convert raw)

/-- HK_ROUND_START (R395). -/
def execHkRoundStart (s : State) : Out :=
  s.onDev hkRoundStart

/-- AUX_CAL_AUTO_START (R396). -/
def execAuxCalAutoStart (s : State) : Out :=
  s.onDev auxCalAuto

/-- AUX_CAL_END (R396). -/
def execAuxCalEnd (runs : List (List Int × List Int)) (check : List Int) (s : State) : Out :=
  s.onDev (auxCalEnd runs check)

/-- RES_POP (R399). -/
def execResPop (i : Ini) (s : State) : Out :=
  s.onDev (busRead i (regBase + Reg.RES 0))

/-- PWM_PERIOD_START (R400). -/
def execPwmPeriodStart (c : Fin 8) (s : State) : Out :=
  s.onDev (pwmPeriodStart c.val)

/-- PWM_COMPARE (R400). -/
def execPwmCompare (c : Fin 8) (s : State) : Out :=
  s.onDev (pwmCompare c.val)

/-- TACH_EDGE (R401). -/
def execTachEdge (k : Fin 4) (s : State) : Out :=
  s.onDev (tachEdge k.val)

/-- TACH_STALL (R401). -/
def execTachStall (k : Fin 4) (s : State) : Out :=
  s.onDev (tachStall k.val)

end Sys2Proof.Machine
end

