-- ==== Sys2Proof/Machine/CmdCauseway.lean ====
section
/-! DEFINITION. The meanings of the commands of the chapter The Causeway. -/
namespace Sys2Proof.Machine

/-- CMD_DOORBELL (R366). -/
def execCmdDoorbell (i : Ini) (data : Word) (s : State) : Out :=
  s.onDev fun d => d.onWrite i Reg.CW_CMD_HEAD (cmdHead i data)

/-- CW_WRITE (R368). -/
def execCwWrite (s : State) : Out :=
  s.onSys (cwRun (fun c => !c.bad && c.op == 1) cwWriteCmd)

/-- CW_READ (R368). -/
def execCwRead (s : State) : Out :=
  s.onSys (cwRun (fun c => !c.bad && c.op == 2) cwReadCmd)

/-- CW_CLEAR (R368). -/
def execCwClear (s : State) : Out :=
  s.onSys (cwRun (fun c => !c.bad && c.op == 3) cwClearCmd)

/-- CW_ARM (R373). -/
def execCwArm (s : State) : Out :=
  s.onSys (cwRun (fun c => !c.bad && c.op == 4) cwArmCmd)

/-- CW_CANCEL (R376). -/
def execCwCancel (s : State) : Out :=
  s.onSys (cwRun (fun c => !c.bad && c.op == 5) cwCancelCmd)

/-- TABLE_WRITE (R368). -/
def execTableWrite (s : State) : Out :=
  s.onSys (cwRun (fun c => !c.bad && c.op == 6) cwTableCmd)

/-- IMAGE_LOAD (R364). -/
def execImageLoad (s : State) : Out :=
  s.onSys (cwRun (fun c => !c.bad && c.op == 7) cwImageCmd)

/-- IMAGE_DROP (R368). -/
def execImageDrop (s : State) : Out :=
  s.onSys (cwRun (fun c => !c.bad && c.op == 8) cwDropCmd)

/-- CW_UNKNOWN_OPCODE (R368). -/
def execCwUnknownOpcode (s : State) : Out :=
  s.onSys (cwRun (fun c => c.bad || c.op == 0 || decide (8 < c.op)) fun c s => s.end_ c 0x10)

/-- CW_DONE_TAIL_WRITE (R370). -/
def execCwDoneTailWrite (i : Ini) (data : Word) (s : State) : Out :=
  s.onSys (Sys.onWrite i Reg.CW_DONE_TAIL (doneTail data))

/-- CW_ENABLE (R370). -/
def execCwEnable (i : Ini) (data : Word) (s : State) : Out :=
  s.onSys (Sys.onWrite i Reg.CW_CTRL (cwCtrl i data))

/-- TARGET_ACK (R373). -/
def execTargetAck (t : Fin 64) (s : State) : Out :=
  s.onDev (targetAck t.val)

/-- DECISION_EDGE (R374). -/
def execDecisionEdge (g : Nat) (s : State) : Out :=
  s.onSys (decisionEdge g)

/-- LATE_COMMIT (R375). -/
def execLateCommit (g : Nat) (s : State) : Out :=
  s.onDev (lateCommit g)

/-- LATE_LIMIT_EXPIRE (R375). -/
def execLateLimitExpire (g : Nat) (s : State) : Out :=
  s.onSys (lateLimit g)

/-- COMMIT_STROBE (R374). -/
def execCommitStrobe (g : Nat) (s : State) : Out :=
  s.onDev (commitStrobe g)

/-- FLOW_SWITCH_BOUNDARY (R470). -/
def execFlowSwitchBoundary (p : Fin 2) (s : State) : Out :=
  s.onSys (flowSwitch p.val)

/-- SWITCH_COMPLETE (R374). -/
def execSwitchComplete (g : Nat) (s : State) : Out :=
  s.onSys (switchComplete g)

end Sys2Proof.Machine
end

