-- ==== Sys2Proof/Machine/CmdCratre.lean ====
section
/-! DEFINITION. The meanings of the commands of the chapter Cratre Instructions. -/
namespace Sys2Proof.Machine

/-- NOP (R349). -/
def execCrNop (e : Fin 128) (up : Option Nat) (s : State) : Out :=
  s.onDev (crNop e.val up)

/-- MOV (R349). -/
def execCrMov (e : Fin 128) (up : Option Nat) (s : State) : Out :=
  s.onDev (crMov e.val up)

/-- ADD (R349). -/
def execCrAdd (e : Fin 128) (up : Option Nat) (s : State) : Out :=
  s.onDev (crAdd e.val up)

/-- SUB (R349). -/
def execCrSub (e : Fin 128) (up : Option Nat) (s : State) : Out :=
  s.onDev (crSub e.val up)

/-- ADDS (R349). -/
def execCrAdds (e : Fin 128) (up : Option Nat) (s : State) : Out :=
  s.onDev (crAdds e.val up)

/-- SUBS (R349). -/
def execCrSubs (e : Fin 128) (up : Option Nat) (s : State) : Out :=
  s.onDev (crSubs e.val up)

/-- ABS (R349). -/
def execCrAbs (e : Fin 128) (up : Option Nat) (s : State) : Out :=
  s.onDev (crAbs e.val up)

/-- MIN (R349). -/
def execCrMin (e : Fin 128) (up : Option Nat) (s : State) : Out :=
  s.onDev (crMin e.val up)

/-- MAX (R349). -/
def execCrMax (e : Fin 128) (up : Option Nat) (s : State) : Out :=
  s.onDev (crMax e.val up)

/-- AND (R349). -/
def execCrAnd (e : Fin 128) (up : Option Nat) (s : State) : Out :=
  s.onDev (crAnd e.val up)

/-- OR (R349). -/
def execCrOr (e : Fin 128) (up : Option Nat) (s : State) : Out :=
  s.onDev (crOr e.val up)

/-- XOR (R349). -/
def execCrXor (e : Fin 128) (up : Option Nat) (s : State) : Out :=
  s.onDev (crXor e.val up)

/-- SHL (R349). -/
def execCrShl (e : Fin 128) (up : Option Nat) (s : State) : Out :=
  s.onDev (crShl e.val up)

/-- SHR (R349). -/
def execCrShr (e : Fin 128) (up : Option Nat) (s : State) : Out :=
  s.onDev (crShr e.val up)

/-- MUL (R349). -/
def execCrMul (e : Fin 128) (up : Option Nat) (s : State) : Out :=
  s.onDev (crMul e.val up)

/-- CMP (R349). -/
def execCrCmp (e : Fin 128) (up : Option Nat) (s : State) : Out :=
  s.onDev (crCmp e.val up)

/-- BCAST (R349). -/
def execCrBcast (e : Fin 128) (up : Option Nat) (s : State) : Out :=
  s.onDev (crBcast e.val up)

/-- PACK (R349). -/
def execCrPack (e : Fin 128) (up : Option Nat) (s : State) : Out :=
  s.onDev (crPack e.val up)

/-- UNPK (R349). -/
def execCrUnpk (e : Fin 128) (up : Option Nat) (s : State) : Out :=
  s.onDev (crUnpk e.val up)

/-- CONJ (R349). -/
def execCrConj (e : Fin 128) (up : Option Nat) (s : State) : Out :=
  s.onDev (crConj e.val up)

/-- MAXI (R353). -/
def execCrMaxi (e : Fin 128) (up : Option Nat) (s : State) : Out :=
  s.onDev (crMaxi e.val up)

/-- MINI (R353). -/
def execCrMini (e : Fin 128) (up : Option Nat) (s : State) : Out :=
  s.onDev (crMini e.val up)

/-- MAC (R351). -/
def execCrMac (e : Fin 128) (up : Option Nat) (s : State) : Out :=
  s.onDev (crMac e.val up)

/-- MACJ (R351). -/
def execCrMacj (e : Fin 128) (up : Option Nat) (s : State) : Out :=
  s.onDev (crMacj e.val up)

/-- MPY (R351). -/
def execCrMpy (e : Fin 128) (up : Option Nat) (s : State) : Out :=
  s.onDev (crMpy e.val up)

/-- MPYJ (R351). -/
def execCrMpyj (e : Fin 128) (up : Option Nat) (s : State) : Out :=
  s.onDev (crMpyj e.val up)

/-- ADDA (R352). -/
def execCrAdda (e : Fin 128) (up : Option Nat) (s : State) : Out :=
  s.onDev (crAdda e.val up)

/-- LDA (R352). -/
def execCrLda (e : Fin 128) (up : Option Nat) (s : State) : Out :=
  s.onDev (crLda e.val up)

/-- CLR (R352). -/
def execCrClr (e : Fin 128) (up : Option Nat) (s : State) : Out :=
  s.onDev (crClr e.val up)

/-- ASUM (R352). -/
def execCrAsum (e : Fin 128) (up : Option Nat) (s : State) : Out :=
  s.onDev (crAsum e.val up)

/-- ADDX (R352). -/
def execCrAddx (e : Fin 128) (up : Option Nat) (s : State) : Out :=
  s.onDev (crAddx e.val up)

/-- RND (R352). -/
def execCrRnd (e : Fin 128) (up : Option Nat) (s : State) : Out :=
  s.onDev (crRnd e.val up)

/-- EXA (R352). -/
def execCrExa (e : Fin 128) (up : Option Nat) (s : State) : Out :=
  s.onDev (crExa e.val up)

/-- BRA (R356). -/
def execCrBra (e : Fin 128) (up : Option Nat) (s : State) : Out :=
  s.onDev (crBra e.val up)

/-- CALL (R356). -/
def execCrCall (e : Fin 128) (up : Option Nat) (s : State) : Out :=
  s.onDev (crCall e.val up)

/-- RET (R356). -/
def execCrRet (e : Fin 128) (up : Option Nat) (s : State) : Out :=
  s.onDev (crRet e.val up)

/-- RTE (R356). -/
def execCrRte (e : Fin 128) (up : Option Nat) (s : State) : Out :=
  s.onDev (crRte e.val up)

/-- REP (R314). -/
def execCrRep (e : Fin 128) (up : Option Nat) (s : State) : Out :=
  s.onDev (crRep e.val up)

/-- LOOP (R359). -/
def execCrLoop (e : Fin 128) (up : Option Nat) (s : State) : Out :=
  s.onDev (crLoop e.val up)

/-- WAIT (R358). -/
def execCrWait (e : Fin 128) (up : Option Nat) (s : State) : Out :=
  s.onDev (crWait e.val up)

/-- HALT (R356). -/
def execCrHalt (e : Fin 128) (up : Option Nat) (s : State) : Out :=
  s.onDev (crHalt e.val up)

/-- LDI (R356). -/
def execCrLdi (e : Fin 128) (up : Option Nat) (s : State) : Out :=
  s.onDev (crLdi e.val up)

/-- MFS (R356). -/
def execCrMfs (e : Fin 128) (up : Option Nat) (s : State) : Out :=
  s.onDev (crMfs e.val up)

/-- MTS (R356). -/
def execCrMts (e : Fin 128) (up : Option Nat) (s : State) : Out :=
  s.onDev (crMts e.val up)

/-- LDS (R356). -/
def execCrLds (e : Fin 128) (up : Option Nat) (s : State) : Out :=
  s.onDev (crLds e.val up)

/-- STS (R356). -/
def execCrSts (e : Fin 128) (up : Option Nat) (s : State) : Out :=
  s.onDev (crSts e.val up)

/-- LDV (R356). -/
def execCrLdv (e : Fin 128) (up : Option Nat) (s : State) : Out :=
  s.onDev (crLdv e.val up)

/-- STV (R356). -/
def execCrStv (e : Fin 128) (up : Option Nat) (s : State) : Out :=
  s.onDev (crStv e.val up)

/-- LDAC (R356). -/
def execCrLdac (e : Fin 128) (up : Option Nat) (s : State) : Out :=
  s.onDev (crLdac e.val up)

/-- STAC (R356). -/
def execCrStac (e : Fin 128) (up : Option Nat) (s : State) : Out :=
  s.onDev (crStac e.val up)

/-- STI (R356). -/
def execCrSti (e : Fin 128) (up : Option Nat) (s : State) : Out :=
  s.onDev (crSti e.val up)

/-- LDRS (R356). -/
def execCrLdrs (e : Fin 128) (up : Option Nat) (s : State) : Out :=
  s.onDev (crLdrs e.val up)

/-- STRS (R356). -/
def execCrStrs (e : Fin 128) (up : Option Nat) (s : State) : Out :=
  s.onDev (crStrs e.val up)

end Sys2Proof.Machine
end

