-- ==== Sys2Proof/Machine/CmdDisplay.lean ====
section
/-! DEFINITION. The meanings of the commands of the chapter Density and Scanout. -/
namespace Sys2Proof.Machine

/-- RENDER_START (R223). -/
def execRenderStart (s : State) : Out :=
  s.onDev renderStart

/-- RENDER_DONE (R223). -/
def execRenderDone (s : State) : Out :=
  s.onSys renderDone

/-- APPLY_TIMING (R229). -/
def execApplyTiming (i : Ini) (s : State) : Out :=
  s.onDev fun d => d.onPosted i Reg.DISP_CMD applyTiming

/-- DISP_RETRAIN (R227). -/
def execDispRetrain (i : Ini) (s : State) : Out :=
  s.onDev fun d => d.onPosted i Reg.DISP_CMD dispRetrain

/-- CREMA_FLIP (R224). -/
def execCremaFlip (i : Ini) (s : State) : Out :=
  s.onDev fun d => d.onPosted i Reg.DISP_CMD cremaFlip

/-- DISP_CLEAR_COUNTS (R232). -/
def execDispClearCounts (i : Ini) (s : State) : Out :=
  s.onDev fun d => d.onPosted i Reg.DISP_CMD dispClearCounts

/-- VBLANK_START (R229). -/
def execVblankStart (s : State) : Out :=
  s.onDev vblankStart

/-- DISPLAY_FRAME_START (R230). -/
def execDisplayFrameStart (s : State) : Out :=
  s.onSys displayFrameStart

/-- DISPLAY_LINE_START (R226). -/
def execDisplayLineStart (missingFrom : Nat) (s : State) : Out :=
  s.onSys (displayLineStart missingFrom)

/-- LINK_TRAINING_END (R227). -/
def execLinkTrainingEnd (ok : Bool) (s : State) : Out :=
  s.onDev (linkTrainingEnd ok)

/-- HPD_CHANGE (R233). -/
def execHpdChange (level : Bool) (s : State) : Out :=
  s.onDev (hpdChange level)

/-- AUX_TRANSACTION (R232). -/
def execAuxTransaction (i : Ini) (data : Word) (s : State) : Out :=
  s.onDev fun d => d.onPosted i Reg.AUX_TR (auxTransaction data)

/-- AUX_REPLY (R232). -/
def execAuxReply (reply : Fin 4) (bytes : List (BitVec 8)) (s : State) : Out :=
  s.onDev (auxReply reply.val bytes)

end Sys2Proof.Machine
end

