-- ==== Sys2Proof/Machine/CmdDma.lean ====
section
/-! DEFINITION. The meanings of the commands of the chapter Data Mover. -/
namespace Sys2Proof.Machine

/-- DMA_DOORBELL (R496). -/
def execDmaDoorbell (i : Ini) (c : Fin 64) (data : Word) (s : State) : Out :=
  s.onDev fun d => d.onWrite i (Reg.DHEAD c.val) (dmaDoorbell i c.val data)

/-- DESCRIPTOR_START (R489). -/
def execDescriptorStart (c : Fin 64) (s : State) : Out :=
  s.onSys (descriptorStart c.val)

/-- DMA_ELEMENT_DONE (R486). -/
def execDmaElementDone (c : Fin 64) (s : State) : Out :=
  s.onSys fun s => settleAborts (elementDone c.val s)

/-- DESCRIPTOR_END (R490). -/
def execDescriptorEnd (c : Fin 64) (s : State) : Out :=
  s.onSys fun s => settleAborts (descriptorEnd c.val s)

/-- LEASE_EXPIRE (R495). -/
def execLeaseExpire (c : Fin 64) (s : State) : Out :=
  s.onDev (leaseExpire c.val)

/-- DMA_ABORT (R493). -/
def execDmaAbort (i : Ini) (c : Fin 64) (s : State) : Out :=
  s.onSys fun s => settleAborts (Sys.onWrite i Reg.DMA_CMD (fun s => s.on (dmaAbort c.val)) s)

/-- DMA_CLEAR_COUNTS (R499). -/
def execDmaClearCounts (i : Ini) (s : State) : Out :=
  s.onDev fun d => d.onWrite i Reg.DMA_CMD dmaClear

/-- DRLEN_WRITE (R497). -/
def execDrlenWrite (i : Ini) (c : Fin 64) (data : Word) (s : State) : Out :=
  s.onDev fun d => d.onWrite i (Reg.DRLEN c.val) (drlenWrite c.val data)

/-- DRLEN_TAKE (R497). -/
def execDrlenTake (c : Fin 64) (s : State) : Out :=
  s.onDev (drlenTake c.val)

/-- DRLEN_FORCE_FIRE (R498). -/
def execDrlenForceFire (i : Ini) (data : Word) (s : State) : Out :=
  s.onSys (busWrite i (regBase + Reg.DRLEN_FORCE_FIRE) 4 data.toNat)

/-- DCPL_TAIL_WRITE (R490). -/
def execDcplTailWrite (i : Ini) (c : Fin 64) (data : Word) (s : State) : Out :=
  s.onSys (Sys.onWrite i (Reg.DCPL_TAIL c.val) (dcplTail c.val data))

end Sys2Proof.Machine
end

