-- ==== Sys2Proof/Machine/CmdEdge.lean ====
section
/-! DEFINITION. The meanings of the commands of the chapter Edge Inputs and Stamps. -/
namespace Sys2Proof.Machine

/-- EDGE_CROSSING (R250). -/
def execEdgeCrossing (n : Fin 16) (rising : Bool) (fine : Nat) (s : State) : Out :=
  s.onDev (edgeCrossing n.val rising fine)

/-- STAMP_RESUME (R247). -/
def execStampResume (n : Fin 16) (s : State) : Out :=
  s.onDev (stampResume n.val)

/-- STAMP_BLOCK_AGE (R264). -/
def execStampBlockAge (n : Fin 16) (s : State) : Out :=
  s.onDev (stampBlockAge n.val)

/-- PWR_READY (R241). -/
def execPwrReady (n : Fin 16) (s : State) : Out :=
  s.onDev (pwrReady n.val)

/-- EDGE_ENABLE (R241). -/
def execEdgeEnable (n : Fin 16) (level : Bool) (s : State) : Out :=
  s.onDev (edgeEnable n.val level)

/-- INIT_WINDOW_END (R241). -/
def execInitWindowEnd (n : Fin 16) (near : Bool) (s : State) : Out :=
  s.onDev (initWindowEnd n.val near)

/-- THRESHOLD_SETTLED (R239). -/
def execThresholdSettled (n : Fin 16) (s : State) : Out :=
  s.onDev (thresholdSettled n.val)

/-- RAMP_START (R243). -/
def execRampStart (n : Fin 16) (s : State) : Out :=
  s.onDev (rampStart n.val)

/-- RAMP_END (R243). -/
def execRampEnd (n : Fin 16) (s : State) : Out :=
  s.onDev (rampEnd n.val)

/-- INTERPOLATOR_FAULT (R248). -/
def execInterpolatorFault (n : Fin 16) (ip : Fin 2) (s : State) : Out :=
  s.onDev (interpolatorFault n.val ip.val)

/-- INTERPOLATOR_TAKEOVER (R248). -/
def execInterpolatorTakeover (n : Fin 16) (s : State) : Out :=
  s.onDev (interpolatorTakeover n.val)

/-- EI_COMMIT (R265). -/
def execEiCommit (i : Ini) (s : State) : Out :=
  s.onDev fun d => d.onWrite i Reg.EI_CMD eiCommit

/-- EI_CANCEL_COMMIT (R265). -/
def execEiCancelCommit (i : Ini) (s : State) : Out :=
  s.onDev fun d => d.onWrite i Reg.EI_CMD eiCancel

/-- EI_COMMIT_TAKE (R265). -/
def execEiCommitTake (s : State) : Out :=
  s.onDev eiCommitTake

/-- EI_CAL (R257). -/
def execEiCal (i : Ini) (s : State) : Out :=
  s.onDev fun d => d.onWrite i Reg.EI_CMD eiCal

/-- EI_CAL_ABORT (R258). -/
def execEiCalAbort (i : Ini) (s : State) : Out :=
  s.onDev fun d => d.onWrite i Reg.EI_CMD eiCalAbort

/-- ILV_COMMIT (R256). -/
def execIlvCommit (i : Ini) (s : State) : Out :=
  s.onDev fun d => d.onWrite i Reg.EI_CMD ilvCommit

/-- EI_CLEAR_COUNTS (R265). -/
def execEiClearCounts (i : Ini) (s : State) : Out :=
  s.onDev fun d => d.onWrite i Reg.EI_CMD eiClearCounts

/-- EI_CAL_AUTO_START (R257). -/
def execEiCalAutoStart (s : State) : Out :=
  s.onDev eiCalAuto

/-- EI_CAL_RUN_END (R254). -/
def execEiCalRunEnd (n : Fin 16) (runs : List (List (List (Nat × Nat)))) (s : State) : Out :=
  s.onDev (eiCalRunEnd n.val runs)

/-- EI_CAL_TIMEOUT (R256). -/
def execEiCalTimeout (n : Fin 16) (s : State) : Out :=
  s.onDev (eiCalTimeout n.val)

/-- INTERPOLATOR_SWAP (R255). -/
def execInterpolatorSwap (n : Fin 16) (s : State) : Out :=
  s.onDev (interpolatorSwap n.val)

/-- ILV_COMMIT_TAKE (R256). -/
def execIlvCommitTake (s : State) : Out :=
  s.onDev ilvCommitTake

/-- CAL_DATA_READ (R260). -/
def execCalDataRead (i : Ini) (s : State) : Out :=
  s.onDev fun d => d.onRead i Reg.CAL_DATA calDataRead

/-- CAL_DATA_WRITE (R260). -/
def execCalDataWrite (i : Ini) (data : Word) (s : State) : Out :=
  s.onDev fun d => d.onWrite i Reg.CAL_DATA (calDataWrite data)

/-- THR_TRIM_WRITE (R260). -/
def execThrTrimWrite (i : Ini) (n : Fin 16) (data : Word) (s : State) : Out :=
  s.onDev fun d => d.onWrite i (Reg.THR_TRIM n.val) (thrTrimWrite n.val data)

end Sys2Proof.Machine
end

