-- ==== Sys2Proof/Machine/CmdEngine.lean ====
section
/-! DEFINITION. The meanings of the commands of the chapter Analysis Engines. -/
namespace Sys2Proof.Machine

/-- EVENT_ENTRY (R316). -/
def execEventEntry (e : Fin 128) (s : State) : Out :=
  s.onDev (eventEntry e.val)

/-- WAIT_RESUME (R358). -/
def execWaitResume (e : Fin 128) (s : State) : Out :=
  s.onDev (waitResume e.val)

/-- OUT_WORD_WRITE (R322). -/
def execOutWordWrite (e : Fin 128) (data : BitVec 128) (s : State) : Out :=
  s.onDev fun d => d.outPut e.val data

/-- OUT_COMMIT (R322). -/
def execOutCommit (e : Fin 128) (s : State) : Out :=
  s.onDev fun d => d.outCommit e.val

/-- OUT_DISCARD (R322). -/
def execOutDiscard (e : Fin 128) (s : State) : Out :=
  s.onDev fun d => d.outDiscard e.val

/-- WINDOW_RELEASE (R320). -/
def execWindowRelease (e : Fin 128) (a : Fin 2) (n : Nat) (s : State) : Out :=
  s.onDev fun d => d.winRelease e.val a.val n

/-- BLOCK_MOVE_START (R325). -/
def execBlockMoveStart (e : Fin 128) (data : BitVec 128) (s : State) : Out :=
  s.onDev fun d => d.bmStart e.val data

/-- BLOCK_MOVE_DONE (R325). -/
def execBlockMoveDone (e : Fin 128) (s : State) : Out :=
  s.onSys (blockMove e.val)

/-- ENG_SIGNAL (R324). -/
def execEngSignal (e : Fin 128) (s : State) : Out :=
  s.onDev fun d => d.engSignal e.val

/-- WINDOW_FEED (R319). -/
def execWindowFeed (c : Fin 8) (w : Fin 32) (s : State) : Out :=
  s.onSys (windowFeed c.val w.val)

/-- ENG_HALT_CMD (R334). -/
def execEngHaltCmd (i : Ini) (c : Fin 8) (e : Fin 16) (s : State) : Out :=
  s.onDev fun d => d.onWrite i (Reg.CL_CMD c.val) (engHalt c.val e.val)

/-- ENG_RESUME_CMD (R334). -/
def execEngResumeCmd (i : Ini) (c : Fin 8) (e : Fin 16) (s : State) : Out :=
  s.onDev fun d => d.onWrite i (Reg.CL_CMD c.val) (engResume c.val e.val)

/-- ENG_RESTART_CMD (R329). -/
def execEngRestartCmd (i : Ini) (c : Fin 8) (e : Fin 16) (s : State) : Out :=
  s.onDev fun d => d.onWrite i (Reg.CL_CMD c.val) (engRestart c.val e.val)

/-- CL_CLEAR_COUNTS (R334). -/
def execClClearCounts (i : Ini) (c : Fin 8) (e : Fin 16) (s : State) : Out :=
  s.onDev fun d => d.onWrite i (Reg.CL_CMD c.val) (clClear c.val e.val)

/-- CLUSTER_SWITCH (R328). -/
def execClusterSwitch (c : Fin 8) (s : State) : Out :=
  s.onDev (clusterSwitch c.val)

/-- ENGINE_RELEASE (R328). -/
def execEngineRelease (c : Fin 8) (s : State) : Out :=
  s.onDev (engineRelease c.val)

/-- ENG_HW_FAULT (R329). -/
def execEngHwFault (c : Fin 8) (phys : Fin 17) (s : State) : Out :=
  s.onDev (engHwFault c.val phys.val)

/-- ENG_TEST_START (R330). -/
def execEngTestStart (e : Fin 128) (s : State) : Out :=
  s.onDev (engTestStart e.val)

/-- ENG_TEST_END (R331). -/
def execEngTestEnd (e : Fin 128) (pass : Bool) (s : State) : Out :=
  s.onDev (engTestEnd e.val pass)

/-- MIGRATION_DONE (R331). -/
def execMigrationDone (c : Fin 8) (s : State) : Out :=
  s.onDev (migrationDone c.val)

end Sys2Proof.Machine
end

