-- ==== Sys2Proof/Machine/CmdEvents.lean ====
section
/-! DEFINITION. The meanings of the commands of the chapter Events, Sump and Ordering. -/
namespace Sys2Proof.Machine

/-- SOFTWARE_EVENT_RAISE (R504). -/
def execSoftwareEventRaise (i : Ini) (data : Word) (s : State) : Out :=
  s.onDev fun d => d.onWrite i Reg.EV_RAISE (evRaise i data)

/-- EVENT_DELIVERY (R505). -/
def execEventDelivery (n : Fin 1536) (s : State) : Out :=
  s.onDev (eventDelivery n.val)

/-- ENGINE_EVENT_DELIVERY (R509). -/
def execEngineEventDelivery (n : Fin 1536) (s : State) : Out :=
  s.onDev (engineDelivery n.val)

/-- CLAIM (R506). -/
def execClaim (i : Ini) (k : Fin 16) (s : State) : Out :=
  s.onDev fun d => d.onRead i (Reg.CLAIM k.val) (claim k.val)

/-- CLEAR_PENDING (R507). -/
def execClearPending (i : Ini) (n : Nat) (s : State) : Out :=
  s.onDev fun d => d.onWrite i Reg.EVC_CMD (clearPending n)

/-- EV_CFG_WRITE (R507). -/
def execEvCfgWrite (i : Ini) (n : Fin 1536) (data : Word) (s : State) : Out :=
  s.onDev fun d => d.onWrite i (Reg.EV_CFG n.val) (evCfgWrite n.val data)

/-- SUMP_REPORT (R510). -/
def execSumpReport (s : State) : Out :=
  s.onDev sumpReport

/-- SUMP_ACK (R515). -/
def execSumpAck (i : Ini) (slot : Fin 64) (s : State) : Out :=
  s.onDev fun d => d.onWrite i Reg.SUMP_CMD (sumpAck slot.val)

/-- SUMP_CLEAR_COUNTS (R522). -/
def execSumpClearCounts (i : Ini) (s : State) : Out :=
  s.onDev fun d => d.onWrite i Reg.SUMP_CMD sumpClear

end Sys2Proof.Machine
end

