-- ==== Sys2Proof/Machine/CmdFabric.lean ====
section
/-! DEFINITION. The meanings of the commands of the chapter Triggers and Blanking. -/
namespace Sys2Proof.Machine

/-- FABRIC_PULSE_ARRIVAL (R175). -/
def execFabricPulseArrival (codes : List Nat) (s : State) : Out :=
  s.onDev (pulsesArrive codes)

/-- QS_WINDOW_EXPIRE (R185). -/
def execQsWindowExpire (q : Fin 8) (s : State) : Out :=
  s.onDev (qsWindowExpire q.val)

/-- QS_HOLDOFF_END (R185). -/
def execQsHoldoffEnd (q : Fin 8) (s : State) : Out :=
  s.onDev (qsHoldoffEnd q.val)

/-- TRIG_PIN_RELEASE (R187). -/
def execTrigPinRelease (t : Fin 8) (s : State) : Out :=
  s.onDev (trigPinRelease t.val)

/-- BLANK_RELEASE (R188). -/
def execBlankRelease (k : Fin 4) (s : State) : Out :=
  s.onDev (blankRelease k.val)

/-- TIMER_PULSE (R183). -/
def execTimerPulse (m : Fin 8) (s : State) : Out :=
  s.onDev (timerPulse m.val)

/-- SW_TRIG (R183). -/
def execSwTrig (i : Ini) (s : State) : Out :=
  s.onDev fun d => d.onWrite i Reg.FAB_CMD swTrig

/-- FAB_COMMIT (R198). -/
def execFabCommit (i : Ini) (s : State) : Out :=
  s.onDev fun d => d.onWrite i Reg.FAB_CMD fabCommit

/-- FAB_CANCEL_COMMIT (R198). -/
def execFabCancelCommit (i : Ini) (s : State) : Out :=
  s.onDev fun d => d.onWrite i Reg.FAB_CMD fabCancel

/-- FAB_COMMIT_TAKE (R198). -/
def execFabCommitTake (s : State) : Out :=
  s.onDev fabCommitTake

/-- XT_FRAME_START (R192). -/
def execXtFrameStart (k : Fin 4) (s : State) : Out :=
  s.onDev (xtFrameStart k.val)

/-- XT_FRAME_END (R194). -/
def execXtFrameEnd (k : Fin 4) (mismatch : Bool) (s : State) : Out :=
  s.onDev (xtFrameEnd k.val mismatch)

/-- XT_LOCAL_PULSE (R193). -/
def execXtLocalPulse (k : Fin 4) (s : State) : Out :=
  s.onDev (xtLocalPulse k.val)

/-- XT_FRAME_RECEIVE (R193). -/
def execXtFrameReceive (k : Fin 4) (dev : BitVec 4) (code : BitVec 3) (parity : Bool) (s : State) : Out :=
  s.onDev (xtFrameReceive k.val dev.toNat code.toNat parity)

/-- XT_RX_PULSE (R193). -/
def execXtRxPulse (k : Fin 4) (s : State) : Out :=
  s.onDev (xtRxPulse k.val)

end Sys2Proof.Machine
end

