-- ==== Sys2Proof/Machine/CmdFloor.lean ====
section
/-! DEFINITION. The meanings of the commands of the chapter Floor, Ageing and Seep. -/
namespace Sys2Proof.Machine

/-- MEASUREMENT_WINDOW_END (R409). -/
def execMeasurementWindowEnd (counts : List Nat) (s : State) : Out :=
  s.onDev (measurementWindow counts)

/-- PLAN_START (R413). -/
def execPlanStart (s : State) : Out :=
  s.onDev planStart

/-- PLAN_MEASUREMENT_END (R412). -/
def execPlanMeasurementEnd (counts : List Nat) (s : State) : Out :=
  s.onDev (planMeasurementEnd counts)

/-- PLAN_SETTLE_END (R412). -/
def execPlanSettleEnd (s : State) : Out :=
  s.onDev planSettleEnd

/-- PLAN_TIMEOUT (R412). -/
def execPlanTimeout (s : State) : Out :=
  s.onDev planTimeout

/-- PLAN_RETRY (R413). -/
def execPlanRetry (s : State) : Out :=
  s.onDev planRetry

/-- VOLTAGE_STEP (R410). -/
def execVoltageStep (ack fault : Bool) (readback : Nat) (s : State) : Out :=
  s.onDev (voltageStep ack fault readback)

/-- REGULATOR_POLL (R415). -/
def execRegulatorPoll (ack fault : Bool) (readback : Nat) (s : State) : Out :=
  s.onDev (regulatorPoll ack fault readback)

/-- REGULATOR_RETRY (R415). -/
def execRegulatorRetry (ack : Bool) (readback : Nat) (s : State) : Out :=
  s.onDev (regulatorRetry ack readback)

/-- REPLAN (R413). -/
def execReplan (i : Ini) (s : State) : Out :=
  s.onDev fun d => d.onWrite i Reg.FL_CMD replan

/-- FL_CLEAR_COUNTS (R432). -/
def execFlClearCounts (i : Ini) (s : State) : Out :=
  s.onDev fun d => d.onWrite i Reg.FL_CMD flClear

/-- VDD_OVERRIDE_FIRE (R416). -/
def execVddOverrideFire (i : Ini) (data : Word) (s : State) : Out :=
  s.onDev fun d => d.onFire i Reg.VDD_OVR_FIRE data (vddOverride i)

/-- DERATE_OVERRIDE_FIRE (R422). -/
def execDerateOverrideFire (i : Ini) (data : Word) (s : State) : Out :=
  s.onDev fun d => d.onFire i Reg.DERATE_OVR_FIRE data (derateOverride i)

/-- AGEING_MEASURE_START (R417). -/
def execAgeingMeasureStart (s : State) : Out :=
  s.onDev ageingStart

/-- AGEING_MEASURE_END (R417). -/
def execAgeingMeasureEnd (pairs : List (Nat × Nat)) (s : State) : Out :=
  s.onDev (ageingEnd pairs)

/-- SHED_DWELL_END (R419). -/
def execShedDwellEnd (s : State) : Out :=
  s.onDev shedDwellEnd

/-- SHED_PRI_WRITE (R419). -/
def execShedPriWrite (i : Ini) (j : Fin 6) (data : Word) (s : State) : Out :=
  s.onSys (busWrite i (regBase + Reg.SHED_PRI j.val) 4 data.toNat)

/-- STREAM_SHED (R419). -/
def execStreamShed (st : Fin 48) (s : State) : Out :=
  s.onDev (streamShed st.val)

/-- SHED_GAP (R419). -/
def execShedGap (st : Fin 48) (s : State) : Out :=
  s.onDev (shedGapRow st.val)

/-- LOG_APPEND_DONE (R427). -/
def execLogAppendDone (readbackOk : Bool) (s : State) : Out :=
  s.onDev (logAppendDone readbackOk)

/-- CAL_SUMMARY (R426). -/
def execCalSummary (s : State) : Out :=
  s.onDev calSummary

/-- SCRUB_READ (R430). -/
def execScrubRead (ce ue : Bool) (s : State) : Out :=
  s.onDev (scrubRead ce ue)

/-- SCRUB_PASS_END (R430). -/
def execScrubPassEnd (s : State) : Out :=
  s.onDev scrubPassEnd

/-- SCRUB_LATE (R430). -/
def execScrubLate (s : State) : Out :=
  s.onDev scrubLate

/-- MARCH_TEST_START (R429). -/
def execMarchTestStart (g : Fin 4) (bank : Fin 2) (s : State) : Out :=
  s.onDev (marchStart g.val bank.val)

/-- MARCH_TEST_END (R430). -/
def execMarchTestEnd (g : Fin 4) (bank : Fin 2) (pass : Bool) (s : State) : Out :=
  s.onDev (marchEnd g.val bank.val pass)

end Sys2Proof.Machine
end

