-- ==== Sys2Proof/Machine/CmdLanes.lean ====
section
/-! DEFINITION. The meanings of the commands of the chapter Transform Lanes and Spectral Detectors. -/
namespace Sys2Proof.Machine

/-- LANE_SWITCH_BOUNDARY (R108). -/
def execLaneSwitchBoundary (l : Fin 48) (s : State) : Out :=
  s.onDev fun d => (laneSwitchBoundary l.val d).renderCheck

/-- FRAME_COMPUTE (R115). -/
def execFrameCompute (l : Fin 48) (mismatch : Bool) (s : State) : Out :=
  s.onDev fun d => (frameCompute l.val mismatch d).renderCheck

/-- LANE_OVERRUN_RESUME (R126). -/
def execLaneOverrunResume (l : Fin 48) (s : State) : Out :=
  s.onDev (laneOverrunResume l.val)

/-- ROTATION_START (R130). -/
def execRotationStart (g : Fin 4) (s : State) : Out :=
  s.onDev (rotationStart g.val)

/-- ROTATION_HANDOVER (R130). -/
def execRotationHandover (g : Fin 4) (s : State) : Out :=
  s.onDev (rotationHandover g.val)

/-- SPARE_FAULT (R131). -/
def execSpareFault (g : Fin 4) (s : State) : Out :=
  s.onDev (spareFault g.val)

/-- LANE_FAULT (R132). -/
def execLaneFault (phys : Fin 52) (s : State) : Out :=
  s.onDev (laneFault phys.val)

/-- LANE_TAKEOVER (R132). -/
def execLaneTakeover (g : Fin 4) (s : State) : Out :=
  s.onDev (laneTakeover g.val)

/-- NO_LANE_GAP (R133). -/
def execNoLaneGap (l : Fin 48) (s : State) : Out :=
  s.onDev (noLaneGap l.val)

/-- SPARE_KAT_START (R429). -/
def execSpareKatStart (g : Fin 4) (s : State) : Out :=
  s.onDev (spareKatStart g.val)

/-- SPARE_KAT_END (R429). -/
def execSpareKatEnd (g : Fin 4) (pass : Bool) (s : State) : Out :=
  s.onDev (spareKatEnd g.val pass)

/-- DET_PARITY (R167). -/
def execDetParity (l : Fin 48) (s : State) : Out :=
  s.onDev (detParity l.val)

/-- DENS_PARITY (R211). -/
def execDensParity (l : Fin 48) (s : State) : Out :=
  s.onDev (densParity l.val)

/-- FLAT_VERIFY (R168). -/
def execFlatVerify (i : Ini) (g : Fin 4) (s : State) : Out :=
  s.onDev fun d => d.onWrite i (Reg.DET_CMD g.val) (flatVerify g.val)

/-- DET_CLEAR_COUNTS (R171). -/
def execDetClearCounts (i : Ini) (g : Fin 4) (s : State) : Out :=
  s.onDev fun d => d.onWrite i (Reg.DET_CMD g.val) (detClearCounts g.val)

/-- FLAT_VERIFY_AUTO_START (R168). -/
def execFlatVerifyAutoStart (g : Fin 4) (s : State) : Out :=
  s.onDev (flatAutoStart g.val)

/-- FLAT_VERIFY_END (R168). -/
def execFlatVerifyEnd (g : Fin 4) (form : Bool) (dec resid : Nat) (s : State) : Out :=
  s.onDev (flatVerifyEnd g.val form dec resid)

end Sys2Proof.Machine
end

