-- ==== Sys2Proof/Machine/CmdMemory.lean ====
section
/-! DEFINITION. The meanings of the commands of the chapter Memory and Capture. -/
namespace Sys2Proof.Machine

/-- MEM_REQUEST_ACCEPT (R441). -/
def execMemRequestAccept (port : Fin 24) (i : Ini) (write : Bool) (addr size : Nat) (data : List (BitVec 8)) (s : State) : Out :=
  s.onDev (requestAccept port.val i write addr size data)

/-- MEM_RESPONSE (R439). -/
def execMemResponse (port : Fin 24) (ce ue : Bool) (s : State) : Out :=
  s.onSys (memResponse port.val ce ue)

/-- AGE_PROMOTION (R443). -/
def execAgePromotion (port : Fin 24) (s : State) : Out :=
  s.onDev (agePromotion port.val)

/-- REFRESH_INTERVAL (R445). -/
def execRefreshInterval (stack : Fin 2) (s : State) : Out :=
  s.onDev (refreshInterval stack.val)

/-- BANK_REFRESH (R445). -/
def execBankRefresh (pc : Fin 64) (idle : Bool) (s : State) : Out :=
  s.onDev (bankRefresh pc.val idle)

/-- HBM_TEMP_REPORT (R446). -/
def execHbmTempReport (stack : Fin 2) (temp : Nat) (s : State) : Out :=
  s.onDev (hbmTemp stack.val temp)

/-- REGION_RECORD_WRITE (R451). -/
def execRegionRecordWrite (r : Fin 259) (s : State) : Out :=
  s.onSys (writeRecord r.val)

/-- RGN_CP_WRITE (R452). -/
def execRgnCpWrite (i : Ini) (data : Word) (s : State) : Out :=
  s.onSys (busWrite i (regBase + 0x220218) 4 data.toNat)

/-- RGN_PLACE_WRITE (R452). -/
def execRgnPlaceWrite (i : Ini) (w : Fin 3) (data : Word) (s : State) : Out :=
  s.onSys (busWrite i (regBase + 0x220204 + 4 * w.val) 4 data.toNat)

/-- RLEN_WRITE (R456). -/
def execRlenWrite (i : Ini) (st : Fin 48) (data : Word) (s : State) : Out :=
  s.onDev fun d => d.onWrite i (Reg.RLEN st.val) (rlenWrite st.val data)

/-- RLEN_SHORTEN_TAKE (R456). -/
def execRlenShortenTake (st : Fin 48) (s : State) : Out :=
  s.onDev (rlenTake st.val)

/-- RLEN_FORCE_FIRE (R457). -/
def execRlenForceFire (i : Ini) (data : Word) (s : State) : Out :=
  s.onDev fun d => d.onFire i Reg.RLEN_FORCE_FIRE data rlenForce

/-- CX_START (R458). -/
def execCxStart (i : Ini) (x : Fin 16) (s : State) : Out :=
  s.onDev fun d => d.onWrite i Reg.CAP_CMD (cxStart x.val)

/-- CX_ABORT (R460). -/
def execCxAbort (i : Ini) (x : Fin 16) (s : State) : Out :=
  s.onDev fun d => d.onWrite i Reg.CAP_CMD (cxAbort x.val)

/-- CAP_CLEAR_COUNTS (R462). -/
def execCapClearCounts (i : Ini) (x : Fin 16) (s : State) : Out :=
  s.onDev fun d => d.onWrite i Reg.CAP_CMD (capClear x.val)

/-- CAPTURE_RECORD_WRITE (R459). -/
def execCaptureRecordWrite (x : Fin 16) (s : State) : Out :=
  s.onSys (captureRecord x.val)

/-- MC_CLEAR_COUNTS (R461). -/
def execMcClearCounts (i : Ini) (s : State) : Out :=
  s.onDev fun d => d.onWrite i Reg.MC_CMD mcClear

end Sys2Proof.Machine
end

