-- ==== Sys2Proof/Machine/CmdPorts.lean ====
section
/-! DEFINITION. The meanings of the commands of the chapter Sample Ports. -/
namespace Sys2Proof.Machine

/-- CDR_LOCK (R69). -/
def execCdrLock (p : Fin 6) (num den : Nat) (s : State) : Out :=
  s.onDev (cdrLock p.val num den)

/-- SYNC_HEADER_LOCK (R69). -/
def execSyncHeaderLock (p : Fin 6) (lane : Fin 24) (coding : Fin 3) (s : State) : Out :=
  s.onDev (syncHeaderLock p.val lane.val coding.val)

/-- EMB_LOCK (R82). -/
def execEmbLock (p : Fin 6) (fecSeen : Bool) (s : State) : Out :=
  s.onDev (embLock p.val fecSeen)

/-- LINK_UP (R82). -/
def execLinkUp (p : Fin 6) (s : State) : Out :=
  s.onDev (linkUp p.val)

/-- OUTAGE_SPLIT (R95). -/
def execOutageSplit (st : Fin 48) (s : State) : Out :=
  s.onDev (outageGap st.val)

/-- EXT_MULTIBLOCK_RELEASE (R83). -/
def execExtMultiblockRelease (p : Fin 6) (octets : List (List Nat)) (arrive : List Nat) (crcBad : List (Nat × Nat)) (s : State) : Out :=
  s.onSys (releaseAll p.val octets arrive crcBad)

/-- SH_LOCK_LOST (R93). -/
def execShLockLost (p : Fin 6) (lane : Fin 24) (s : State) : Out :=
  s.onDev (laneLinkFault p.val 0x10 lane.val)

/-- EMB_LOCK_LOST (R93). -/
def execEmbLockLost (p : Fin 6) (lane : Fin 24) (s : State) : Out :=
  s.onDev (laneLinkFault p.val 0x11 lane.val)

/-- ALIGN_SHIFT (R93). -/
def execAlignShift (p : Fin 6) (lane : Fin 24) (s : State) : Out :=
  s.onDev (laneLinkFault p.val 0x14 lane.val)

/-- LINK_RESTART_CMD (R93). -/
def execLinkRestartCmd (i : Ini) (p : Fin 6) (s : State) : Out :=
  s.onDev fun d => d.onPosted i (Reg.PORT_CMD p.val) (linkRestart p.val)

/-- PORT_EQ_CAL (R91). -/
def execPortEqCal (i : Ini) (p : Fin 6) (s : State) : Out :=
  s.onDev fun d => d.onPosted i (Reg.PORT_CMD p.val) fun d => d.eqCal p.val

/-- PORT_CLEAR_COUNTS (R98). -/
def execPortClearCounts (i : Ini) (p : Fin 6) (s : State) : Out :=
  s.onDev fun d => d.onPosted i (Reg.PORT_CMD p.val) (portClearCounts p.val)

/-- EQ_CAL_AUTO_START (R91). -/
def execEqCalAutoStart (p : Fin 6) (s : State) : Out :=
  s.onDev (eqCalAuto p.val)

/-- EQ_CAL_DEFERRED_RUN (R92). -/
def execEqCalDeferredRun (p : Fin 6) (s : State) : Out :=
  s.onDev (eqDeferredRun p.val)

/-- EQ_ADAPT_END (R91). -/
def execEqAdaptEnd (p : Fin 6) (eyes : List Nat) (s : State) : Out :=
  s.onDev (eqAdaptEnd p.val eyes)

/-- EQ_SWAP (R91). -/
def execEqSwap (p : Fin 6) (s : State) : Out :=
  s.onDev (eqSwap p.val)

/-- EQ_REVERT (R92). -/
def execEqRevert (p : Fin 6) (lane : Fin 24) (s : State) : Out :=
  s.onDev (eqRevert p.val lane.val)

/-- LANE_EQ_WRITE (R98). -/
def execLaneEqWrite (i : Ini) (p : Fin 6) (lane : Fin 24) (data : Word) (s : State) : Out :=
  s.onDev fun d => d.onPosted i (Reg.LANE_EQ p.val lane.val) (laneEqWrite p.val lane.val data)

/-- LANE_EQ_APPLY (R98). -/
def execLaneEqApply (p : Fin 6) (lane : Fin 24) (s : State) : Out :=
  s.onDev (laneEqApply p.val lane.val)

/-- PORT_SWITCH_BOUNDARY (R374). -/
def execPortSwitchBoundary (p : Fin 6) (s : State) : Out :=
  s.onSys (switchPort p.val)

end Sys2Proof.Machine
end

