-- ==== Sys2Proof/Machine/CmdPower.lean ====
section
/-! DEFINITION. The meanings of the commands of the chapter Power, Reset and Boot. -/
namespace Sys2Proof.Machine

/-- PD_DOWN_REQUEST (R569). -/
def execPdDownRequest (i : Ini) (m : Fin 32) (s : State) : Out :=
  s.onSys (Sys.onWrite i Reg.PD_REQ (pdDown m.val))

/-- PD_UP_REQUEST (R571). -/
def execPdUpRequest (i : Ini) (m : Fin 32) (s : State) : Out :=
  s.onDev fun d => d.onWrite i Reg.PD_REQ (pdUp m.val)

/-- POWER_DOWN_DONE (R570). -/
def execPowerDownDone (m : Fin 32) (s : State) : Out :=
  s.onDev (powerDownDone m.val)

/-- POWER_UP_DONE (R571). -/
def execPowerUpDone (m : Fin 32) (s : State) : Out :=
  s.onSys (powerUpDone m.val)

/-- SUPPLY_RESET (R572). -/
def execSupplyReset (s : State) : Out :=
  s.onSys supplyReset

/-- POR_N_ASSERT (R572). -/
def execPorNAssert (s : State) : Out :=
  s.onSys porAssert

/-- WARM_N_ASSERT (R572). -/
def execWarmNAssert (s : State) : Out :=
  s.onSys warmAssert

/-- THERMAL_TRIP (R599). -/
def execThermalTrip (s : State) : Out :=
  s.onSys thermalTrip

/-- THERMTRIP_CLEAR (R599). -/
def execThermtripClear (s : State) : Out :=
  s.onDev thermtripClear

/-- RST_CMD_WARM (R572). -/
def execRstCmdWarm (i : Ini) (data : Word) (s : State) : Out :=
  s.onSys (busWrite i (regBase + Reg.RST_CMD_FIRE) 4 data.toNat)

/-- RST_CMD_DEVICE (R572). -/
def execRstCmdDevice (i : Ini) (data : Word) (s : State) : Out :=
  s.onSys (busWrite i (regBase + Reg.RST_CMD_FIRE) 4 data.toNat)

/-- RESET_VOLTAGE_READY (R574). -/
def execResetVoltageReady (vdd readback : Nat) (s : State) : Out :=
  s.onDev (resetVoltageReady vdd readback)

/-- RESET_VOLTAGE_RETRY (R574). -/
def execResetVoltageRetry (s : State) : Out :=
  s.onDev resetVoltageRetry

/-- OTP_SENSE_END (R574). -/
def execOtpSenseEnd (s : State) : Out :=
  s.onDev otpSenseEnd

/-- BOOT_ROM_START (R579). -/
def execBootRomStart (trained : Bool) (failedLanes failedEngines failedBanks : List Nat) (s : State) : Out :=
  s.onSys (bootRomStart trained failedLanes failedEngines failedBanks)

/-- WDOG_CFG_WRITE (R575). -/
def execWdogCfgWrite (i : Ini) (data : Word) (s : State) : Out :=
  s.onDev fun d => d.onWrite i Reg.WDOG_CFG (wdogCfg i data)

/-- WDOG_KICK (R575). -/
def execWdogKick (i : Ini) (data : Word) (s : State) : Out :=
  s.onDev fun d => d.onWrite i Reg.WDOG_KICK (wdogKick data)

/-- WATCHDOG_EXPIRE (R575). -/
def execWatchdogExpire (s : State) : Out :=
  s.onSys watchdogExpire

/-- CORE_EN_WRITE (R582). -/
def execCoreEnWrite (i : Ini) (data : Word) (s : State) : Out :=
  s.onSys (busWrite i (regBase + Reg.CORE_EN) 4 data.toNat)

/-- TEST_LOGIC_RESET (R580). -/
def execTestLogicReset (s : State) : Out :=
  s.onDev testLogicReset

/-- BYPASS (R580). -/
def execBypass (opcode : BitVec 6) (s : State) : Out :=
  s.onDev fun d => d.tapSelect opcode.toNat 0

/-- IDCODE (R580). -/
def execIdcode (s : State) : Out :=
  s.onDev fun d => d.tapSelect 0x01 0x26148969

/-- SAMPLE_PRELOAD (R580). -/
def execSamplePreload (s : State) : Out :=
  s.onDev fun d => d.tapSelect 0x02 0

/-- EXTEST (R580). -/
def execExtest (s : State) : Out :=
  s.onSys (tapPins 0x03)

/-- EXTEST_PULSE (R580). -/
def execExtestPulse (s : State) : Out :=
  s.onSys (tapPins 0x04)

/-- EXTEST_TRAIN (R580). -/
def execExtestTrain (s : State) : Out :=
  s.onSys (tapPins 0x05)

/-- CLAMP (R580). -/
def execClamp (s : State) : Out :=
  s.onSys (tapPins 0x06)

/-- HIGHZ (R580). -/
def execHighz (s : State) : Out :=
  s.onSys (tapPins 0x07)

/-- REG_ACCESS (R580). -/
def execRegAccess (write : Bool) (addr : Nat) (data : Word) (s : State) : Out :=
  s.onSys (tapAccess write addr data)

/-- POR_N_RELEASE (R567). -/
def execPorNRelease (s : State) : Out :=
  s.onDev porRelease

/-- CL_SPARE_FAIL (R430). -/
def execClSpareFail (c : Fin 8) (s : State) : Out :=
  s.onDev (clSpareFail c.val)

/-- XSPI_CMD (R424). -/
def execXspiCmd (i : Ini) (data : Word) (s : State) : Out :=
  s.onDev fun d => d.onWrite i Reg.XSPI_CMD (xspiCmd i data)

end Sys2Proof.Machine
end

