-- ==== Sys2Proof/Machine/CmdRegs.lean ====
section
/-! DEFINITION. The meanings of the commands of the chapter Registers and Access Windows. -/
namespace Sys2Proof.Machine

/-- REGISTER_WRITE (R528). -/
def execRegisterWrite (i : Ini) (addr size data : Nat) (s : State) : Out :=
  s.onSys fun s => settleAt addr (busWrite i addr size data s)

/-- PAIR_LOW_READ (R529). -/
def execPairLowRead (i : Ini) (addr : Nat) (s : State) : Out :=
  s.onDev (busRead i addr)

/-- PAIR_HIGH_READ (R529). -/
def execPairHighRead (i : Ini) (addr : Nat) (s : State) : Out :=
  s.onDev (busRead i addr)

/-- PAIR_LOW_WRITE (R529). -/
def execPairLowWrite (i : Ini) (addr : Nat) (data : Word) (s : State) : Out :=
  s.onSys (busWrite i addr 4 data.toNat)

/-- PAIR_HIGH_WRITE (R529). -/
def execPairHighWrite (i : Ini) (addr : Nat) (data : Word) (s : State) : Out :=
  s.onSys (busWrite i addr 4 data.toNat)

/-- SQ_CLEAR (R530). -/
def execSqClear (i : Ini) (addr : Nat) (data : Word) (s : State) : Out :=
  s.onSys (busWrite i addr 4 data.toNat)

/-- POSTED_WRITE (R531). -/
def execPostedWrite (i : Ini) (addr : Nat) (data : Word) (s : State) : Out :=
  s.onSys (busWrite i addr 4 data.toNat)

/-- POSTED_WRITE_EFFECT (R531). -/
def execPostedWriteEffect (b : PostedBlock) (parityBad : Bool) (s : State) : Out :=
  s.onDev (postedEffect (blockNum b) parityBad)

/-- NO_CLOCK_TIMEOUT (R532). -/
def execNoClockTimeout (b : PostedBlock) (s : State) : Out :=
  s.onDev (noClock (blockNum b))

/-- PW_ERR_INFO_READ (R532). -/
def execPwErrInfoRead (i : Ini) (b : PostedBlock) (s : State) : Out :=
  s.onDev fun d => busRead i (regBase + Reg.PW_ERR_INFO (blockNum b)) d

/-- GUARD_ARM (R534). -/
def execGuardArm (i : Ini) (addr : Nat) (data : Word) (s : State) : Out :=
  s.onSys (busWrite i addr 4 data.toNat)

/-- GUARD_ARM_EXPIRE (R534). -/
def execGuardArmExpire (addr : Nat) (s : State) : Out :=
  s.onDev (armExpire (addr - regBase))

end Sys2Proof.Machine
end

