-- ==== Sys2Proof/Machine/CmdStats.lean ====
section
/-! DEFINITION. The meanings of the commands of the chapter Counting and Intervals. -/
namespace Sys2Proof.Machine

/-- STAMP_PROCESS (R271). -/
def execStampProcess (u : Fin 16) (s : State) : Out :=
  s.onDev (stampProcess u.val)

/-- GATE_CLOSE (R281). -/
def execGateClose (u : Fin 16) (s : State) : Out :=
  s.onDev (gateClose u.val)

/-- BATCH_TIME_LIMIT (R283). -/
def execBatchTimeLimit (u : Fin 16) (s : State) : Out :=
  s.onDev (batchTimeLimit u.val)

/-- SU_RECORD_AGE (R289). -/
def execSuRecordAge (u : Fin 16) (s : State) : Out :=
  s.onDev (suRecordAge u.val)

/-- SU_OVERRUN_RESUME (R286). -/
def execSuOverrunResume (u : Fin 16) (s : State) : Out :=
  s.onDev (suOverrunResume u.val)

/-- SU_COMMIT (R292). -/
def execSuCommit (i : Ini) (s : State) : Out :=
  s.onDev fun d => d.onWrite i Reg.SU_CMD suCommit

/-- SU_CANCEL_COMMIT (R292). -/
def execSuCancelCommit (i : Ini) (s : State) : Out :=
  s.onDev fun d => d.onWrite i Reg.SU_CMD suCancel

/-- SU_COMMIT_TAKE (R292). -/
def execSuCommitTake (s : State) : Out :=
  s.onDev suCommitTake

/-- SU_FLUSH (R295). -/
def execSuFlush (i : Ini) (s : State) : Out :=
  s.onDev fun d => d.onWrite i Reg.SU_CMD suFlush

/-- SU_CLEAR_COUNTS (R295). -/
def execSuClearCounts (i : Ini) (s : State) : Out :=
  s.onDev fun d => d.onWrite i Reg.SU_CMD suClearCounts

end Sys2Proof.Machine
end

