-- ==== Sys2Proof/Machine/CmdStream.lean ====
section
/-! DEFINITION. The meanings of the commands of the chapter Stream-Out and Compression. -/
namespace Sys2Proof.Machine

/-- PFC_FRAME_RECEIVE (R466). -/
def execPfcFrameReceive (p : Fin 2) (fcsOk : Bool) (enables : BitVec 8) (timers : List Nat) (s : State) : Out :=
  s.onDev (pfcFrame p.val fcsOk enables.toNat timers)

/-- PFC_PAUSE_EXPIRE (R466). -/
def execPfcPauseExpire (p : Fin 2) (prio : Fin 8) (s : State) : Out :=
  s.onDev (pfcExpire p.val prio.val)

/-- RX_FRAME_DISCARD (R465). -/
def execRxFrameDiscard (p : Fin 2) (s : State) : Out :=
  s.onDev (rxDiscard p.val)

/-- FLOW_RECORD_RELEASE (R29). -/
def execFlowRecordRelease (p : Fin 2) (f : Fin 256) (s : State) : Out :=
  s.onSys (flowRelease p.val f.val)

/-- PACKET_SEND (R471). -/
def execPacketSend (p : Fin 2) (s : State) : Out :=
  s.onDev (packetSend p.val)

/-- SO_LINK_DOWN (R467). -/
def execSoLinkDown (p : Fin 2) (s : State) : Out :=
  s.onDev (soLinkDown p.val)

/-- SO_LINK_UP (R467). -/
def execSoLinkUp (p : Fin 2) (s : State) : Out :=
  s.onDev (soLinkUp p.val)

/-- SO_CLEAR_COUNTS (R481). -/
def execSoClearCounts (i : Ini) (p : Fin 2) (s : State) : Out :=
  s.onDev fun d => d.onPosted i (Reg.SO_CMD p.val) (soClear p.val)

/-- FLUSH_AGE_EXPIRE (R477). -/
def execFlushAgeExpire (ctx : Fin 20) (s : State) : Out :=
  s.onDev (flushAge ctx.val)

/-- CONTEXT_STALL_CLEAR (R478). -/
def execContextStallClear (ctx : Fin 20) (s : State) : Out :=
  s.onDev (stallClear ctx.val)

/-- K_FLUSH (R477). -/
def execKFlush (i : Ini) (ctx : Fin 16) (s : State) : Out :=
  s.onDev fun d => d.onWrite i Reg.K_CMD (ctxFlush ctx.val)

/-- K_CLEAR_COUNTS (R482). -/
def execKClearCounts (i : Ini) (ctx : Fin 16) (s : State) : Out :=
  s.onDev fun d => d.onWrite i Reg.K_CMD (ctxClear ctx.val)

/-- KP_FLUSH (R477). -/
def execKpFlush (i : Ini) (ctx : Fin 4) (s : State) : Out :=
  s.onDev fun d => d.onWrite i Reg.KP_CMD (ctxFlush (16 + ctx.val))

/-- KP_SAVE (R479). -/
def execKpSave (i : Ini) (ctx : Fin 4) (s : State) : Out :=
  s.onDev fun d => d.onWrite i Reg.KP_CMD (kpSave ctx.val)

/-- KP_RESTORE (R479). -/
def execKpRestore (i : Ini) (ctx : Fin 4) (s : State) : Out :=
  s.onDev fun d => d.onWrite i Reg.KP_CMD (kpRestore ctx.val)

/-- KP_CLEAR_COUNTS (R482). -/
def execKpClearCounts (i : Ini) (ctx : Fin 4) (s : State) : Out :=
  s.onDev fun d => d.onWrite i Reg.KP_CMD (ctxClear (16 + ctx.val))

/-- KP_TRANSFER_DONE (R479). -/
def execKpTransferDone (ctx : Fin 4) (s : State) : Out :=
  s.onSys (kpDone ctx.val)

/-- REPLAY_START (R480). -/
def execReplayStart (i : Ini) (s : State) : Out :=
  s.onDev fun d => d.onWrite i Reg.RP_CMD replayStart

/-- REPLAY_ABORT (R480). -/
def execReplayAbort (i : Ini) (s : State) : Out :=
  s.onSys (Sys.onWrite i Reg.RP_CMD replayAbort)

/-- REPLAY_CONTINUE (R480). -/
def execReplayContinue (i : Ini) (s : State) : Out :=
  s.onDev fun d => d.onWrite i Reg.RP_CMD replayContinue

/-- REPLAY_END (R480). -/
def execReplayEnd (s : State) : Out :=
  s.onSys replayEnd

end Sys2Proof.Machine
end

