-- ==== Sys2Proof/Machine/CmdTime.lean ====
section
/-! DEFINITION. The meanings of the commands of the chapter Device Time and the Reference. -/
namespace Sys2Proof.Machine

/-- TIME_NOW_READ (R50). -/
def execTimeNowRead (i : Ini) (s : State) : Out :=
  s.onDev fun d => d.onRead i (Reg.TIME_NOW 0) timeNow

/-- DLL_LOCK (R40). -/
def execDllLock (s : State) : Out :=
  s.onDev fun d => d.modFollow (dllLock d)

/-- DLL_LOCK_LOSS (R40). -/
def execDllLockLoss (s : State) : Out :=
  s.onDev fun d => d.modFollow (dllLost d)

/-- LOCK_GATE_END (R41). -/
def execLockGateEnd (count : Nat) (s : State) : Out :=
  s.onDev (lockGateEnd count)

/-- FREQ_STD_ABSENT (R41). -/
def execFreqStdAbsent (s : State) : Out :=
  s.onDev freqAbsent

/-- FREQ_STD_RETURN (R41). -/
def execFreqStdReturn (s : State) : Out :=
  s.onDev freqReturn

/-- ACTIVITY_LOCK_DECLARE (R42). -/
def execActivityLockDeclare (s : State) : Out :=
  s.onDev activityLock

/-- OCXO_WARM_CHANGE (R43). -/
def execOcxoWarmChange (level : Bool) (s : State) : Out :=
  s.onDev (warmChange level)

/-- HOLDOVER_ENTER (R44). -/
def execHoldoverEnter (s : State) : Out :=
  s.onDev fun d => d.modFollow (holdoverEnter d)

/-- HOLDOVER_EXIT (R45). -/
def execHoldoverExit (s : State) : Out :=
  s.onDev holdoverExit

/-- TOD_ARM (R51). -/
def execTodArm (i : Ini) (s : State) : Out :=
  s.onDev fun d => d.onPosted i Reg.TOD_CMD todArm

/-- TOD_CANCEL (R52). -/
def execTodCancel (i : Ini) (s : State) : Out :=
  s.onDev fun d => d.onPosted i Reg.TOD_CMD todCancel

/-- PPS_EDGE (R53). -/
def execPpsEdge (rising : Bool) (back : Nat) (s : State) : Out :=
  s.onDev fun d => d.periodFollow (ppsEdge rising back d)

/-- PPS_MISSING_EXPIRE (R53). -/
def execPpsMissingExpire (s : State) : Out :=
  s.onDev ppsMissingExpire

/-- OUTPUT_START (R56). -/
def execOutputStart (n : Fin 12) (s : State) : Out :=
  s.onDev (outputStart n.val)

/-- OUTPUT_STOP (R56). -/
def execOutputStop (n : Fin 12) (s : State) : Out :=
  s.onDev (outputStop n.val)

/-- DELAY_WALK_STEP (R56). -/
def execDelayWalkStep (n : Fin 12) (s : State) : Out :=
  s.onDev (delayWalk n.val)

/-- DIV_CHANGE_EFFECT (R56). -/
def execDivChangeEffect (n : Fin 12) (s : State) : Out :=
  s.onDev (divChange n.val)

/-- OUT_SYNC_CMD (R57). -/
def execOutSyncCmd (i : Ini) (s : State) : Out :=
  s.onDev fun d => d.onPosted i Reg.OUT_SYNC_CMD outSyncCmd

/-- OUT_SYNC_EXECUTE (R57). -/
def execOutSyncExecute (s : State) : Out :=
  s.onDev outSyncExecute

/-- SYSREF_SHOTS_DONE (R58). -/
def execSysrefShotsDone (n : Fin 12) (s : State) : Out :=
  s.onDev (sysrefDone n.val)

/-- PTP_STAMP (R61). -/
def execPtpStamp (tx : Bool) (frame : List (BitVec 8)) (back : Nat) (s : State) : Out :=
  s.onDev (ptpStamp tx frame back)

/-- PTP_TS_POP (R63). -/
def execPtpTsPop (i : Ini) (s : State) : Out :=
  s.onDev (busRead i (regBase + Reg.PTP_TS_ID))

end Sys2Proof.Machine
end

