-- ==== Sys2Proof/Machine/CmdTrust.lean ====
section
/-! DEFINITION. The meanings of the commands of the chapter Windows, Trust and Evidence. -/
namespace Sys2Proof.Machine

/-- WIN_COMMIT_FIRE (R541). -/
def execWinCommitFire (i : Ini) (data : Word) (s : State) : Out :=
  s.onDev fun d => d.onFire i Reg.WIN_COMMIT_FIRE data winCommit

/-- WINDOW_EPOCH_COMMIT (R541). -/
def execWindowEpochCommit (s : State) : Out :=
  s.onDev windowEpochCommit

/-- EPOCH_DONE (R541). -/
def execEpochDone (s : State) : Out :=
  s.onDev epochDone

/-- KEY_REVOKE_FIRE (R547). -/
def execKeyRevokeFire (i : Ini) (data : Word) (s : State) : Out :=
  s.onDev fun d => d.onFire i Reg.KEY_REVOKE_FIRE data keyRevoke

/-- RB_ADVANCE_FIRE (R548). -/
def execRbAdvanceFire (i : Ini) (data : Word) (s : State) : Out :=
  s.onDev fun d => d.onFire i Reg.RB_ADV_FIRE data rbAdvance

/-- OTP_PROGRAM_DONE (R576). -/
def execOtpProgramDone (cut : Bool) (s : State) : Out :=
  s.onDev (otpProgramDone cut)

/-- ID_KEY_GENERATE (R552). -/
def execIdKeyGenerate (i : Ini) (data : Word) (s : State) : Out :=
  s.onDev fun d => d.onFire i Reg.ID_KEY_FIRE data idKey

/-- ID_KEY_GENERATED (R552). -/
def execIdKeyGenerated (s : State) : Out :=
  s.onDev idKeyGenerated

/-- ID_KEY_RETIRE (R553). -/
def execIdKeyRetire (i : Ini) (data : Word) (s : State) : Out :=
  s.onDev fun d => d.onFire i Reg.ID_KEY_FIRE data idKey

/-- JTAG_LOCK_FIRE (R554). -/
def execJtagLockFire (i : Ini) (data : Word) (s : State) : Out :=
  s.onDev fun d => d.onFire i Reg.JTAG_LOCK_FIRE data jtagLock

/-- ATT_START (R556). -/
def execAttStart (i : Ini) (s : State) : Out :=
  s.onDev fun d => d.onWrite i Reg.ATT_CMD (attStart i)

/-- ATTESTATION_DONE (R556). -/
def execAttestationDone (s : State) : Out :=
  s.onSys attestationDone

/-- EVIDENCE_INSTANT (R558). -/
def execEvidenceInstant (s : State) : Out :=
  s.onDev evidenceInstant

/-- EVIDENCE_COMMIT (R558). -/
def execEvidenceCommit (s : State) : Out :=
  s.onDev evidenceCommit

end Sys2Proof.Machine
end

