-- ==== Sys2Proof/Machine/Dispatch.lean ====
section
/-! DEFINITION. One arm per command, each a direct call of its meaning. -/
namespace Sys2Proof.Machine

/-- The effect of a command on everything but the queue. -/
def exec (i : Instr) (s : State) : Host.Outcome State Fault Refusal :=
  match i with
  | .registerWrite who addr size data => Sys2Proof.Machine.execRegisterWrite who addr size data s
  | .pairLowRead who addr => Sys2Proof.Machine.execPairLowRead who addr s
  | .pairHighRead who addr => Sys2Proof.Machine.execPairHighRead who addr s
  | .pairLowWrite who addr data => Sys2Proof.Machine.execPairLowWrite who addr data s
  | .pairHighWrite who addr data => Sys2Proof.Machine.execPairHighWrite who addr data s
  | .sqClear who addr data => Sys2Proof.Machine.execSqClear who addr data s
  | .postedWrite who addr data => Sys2Proof.Machine.execPostedWrite who addr data s
  | .postedWriteEffect b parityBad => Sys2Proof.Machine.execPostedWriteEffect b parityBad s
  | .noClockTimeout b => Sys2Proof.Machine.execNoClockTimeout b s
  | .pwErrInfoRead who b => Sys2Proof.Machine.execPwErrInfoRead who b s
  | .guardArm who addr data => Sys2Proof.Machine.execGuardArm who addr data s
  | .guardArmExpire addr => Sys2Proof.Machine.execGuardArmExpire addr s
  | .timeNowRead who => Sys2Proof.Machine.execTimeNowRead who s
  | .dllLock => Sys2Proof.Machine.execDllLock s
  | .dllLockLoss => Sys2Proof.Machine.execDllLockLoss s
  | .lockGateEnd count => Sys2Proof.Machine.execLockGateEnd count s
  | .freqStdAbsent => Sys2Proof.Machine.execFreqStdAbsent s
  | .freqStdReturn => Sys2Proof.Machine.execFreqStdReturn s
  | .activityLockDeclare => Sys2Proof.Machine.execActivityLockDeclare s
  | .ocxoWarmChange level => Sys2Proof.Machine.execOcxoWarmChange level s
  | .holdoverEnter => Sys2Proof.Machine.execHoldoverEnter s
  | .holdoverExit => Sys2Proof.Machine.execHoldoverExit s
  | .todArm who => Sys2Proof.Machine.execTodArm who s
  | .todCancel who => Sys2Proof.Machine.execTodCancel who s
  | .ppsEdge rising back => Sys2Proof.Machine.execPpsEdge rising back s
  | .ppsMissingExpire => Sys2Proof.Machine.execPpsMissingExpire s
  | .outputStart n => Sys2Proof.Machine.execOutputStart n s
  | .outputStop n => Sys2Proof.Machine.execOutputStop n s
  | .delayWalkStep n => Sys2Proof.Machine.execDelayWalkStep n s
  | .divChangeEffect n => Sys2Proof.Machine.execDivChangeEffect n s
  | .outSyncCmd who => Sys2Proof.Machine.execOutSyncCmd who s
  | .outSyncExecute => Sys2Proof.Machine.execOutSyncExecute s
  | .sysrefShotsDone n => Sys2Proof.Machine.execSysrefShotsDone n s
  | .ptpStamp tx frame back => Sys2Proof.Machine.execPtpStamp tx frame back s
  | .ptpTsPop who => Sys2Proof.Machine.execPtpTsPop who s
  | .cdrLock p num den => Sys2Proof.Machine.execCdrLock p num den s
  | .syncHeaderLock p lane coding => Sys2Proof.Machine.execSyncHeaderLock p lane coding s
  | .embLock p fecSeen => Sys2Proof.Machine.execEmbLock p fecSeen s
  | .linkUp p => Sys2Proof.Machine.execLinkUp p s
  | .outageSplit st => Sys2Proof.Machine.execOutageSplit st s
  | .extMultiblockRelease p octets arrive crcBad => Sys2Proof.Machine.execExtMultiblockRelease p octets arrive crcBad s
  | .shLockLost p lane => Sys2Proof.Machine.execShLockLost p lane s
  | .embLockLost p lane => Sys2Proof.Machine.execEmbLockLost p lane s
  | .alignShift p lane => Sys2Proof.Machine.execAlignShift p lane s
  | .linkRestartCmd who p => Sys2Proof.Machine.execLinkRestartCmd who p s
  | .portEqCal who p => Sys2Proof.Machine.execPortEqCal who p s
  | .portClearCounts who p => Sys2Proof.Machine.execPortClearCounts who p s
  | .eqCalAutoStart p => Sys2Proof.Machine.execEqCalAutoStart p s
  | .eqCalDeferredRun p => Sys2Proof.Machine.execEqCalDeferredRun p s
  | .eqAdaptEnd p eyes => Sys2Proof.Machine.execEqAdaptEnd p eyes s
  | .eqSwap p => Sys2Proof.Machine.execEqSwap p s
  | .eqRevert p lane => Sys2Proof.Machine.execEqRevert p lane s
  | .laneEqWrite who p lane data => Sys2Proof.Machine.execLaneEqWrite who p lane data s
  | .laneEqApply p lane => Sys2Proof.Machine.execLaneEqApply p lane s
  | .portSwitchBoundary p => Sys2Proof.Machine.execPortSwitchBoundary p s
  | .laneSwitchBoundary l => Sys2Proof.Machine.execLaneSwitchBoundary l s
  | .frameCompute l mismatch => Sys2Proof.Machine.execFrameCompute l mismatch s
  | .laneOverrunResume l => Sys2Proof.Machine.execLaneOverrunResume l s
  | .rotationStart g => Sys2Proof.Machine.execRotationStart g s
  | .rotationHandover g => Sys2Proof.Machine.execRotationHandover g s
  | .spareFault g => Sys2Proof.Machine.execSpareFault g s
  | .laneFault phys => Sys2Proof.Machine.execLaneFault phys s
  | .laneTakeover g => Sys2Proof.Machine.execLaneTakeover g s
  | .noLaneGap l => Sys2Proof.Machine.execNoLaneGap l s
  | .spareKatStart g => Sys2Proof.Machine.execSpareKatStart g s
  | .spareKatEnd g pass => Sys2Proof.Machine.execSpareKatEnd g pass s
  | .detParity l => Sys2Proof.Machine.execDetParity l s
  | .densParity l => Sys2Proof.Machine.execDensParity l s
  | .flatVerify who g => Sys2Proof.Machine.execFlatVerify who g s
  | .detClearCounts who g => Sys2Proof.Machine.execDetClearCounts who g s
  | .flatVerifyAutoStart g => Sys2Proof.Machine.execFlatVerifyAutoStart g s
  | .flatVerifyEnd g form dec resid => Sys2Proof.Machine.execFlatVerifyEnd g form dec resid s
  | .fabricPulseArrival codes => Sys2Proof.Machine.execFabricPulseArrival codes s
  | .qsWindowExpire q => Sys2Proof.Machine.execQsWindowExpire q s
  | .qsHoldoffEnd q => Sys2Proof.Machine.execQsHoldoffEnd q s
  | .trigPinRelease t => Sys2Proof.Machine.execTrigPinRelease t s
  | .blankRelease k => Sys2Proof.Machine.execBlankRelease k s
  | .timerPulse m => Sys2Proof.Machine.execTimerPulse m s
  | .swTrig who => Sys2Proof.Machine.execSwTrig who s
  | .fabCommit who => Sys2Proof.Machine.execFabCommit who s
  | .fabCancelCommit who => Sys2Proof.Machine.execFabCancelCommit who s
  | .fabCommitTake => Sys2Proof.Machine.execFabCommitTake s
  | .xtFrameStart k => Sys2Proof.Machine.execXtFrameStart k s
  | .xtFrameEnd k mismatch => Sys2Proof.Machine.execXtFrameEnd k mismatch s
  | .xtLocalPulse k => Sys2Proof.Machine.execXtLocalPulse k s
  | .xtFrameReceive k dev code parity => Sys2Proof.Machine.execXtFrameReceive k dev code parity s
  | .xtRxPulse k => Sys2Proof.Machine.execXtRxPulse k s
  | .renderStart => Sys2Proof.Machine.execRenderStart s
  | .renderDone => Sys2Proof.Machine.execRenderDone s
  | .applyTiming who => Sys2Proof.Machine.execApplyTiming who s
  | .dispRetrain who => Sys2Proof.Machine.execDispRetrain who s
  | .cremaFlip who => Sys2Proof.Machine.execCremaFlip who s
  | .dispClearCounts who => Sys2Proof.Machine.execDispClearCounts who s
  | .vblankStart => Sys2Proof.Machine.execVblankStart s
  | .displayFrameStart => Sys2Proof.Machine.execDisplayFrameStart s
  | .displayLineStart missingFrom => Sys2Proof.Machine.execDisplayLineStart missingFrom s
  | .linkTrainingEnd ok => Sys2Proof.Machine.execLinkTrainingEnd ok s
  | .hpdChange level => Sys2Proof.Machine.execHpdChange level s
  | .auxTransaction who data => Sys2Proof.Machine.execAuxTransaction who data s
  | .auxReply reply bytes => Sys2Proof.Machine.execAuxReply reply bytes s
  | .edgeCrossing n rising fine => Sys2Proof.Machine.execEdgeCrossing n rising fine s
  | .stampResume n => Sys2Proof.Machine.execStampResume n s
  | .stampBlockAge n => Sys2Proof.Machine.execStampBlockAge n s
  | .pwrReady n => Sys2Proof.Machine.execPwrReady n s
  | .edgeEnable n level => Sys2Proof.Machine.execEdgeEnable n level s
  | .initWindowEnd n near => Sys2Proof.Machine.execInitWindowEnd n near s
  | .thresholdSettled n => Sys2Proof.Machine.execThresholdSettled n s
  | .rampStart n => Sys2Proof.Machine.execRampStart n s
  | .rampEnd n => Sys2Proof.Machine.execRampEnd n s
  | .interpolatorFault n ip => Sys2Proof.Machine.execInterpolatorFault n ip s
  | .interpolatorTakeover n => Sys2Proof.Machine.execInterpolatorTakeover n s
  | .eiCommit who => Sys2Proof.Machine.execEiCommit who s
  | .eiCancelCommit who => Sys2Proof.Machine.execEiCancelCommit who s
  | .eiCommitTake => Sys2Proof.Machine.execEiCommitTake s
  | .eiCal who => Sys2Proof.Machine.execEiCal who s
  | .eiCalAbort who => Sys2Proof.Machine.execEiCalAbort who s
  | .ilvCommit who => Sys2Proof.Machine.execIlvCommit who s
  | .eiClearCounts who => Sys2Proof.Machine.execEiClearCounts who s
  | .eiCalAutoStart => Sys2Proof.Machine.execEiCalAutoStart s
  | .eiCalRunEnd n runs => Sys2Proof.Machine.execEiCalRunEnd n runs s
  | .eiCalTimeout n => Sys2Proof.Machine.execEiCalTimeout n s
  | .interpolatorSwap n => Sys2Proof.Machine.execInterpolatorSwap n s
  | .ilvCommitTake => Sys2Proof.Machine.execIlvCommitTake s
  | .calDataRead who => Sys2Proof.Machine.execCalDataRead who s
  | .calDataWrite who data => Sys2Proof.Machine.execCalDataWrite who data s
  | .thrTrimWrite who n data => Sys2Proof.Machine.execThrTrimWrite who n data s
  | .stampProcess u => Sys2Proof.Machine.execStampProcess u s
  | .gateClose u => Sys2Proof.Machine.execGateClose u s
  | .batchTimeLimit u => Sys2Proof.Machine.execBatchTimeLimit u s
  | .suRecordAge u => Sys2Proof.Machine.execSuRecordAge u s
  | .suOverrunResume u => Sys2Proof.Machine.execSuOverrunResume u s
  | .suCommit who => Sys2Proof.Machine.execSuCommit who s
  | .suCancelCommit who => Sys2Proof.Machine.execSuCancelCommit who s
  | .suCommitTake => Sys2Proof.Machine.execSuCommitTake s
  | .suFlush who => Sys2Proof.Machine.execSuFlush who s
  | .suClearCounts who => Sys2Proof.Machine.execSuClearCounts who s
  | .crNop e up => Sys2Proof.Machine.execCrNop e up s
  | .crMov e up => Sys2Proof.Machine.execCrMov e up s
  | .crAdd e up => Sys2Proof.Machine.execCrAdd e up s
  | .crSub e up => Sys2Proof.Machine.execCrSub e up s
  | .crAdds e up => Sys2Proof.Machine.execCrAdds e up s
  | .crSubs e up => Sys2Proof.Machine.execCrSubs e up s
  | .crAbs e up => Sys2Proof.Machine.execCrAbs e up s
  | .crMin e up => Sys2Proof.Machine.execCrMin e up s
  | .crMax e up => Sys2Proof.Machine.execCrMax e up s
  | .crAnd e up => Sys2Proof.Machine.execCrAnd e up s
  | .crOr e up => Sys2Proof.Machine.execCrOr e up s
  | .crXor e up => Sys2Proof.Machine.execCrXor e up s
  | .crShl e up => Sys2Proof.Machine.execCrShl e up s
  | .crShr e up => Sys2Proof.Machine.execCrShr e up s
  | .crMul e up => Sys2Proof.Machine.execCrMul e up s
  | .crCmp e up => Sys2Proof.Machine.execCrCmp e up s
  | .crBcast e up => Sys2Proof.Machine.execCrBcast e up s
  | .crPack e up => Sys2Proof.Machine.execCrPack e up s
  | .crUnpk e up => Sys2Proof.Machine.execCrUnpk e up s
  | .crConj e up => Sys2Proof.Machine.execCrConj e up s
  | .crMaxi e up => Sys2Proof.Machine.execCrMaxi e up s
  | .crMini e up => Sys2Proof.Machine.execCrMini e up s
  | .crMac e up => Sys2Proof.Machine.execCrMac e up s
  | .crMacj e up => Sys2Proof.Machine.execCrMacj e up s
  | .crMpy e up => Sys2Proof.Machine.execCrMpy e up s
  | .crMpyj e up => Sys2Proof.Machine.execCrMpyj e up s
  | .crAdda e up => Sys2Proof.Machine.execCrAdda e up s
  | .crLda e up => Sys2Proof.Machine.execCrLda e up s
  | .crClr e up => Sys2Proof.Machine.execCrClr e up s
  | .crAsum e up => Sys2Proof.Machine.execCrAsum e up s
  | .crAddx e up => Sys2Proof.Machine.execCrAddx e up s
  | .crRnd e up => Sys2Proof.Machine.execCrRnd e up s
  | .crExa e up => Sys2Proof.Machine.execCrExa e up s
  | .crBra e up => Sys2Proof.Machine.execCrBra e up s
  | .crCall e up => Sys2Proof.Machine.execCrCall e up s
  | .crRet e up => Sys2Proof.Machine.execCrRet e up s
  | .crRte e up => Sys2Proof.Machine.execCrRte e up s
  | .crRep e up => Sys2Proof.Machine.execCrRep e up s
  | .crLoop e up => Sys2Proof.Machine.execCrLoop e up s
  | .crWait e up => Sys2Proof.Machine.execCrWait e up s
  | .crHalt e up => Sys2Proof.Machine.execCrHalt e up s
  | .crLdi e up => Sys2Proof.Machine.execCrLdi e up s
  | .crMfs e up => Sys2Proof.Machine.execCrMfs e up s
  | .crMts e up => Sys2Proof.Machine.execCrMts e up s
  | .crLds e up => Sys2Proof.Machine.execCrLds e up s
  | .crSts e up => Sys2Proof.Machine.execCrSts e up s
  | .crLdv e up => Sys2Proof.Machine.execCrLdv e up s
  | .crStv e up => Sys2Proof.Machine.execCrStv e up s
  | .crLdac e up => Sys2Proof.Machine.execCrLdac e up s
  | .crStac e up => Sys2Proof.Machine.execCrStac e up s
  | .crSti e up => Sys2Proof.Machine.execCrSti e up s
  | .crLdrs e up => Sys2Proof.Machine.execCrLdrs e up s
  | .crStrs e up => Sys2Proof.Machine.execCrStrs e up s
  | .eventEntry e => Sys2Proof.Machine.execEventEntry e s
  | .waitResume e => Sys2Proof.Machine.execWaitResume e s
  | .outWordWrite e data => Sys2Proof.Machine.execOutWordWrite e data s
  | .outCommit e => Sys2Proof.Machine.execOutCommit e s
  | .outDiscard e => Sys2Proof.Machine.execOutDiscard e s
  | .windowRelease e a n => Sys2Proof.Machine.execWindowRelease e a n s
  | .blockMoveStart e data => Sys2Proof.Machine.execBlockMoveStart e data s
  | .blockMoveDone e => Sys2Proof.Machine.execBlockMoveDone e s
  | .engSignal e => Sys2Proof.Machine.execEngSignal e s
  | .windowFeed c w => Sys2Proof.Machine.execWindowFeed c w s
  | .engHaltCmd who c e => Sys2Proof.Machine.execEngHaltCmd who c e s
  | .engResumeCmd who c e => Sys2Proof.Machine.execEngResumeCmd who c e s
  | .engRestartCmd who c e => Sys2Proof.Machine.execEngRestartCmd who c e s
  | .clClearCounts who c e => Sys2Proof.Machine.execClClearCounts who c e s
  | .clusterSwitch c => Sys2Proof.Machine.execClusterSwitch c s
  | .engineRelease c => Sys2Proof.Machine.execEngineRelease c s
  | .engHwFault c phys => Sys2Proof.Machine.execEngHwFault c phys s
  | .engTestStart e => Sys2Proof.Machine.execEngTestStart e s
  | .engTestEnd e pass => Sys2Proof.Machine.execEngTestEnd e pass s
  | .migrationDone c => Sys2Proof.Machine.execMigrationDone c s
  | .cmdDoorbell who data => Sys2Proof.Machine.execCmdDoorbell who data s
  | .cwWrite => Sys2Proof.Machine.execCwWrite s
  | .cwRead => Sys2Proof.Machine.execCwRead s
  | .cwClear => Sys2Proof.Machine.execCwClear s
  | .cwArm => Sys2Proof.Machine.execCwArm s
  | .cwCancel => Sys2Proof.Machine.execCwCancel s
  | .tableWrite => Sys2Proof.Machine.execTableWrite s
  | .imageLoad => Sys2Proof.Machine.execImageLoad s
  | .imageDrop => Sys2Proof.Machine.execImageDrop s
  | .cwUnknownOpcode => Sys2Proof.Machine.execCwUnknownOpcode s
  | .cwDoneTailWrite who data => Sys2Proof.Machine.execCwDoneTailWrite who data s
  | .cwEnable who data => Sys2Proof.Machine.execCwEnable who data s
  | .targetAck t => Sys2Proof.Machine.execTargetAck t s
  | .decisionEdge g => Sys2Proof.Machine.execDecisionEdge g s
  | .lateCommit g => Sys2Proof.Machine.execLateCommit g s
  | .lateLimitExpire g => Sys2Proof.Machine.execLateLimitExpire g s
  | .commitStrobe g => Sys2Proof.Machine.execCommitStrobe g s
  | .flowSwitchBoundary p => Sys2Proof.Machine.execFlowSwitchBoundary p s
  | .switchComplete g => Sys2Proof.Machine.execSwitchComplete g s
  | .auxSeqGo who => Sys2Proof.Machine.execAuxSeqGo who s
  | .auxCal who => Sys2Proof.Machine.execAuxCal who s
  | .auxCalAbort who => Sys2Proof.Machine.execAuxCalAbort who s
  | .auxClearCounts who => Sys2Proof.Machine.execAuxClearCounts who s
  | .injGo who j => Sys2Proof.Machine.execInjGo who j s
  | .seqRoundStart => Sys2Proof.Machine.execSeqRoundStart s
  | .injStartQueue j => Sys2Proof.Machine.execInjStartQueue j s
  | .conversionOutput raw => Sys2Proof.Machine.execConversionOutput raw s
  | .hkRoundStart => Sys2Proof.Machine.execHkRoundStart s
  | .auxCalAutoStart => Sys2Proof.Machine.execAuxCalAutoStart s
  | .auxCalEnd runs check => Sys2Proof.Machine.execAuxCalEnd runs check s
  | .resPop who => Sys2Proof.Machine.execResPop who s
  | .pwmPeriodStart c => Sys2Proof.Machine.execPwmPeriodStart c s
  | .pwmCompare c => Sys2Proof.Machine.execPwmCompare c s
  | .tachEdge k => Sys2Proof.Machine.execTachEdge k s
  | .tachStall k => Sys2Proof.Machine.execTachStall k s
  | .measurementWindowEnd counts => Sys2Proof.Machine.execMeasurementWindowEnd counts s
  | .planStart => Sys2Proof.Machine.execPlanStart s
  | .planMeasurementEnd counts => Sys2Proof.Machine.execPlanMeasurementEnd counts s
  | .planSettleEnd => Sys2Proof.Machine.execPlanSettleEnd s
  | .planTimeout => Sys2Proof.Machine.execPlanTimeout s
  | .planRetry => Sys2Proof.Machine.execPlanRetry s
  | .voltageStep ack fault readback => Sys2Proof.Machine.execVoltageStep ack fault readback s
  | .regulatorPoll ack fault readback => Sys2Proof.Machine.execRegulatorPoll ack fault readback s
  | .regulatorRetry ack readback => Sys2Proof.Machine.execRegulatorRetry ack readback s
  | .replan who => Sys2Proof.Machine.execReplan who s
  | .flClearCounts who => Sys2Proof.Machine.execFlClearCounts who s
  | .vddOverrideFire who data => Sys2Proof.Machine.execVddOverrideFire who data s
  | .derateOverrideFire who data => Sys2Proof.Machine.execDerateOverrideFire who data s
  | .ageingMeasureStart => Sys2Proof.Machine.execAgeingMeasureStart s
  | .ageingMeasureEnd pairs => Sys2Proof.Machine.execAgeingMeasureEnd pairs s
  | .shedDwellEnd => Sys2Proof.Machine.execShedDwellEnd s
  | .shedPriWrite who j data => Sys2Proof.Machine.execShedPriWrite who j data s
  | .streamShed st => Sys2Proof.Machine.execStreamShed st s
  | .shedGap st => Sys2Proof.Machine.execShedGap st s
  | .logAppendDone readbackOk => Sys2Proof.Machine.execLogAppendDone readbackOk s
  | .calSummary => Sys2Proof.Machine.execCalSummary s
  | .scrubRead ce ue => Sys2Proof.Machine.execScrubRead ce ue s
  | .scrubPassEnd => Sys2Proof.Machine.execScrubPassEnd s
  | .scrubLate => Sys2Proof.Machine.execScrubLate s
  | .marchTestStart g bank => Sys2Proof.Machine.execMarchTestStart g bank s
  | .marchTestEnd g bank pass => Sys2Proof.Machine.execMarchTestEnd g bank pass s
  | .memRequestAccept port who write addr size data => Sys2Proof.Machine.execMemRequestAccept port who write addr size data s
  | .memResponse port ce ue => Sys2Proof.Machine.execMemResponse port ce ue s
  | .agePromotion port => Sys2Proof.Machine.execAgePromotion port s
  | .refreshInterval stack => Sys2Proof.Machine.execRefreshInterval stack s
  | .bankRefresh pc idle => Sys2Proof.Machine.execBankRefresh pc idle s
  | .hbmTempReport stack temp => Sys2Proof.Machine.execHbmTempReport stack temp s
  | .regionRecordWrite r => Sys2Proof.Machine.execRegionRecordWrite r s
  | .rgnCpWrite who data => Sys2Proof.Machine.execRgnCpWrite who data s
  | .rgnPlaceWrite who w data => Sys2Proof.Machine.execRgnPlaceWrite who w data s
  | .rlenWrite who st data => Sys2Proof.Machine.execRlenWrite who st data s
  | .rlenShortenTake st => Sys2Proof.Machine.execRlenShortenTake st s
  | .rlenForceFire who data => Sys2Proof.Machine.execRlenForceFire who data s
  | .cxStart who x => Sys2Proof.Machine.execCxStart who x s
  | .cxAbort who x => Sys2Proof.Machine.execCxAbort who x s
  | .capClearCounts who x => Sys2Proof.Machine.execCapClearCounts who x s
  | .captureRecordWrite x => Sys2Proof.Machine.execCaptureRecordWrite x s
  | .mcClearCounts who => Sys2Proof.Machine.execMcClearCounts who s
  | .pfcFrameReceive p fcsOk enables timers => Sys2Proof.Machine.execPfcFrameReceive p fcsOk enables timers s
  | .pfcPauseExpire p prio => Sys2Proof.Machine.execPfcPauseExpire p prio s
  | .rxFrameDiscard p => Sys2Proof.Machine.execRxFrameDiscard p s
  | .flowRecordRelease p f => Sys2Proof.Machine.execFlowRecordRelease p f s
  | .packetSend p => Sys2Proof.Machine.execPacketSend p s
  | .soLinkDown p => Sys2Proof.Machine.execSoLinkDown p s
  | .soLinkUp p => Sys2Proof.Machine.execSoLinkUp p s
  | .soClearCounts who p => Sys2Proof.Machine.execSoClearCounts who p s
  | .flushAgeExpire ctx => Sys2Proof.Machine.execFlushAgeExpire ctx s
  | .contextStallClear ctx => Sys2Proof.Machine.execContextStallClear ctx s
  | .kFlush who ctx => Sys2Proof.Machine.execKFlush who ctx s
  | .kClearCounts who ctx => Sys2Proof.Machine.execKClearCounts who ctx s
  | .kpFlush who ctx => Sys2Proof.Machine.execKpFlush who ctx s
  | .kpSave who ctx => Sys2Proof.Machine.execKpSave who ctx s
  | .kpRestore who ctx => Sys2Proof.Machine.execKpRestore who ctx s
  | .kpClearCounts who ctx => Sys2Proof.Machine.execKpClearCounts who ctx s
  | .kpTransferDone ctx => Sys2Proof.Machine.execKpTransferDone ctx s
  | .replayStart who => Sys2Proof.Machine.execReplayStart who s
  | .replayAbort who => Sys2Proof.Machine.execReplayAbort who s
  | .replayContinue who => Sys2Proof.Machine.execReplayContinue who s
  | .replayEnd => Sys2Proof.Machine.execReplayEnd s
  | .dmaDoorbell who c data => Sys2Proof.Machine.execDmaDoorbell who c data s
  | .descriptorStart c => Sys2Proof.Machine.execDescriptorStart c s
  | .dmaElementDone c => Sys2Proof.Machine.execDmaElementDone c s
  | .descriptorEnd c => Sys2Proof.Machine.execDescriptorEnd c s
  | .leaseExpire c => Sys2Proof.Machine.execLeaseExpire c s
  | .dmaAbort who c => Sys2Proof.Machine.execDmaAbort who c s
  | .dmaClearCounts who => Sys2Proof.Machine.execDmaClearCounts who s
  | .drlenWrite who c data => Sys2Proof.Machine.execDrlenWrite who c data s
  | .drlenTake c => Sys2Proof.Machine.execDrlenTake c s
  | .drlenForceFire who data => Sys2Proof.Machine.execDrlenForceFire who data s
  | .dcplTailWrite who c data => Sys2Proof.Machine.execDcplTailWrite who c data s
  | .softwareEventRaise who data => Sys2Proof.Machine.execSoftwareEventRaise who data s
  | .eventDelivery n => Sys2Proof.Machine.execEventDelivery n s
  | .engineEventDelivery n => Sys2Proof.Machine.execEngineEventDelivery n s
  | .claim who k => Sys2Proof.Machine.execClaim who k s
  | .clearPending who n => Sys2Proof.Machine.execClearPending who n s
  | .evCfgWrite who n data => Sys2Proof.Machine.execEvCfgWrite who n data s
  | .sumpReport => Sys2Proof.Machine.execSumpReport s
  | .sumpAck who slot => Sys2Proof.Machine.execSumpAck who slot s
  | .sumpClearCounts who => Sys2Proof.Machine.execSumpClearCounts who s
  | .winCommitFire who data => Sys2Proof.Machine.execWinCommitFire who data s
  | .windowEpochCommit => Sys2Proof.Machine.execWindowEpochCommit s
  | .epochDone => Sys2Proof.Machine.execEpochDone s
  | .keyRevokeFire who data => Sys2Proof.Machine.execKeyRevokeFire who data s
  | .rbAdvanceFire who data => Sys2Proof.Machine.execRbAdvanceFire who data s
  | .otpProgramDone cut => Sys2Proof.Machine.execOtpProgramDone cut s
  | .idKeyGenerate who data => Sys2Proof.Machine.execIdKeyGenerate who data s
  | .idKeyGenerated => Sys2Proof.Machine.execIdKeyGenerated s
  | .idKeyRetire who data => Sys2Proof.Machine.execIdKeyRetire who data s
  | .jtagLockFire who data => Sys2Proof.Machine.execJtagLockFire who data s
  | .attStart who => Sys2Proof.Machine.execAttStart who s
  | .attestationDone => Sys2Proof.Machine.execAttestationDone s
  | .evidenceInstant => Sys2Proof.Machine.execEvidenceInstant s
  | .evidenceCommit => Sys2Proof.Machine.execEvidenceCommit s
  | .pdDownRequest who m => Sys2Proof.Machine.execPdDownRequest who m s
  | .pdUpRequest who m => Sys2Proof.Machine.execPdUpRequest who m s
  | .powerDownDone m => Sys2Proof.Machine.execPowerDownDone m s
  | .powerUpDone m => Sys2Proof.Machine.execPowerUpDone m s
  | .supplyReset => Sys2Proof.Machine.execSupplyReset s
  | .porNAssert => Sys2Proof.Machine.execPorNAssert s
  | .warmNAssert => Sys2Proof.Machine.execWarmNAssert s
  | .thermalTrip => Sys2Proof.Machine.execThermalTrip s
  | .thermtripClear => Sys2Proof.Machine.execThermtripClear s
  | .rstCmdWarm who data => Sys2Proof.Machine.execRstCmdWarm who data s
  | .rstCmdDevice who data => Sys2Proof.Machine.execRstCmdDevice who data s
  | .resetVoltageReady vdd readback => Sys2Proof.Machine.execResetVoltageReady vdd readback s
  | .resetVoltageRetry => Sys2Proof.Machine.execResetVoltageRetry s
  | .otpSenseEnd => Sys2Proof.Machine.execOtpSenseEnd s
  | .bootRomStart trained failedLanes failedEngines failedBanks => Sys2Proof.Machine.execBootRomStart trained failedLanes failedEngines failedBanks s
  | .wdogCfgWrite who data => Sys2Proof.Machine.execWdogCfgWrite who data s
  | .wdogKick who data => Sys2Proof.Machine.execWdogKick who data s
  | .watchdogExpire => Sys2Proof.Machine.execWatchdogExpire s
  | .coreEnWrite who data => Sys2Proof.Machine.execCoreEnWrite who data s
  | .testLogicReset => Sys2Proof.Machine.execTestLogicReset s
  | .bypass opcode => Sys2Proof.Machine.execBypass opcode s
  | .idcode => Sys2Proof.Machine.execIdcode s
  | .samplePreload => Sys2Proof.Machine.execSamplePreload s
  | .extest => Sys2Proof.Machine.execExtest s
  | .extestPulse => Sys2Proof.Machine.execExtestPulse s
  | .extestTrain => Sys2Proof.Machine.execExtestTrain s
  | .clamp => Sys2Proof.Machine.execClamp s
  | .highz => Sys2Proof.Machine.execHighz s
  | .regAccess write addr data => Sys2Proof.Machine.execRegAccess write addr data s
  | .porNRelease => Sys2Proof.Machine.execPorNRelease s
  | .clSpareFail c => Sys2Proof.Machine.execClSpareFail c s
  | .xspiCmd who data => Sys2Proof.Machine.execXspiCmd who data s

end Sys2Proof.Machine
end

