-- ==== Sys2Proof/Safety.lean ====
section
/-! DEFINITION. The terms the statements use: when an access reaches its register, and what every state of a run satisfies. -/
namespace Sys2Proof.Machine

/-- A 32-bit access reaches the register: neither the fixed rules nor the windows refuse it (R540, R543), and its power domain is up (R571). -/
def State.reaches (s : State) (i : Ini) (k : Nat) (kd : Kind) : Bool :=
  (s.dev.regDeny i (regBase + k) 4 kd).isNone && s.dev.domUp (domainOf (keyBlock k))

/-- A write to a posted block is taken: it reaches its register, and no write is in flight there (R531). -/
def State.takes (s : State) (i : Ini) (k : Nat) : Bool := s.reaches i k .write && !s.dev.busy (keyBlock k)

/-- A FIRE completes its initiator's own arm in time, with the complement of the armed value, whose defined fields are v (R9, R534). -/
def State.fires (s : State) (i : Ini) (k : Nat) (data v : Word) : Bool :=
  s.reaches i k .write && ((s.dev.armedBy i (k - 4) data).map (· &&& guardMask (k - 4)) == some v)

/-- What every step keeps: HBM is in its canonical form. -/
def State.Inv (s : State) : Prop := s.mem.wf = true

/-- No fault and no refusal. -/
def State.safe (s : State) : Prop := ∃ t, step s = .next t

/-! ### The terms of the statements about Cratre instructions -/

/-- Lane l of a vector, of width b (R309). -/
def lane (b : Nat) (v : Word128) (l : Nat) : Int := sfld v (b * l) b

/-- Lane l of an accumulator in a mode (R309). -/
def accLane (mode : Nat) (a : BitVec 320) (l : Nat) : Int := sfld a (accWidth mode * l) (accWidth mode)

/-- The number of lanes of an accumulator in a mode. -/
def accCount (mode : Nat) : Nat := 320 / accWidth mode

/-- Term l of a product of two vectors in an accumulator's mode (R351): lane by lane in the real modes; real and imaginary part in the complex ones, with the second factor conjugated or not. -/
def crTerm (mode : Nat) (conj : Bool) (b : Nat) (u v : Word128) (l : Nat) : Int :=
  let r := l / 2 * 2
  if mode < 2 then lane b u l * lane b v l
  else if l % 2 = 0 then
    (if conj then lane b u r * lane b v r + lane b u (r + 1) * lane b v (r + 1) else lane b u r * lane b v r - lane b u (r + 1) * lane b v (r + 1))
  else (if conj then lane b u (r + 1) * lane b v r - lane b u r * lane b v (r + 1) else lane b u r * lane b v (r + 1) + lane b u (r + 1) * lane b v r)

/-- Engine e issues the word w, whose opcode is `op`, next: it runs, no entry is due, the word stands at its PC, and neither a delay slot, a REP, a loop, a stop, outstanding loads nor an uncorrectable word are in the way. -/
def State.issues (s : State) (e op : Nat) (w : CrW) : Bool :=
  let x := s.dev.eng e
  x.state == 1 && x.entryDue.isNone && decide (x.pc < x.nprog) && x.fetch x.pc == w && crOp w == op && x.slot.isNone && x.rep.isNone
    && !bit x.sr 11 && x.stop == 0 && !x.aovDue && x.loads.isEmpty && x.stale.isEmpty && !x.bad.contains (0x100000 + x.pc)

/-- The word carries no parallel move. -/
def movesNothing (w : CrW) : Bool := bit w 63 || (crMove w 0 == 0 && crMove w 1 == 0 && crMove w 2 == 0)

/-- What an instruction leaves as it was when its results are the vector v and the accumulator a, if any: every other vector and accumulator, the memories and shared memory, the other engines, every register of the device, HBM and device time; and the PC moves on by one. -/
structure State.CrKeeps (s t : State) (e : Nat) (v a : Option Nat) : Prop where
  pc : (t.dev.eng e).pc = (s.dev.eng e).pc + 1
  vecs : ∀ k, v ≠ some k → (t.dev.eng e).vr k = (s.dev.eng e).vr k
  accs : ∀ k, a ≠ some k → (t.dev.eng e).ac k = (s.dev.eng e).ac k
  ptrs : (t.dev.eng e).p = (s.dev.eng e).p
  memX : (t.dev.eng e).x = (s.dev.eng e).x
  memY : (t.dev.eng e).y = (s.dev.eng e).y
  clusters : t.dev.cls = s.dev.cls
  others : ∀ m, m ≠ e → t.dev.eng m = s.dev.eng m
  regs : ∀ j, t.dev.rd j = s.dev.rd j
  hbm : t.mem = s.mem
  time : t.dev.now = s.dev.now

/-! ### The terms of the statements about memory and the causeway -/

/-- A request apart from whether its tokens have still to come. -/
def MemReq.paid (r : MemReq) : MemReq := { r with short := false }

/-- No record of a past step and no closed block has still to take its place before a region's next one (R195, R242). -/
def State.caughtUp (s : State) (r : Nat) : Bool :=
  if r = 256 then decide (s.dev.tb.edges ≤ s.dev.fab.stepEdge) else if 96 ≤ r ∧ r < 112 then (s.dev.eiSt (r - 96)).lag.isEmpty else true

/-- A range of HBM can be read: no window refuses it, and it holds no uncorrectable unit. -/
def State.readable (s : State) (i : Ini) (port a n : Nat) : Bool := (s.dev.checkMem i port a n .read).2 && (s.dev.ueIn a n).isNone

/-- A range of HBM can be written: no window refuses it, and no uncorrectable unit lies partly in it. -/
def State.writable (s : State) (i : Ini) (port a n : Nat) : Bool := (s.dev.checkMem i port a n .write).2 && (s.dev.ueEdges a n).isEmpty

/-- The command the sequencer fetches next (R366): EN set, no completion waiting, room in the completion ring, and the entry at TAIL readable. -/
def State.fetches (s : State) (c : Cmd) : Bool :=
  let d := s.dev
  let a := d.n64 Reg.CW_CMD_BASE_LO Reg.CW_CMD_BASE_HI + 64 * d.n Reg.CW_CMD_TAIL
  d.on Reg.CW_CTRL 31 && d.cw.waiting.isEmpty && !d.cwFull && !d.cw.held && d.n Reg.CW_CMD_TAIL != d.n Reg.CW_CMD_HEAD
    && s.readable 0x1E3 22 a 64 && readCmd (words128 (s.mem.bytes a 64)) == c

/-- Where the next completion entry goes. -/
def State.doneAt (s : State) : Nat := s.dev.n64 Reg.CW_DONE_BASE_LO Reg.CW_DONE_BASE_HI + 64 * s.dev.n Reg.CW_DONE_HEAD

/-- Word 0 of the completion entry of a command (R370). -/
def doneWord (c : Cmd) (result target slot group detail : Nat) : Word128 :=
  packBE 128 [(c.op, 8), (result, 8), (target, 16), (slot, 4), (group, 8), (detail, 20), (fld c.w0 0 64, 64)]

/-- The command at TAIL is consumed, and its completion entry, with this word 0, stands in the completion ring (R366, R370). -/
structure State.Completes (s t : State) (w : Word128) : Prop where
  entry : t.mem.bytes s.doneAt 16 = memWord w
  head : t.dev.n Reg.CW_DONE_HEAD = (s.dev.n Reg.CW_DONE_HEAD + 1) % 2 ^ s.dev.f Reg.CW_CTRL 0 4
  tail : t.dev.n Reg.CW_CMD_TAIL = (s.dev.n Reg.CW_CMD_TAIL + 1) % 2 ^ s.dev.f Reg.CW_CTRL 8 4

/-- Every byte outside a range is as it was. -/
def State.sameOutside (s t : State) (a n : Nat) : Prop := ∀ x, x < a ∨ a + n ≤ x → t.mem.byte x = s.mem.byte x

/-- No channel has an ABORT that its descriptor has still to reach. -/
def State.noAborts (s : State) : Bool := s.dev.dma.all fun e => match e.2.run with | some r => !r.abort | none => true

/-- An address lies in HBM, not in register space or a device region. -/
def inHbm (a : Nat) : Bool := !inRegs a && !inDevice a

/-! ### Which commands can do what -/

/-- The commands that can change HBM: those that move data or records, the writes of the causeway and of the DMA channels, a render into HBM, and those that can start a reset or abandon a group of the causeway. -/
def mayStore : Instr → Bool
  | .cwWrite .. | .cwRead .. | .cwClear .. | .cwArm .. | .cwCancel .. | .tableWrite .. | .imageLoad .. | .imageDrop .. | .cwUnknownOpcode ..
  | .cwDoneTailWrite .. | .cwEnable .. | .decisionEdge .. | .lateLimitExpire .. | .flowSwitchBoundary .. | .switchComplete .. | .descriptorStart ..
  | .dmaElementDone .. | .descriptorEnd .. | .dmaAbort .. | .drlenForceFire .. | .dcplTailWrite .. | .blockMoveDone .. | .windowFeed ..
  | .shedPriWrite .. | .memResponse .. | .regionRecordWrite .. | .rgnCpWrite .. | .rgnPlaceWrite .. | .captureRecordWrite ..
  | .extMultiblockRelease .. | .portSwitchBoundary .. | .pdDownRequest .. | .supplyReset .. | .porNAssert .. | .warmNAssert .. | .thermalTrip ..
  | .rstCmdWarm .. | .rstCmdDevice .. | .bootRomStart .. | .watchdogExpire .. | .coreEnWrite .. | .extest .. | .extestPulse .. | .extestTrain ..
  | .clamp .. | .highz .. | .regAccess .. | .registerWrite .. | .pairLowWrite .. | .pairHighWrite .. | .sqClear .. | .postedWrite .. | .guardArm ..
  | .flowRecordRelease .. | .kpTransferDone .. | .replayAbort .. | .replayEnd .. | .attestationDone .. | .renderDone .. | .powerUpDone .. => true
  | _ => false

/-- The commands of the timebase (chapter Device Time and the Reference). -/
def timebaseRow : Instr → Bool
  | .timeNowRead .. | .dllLock .. | .dllLockLoss .. | .lockGateEnd .. | .freqStdAbsent .. | .freqStdReturn .. | .activityLockDeclare ..
  | .ocxoWarmChange .. | .holdoverEnter .. | .holdoverExit .. | .todArm .. | .todCancel .. | .ppsEdge .. | .ppsMissingExpire .. | .outputStart ..
  | .outputStop .. | .delayWalkStep .. | .divChangeEffect .. | .outSyncCmd .. | .outSyncExecute .. | .sysrefShotsDone .. | .ptpStamp ..
  | .ptpTsPop .. => true
  | _ => false

end Sys2Proof.Machine
end

