-- ==== Sys2Proof/Certificates/Slice0/Obligations.lean ====
section
/-! DEFINITION. The statements for the provers, one definition each, in the order of OBLIGATIONS.json. -/
section
open Sys2Proof Sys2Proof.Machine

/-- The queue: a step takes the command at the front and runs it with the queue's rest. -/
def Obligations.StepTakesFront : Prop :=
  ∀ (s : State) (c : Instr) (r : List Instr), s.pending = c :: r → step s = exec c { s with pending := r }

/-- Every command of the table is answered with a next state: none faults, none is refused, none touches the queue, and the ones that neither move data nor reset the device leave HBM as it is. -/
def Obligations.EveryCommand : Prop :=
  ∀ (s : State) (c : Instr), ∃ t, exec c s = .next t ∧ t.pending = s.pending ∧ (mayStore c = false → t.mem = s.mem)

/-- Every step keeps HBM in its canonical form: addresses strictly rising, and no byte listed that an unlisted address reads as (log entry 2). -/
def Obligations.StepKeepsInv : Prop :=
  ∀ s t : State, s.Inv → step s = .next t → t.Inv

/-- After reset (R13, R49, R102, R463, R500, R503, R523, R545, R583): HBM lists nothing and is in its canonical form, the device is derated, device time is 0 with TOD_UNSET, each logical lane runs on the physical lane of its own place with the thirteenth as spare, every region is off, every extractor idle, every ring of descriptors has 16 places, every event has sequence number 0 and is disabled, no window entry grants anything, and the switchable domains are up. -/
def Obligations.ResetState : Prop :=
  State.reset.Inv ∧ State.reset.mem = [] ∧ State.reset.pending = []
  ∧ State.reset.dev.derated = true ∧ State.reset.dev.now = 0 ∧ State.reset.dev.on Reg.TB_STATUS 5 = false
  ∧ (∀ l : Fin 48, State.reset.dev.laneNib l = l % 12) ∧ (∀ g : Fin 4, State.reset.dev.spareOf g = 12)
  ∧ (∀ r : Fin 259, (State.reset.dev.rgn r).len = 0) ∧ (∀ x : Fin 16, State.reset.dev.cx x = none)
  ∧ (∀ c : Fin 64, State.reset.dev.n (Reg.DRLEN c) = 16)
  ∧ (∀ n : Fin 1536, State.reset.dev.n (Reg.EV_SEQ n) = 0 ∧ State.reset.dev.n (Reg.EV_CFG n) = 0)
  ∧ (∀ (e : Fin 512) (w : Fin 4), State.reset.dev.rd (Reg.WIN_FORCE e w) = 0)
  ∧ ∀ m : Fin 32, 3 ≤ m.val → m.val ≤ 21 → State.reset.dev.on Reg.PD_STATE m = true

/-- The device-time word (R43, R46): seconds, fraction, the reserved byte, the class and the five flags, of which UNLOCKED is the complement of REF_LOCKED and UNSETTLED is OCXO_WARM. -/
def Obligations.TimeWord : Prop :=
  ∀ (d : Dev) (cls t : Nat) (interp : Bool), cls < 8 →
    fld (d.timeWord cls interp t) 80 48 = t / 2 ^ 64 % 2 ^ 48 ∧ fld (d.timeWord cls interp t) 16 64 = t % 2 ^ 64
    ∧ fld (d.timeWord cls interp t) 8 8 = 0 ∧ fld (d.timeWord cls interp t) 5 3 = cls
    ∧ bit (d.timeWord cls interp t) 4 = d.derated ∧ bit (d.timeWord cls interp t) 3 = interp
    ∧ bit (d.timeWord cls interp t) 2 = !d.on Reg.TB_STATUS 5 ∧ bit (d.timeWord cls interp t) 1 = !d.on Reg.TB_STATUS 1
    ∧ bit (d.timeWord cls interp t) 0 = d.on Reg.TB_STATUS 3

/-- R44, R45, R48, R49: with no command waiting and the timebase running, one REF_IN edge advances device time by PERIOD, and by one more unit where the remainder reaches REM_DEN (that a step on an empty queue is one edge is the model's choice, log entry 1); in holdover it never goes back, and returns to REF_IN from its current value; a reset that holds the timebase holds it; such an edge writes the fabric records of the step before, and changes no register where none waits and no edge input has a change or block to take up (log entry 1); and no command of the timebase ever sets device time back. -/
def Obligations.TimeForward : Prop :=
  (∀ s : State, s.pending = [] → s.dev.timeHeld = false → s.dev.on Reg.TB_STATUS 6 = false →
    ∃ t, step s = .next t ∧ t.pending = [] ∧ t.mem = s.mem ∧ t.dev.tb.edges = s.dev.tb.edges + 1
      ∧ t.dev.now = s.dev.now + s.dev.tb.period
          + (if s.dev.tb.remDen ≤ s.dev.tb.remAcc + s.dev.tb.remNum ∧ s.dev.tb.remDen ≠ 0 then 1 else 0)
      ∧ (s.dev.fab.step = [] → (s.dev.edge.ins.all fun e => e.2.lag.isEmpty) = true → ∀ j, t.dev.rd j = s.dev.rd j))
  ∧ (∀ s : State, s.pending = [] → s.dev.timeHeld = false → s.dev.on Reg.TB_STATUS 6 = true → s.dev.on Reg.TB_STATUS 0 = true →
    ∃ t, step s = .next t ∧ t.dev.now = s.dev.now ∧ (s.dev.fab.step = [] → (s.dev.edge.ins.all fun e => e.2.lag.isEmpty) = true → t.dev.on Reg.TB_STATUS 6 = false))
  ∧ (∀ s : State, s.pending = [] → s.dev.on Reg.TB_STATUS 6 = true → ∃ t, step s = .next t ∧ s.dev.now ≤ t.dev.now)
  ∧ (∀ s : State, s.pending = [] → s.dev.timeHeld = true → step s = .next s)
  ∧ ∀ (s t : State) (c : Instr), timebaseRow c = true → exec c s = .next t → s.dev.now ≤ t.dev.now

/-- R539, the access windows, for who is no machine-level core and not the boot ROM: an entry matches where EN is set, every byte of the access lies in its range, and the identifier agrees with MATCH under MASK; the lowest-numbered matching entry decides an access to an assigned register, which is granted if that entry has DENY clear and the bit of the access kind set, and is denied otherwise. -/
def Obligations.WindowDecision : Prop :=
  (∀ (d : Dev) (e : Nat) (i : Ini) (addr size : Nat), d.winMatch e i addr size = true ↔
    d.on (Reg.WIN_FORCE e 3) 31 = true
    ∧ (d.f (Reg.WIN_FORCE e 2) 0 4 * 2 ^ 32 + d.n (Reg.WIN_FORCE e 0)) * 4096 ≤ addr
    ∧ addr + size ≤ (d.f (Reg.WIN_FORCE e 2) 4 4 * 2 ^ 32 + d.n (Reg.WIN_FORCE e 1)) * 4096 + 4096
    ∧ i &&& BitVec.ofNat 10 (d.f (Reg.WIN_FORCE e 3) 16 10)
        = BitVec.ofNat 10 (d.f (Reg.WIN_FORCE e 3) 0 10) &&& BitVec.ofNat 10 (d.f (Reg.WIN_FORCE e 3) 16 10))
  ∧ ∀ (d : Dev) (i : Ini) (addr size : Nat) (kd : Kind), isMonitor i = false → regBase ≤ addr → (addr - regBase) / 0x10000 < 0x1000 →
      (addr - regBase) / 0x10000 ≠ 0x2A → blockAssigned ((addr - regBase) / 0x10000) = true →
      size = 4 ∧ addr % 4 = 0 ∨ size = 8 ∧ addr % 8 = 0 →
    (d.regDeny i addr size kd = none ↔
      ∃ e, e < 512 ∧ d.winMatch e i addr size = true ∧ (∀ f, f < e → d.winMatch f i addr size = false)
        ∧ d.on (Reg.WIN_FORCE e 3) 30 = false
        ∧ d.on (Reg.WIN_FORCE e 3) (match kd with | .read => 29 | .write => 28 | .fetch => 27) = true)

/-- REGISTER_WRITE, denied (R543): the sender gets an error response, DENY_COUNT counts it, DENY_ADDR and DENY_INFO name it, DENIED sets, and HBM is unchanged. REGISTER_WRITE, taken (R528): a threshold of the event controller takes the four bits it has, the answer is normal, and no other register and no byte of HBM changes. PAIR_LOW_READ, PAIR_HIGH_READ, PAIR_LOW_WRITE and PAIR_HIGH_WRITE (R529), on SUMP_MAP and on COMMIT_AT of the fabric: the low word latches the high word for its reader; the high word is the shadow for who latched it and the live word for another; a low word waits for its initiator; a high word takes both in force. -/
def Obligations.RegisterAccess : Prop :=
  (∀ (s : State) (i : Ini) (addr size data r : Nat), inDevice addr = false → s.dev.regDeny i addr size .write = some r →
    addr / 8 ≠ (regBase + Reg.DMA_CMD) / 8 →
    ∃ t, exec (.registerWrite i addr size data) s = .next t
      ∧ t.dev.resp = ⟨false, 0⟩
      ∧ t.dev.n Reg.DENY_COUNT = min (s.dev.n Reg.DENY_COUNT + 1) (2 ^ 32 - 1)
      ∧ t.dev.n Reg.DENY_ADDR_LO = addr % 2 ^ 32
      ∧ t.dev.f Reg.DENY_INFO 22 10 = i.toNat ∧ t.dev.on Reg.DENY_INFO 21 = true ∧ t.dev.f Reg.DENY_INFO 16 4 = r % 16
      ∧ t.dev.on Reg.WIN_STATUS 3 = true ∧ t.mem = s.mem)
  ∧ (∀ (s : State) (i : Ini) (k : Fin 16) (data : Word), s.reaches i (Reg.THRESH k) .write = true →
    ∃ t, exec (.registerWrite i (regBase + Reg.THRESH k) 4 data.toNat) s = .next t
      ∧ t.dev.f (Reg.THRESH k) 0 4 = fld data 0 4 ∧ t.dev.resp = ⟨true, 0⟩
      ∧ (∀ j, j ≠ Reg.THRESH k → t.dev.rd j = s.dev.rd j) ∧ t.mem = s.mem)
  ∧ (∀ (s : State) (i : Ini), s.reaches i Reg.SUMP_MAP_LO .read = true →
    ∃ t, exec (.pairLowRead i (regBase + Reg.SUMP_MAP_LO)) s = .next t
      ∧ t.dev.resp = ⟨true, s.dev.rd Reg.SUMP_MAP_LO⟩
      ∧ t.dev.shadow.get (fun _ => none) 0x29 = some (i, Reg.SUMP_MAP_HI, s.dev.rd Reg.SUMP_MAP_HI)
      ∧ ∀ j, t.dev.rd j = s.dev.rd j)
  ∧ (∀ (s : State) (i : Ini) (w : Word), s.reaches i Reg.SUMP_MAP_HI .read = true →
      s.dev.shadow.get (fun _ => none) 0x29 = some (i, Reg.SUMP_MAP_HI, w) →
    ∃ t, exec (.pairHighRead i (regBase + Reg.SUMP_MAP_HI)) s = .next t
      ∧ t.dev.resp = ⟨true, w⟩ ∧ t.dev.shadow.get (fun _ => none) 0x29 = none ∧ ∀ j, t.dev.rd j = s.dev.rd j)
  ∧ (∀ (s : State) (i : Ini), s.reaches i Reg.SUMP_MAP_HI .read = true →
      (∀ w, s.dev.shadow.get (fun _ => none) 0x29 ≠ some (i, Reg.SUMP_MAP_HI, w)) →
    ∃ t, exec (.pairHighRead i (regBase + Reg.SUMP_MAP_HI)) s = .next t
      ∧ t.dev.resp = ⟨true, s.dev.rd Reg.SUMP_MAP_HI⟩ ∧ ∀ j, t.dev.rd j = s.dev.rd j)
  ∧ (∀ (s : State) (i : Ini) (w : Word), s.reaches i Reg.COMMIT_AT_LO .write = true →
    ∃ t, exec (.pairLowWrite i (regBase + Reg.COMMIT_AT_LO) w) s = .next t
      ∧ t.dev.staged i Reg.COMMIT_AT_LO = some w ∧ (∀ j, t.dev.rd j = s.dev.rd j) ∧ t.mem = s.mem)
  ∧ (∀ (s : State) (i : Ini) (l w : Word), s.reaches i Reg.COMMIT_AT_HI .write = true →
      s.dev.fab.commitAt = none → s.dev.staged i Reg.COMMIT_AT_LO = some l →
    ∃ t, exec (.pairHighWrite i (regBase + Reg.COMMIT_AT_HI) w) s = .next t
      ∧ t.dev.rd Reg.COMMIT_AT_LO = l ∧ t.dev.rd Reg.COMMIT_AT_HI = w
      ∧ t.dev.staged i Reg.COMMIT_AT_LO = none
      ∧ (∀ j, j ≠ Reg.COMMIT_AT_LO → j ≠ Reg.COMMIT_AT_HI → t.dev.rd j = s.dev.rd j) ∧ t.mem = s.mem)

/-- SQ_CLEAR (R530), on the status register of the sump: the SEQ value read, written back, clears every SQ bit and SEQ and leaves the other bits; another value changes nothing. POSTED_WRITE, POSTED_WRITE_EFFECT, NO_CLOCK_TIMEOUT and PW_ERR_INFO_READ (R531, R532), on REM_NUM of the timebase: accepted at once with BUSY, or discarded with LOST while BUSY; the write takes effect and BUSY clears; a write that its clock never takes fails with cause NO_CLOCK, is captured and keeps BUSY; reading the capture releases the fence. -/
def Obligations.PostedWrites : Prop :=
  (∀ (s : State) (i : Ini) (v : Word), s.reaches i Reg.SUMP_STATUS .write = true →
    ∃ t, exec (.sqClear i (regBase + Reg.SUMP_STATUS) v) s = .next t ∧ t.mem = s.mem
      ∧ (fld v 16 16 = s.dev.f Reg.SUMP_STATUS 16 16 → t.dev.rd Reg.SUMP_STATUS = s.dev.rd Reg.SUMP_STATUS &&& 0xFFF1)
      ∧ (fld v 16 16 ≠ s.dev.f Reg.SUMP_STATUS 16 16 → t.dev.rd Reg.SUMP_STATUS = s.dev.rd Reg.SUMP_STATUS)
      ∧ ∀ j, j ≠ Reg.SUMP_STATUS → t.dev.rd j = s.dev.rd j)
  ∧ (∀ (s : State) (i : Ini) (v : Word), s.takes i Reg.REM_NUM = true →
    ∃ t, exec (.postedWrite i (regBase + Reg.REM_NUM) v) s = .next t
      ∧ t.dev.on Reg.TB_STATUS 7 = true ∧ t.dev.flight 1 = some ⟨i, Reg.REM_NUM, none, v, s.dev.up⟩
      ∧ t.dev.rd Reg.REM_NUM = s.dev.rd Reg.REM_NUM ∧ t.mem = s.mem)
  ∧ (∀ (s : State) (i : Ini) (v : Word), s.reaches i Reg.REM_NUM .write = true → s.dev.busy 1 = true →
    ∃ t, exec (.postedWrite i (regBase + Reg.REM_NUM) v) s = .next t
      ∧ t.dev.on Reg.TB_STATUS 14 = true ∧ t.dev.flight 1 = s.dev.flight 1 ∧ t.dev.rd Reg.REM_NUM = s.dev.rd Reg.REM_NUM)
  ∧ (∀ (s : State) (w : PostedW), s.dev.flight 1 = some w → w.key = Reg.REM_NUM → s.dev.domUp 1 = true →
    ∃ t, exec (.postedWriteEffect .timebase false) s = .next t
      ∧ t.dev.rd Reg.REM_NUM = w.data ∧ t.dev.on Reg.TB_STATUS 7 = false ∧ t.dev.flight 1 = none ∧ t.mem = s.mem)
  ∧ (∀ (s : State) (w : PostedW), s.dev.flight 1 = some w → elapsedNs w.time s.dev.up 10000 = true →
    ∃ t, exec (.noClockTimeout .timebase) s = .next t
      ∧ t.dev.on Reg.TB_STATUS 15 = true ∧ t.dev.f (Reg.PW_ERR_INFO 1) 16 4 = 2 ∧ t.dev.rd (Reg.PW_ERR_DATA 1) = w.data
      ∧ t.dev.on Reg.TB_STATUS 7 = s.dev.on Reg.TB_STATUS 7 ∧ t.dev.flight 1 = none ∧ t.mem = s.mem)
  ∧ (∀ (s : State) (i : Ini), s.reaches i (Reg.PW_ERR_INFO 1) .read = true → s.dev.flight 1 = none → s.dev.f (Reg.PW_ERR_INFO 1) 16 4 ≠ 0 →
    ∃ t, exec (.pwErrInfoRead i .timebase) s = .next t
      ∧ t.dev.resp = ⟨true, s.dev.rd (Reg.PW_ERR_INFO 1)⟩ ∧ t.dev.on Reg.TB_STATUS 7 = false)

/-- GUARD_ARM and GUARD_ARM_EXPIRE (R534), on the guarded pair of the window table: a write to the ARM address leaves this arm alone at its register; 10 µs later it is abandoned; no register changes. WIN_COMMIT_FIRE, WINDOW_EPOCH_COMMIT and EPOCH_DONE (R541): the value 1 sets EPOCH_PENDING, another is REFUSED; 16 REF_IN edges later WIN_EPOCH increments and each entry in force is the staged one; then, once no access accepted under an earlier table waits, EPOCH_PENDING clears, EPOCH_DONE sets and event 1476 is raised. -/
def Obligations.GuardsAndEpochs : Prop :=
  (∀ (s : State) (i : Ini) (v : Word), s.reaches i Reg.WIN_COMMIT_ARM .write = true →
    ∃ t, exec (.guardArm i (regBase + Reg.WIN_COMMIT_ARM) v) s = .next t
      ∧ t.dev.arms.filter (fun a => a.key = Reg.WIN_COMMIT_ARM) = [⟨Reg.WIN_COMMIT_ARM, i, v, s.dev.up⟩]
      ∧ (∀ j, t.dev.rd j = s.dev.rd j) ∧ t.mem = s.mem)
  ∧ (∀ (s : State) (a : Arm), a ∈ s.dev.arms → a.key = Reg.WIN_COMMIT_ARM → elapsedNs a.time s.dev.up 10000 = true →
    ∃ t, exec (.guardArmExpire (regBase + Reg.WIN_COMMIT_ARM)) s = .next t ∧ a ∉ t.dev.arms ∧ ∀ j, t.dev.rd j = s.dev.rd j)
  ∧ (∀ (s : State) (i : Ini) (data : Word), s.fires i Reg.WIN_COMMIT_FIRE data 1 = true → s.dev.on Reg.WIN_STATUS 1 = false →
    ∃ t, exec (.winCommitFire i data) s = .next t
      ∧ t.dev.on Reg.WIN_STATUS 1 = true ∧ t.dev.winPend = some ⟨s.dev.tb.edges + 16, false⟩ ∧ t.mem = s.mem)
  ∧ (∀ (s : State) (i : Ini) (data v : Word), s.fires i Reg.WIN_COMMIT_FIRE data v = true → v ≠ 1 →
    ∃ t, exec (.winCommitFire i data) s = .next t ∧ t.dev.winPend = s.dev.winPend
      ∧ t.dev.on (Reg.LW_STAT 0x2A) 0 = true ∧ t.dev.f (Reg.LW_INFO 0x2A) 19 3 = 4)
  ∧ (∀ (s : State) (e : Nat), s.dev.winPend = some ⟨e, false⟩ → e ≤ s.dev.tb.edges →
    ∃ t, exec .windowEpochCommit s = .next t
      ∧ t.dev.n Reg.WIN_EPOCH = (s.dev.n Reg.WIN_EPOCH + 1) % 2 ^ 32 ∧ t.dev.winPend = some ⟨e, true⟩ ∧ t.mem = s.mem)
  ∧ (∀ (s : State) (e : Nat), s.dev.winPend = some ⟨e, true⟩ → s.dev.oldEpoch = false →
    ∃ t, exec .epochDone s = .next t
      ∧ t.dev.on Reg.WIN_STATUS 1 = false ∧ t.dev.on Reg.WIN_STATUS 2 = true ∧ t.dev.winPend = none
      ∧ t.dev.n (Reg.EV_SEQ 1476) = (s.dev.n (Reg.EV_SEQ 1476) + 1) % 2 ^ 32 ∧ t.mem = s.mem)

/-- DLL_LOCK, DLL_LOCK_LOSS, HOLDOVER_ENTER and HOLDOVER_EXIT (R40, R44, R45): the DLL's lock shows in DLL_LOCKED; its loss clears lock, sets DLL_LOST and HOLDOVER; an absent REF_IN sets REF_LOST and HOLDOVER; counting resumes from the current device time. LOCK_GATE_END, FREQ_STD_ABSENT, FREQ_STD_RETURN, ACTIVITY_LOCK_DECLARE and OCXO_WARM_CHANGE (R41 to R43): enough good gates in a row declare lock and a bad one loses it; an absent FREQ_STD ends the gate and compare-mode lock; its return starts a new gate; in activity mode a present reference of the stated length locks; WARM follows its pin under WARM_POL. -/
def Obligations.ReferenceAndLock : Prop :=
  (∀ s : State, s.dev.on Reg.TB_STATUS 0 = false →
    ∃ t, exec .dllLock s = .next t ∧ t.dev.on Reg.TB_STATUS 0 = true ∧ t.dev.tb.refPresent = true ∧ t.dev.now = s.dev.now)
  ∧ (∀ s : State, s.dev.on Reg.TB_STATUS 0 = true →
    ∃ t, exec .dllLockLoss s = .next t ∧ t.dev.on Reg.TB_STATUS 0 = false ∧ t.dev.on Reg.TB_STATUS 1 = false
      ∧ t.dev.on Reg.TB_STATUS 10 = true ∧ t.dev.on Reg.TB_STATUS 6 = true ∧ t.dev.tb.gateOpen = false)
  ∧ (∀ s : State,
    ∃ t, exec .holdoverEnter s = .next t ∧ t.dev.tb.refPresent = false ∧ t.dev.on Reg.TB_STATUS 9 = true
      ∧ t.dev.on Reg.TB_STATUS 6 = true ∧ t.dev.on Reg.TB_STATUS 1 = false ∧ t.dev.on Reg.TB_STATUS 0 = false)
  ∧ (∀ s : State, s.dev.on Reg.TB_STATUS 6 = true → s.dev.on Reg.TB_STATUS 0 = true →
    ∃ t, exec .holdoverExit s = .next t ∧ t.dev.on Reg.TB_STATUS 6 = false ∧ t.dev.now = s.dev.now
      ∧ ∀ j, j ≠ Reg.TB_STATUS → t.dev.rd j = s.dev.rd j)
  ∧ (∀ (s : State) (count : Nat), s.dev.compareMode = true → s.dev.tb.gateOpen = true →
      (((count * 2 ^ 24 : Nat) : Int) - (s.dev.gateExpected : Int)).natAbs ≤ s.dev.gateWindow * 2 ^ 24 →
      s.dev.f Reg.TB_CTRL 28 4 ≤ s.dev.tb.goodGates + 1 → s.dev.on Reg.TB_STATUS 1 = false →
    ∃ t, exec (.lockGateEnd count) s = .next t ∧ t.dev.on Reg.TB_STATUS 1 = true ∧ t.dev.tb.goodGates = s.dev.tb.goodGates + 1
      ∧ t.dev.n (Reg.EV_SEQ 1480) = (s.dev.n (Reg.EV_SEQ 1480) + 1) % 2 ^ 32)
  ∧ (∀ (s : State) (count : Nat), s.dev.compareMode = true → s.dev.tb.gateOpen = true →
      s.dev.gateWindow * 2 ^ 24 < (((count * 2 ^ 24 : Nat) : Int) - (s.dev.gateExpected : Int)).natAbs → s.dev.on Reg.TB_STATUS 1 = true →
    ∃ t, exec (.lockGateEnd count) s = .next t ∧ t.dev.on Reg.TB_STATUS 1 = false ∧ t.dev.on Reg.TB_STATUS 8 = true
      ∧ t.dev.tb.goodGates = 0 ∧ t.dev.n (Reg.EV_SEQ 1480) = (s.dev.n (Reg.EV_SEQ 1480) + 1) % 2 ^ 32)
  ∧ (∀ s : State, s.dev.tb.freqPresent = true → s.dev.compareMode = true → s.dev.on Reg.TB_STATUS 1 = true →
    ∃ t, exec .freqStdAbsent s = .next t ∧ t.dev.tb.freqPresent = false ∧ t.dev.tb.gateOpen = false
      ∧ t.dev.on Reg.TB_STATUS 1 = false ∧ t.dev.on Reg.TB_STATUS 8 = true ∧ t.dev.now = s.dev.now)
  ∧ (∀ s : State, s.dev.tb.freqPresent = false →
    ∃ t, exec .freqStdReturn s = .next t ∧ t.dev.tb.freqPresent = true ∧ t.dev.tb.gateOpen = s.dev.on Reg.TB_STATUS 0
      ∧ t.dev.tb.goodGates = 0 ∧ ∀ j, t.dev.rd j = s.dev.rd j)
  ∧ (∀ s : State, s.dev.compareMode = false → s.dev.on Reg.TB_STATUS 0 = true → s.dev.tb.refPresent = true →
      elapsedNs s.dev.tb.refSince s.dev.up (s.dev.f Reg.TB_CTRL 28 4 * s.dev.f Reg.TB_CTRL 4 10 * 1000000) = true →
    ∃ t, exec .activityLockDeclare s = .next t ∧ t.dev.on Reg.TB_STATUS 1 = true
      ∧ ∀ j, j ≠ Reg.TB_STATUS → j ≠ Reg.EV_SEQ 1480 → t.dev.rd j = s.dev.rd j)
  ∧ (∀ (s : State) (level : Bool),
    ∃ t, exec (.ocxoWarmChange level) s = .next t ∧ t.dev.on Reg.TB_STATUS 3 = (level != s.dev.on Reg.TB_CTRL 2)
      ∧ (s.dev.on Reg.TB_STATUS 3 ≠ (level != s.dev.on Reg.TB_CTRL 2) →
          t.dev.n (Reg.EV_SEQ 1483) = (s.dev.n (Reg.EV_SEQ 1483) + 1) % 2 ^ 32)
      ∧ ∀ j, j ≠ Reg.TB_STATUS → j ≠ Reg.EV_SEQ 1483 → t.dev.rd j = s.dev.rd j)

/-- TIME_NOW_READ, TOD_ARM and TOD_CANCEL (R50 to R52): the first word of TIME_NOW answers with the low word of the device-time word and latches all four; arming sets TOD_ARMED; cancelling an armed set clears it with TOD_FAIL and reason 5. PPS_EDGE and PPS_MISSING_EXPIRE (R51 to R53, R66): of PPS_IN's edges only that of PPS_POL is a marker, the other changes nothing; an armed set whose staged values hold gives its PPS edge the staged second and PPS_FRAC, and takes the staged period; an unusable period refuses it with reason 3 and leaves device time; every edge is timed and sets PPS_SEEN; a window that passes without one sets PPS_MISSING with event 1484. -/
def Obligations.TimeSetting : Prop :=
  (∀ (s : State) (i : Ini), s.reaches i (Reg.TIME_NOW 0) .read = true →
    ∃ t, exec (.timeNowRead i) s = .next t
      ∧ t.dev.resp = ⟨true, BitVec.ofNat 32 (s.dev.timeWord 6 false s.dev.now).toNat⟩
      ∧ (∀ k : Fin 4, t.dev.n (Reg.TIME_NOW k.val) = fld (s.dev.timeWord 6 false s.dev.now) (32 * k.val) 32)
      ∧ (∀ j, (∀ k : Fin 4, j ≠ Reg.TIME_NOW k.val) → t.dev.rd j = s.dev.rd j) ∧ t.mem = s.mem)
  ∧ (∀ (s : State) (i : Ini), s.takes i Reg.TOD_CMD = true →
    ∃ t, exec (.todArm i) s = .next t ∧ t.dev.on Reg.TB_STATUS 4 = true ∧ t.dev.now = s.dev.now
      ∧ (∀ j, j ≠ Reg.TB_STATUS → t.dev.rd j = s.dev.rd j) ∧ t.mem = s.mem)
  ∧ (∀ (s : State) (i : Ini), s.takes i Reg.TOD_CMD = true → s.dev.on Reg.TB_STATUS 4 = true →
    ∃ t, exec (.todCancel i) s = .next t ∧ t.dev.on Reg.TB_STATUS 4 = false ∧ t.dev.on Reg.TB_STATUS 12 = true
      ∧ t.dev.n Reg.TOD_RESULT = 5 ∧ t.dev.now = s.dev.now ∧ t.mem = s.mem)
  ∧ (∀ (s : State) (rising : Bool) (back : Nat), rising ≠ s.dev.on Reg.TB_CTRL 3 → s.dev.on Reg.TB_STATUS 4 = true → s.dev.periodInvalid = false → s.dev.ratioMismatch = false →
      s.dev.now - back ≤ s.dev.todTarget →
    ∃ t, exec (.ppsEdge rising back) s = .next t ∧ t.dev.now = s.dev.todTarget + back
      ∧ t.dev.tb.period = s.dev.n64 Reg.PERIOD_LO Reg.PERIOD_HI ∧ t.dev.tb.remNum = s.dev.n Reg.REM_NUM
      ∧ t.dev.tb.remDen = s.dev.n Reg.REM_DEN ∧ t.dev.tb.ppsLast = some s.dev.todTarget ∧ t.mem = s.mem)
  ∧ (∀ (s : State) (rising : Bool) (back : Nat), rising ≠ s.dev.on Reg.TB_CTRL 3 → s.dev.on Reg.TB_STATUS 4 = true → s.dev.periodInvalid = true →
    ∃ t, exec (.ppsEdge rising back) s = .next t ∧ t.dev.now = s.dev.now ∧ t.dev.tb.period = s.dev.tb.period
      ∧ t.dev.n Reg.TOD_RESULT = 3 ∧ t.dev.on Reg.TB_STATUS 4 = false ∧ t.dev.on Reg.TB_STATUS 12 = true)
  ∧ (∀ (s : State) (rising : Bool) (back : Nat), rising ≠ s.dev.on Reg.TB_CTRL 3 → s.dev.on Reg.TB_STATUS 4 = false →
    ∃ t, exec (.ppsEdge rising back) s = .next t ∧ t.dev.now = s.dev.now ∧ t.dev.on Reg.TB_STATUS 2 = true
      ∧ t.dev.n64 Reg.PPS_SEC_LO Reg.PPS_SEC_HI = (s.dev.now - back) / 2 ^ 64 % 2 ^ 48
      ∧ t.dev.n64 Reg.PPS_RESID_LO Reg.PPS_RESID_HI = ppsResidual (s.dev.now - back) (s.dev.n64 Reg.PPS_FRAC_LO Reg.PPS_FRAC_HI)
      ∧ t.dev.tb.ppsLast = some (s.dev.now - back))
  ∧ (∀ (s : State) (rising : Bool) (back : Nat), rising = s.dev.on Reg.TB_CTRL 3 →
    ∃ t, exec (.ppsEdge rising back) s = .next t ∧ t.dev = s.dev ∧ t.mem = s.mem)
  ∧ (∀ (s : State) (due : Nat), s.dev.tb.ppsDue = some due → due ≤ s.dev.now → s.dev.on Reg.TB_STATUS 11 = false →
    ∃ t, exec .ppsMissingExpire s = .next t ∧ t.dev.on Reg.TB_STATUS 11 = true
      ∧ t.dev.n (Reg.EV_SEQ 1484) = (s.dev.n (Reg.EV_SEQ 1484) + 1) % 2 ^ 32 ∧ t.dev.tb.ppsDue = some (due + 2 ^ 64)
      ∧ ∀ j, j ≠ Reg.TB_STATUS → j ≠ Reg.EV_SEQ 1484 → t.dev.rd j = s.dev.rd j)

/-- OUTPUT_START, OUTPUT_STOP, DELAY_WALK_STEP, DIV_CHANGE_EFFECT and SYSREF_SHOTS_DONE (R56, R58): each changes its own output's state alone: running from a period start, stopped after its high phase, one fine step of delay in a period, the new divider with ALIGNED clear, parked after its shots. OUT_SYNC_CMD and OUT_SYNC_EXECUTE (R57): the command latches the instant and the mask; at the first edge at or after it, each masked output begins its first period in alignment, OUT_SYNC_LATE tells of a late command, and event 1486 is raised. -/
def Obligations.ClockOutputs : Prop :=
  (∀ (s : State) (n : Fin 12), s.dev.on (Reg.OUT_CFG n) 31 = true → (s.dev.outp n).running = false → (s.dev.outp n).parked = false →
      s.dev.periodStart n = true →
    ∃ t, exec (.outputStart n) s = .next t ∧ t.dev.outp n = (s.dev.outp n).start s.dev.tb.edges
      ∧ (∀ m : Fin 12, m ≠ n → t.dev.outp m = s.dev.outp m) ∧ (∀ j, t.dev.rd j = s.dev.rd j) ∧ t.dev.now = s.dev.now)
  ∧ (∀ (s : State) (n : Fin 12), s.dev.on (Reg.OUT_CFG n) 31 = false → (s.dev.outp n).running = true → s.dev.highPhase n = false →
    ∃ t, exec (.outputStop n) s = .next t ∧ t.dev.outp n = { s.dev.outp n with running := false }
      ∧ (∀ m : Fin 12, m ≠ n → t.dev.outp m = s.dev.outp m) ∧ (∀ j, t.dev.rd j = s.dev.rd j) ∧ t.dev.now = s.dev.now)
  ∧ (∀ (s : State) (n : Fin 12), s.dev.periodStart n = true → (s.dev.outp n).walked ≠ some s.dev.tb.edges → (s.dev.outp n).delay < s.dev.f (Reg.OUT_DELAY n) 0 14 →
    ∃ t, exec (.delayWalkStep n) s = .next t ∧ (t.dev.outp n).delay = (s.dev.outp n).delay + 1
      ∧ (∀ m : Fin 12, m ≠ n → t.dev.outp m = s.dev.outp m) ∧ ∀ j, t.dev.rd j = s.dev.rd j)
  ∧ (∀ (s : State) (n : Fin 12), s.dev.periodStart n = true → (s.dev.outp n).walked ≠ some s.dev.tb.edges → s.dev.f (Reg.OUT_DELAY n) 0 14 < (s.dev.outp n).delay →
    ∃ t, exec (.delayWalkStep n) s = .next t ∧ (t.dev.outp n).delay + 1 = (s.dev.outp n).delay
      ∧ (∀ m : Fin 12, m ≠ n → t.dev.outp m = s.dev.outp m) ∧ ∀ j, t.dev.rd j = s.dev.rd j)
  ∧ (∀ (s : State) (n : Fin 12), (s.dev.outp n).divm1 ≠ s.dev.f (Reg.OUT_CFG n) 0 12 → s.dev.periodStart n = true →
    ∃ t, exec (.divChangeEffect n) s = .next t ∧ (t.dev.outp n).divm1 = s.dev.f (Reg.OUT_CFG n) 0 12
      ∧ t.dev.on (Reg.OUT_CFG n) 19 = false ∧ (∀ m : Fin 12, m ≠ n → t.dev.outp m = s.dev.outp m)
      ∧ (n.val < 4 ∨ 9 < n.val ∨ s.dev.linkState (n.val - 4) ≠ 4 → ∀ j, j ≠ Reg.OUT_CFG n → t.dev.rd j = s.dev.rd j))
  ∧ (∀ (s : State) (n : Fin 12), s.dev.oneShot n = true → (s.dev.outp n).running = true →
      s.dev.shotLimit n ≤ s.dev.shotsOver n + b2n (!s.dev.highPhase n) →
    ∃ t, exec (.sysrefShotsDone n) s = .next t ∧ t.dev.outp n = { s.dev.outp n with running := false, parked := true }
      ∧ (∀ m : Fin 12, m ≠ n → t.dev.outp m = s.dev.outp m) ∧ ∀ j, t.dev.rd j = s.dev.rd j)
  ∧ (∀ (s : State) (i : Ini), s.takes i Reg.OUT_SYNC_CMD = true →
    ∃ t, exec (.outSyncCmd i) s = .next t ∧ t.dev.tb.syncAt = some (s.dev.n64 Reg.OUT_SYNC_AT_LO Reg.OUT_SYNC_AT_HI)
      ∧ t.dev.tb.syncMask = s.dev.f Reg.OUT_SYNC_MASK 0 12
      ∧ t.dev.tb.syncLate = decide (s.dev.n64 Reg.OUT_SYNC_AT_LO Reg.OUT_SYNC_AT_HI < shortTime s.dev.now)
      ∧ (∀ j, t.dev.rd j = s.dev.rd j) ∧ t.mem = s.mem)
  ∧ (∀ (s : State) (at_ : Nat), s.dev.tb.syncAt = some at_ → at_ ≤ shortTime s.dev.now → (s.dev.tb.syncLate = true → s.dev.tb.syncEdge < s.dev.tb.edges) →
    ∃ t, exec .outSyncExecute s = .next t ∧ t.dev.tb.syncAt = none
      ∧ (∀ n : Fin 12, s.dev.tb.syncMask.testBit n.val = true →
          t.dev.on (Reg.OUT_CFG n) 19 = true ∧ (t.dev.outp n).divm1 = s.dev.f (Reg.OUT_CFG n) 0 12
          ∧ (t.dev.outp n).t0 = s.dev.tb.edges ∧ (t.dev.outp n).running = s.dev.on (Reg.OUT_CFG n) 31)
      ∧ (∀ n : Fin 12, s.dev.tb.syncMask.testBit n.val = false → t.dev.outp n = s.dev.outp n ∧ t.dev.rd (Reg.OUT_CFG n) = s.dev.rd (Reg.OUT_CFG n))
      ∧ (s.dev.tb.syncLate = true → t.dev.on Reg.OUT_SYNC_LATE 0 = true)
      ∧ t.dev.n (Reg.EV_SEQ 1486) = (s.dev.n (Reg.EV_SEQ 1486) + 1) % 2 ^ 32)

/-- PTP_STAMP and PTP_TS_POP (R59, R61, R63): an event message, with its messageType and sequenceId, puts its identity and its medium time into the FIFO; one that finds it full is counted in PTP_DROPS; another frame changes nothing; a read of PTP_TS_ID pops the oldest stamp into the view. -/
def Obligations.PtpStamps : Prop :=
  (∀ (s : State) (tx : Bool) (frame : List (BitVec 8)) (back m q : Nat), ptpEvent frame = some (m, q) → s.dev.tb.ptp.length < 64 →
    ∃ t e, exec (.ptpStamp tx frame back) s = .next t ∧ t.dev.tb.ptp = s.dev.tb.ptp ++ [e]
      ∧ bit e.1 31 = true ∧ bit e.1 30 = tx ∧ fld e.1 24 4 = m ∧ fld e.1 0 16 = q
      ∧ e.2 = s.dev.timeWord 7 true (if tx then s.dev.now - back + psUnits (s.dev.n Reg.PTP_TX_LAT) else s.dev.now - back - psUnits (s.dev.n Reg.PTP_RX_LAT)))
  ∧ (∀ (s : State) (tx : Bool) (frame : List (BitVec 8)) (back m q : Nat), ptpEvent frame = some (m, q) → 64 ≤ s.dev.tb.ptp.length →
    ∃ t, exec (.ptpStamp tx frame back) s = .next t ∧ t.dev.tb.ptp = s.dev.tb.ptp ∧ t.dev.on Reg.TB_STATUS 13 = true
      ∧ t.dev.n Reg.PTP_DROPS = min (s.dev.n Reg.PTP_DROPS + 1) (2 ^ 32 - 1))
  ∧ (∀ (s : State) (tx : Bool) (frame : List (BitVec 8)) (back : Nat), ptpEvent frame = none →
    ∃ t, exec (.ptpStamp tx frame back) s = .next t ∧ t.dev = s.dev ∧ t.mem = s.mem)
  ∧ (∀ (s : State) (i : Ini) (id : Word) (w : Word128) (r : List (Word × Word128)),
      s.reaches i Reg.PTP_TS_ID .read = true → s.dev.tb.ptp = (id, w) :: r →
    ∃ t, exec (.ptpTsPop i) s = .next t ∧ t.dev.resp = ⟨true, id⟩ ∧ t.dev.tb.ptp = r ∧ t.dev.rd Reg.PTP_TS_ID = id
      ∧ ∀ k : Fin 4, t.dev.n (Reg.PTP_TS k.val) = fld w (32 * k.val) 32)

/-- CDR_LOCK, SYNC_HEADER_LOCK, EMB_LOCK and LINK_UP (R69, R82, R85, R91): bring-up goes CDR, SH_SEARCH, EMB_SEARCH, ALIGN, UP, each from the state before it, with REF_IN present: CDR at the lane rate of the setup, SH_SEARCH until every lane of it has locked with its coding, and never with another; a FEC or command channel restarts it; in subclass 1 a rising edge of SYSREF makes it UP, which sets LINK_UP, raises the port's event and starts the link-up calibration. -/
def Obligations.PortBringUp : Prop :=
  (∀ (s : State) (p : Fin 6) (num den : Nat), s.dev.linkState p = 1 → s.dev.tb.refPresent = true → den ≠ 0 →
      num * (portDiv (s.dev.portForce p) * portS (s.dev.portForce p) * 64)
        = den * (8 * portF (s.dev.portForce p) * portMul (s.dev.portForce p) * lineBits (s.dev.portForce p)) →
    ∃ t, exec (.cdrLock p num den) s = .next t ∧ t.dev.linkState p = 2 ∧ t.dev.on (Reg.PORT_STATUS p) 0 = false
      ∧ ∀ j, j ≠ Reg.LINK_STATE p → j ≠ Reg.PORT_STATUS p → t.dev.rd j = s.dev.rd j)
  ∧ (∀ (s : State) (p : Fin 6) (lane : Fin 24) (coding : Fin 3) (i : Nat), s.dev.linkState p = 2 → s.dev.tb.refPresent = true →
      logicalOf (s.dev.portForce p) lane = some i → coding ≠ 2 → coding.val = fld (wd (s.dev.portForce p) 0) 126 2 →
    ∃ t, exec (.syncHeaderLock p lane coding) s = .next t
      ∧ t.dev.linkState p = (if s.dev.f (Reg.LINK_STATE p) 0 24 ||| 2 ^ i = 2 ^ portL (s.dev.portForce p) - 1 then 3 else 2)
      ∧ t.dev.f (Reg.LINK_STATE p) 0 24 = (s.dev.f (Reg.LINK_STATE p) 0 24 ||| 2 ^ i) % 2 ^ 24
      ∧ ∀ j, j ≠ Reg.LINK_STATE p → j ≠ Reg.PORT_STATUS p → t.dev.rd j = s.dev.rd j)
  ∧ (∀ (s : State) (p : Fin 6) (lane : Fin 24) (coding : Fin 3), coding.val ≠ fld (wd (s.dev.portForce p) 0) 126 2 ∨ coding = 2 →
    ∃ t, exec (.syncHeaderLock p lane coding) s = .next t ∧ t.dev = s.dev ∧ t.mem = s.mem)
  ∧ (∀ (s : State) (p : Fin 6), s.dev.linkState p = 3 → s.dev.tb.refPresent = true → s.dev.sysrefOk p = true →
    ∃ t, exec (.embLock p false) s = .next t ∧ t.dev.linkState p = 4
      ∧ t.dev.f (Reg.LINK_STATE p) 0 24 = s.dev.f (Reg.LINK_STATE p) 0 24
      ∧ ∀ j, j ≠ Reg.LINK_STATE p → j ≠ Reg.PORT_STATUS p → t.dev.rd j = s.dev.rd j)
  ∧ (∀ (s : State) (p : Fin 6), s.dev.linkState p = 3 → s.dev.tb.refPresent = true →
    ∃ t, exec (.embLock p true) s = .next t ∧ t.dev.linkState p = 1 ∧ t.dev.on (Reg.PORT_STATUS p) 7 = true
      ∧ (t.dev.port p).open_ = true)
  ∧ (∀ (s : State) (p : Fin 6), s.dev.linkState p = 4 → s.dev.sysrefOk p = true → s.dev.tb.refPresent = true →
      (subclass1 (s.dev.portForce p) = true → s.dev.sysrefEdge p = true) →
    ∃ t, exec (.linkUp p) s = .next t ∧ t.dev.linkState p = 5 ∧ t.dev.on (Reg.PORT_STATUS p) 0 = true
      ∧ t.dev.on (Reg.PORT_STATUS p) 5 = true ∧ (t.dev.port p).open_ = false ∧ (t.dev.port p).emb = 0
      ∧ t.dev.n64 (Reg.LEMC_ANCHOR_LO p) (Reg.LEMC_ANCHOR_HI p) = shortTime (s.dev.anchorTime p)
      ∧ t.dev.n (Reg.EV_SEQ (1410 + 5 * p.val + 1)) = (s.dev.n (Reg.EV_SEQ (1410 + 5 * p.val + 1)) + 1) % 2 ^ 32)

/-- SH_LOCK_LOST, EMB_LOCK_LOST, ALIGN_SHIFT and LINK_RESTART_CMD (R71, R93, R99): on a lane that the setup names, and on an enabled link, each restarts it at CDR, opens the fault, sets the status bit of its cause, and the first cause since the clear stays in FAULT_CAUSE with its logical lane; a physical lane no logical lane names does nothing. EXT_MULTIBLOCK_RELEASE, OUTAGE_SPLIT and PORT_SWITCH_BOUNDARY (R83, R94, R95, R374): at its release instant, with every lane in time, an extended multiblock leaves the buffer of an UP link; a CRC fault is counted on its lane and loses no more, but the fourth of a lane within 16 multiblocks restarts the link; a lane later than RBD is ELASTIC_LATE; each millisecond of an outage moves the start of the loss and is one GAP record; a first setup comes into force at its boundary and starts bring-up. -/
def Obligations.PortFaultsAndData : Prop :=
  (∀ (s : State) (p : Fin 6) (lane : Fin 24) (i : Nat), s.dev.linkState p ≠ 0 → logicalOf (s.dev.portForce p) lane = some i →
    ∃ t, exec (.shLockLost p lane) s = .next t ∧ t.dev.linkState p = 1 ∧ t.dev.on (Reg.PORT_STATUS p) 0 = false
      ∧ t.dev.on (Reg.PORT_STATUS p) 7 = true ∧ (t.dev.port p).open_ = true
      ∧ t.dev.rd (Reg.FAULT_CAUSE p) = (if s.dev.rd (Reg.FAULT_CAUSE p) = 0 then BitVec.ofNat 32 (0x1000 + i) else s.dev.rd (Reg.FAULT_CAUSE p)))
  ∧ (∀ (s : State) (p : Fin 6) (lane : Fin 24) (i : Nat), s.dev.linkState p ≠ 0 → logicalOf (s.dev.portForce p) lane = some i →
    ∃ t, exec (.embLockLost p lane) s = .next t ∧ t.dev.linkState p = 1 ∧ t.dev.on (Reg.PORT_STATUS p) 0 = false
      ∧ t.dev.on (Reg.PORT_STATUS p) 7 = true ∧ (t.dev.port p).open_ = true
      ∧ t.dev.rd (Reg.FAULT_CAUSE p) = (if s.dev.rd (Reg.FAULT_CAUSE p) = 0 then BitVec.ofNat 32 (0x1100 + i) else s.dev.rd (Reg.FAULT_CAUSE p)))
  ∧ (∀ (s : State) (p : Fin 6) (lane : Fin 24) (i : Nat), s.dev.linkState p ≠ 0 → logicalOf (s.dev.portForce p) lane = some i →
    ∃ t, exec (.alignShift p lane) s = .next t ∧ t.dev.linkState p = 1 ∧ t.dev.on (Reg.PORT_STATUS p) 0 = false
      ∧ t.dev.on (Reg.PORT_STATUS p) 10 = true ∧ (t.dev.port p).open_ = true
      ∧ t.dev.rd (Reg.FAULT_CAUSE p) = (if s.dev.rd (Reg.FAULT_CAUSE p) = 0 then BitVec.ofNat 32 (0x1400 + i) else s.dev.rd (Reg.FAULT_CAUSE p)))
  ∧ (∀ (s : State) (p : Fin 6) (lane : Fin 24), logicalOf (s.dev.portForce p) lane = none →
    (∃ t, exec (.shLockLost p lane) s = .next t ∧ t.dev = s.dev) ∧ (∃ t, exec (.embLockLost p lane) s = .next t ∧ t.dev = s.dev)
      ∧ ∃ t, exec (.alignShift p lane) s = .next t ∧ t.dev = s.dev)
  ∧ (∀ (s : State) (i : Ini) (p : Fin 6), s.takes i (Reg.PORT_CMD p) = true → s.dev.linkState p ≠ 0 →
    ∃ t, exec (.linkRestartCmd i p) s = .next t ∧ t.dev.linkState p = 1 ∧ t.dev.on (Reg.PORT_STATUS p) 0 = false
      ∧ (t.dev.port p).open_ = true
      ∧ t.dev.rd (Reg.FAULT_CAUSE p) = (if s.dev.rd (Reg.FAULT_CAUSE p) = 0 then 0x191F else s.dev.rd (Reg.FAULT_CAUSE p)))
  ∧ (∀ (s : State) (p : Fin 6) (octets : List (List Nat)) (arrive : List Nat), s.dev.linkState p = 5 → (s.dev.port p).held = none →
      s.dev.releaseUp p (s.dev.port p).emb ≤ s.dev.up →
      (∀ j, j < portL (s.dev.portForce p) → nth arrive (laneMap (s.dev.portForce p) j) 0 ≤ s.dev.rbdTime p) →
    ∃ t, exec (.extMultiblockRelease p octets arrive []) s = .next t ∧ (t.dev.port p).emb = (s.dev.port p).emb + 1
      ∧ t.dev.linkState p = 5 ∧ t.dev.rd (Reg.FAULT_CAUSE p) = s.dev.rd (Reg.FAULT_CAUSE p))
  ∧ (∀ (s : State) (p : Fin 6) (octets : List (List Nat)) (arrive : List Nat) (l : Fin 24) (m : Nat), s.dev.linkState p = 5 → (s.dev.port p).held = none →
      s.dev.releaseUp p (s.dev.port p).emb ≤ s.dev.up →
      (∀ j, j < portL (s.dev.portForce p) → nth arrive (laneMap (s.dev.portForce p) j) 0 ≤ s.dev.rbdTime p) →
      l.val < portL (s.dev.portForce p) → m < portE (s.dev.portForce p) →
      (∀ j, j < portL (s.dev.portForce p) → laneMap (s.dev.portForce p) j = laneMap (s.dev.portForce p) l → j = l.val) →
      (crcNote ((s.dev.port p).crc.get (fun _ => []) l.val) ((s.dev.port p).emb * portE (s.dev.portForce p) + m)).length < 4 →
    ∃ t, exec (.extMultiblockRelease p octets arrive [(laneMap (s.dev.portForce p) l, m)]) s = .next t
      ∧ (t.dev.port p).emb = (s.dev.port p).emb + 1 ∧ t.dev.linkState p = 5 ∧ t.dev.on (Reg.PORT_STATUS p) 8 = true
      ∧ t.dev.n (Reg.LANE_CRC_ERR p l) = min (s.dev.n (Reg.LANE_CRC_ERR p l) + 1) (2 ^ 32 - 1))
  ∧ (∀ (s : State) (p : Fin 6) (octets : List (List Nat)) (arrive : List Nat) (l : Fin 24) (m : Nat), s.dev.linkState p = 5 → (s.dev.port p).held = none →
      s.dev.releaseUp p (s.dev.port p).emb ≤ s.dev.up →
      (∀ j, j < portL (s.dev.portForce p) → nth arrive (laneMap (s.dev.portForce p) j) 0 ≤ s.dev.rbdTime p) →
      l.val < portL (s.dev.portForce p) → m < portE (s.dev.portForce p) →
      (∀ j, j < portL (s.dev.portForce p) → laneMap (s.dev.portForce p) j = laneMap (s.dev.portForce p) l → j = l.val) →
      4 ≤ (crcNote ((s.dev.port p).crc.get (fun _ => []) l.val) ((s.dev.port p).emb * portE (s.dev.portForce p) + m)).length →
    ∃ t, exec (.extMultiblockRelease p octets arrive [(laneMap (s.dev.portForce p) l, m)]) s = .next t
      ∧ t.dev.linkState p = 1 ∧ t.dev.on (Reg.PORT_STATUS p) 7 = true ∧ (t.dev.port p).open_ = true)
  ∧ (∀ (s : State) (p : Fin 6) (octets : List (List Nat)) (arrive : List Nat) (bad : List (Nat × Nat)) (l : Nat), s.dev.linkState p = 5 → (s.dev.port p).held = none →
      s.dev.releaseUp p (s.dev.port p).emb ≤ s.dev.up →
      l < portL (s.dev.portForce p) → s.dev.rbdTime p < nth arrive (laneMap (s.dev.portForce p) l) 0 →
    ∃ t, exec (.extMultiblockRelease p octets arrive bad) s = .next t ∧ t.dev.linkState p = 1
      ∧ t.dev.on (Reg.PORT_STATUS p) 9 = true ∧ (t.dev.port p).open_ = true ∧ (t.dev.port p).emb = (s.dev.port p).emb)
  ∧ (∀ (s : State) (k : Fin 48) (t0 : Nat), (s.dev.stream k).gapFrom = some t0 → elapsedNs t0 s.dev.now 1000000 = true →
      (s.dev.port (k.val / 8)).open_ = true →
    ∃ t, exec (.outageSplit k) s = .next t ∧ (t.dev.stream k).gapFrom = some (t0 + nsUnits 1000000)
      ∧ t.dev.n (Reg.GAP_COUNT (k.val / 8)) = min (s.dev.n (Reg.GAP_COUNT (k.val / 8)) + 1) (2 ^ 32 - 1)
      ∧ (t.dev.outOf k).length = (s.dev.outOf k).length + 1
      ∧ (∀ j, keyBlock j ≠ 2 + k.val / 8 → keyBlock j ≠ 0x23 → keyBlock j ≠ keyBlock (Reg.EV_SEQ 0) → t.dev.rd j = s.dev.rd j)
      ∧ t.mem = s.mem)
  ∧ (∀ (s : State) (p : Fin 6) (g : Grp) (k : Nat), s.dev.portDue p = true → s.dev.dueGroup (48 + p) = some (g, k) → k < 16 →
      s.dev.slotIn (48 + p) 3 = none → s.dev.portLanesReady p g.teff (s.dev.slot (48 + p) k).words = true →
    ∃ t, exec (.portSwitchBoundary p) s = .next t ∧ t.dev.linkState p = 1
      ∧ t.dev.portForce p = (s.dev.slot (48 + p) k).words ∧ t.dev.swOf (48 + p) = (s.dev.swOf (48 + p) + 1) % 2 ^ 28)

/-- PORT_EQ_CAL, EQ_CAL_AUTO_START, EQ_CAL_DEFERRED_RUN and PORT_CLEAR_COUNTS (R91, R92, R98): a calibration starts on an UP link that runs none, and waits otherwise; a temperature move beyond EQ_TDELTA starts one; a waiting one runs once the link is UP; the counts and FAULT_CAUSE clear. EQ_ADAPT_END, EQ_SWAP, EQ_REVERT, LANE_EQ_WRITE and LANE_EQ_APPLY (R91, R92, R98): a calibration whose every lane fails its eye limit ends at adaptation, one that passes waits for a nominated boundary 2 µs later with no setup switch on it and ends there; at a nominated boundary a lane that erred after a swap gets its previous eye and code back, and a staged code comes into force; a code whose check holds is staged, another sets LOST. -/
def Obligations.PortEqualisers : Prop :=
  (∀ (s : State) (i : Ini) (p : Fin 6), s.takes i (Reg.PORT_CMD p) = true → s.dev.linkState p = 5 → s.dev.on (Reg.PORT_STATUS p) 5 = false →
    ∃ t, exec (.portEqCal i p) s = .next t ∧ t.dev.on (Reg.PORT_STATUS p) 5 = true ∧ (t.dev.port p).eqAdapted = false
      ∧ (t.dev.port p).eqDeferred = (s.dev.port p).eqDeferred)
  ∧ (∀ (s : State) (i : Ini) (p : Fin 6), s.takes i (Reg.PORT_CMD p) = true → s.dev.linkState p ≠ 5 →
    ∃ t, exec (.portEqCal i p) s = .next t ∧ (t.dev.port p).eqDeferred = true ∧ ∀ j, t.dev.rd j = s.dev.rd j)
  ∧ (∀ (s : State) (p : Fin 6), s.dev.on (Reg.EQ_CTRL p) 31 = true →
      tempMoved s.dev.dieQ (s.dev.port p).eqTemp (s.dev.f (Reg.EQ_CTRL p) 0 6 + 1) = true → s.dev.linkState p = 5 → s.dev.on (Reg.PORT_STATUS p) 5 = false →
    ∃ t, exec (.eqCalAutoStart p) s = .next t ∧ t.dev.on (Reg.PORT_STATUS p) 5 = true ∧ (t.dev.port p).eqTemp = s.dev.dieQ)
  ∧ (∀ (s : State) (p : Fin 6), (s.dev.port p).eqDeferred = true → s.dev.linkState p = 5 → s.dev.on (Reg.PORT_STATUS p) 5 = false →
    ∃ t, exec (.eqCalDeferredRun p) s = .next t ∧ t.dev.on (Reg.PORT_STATUS p) 5 = true ∧ (t.dev.port p).eqDeferred = false)
  ∧ (∀ (s : State) (i : Ini) (p : Fin 6), s.takes i (Reg.PORT_CMD p) = true →
    ∃ t, exec (.portClearCounts i p) s = .next t ∧ t.dev.rd (Reg.GAP_COUNT p) = 0 ∧ t.dev.rd (Reg.SAT_COUNT p) = 0
      ∧ t.dev.rd (Reg.FAULT_CAUSE p) = 0 ∧ (∀ l : Fin 24, t.dev.rd (Reg.LANE_CRC_ERR p l) = 0)
      ∧ t.dev.rd (Reg.PORT_STATUS p) = s.dev.rd (Reg.PORT_STATUS p))
  ∧ (∀ (s : State) (p : Fin 6) (eyes : List Nat), s.dev.on (Reg.PORT_STATUS p) 5 = true → (s.dev.port p).eqAdapted = false →
      (∀ l, l < portL (s.dev.portForce p) → nth eyes l 0 < s.dev.f (Reg.EQ_CTRL p) 16 10) →
    ∃ t, exec (.eqAdaptEnd p eyes) s = .next t ∧ t.dev.on (Reg.PORT_STATUS p) 5 = false ∧ t.dev.on (Reg.PORT_STATUS p) 13 = true
      ∧ t.dev.n (Reg.EQ_CAL_COUNT p) = (s.dev.n (Reg.EQ_CAL_COUNT p) + 1) % 2 ^ 32)
  ∧ (∀ (s : State) (p : Fin 6) (eyes : List Nat), s.dev.on (Reg.PORT_STATUS p) 5 = true → (s.dev.port p).eqAdapted = false →
      (∀ l, l < portL (s.dev.portForce p) → s.dev.f (Reg.EQ_CTRL p) 16 10 ≤ nth eyes l 0) →
    ∃ t, exec (.eqAdaptEnd p eyes) s = .next t ∧ t.dev.on (Reg.PORT_STATUS p) 5 = true ∧ (t.dev.port p).eqAdapted = true
      ∧ (t.dev.port p).eqAt = s.dev.up ∧ (t.dev.port p).eqPass = List.range (portL (s.dev.portForce p)) ∧ ∀ j, t.dev.rd j = s.dev.rd j)
  ∧ (∀ (s : State) (p : Fin 6) (b j : Nat), s.dev.nominated p = some (b, j) → (s.dev.port p).eqAdapted = true →
      elapsedNs (s.dev.port p).eqAt (b - s.dev.tb.jump) 2000 = true → s.dev.switchAt p b = false → (∀ l ∈ (s.dev.port p).eqPass, l < 24) →
    ∃ t, exec (.eqSwap p) s = .next t ∧ t.dev.on (Reg.PORT_STATUS p) 5 = false ∧ (t.dev.port p).eqAdapted = false
      ∧ (t.dev.port p).eqFresh = (s.dev.port p).eqPass
      ∧ t.dev.n (Reg.EQ_CAL_COUNT p) = (s.dev.n (Reg.EQ_CAL_COUNT p) + 1) % 2 ^ 32
      ∧ t.dev.n64 (Reg.EQ_CAL_TIME_LO p) (Reg.EQ_CAL_TIME_HI p) = shortTime b)
  ∧ (∀ (s : State) (p : Fin 6) (l : Fin 24) (eye : Nat) (code : Word), l.val ∈ (s.dev.port p).eqRevert → (s.dev.nominated p).isSome = true →
      (s.dev.port p).eqPrev.get (fun _ => none) l = some (eye, code) →
    ∃ t, exec (.eqRevert p l) s = .next t ∧ t.dev.rd (Reg.LANE_EQ p l) = code ∧ t.dev.rd (Reg.LANE_EYE p l) = BitVec.ofNat 32 eye
      ∧ t.dev.on (Reg.PORT_STATUS p) 12 = true ∧ l.val ∉ (t.dev.port p).eqRevert)
  ∧ (∀ (s : State) (i : Ini) (p : Fin 6) (l : Fin 24) (data : Word), s.takes i (Reg.LANE_EQ p l) = true →
    ∃ t, exec (.laneEqWrite i p l data) s = .next t
      ∧ (t.dev.port p).eqStaged.get (fun _ => none) l.val =
          (if eqCodeOk p l data = true then some data else (s.dev.port p).eqStaged.get (fun _ => none) l.val)
      ∧ (eqCodeOk p l data = false → t.dev.on (Reg.PORT_STATUS p) 14 = true)
      ∧ t.dev.rd (Reg.LANE_EQ p l) = s.dev.rd (Reg.LANE_EQ p l))
  ∧ (∀ (s : State) (p : Fin 6) (l : Fin 24) (c : Word), (s.dev.port p).eqStaged.get (fun _ => none) l.val = some c → (s.dev.nominated p).isSome = true →
    ∃ t, exec (.laneEqApply p l) s = .next t ∧ t.dev.rd (Reg.LANE_EQ p l) = c
      ∧ (t.dev.port p).eqStaged.get (fun _ => none) l.val = none ∧ ∀ j, j ≠ Reg.LANE_EQ p l → t.dev.rd j = s.dev.rd j)

/-- FRAME_COMPUTE, LANE_OVERRUN_RESUME and NO_LANE_GAP (R115, R126, R133): a lane whose frame's samples are all there, not all of them fill, counts the frame and goes on to its next one; an overrun run ends with its GAP once the lane's buffer holds less than 65,536 samples; a lane out of service writes a GAP for each millisecond. LANE_SWITCH_BOUNDARY (R108, R363): a first lane setup that is due takes force, its slot becomes the target's one slot in force, and SWITCHES advances. -/
def Obligations.LaneFrames : Prop :=
  (∀ (s : State) (l : Fin 48) (mismatch : Bool) (smp : List Smp), (s.dev.lane (s.dev.governing l)).gridOn = true → s.dev.laneWanted l = true →
      s.dev.laneNib l ≠ 15 → (s.dev.lane l).lostFrom = none → (s.dev.lane l).overFrom = none → (s.dev.stream (s.dev.governing l)).shed = false → s.dev.handoverDue l = false →
      s.dev.dueGroup (s.dev.governing l) = none → s.dev.dueGroup (48 + s.dev.governing l / 8) = none →
      (s.dev.fillNow (l / 8)).frameSamples (s.dev.governing l) (s.dev.frameStart (s.dev.governing l) (s.dev.lane l).next) (laneN (s.dev.laneForce l)) = some smp →
      (smp.all fun x => x.fill ≠ 0) = false →
    ∃ t, exec (.frameCompute l mismatch) s = .next t
      ∧ t.dev.n (Reg.LANE_FRAMES (l / 12) (l % 12)) = (s.dev.n (Reg.LANE_FRAMES (l / 12) (l % 12)) + 1) % 2 ^ 32
      ∧ (t.dev.lane l).next = (s.dev.lane l).next + (s.dev.members (s.dev.governing l)).length ∧ t.dev.now = s.dev.now)
  ∧ (∀ (s : State) (l : Fin 48) (t0 : Nat), (s.dev.lane l).overFrom = some t0 →
      (s.dev.stream (s.dev.governing l)).next < s.dev.frameStart (s.dev.governing l) (s.dev.lane l).next + 65536 →
    ∃ t, exec (.laneOverrunResume l) s = .next t ∧ (t.dev.lane l).overFrom = none
      ∧ (t.dev.outOf (48 + l)).length = (s.dev.outOf (48 + l)).length + 1 ∧ (t.dev.lane l).next = (s.dev.lane l).next ∧ ∀ j, t.dev.rd j = s.dev.rd j)
  ∧ (∀ (s : State) (l : Fin 48) (t0 : Nat), (s.dev.lane l).oosFrom = some t0 → elapsedNs t0 s.dev.now 1000000 = true →
    ∃ t, exec (.noLaneGap l) s = .next t ∧ (t.dev.lane l).oosFrom = some (t0 + nsUnits 1000000)
      ∧ (t.dev.outOf (48 + l)).length = (s.dev.outOf (48 + l)).length + 1 ∧ ∀ j, t.dev.rd j = s.dev.rd j)
  ∧ (∀ (s : State) (l : Fin 48) (g : Grp) (k : Nat), s.dev.laneDue l = true → s.dev.dueGroup l = some (g, k) → k < 16 → s.dev.slotIn l 3 = none →
    ∃ t, exec (.laneSwitchBoundary l) s = .next t ∧ t.dev.force l = (s.dev.slot l k).words ∧ (t.dev.slot l k).st = 3
      ∧ t.dev.swOf l = (s.dev.swOf l + 1) % 2 ^ 28 ∧ ∀ m : Fin 48, m ≠ l → t.dev.force m = s.dev.force m)

/-- ROTATION_START, ROTATION_HANDOVER, SPARE_FAULT, SPARE_KAT_START and SPARE_KAT_END (R129 to R131, R429): a rotation shadows the next lane in use; once its frames are over, the tested spare runs the lane and the relieved one is the spare; a spare that faults under a shadow, or fails its tests, is retired. LANE_FAULT and LANE_TAKEOVER (R132, R133): a faulted lane in use is retired; with a physical lane left it waits for a takeover from its next frame, behind those that faulted before it, and without one its logical lane is OUT_OF_SERVICE; the spare then runs the first that waits, with the GAP of what it lost. -/
def Obligations.LaneSparing : Prop :=
  (∀ (s : State) (g : Fin 4) (l : Nat), s.dev.nextRelieved g = some l → s.dev.rotEnabled = true → s.dev.derated = false →
      s.dev.spareOf g ≠ 15 → (s.dev.group g).katOk = true → (s.dev.group g).shadow = none → (s.dev.group g).takeover = [] →
      (s.dev.lane (s.dev.governing l)).gridOn = true → s.dev.on (Reg.DET_STATUS g) 1 = false → ((s.dev.group g).rotAt = 0 ∨ elapsedNs (s.dev.group g).rotAt s.dev.up (s.dev.f Reg.SEEP_CTRL 0 12 * 1000000000) = true) →
      s.dev.switchBefore g (s.dev.tagOf (s.dev.governing l)
        (s.dev.frameStart (s.dev.governing l) ((s.dev.lane l).next + 2 ^ fld (wd (s.dev.force (s.dev.governing l)) 0) 116 3 - 1) + laneN (s.dev.force (s.dev.governing l)))) = false →
    ∃ t, exec (.rotationStart g) s = .next t ∧ t.dev.on (Reg.GRP_STATUS g) 1 = true ∧ (t.dev.group g).rotAt = s.dev.up
      ∧ (∃ sh, (t.dev.group g).shadow = some sh ∧ sh.lane = l ∧ sh.first = (s.dev.lane l).next
        ∧ sh.stop = (s.dev.lane l).next + 2 ^ fld (wd (s.dev.force (s.dev.governing l)) 0) 116 3 ∧ sh.cut = false)
      ∧ ∀ j, j ≠ Reg.GRP_STATUS g → t.dev.rd j = s.dev.rd j)
  ∧ (∀ (s : State) (g : Fin 4) (sh : Shadow), (s.dev.group g).shadow = some sh → sh.stop ≤ (s.dev.lane sh.lane).next → sh.mismatch = false → sh.cut = false →
      sh.lane / 12 = g.val → s.dev.laneNib sh.lane ≠ 15 →
    ∃ t, exec (.rotationHandover g) s = .next t ∧ t.dev.laneNib sh.lane = s.dev.spareOf g ∧ t.dev.spareOf g = s.dev.laneNib sh.lane
      ∧ (t.dev.group g).shadow = none ∧ (t.dev.group g).katOk = false
      ∧ t.dev.n (Reg.ROT_COUNT g) = min (s.dev.n (Reg.ROT_COUNT g) + 1) (2 ^ 32 - 1)
      ∧ t.dev.n64 (Reg.ROT_TIME_LO g) (Reg.ROT_TIME_HI g) = shortTime s.dev.now)
  ∧ (∀ (s : State) (g : Fin 4) (sh : Shadow), (s.dev.group g).shadow = some sh →
    ∃ t, exec (.spareFault g) s = .next t ∧ (t.dev.group g).shadow = none ∧ t.dev.spareOf g = 15
      ∧ t.dev.on (Reg.GRP_RETIRED g) (s.dev.spareOf g) = true ∧ t.dev.on (Reg.GRP_STATUS g) 4 = true
      ∧ t.dev.sump.reports.length = s.dev.sump.reports.length + 1)
  ∧ (∀ (s : State) (g : Fin 4), s.dev.spareOf g ≠ 15 → (s.dev.group g).shadow = none → (s.dev.group g).katRun = false →
    ∃ t, exec (.spareKatStart g) s = .next t ∧ (t.dev.group g).katRun = true ∧ (t.dev.group g).katOk = false ∧ ∀ j, t.dev.rd j = s.dev.rd j)
  ∧ (∀ (s : State) (g : Fin 4), (s.dev.group g).katRun = true →
    ∃ t, exec (.spareKatEnd g true) s = .next t ∧ (t.dev.group g).katRun = false ∧ (t.dev.group g).katOk = true ∧ ∀ j, t.dev.rd j = s.dev.rd j)
  ∧ (∀ (s : State) (g : Fin 4), (s.dev.group g).katRun = true →
    ∃ t, exec (.spareKatEnd g false) s = .next t ∧ (t.dev.group g).katRun = false ∧ (t.dev.group g).katOk = false ∧ t.dev.spareOf g = 15
      ∧ t.dev.on (Reg.GRP_RETIRED g) (s.dev.spareOf g) = true
      ∧ t.dev.n Reg.KAT_FAILS = min (s.dev.n Reg.KAT_FAILS + 1) (2 ^ 32 - 1))
  ∧ (∀ (s : State) (phys : Fin 52) (l : Nat), (groupLanes (phys / 13)).find? (fun m => s.dev.laneNib m = phys % 13) = some l →
      s.dev.laneWanted l = true → (s.dev.lane l).lostFrom = none → (s.dev.group (phys / 13)).shadow = none → s.dev.takeable (phys / 13) ≠ 0 →
    ∃ t, exec (.laneFault phys) s = .next t ∧ t.dev.on (Reg.GRP_RETIRED (phys / 13)) (phys % 13) = true
      ∧ t.dev.on (Reg.GRP_STATUS (phys / 13)) 4 = true ∧ (t.dev.group (phys / 13)).takeover = (s.dev.group (phys / 13)).takeover ++ [(l, s.dev.now)]
      ∧ (t.dev.lane l).lostFrom.isSome = true ∧ t.dev.sump.reports.length = s.dev.sump.reports.length + 1)
  ∧ (∀ (s : State) (phys : Fin 52) (l : Nat), (groupLanes (phys / 13)).find? (fun m => s.dev.laneNib m = phys % 13) = some l →
      s.dev.laneWanted l = true → (s.dev.lane l).lostFrom = none → (s.dev.group (phys / 13)).shadow = none → s.dev.takeable (phys / 13) = 0 →
    ∃ t, exec (.laneFault phys) s = .next t ∧ t.dev.on (Reg.GRP_RETIRED (phys / 13)) (phys % 13) = true
      ∧ t.dev.laneNib l = 15 ∧ t.dev.on (Reg.GRP_STATUS (phys / 13)) 7 = true
      ∧ t.dev.sump.reports.length = s.dev.sump.reports.length + 1)
  ∧ (∀ (s : State) (g : Fin 4) (l t0 t1 : Nat) (rest : List (Nat × Nat)), (s.dev.group g).takeover = (l, t1) :: rest → (s.dev.lane l).lostFrom = some t0 →
      l / 12 = g.val → s.dev.spareOf g ≠ 15 →
    ∃ t, exec (.laneTakeover g) s = .next t ∧ t.dev.laneNib l = s.dev.spareOf g ∧ t.dev.spareOf g = 15
      ∧ (t.dev.lane l).lostFrom = none ∧ (t.dev.group g).takeover = rest
      ∧ (t.dev.outOf (48 + l)).length = (s.dev.outOf (48 + l)).length + 1)

/-- DET_PARITY, DENS_PARITY, FLAT_VERIFY, FLAT_VERIFY_AUTO_START, FLAT_VERIFY_END and DET_CLEAR_COUNTS (R167 to R171, R211): a parity error spoils the reduction or the epoch in progress with its event; a verification starts with a spare and the device not derated, on a command, for a moved temperature or as a deferred one, and ends with the residual of a combination in force; the counts clear. -/
def Obligations.DetectorService : Prop :=
  (∀ (s : State) (l : Fin 48), ∃ t, exec (.detParity l) s = .next t ∧ t.dev.on (Reg.DET_STATUS (l / 12)) 6 = true
      ∧ ((s.dev.det (s.dev.governing l)).opened = true → l.val ∈ (t.dev.det (s.dev.governing l)).hits)
      ∧ t.dev.now = s.dev.now)
  ∧ (∀ (s : State) (l : Fin 48), ∃ t, exec (.densParity l) s = .next t ∧ t.dev.on (Reg.DENS_STATUS (l / 12)) 3 = true
      ∧ ((s.dev.den (s.dev.governing l)).run.isSome = true → l.val ∈ (t.dev.den (s.dev.governing l)).hits)
      ∧ t.dev.now = s.dev.now)
  ∧ (∀ (s : State) (i : Ini) (g : Fin 4), s.reaches i (Reg.DET_CMD g) .write = true → s.dev.on (Reg.DET_STATUS g) 1 = false →
      s.dev.on (Reg.DET_STATUS g) 8 = false → s.dev.derated = false → s.dev.spareOf g ≠ 15 →
    ∃ t, exec (.flatVerify i g) s = .next t ∧ t.dev.on (Reg.DET_STATUS g) 1 = true ∧ ∀ j, j ≠ Reg.DET_STATUS g → t.dev.rd j = s.dev.rd j)
  ∧ (∀ (s : State) (g : Fin 4) (temp : Int), s.dev.on (Reg.DET_STATUS g) 1 = false → s.dev.on (Reg.DET_STATUS g) 8 = false →
      (s.dev.flat g).temp = some temp → s.dev.on (Reg.FLAT_CTRL g) 31 = true →
      tempMoved s.dev.dieQ temp (s.dev.f (Reg.FLAT_CTRL g) 24 6 + 1) = true → s.dev.derated = false → s.dev.spareOf g ≠ 15 →
    ∃ t, exec (.flatVerifyAutoStart g) s = .next t ∧ t.dev.on (Reg.DET_STATUS g) 1 = true ∧ ∀ j, j ≠ Reg.DET_STATUS g → t.dev.rd j = s.dev.rd j)
  ∧ (∀ (s : State) (g : Fin 4), s.dev.on (Reg.DET_STATUS g) 1 = false → s.dev.on (Reg.DET_STATUS g) 8 = true → s.dev.derated = false → s.dev.spareOf g ≠ 15 →
    ∃ t, exec (.flatVerifyAutoStart g) s = .next t ∧ t.dev.on (Reg.DET_STATUS g) 1 = true ∧ t.dev.on (Reg.DET_STATUS g) 8 = false
      ∧ ∀ j, j ≠ Reg.DET_STATUS g → t.dev.rd j = s.dev.rd j)
  ∧ (∀ (s : State) (g : Fin 4) (form : Bool) (dec resid : Nat), s.dev.on (Reg.DET_STATUS g) 1 = true → s.dev.flatInForce g form dec = true →
      (s.dev.flat g).again = false →
    ∃ t, exec (.flatVerifyEnd g form dec resid) s = .next t ∧ t.dev.on (Reg.DET_STATUS g) 1 = false
      ∧ t.dev.f (Reg.FLAT_RESID g) 0 16 = min resid 0xFFFF ∧ t.dev.f (Reg.FLAT_RESID g) 16 5 = dec % 32
      ∧ t.dev.n (Reg.FLAT_VER_COUNT g) = (s.dev.n (Reg.FLAT_VER_COUNT g) + 1) % 2 ^ 32
      ∧ (s.dev.f (Reg.FLAT_CTRL g) 0 16 < resid → t.dev.on (Reg.DET_STATUS g) 7 = true))
  ∧ (∀ (s : State) (i : Ini) (g : Fin 4), s.reaches i (Reg.DET_CMD g) .write = true →
    ∃ t, exec (.detClearCounts i g) s = .next t ∧ t.dev.rd (Reg.DET_SKIPS g) = 0
      ∧ ∀ k : Fin 12, t.dev.rd (Reg.DET_EXC g k) = 0 ∧ t.dev.rd (Reg.DET_SKF g k) = 0)

/-- FABRIC_PULSE_ARRIVAL (R184, R185, R187): a waiting pulse of a source that has not pulsed in the present step makes each TRIG pin that selects it active for WIDTH + 1 periods, and fires each sequencer of mode 0 and COUNT 0 whose LINE_A selects it; device time stays. QS_WINDOW_EXPIRE, QS_HOLDOFF_END, TRIG_PIN_RELEASE and BLANK_RELEASE (R185, R187, R188): at its end a window fires its sequencer, but for the mode that wanted a second pulse; a holdoff ends; a pin leaves its active level; a blanking pin clears its status bit with its event. -/
def Obligations.FabricPulses : Prop :=
  (∀ (s : State) (c : Nat) (n : Fin 8), (s.dev.pulses.any fun p => p.code = c) = true → (s.dev.fabNow.fab.seen.any fun p => p.code = c) = false →
      s.dev.fbOn (Reg.TRIG_CFG n) 31 = true →
      s.dev.fbf (Reg.TRIG_CFG n) 20 9 = c →
    ∃ t, exec (.fabricPulseArrival [c]) s = .next t
      ∧ t.dev.trigUntil n = some (s.dev.tb.edges + s.dev.fbf (Reg.TRIG_CFG n) 0 16 + 1) ∧ t.dev.now = s.dev.now)
  ∧ (∀ (s : State) (c : Nat) (q : Fin 8) (n : Fin 64), (s.dev.pulses.any fun p => p.code = c) = true → s.dev.linePulse s.dev.fabNow.fab.seen n = none → s.dev.fbOn (Reg.LINE_CFG n) 31 = true →
      s.dev.fbf (Reg.LINE_CFG n) 10 9 = c → s.dev.fbOn (Reg.QS_CFG q) 31 = true → s.dev.fbf (Reg.QS_CFG q) 8 6 = n.val →
      s.dev.qsMode q = 0 → s.dev.fbf (Reg.QS_COUNT q) 0 16 = 0 → (s.dev.qs q).win = none → (s.dev.qs q).hold = none → (s.dev.qs q).count = 0 →
    ∃ t, exec (.fabricPulseArrival [c]) s = .next t ∧ t.dev.n (Reg.QS_FIRES q) = (s.dev.n (Reg.QS_FIRES q) + 1) % 2 ^ 32
      ∧ (t.dev.qs q).count = 0
      ∧ (t.dev.qs q).hold = (if s.dev.fbf (Reg.QS_HOLDOFF q) 0 24 = 0 then none else some s.dev.tb.edges))
  ∧ (∀ (s : State) (q : Fin 8) (t0 : Nat) (p : Pulse), (s.dev.qs q).win = some (t0, p) → s.dev.passed t0 (s.dev.qsWindow q) = true → s.dev.qsMode q ≠ 1 →
    ∃ t, exec (.qsWindowExpire q) s = .next t ∧ (t.dev.qs q).win = none ∧ t.dev.n (Reg.QS_FIRES q) = (s.dev.n (Reg.QS_FIRES q) + 1) % 2 ^ 32
      ∧ t.dev.pulses = s.dev.pulses ++ [{ p with code := 456 + q.val }])
  ∧ (∀ (s : State) (q : Fin 8) (t0 : Nat) (p : Pulse), (s.dev.qs q).win = some (t0, p) → s.dev.passed t0 (s.dev.qsWindow q) = true → s.dev.qsMode q = 1 →
    ∃ t, exec (.qsWindowExpire q) s = .next t ∧ (t.dev.qs q).win = none ∧ (t.dev.qs q).count = 0 ∧ t.dev.pulses = s.dev.pulses ∧ ∀ j, t.dev.rd j = s.dev.rd j)
  ∧ (∀ (s : State) (q : Fin 8) (t0 : Nat), (s.dev.qs q).hold = some t0 → s.dev.passed t0 (s.dev.fbf (Reg.QS_HOLDOFF q) 0 24) = true →
    ∃ t, exec (.qsHoldoffEnd q) s = .next t ∧ t.dev.qs q = { s.dev.qs q with hold := none } ∧ ∀ j, t.dev.rd j = s.dev.rd j)
  ∧ (∀ (s : State) (n : Fin 8) (e : Nat), s.dev.trigUntil n = some e → e ≤ s.dev.tb.edges →
    ∃ t, exec (.trigPinRelease n) s = .next t ∧ t.dev.trigUntil n = none ∧ t.dev.trigPin n = s.dev.fbOn (Reg.TRIG_CFG n) 30 ∧ ∀ j, t.dev.rd j = s.dev.rd j)
  ∧ (∀ (s : State) (k : Fin 4) (e : Nat) (p : Pulse), (s.dev.blank k).until_ = some e → e ≤ s.dev.tb.edges → (s.dev.blank k).last = some p →
    ∃ t, exec (.blankRelease k) s = .next t ∧ (t.dev.blank k).until_ = none ∧ t.dev.on Reg.FAB_STATUS k = false
      ∧ t.dev.blankPin k = s.dev.fbOn (Reg.BLANK_CFG k) 30
      ∧ t.dev.n (Reg.EV_SEQ (1368 + k.val)) = (s.dev.n (Reg.EV_SEQ (1368 + k.val)) + 1) % 2 ^ 32)

/-- TIMER_PULSE, SW_TRIG, FAB_COMMIT, FAB_CANCEL_COMMIT and FAB_COMMIT_TAKE (R183, R198): a due timer and the software trigger pulse their sources; a commit is armed for COMMIT_AT and can be cancelled; at its edge every pending register of the bank takes force, COMMITS counts and event 1374 is raised. XT_FRAME_START, XT_FRAME_END, XT_LOCAL_PULSE, XT_FRAME_RECEIVE and XT_RX_PULSE (R192 to R194): a waiting pulse starts a frame on a free line at an edge after its own; a readback mismatch counts a collision and sets XT_ERR; a frame pulses its source at its due time, here and at the receiver; an even number of ones is taken, an odd one is a parity error. -/
def Obligations.FabricCommitAndCrossTrigger : Prop :=
  (∀ (s : State) (m : Fin 8) (at_ : TimerSt), s.dev.fab.timers.get (fun _ => none) m = some at_ → at_.at_ ≤ s.dev.now → at_.edge ≤ s.dev.tb.edges →
    ∃ t p, exec (.timerPulse m) s = .next t ∧ t.dev.pulses = s.dev.pulses ++ [p] ∧ p.code = 464 + m.val ∧ p.cause = s.dev.now
      ∧ t.dev.fab.timers.get (fun _ => none) m
          = (if s.dev.fbf (Reg.TM_CFG m) 0 24 = 0 then none else some ⟨0, s.dev.tb.edges + s.dev.fbf (Reg.TM_CFG m) 0 24⟩)
      ∧ ∀ j, t.dev.rd j = s.dev.rd j)
  ∧ (∀ (s : State) (i : Ini), s.reaches i Reg.FAB_CMD .write = true →
    ∃ t p, exec (.swTrig i) s = .next t ∧ t.dev.pulses = s.dev.pulses ++ [p] ∧ p.code = 480 ∧ p.cause = s.dev.now ∧ ∀ j, t.dev.rd j = s.dev.rd j)
  ∧ (∀ (s : State) (i : Ini), s.reaches i Reg.FAB_CMD .write = true → s.dev.fab.commitAt = none →
      s.dev.now ≤ ofShort (s.dev.n64 Reg.COMMIT_AT_LO Reg.COMMIT_AT_HI) →
    ∃ t, exec (.fabCommit i) s = .next t ∧ t.dev.fab.commitAt = some (ofShort (s.dev.n64 Reg.COMMIT_AT_LO Reg.COMMIT_AT_HI))
      ∧ t.dev.on Reg.FAB_STATUS 5 = true ∧ t.dev.fab.bank = s.dev.fab.bank ∧ ∀ j, j ≠ Reg.FAB_STATUS → t.dev.rd j = s.dev.rd j)
  ∧ (∀ (s : State) (i : Ini), s.reaches i Reg.FAB_CMD .write = true → s.dev.fab.commitAt = none →
      ofShort (s.dev.n64 Reg.COMMIT_AT_LO Reg.COMMIT_AT_HI) < s.dev.now →
    ∃ t, exec (.fabCommit i) s = .next t ∧ t.dev.on Reg.FAB_STATUS 8 = true ∧ t.dev.on Reg.FAB_STATUS 5 = true
      ∧ t.dev.fab.commitAt = some (s.dev.now + 1))
  ∧ (∀ (s : State) (i : Ini), s.reaches i Reg.FAB_CMD .write = true →
    ∃ t, exec (.fabCancelCommit i) s = .next t ∧ t.dev.fab.commitAt = none ∧ t.dev.on Reg.FAB_STATUS 5 = false
      ∧ t.dev.fab.bank = s.dev.fab.bank ∧ ∀ j, j ≠ Reg.FAB_STATUS → t.dev.rd j = s.dev.rd j)
  ∧ (∀ (s : State) (at_ : Nat), s.dev.fab.commitAt = some at_ → at_ ≤ s.dev.now →
    ∃ t, exec .fabCommitTake s = .next t ∧ t.dev.fab.commitAt = none ∧ (∀ k, fabBankKey k = true → t.dev.fb k = s.dev.rd k)
      ∧ t.dev.on Reg.FAB_STATUS 5 = false ∧ t.dev.n Reg.COMMITS = (s.dev.n Reg.COMMITS + 1) % 2 ^ 28
      ∧ t.dev.n (Reg.EV_SEQ 1374) = (s.dev.n (Reg.EV_SEQ 1374) + 1) % 2 ^ 32)
  ∧ (∀ (s : State) (k : Fin 4) (e : Nat), (s.dev.xt k).sending = none → (s.dev.xt k).pending = some e → e < s.dev.tb.edges →
    ∃ t, exec (.xtFrameStart k) s = .next t ∧ (t.dev.xt k).pending = none
      ∧ (t.dev.xt k).sending = some ⟨s.dev.tb.edges, s.dev.fbf Reg.XT_CFG 28 4, s.dev.fbf (Reg.XT_TX k) 12 3⟩ ∧ ∀ j, t.dev.rd j = s.dev.rd j)
  ∧ (∀ (s : State) (k : Fin 4) (f : XtFrame), (s.dev.xt k).sending = some f →
    ∃ t, exec (.xtFrameEnd k true) s = .next t ∧ (t.dev.xt k).sending = none ∧ t.dev.on Reg.FAB_STATUS 7 = true
      ∧ t.dev.f (Reg.XT_ERR k) 8 12 = min (s.dev.f (Reg.XT_ERR k) 8 12 + 1) (2 ^ 12 - 1) ∧ t.dev.on Reg.COND_STATUS 3 = true)
  ∧ (∀ (s : State) (k : Fin 4) (f : XtFrame), (s.dev.xt k).sending = some f → s.dev.passed f.start 40 = true →
    ∃ t, exec (.xtFrameEnd k false) s = .next t ∧ t.dev.xt k = { s.dev.xt k with sending := none } ∧ ∀ j, t.dev.rd j = s.dev.rd j)
  ∧ (∀ (s : State) (k : Fin 4) (f : XtFrame) (r : List XtFrame), (s.dev.xt k).ownDue = f :: r → s.dev.passed f.start (64 + s.dev.fbf (Reg.XT_PAD k) 0 8) = true →
    ∃ t p, exec (.xtLocalPulse k) s = .next t ∧ (t.dev.xt k).ownDue = r ∧ t.dev.pulses = s.dev.pulses ++ [p] ∧ p.code = 448 + k.val ∧ p.own = true
      ∧ p.cause = s.dev.now ∧ ∀ j, t.dev.rd j = s.dev.rd j)
  ∧ (∀ (s : State) (k : Fin 4) (dev : BitVec 4) (code : BitVec 3) (parity : Bool), s.dev.fbOn Reg.XT_CFG k = true →
      (((List.range 4).filter fun b => dev.getLsbD b).length + ((List.range 3).filter fun b => code.getLsbD b).length + b2n parity) % 2 = 0 →
    ∃ t, exec (.xtFrameReceive k dev code parity) s = .next t ∧ (t.dev.xt k).rxDue = (s.dev.xt k).rxDue ++ [⟨s.dev.tb.edges - 40, dev.toNat, code.toNat⟩]
      ∧ ∀ j, t.dev.rd j = s.dev.rd j)
  ∧ (∀ (s : State) (k : Fin 4) (dev : BitVec 4) (code : BitVec 3) (parity : Bool), s.dev.fbOn Reg.XT_CFG k = true →
      (((List.range 4).filter fun b => dev.getLsbD b).length + ((List.range 3).filter fun b => code.getLsbD b).length + b2n parity) % 2 = 1 →
    ∃ t, exec (.xtFrameReceive k dev code parity) s = .next t ∧ (t.dev.xt k).rxDue = (s.dev.xt k).rxDue
      ∧ t.dev.f (Reg.XT_ERR k) 20 12 = min (s.dev.f (Reg.XT_ERR k) 20 12 + 1) (2 ^ 12 - 1) ∧ t.dev.on Reg.FAB_STATUS 7 = true)
  ∧ (∀ (s : State) (k : Fin 4) (f : XtFrame) (r : List XtFrame), (s.dev.xt k).rxDue = f :: r → s.dev.passed f.start (64 + s.dev.fbf (Reg.XT_PAD k) 0 8) = true →
    ∃ t p, exec (.xtRxPulse k) s = .next t ∧ (t.dev.xt k).rxDue = r ∧ t.dev.pulses = s.dev.pulses ++ [p] ∧ p.code = 448 + k.val ∧ p.own = false
      ∧ p.cause = s.dev.now ∧ ∀ j, t.dev.rd j = s.dev.rd j)

/-- RENDER_START, RENDER_DONE and DISPLAY_FRAME_START (R223, R230): a render begins with a free back buffer and fresh panes, completes into the back buffer, which lies on chip or in HBM, and the next frame shows it; CREMA_FLIP swaps the live bank at the next blanking (R224). -/
def Obligations.DisplayBuffers : Prop :=
  (∀ s : State, s.dev.disp.render = none → s.dev.disp.ready = false → s.dev.panesFresh = true →
    ∃ t, exec .renderStart s = .next t ∧ t.dev.disp.ready = false ∧ t.dev.disp.epochs = s.dev.epochsEnded
      ∧ t.dev.disp.render = some ⟨s.dev.drawPic, (s.dev.paneSources.filter s.dev.banked).map fun g => (g, nth s.dev.epochsEnded g 0)⟩
      ∧ ∀ j, t.dev.rd j = s.dev.rd j)
  ∧ (∀ (s : State) (r : Render), s.dev.disp.render = some r → s.dev.on Reg.DISP_STATUS 2 = false →
    ∃ t, exec .renderDone s = .next t ∧ t.dev.disp.render = none ∧ t.dev.disp.ready = true ∧ t.mem = s.mem
      ∧ t.dev.disp.store = storePut s.dev.disp.store (fbChip (1 - s.dev.disp.front)) r.pic.bytes
      ∧ t.dev.n Reg.RENDERS = min (s.dev.n Reg.RENDERS + 1) (2 ^ 32 - 1))
  ∧ (∀ (s : State) (r : Render), s.dev.disp.render = some r → s.dev.on Reg.DISP_STATUS 2 = true →
      s.writable 0x1A1 21 (s.dev.fbHbm (1 - s.dev.disp.front)) r.pic.bytes.length = true →
    ∃ t, exec .renderDone s = .next t ∧ t.dev.disp.render = none ∧ t.dev.disp.ready = true ∧ t.dev.disp.store = s.dev.disp.store
      ∧ t.mem.bytes (s.dev.fbHbm (1 - s.dev.disp.front)) r.pic.bytes.length = r.pic.bytes
      ∧ s.sameOutside t (s.dev.fbHbm (1 - s.dev.disp.front)) r.pic.bytes.length
      ∧ t.dev.n Reg.RENDERS = min (s.dev.n Reg.RENDERS + 1) (2 ^ 32 - 1))
  ∧ (∀ s : State, s.dev.on Reg.DISP_CTRL 31 = true → s.dev.on Reg.DISP_STATUS 4 = false → s.dev.on Reg.DISP_STATUS 1 = true → s.dev.disp.ready = true →
    ∃ t, exec .displayFrameStart s = .next t ∧ t.dev.disp.front = 1 - s.dev.disp.front ∧ t.dev.disp.ready = false ∧ t.dev.disp.line = 0
      ∧ t.dev.n Reg.FRAMES_SHOWN = min (s.dev.n Reg.FRAMES_SHOWN + 1) (2 ^ 32 - 1) ∧ t.dev.rd Reg.REPEATS = s.dev.rd Reg.REPEATS)
  ∧ (∀ s : State, s.dev.on Reg.DISP_CTRL 31 = true → s.dev.on Reg.DISP_STATUS 4 = false → s.dev.on Reg.DISP_STATUS 1 = true → s.dev.disp.ready = false →
      s.dev.on Reg.DISP_STATUS 3 = true →
    ∃ t, exec .displayFrameStart s = .next t ∧ t.dev.disp.front = s.dev.disp.front ∧ t.dev.n Reg.REPEATS = min (s.dev.n Reg.REPEATS + 1) (2 ^ 32 - 1)
      ∧ t.dev.n Reg.FRAMES_SHOWN = min (s.dev.n Reg.FRAMES_SHOWN + 1) (2 ^ 32 - 1))
  ∧ (∀ (s : State) (i : Ini), s.takes i Reg.DISP_CMD = true →
    ∃ t, exec (.cremaFlip i) s = .next t ∧ t.dev.disp = { s.dev.disp with flip := true } ∧ ∀ j, t.dev.rd j = s.dev.rd j)
  ∧ (∀ s : State, s.dev.disp.flip = true → s.dev.disp.staged = none →
    ∃ t, exec .vblankStart s = .next t ∧ t.dev.on Reg.CREMA_CTRL 16 = !s.dev.on Reg.CREMA_CTRL 16 ∧ t.dev.disp.flip = false
      ∧ ∀ j, j ≠ Reg.CREMA_CTRL → t.dev.rd j = s.dev.rd j)

/-- APPLY_TIMING, VBLANK_START, DISPLAY_LINE_START and DISP_CLEAR_COUNTS (R226, R229, R232): a timing out of range is refused with event 1396 and leaves the staged one; a good one waits and comes into force at the blanking; a line sends H_ACTIVE pixels, and a late fetch from the frame store is an underflow with event 1392. DISP_RETRAIN, LINK_TRAINING_END, HPD_CHANGE, AUX_TRANSACTION and AUX_REPLY (R227, R232, R233): a retrain drops the link and trains; training ends up, or failed; a level change of HPD shows with event 1395, and a plug after a failed training trains again; a transaction ends with its reply. -/
def Obligations.DisplayTimingAndLink : Prop :=
  (∀ (s : State) (i : Ini), s.takes i Reg.DISP_CMD = true → timingBad s.dev.stagedTiming = true →
    ∃ t, exec (.applyTiming i) s = .next t ∧ t.dev.on Reg.DISP_STATUS 9 = true ∧ t.dev.disp = s.dev.disp
      ∧ t.dev.n (Reg.EV_SEQ 1396) = (s.dev.n (Reg.EV_SEQ 1396) + 1) % 2 ^ 32)
  ∧ (∀ (s : State) (i : Ini), s.takes i Reg.DISP_CMD = true → timingBad s.dev.stagedTiming = false →
    ∃ t, exec (.applyTiming i) s = .next t ∧ t.dev.on Reg.DISP_STATUS 5 = true ∧ t.dev.disp = { s.dev.disp with staged := some s.dev.stagedTiming }
      ∧ ∀ j, j ≠ Reg.DISP_STATUS → t.dev.rd j = s.dev.rd j)
  ∧ (∀ (s : State) (w : List Word), s.dev.disp.staged = some w →
    ∃ t, exec .vblankStart s = .next t ∧ t.dev.disp.cur = w ∧ t.dev.disp.staged = none ∧ t.dev.on Reg.DISP_STATUS 5 = false
      ∧ t.dev.n (Reg.EV_SEQ 1396) = (s.dev.n (Reg.EV_SEQ 1396) + 1) % 2 ^ 32)
  ∧ (∀ (s : State) (from_ : Nat), s.dev.scanning = true → s.dev.disp.shown = true → s.dev.disp.line < s.dev.active.2 → s.dev.on Reg.DISP_STATUS 2 = false →
    ∃ t, exec (.displayLineStart from_) s = .next t ∧ t.dev.disp.line = s.dev.disp.line + 1 ∧ t.dev.disp.sent.length = s.dev.active.1
      ∧ ∀ j, t.dev.rd j = s.dev.rd j)
  ∧ (∀ (s : State) (from_ : Nat), s.dev.scanning = true → s.dev.disp.shown = true → s.dev.disp.line < s.dev.active.2 → s.dev.on Reg.DISP_STATUS 2 = true →
      from_ < s.dev.active.1 →
    ∃ t, exec (.displayLineStart from_) s = .next t ∧ t.dev.disp.line = s.dev.disp.line + 1 ∧ t.dev.on Reg.DISP_STATUS 13 = true
      ∧ t.dev.n Reg.UNDERFLOW_LINES = min (s.dev.n Reg.UNDERFLOW_LINES + 1) (2 ^ 32 - 1))
  ∧ (∀ (s : State) (i : Ini), s.takes i Reg.DISP_CMD = true →
    ∃ t, exec (.dispClearCounts i) s = .next t
      ∧ (∀ k ∈ [Reg.FRAMES_SHOWN, Reg.FRAMES_NOT_SHOWN, Reg.REPEATS, Reg.UNDERFLOW_LINES, Reg.RENDERS, Reg.RENDER_LATES], t.dev.rd k = 0)
      ∧ t.dev.rd Reg.DISP_STATUS = s.dev.rd Reg.DISP_STATUS ∧ t.dev.disp = s.dev.disp)
  ∧ (∀ (s : State) (i : Ini), s.takes i Reg.DISP_CMD = true →
    ∃ t, exec (.dispRetrain i) s = .next t ∧ t.dev.on Reg.DISP_STATUS 4 = true ∧ t.dev.on Reg.DISP_STATUS 1 = false ∧ t.dev.disp.link = none)
  ∧ (∀ s : State, s.dev.on Reg.DISP_STATUS 4 = true →
    ∃ t, exec (.linkTrainingEnd true) s = .next t ∧ t.dev.on Reg.DISP_STATUS 4 = false ∧ t.dev.on Reg.DISP_STATUS 1 = true
      ∧ t.dev.disp.link = some s.dev.disp.goal ∧ t.dev.n (Reg.EV_SEQ 1394) = (s.dev.n (Reg.EV_SEQ 1394) + 1) % 2 ^ 32)
  ∧ (∀ s : State, s.dev.on Reg.DISP_STATUS 4 = true →
    ∃ t, exec (.linkTrainingEnd false) s = .next t ∧ t.dev.on Reg.DISP_STATUS 4 = false ∧ t.dev.on Reg.DISP_STATUS 11 = true
      ∧ t.dev.disp = { s.dev.disp with failed := true })
  ∧ (∀ (s : State) (level : Bool), s.dev.on Reg.DISP_STATUS 0 ≠ level → s.dev.disp.failed = false →
    ∃ t, exec (.hpdChange level) s = .next t ∧ t.dev.on Reg.DISP_STATUS 0 = level ∧ t.dev.on Reg.DISP_STATUS 10 = true
      ∧ t.dev.n (Reg.EV_SEQ 1395) = (s.dev.n (Reg.EV_SEQ 1395) + 1) % 2 ^ 32)
  ∧ (∀ s : State, s.dev.on Reg.DISP_STATUS 0 = false → s.dev.disp.failed = true →
    ∃ t, exec (.hpdChange true) s = .next t ∧ t.dev.on Reg.DISP_STATUS 0 = true ∧ t.dev.on Reg.DISP_STATUS 4 = true ∧ t.dev.disp.failed = false)
  ∧ (∀ (s : State) (i : Ini) (data : Word), s.takes i Reg.AUX_TR = true →
    ∃ t, exec (.auxTransaction i data) s = .next t ∧ t.dev.rd Reg.AUX_TR = data ∧ t.dev.disp.aux = some data)
  ∧ (∀ (s : State) (data : Word) (reply : Fin 4) (bytes : List (BitVec 8)), s.dev.disp.aux = some data →
    ∃ t, exec (.auxReply reply bytes) s = .next t ∧ t.dev.disp.aux = none ∧ t.dev.f Reg.AUX_TR 0 4 = reply.val)

/-- EDGE_CROSSING and STAMP_RESUME (R183, R238, R244, R246, R247, R248, R250): a crossing captured at a REF_IN edge crossed its threshold τ of its fine code and D_FIX earlier, at c, and meets the changes up to c (d). On an enabled input, what the prescaler gives of it pulses its source with the time of R250, τ and the path delay before the edge; a selected one is counted from T_EN on, and it is stamped where the queue has room, starts a run of losses where it has none, and is lost while an interpolator's takeover is due. Stamping resumes below half the depth. STAMP_BLOCK_AGE, PWR_READY, EDGE_ENABLE, INIT_WINDOW_END and THRESHOLD_SETTLED (R239, R241, R264): with the changes met that no crossing can precede any more (d), a block that is old enough becomes a record; 20 µs of power make the input ready; the enable restarts the count and opens the initial window, which ends after 200 ns and in which the input may be seen near its threshold; static changes of the threshold are over after 20 ns. -/
def Obligations.EdgeCrossings : Prop :=
  (∀ (s : State) (n : Fin 16) (rising : Bool) (fine c : Nat) (d : Dev) (up : Bool), c = s.dev.up - (s.dev.eiConvert n fine).2.1 - s.dev.eiFix n → d = s.dev.eiReach n c →
      (d.eiSt n).level ≠ some rising → (d.eiSt n).on = true →
      (d.eiPre n rising).2 = some up → edgeSelected (d.eiEdges n) up = true → (d.eiSt n).fault = none →
      ((d.eiSt n).losing = true → d.eiQueued n c < d.eiDepth n / 2) → d.eiQueued n c < d.eiDepth n →
    ∃ t, exec (.edgeCrossing n rising fine) s = .next t
      ∧ t.dev.n64 (Reg.EI_CROSS_LO n) (Reg.EI_CROSS_HI n)
          = (if (d.eiSt n).enAt ≤ c then ((d.eiSt n).idx + 1) % 2 ^ 64 else d.n64 (Reg.EI_CROSS_LO n) (Reg.EI_CROSS_HI n))
      ∧ (t.dev.pulses.any fun p => p.code = (if up then 384 + n.val else 400 + n.val)
          ∧ p.cause = ((d.now : Int) - (d.eiConvert n fine).2.1 - d.eiDelay n).toNat) = true
      ∧ (t.dev.eiSt n).last = some c ∧ (t.dev.eiSt n).level = some rising ∧ (t.dev.eiSt n).idx = (d.eiSt n).idx + 1
      ∧ (t.dev.eiSt n).losing = false ∧ (t.dev.eiSt n).busy = max (c * 2 ^ 16) (d.eiSt n).busy + d.eiService n
      ∧ t.dev.rd (Reg.EI_LOST n) = d.rd (Reg.EI_LOST n))
  ∧ (∀ (s : State) (n : Fin 16) (rising : Bool) (fine c : Nat) (d : Dev) (up : Bool), c = s.dev.up - (s.dev.eiConvert n fine).2.1 - s.dev.eiFix n → d = s.dev.eiReach n c →
      (d.eiSt n).level ≠ some rising → (d.eiSt n).on = true →
      (d.eiPre n rising).2 = some up → edgeSelected (d.eiEdges n) up = true → (d.eiSt n).fault = none →
      (d.eiSt n).losing = false → d.eiDepth n ≤ d.eiQueued n c →
    ∃ t, exec (.edgeCrossing n rising fine) s = .next t ∧ (t.dev.eiSt n).losing = true ∧ (t.dev.eiSt n).blk = none
      ∧ (t.dev.eiSt n).gap.isSome = true ∧ t.dev.n (Reg.EI_LOST n) = min (d.n (Reg.EI_LOST n) + 1) (2 ^ 32 - 1)
      ∧ t.dev.on Reg.EI_STATUS 10 = true)
  ∧ (∀ (s : State) (n : Fin 16) (rising : Bool) (fine c : Nat) (d : Dev) (up : Bool) (g : EiGap), c = s.dev.up - (s.dev.eiConvert n fine).2.1 - s.dev.eiFix n → d = s.dev.eiReach n c →
      (d.eiSt n).level ≠ some rising → (d.eiSt n).on = true →
      (d.eiPre n rising).2 = some up → edgeSelected (d.eiEdges n) up = true → (d.eiSt n).fault = some g →
    ∃ t, exec (.edgeCrossing n rising fine) s = .next t ∧ (t.dev.eiSt n).fault = some { g with count := g.count + 1 }
      ∧ (t.dev.eiSt n).blk = (d.eiSt n).blk ∧ t.dev.n (Reg.EI_LOST n) = min (d.n (Reg.EI_LOST n) + 1) (2 ^ 32 - 1))
  ∧ (∀ (s : State) (n : Fin 16) (rising : Bool) (fine c : Nat) (d : Dev) (up : Bool), c = s.dev.up - (s.dev.eiConvert n fine).2.1 - s.dev.eiFix n → d = s.dev.eiReach n c →
      (d.eiSt n).level ≠ some rising → (d.eiSt n).on = true →
      (d.eiPre n rising).2 = some up → edgeSelected (d.eiEdges n) up = false →
    ∃ t, exec (.edgeCrossing n rising fine) s = .next t ∧ t.dev.pulses.length = d.pulses.length + 1
      ∧ (t.dev.eiSt n).idx = (d.eiSt n).idx ∧ (t.dev.eiSt n).blk = (d.eiSt n).blk ∧ ∀ j, t.dev.rd j = d.rd j)
  ∧ (∀ (s : State) (n : Fin 16) (rising : Bool) (fine c : Nat) (d : Dev), c = s.dev.up - (s.dev.eiConvert n fine).2.1 - s.dev.eiFix n → d = s.dev.eiReach n c →
      (d.eiSt n).level ≠ some rising → (d.eiSt n).on = true → (d.eiPre n rising).2 = none →
    ∃ t, exec (.edgeCrossing n rising fine) s = .next t ∧ t.dev.pulses = d.pulses ∧ (t.dev.eiSt n).last = some c
      ∧ (t.dev.eiSt n).level = some rising ∧ (t.dev.eiSt n).blk = (d.eiSt n).blk ∧ ∀ j, t.dev.rd j = d.rd j)
  ∧ (∀ (s : State) (n : Fin 16) (rising : Bool) (fine c : Nat) (d : Dev), c = s.dev.up - (s.dev.eiConvert n fine).2.1 - s.dev.eiFix n → d = s.dev.eiReach n c →
      (d.eiSt n).level ≠ some rising → (d.eiSt n).on = false →
    ∃ t, exec (.edgeCrossing n rising fine) s = .next t ∧ t.mem = s.mem
      ∧ t.dev = d.setEi n { d.eiSt n with last := some c, level := some rising })
  ∧ (∀ (s : State) (n : Fin 16), (s.dev.eiSt n).losing = true → s.dev.eiQueued n s.dev.up < s.dev.eiDepth n / 2 →
    ∃ t, exec (.stampResume n) s = .next t ∧ t.dev.eiSt n = { s.dev.eiSt n with losing := false } ∧ ∀ j, t.dev.rd j = s.dev.rd j)
  ∧ (∀ (s : State) (n : Fin 16) (b : EiBlk) (d : Dev), d = s.dev.eiReach n (s.dev.eiSeen n) → (d.eiSt n).blk = some b → d.eiAged n b = true →
    ∃ t, exec (.stampBlockAge n) s = .next t ∧ (t.dev.eiSt n).blk = none ∧ (t.dev.outOf (96 + n)).length = (d.outOf (96 + n)).length + 1)
  ∧ (∀ (s : State) (n : Fin 16) (t0 : Nat), (s.dev.eiSt n).pwrAt = some t0 → elapsedNs t0 s.dev.up 20000 = true →
    ∃ t, exec (.pwrReady n) s = .next t ∧ t.dev.on (Reg.EI_STATE n) 30 = true ∧ ∀ j, j ≠ Reg.EI_STATE n → t.dev.rd j = s.dev.rd j)
  ∧ (∀ (s : State) (n : Fin 16) (level : Bool), s.dev.eiF n 31 1 = 1 → s.dev.on (Reg.EI_STATE n) 30 = true → s.dev.eiOn n = false →
    ∃ t, exec (.edgeEnable n level) s = .next t ∧ t.dev.eiOn n = true ∧ t.dev.on (Reg.EI_STATE n) 28 = level
      ∧ t.dev.on (Reg.EI_STATE n) 27 = false ∧ t.dev.n64 (Reg.EI_CROSS_LO n) (Reg.EI_CROSS_HI n) = 0
      ∧ (t.dev.eiSt n).enAt = s.dev.up ∧ (t.dev.eiSt n).window = some s.dev.up
      ∧ (t.dev.eiSt n).lag.length = (s.dev.eiSt n).lag.length + 1 ∧ (t.dev.eiSt n).lag.getLast?.map (fun l => l.at_) = some s.dev.up)
  ∧ (∀ (s : State) (n : Fin 16) (t0 : Nat), (s.dev.eiSt n).window = some t0 →
    ∃ t, exec (.initWindowEnd n true) s = .next t ∧ (t.dev.eiSt n).window = (if elapsedNs t0 s.dev.up 200 = true then none else some t0)
      ∧ (t.dev.eiSt n).unk = some t0 ∧ t.dev.on (Reg.EI_STATE n) 27 = true ∧ t.dev.on Reg.EI_STATUS 6 = true)
  ∧ (∀ (s : State) (n : Fin 16) (t0 : Nat), (s.dev.eiSt n).window = some t0 →
    ∃ t, exec (.initWindowEnd n false) s = .next t ∧ (∀ j, t.dev.rd j = s.dev.rd j)
      ∧ t.dev.eiSt n = { s.dev.eiSt n with window := if elapsedNs t0 s.dev.up 200 = true then none else some t0 })
  ∧ (∀ (s : State) (n : Fin 16) (d : Dev), d = s.dev.eiReach n (s.dev.eiSeen n) →
    ∃ t, exec (.thresholdSettled n) s = .next t
      ∧ (t.dev.eiSt n).settles = (d.eiSt n).settles.filter (fun a => !elapsedNs a (s.dev.eiSeen n) 20)
      ∧ (t.dev.eiSt n).blk = (d.eiSt n).blk ∧ t.dev.pulses = d.pulses ∧ ∀ j, t.dev.rd j = d.rd j)

/-- RAMP_START, RAMP_END, INTERPOLATOR_FAULT and INTERPOLATOR_TAKEOVER (R239, R243, R248): a ramp starts at an eighth edge after its pulse, with its MARK on an enabled input, and ends after its length, from where the threshold settles; a faulted interpolator is retired with its event and report and ends what its input calibrates, and the faulted one of an enabled input's crossings waits for the survivor, which becomes live at the next edge. EI_COMMIT, EI_CANCEL_COMMIT, EI_COMMIT_TAKE and EI_CLEAR_COUNTS (R246, R248, R265): a commit within the allotments is armed for its time, or, with that past, for the next edge with COMMIT_LATE; one beyond 1,024, or one that makes an input with a retired interpolator INTERLEAVED, is refused with event 1296; a cancel drops it; at its edge every pending register takes force and EI_COMMITS counts; the counts clear. -/
def Obligations.EdgeRampsAndCommit : Prop :=
  (∀ (s : State) (n : Fin 16) (e : Nat), (s.dev.eiSt n).rampPend = some e → s.dev.tb.edges % 8 = 0 → e < s.dev.tb.edges →
    ∃ t, exec (.rampStart n) s = .next t ∧ (t.dev.eiSt n).ramp = some (s.dev.tb.edges, s.dev.up) ∧ (t.dev.eiSt n).rampPend = none
      ∧ t.dev.on (Reg.EI_STATE n) 26 = true ∧ (t.dev.eiSt n).lag.length = (s.dev.eiSt n).lag.length + b2n (s.dev.eiOn n)
      ∧ ∀ j, j ≠ Reg.EI_STATE n → t.dev.rd j = s.dev.rd j)
  ∧ (∀ (s : State) (n : Fin 16) (r : Nat × Nat), (s.dev.eiSt n).ramp = some r → r.1 + 8 * (s.dev.rampLen n + 1) ≤ s.dev.tb.edges →
    ∃ t, exec (.rampEnd n) s = .next t
      ∧ t.dev.eiSt n = { s.dev.eiSt n with
          ramp := none, ramped := (s.dev.eiSt n).ramped ++ [(r.2, s.dev.up)], settles := (s.dev.eiSt n).settles ++ [s.dev.up] }
      ∧ t.dev.on (Reg.EI_STATE n) 26 = false ∧ ∀ j, j ≠ Reg.EI_STATE n → t.dev.rd j = s.dev.rd j)
  ∧ (∀ (s : State) (n : Fin 16) (ip : Fin 2), s.dev.ipRetired n ip = false →
    ∃ t, exec (.interpolatorFault n ip) s = .next t ∧ t.dev.ipRetired n ip = true ∧ t.dev.on Reg.EI_STATUS 5 = true
      ∧ (t.dev.eiSt n).run = none ∧ t.dev.sump.reports.length = s.dev.sump.reports.length + 1
      ∧ (t.dev.eiSt n).faultEdge = (if (s.dev.eiIlv n || ip.val == s.dev.eiLive n) && s.dev.eiOn n && (s.dev.eiSt n).faultEdge.isNone
          then some s.dev.tb.edges else (s.dev.eiSt n).faultEdge))
  ∧ (∀ (s : State) (n : Fin 16) (ip : Fin 2) (e : Nat), (s.dev.eiSt n).faultEdge = some e → e < s.dev.tb.edges → s.dev.ipRetired n ip = false →
      s.dev.ipRetired n (1 - ip.val) = true →
    ∃ t, exec (.interpolatorTakeover n) s = .next t ∧ (t.dev.eiSt n).faultEdge = none ∧ t.dev.eiLive n = ip.val
      ∧ (t.dev.eiSt n).lag.length = (s.dev.eiSt n).lag.length + 1 ∧ (t.dev.eiSt n).lag.getLast?.map (fun l => l.at_) = some s.dev.up
      ∧ ∀ j, j ≠ Reg.EI_STATE n → t.dev.rd j = s.dev.rd j)
  ∧ (∀ (s : State) (i : Ini), s.reaches i Reg.EI_CMD .write = true → s.dev.edge.commitAt = none →
      (List.range 16).foldl (fun a n => if s.dev.on (Reg.EI_CFG n) 31 then a + s.dev.f (Reg.EI_CFG n) 16 8 + 1 else a) 0 ≤ 1024 →
      (∀ n : Fin 16, s.dev.on (Reg.EI_CFG n) 25 = true → s.dev.ipRetired n 0 = false ∧ s.dev.ipRetired n 1 = false) → s.dev.now ≤ ofShort (s.dev.n64 Reg.EI_COMMIT_AT_LO Reg.EI_COMMIT_AT_HI) →
    ∃ t, exec (.eiCommit i) s = .next t ∧ t.dev.edge.commitAt = some (ofShort (s.dev.n64 Reg.EI_COMMIT_AT_LO Reg.EI_COMMIT_AT_HI))
      ∧ t.dev.on Reg.EI_STATUS 4 = true ∧ t.dev.edge.bank = s.dev.edge.bank ∧ ∀ j, j ≠ Reg.EI_STATUS → t.dev.rd j = s.dev.rd j)
  ∧ (∀ (s : State) (i : Ini), s.reaches i Reg.EI_CMD .write = true → s.dev.edge.commitAt = none →
      (List.range 16).foldl (fun a n => if s.dev.on (Reg.EI_CFG n) 31 then a + s.dev.f (Reg.EI_CFG n) 16 8 + 1 else a) 0 ≤ 1024 →
      (∀ n : Fin 16, s.dev.on (Reg.EI_CFG n) 25 = true → s.dev.ipRetired n 0 = false ∧ s.dev.ipRetired n 1 = false) → ofShort (s.dev.n64 Reg.EI_COMMIT_AT_LO Reg.EI_COMMIT_AT_HI) < s.dev.now →
    ∃ t, exec (.eiCommit i) s = .next t ∧ t.dev.edge.commitAt = some (s.dev.now + 1) ∧ t.dev.on Reg.EI_STATUS 4 = true
      ∧ t.dev.on Reg.EI_STATUS 12 = true ∧ t.dev.edge.bank = s.dev.edge.bank ∧ ∀ j, j ≠ Reg.EI_STATUS → t.dev.rd j = s.dev.rd j)
  ∧ (∀ (s : State) (i : Ini), s.reaches i Reg.EI_CMD .write = true → s.dev.edge.commitAt = none →
      1024 < (List.range 16).foldl (fun a n => if s.dev.on (Reg.EI_CFG n) 31 then a + s.dev.f (Reg.EI_CFG n) 16 8 + 1 else a) 0 →
    ∃ t, exec (.eiCommit i) s = .next t ∧ t.dev.edge.commitAt = none ∧ t.dev.on Reg.EI_STATUS 13 = true
      ∧ t.dev.n (Reg.EV_SEQ 1296) = (s.dev.n (Reg.EV_SEQ 1296) + 1) % 2 ^ 32)
  ∧ (∀ (s : State) (i : Ini) (n : Fin 16), s.reaches i Reg.EI_CMD .write = true → s.dev.edge.commitAt = none →
      (List.range 16).foldl (fun a n => if s.dev.on (Reg.EI_CFG n) 31 then a + s.dev.f (Reg.EI_CFG n) 16 8 + 1 else a) 0 ≤ 1024 →
      s.dev.on (Reg.EI_CFG n) 25 = true → s.dev.ipRetired n 0 = true →
    ∃ t, exec (.eiCommit i) s = .next t ∧ t.dev.edge.commitAt = none ∧ t.dev.on Reg.EI_STATUS 5 = true
      ∧ t.dev.n (Reg.EV_SEQ 1296) = (s.dev.n (Reg.EV_SEQ 1296) + 1) % 2 ^ 32)
  ∧ (∀ (s : State) (i : Ini), s.reaches i Reg.EI_CMD .write = true →
    ∃ t, exec (.eiCancelCommit i) s = .next t ∧ t.dev.edge.commitAt = none ∧ t.dev.on Reg.EI_STATUS 4 = false
      ∧ t.dev.edge.bank = s.dev.edge.bank ∧ ∀ j, j ≠ Reg.EI_STATUS → t.dev.rd j = s.dev.rd j)
  ∧ (∀ (s : State) (at_ : Nat), s.dev.edge.commitAt = some at_ → at_ ≤ s.dev.now →
    ∃ t, exec .eiCommitTake s = .next t ∧ t.dev.edge.commitAt = none ∧ (∀ k, eiBankKey k = true → t.dev.eb k = s.dev.rd k)
      ∧ t.dev.n Reg.EI_COMMITS = (s.dev.n Reg.EI_COMMITS + 1) % 2 ^ 32 ∧ t.dev.on Reg.EI_STATUS 4 = false)
  ∧ (∀ (s : State) (i : Ini), s.reaches i Reg.EI_CMD .write = true →
    ∃ t, exec (.eiClearCounts i) s = .next t ∧ (∀ n : Fin 16, t.dev.rd (Reg.EI_LOST n) = 0 ∧ t.dev.rd (Reg.EI_OVER n) = 0)
      ∧ t.dev.edge = s.dev.edge ∧ t.dev.rd Reg.EI_STATUS = s.dev.rd Reg.EI_STATUS)

/-- EI_CAL, EI_CAL_ABORT, EI_CAL_AUTO_START, EI_CAL_TIMEOUT and EI_CAL_RUN_END (R253 to R259): a request with lock starts a run of the standby, with its threshold-offset calibration; one without lock waits for it; an abort ends a run with result 3, the limit with 4, a run that is not accepted with 2 and event 1300; the accepted table of a whole run waits for its swap, and on a disabled input takes force at once. -/
def Obligations.EdgeCalibration : Prop :=
  (∀ (s : State) (i : Ini) (n : Fin 16), s.reaches i Reg.EI_CMD .write = true → s.dev.on Reg.EI_CAL_MASK n = true → (s.dev.eiSt n).calBusy = false →
      (s.dev.eiSt n).deferred = false → s.dev.on Reg.TB_STATUS 1 = true → s.dev.ipRetired n 0 = false → s.dev.ipRetired n 1 = false → s.dev.eiIlv n = false →
    ∃ t, exec (.eiCal i) s = .next t ∧ (t.dev.eiSt n).run = some ([1 - s.dev.eiLive n], s.dev.up) ∧ t.dev.on (Reg.EI_STATE n) 24 = true
      ∧ t.dev.f (Reg.THR_CAL n) 16 16 = (s.dev.f (Reg.THR_CAL n) 16 16 + 1) % 2 ^ 16)
  ∧ (∀ (s : State) (i : Ini) (n : Fin 16), s.reaches i Reg.EI_CMD .write = true → s.dev.on Reg.EI_CAL_MASK n = true → (s.dev.eiSt n).calBusy = false →
      (s.dev.eiSt n).deferred = false → s.dev.on Reg.TB_STATUS 1 = false →
    ∃ t, exec (.eiCal i) s = .next t ∧ (t.dev.eiSt n).run = none ∧ (t.dev.eiSt n).deferred = true)
  ∧ (∀ (s : State) (i : Ini) (n : Fin 16) (r : List Nat × Nat), s.reaches i Reg.EI_CMD .write = true → s.dev.on Reg.EI_CAL_MASK n = true →
      (s.dev.eiSt n).run = some r →
    ∃ t, exec (.eiCalAbort i) s = .next t ∧ (t.dev.eiSt n).run = none
      ∧ (t.dev.eiSt n).swap = (s.dev.eiSt n).swap.filter (fun v => v.1.image) ∧ t.dev.f (Reg.EI_CAL_RESULT n) 28 4 = 3)
  ∧ (∀ (s : State) (n : Fin 16), (s.dev.eiSt n).deferred = true → (s.dev.eiSt n).calBusy = false → s.dev.on Reg.TB_STATUS 1 = true →
      s.dev.ipRetired n 0 = false → s.dev.ipRetired n 1 = false →
    ∃ t, exec .eiCalAutoStart s = .next t ∧ (t.dev.eiSt n).run.isSome = true ∧ (t.dev.eiSt n).deferred = false)
  ∧ (∀ (s : State) (n : Fin 16) (r : List Nat × Nat), (s.dev.eiSt n).run = some r → r.1.length = 2 → (s.dev.eiSt n).again = false →
      elapsedNs r.2 s.dev.up (1000000 * max 1 (s.dev.f Reg.CAL_LIMIT 0 16)) = true →
    ∃ t, exec (.eiCalTimeout n) s = .next t ∧ (t.dev.eiSt n).run = none ∧ t.dev.f (Reg.EI_CAL_RESULT n) 28 4 = 4)
  ∧ (∀ (s : State) (n : Fin 16) (r : List Nat × Nat) (runs : List (List (List (Nat × Nat)))), (s.dev.eiSt n).run = some r →
      runs.length = r.1.length → (runs.all fun c => decide (c.length = 3) && c.all tapsOk) = true →
      ((r.1.zip runs).all fun p => (s.dev.judge p.1 p.2).2) = false → (s.dev.eiSt n).again = false →
    ∃ t, exec (.eiCalRunEnd n runs) s = .next t ∧ (t.dev.eiSt n).run = none ∧ t.dev.f (Reg.EI_CAL_RESULT n) 28 4 = 2
      ∧ t.dev.on Reg.EI_STATUS 8 = true)
  ∧ (∀ (s : State) (n : Fin 16) (ip t0 : Nat) (chains : List (List (Nat × Nat))) (v : IpNew),
      (s.dev.eiSt n).run = some ([ip], t0) → chains.length = 3 → chains.all tapsOk = true → s.dev.judge ip chains = (v, true) → s.dev.eiOn n = true →
    ∃ t, exec (.eiCalRunEnd n [chains]) s = .next t ∧ (t.dev.eiSt n).run = none
      ∧ (t.dev.eiSt n).swap = (s.dev.eiSt n).swap ++ [(v, s.dev.tb.edges)] ∧ t.dev.rd (Reg.EI_CAL_RESULT n) = s.dev.rd (Reg.EI_CAL_RESULT n))
  ∧ (∀ (s : State) (n : Fin 16) (ip t0 : Nat) (chains : List (List (Nat × Nat))) (v : IpNew),
      (s.dev.eiSt n).run = some ([ip], t0) → ip < 2 → chains.length = 3 → chains.all tapsOk = true → s.dev.judge ip chains = (v, true) → s.dev.eiOn n = false →
      (s.dev.eiSt n).again = false →
    ∃ t, exec (.eiCalRunEnd n [chains]) s = .next t ∧ (t.dev.eiSt n).run = none ∧ t.dev.eiLive n = ip
      ∧ t.dev.f (Reg.EI_CAL_RESULT n) 28 4 = 1 ∧ t.dev.on Reg.EI_STATUS 7 = true
      ∧ t.dev.f (Reg.EI_CAL_COUNT n) (16 * ip) 16 = (s.dev.f (Reg.EI_CAL_COUNT n) (16 * ip) 16 + 1) % 2 ^ 16)

/-- ILV_COMMIT, ILV_COMMIT_TAKE and INTERPOLATOR_SWAP (R255, R256): a commit of staged tables waits for its time, or with that past for the next edge with its late bit, and then every staged table takes force; a swap at an edge after the accepted table was ready makes its interpolator the live one, installs the table for the crossings from that edge on, and completes with event 1299. CAL_DATA_READ, CAL_DATA_WRITE and THR_TRIM_WRITE (R259, R260): a read gives the indexed word of the table's image and advances the index; a written word enters the image; the last word, the CRC of the others, has the image of a standby accepted, and for a live interpolator fails with event 1303; a trim takes force at once with no block open, and else waits for the block boundary. -/
def Obligations.EdgeTablesAndImages : Prop :=
  (∀ (s : State) (i : Ini), s.reaches i Reg.EI_CMD .write = true → s.dev.now ≤ ofShort (s.dev.n64 Reg.ILV_COMMIT_AT_LO Reg.ILV_COMMIT_AT_HI) →
    ∃ t, exec (.ilvCommit i) s = .next t ∧ t.dev.edge.ilvAt = some (ofShort (s.dev.n64 Reg.ILV_COMMIT_AT_LO Reg.ILV_COMMIT_AT_HI))
      ∧ t.dev.on Reg.EI_STATUS 3 = true ∧ ∀ j, j ≠ Reg.EI_STATUS → t.dev.rd j = s.dev.rd j)
  ∧ (∀ (s : State) (i : Ini), s.reaches i Reg.EI_CMD .write = true → ofShort (s.dev.n64 Reg.ILV_COMMIT_AT_LO Reg.ILV_COMMIT_AT_HI) < s.dev.now →
    ∃ t, exec (.ilvCommit i) s = .next t ∧ t.dev.edge.ilvAt = some (s.dev.now + 1)
      ∧ t.dev.on Reg.EI_STATUS 3 = true ∧ t.dev.on Reg.EI_STATUS 11 = true ∧ ∀ j, j ≠ Reg.EI_STATUS → t.dev.rd j = s.dev.rd j)
  ∧ (∀ (s : State) (at_ : Nat), s.dev.edge.ilvAt = some at_ → at_ ≤ s.dev.now →
    ∃ t, exec .ilvCommitTake s = .next t ∧ t.dev.edge.ilvAt = none ∧ t.dev.on Reg.EI_STATUS 3 = false
      ∧ (∀ n : Fin 16, (t.dev.eiSt n).staged = [])
      ∧ ∀ (n : Fin 16) (v : IpNew), (s.dev.eiSt n).staged = [v] → v.image = false → v.ip < 2 →
          t.dev.f (Reg.EI_CAL_RESULT n) 28 4 = 1
            ∧ (t.dev.eiSt n).lag = (s.dev.eiSt n).lag ++ [⟨s.dev.up, s.dev.now,
                .tables [{ v with tab := { v.tab with gen := (s.dev.f (Reg.EI_CAL_COUNT n) (16 * v.ip) 16 + 1) % 2 ^ 16 } }] none⟩])
  ∧ (∀ (s : State) (n : Fin 16) (v : IpNew) (e : Nat), (s.dev.eiSt n).swap = [(v, e)] → e < s.dev.tb.edges → v.ip < 2 → v.image = false →
      (s.dev.eiSt n).run = none → (s.dev.eiSt n).again = false →
    ∃ t, exec (.interpolatorSwap n) s = .next t ∧ (t.dev.eiSt n).swap = [] ∧ t.dev.eiLive n = v.ip
      ∧ t.dev.f (Reg.EI_CAL_RESULT n) 28 4 = 1 ∧ t.dev.on Reg.EI_STATUS 7 = true
      ∧ (t.dev.eiSt n).lag = (s.dev.eiSt n).lag ++ [⟨s.dev.up, s.dev.now,
          .tables [{ v with tab := { v.tab with gen := (s.dev.f (Reg.EI_CAL_COUNT n) (16 * v.ip) 16 + 1) % 2 ^ 16 } }] (some v.ip)⟩])
  ∧ (∀ (s : State) (i : Ini), s.reaches i Reg.CAL_DATA .read = true →
    ∃ t, exec (.calDataRead i) s = .next t
      ∧ t.dev.resp = ⟨true, s.dev.imageWord ((s.dev.eiSt (s.dev.f Reg.CAL_SEL 16 4)).tab (s.dev.f Reg.CAL_SEL 20 1)) (s.dev.f Reg.CAL_SEL 0 14)⟩
      ∧ t.dev.f Reg.CAL_SEL 0 14 = (s.dev.f Reg.CAL_SEL 0 14 + 1) % 2 ^ 14 ∧ ∀ j, j ≠ Reg.CAL_SEL → t.dev.rd j = s.dev.rd j)
  ∧ (∀ (s : State) (i : Ini) (v : Word), s.reaches i Reg.CAL_DATA .write = true → s.dev.f Reg.CAL_SEL 0 14 < 8193 →
    ∃ t, exec (.calDataWrite i v) s = .next t
      ∧ (if s.dev.f Reg.CAL_SEL 20 1 = 0 then (t.dev.eiSt (s.dev.f Reg.CAL_SEL 16 4)).img0 else (t.dev.eiSt (s.dev.f Reg.CAL_SEL 16 4)).img1).get (fun _ => 0) (s.dev.f Reg.CAL_SEL 0 14) = v
      ∧ t.dev.f Reg.CAL_SEL 0 14 = (s.dev.f Reg.CAL_SEL 0 14 + 1) % 2 ^ 14 ∧ ∀ j, j ≠ Reg.CAL_SEL → t.dev.rd j = s.dev.rd j)
  ∧ (∀ (s : State) (i : Ini) (v : Word), s.reaches i Reg.CAL_DATA .write = true → s.dev.f Reg.CAL_SEL 0 14 = 8193 →
      s.dev.eiIlv (s.dev.f Reg.CAL_SEL 16 4) = false → s.dev.eiLive (s.dev.f Reg.CAL_SEL 16 4) = s.dev.f Reg.CAL_SEL 20 1 →
    ∃ t, exec (.calDataWrite i v) s = .next t ∧ t.dev.on Reg.EI_STATUS 15 = true
      ∧ (t.dev.eiSt (s.dev.f Reg.CAL_SEL 16 4)).tab0 = (s.dev.eiSt (s.dev.f Reg.CAL_SEL 16 4)).tab0 ∧ (t.dev.eiSt (s.dev.f Reg.CAL_SEL 16 4)).tab1 = (s.dev.eiSt (s.dev.f Reg.CAL_SEL 16 4)).tab1)
  ∧ (∀ (s : State) (i : Ini), s.reaches i Reg.CAL_DATA .write = true → s.dev.f Reg.CAL_SEL 0 14 = 8193 → s.dev.f Reg.CAL_SEL 20 1 = 0 →
      s.dev.eiIlv (s.dev.f Reg.CAL_SEL 16 4) = false → s.dev.eiLive (s.dev.f Reg.CAL_SEL 16 4) = 1 → s.dev.ipRetired (s.dev.f Reg.CAL_SEL 16 4) 0 = false → s.dev.eiOn (s.dev.f Reg.CAL_SEL 16 4) = true →
    ∃ t, exec (.calDataWrite i (BitVec.ofNat 32
          (crc32 (((List.range 8193).map fun c => (s.dev.eiSt (s.dev.f Reg.CAL_SEL 16 4)).img0.get (fun _ => (0 : Word)) c).flatMap fun w => bytesLE 4 w.toNat)))) s = .next t
      ∧ (t.dev.eiSt (s.dev.f Reg.CAL_SEL 16 4)).swap.map (fun v => (v.1.ip, v.1.image, v.2))
          = (s.dev.eiSt (s.dev.f Reg.CAL_SEL 16 4)).swap.map (fun v => (v.1.ip, v.1.image, v.2)) ++ [(0, true, s.dev.tb.edges)]
      ∧ t.dev.rd Reg.EI_STATUS = s.dev.rd Reg.EI_STATUS)
  ∧ (∀ (s : State) (i : Ini) (n : Fin 16) (v : Word), s.reaches i (Reg.THR_TRIM n) .write = true → (s.dev.eiSt n).blk = none →
    ∃ t, exec (.thrTrimWrite i n v) s = .next t ∧ t.dev.n (Reg.THR_TRIM n) = fld v 0 16
      ∧ (t.dev.eiSt n).settles = (s.dev.eiSt n).settles ++ [s.dev.up] ∧ ∀ j, j ≠ Reg.THR_TRIM n → t.dev.rd j = s.dev.rd j)
  ∧ (∀ (s : State) (i : Ini) (n : Fin 16) (v : Word) (b : EiBlk), s.reaches i (Reg.THR_TRIM n) .write = true → (s.dev.eiSt n).blk = some b →
    ∃ t, exec (.thrTrimWrite i n v) s = .next t ∧ t.dev.n (Reg.THR_TRIM n) = fld v 0 16 ∧ t.dev.trimNow n = s.dev.trimNow n
      ∧ (t.dev.eiSt n).settles = (s.dev.eiSt n).settles ∧ ∀ j, j ≠ Reg.THR_TRIM n → t.dev.rd j = s.dev.rd j)

/-- STAMP_PROCESS, GATE_CLOSE, BATCH_TIME_LIMIT, SU_RECORD_AGE and SU_OVERRUN_RESUME (R271, R279, R281, R283, R286, R289): the earliest stamp is taken from its input, and for PERIOD becomes the earlier one of the next pair; a gate, a batch or a record that is over closes; a drained input takes the GAP of what it lost. SU_COMMIT, SU_CANCEL_COMMIT, SU_COMMIT_TAKE, SU_FLUSH and SU_CLEAR_COUNTS (R292, R295): a commit of legal configurations is armed for its time, or with that past for the next edge with its late bit, and one with a refused configuration is not; a cancel drops it; at its edge a stopped unit takes its pending configuration; with a batch or record open, a flush ends batch, record and pairing in every unit, and else does nothing; the counts clear. -/
def Obligations.StampStatistics : Prop :=
  (∀ (s : State) (u : Fin 16) (x : SuItem) (r : List SuItem), suFunc ((s.dev.su u).c 0) = 2 → (s.dev.su u).a.live = x :: r → x.kind = 0 →
      (s.dev.su u).a.buf = [] → (s.dev.su u).a.cand = none → (s.dev.su u).b = {} → (s.dev.su u).nexts = [] →
    ∃ t, exec (.stampProcess u) s = .next t ∧ (t.dev.su u).prev = some x ∧ (t.dev.su u).a.live = r ∧ t.dev.now = s.dev.now)
  ∧ (∀ (s : State) (u : Fin 16), suOn ((s.dev.su u).c 0) = true → suFunc ((s.dev.su u).c 0) = 4 →
      s.dev.gateAt u ((s.dev.su u).gate + 1) ≤ (s.dev.su u).a.front (s.dev.eiProgress (suInA ((s.dev.su u).c 0))) →
    ∃ t, exec (.gateClose u) s = .next t ∧ (t.dev.su u).gate = (s.dev.su u).gate + 1 ∧ (t.dev.su u).gateN = 0)
  ∧ (∀ (s : State) (u : Fin 16) (l : Nat), (s.dev.su u).limit = some l → suUsesB ((s.dev.su u).c 0) = false →
      l ≤ (s.dev.su u).a.front (s.dev.eiProgress (suInA ((s.dev.su u).c 0))) → l ≤ s.dev.now →
    ∃ t, exec (.batchTimeLimit u) s = .next t ∧ (t.dev.su u).batch = {} ∧ (t.dev.su u).batchNo = ((s.dev.su u).batchNo + 1) % 2 ^ 32
      ∧ t.dev.n (Reg.SU_BATCHES u) = (s.dev.n (Reg.SU_BATCHES u) + 1) % 2 ^ 32)
  ∧ (∀ (s : State) (u : Fin 16) (r : SuRec), (s.dev.su u).open_ = some r → r.opened + s.dev.periods (64 * max 1 (fld ((s.dev.su u).c 5) 0 20)) ≤ s.dev.up →
    ∃ t, exec (.suRecordAge u) s = .next t ∧ (t.dev.su u).open_ = none ∧ (t.dev.su u).later = [])
  ∧ (∀ (s : State) (u : Fin 16) (g : SuItem), (s.dev.su u).a.overrun = some g → (s.dev.su u).held4096 true < 2048 →
    ∃ t, exec (.suOverrunResume u) s = .next t ∧ (t.dev.su u).a = { (s.dev.su u).a with buf := (s.dev.su u).a.buf ++ [g], overrun := none }
      ∧ ∀ j, t.dev.rd j = s.dev.rd j)
  ∧ (∀ (s : State) (i : Ini), s.reaches i Reg.SU_CMD .write = true → s.dev.stats.commitAt = none → (∀ u : Fin 16, suBad (s.dev.rd (Reg.SU_CFG u)) = false) →
      s.dev.now ≤ ofShort (s.dev.n64 Reg.SU_COMMIT_AT_LO Reg.SU_COMMIT_AT_HI) →
    ∃ t, exec (.suCommit i) s = .next t ∧ t.dev.stats.commitAt = some (ofShort (s.dev.n64 Reg.SU_COMMIT_AT_LO Reg.SU_COMMIT_AT_HI))
      ∧ t.dev.on Reg.SU_STATUS 0 = true ∧ t.dev.stats.units = s.dev.stats.units ∧ ∀ j, j ≠ Reg.SU_STATUS → t.dev.rd j = s.dev.rd j)
  ∧ (∀ (s : State) (i : Ini), s.reaches i Reg.SU_CMD .write = true → s.dev.stats.commitAt = none → (∀ u : Fin 16, suBad (s.dev.rd (Reg.SU_CFG u)) = false) →
      ofShort (s.dev.n64 Reg.SU_COMMIT_AT_LO Reg.SU_COMMIT_AT_HI) < s.dev.now →
    ∃ t, exec (.suCommit i) s = .next t ∧ t.dev.stats.commitAt = some (s.dev.now + 1) ∧ t.dev.on Reg.SU_STATUS 0 = true
      ∧ t.dev.on Reg.SU_STATUS 5 = true ∧ t.dev.stats.units = s.dev.stats.units ∧ ∀ j, j ≠ Reg.SU_STATUS → t.dev.rd j = s.dev.rd j)
  ∧ (∀ (s : State) (i : Ini) (u : Fin 16), s.reaches i Reg.SU_CMD .write = true → s.dev.stats.commitAt = none → suBad (s.dev.rd (Reg.SU_CFG u)) = true →
    ∃ t, exec (.suCommit i) s = .next t ∧ t.dev.stats = s.dev.stats ∧ t.dev.on Reg.SU_STATUS 6 = true
      ∧ t.dev.n (Reg.EV_SEQ 1328) = (s.dev.n (Reg.EV_SEQ 1328) + 1) % 2 ^ 32)
  ∧ (∀ (s : State) (i : Ini), s.reaches i Reg.SU_CMD .write = true →
    ∃ t, exec (.suCancelCommit i) s = .next t ∧ t.dev.stats.commitAt = none ∧ t.dev.on Reg.SU_STATUS 0 = false
      ∧ t.dev.stats.units = s.dev.stats.units ∧ ∀ j, j ≠ Reg.SU_STATUS → t.dev.rd j = s.dev.rd j)
  ∧ (∀ (s : State) (at_ : Nat), s.dev.stats.commitAt = some at_ → at_ ≤ s.dev.now →
    ∃ t, exec .suCommitTake s = .next t ∧ t.dev.stats.commitAt = none ∧ t.dev.on Reg.SU_STATUS 0 = false
      ∧ t.dev.n Reg.SU_COMMITS = (s.dev.n Reg.SU_COMMITS + 1) % 2 ^ 32
      ∧ ∀ u : Fin 16, s.dev.su u = {} → s.dev.suPending u ≠ suResetCfg → (t.dev.su u).cfg = s.dev.suPending u ∧ (t.dev.su u).since = s.dev.now)
  ∧ (∀ (s : State) (i : Ini) (v : Fin 16), s.reaches i Reg.SU_CMD .write = true → ((s.dev.su v).batch.live || (s.dev.su v).open_.isSome) = true →
    ∃ t, exec (.suFlush i) s = .next t ∧ t.dev.now = s.dev.now
      ∧ ∀ u : Fin 16, (t.dev.su u).batch.live = false ∧ (t.dev.su u).open_ = none ∧ (t.dev.su u).start = none ∧ (t.dev.su u).held = none
          ∧ (t.dev.su u).pend = [])
  ∧ (∀ (s : State) (i : Ini), s.reaches i Reg.SU_CMD .write = true →
      (s.dev.stats.units.all fun e => !(s.dev.su e.1).batch.live && (s.dev.su e.1).open_.isNone) = true →
    ∃ t, exec (.suFlush i) s = .next t ∧ t.dev.stats = s.dev.stats ∧ ∀ j, t.dev.rd j = s.dev.rd j)
  ∧ (∀ (s : State) (i : Ini), s.reaches i Reg.SU_CMD .write = true →
    ∃ t, exec (.suClearCounts i) s = .next t ∧ t.dev.stats = s.dev.stats
      ∧ ∀ u : Fin 16, t.dev.rd (Reg.SU_ORPHANS u) = 0 ∧ t.dev.rd (Reg.SU_REJECTED u) = 0 ∧ t.dev.rd (Reg.SU_EXCLUDED u) = 0)

/-- ADD, SUB, ADDS, SUBS, ABS, MIN, MAX, MUL and CONJ (R346, R348, R349), at either width: each lane of the result is the exact one, wrapped for ADD and SUB and saturated with SAT for the others; ADD and SUB set Z and V from lane 0; nothing else of the engine changes. -/
def Obligations.CratreArithmetic : Prop :=
  (∀ (s : State) (e : Fin 128) (w : CrW), s.issues e 0x02 w = true → movesNothing w = true → crLegalA true true .vec .vec 31 0 w = true →
    ∃ t, exec (.crAdd e none) s = .next t ∧ s.CrKeeps t e (some (crD w)) none
      ∧ (∀ l, l < 128 / crWidth w → lane (crWidth w) ((t.dev.eng e).vr (crD w)) l = toS (crWidth w) (wrapU (crWidth w) (lane (crWidth w) ((s.dev.eng e).vr (crA w)) l + lane (crWidth w) ((s.dev.eng e).vr (crB w)) l)))
      ∧ (bit (t.dev.eng e).sr 0 = decide (lane (crWidth w) ((t.dev.eng e).vr (crD w)) 0 = 0)) ∧ (bit (t.dev.eng e).sr 3 = decide (satS (crWidth w) (lane (crWidth w) ((s.dev.eng e).vr (crA w)) 0 + lane (crWidth w) ((s.dev.eng e).vr (crB w)) 0) ≠ lane (crWidth w) ((s.dev.eng e).vr (crA w)) 0 + lane (crWidth w) ((s.dev.eng e).vr (crB w)) 0)))
  ∧ (∀ (s : State) (e : Fin 128) (w : CrW), s.issues e 0x03 w = true → movesNothing w = true → crLegalA true true .vec .vec 31 0 w = true →
    ∃ t, exec (.crSub e none) s = .next t ∧ s.CrKeeps t e (some (crD w)) none
      ∧ (∀ l, l < 128 / crWidth w → lane (crWidth w) ((t.dev.eng e).vr (crD w)) l = toS (crWidth w) (wrapU (crWidth w) (lane (crWidth w) ((s.dev.eng e).vr (crA w)) l - lane (crWidth w) ((s.dev.eng e).vr (crB w)) l)))
      ∧ (bit (t.dev.eng e).sr 0 = decide (lane (crWidth w) ((t.dev.eng e).vr (crD w)) 0 = 0)) ∧ (bit (t.dev.eng e).sr 3 = decide (satS (crWidth w) (lane (crWidth w) ((s.dev.eng e).vr (crA w)) 0 - lane (crWidth w) ((s.dev.eng e).vr (crB w)) 0) ≠ lane (crWidth w) ((s.dev.eng e).vr (crA w)) 0 - lane (crWidth w) ((s.dev.eng e).vr (crB w)) 0)))
  ∧ (∀ (s : State) (e : Fin 128) (w : CrW), s.issues e 0x04 w = true → movesNothing w = true → crLegalA true true .vec .vec 31 0 w = true →
    ∃ t, exec (.crAdds e none) s = .next t ∧ s.CrKeeps t e (some (crD w)) none
      ∧ (∀ l, l < 128 / crWidth w → lane (crWidth w) ((t.dev.eng e).vr (crD w)) l = satS (crWidth w) (lane (crWidth w) ((s.dev.eng e).vr (crA w)) l + lane (crWidth w) ((s.dev.eng e).vr (crB w)) l))
      ∧ (∀ l, l < 128 / crWidth w → satS (crWidth w) (lane (crWidth w) ((s.dev.eng e).vr (crA w)) l + lane (crWidth w) ((s.dev.eng e).vr (crB w)) l) ≠ lane (crWidth w) ((s.dev.eng e).vr (crA w)) l + lane (crWidth w) ((s.dev.eng e).vr (crB w)) l → bit (t.dev.eng e).sr 14 = true))
  ∧ (∀ (s : State) (e : Fin 128) (w : CrW), s.issues e 0x05 w = true → movesNothing w = true → crLegalA true true .vec .vec 31 0 w = true →
    ∃ t, exec (.crSubs e none) s = .next t ∧ s.CrKeeps t e (some (crD w)) none
      ∧ (∀ l, l < 128 / crWidth w → lane (crWidth w) ((t.dev.eng e).vr (crD w)) l = satS (crWidth w) (lane (crWidth w) ((s.dev.eng e).vr (crA w)) l - lane (crWidth w) ((s.dev.eng e).vr (crB w)) l))
      ∧ (∀ l, l < 128 / crWidth w → satS (crWidth w) (lane (crWidth w) ((s.dev.eng e).vr (crA w)) l - lane (crWidth w) ((s.dev.eng e).vr (crB w)) l) ≠ lane (crWidth w) ((s.dev.eng e).vr (crA w)) l - lane (crWidth w) ((s.dev.eng e).vr (crB w)) l → bit (t.dev.eng e).sr 14 = true))
  ∧ (∀ (s : State) (e : Fin 128) (w : CrW), s.issues e 0x06 w = true → movesNothing w = true → crLegalA true true .vec .vec 0 0 w = true →
    ∃ t, exec (.crAbs e none) s = .next t ∧ s.CrKeeps t e (some (crD w)) none
      ∧ (∀ l, l < 128 / crWidth w → lane (crWidth w) ((t.dev.eng e).vr (crD w)) l = satS (crWidth w) ((lane (crWidth w) ((s.dev.eng e).vr (crA w)) l).natAbs)))
  ∧ (∀ (s : State) (e : Fin 128) (w : CrW), s.issues e 0x07 w = true → movesNothing w = true → crLegalA true true .vec .vec 31 0 w = true →
    ∃ t, exec (.crMin e none) s = .next t ∧ s.CrKeeps t e (some (crD w)) none
      ∧ (∀ l, l < 128 / crWidth w → lane (crWidth w) ((t.dev.eng e).vr (crD w)) l = min (lane (crWidth w) ((s.dev.eng e).vr (crA w)) l) (lane (crWidth w) ((s.dev.eng e).vr (crB w)) l)))
  ∧ (∀ (s : State) (e : Fin 128) (w : CrW), s.issues e 0x08 w = true → movesNothing w = true → crLegalA true true .vec .vec 31 0 w = true →
    ∃ t, exec (.crMax e none) s = .next t ∧ s.CrKeeps t e (some (crD w)) none
      ∧ (∀ l, l < 128 / crWidth w → lane (crWidth w) ((t.dev.eng e).vr (crD w)) l = max (lane (crWidth w) ((s.dev.eng e).vr (crA w)) l) (lane (crWidth w) ((s.dev.eng e).vr (crB w)) l)))
  ∧ (∀ (s : State) (e : Fin 128) (w : CrW), s.issues e 0x0E w = true → movesNothing w = true → crLegalA true true .vec .vec 31 31 w = true →
    ∃ t, exec (.crMul e none) s = .next t ∧ s.CrKeeps t e (some (crD w)) none
      ∧ (∀ l, l < 128 / crWidth w → lane (crWidth w) ((t.dev.eng e).vr (crD w)) l = satS (crWidth w) (rshr (lane (crWidth w) ((s.dev.eng e).vr (crA w)) l * lane (crWidth w) ((s.dev.eng e).vr (crB w)) l) (crAux w))))
  ∧ (∀ (s : State) (e : Fin 128) (w : CrW), s.issues e 0x13 w = true → movesNothing w = true → crLegalA true true .vec .vec 0 0 w = true →
    ∃ t, exec (.crConj e none) s = .next t ∧ s.CrKeeps t e (some (crD w)) none
      ∧ (∀ l, l < 128 / crWidth w → lane (crWidth w) ((t.dev.eng e).vr (crD w)) l = if l % 2 = 0 then lane (crWidth w) ((s.dev.eng e).vr (crA w)) l else satS (crWidth w) (-lane (crWidth w) ((s.dev.eng e).vr (crA w)) l)))

/-- NOP, MOV, AND, OR, XOR, SHL, SHR, CMP, BCAST, PACK and UNPK (R346, R348, R349): copies, bitwise results with Z and with C and V clear, shifts with rounding to the right, a comparison that only sets flags, one lane for all, and the narrowing and widening of lanes. -/
def Obligations.CratreLogic : Prop :=
  (∀ (s : State) (e : Fin 128) (w : CrW), s.issues e 0x00 w = true → movesNothing w = true → crLegalA true false .none .none 0 0 w = true →
    ∃ t, exec (.crNop e none) s = .next t ∧ s.CrKeeps t e none none
      ∧ (t.dev.eng e).sr = (s.dev.eng e).sr)
  ∧ (∀ (s : State) (e : Fin 128) (w : CrW), s.issues e 0x01 w = true → movesNothing w = true → crLegalA true false .vec .vec 0 0 w = true →
    ∃ t, exec (.crMov e none) s = .next t ∧ s.CrKeeps t e (some (crD w)) none
      ∧ ((t.dev.eng e).vr (crD w)) = ((s.dev.eng e).vr (crA w)))
  ∧ (∀ (s : State) (e : Fin 128) (w : CrW), s.issues e 0x09 w = true → movesNothing w = true → crLegalA true false .vec .vec 31 0 w = true →
    ∃ t, exec (.crAnd e none) s = .next t ∧ s.CrKeeps t e (some (crD w)) none
      ∧ ((t.dev.eng e).vr (crD w)) = ((s.dev.eng e).vr (crA w)) &&& ((s.dev.eng e).vr (crB w)) ∧ (bit (t.dev.eng e).sr 0 = decide (fld ((t.dev.eng e).vr (crD w)) 0 16 = 0)) ∧ bit (t.dev.eng e).sr 2 = false ∧ bit (t.dev.eng e).sr 3 = false)
  ∧ (∀ (s : State) (e : Fin 128) (w : CrW), s.issues e 0x0A w = true → movesNothing w = true → crLegalA true false .vec .vec 31 0 w = true →
    ∃ t, exec (.crOr e none) s = .next t ∧ s.CrKeeps t e (some (crD w)) none
      ∧ ((t.dev.eng e).vr (crD w)) = ((s.dev.eng e).vr (crA w)) ||| ((s.dev.eng e).vr (crB w)) ∧ (bit (t.dev.eng e).sr 0 = decide (fld ((t.dev.eng e).vr (crD w)) 0 16 = 0)) ∧ bit (t.dev.eng e).sr 2 = false ∧ bit (t.dev.eng e).sr 3 = false)
  ∧ (∀ (s : State) (e : Fin 128) (w : CrW), s.issues e 0x0B w = true → movesNothing w = true → crLegalA true false .vec .vec 31 0 w = true →
    ∃ t, exec (.crXor e none) s = .next t ∧ s.CrKeeps t e (some (crD w)) none
      ∧ ((t.dev.eng e).vr (crD w)) = ((s.dev.eng e).vr (crA w)) ^^^ ((s.dev.eng e).vr (crB w)) ∧ (bit (t.dev.eng e).sr 0 = decide (fld ((t.dev.eng e).vr (crD w)) 0 16 = 0)) ∧ bit (t.dev.eng e).sr 2 = false ∧ bit (t.dev.eng e).sr 3 = false)
  ∧ (∀ (s : State) (e : Fin 128) (w : CrW), s.issues e 0x0C w = true → movesNothing w = true → crLegalA true true .vec .vec 0 31 w = true →
    ∃ t, exec (.crShl e none) s = .next t ∧ s.CrKeeps t e (some (crD w)) none
      ∧ ∀ l, l < 128 / crWidth w → lane (crWidth w) ((t.dev.eng e).vr (crD w)) l = toS (crWidth w) (wrapU (crWidth w) (lane (crWidth w) ((s.dev.eng e).vr (crA w)) l * 2 ^ crAux w)))
  ∧ (∀ (s : State) (e : Fin 128) (w : CrW), s.issues e 0x0D w = true → movesNothing w = true → crLegalA true true .vec .vec 0 31 w = true →
    ∃ t, exec (.crShr e none) s = .next t ∧ s.CrKeeps t e (some (crD w)) none
      ∧ ∀ l, l < 128 / crWidth w → lane (crWidth w) ((t.dev.eng e).vr (crD w)) l = satS (crWidth w) (rshr (lane (crWidth w) ((s.dev.eng e).vr (crA w)) l) (crAux w)))
  ∧ (∀ (s : State) (e : Fin 128) (w : CrW), s.issues e 0x0F w = true → movesNothing w = true → crLegalA true true .none .vec 31 0 w = true →
    ∃ t, exec (.crCmp e none) s = .next t ∧ s.CrKeeps t e none none
      ∧ (bit (t.dev.eng e).sr 0 = decide (lane (crWidth w) ((s.dev.eng e).vr (crA w)) 0 = lane (crWidth w) ((s.dev.eng e).vr (crB w)) 0)))
  ∧ (∀ (s : State) (e : Fin 128) (w : CrW), s.issues e 0x10 w = true → movesNothing w = true → crLegalA true true .vec .vec 0 31 w = true → crAux w < 128 / crWidth w →
    ∃ t, exec (.crBcast e none) s = .next t ∧ s.CrKeeps t e (some (crD w)) none
      ∧ ∀ l, l < 128 / crWidth w → lane (crWidth w) ((t.dev.eng e).vr (crD w)) l = lane (crWidth w) ((s.dev.eng e).vr (crA w)) (crAux w))
  ∧ (∀ (s : State) (e : Fin 128) (w : CrW), s.issues e 0x11 w = true → movesNothing w = true → crLegalA false true .vec .vec 31 31 w = true →
    ∃ t, exec (.crPack e none) s = .next t ∧ s.CrKeeps t e (some (crD w)) none
      ∧ ∀ l, l < 8 → lane 16 ((t.dev.eng e).vr (crD w)) l = satS 16 (rshr (if l < 4 then lane 32 ((s.dev.eng e).vr (crA w)) l else lane 32 ((s.dev.eng e).vr (crB w)) (l - 4)) (crAux w)))
  ∧ (∀ (s : State) (e : Fin 128) (w : CrW), s.issues e 0x12 w = true → movesNothing w = true → crLegalA false true .vec .vec 0 1 w = true →
    ∃ t, exec (.crUnpk e none) s = .next t ∧ s.CrKeeps t e (some (crD w)) none
      ∧ ∀ l, l < 4 → lane 32 ((t.dev.eng e).vr (crD w)) l = lane 16 ((s.dev.eng e).vr (crA w)) (4 * crAux w + l))

/-- MAXI and MINI (R353), at either width: the extreme lane of Va, the lowest among equals, replaces lane 0 of Vd with its index in lane 1 if it is strictly better; lane 2 counts the lanes on, lane 3 is zero; and a B or an AUX that is not zero is ILLEGAL. -/
def Obligations.CratreSearch : Prop :=
  (∀ (s : State) (e : Fin 128) (w : CrW) (l0 : Nat), s.issues e 0x18 w = true → movesNothing w = true → crLegalA true true .vec .vec 0 0 w = true →
      l0 < 128 / crWidth w →
      (∀ l, l < 128 / crWidth w → lane (crWidth w) ((s.dev.eng e).vr (crA w)) l ≤ lane (crWidth w) ((s.dev.eng e).vr (crA w)) l0) →
      (∀ l, l < l0 → lane (crWidth w) ((s.dev.eng e).vr (crA w)) l < lane (crWidth w) ((s.dev.eng e).vr (crA w)) l0) →
    ∃ t, exec (.crMaxi e none) s = .next t ∧ s.CrKeeps t e (some (crD w)) none
      ∧ (if lane 32 ((s.dev.eng e).vr (crD w)) 0 < lane (crWidth w) ((s.dev.eng e).vr (crA w)) l0
         then lane 32 ((t.dev.eng e).vr (crD w)) 0 = lane (crWidth w) ((s.dev.eng e).vr (crA w)) l0
           ∧ lane 32 ((t.dev.eng e).vr (crD w)) 1 = toS 32 (wrapU 32 (lane 32 ((s.dev.eng e).vr (crD w)) 2 + l0))
         else lane 32 ((t.dev.eng e).vr (crD w)) 0 = lane 32 ((s.dev.eng e).vr (crD w)) 0
           ∧ lane 32 ((t.dev.eng e).vr (crD w)) 1 = lane 32 ((s.dev.eng e).vr (crD w)) 1)
      ∧ lane 32 ((t.dev.eng e).vr (crD w)) 2 = toS 32 (wrapU 32 (lane 32 ((s.dev.eng e).vr (crD w)) 2 + (128 / crWidth w : Nat)))
      ∧ lane 32 ((t.dev.eng e).vr (crD w)) 3 = 0)
  ∧ (∀ (s : State) (e : Fin 128) (w : CrW) (l0 : Nat), s.issues e 0x19 w = true → movesNothing w = true → crLegalA true true .vec .vec 0 0 w = true →
      l0 < 128 / crWidth w →
      (∀ l, l < 128 / crWidth w → lane (crWidth w) ((s.dev.eng e).vr (crA w)) l0 ≤ lane (crWidth w) ((s.dev.eng e).vr (crA w)) l) →
      (∀ l, l < l0 → lane (crWidth w) ((s.dev.eng e).vr (crA w)) l0 < lane (crWidth w) ((s.dev.eng e).vr (crA w)) l) →
    ∃ t, exec (.crMini e none) s = .next t ∧ s.CrKeeps t e (some (crD w)) none
      ∧ (if lane (crWidth w) ((s.dev.eng e).vr (crA w)) l0 < lane 32 ((s.dev.eng e).vr (crD w)) 0
         then lane 32 ((t.dev.eng e).vr (crD w)) 0 = lane (crWidth w) ((s.dev.eng e).vr (crA w)) l0
           ∧ lane 32 ((t.dev.eng e).vr (crD w)) 1 = toS 32 (wrapU 32 (lane 32 ((s.dev.eng e).vr (crD w)) 2 + l0))
         else lane 32 ((t.dev.eng e).vr (crD w)) 0 = lane 32 ((s.dev.eng e).vr (crD w)) 0
           ∧ lane 32 ((t.dev.eng e).vr (crD w)) 1 = lane 32 ((s.dev.eng e).vr (crD w)) 1)
      ∧ lane 32 ((t.dev.eng e).vr (crD w)) 2 = toS 32 (wrapU 32 (lane 32 ((s.dev.eng e).vr (crD w)) 2 + (128 / crWidth w : Nat)))
      ∧ lane 32 ((t.dev.eng e).vr (crD w)) 3 = 0)
  ∧ ∀ (s : State) (e : Fin 128) (w : CrW), crB w ≠ 0 ∨ crAux w ≠ 0 →
      (s.issues e 0x18 w = true → ∃ t, exec (.crMaxi e none) s = .next t ∧ (t.dev.eng e).state = 4 ∧ (t.dev.eng e).fault = 2)
      ∧ (s.issues e 0x19 w = true → ∃ t, exec (.crMini e none) s = .next t ∧ (t.dev.eng e).state = 4 ∧ (t.dev.eng e).fault = 2)

/-- MAC, MACJ, MPY and MPYJ (R310, R351), in every mode: each lane takes the signed product, real or complex, the second factor conjugated in the J forms; MAC and MACJ add it, saturating, and leave a frozen lane; MPY and MPYJ replace the accumulator. ADDA, LDA, CLR, ASUM, ADDX, RND and EXA (R310, R352): lanes added, loaded, cleared, summed in the wide mode, added piece by piece, rounded and saturated into a vector, and extracted. -/
def Obligations.CratreMultiply : Prop :=
  (∀ (s : State) (e : Fin 128) (w : CrW), s.issues e 0x20 w = true → movesNothing w = true → mulLegal false (s.dev.eng e) w = true →
    ∃ t, exec (.crMac e none) s = .next t ∧ s.CrKeeps t e none (some (crAccD w))
      ∧ ∀ l, l < accCount ((s.dev.eng e).acm (crAccD w)) → accLane ((s.dev.eng e).acm (crAccD w)) ((t.dev.eng e).ac (crAccD w)) l = (if bit (s.dev.eng e).aov (8 * crAccD w + l) then accLane ((s.dev.eng e).acm (crAccD w)) ((s.dev.eng e).ac (crAccD w)) l else satS (accWidth ((s.dev.eng e).acm (crAccD w))) (accLane ((s.dev.eng e).acm (crAccD w)) ((s.dev.eng e).ac (crAccD w)) l + (if crAux w % 2 = 1 then -crTerm ((s.dev.eng e).acm (crAccD w)) false (crWidth w) ((s.dev.eng e).vr (crA w)) ((s.dev.eng e).vr (crB w)) l else crTerm ((s.dev.eng e).acm (crAccD w)) false (crWidth w) ((s.dev.eng e).vr (crA w)) ((s.dev.eng e).vr (crB w)) l))))
  ∧ (∀ (s : State) (e : Fin 128) (w : CrW), s.issues e 0x21 w = true → movesNothing w = true → mulLegal true (s.dev.eng e) w = true →
    ∃ t, exec (.crMacj e none) s = .next t ∧ s.CrKeeps t e none (some (crAccD w))
      ∧ ∀ l, l < accCount ((s.dev.eng e).acm (crAccD w)) → accLane ((s.dev.eng e).acm (crAccD w)) ((t.dev.eng e).ac (crAccD w)) l = (if bit (s.dev.eng e).aov (8 * crAccD w + l) then accLane ((s.dev.eng e).acm (crAccD w)) ((s.dev.eng e).ac (crAccD w)) l else satS (accWidth ((s.dev.eng e).acm (crAccD w))) (accLane ((s.dev.eng e).acm (crAccD w)) ((s.dev.eng e).ac (crAccD w)) l + (if crAux w % 2 = 1 then -crTerm ((s.dev.eng e).acm (crAccD w)) true (crWidth w) ((s.dev.eng e).vr (crA w)) ((s.dev.eng e).vr (crB w)) l else crTerm ((s.dev.eng e).acm (crAccD w)) true (crWidth w) ((s.dev.eng e).vr (crA w)) ((s.dev.eng e).vr (crB w)) l))))
  ∧ (∀ (s : State) (e : Fin 128) (w : CrW), s.issues e 0x22 w = true → movesNothing w = true → mulLegal false (s.dev.eng e) w = true →
    ∃ t, exec (.crMpy e none) s = .next t ∧ s.CrKeeps t e none (some (crAccD w))
      ∧ ∀ l, l < accCount ((s.dev.eng e).acm (crAccD w)) → accLane ((s.dev.eng e).acm (crAccD w)) ((t.dev.eng e).ac (crAccD w)) l = satS (accWidth ((s.dev.eng e).acm (crAccD w))) (if crAux w % 2 = 1 then -crTerm ((s.dev.eng e).acm (crAccD w)) false (crWidth w) ((s.dev.eng e).vr (crA w)) ((s.dev.eng e).vr (crB w)) l else crTerm ((s.dev.eng e).acm (crAccD w)) false (crWidth w) ((s.dev.eng e).vr (crA w)) ((s.dev.eng e).vr (crB w)) l))
  ∧ (∀ (s : State) (e : Fin 128) (w : CrW), s.issues e 0x23 w = true → movesNothing w = true → mulLegal true (s.dev.eng e) w = true →
    ∃ t, exec (.crMpyj e none) s = .next t ∧ s.CrKeeps t e none (some (crAccD w))
      ∧ ∀ l, l < accCount ((s.dev.eng e).acm (crAccD w)) → accLane ((s.dev.eng e).acm (crAccD w)) ((t.dev.eng e).ac (crAccD w)) l = satS (accWidth ((s.dev.eng e).acm (crAccD w))) (if crAux w % 2 = 1 then -crTerm ((s.dev.eng e).acm (crAccD w)) true (crWidth w) ((s.dev.eng e).vr (crA w)) ((s.dev.eng e).vr (crB w)) l else crTerm ((s.dev.eng e).acm (crAccD w)) true (crWidth w) ((s.dev.eng e).vr (crA w)) ((s.dev.eng e).vr (crB w)) l))
  ∧ (∀ (s : State) (e : Fin 128) (w : CrW), s.issues e 0x24 w = true → movesNothing w = true → crLegalA true true .acc .vec 0 1 w = true → wdMatches (s.dev.eng e) (crAccD w) w = true →
    ∃ t, exec (.crAdda e none) s = .next t ∧ s.CrKeeps t e none (some (crAccD w))
      ∧ ∀ l, l < accCount ((s.dev.eng e).acm (crAccD w)) → accLane ((s.dev.eng e).acm (crAccD w)) ((t.dev.eng e).ac (crAccD w)) l = (if bit (s.dev.eng e).aov (8 * crAccD w + l) then accLane ((s.dev.eng e).acm (crAccD w)) ((s.dev.eng e).ac (crAccD w)) l else satS (accWidth ((s.dev.eng e).acm (crAccD w))) (accLane ((s.dev.eng e).acm (crAccD w)) ((s.dev.eng e).ac (crAccD w)) l + (if crAux w % 2 = 1 then ((wrapU (crWidth w) (lane (crWidth w) ((s.dev.eng e).vr (crA w)) l) : Nat) : Int) else lane (crWidth w) ((s.dev.eng e).vr (crA w)) l))))
  ∧ (∀ (s : State) (e : Fin 128) (w : CrW), s.issues e 0x25 w = true → movesNothing w = true → crLegalA true true .acc .vec 0 1 w = true → wdMatches (s.dev.eng e) (crAccD w) w = true →
    ∃ t, exec (.crLda e none) s = .next t ∧ s.CrKeeps t e none (some (crAccD w))
      ∧ ∀ l, l < accCount ((s.dev.eng e).acm (crAccD w)) → accLane ((s.dev.eng e).acm (crAccD w)) ((t.dev.eng e).ac (crAccD w)) l = (if crAux w % 2 = 1 then ((wrapU (crWidth w) (lane (crWidth w) ((s.dev.eng e).vr (crA w)) l) : Nat) : Int) else lane (crWidth w) ((s.dev.eng e).vr (crA w)) l))
  ∧ (∀ (s : State) (e : Fin 128) (w : CrW), s.issues e 0x26 w = true → movesNothing w = true → crLegalA true false .acc .none 0 0 w = true →
    ∃ t, exec (.crClr e none) s = .next t ∧ s.CrKeeps t e none (some (crAccD w))
      ∧ ((t.dev.eng e).ac (crAccD w)) = 0)
  ∧ (∀ (s : State) (e : Fin 128) (w : CrW), s.issues e 0x27 w = true → movesNothing w = true → crLegalA true false .acc .acc 0 0 w = true → ((s.dev.eng e).acm (crAccD w)) = 1 →
    ∃ t, exec (.crAsum e none) s = .next t ∧ s.CrKeeps t e none (some (crAccD w))
      ∧ accLane 1 ((t.dev.eng e).ac (crAccD w)) 0 = satS 80 (if ((s.dev.eng e).acm (crAccA w)) < 2 then (((List.range (accCount ((s.dev.eng e).acm (crAccA w)))).map fun l => accLane ((s.dev.eng e).acm (crAccA w)) ((s.dev.eng e).ac (crAccA w)) l).sum) else ((((List.range (accCount ((s.dev.eng e).acm (crAccA w)))).filter fun l => l % 2 = 0).map fun l => accLane ((s.dev.eng e).acm (crAccA w)) ((s.dev.eng e).ac (crAccA w)) l).sum))
      ∧ accLane 1 ((t.dev.eng e).ac (crAccD w)) 1 = (if ((s.dev.eng e).acm (crAccA w)) < 2 then 0 else satS 80 ((((List.range (accCount ((s.dev.eng e).acm (crAccA w)))).filter fun l => l % 2 = 1).map fun l => accLane ((s.dev.eng e).acm (crAccA w)) ((s.dev.eng e).ac (crAccA w)) l).sum)) ∧ accLane 1 ((t.dev.eng e).ac (crAccD w)) 2 = 0 ∧ accLane 1 ((t.dev.eng e).ac (crAccD w)) 3 = 0)
  ∧ (∀ (s : State) (e : Fin 128) (w : CrW), s.issues e 0x28 w = true → movesNothing w = true → crLegalA true false .acc .acc 0 1 w = true → ((s.dev.eng e).acm (crAccD w)) = 1 →
    ∃ t, exec (.crAddx e none) s = .next t ∧ s.CrKeeps t e none (some (crAccD w))
      ∧ ∀ l, l < 4 → accLane 1 ((t.dev.eng e).ac (crAccD w)) l = (if bit (s.dev.eng e).aov (8 * crAccD w + l) then accLane 1 ((s.dev.eng e).ac (crAccD w)) l else satS 80 (accLane 1 ((s.dev.eng e).ac (crAccD w)) l + (if ((s.dev.eng e).acm (crAccA w)) % 2 = 0 then accLane ((s.dev.eng e).acm (crAccA w)) ((s.dev.eng e).ac (crAccA w)) (4 * crAux w + l) else if crAux w = 0 then accLane ((s.dev.eng e).acm (crAccA w)) ((s.dev.eng e).ac (crAccA w)) l % 2 ^ 32 else accLane ((s.dev.eng e).acm (crAccA w)) ((s.dev.eng e).ac (crAccA w)) l / 2 ^ 32))))
  ∧ (∀ (s : State) (e : Fin 128) (w : CrW), s.issues e 0x29 w = true → movesNothing w = true → crLegalA true true .vec .acc 3 31 w = true → wdMatches (s.dev.eng e) (crAccA w) w = true →
    ∃ t, exec (.crRnd e none) s = .next t ∧ s.CrKeeps t e (some (crD w)) none
      ∧ ∀ l, l < 128 / crWidth w → lane (crWidth w) ((t.dev.eng e).vr (crD w)) l = satS (crWidth w) (rshr (accLane ((s.dev.eng e).acm (crAccA w)) ((s.dev.eng e).ac (crAccA w)) l) (32 * crB w + crAux w)))
  ∧ (∀ (s : State) (e : Fin 128) (w : CrW), s.issues e 0x2A w = true → movesNothing w = true → crLegalA true true .vec .acc 0 3 w = true → wdMatches (s.dev.eng e) (crAccA w) w = true → crAux w < 3 →
    ∃ t, exec (.crExa e none) s = .next t ∧ s.CrKeeps t e (some (crD w)) none
      ∧ ∀ l, l < 128 / crWidth w → lane (crWidth w) ((t.dev.eng e).vr (crD w)) l = toS (crWidth w) (wrapU (crWidth w) (accLane ((s.dev.eng e).acm (crAccA w)) ((s.dev.eng e).ac (crAccA w)) l / 2 ^ (crWidth w * crAux w))))

/-- BRA, CALL, RET, RTE, REP, LOOP, WAIT and HALT (R313, R314, R357 to R359): a branch and a return wait for their delay slot, CALL keeps the return address, REP and LOOP set their counts and bounds, WAIT and HALT stop the engine; and an instruction in the delay slot of each goes on at the target, RTE with the saved status. R303, R329, R349: at an address beyond the image, or on a reserved opcode, an issue is ILLEGAL, and on a word that has become uncorrectable, fetched or loaded from memory X, it is ECC: the engine is FAULTED with FAULT 2 or 3, its cluster's event is raised and its ERROR record is written. -/
def Obligations.CratreControl : Prop :=
  (∀ (s : State) (e : Fin 128) (w : CrW), s.issues e 0x40 w = true → crLegalK 0x000F000000000FFF w = true → fld w 48 4 < 14 →
    ∃ t, exec (.crBra e none) s = .next t ∧ (t.dev.eng e).pc = (s.dev.eng e).pc + 1 ∧ (t.dev.eng e).slot = some (if crCond (s.dev.eng e).sr (fld w 48 4) then (0, fld w 0 12) else (3, 0)) ∧ (∀ m, m ≠ e.val → t.dev.eng m = s.dev.eng m) ∧ (∀ j, t.dev.rd j = s.dev.rd j))
  ∧ (∀ (s : State) (e : Fin 128) (w : CrW), s.issues e 0x41 w = true → crLegalK 0xFFF w = true →
    ∃ t, exec (.crCall e none) s = .next t ∧ (t.dev.eng e).pc = (s.dev.eng e).pc + 1 ∧ (t.dev.eng e).ra = ((s.dev.eng e).pc + 2) % 4096 ∧ (t.dev.eng e).slot = some (0, fld w 0 12) ∧ (∀ m, m ≠ e.val → t.dev.eng m = s.dev.eng m) ∧ (∀ j, t.dev.rd j = s.dev.rd j))
  ∧ (∀ (s : State) (e : Fin 128) (w : CrW), s.issues e 0x42 w = true → crLegalK 0 w = true →
    ∃ t, exec (.crRet e none) s = .next t ∧ (t.dev.eng e).pc = (s.dev.eng e).pc + 1 ∧ (t.dev.eng e).slot = some (1, 0) ∧ (∀ m, m ≠ e.val → t.dev.eng m = s.dev.eng m) ∧ (∀ j, t.dev.rd j = s.dev.rd j))
  ∧ (∀ (s : State) (e : Fin 128) (w : CrW), s.issues e 0x43 w = true → crLegalK 0 w = true →
    ∃ t, exec (.crRte e none) s = .next t ∧ (t.dev.eng e).pc = (s.dev.eng e).pc + 1 ∧ (t.dev.eng e).slot = some (2, 0) ∧ (∀ m, m ≠ e.val → t.dev.eng m = s.dev.eng m) ∧ (∀ j, t.dev.rd j = s.dev.rd j))
  ∧ (∀ (s : State) (e : Fin 128) (w : CrW), s.issues e 0x44 w = true → crLegalK 0x3FF w = true → (s.dev.eng e).nprog ≤ (s.dev.eng e).pc + 1 ∨ crOp ((s.dev.eng e).fetch ((s.dev.eng e).pc + 1)) < 0x40 ∨ 0x48 ≤ crOp ((s.dev.eng e).fetch ((s.dev.eng e).pc + 1)) →
    ∃ t, exec (.crRep e none) s = .next t ∧ (t.dev.eng e).pc = (s.dev.eng e).pc + 1 ∧ (t.dev.eng e).rep = some (fld w 0 10 + 1) ∧ (∀ m, m ≠ e.val → t.dev.eng m = s.dev.eng m) ∧ (∀ j, t.dev.rd j = s.dev.rd j))
  ∧ (∀ (s : State) (e : Fin 128) (w : CrW), s.issues e 0x45 w = true → crLegalK 0xFFFFFFF w = true → (s.dev.eng e).pc + 2 ≤ fld w 0 12 →
    ∃ t, exec (.crLoop e none) s = .next t ∧ (t.dev.eng e).pc = (s.dev.eng e).pc + 1 ∧ (t.dev.eng e).ls = ((s.dev.eng e).pc + 2) % 4096 ∧ (t.dev.eng e).le = fld w 0 12 ∧ (t.dev.eng e).lc = fld w 12 16 + 1 ∧ bit (t.dev.eng e).sr 11 = true ∧ (∀ m, m ≠ e.val → t.dev.eng m = s.dev.eng m) ∧ (∀ j, t.dev.rd j = s.dev.rd j))
  ∧ (∀ (s : State) (e : Fin 128) (w : CrW), s.issues e 0x46 w = true → crLegalK 0 w = true →
    ∃ t, exec (.crWait e none) s = .next t ∧ (t.dev.eng e).pc = (s.dev.eng e).pc + 1 ∧ (t.dev.eng e).state = 2 ∧ (∀ m, m ≠ e.val → t.dev.eng m = s.dev.eng m) ∧ (∀ j, t.dev.rd j = s.dev.rd j))
  ∧ (∀ (s : State) (e : Fin 128) (w : CrW), s.issues e 0x47 w = true → crLegalK 0 w = true →
    ∃ t, exec (.crHalt e none) s = .next t ∧ (t.dev.eng e).pc = (s.dev.eng e).pc + 1 ∧ (t.dev.eng e).state = 3 ∧ (∀ m, m ≠ e.val → t.dev.eng m = s.dev.eng m) ∧ (∀ j, t.dev.rd j = s.dev.rd j))
  ∧ (∀ (s : State) (e : Fin 128) (k tgt : Nat), (s.dev.eng e).state = 1 → (s.dev.eng e).entryDue = none → (s.dev.eng e).pc < (s.dev.eng e).nprog → (s.dev.eng e).bad.contains (0x100000 + (s.dev.eng e).pc) = false → (s.dev.eng e).fetch (s.dev.eng e).pc = 0 → (s.dev.eng e).rep = none → (s.dev.eng e).stop = 0 →
      (s.dev.eng e).aovDue = false → (s.dev.eng e).loads = [] → (s.dev.eng e).slot = some (k, tgt) →
    ∃ t, exec (.crNop e none) s = .next t ∧ (t.dev.eng e).slot = none ∧ (k = 0 → (t.dev.eng e).pc = tgt) ∧ (k = 1 → (t.dev.eng e).pc = (s.dev.eng e).ra)
      ∧ (k = 2 → (t.dev.eng e).pc = (s.dev.eng e).ra ∧ (t.dev.eng e).sr = (s.dev.eng e).ssr) ∧ (k = 3 → (t.dev.eng e).pc = (s.dev.eng e).pc + 1))
  ∧ (∀ (s : State) (e : Fin 128) (n : Nat), (s.dev.eng e).state = 1 → (s.dev.eng e).entryDue = none → (s.dev.eng e).pc < (s.dev.eng e).nprog → (s.dev.eng e).bad.contains (0x100000 + (s.dev.eng e).pc) = false → (s.dev.eng e).fetch (s.dev.eng e).pc = 0 → (s.dev.eng e).rep = some (n + 2) → (s.dev.eng e).stop = 0 →
      (s.dev.eng e).slot = none → bit (s.dev.eng e).sr 11 = false → (s.dev.eng e).loads = [] →
    ∃ t, exec (.crNop e none) s = .next t ∧ (t.dev.eng e).rep = some (n + 1) ∧ (t.dev.eng e).pc = (s.dev.eng e).pc)
  ∧ (∀ (s : State) (e : Fin 128), (s.dev.eng e).state = 1 → (s.dev.eng e).entryDue = none → (s.dev.eng e).nprog ≤ (s.dev.eng e).pc →
    ∃ t, exec (.crNop e none) s = .next t ∧ (t.dev.eng e).state = 4 ∧ (t.dev.eng e).fault = 2 ∧ t.dev.on (Reg.CL_STATUS (e / 16)) 4 = true
      ∧ (t.dev.outOf (128 + e)).length = (s.dev.outOf (128 + e)).length + 1 ∧ t.dev.sump.reports.length = s.dev.sump.reports.length + 1)
  ∧ (∀ (s : State) (e : Fin 128), (s.dev.eng e).state = 1 → (s.dev.eng e).entryDue = none → (s.dev.eng e).pc < (s.dev.eng e).nprog → (s.dev.eng e).bad.contains (0x100000 + (s.dev.eng e).pc) = false → crListed (crOp ((s.dev.eng e).fetch (s.dev.eng e).pc)) = false →
    ∃ t, exec (.crAdd e none) s = .next t ∧ (t.dev.eng e).state = 4 ∧ (t.dev.eng e).fault = 2 ∧ t.dev.on (Reg.CL_STATUS (e / 16)) 4 = true
      ∧ (t.dev.outOf (128 + e)).length = (s.dev.outOf (128 + e)).length + 1)
  ∧ (∀ (s : State) (e : Fin 128), (s.dev.eng e).state = 1 → (s.dev.eng e).entryDue = none → (s.dev.eng e).pc < (s.dev.eng e).nprog →
    ∃ t, exec (.crNop e (some (0x100000 + (s.dev.eng e).pc))) s = .next t ∧ (t.dev.eng e).state = 4 ∧ (t.dev.eng e).fault = 3 ∧ t.dev.on (Reg.CL_STATUS (e / 16)) 4 = true
      ∧ (t.dev.outOf (128 + e)).length = (s.dev.outOf (128 + e)).length + 1)
  ∧ (∀ (s : State) (e : Fin 128) (w : CrW), s.issues e 0x4D w = true → crLegalK 0x00FFFFFF0000003F w = true → bit w 5 = false → crAddr w < 0x10000 →
    ∃ t, exec (.crLdv e (some (crAddr w / 16))) s = .next t ∧ (t.dev.eng e).state = 4 ∧ (t.dev.eng e).fault = 3 ∧ (t.dev.eng e).v = (s.dev.eng e).v ∧ t.dev.on (Reg.CL_STATUS (e / 16)) 4 = true)

/-- LDI, MFS and MTS (R355, R356): a special register takes the immediate or lane 0 of a vector, cut to its width; a vector takes the special register, zero above it. LDS, STS, LDV, STV, LDAC, STAC, STI, LDRS and STRS (R312, R360), in memory X: a load is outstanding with the value read, and reaches its register after the next instruction; a store writes the lane or the words it names and no other. -/
def Obligations.CratreSpecial : Prop :=
  (∀ (s : State) (e : Fin 128) (w : CrW), s.issues e 0x48 w = true → crLegalK 0x01F00000FFFFFFFF w = true → crSreg w < 23 → badLc (crSreg w) (crImm w) = false →
    ∃ t, exec (.crLdi e none) s = .next t ∧ (t.dev.eng e).pc = (s.dev.eng e).pc + 1 ∧ (crSreg w < 8 → (t.dev.eng e).sreg (crSreg w) = crImm w % 2 ^ 24) ∧ (crSreg w = 16 → (t.dev.eng e).sreg 16 = crImm w)
      ∧ (crSreg w = 20 → (t.dev.eng e).sreg 20 = crImm w % 4096) ∧ (crSreg w = 22 → (t.dev.eng e).sreg 22 = crImm w) ∧ (t.dev.eng e).v = (s.dev.eng e).v ∧ (∀ m, m ≠ e.val → t.dev.eng m = s.dev.eng m) ∧ (∀ j, t.dev.rd j = s.dev.rd j))
  ∧ (∀ (s : State) (e : Fin 128) (w : CrW), s.issues e 0x49 w = true → crLegalK 0x01F000000000001F w = true → crSreg w < 23 →
    ∃ t, exec (.crMfs e none) s = .next t ∧ (t.dev.eng e).pc = (s.dev.eng e).pc + 1 ∧ (t.dev.eng e).vr (crReg w) = BitVec.ofNat 128 ((s.dev.eng e).sreg (crSreg w)) ∧ (∀ k, k ≠ crReg w → (t.dev.eng e).vr k = (s.dev.eng e).vr k) ∧ (∀ m, m ≠ e.val → t.dev.eng m = s.dev.eng m) ∧ (∀ j, t.dev.rd j = s.dev.rd j))
  ∧ (∀ (s : State) (e : Fin 128) (w : CrW), s.issues e 0x4A w = true → crLegalK 0x01F000000000001F w = true → crSreg w < 23 → badLc (crSreg w) (lane32 ((s.dev.eng e).vr (crReg w)) 0) = false →
    ∃ t, exec (.crMts e none) s = .next t ∧ (t.dev.eng e).pc = (s.dev.eng e).pc + 1 ∧ (crSreg w < 8 → (t.dev.eng e).sreg (crSreg w) = lane32 ((s.dev.eng e).vr (crReg w)) 0 % 2 ^ 24)
      ∧ (crSreg w = 20 → (t.dev.eng e).sreg 20 = lane32 ((s.dev.eng e).vr (crReg w)) 0 % 4096) ∧ (crSreg w = 22 → (t.dev.eng e).sreg 22 = lane32 ((s.dev.eng e).vr (crReg w)) 0) ∧ (t.dev.eng e).v = (s.dev.eng e).v ∧ (∀ m, m ≠ e.val → t.dev.eng m = s.dev.eng m) ∧ (∀ j, t.dev.rd j = s.dev.rd j))
  ∧ (∀ (s : State) (e : Fin 128) (w : CrW), s.issues e 0x4B w = true → crLegalK 0x00FFFFFF0000001F w = true → crReg w < 23 → crAddr w < 0x10000 → (s.dev.eng e).bad.contains (crAddr w / 16) = false → badLc (crReg w) (lane32 ((s.dev.eng e).x.get (fun _ => 0) (crAddr w / 16)) (crAddr w / 4 % 4)) = false →
    ∃ t, exec (.crLds e none) s = .next t ∧ (t.dev.eng e).pc = (s.dev.eng e).pc + 1 ∧ (t.dev.eng e).loads = [(.s (crReg w), lane32 ((s.dev.eng e).x.get (fun _ => 0) (crAddr w / 16)) (crAddr w / 4 % 4))] ∧ (t.dev.eng e).x = (s.dev.eng e).x ∧ (∀ m, m ≠ e.val → t.dev.eng m = s.dev.eng m) ∧ (∀ j, t.dev.rd j = s.dev.rd j))
  ∧ (∀ (s : State) (e : Fin 128) (w : CrW), s.issues e 0x4C w = true → crLegalK 0x00FFFFFF0000001F w = true → crReg w < 23 → crAddr w < 0x10000 →
    ∃ t, exec (.crSts e none) s = .next t ∧ (t.dev.eng e).pc = (s.dev.eng e).pc + 1 ∧ lane32 ((t.dev.eng e).x.get (fun _ => 0) (crAddr w / 16)) (crAddr w / 4 % 4) = (s.dev.eng e).sreg (crReg w) % 2 ^ 32 ∧ (∀ k, k < 4 → k ≠ (crAddr w / 4 % 4) → lane32 ((t.dev.eng e).x.get (fun _ => 0) (crAddr w / 16)) k = lane32 ((s.dev.eng e).x.get (fun _ => 0) (crAddr w / 16)) k) ∧ (∀ k, k ≠ crAddr w / 16 → (t.dev.eng e).x.get (fun _ => 0) k = (s.dev.eng e).x.get (fun _ => 0) k) ∧ (∀ m, m ≠ e.val → t.dev.eng m = s.dev.eng m) ∧ (∀ j, t.dev.rd j = s.dev.rd j))
  ∧ (∀ (s : State) (e : Fin 128) (w : CrW), s.issues e 0x4D w = true → crLegalK 0x00FFFFFF0000003F w = true → bit w 5 = false → crAddr w < 0x10000 → (s.dev.eng e).bad.contains (crAddr w / 16) = false →
    ∃ t, exec (.crLdv e none) s = .next t ∧ (t.dev.eng e).pc = (s.dev.eng e).pc + 1 ∧ (t.dev.eng e).loads = [(.v (crReg w), ((s.dev.eng e).x.get (fun _ => 0) (crAddr w / 16)).toNat)] ∧ (t.dev.eng e).x = (s.dev.eng e).x ∧ (∀ m, m ≠ e.val → t.dev.eng m = s.dev.eng m) ∧ (∀ j, t.dev.rd j = s.dev.rd j))
  ∧ (∀ (s : State) (e : Fin 128) (w : CrW), s.issues e 0x4E w = true → crLegalK 0x00FFFFFF0000003F w = true → bit w 5 = false → crAddr w < 0x10000 →
    ∃ t, exec (.crStv e none) s = .next t ∧ (t.dev.eng e).pc = (s.dev.eng e).pc + 1 ∧ ((t.dev.eng e).x.get (fun _ => 0) (crAddr w / 16)) = (s.dev.eng e).vr (crReg w) ∧ (∀ k, k ≠ crAddr w / 16 → (t.dev.eng e).x.get (fun _ => 0) k = (s.dev.eng e).x.get (fun _ => 0) k) ∧ (∀ m, m ≠ e.val → t.dev.eng m = s.dev.eng m) ∧ (∀ j, t.dev.rd j = s.dev.rd j))
  ∧ (∀ (s : State) (e : Fin 128) (w : CrW), s.issues e 0x4F w = true → crLegalK 0x00FFFFFF00000003 w = true → crAddr w % 16 = 0 → crAddr w + 48 ≤ 0x10000 → (∀ j, j < 3 → (s.dev.eng e).bad.contains (crAddr w / 16 + j) = false) →
    ∃ t, exec (.crLdac e none) s = .next t ∧ (t.dev.eng e).pc = (s.dev.eng e).pc + 1 ∧ (t.dev.eng e).loads = ([0, 1, 2] : List Nat).map (fun j => (.accPart (crReg w % 4) j, ((s.dev.eng e).x.get (fun _ => 0) (crAddr w / 16 + j)).toNat)) ∧ (t.dev.eng e).x = (s.dev.eng e).x ∧ (∀ m, m ≠ e.val → t.dev.eng m = s.dev.eng m) ∧ (∀ j, t.dev.rd j = s.dev.rd j))
  ∧ (∀ (s : State) (e : Fin 128) (w : CrW), s.issues e 0x50 w = true → crLegalK 0x00FFFFFF00000003 w = true → crAddr w % 16 = 0 → crAddr w + 48 ≤ 0x10000 →
    ∃ t, exec (.crStac e none) s = .next t ∧ (t.dev.eng e).pc = (s.dev.eng e).pc + 1 ∧ (∀ j, j < 3 → (t.dev.eng e).x.get (fun _ => 0) (crAddr w / 16 + j) = BitVec.ofNat 128 (fld ((s.dev.eng e).ac (crReg w % 4)) (128 * j) 128)) ∧ (∀ m, m ≠ e.val → t.dev.eng m = s.dev.eng m) ∧ (∀ j, t.dev.rd j = s.dev.rd j))
  ∧ (∀ (s : State) (e : Fin 128) (w : CrW), s.issues e 0x51 w = true → crLegalK 0x00FFFFFFFFFFFFFF w = true → crAddr w < 0x10000 →
    ∃ t, exec (.crSti e none) s = .next t ∧ (t.dev.eng e).pc = (s.dev.eng e).pc + 1 ∧ lane32 ((t.dev.eng e).x.get (fun _ => 0) (crAddr w / 16)) (crAddr w / 4 % 4) = crImm w ∧ (∀ k, k < 4 → k ≠ (crAddr w / 4 % 4) → lane32 ((t.dev.eng e).x.get (fun _ => 0) (crAddr w / 16)) k = lane32 ((s.dev.eng e).x.get (fun _ => 0) (crAddr w / 16)) k) ∧ (∀ k, k ≠ crAddr w / 16 → (t.dev.eng e).x.get (fun _ => 0) k = (s.dev.eng e).x.get (fun _ => 0) k) ∧ (∀ m, m ≠ e.val → t.dev.eng m = s.dev.eng m) ∧ (∀ j, t.dev.rd j = s.dev.rd j))
  ∧ (∀ (s : State) (e : Fin 128) (w : CrW), s.issues e 0x52 w = true → crLegalK 0x00FFFFFF00000000 w = true → crAddr w + 8 ≤ 0x10000 → (s.dev.eng e).bad.contains (crAddr w / 16) = false → (s.dev.eng e).bad.contains ((crAddr w / 4 * 4 + 4) / 16) = false →
    ∃ t, exec (.crLdrs e none) s = .next t ∧ (t.dev.eng e).pc = (s.dev.eng e).pc + 1 ∧ (t.dev.eng e).loads = [(.s 20, lane32 ((s.dev.eng e).x.get (fun _ => 0) (crAddr w / 16)) (crAddr w / 4 % 4)), (.s 21, lane32 ((s.dev.eng e).x.get (fun _ => 0) ((crAddr w / 4 * 4 + 4) / 16)) ((crAddr w / 4 * 4 + 4) / 4 % 4))] ∧ (∀ m, m ≠ e.val → t.dev.eng m = s.dev.eng m) ∧ (∀ j, t.dev.rd j = s.dev.rd j))
  ∧ (∀ (s : State) (e : Fin 128) (w : CrW), s.issues e 0x53 w = true → crLegalK 0x00FFFFFF00000000 w = true → crAddr w + 8 ≤ 0x10000 →
    ∃ t, exec (.crStrs e none) s = .next t ∧ (t.dev.eng e).pc = (s.dev.eng e).pc + 1 ∧ lane32 ((t.dev.eng e).x.get (fun _ => 0) (crAddr w / 16)) (crAddr w / 4 % 4) = (s.dev.eng e).ra % 2 ^ 32
      ∧ lane32 ((t.dev.eng e).x.get (fun _ => 0) ((crAddr w / 4 * 4 + 4) / 16)) ((crAddr w / 4 * 4 + 4) / 4 % 4) = (s.dev.eng e).ssr.toNat ∧ (∀ m, m ≠ e.val → t.dev.eng m = s.dev.eng m) ∧ (∀ j, t.dev.rd j = s.dev.rd j))
  ∧ (∀ (s : State) (e : Fin 128) (k v : Nat), (s.dev.eng e).state = 1 → (s.dev.eng e).entryDue = none → (s.dev.eng e).pc < (s.dev.eng e).nprog → (s.dev.eng e).bad.contains (0x100000 + (s.dev.eng e).pc) = false → (s.dev.eng e).fetch (s.dev.eng e).pc = 0 → (s.dev.eng e).rep = none → (s.dev.eng e).stop = 0 →
      (s.dev.eng e).slot = none → bit (s.dev.eng e).sr 11 = false → (s.dev.eng e).loads = [(.v k, v)] →
    ∃ t, exec (.crNop e none) s = .next t ∧ (t.dev.eng e).vr k = BitVec.ofNat 128 v ∧ (t.dev.eng e).loads = [])

/-- EVENT_ENTRY and WAIT_RESUME (R316, R358): with IE set an engine enters its lowest pending enabled cause: RA and SSR save PC and SR, IE clears, the PC goes to the cause's vector and the entry is counted; a waiting engine resumes where it stands with IE clear, and enters with it set. ENG_HALT_CMD, ENG_RESUME_CMD, ENG_RESTART_CMD and CL_CLEAR_COUNTS (R329, R334): a running engine halts at its boundary and a waiting one at once, a halted one resumes, a restart begins the image in force at its entry, and the two counts clear. -/
def Obligations.EngineControl : Prop :=
  (∀ (s : State) (e : Fin 128) (k : Nat), (s.dev.eng e).state = 1 → (s.dev.eng e).entryDue = some k → (s.dev.eng e).loads = [] →
    ∃ t, exec (.eventEntry e) s = .next t ∧ (t.dev.eng e).pc = (s.dev.eng e).vbase + 8 * k ∧ (t.dev.eng e).ra = (s.dev.eng e).pc
      ∧ (t.dev.eng e).ssr = (s.dev.eng e).sr ∧ bit (t.dev.eng e).sr 31 = false ∧ (t.dev.eng e).cause = k
      ∧ t.dev.n (Reg.ENG_ENTRIES (e / 16) (e % 16)) = (s.dev.n (Reg.ENG_ENTRIES (e / 16) (e % 16)) + 1) % 2 ^ 32
      ∧ ∀ m, m ≠ e.val → t.dev.eng m = s.dev.eng m)
  ∧ (∀ (s : State) (e : Fin 128) (k : Nat), (s.dev.eng e).state = 2 → (s.dev.eng e).ready = some k → bit (s.dev.eng e).sr 31 = false →
    ∃ t, exec (.waitResume e) s = .next t ∧ t.dev.eng e = { s.dev.eng e with state := 1, testing := false } ∧ ∀ j, t.dev.rd j = s.dev.rd j)
  ∧ (∀ (s : State) (e : Fin 128) (k : Nat), (s.dev.eng e).state = 2 → (s.dev.eng e).ready = some k → bit (s.dev.eng e).sr 31 = true → (s.dev.eng e).loads = [] →
    ∃ t, exec (.waitResume e) s = .next t ∧ (t.dev.eng e).state = 1 ∧ (t.dev.eng e).pc = (s.dev.eng e).vbase + 8 * k ∧ (t.dev.eng e).ra = (s.dev.eng e).pc)
  ∧ (∀ (s : State) (i : Ini) (c : Fin 8) (e : Fin 16), s.reaches i (Reg.CL_CMD c) .write = true → (s.dev.eng (16 * c + e)).state = 1 →
      (s.dev.eng (16 * c + e)).stop = 0 → (s.dev.eng (16 * c + e)).slot = none → (s.dev.eng (16 * c + e)).rep = none →
    ∃ t, exec (.engHaltCmd i c e) s = .next t ∧ (t.dev.eng (16 * c + e)).state = 3 ∧ (∀ m, m ≠ 16 * c.val + e.val → t.dev.eng m = s.dev.eng m)
      ∧ ∀ j, t.dev.rd j = s.dev.rd j)
  ∧ (∀ (s : State) (i : Ini) (c : Fin 8) (e : Fin 16), s.reaches i (Reg.CL_CMD c) .write = true → (s.dev.eng (16 * c + e)).state = 3 →
    ∃ t, exec (.engResumeCmd i c e) s = .next t ∧ t.dev.eng (16 * c + e) = { s.dev.eng (16 * c + e) with state := 1 } ∧ ∀ j, t.dev.rd j = s.dev.rd j)
  ∧ (∀ (s : State) (i : Ini) (c : Fin 8) (e : Fin 16), s.reaches i (Reg.CL_CMD c) .write = true → bit (engWord (s.dev.clForce c) e) 127 = true →
      (s.dev.eng (16 * c + e)).state ≠ 5 → (s.dev.eng (16 * c + e)).state ≠ 6 → s.dev.engPhys (16 * c + e) ≠ 0xFF → (s.dev.eng (16 * c + e)).stop ≠ 2 →
    ∃ t, exec (.engRestartCmd i c e) s = .next t ∧ (t.dev.eng (16 * c + e)).state = 1 ∧ (t.dev.eng (16 * c + e)).pc = (s.dev.eng (16 * c + e)).entry
      ∧ (t.dev.eng (16 * c + e)).v = [] ∧ (t.dev.eng (16 * c + e)).sr = 0 ∧ (t.dev.eng (16 * c + e)).x = (s.dev.eng (16 * c + e)).x
      ∧ (t.dev.eng (16 * c + e)).pend = (s.dev.eng (16 * c + e)).pend)
  ∧ (∀ (s : State) (i : Ini) (c : Fin 8) (e : Fin 16), s.reaches i (Reg.CL_CMD c) .write = true →
    ∃ t, exec (.clClearCounts i c e) s = .next t ∧ t.dev.rd (Reg.ENG_MAXDELAY c e) = 0 ∧ t.dev.rd (Reg.ENG_OUT_SKIPS c e) = 0
      ∧ (∀ j, j ≠ Reg.ENG_MAXDELAY c e → j ≠ Reg.ENG_OUT_SKIPS c e → t.dev.rd j = s.dev.rd j) ∧ t.dev.engs = s.dev.engs)

/-- OUT_WORD_WRITE, OUT_COMMIT, OUT_DISCARD and ENG_SIGNAL (R322 to R324): a word joins the record being built, or overflows it; a commit of a legal record puts it out with the engine's source number and counts it; a discard drops it; a signal raises the engine's event. WINDOW_RELEASE, WINDOW_FEED, BLOCK_MOVE_START and BLOCK_MOVE_DONE (R319, R320, R325): a release drops bytes from the tail of the aperture's window; a queued stamp record enters its window; the mover takes one command and ends with its result, RANGE where the local range lies in no memory; a store whose range and words are good puts them in HBM and changes no other byte. -/
def Obligations.EngineOutput : Prop :=
  (∀ (s : State) (e : Fin 128) (w : Word128), s.dev.engFree e ≠ 0 →
    ∃ t, exec (.outWordWrite e w) s = .next t ∧ t.dev.eng e = { s.dev.eng e with out := (s.dev.eng e).out ++ [w] } ∧ ∀ j, t.dev.rd j = s.dev.rd j)
  ∧ (∀ (s : State) (e : Fin 128) (w : Word128), s.dev.engFree e = 0 →
    ∃ t, exec (.outWordWrite e w) s = .next t ∧ t.dev.eng e = { s.dev.eng e with ovf := true } ∧ ∀ j, t.dev.rd j = s.dev.rd j)
  ∧ (∀ (s : State) (e : Fin 128), (s.dev.eng e).ovf = false → 2 ≤ (s.dev.eng e).out.length → 0x80 ≤ fld (nth (s.dev.eng e).out 0 0) 120 8 →
    ∃ t, exec (.outCommit e) s = .next t ∧ (t.dev.eng e).out = [] ∧ (t.dev.outOf (128 + e)).length = (s.dev.outOf (128 + e)).length + 1
      ∧ t.dev.n (Reg.ENG_RECORDS (e / 16) (e % 16)) = (s.dev.n (Reg.ENG_RECORDS (e / 16) (e % 16)) + 1) % 2 ^ 32
      ∧ t.dev.nextSeq (0x5000 + e) = (s.dev.nextSeq (0x5000 + e) + 1) % 2 ^ 32)
  ∧ (∀ (s : State) (e : Fin 128), (s.dev.eng e).ovf = true →
    ∃ t, exec (.outCommit e) s = .next t ∧ (t.dev.eng e).out = [] ∧ (t.dev.eng e).ovf = false ∧ t.dev.on (Reg.CL_STATUS (e / 16)) 7 = true
      ∧ (t.dev.outOf (128 + e)).length = (s.dev.outOf (128 + e)).length + 1)
  ∧ (∀ (s : State) (e : Fin 128),
    ∃ t, exec (.outDiscard e) s = .next t ∧ t.dev.eng e = { s.dev.eng e with out := [] } ∧ ∀ j, t.dev.rd j = s.dev.rd j)
  ∧ (∀ (s : State) (e : Fin 128),
    ∃ t, exec (.engSignal e) s = .next t ∧ t.dev.n (Reg.EV_SEQ (1024 + e)) = (s.dev.n (Reg.EV_SEQ (1024 + e)) + 1) % 2 ^ 32
      ∧ ∀ j, j ≠ Reg.EV_SEQ (1024 + e) → t.dev.rd j = s.dev.rd j)
  ∧ (∀ (s : State) (e : Fin 128) (a : Fin 2) (n w : Nat), s.dev.apertureWin e a = some w →
    ∃ t, exec (.windowRelease e a n) s = .next t
      ∧ (t.dev.clWin (e / 16) w).data = (s.dev.clWin (e / 16) w).data.drop (min (n / 16) (s.dev.clWin (e / 16) w).data.length)
      ∧ (∀ v, v ≠ w → t.dev.clWin (e / 16) v = s.dev.clWin (e / 16) v) ∧ ∀ m, t.dev.eng m = s.dev.eng m)
  ∧ (∀ (s : State) (c : Fin 8) (w : Fin 32) (r : Rec) (l : List Rec), w.val < 16 → bit (winWord (s.dev.clForce c) w) 127 = true →
      fld (winWord (s.dev.clForce c) w) 125 2 = 2 → (s.dev.clWin c w).queue = r :: l →
    ∃ t, exec (.windowFeed c w) s = .next t ∧ (t.dev.clWin c w).queue = l ∧ t.mem = s.mem)
  ∧ (∀ (s : State) (e : Fin 128) (w : Word128), (s.dev.eng e).bm = none → fld w 0 2 = 1 ∨ fld w 0 2 = 2 →
    ∃ t, exec (.blockMoveStart e w) s = .next t ∧ t.dev.eng e = { s.dev.eng e with bm := some w } ∧ ∀ j, t.dev.rd j = s.dev.rd j)
  ∧ (∀ (s : State) (e : Fin 128) (w : Word128), (s.dev.eng e).bm = some w → localRange (fld w 56 24 / 16 * 16) (16 * (fld w 40 16 + 1)) = none →
    ∃ t, exec (.blockMoveDone e) s = .next t ∧ (t.dev.eng e).bm = none ∧ (t.dev.eng e).bmRes = 3 ∧ t.mem = s.mem)
  ∧ (∀ (s : State) (e : Fin 128) (w : Word128), (s.dev.eng e).bm = some w → fld w 0 2 = 2 → localRange (fld w 56 24 / 16 * 16) (16 * (fld w 40 16 + 1)) ≠ none →
      (s.dev.checkMem (BitVec.ofNat 10 (0x80 + e)) (10 + e / 16) (fld w 80 48) (16 * (fld w 40 16 + 1)) .write).2 = true →
      s.dev.ueEdges (fld w 80 48) (16 * (fld w 40 16 + 1)) = [] →
      (∀ k, k ≤ fld w 40 16 → s.dev.engBad e (fld w 56 24 / 16 * 16 + 16 * k) = false) →
    ∃ t, exec (.blockMoveDone e) s = .next t ∧ (t.dev.eng e).bm = none ∧ (t.dev.eng e).bmRes = 0
      ∧ (∀ k, k ≤ fld w 40 16 → t.mem.bytes (fld w 80 48 + 16 * k) 16 = memWord (s.dev.engRead e (fld w 56 24 / 16 * 16 + 16 * k) 16).1)
      ∧ ∀ a, a < fld w 80 48 ∨ fld w 80 48 + 16 * (fld w 40 16 + 1) ≤ a → t.mem.byte a = s.mem.byte a)

/-- CLUSTER_SWITCH and ENGINE_RELEASE (R328): a due cluster setup comes into force and its touched engines load; 812.5 ns after T_sw they are released together, an enabled one with a physical engine running at its image's entry. -/
def Obligations.ClusterSwitch : Prop :=
  (∀ (s : State) (c : Fin 8) (g : Grp) (k : Nat), s.dev.dueGroup (54 + c) = some (g, k) → k < 16 → s.dev.slotIn (54 + c) 3 = none → g.teff ≤ s.dev.now →
    ∃ t, exec (.clusterSwitch c) s = .next t ∧ t.dev.clForce c = (s.dev.slot (54 + c) k).words ∧ t.dev.on (Reg.CL_STATUS c) 1 = false
      ∧ t.dev.swOf (54 + c) = (s.dev.swOf (54 + c) + 1) % 2 ^ 28
      ∧ ∀ i : Fin 16, engTouched [] (s.dev.slot (54 + c) k).words i = true → (s.dev.eng (16 * c + i)).state ≠ 1 → (t.dev.eng (16 * c + i)).state = 5)
  ∧ (∀ (s : State) (c : Fin 8) (t0 : Nat) (i : Fin 16) (img : List Word128), (s.dev.cl c).loading = some (t0, [i.val]) →
      t0 + (8125 * 2 ^ 64 + 9999999999) / 10000000000 ≤ s.dev.now → (s.dev.eng (16 * c + i)).state = 5 → (s.dev.eng (16 * c + i)).shadow = some img →
      bit (engWord (s.dev.clForce c) i) 127 = true → s.dev.engPhys (16 * c + i) ≠ 0xFF →
    ∃ t, exec (.engineRelease c) s = .next t ∧ (t.dev.cl c).loading = none ∧ (t.dev.eng (16 * c + i)).state = 1
      ∧ (t.dev.eng (16 * c + i)).pc = imgEntry (nth img 0 0) ∧ (t.dev.eng (16 * c + i)).nprog = imgProg (nth img 0 0)
      ∧ (t.dev.eng (16 * c + i)).shadow = none)

/-- ENG_HW_FAULT, ENG_TEST_START, ENG_TEST_END and MIGRATION_DONE (R329 to R332): a faulted physical engine is retired and its logical engine restarts on the spare; a waiting engine is tested, counted where it passes and migrated where it fails, or retired and faulted with no spare; the migration binds it to the spare. -/
def Obligations.EngineSparing : Prop :=
  (∀ (s : State) (c : Fin 8) (q : Fin 17) (n : Nat), s.dev.on (Reg.CL_RETIRED c) q = false → s.dev.clSpare c ≠ q → s.dev.clSpare c ≠ 0x1F →
      s.dev.clSpare c < 17 → s.dev.engOn c q = some n → (s.dev.eng n).state = 1 → (s.dev.eng n).stop ≠ 2 → s.dev.migrant c = none →
    ∃ t, exec (.engHwFault c q) s = .next t ∧ t.dev.on (Reg.CL_RETIRED c) q = true ∧ t.dev.engPhys n = s.dev.clSpare c ∧ t.dev.clSpare c = 0x1F
      ∧ (t.dev.eng n).state = 1 ∧ (t.dev.eng n).pc = (s.dev.eng n).entry ∧ (t.dev.eng n).x = [] ∧ t.dev.on (Reg.CL_STATUS c) 4 = true)
  ∧ (∀ (s : State) (e : Fin 128), (s.dev.eng e).state = 2 → s.dev.slotIn (54 + e / 16) 2 = none → (s.dev.cl (e / 16)).loading = none →
    ∃ t, exec (.engTestStart e) s = .next t ∧ t.dev.eng e = { s.dev.eng e with testing := true } ∧ ∀ j, t.dev.rd j = s.dev.rd j)
  ∧ (∀ (s : State) (e : Fin 128), (s.dev.eng e).testing = true →
    ∃ t, exec (.engTestEnd e true) s = .next t ∧ (t.dev.eng e).testing = false ∧ (t.dev.eng e).testedAt = some s.dev.up
      ∧ t.dev.n (Reg.ENG_TESTS (e / 16) (e % 16)) = (s.dev.n (Reg.ENG_TESTS (e / 16) (e % 16)) + 1) % 2 ^ 32)
  ∧ (∀ (s : State) (e : Fin 128), (s.dev.eng e).testing = true → s.dev.clSpare (e / 16) ≠ 0x1F → s.dev.migrant (e / 16) = none →
    ∃ t, exec (.engTestEnd e false) s = .next t ∧ (t.dev.eng e).state = 6 ∧ t.dev.on (Reg.CL_STATUS (e / 16)) 2 = true ∧ t.dev.on Reg.FL_STATUS 11 = true)
  ∧ (∀ (s : State) (e : Fin 128), (s.dev.eng e).testing = true → (s.dev.eng e).stop ≠ 2 → s.dev.clSpare (e / 16) = 0x1F → s.dev.engPhys e < 17 →
    ∃ t, exec (.engTestEnd e false) s = .next t ∧ (t.dev.eng e).state = 4 ∧ (t.dev.eng e).fault = 5 ∧ t.dev.engPhys e = 0xFF
      ∧ t.dev.on (Reg.CL_RETIRED (e / 16)) (s.dev.engPhys e) = true)
  ∧ (∀ (s : State) (c : Fin 8) (i : Fin 16), (List.range 16).find? (fun k => (s.dev.eng (16 * c + k)).state = 6) = some i.val → s.dev.clSpare c < 17 →
      s.dev.engPhys (16 * c + i) < 17 → (s.dev.eng (16 * c + i)).stop ≠ 2 →
    ∃ t, exec (.migrationDone c) s = .next t ∧ (t.dev.eng (16 * c + i)).state = 2 ∧ t.dev.engPhys (16 * c + i) = s.dev.clSpare c ∧ t.dev.clSpare c = 0x1F
      ∧ t.dev.on (Reg.CL_RETIRED c) (s.dev.engPhys (16 * c + i)) = true ∧ t.dev.n (Reg.MIG_COUNT c) = (s.dev.n (Reg.MIG_COUNT c) + 1) % 2 ^ 32)

/-- CMD_DOORBELL, CW_DONE_TAIL_WRITE, CW_ENABLE, CW_READ and CW_UNKNOWN_OPCODE (R366 to R370, R382): a doorbell sets CMD_HEAD within its ring and is a locked write beyond it; the consumer's tail lets a waiting entry in; CTRL takes a write, its ring sizes only while EN is 0; READ stores an object's words at ADDR; an unlisted opcode completes with 0x10. -/
def Obligations.CausewayRings : Prop :=
  (∀ (s : State) (i : Ini) (data : Word), s.reaches i Reg.CW_CMD_HEAD .write = true → fld data 0 12 < 2 ^ s.dev.f Reg.CW_CTRL 8 4 →
    ∃ t, exec (.cmdDoorbell i data) s = .next t ∧ t.dev.n Reg.CW_CMD_HEAD = fld data 0 12 ∧ t.mem = s.mem
      ∧ ∀ j, j ≠ Reg.CW_CMD_HEAD → j ≠ Reg.CW_STATUS → j ≠ Reg.CW_GROUPS → t.dev.rd j = s.dev.rd j)
  ∧ (∀ (s : State) (i : Ini) (data : Word), s.reaches i Reg.CW_CMD_HEAD .write = true → 2 ^ s.dev.f Reg.CW_CTRL 8 4 ≤ fld data 0 12 →
    ∃ t, exec (.cmdDoorbell i data) s = .next t ∧ t.dev.rd Reg.CW_CMD_HEAD = s.dev.rd Reg.CW_CMD_HEAD ∧ t.mem = s.mem)
  ∧ (∀ (s : State) (i : Ini) (data : Word), s.reaches i Reg.CW_DONE_TAIL .write = true → s.dev.cw.waiting = [] →
    ∃ t, exec (.cwDoneTailWrite i data) s = .next t ∧ t.dev.n Reg.CW_DONE_TAIL = fld data 0 12 ∧ t.mem = s.mem
      ∧ ∀ j, j ≠ Reg.CW_DONE_TAIL → j ≠ Reg.CW_STATUS → j ≠ Reg.CW_GROUPS → t.dev.rd j = s.dev.rd j)
  ∧ (∀ (s : State) (i : Ini) (data : Word) (w0 w1 w2 w3 : Word128), s.reaches i Reg.CW_DONE_TAIL .write = true → s.dev.cw.waiting = [[w0, w1, w2, w3]] →
      s.dev.cw.held = false → s.writable 0x1E3 22 s.doneAt 64 = true →
      (s.dev.n Reg.CW_DONE_HEAD + 2 ^ s.dev.f Reg.CW_CTRL 0 4 - fld data 0 12 % 2 ^ s.dev.f Reg.CW_CTRL 0 4) % 2 ^ s.dev.f Reg.CW_CTRL 0 4
        ≠ 2 ^ s.dev.f Reg.CW_CTRL 0 4 - 1 →
    ∃ t, exec (.cwDoneTailWrite i data) s = .next t ∧ t.dev.cw.waiting = [] ∧ t.mem.bytes s.doneAt 64 = [w0, w1, w2, w3].flatMap memWord
      ∧ s.sameOutside t s.doneAt 64 ∧ t.dev.n Reg.CW_DONE_HEAD = (s.dev.n Reg.CW_DONE_HEAD + 1) % 2 ^ s.dev.f Reg.CW_CTRL 0 4)
  ∧ (∀ (s : State) (i : Ini) (data : Word), s.reaches i Reg.CW_CTRL .write = true → s.dev.on Reg.CW_CTRL 31 = false → s.dev.cw.waiting = [] →
    ∃ t, exec (.cwEnable i data) s = .next t ∧ t.dev.n Reg.CW_CTRL = normCwCtrl 0 0 data.toNat ∧ t.mem = s.mem
      ∧ ∀ j, j ≠ Reg.CW_CTRL → j ≠ Reg.CW_STATUS → j ≠ Reg.CW_GROUPS → t.dev.rd j = s.dev.rd j)
  ∧ (∀ (s : State) (i : Ini) (data : Word), s.reaches i Reg.CW_CTRL .write = true → s.dev.on Reg.CW_CTRL 31 = true →
      normCwCtrl 0 0 data.toNat % 2 ^ 31 ≠ s.dev.n Reg.CW_CTRL % 2 ^ 31 →
    ∃ t, exec (.cwEnable i data) s = .next t ∧ t.dev.rd Reg.CW_CTRL = s.dev.rd Reg.CW_CTRL ∧ t.mem = s.mem)
  ∧ (∀ (s : State) (c : Cmd) (t : Nat), s.fetches c = true → s.writable 0x1E3 22 s.doneAt 64 = true → c.bad = false → c.op = 2 →
      targetNum c.target = some t → c.addr % 16 = 0 → (s.dev.slot t c.slot).words ≠ [] →
      s.writable 0x1E3 22 c.addr (16 * (s.dev.slot t c.slot).words.length) = true →
      c.addr + 16 * (s.dev.slot t c.slot).words.length ≤ s.doneAt ∨ s.doneAt + 64 ≤ c.addr →
    ∃ u, exec .cwRead s = .next u ∧ s.Completes u (doneWord c 0 c.target c.slot 0 0)
      ∧ u.mem.bytes c.addr (16 * (s.dev.slot t c.slot).words.length) = (s.dev.slot t c.slot).words.flatMap memWord
      ∧ (∀ a, a < c.addr ∨ c.addr + 16 * (s.dev.slot t c.slot).words.length ≤ a → a < s.doneAt ∨ s.doneAt + 64 ≤ a → u.mem.byte a = s.mem.byte a)
      ∧ u.dev.cw.slots = s.dev.cw.slots)
  ∧ (∀ (s : State) (c : Cmd), s.fetches c = true → s.writable 0x1E3 22 s.doneAt 64 = true → c.bad = true →
    ∃ u, exec .cwUnknownOpcode s = .next u ∧ s.Completes u (doneWord c 0x10 c.target c.slot 0 0) ∧ s.sameOutside u s.doneAt 64
      ∧ u.dev.on Reg.CW_STATUS 6 = true ∧ u.dev.cw.slots = s.dev.cw.slots)

/-- CW_WRITE, CW_CLEAR, TABLE_WRITE, IMAGE_LOAD and IMAGE_DROP (R363 to R371): a setup that passes its checks is HELD in its slot with its words; a slot neither ARMED nor IN_FORCE clears; a table takes the words read; a verified image is stored and one that fails is refused with 0x1C; an image no setup names is dropped. Each completes in the ring. -/
def Obligations.CausewayObjects : Prop :=
  (∀ (s : State) (c : Cmd) (t : Nat), s.fetches c = true → s.writable 0x1E3 22 s.doneAt 64 = true → c.bad = false → c.op = 1 →
      targetNum c.target = some t → c.count = targetLen t → c.addr % 16 = 0 → (s.dev.slot t c.slot).st < 2 →
      s.readable 0x1E3 22 c.addr (16 * c.count) = true → s.dev.setupBad t (words128 (s.mem.bytes c.addr (16 * c.count))) = [] →
    ∃ u, exec .cwWrite s = .next u ∧ s.Completes u (doneWord c 0 c.target c.slot 0 0) ∧ s.sameOutside u s.doneAt 64
      ∧ u.dev.slot t c.slot = { st := 1, words := words128 (s.mem.bytes c.addr (16 * c.count)) }
      ∧ ∀ t' k, 16 * t' + k ≠ 16 * t + c.slot → u.dev.slot t' k = s.dev.slot t' k)
  ∧ (∀ (s : State) (c : Cmd) (t k : Nat), s.fetches c = true → s.writable 0x1E3 22 s.doneAt 64 = true → c.bad = false → c.op = 1 →
      targetNum c.target = some t → c.count = targetLen t → c.addr % 16 = 0 → (s.dev.slot t c.slot).st < 2 →
      s.readable 0x1E3 22 c.addr (16 * c.count) = true → lowest (s.dev.setupBad t (words128 (s.mem.bytes c.addr (16 * c.count)))) = some k →
    ∃ u, exec .cwWrite s = .next u ∧ s.Completes u (doneWord c 0x13 c.target c.slot 0 k) ∧ s.sameOutside u s.doneAt 64
      ∧ u.dev.cw.slots = s.dev.cw.slots ∧ u.dev.on Reg.CW_STATUS 6 = true)
  ∧ (∀ (s : State) (c : Cmd) (t : Nat), s.fetches c = true → s.writable 0x1E3 22 s.doneAt 64 = true → c.bad = false → c.op = 3 →
      targetNum c.target = some t → (s.dev.slot t c.slot).st < 2 →
    ∃ u, exec .cwClear s = .next u ∧ s.Completes u (doneWord c 0 c.target c.slot 0 0) ∧ s.sameOutside u s.doneAt 64 ∧ u.dev.slot t c.slot = {}
      ∧ ∀ t' k, 16 * t' + k ≠ 16 * t + c.slot → u.dev.slot t' k = s.dev.slot t' k)
  ∧ (∀ (s : State) (c : Cmd), s.fetches c = true → s.writable 0x1E3 22 s.doneAt 64 = true → c.bad = false → c.op = 6 →
      isTable c.target = true → c.slot = 0 → c.addr % 16 = 0 → s.dev.inUse c.target = false → 1 ≤ c.count →
      c.count ≤ (if c.target / 4096 = 8 then 16385 else 1025) → s.readable 0x1E3 22 c.addr (16 * c.count) = true →
      tableBad c.target (words128 (s.mem.bytes c.addr (16 * c.count))) = none →
      c.count = tableWords c.target (wd (words128 (s.mem.bytes c.addr (16 * c.count))) 0) →
    ∃ u, exec .tableWrite s = .next u ∧ s.Completes u (doneWord c 0 c.target 0 0 0) ∧ s.sameOutside u s.doneAt 64
      ∧ u.dev.object c.target = words128 (s.mem.bytes c.addr (16 * c.count))
      ∧ ∀ k, k ≠ c.target → u.dev.object k = s.dev.object k)
  ∧ (∀ (s : State) (c : Cmd), s.fetches c = true → s.writable 0x1E3 22 s.doneAt 64 = true → c.bad = false → c.op = 7 →
      c.target / 4096 = 0xA → c.slot = 0 → c.addr % 16 = 0 → s.dev.inUse c.target = false → 2 ≤ c.count → c.count ≤ 4097 →
      s.readable 0x1E3 22 c.addr (256 + 16 * c.count) = true → s.dev.storeList = [] →
      hdrField (s.mem.bytes c.addr 256) 12 4 = 16 * c.count →
      imageWords (BitVec.ofNat 128 (natBE (s.mem.bytes (c.addr + 256) 16))) = c.count →
    ∃ u, exec .imageLoad s = .next u ∧ s.sameOutside u s.doneAt 64
      ∧ (s.dev.verifyImage 3 (s.mem.bytes c.addr 256) (s.mem.bytes (c.addr + 256) (16 * c.count)) = 0 →
          s.Completes u (doneWord c 0 c.target 0 0 0)
          ∧ ∀ k, k < c.count → nth (u.dev.object c.target) k 0 = BitVec.ofNat 128 (natBE (s.mem.bytes (c.addr + 256 + 16 * k) 16)))
      ∧ (s.dev.verifyImage 3 (s.mem.bytes c.addr 256) (s.mem.bytes (c.addr + 256) (16 * c.count)) ≠ 0 →
          s.Completes u (doneWord c 0x1C c.target 0 0 0) ∧ u.dev.cw.images = s.dev.cw.images))
  ∧ (∀ (s : State) (c : Cmd), s.fetches c = true → s.writable 0x1E3 22 s.doneAt 64 = true → c.bad = false → c.op = 8 →
      c.target / 4096 = 0xA → c.slot = 0 → s.dev.inUse c.target = false →
    ∃ u, exec .imageDrop s = .next u ∧ s.Completes u (doneWord c 0 c.target 0 0 0) ∧ s.sameOutside u s.doneAt 64
      ∧ u.dev.object c.target = [] ∧ ∀ k, k ≠ c.target → u.dev.object k = s.dev.object k)

/-- CW_ARM, CW_CANCEL, TARGET_ACK, DECISION_EDGE, LATE_COMMIT, LATE_LIMIT_EXPIRE, COMMIT_STROBE, SWITCH_COMPLETE and FLOW_SWITCH_BOUNDARY (R372 to R377, R470): a pair that passes every check becomes an armed group; each target's acknowledgement joins it; at its decision edge it is committed, made late or abandoned, by its acknowledgements and POSTPONE; a late group commits 200 ns ahead once ready, or times out; the strobe of a commit comes 16 periods after its edge; with every boundary passed the switch completes. -/
def Obligations.CausewaySwitching : Prop :=
  (∀ (s : State) (c : Cmd) (t w : Nat), s.fetches c = true → s.writable 0x1E3 22 s.doneAt 64 = true → c.bad = false → c.op = 4 → c.count = 1 →
      c.addr % 16 = 0 → s.readable 0x1E3 22 c.addr 4 = true → natLE (s.mem.bytes c.addr 4) = w → pairTarget w = some t →
      (s.dev.slot t (w % 16)).st = 1 → s.dev.slotIn t 2 = none → s.dev.domUp (cwArmCmd.targetDomain t) = true → s.dev.cw.groups.length < 16 →
      s.dev.setupBad t (s.dev.slot t (w % 16)).words = [] →
      s.dev.setupFits [(t, (s.dev.slot t (w % 16)).words)] t (s.dev.slot t (w % 16)).words = true →
    ∃ u, exec .cwArm s = .next u ∧ s.Completes u (doneWord c 1 c.target c.slot (s.dev.cw.next % 256) 0) ∧ s.sameOutside u s.doneAt 64
      ∧ u.dev.slot t (w % 16) = { s.dev.slot t (w % 16) with st := 2 } ∧ u.dev.cw.next = (s.dev.cw.next % 256 + 1) % 256
      ∧ ∃ g, u.dev.cw.groups = s.dev.cw.groups ++ [g] ∧ g.num = s.dev.cw.next % 256 ∧ g.pairs = [(t, w % 16)] ∧ g.time = ofShort c.time
          ∧ g.postpone = c.postpone ∧ g.acked = [] ∧ g.committed = false ∧ g.late = false)
  ∧ (∀ (s : State) (c : Cmd) (x : Grp), s.fetches c = true → s.writable 0x1E3 22 s.doneAt 64 = true → c.bad = false → c.op = 5 →
      s.dev.group? c.time = some x → x.decided = false →
    ∃ u, exec .cwCancel s = .next u ∧ u.dev.group? c.time = none ∧ u.mem.bytes s.doneAt 16 = memWord (doneWord c 4 c.target c.slot c.time 0)
      ∧ ∀ p ∈ x.pairs, (s.dev.slot p.1 p.2).st = 2 → (u.dev.slot p.1 p.2).st = 1)
  ∧ (∀ (s : State) (t : Fin 64) (x : Grp), s.dev.cw.groups.find? (fun g => g.pairs.any (fun p => p.1 = t.val) && !(g.acked.contains t.val)) = some x →
    ∃ u, exec (.targetAck t) s = .next u ∧ { x with acked := x.acked ++ [t.val] } ∈ u.dev.cw.groups ∧ u.dev.cw.slots = s.dev.cw.slots ∧ u.mem = s.mem)
  ∧ (∀ (s : State) (g : Nat) (x : Grp), s.dev.group? g = some x → x.decided = false → x.time ≤ s.dev.now + nsUnits 200 → x.ready = true →
    ∃ u, exec (.decisionEdge g) s = .next u ∧ { x with committed := true, edge := s.dev.tb.edges, teff := x.time } ∈ u.dev.cw.groups
      ∧ u.mem = s.mem ∧ ∀ j, u.dev.rd j = s.dev.rd j)
  ∧ (∀ (s : State) (g : Nat) (x : Grp), s.dev.group? g = some x → x.decided = false → x.time ≤ s.dev.now + nsUnits 200 → x.ready = false →
      x.postpone = true →
    ∃ u, exec (.decisionEdge g) s = .next u ∧ { x with late := true } ∈ u.dev.cw.groups ∧ u.mem = s.mem ∧ ∀ j, u.dev.rd j = s.dev.rd j)
  ∧ (∀ (s : State) (g : Nat) (x : Grp), s.dev.group? g = some x → x.decided = false → x.time ≤ s.dev.now + nsUnits 200 → x.ready = false →
      x.postpone = false →
    ∃ u, exec (.decisionEdge g) s = .next u ∧ u.dev.group? g = none ∧ u.dev.on Reg.CW_STATUS 5 = true
      ∧ ∀ p ∈ x.pairs, (s.dev.slot p.1 p.2).st = 2 → (u.dev.slot p.1 p.2).st = 1)
  ∧ (∀ (s : State) (g : Nat) (x : Grp), s.dev.group? g = some x → x.late = true → x.committed = false → x.ready = true →
    ∃ u, exec (.lateCommit g) s = .next u
      ∧ { x with committed := true, edge := s.dev.tb.edges, teff := s.dev.now + nsUnits 200 } ∈ u.dev.cw.groups
      ∧ u.mem = s.mem ∧ ∀ j, u.dev.rd j = s.dev.rd j)
  ∧ (∀ (s : State) (g : Nat) (x : Grp), s.dev.group? g = some x → x.late = true → x.committed = false → x.ready = false →
      elapsedNs x.time s.dev.now (max 1 (s.dev.f Reg.CW_LATE_LIMIT 0 16) * 1000000) = true →
    ∃ u, exec (.lateLimitExpire g) s = .next u ∧ u.dev.group? g = none ∧ u.dev.on Reg.CW_STATUS 5 = true
      ∧ ∀ p ∈ x.pairs, (s.dev.slot p.1 p.2).st = 2 → (u.dev.slot p.1 p.2).st = 1)
  ∧ (∀ (s : State) (g : Nat) (x : Grp), s.dev.group? g = some x → x.committed = true → x.strobed = false → x.edge + 16 ≤ s.dev.tb.edges →
    ∃ u, exec (.commitStrobe g) s = .next u ∧ { x with strobed := true } ∈ u.dev.cw.groups ∧ u.mem = s.mem ∧ ∀ j, u.dev.rd j = s.dev.rd j)
  ∧ (∀ (s : State) (g : Nat) (x : Grp), s.dev.group? g = some x → x.strobed = true → (∀ p ∈ x.pairs, p.1 ∈ x.passed) →
    ∃ u, exec (.switchComplete g) s = .next u ∧ u.dev.group? g = none ∧ u.dev.n Reg.CW_SWITCHES = (s.dev.n Reg.CW_SWITCHES + 1) % 2 ^ 32
      ∧ u.dev.on Reg.CW_STATUS 4 = true ∧ u.dev.cw.slots = s.dev.cw.slots)
  ∧ (∀ (s : State) (p : Fin 2) (g : Grp) (k : Nat), s.dev.dueGroup (62 + p) = some (g, k) → k < 16 → s.dev.slotIn (62 + p) 3 = none → g.teff ≤ s.dev.now →
      (∀ f, f < 256 → (s.dev.flow p f).items = []) →
    ∃ u, exec (.flowSwitchBoundary p) s = .next u ∧ u.dev.force (62 + p) = (s.dev.slot (62 + p) k).words
      ∧ u.dev.swOf (62 + p) = (s.dev.swOf (62 + p) + 1) % 2 ^ 28 ∧ u.mem = s.mem
      ∧ ∀ f : Fin 256, bit (flowA (s.dev.slot (62 + p) k).words f) 127 = true →
          (u.dev.flow p f).origin = s.dev.timeWord 4 false g.teff ∧ (u.dev.flow p f).pkt = 0)

/-- AUX_SEQ_GO, INJ_GO, SEQ_ROUND_START, INJ_START_QUEUE, HK_ROUND_START, CONVERSION_OUTPUT, RES_POP and AUX_CLEAR_COUNTS (R386 to R402): a start is due after its delay, or is a miss; a round that is due runs entry 0 on a free converter; an injection joins the queue in the order of its number, or runs; a housekeeping round runs AX16 first; an output is corrected, and goes to its HK register or the FIFO; a read of RES_0 pops the oldest result. -/
def Obligations.AuxConversions : Prop :=
  (∀ (s : State) (i : Ini), s.takes i Reg.AUX_CMD = true → s.dev.on Reg.SEQ_CTRL 31 = true → s.dev.startSrc = 0 → s.dev.ax.seq = none → s.dev.ax.due = none →
    ∃ t, exec (.auxSeqGo i) s = .next t ∧ t.dev.ax = { s.dev.ax with due := some s.dev.modEdges } ∧ ∀ j, t.dev.rd j = s.dev.rd j)
  ∧ (∀ (s : State) (i : Ini) (e : Nat), s.takes i Reg.AUX_CMD = true → s.dev.on Reg.SEQ_CTRL 31 = true → s.dev.startSrc = 0 → s.dev.ax.seq = some e →
    ∃ t, exec (.auxSeqGo i) s = .next t ∧ t.dev.ax = s.dev.ax ∧ t.dev.on Reg.AUX_STATUS 10 = true
      ∧ t.dev.n Reg.ROUND_MISSES = min (s.dev.n Reg.ROUND_MISSES + 1) (2 ^ 32 - 1))
  ∧ (∀ (s : State) (i : Ini) (j : Fin 4), s.takes i Reg.AUX_CMD = true → s.dev.f (Reg.INJ_TRIG j) 30 2 = 0 → s.dev.ax.injQ = [] →
      s.dev.ax.injDue.get (fun _ => none) j = none → s.dev.ax.run = none →
    ∃ t, exec (.injGo i j) s = .next t ∧ t.dev.ax.injDue.get (fun _ => none) j = some (s.dev.modEdges + 100 * s.dev.f (Reg.INJ_TRIG j) 0 16)
      ∧ t.dev.on Reg.AUX_STATUS 3 = true ∧ ∀ k, k ≠ Reg.AUX_STATUS → t.dev.rd k = s.dev.rd k)
  ∧ (∀ (s : State) (n : Nat), s.dev.ax.timer = none → s.dev.ax.due = some n → n ≤ s.dev.modEdges → s.dev.on Reg.SEQ_CTRL 31 = true → s.dev.ax.ready = true →
      s.dev.ax.run = none → s.dev.ax.calRun = none → s.dev.ax.hk = none → s.dev.ax.injQ = [] → s.dev.ax.calQ = false →
    ∃ t r, exec .seqRoundStart s = .next t ∧ t.dev.ax.run = some r ∧ r.who = 6 ∧ r.idx = 0 ∧ r.cfg = s.dev.rd (Reg.ENTRY 0)
      ∧ r.start = s.dev.modUp ∧ r.outs = 0 ∧ t.dev.ax.seq = some 0 ∧ t.dev.ax.due = none)
  ∧ (∀ (s : State) (j : Fin 4) (n : Nat), s.dev.ax.injDue.get (fun _ => none) j = some n → n ≤ s.dev.modEdges → s.dev.ax.ready = false ∨ s.dev.ax.run.isSome = true →
    ∃ t, exec (.injStartQueue j) s = .next t ∧ t.dev.ax.injDue.get (fun _ => none) j = none
      ∧ t.dev.ax.injQ = s.dev.ax.injQ.filter (· < j.val) ++ j.val :: s.dev.ax.injQ.filter (j.val < ·) ∧ t.dev.ax.run = s.dev.ax.run
      ∧ ∀ k, k ≠ Reg.AUX_STATUS → t.dev.rd k = s.dev.rd k)
  ∧ (∀ (s : State) (j : Fin 4) (n : Nat), s.dev.ax.injDue.get (fun _ => none) j = some n → n ≤ s.dev.modEdges → s.dev.ax.ready = true → s.dev.ax.run = none →
      s.dev.ax.calRun = none → s.dev.ax.hk = none → s.dev.ax.injQ = [] →
    ∃ t r, exec (.injStartQueue j) s = .next t ∧ t.dev.ax.run = some r ∧ r.who = 1 + j ∧ r.idx = j ∧ r.cfg = s.dev.rd (Reg.INJ_CFG j)
      ∧ r.start = s.dev.modUp ∧ t.dev.ax.injQ = [])
  ∧ (∀ (s : State) (n : Nat), s.dev.ax.hkAt = some n → n ≤ s.dev.modEdges → s.dev.ax.ready = true → s.dev.ax.run = none → s.dev.ax.calRun = none →
      s.dev.ax.hk = none →
    ∃ t r, exec .hkRoundStart s = .next t ∧ t.dev.ax.run = some r ∧ r.who = 0 ∧ r.idx = 0 ∧ r.cfg = hkEntry 0 ∧ t.dev.ax.hk = some 0
      ∧ t.dev.ax.hkAt = some (n + s.dev.n Reg.HK_PERIOD * 1280000))
  ∧ (∀ (s : State) (raw : Int) (r : AuxRun), s.dev.ax.run = some r → r.who = 0 → r.idx < 12 → r.inv ≤ r.outs →
      s.dev.modPast (r.start + (r.outs + 1) * auxOsr r.cfg) = true → -(2 ^ 23) ≤ raw → raw < 2 ^ 23 →
    ∃ t, exec (.conversionOutput raw) s = .next t
      ∧ t.dev.rd (Reg.HK r.idx) = packBE 32 [(wrapU 24 (auxCode r (medianInt ((raw :: r.med).take (auxMed r.cfg)))), 24), (0, 8)]
      ∧ t.dev.ax.fifo = s.dev.ax.fifo)
  ∧ (∀ (s : State) (raw : Int) (r : AuxRun), s.dev.ax.run = some r → r.who = 6 → r.inv ≤ r.outs →
      s.dev.modPast (r.start + (r.outs + 1) * auxOsr r.cfg) = true → -(2 ^ 23) ≤ raw → raw < 2 ^ 23 → s.dev.ax.fifo.length < 256 →
    ∃ t e, exec (.conversionOutput raw) s = .next t ∧ t.dev.ax.fifo = s.dev.ax.fifo ++ [e] ∧ e.length = 4 ∧ fld (nth e 0 0) 29 3 = 4
      ∧ nth e 1 0 = packBE 32 [(wrapU 24 (auxCode r (medianInt ((raw :: r.med).take (auxMed r.cfg)))), 24), (0, 8)])
  ∧ (∀ (s : State) (i : Ini) (w0 w1 w2 w3 : Word) (l : List (List Word)), s.reaches i (Reg.RES 0) .read = true → s.dev.flight 0x16 = none →
      s.dev.ax.fifo = [w0, w1, w2, w3] :: l →
    ∃ t, exec (.resPop i) s = .next t ∧ t.dev.resp = ⟨true, w0⟩ ∧ t.dev.ax.fifo = l ∧ t.dev.rd (Reg.RES 0) = w0 ∧ t.dev.rd (Reg.RES 1) = w1
      ∧ t.dev.rd (Reg.RES 2) = w2 ∧ t.dev.rd (Reg.RES 3) = w3)
  ∧ (∀ (s : State) (i : Ini), s.takes i Reg.AUX_CMD = true →
    ∃ t, exec (.auxClearCounts i) s = .next t ∧ t.dev.rd Reg.ROUND_MISSES = 0 ∧ t.dev.rd Reg.INJ_MISSES = 0 ∧ t.dev.rd Reg.RES_DROPS = 0 ∧ t.dev.ax = s.dev.ax
      ∧ ∀ k, k ≠ Reg.ROUND_MISSES → k ≠ Reg.INJ_MISSES → k ≠ Reg.RES_DROPS → t.dev.rd k = s.dev.rd k)

/-- AUX_CAL, AUX_CAL_AUTO_START, AUX_CAL_END, AUX_CAL_ABORT, PWM_PERIOD_START, PWM_COMPARE, TACH_EDGE and TACH_STALL (R396 to R401): a calibration runs on a free converter, and waits for a busy one; at its end the mean offsets and the factors that make AX28 read 1.000 V wait for a conversion start if the residual offset is in bounds, and it fails otherwise; an abort drops it. A PWM period takes what was written; at its duty count the output goes inactive. A tachometer gives the distance of its edges, and 0 after 2^24 periods without one. -/
def Obligations.AuxCalibrationAndFans : Prop :=
  (∀ (s : State) (i : Ini), s.takes i Reg.AUX_CMD = true → s.dev.ax.calQ = false → s.dev.ax.calRun = none → s.dev.ax.ready = true → s.dev.ax.run = none →
      s.dev.ax.hk = none → s.dev.ax.injQ = [] →
    ∃ t, exec (.auxCal i) s = .next t ∧ t.dev.ax.calRun = some s.dev.modUp ∧ t.dev.ax.calQ = false ∧ t.dev.on Reg.AUX_STATUS 5 = true
      ∧ ∀ k, k ≠ Reg.AUX_STATUS → t.dev.rd k = s.dev.rd k)
  ∧ (∀ (s : State) (i : Ini), s.takes i Reg.AUX_CMD = true → s.dev.ax.calRun = none → s.dev.ax.ready = false →
    ∃ t, exec (.auxCal i) s = .next t ∧ t.dev.ax.calQ = true ∧ t.dev.ax.calRun = none ∧ ∀ k, k ≠ Reg.AUX_STATUS → t.dev.rd k = s.dev.rd k)
  ∧ (∀ (s : State) (a : Int), s.dev.on Reg.AUX_CAL_CTRL 31 = true → s.dev.ax.ready = true → s.dev.ax.temp = some a →
      tempMoved (s.dev.hk 0) a (s.dev.f Reg.AUX_CAL_CTRL 24 6 + 1) = true → s.dev.ax.calQ = false → s.dev.ax.calRun = none → s.dev.ax.run = none →
      s.dev.ax.hk = none → s.dev.ax.injQ = [] →
    ∃ t, exec .auxCalAutoStart s = .next t ∧ t.dev.ax.calRun = some s.dev.modUp ∧ ∀ k, k ≠ Reg.AUX_STATUS → t.dev.rd k = s.dev.rd k)
  ∧ (∀ (s : State) (runs : List (List Int × List Int)) (check : List Int) (resid m : Nat), s.dev.ax.calRun = some m → s.dev.modPast (m + calLength) = true →
      s.dev.ax.hk = none → s.dev.ax.injQ = [] → s.dev.ax.calQ = false → s.dev.ax.seq = none →
      resid = calResidual (calPair s.dev.fresh 0 (nth runs 0 ([], [])).1 (nth runs 0 ([], [])).2) check → resid ≤ s.dev.f Reg.AUX_CAL_CTRL 0 16 →
    ∃ t l, exec (.auxCalEnd runs check) s = .next t ∧ t.dev.ax.calRun = none ∧ t.dev.ax.temp = some (s.dev.hk 0) ∧ t.dev.ax.calNew = some l ∧ l.length = 5
      ∧ (∀ g, g < 5 → (nth l g (0, 0)).1 = calMean (nth runs g ([], [])).1)
      ∧ (∀ g k : Nat, g < 5 → 0 < calMean (nth runs g ([], [])).2 - calMean (nth runs g ([], [])).1 → 0 < k → k < 2 ^ 24 →
          (k : Int) = (2 * (voltCode g * 2 ^ 22) + (calMean (nth runs g ([], [])).2 - calMean (nth runs g ([], [])).1))
            / (2 * (calMean (nth runs g ([], [])).2 - calMean (nth runs g ([], [])).1)) → (nth l g (0, 0)).2 = k)
      ∧ t.dev.f Reg.AUX_CAL_RESULT 28 4 = 1 ∧ t.dev.f Reg.AUX_CAL_RESULT 0 16 = resid ∧ t.dev.on Reg.AUX_STATUS 12 = true)
  ∧ (∀ (s : State) (runs : List (List Int × List Int)) (check : List Int) (resid m : Nat), s.dev.ax.calRun = some m → s.dev.modPast (m + calLength) = true →
      s.dev.ax.hk = none → s.dev.ax.injQ = [] → s.dev.ax.calQ = false → s.dev.ax.seq = none →
      resid = calResidual (calPair s.dev.fresh 0 (nth runs 0 ([], [])).1 (nth runs 0 ([], [])).2) check → s.dev.f Reg.AUX_CAL_CTRL 0 16 < resid →
    ∃ t, exec (.auxCalEnd runs check) s = .next t ∧ t.dev.ax.calRun = none ∧ t.dev.ax.calNew = none
      ∧ t.dev.f Reg.AUX_CAL_RESULT 28 4 = 2 ∧ t.dev.on Reg.AUX_STATUS 13 = true)
  ∧ (∀ (s : State) (i : Ini), s.takes i Reg.AUX_CMD = true → s.dev.ax.calRun.isSome = true →
    ∃ t, exec (.auxCalAbort i) s = .next t ∧ t.dev.ax.calRun = none ∧ t.dev.ax.calNew = none ∧ t.dev.ax.calQ = false ∧ t.dev.f Reg.AUX_CAL_RESULT 28 4 = 3)
  ∧ (∀ (s : State) (c : Fin 8), s.dev.ax.stop = none → (s.dev.pwm c).on = false → s.dev.on (Reg.PWM_CFG c) 31 = true → s.dev.on (Reg.PWM_CFG c) 29 = false →
    ∃ t, exec (.pwmPeriodStart c) s = .next t ∧ (t.dev.pwm c).on = true ∧ (t.dev.pwm c).start = s.dev.modUp ∧ (t.dev.pwm c).per = s.dev.f (Reg.PWM_PER c) 0 16
      ∧ (t.dev.pwm c).duty = s.dev.f (Reg.PWM_DUTY c) 0 24 / 256 + (s.dev.pwm c).acc / 256 ∧ (t.dev.pwm c).active = decide (0 < (t.dev.pwm c).duty))
  ∧ (∀ (s : State) (c : Fin 8), s.dev.ax.stop = none → (s.dev.pwm c).on = true → s.dev.on (Reg.PWM_CFG c) 31 = false →
      s.dev.modPast ((s.dev.pwm c).start + ((s.dev.pwm c).presc + 1) * ((s.dev.pwm c).per + 1)) = true →
    ∃ t, exec (.pwmPeriodStart c) s = .next t ∧ t.dev.pwm c = { s.dev.pwm c with on := false, active := false } ∧ ((s.dev.pwm c).active = false → ∀ k, t.dev.rd k = s.dev.rd k))
  ∧ (∀ (s : State) (c : Fin 8), s.dev.ax.stop = none → (s.dev.pwm c).on = true → (s.dev.pwm c).active = true → (s.dev.pwm c).duty ≤ (s.dev.pwm c).per →
      s.dev.modPast ((s.dev.pwm c).start + (s.dev.pwm c).duty * ((s.dev.pwm c).presc + 1)) = true →
    ∃ t, exec (.pwmCompare c) s = .next t ∧ t.dev.pwm c = { s.dev.pwm c with active := false })
  ∧ (∀ (s : State) (k : Fin 4) (a : Nat), s.dev.on (Reg.TACH_CFG k) 31 = true → (s.dev.tach k).last = some a →
      s.dev.f (Reg.TACH_CFG k) 0 16 < s.dev.modEdges / 100 - a →
    ∃ t, exec (.tachEdge k) s = .next t ∧ t.dev.n (Reg.TACH_PER k) = (s.dev.modEdges / 100 - a) % 2 ^ 24
      ∧ t.dev.tach k = ⟨some (s.dev.modEdges / 100), some (s.dev.modEdges / 100)⟩ ∧ ∀ j, j ≠ Reg.TACH_PER k → t.dev.rd j = s.dev.rd j)
  ∧ (∀ (s : State) (k : Fin 4), s.dev.on (Reg.TACH_CFG k) 31 = true → (s.dev.tach k).last = none →
    ∃ t, exec (.tachEdge k) s = .next t ∧ t.dev.tach k = ⟨some (s.dev.modEdges / 100), some (s.dev.modEdges / 100)⟩ ∧ ∀ j, t.dev.rd j = s.dev.rd j)
  ∧ (∀ (s : State) (k : Fin 4) (a : Nat), s.dev.on (Reg.TACH_CFG k) 31 = true → (s.dev.tach k).since = some a → a + 2 ^ 24 ≤ s.dev.modEdges / 100 →
    ∃ t, exec (.tachStall k) s = .next t ∧ t.dev.tach k = {} ∧ t.dev.rd (Reg.TACH_PER k) = 0 ∧ t.dev.on Reg.AUX_STATUS 7 = true)

/-- MEASUREMENT_WINDOW_END, PLAN_START, PLAN_MEASUREMENT_END, PLAN_SETTLE_END, PLAN_TIMEOUT, PLAN_RETRY and REPLAN (R408 to R414): a window gives the worst ring, its margin and the cause STEP; the first window after an OK or LIMIT plan with every cause clear holds the guarantee again; a plan starts at the band's table voltage; a measurement in bounds ends it with OK, one below the target raises the voltage by 5 mV and one well above it lowers it; a plan of 2 s ends with TIMEOUT and is tried again. -/
def Obligations.PlannerRuns : Prop :=
  (∀ (s : State) (counts : List Nat), s.dev.fl.win < winOf s.dev.up → s.dev.derated = true → 737028 < (worstRing 1 counts).2 →
    ∃ t, exec (.measurementWindowEnd counts) s = .next t ∧ t.dev.rd Reg.WORST = packBE 32 [((worstRing 1 counts).1, 8), ((worstRing 1 counts).2, 24)]
      ∧ t.dev.n Reg.MARGIN = wrapU 16 (satS 16 (marginOf (worstRing 1 counts).2)) ∧ t.dev.on Reg.DERATE_CAUSE 1 = true ∧ t.dev.derated = true
      ∧ t.dev.fl.win = winOf s.dev.up)
  ∧ (∀ (s : State) (counts : List Nat) (a : Nat), s.dev.fl.win < winOf s.dev.up → s.dev.derated = true → (worstRing 1 counts).2 ≤ 737028 →
      s.dev.f Reg.DERATE_CAUSE 0 5 = 0 → s.dev.fl.okAt = some a → s.dev.fl.clearAt ≤ a → (∀ st, (s.dev.stream st).shed = false) →
    ∃ t, exec (.measurementWindowEnd counts) s = .next t ∧ t.dev.derated = false ∧ t.dev.on Reg.FL_STATUS 0 = true ∧ t.dev.lastDerated = s.dev.now
      ∧ t.dev.on Reg.FL_STATUS 6 = true ∧ t.dev.shedLevel = 0)
  ∧ (∀ (s : State), s.dev.fl.plan = none → s.dev.vddOvr = none → s.dev.on Reg.DERATE_CAUSE 3 = false →
      (s.dev.fl.planned = false ∧ s.dev.ax.ready = true) ∨ (s.dev.fl.planned = true ∧ s.dev.on Reg.FL_STATUS 2 = true) →
    ∃ t p, exec .planStart s = .next t ∧ t.dev.fl.plan = some p ∧ p.band = s.dev.f Reg.DIE_TEMP 16 4 ∧ p.t0 = s.dev.up ∧ p.steps = 0 ∧ p.down = true
      ∧ p.v = (if s.dev.f (Reg.V_TABLE (s.dev.f Reg.DIE_TEMP 16 4)) 0 16 = 0 then s.dev.vddCmd else s.dev.f (Reg.V_TABLE (s.dev.f Reg.DIE_TEMP 16 4)) 0 16)
      ∧ t.dev.fl.planned = true ∧ t.dev.on Reg.FL_STATUS 3 = true ∧ t.dev.on Reg.FL_STATUS 2 = false ∧ ∀ j, j ≠ Reg.FL_STATUS → t.dev.rd j = s.dev.rd j)
  ∧ (∀ (s : State) (counts : List Nat) (p : PlanSt) (a : Nat), s.dev.fl.plan = some p → p.call = some a → winFrom a + 256 ≤ winOf s.dev.up → p.band < 9 →
      p.down = false → 10 * (s.dev.f Reg.FL_CTRL 24 8 : Int) ≤ marginOf (worstRing 256 counts).2 →
    ∃ t, exec (.planMeasurementEnd counts) s = .next t ∧ t.dev.fl.plan = none ∧ t.dev.f Reg.PLAN_RESULT 28 4 = 1 ∧ t.dev.n (Reg.V_TABLE p.band) = s.dev.vddCmd
      ∧ t.dev.n Reg.PLAN_COUNT = (s.dev.n Reg.PLAN_COUNT + 1) % 2 ^ 32 ∧ t.dev.fl.okAt = some s.dev.up ∧ t.dev.on Reg.FL_STATUS 7 = true)
  ∧ (∀ (s : State) (counts : List Nat) (p : PlanSt) (a : Nat), s.dev.fl.plan = some p → p.call = some a → winFrom a + 256 ≤ winOf s.dev.up →
      p.down = false → marginOf (worstRing 256 counts).2 < 10 * (s.dev.f Reg.FL_CTRL 24 8 : Int) → p.v < 860 →
    ∃ t q, exec (.planMeasurementEnd counts) s = .next t ∧ t.dev.fl.plan = some q ∧ q.v = min 860 (p.v + 5) ∧ q.steps = p.steps + 1 ∧ q.call = none
      ∧ q.band = p.band ∧ t.dev.rd Reg.PLAN_RESULT = s.dev.rd Reg.PLAN_RESULT)
  ∧ (∀ (s : State) (counts : List Nat) (p : PlanSt) (a : Nat), s.dev.fl.plan = some p → p.call = some a → winFrom a + 256 ≤ winOf s.dev.up →
      p.down = true → 10 * (s.dev.f Reg.FL_CTRL 24 8 : Int) + 100 ≤ marginOf (worstRing 256 counts).2 → 680 < p.v →
    ∃ t q, exec (.planMeasurementEnd counts) s = .next t ∧ t.dev.fl.plan = some q ∧ q.v = max 680 (p.v - 5) ∧ q.steps = p.steps + 1 ∧ q.down = true)
  ∧ (∀ (s : State) (p : PlanSt), s.dev.fl.plan = some p → p.call = none → p.v = s.dev.vddCmd → s.dev.stepFree = true →
    ∃ t, exec .planSettleEnd s = .next t ∧ t.dev.fl.plan = some { p with call := some s.dev.up } ∧ ∀ j, t.dev.rd j = s.dev.rd j)
  ∧ (∀ (s : State) (p : PlanSt), s.dev.fl.plan = some p → elapsedNs p.t0 s.dev.up 2000000000 = true →
    ∃ t, exec .planTimeout s = .next t ∧ t.dev.fl.plan = none ∧ t.dev.f Reg.PLAN_RESULT 28 4 = 4 ∧ t.dev.fl.retryAt = some (s.dev.up + 2 ^ 64))
  ∧ (∀ (s : State) (a : Nat), s.dev.fl.retryAt = some a → a ≤ s.dev.up →
    ∃ t, exec .planRetry s = .next t ∧ t.dev.fl.retryAt = none ∧ t.dev.on Reg.FL_STATUS 2 = true ∧ ∀ j, j ≠ Reg.FL_STATUS → t.dev.rd j = s.dev.rd j)
  ∧ (∀ (s : State) (i : Ini), s.reaches i Reg.FL_CMD .write = true →
    ∃ t, exec (.replan i) s = .next t ∧ t.dev.on Reg.FL_STATUS 2 = true ∧ t.dev.fl = s.dev.fl ∧ ∀ j, j ≠ Reg.FL_STATUS → t.dev.rd j = s.dev.rd j)

/-- VOLTAGE_STEP, REGULATOR_POLL, REGULATOR_RETRY, VDD_OVERRIDE_FIRE and DERATE_OVERRIDE_FIRE (R410, R415, R416, R422): a step moves the command by at most 5 mV toward the goal within 680 to 860 mV; an unacknowledged command or poll derates with cause REGULATOR; a retry that reads back within 10 mV clears it and calls for a plan; an override in range takes the voltage over, one out of range is refused; a DERATE_OVR value sets or clears its own cause. -/
def Obligations.RegulatorAndOverrides : Prop :=
  (∀ (s : State) (readback v : Nat), s.dev.vddGoal = some v → v ≠ s.dev.vddCmd → s.dev.stepFree = true → s.dev.on Reg.DERATE_CAUSE 3 = false → readback < 65536 →
    ∃ t, exec (.voltageStep true false readback) s = .next t
      ∧ t.dev.vddCmd = clampN 680 860 (if s.dev.vddCmd < v then min v (s.dev.vddCmd + 5) else max v (s.dev.vddCmd - 5))
      ∧ t.dev.f Reg.VDD_NOW 16 16 = readback ∧ t.dev.fl.stepAt = some s.dev.up ∧ ∀ j, j ≠ Reg.VDD_NOW → t.dev.rd j = s.dev.rd j)
  ∧ (∀ (s : State) (fault : Bool) (readback v : Nat), s.dev.vddGoal = some v → v ≠ s.dev.vddCmd → s.dev.stepFree = true → s.dev.on Reg.DERATE_CAUSE 3 = false →
    ∃ t, exec (.voltageStep false fault readback) s = .next t ∧ t.dev.on Reg.DERATE_CAUSE 3 = true ∧ t.dev.on Reg.FL_STATUS 9 = true ∧ t.dev.fl.plan = none)
  ∧ (∀ (s : State) (readback : Nat), s.dev.on Reg.DERATE_CAUSE 3 = false → elapsedNs s.dev.fl.pollAt s.dev.up 10000000 = true → readback < 65536 →
      s.dev.vddNear readback = true →
    ∃ t, exec (.regulatorPoll true false readback) s = .next t ∧ t.dev.f Reg.VDD_NOW 16 16 = readback ∧ t.dev.vddCmd = s.dev.vddCmd
      ∧ t.dev.fl.pollAt = s.dev.up ∧ ∀ j, j ≠ Reg.VDD_NOW → t.dev.rd j = s.dev.rd j)
  ∧ (∀ (s : State) (fault : Bool) (readback : Nat), s.dev.on Reg.DERATE_CAUSE 3 = false → elapsedNs s.dev.fl.pollAt s.dev.up 10000000 = true →
    ∃ t, exec (.regulatorPoll false fault readback) s = .next t ∧ t.dev.on Reg.DERATE_CAUSE 3 = true ∧ t.dev.on Reg.FL_STATUS 9 = true ∧ t.dev.fl.plan = none)
  ∧ (∀ (s : State) (readback : Nat), s.dev.on Reg.DERATE_CAUSE 3 = true → elapsedNs s.dev.fl.faultAt s.dev.up 100000000 = true → readback < 65536 →
      s.dev.vddNear readback = true →
    ∃ t, exec (.regulatorRetry true readback) s = .next t ∧ t.dev.on Reg.DERATE_CAUSE 3 = false ∧ t.dev.on Reg.FL_STATUS 2 = true
      ∧ t.dev.f Reg.VDD_NOW 16 16 = readback ∧ t.dev.vddCmd = s.dev.vddCmd)
  ∧ (∀ (s : State) (i : Ini) (data v : Word), s.fires i Reg.VDD_OVR_FIRE data v = true → bit v 31 = true → 680 ≤ fld v 0 16 → fld v 0 16 ≤ 860 →
      s.dev.fl.plan = none →
    ∃ t, exec (.vddOverrideFire i data) s = .next t ∧ t.dev.vddOvr = some (fld v 0 16) ∧ t.dev.on Reg.FL_STATUS 5 = true ∧ t.dev.vddGoal = some (fld v 0 16))
  ∧ (∀ (s : State) (i : Ini) (data v : Word), s.fires i Reg.VDD_OVR_FIRE data v = true → bit v 31 = true → fld v 0 16 < 680 ∨ 860 < fld v 0 16 →
    ∃ t, exec (.vddOverrideFire i data) s = .next t ∧ t.dev.rd Reg.VDD_OVR_ARM = s.dev.rd Reg.VDD_OVR_ARM ∧ t.dev.fl = s.dev.fl)
  ∧ (∀ (s : State) (i : Ini) (data v : Word), s.fires i Reg.DERATE_OVR_FIRE data v = true →
    ∃ t, exec (.derateOverrideFire i data) s = .next t ∧ t.dev.rd Reg.DERATE_OVR_ARM = v ∧ t.dev.on Reg.DERATE_CAUSE 4 = (v == 1)
      ∧ t.dev.on Reg.FL_STATUS 5 = (s.dev.vddOvr.isSome || v == 1 || v == 2))

/-- AGEING_MEASURE_START, AGEING_MEASURE_END, SHED_DWELL_END, SHED_PRI_WRITE, STREAM_SHED, SHED_GAP, LOG_APPEND_DONE, CAL_SUMMARY, SCRUB_READ, SCRUB_PASS_END, SCRUB_LATE, MARCH_TEST_START, MARCH_TEST_END and FL_CLEAR_COUNTS (R417 to R432): a measurement of the sensors begins, and gives each live sensor its drift; the shed level rises by one after a dwell in which a condition held; a stream at or below the level stops, with GAP records of 1 ms; the log takes its oldest waiting entry, or leaves a partial slot; the scrub counts and moves on by 32 bytes; a failed March test takes the bank out. -/
def Obligations.FloorHousekeeping : Prop :=
  (∀ (s : State), s.dev.fl.ageEdge = none → s.dev.fl.ageAt = none → s.dev.on Reg.TB_STATUS 0 = true →
    ∃ t, exec .ageingMeasureStart s = .next t ∧ t.dev.fl = { s.dev.fl with ageAt := some s.dev.up, ageEdge := some s.dev.tb.edges } ∧ ∀ j, t.dev.rd j = s.dev.rd j)
  ∧ (∀ (s : State) (pairs : List (Nat × Nat)) (e : Nat), s.dev.fl.ageEdge = some e → e + 2 ^ 20 ≤ s.dev.tb.edges →
    ∃ t, exec (.ageingMeasureEnd pairs) s = .next t ∧ t.dev.fl.ageEdge = none
      ∧ ∀ k, k < 96 → (nth pairs k (0, 0)).2 ≠ 0 → (s.dev.fl.drifts.get (fun _ => (0, false)) k).2 = false →
          t.dev.fl.drifts.get (fun _ => (0, false)) k = (driftOf (nth pairs k (0, 0)).1 (nth pairs k (0, 0)).2, false))
  ∧ (∀ (s : State), s.dev.derated = true → elapsedNs s.dev.fl.dwellAt s.dev.up (s.dev.f Reg.FL_CTRL 0 16 * 1000000) = true → s.dev.fl.hit = true →
      s.dev.n Reg.DERATE_OVR_ARM ≠ 2 → s.dev.shedLevel < 16 →
    ∃ t, exec .shedDwellEnd s = .next t ∧ t.dev.shedLevel = s.dev.shedLevel + 1 ∧ t.dev.on Reg.FL_STATUS 8 = true ∧ t.dev.fl.dwellAt = s.dev.up)
  ∧ (∀ (s : State), s.dev.derated = true → elapsedNs s.dev.fl.dwellAt s.dev.up (s.dev.f Reg.FL_CTRL 0 16 * 1000000) = true → s.dev.fl.hit = false →
    ∃ t, exec .shedDwellEnd s = .next t ∧ t.dev.fl.dwellAt = s.dev.up ∧ ∀ j, t.dev.rd j = s.dev.rd j)
  ∧ (∀ (s : State) (i : Ini) (j : Fin 6) (data : Word), s.reaches i (Reg.SHED_PRI j) .write = true →
    ∃ t, exec (.shedPriWrite i j data) s = .next t ∧ t.dev.rd (Reg.SHED_PRI j) = data ∧ t.mem = s.mem ∧ ∀ k, k ≠ Reg.SHED_PRI j → t.dev.rd k = s.dev.rd k)
  ∧ (∀ (s : State) (st : Fin 48), s.dev.mustShed st = true → (s.dev.stream st).shed = false →
    ∃ t, exec (.streamShed st) s = .next t ∧ (t.dev.stream st).shed = true
      ∧ ((∀ l, (s.dev.lane l).overFrom = none ∧ (s.dev.lane l).oosFrom = none) → (s.dev.group (st / 12)).shadow = none →
          (∀ k, k ≠ st.val → t.dev.stream k = s.dev.stream k) ∧ ∀ j, t.dev.rd j = s.dev.rd j))
  ∧ (∀ (s : State) (st : Fin 48) (a : Nat), (s.dev.stream st).shed = true → (s.dev.stream st).shedFrom = some a → a + nsUnits 1000000 ≤ s.dev.now →
    ∃ t, exec (.shedGap st) s = .next t ∧ (t.dev.stream st).shedFrom = some (a + nsUnits 1000000) ∧ (t.dev.stream st).shed = true)
  ∧ (∀ (s : State) (e : LogEntry) (l : List LogEntry), s.dev.logBuf = e :: l → s.dev.fl.scanned = true → s.dev.on Reg.FL_STATUS 4 = false → s.dev.n Reg.LOG_ENTRIES < 65535 →
    ∃ t w, exec (.logAppendDone true) s = .next t ∧ t.dev.logBuf = l ∧ t.dev.n Reg.LOG_ENTRIES = s.dev.n Reg.LOG_ENTRIES + 1
      ∧ t.dev.fl.log.find? (s.dev.n Reg.LOG_ENTRIES) = some w ∧ wd w 1 = e.time ∧ wd w 2 = e.payload ∧ fld (wd w 0) 120 8 = e.kind % 256)
  ∧ (∀ (s : State) (e : LogEntry) (l : List LogEntry), s.dev.logBuf = e :: l → s.dev.fl.scanned = true → s.dev.on Reg.FL_STATUS 4 = false → s.dev.n Reg.LOG_ENTRIES < 65535 →
    ∃ t, exec (.logAppendDone false) s = .next t ∧ t.dev.logBuf = e :: l ∧ t.dev.n Reg.LOG_ENTRIES = s.dev.n Reg.LOG_ENTRIES + 1
      ∧ t.dev.n Reg.LOG_PARTIAL = (s.dev.n Reg.LOG_PARTIAL + 1) % 2 ^ 32 ∧ t.dev.on Reg.FL_STATUS 12 = true)
  ∧ (∀ (s : State), elapsedNs s.dev.fl.sumAt s.dev.up 86400000000000 = true → s.dev.logBuf.length < 16 → s.dev.on Reg.FL_STATUS 4 = false →
    ∃ t e, exec .calSummary s = .next t ∧ t.dev.logBuf = s.dev.logBuf ++ [e] ∧ e.kind = 6 ∧ t.dev.fl.sumAt = s.dev.up ∧ ∀ j, t.dev.rd j = s.dev.rd j)
  ∧ (∀ (s : State) (ce : Bool), s.dev.fl.scrub < hbmEnd → s.dev.fl.scrub / 32 ∉ s.dev.mc.ue →
    ∃ t, exec (.scrubRead ce false) s = .next t ∧ t.dev.fl.scrub = s.dev.fl.scrub + 32 ∧ t.dev.mc.ue = s.dev.mc.ue
      ∧ t.dev.n Reg.SCRUB_CE = (if ce then min (s.dev.n Reg.SCRUB_CE + 1) (2 ^ 32 - 1) else s.dev.n Reg.SCRUB_CE)
      ∧ ∀ j, j ≠ Reg.SCRUB_CE → j ≠ Reg.MEM_CE → j ≠ Reg.SCRUB_PROG → t.dev.rd j = s.dev.rd j)
  ∧ (∀ (s : State) (ce : Bool), s.dev.fl.scrub < hbmEnd →
    ∃ t, exec (.scrubRead ce true) s = .next t ∧ t.dev.fl.scrub = s.dev.fl.scrub + 32 ∧ s.dev.fl.scrub / 32 ∈ t.dev.mc.ue
      ∧ t.dev.n Reg.SCRUB_UE = min (s.dev.n Reg.SCRUB_UE + 1) (2 ^ 32 - 1) ∧ t.dev.on Reg.FL_STATUS 10 = true ∧ t.dev.on Reg.FL_STATUS 11 = true)
  ∧ (∀ (s : State), hbmEnd ≤ s.dev.fl.scrub →
    ∃ t, exec .scrubPassEnd s = .next t ∧ t.dev.fl.scrub = 0 ∧ t.dev.fl.scrubAt = s.dev.up ∧ t.dev.rd Reg.SCRUB_PROG = 0
      ∧ t.dev.n Reg.SCRUB_PASSES = (s.dev.n Reg.SCRUB_PASSES + 1) % 2 ^ 32)
  ∧ (∀ (s : State), elapsedNs s.dev.fl.scrubAt s.dev.up (s.dev.f Reg.SCRUB_CTRL 0 8 * 3600000000000) = true →
    ∃ t, exec .scrubLate s = .next t ∧ t.dev.on Reg.SCRUB_PROG 31 = true ∧ ∀ j, j ≠ Reg.SCRUB_PROG → t.dev.rd j = s.dev.rd j)
  ∧ (∀ (s : State) (g : Fin 4) (bank : Fin 2), s.dev.fl.march.get (fun _ => (false, none)) (2 * g + bank) = (false, none) → s.dev.isSpareBank (2 * g + bank) = true →
    ∃ t, exec (.marchTestStart g bank) s = .next t ∧ t.dev.fl.march.get (fun _ => (false, none)) (2 * g + bank) = (true, some s.dev.up)
      ∧ ∀ j, t.dev.rd j = s.dev.rd j)
  ∧ (∀ (s : State) (g : Fin 4) (bank : Fin 2), (s.dev.fl.march.get (fun _ => (false, none)) (2 * g + bank)).1 = true →
    ∃ t, exec (.marchTestEnd g bank true) s = .next t ∧ (t.dev.fl.march.get (fun _ => (false, none)) (2 * g + bank)).1 = false ∧ ∀ j, t.dev.rd j = s.dev.rd j)
  ∧ (∀ (s : State) (g : Fin 4) (bank : Fin 2), (s.dev.fl.march.get (fun _ => (false, none)) (2 * g + bank)).1 = true → s.dev.isSpareBank (2 * g + bank) = true →
    ∃ t, exec (.marchTestEnd g bank false) s = .next t ∧ (t.dev.fl.march.get (fun _ => (false, none)) (2 * g + bank)).1 = false
      ∧ t.dev.spareBanks g = s.dev.spareBanks g - 1 ∧ t.dev.n Reg.MARCH_FAILS = min (s.dev.n Reg.MARCH_FAILS + 1) (2 ^ 32 - 1)
      ∧ t.dev.on Reg.FL_STATUS 11 = true)
  ∧ (∀ (s : State) (i : Ini), s.reaches i Reg.FL_CMD .write = true →
    ∃ t, exec (.flClearCounts i) s = .next t ∧ t.dev.rd Reg.SCRUB_CE = 0 ∧ t.dev.rd Reg.SCRUB_UE = 0 ∧ t.dev.rd Reg.KAT_FAILS = 0
      ∧ t.dev.rd Reg.MARCH_FAILS = 0 ∧ t.dev.rd Reg.LOG_OVERFLOW = 0 ∧ t.dev.fl = s.dev.fl)

/-- MEM_REQUEST_ACCEPT, MEM_RESPONSE, AGE_PROMOTION, REFRESH_INTERVAL, BANK_REFRESH, HBM_TEMP_REPORT and MC_CLEAR_COUNTS (R437 to R446, R461): a request the map and the windows pass joins its port's queue in its class, and another is answered with an error; the oldest of a port, once its pseudo-channel serves it, reads or writes its bytes and no others, and waits before that; one that has waited is promoted by a class; a tREFI adds a unit of debt and the sixteenth bank pays one, unless it is postponed or splits a burst; a hot stack refreshes twice as often. -/
def Obligations.MemoryRequests : Prop :=
  (∀ (s : State) (p : Fin 24) (i : Ini) (w : Bool) (a n : Nat) (data : List (BitVec 8)), (s.dev.checkMem i p a n (if w then .write else .read)).2 = true →
    ∃ t l r, exec (.memRequestAccept p i w a n data) s = .next t ∧ (t.dev.mport p).reqs = l ++ [r] ∧ l.map MemReq.paid = (s.dev.mport p).reqs.map MemReq.paid
      ∧ r.ini = i ∧ r.write = w ∧ r.addr = a ∧ r.size = n ∧ r.data = data.take n ∧ r.cls = s.dev.memClass p i a ∧ r.promo = 0 ∧ r.since = s.dev.up
      ∧ r.epoch = s.dev.n Reg.WIN_EPOCH ∧ t.mem = s.mem ∧ ∀ j, t.dev.rd j = s.dev.rd j)
  ∧ (∀ (s : State) (p : Fin 24) (i : Ini) (w : Bool) (a n : Nat) (data : List (BitVec 8)), (s.dev.checkMem i p a n (if w then .write else .read)).2 = false →
    ∃ t, exec (.memRequestAccept p i w a n data) s = .next t ∧ (t.dev.mport p).reqs = (s.dev.mport p).reqs ∧ (t.dev.mport p).resp = some (false, [])
      ∧ t.dev.n Reg.DENY_COUNT = min (s.dev.n Reg.DENY_COUNT + 1) (2 ^ 32 - 1) ∧ t.mem = s.mem)
  ∧ (∀ (s : State) (p : Fin 24) (ce : Bool) (r : MemReq) (l : List MemReq), (s.dev.mport p).reqs = r :: l → s.dev.mayServe p r = true → r.write = false →
      s.dev.ueIn r.addr r.size = none →
    ∃ t, exec (.memResponse p ce false) s = .next t ∧ (t.dev.mport p).reqs.map MemReq.paid = l.map MemReq.paid ∧ (t.dev.mport p).resp = some (true, s.mem.bytes r.addr r.size) ∧ t.mem = s.mem
      ∧ t.dev.n Reg.MEM_CE = (if ce then min (s.dev.n Reg.MEM_CE + 1) (2 ^ 32 - 1) else s.dev.n Reg.MEM_CE))
  ∧ (∀ (s : State) (p : Fin 24) (ce : Bool) (r : MemReq) (l : List MemReq), (s.dev.mport p).reqs = r :: l → s.dev.mayServe p r = true → r.write = true →
      s.dev.ueEdges r.addr r.data.length = [] →
    ∃ t, exec (.memResponse p ce false) s = .next t ∧ (t.dev.mport p).reqs.map MemReq.paid = l.map MemReq.paid ∧ (t.dev.mport p).resp = some (true, [])
      ∧ t.mem.bytes r.addr r.data.length = r.data ∧ s.sameOutside t r.addr r.data.length)
  ∧ (∀ (s : State) (p : Fin 24) (r : MemReq) (l : List MemReq), (s.dev.mport p).reqs = r :: l → r.short = false → 1 < r.classNow →
      elapsedNs r.since s.dev.up ((r.promo + 1) * (s.dev.f Reg.MC_CTRL 0 6 * 1000)) = true →
    ∃ t, exec (.agePromotion p) s = .next t ∧ (t.dev.mport p).reqs = { r with promo := r.promo + 1 } :: l ∧ ∀ j, t.dev.rd j = s.dev.rd j)
  ∧ (∀ (s : State) (p : Fin 24) (ce ue : Bool) (r : MemReq) (l : List MemReq), (s.dev.mport p).reqs = r :: l → s.dev.mayServe p r = false →
      exec (.memResponse p ce ue) s = .next s)
  ∧ (∀ (s : State) (k : Fin 2), elapsedNs (s.dev.mc.refi.get (fun _ => s.dev.fl.resetAt) k) s.dev.up (s.dev.trefi k) = true →
    ∃ t, exec (.refreshInterval k) s = .next t ∧ (∀ j, j < 32 → t.dev.debt (32 * k + j) = s.dev.debt (32 * k + j) + 1)
      ∧ (∀ j, j < 32 * k.val ∨ 32 * k.val + 32 ≤ j → t.dev.debt j = s.dev.debt j) ∧ ∀ j, j ≠ Reg.REFRESH_STATE → t.dev.rd j = s.dev.rd j)
  ∧ (∀ (s : State) (c : Fin 64), s.dev.debt c ≠ 0 → s.dev.mc.paid.get (fun _ => 0) c.val = 15 →
    ∃ t, exec (.bankRefresh c true) s = .next t ∧ t.dev.debt c = s.dev.debt c - 1 ∧ t.dev.mc.paid.get (fun _ => 0) c.val = 0
      ∧ ∀ j, j ≠ Reg.REFRESH_STATE → t.dev.rd j = s.dev.rd j)
  ∧ (∀ (s : State) (c : Fin 64), s.dev.debt c ≠ 0 → s.dev.debt c < 8 → c.val ∉ s.dev.mc.catchUp → exec (.bankRefresh c false) s = .next s)
  ∧ (∀ (s : State) (c : Fin 64), 8 ≤ s.dev.debt c →
    ∃ t, exec (.bankRefresh c false) s = .next t ∧ t.dev.n Reg.SPLITS = (s.dev.n Reg.SPLITS + 1) % 2 ^ 32 ∧ ∀ j, j ≠ Reg.SPLITS → j ≠ Reg.REFRESH_STATE → t.dev.rd j = s.dev.rd j)
  ∧ (∀ (s : State) (k : Fin 2) (temp : Nat), s.dev.on Reg.MC_STATUS (1 + k) = false → 85 < temp →
    ∃ t, exec (.hbmTempReport k temp) s = .next t ∧ t.dev.on Reg.MC_STATUS (1 + k) = true ∧ t.dev.on Reg.REFRESH_STATE (16 + k) = true
      ∧ ∀ j, j < 32 → t.dev.debt (32 * k + j) = 2 * s.dev.debt (32 * k + j))
  ∧ (∀ (s : State) (k : Fin 2) (temp : Nat), s.dev.on Reg.MC_STATUS (1 + k) = true → temp ≤ 80 →
    ∃ t, exec (.hbmTempReport k temp) s = .next t ∧ t.dev.on Reg.MC_STATUS (1 + k) = false ∧ t.dev.on Reg.REFRESH_STATE (16 + k) = false)
  ∧ (∀ (s : State) (i : Ini), s.reaches i Reg.MC_CMD .write = true →
    ∃ t, exec (.mcClearCounts i) s = .next t ∧ t.dev.rd Reg.MEM_CE = 0 ∧ t.dev.rd Reg.MEM_UE = 0 ∧ t.dev.rd Reg.SPLITS = 0 ∧ t.dev.f Reg.REFRESH_STATE 0 16 = 0
      ∧ (∀ j, j ≠ Reg.MEM_CE → j ≠ Reg.MEM_UE → j ≠ Reg.SPLITS → j ≠ Reg.REFRESH_STATE → t.dev.rd j = s.dev.rd j) ∧ t.mem = s.mem)

/-- REGION_RECORD_WRITE, RGN_PLACE_WRITE and RGN_CP_WRITE (R451, R452, R461): a writer's oldest record goes to WP if it fits without reaching CP, and no other byte changes; with LEN 0 it is discarded and counted; one that does not fit waits in hold mode. BASE and LEN take a write while the region is empty, which restarts it; CP takes a value up to WP. -/
def Obligations.RecordRegions : Prop :=
  (∀ (s : State) (r : Fin 259) (w : Rec) (l : List Rec) (o : Nat), s.dev.outOf r = w :: l → s.caughtUp r = true → (s.dev.rgn r).len ≠ 0 →
      (s.dev.rgn r).mode = false → (s.dev.rgn r).place w.length = some (o, false) →
      s.writable (rgnWriter r) (rgnPort r) ((s.dev.rgn r).base + 16 * o) (16 * w.length) = true →
    ∃ t, exec (.regionRecordWrite r) s = .next t ∧ t.mem.bytes ((s.dev.rgn r).base + 16 * o) (16 * w.length) = w.flatMap memWord
      ∧ s.sameOutside t ((s.dev.rgn r).base + 16 * o) (16 * w.length) ∧ (t.dev.rgn r).wp = (o + w.length) % (s.dev.rgn r).cap
      ∧ (t.dev.rgn r).cp = (s.dev.rgn r).cp ∧ t.dev.outOf r = l ∧ ∀ q, q ≠ r.val → t.dev.rgn q = s.dev.rgn q)
  ∧ (∀ (s : State) (r : Fin 259) (w : Rec) (l : List Rec), s.dev.outOf r = w :: l → s.caughtUp r = true → (s.dev.rgn r).len = 0 →
    ∃ t, exec (.regionRecordWrite r) s = .next t ∧ t.mem = s.mem ∧ t.dev.outOf r = l ∧ t.dev.rgn r = { s.dev.rgn r with disc := min 0xFFFF ((s.dev.rgn r).disc + 1) }
      ∧ ((∀ x, s.dev.cx x = none) → ∀ j, t.dev.rd j = s.dev.rd j))
  ∧ (∀ (s : State) (r : Fin 259) (w : Rec) (l : List Rec), s.dev.outOf r = w :: l → s.caughtUp r = true → (s.dev.rgn r).len ≠ 0 →
      (s.dev.rgn r).mode = false → (s.dev.rgn r).place w.length = none →
    ∃ t, exec (.regionRecordWrite r) s = .next t ∧ t.mem = s.mem ∧ t.dev.outOf r = w :: l ∧ t.dev.rgn r = s.dev.rgn r ∧ t.dev.on Reg.MC_STATUS 7 = true)
  ∧ (∀ (s : State) (i : Ini) (data : Word), s.reaches i 0x220204 .write = true →
    ∃ t, exec (.rgnPlaceWrite i 0 data) s = .next t ∧ t.dev.staged i 0x220204 = some data ∧ t.dev.mc = s.dev.mc ∧ t.mem = s.mem)
  ∧ (∀ (s : State) (i : Ini) (data low : Word) (r : Nat), s.reaches i 0x220208 .write = true → s.dev.rgnSel = some r → s.dev.staged i 0x220204 = some low →
      (s.dev.rgn r).wp = (s.dev.rgn r).cp →
    ∃ t, exec (.rgnPlaceWrite i 1 data) s = .next t ∧ (t.dev.rgn r).base = (data.toNat * 2 ^ 32 + low.toNat) / 65536 * 65536 ∧ (t.dev.rgn r).len = (s.dev.rgn r).len
      ∧ (t.dev.rgn r).wp = 0 ∧ (t.dev.rgn r).cp = 0 ∧ t.mem = s.mem)
  ∧ (∀ (s : State) (i : Ini) (data : Word) (r : Nat), s.reaches i 0x22020C .write = true → s.dev.rgnSel = some r → (s.dev.rgn r).len = 0 →
    ∃ t, exec (.rgnPlaceWrite i 2 data) s = .next t ∧ (t.dev.rgn r).len = fld data 0 20 ∧ (t.dev.rgn r).base = (s.dev.rgn r).base
      ∧ (t.dev.rgn r).wp = 0 ∧ (t.dev.rgn r).cp = 0 ∧ (∀ q, q ≠ r → t.dev.rgn q = s.dev.rgn q) ∧ t.mem = s.mem)
  ∧ (∀ (s : State) (i : Ini) (data : Word) (r : Nat), s.reaches i 0x22020C .write = true → s.dev.rgnSel = some r → (s.dev.rgn r).len ≠ 0 →
      (s.dev.rgn r).wp ≠ (s.dev.rgn r).cp →
    ∃ t, exec (.rgnPlaceWrite i 2 data) s = .next t ∧ t.dev.rgn r = s.dev.rgn r ∧ t.mem = s.mem)
  ∧ (∀ (s : State) (i : Ini) (data : Word) (r : Nat), s.reaches i 0x220218 .write = true → s.dev.rgnSel = some r → (s.dev.rgn r).cp ≤ data.toNat →
      data.toNat ≤ (s.dev.rgn r).wp →
    ∃ t, exec (.rgnCpWrite i data) s = .next t ∧ t.dev.rgn r = { s.dev.rgn r with cp := data.toNat } ∧ t.mem = s.mem)
  ∧ (∀ (s : State) (i : Ini) (data : Word) (r : Nat), s.reaches i 0x220218 .write = true → s.dev.rgnSel = some r → (s.dev.rgn r).cp ≤ (s.dev.rgn r).wp →
      (s.dev.rgn r).wp < data.toNat →
    ∃ t, exec (.rgnCpWrite i data) s = .next t ∧ t.dev.rgn r = s.dev.rgn r ∧ t.mem = s.mem)

/-- RLEN_WRITE, RLEN_SHORTEN_TAKE, RLEN_FORCE_FIRE, CX_START, CX_ABORT, CAPTURE_RECORD_WRITE and CAP_CLEAR_COUNTS (R455 to R462): a longer ring takes force at once and a shorter one waits for its writer and readers, or is forced; an extractor starts with its reference time, or misses while busy; it forms a record at a time and moves on, or ends, once that is written; an abort ends it with one GAP. -/
def Obligations.CaptureRings : Prop :=
  (∀ (s : State) (i : Ini) (st : Fin 48) (data : Word), s.reaches i (Reg.RLEN st) .write = true → s.dev.f (Reg.RLEN st) 0 20 ≤ fld data 0 20 →
    ∃ t, exec (.rlenWrite i st data) s = .next t ∧ t.dev.n (Reg.RLEN st) = fld data 0 20 ∧ t.dev.ring st = { s.dev.ring st with pend := none } ∧ t.mem = s.mem)
  ∧ (∀ (s : State) (i : Ini) (st : Fin 48) (data : Word), s.reaches i (Reg.RLEN st) .write = true → fld data 0 20 < s.dev.f (Reg.RLEN st) 0 20 →
    ∃ t, exec (.rlenWrite i st data) s = .next t ∧ t.dev.rd (Reg.RLEN st) = s.dev.rd (Reg.RLEN st) ∧ t.dev.ring st = { s.dev.ring st with pend := some (fld data 0 20) }
      ∧ t.dev.n (Reg.RLEN_PEND st) = 2 ^ 31 + fld data 0 20 ∧ t.mem = s.mem)
  ∧ (∀ (s : State) (st : Fin 48) (l : Nat), s.dev.shortenDue st = some l → l < 2 ^ 20 →
    ∃ t, exec (.rlenShortenTake st) s = .next t ∧ t.dev.n (Reg.RLEN st) = l ∧ (t.dev.ring st).pend = none ∧ (t.dev.ring st).wp = 0 ∧ t.dev.on Reg.CAP_STATUS 2 = true)
  ∧ (∀ (s : State) (i : Ini) (data v : Word), s.fires i Reg.RLEN_FORCE_FIRE data v = true → fld v 20 6 < 48 →
    ∃ t, exec (.rlenForceFire i data) s = .next t ∧ t.dev.n (Reg.RLEN (fld v 20 6)) = fld v 0 20 ∧ (t.dev.ring (fld v 20 6)).pend = none
      ∧ t.dev.on Reg.CAP_STATUS 2 = true ∧ t.mem = s.mem)
  ∧ (∀ (s : State) (i : Ini) (x : Fin 16), s.reaches i Reg.CAP_CMD .write = true → s.dev.on (Reg.CX_CFG x) 31 = true → s.dev.cx x = none →
      s.dev.f (Reg.CX_CFG x) 16 6 < 48 →
    ∃ t e, exec (.cxStart i x) s = .next t ∧ t.dev.cx x = some e ∧ e.stream = s.dev.f (Reg.CX_CFG x) 16 6
      ∧ e.stop = e.pos + s.dev.f (Reg.CX_PRE x) 0 24 + max 1 (s.dev.f (Reg.CX_POST x) 0 24) ∧ t.dev.n (Reg.CX_RESULT x) = 1 ∧ t.dev.rd (Reg.CX_PROGRESS x) = 0)
  ∧ (∀ (s : State) (i : Ini) (x : Fin 16) (e : Extract), s.reaches i Reg.CAP_CMD .write = true → s.dev.on (Reg.CX_CFG x) 31 = true → s.dev.cx x = some e →
    ∃ t, exec (.cxStart i x) s = .next t ∧ t.dev.cx x = some e ∧ t.dev.n (Reg.CX_MISSES x) = min (s.dev.n (Reg.CX_MISSES x) + 1) (2 ^ 32 - 1))
  ∧ (∀ (s : State) (i : Ini) (x : Fin 16) (e : Extract), s.reaches i Reg.CAP_CMD .write = true → s.dev.cx x = some e →
    ∃ t, exec (.cxAbort i x) s = .next t ∧ t.dev.cx x = none ∧ t.dev.f (Reg.CX_RESULT x) 28 4 = 2 ∧ t.dev.n (Reg.CX_COUNT x) = (s.dev.n (Reg.CX_COUNT x) + 1) % 2 ^ 32
      ∧ (t.dev.outOf e.stream).length = (s.dev.outOf e.stream).length + (if e.wait = none then 1 else 0) ∧ t.mem = s.mem)
  ∧ (∀ (s : State) (i : Ini) (x : Fin 16), s.reaches i Reg.CAP_CMD .write = true → s.dev.cx x = none → s.dev.f (Reg.CX_RESULT x) 28 4 = 1 →
    ∃ t, exec (.cxAbort i x) s = .next t ∧ t.dev.on (Reg.CX_RESULT x) 24 = true ∧ t.dev.f (Reg.CX_RESULT x) 28 4 = 1)
  ∧ (∀ (s : State) (x : Fin 16) (e : Extract) (cause : Nat) (j : Int), s.dev.cx x = some e → e.wait = none →
      (s.dev.ring e.stream).look e.pos e.stop = .lost cause j →
    ∃ t w, exec (.captureRecordWrite x) s = .next t ∧ t.dev.cx x = some { e with wait := some (w, j, 0) } ∧ fld (wd w 0) 120 8 = 0x09
      ∧ t.dev.outOf e.stream = s.dev.outOf e.stream ++ [w] ∧ t.mem = s.mem ∧ ∀ k, t.dev.rd k = s.dev.rd k)
  ∧ (∀ (s : State) (x : Fin 16) (e : Extract) (j : Int), s.dev.cx x = some e → e.wait = none → (s.dev.ring e.stream).look e.pos e.stop = .data j →
      (s.dev.ring e.stream).dataTo (min e.stop (e.pos + 4096)) 64 e.pos = min e.stop (e.pos + 4096) →
      4 ≤ (ringRead (BitVec.ofNat 10 (0x1D0 + x)) (e.stream / 8) e.stream s.mem 64 e.pos (min e.stop (e.pos + 4096)) s.dev).2.1.length →
    ∃ t w n, exec (.captureRecordWrite x) s = .next t ∧ t.dev.cx x = some { e with wait := some (w, e.pos + (n : Nat), n) } ∧ fld (wd w 0) 120 8 = 0x08
      ∧ n = (ringRead (BitVec.ofNat 10 (0x1D0 + x)) (e.stream / 8) e.stream s.mem 64 e.pos (min e.stop (e.pos + 4096)) s.dev).2.1.length / 4
      ∧ t.dev.outOf e.stream = s.dev.outOf e.stream ++ [w] ∧ t.mem = s.mem)
  ∧ (∀ (s : State) (x : Fin 16) (e : Extract), s.dev.cx x = some e → e.wait.isSome = true → exec (.captureRecordWrite x) s = .next s)
  ∧ (∀ (s : State) (r : Fin 259) (x : Fin 16) (e : Extract) (w : Rec) (l : List Rec) (j : Int) (n o : Nat), s.dev.cx x = some e → e.wait = some (w, j, n) →
      e.stream = r → r.val < 48 → (∀ y, y ≠ x.val → s.dev.cx y = none) → s.dev.outOf r = w :: l → (s.dev.rgn r).len ≠ 0 → (s.dev.rgn r).mode = false →
      (s.dev.rgn r).place w.length = some (o, false) → s.writable (rgnWriter r) (rgnPort r) ((s.dev.rgn r).base + 16 * o) (16 * w.length) = true →
    ∃ t, exec (.regionRecordWrite r) s = .next t ∧ t.dev.n (Reg.CX_PROGRESS x) = (s.dev.n (Reg.CX_PROGRESS x) + n) % 2 ^ 32
      ∧ (j < e.stop → t.dev.cx x = some { e with pos := j, wait := none })
      ∧ (e.stop ≤ j → t.dev.cx x = none ∧ t.dev.f (Reg.CX_RESULT x) 28 4 = 1 ∧ t.dev.n (Reg.CX_COUNT x) = (s.dev.n (Reg.CX_COUNT x) + 1) % 2 ^ 32))
  ∧ (∀ (s : State) (i : Ini) (x : Fin 16), s.reaches i Reg.CAP_CMD .write = true →
    ∃ t, exec (.capClearCounts i x) s = .next t ∧ (∀ st : Fin 48, t.dev.rd (Reg.CAP_LOST st) = 0) ∧ t.dev.rd (Reg.CX_MISSES x) = 0 ∧ t.dev.cxs = s.dev.cxs ∧ t.dev.rings = s.dev.rings)

/-- PFC_FRAME_RECEIVE, PFC_PAUSE_EXPIRE, RX_FRAME_DISCARD, FLOW_RECORD_RELEASE, PACKET_SEND, SO_LINK_DOWN, SO_LINK_UP and SO_CLEAR_COUNTS (R29, R465 to R473, R481): a PFC frame pauses the priorities it and SO_CTRL enable, one with a bad FCS is discarded; a flow releases its next record, which becomes an item; the next ready flow sends a packet of its first item; a link that goes down cuts the packet in transmission, which is sent again. -/
def Obligations.StreamOutPorts : Prop :=
  (∀ (s : State) (p : Fin 2) (en : BitVec 8) (timers : List Nat),
    ∃ t, exec (.pfcFrameReceive p false en timers) s = .next t ∧ t.dev.n (Reg.RX_DISCARDS p) = min (s.dev.n (Reg.RX_DISCARDS p) + 1) (2 ^ 32 - 1)
      ∧ t.dev.so = s.dev.so ∧ ∀ j, j ≠ Reg.RX_DISCARDS p → t.dev.rd j = s.dev.rd j)
  ∧ (∀ (s : State) (p : Fin 2) (en : BitVec 8) (timers : List Nat),
    ∃ t, exec (.pfcFrameReceive p true en timers) s = .next t ∧ t.dev.n (Reg.RX_PFC p) = min (s.dev.n (Reg.RX_PFC p) + 1) (2 ^ 32 - 1)
      ∧ (∀ k : Fin 8, en.toNat / 2 ^ k.val % 2 = 1 → s.dev.on (Reg.SO_CTRL p) k = true →
          t.dev.isPaused p k = decide (nth timers k 0 % 65536 ≠ 0))
      ∧ (∀ k : Fin 8, en.toNat / 2 ^ k.val % 2 = 0 ∨ s.dev.on (Reg.SO_CTRL p) k = false → t.dev.isPaused p k = s.dev.isPaused p k))
  ∧ (∀ (s : State) (p : Fin 2) (k : Fin 8), s.dev.isPaused p k = true → (s.dev.soSt p).pauses.get (fun _ => 0) k ≤ s.dev.up →
    ∃ t, exec (.pfcPauseExpire p k) s = .next t ∧ t.dev.isPaused p k = false ∧ ∀ j : Fin 8, j ≠ k → t.dev.isPaused p j = s.dev.isPaused p j)
  ∧ (∀ (s : State) (p : Fin 2),
    ∃ t, exec (.rxFrameDiscard p) s = .next t ∧ t.dev.n (Reg.RX_DISCARDS p) = min (s.dev.n (Reg.RX_DISCARDS p) + 1) (2 ^ 32 - 1)
      ∧ ∀ j, j ≠ Reg.RX_DISCARDS p → t.dev.rd j = s.dev.rd j)
  ∧ (∀ (s : State) (p : Fin 2) (f : Fin 256) (r : Nat) (o : Offer), s.dev.flowRuns p f = true → fld (flowA (s.dev.force (62 + p)) f) 47 5 = 31 →
      (s.dev.flow p f).items = [] → flowSrcs (flowA (s.dev.force (62 + p)) f) = [r] → (soOffer p f r s.mem s.dev).2 = some o → o.cause ≠ 0x50 →
      s.dev.flowSwitchAt p = none → fld (wd o.words 0) 120 8 < 0x0C →
    ∃ t, exec (.flowRecordRelease p f) s = .next t
      ∧ (t.dev.flow p f).items = [⟨0, fld (wd o.words 0) 120 8, wordTime (wd o.words 1), o.words, 0, true⟩] ∧ (t.dev.rgn o.src).cp = o.cp ∧ t.mem = s.mem)
  ∧ (∀ (s : State) (p : Fin 2) (f : Nat) (i : SoItem) (l : List SoItem), (s.dev.soSt p).until_ ≤ s.dev.up → (s.dev.soSt p).cut = false →
      s.dev.nextFlow p = some f → (s.dev.flow p f).items = i :: l →
    ∃ t, exec (.packetSend p) s = .next t ∧ (t.dev.flow p f).pkt = (s.dev.flow p f).pkt + 1 ∧ (t.dev.soSt p).turn = f
      ∧ t.dev.n (Reg.TX_PKTS p) = (s.dev.n (Reg.TX_PKTS p) + 1) % 2 ^ 32
      ∧ (t.dev.soSt p).frame = s.dev.ethFrame p f (vitaPacket (s.dev.force (62 + p)) f ((s.dev.flow p f).pkt + 1) (s.dev.flow p f).item i
          (min (packetWords (s.dev.force (62 + p)) (flowA (s.dev.force (62 + p)) f)) i.words.length)
          (i.whole && min (packetWords (s.dev.force (62 + p)) (flowA (s.dev.force (62 + p)) f)) i.words.length == i.words.length))
      ∧ (t.dev.soSt p).until_ = s.dev.up + frameTime (t.dev.soSt p).frame.length ∧ t.mem = s.mem)
  ∧ (∀ (s : State) (p : Fin 2), s.dev.on (Reg.SO_STATUS p) 0 = true →
    ∃ t, exec (.soLinkDown p) s = .next t ∧ t.dev.on (Reg.SO_STATUS p) 0 = false ∧ t.dev.on (Reg.SO_STATUS p) 13 = true
      ∧ (t.dev.soSt p).cut = ((s.dev.soSt p).cut || decide (s.dev.up < (s.dev.soSt p).until_)))
  ∧ (∀ (s : State) (p : Fin 2), s.dev.on (Reg.SO_STATUS p) 0 = false → (s.dev.soSt p).cut = true →
    ∃ t, exec (.soLinkUp p) s = .next t ∧ t.dev.on (Reg.SO_STATUS p) 0 = true ∧ (t.dev.soSt p).cut = false ∧ (t.dev.soSt p).frame = (s.dev.soSt p).frame
      ∧ t.dev.n (Reg.RESENDS p) = min (s.dev.n (Reg.RESENDS p) + 1) (2 ^ 32 - 1) ∧ t.dev.on (Reg.SO_STATUS p) 11 = true)
  ∧ (∀ (s : State) (p : Fin 2), s.dev.on (Reg.SO_STATUS p) 0 = false → (s.dev.soSt p).cut = false →
    ∃ t, exec (.soLinkUp p) s = .next t ∧ t.dev.on (Reg.SO_STATUS p) 0 = true ∧ t.dev.so = s.dev.so)
  ∧ (∀ (s : State) (i : Ini) (p : Fin 2), s.takes i (Reg.SO_CMD p) = true →
    ∃ t, exec (.soClearCounts i p) s = .next t ∧ t.dev.rd (Reg.TX_PKTS p) = 0 ∧ t.dev.rd (Reg.RESENDS p) = 0 ∧ t.dev.rd (Reg.RX_PFC p) = 0
      ∧ t.dev.rd (Reg.RX_DISCARDS p) = 0 ∧ t.dev.rd (Reg.SO_GAPS p) = 0 ∧ t.dev.so = s.dev.so)

/-- FLUSH_AGE_EXPIRE, CONTEXT_STALL_CLEAR, K_FLUSH, K_CLEAR_COUNTS, KP_FLUSH, KP_SAVE, KP_RESTORE, KP_CLEAR_COUNTS and KP_TRANSFER_DONE (R477 to R479, R482): a block open for FLUSH_AGE, or one a FLUSH finds, ends, unless its context stalls, where the FLUSH waits; a stall clears with room; SAVE takes the history and RESTORE waits for its transfer, whose end writes its result. REPLAY_START, REPLAY_CONTINUE, REPLAY_END and REPLAY_ABORT (R480, R484): a START while no job runs sets BUSY and clears the progress; CONTINUE resumes a job that ended at LIMIT; a job's end clears BUSY and sets REPLAY_DONE, an empty input ends COMPLETE; an abort of a job that had completed sets ABORT_LATE. -/
def Obligations.CompressionAndReplay : Prop :=
  (∀ (s : State) (c : Fin 20) (b : CtxBlock), (s.dev.ctx c).block = some b → s.dev.f (ctxReg c 0) 0 16 ≠ 0 →
      elapsedNs b.opened s.dev.up (1000 * s.dev.f (ctxReg c 0) 0 16) = true → s.dev.on (ctxReg c 4) 30 = false →
    ∃ t, exec (.flushAgeExpire c) s = .next t ∧ (t.dev.ctx c).block = none ∧ t.dev.on (ctxReg c 4) 31 = false
      ∧ t.dev.n (ctxReg c 0x18) = (s.dev.n (ctxReg c 0x18) + 1) % 2 ^ 32 ∧ ∀ k, k ≠ c.val → t.dev.ctx k = s.dev.ctx k)
  ∧ (∀ (s : State) (c : Fin 20), s.dev.on (ctxReg c 4) 30 = true → s.dev.on (ctxReg c 4) 29 = false → (s.dev.ctx c).pieces = [] → (s.dev.ctx c).input = [] →
      16 * s.dev.ctxHeld c + ((s.dev.ctx c).block.map fun b => b.lits.length).getD 0 + 4 ≤ 16384 →
    ∃ t, exec (.contextStallClear c) s = .next t ∧ t.dev.on (ctxReg c 4) 30 = false ∧ t.dev.ctxs = s.dev.ctxs ∧ ∀ j, j ≠ ctxReg c 4 → t.dev.rd j = s.dev.rd j)
  ∧ (∀ (s : State) (i : Ini) (c : Fin 16) (b : CtxBlock), s.reaches i Reg.K_CMD .write = true → (s.dev.ctx c).block = some b → s.dev.on (ctxReg c 4) 30 = false →
    ∃ t, exec (.kFlush i c) s = .next t ∧ (t.dev.ctx c).block = none ∧ (t.dev.ctx c).hist = [] ∧ t.dev.n (ctxReg c 0x18) = (s.dev.n (ctxReg c 0x18) + 1) % 2 ^ 32)
  ∧ (∀ (s : State) (i : Ini) (c : Fin 16) (b : CtxBlock), s.reaches i Reg.K_CMD .write = true → (s.dev.ctx c).block = some b → s.dev.on (ctxReg c 4) 30 = true →
    ∃ t, exec (.kFlush i c) s = .next t ∧ t.dev.ctxs = s.dev.ctxs ∧ t.dev.on (ctxReg c 4) 29 = true ∧ ∀ j, j ≠ ctxReg c 4 → t.dev.rd j = s.dev.rd j)
  ∧ (∀ (s : State) (i : Ini) (c : Fin 16), s.reaches i Reg.K_CMD .write = true →
    ∃ t, exec (.kClearCounts i c) s = .next t ∧ t.dev.rd (ctxReg c 0x1C) = 0 ∧ t.dev.rd (ctxReg c 0x20) = 0 ∧ t.dev.ctxs = s.dev.ctxs
      ∧ ∀ j, j ≠ ctxReg c 0x1C → j ≠ ctxReg c 0x20 → t.dev.rd j = s.dev.rd j)
  ∧ (∀ (s : State) (i : Ini) (c : Fin 4) (b : CtxBlock), s.reaches i Reg.KP_CMD .write = true → (s.dev.ctx (16 + c)).block = some b →
      s.dev.on (ctxReg (16 + c) 4) 30 = false →
    ∃ t, exec (.kpFlush i c) s = .next t ∧ (t.dev.ctx (16 + c)).block = none ∧ (t.dev.ctx (16 + c)).hist = (s.dev.ctx (16 + c)).hist
      ∧ t.dev.n (ctxReg (16 + c) 0x18) = (s.dev.n (ctxReg (16 + c) 0x18) + 1) % 2 ^ 32)
  ∧ (∀ (s : State) (i : Ini) (c : Fin 4), s.reaches i Reg.KP_CMD .write = true → (s.dev.ctx (16 + c)).xfer = 0 → (s.dev.ctx (16 + c)).block = none →
      s.dev.on (ctxReg (16 + c) 4) 29 = false →
    ∃ t, exec (.kpSave i c) s = .next t ∧ (t.dev.ctx (16 + c)).xfer = 2 ∧ (t.dev.ctx (16 + c)).image = some ((s.dev.ctx (16 + c)).hist, (s.dev.ctx (16 + c)).blocks)
      ∧ (t.dev.ctx (16 + c)).at_ = s.dev.n64 (Reg.KP_SAVE_LO c) (Reg.KP_SAVE_HI c) / 128 * 128 ∧ ∀ j, t.dev.rd j = s.dev.rd j)
  ∧ (∀ (s : State) (i : Ini) (c : Fin 4), s.reaches i Reg.KP_CMD .write = true → (s.dev.ctx (16 + c)).xfer = 0 →
    ∃ t, exec (.kpRestore i c) s = .next t ∧ (t.dev.ctx (16 + c)).xfer = (if s.dev.ctxNamed (16 + c) then 4 else 3)
      ∧ (t.dev.ctx (16 + c)).at_ = s.dev.n64 (Reg.KP_SAVE_LO c) (Reg.KP_SAVE_HI c) / 128 * 128 ∧ ∀ j, t.dev.rd j = s.dev.rd j)
  ∧ (∀ (s : State) (i : Ini) (c : Fin 4), s.reaches i Reg.KP_CMD .write = true →
    ∃ t, exec (.kpClearCounts i c) s = .next t ∧ t.dev.rd (ctxReg (16 + c) 0x1C) = 0 ∧ t.dev.rd (ctxReg (16 + c) 0x20) = 0 ∧ t.dev.ctxs = s.dev.ctxs)
  ∧ (∀ (s : State) (c : Fin 4), (s.dev.ctx (16 + c)).xfer = 3 → s.readable (ctxIni (16 + c)) 18 (s.dev.ctx (16 + c)).at_ 65552 = true →
    ∃ t, exec (.kpTransferDone c) s = .next t ∧ (t.dev.ctx (16 + c)).xfer = 0 ∧ t.dev.on Reg.CP_STATUS 4 = true ∧ t.mem = s.mem
      ∧ (∀ h n, loadImage (s.mem.bytes (s.dev.ctx (16 + c)).at_ 65552) = some (h, n) →
          (t.dev.ctx (16 + c)).hist = h ∧ (t.dev.ctx (16 + c)).blocks = n ∧ t.dev.f (ctxReg (16 + c) 4) 0 4 = 1)
      ∧ (loadImage (s.mem.bytes (s.dev.ctx (16 + c)).at_ 65552) = none →
          (t.dev.ctx (16 + c)).hist = [] ∧ t.dev.f (ctxReg (16 + c) 4) 0 4 = 3))
  ∧ (∀ (s : State) (c : Fin 4) (h : List Byte) (n : Nat), (s.dev.ctx (16 + c)).xfer = 2 → (s.dev.ctx (16 + c)).image = some (h, n) → h.length ≤ 65536 →
      s.writable (ctxIni (16 + c)) 18 (s.dev.ctx (16 + c)).at_ 65552 = true →
    ∃ t, exec (.kpTransferDone c) s = .next t ∧ (t.dev.ctx (16 + c)).xfer = 0 ∧ t.dev.f (ctxReg (16 + c) 4) 0 4 = 1
      ∧ s.sameOutside t (s.dev.ctx (16 + c)).at_ 65552
      ∧ t.mem.bytes (s.dev.ctx (16 + c)).at_ (h.length / 4 * 4) = (h.take (h.length / 4 * 4)).reverse)
  ∧ (∀ (s : State) (i : Ini), s.reaches i Reg.RP_CMD .write = true → s.dev.on Reg.RP_RESULT 0 = false →
    ∃ t, exec (.replayStart i) s = .next t ∧ t.dev.n Reg.RP_RESULT = 1 ∧ t.dev.rd Reg.RP_IN_DONE = 0 ∧ t.dev.rd Reg.RP_OUT_DONE = 0 ∧ t.dev.replay = {}
      ∧ (∀ j, j ≠ Reg.RP_RESULT → j ≠ Reg.RP_IN_DONE → j ≠ Reg.RP_OUT_DONE → t.dev.rd j = s.dev.rd j) ∧ t.mem = s.mem)
  ∧ (∀ (s : State) (i : Ini), s.reaches i Reg.RP_CMD .write = true → s.dev.on Reg.RP_RESULT 0 = true →
    ∃ t, exec (.replayStart i) s = .next t ∧ t.dev.replay = s.dev.replay ∧ ∀ j, t.dev.rd j = s.dev.rd j)
  ∧ (∀ (s : State) (i : Ini), s.reaches i Reg.RP_CMD .write = true → s.dev.f Reg.RP_RESULT 28 4 = 3 → s.dev.on Reg.RP_RESULT 0 = false →
    ∃ t, exec (.replayContinue i) s = .next t ∧ t.dev.n Reg.RP_RESULT = 1 ∧ t.dev.rd Reg.RP_OUT_DONE = 0 ∧ t.dev.replay = s.dev.replay)
  ∧ (∀ (s : State), s.dev.on Reg.RP_RESULT 0 = true →
    ∃ t, exec .replayEnd s = .next t ∧ t.dev.on Reg.RP_RESULT 0 = false ∧ t.dev.on Reg.CP_STATUS 3 = true
      ∧ t.dev.n (Reg.EV_SEQ 1530) = (s.dev.n (Reg.EV_SEQ 1530) + 1) % 2 ^ 32)
  ∧ (∀ (s : State), s.dev.on Reg.RP_RESULT 0 = true → s.dev.rd Reg.RP_LEN = 0 → s.dev.on Reg.RP_CFG 31 = false → s.dev.on Reg.RP_CFG 0 = false →
      s.dev.replay.block = none →
    ∃ t, exec .replayEnd s = .next t ∧ t.dev.f Reg.RP_RESULT 28 4 = 1 ∧ t.dev.rd Reg.RP_OUT_DONE = 0 ∧ t.mem = s.mem)
  ∧ (∀ (s : State) (i : Ini), s.reaches i Reg.RP_CMD .write = true → s.dev.on Reg.RP_RESULT 0 = true →
    ∃ t, exec (.replayAbort i) s = .next t ∧ t.dev.on Reg.RP_RESULT 0 = false ∧ t.dev.on Reg.CP_STATUS 3 = true)
  ∧ (∀ (s : State) (i : Ini), s.reaches i Reg.RP_CMD .write = true → s.dev.on Reg.RP_RESULT 0 = false → s.dev.f Reg.RP_RESULT 28 4 = 1 →
    ∃ t, exec (.replayAbort i) s = .next t ∧ t.dev.on Reg.RP_RESULT 24 = true ∧ t.dev.f Reg.RP_RESULT 28 4 = 1 ∧ t.mem = s.mem)

/-- DMA_DOORBELL, DESCRIPTOR_START, DMA_ELEMENT_DONE, DESCRIPTOR_END, LEASE_EXPIRE, DMA_ABORT, DMA_CLEAR_COUNTS, DRLEN_WRITE, DRLEN_TAKE, DRLEN_FORCE_FIRE and DCPL_TAIL_WRITE (R485 to R499): a doorbell posts descriptors within the ring; a started descriptor has its lists, and one whose lists fail has its result; an element moves its bytes from source to destination and no others; an end writes the completion entry and frees the place; an abort clears EN and ends the running descriptor; lengths pend, take force or are forced. -/
def Obligations.DmaChannels : Prop :=
  (∀ (s : State) (i : Ini) (c : Fin 64) (data : Word), s.reaches i (Reg.DHEAD c) .write = true → data.toNat % 65536 < s.dev.n (Reg.DRLEN c) →
    ∃ t, exec (.dmaDoorbell i c data) s = .next t ∧ t.dev.n (Reg.DHEAD c) = data.toNat % 65536 ∧ (t.dev.dmaCh c).run = (s.dev.dmaCh c).run ∧ t.mem = s.mem
      ∧ ∀ j, j ≠ Reg.DHEAD c → j ≠ Reg.DCH_STAT c → t.dev.rd j = s.dev.rd j)
  ∧ (∀ (s : State) (i : Ini) (c : Fin 64) (data : Word), s.reaches i (Reg.DHEAD c) .write = true → s.dev.n (Reg.DRLEN c) ≤ data.toNat % 65536 →
    ∃ t, exec (.dmaDoorbell i c data) s = .next t ∧ t.dev.rd (Reg.DHEAD c) = s.dev.rd (Reg.DHEAD c) ∧ t.dev.dma = s.dev.dma ∧ t.mem = s.mem)
  ∧ (∀ (s : State) (c : Fin 64) (y p q : Sys) (l : List Byte) (src dst : List (Nat × Nat)), y = ⟨s.mem, s.dev.forcedDue c⟩ → y.dev.dmaCanStart c = true →
      dmaRead c (s.dev.n64 (Reg.DRING_BASE_LO c) (Reg.DRING_BASE_HI c) + 32 * s.dev.n (Reg.DTAIL c)) 32 y = (p, l, none) →
      readLists c (nth (words128 l) 0 0) (nth (words128 l) 1 0) p = (q, none, src, dst) →
      (∀ e ∈ src ++ dst, s.dev.pdPending (addrDomain e.1) = false) →
    ∃ t r, exec (.descriptorStart c) s = .next t ∧ (t.dev.dmaCh c).run = some r ∧ r.idx = s.dev.n (Reg.DTAIL c) ∧ r.desc = words128 l ∧ r.src = src ∧ r.dst = dst
      ∧ r.moved = 0 ∧ r.result = none ∧ r.abort = false ∧ t.mem = q.mem)
  ∧ (∀ (s : State) (c : Fin 64) (y p q : Sys) (l : List Byte) (src dst : List (Nat × Nat)) (st : Nat), y = ⟨s.mem, s.dev.forcedDue c⟩ →
      y.dev.dmaCanStart c = true →
      dmaRead c (s.dev.n64 (Reg.DRING_BASE_LO c) (Reg.DRING_BASE_HI c) + 32 * s.dev.n (Reg.DTAIL c)) 32 y = (p, l, none) →
      readLists c (nth (words128 l) 0 0) (nth (words128 l) 1 0) p = (q, some st, src, dst) →
    ∃ t r, exec (.descriptorStart c) s = .next t ∧ (t.dev.dmaCh c).run = some r ∧ r.result = some st ∧ r.moved = 0 ∧ t.mem = q.mem)
  ∧ (∀ (s : State) (c : Fin 64) (r : DmaRun) (sa sn da dn : Nat), s.noAborts = true → (s.dev.dmaCh c).run = some r → r.result = none → r.stop = false →
      position r.src r.moved = some (sa, sn) → position r.dst r.moved = some (da, dn) → inHbm sa = true → inHbm da = true →
      s.readable (dmaIni c) 18 sa (min sn dn) = true → s.writable (dmaIni c) 18 da (min sn dn) = true →
    ∃ t, exec (.dmaElementDone c) s = .next t ∧ t.mem.bytes da (min sn dn) = s.mem.bytes sa (min sn dn) ∧ s.sameOutside t da (min sn dn)
      ∧ (t.dev.dmaCh c).run = some { r with
          moved := r.moved + min sn dn, crc := crcMore r.crc (s.mem.bytes sa (min sn dn)),
          result := if r.moved + min sn dn = total r.dst then some 1 else none })
  ∧ (∀ (s : State) (c : Fin 64) (r : DmaRun) (st : Nat), s.noAborts = true → (s.dev.dmaCh c).run = some r → r.result = some st → st < 256 →
      bit (nth r.desc 1 0) 79 = false → (s.dev.dmaCh c).waiting = [] → (s.dev.dmaCh c).forced = [] → (s.dev.dmaCh c).detached = false → s.dev.cplFull c = false →
      s.writable (dmaIni c) 18 (s.dev.n64 (Reg.DCPL_BASE_LO c) (Reg.DCPL_BASE_HI c) + 64 * s.dev.n (Reg.DCPL_HEAD c)) 64 = true →
    ∃ t, exec (.descriptorEnd c) s = .next t ∧ (t.dev.dmaCh c).run = none ∧ t.dev.n (Reg.DTAIL c) = (s.dev.n (Reg.DTAIL c) + 1) % max 1 (s.dev.n (Reg.DRLEN c))
      ∧ t.dev.f (Reg.DCH_STAT c) 16 8 = st ∧ t.dev.n (Reg.DCPL_HEAD c) = (s.dev.n (Reg.DCPL_HEAD c) + 1) % s.dev.cplLen c
      ∧ t.mem.bytes (s.dev.n64 (Reg.DCPL_BASE_LO c) (Reg.DCPL_BASE_HI c) + 64 * s.dev.n (Reg.DCPL_HEAD c)) 16 = memWord (nth (s.dev.cplEntry c r st false) 0 0)
      ∧ s.sameOutside t (s.dev.n64 (Reg.DCPL_BASE_LO c) (Reg.DCPL_BASE_HI c) + 64 * s.dev.n (Reg.DCPL_HEAD c)) 64)
  ∧ (∀ (s : State) (c : Fin 64) (r : DmaRun) (m a : Nat), (s.dev.dmaCh c).run = some r → m ∈ r.doms → s.dev.pw.pdAt.get (fun _ => none) m = some a →
      elapsedNs a s.dev.up (1000 * s.dev.f Reg.DMA_CTRL 0 14) = true →
    ∃ t, exec (.leaseExpire c) s = .next t ∧ (t.dev.dmaCh c).run = some { r with stop := true } ∧ ∀ j, t.dev.rd j = s.dev.rd j)
  ∧ (∀ (s : State) (i : Ini) (c : Fin 64), s.noAborts = true → s.reaches i Reg.DMA_CMD .write = true → (s.dev.dmaCh c).run = none →
    ∃ t, exec (.dmaAbort i c) s = .next t ∧ t.dev.dma = s.dev.dma ∧ t.mem = s.mem ∧ ∀ j, t.dev.rd j = s.dev.rd j)
  ∧ (∀ (s : State) (i : Ini) (c : Fin 64) (r : DmaRun) (sa sn da dn : Nat), s.noAborts = true → s.reaches i Reg.DMA_CMD .write = true → (s.dev.dmaCh c).run = some r →
      r.result = none → position r.src r.moved = some (sa, sn) → position r.dst r.moved = some (da, dn) → inHbm sa = true → inHbm da = true →
    ∃ t, exec (.dmaAbort i c) s = .next t ∧ (t.dev.dmaCh c).run = none ∧ t.dev.on (Reg.DCH_CFG c) 31 = false)
  ∧ (∀ (s : State) (i : Ini), s.reaches i Reg.DMA_CMD .write = true →
    ∃ t, exec (.dmaClearCounts i) s = .next t ∧ t.dev.rd Reg.MISALIGNED = 0 ∧ t.dev.dma = s.dev.dma ∧ ∀ j, j ≠ Reg.MISALIGNED → t.dev.rd j = s.dev.rd j)
  ∧ (∀ (s : State) (i : Ini) (c : Fin 64) (data : Word), s.reaches i (Reg.DRLEN c) .write = true → 2 ≤ fld data 0 17 → fld data 0 17 ≤ 65536 →
    ∃ t, exec (.drlenWrite i c data) s = .next t ∧ t.dev.on (Reg.DRLEN_PEND c) 31 = true ∧ t.dev.f (Reg.DRLEN_PEND c) 0 17 = fld data 0 17
      ∧ t.dev.rd (Reg.DRLEN c) = s.dev.rd (Reg.DRLEN c) ∧ t.dev.dma = s.dev.dma)
  ∧ (∀ (s : State) (c : Fin 64), s.dev.on (Reg.DRLEN_PEND c) 31 = true → s.dev.n (Reg.DHEAD c) < s.dev.f (Reg.DRLEN_PEND c) 0 17 →
      s.dev.n (Reg.DTAIL c) ≤ s.dev.n (Reg.DHEAD c) →
    ∃ t, exec (.drlenTake c) s = .next t ∧ t.dev.n (Reg.DRLEN c) = s.dev.f (Reg.DRLEN_PEND c) 0 17 ∧ t.dev.rd (Reg.DRLEN_PEND c) = 0
      ∧ t.dev.n (Reg.EV_SEQ 1266) = (s.dev.n (Reg.EV_SEQ 1266) + 1) % 2 ^ 32)
  ∧ (∀ (s : State) (i : Ini) (data v : Word), s.fires i Reg.DRLEN_FORCE_FIRE data v = true → 2 ≤ fld v 0 17 → fld v 0 17 ≤ 65536 →
    ∃ t, exec (.drlenForceFire i data) s = .next t ∧ t.dev.n (Reg.DRLEN (fld v 26 6)) = fld v 0 17 ∧ t.dev.rd (Reg.DRLEN_PEND (fld v 26 6)) = 0
      ∧ t.dev.n (Reg.DHEAD (fld v 26 6)) = (if fld v 0 17 ≤ s.dev.n (Reg.DHEAD (fld v 26 6)) then 0 else s.dev.n (Reg.DHEAD (fld v 26 6))))
  ∧ (∀ (s : State) (i : Ini) (c : Fin 64) (data : Word), s.reaches i (Reg.DCPL_TAIL c) .write = true → (s.dev.dmaCh c).waiting = [] →
    ∃ t, exec (.dcplTailWrite i c data) s = .next t ∧ t.dev.n (Reg.DCPL_TAIL c) = data.toNat % s.dev.cplLen c ∧ t.dev.dma = s.dev.dma ∧ t.mem = s.mem)

/-- SOFTWARE_EVENT_RAISE, EVENT_DELIVERY, ENGINE_EVENT_DELIVERY, CLAIM, CLEAR_PENDING, EV_CFG_WRITE, SUMP_ACK and SUMP_CLEAR_COUNTS (R503 to R509, R515, R522): a raise increments the event's sequence number and starts toward cores and engines; it arrives as a pending bit with its number; a claim answers with the best eligible event and clears it, or with 0; an acknowledgement closes its slot and no other. -/
def Obligations.EventDelivery : Prop :=
  (∀ (s : State) (i : Ini) (data : Word), s.reaches i Reg.EV_RAISE .write = true → data.toNat < 1024 →
    ∃ t, exec (.softwareEventRaise i data) s = .next t ∧ t.dev.n (Reg.EV_SEQ data.toNat) = (s.dev.n (Reg.EV_SEQ data.toNat) + 1) % 2 ^ 32
      ∧ t.dev.ev.toCores = s.dev.ev.toCores ++ [(data.toNat, (s.dev.n (Reg.EV_SEQ data.toNat) + 1) % 2 ^ 32)]
      ∧ t.dev.ev.toEngines = s.dev.ev.toEngines ++ [(data.toNat, (s.dev.n (Reg.EV_SEQ data.toNat) + 1) % 2 ^ 32)]
      ∧ (∀ j, j ≠ Reg.EV_SEQ data.toNat → t.dev.rd j = s.dev.rd j) ∧ t.mem = s.mem)
  ∧ (∀ (s : State) (i : Ini) (data : Word), s.reaches i Reg.EV_RAISE .write = true → 1024 ≤ data.toNat →
    ∃ t, exec (.softwareEventRaise i data) s = .next t ∧ t.dev.on (Reg.LW_STAT 0x28) 0 = true ∧ t.dev.f (Reg.LW_INFO 0x28) 19 3 = 4 ∧ t.mem = s.mem)
  ∧ (∀ (s : State) (n : Fin 1536) (q : Nat) (l : List (Nat × Nat)), takeRaise n s.dev.ev.toCores = some (q, l) →
    ∃ t, exec (.eventDelivery n) s = .next t ∧ t.dev.pendingEv n = true ∧ t.dev.ev.toCores = l ∧ t.dev.ev.latest.get (fun _ => 0) n.val = q
      ∧ t.dev.ev.merged.get (fun _ => 0) n.val = min (s.dev.ev.merged.get (fun _ => 0) n.val + 1) 65535
      ∧ ∀ j, j ≠ Reg.EV_PEND (n / 32) → t.dev.rd j = s.dev.rd j)
  ∧ (∀ (s : State) (n : Fin 1536) (q : Nat) (l : List (Nat × Nat)), takeRaise n s.dev.ev.toEngines = some (q, l) →
    ∃ t, exec (.engineEventDelivery n) s = .next t ∧ t.dev.ev.toEngines = l
      ∧ (∀ (e : Fin 128) (k : Fin 8), evsel (engWord (s.dev.clForce (e / 16)) (e % 16)) k = n.val → (s.dev.eng e).state ≠ 5 →
          (t.dev.eng e).pend.testBit (2 + k) = true ∧ (t.dev.eng e).evseq.get (fun _ => 0) k.val = q)
      ∧ ∀ j, t.dev.rd j = s.dev.rd j)
  ∧ (∀ (s : State) (i : Ini) (k : Fin 16) (n : Nat), s.reaches i (Reg.CLAIM k) .read = true → s.dev.best k = some n →
    ∃ t, exec (.claim i k) s = .next t ∧ t.dev.resp = ⟨true, packBE 32 [(1, 1), (0, 7), (s.dev.f (Reg.EV_CFG n) 0 4, 4), (0, 9), (n, 11)]⟩
      ∧ t.dev.pendingEv n = false ∧ t.dev.ev.merged.get (fun _ => 0) n = 0 ∧ t.dev.n (Reg.CLAIM_MERGED k) = s.dev.ev.merged.get (fun _ => 0) n % 2 ^ 32
      ∧ t.dev.n (Reg.CLAIM_SEQ k) = s.dev.ev.latest.get (fun _ => 0) n % 2 ^ 32)
  ∧ (∀ (s : State) (i : Ini) (k : Fin 16), s.reaches i (Reg.CLAIM k) .read = true → s.dev.best k = none →
    ∃ t, exec (.claim i k) s = .next t ∧ t.dev.resp = ⟨true, 0⟩ ∧ t.dev.ev = s.dev.ev ∧ ∀ j, t.dev.rd j = s.dev.rd j)
  ∧ (∀ (s : State) (i : Ini) (n : Nat), s.reaches i Reg.EVC_CMD .write = true → n < 1536 →
    ∃ t, exec (.clearPending i n) s = .next t ∧ t.dev.pendingEv n = false ∧ t.dev.ev.merged.get (fun _ => 0) n = 0
      ∧ ∀ j, j ≠ Reg.EV_PEND (n / 32) → j ≠ Reg.EVC_STATUS → t.dev.rd j = s.dev.rd j)
  ∧ (∀ (s : State) (i : Ini) (n : Fin 1536) (data : Word), s.reaches i (Reg.EV_CFG n) .write = true →
    ∃ t, exec (.evCfgWrite i n data) s = .next t ∧ t.dev.rd (Reg.EV_CFG n) = data &&& 0x800F000F ∧ t.dev.ev = s.dev.ev
      ∧ ∀ j, j ≠ Reg.EV_CFG n → t.dev.rd j = s.dev.rd j)
  ∧ (∀ (s : State) (i : Ini) (k : Fin 64), s.reaches i Reg.SUMP_CMD .write = true → s.dev.on (Reg.REC_ROOT k) 31 = true →
    ∃ t, exec (.sumpAck i k) s = .next t ∧ t.dev.on (Reg.REC_ROOT k) 31 = false ∧ t.dev.on Reg.SUMP_STATUS 0 = false
      ∧ ∀ m : Fin 64, m ≠ k → t.dev.rd (Reg.REC_ROOT m) = s.dev.rd (Reg.REC_ROOT m))
  ∧ (∀ (s : State) (i : Ini), s.reaches i Reg.SUMP_CMD .write = true →
    ∃ t, exec (.sumpClearCounts i) s = .next t ∧ t.dev.rd Reg.SUMP_OVF = 0 ∧ t.dev.on Reg.SUMP_STATUS 3 = false ∧ t.dev.sump = s.dev.sump)

/-- SUMP_REPORT (R512, R513, R514): a report of an open root is a duplicate, counted with its port and, where the code differs, with MULTI, without an event or a record; one of a new root opens the lowest free slot with all it holds, raises event 1532 and, with room in the output buffer, writes an opening record; with no free slot it is counted in SUMP_OVF, with event 1533 as OVERFLOW sets; no other slot changes. -/
def Obligations.SumpReports : Prop :=
  (∀ (s : State) (r : Report) (i : Nat), nextReport s.dev.sump.reports = some r → s.dev.openSlot r.root = some i → r.port < 25 →
    ∃ t, exec .sumpReport s = .next t ∧ t.dev.n (Reg.REC_DUP i) = min (s.dev.n (Reg.REC_DUP i) + 1) (2 ^ 32 - 1)
      ∧ t.dev.on (Reg.REC_REPORTERS i) r.port = true
      ∧ t.dev.rd (Reg.REC_ROOT i) = (if s.dev.f (Reg.REC_ROOT i) 16 8 = r.code then s.dev.rd (Reg.REC_ROOT i) else s.dev.rd (Reg.REC_ROOT i) ||| 0x40000000)
      ∧ (∀ j, j ≠ Reg.REC_DUP i → j ≠ Reg.REC_REPORTERS i → j ≠ Reg.REC_ROOT i → t.dev.rd j = s.dev.rd j)
      ∧ t.dev.out = s.dev.out ∧ t.dev.ev = s.dev.ev ∧ t.dev.sump.reports = s.dev.sump.reports.erase r)
  ∧ (∀ (s : State) (r : Report) (i : Nat), nextReport s.dev.sump.reports = some r → s.dev.openSlot r.root = none → s.dev.freeSlot = some i →
    ∃ t, exec .sumpReport s = .next t ∧ t.dev.rd (Reg.REC_ROOT i) = packBE 32 [(1, 1), (0, 7), (r.code, 8), (r.root, 16)]
      ∧ t.dev.n64 (Reg.REC_FIRST_LO i) (Reg.REC_FIRST_HI i) = shortTime r.time ∧ t.dev.rd (Reg.REC_DUP i) = 0
      ∧ t.dev.rd (Reg.REC_REPORTERS i) = BitVec.ofNat 32 (2 ^ r.port)
      ∧ t.dev.n Reg.SUMP_ROOTS = (s.dev.n Reg.SUMP_ROOTS + 1) % 2 ^ 32 ∧ t.dev.n (Reg.REC_NUM i) = t.dev.n Reg.SUMP_ROOTS
      ∧ (s.dev.sump.skipped = 0 → (s.dev.outOf 258).length < 128 →
          ∃ w, t.dev.outOf 258 = s.dev.outOf 258 ++ [w] ∧ fld (wd w 0) 120 8 = 0x0A ∧ fld (wd w 2) 120 8 = 0x60)
      ∧ t.dev.n (Reg.EV_SEQ 1532) = (s.dev.n (Reg.EV_SEQ 1532) + 1) % 2 ^ 32 ∧ t.dev.on Reg.SUMP_STATUS 2 = true
      ∧ ∀ m : Fin 64, m.val ≠ i → t.dev.rd (Reg.REC_ROOT m) = s.dev.rd (Reg.REC_ROOT m) ∧ t.dev.rd (Reg.REC_DUP m) = s.dev.rd (Reg.REC_DUP m)
          ∧ t.dev.rd (Reg.REC_REPORTERS m) = s.dev.rd (Reg.REC_REPORTERS m) ∧ t.dev.rd (Reg.REC_NUM m) = s.dev.rd (Reg.REC_NUM m))
  ∧ (∀ (s : State) (r : Report), nextReport s.dev.sump.reports = some r → s.dev.openSlot r.root = none → s.dev.freeSlot = none →
    ∃ t, exec .sumpReport s = .next t ∧ t.dev.n Reg.SUMP_OVF = min (s.dev.n Reg.SUMP_OVF + 1) (2 ^ 32 - 1) ∧ t.dev.on Reg.SUMP_STATUS 3 = true
      ∧ t.dev.n (Reg.EV_SEQ 1533) = (if s.dev.on Reg.SUMP_STATUS 3 then s.dev.n (Reg.EV_SEQ 1533) else (s.dev.n (Reg.EV_SEQ 1533) + 1) % 2 ^ 32)
      ∧ (∀ j, j ≠ Reg.SUMP_OVF → j ≠ Reg.SUMP_STATUS → j ≠ Reg.EV_SEQ 1533 → t.dev.rd j = s.dev.rd j)
      ∧ t.dev.out = s.dev.out ∧ t.dev.sump.reports = s.dev.sump.reports.erase r)

/-- KEY_REVOKE_FIRE, RB_ADVANCE_FIRE, OTP_PROGRAM_DONE, ID_KEY_GENERATE, ID_KEY_GENERATED, ID_KEY_RETIRE and JTAG_LOCK_FIRE (R547, R548, R552 to R554, R576): a revocation that leaves a usable slot takes force, and another is refused; an advance programs a cell for each unit; a programmed word makes its item valid, and one cut short is PARTIAL; a key is generated once, with its public half in ID_PUB, and a retired one has no private half. -/
def Obligations.KeysAndFuses : Prop :=
  (∀ (s : State) (i : Ini) (data v : Word) (m : Nat), s.fires i Reg.KEY_REVOKE_FIRE data v = true → m < 4 → s.dev.on Reg.KEY_SLOTS m = true →
      s.dev.on Reg.KEY_SLOTS (4 + m) = false → bit v m = false →
    ∃ t, exec (.keyRevokeFire i data) s = .next t ∧ (∀ k, k < 4 → t.dev.on Reg.KEY_SLOTS (4 + k) = (s.dev.on Reg.KEY_SLOTS (4 + k) || bit v k)) ∧ t.mem = s.mem)
  ∧ (∀ (s : State) (i : Ini) (data v : Word), s.fires i Reg.KEY_REVOKE_FIRE data v = true →
      (∀ k, k < 4 → s.dev.on Reg.KEY_SLOTS k = true → s.dev.on Reg.KEY_SLOTS (4 + k) = true ∨ bit v k = true) →
    ∃ t, exec (.keyRevokeFire i data) s = .next t ∧ t.dev.rd Reg.KEY_SLOTS = s.dev.rd Reg.KEY_SLOTS ∧ t.dev.trust = s.dev.trust)
  ∧ (∀ (s : State) (i : Ini) (data v : Word), s.fires i Reg.RB_ADV_FIRE data v = true → s.dev.f (Reg.RB_CTR (fld v 8 6)) 0 6 < fld v 0 6 → s.dev.trust.prog = [] →
      (∀ k, k < 63 → s.dev.otp (rbItem (fld v 8 6) k) = {}) →
    ∃ t, exec (.rbAdvanceFire i data) s = .next t ∧ t.dev.trust.prog.length = fld v 0 6 - s.dev.f (Reg.RB_CTR (fld v 8 6)) 0 6
      ∧ (∀ e ∈ t.dev.trust.prog, ∃ k, k < 63 ∧ e.1 = rbItem (fld v 8 6) k) ∧ t.dev.trust.otp = s.dev.trust.otp)
  ∧ (∀ (s : State) (i : Ini) (data v : Word), s.fires i Reg.RB_ADV_FIRE data v = true → fld v 0 6 < s.dev.f (Reg.RB_CTR (fld v 8 6)) 0 6 →
    ∃ t, exec (.rbAdvanceFire i data) s = .next t ∧ t.dev.trust = s.dev.trust ∧ t.dev.rd (Reg.RB_CTR (fld v 8 6)) = s.dev.rd (Reg.RB_CTR (fld v 8 6)))
  ∧ (∀ (s : State) (k : Nat) (fin : Bool) (l : List (Nat × Bool)), s.dev.trust.prog = (k, fin) :: l → (s.dev.otp k).open_ = true →
    ∃ t, exec (.otpProgramDone false) s = .next t ∧ (t.dev.otp k).valid = true ∧ t.dev.trust.prog = l
      ∧ (∀ j, j ≠ k → t.dev.otp j = s.dev.otp j) ∧ (k = 4 → t.dev.on Reg.ID_STATE 28 = true)
      ∧ (100 ≤ k → k < 4132 → t.dev.n (Reg.RB_CTR ((k - 100) / 63)) = t.dev.rbValue ((k - 100) / 63)))
  ∧ (∀ (s : State) (k : Nat) (fin : Bool) (l : List (Nat × Bool)), s.dev.trust.prog = (k, fin) :: l → s.dev.otp k = {} →
    ∃ t, exec (.otpProgramDone true) s = .next t ∧ t.dev.otp k = { prim := 2, spare := 0 } ∧ t.dev.trust.prog = (k, fin) :: l ∧ t.dev.on Reg.PR_STATUS 3 = true
      ∧ t.dev.f Reg.OTP_STATUS 16 16 = min (s.dev.f Reg.OTP_STATUS 16 16 + 1) 65535)
  ∧ (∀ (s : State) (i : Ini) (data v : Word), s.fires i Reg.ID_KEY_FIRE data v = true → fld v 0 2 = 1 → s.dev.on Reg.ID_STATE 31 = false → s.dev.on Reg.ID_STATE 30 = false →
    ∃ t, exec (.idKeyGenerate i data) s = .next t ∧ t.dev.on Reg.ID_STATE 29 = true ∧ t.dev.trust = s.dev.trust)
  ∧ (∀ (s : State) (i : Ini) (data v : Word), s.fires i Reg.ID_KEY_FIRE data v = true → fld v 0 2 = 1 → s.dev.on Reg.ID_STATE 31 = true ∨ s.dev.on Reg.ID_STATE 30 = true →
    ∃ t, exec (.idKeyGenerate i data) s = .next t ∧ t.dev.rd Reg.ID_STATE = s.dev.rd Reg.ID_STATE ∧ t.dev.trust = s.dev.trust)
  ∧ (∀ (s : State), s.dev.on Reg.ID_STATE 29 = true →
    ∃ t, exec .idKeyGenerated s = .next t ∧ t.dev.on Reg.ID_STATE 29 = false ∧ t.dev.on Reg.ID_STATE 31 = true ∧ t.dev.trust.priv.length = 57
      ∧ (∀ k : Fin 15, t.dev.n (Reg.ID_PUB k) = natBE (nth (chunks 4 (edPublic t.dev.trust.priv ++ [0, 0, 0])) k [])) ∧ t.dev.on Reg.TR_STATUS 5 = true)
  ∧ (∀ (s : State) (i : Ini) (data v : Word), s.fires i Reg.ID_KEY_FIRE data v = true → fld v 0 2 = 2 → s.dev.on Reg.ID_STATE 30 = false →
    ∃ t, exec (.idKeyRetire i data) s = .next t ∧ t.dev.on Reg.ID_STATE 30 = true ∧ t.dev.on Reg.ID_STATE 29 = false ∧ t.dev.trust.priv = [] ∧ t.dev.canSign = false)
  ∧ (∀ (s : State) (i : Ini) (data : Word), s.fires i Reg.JTAG_LOCK_FIRE data 1 = true → s.dev.on Reg.ID_STATE 28 = false →
    ∃ t, exec (.jtagLockFire i data) s = .next t ∧ t.dev.trust.prog = s.dev.trust.prog ++ [(4, false)] ∧ t.dev.rd Reg.ID_STATE = s.dev.rd Reg.ID_STATE)
  ∧ (∀ (s : State) (i : Ini) (data v : Word), s.fires i Reg.JTAG_LOCK_FIRE data v = true → v ≠ 1 →
    ∃ t, exec (.jtagLockFire i data) s = .next t ∧ t.dev.trust = s.dev.trust)

/-- ATT_START, ATTESTATION_DONE, EVIDENCE_INSTANT and EVIDENCE_COMMIT (R556 to R562): a START while no report is in progress latches its address, and is refused while one is; a report without a usable key ends NO_KEY, and one with it is written and ends OK; an evidence instant takes a snapshot, or is a skip with two waiting; a commit puts one EVIDENCE record out. -/
def Obligations.AttestationAndEvidence : Prop :=
  (∀ (s : State) (i : Ini), s.reaches i Reg.ATT_CMD .write = true → s.dev.on Reg.TR_STATUS 0 = false →
    ∃ t, exec (.attStart i) s = .next t ∧ t.dev.on Reg.TR_STATUS 0 = true
      ∧ t.dev.trust.att = some { edge := s.dev.tb.edges, addr := s.dev.n64 Reg.ATT_ADDR_LO Reg.ATT_ADDR_HI } ∧ ∀ j, j ≠ Reg.TR_STATUS → t.dev.rd j = s.dev.rd j)
  ∧ (∀ (s : State) (i : Ini), s.reaches i Reg.ATT_CMD .write = true → s.dev.on Reg.TR_STATUS 0 = true →
    ∃ t, exec (.attStart i) s = .next t ∧ t.dev.trust = s.dev.trust ∧ t.dev.f (Reg.LW_INFO 0x2B) 19 3 = 4)
  ∧ (∀ (s : State) (e a : Nat) (ws : List Word128), s.dev.trust.att = some ⟨e, a, some ws⟩ → s.dev.canSign = false →
    ∃ t, exec .attestationDone s = .next t ∧ t.dev.trust.att = none ∧ t.dev.f Reg.ATT_RESULT 28 4 = 2 ∧ t.dev.on Reg.TR_STATUS 0 = false ∧ t.mem = s.mem)
  ∧ (∀ (s : State) (e a : Nat) (ws : List Word128), s.dev.trust.att = some ⟨e, a, some ws⟩ → s.dev.canSign = true →
      s.writable 0x1E4 22 a (16 * (ws.length + 8)) = true →
    ∃ t, exec .attestationDone s = .next t ∧ t.dev.trust.att = none ∧ t.dev.f Reg.ATT_RESULT 28 4 = 1 ∧ t.dev.on Reg.TR_STATUS 0 = false
      ∧ t.mem.bytes a (16 * ws.length) = ws.flatMap memWord ∧ s.sameOutside t a (16 * (ws.length + 8)))
  ∧ (∀ (s : State), bit s.dev.trust.evd.ctrl 31 = true → s.dev.edgeAt s.dev.trust.evd.next ≤ s.dev.now → s.dev.on Reg.EVD_CTRL 31 = true →
      s.dev.trust.evd.waiting.length < 2 →
    ∃ t x, exec .evidenceInstant s = .next t ∧ t.dev.trust.evd.waiting = s.dev.trust.evd.waiting ++ [x] ∧ x.t = s.dev.now ∧ x.w = s.dev.timeWord 5 false s.dev.now
      ∧ t.dev.trust.evd.num = s.dev.trust.evd.num + 1 ∧ t.dev.trust.evd.ctrl = s.dev.rd Reg.EVD_CTRL ∧ t.dev.on Reg.TR_STATUS 1 = true)
  ∧ (∀ (s : State), bit s.dev.trust.evd.ctrl 31 = true → s.dev.edgeAt s.dev.trust.evd.next ≤ s.dev.now → s.dev.on Reg.EVD_CTRL 31 = true →
      2 ≤ s.dev.trust.evd.waiting.length →
    ∃ t, exec .evidenceInstant s = .next t ∧ t.dev.trust.evd.waiting = s.dev.trust.evd.waiting ∧ t.dev.n Reg.EVD_SKIPS = min (s.dev.n Reg.EVD_SKIPS + 1) (2 ^ 32 - 1)
      ∧ t.dev.on Reg.TR_STATUS 6 = true)
  ∧ (∀ (s : State) (x : EvdSnap) (l : List EvdSnap), s.dev.trust.evd.waiting = x :: l →
    ∃ t, exec .evidenceCommit s = .next t ∧ t.dev.trust.evd.waiting = l ∧ (t.dev.outOf 257).length = (s.dev.outOf 257).length + 1
      ∧ t.dev.n Reg.EVD_COUNT = (s.dev.n Reg.EVD_COUNT + 1) % 2 ^ 32 ∧ t.dev.nextSeq 0x7000 = (s.dev.nextSeq 0x7000 + 1) % 2 ^ 32 ∧ t.mem = s.mem)

/-- PD_DOWN_REQUEST, PD_UP_REQUEST, POWER_DOWN_DONE, POWER_UP_DONE, CL_SPARE_FAIL and XSPI_CMD (R424, R430, R568 to R571): an unused domain's removal is pending, one in use refuses it; a domain that is down powers up, and a deferred removal is cancelled; at the end of each the domain's state shows it, with its units as after reset, and a request that came meanwhile follows; a spare engine that fails is retired; a flash command into the peat log is denied. -/
def Obligations.PowerDomains : Prop :=
  (∀ (s : State) (i : Ini) (m : Fin 32), s.reaches i Reg.PD_REQ .write = true → 3 ≤ m.val → m.val ≤ 21 → s.dev.on Reg.PD_REQ m = true → s.dev.on Reg.PD_STATE m = true →
      s.dev.domainUsed m = false → s.dev.cw.groups = [] →
    ∃ t, exec (.pdDownRequest i m) s = .next t ∧ t.dev.on Reg.PD_REQ m = false ∧ t.dev.on Reg.PD_PEND m = true ∧ t.dev.pdPending m = true
      ∧ t.dev.rd Reg.PD_STATE = s.dev.rd Reg.PD_STATE ∧ t.mem = s.mem)
  ∧ (∀ (s : State) (i : Ini) (m : Fin 32), s.reaches i Reg.PD_REQ .write = true → 3 ≤ m.val → m.val ≤ 21 → s.dev.on Reg.PD_REQ m = true → s.dev.on Reg.PD_STATE m = true →
      s.dev.domainUsed m = true →
    ∃ t, exec (.pdDownRequest i m) s = .next t ∧ t.dev.rd Reg.PD_REQ = s.dev.rd Reg.PD_REQ ∧ t.dev.on Reg.PR_STATUS 2 = true
      ∧ t.dev.f Reg.PD_REFUSE_INFO 16 5 = m ∧ t.dev.f Reg.PD_REFUSE_INFO 0 4 = 1)
  ∧ (∀ (s : State) (i : Ini) (m : Fin 32), s.reaches i Reg.PD_REQ .write = true → m.val < 3 ∨ 21 < m.val →
    (∃ t, exec (.pdDownRequest i m) s = .next t ∧ ∀ j, t.dev.rd j = s.dev.rd j) ∧ ∃ t, exec (.pdUpRequest i m) s = .next t ∧ ∀ j, t.dev.rd j = s.dev.rd j)
  ∧ (∀ (s : State) (i : Ini) (m : Fin 32), s.reaches i Reg.PD_REQ .write = true → 3 ≤ m.val → m.val ≤ 21 → s.dev.on Reg.PD_REQ m = false → s.dev.on Reg.PD_STATE m = false →
    ∃ t, exec (.pdUpRequest i m) s = .next t ∧ t.dev.on Reg.PD_REQ m = true ∧ t.dev.on Reg.PD_PEND m = true ∧ ∀ j, j ≠ Reg.PD_REQ → j ≠ Reg.PD_PEND → t.dev.rd j = s.dev.rd j)
  ∧ (∀ (s : State) (i : Ini) (m : Fin 32), s.reaches i Reg.PD_REQ .write = true → 3 ≤ m.val → m.val ≤ 21 → s.dev.on Reg.PD_REQ m = false → s.dev.on Reg.PD_STATE m = true →
      s.dev.pdDeferred m = true →
    ∃ t, exec (.pdUpRequest i m) s = .next t ∧ t.dev.on Reg.PD_REQ m = true ∧ t.dev.on Reg.PD_PEND m = false ∧ t.dev.pdPending m = false
      ∧ t.dev.rd Reg.PD_STATE = s.dev.rd Reg.PD_STATE)
  ∧ (∀ (s : State) (m : Fin 32), s.dev.pdPending m = true → s.dev.pdDeferred m = false → s.dev.on Reg.PD_STATE m = true → s.dev.on Reg.PD_REQ m = false →
    ∃ t, exec (.powerDownDone m) s = .next t ∧ t.dev.on Reg.PD_STATE m = false ∧ t.dev.on Reg.PD_PEND m = false ∧ t.dev.pdPending m = false
      ∧ t.dev.on Reg.PR_STATUS 1 = true ∧ t.mem = s.mem)
  ∧ (∀ (s : State) (m : Fin 32), s.dev.pdPending m = true → s.dev.pdDeferred m = false → s.dev.on Reg.PD_STATE m = true → s.dev.on Reg.PD_REQ m = true →
    ∃ t, exec (.powerDownDone m) s = .next t ∧ t.dev.on Reg.PD_STATE m = false ∧ t.dev.on Reg.PD_PEND m = true ∧ t.dev.pdPending m = false ∧ t.mem = s.mem)
  ∧ (∀ (s : State) (m : Fin 32), 3 ≤ m.val → m.val ≤ 8 → s.dev.on Reg.PD_STATE m = false → s.dev.on Reg.PD_PEND m = true → s.dev.on Reg.PD_REQ m = false →
      s.dev.cw.groups = [] →
    ∃ t, exec (.powerUpDone m) s = .next t ∧ t.dev.on Reg.PD_STATE m = true ∧ t.dev.on Reg.PD_PEND m = true ∧ t.dev.on Reg.PD_REQ m = false ∧ t.mem = s.mem)
  ∧ (∀ (s : State) (m : Fin 32), 3 ≤ m.val → m.val ≤ 21 → s.dev.on Reg.PD_STATE m = false → s.dev.on Reg.PD_PEND m = true → s.dev.on Reg.PD_REQ m = true →
    ∃ t, exec (.powerUpDone m) s = .next t ∧ t.dev.on Reg.PD_STATE m = true ∧ t.dev.on Reg.PD_PEND m = false ∧ t.dev.on Reg.PR_STATUS 1 = true ∧ t.mem = s.mem
      ∧ (∀ e : Fin 128, 13 + e.val / 16 = m.val → t.dev.eng e = {}) ∧ (∀ l : Fin 48, 9 + l.val / 12 = m.val → t.dev.lane l = {}))
  ∧ (∀ (s : State) (c : Fin 8), s.dev.clSpare c < 17 → s.dev.migrant c = none →
    ∃ t, exec (.clSpareFail c) s = .next t ∧ t.dev.clSpare c = 0x1F ∧ t.dev.on (Reg.CL_RETIRED c) (s.dev.clSpare c) = true ∧ t.dev.on Reg.FL_STATUS 11 = true
      ∧ t.dev.engs = s.dev.engs)
  ∧ (∀ (s : State) (i : Ini) (data : Word), s.reaches i Reg.XSPI_CMD .write = true →
    ∃ t, exec (.xspiCmd i data) s = .next t ∧ t.mem = s.mem
      ∧ (inLog (s.dev.n Reg.XSPI_ADDR) = true → t.dev.pw.flash = s.dev.pw.flash ∧ t.dev.pw.era = s.dev.pw.era ∧ t.dev.resp.ok = false
          ∧ t.dev.n Reg.DENY_COUNT = min (s.dev.n Reg.DENY_COUNT + 1) (2 ^ 32 - 1))
      ∧ (inLog (s.dev.n Reg.XSPI_ADDR) = false → t.dev.rd Reg.XSPI_CMD = data ∧ t.dev.pw.era = s.dev.pw.era + 1))

/-- SUPPLY_RESET, POR_N_ASSERT, POR_N_RELEASE, WARM_N_ASSERT, THERMAL_TRIP, THERMTRIP_CLEAR, RST_CMD_WARM, RST_CMD_DEVICE, RESET_VOLTAGE_READY, RESET_VOLTAGE_RETRY, OTP_SENSE_END, BOOT_ROM_START, WATCHDOG_EXPIRE, WDOG_CFG_WRITE, WDOG_KICK and CORE_EN_WRITE (R572 to R582, R599): each cause starts a reset of its level and is recorded; a POWER_ON reset loses HBM and a WARM one keeps device time; what holds a reset lets it go; the voltage, OTP and boot stages follow in order, and the boot ends at HANDOFF or FAILED with its code; the watchdog is locked by EN and restarted by the one key. -/
def Obligations.ResetsAndBoot : Prop :=
  (∀ (s : State), s.dev.pw.reset = none →
    ∃ t, exec .supplyReset s = .next t ∧ t.dev.pw.reset = some (1, 0) ∧ t.dev.pw.por = true ∧ t.dev.rd Reg.RST_CAUSE = 0x0101 ∧ t.mem = []
      ∧ t.dev.f Reg.BOOT_STAGE 28 4 = 0 ∧ t.dev.now = 0 ∧ t.dev.cw = {} ∧ t.dev.engs = [])
  ∧ (∀ (s : State), s.dev.pw.reset = none →
    ∃ t, exec .porNAssert s = .next t ∧ t.dev.pw.reset = some (1, 0) ∧ t.dev.pw.por = true ∧ t.dev.rd Reg.RST_CAUSE = 0x0102 ∧ t.mem = [] ∧ t.dev.fl.log = s.dev.fl.log)
  ∧ (∀ (s : State) (l : Nat), s.dev.pw.reset = some (l, 0) → s.dev.pw.trip = false → s.dev.pw.jtag = false →
    ∃ t, exec .porNRelease s = .next t ∧ t.dev.pw.por = false ∧ t.dev.pw.reset = some (l, 1) ∧ t.dev.f Reg.BOOT_STAGE 28 4 = 1)
  ∧ (∀ (s : State), s.dev.pw.reset = none → s.dev.heldInReset = false →
    ∃ t, exec .warmNAssert s = .next t ∧ t.dev.pw.reset = some (3, 1) ∧ t.dev.rd Reg.RST_CAUSE = 0x0307 ∧ t.mem = s.mem ∧ t.dev.tb = s.dev.tb
      ∧ t.dev.f Reg.BOOT_STAGE 28 4 = 1 ∧ t.dev.cw = {})
  ∧ (∀ (s : State), s.dev.pw.reset = none → s.dev.pw.trip = false →
    ∃ t, exec .thermalTrip s = .next t ∧ t.dev.thermtrip = true ∧ t.dev.pw.reset = some (2, 0) ∧ t.dev.rd Reg.RST_CAUSE = 0x0204 ∧ t.mem = s.mem ∧ t.dev.now = 0)
  ∧ (∀ (s : State) (l : Nat), s.dev.pw.reset = some (l, 0) → s.dev.pw.por = false → s.dev.pw.jtag = false →
    ∃ t, exec .thermtripClear s = .next t ∧ t.dev.thermtrip = false ∧ t.dev.pw.reset = some (l, 1) ∧ t.dev.f Reg.BOOT_STAGE 28 4 = 1)
  ∧ (∀ (s : State) (i : Ini) (data : Word), s.fires i Reg.RST_CMD_FIRE data 1 = true → s.dev.pw.reset = none → s.dev.heldInReset = false →
    ∃ t, exec (.rstCmdWarm i data) s = .next t ∧ t.dev.pw.reset = some (3, 1) ∧ t.dev.rd Reg.RST_CAUSE = 0x0306 ∧ t.mem = s.mem ∧ t.dev.tb = s.dev.tb)
  ∧ (∀ (s : State) (i : Ini) (data : Word), s.fires i Reg.RST_CMD_FIRE data 2 = true → s.dev.pw.reset = none → s.dev.heldInReset = false →
    ∃ t, exec (.rstCmdDevice i data) s = .next t ∧ t.dev.pw.reset = some (2, 1) ∧ t.dev.rd Reg.RST_CAUSE = 0x0203 ∧ t.mem = s.mem ∧ t.dev.now = 0)
  ∧ (∀ (s : State) (i : Ini) (data v : Word), s.fires i Reg.RST_CMD_FIRE data v = true → v ≠ 1 → v ≠ 2 →
    (∃ t, exec (.rstCmdWarm i data) s = .next t ∧ t.dev.pw.reset = s.dev.pw.reset ∧ t.dev.f (Reg.LW_INFO 0x2C) 19 3 = 4)
      ∧ ∃ t, exec (.rstCmdDevice i data) s = .next t ∧ t.dev.pw.reset = s.dev.pw.reset ∧ t.dev.f (Reg.LW_INFO 0x2C) 19 3 = 4)
  ∧ (∀ (s : State) (l vdd readback : Nat), s.dev.pw.reset = some (l, 1) → readback ≤ s.dev.vddBoot + 10 → s.dev.vddBoot ≤ readback + 10 →
    ∃ t, exec (.resetVoltageReady vdd readback) s = .next t ∧ t.dev.pw.reset = (if l = 1 then some (1, 2) else none) ∧ t.dev.vddCmd = s.dev.vddBoot
      ∧ t.dev.f Reg.VDD_NOW 16 16 = readback % 65536 ∧ t.dev.fl.vddRead = vdd)
  ∧ (∀ (s : State) (l vdd readback : Nat), s.dev.pw.reset = some (l, 1) → s.dev.vddBoot + 10 < readback →
    exec (.resetVoltageReady vdd readback) s = .next s)
  ∧ (∀ (s : State) (l : Nat), s.dev.pw.reset = some (l, 1) →
    ∃ t, exec .resetVoltageRetry s = .next t ∧ t.dev.pw = { s.dev.pw with tries := s.dev.pw.tries + 1 } ∧ ∀ j, t.dev.rd j = s.dev.rd j)
  ∧ (∀ (s : State) (l : Nat), s.dev.pw.reset = some (l, 2) →
    ∃ t, exec .otpSenseEnd s = .next t ∧ t.dev.pw.reset = none ∧ t.dev.f Reg.OTP_STATUS 16 16 = min 65535 s.dev.otpPartials
      ∧ ∀ j, j ≠ Reg.OTP_STATUS → t.dev.rd j = s.dev.rd j)
  ∧ (∀ (s : State) (trained : Bool) (fl fe fb : List Nat) (l : List Byte), s.dev.pw.reset = none → s.dev.f Reg.BOOT_STAGE 28 4 < 3 →
      l = (if descOk (s.dev.flashBytes 0 64) then s.dev.flashBytes 0 64 else s.dev.flashBytes 0x10000 64) →
    ∃ t, exec (.bootRomStart trained fl fe fb) s = .next t ∧ (t.dev.f Reg.BOOT_STAGE 28 4 = 8 ∨ t.dev.f Reg.BOOT_STAGE 28 4 = 15)
      ∧ (descOk l = false → t.dev.f Reg.BOOT_STAGE 28 4 = 15 ∧ t.dev.f Reg.BOOT_STAGE 24 4 = 1 ∧ t.mem = s.mem)
      ∧ (descOk l = true → s.dev.descOverlaps l = true → t.dev.f Reg.BOOT_STAGE 28 4 = 15 ∧ t.dev.f Reg.BOOT_STAGE 24 4 = 2 ∧ t.mem = s.mem)
      ∧ (descOk l = true → s.dev.descOverlaps l = false → trained = false →
          t.dev.f Reg.BOOT_STAGE 28 4 = 15 ∧ t.dev.f Reg.BOOT_STAGE 24 4 = 3 ∧ t.dev.n Reg.BOOT_COUNT = (s.dev.n Reg.BOOT_COUNT + 1) % 2 ^ 32))
  ∧ (∀ (s : State), s.dev.pw.reset = none → s.dev.heldInReset = false → s.dev.on Reg.PR_STATUS 0 = true →
      elapsedNs 0 (s.dev.pw.wdBase + (s.dev.up - s.dev.pw.kick)) (s.dev.f Reg.WDOG_CFG 0 16 * 1000000) = true →
    ∃ t, exec .watchdogExpire s = .next t ∧ t.dev.pw.reset = some (3, 1) ∧ t.dev.rd Reg.RST_CAUSE = 0x0308 ∧ t.mem = s.mem ∧ t.dev.pw.kick = s.dev.up)
  ∧ (∀ (s : State) (i : Ini) (data : Word), s.reaches i Reg.WDOG_CFG .write = true → s.dev.on Reg.WDOG_CFG 31 = false → bit data 31 = true → fld data 0 16 ≠ 0 →
    ∃ t, exec (.wdogCfgWrite i data) s = .next t ∧ t.dev.rd Reg.WDOG_CFG = data &&& 0x8000FFFF ∧ t.dev.on Reg.PR_STATUS 0 = true
      ∧ t.dev.pw.kick = s.dev.up ∧ t.dev.pw.wdBase = 0)
  ∧ (∀ (s : State) (i : Ini) (data : Word), s.reaches i Reg.WDOG_CFG .write = true → s.dev.on Reg.WDOG_CFG 31 = true →
    ∃ t, exec (.wdogCfgWrite i data) s = .next t ∧ t.dev.rd Reg.WDOG_CFG = s.dev.rd Reg.WDOG_CFG ∧ t.dev.pw = s.dev.pw ∧ t.dev.f (Reg.LW_INFO 0x2C) 19 3 = 1)
  ∧ (∀ (s : State) (i : Ini), s.reaches i Reg.WDOG_KICK .write = true →
    ∃ t, exec (.wdogKick i 0x4B1C) s = .next t ∧ t.dev.pw = { s.dev.pw with wdBase := 0, kick := s.dev.up } ∧ ∀ j, t.dev.rd j = s.dev.rd j)
  ∧ (∀ (s : State) (i : Ini) (data : Word), s.reaches i Reg.WDOG_KICK .write = true → data ≠ 0x4B1C →
    ∃ t, exec (.wdogKick i data) s = .next t ∧ t.dev.pw = s.dev.pw ∧ ∀ j, t.dev.rd j = s.dev.rd j)
  ∧ (∀ (s : State) (i : Ini) (data : Word), s.reaches i Reg.CORE_EN .write = true →
    ∃ t, exec (.coreEnWrite i data) s = .next t ∧ t.dev.f Reg.CORE_EN 0 8 = fld data 0 8 ∧ t.mem = s.mem ∧ ∀ j, j ≠ Reg.CORE_EN → t.dev.rd j = s.dev.rd j)

/-- TEST_LOGIC_RESET, BYPASS, IDCODE, SAMPLE_PRELOAD, EXTEST, EXTEST_PULSE, EXTEST_TRAIN, CLAMP, HIGHZ and REG_ACCESS (R554, R574, R580): test-logic reset selects IDCODE and gives the pins back; each instruction stands in the TAP, and those that take the pins hold the device in a DEVICE reset with cause JTAG; REG_ACCESS reads and writes a register as the JTAG port, and is BYPASS once JTAG_LOCK is programmed. -/
def Obligations.JtagPort : Prop :=
  (∀ (s : State), ∃ t, exec .testLogicReset s = .next t ∧ t.dev.pw.tap = 1 ∧ t.dev.pw.tdo = 0x26148969 ∧ t.dev.pw.jtag = false ∧ t.mem = s.mem)
  ∧ (∀ (s : State) (l : Nat), s.dev.pw.reset = some (l, 0) → s.dev.pw.por = false → s.dev.pw.trip = false →
    ∃ t, exec .testLogicReset s = .next t ∧ t.dev.pw.reset = some (l, 1))
  ∧ (∀ (s : State) (op : BitVec 6), ∃ t, exec (.bypass op) s = .next t ∧ t.dev.pw = { s.dev.pw with tap := op.toNat, tdo := 0 } ∧ t.mem = s.mem ∧ ∀ j, t.dev.rd j = s.dev.rd j)
  ∧ (∀ (s : State), ∃ t, exec .idcode s = .next t ∧ t.dev.pw = { s.dev.pw with tap := 1, tdo := 0x26148969 } ∧ t.mem = s.mem ∧ ∀ j, t.dev.rd j = s.dev.rd j)
  ∧ (∀ (s : State), ∃ t, exec .samplePreload s = .next t ∧ t.dev.pw = { s.dev.pw with tap := 2, tdo := 0 } ∧ t.mem = s.mem ∧ ∀ j, t.dev.rd j = s.dev.rd j)
  ∧ (∀ (s : State) (c : Instr) (k : Nat), (c, k) ∈ [(Instr.extest, 3), (.extestPulse, 4), (.extestTrain, 5), (.clamp, 6), (.highz, 7)] → s.dev.pw.jtag = false →
      s.dev.pw.reset = none →
    ∃ t, exec c s = .next t ∧ t.dev.pw.tap = k ∧ t.dev.pw.tdo = 0 ∧ t.dev.pw.jtag = true ∧ t.dev.pw.reset = some (2, 0) ∧ t.dev.rd Reg.RST_CAUSE = 0x0205 ∧ t.mem = s.mem)
  ∧ (∀ (s : State) (data : Word), s.dev.on Reg.ID_STATE 28 = false → s.dev.pw.reset = none → s.dev.flight 0x2C = none →
      s.reaches 0x1F0 Reg.RST_CAUSE .read = true →
    ∃ t, exec (.regAccess false (regBase + Reg.RST_CAUSE) data) s = .next t ∧ t.dev.pw.tap = 0x10 ∧ t.dev.pw.tdo = s.dev.rd Reg.RST_CAUSE ∧ t.mem = s.mem
      ∧ ∀ j, t.dev.rd j = s.dev.rd j)
  ∧ (∀ (s : State) (data : Word), s.dev.on Reg.ID_STATE 28 = false → s.reaches 0x1F0 Reg.CORE_EN .write = true →
    ∃ t, exec (.regAccess true (regBase + Reg.CORE_EN) data) s = .next t ∧ t.dev.pw.tap = 0x10 ∧ t.dev.f Reg.CORE_EN 0 8 = fld data 0 8 ∧ t.mem = s.mem
      ∧ ∀ j, j ≠ Reg.CORE_EN → t.dev.rd j = s.dev.rd j)
  ∧ (∀ (s : State) (w : Bool) (a : Nat) (data : Word), s.dev.on Reg.ID_STATE 28 = true →
    ∃ t, exec (.regAccess w a data) s = .next t ∧ t.dev.pw = { s.dev.pw with tap := 0x10, tdo := 0 } ∧ t.mem = s.mem ∧ ∀ j, t.dev.rd j = s.dev.rd j)

end
end

