-- ==== Sys2Proof/Laws/Bits.lean ====
section
/-! SUPPORT. Reading a field after writing one. -/
namespace Sys2Proof.Machine

theorem fld_eq_extract {n : Nat} (w : BitVec n) (lo len : Nat) : fld w lo len = (w.extractLsb' lo len).toNat := by
  simp [fld, BitVec.extractLsb'_toNat]

/-- A field is below its width. -/
theorem fld_lt {n : Nat} (w : BitVec n) (lo len : Nat) : fld w lo len < 2 ^ len :=
  Nat.mod_lt _ (Nat.two_pow_pos len)

theorem testBit_fld {n : Nat} (w : BitVec n) (lo len i : Nat) : (fld w lo len).testBit i = (decide (i < len) && bit w (lo + i)) := by
  simp [fld, bit, BitVec.getLsbD, Nat.testBit_mod_two_pow, Nat.testBit_shiftRight]

theorem bit_put {n : Nat} (w : BitVec n) (lo len v i : Nat) (h : lo + len ≤ n) :
    bit (put w lo len v) i = if lo ≤ i ∧ i < lo + len then v.testBit (i - lo) else bit w i := by
  unfold bit put
  by_cases hn : i < n
  · simp only [BitVec.getLsbD_or, BitVec.getLsbD_and, BitVec.getLsbD_not, BitVec.getLsbD_ofNat, hn, decide_true,
      Bool.true_and, Nat.testBit_shiftLeft, Nat.testBit_two_pow_sub_one, Nat.testBit_mod_two_pow]
    by_cases h1 : lo ≤ i
    · by_cases h2 : i - lo < len
      · have h3 : i < lo + len := by omega
        simp [h1, h2, h3]
      · have h3 : ¬ i < lo + len := by omega
        simp [h1, h2, h3]
    · simp [h1]
  · have h3 : ¬ (lo ≤ i ∧ i < lo + len) := by omega
    simp [h3, BitVec.getLsbD_of_ge _ _ (Nat.le_of_not_lt hn)]

/-- A field reads as what was put into it. -/
@[simp] theorem fld_put_self {n : Nat} (w : BitVec n) (lo len v : Nat) (h : lo + len ≤ n) : fld (put w lo len v) lo len = v % 2 ^ len := by
  apply Nat.eq_of_testBit_eq
  intro i
  rw [testBit_fld, bit_put w lo len v _ h, Nat.testBit_mod_two_pow]
  by_cases hi : i < len
  · have : lo ≤ lo + i ∧ lo + i < lo + len := by omega
    simp [hi, this]
  · simp [hi]

/-- Putting a field leaves a field that does not meet it alone. -/
theorem fld_put_ne {n : Nat} (w : BitVec n) (lo len v a b : Nat) (h : lo + len ≤ n) (d : a + b ≤ lo ∨ lo + len ≤ a) :
    fld (put w lo len v) a b = fld w a b := by
  apply Nat.eq_of_testBit_eq
  intro i
  rw [testBit_fld, testBit_fld, bit_put w lo len v _ h]
  by_cases hi : i < b
  · have : ¬ (lo ≤ a + i ∧ a + i < lo + len) := by omega
    simp [hi, this]
  · simp [hi]

theorem bit_or {n : Nat} (x y : BitVec n) (i : Nat) : bit (x ||| y) i = (bit x i || bit y i) := by simp [bit]

theorem bit_and {n : Nat} (x y : BitVec n) (i : Nat) : bit (x &&& y) i = (bit x i && bit y i) := by simp [bit]

/-- The word of one bit. -/
theorem bit_pow {n : Nat} (k i : Nat) (h : k < n) : bit (BitVec.ofNat n (2 ^ k)) i = decide (i = k) := by
  unfold bit
  rw [BitVec.getLsbD_ofNat, Nat.testBit_two_pow]
  by_cases hi : i = k
  · subst hi; simp [h]
  · have : ¬ k = i := fun e => hi e.symm
    simp [hi, this]

theorem bit_notpow (k i : Nat) (h : k < 32) (hi : i < 32) : bit (~~~(BitVec.ofNat 32 (2 ^ k))) i = decide (i ≠ k) := by
  have := bit_pow (n := 32) k i h
  unfold bit at this ⊢
  rw [BitVec.getLsbD_not, this]
  by_cases e : i = k <;> simp [e, hi, h]

end Sys2Proof.Machine
end

