-- ==== Sys2Proof/Laws/Tab.lean ====
section
/-! SUPPORT. Reading after writing in a sparse table, and its canonical form. -/
namespace Sys2Proof.Machine

theorem Tab.find?_insert_self {α : Type} (t : Tab α) (k : Nat) (x : α) : (t.insert k x).find? k = some x := by
  induction t with
  | nil => simp [Tab.insert, Tab.find?]
  | cons e r ih =>
    obtain ⟨j, v⟩ := e
    unfold Tab.insert
    split
    · simp [Tab.find?]
    · rename_i h
      split
      · simp [Tab.find?]
      · simp [Tab.find?, h, ih]

theorem Tab.find?_insert_ne {α : Type} (t : Tab α) {j k : Nat} (x : α) (h : j ≠ k) : (t.insert k x).find? j = t.find? j := by
  induction t with
  | nil => simp [Tab.insert, Tab.find?, Ne.symm h]
  | cons e r ih =>
    obtain ⟨i, v⟩ := e
    unfold Tab.insert
    split
    · rename_i hi; subst hi; simp [Tab.find?, Ne.symm h]
    · split
      · simp [Tab.find?, Ne.symm h]
      · simp [Tab.find?, ih]

theorem Tab.find?_erase_self {α : Type} (t : Tab α) (k : Nat) : (t.erase k).find? k = none := by
  induction t with
  | nil => rfl
  | cons e r ih =>
    obtain ⟨j, v⟩ := e
    unfold Tab.erase at ih ⊢
    by_cases h : j = k
    · simp [h, ih]
    · simp [h, Tab.find?, ih]

theorem Tab.find?_erase_ne {α : Type} (t : Tab α) {j k : Nat} (h : j ≠ k) : (t.erase k).find? j = t.find? j := by
  induction t with
  | nil => rfl
  | cons e r ih =>
    obtain ⟨i, v⟩ := e
    unfold Tab.erase at ih ⊢
    by_cases hi : i = k
    · subst hi; simp [Tab.find?, Ne.symm h, ih]
    · simp [hi, Tab.find?, ih]

/-- A key reads as what was written to it. -/
@[simp] theorem Tab.get_set_self {α : Type} [DecidableEq α] (dflt : Nat → α) (t : Tab α) (k : Nat) (x : α) :
    (t.set dflt k x).get dflt k = x := by
  unfold Tab.set Tab.get
  split
  · rename_i h; simp [Tab.find?_erase_self, h]
  · simp [Tab.find?_insert_self]

/-- A write leaves every other key alone. -/
theorem Tab.get_set_ne {α : Type} [DecidableEq α] (dflt : Nat → α) (t : Tab α) {j k : Nat} (x : α) (h : j ≠ k) :
    (t.set dflt k x).get dflt j = t.get dflt j := by
  unfold Tab.set Tab.get
  split
  · rw [Tab.find?_erase_ne t h]
  · rw [Tab.find?_insert_ne t x h]

/-- Reading after writing, in one equation. -/
theorem Tab.get_set {α : Type} [DecidableEq α] (dflt : Nat → α) (t : Tab α) (j k : Nat) (x : α) :
    (t.set dflt k x).get dflt j = if j = k then x else t.get dflt j := by
  split
  · rename_i h; subst h; simp
  · rename_i h; exact Tab.get_set_ne dflt t x h

/-- The empty table reads as its defaults. -/
@[simp] theorem Tab.get_nil {α : Type} (dflt : Nat → α) (k : Nat) : Tab.get dflt ([] : Tab α) k = dflt k := rfl

theorem Tab.sortedFrom_mono {α : Type} (t : Tab α) {lo hi : Nat} (h : lo ≤ hi) (s : t.sortedFrom hi = true) : t.sortedFrom lo = true := by
  cases t with
  | nil => rfl
  | cons e r =>
    obtain ⟨k, v⟩ := e
    simp [Tab.sortedFrom] at s ⊢
    exact ⟨by omega, s.2⟩

theorem Tab.sortedFrom_filter {α : Type} (t : Tab α) (p : Nat × α → Bool) (lo : Nat) (s : t.sortedFrom lo = true) :
    Tab.sortedFrom (t.filter p) lo = true := by
  induction t generalizing lo with
  | nil => rfl
  | cons e r ih =>
    obtain ⟨k, v⟩ := e
    simp only [Tab.sortedFrom, Bool.and_eq_true, decide_eq_true_eq] at s
    by_cases h : p (k, v) = true
    · simp [List.filter, h, Tab.sortedFrom, s.1, ih (k + 1) s.2]
    · simp only [List.filter, h]
      exact ih lo (Tab.sortedFrom_mono r (by omega) s.2)

theorem Tab.sortedFrom_insert {α : Type} (t : Tab α) (k : Nat) (x : α) (lo : Nat) (hk : lo ≤ k) (s : t.sortedFrom lo = true) :
    (t.insert k x).sortedFrom lo = true := by
  induction t generalizing lo with
  | nil => simp [Tab.insert, Tab.sortedFrom, hk]
  | cons e r ih =>
    obtain ⟨j, v⟩ := e
    simp only [Tab.sortedFrom, Bool.and_eq_true, decide_eq_true_eq] at s
    unfold Tab.insert
    split
    · rename_i h; subst h; simp [Tab.sortedFrom, s.1, s.2]
    · split
      · rename_i h1 h2
        simp only [Tab.sortedFrom, Bool.and_eq_true, decide_eq_true_eq]
        exact ⟨hk, by omega, s.2⟩
      · rename_i h1 h2
        simp only [Tab.sortedFrom, Bool.and_eq_true, decide_eq_true_eq]
        exact ⟨s.1, ih (j + 1) (by omega) s.2⟩

theorem Tab.all_insert {α : Type} (t : Tab α) (k : Nat) (x : α) (p : Nat × α → Bool) (hx : p (k, x) = true) (h : t.all p = true) :
    (t.insert k x).all p = true := by
  induction t with
  | nil => simp [Tab.insert, hx]
  | cons e r ih =>
    obtain ⟨j, v⟩ := e
    simp only [List.all_cons, Bool.and_eq_true] at h
    unfold Tab.insert
    split
    · simp [List.all_cons, hx, h.2]
    · split
      · simp only [List.all_cons, Bool.and_eq_true]; exact ⟨hx, h.1, h.2⟩
      · simp only [List.all_cons, Bool.and_eq_true]; exact ⟨h.1, ih h.2⟩

/-- A write keeps the canonical form. -/
theorem Tab.wf_set {α : Type} [DecidableEq α] (dflt : Nat → α) (t : Tab α) (k : Nat) (x : α) (h : t.wf dflt = true) :
    (t.set dflt k x).wf dflt = true := by
  unfold Tab.wf at h ⊢
  simp only [Bool.and_eq_true] at h ⊢
  unfold Tab.set
  split
  · refine ⟨Tab.sortedFrom_filter t _ 0 h.1, ?_⟩
    rw [List.all_eq_true] at h ⊢
    intro e he
    exact h.2 e (List.mem_filter.mp he).1
  · rename_i hx
    exact ⟨Tab.sortedFrom_insert t k x 0 (Nat.zero_le _) h.1, Tab.all_insert t k x _ (by simpa using hx) h.2⟩

/-- Dropping keys keeps the canonical form. -/
theorem Tab.wf_drop {α : Type} [DecidableEq α] (dflt : Nat → α) (t : Tab α) (p : Nat → Bool) (h : t.wf dflt = true) :
    (t.drop p).wf dflt = true := by
  unfold Tab.wf at h ⊢
  simp only [Bool.and_eq_true] at h ⊢
  refine ⟨Tab.sortedFrom_filter t _ 0 h.1, ?_⟩
  rw [List.all_eq_true] at h ⊢
  intro e he
  exact h.2 e (List.mem_filter.mp he).1

end Sys2Proof.Machine
end

