-- ==== Sys2Proof/Laws/Reg.lean ====
section
/-! SUPPORT. Reading a register after an update of the device. -/
namespace Sys2Proof.Machine

/-- Reading the register file is reading the device. -/
@[simp] theorem Dev.get_regs (d : Dev) (k : Nat) : d.regs.get regReset k = d.rd k := rfl

/-- A write changes the register it names. -/
@[simp] theorem Dev.rd_wr_self (d : Dev) (k : Nat) (v : Word) : (d.wr k v).rd k = v := by simp [Dev.rd, Dev.wr]

/-- A write changes no other register. -/
theorem Dev.rd_wr_ne (d : Dev) {j k : Nat} (v : Word) (h : j ≠ k) : (d.wr k v).rd j = d.rd j := by
  unfold Dev.rd Dev.wr
  exact Tab.get_set_ne regReset d.regs v h

/-- Reading after writing, in one equation. -/
theorem Dev.rd_wr (d : Dev) (j k : Nat) (v : Word) : (d.wr k v).rd j = if j = k then v else d.rd j := by
  split
  · rename_i h; subst h; simp
  · rename_i h; exact Dev.rd_wr_ne d v h

theorem Dev.rd_wrN (d : Dev) (j k v : Nat) : (d.wrN k v).rd j = if j = k then BitVec.ofNat 32 v else d.rd j := Dev.rd_wr d j k _

theorem Dev.rd_wrF (d : Dev) (j k lo len v : Nat) : (d.wrF k lo len v).rd j = if j = k then put (d.rd k) lo len v else d.rd j :=
  Dev.rd_wr d j k _

/-- A field reads as what was written to it. -/
theorem Dev.f_wrF_self (d : Dev) (k lo len v : Nat) (h : lo + len ≤ 32) : (d.wrF k lo len v).f k lo len = v % 2 ^ len := by
  simp [Dev.f, Dev.rd_wrF, h]

/-- The bits of a register after one is set. -/
theorem Dev.on_setB (d : Dev) (j k m i : Nat) (h : i < 32) : (d.setB k i).on j m = (d.on j m || (decide (j = k) && decide (m = i))) := by
  unfold Dev.on Dev.setB
  rw [Dev.rd_wr]
  by_cases hj : j = k
  · subst hj; simp only [if_true, bit_or, bit_pow i m h, decide_true, Bool.true_and]
  · simp [hj]

/-- The bits of a register after one is cleared. -/
theorem Dev.on_clrB (d : Dev) (j k m i : Nat) (h : i < 32) (hm : m < 32) :
    (d.clrB k i).on j m = (d.on j m && !(decide (j = k) && decide (m = i))) := by
  unfold Dev.on Dev.clrB
  rw [Dev.rd_wr]
  by_cases hj : j = k
  · subst hj
    simp only [if_true, bit_and, bit_notpow i m h hm, decide_true, Bool.true_and]
    by_cases hmi : m = i <;> simp [hmi]
  · simp [hj]

@[simp] theorem Dev.on_setB_self (d : Dev) (k i : Nat) (h : i < 32) : (d.setB k i).on k i = true := by simp [Dev.on_setB d k k i i h]

@[simp] theorem Dev.on_clrB_self (d : Dev) (k i : Nat) (h : i < 32) : (d.clrB k i).on k i = false := by simp [Dev.on_clrB d k k i i h h]

theorem Dev.on_putB_self (d : Dev) (k i : Nat) (b : Bool) (h : i < 32) : (d.putB k i b).on k i = b := by
  cases b <;> simp [Dev.putB, h]

theorem Dev.rd_setB_ne (d : Dev) {j k : Nat} (i : Nat) (h : j ≠ k) : (d.setB k i).rd j = d.rd j := Dev.rd_wr_ne d _ h

theorem Dev.rd_clrB_ne (d : Dev) {j k : Nat} (i : Nat) (h : j ≠ k) : (d.clrB k i).rd j = d.rd j := Dev.rd_wr_ne d _ h

theorem Dev.rd_putB_ne (d : Dev) {j k : Nat} (i : Nat) (b : Bool) (h : j ≠ k) : (d.putB k i b).rd j = d.rd j := by
  cases b
  · exact Dev.rd_clrB_ne d i h
  · exact Dev.rd_setB_ne d i h

/-- Raising an event changes its sequence number and no other register. -/
theorem Dev.rd_raise (d : Dev) (n j : Nat) : (d.raise n).rd j = if j = Reg.EV_SEQ n then BitVec.ofNat 32 (d.n (Reg.EV_SEQ n) + 1) else d.rd j :=
  Dev.rd_wrN d j _ _

/-- A raised event is on its way to the cores with its new sequence number. -/
theorem Dev.toCores_raise (d : Dev) (n : Nat) :
    (d.raise n).ev.toCores = d.ev.toCores ++ [(n, (BitVec.ofNat 32 (d.n (Reg.EV_SEQ n) + 1)).toNat)] := by
  show d.ev.toCores ++ [(n, ((d.wrN (Reg.EV_SEQ n) _).n (Reg.EV_SEQ n)))] = _
  simp only [Dev.n, Dev.rd_wrN, if_true]

/-- An event of a block changes SEQ of its status register and the event's sequence number only. -/
theorem Dev.rd_event_ne (d : Dev) (st n : Nat) {j : Nat} (h1 : j ≠ st) (h2 : j ≠ Reg.EV_SEQ n) : (d.event st n).rd j = d.rd j := by
  unfold Dev.event
  rw [Dev.rd_raise]
  simp [h2, Dev.seqInc, Dev.rd_wr, h1]

end Sys2Proof.Machine
end

