-- ==== Sys2Proof/Laws/Bus.lean ====
section
/-! SUPPORT. What an access that reaches its register does. -/
namespace Sys2Proof.Machine

theorem key_of_addr (k : Nat) : (regBase + k - regBase) / 0x10000 = keyBlock k := by
  rw [Nat.add_sub_cancel_left]; rfl

/-- The device as an effect finds it: the arms of the initiator abandoned, and a normal answer. -/
def Dev.reached (d : Dev) (i : Ini) (keep : Nat) : Dev := (d.abandon i keep).answer ⟨true, 0⟩

@[simp] theorem Dev.rd_reached (d : Dev) (i : Ini) (keep k : Nat) : (d.reached i keep).rd k = d.rd k := rfl
@[simp] theorem Dev.on_reached (d : Dev) (i : Ini) (keep k m : Nat) : (d.reached i keep).on k m = d.on k m := rfl
@[simp] theorem Dev.n_reached (d : Dev) (i : Ini) (keep k : Nat) : (d.reached i keep).n k = d.n k := rfl
@[simp] theorem Dev.f_reached (d : Dev) (i : Ini) (keep k lo len : Nat) : (d.reached i keep).f k lo len = d.f k lo len := rfl
@[simp] theorem Dev.rd_disarm (d : Dev) (i : Ini) (k : Nat) : (d.disarm i).rd k = d.rd k := rfl
@[simp] theorem Dev.rd_answer (d : Dev) (r : Resp) (k : Nat) : (d.answer r).rd k = d.rd k := rfl
@[simp] theorem Dev.resp_answer (d : Dev) (r : Resp) : (d.answer r).resp = r := rfl

/-- An access that reaches its register abandons arms, answers normally, and goes on. -/
theorem access_of_reaches (s : State) (i : Ini) (k keep : Nat) (kd : Kind) (h : s.reaches i k kd = true) :
    s.dev.access i (regBase + k) 4 kd keep = (s.dev.reached i keep, true) := by
  unfold State.reaches at h
  simp only [Bool.and_eq_true, Option.isNone_iff_eq_none] at h
  have h1 : (s.dev.abandon i keep).regDeny i (regBase + k) 4 kd = none := h.1
  have h2 : (s.dev.abandon i keep).domUp (domainOf (keyBlock k)) = true := h.2
  simp only [Dev.access, h1, key_of_addr, h2, if_true, Dev.reached]

/-- A write that reaches its register has its effect. -/
theorem onWrite_of_reaches (s : State) (i : Ini) (k : Nat) (eff : Dev → Dev) (h : s.reaches i k .write = true) :
    s.dev.onWrite i k eff = eff (s.dev.reached i 0) := by
  simp only [Dev.onWrite, access_of_reaches s i k 0 .write h, if_true]

/-- A write that a posted block takes has its effect. -/
theorem onPosted_of_takes (s : State) (i : Ini) (k : Nat) (eff : Dev → Dev) (h : s.takes i k = true) :
    s.dev.onPosted i k eff = eff (s.dev.reached i 0) := by
  unfold State.takes at h
  simp only [Bool.and_eq_true, Bool.not_eq_true'] at h
  have hb : (s.dev.reached i 0).busy (keyBlock k) = false := h.2
  simp only [Dev.onPosted, access_of_reaches s i k 0 .write h.1, hb, Bool.not_true, Bool.false_eq_true, if_false]

/-- A read that reaches its register answers with its data. -/
theorem onRead_of_reaches (s : State) (i : Ini) (k : Nat) (eff : Dev → Dev × Word) (h : s.reaches i k .read = true) :
    s.dev.onRead i k eff = (eff (s.dev.reached i 0)).1.answer ⟨true, (eff (s.dev.reached i 0)).2⟩ := by
  simp only [Dev.onRead, access_of_reaches s i k 0 .read h, if_true]

/-- A FIRE that completes its arm gives the owner the armed value. -/
theorem onFire_of_fires (s : State) (i : Ini) (k : Nat) (data v : Word) (eff : Word → Dev → Guarded) (h : s.fires i k data v = true) :
    s.dev.onFire i k data eff =
      match eff v ((s.dev.reached i (k - 4)).disarm i) with
      | .locked => ((s.dev.reached i (k - 4)).disarm i).lateWrite i k 1
      | .refused => ((s.dev.reached i (k - 4)).disarm i).lateWrite i k 4
      | .take e' => e'.wr (k - 4) v := by
  unfold State.fires at h
  simp only [Bool.and_eq_true, beq_iff_eq, Option.map_eq_some_iff] at h
  obtain ⟨hr, a, h2, hv⟩ := h
  have ha : (s.dev.reached i (k - 4)).armedBy i (k - 4) data = some a := by
    rw [← h2]
    unfold Dev.armedBy
    have : (s.dev.reached i (k - 4)).arms.find? (fun a => a.key = k - 4) = s.dev.arms.find? (fun a => a.key = k - 4) := by
      show (s.dev.arms.filter fun a => a.ini ≠ i || a.key = k - 4).find? _ = _
      induction s.dev.arms with
      | nil => rfl
      | cons a l ih =>
        by_cases hk : a.key = k - 4
        · simp [List.filter, hk]
        · by_cases hi : a.ini = i
          · simp [List.filter, hk, hi, List.find?]; simpa using ih
          · simp [List.filter, hk, hi, List.find?]; simpa using ih
    rw [this]
    rfl
  simp only [Dev.onFire, access_of_reaches s i k (k - 4) .write hr, if_true, Dev.fire, ha, hv]
  all_goals cases eff v ((s.dev.reached i (k - 4)).disarm i) <;> rfl

end Sys2Proof.Machine
end

