-- ==== Sys2Proof/Laws/Cratre.lean ====
section
/-! SUPPORT. What one issue of a Cratre instruction without parallel moves and accesses does. -/
namespace Sys2Proof.Machine

/-- The engine after the results of an instruction have landed and issue has moved on. -/
def EngSt.issued (x : EngSt) (op : Nat) (r : CrRes) : EngSt :=
  let z := r.writes.foldl (fun (z : EngSt) l => z.put l.1 l.2) x
  let stale := r.writes.filterMap fun l => match l.1 with
    | .s k => if 8 ≤ k ∧ k ≤ 18 ∧ op ≠ 0x45 then some (k, x.sreg k) else none
    | _ => none
  let fresh := r.writes.any fun l => match l.1 with
    | .aovOr => decide (BitVec.ofNat 32 l.2 &&& ~~~x.aov ≠ 0)
    | _ => false
  let z : EngSt := { z with loads := [], stale := stale, steps := z.steps + 1, aovDue := z.aovDue || (fresh && z.even / 2 % 2 == 1) }
  let z := z.advance r [] (bit x.sr 11) (x.hw 16) (x.hw 17) (x.hw 18)
  let z : EngSt := if z.aovDue ∧ z.rep.isNone then { z.latch 1 with aovDue := false } else z
  let z : EngSt := match r.stop with
    | some s => { z.settle with state := s }
    | none => z
  z.tryStop

theorem crMoveAccs_nothing (x : EngSt) (w : CrW) (h : movesNothing w = true) : (if bit w 63 then [] else crMoveAccs x w) = [] := by
  unfold movesNothing at h
  by_cases hb : bit w 63 = true
  · simp [hb]
  · simp only [hb, Bool.false_or, Bool.and_eq_true, beq_iff_eq] at h
    simp [crMoveAccs, h, bit]

theorem crPointers_nothing (x : EngSt) (w : CrW) (h : movesNothing w = true) : (if bit w 63 then [] else crPointers x w) = [] := by
  unfold movesNothing at h
  by_cases hb : bit w 63 = true
  · simp [hb]
  · simp only [hb, Bool.false_or, Bool.and_eq_true, beq_iff_eq] at h
    simp [crPointers, h, bit]

/-- An engine that issues plainly is neither in a delay slot nor at the end of a loop. -/
theorem crPlaceBad_issues (s : State) (e op : Nat) (w : CrW) (h : s.issues e op w = true) : crPlaceBad (s.dev.eng e) op = false := by
  simp only [State.issues, Bool.and_eq_true, beq_iff_eq, decide_eq_true_eq, Option.isNone_iff_eq_none, Bool.not_eq_true', List.isEmpty_iff] at h
  obtain ⟨⟨⟨⟨⟨⟨⟨⟨-, h6⟩, -⟩, h8⟩, -⟩, -⟩, -⟩, -⟩, -⟩ := h
  simp [crPlaceBad, h6, h8]

/-- A legal instruction of Format A or B that accesses no memory writes its results and moves on; everything else of the device stays as it was. -/
theorem crStep_plain (s : State) (e op : Nat) (legal : EngSt → CrW → Bool) (eff : EngSt → CrW → CrRes) (w : CrW)
    (h : s.issues e op w = true) (hm : movesNothing w = true) (hop : crListed op = true) (hl : legal (s.dev.eng e) w = true) (ha : (eff (s.dev.eng e) w).accs = []) :
    crStep op legal eff e none s.dev = s.dev.setEng e ((s.dev.eng e).issued op (eff (s.dev.eng e) w)) := by
  have hp := crPlaceBad_issues s e op w h
  simp only [State.issues, Bool.and_eq_true, beq_iff_eq, decide_eq_true_eq, Option.isNone_iff_eq_none, Bool.not_eq_true', List.isEmpty_iff] at h
  obtain ⟨⟨⟨⟨⟨⟨⟨⟨⟨⟨⟨⟨h1, h2⟩, h3⟩, h4⟩, h5⟩, h6⟩, h7⟩, h8⟩, h9⟩, h10⟩, h11⟩, h12⟩, h13⟩ := h
  unfold crStep
  have hpc : ¬ (s.dev.eng e).nprog ≤ (s.dev.eng e).pc := Nat.not_le.mpr h3
  simp only [Dev.engUpset, h1, h2, h4, h5, h13, hop, hl, hp, ha, hpc, crMoveAccs_nothing _ w hm, crPointers_nothing _ w hm, h11, ne_eq, not_true_eq_false, Option.isSome_none, Bool.false_eq_true, or_self, if_false,
    Bool.not_true, crAccessOk, List.append_nil, List.nil_append, List.map_nil, List.flatMap_nil, List.any_nil, List.foldl_nil, List.filter_nil, List.length_nil, List.all_nil, Nat.zero_le,
    decide_true, Bool.and_self, Dev.crStores, if_true]
  rfl

end Sys2Proof.Machine
end

