-- ==== Sys2Proof/Laws/Edge.lean ====
section
/-! SUPPORT. What holds of an edge input's queue whatever its free rate of service is (R246, R247). -/
namespace Sys2Proof.Machine

theorem Dev.eiService_pos (d : Dev) (n : Nat) : 0 < d.eiService n := Nat.lt_of_lt_of_le Nat.one_pos (Nat.le_max_left ..)

theorem Dev.eiPeriod_le (d : Dev) (n : Nat) : d.eiPeriod n ≤ 2 ^ 80 := by
  refine Nat.div_le_of_le_mul ?_
  rw [Nat.mul_comm]
  calc 2 ^ 80 * 256 ≤ 2 ^ 80 * ((d.epF n 16 8 + 1) * 500000000) := Nat.mul_le_mul_left _ (by omega)
    _ = (d.epF n 16 8 + 1) * 500000000 * 2 ^ 80 := Nat.mul_comm _ _

theorem Dev.eiService_le (d : Dev) (n : Nat) : d.eiService n ≤ 2 ^ 80 :=
  Nat.max_le.2 ⟨Nat.one_le_two_pow, Nat.le_trans (Nat.min_le_right ..) (d.eiPeriod_le n)⟩

/-- A queue that nothing waits in holds no stamp. -/
theorem Dev.eiQueued_idle {d : Dev} {n t : Nat} (h : (d.eiSt n).busy ≤ t * 2 ^ 16) : d.eiQueued n t = 0 :=
  if_pos (Nat.sub_eq_zero_of_le h)

/-- A backlog of k seconds holds at least k stamps. -/
theorem Dev.le_eiQueued {d : Dev} {n t k : Nat} (h : t * 2 ^ 16 + k * 2 ^ 80 ≤ (d.eiSt n).busy) : k ≤ d.eiQueued n t := by
  have hp := d.eiService_pos n
  have hk : k * d.eiService n ≤ k * 2 ^ 80 := Nat.mul_le_mul_left _ (d.eiService_le n)
  unfold Dev.eiQueued
  dsimp only
  split
  · have : k * 2 ^ 80 = 0 := by omega
    omega
  · exact (Nat.le_div_iff_mul_le hp).2 (by omega)

end Sys2Proof.Machine
end

