-- ==== Sys2Proof/Laws/Mem.lean ====
section
/-! SUPPORT. HBM: reading after writing, and its canonical form. -/
namespace Sys2Proof.Machine

/-- A byte reads as what was written to it, and every other byte as before. -/
theorem Mem.byte_setByte (m : Mem) (a b : Nat) (v : Byte) : (m.setByte a v).byte b = if b = a then v else m.byte b :=
  Tab.get_set memDflt m b a v

/-- A write keeps the canonical form. -/
theorem Mem.wf_setByte (m : Mem) (a : Nat) (v : Byte) (h : m.wf = true) : (m.setByte a v).wf = true := Tab.wf_set memDflt m a v h

/-- A store of several bytes keeps the canonical form. -/
theorem Mem.wf_store (m : Mem) (a : Nat) (l : List Byte) (h : m.wf = true) : (m.store a l).wf = true := by
  induction l generalizing m a with
  | nil => exact h
  | cons b l ih => exact ih _ _ (Mem.wf_setByte m a b h)

/-- So does one that leaves units out. -/
theorem Mem.wf_storeBut (m : Mem) (skip : List Nat) (a : Nat) (l : List Byte) (h : m.wf = true) : (m.storeBut skip a l).wf = true := by
  induction l generalizing m a with
  | nil => exact h
  | cons b l ih =>
    unfold Mem.storeBut
    split
    · exact ih _ _ h
    · exact ih _ _ (Mem.wf_setByte m a b h)

/-- A store changes only the bytes it covers. -/
theorem Mem.byte_store_out (m : Mem) (a : Nat) (l : List Byte) (b : Nat) (h : b < a ∨ a + l.length ≤ b) : (m.store a l).byte b = m.byte b := by
  induction l generalizing m a with
  | nil => rfl
  | cons v l ih =>
    simp only [List.length_cons] at h
    unfold Mem.store
    rw [ih _ _ (by omega), Mem.byte_setByte]
    simp only [show ¬ b = a by omega, if_false]

/-- A store with units left out changes only the bytes it covers. -/
theorem Mem.byte_storeBut_out (m : Mem) (skip : List Nat) (a : Nat) (l : List Byte) (b : Nat) (h : b < a ∨ a + l.length ≤ b) :
    (m.storeBut skip a l).byte b = m.byte b := by
  induction l generalizing m a with
  | nil => rfl
  | cons v l ih =>
    simp only [List.length_cons] at h
    unfold Mem.storeBut
    rw [ih _ _ (by omega)]
    split
    · rfl
    · rw [Mem.byte_setByte]
      simp only [show ¬ b = a by omega, if_false]

/-- The bytes stored read back. -/
theorem Mem.byte_store_in (m : Mem) (a : Nat) (l : List Byte) (k : Nat) (h : k < l.length) : (m.store a l).byte (a + k) = l[k] := by
  induction l generalizing m a k with
  | nil => simp at h
  | cons v l ih =>
    unfold Mem.store
    cases k with
    | zero => rw [Mem.byte_store_out _ _ _ _ (by omega), Mem.byte_setByte]; simp
    | succ k =>
      have := ih (m.setByte a v) (a + 1) k (by simpa using h)
      rw [show a + (k + 1) = a + 1 + k by omega, this]
      simp

end Sys2Proof.Machine
end

