-- ==== Sys2Proof/Laws/State.lean ====
section
/-! SUPPORT. Each field of the device after each update of it, and each unit's state read back after it is set. -/
namespace Sys2Proof.Machine

/-! wr changes regs only. -/
@[simp] theorem Dev.wr_resp (d : Dev) (k : Nat) (v : Word) : (d.wr k v).resp = d.resp := rfl
@[simp] theorem Dev.wr_arms (d : Dev) (k : Nat) (v : Word) : (d.wr k v).arms = d.arms := rfl
@[simp] theorem Dev.wr_shadow (d : Dev) (k : Nat) (v : Word) : (d.wr k v).shadow = d.shadow := rfl
@[simp] theorem Dev.wr_lows (d : Dev) (k : Nat) (v : Word) : (d.wr k v).lows = d.lows := rfl
@[simp] theorem Dev.wr_inflight (d : Dev) (k : Nat) (v : Word) : (d.wr k v).inflight = d.inflight := rfl
@[simp] theorem Dev.wr_fresh (d : Dev) (k : Nat) (v : Word) : (d.wr k v).fresh = d.fresh := rfl
@[simp] theorem Dev.wr_recSeq (d : Dev) (k : Nat) (v : Word) : (d.wr k v).recSeq = d.recSeq := rfl
@[simp] theorem Dev.wr_recPhys (d : Dev) (k : Nat) (v : Word) : (d.wr k v).recPhys = d.recPhys := rfl
@[simp] theorem Dev.wr_out (d : Dev) (k : Nat) (v : Word) : (d.wr k v).out = d.out := rfl
@[simp] theorem Dev.wr_pulses (d : Dev) (k : Nat) (v : Word) : (d.wr k v).pulses = d.pulses := rfl
@[simp] theorem Dev.wr_lastDerated (d : Dev) (k : Nat) (v : Word) : (d.wr k v).lastDerated = d.lastDerated := rfl
@[simp] theorem Dev.wr_slow (d : Dev) (k : Nat) (v : Word) : (d.wr k v).slow = d.slow := rfl
@[simp] theorem Dev.wr_winPend (d : Dev) (k : Nat) (v : Word) : (d.wr k v).winPend = d.winPend := rfl
@[simp] theorem Dev.wr_tb (d : Dev) (k : Nat) (v : Word) : (d.wr k v).tb = d.tb := rfl
@[simp] theorem Dev.wr_ev (d : Dev) (k : Nat) (v : Word) : (d.wr k v).ev = d.ev := rfl
@[simp] theorem Dev.wr_sump (d : Dev) (k : Nat) (v : Word) : (d.wr k v).sump = d.sump := rfl
@[simp] theorem Dev.wr_cw (d : Dev) (k : Nat) (v : Word) : (d.wr k v).cw = d.cw := rfl
@[simp] theorem Dev.wr_streams (d : Dev) (k : Nat) (v : Word) : (d.wr k v).streams = d.streams := rfl
@[simp] theorem Dev.wr_ports (d : Dev) (k : Nat) (v : Word) : (d.wr k v).ports = d.ports := rfl
@[simp] theorem Dev.wr_lanes (d : Dev) (k : Nat) (v : Word) : (d.wr k v).lanes = d.lanes := rfl
@[simp] theorem Dev.wr_groups (d : Dev) (k : Nat) (v : Word) : (d.wr k v).groups = d.groups := rfl
@[simp] theorem Dev.wr_logBuf (d : Dev) (k : Nat) (v : Word) : (d.wr k v).logBuf = d.logBuf := rfl
@[simp] theorem Dev.wr_dets (d : Dev) (k : Nat) (v : Word) : (d.wr k v).dets = d.dets := rfl
@[simp] theorem Dev.wr_history (d : Dev) (k : Nat) (v : Word) : (d.wr k v).history = d.history := rfl
@[simp] theorem Dev.wr_flats (d : Dev) (k : Nat) (v : Word) : (d.wr k v).flats = d.flats := rfl
@[simp] theorem Dev.wr_masks (d : Dev) (k : Nat) (v : Word) : (d.wr k v).masks = d.masks := rfl
@[simp] theorem Dev.wr_dens (d : Dev) (k : Nat) (v : Word) : (d.wr k v).dens = d.dens := rfl
@[simp] theorem Dev.wr_grids (d : Dev) (k : Nat) (v : Word) : (d.wr k v).grids = d.grids := rfl
@[simp] theorem Dev.wr_fab (d : Dev) (k : Nat) (v : Word) : (d.wr k v).fab = d.fab := rfl
@[simp] theorem Dev.wr_stats (d : Dev) (k : Nat) (v : Word) : (d.wr k v).stats = d.stats := rfl
@[simp] theorem Dev.wr_edge (d : Dev) (k : Nat) (v : Word) : (d.wr k v).edge = d.edge := rfl
@[simp] theorem Dev.wr_disp (d : Dev) (k : Nat) (v : Word) : (d.wr k v).disp = d.disp := rfl
@[simp] theorem Dev.wr_engs (d : Dev) (k : Nat) (v : Word) : (d.wr k v).engs = d.engs := rfl
@[simp] theorem Dev.wr_cls (d : Dev) (k : Nat) (v : Word) : (d.wr k v).cls = d.cls := rfl
@[simp] theorem Dev.wr_mc (d : Dev) (k : Nat) (v : Word) : (d.wr k v).mc = d.mc := rfl
@[simp] theorem Dev.wr_rings (d : Dev) (k : Nat) (v : Word) : (d.wr k v).rings = d.rings := rfl
@[simp] theorem Dev.wr_cxs (d : Dev) (k : Nat) (v : Word) : (d.wr k v).cxs = d.cxs := rfl
@[simp] theorem Dev.wr_trust (d : Dev) (k : Nat) (v : Word) : (d.wr k v).trust = d.trust := rfl
@[simp] theorem Dev.wr_so (d : Dev) (k : Nat) (v : Word) : (d.wr k v).so = d.so := rfl
@[simp] theorem Dev.wr_ctxs (d : Dev) (k : Nat) (v : Word) : (d.wr k v).ctxs = d.ctxs := rfl
@[simp] theorem Dev.wr_replay (d : Dev) (k : Nat) (v : Word) : (d.wr k v).replay = d.replay := rfl
@[simp] theorem Dev.wr_ax (d : Dev) (k : Nat) (v : Word) : (d.wr k v).ax = d.ax := rfl
@[simp] theorem Dev.wr_fl (d : Dev) (k : Nat) (v : Word) : (d.wr k v).fl = d.fl := rfl
@[simp] theorem Dev.wr_dma (d : Dev) (k : Nat) (v : Word) : (d.wr k v).dma = d.dma := rfl
@[simp] theorem Dev.wr_pw (d : Dev) (k : Nat) (v : Word) : (d.wr k v).pw = d.pw := rfl
@[simp] theorem Dev.wr_now (d : Dev) (k : Nat) (v : Word) : (d.wr k v).now = d.now := rfl

/-! draw changes fresh only. -/
@[simp] theorem Dev.draw_regs (d : Dev) : (d.draw).regs = d.regs := rfl
@[simp] theorem Dev.draw_resp (d : Dev) : (d.draw).resp = d.resp := rfl
@[simp] theorem Dev.draw_arms (d : Dev) : (d.draw).arms = d.arms := rfl
@[simp] theorem Dev.draw_shadow (d : Dev) : (d.draw).shadow = d.shadow := rfl
@[simp] theorem Dev.draw_lows (d : Dev) : (d.draw).lows = d.lows := rfl
@[simp] theorem Dev.draw_inflight (d : Dev) : (d.draw).inflight = d.inflight := rfl
@[simp] theorem Dev.draw_recSeq (d : Dev) : (d.draw).recSeq = d.recSeq := rfl
@[simp] theorem Dev.draw_recPhys (d : Dev) : (d.draw).recPhys = d.recPhys := rfl
@[simp] theorem Dev.draw_out (d : Dev) : (d.draw).out = d.out := rfl
@[simp] theorem Dev.draw_pulses (d : Dev) : (d.draw).pulses = d.pulses := rfl
@[simp] theorem Dev.draw_lastDerated (d : Dev) : (d.draw).lastDerated = d.lastDerated := rfl
@[simp] theorem Dev.draw_slow (d : Dev) : (d.draw).slow = d.slow := rfl
@[simp] theorem Dev.draw_winPend (d : Dev) : (d.draw).winPend = d.winPend := rfl
@[simp] theorem Dev.draw_tb (d : Dev) : (d.draw).tb = d.tb := rfl
@[simp] theorem Dev.draw_ev (d : Dev) : (d.draw).ev = d.ev := rfl
@[simp] theorem Dev.draw_sump (d : Dev) : (d.draw).sump = d.sump := rfl
@[simp] theorem Dev.draw_cw (d : Dev) : (d.draw).cw = d.cw := rfl
@[simp] theorem Dev.draw_streams (d : Dev) : (d.draw).streams = d.streams := rfl
@[simp] theorem Dev.draw_ports (d : Dev) : (d.draw).ports = d.ports := rfl
@[simp] theorem Dev.draw_lanes (d : Dev) : (d.draw).lanes = d.lanes := rfl
@[simp] theorem Dev.draw_groups (d : Dev) : (d.draw).groups = d.groups := rfl
@[simp] theorem Dev.draw_logBuf (d : Dev) : (d.draw).logBuf = d.logBuf := rfl
@[simp] theorem Dev.draw_dets (d : Dev) : (d.draw).dets = d.dets := rfl
@[simp] theorem Dev.draw_history (d : Dev) : (d.draw).history = d.history := rfl
@[simp] theorem Dev.draw_flats (d : Dev) : (d.draw).flats = d.flats := rfl
@[simp] theorem Dev.draw_masks (d : Dev) : (d.draw).masks = d.masks := rfl
@[simp] theorem Dev.draw_dens (d : Dev) : (d.draw).dens = d.dens := rfl
@[simp] theorem Dev.draw_grids (d : Dev) : (d.draw).grids = d.grids := rfl
@[simp] theorem Dev.draw_fab (d : Dev) : (d.draw).fab = d.fab := rfl
@[simp] theorem Dev.draw_stats (d : Dev) : (d.draw).stats = d.stats := rfl
@[simp] theorem Dev.draw_edge (d : Dev) : (d.draw).edge = d.edge := rfl
@[simp] theorem Dev.draw_disp (d : Dev) : (d.draw).disp = d.disp := rfl
@[simp] theorem Dev.draw_engs (d : Dev) : (d.draw).engs = d.engs := rfl
@[simp] theorem Dev.draw_cls (d : Dev) : (d.draw).cls = d.cls := rfl
@[simp] theorem Dev.draw_mc (d : Dev) : (d.draw).mc = d.mc := rfl
@[simp] theorem Dev.draw_rings (d : Dev) : (d.draw).rings = d.rings := rfl
@[simp] theorem Dev.draw_cxs (d : Dev) : (d.draw).cxs = d.cxs := rfl
@[simp] theorem Dev.draw_trust (d : Dev) : (d.draw).trust = d.trust := rfl
@[simp] theorem Dev.draw_so (d : Dev) : (d.draw).so = d.so := rfl
@[simp] theorem Dev.draw_ctxs (d : Dev) : (d.draw).ctxs = d.ctxs := rfl
@[simp] theorem Dev.draw_replay (d : Dev) : (d.draw).replay = d.replay := rfl
@[simp] theorem Dev.draw_ax (d : Dev) : (d.draw).ax = d.ax := rfl
@[simp] theorem Dev.draw_fl (d : Dev) : (d.draw).fl = d.fl := rfl
@[simp] theorem Dev.draw_dma (d : Dev) : (d.draw).dma = d.dma := rfl
@[simp] theorem Dev.draw_pw (d : Dev) : (d.draw).pw = d.pw := rfl
@[simp] theorem Dev.draw_rd (d : Dev) (j : Nat) : (d.draw).rd j = d.rd j := rfl
@[simp] theorem Dev.draw_n (d : Dev) (j : Nat) : (d.draw).n j = d.n j := rfl
@[simp] theorem Dev.draw_f (d : Dev) (j lo len : Nat) : (d.draw).f j lo len = d.f j lo len := rfl
@[simp] theorem Dev.draw_on (d : Dev) (j m : Nat) : (d.draw).on j m = d.on j m := rfl
@[simp] theorem Dev.draw_now (d : Dev) : (d.draw).now = d.now := rfl

/-! onTb changes tb only. -/
@[simp] theorem Dev.onTb_regs (d : Dev) (f : Tb → Tb) : (d.onTb f).regs = d.regs := rfl
@[simp] theorem Dev.onTb_resp (d : Dev) (f : Tb → Tb) : (d.onTb f).resp = d.resp := rfl
@[simp] theorem Dev.onTb_arms (d : Dev) (f : Tb → Tb) : (d.onTb f).arms = d.arms := rfl
@[simp] theorem Dev.onTb_shadow (d : Dev) (f : Tb → Tb) : (d.onTb f).shadow = d.shadow := rfl
@[simp] theorem Dev.onTb_lows (d : Dev) (f : Tb → Tb) : (d.onTb f).lows = d.lows := rfl
@[simp] theorem Dev.onTb_inflight (d : Dev) (f : Tb → Tb) : (d.onTb f).inflight = d.inflight := rfl
@[simp] theorem Dev.onTb_fresh (d : Dev) (f : Tb → Tb) : (d.onTb f).fresh = d.fresh := rfl
@[simp] theorem Dev.onTb_recSeq (d : Dev) (f : Tb → Tb) : (d.onTb f).recSeq = d.recSeq := rfl
@[simp] theorem Dev.onTb_recPhys (d : Dev) (f : Tb → Tb) : (d.onTb f).recPhys = d.recPhys := rfl
@[simp] theorem Dev.onTb_out (d : Dev) (f : Tb → Tb) : (d.onTb f).out = d.out := rfl
@[simp] theorem Dev.onTb_pulses (d : Dev) (f : Tb → Tb) : (d.onTb f).pulses = d.pulses := rfl
@[simp] theorem Dev.onTb_lastDerated (d : Dev) (f : Tb → Tb) : (d.onTb f).lastDerated = d.lastDerated := rfl
@[simp] theorem Dev.onTb_slow (d : Dev) (f : Tb → Tb) : (d.onTb f).slow = d.slow := rfl
@[simp] theorem Dev.onTb_winPend (d : Dev) (f : Tb → Tb) : (d.onTb f).winPend = d.winPend := rfl
@[simp] theorem Dev.onTb_ev (d : Dev) (f : Tb → Tb) : (d.onTb f).ev = d.ev := rfl
@[simp] theorem Dev.onTb_sump (d : Dev) (f : Tb → Tb) : (d.onTb f).sump = d.sump := rfl
@[simp] theorem Dev.onTb_cw (d : Dev) (f : Tb → Tb) : (d.onTb f).cw = d.cw := rfl
@[simp] theorem Dev.onTb_streams (d : Dev) (f : Tb → Tb) : (d.onTb f).streams = d.streams := rfl
@[simp] theorem Dev.onTb_ports (d : Dev) (f : Tb → Tb) : (d.onTb f).ports = d.ports := rfl
@[simp] theorem Dev.onTb_lanes (d : Dev) (f : Tb → Tb) : (d.onTb f).lanes = d.lanes := rfl
@[simp] theorem Dev.onTb_groups (d : Dev) (f : Tb → Tb) : (d.onTb f).groups = d.groups := rfl
@[simp] theorem Dev.onTb_logBuf (d : Dev) (f : Tb → Tb) : (d.onTb f).logBuf = d.logBuf := rfl
@[simp] theorem Dev.onTb_dets (d : Dev) (f : Tb → Tb) : (d.onTb f).dets = d.dets := rfl
@[simp] theorem Dev.onTb_history (d : Dev) (f : Tb → Tb) : (d.onTb f).history = d.history := rfl
@[simp] theorem Dev.onTb_flats (d : Dev) (f : Tb → Tb) : (d.onTb f).flats = d.flats := rfl
@[simp] theorem Dev.onTb_masks (d : Dev) (f : Tb → Tb) : (d.onTb f).masks = d.masks := rfl
@[simp] theorem Dev.onTb_dens (d : Dev) (f : Tb → Tb) : (d.onTb f).dens = d.dens := rfl
@[simp] theorem Dev.onTb_grids (d : Dev) (f : Tb → Tb) : (d.onTb f).grids = d.grids := rfl
@[simp] theorem Dev.onTb_fab (d : Dev) (f : Tb → Tb) : (d.onTb f).fab = d.fab := rfl
@[simp] theorem Dev.onTb_stats (d : Dev) (f : Tb → Tb) : (d.onTb f).stats = d.stats := rfl
@[simp] theorem Dev.onTb_edge (d : Dev) (f : Tb → Tb) : (d.onTb f).edge = d.edge := rfl
@[simp] theorem Dev.onTb_disp (d : Dev) (f : Tb → Tb) : (d.onTb f).disp = d.disp := rfl
@[simp] theorem Dev.onTb_engs (d : Dev) (f : Tb → Tb) : (d.onTb f).engs = d.engs := rfl
@[simp] theorem Dev.onTb_cls (d : Dev) (f : Tb → Tb) : (d.onTb f).cls = d.cls := rfl
@[simp] theorem Dev.onTb_mc (d : Dev) (f : Tb → Tb) : (d.onTb f).mc = d.mc := rfl
@[simp] theorem Dev.onTb_rings (d : Dev) (f : Tb → Tb) : (d.onTb f).rings = d.rings := rfl
@[simp] theorem Dev.onTb_cxs (d : Dev) (f : Tb → Tb) : (d.onTb f).cxs = d.cxs := rfl
@[simp] theorem Dev.onTb_trust (d : Dev) (f : Tb → Tb) : (d.onTb f).trust = d.trust := rfl
@[simp] theorem Dev.onTb_so (d : Dev) (f : Tb → Tb) : (d.onTb f).so = d.so := rfl
@[simp] theorem Dev.onTb_ctxs (d : Dev) (f : Tb → Tb) : (d.onTb f).ctxs = d.ctxs := rfl
@[simp] theorem Dev.onTb_replay (d : Dev) (f : Tb → Tb) : (d.onTb f).replay = d.replay := rfl
@[simp] theorem Dev.onTb_ax (d : Dev) (f : Tb → Tb) : (d.onTb f).ax = d.ax := rfl
@[simp] theorem Dev.onTb_fl (d : Dev) (f : Tb → Tb) : (d.onTb f).fl = d.fl := rfl
@[simp] theorem Dev.onTb_dma (d : Dev) (f : Tb → Tb) : (d.onTb f).dma = d.dma := rfl
@[simp] theorem Dev.onTb_pw (d : Dev) (f : Tb → Tb) : (d.onTb f).pw = d.pw := rfl
@[simp] theorem Dev.onTb_rd (d : Dev) (f : Tb → Tb) (j : Nat) : (d.onTb f).rd j = d.rd j := rfl
@[simp] theorem Dev.onTb_n (d : Dev) (f : Tb → Tb) (j : Nat) : (d.onTb f).n j = d.n j := rfl
@[simp] theorem Dev.onTb_f (d : Dev) (f : Tb → Tb) (j lo len : Nat) : (d.onTb f).f j lo len = d.f j lo len := rfl
@[simp] theorem Dev.onTb_on (d : Dev) (f : Tb → Tb) (j m : Nat) : (d.onTb f).on j m = d.on j m := rfl

/-! onAux changes ax only. -/
@[simp] theorem Dev.onAux_regs (d : Dev) (f : AuxSt → AuxSt) : (d.onAux f).regs = d.regs := rfl
@[simp] theorem Dev.onAux_resp (d : Dev) (f : AuxSt → AuxSt) : (d.onAux f).resp = d.resp := rfl
@[simp] theorem Dev.onAux_arms (d : Dev) (f : AuxSt → AuxSt) : (d.onAux f).arms = d.arms := rfl
@[simp] theorem Dev.onAux_shadow (d : Dev) (f : AuxSt → AuxSt) : (d.onAux f).shadow = d.shadow := rfl
@[simp] theorem Dev.onAux_lows (d : Dev) (f : AuxSt → AuxSt) : (d.onAux f).lows = d.lows := rfl
@[simp] theorem Dev.onAux_inflight (d : Dev) (f : AuxSt → AuxSt) : (d.onAux f).inflight = d.inflight := rfl
@[simp] theorem Dev.onAux_fresh (d : Dev) (f : AuxSt → AuxSt) : (d.onAux f).fresh = d.fresh := rfl
@[simp] theorem Dev.onAux_recSeq (d : Dev) (f : AuxSt → AuxSt) : (d.onAux f).recSeq = d.recSeq := rfl
@[simp] theorem Dev.onAux_recPhys (d : Dev) (f : AuxSt → AuxSt) : (d.onAux f).recPhys = d.recPhys := rfl
@[simp] theorem Dev.onAux_out (d : Dev) (f : AuxSt → AuxSt) : (d.onAux f).out = d.out := rfl
@[simp] theorem Dev.onAux_pulses (d : Dev) (f : AuxSt → AuxSt) : (d.onAux f).pulses = d.pulses := rfl
@[simp] theorem Dev.onAux_lastDerated (d : Dev) (f : AuxSt → AuxSt) : (d.onAux f).lastDerated = d.lastDerated := rfl
@[simp] theorem Dev.onAux_slow (d : Dev) (f : AuxSt → AuxSt) : (d.onAux f).slow = d.slow := rfl
@[simp] theorem Dev.onAux_winPend (d : Dev) (f : AuxSt → AuxSt) : (d.onAux f).winPend = d.winPend := rfl
@[simp] theorem Dev.onAux_tb (d : Dev) (f : AuxSt → AuxSt) : (d.onAux f).tb = d.tb := rfl
@[simp] theorem Dev.onAux_ev (d : Dev) (f : AuxSt → AuxSt) : (d.onAux f).ev = d.ev := rfl
@[simp] theorem Dev.onAux_sump (d : Dev) (f : AuxSt → AuxSt) : (d.onAux f).sump = d.sump := rfl
@[simp] theorem Dev.onAux_cw (d : Dev) (f : AuxSt → AuxSt) : (d.onAux f).cw = d.cw := rfl
@[simp] theorem Dev.onAux_streams (d : Dev) (f : AuxSt → AuxSt) : (d.onAux f).streams = d.streams := rfl
@[simp] theorem Dev.onAux_ports (d : Dev) (f : AuxSt → AuxSt) : (d.onAux f).ports = d.ports := rfl
@[simp] theorem Dev.onAux_lanes (d : Dev) (f : AuxSt → AuxSt) : (d.onAux f).lanes = d.lanes := rfl
@[simp] theorem Dev.onAux_groups (d : Dev) (f : AuxSt → AuxSt) : (d.onAux f).groups = d.groups := rfl
@[simp] theorem Dev.onAux_logBuf (d : Dev) (f : AuxSt → AuxSt) : (d.onAux f).logBuf = d.logBuf := rfl
@[simp] theorem Dev.onAux_dets (d : Dev) (f : AuxSt → AuxSt) : (d.onAux f).dets = d.dets := rfl
@[simp] theorem Dev.onAux_history (d : Dev) (f : AuxSt → AuxSt) : (d.onAux f).history = d.history := rfl
@[simp] theorem Dev.onAux_flats (d : Dev) (f : AuxSt → AuxSt) : (d.onAux f).flats = d.flats := rfl
@[simp] theorem Dev.onAux_masks (d : Dev) (f : AuxSt → AuxSt) : (d.onAux f).masks = d.masks := rfl
@[simp] theorem Dev.onAux_dens (d : Dev) (f : AuxSt → AuxSt) : (d.onAux f).dens = d.dens := rfl
@[simp] theorem Dev.onAux_grids (d : Dev) (f : AuxSt → AuxSt) : (d.onAux f).grids = d.grids := rfl
@[simp] theorem Dev.onAux_fab (d : Dev) (f : AuxSt → AuxSt) : (d.onAux f).fab = d.fab := rfl
@[simp] theorem Dev.onAux_stats (d : Dev) (f : AuxSt → AuxSt) : (d.onAux f).stats = d.stats := rfl
@[simp] theorem Dev.onAux_edge (d : Dev) (f : AuxSt → AuxSt) : (d.onAux f).edge = d.edge := rfl
@[simp] theorem Dev.onAux_disp (d : Dev) (f : AuxSt → AuxSt) : (d.onAux f).disp = d.disp := rfl
@[simp] theorem Dev.onAux_engs (d : Dev) (f : AuxSt → AuxSt) : (d.onAux f).engs = d.engs := rfl
@[simp] theorem Dev.onAux_cls (d : Dev) (f : AuxSt → AuxSt) : (d.onAux f).cls = d.cls := rfl
@[simp] theorem Dev.onAux_mc (d : Dev) (f : AuxSt → AuxSt) : (d.onAux f).mc = d.mc := rfl
@[simp] theorem Dev.onAux_rings (d : Dev) (f : AuxSt → AuxSt) : (d.onAux f).rings = d.rings := rfl
@[simp] theorem Dev.onAux_cxs (d : Dev) (f : AuxSt → AuxSt) : (d.onAux f).cxs = d.cxs := rfl
@[simp] theorem Dev.onAux_trust (d : Dev) (f : AuxSt → AuxSt) : (d.onAux f).trust = d.trust := rfl
@[simp] theorem Dev.onAux_so (d : Dev) (f : AuxSt → AuxSt) : (d.onAux f).so = d.so := rfl
@[simp] theorem Dev.onAux_ctxs (d : Dev) (f : AuxSt → AuxSt) : (d.onAux f).ctxs = d.ctxs := rfl
@[simp] theorem Dev.onAux_replay (d : Dev) (f : AuxSt → AuxSt) : (d.onAux f).replay = d.replay := rfl
@[simp] theorem Dev.onAux_fl (d : Dev) (f : AuxSt → AuxSt) : (d.onAux f).fl = d.fl := rfl
@[simp] theorem Dev.onAux_dma (d : Dev) (f : AuxSt → AuxSt) : (d.onAux f).dma = d.dma := rfl
@[simp] theorem Dev.onAux_pw (d : Dev) (f : AuxSt → AuxSt) : (d.onAux f).pw = d.pw := rfl
@[simp] theorem Dev.onAux_rd (d : Dev) (f : AuxSt → AuxSt) (j : Nat) : (d.onAux f).rd j = d.rd j := rfl
@[simp] theorem Dev.onAux_n (d : Dev) (f : AuxSt → AuxSt) (j : Nat) : (d.onAux f).n j = d.n j := rfl
@[simp] theorem Dev.onAux_f (d : Dev) (f : AuxSt → AuxSt) (j lo len : Nat) : (d.onAux f).f j lo len = d.f j lo len := rfl
@[simp] theorem Dev.onAux_on (d : Dev) (f : AuxSt → AuxSt) (j m : Nat) : (d.onAux f).on j m = d.on j m := rfl
@[simp] theorem Dev.onAux_now (d : Dev) (f : AuxSt → AuxSt) : (d.onAux f).now = d.now := rfl

/-! onFl changes fl only. -/
@[simp] theorem Dev.onFl_regs (d : Dev) (f : FloorSt → FloorSt) : (d.onFl f).regs = d.regs := rfl
@[simp] theorem Dev.onFl_resp (d : Dev) (f : FloorSt → FloorSt) : (d.onFl f).resp = d.resp := rfl
@[simp] theorem Dev.onFl_arms (d : Dev) (f : FloorSt → FloorSt) : (d.onFl f).arms = d.arms := rfl
@[simp] theorem Dev.onFl_shadow (d : Dev) (f : FloorSt → FloorSt) : (d.onFl f).shadow = d.shadow := rfl
@[simp] theorem Dev.onFl_lows (d : Dev) (f : FloorSt → FloorSt) : (d.onFl f).lows = d.lows := rfl
@[simp] theorem Dev.onFl_inflight (d : Dev) (f : FloorSt → FloorSt) : (d.onFl f).inflight = d.inflight := rfl
@[simp] theorem Dev.onFl_fresh (d : Dev) (f : FloorSt → FloorSt) : (d.onFl f).fresh = d.fresh := rfl
@[simp] theorem Dev.onFl_recSeq (d : Dev) (f : FloorSt → FloorSt) : (d.onFl f).recSeq = d.recSeq := rfl
@[simp] theorem Dev.onFl_recPhys (d : Dev) (f : FloorSt → FloorSt) : (d.onFl f).recPhys = d.recPhys := rfl
@[simp] theorem Dev.onFl_out (d : Dev) (f : FloorSt → FloorSt) : (d.onFl f).out = d.out := rfl
@[simp] theorem Dev.onFl_pulses (d : Dev) (f : FloorSt → FloorSt) : (d.onFl f).pulses = d.pulses := rfl
@[simp] theorem Dev.onFl_lastDerated (d : Dev) (f : FloorSt → FloorSt) : (d.onFl f).lastDerated = d.lastDerated := rfl
@[simp] theorem Dev.onFl_slow (d : Dev) (f : FloorSt → FloorSt) : (d.onFl f).slow = d.slow := rfl
@[simp] theorem Dev.onFl_winPend (d : Dev) (f : FloorSt → FloorSt) : (d.onFl f).winPend = d.winPend := rfl
@[simp] theorem Dev.onFl_tb (d : Dev) (f : FloorSt → FloorSt) : (d.onFl f).tb = d.tb := rfl
@[simp] theorem Dev.onFl_ev (d : Dev) (f : FloorSt → FloorSt) : (d.onFl f).ev = d.ev := rfl
@[simp] theorem Dev.onFl_sump (d : Dev) (f : FloorSt → FloorSt) : (d.onFl f).sump = d.sump := rfl
@[simp] theorem Dev.onFl_cw (d : Dev) (f : FloorSt → FloorSt) : (d.onFl f).cw = d.cw := rfl
@[simp] theorem Dev.onFl_streams (d : Dev) (f : FloorSt → FloorSt) : (d.onFl f).streams = d.streams := rfl
@[simp] theorem Dev.onFl_ports (d : Dev) (f : FloorSt → FloorSt) : (d.onFl f).ports = d.ports := rfl
@[simp] theorem Dev.onFl_lanes (d : Dev) (f : FloorSt → FloorSt) : (d.onFl f).lanes = d.lanes := rfl
@[simp] theorem Dev.onFl_groups (d : Dev) (f : FloorSt → FloorSt) : (d.onFl f).groups = d.groups := rfl
@[simp] theorem Dev.onFl_logBuf (d : Dev) (f : FloorSt → FloorSt) : (d.onFl f).logBuf = d.logBuf := rfl
@[simp] theorem Dev.onFl_dets (d : Dev) (f : FloorSt → FloorSt) : (d.onFl f).dets = d.dets := rfl
@[simp] theorem Dev.onFl_history (d : Dev) (f : FloorSt → FloorSt) : (d.onFl f).history = d.history := rfl
@[simp] theorem Dev.onFl_flats (d : Dev) (f : FloorSt → FloorSt) : (d.onFl f).flats = d.flats := rfl
@[simp] theorem Dev.onFl_masks (d : Dev) (f : FloorSt → FloorSt) : (d.onFl f).masks = d.masks := rfl
@[simp] theorem Dev.onFl_dens (d : Dev) (f : FloorSt → FloorSt) : (d.onFl f).dens = d.dens := rfl
@[simp] theorem Dev.onFl_grids (d : Dev) (f : FloorSt → FloorSt) : (d.onFl f).grids = d.grids := rfl
@[simp] theorem Dev.onFl_fab (d : Dev) (f : FloorSt → FloorSt) : (d.onFl f).fab = d.fab := rfl
@[simp] theorem Dev.onFl_stats (d : Dev) (f : FloorSt → FloorSt) : (d.onFl f).stats = d.stats := rfl
@[simp] theorem Dev.onFl_edge (d : Dev) (f : FloorSt → FloorSt) : (d.onFl f).edge = d.edge := rfl
@[simp] theorem Dev.onFl_disp (d : Dev) (f : FloorSt → FloorSt) : (d.onFl f).disp = d.disp := rfl
@[simp] theorem Dev.onFl_engs (d : Dev) (f : FloorSt → FloorSt) : (d.onFl f).engs = d.engs := rfl
@[simp] theorem Dev.onFl_cls (d : Dev) (f : FloorSt → FloorSt) : (d.onFl f).cls = d.cls := rfl
@[simp] theorem Dev.onFl_mc (d : Dev) (f : FloorSt → FloorSt) : (d.onFl f).mc = d.mc := rfl
@[simp] theorem Dev.onFl_rings (d : Dev) (f : FloorSt → FloorSt) : (d.onFl f).rings = d.rings := rfl
@[simp] theorem Dev.onFl_cxs (d : Dev) (f : FloorSt → FloorSt) : (d.onFl f).cxs = d.cxs := rfl
@[simp] theorem Dev.onFl_trust (d : Dev) (f : FloorSt → FloorSt) : (d.onFl f).trust = d.trust := rfl
@[simp] theorem Dev.onFl_so (d : Dev) (f : FloorSt → FloorSt) : (d.onFl f).so = d.so := rfl
@[simp] theorem Dev.onFl_ctxs (d : Dev) (f : FloorSt → FloorSt) : (d.onFl f).ctxs = d.ctxs := rfl
@[simp] theorem Dev.onFl_replay (d : Dev) (f : FloorSt → FloorSt) : (d.onFl f).replay = d.replay := rfl
@[simp] theorem Dev.onFl_ax (d : Dev) (f : FloorSt → FloorSt) : (d.onFl f).ax = d.ax := rfl
@[simp] theorem Dev.onFl_dma (d : Dev) (f : FloorSt → FloorSt) : (d.onFl f).dma = d.dma := rfl
@[simp] theorem Dev.onFl_pw (d : Dev) (f : FloorSt → FloorSt) : (d.onFl f).pw = d.pw := rfl
@[simp] theorem Dev.onFl_rd (d : Dev) (f : FloorSt → FloorSt) (j : Nat) : (d.onFl f).rd j = d.rd j := rfl
@[simp] theorem Dev.onFl_n (d : Dev) (f : FloorSt → FloorSt) (j : Nat) : (d.onFl f).n j = d.n j := rfl
@[simp] theorem Dev.onFl_f (d : Dev) (f : FloorSt → FloorSt) (j lo len : Nat) : (d.onFl f).f j lo len = d.f j lo len := rfl
@[simp] theorem Dev.onFl_on (d : Dev) (f : FloorSt → FloorSt) (j m : Nat) : (d.onFl f).on j m = d.on j m := rfl
@[simp] theorem Dev.onFl_now (d : Dev) (f : FloorSt → FloorSt) : (d.onFl f).now = d.now := rfl

/-! onPw changes pw only. -/
@[simp] theorem Dev.onPw_regs (d : Dev) (f : PwrSt → PwrSt) : (d.onPw f).regs = d.regs := rfl
@[simp] theorem Dev.onPw_resp (d : Dev) (f : PwrSt → PwrSt) : (d.onPw f).resp = d.resp := rfl
@[simp] theorem Dev.onPw_arms (d : Dev) (f : PwrSt → PwrSt) : (d.onPw f).arms = d.arms := rfl
@[simp] theorem Dev.onPw_shadow (d : Dev) (f : PwrSt → PwrSt) : (d.onPw f).shadow = d.shadow := rfl
@[simp] theorem Dev.onPw_lows (d : Dev) (f : PwrSt → PwrSt) : (d.onPw f).lows = d.lows := rfl
@[simp] theorem Dev.onPw_inflight (d : Dev) (f : PwrSt → PwrSt) : (d.onPw f).inflight = d.inflight := rfl
@[simp] theorem Dev.onPw_fresh (d : Dev) (f : PwrSt → PwrSt) : (d.onPw f).fresh = d.fresh := rfl
@[simp] theorem Dev.onPw_recSeq (d : Dev) (f : PwrSt → PwrSt) : (d.onPw f).recSeq = d.recSeq := rfl
@[simp] theorem Dev.onPw_recPhys (d : Dev) (f : PwrSt → PwrSt) : (d.onPw f).recPhys = d.recPhys := rfl
@[simp] theorem Dev.onPw_out (d : Dev) (f : PwrSt → PwrSt) : (d.onPw f).out = d.out := rfl
@[simp] theorem Dev.onPw_pulses (d : Dev) (f : PwrSt → PwrSt) : (d.onPw f).pulses = d.pulses := rfl
@[simp] theorem Dev.onPw_lastDerated (d : Dev) (f : PwrSt → PwrSt) : (d.onPw f).lastDerated = d.lastDerated := rfl
@[simp] theorem Dev.onPw_slow (d : Dev) (f : PwrSt → PwrSt) : (d.onPw f).slow = d.slow := rfl
@[simp] theorem Dev.onPw_winPend (d : Dev) (f : PwrSt → PwrSt) : (d.onPw f).winPend = d.winPend := rfl
@[simp] theorem Dev.onPw_tb (d : Dev) (f : PwrSt → PwrSt) : (d.onPw f).tb = d.tb := rfl
@[simp] theorem Dev.onPw_ev (d : Dev) (f : PwrSt → PwrSt) : (d.onPw f).ev = d.ev := rfl
@[simp] theorem Dev.onPw_sump (d : Dev) (f : PwrSt → PwrSt) : (d.onPw f).sump = d.sump := rfl
@[simp] theorem Dev.onPw_cw (d : Dev) (f : PwrSt → PwrSt) : (d.onPw f).cw = d.cw := rfl
@[simp] theorem Dev.onPw_streams (d : Dev) (f : PwrSt → PwrSt) : (d.onPw f).streams = d.streams := rfl
@[simp] theorem Dev.onPw_ports (d : Dev) (f : PwrSt → PwrSt) : (d.onPw f).ports = d.ports := rfl
@[simp] theorem Dev.onPw_lanes (d : Dev) (f : PwrSt → PwrSt) : (d.onPw f).lanes = d.lanes := rfl
@[simp] theorem Dev.onPw_groups (d : Dev) (f : PwrSt → PwrSt) : (d.onPw f).groups = d.groups := rfl
@[simp] theorem Dev.onPw_logBuf (d : Dev) (f : PwrSt → PwrSt) : (d.onPw f).logBuf = d.logBuf := rfl
@[simp] theorem Dev.onPw_dets (d : Dev) (f : PwrSt → PwrSt) : (d.onPw f).dets = d.dets := rfl
@[simp] theorem Dev.onPw_history (d : Dev) (f : PwrSt → PwrSt) : (d.onPw f).history = d.history := rfl
@[simp] theorem Dev.onPw_flats (d : Dev) (f : PwrSt → PwrSt) : (d.onPw f).flats = d.flats := rfl
@[simp] theorem Dev.onPw_masks (d : Dev) (f : PwrSt → PwrSt) : (d.onPw f).masks = d.masks := rfl
@[simp] theorem Dev.onPw_dens (d : Dev) (f : PwrSt → PwrSt) : (d.onPw f).dens = d.dens := rfl
@[simp] theorem Dev.onPw_grids (d : Dev) (f : PwrSt → PwrSt) : (d.onPw f).grids = d.grids := rfl
@[simp] theorem Dev.onPw_fab (d : Dev) (f : PwrSt → PwrSt) : (d.onPw f).fab = d.fab := rfl
@[simp] theorem Dev.onPw_stats (d : Dev) (f : PwrSt → PwrSt) : (d.onPw f).stats = d.stats := rfl
@[simp] theorem Dev.onPw_edge (d : Dev) (f : PwrSt → PwrSt) : (d.onPw f).edge = d.edge := rfl
@[simp] theorem Dev.onPw_disp (d : Dev) (f : PwrSt → PwrSt) : (d.onPw f).disp = d.disp := rfl
@[simp] theorem Dev.onPw_engs (d : Dev) (f : PwrSt → PwrSt) : (d.onPw f).engs = d.engs := rfl
@[simp] theorem Dev.onPw_cls (d : Dev) (f : PwrSt → PwrSt) : (d.onPw f).cls = d.cls := rfl
@[simp] theorem Dev.onPw_mc (d : Dev) (f : PwrSt → PwrSt) : (d.onPw f).mc = d.mc := rfl
@[simp] theorem Dev.onPw_rings (d : Dev) (f : PwrSt → PwrSt) : (d.onPw f).rings = d.rings := rfl
@[simp] theorem Dev.onPw_cxs (d : Dev) (f : PwrSt → PwrSt) : (d.onPw f).cxs = d.cxs := rfl
@[simp] theorem Dev.onPw_trust (d : Dev) (f : PwrSt → PwrSt) : (d.onPw f).trust = d.trust := rfl
@[simp] theorem Dev.onPw_so (d : Dev) (f : PwrSt → PwrSt) : (d.onPw f).so = d.so := rfl
@[simp] theorem Dev.onPw_ctxs (d : Dev) (f : PwrSt → PwrSt) : (d.onPw f).ctxs = d.ctxs := rfl
@[simp] theorem Dev.onPw_replay (d : Dev) (f : PwrSt → PwrSt) : (d.onPw f).replay = d.replay := rfl
@[simp] theorem Dev.onPw_ax (d : Dev) (f : PwrSt → PwrSt) : (d.onPw f).ax = d.ax := rfl
@[simp] theorem Dev.onPw_fl (d : Dev) (f : PwrSt → PwrSt) : (d.onPw f).fl = d.fl := rfl
@[simp] theorem Dev.onPw_dma (d : Dev) (f : PwrSt → PwrSt) : (d.onPw f).dma = d.dma := rfl
@[simp] theorem Dev.onPw_rd (d : Dev) (f : PwrSt → PwrSt) (j : Nat) : (d.onPw f).rd j = d.rd j := rfl
@[simp] theorem Dev.onPw_n (d : Dev) (f : PwrSt → PwrSt) (j : Nat) : (d.onPw f).n j = d.n j := rfl
@[simp] theorem Dev.onPw_f (d : Dev) (f : PwrSt → PwrSt) (j lo len : Nat) : (d.onPw f).f j lo len = d.f j lo len := rfl
@[simp] theorem Dev.onPw_on (d : Dev) (f : PwrSt → PwrSt) (j m : Nat) : (d.onPw f).on j m = d.on j m := rfl
@[simp] theorem Dev.onPw_now (d : Dev) (f : PwrSt → PwrSt) : (d.onPw f).now = d.now := rfl

/-! onTrust changes trust only. -/
@[simp] theorem Dev.onTrust_regs (d : Dev) (f : TrustSt → TrustSt) : (d.onTrust f).regs = d.regs := rfl
@[simp] theorem Dev.onTrust_resp (d : Dev) (f : TrustSt → TrustSt) : (d.onTrust f).resp = d.resp := rfl
@[simp] theorem Dev.onTrust_arms (d : Dev) (f : TrustSt → TrustSt) : (d.onTrust f).arms = d.arms := rfl
@[simp] theorem Dev.onTrust_shadow (d : Dev) (f : TrustSt → TrustSt) : (d.onTrust f).shadow = d.shadow := rfl
@[simp] theorem Dev.onTrust_lows (d : Dev) (f : TrustSt → TrustSt) : (d.onTrust f).lows = d.lows := rfl
@[simp] theorem Dev.onTrust_inflight (d : Dev) (f : TrustSt → TrustSt) : (d.onTrust f).inflight = d.inflight := rfl
@[simp] theorem Dev.onTrust_fresh (d : Dev) (f : TrustSt → TrustSt) : (d.onTrust f).fresh = d.fresh := rfl
@[simp] theorem Dev.onTrust_recSeq (d : Dev) (f : TrustSt → TrustSt) : (d.onTrust f).recSeq = d.recSeq := rfl
@[simp] theorem Dev.onTrust_recPhys (d : Dev) (f : TrustSt → TrustSt) : (d.onTrust f).recPhys = d.recPhys := rfl
@[simp] theorem Dev.onTrust_out (d : Dev) (f : TrustSt → TrustSt) : (d.onTrust f).out = d.out := rfl
@[simp] theorem Dev.onTrust_pulses (d : Dev) (f : TrustSt → TrustSt) : (d.onTrust f).pulses = d.pulses := rfl
@[simp] theorem Dev.onTrust_lastDerated (d : Dev) (f : TrustSt → TrustSt) : (d.onTrust f).lastDerated = d.lastDerated := rfl
@[simp] theorem Dev.onTrust_slow (d : Dev) (f : TrustSt → TrustSt) : (d.onTrust f).slow = d.slow := rfl
@[simp] theorem Dev.onTrust_winPend (d : Dev) (f : TrustSt → TrustSt) : (d.onTrust f).winPend = d.winPend := rfl
@[simp] theorem Dev.onTrust_tb (d : Dev) (f : TrustSt → TrustSt) : (d.onTrust f).tb = d.tb := rfl
@[simp] theorem Dev.onTrust_ev (d : Dev) (f : TrustSt → TrustSt) : (d.onTrust f).ev = d.ev := rfl
@[simp] theorem Dev.onTrust_sump (d : Dev) (f : TrustSt → TrustSt) : (d.onTrust f).sump = d.sump := rfl
@[simp] theorem Dev.onTrust_cw (d : Dev) (f : TrustSt → TrustSt) : (d.onTrust f).cw = d.cw := rfl
@[simp] theorem Dev.onTrust_streams (d : Dev) (f : TrustSt → TrustSt) : (d.onTrust f).streams = d.streams := rfl
@[simp] theorem Dev.onTrust_ports (d : Dev) (f : TrustSt → TrustSt) : (d.onTrust f).ports = d.ports := rfl
@[simp] theorem Dev.onTrust_lanes (d : Dev) (f : TrustSt → TrustSt) : (d.onTrust f).lanes = d.lanes := rfl
@[simp] theorem Dev.onTrust_groups (d : Dev) (f : TrustSt → TrustSt) : (d.onTrust f).groups = d.groups := rfl
@[simp] theorem Dev.onTrust_logBuf (d : Dev) (f : TrustSt → TrustSt) : (d.onTrust f).logBuf = d.logBuf := rfl
@[simp] theorem Dev.onTrust_dets (d : Dev) (f : TrustSt → TrustSt) : (d.onTrust f).dets = d.dets := rfl
@[simp] theorem Dev.onTrust_history (d : Dev) (f : TrustSt → TrustSt) : (d.onTrust f).history = d.history := rfl
@[simp] theorem Dev.onTrust_flats (d : Dev) (f : TrustSt → TrustSt) : (d.onTrust f).flats = d.flats := rfl
@[simp] theorem Dev.onTrust_masks (d : Dev) (f : TrustSt → TrustSt) : (d.onTrust f).masks = d.masks := rfl
@[simp] theorem Dev.onTrust_dens (d : Dev) (f : TrustSt → TrustSt) : (d.onTrust f).dens = d.dens := rfl
@[simp] theorem Dev.onTrust_grids (d : Dev) (f : TrustSt → TrustSt) : (d.onTrust f).grids = d.grids := rfl
@[simp] theorem Dev.onTrust_fab (d : Dev) (f : TrustSt → TrustSt) : (d.onTrust f).fab = d.fab := rfl
@[simp] theorem Dev.onTrust_stats (d : Dev) (f : TrustSt → TrustSt) : (d.onTrust f).stats = d.stats := rfl
@[simp] theorem Dev.onTrust_edge (d : Dev) (f : TrustSt → TrustSt) : (d.onTrust f).edge = d.edge := rfl
@[simp] theorem Dev.onTrust_disp (d : Dev) (f : TrustSt → TrustSt) : (d.onTrust f).disp = d.disp := rfl
@[simp] theorem Dev.onTrust_engs (d : Dev) (f : TrustSt → TrustSt) : (d.onTrust f).engs = d.engs := rfl
@[simp] theorem Dev.onTrust_cls (d : Dev) (f : TrustSt → TrustSt) : (d.onTrust f).cls = d.cls := rfl
@[simp] theorem Dev.onTrust_mc (d : Dev) (f : TrustSt → TrustSt) : (d.onTrust f).mc = d.mc := rfl
@[simp] theorem Dev.onTrust_rings (d : Dev) (f : TrustSt → TrustSt) : (d.onTrust f).rings = d.rings := rfl
@[simp] theorem Dev.onTrust_cxs (d : Dev) (f : TrustSt → TrustSt) : (d.onTrust f).cxs = d.cxs := rfl
@[simp] theorem Dev.onTrust_so (d : Dev) (f : TrustSt → TrustSt) : (d.onTrust f).so = d.so := rfl
@[simp] theorem Dev.onTrust_ctxs (d : Dev) (f : TrustSt → TrustSt) : (d.onTrust f).ctxs = d.ctxs := rfl
@[simp] theorem Dev.onTrust_replay (d : Dev) (f : TrustSt → TrustSt) : (d.onTrust f).replay = d.replay := rfl
@[simp] theorem Dev.onTrust_ax (d : Dev) (f : TrustSt → TrustSt) : (d.onTrust f).ax = d.ax := rfl
@[simp] theorem Dev.onTrust_fl (d : Dev) (f : TrustSt → TrustSt) : (d.onTrust f).fl = d.fl := rfl
@[simp] theorem Dev.onTrust_dma (d : Dev) (f : TrustSt → TrustSt) : (d.onTrust f).dma = d.dma := rfl
@[simp] theorem Dev.onTrust_pw (d : Dev) (f : TrustSt → TrustSt) : (d.onTrust f).pw = d.pw := rfl
@[simp] theorem Dev.onTrust_rd (d : Dev) (f : TrustSt → TrustSt) (j : Nat) : (d.onTrust f).rd j = d.rd j := rfl
@[simp] theorem Dev.onTrust_n (d : Dev) (f : TrustSt → TrustSt) (j : Nat) : (d.onTrust f).n j = d.n j := rfl
@[simp] theorem Dev.onTrust_f (d : Dev) (f : TrustSt → TrustSt) (j lo len : Nat) : (d.onTrust f).f j lo len = d.f j lo len := rfl
@[simp] theorem Dev.onTrust_on (d : Dev) (f : TrustSt → TrustSt) (j m : Nat) : (d.onTrust f).on j m = d.on j m := rfl
@[simp] theorem Dev.onTrust_now (d : Dev) (f : TrustSt → TrustSt) : (d.onTrust f).now = d.now := rfl

/-! setRing changes rings only. -/
@[simp] theorem Dev.setRing_regs (d : Dev) (s : Nat) (x : RingSt) : (d.setRing s x).regs = d.regs := rfl
@[simp] theorem Dev.setRing_resp (d : Dev) (s : Nat) (x : RingSt) : (d.setRing s x).resp = d.resp := rfl
@[simp] theorem Dev.setRing_arms (d : Dev) (s : Nat) (x : RingSt) : (d.setRing s x).arms = d.arms := rfl
@[simp] theorem Dev.setRing_shadow (d : Dev) (s : Nat) (x : RingSt) : (d.setRing s x).shadow = d.shadow := rfl
@[simp] theorem Dev.setRing_lows (d : Dev) (s : Nat) (x : RingSt) : (d.setRing s x).lows = d.lows := rfl
@[simp] theorem Dev.setRing_inflight (d : Dev) (s : Nat) (x : RingSt) : (d.setRing s x).inflight = d.inflight := rfl
@[simp] theorem Dev.setRing_fresh (d : Dev) (s : Nat) (x : RingSt) : (d.setRing s x).fresh = d.fresh := rfl
@[simp] theorem Dev.setRing_recSeq (d : Dev) (s : Nat) (x : RingSt) : (d.setRing s x).recSeq = d.recSeq := rfl
@[simp] theorem Dev.setRing_recPhys (d : Dev) (s : Nat) (x : RingSt) : (d.setRing s x).recPhys = d.recPhys := rfl
@[simp] theorem Dev.setRing_out (d : Dev) (s : Nat) (x : RingSt) : (d.setRing s x).out = d.out := rfl
@[simp] theorem Dev.setRing_pulses (d : Dev) (s : Nat) (x : RingSt) : (d.setRing s x).pulses = d.pulses := rfl
@[simp] theorem Dev.setRing_lastDerated (d : Dev) (s : Nat) (x : RingSt) : (d.setRing s x).lastDerated = d.lastDerated := rfl
@[simp] theorem Dev.setRing_slow (d : Dev) (s : Nat) (x : RingSt) : (d.setRing s x).slow = d.slow := rfl
@[simp] theorem Dev.setRing_winPend (d : Dev) (s : Nat) (x : RingSt) : (d.setRing s x).winPend = d.winPend := rfl
@[simp] theorem Dev.setRing_tb (d : Dev) (s : Nat) (x : RingSt) : (d.setRing s x).tb = d.tb := rfl
@[simp] theorem Dev.setRing_ev (d : Dev) (s : Nat) (x : RingSt) : (d.setRing s x).ev = d.ev := rfl
@[simp] theorem Dev.setRing_sump (d : Dev) (s : Nat) (x : RingSt) : (d.setRing s x).sump = d.sump := rfl
@[simp] theorem Dev.setRing_cw (d : Dev) (s : Nat) (x : RingSt) : (d.setRing s x).cw = d.cw := rfl
@[simp] theorem Dev.setRing_streams (d : Dev) (s : Nat) (x : RingSt) : (d.setRing s x).streams = d.streams := rfl
@[simp] theorem Dev.setRing_ports (d : Dev) (s : Nat) (x : RingSt) : (d.setRing s x).ports = d.ports := rfl
@[simp] theorem Dev.setRing_lanes (d : Dev) (s : Nat) (x : RingSt) : (d.setRing s x).lanes = d.lanes := rfl
@[simp] theorem Dev.setRing_groups (d : Dev) (s : Nat) (x : RingSt) : (d.setRing s x).groups = d.groups := rfl
@[simp] theorem Dev.setRing_logBuf (d : Dev) (s : Nat) (x : RingSt) : (d.setRing s x).logBuf = d.logBuf := rfl
@[simp] theorem Dev.setRing_dets (d : Dev) (s : Nat) (x : RingSt) : (d.setRing s x).dets = d.dets := rfl
@[simp] theorem Dev.setRing_history (d : Dev) (s : Nat) (x : RingSt) : (d.setRing s x).history = d.history := rfl
@[simp] theorem Dev.setRing_flats (d : Dev) (s : Nat) (x : RingSt) : (d.setRing s x).flats = d.flats := rfl
@[simp] theorem Dev.setRing_masks (d : Dev) (s : Nat) (x : RingSt) : (d.setRing s x).masks = d.masks := rfl
@[simp] theorem Dev.setRing_dens (d : Dev) (s : Nat) (x : RingSt) : (d.setRing s x).dens = d.dens := rfl
@[simp] theorem Dev.setRing_grids (d : Dev) (s : Nat) (x : RingSt) : (d.setRing s x).grids = d.grids := rfl
@[simp] theorem Dev.setRing_fab (d : Dev) (s : Nat) (x : RingSt) : (d.setRing s x).fab = d.fab := rfl
@[simp] theorem Dev.setRing_stats (d : Dev) (s : Nat) (x : RingSt) : (d.setRing s x).stats = d.stats := rfl
@[simp] theorem Dev.setRing_edge (d : Dev) (s : Nat) (x : RingSt) : (d.setRing s x).edge = d.edge := rfl
@[simp] theorem Dev.setRing_disp (d : Dev) (s : Nat) (x : RingSt) : (d.setRing s x).disp = d.disp := rfl
@[simp] theorem Dev.setRing_engs (d : Dev) (s : Nat) (x : RingSt) : (d.setRing s x).engs = d.engs := rfl
@[simp] theorem Dev.setRing_cls (d : Dev) (s : Nat) (x : RingSt) : (d.setRing s x).cls = d.cls := rfl
@[simp] theorem Dev.setRing_mc (d : Dev) (s : Nat) (x : RingSt) : (d.setRing s x).mc = d.mc := rfl
@[simp] theorem Dev.setRing_cxs (d : Dev) (s : Nat) (x : RingSt) : (d.setRing s x).cxs = d.cxs := rfl
@[simp] theorem Dev.setRing_trust (d : Dev) (s : Nat) (x : RingSt) : (d.setRing s x).trust = d.trust := rfl
@[simp] theorem Dev.setRing_so (d : Dev) (s : Nat) (x : RingSt) : (d.setRing s x).so = d.so := rfl
@[simp] theorem Dev.setRing_ctxs (d : Dev) (s : Nat) (x : RingSt) : (d.setRing s x).ctxs = d.ctxs := rfl
@[simp] theorem Dev.setRing_replay (d : Dev) (s : Nat) (x : RingSt) : (d.setRing s x).replay = d.replay := rfl
@[simp] theorem Dev.setRing_ax (d : Dev) (s : Nat) (x : RingSt) : (d.setRing s x).ax = d.ax := rfl
@[simp] theorem Dev.setRing_fl (d : Dev) (s : Nat) (x : RingSt) : (d.setRing s x).fl = d.fl := rfl
@[simp] theorem Dev.setRing_dma (d : Dev) (s : Nat) (x : RingSt) : (d.setRing s x).dma = d.dma := rfl
@[simp] theorem Dev.setRing_pw (d : Dev) (s : Nat) (x : RingSt) : (d.setRing s x).pw = d.pw := rfl
@[simp] theorem Dev.setRing_rd (d : Dev) (s : Nat) (x : RingSt) (j : Nat) : (d.setRing s x).rd j = d.rd j := rfl
@[simp] theorem Dev.setRing_n (d : Dev) (s : Nat) (x : RingSt) (j : Nat) : (d.setRing s x).n j = d.n j := rfl
@[simp] theorem Dev.setRing_f (d : Dev) (s : Nat) (x : RingSt) (j lo len : Nat) : (d.setRing s x).f j lo len = d.f j lo len := rfl
@[simp] theorem Dev.setRing_on (d : Dev) (s : Nat) (x : RingSt) (j m : Nat) : (d.setRing s x).on j m = d.on j m := rfl
@[simp] theorem Dev.setRing_now (d : Dev) (s : Nat) (x : RingSt) : (d.setRing s x).now = d.now := rfl

/-! setCx changes cxs only. -/
@[simp] theorem Dev.setCx_regs (d : Dev) (s : Nat) (x : Option Extract) : (d.setCx s x).regs = d.regs := rfl
@[simp] theorem Dev.setCx_resp (d : Dev) (s : Nat) (x : Option Extract) : (d.setCx s x).resp = d.resp := rfl
@[simp] theorem Dev.setCx_arms (d : Dev) (s : Nat) (x : Option Extract) : (d.setCx s x).arms = d.arms := rfl
@[simp] theorem Dev.setCx_shadow (d : Dev) (s : Nat) (x : Option Extract) : (d.setCx s x).shadow = d.shadow := rfl
@[simp] theorem Dev.setCx_lows (d : Dev) (s : Nat) (x : Option Extract) : (d.setCx s x).lows = d.lows := rfl
@[simp] theorem Dev.setCx_inflight (d : Dev) (s : Nat) (x : Option Extract) : (d.setCx s x).inflight = d.inflight := rfl
@[simp] theorem Dev.setCx_fresh (d : Dev) (s : Nat) (x : Option Extract) : (d.setCx s x).fresh = d.fresh := rfl
@[simp] theorem Dev.setCx_recSeq (d : Dev) (s : Nat) (x : Option Extract) : (d.setCx s x).recSeq = d.recSeq := rfl
@[simp] theorem Dev.setCx_recPhys (d : Dev) (s : Nat) (x : Option Extract) : (d.setCx s x).recPhys = d.recPhys := rfl
@[simp] theorem Dev.setCx_out (d : Dev) (s : Nat) (x : Option Extract) : (d.setCx s x).out = d.out := rfl
@[simp] theorem Dev.setCx_pulses (d : Dev) (s : Nat) (x : Option Extract) : (d.setCx s x).pulses = d.pulses := rfl
@[simp] theorem Dev.setCx_lastDerated (d : Dev) (s : Nat) (x : Option Extract) : (d.setCx s x).lastDerated = d.lastDerated := rfl
@[simp] theorem Dev.setCx_slow (d : Dev) (s : Nat) (x : Option Extract) : (d.setCx s x).slow = d.slow := rfl
@[simp] theorem Dev.setCx_winPend (d : Dev) (s : Nat) (x : Option Extract) : (d.setCx s x).winPend = d.winPend := rfl
@[simp] theorem Dev.setCx_tb (d : Dev) (s : Nat) (x : Option Extract) : (d.setCx s x).tb = d.tb := rfl
@[simp] theorem Dev.setCx_ev (d : Dev) (s : Nat) (x : Option Extract) : (d.setCx s x).ev = d.ev := rfl
@[simp] theorem Dev.setCx_sump (d : Dev) (s : Nat) (x : Option Extract) : (d.setCx s x).sump = d.sump := rfl
@[simp] theorem Dev.setCx_cw (d : Dev) (s : Nat) (x : Option Extract) : (d.setCx s x).cw = d.cw := rfl
@[simp] theorem Dev.setCx_streams (d : Dev) (s : Nat) (x : Option Extract) : (d.setCx s x).streams = d.streams := rfl
@[simp] theorem Dev.setCx_ports (d : Dev) (s : Nat) (x : Option Extract) : (d.setCx s x).ports = d.ports := rfl
@[simp] theorem Dev.setCx_lanes (d : Dev) (s : Nat) (x : Option Extract) : (d.setCx s x).lanes = d.lanes := rfl
@[simp] theorem Dev.setCx_groups (d : Dev) (s : Nat) (x : Option Extract) : (d.setCx s x).groups = d.groups := rfl
@[simp] theorem Dev.setCx_logBuf (d : Dev) (s : Nat) (x : Option Extract) : (d.setCx s x).logBuf = d.logBuf := rfl
@[simp] theorem Dev.setCx_dets (d : Dev) (s : Nat) (x : Option Extract) : (d.setCx s x).dets = d.dets := rfl
@[simp] theorem Dev.setCx_history (d : Dev) (s : Nat) (x : Option Extract) : (d.setCx s x).history = d.history := rfl
@[simp] theorem Dev.setCx_flats (d : Dev) (s : Nat) (x : Option Extract) : (d.setCx s x).flats = d.flats := rfl
@[simp] theorem Dev.setCx_masks (d : Dev) (s : Nat) (x : Option Extract) : (d.setCx s x).masks = d.masks := rfl
@[simp] theorem Dev.setCx_dens (d : Dev) (s : Nat) (x : Option Extract) : (d.setCx s x).dens = d.dens := rfl
@[simp] theorem Dev.setCx_grids (d : Dev) (s : Nat) (x : Option Extract) : (d.setCx s x).grids = d.grids := rfl
@[simp] theorem Dev.setCx_fab (d : Dev) (s : Nat) (x : Option Extract) : (d.setCx s x).fab = d.fab := rfl
@[simp] theorem Dev.setCx_stats (d : Dev) (s : Nat) (x : Option Extract) : (d.setCx s x).stats = d.stats := rfl
@[simp] theorem Dev.setCx_edge (d : Dev) (s : Nat) (x : Option Extract) : (d.setCx s x).edge = d.edge := rfl
@[simp] theorem Dev.setCx_disp (d : Dev) (s : Nat) (x : Option Extract) : (d.setCx s x).disp = d.disp := rfl
@[simp] theorem Dev.setCx_engs (d : Dev) (s : Nat) (x : Option Extract) : (d.setCx s x).engs = d.engs := rfl
@[simp] theorem Dev.setCx_cls (d : Dev) (s : Nat) (x : Option Extract) : (d.setCx s x).cls = d.cls := rfl
@[simp] theorem Dev.setCx_mc (d : Dev) (s : Nat) (x : Option Extract) : (d.setCx s x).mc = d.mc := rfl
@[simp] theorem Dev.setCx_rings (d : Dev) (s : Nat) (x : Option Extract) : (d.setCx s x).rings = d.rings := rfl
@[simp] theorem Dev.setCx_trust (d : Dev) (s : Nat) (x : Option Extract) : (d.setCx s x).trust = d.trust := rfl
@[simp] theorem Dev.setCx_so (d : Dev) (s : Nat) (x : Option Extract) : (d.setCx s x).so = d.so := rfl
@[simp] theorem Dev.setCx_ctxs (d : Dev) (s : Nat) (x : Option Extract) : (d.setCx s x).ctxs = d.ctxs := rfl
@[simp] theorem Dev.setCx_replay (d : Dev) (s : Nat) (x : Option Extract) : (d.setCx s x).replay = d.replay := rfl
@[simp] theorem Dev.setCx_ax (d : Dev) (s : Nat) (x : Option Extract) : (d.setCx s x).ax = d.ax := rfl
@[simp] theorem Dev.setCx_fl (d : Dev) (s : Nat) (x : Option Extract) : (d.setCx s x).fl = d.fl := rfl
@[simp] theorem Dev.setCx_dma (d : Dev) (s : Nat) (x : Option Extract) : (d.setCx s x).dma = d.dma := rfl
@[simp] theorem Dev.setCx_pw (d : Dev) (s : Nat) (x : Option Extract) : (d.setCx s x).pw = d.pw := rfl
@[simp] theorem Dev.setCx_rd (d : Dev) (s : Nat) (x : Option Extract) (j : Nat) : (d.setCx s x).rd j = d.rd j := rfl
@[simp] theorem Dev.setCx_n (d : Dev) (s : Nat) (x : Option Extract) (j : Nat) : (d.setCx s x).n j = d.n j := rfl
@[simp] theorem Dev.setCx_f (d : Dev) (s : Nat) (x : Option Extract) (j lo len : Nat) : (d.setCx s x).f j lo len = d.f j lo len := rfl
@[simp] theorem Dev.setCx_on (d : Dev) (s : Nat) (x : Option Extract) (j m : Nat) : (d.setCx s x).on j m = d.on j m := rfl
@[simp] theorem Dev.setCx_now (d : Dev) (s : Nat) (x : Option Extract) : (d.setCx s x).now = d.now := rfl

/-! setGrp changes cw only. -/
@[simp] theorem Dev.setGrp_regs (d : Dev) (x : Grp) : (d.setGrp x).regs = d.regs := rfl
@[simp] theorem Dev.setGrp_resp (d : Dev) (x : Grp) : (d.setGrp x).resp = d.resp := rfl
@[simp] theorem Dev.setGrp_arms (d : Dev) (x : Grp) : (d.setGrp x).arms = d.arms := rfl
@[simp] theorem Dev.setGrp_shadow (d : Dev) (x : Grp) : (d.setGrp x).shadow = d.shadow := rfl
@[simp] theorem Dev.setGrp_lows (d : Dev) (x : Grp) : (d.setGrp x).lows = d.lows := rfl
@[simp] theorem Dev.setGrp_inflight (d : Dev) (x : Grp) : (d.setGrp x).inflight = d.inflight := rfl
@[simp] theorem Dev.setGrp_fresh (d : Dev) (x : Grp) : (d.setGrp x).fresh = d.fresh := rfl
@[simp] theorem Dev.setGrp_recSeq (d : Dev) (x : Grp) : (d.setGrp x).recSeq = d.recSeq := rfl
@[simp] theorem Dev.setGrp_recPhys (d : Dev) (x : Grp) : (d.setGrp x).recPhys = d.recPhys := rfl
@[simp] theorem Dev.setGrp_out (d : Dev) (x : Grp) : (d.setGrp x).out = d.out := rfl
@[simp] theorem Dev.setGrp_pulses (d : Dev) (x : Grp) : (d.setGrp x).pulses = d.pulses := rfl
@[simp] theorem Dev.setGrp_lastDerated (d : Dev) (x : Grp) : (d.setGrp x).lastDerated = d.lastDerated := rfl
@[simp] theorem Dev.setGrp_slow (d : Dev) (x : Grp) : (d.setGrp x).slow = d.slow := rfl
@[simp] theorem Dev.setGrp_winPend (d : Dev) (x : Grp) : (d.setGrp x).winPend = d.winPend := rfl
@[simp] theorem Dev.setGrp_tb (d : Dev) (x : Grp) : (d.setGrp x).tb = d.tb := rfl
@[simp] theorem Dev.setGrp_ev (d : Dev) (x : Grp) : (d.setGrp x).ev = d.ev := rfl
@[simp] theorem Dev.setGrp_sump (d : Dev) (x : Grp) : (d.setGrp x).sump = d.sump := rfl
@[simp] theorem Dev.setGrp_streams (d : Dev) (x : Grp) : (d.setGrp x).streams = d.streams := rfl
@[simp] theorem Dev.setGrp_ports (d : Dev) (x : Grp) : (d.setGrp x).ports = d.ports := rfl
@[simp] theorem Dev.setGrp_lanes (d : Dev) (x : Grp) : (d.setGrp x).lanes = d.lanes := rfl
@[simp] theorem Dev.setGrp_groups (d : Dev) (x : Grp) : (d.setGrp x).groups = d.groups := rfl
@[simp] theorem Dev.setGrp_logBuf (d : Dev) (x : Grp) : (d.setGrp x).logBuf = d.logBuf := rfl
@[simp] theorem Dev.setGrp_dets (d : Dev) (x : Grp) : (d.setGrp x).dets = d.dets := rfl
@[simp] theorem Dev.setGrp_history (d : Dev) (x : Grp) : (d.setGrp x).history = d.history := rfl
@[simp] theorem Dev.setGrp_flats (d : Dev) (x : Grp) : (d.setGrp x).flats = d.flats := rfl
@[simp] theorem Dev.setGrp_masks (d : Dev) (x : Grp) : (d.setGrp x).masks = d.masks := rfl
@[simp] theorem Dev.setGrp_dens (d : Dev) (x : Grp) : (d.setGrp x).dens = d.dens := rfl
@[simp] theorem Dev.setGrp_grids (d : Dev) (x : Grp) : (d.setGrp x).grids = d.grids := rfl
@[simp] theorem Dev.setGrp_fab (d : Dev) (x : Grp) : (d.setGrp x).fab = d.fab := rfl
@[simp] theorem Dev.setGrp_stats (d : Dev) (x : Grp) : (d.setGrp x).stats = d.stats := rfl
@[simp] theorem Dev.setGrp_edge (d : Dev) (x : Grp) : (d.setGrp x).edge = d.edge := rfl
@[simp] theorem Dev.setGrp_disp (d : Dev) (x : Grp) : (d.setGrp x).disp = d.disp := rfl
@[simp] theorem Dev.setGrp_engs (d : Dev) (x : Grp) : (d.setGrp x).engs = d.engs := rfl
@[simp] theorem Dev.setGrp_cls (d : Dev) (x : Grp) : (d.setGrp x).cls = d.cls := rfl
@[simp] theorem Dev.setGrp_mc (d : Dev) (x : Grp) : (d.setGrp x).mc = d.mc := rfl
@[simp] theorem Dev.setGrp_rings (d : Dev) (x : Grp) : (d.setGrp x).rings = d.rings := rfl
@[simp] theorem Dev.setGrp_cxs (d : Dev) (x : Grp) : (d.setGrp x).cxs = d.cxs := rfl
@[simp] theorem Dev.setGrp_trust (d : Dev) (x : Grp) : (d.setGrp x).trust = d.trust := rfl
@[simp] theorem Dev.setGrp_so (d : Dev) (x : Grp) : (d.setGrp x).so = d.so := rfl
@[simp] theorem Dev.setGrp_ctxs (d : Dev) (x : Grp) : (d.setGrp x).ctxs = d.ctxs := rfl
@[simp] theorem Dev.setGrp_replay (d : Dev) (x : Grp) : (d.setGrp x).replay = d.replay := rfl
@[simp] theorem Dev.setGrp_ax (d : Dev) (x : Grp) : (d.setGrp x).ax = d.ax := rfl
@[simp] theorem Dev.setGrp_fl (d : Dev) (x : Grp) : (d.setGrp x).fl = d.fl := rfl
@[simp] theorem Dev.setGrp_dma (d : Dev) (x : Grp) : (d.setGrp x).dma = d.dma := rfl
@[simp] theorem Dev.setGrp_pw (d : Dev) (x : Grp) : (d.setGrp x).pw = d.pw := rfl
@[simp] theorem Dev.setGrp_rd (d : Dev) (x : Grp) (j : Nat) : (d.setGrp x).rd j = d.rd j := rfl
@[simp] theorem Dev.setGrp_n (d : Dev) (x : Grp) (j : Nat) : (d.setGrp x).n j = d.n j := rfl
@[simp] theorem Dev.setGrp_f (d : Dev) (x : Grp) (j lo len : Nat) : (d.setGrp x).f j lo len = d.f j lo len := rfl
@[simp] theorem Dev.setGrp_on (d : Dev) (x : Grp) (j m : Nat) : (d.setGrp x).on j m = d.on j m := rfl
@[simp] theorem Dev.setGrp_now (d : Dev) (x : Grp) : (d.setGrp x).now = d.now := rfl

/-! setCtx changes ctxs only. -/
@[simp] theorem Dev.setCtx_regs (d : Dev) (c : Nat) (x : CtxSt) : (d.setCtx c x).regs = d.regs := rfl
@[simp] theorem Dev.setCtx_resp (d : Dev) (c : Nat) (x : CtxSt) : (d.setCtx c x).resp = d.resp := rfl
@[simp] theorem Dev.setCtx_arms (d : Dev) (c : Nat) (x : CtxSt) : (d.setCtx c x).arms = d.arms := rfl
@[simp] theorem Dev.setCtx_shadow (d : Dev) (c : Nat) (x : CtxSt) : (d.setCtx c x).shadow = d.shadow := rfl
@[simp] theorem Dev.setCtx_lows (d : Dev) (c : Nat) (x : CtxSt) : (d.setCtx c x).lows = d.lows := rfl
@[simp] theorem Dev.setCtx_inflight (d : Dev) (c : Nat) (x : CtxSt) : (d.setCtx c x).inflight = d.inflight := rfl
@[simp] theorem Dev.setCtx_fresh (d : Dev) (c : Nat) (x : CtxSt) : (d.setCtx c x).fresh = d.fresh := rfl
@[simp] theorem Dev.setCtx_recSeq (d : Dev) (c : Nat) (x : CtxSt) : (d.setCtx c x).recSeq = d.recSeq := rfl
@[simp] theorem Dev.setCtx_recPhys (d : Dev) (c : Nat) (x : CtxSt) : (d.setCtx c x).recPhys = d.recPhys := rfl
@[simp] theorem Dev.setCtx_out (d : Dev) (c : Nat) (x : CtxSt) : (d.setCtx c x).out = d.out := rfl
@[simp] theorem Dev.setCtx_pulses (d : Dev) (c : Nat) (x : CtxSt) : (d.setCtx c x).pulses = d.pulses := rfl
@[simp] theorem Dev.setCtx_lastDerated (d : Dev) (c : Nat) (x : CtxSt) : (d.setCtx c x).lastDerated = d.lastDerated := rfl
@[simp] theorem Dev.setCtx_slow (d : Dev) (c : Nat) (x : CtxSt) : (d.setCtx c x).slow = d.slow := rfl
@[simp] theorem Dev.setCtx_winPend (d : Dev) (c : Nat) (x : CtxSt) : (d.setCtx c x).winPend = d.winPend := rfl
@[simp] theorem Dev.setCtx_tb (d : Dev) (c : Nat) (x : CtxSt) : (d.setCtx c x).tb = d.tb := rfl
@[simp] theorem Dev.setCtx_ev (d : Dev) (c : Nat) (x : CtxSt) : (d.setCtx c x).ev = d.ev := rfl
@[simp] theorem Dev.setCtx_sump (d : Dev) (c : Nat) (x : CtxSt) : (d.setCtx c x).sump = d.sump := rfl
@[simp] theorem Dev.setCtx_cw (d : Dev) (c : Nat) (x : CtxSt) : (d.setCtx c x).cw = d.cw := rfl
@[simp] theorem Dev.setCtx_streams (d : Dev) (c : Nat) (x : CtxSt) : (d.setCtx c x).streams = d.streams := rfl
@[simp] theorem Dev.setCtx_ports (d : Dev) (c : Nat) (x : CtxSt) : (d.setCtx c x).ports = d.ports := rfl
@[simp] theorem Dev.setCtx_lanes (d : Dev) (c : Nat) (x : CtxSt) : (d.setCtx c x).lanes = d.lanes := rfl
@[simp] theorem Dev.setCtx_groups (d : Dev) (c : Nat) (x : CtxSt) : (d.setCtx c x).groups = d.groups := rfl
@[simp] theorem Dev.setCtx_logBuf (d : Dev) (c : Nat) (x : CtxSt) : (d.setCtx c x).logBuf = d.logBuf := rfl
@[simp] theorem Dev.setCtx_dets (d : Dev) (c : Nat) (x : CtxSt) : (d.setCtx c x).dets = d.dets := rfl
@[simp] theorem Dev.setCtx_history (d : Dev) (c : Nat) (x : CtxSt) : (d.setCtx c x).history = d.history := rfl
@[simp] theorem Dev.setCtx_flats (d : Dev) (c : Nat) (x : CtxSt) : (d.setCtx c x).flats = d.flats := rfl
@[simp] theorem Dev.setCtx_masks (d : Dev) (c : Nat) (x : CtxSt) : (d.setCtx c x).masks = d.masks := rfl
@[simp] theorem Dev.setCtx_dens (d : Dev) (c : Nat) (x : CtxSt) : (d.setCtx c x).dens = d.dens := rfl
@[simp] theorem Dev.setCtx_grids (d : Dev) (c : Nat) (x : CtxSt) : (d.setCtx c x).grids = d.grids := rfl
@[simp] theorem Dev.setCtx_fab (d : Dev) (c : Nat) (x : CtxSt) : (d.setCtx c x).fab = d.fab := rfl
@[simp] theorem Dev.setCtx_stats (d : Dev) (c : Nat) (x : CtxSt) : (d.setCtx c x).stats = d.stats := rfl
@[simp] theorem Dev.setCtx_edge (d : Dev) (c : Nat) (x : CtxSt) : (d.setCtx c x).edge = d.edge := rfl
@[simp] theorem Dev.setCtx_disp (d : Dev) (c : Nat) (x : CtxSt) : (d.setCtx c x).disp = d.disp := rfl
@[simp] theorem Dev.setCtx_engs (d : Dev) (c : Nat) (x : CtxSt) : (d.setCtx c x).engs = d.engs := rfl
@[simp] theorem Dev.setCtx_cls (d : Dev) (c : Nat) (x : CtxSt) : (d.setCtx c x).cls = d.cls := rfl
@[simp] theorem Dev.setCtx_mc (d : Dev) (c : Nat) (x : CtxSt) : (d.setCtx c x).mc = d.mc := rfl
@[simp] theorem Dev.setCtx_rings (d : Dev) (c : Nat) (x : CtxSt) : (d.setCtx c x).rings = d.rings := rfl
@[simp] theorem Dev.setCtx_cxs (d : Dev) (c : Nat) (x : CtxSt) : (d.setCtx c x).cxs = d.cxs := rfl
@[simp] theorem Dev.setCtx_trust (d : Dev) (c : Nat) (x : CtxSt) : (d.setCtx c x).trust = d.trust := rfl
@[simp] theorem Dev.setCtx_so (d : Dev) (c : Nat) (x : CtxSt) : (d.setCtx c x).so = d.so := rfl
@[simp] theorem Dev.setCtx_replay (d : Dev) (c : Nat) (x : CtxSt) : (d.setCtx c x).replay = d.replay := rfl
@[simp] theorem Dev.setCtx_ax (d : Dev) (c : Nat) (x : CtxSt) : (d.setCtx c x).ax = d.ax := rfl
@[simp] theorem Dev.setCtx_fl (d : Dev) (c : Nat) (x : CtxSt) : (d.setCtx c x).fl = d.fl := rfl
@[simp] theorem Dev.setCtx_dma (d : Dev) (c : Nat) (x : CtxSt) : (d.setCtx c x).dma = d.dma := rfl
@[simp] theorem Dev.setCtx_pw (d : Dev) (c : Nat) (x : CtxSt) : (d.setCtx c x).pw = d.pw := rfl
@[simp] theorem Dev.setCtx_rd (d : Dev) (c : Nat) (x : CtxSt) (j : Nat) : (d.setCtx c x).rd j = d.rd j := rfl
@[simp] theorem Dev.setCtx_n (d : Dev) (c : Nat) (x : CtxSt) (j : Nat) : (d.setCtx c x).n j = d.n j := rfl
@[simp] theorem Dev.setCtx_f (d : Dev) (c : Nat) (x : CtxSt) (j lo len : Nat) : (d.setCtx c x).f j lo len = d.f j lo len := rfl
@[simp] theorem Dev.setCtx_on (d : Dev) (c : Nat) (x : CtxSt) (j m : Nat) : (d.setCtx c x).on j m = d.on j m := rfl
@[simp] theorem Dev.setCtx_now (d : Dev) (c : Nat) (x : CtxSt) : (d.setCtx c x).now = d.now := rfl

/-! setSo changes so only. -/
@[simp] theorem Dev.setSo_regs (d : Dev) (p : Nat) (x : SoSt) : (d.setSo p x).regs = d.regs := rfl
@[simp] theorem Dev.setSo_resp (d : Dev) (p : Nat) (x : SoSt) : (d.setSo p x).resp = d.resp := rfl
@[simp] theorem Dev.setSo_arms (d : Dev) (p : Nat) (x : SoSt) : (d.setSo p x).arms = d.arms := rfl
@[simp] theorem Dev.setSo_shadow (d : Dev) (p : Nat) (x : SoSt) : (d.setSo p x).shadow = d.shadow := rfl
@[simp] theorem Dev.setSo_lows (d : Dev) (p : Nat) (x : SoSt) : (d.setSo p x).lows = d.lows := rfl
@[simp] theorem Dev.setSo_inflight (d : Dev) (p : Nat) (x : SoSt) : (d.setSo p x).inflight = d.inflight := rfl
@[simp] theorem Dev.setSo_fresh (d : Dev) (p : Nat) (x : SoSt) : (d.setSo p x).fresh = d.fresh := rfl
@[simp] theorem Dev.setSo_recSeq (d : Dev) (p : Nat) (x : SoSt) : (d.setSo p x).recSeq = d.recSeq := rfl
@[simp] theorem Dev.setSo_recPhys (d : Dev) (p : Nat) (x : SoSt) : (d.setSo p x).recPhys = d.recPhys := rfl
@[simp] theorem Dev.setSo_out (d : Dev) (p : Nat) (x : SoSt) : (d.setSo p x).out = d.out := rfl
@[simp] theorem Dev.setSo_pulses (d : Dev) (p : Nat) (x : SoSt) : (d.setSo p x).pulses = d.pulses := rfl
@[simp] theorem Dev.setSo_lastDerated (d : Dev) (p : Nat) (x : SoSt) : (d.setSo p x).lastDerated = d.lastDerated := rfl
@[simp] theorem Dev.setSo_slow (d : Dev) (p : Nat) (x : SoSt) : (d.setSo p x).slow = d.slow := rfl
@[simp] theorem Dev.setSo_winPend (d : Dev) (p : Nat) (x : SoSt) : (d.setSo p x).winPend = d.winPend := rfl
@[simp] theorem Dev.setSo_tb (d : Dev) (p : Nat) (x : SoSt) : (d.setSo p x).tb = d.tb := rfl
@[simp] theorem Dev.setSo_ev (d : Dev) (p : Nat) (x : SoSt) : (d.setSo p x).ev = d.ev := rfl
@[simp] theorem Dev.setSo_sump (d : Dev) (p : Nat) (x : SoSt) : (d.setSo p x).sump = d.sump := rfl
@[simp] theorem Dev.setSo_cw (d : Dev) (p : Nat) (x : SoSt) : (d.setSo p x).cw = d.cw := rfl
@[simp] theorem Dev.setSo_streams (d : Dev) (p : Nat) (x : SoSt) : (d.setSo p x).streams = d.streams := rfl
@[simp] theorem Dev.setSo_ports (d : Dev) (p : Nat) (x : SoSt) : (d.setSo p x).ports = d.ports := rfl
@[simp] theorem Dev.setSo_lanes (d : Dev) (p : Nat) (x : SoSt) : (d.setSo p x).lanes = d.lanes := rfl
@[simp] theorem Dev.setSo_groups (d : Dev) (p : Nat) (x : SoSt) : (d.setSo p x).groups = d.groups := rfl
@[simp] theorem Dev.setSo_logBuf (d : Dev) (p : Nat) (x : SoSt) : (d.setSo p x).logBuf = d.logBuf := rfl
@[simp] theorem Dev.setSo_dets (d : Dev) (p : Nat) (x : SoSt) : (d.setSo p x).dets = d.dets := rfl
@[simp] theorem Dev.setSo_history (d : Dev) (p : Nat) (x : SoSt) : (d.setSo p x).history = d.history := rfl
@[simp] theorem Dev.setSo_flats (d : Dev) (p : Nat) (x : SoSt) : (d.setSo p x).flats = d.flats := rfl
@[simp] theorem Dev.setSo_masks (d : Dev) (p : Nat) (x : SoSt) : (d.setSo p x).masks = d.masks := rfl
@[simp] theorem Dev.setSo_dens (d : Dev) (p : Nat) (x : SoSt) : (d.setSo p x).dens = d.dens := rfl
@[simp] theorem Dev.setSo_grids (d : Dev) (p : Nat) (x : SoSt) : (d.setSo p x).grids = d.grids := rfl
@[simp] theorem Dev.setSo_fab (d : Dev) (p : Nat) (x : SoSt) : (d.setSo p x).fab = d.fab := rfl
@[simp] theorem Dev.setSo_stats (d : Dev) (p : Nat) (x : SoSt) : (d.setSo p x).stats = d.stats := rfl
@[simp] theorem Dev.setSo_edge (d : Dev) (p : Nat) (x : SoSt) : (d.setSo p x).edge = d.edge := rfl
@[simp] theorem Dev.setSo_disp (d : Dev) (p : Nat) (x : SoSt) : (d.setSo p x).disp = d.disp := rfl
@[simp] theorem Dev.setSo_engs (d : Dev) (p : Nat) (x : SoSt) : (d.setSo p x).engs = d.engs := rfl
@[simp] theorem Dev.setSo_cls (d : Dev) (p : Nat) (x : SoSt) : (d.setSo p x).cls = d.cls := rfl
@[simp] theorem Dev.setSo_mc (d : Dev) (p : Nat) (x : SoSt) : (d.setSo p x).mc = d.mc := rfl
@[simp] theorem Dev.setSo_rings (d : Dev) (p : Nat) (x : SoSt) : (d.setSo p x).rings = d.rings := rfl
@[simp] theorem Dev.setSo_cxs (d : Dev) (p : Nat) (x : SoSt) : (d.setSo p x).cxs = d.cxs := rfl
@[simp] theorem Dev.setSo_trust (d : Dev) (p : Nat) (x : SoSt) : (d.setSo p x).trust = d.trust := rfl
@[simp] theorem Dev.setSo_ctxs (d : Dev) (p : Nat) (x : SoSt) : (d.setSo p x).ctxs = d.ctxs := rfl
@[simp] theorem Dev.setSo_replay (d : Dev) (p : Nat) (x : SoSt) : (d.setSo p x).replay = d.replay := rfl
@[simp] theorem Dev.setSo_ax (d : Dev) (p : Nat) (x : SoSt) : (d.setSo p x).ax = d.ax := rfl
@[simp] theorem Dev.setSo_fl (d : Dev) (p : Nat) (x : SoSt) : (d.setSo p x).fl = d.fl := rfl
@[simp] theorem Dev.setSo_dma (d : Dev) (p : Nat) (x : SoSt) : (d.setSo p x).dma = d.dma := rfl
@[simp] theorem Dev.setSo_pw (d : Dev) (p : Nat) (x : SoSt) : (d.setSo p x).pw = d.pw := rfl
@[simp] theorem Dev.setSo_rd (d : Dev) (p : Nat) (x : SoSt) (j : Nat) : (d.setSo p x).rd j = d.rd j := rfl
@[simp] theorem Dev.setSo_n (d : Dev) (p : Nat) (x : SoSt) (j : Nat) : (d.setSo p x).n j = d.n j := rfl
@[simp] theorem Dev.setSo_f (d : Dev) (p : Nat) (x : SoSt) (j lo len : Nat) : (d.setSo p x).f j lo len = d.f j lo len := rfl
@[simp] theorem Dev.setSo_on (d : Dev) (p : Nat) (x : SoSt) (j m : Nat) : (d.setSo p x).on j m = d.on j m := rfl
@[simp] theorem Dev.setSo_now (d : Dev) (p : Nat) (x : SoSt) : (d.setSo p x).now = d.now := rfl

/-! setMask changes masks only. -/
@[simp] theorem Dev.setMask_regs (d : Dev) (l : Nat) (x : MaskSt) : (d.setMask l x).regs = d.regs := rfl
@[simp] theorem Dev.setMask_resp (d : Dev) (l : Nat) (x : MaskSt) : (d.setMask l x).resp = d.resp := rfl
@[simp] theorem Dev.setMask_arms (d : Dev) (l : Nat) (x : MaskSt) : (d.setMask l x).arms = d.arms := rfl
@[simp] theorem Dev.setMask_shadow (d : Dev) (l : Nat) (x : MaskSt) : (d.setMask l x).shadow = d.shadow := rfl
@[simp] theorem Dev.setMask_lows (d : Dev) (l : Nat) (x : MaskSt) : (d.setMask l x).lows = d.lows := rfl
@[simp] theorem Dev.setMask_inflight (d : Dev) (l : Nat) (x : MaskSt) : (d.setMask l x).inflight = d.inflight := rfl
@[simp] theorem Dev.setMask_fresh (d : Dev) (l : Nat) (x : MaskSt) : (d.setMask l x).fresh = d.fresh := rfl
@[simp] theorem Dev.setMask_recSeq (d : Dev) (l : Nat) (x : MaskSt) : (d.setMask l x).recSeq = d.recSeq := rfl
@[simp] theorem Dev.setMask_recPhys (d : Dev) (l : Nat) (x : MaskSt) : (d.setMask l x).recPhys = d.recPhys := rfl
@[simp] theorem Dev.setMask_out (d : Dev) (l : Nat) (x : MaskSt) : (d.setMask l x).out = d.out := rfl
@[simp] theorem Dev.setMask_pulses (d : Dev) (l : Nat) (x : MaskSt) : (d.setMask l x).pulses = d.pulses := rfl
@[simp] theorem Dev.setMask_lastDerated (d : Dev) (l : Nat) (x : MaskSt) : (d.setMask l x).lastDerated = d.lastDerated := rfl
@[simp] theorem Dev.setMask_slow (d : Dev) (l : Nat) (x : MaskSt) : (d.setMask l x).slow = d.slow := rfl
@[simp] theorem Dev.setMask_winPend (d : Dev) (l : Nat) (x : MaskSt) : (d.setMask l x).winPend = d.winPend := rfl
@[simp] theorem Dev.setMask_tb (d : Dev) (l : Nat) (x : MaskSt) : (d.setMask l x).tb = d.tb := rfl
@[simp] theorem Dev.setMask_ev (d : Dev) (l : Nat) (x : MaskSt) : (d.setMask l x).ev = d.ev := rfl
@[simp] theorem Dev.setMask_sump (d : Dev) (l : Nat) (x : MaskSt) : (d.setMask l x).sump = d.sump := rfl
@[simp] theorem Dev.setMask_cw (d : Dev) (l : Nat) (x : MaskSt) : (d.setMask l x).cw = d.cw := rfl
@[simp] theorem Dev.setMask_streams (d : Dev) (l : Nat) (x : MaskSt) : (d.setMask l x).streams = d.streams := rfl
@[simp] theorem Dev.setMask_ports (d : Dev) (l : Nat) (x : MaskSt) : (d.setMask l x).ports = d.ports := rfl
@[simp] theorem Dev.setMask_lanes (d : Dev) (l : Nat) (x : MaskSt) : (d.setMask l x).lanes = d.lanes := rfl
@[simp] theorem Dev.setMask_groups (d : Dev) (l : Nat) (x : MaskSt) : (d.setMask l x).groups = d.groups := rfl
@[simp] theorem Dev.setMask_logBuf (d : Dev) (l : Nat) (x : MaskSt) : (d.setMask l x).logBuf = d.logBuf := rfl
@[simp] theorem Dev.setMask_dets (d : Dev) (l : Nat) (x : MaskSt) : (d.setMask l x).dets = d.dets := rfl
@[simp] theorem Dev.setMask_history (d : Dev) (l : Nat) (x : MaskSt) : (d.setMask l x).history = d.history := rfl
@[simp] theorem Dev.setMask_flats (d : Dev) (l : Nat) (x : MaskSt) : (d.setMask l x).flats = d.flats := rfl
@[simp] theorem Dev.setMask_dens (d : Dev) (l : Nat) (x : MaskSt) : (d.setMask l x).dens = d.dens := rfl
@[simp] theorem Dev.setMask_grids (d : Dev) (l : Nat) (x : MaskSt) : (d.setMask l x).grids = d.grids := rfl
@[simp] theorem Dev.setMask_fab (d : Dev) (l : Nat) (x : MaskSt) : (d.setMask l x).fab = d.fab := rfl
@[simp] theorem Dev.setMask_stats (d : Dev) (l : Nat) (x : MaskSt) : (d.setMask l x).stats = d.stats := rfl
@[simp] theorem Dev.setMask_edge (d : Dev) (l : Nat) (x : MaskSt) : (d.setMask l x).edge = d.edge := rfl
@[simp] theorem Dev.setMask_disp (d : Dev) (l : Nat) (x : MaskSt) : (d.setMask l x).disp = d.disp := rfl
@[simp] theorem Dev.setMask_engs (d : Dev) (l : Nat) (x : MaskSt) : (d.setMask l x).engs = d.engs := rfl
@[simp] theorem Dev.setMask_cls (d : Dev) (l : Nat) (x : MaskSt) : (d.setMask l x).cls = d.cls := rfl
@[simp] theorem Dev.setMask_mc (d : Dev) (l : Nat) (x : MaskSt) : (d.setMask l x).mc = d.mc := rfl
@[simp] theorem Dev.setMask_rings (d : Dev) (l : Nat) (x : MaskSt) : (d.setMask l x).rings = d.rings := rfl
@[simp] theorem Dev.setMask_cxs (d : Dev) (l : Nat) (x : MaskSt) : (d.setMask l x).cxs = d.cxs := rfl
@[simp] theorem Dev.setMask_trust (d : Dev) (l : Nat) (x : MaskSt) : (d.setMask l x).trust = d.trust := rfl
@[simp] theorem Dev.setMask_so (d : Dev) (l : Nat) (x : MaskSt) : (d.setMask l x).so = d.so := rfl
@[simp] theorem Dev.setMask_ctxs (d : Dev) (l : Nat) (x : MaskSt) : (d.setMask l x).ctxs = d.ctxs := rfl
@[simp] theorem Dev.setMask_replay (d : Dev) (l : Nat) (x : MaskSt) : (d.setMask l x).replay = d.replay := rfl
@[simp] theorem Dev.setMask_ax (d : Dev) (l : Nat) (x : MaskSt) : (d.setMask l x).ax = d.ax := rfl
@[simp] theorem Dev.setMask_fl (d : Dev) (l : Nat) (x : MaskSt) : (d.setMask l x).fl = d.fl := rfl
@[simp] theorem Dev.setMask_dma (d : Dev) (l : Nat) (x : MaskSt) : (d.setMask l x).dma = d.dma := rfl
@[simp] theorem Dev.setMask_pw (d : Dev) (l : Nat) (x : MaskSt) : (d.setMask l x).pw = d.pw := rfl
@[simp] theorem Dev.setMask_rd (d : Dev) (l : Nat) (x : MaskSt) (j : Nat) : (d.setMask l x).rd j = d.rd j := rfl
@[simp] theorem Dev.setMask_n (d : Dev) (l : Nat) (x : MaskSt) (j : Nat) : (d.setMask l x).n j = d.n j := rfl
@[simp] theorem Dev.setMask_f (d : Dev) (l : Nat) (x : MaskSt) (j lo len : Nat) : (d.setMask l x).f j lo len = d.f j lo len := rfl
@[simp] theorem Dev.setMask_on (d : Dev) (l : Nat) (x : MaskSt) (j m : Nat) : (d.setMask l x).on j m = d.on j m := rfl
@[simp] theorem Dev.setMask_now (d : Dev) (l : Nat) (x : MaskSt) : (d.setMask l x).now = d.now := rfl

/-! setDen changes dens only. -/
@[simp] theorem Dev.setDen_regs (d : Dev) (l : Nat) (x : DensSt) : (d.setDen l x).regs = d.regs := rfl
@[simp] theorem Dev.setDen_resp (d : Dev) (l : Nat) (x : DensSt) : (d.setDen l x).resp = d.resp := rfl
@[simp] theorem Dev.setDen_arms (d : Dev) (l : Nat) (x : DensSt) : (d.setDen l x).arms = d.arms := rfl
@[simp] theorem Dev.setDen_shadow (d : Dev) (l : Nat) (x : DensSt) : (d.setDen l x).shadow = d.shadow := rfl
@[simp] theorem Dev.setDen_lows (d : Dev) (l : Nat) (x : DensSt) : (d.setDen l x).lows = d.lows := rfl
@[simp] theorem Dev.setDen_inflight (d : Dev) (l : Nat) (x : DensSt) : (d.setDen l x).inflight = d.inflight := rfl
@[simp] theorem Dev.setDen_fresh (d : Dev) (l : Nat) (x : DensSt) : (d.setDen l x).fresh = d.fresh := rfl
@[simp] theorem Dev.setDen_recSeq (d : Dev) (l : Nat) (x : DensSt) : (d.setDen l x).recSeq = d.recSeq := rfl
@[simp] theorem Dev.setDen_recPhys (d : Dev) (l : Nat) (x : DensSt) : (d.setDen l x).recPhys = d.recPhys := rfl
@[simp] theorem Dev.setDen_out (d : Dev) (l : Nat) (x : DensSt) : (d.setDen l x).out = d.out := rfl
@[simp] theorem Dev.setDen_pulses (d : Dev) (l : Nat) (x : DensSt) : (d.setDen l x).pulses = d.pulses := rfl
@[simp] theorem Dev.setDen_lastDerated (d : Dev) (l : Nat) (x : DensSt) : (d.setDen l x).lastDerated = d.lastDerated := rfl
@[simp] theorem Dev.setDen_slow (d : Dev) (l : Nat) (x : DensSt) : (d.setDen l x).slow = d.slow := rfl
@[simp] theorem Dev.setDen_winPend (d : Dev) (l : Nat) (x : DensSt) : (d.setDen l x).winPend = d.winPend := rfl
@[simp] theorem Dev.setDen_tb (d : Dev) (l : Nat) (x : DensSt) : (d.setDen l x).tb = d.tb := rfl
@[simp] theorem Dev.setDen_ev (d : Dev) (l : Nat) (x : DensSt) : (d.setDen l x).ev = d.ev := rfl
@[simp] theorem Dev.setDen_sump (d : Dev) (l : Nat) (x : DensSt) : (d.setDen l x).sump = d.sump := rfl
@[simp] theorem Dev.setDen_cw (d : Dev) (l : Nat) (x : DensSt) : (d.setDen l x).cw = d.cw := rfl
@[simp] theorem Dev.setDen_streams (d : Dev) (l : Nat) (x : DensSt) : (d.setDen l x).streams = d.streams := rfl
@[simp] theorem Dev.setDen_ports (d : Dev) (l : Nat) (x : DensSt) : (d.setDen l x).ports = d.ports := rfl
@[simp] theorem Dev.setDen_lanes (d : Dev) (l : Nat) (x : DensSt) : (d.setDen l x).lanes = d.lanes := rfl
@[simp] theorem Dev.setDen_groups (d : Dev) (l : Nat) (x : DensSt) : (d.setDen l x).groups = d.groups := rfl
@[simp] theorem Dev.setDen_logBuf (d : Dev) (l : Nat) (x : DensSt) : (d.setDen l x).logBuf = d.logBuf := rfl
@[simp] theorem Dev.setDen_dets (d : Dev) (l : Nat) (x : DensSt) : (d.setDen l x).dets = d.dets := rfl
@[simp] theorem Dev.setDen_history (d : Dev) (l : Nat) (x : DensSt) : (d.setDen l x).history = d.history := rfl
@[simp] theorem Dev.setDen_flats (d : Dev) (l : Nat) (x : DensSt) : (d.setDen l x).flats = d.flats := rfl
@[simp] theorem Dev.setDen_masks (d : Dev) (l : Nat) (x : DensSt) : (d.setDen l x).masks = d.masks := rfl
@[simp] theorem Dev.setDen_grids (d : Dev) (l : Nat) (x : DensSt) : (d.setDen l x).grids = d.grids := rfl
@[simp] theorem Dev.setDen_fab (d : Dev) (l : Nat) (x : DensSt) : (d.setDen l x).fab = d.fab := rfl
@[simp] theorem Dev.setDen_stats (d : Dev) (l : Nat) (x : DensSt) : (d.setDen l x).stats = d.stats := rfl
@[simp] theorem Dev.setDen_edge (d : Dev) (l : Nat) (x : DensSt) : (d.setDen l x).edge = d.edge := rfl
@[simp] theorem Dev.setDen_disp (d : Dev) (l : Nat) (x : DensSt) : (d.setDen l x).disp = d.disp := rfl
@[simp] theorem Dev.setDen_engs (d : Dev) (l : Nat) (x : DensSt) : (d.setDen l x).engs = d.engs := rfl
@[simp] theorem Dev.setDen_cls (d : Dev) (l : Nat) (x : DensSt) : (d.setDen l x).cls = d.cls := rfl
@[simp] theorem Dev.setDen_mc (d : Dev) (l : Nat) (x : DensSt) : (d.setDen l x).mc = d.mc := rfl
@[simp] theorem Dev.setDen_rings (d : Dev) (l : Nat) (x : DensSt) : (d.setDen l x).rings = d.rings := rfl
@[simp] theorem Dev.setDen_cxs (d : Dev) (l : Nat) (x : DensSt) : (d.setDen l x).cxs = d.cxs := rfl
@[simp] theorem Dev.setDen_trust (d : Dev) (l : Nat) (x : DensSt) : (d.setDen l x).trust = d.trust := rfl
@[simp] theorem Dev.setDen_so (d : Dev) (l : Nat) (x : DensSt) : (d.setDen l x).so = d.so := rfl
@[simp] theorem Dev.setDen_ctxs (d : Dev) (l : Nat) (x : DensSt) : (d.setDen l x).ctxs = d.ctxs := rfl
@[simp] theorem Dev.setDen_replay (d : Dev) (l : Nat) (x : DensSt) : (d.setDen l x).replay = d.replay := rfl
@[simp] theorem Dev.setDen_ax (d : Dev) (l : Nat) (x : DensSt) : (d.setDen l x).ax = d.ax := rfl
@[simp] theorem Dev.setDen_fl (d : Dev) (l : Nat) (x : DensSt) : (d.setDen l x).fl = d.fl := rfl
@[simp] theorem Dev.setDen_dma (d : Dev) (l : Nat) (x : DensSt) : (d.setDen l x).dma = d.dma := rfl
@[simp] theorem Dev.setDen_pw (d : Dev) (l : Nat) (x : DensSt) : (d.setDen l x).pw = d.pw := rfl
@[simp] theorem Dev.setDen_rd (d : Dev) (l : Nat) (x : DensSt) (j : Nat) : (d.setDen l x).rd j = d.rd j := rfl
@[simp] theorem Dev.setDen_n (d : Dev) (l : Nat) (x : DensSt) (j : Nat) : (d.setDen l x).n j = d.n j := rfl
@[simp] theorem Dev.setDen_f (d : Dev) (l : Nat) (x : DensSt) (j lo len : Nat) : (d.setDen l x).f j lo len = d.f j lo len := rfl
@[simp] theorem Dev.setDen_on (d : Dev) (l : Nat) (x : DensSt) (j m : Nat) : (d.setDen l x).on j m = d.on j m := rfl
@[simp] theorem Dev.setDen_now (d : Dev) (l : Nat) (x : DensSt) : (d.setDen l x).now = d.now := rfl

/-! setGrid changes grids only. -/
@[simp] theorem Dev.setGrid_regs (d : Dev) (l : Nat) (x : Tab Nat) : (d.setGrid l x).regs = d.regs := rfl
@[simp] theorem Dev.setGrid_resp (d : Dev) (l : Nat) (x : Tab Nat) : (d.setGrid l x).resp = d.resp := rfl
@[simp] theorem Dev.setGrid_arms (d : Dev) (l : Nat) (x : Tab Nat) : (d.setGrid l x).arms = d.arms := rfl
@[simp] theorem Dev.setGrid_shadow (d : Dev) (l : Nat) (x : Tab Nat) : (d.setGrid l x).shadow = d.shadow := rfl
@[simp] theorem Dev.setGrid_lows (d : Dev) (l : Nat) (x : Tab Nat) : (d.setGrid l x).lows = d.lows := rfl
@[simp] theorem Dev.setGrid_inflight (d : Dev) (l : Nat) (x : Tab Nat) : (d.setGrid l x).inflight = d.inflight := rfl
@[simp] theorem Dev.setGrid_fresh (d : Dev) (l : Nat) (x : Tab Nat) : (d.setGrid l x).fresh = d.fresh := rfl
@[simp] theorem Dev.setGrid_recSeq (d : Dev) (l : Nat) (x : Tab Nat) : (d.setGrid l x).recSeq = d.recSeq := rfl
@[simp] theorem Dev.setGrid_recPhys (d : Dev) (l : Nat) (x : Tab Nat) : (d.setGrid l x).recPhys = d.recPhys := rfl
@[simp] theorem Dev.setGrid_out (d : Dev) (l : Nat) (x : Tab Nat) : (d.setGrid l x).out = d.out := rfl
@[simp] theorem Dev.setGrid_pulses (d : Dev) (l : Nat) (x : Tab Nat) : (d.setGrid l x).pulses = d.pulses := rfl
@[simp] theorem Dev.setGrid_lastDerated (d : Dev) (l : Nat) (x : Tab Nat) : (d.setGrid l x).lastDerated = d.lastDerated := rfl
@[simp] theorem Dev.setGrid_slow (d : Dev) (l : Nat) (x : Tab Nat) : (d.setGrid l x).slow = d.slow := rfl
@[simp] theorem Dev.setGrid_winPend (d : Dev) (l : Nat) (x : Tab Nat) : (d.setGrid l x).winPend = d.winPend := rfl
@[simp] theorem Dev.setGrid_tb (d : Dev) (l : Nat) (x : Tab Nat) : (d.setGrid l x).tb = d.tb := rfl
@[simp] theorem Dev.setGrid_ev (d : Dev) (l : Nat) (x : Tab Nat) : (d.setGrid l x).ev = d.ev := rfl
@[simp] theorem Dev.setGrid_sump (d : Dev) (l : Nat) (x : Tab Nat) : (d.setGrid l x).sump = d.sump := rfl
@[simp] theorem Dev.setGrid_cw (d : Dev) (l : Nat) (x : Tab Nat) : (d.setGrid l x).cw = d.cw := rfl
@[simp] theorem Dev.setGrid_streams (d : Dev) (l : Nat) (x : Tab Nat) : (d.setGrid l x).streams = d.streams := rfl
@[simp] theorem Dev.setGrid_ports (d : Dev) (l : Nat) (x : Tab Nat) : (d.setGrid l x).ports = d.ports := rfl
@[simp] theorem Dev.setGrid_lanes (d : Dev) (l : Nat) (x : Tab Nat) : (d.setGrid l x).lanes = d.lanes := rfl
@[simp] theorem Dev.setGrid_groups (d : Dev) (l : Nat) (x : Tab Nat) : (d.setGrid l x).groups = d.groups := rfl
@[simp] theorem Dev.setGrid_logBuf (d : Dev) (l : Nat) (x : Tab Nat) : (d.setGrid l x).logBuf = d.logBuf := rfl
@[simp] theorem Dev.setGrid_dets (d : Dev) (l : Nat) (x : Tab Nat) : (d.setGrid l x).dets = d.dets := rfl
@[simp] theorem Dev.setGrid_history (d : Dev) (l : Nat) (x : Tab Nat) : (d.setGrid l x).history = d.history := rfl
@[simp] theorem Dev.setGrid_flats (d : Dev) (l : Nat) (x : Tab Nat) : (d.setGrid l x).flats = d.flats := rfl
@[simp] theorem Dev.setGrid_masks (d : Dev) (l : Nat) (x : Tab Nat) : (d.setGrid l x).masks = d.masks := rfl
@[simp] theorem Dev.setGrid_dens (d : Dev) (l : Nat) (x : Tab Nat) : (d.setGrid l x).dens = d.dens := rfl
@[simp] theorem Dev.setGrid_fab (d : Dev) (l : Nat) (x : Tab Nat) : (d.setGrid l x).fab = d.fab := rfl
@[simp] theorem Dev.setGrid_stats (d : Dev) (l : Nat) (x : Tab Nat) : (d.setGrid l x).stats = d.stats := rfl
@[simp] theorem Dev.setGrid_edge (d : Dev) (l : Nat) (x : Tab Nat) : (d.setGrid l x).edge = d.edge := rfl
@[simp] theorem Dev.setGrid_disp (d : Dev) (l : Nat) (x : Tab Nat) : (d.setGrid l x).disp = d.disp := rfl
@[simp] theorem Dev.setGrid_engs (d : Dev) (l : Nat) (x : Tab Nat) : (d.setGrid l x).engs = d.engs := rfl
@[simp] theorem Dev.setGrid_cls (d : Dev) (l : Nat) (x : Tab Nat) : (d.setGrid l x).cls = d.cls := rfl
@[simp] theorem Dev.setGrid_mc (d : Dev) (l : Nat) (x : Tab Nat) : (d.setGrid l x).mc = d.mc := rfl
@[simp] theorem Dev.setGrid_rings (d : Dev) (l : Nat) (x : Tab Nat) : (d.setGrid l x).rings = d.rings := rfl
@[simp] theorem Dev.setGrid_cxs (d : Dev) (l : Nat) (x : Tab Nat) : (d.setGrid l x).cxs = d.cxs := rfl
@[simp] theorem Dev.setGrid_trust (d : Dev) (l : Nat) (x : Tab Nat) : (d.setGrid l x).trust = d.trust := rfl
@[simp] theorem Dev.setGrid_so (d : Dev) (l : Nat) (x : Tab Nat) : (d.setGrid l x).so = d.so := rfl
@[simp] theorem Dev.setGrid_ctxs (d : Dev) (l : Nat) (x : Tab Nat) : (d.setGrid l x).ctxs = d.ctxs := rfl
@[simp] theorem Dev.setGrid_replay (d : Dev) (l : Nat) (x : Tab Nat) : (d.setGrid l x).replay = d.replay := rfl
@[simp] theorem Dev.setGrid_ax (d : Dev) (l : Nat) (x : Tab Nat) : (d.setGrid l x).ax = d.ax := rfl
@[simp] theorem Dev.setGrid_fl (d : Dev) (l : Nat) (x : Tab Nat) : (d.setGrid l x).fl = d.fl := rfl
@[simp] theorem Dev.setGrid_dma (d : Dev) (l : Nat) (x : Tab Nat) : (d.setGrid l x).dma = d.dma := rfl
@[simp] theorem Dev.setGrid_pw (d : Dev) (l : Nat) (x : Tab Nat) : (d.setGrid l x).pw = d.pw := rfl
@[simp] theorem Dev.setGrid_rd (d : Dev) (l : Nat) (x : Tab Nat) (j : Nat) : (d.setGrid l x).rd j = d.rd j := rfl
@[simp] theorem Dev.setGrid_n (d : Dev) (l : Nat) (x : Tab Nat) (j : Nat) : (d.setGrid l x).n j = d.n j := rfl
@[simp] theorem Dev.setGrid_f (d : Dev) (l : Nat) (x : Tab Nat) (j lo len : Nat) : (d.setGrid l x).f j lo len = d.f j lo len := rfl
@[simp] theorem Dev.setGrid_on (d : Dev) (l : Nat) (x : Tab Nat) (j m : Nat) : (d.setGrid l x).on j m = d.on j m := rfl
@[simp] theorem Dev.setGrid_now (d : Dev) (l : Nat) (x : Tab Nat) : (d.setGrid l x).now = d.now := rfl

/-! setDet changes dets only. -/
@[simp] theorem Dev.setDet_regs (d : Dev) (l : Nat) (x : DetSt) : (d.setDet l x).regs = d.regs := rfl
@[simp] theorem Dev.setDet_resp (d : Dev) (l : Nat) (x : DetSt) : (d.setDet l x).resp = d.resp := rfl
@[simp] theorem Dev.setDet_arms (d : Dev) (l : Nat) (x : DetSt) : (d.setDet l x).arms = d.arms := rfl
@[simp] theorem Dev.setDet_shadow (d : Dev) (l : Nat) (x : DetSt) : (d.setDet l x).shadow = d.shadow := rfl
@[simp] theorem Dev.setDet_lows (d : Dev) (l : Nat) (x : DetSt) : (d.setDet l x).lows = d.lows := rfl
@[simp] theorem Dev.setDet_inflight (d : Dev) (l : Nat) (x : DetSt) : (d.setDet l x).inflight = d.inflight := rfl
@[simp] theorem Dev.setDet_fresh (d : Dev) (l : Nat) (x : DetSt) : (d.setDet l x).fresh = d.fresh := rfl
@[simp] theorem Dev.setDet_recSeq (d : Dev) (l : Nat) (x : DetSt) : (d.setDet l x).recSeq = d.recSeq := rfl
@[simp] theorem Dev.setDet_recPhys (d : Dev) (l : Nat) (x : DetSt) : (d.setDet l x).recPhys = d.recPhys := rfl
@[simp] theorem Dev.setDet_out (d : Dev) (l : Nat) (x : DetSt) : (d.setDet l x).out = d.out := rfl
@[simp] theorem Dev.setDet_pulses (d : Dev) (l : Nat) (x : DetSt) : (d.setDet l x).pulses = d.pulses := rfl
@[simp] theorem Dev.setDet_lastDerated (d : Dev) (l : Nat) (x : DetSt) : (d.setDet l x).lastDerated = d.lastDerated := rfl
@[simp] theorem Dev.setDet_slow (d : Dev) (l : Nat) (x : DetSt) : (d.setDet l x).slow = d.slow := rfl
@[simp] theorem Dev.setDet_winPend (d : Dev) (l : Nat) (x : DetSt) : (d.setDet l x).winPend = d.winPend := rfl
@[simp] theorem Dev.setDet_tb (d : Dev) (l : Nat) (x : DetSt) : (d.setDet l x).tb = d.tb := rfl
@[simp] theorem Dev.setDet_ev (d : Dev) (l : Nat) (x : DetSt) : (d.setDet l x).ev = d.ev := rfl
@[simp] theorem Dev.setDet_sump (d : Dev) (l : Nat) (x : DetSt) : (d.setDet l x).sump = d.sump := rfl
@[simp] theorem Dev.setDet_cw (d : Dev) (l : Nat) (x : DetSt) : (d.setDet l x).cw = d.cw := rfl
@[simp] theorem Dev.setDet_streams (d : Dev) (l : Nat) (x : DetSt) : (d.setDet l x).streams = d.streams := rfl
@[simp] theorem Dev.setDet_ports (d : Dev) (l : Nat) (x : DetSt) : (d.setDet l x).ports = d.ports := rfl
@[simp] theorem Dev.setDet_lanes (d : Dev) (l : Nat) (x : DetSt) : (d.setDet l x).lanes = d.lanes := rfl
@[simp] theorem Dev.setDet_groups (d : Dev) (l : Nat) (x : DetSt) : (d.setDet l x).groups = d.groups := rfl
@[simp] theorem Dev.setDet_logBuf (d : Dev) (l : Nat) (x : DetSt) : (d.setDet l x).logBuf = d.logBuf := rfl
@[simp] theorem Dev.setDet_history (d : Dev) (l : Nat) (x : DetSt) : (d.setDet l x).history = d.history := rfl
@[simp] theorem Dev.setDet_flats (d : Dev) (l : Nat) (x : DetSt) : (d.setDet l x).flats = d.flats := rfl
@[simp] theorem Dev.setDet_masks (d : Dev) (l : Nat) (x : DetSt) : (d.setDet l x).masks = d.masks := rfl
@[simp] theorem Dev.setDet_dens (d : Dev) (l : Nat) (x : DetSt) : (d.setDet l x).dens = d.dens := rfl
@[simp] theorem Dev.setDet_grids (d : Dev) (l : Nat) (x : DetSt) : (d.setDet l x).grids = d.grids := rfl
@[simp] theorem Dev.setDet_fab (d : Dev) (l : Nat) (x : DetSt) : (d.setDet l x).fab = d.fab := rfl
@[simp] theorem Dev.setDet_stats (d : Dev) (l : Nat) (x : DetSt) : (d.setDet l x).stats = d.stats := rfl
@[simp] theorem Dev.setDet_edge (d : Dev) (l : Nat) (x : DetSt) : (d.setDet l x).edge = d.edge := rfl
@[simp] theorem Dev.setDet_disp (d : Dev) (l : Nat) (x : DetSt) : (d.setDet l x).disp = d.disp := rfl
@[simp] theorem Dev.setDet_engs (d : Dev) (l : Nat) (x : DetSt) : (d.setDet l x).engs = d.engs := rfl
@[simp] theorem Dev.setDet_cls (d : Dev) (l : Nat) (x : DetSt) : (d.setDet l x).cls = d.cls := rfl
@[simp] theorem Dev.setDet_mc (d : Dev) (l : Nat) (x : DetSt) : (d.setDet l x).mc = d.mc := rfl
@[simp] theorem Dev.setDet_rings (d : Dev) (l : Nat) (x : DetSt) : (d.setDet l x).rings = d.rings := rfl
@[simp] theorem Dev.setDet_cxs (d : Dev) (l : Nat) (x : DetSt) : (d.setDet l x).cxs = d.cxs := rfl
@[simp] theorem Dev.setDet_trust (d : Dev) (l : Nat) (x : DetSt) : (d.setDet l x).trust = d.trust := rfl
@[simp] theorem Dev.setDet_so (d : Dev) (l : Nat) (x : DetSt) : (d.setDet l x).so = d.so := rfl
@[simp] theorem Dev.setDet_ctxs (d : Dev) (l : Nat) (x : DetSt) : (d.setDet l x).ctxs = d.ctxs := rfl
@[simp] theorem Dev.setDet_replay (d : Dev) (l : Nat) (x : DetSt) : (d.setDet l x).replay = d.replay := rfl
@[simp] theorem Dev.setDet_ax (d : Dev) (l : Nat) (x : DetSt) : (d.setDet l x).ax = d.ax := rfl
@[simp] theorem Dev.setDet_fl (d : Dev) (l : Nat) (x : DetSt) : (d.setDet l x).fl = d.fl := rfl
@[simp] theorem Dev.setDet_dma (d : Dev) (l : Nat) (x : DetSt) : (d.setDet l x).dma = d.dma := rfl
@[simp] theorem Dev.setDet_pw (d : Dev) (l : Nat) (x : DetSt) : (d.setDet l x).pw = d.pw := rfl
@[simp] theorem Dev.setDet_rd (d : Dev) (l : Nat) (x : DetSt) (j : Nat) : (d.setDet l x).rd j = d.rd j := rfl
@[simp] theorem Dev.setDet_n (d : Dev) (l : Nat) (x : DetSt) (j : Nat) : (d.setDet l x).n j = d.n j := rfl
@[simp] theorem Dev.setDet_f (d : Dev) (l : Nat) (x : DetSt) (j lo len : Nat) : (d.setDet l x).f j lo len = d.f j lo len := rfl
@[simp] theorem Dev.setDet_on (d : Dev) (l : Nat) (x : DetSt) (j m : Nat) : (d.setDet l x).on j m = d.on j m := rfl
@[simp] theorem Dev.setDet_now (d : Dev) (l : Nat) (x : DetSt) : (d.setDet l x).now = d.now := rfl

/-! setHist changes history only. -/
@[simp] theorem Dev.setHist_regs (d : Dev) (l : Nat) (x : Nat × List (List Nat)) : (d.setHist l x).regs = d.regs := rfl
@[simp] theorem Dev.setHist_resp (d : Dev) (l : Nat) (x : Nat × List (List Nat)) : (d.setHist l x).resp = d.resp := rfl
@[simp] theorem Dev.setHist_arms (d : Dev) (l : Nat) (x : Nat × List (List Nat)) : (d.setHist l x).arms = d.arms := rfl
@[simp] theorem Dev.setHist_shadow (d : Dev) (l : Nat) (x : Nat × List (List Nat)) : (d.setHist l x).shadow = d.shadow := rfl
@[simp] theorem Dev.setHist_lows (d : Dev) (l : Nat) (x : Nat × List (List Nat)) : (d.setHist l x).lows = d.lows := rfl
@[simp] theorem Dev.setHist_inflight (d : Dev) (l : Nat) (x : Nat × List (List Nat)) : (d.setHist l x).inflight = d.inflight := rfl
@[simp] theorem Dev.setHist_fresh (d : Dev) (l : Nat) (x : Nat × List (List Nat)) : (d.setHist l x).fresh = d.fresh := rfl
@[simp] theorem Dev.setHist_recSeq (d : Dev) (l : Nat) (x : Nat × List (List Nat)) : (d.setHist l x).recSeq = d.recSeq := rfl
@[simp] theorem Dev.setHist_recPhys (d : Dev) (l : Nat) (x : Nat × List (List Nat)) : (d.setHist l x).recPhys = d.recPhys := rfl
@[simp] theorem Dev.setHist_out (d : Dev) (l : Nat) (x : Nat × List (List Nat)) : (d.setHist l x).out = d.out := rfl
@[simp] theorem Dev.setHist_pulses (d : Dev) (l : Nat) (x : Nat × List (List Nat)) : (d.setHist l x).pulses = d.pulses := rfl
@[simp] theorem Dev.setHist_lastDerated (d : Dev) (l : Nat) (x : Nat × List (List Nat)) : (d.setHist l x).lastDerated = d.lastDerated := rfl
@[simp] theorem Dev.setHist_slow (d : Dev) (l : Nat) (x : Nat × List (List Nat)) : (d.setHist l x).slow = d.slow := rfl
@[simp] theorem Dev.setHist_winPend (d : Dev) (l : Nat) (x : Nat × List (List Nat)) : (d.setHist l x).winPend = d.winPend := rfl
@[simp] theorem Dev.setHist_tb (d : Dev) (l : Nat) (x : Nat × List (List Nat)) : (d.setHist l x).tb = d.tb := rfl
@[simp] theorem Dev.setHist_ev (d : Dev) (l : Nat) (x : Nat × List (List Nat)) : (d.setHist l x).ev = d.ev := rfl
@[simp] theorem Dev.setHist_sump (d : Dev) (l : Nat) (x : Nat × List (List Nat)) : (d.setHist l x).sump = d.sump := rfl
@[simp] theorem Dev.setHist_cw (d : Dev) (l : Nat) (x : Nat × List (List Nat)) : (d.setHist l x).cw = d.cw := rfl
@[simp] theorem Dev.setHist_streams (d : Dev) (l : Nat) (x : Nat × List (List Nat)) : (d.setHist l x).streams = d.streams := rfl
@[simp] theorem Dev.setHist_ports (d : Dev) (l : Nat) (x : Nat × List (List Nat)) : (d.setHist l x).ports = d.ports := rfl
@[simp] theorem Dev.setHist_lanes (d : Dev) (l : Nat) (x : Nat × List (List Nat)) : (d.setHist l x).lanes = d.lanes := rfl
@[simp] theorem Dev.setHist_groups (d : Dev) (l : Nat) (x : Nat × List (List Nat)) : (d.setHist l x).groups = d.groups := rfl
@[simp] theorem Dev.setHist_logBuf (d : Dev) (l : Nat) (x : Nat × List (List Nat)) : (d.setHist l x).logBuf = d.logBuf := rfl
@[simp] theorem Dev.setHist_dets (d : Dev) (l : Nat) (x : Nat × List (List Nat)) : (d.setHist l x).dets = d.dets := rfl
@[simp] theorem Dev.setHist_flats (d : Dev) (l : Nat) (x : Nat × List (List Nat)) : (d.setHist l x).flats = d.flats := rfl
@[simp] theorem Dev.setHist_masks (d : Dev) (l : Nat) (x : Nat × List (List Nat)) : (d.setHist l x).masks = d.masks := rfl
@[simp] theorem Dev.setHist_dens (d : Dev) (l : Nat) (x : Nat × List (List Nat)) : (d.setHist l x).dens = d.dens := rfl
@[simp] theorem Dev.setHist_grids (d : Dev) (l : Nat) (x : Nat × List (List Nat)) : (d.setHist l x).grids = d.grids := rfl
@[simp] theorem Dev.setHist_fab (d : Dev) (l : Nat) (x : Nat × List (List Nat)) : (d.setHist l x).fab = d.fab := rfl
@[simp] theorem Dev.setHist_stats (d : Dev) (l : Nat) (x : Nat × List (List Nat)) : (d.setHist l x).stats = d.stats := rfl
@[simp] theorem Dev.setHist_edge (d : Dev) (l : Nat) (x : Nat × List (List Nat)) : (d.setHist l x).edge = d.edge := rfl
@[simp] theorem Dev.setHist_disp (d : Dev) (l : Nat) (x : Nat × List (List Nat)) : (d.setHist l x).disp = d.disp := rfl
@[simp] theorem Dev.setHist_engs (d : Dev) (l : Nat) (x : Nat × List (List Nat)) : (d.setHist l x).engs = d.engs := rfl
@[simp] theorem Dev.setHist_cls (d : Dev) (l : Nat) (x : Nat × List (List Nat)) : (d.setHist l x).cls = d.cls := rfl
@[simp] theorem Dev.setHist_mc (d : Dev) (l : Nat) (x : Nat × List (List Nat)) : (d.setHist l x).mc = d.mc := rfl
@[simp] theorem Dev.setHist_rings (d : Dev) (l : Nat) (x : Nat × List (List Nat)) : (d.setHist l x).rings = d.rings := rfl
@[simp] theorem Dev.setHist_cxs (d : Dev) (l : Nat) (x : Nat × List (List Nat)) : (d.setHist l x).cxs = d.cxs := rfl
@[simp] theorem Dev.setHist_trust (d : Dev) (l : Nat) (x : Nat × List (List Nat)) : (d.setHist l x).trust = d.trust := rfl
@[simp] theorem Dev.setHist_so (d : Dev) (l : Nat) (x : Nat × List (List Nat)) : (d.setHist l x).so = d.so := rfl
@[simp] theorem Dev.setHist_ctxs (d : Dev) (l : Nat) (x : Nat × List (List Nat)) : (d.setHist l x).ctxs = d.ctxs := rfl
@[simp] theorem Dev.setHist_replay (d : Dev) (l : Nat) (x : Nat × List (List Nat)) : (d.setHist l x).replay = d.replay := rfl
@[simp] theorem Dev.setHist_ax (d : Dev) (l : Nat) (x : Nat × List (List Nat)) : (d.setHist l x).ax = d.ax := rfl
@[simp] theorem Dev.setHist_fl (d : Dev) (l : Nat) (x : Nat × List (List Nat)) : (d.setHist l x).fl = d.fl := rfl
@[simp] theorem Dev.setHist_dma (d : Dev) (l : Nat) (x : Nat × List (List Nat)) : (d.setHist l x).dma = d.dma := rfl
@[simp] theorem Dev.setHist_pw (d : Dev) (l : Nat) (x : Nat × List (List Nat)) : (d.setHist l x).pw = d.pw := rfl
@[simp] theorem Dev.setHist_rd (d : Dev) (l : Nat) (x : Nat × List (List Nat)) (j : Nat) : (d.setHist l x).rd j = d.rd j := rfl
@[simp] theorem Dev.setHist_n (d : Dev) (l : Nat) (x : Nat × List (List Nat)) (j : Nat) : (d.setHist l x).n j = d.n j := rfl
@[simp] theorem Dev.setHist_f (d : Dev) (l : Nat) (x : Nat × List (List Nat)) (j lo len : Nat) : (d.setHist l x).f j lo len = d.f j lo len := rfl
@[simp] theorem Dev.setHist_on (d : Dev) (l : Nat) (x : Nat × List (List Nat)) (j m : Nat) : (d.setHist l x).on j m = d.on j m := rfl
@[simp] theorem Dev.setHist_now (d : Dev) (l : Nat) (x : Nat × List (List Nat)) : (d.setHist l x).now = d.now := rfl

/-! setFlat changes flats only. -/
@[simp] theorem Dev.setFlat_regs (d : Dev) (g : Nat) (x : FlatSt) : (d.setFlat g x).regs = d.regs := rfl
@[simp] theorem Dev.setFlat_resp (d : Dev) (g : Nat) (x : FlatSt) : (d.setFlat g x).resp = d.resp := rfl
@[simp] theorem Dev.setFlat_arms (d : Dev) (g : Nat) (x : FlatSt) : (d.setFlat g x).arms = d.arms := rfl
@[simp] theorem Dev.setFlat_shadow (d : Dev) (g : Nat) (x : FlatSt) : (d.setFlat g x).shadow = d.shadow := rfl
@[simp] theorem Dev.setFlat_lows (d : Dev) (g : Nat) (x : FlatSt) : (d.setFlat g x).lows = d.lows := rfl
@[simp] theorem Dev.setFlat_inflight (d : Dev) (g : Nat) (x : FlatSt) : (d.setFlat g x).inflight = d.inflight := rfl
@[simp] theorem Dev.setFlat_fresh (d : Dev) (g : Nat) (x : FlatSt) : (d.setFlat g x).fresh = d.fresh := rfl
@[simp] theorem Dev.setFlat_recSeq (d : Dev) (g : Nat) (x : FlatSt) : (d.setFlat g x).recSeq = d.recSeq := rfl
@[simp] theorem Dev.setFlat_recPhys (d : Dev) (g : Nat) (x : FlatSt) : (d.setFlat g x).recPhys = d.recPhys := rfl
@[simp] theorem Dev.setFlat_out (d : Dev) (g : Nat) (x : FlatSt) : (d.setFlat g x).out = d.out := rfl
@[simp] theorem Dev.setFlat_pulses (d : Dev) (g : Nat) (x : FlatSt) : (d.setFlat g x).pulses = d.pulses := rfl
@[simp] theorem Dev.setFlat_lastDerated (d : Dev) (g : Nat) (x : FlatSt) : (d.setFlat g x).lastDerated = d.lastDerated := rfl
@[simp] theorem Dev.setFlat_slow (d : Dev) (g : Nat) (x : FlatSt) : (d.setFlat g x).slow = d.slow := rfl
@[simp] theorem Dev.setFlat_winPend (d : Dev) (g : Nat) (x : FlatSt) : (d.setFlat g x).winPend = d.winPend := rfl
@[simp] theorem Dev.setFlat_tb (d : Dev) (g : Nat) (x : FlatSt) : (d.setFlat g x).tb = d.tb := rfl
@[simp] theorem Dev.setFlat_ev (d : Dev) (g : Nat) (x : FlatSt) : (d.setFlat g x).ev = d.ev := rfl
@[simp] theorem Dev.setFlat_sump (d : Dev) (g : Nat) (x : FlatSt) : (d.setFlat g x).sump = d.sump := rfl
@[simp] theorem Dev.setFlat_cw (d : Dev) (g : Nat) (x : FlatSt) : (d.setFlat g x).cw = d.cw := rfl
@[simp] theorem Dev.setFlat_streams (d : Dev) (g : Nat) (x : FlatSt) : (d.setFlat g x).streams = d.streams := rfl
@[simp] theorem Dev.setFlat_ports (d : Dev) (g : Nat) (x : FlatSt) : (d.setFlat g x).ports = d.ports := rfl
@[simp] theorem Dev.setFlat_lanes (d : Dev) (g : Nat) (x : FlatSt) : (d.setFlat g x).lanes = d.lanes := rfl
@[simp] theorem Dev.setFlat_groups (d : Dev) (g : Nat) (x : FlatSt) : (d.setFlat g x).groups = d.groups := rfl
@[simp] theorem Dev.setFlat_logBuf (d : Dev) (g : Nat) (x : FlatSt) : (d.setFlat g x).logBuf = d.logBuf := rfl
@[simp] theorem Dev.setFlat_dets (d : Dev) (g : Nat) (x : FlatSt) : (d.setFlat g x).dets = d.dets := rfl
@[simp] theorem Dev.setFlat_history (d : Dev) (g : Nat) (x : FlatSt) : (d.setFlat g x).history = d.history := rfl
@[simp] theorem Dev.setFlat_masks (d : Dev) (g : Nat) (x : FlatSt) : (d.setFlat g x).masks = d.masks := rfl
@[simp] theorem Dev.setFlat_dens (d : Dev) (g : Nat) (x : FlatSt) : (d.setFlat g x).dens = d.dens := rfl
@[simp] theorem Dev.setFlat_grids (d : Dev) (g : Nat) (x : FlatSt) : (d.setFlat g x).grids = d.grids := rfl
@[simp] theorem Dev.setFlat_fab (d : Dev) (g : Nat) (x : FlatSt) : (d.setFlat g x).fab = d.fab := rfl
@[simp] theorem Dev.setFlat_stats (d : Dev) (g : Nat) (x : FlatSt) : (d.setFlat g x).stats = d.stats := rfl
@[simp] theorem Dev.setFlat_edge (d : Dev) (g : Nat) (x : FlatSt) : (d.setFlat g x).edge = d.edge := rfl
@[simp] theorem Dev.setFlat_disp (d : Dev) (g : Nat) (x : FlatSt) : (d.setFlat g x).disp = d.disp := rfl
@[simp] theorem Dev.setFlat_engs (d : Dev) (g : Nat) (x : FlatSt) : (d.setFlat g x).engs = d.engs := rfl
@[simp] theorem Dev.setFlat_cls (d : Dev) (g : Nat) (x : FlatSt) : (d.setFlat g x).cls = d.cls := rfl
@[simp] theorem Dev.setFlat_mc (d : Dev) (g : Nat) (x : FlatSt) : (d.setFlat g x).mc = d.mc := rfl
@[simp] theorem Dev.setFlat_rings (d : Dev) (g : Nat) (x : FlatSt) : (d.setFlat g x).rings = d.rings := rfl
@[simp] theorem Dev.setFlat_cxs (d : Dev) (g : Nat) (x : FlatSt) : (d.setFlat g x).cxs = d.cxs := rfl
@[simp] theorem Dev.setFlat_trust (d : Dev) (g : Nat) (x : FlatSt) : (d.setFlat g x).trust = d.trust := rfl
@[simp] theorem Dev.setFlat_so (d : Dev) (g : Nat) (x : FlatSt) : (d.setFlat g x).so = d.so := rfl
@[simp] theorem Dev.setFlat_ctxs (d : Dev) (g : Nat) (x : FlatSt) : (d.setFlat g x).ctxs = d.ctxs := rfl
@[simp] theorem Dev.setFlat_replay (d : Dev) (g : Nat) (x : FlatSt) : (d.setFlat g x).replay = d.replay := rfl
@[simp] theorem Dev.setFlat_ax (d : Dev) (g : Nat) (x : FlatSt) : (d.setFlat g x).ax = d.ax := rfl
@[simp] theorem Dev.setFlat_fl (d : Dev) (g : Nat) (x : FlatSt) : (d.setFlat g x).fl = d.fl := rfl
@[simp] theorem Dev.setFlat_dma (d : Dev) (g : Nat) (x : FlatSt) : (d.setFlat g x).dma = d.dma := rfl
@[simp] theorem Dev.setFlat_pw (d : Dev) (g : Nat) (x : FlatSt) : (d.setFlat g x).pw = d.pw := rfl
@[simp] theorem Dev.setFlat_rd (d : Dev) (g : Nat) (x : FlatSt) (j : Nat) : (d.setFlat g x).rd j = d.rd j := rfl
@[simp] theorem Dev.setFlat_n (d : Dev) (g : Nat) (x : FlatSt) (j : Nat) : (d.setFlat g x).n j = d.n j := rfl
@[simp] theorem Dev.setFlat_f (d : Dev) (g : Nat) (x : FlatSt) (j lo len : Nat) : (d.setFlat g x).f j lo len = d.f j lo len := rfl
@[simp] theorem Dev.setFlat_on (d : Dev) (g : Nat) (x : FlatSt) (j m : Nat) : (d.setFlat g x).on j m = d.on j m := rfl
@[simp] theorem Dev.setFlat_now (d : Dev) (g : Nat) (x : FlatSt) : (d.setFlat g x).now = d.now := rfl

/-! setDisp changes disp only. -/
@[simp] theorem Dev.setDisp_regs (d : Dev) (x : DispSt) : (d.setDisp x).regs = d.regs := rfl
@[simp] theorem Dev.setDisp_resp (d : Dev) (x : DispSt) : (d.setDisp x).resp = d.resp := rfl
@[simp] theorem Dev.setDisp_arms (d : Dev) (x : DispSt) : (d.setDisp x).arms = d.arms := rfl
@[simp] theorem Dev.setDisp_shadow (d : Dev) (x : DispSt) : (d.setDisp x).shadow = d.shadow := rfl
@[simp] theorem Dev.setDisp_lows (d : Dev) (x : DispSt) : (d.setDisp x).lows = d.lows := rfl
@[simp] theorem Dev.setDisp_inflight (d : Dev) (x : DispSt) : (d.setDisp x).inflight = d.inflight := rfl
@[simp] theorem Dev.setDisp_fresh (d : Dev) (x : DispSt) : (d.setDisp x).fresh = d.fresh := rfl
@[simp] theorem Dev.setDisp_recSeq (d : Dev) (x : DispSt) : (d.setDisp x).recSeq = d.recSeq := rfl
@[simp] theorem Dev.setDisp_recPhys (d : Dev) (x : DispSt) : (d.setDisp x).recPhys = d.recPhys := rfl
@[simp] theorem Dev.setDisp_out (d : Dev) (x : DispSt) : (d.setDisp x).out = d.out := rfl
@[simp] theorem Dev.setDisp_pulses (d : Dev) (x : DispSt) : (d.setDisp x).pulses = d.pulses := rfl
@[simp] theorem Dev.setDisp_lastDerated (d : Dev) (x : DispSt) : (d.setDisp x).lastDerated = d.lastDerated := rfl
@[simp] theorem Dev.setDisp_slow (d : Dev) (x : DispSt) : (d.setDisp x).slow = d.slow := rfl
@[simp] theorem Dev.setDisp_winPend (d : Dev) (x : DispSt) : (d.setDisp x).winPend = d.winPend := rfl
@[simp] theorem Dev.setDisp_tb (d : Dev) (x : DispSt) : (d.setDisp x).tb = d.tb := rfl
@[simp] theorem Dev.setDisp_ev (d : Dev) (x : DispSt) : (d.setDisp x).ev = d.ev := rfl
@[simp] theorem Dev.setDisp_sump (d : Dev) (x : DispSt) : (d.setDisp x).sump = d.sump := rfl
@[simp] theorem Dev.setDisp_cw (d : Dev) (x : DispSt) : (d.setDisp x).cw = d.cw := rfl
@[simp] theorem Dev.setDisp_streams (d : Dev) (x : DispSt) : (d.setDisp x).streams = d.streams := rfl
@[simp] theorem Dev.setDisp_ports (d : Dev) (x : DispSt) : (d.setDisp x).ports = d.ports := rfl
@[simp] theorem Dev.setDisp_lanes (d : Dev) (x : DispSt) : (d.setDisp x).lanes = d.lanes := rfl
@[simp] theorem Dev.setDisp_groups (d : Dev) (x : DispSt) : (d.setDisp x).groups = d.groups := rfl
@[simp] theorem Dev.setDisp_logBuf (d : Dev) (x : DispSt) : (d.setDisp x).logBuf = d.logBuf := rfl
@[simp] theorem Dev.setDisp_dets (d : Dev) (x : DispSt) : (d.setDisp x).dets = d.dets := rfl
@[simp] theorem Dev.setDisp_history (d : Dev) (x : DispSt) : (d.setDisp x).history = d.history := rfl
@[simp] theorem Dev.setDisp_flats (d : Dev) (x : DispSt) : (d.setDisp x).flats = d.flats := rfl
@[simp] theorem Dev.setDisp_masks (d : Dev) (x : DispSt) : (d.setDisp x).masks = d.masks := rfl
@[simp] theorem Dev.setDisp_dens (d : Dev) (x : DispSt) : (d.setDisp x).dens = d.dens := rfl
@[simp] theorem Dev.setDisp_grids (d : Dev) (x : DispSt) : (d.setDisp x).grids = d.grids := rfl
@[simp] theorem Dev.setDisp_fab (d : Dev) (x : DispSt) : (d.setDisp x).fab = d.fab := rfl
@[simp] theorem Dev.setDisp_stats (d : Dev) (x : DispSt) : (d.setDisp x).stats = d.stats := rfl
@[simp] theorem Dev.setDisp_edge (d : Dev) (x : DispSt) : (d.setDisp x).edge = d.edge := rfl
@[simp] theorem Dev.setDisp_engs (d : Dev) (x : DispSt) : (d.setDisp x).engs = d.engs := rfl
@[simp] theorem Dev.setDisp_cls (d : Dev) (x : DispSt) : (d.setDisp x).cls = d.cls := rfl
@[simp] theorem Dev.setDisp_mc (d : Dev) (x : DispSt) : (d.setDisp x).mc = d.mc := rfl
@[simp] theorem Dev.setDisp_rings (d : Dev) (x : DispSt) : (d.setDisp x).rings = d.rings := rfl
@[simp] theorem Dev.setDisp_cxs (d : Dev) (x : DispSt) : (d.setDisp x).cxs = d.cxs := rfl
@[simp] theorem Dev.setDisp_trust (d : Dev) (x : DispSt) : (d.setDisp x).trust = d.trust := rfl
@[simp] theorem Dev.setDisp_so (d : Dev) (x : DispSt) : (d.setDisp x).so = d.so := rfl
@[simp] theorem Dev.setDisp_ctxs (d : Dev) (x : DispSt) : (d.setDisp x).ctxs = d.ctxs := rfl
@[simp] theorem Dev.setDisp_replay (d : Dev) (x : DispSt) : (d.setDisp x).replay = d.replay := rfl
@[simp] theorem Dev.setDisp_ax (d : Dev) (x : DispSt) : (d.setDisp x).ax = d.ax := rfl
@[simp] theorem Dev.setDisp_fl (d : Dev) (x : DispSt) : (d.setDisp x).fl = d.fl := rfl
@[simp] theorem Dev.setDisp_dma (d : Dev) (x : DispSt) : (d.setDisp x).dma = d.dma := rfl
@[simp] theorem Dev.setDisp_pw (d : Dev) (x : DispSt) : (d.setDisp x).pw = d.pw := rfl
@[simp] theorem Dev.setDisp_rd (d : Dev) (x : DispSt) (j : Nat) : (d.setDisp x).rd j = d.rd j := rfl
@[simp] theorem Dev.setDisp_n (d : Dev) (x : DispSt) (j : Nat) : (d.setDisp x).n j = d.n j := rfl
@[simp] theorem Dev.setDisp_f (d : Dev) (x : DispSt) (j lo len : Nat) : (d.setDisp x).f j lo len = d.f j lo len := rfl
@[simp] theorem Dev.setDisp_on (d : Dev) (x : DispSt) (j m : Nat) : (d.setDisp x).on j m = d.on j m := rfl
@[simp] theorem Dev.setDisp_now (d : Dev) (x : DispSt) : (d.setDisp x).now = d.now := rfl

/-! setDma changes dma only. -/
@[simp] theorem Dev.setDma_regs (d : Dev) (c : Nat) (x : DmaCh) : (d.setDma c x).regs = d.regs := rfl
@[simp] theorem Dev.setDma_resp (d : Dev) (c : Nat) (x : DmaCh) : (d.setDma c x).resp = d.resp := rfl
@[simp] theorem Dev.setDma_arms (d : Dev) (c : Nat) (x : DmaCh) : (d.setDma c x).arms = d.arms := rfl
@[simp] theorem Dev.setDma_shadow (d : Dev) (c : Nat) (x : DmaCh) : (d.setDma c x).shadow = d.shadow := rfl
@[simp] theorem Dev.setDma_lows (d : Dev) (c : Nat) (x : DmaCh) : (d.setDma c x).lows = d.lows := rfl
@[simp] theorem Dev.setDma_inflight (d : Dev) (c : Nat) (x : DmaCh) : (d.setDma c x).inflight = d.inflight := rfl
@[simp] theorem Dev.setDma_fresh (d : Dev) (c : Nat) (x : DmaCh) : (d.setDma c x).fresh = d.fresh := rfl
@[simp] theorem Dev.setDma_recSeq (d : Dev) (c : Nat) (x : DmaCh) : (d.setDma c x).recSeq = d.recSeq := rfl
@[simp] theorem Dev.setDma_recPhys (d : Dev) (c : Nat) (x : DmaCh) : (d.setDma c x).recPhys = d.recPhys := rfl
@[simp] theorem Dev.setDma_out (d : Dev) (c : Nat) (x : DmaCh) : (d.setDma c x).out = d.out := rfl
@[simp] theorem Dev.setDma_pulses (d : Dev) (c : Nat) (x : DmaCh) : (d.setDma c x).pulses = d.pulses := rfl
@[simp] theorem Dev.setDma_lastDerated (d : Dev) (c : Nat) (x : DmaCh) : (d.setDma c x).lastDerated = d.lastDerated := rfl
@[simp] theorem Dev.setDma_slow (d : Dev) (c : Nat) (x : DmaCh) : (d.setDma c x).slow = d.slow := rfl
@[simp] theorem Dev.setDma_winPend (d : Dev) (c : Nat) (x : DmaCh) : (d.setDma c x).winPend = d.winPend := rfl
@[simp] theorem Dev.setDma_tb (d : Dev) (c : Nat) (x : DmaCh) : (d.setDma c x).tb = d.tb := rfl
@[simp] theorem Dev.setDma_ev (d : Dev) (c : Nat) (x : DmaCh) : (d.setDma c x).ev = d.ev := rfl
@[simp] theorem Dev.setDma_sump (d : Dev) (c : Nat) (x : DmaCh) : (d.setDma c x).sump = d.sump := rfl
@[simp] theorem Dev.setDma_cw (d : Dev) (c : Nat) (x : DmaCh) : (d.setDma c x).cw = d.cw := rfl
@[simp] theorem Dev.setDma_streams (d : Dev) (c : Nat) (x : DmaCh) : (d.setDma c x).streams = d.streams := rfl
@[simp] theorem Dev.setDma_ports (d : Dev) (c : Nat) (x : DmaCh) : (d.setDma c x).ports = d.ports := rfl
@[simp] theorem Dev.setDma_lanes (d : Dev) (c : Nat) (x : DmaCh) : (d.setDma c x).lanes = d.lanes := rfl
@[simp] theorem Dev.setDma_groups (d : Dev) (c : Nat) (x : DmaCh) : (d.setDma c x).groups = d.groups := rfl
@[simp] theorem Dev.setDma_logBuf (d : Dev) (c : Nat) (x : DmaCh) : (d.setDma c x).logBuf = d.logBuf := rfl
@[simp] theorem Dev.setDma_dets (d : Dev) (c : Nat) (x : DmaCh) : (d.setDma c x).dets = d.dets := rfl
@[simp] theorem Dev.setDma_history (d : Dev) (c : Nat) (x : DmaCh) : (d.setDma c x).history = d.history := rfl
@[simp] theorem Dev.setDma_flats (d : Dev) (c : Nat) (x : DmaCh) : (d.setDma c x).flats = d.flats := rfl
@[simp] theorem Dev.setDma_masks (d : Dev) (c : Nat) (x : DmaCh) : (d.setDma c x).masks = d.masks := rfl
@[simp] theorem Dev.setDma_dens (d : Dev) (c : Nat) (x : DmaCh) : (d.setDma c x).dens = d.dens := rfl
@[simp] theorem Dev.setDma_grids (d : Dev) (c : Nat) (x : DmaCh) : (d.setDma c x).grids = d.grids := rfl
@[simp] theorem Dev.setDma_fab (d : Dev) (c : Nat) (x : DmaCh) : (d.setDma c x).fab = d.fab := rfl
@[simp] theorem Dev.setDma_stats (d : Dev) (c : Nat) (x : DmaCh) : (d.setDma c x).stats = d.stats := rfl
@[simp] theorem Dev.setDma_edge (d : Dev) (c : Nat) (x : DmaCh) : (d.setDma c x).edge = d.edge := rfl
@[simp] theorem Dev.setDma_disp (d : Dev) (c : Nat) (x : DmaCh) : (d.setDma c x).disp = d.disp := rfl
@[simp] theorem Dev.setDma_engs (d : Dev) (c : Nat) (x : DmaCh) : (d.setDma c x).engs = d.engs := rfl
@[simp] theorem Dev.setDma_cls (d : Dev) (c : Nat) (x : DmaCh) : (d.setDma c x).cls = d.cls := rfl
@[simp] theorem Dev.setDma_mc (d : Dev) (c : Nat) (x : DmaCh) : (d.setDma c x).mc = d.mc := rfl
@[simp] theorem Dev.setDma_rings (d : Dev) (c : Nat) (x : DmaCh) : (d.setDma c x).rings = d.rings := rfl
@[simp] theorem Dev.setDma_cxs (d : Dev) (c : Nat) (x : DmaCh) : (d.setDma c x).cxs = d.cxs := rfl
@[simp] theorem Dev.setDma_trust (d : Dev) (c : Nat) (x : DmaCh) : (d.setDma c x).trust = d.trust := rfl
@[simp] theorem Dev.setDma_so (d : Dev) (c : Nat) (x : DmaCh) : (d.setDma c x).so = d.so := rfl
@[simp] theorem Dev.setDma_ctxs (d : Dev) (c : Nat) (x : DmaCh) : (d.setDma c x).ctxs = d.ctxs := rfl
@[simp] theorem Dev.setDma_replay (d : Dev) (c : Nat) (x : DmaCh) : (d.setDma c x).replay = d.replay := rfl
@[simp] theorem Dev.setDma_ax (d : Dev) (c : Nat) (x : DmaCh) : (d.setDma c x).ax = d.ax := rfl
@[simp] theorem Dev.setDma_fl (d : Dev) (c : Nat) (x : DmaCh) : (d.setDma c x).fl = d.fl := rfl
@[simp] theorem Dev.setDma_pw (d : Dev) (c : Nat) (x : DmaCh) : (d.setDma c x).pw = d.pw := rfl
@[simp] theorem Dev.setDma_rd (d : Dev) (c : Nat) (x : DmaCh) (j : Nat) : (d.setDma c x).rd j = d.rd j := rfl
@[simp] theorem Dev.setDma_n (d : Dev) (c : Nat) (x : DmaCh) (j : Nat) : (d.setDma c x).n j = d.n j := rfl
@[simp] theorem Dev.setDma_f (d : Dev) (c : Nat) (x : DmaCh) (j lo len : Nat) : (d.setDma c x).f j lo len = d.f j lo len := rfl
@[simp] theorem Dev.setDma_on (d : Dev) (c : Nat) (x : DmaCh) (j m : Nat) : (d.setDma c x).on j m = d.on j m := rfl
@[simp] theorem Dev.setDma_now (d : Dev) (c : Nat) (x : DmaCh) : (d.setDma c x).now = d.now := rfl

/-! setEng changes engs only. -/
@[simp] theorem Dev.setEng_regs (d : Dev) (n : Nat) (x : EngSt) : (d.setEng n x).regs = d.regs := rfl
@[simp] theorem Dev.setEng_resp (d : Dev) (n : Nat) (x : EngSt) : (d.setEng n x).resp = d.resp := rfl
@[simp] theorem Dev.setEng_arms (d : Dev) (n : Nat) (x : EngSt) : (d.setEng n x).arms = d.arms := rfl
@[simp] theorem Dev.setEng_shadow (d : Dev) (n : Nat) (x : EngSt) : (d.setEng n x).shadow = d.shadow := rfl
@[simp] theorem Dev.setEng_lows (d : Dev) (n : Nat) (x : EngSt) : (d.setEng n x).lows = d.lows := rfl
@[simp] theorem Dev.setEng_inflight (d : Dev) (n : Nat) (x : EngSt) : (d.setEng n x).inflight = d.inflight := rfl
@[simp] theorem Dev.setEng_fresh (d : Dev) (n : Nat) (x : EngSt) : (d.setEng n x).fresh = d.fresh := rfl
@[simp] theorem Dev.setEng_recSeq (d : Dev) (n : Nat) (x : EngSt) : (d.setEng n x).recSeq = d.recSeq := rfl
@[simp] theorem Dev.setEng_recPhys (d : Dev) (n : Nat) (x : EngSt) : (d.setEng n x).recPhys = d.recPhys := rfl
@[simp] theorem Dev.setEng_out (d : Dev) (n : Nat) (x : EngSt) : (d.setEng n x).out = d.out := rfl
@[simp] theorem Dev.setEng_pulses (d : Dev) (n : Nat) (x : EngSt) : (d.setEng n x).pulses = d.pulses := rfl
@[simp] theorem Dev.setEng_lastDerated (d : Dev) (n : Nat) (x : EngSt) : (d.setEng n x).lastDerated = d.lastDerated := rfl
@[simp] theorem Dev.setEng_slow (d : Dev) (n : Nat) (x : EngSt) : (d.setEng n x).slow = d.slow := rfl
@[simp] theorem Dev.setEng_winPend (d : Dev) (n : Nat) (x : EngSt) : (d.setEng n x).winPend = d.winPend := rfl
@[simp] theorem Dev.setEng_tb (d : Dev) (n : Nat) (x : EngSt) : (d.setEng n x).tb = d.tb := rfl
@[simp] theorem Dev.setEng_ev (d : Dev) (n : Nat) (x : EngSt) : (d.setEng n x).ev = d.ev := rfl
@[simp] theorem Dev.setEng_sump (d : Dev) (n : Nat) (x : EngSt) : (d.setEng n x).sump = d.sump := rfl
@[simp] theorem Dev.setEng_cw (d : Dev) (n : Nat) (x : EngSt) : (d.setEng n x).cw = d.cw := rfl
@[simp] theorem Dev.setEng_streams (d : Dev) (n : Nat) (x : EngSt) : (d.setEng n x).streams = d.streams := rfl
@[simp] theorem Dev.setEng_ports (d : Dev) (n : Nat) (x : EngSt) : (d.setEng n x).ports = d.ports := rfl
@[simp] theorem Dev.setEng_lanes (d : Dev) (n : Nat) (x : EngSt) : (d.setEng n x).lanes = d.lanes := rfl
@[simp] theorem Dev.setEng_groups (d : Dev) (n : Nat) (x : EngSt) : (d.setEng n x).groups = d.groups := rfl
@[simp] theorem Dev.setEng_logBuf (d : Dev) (n : Nat) (x : EngSt) : (d.setEng n x).logBuf = d.logBuf := rfl
@[simp] theorem Dev.setEng_dets (d : Dev) (n : Nat) (x : EngSt) : (d.setEng n x).dets = d.dets := rfl
@[simp] theorem Dev.setEng_history (d : Dev) (n : Nat) (x : EngSt) : (d.setEng n x).history = d.history := rfl
@[simp] theorem Dev.setEng_flats (d : Dev) (n : Nat) (x : EngSt) : (d.setEng n x).flats = d.flats := rfl
@[simp] theorem Dev.setEng_masks (d : Dev) (n : Nat) (x : EngSt) : (d.setEng n x).masks = d.masks := rfl
@[simp] theorem Dev.setEng_dens (d : Dev) (n : Nat) (x : EngSt) : (d.setEng n x).dens = d.dens := rfl
@[simp] theorem Dev.setEng_grids (d : Dev) (n : Nat) (x : EngSt) : (d.setEng n x).grids = d.grids := rfl
@[simp] theorem Dev.setEng_fab (d : Dev) (n : Nat) (x : EngSt) : (d.setEng n x).fab = d.fab := rfl
@[simp] theorem Dev.setEng_stats (d : Dev) (n : Nat) (x : EngSt) : (d.setEng n x).stats = d.stats := rfl
@[simp] theorem Dev.setEng_edge (d : Dev) (n : Nat) (x : EngSt) : (d.setEng n x).edge = d.edge := rfl
@[simp] theorem Dev.setEng_disp (d : Dev) (n : Nat) (x : EngSt) : (d.setEng n x).disp = d.disp := rfl
@[simp] theorem Dev.setEng_cls (d : Dev) (n : Nat) (x : EngSt) : (d.setEng n x).cls = d.cls := rfl
@[simp] theorem Dev.setEng_mc (d : Dev) (n : Nat) (x : EngSt) : (d.setEng n x).mc = d.mc := rfl
@[simp] theorem Dev.setEng_rings (d : Dev) (n : Nat) (x : EngSt) : (d.setEng n x).rings = d.rings := rfl
@[simp] theorem Dev.setEng_cxs (d : Dev) (n : Nat) (x : EngSt) : (d.setEng n x).cxs = d.cxs := rfl
@[simp] theorem Dev.setEng_trust (d : Dev) (n : Nat) (x : EngSt) : (d.setEng n x).trust = d.trust := rfl
@[simp] theorem Dev.setEng_so (d : Dev) (n : Nat) (x : EngSt) : (d.setEng n x).so = d.so := rfl
@[simp] theorem Dev.setEng_ctxs (d : Dev) (n : Nat) (x : EngSt) : (d.setEng n x).ctxs = d.ctxs := rfl
@[simp] theorem Dev.setEng_replay (d : Dev) (n : Nat) (x : EngSt) : (d.setEng n x).replay = d.replay := rfl
@[simp] theorem Dev.setEng_ax (d : Dev) (n : Nat) (x : EngSt) : (d.setEng n x).ax = d.ax := rfl
@[simp] theorem Dev.setEng_fl (d : Dev) (n : Nat) (x : EngSt) : (d.setEng n x).fl = d.fl := rfl
@[simp] theorem Dev.setEng_dma (d : Dev) (n : Nat) (x : EngSt) : (d.setEng n x).dma = d.dma := rfl
@[simp] theorem Dev.setEng_pw (d : Dev) (n : Nat) (x : EngSt) : (d.setEng n x).pw = d.pw := rfl
@[simp] theorem Dev.setEng_rd (d : Dev) (n : Nat) (x : EngSt) (j : Nat) : (d.setEng n x).rd j = d.rd j := rfl
@[simp] theorem Dev.setEng_n (d : Dev) (n : Nat) (x : EngSt) (j : Nat) : (d.setEng n x).n j = d.n j := rfl
@[simp] theorem Dev.setEng_f (d : Dev) (n : Nat) (x : EngSt) (j lo len : Nat) : (d.setEng n x).f j lo len = d.f j lo len := rfl
@[simp] theorem Dev.setEng_on (d : Dev) (n : Nat) (x : EngSt) (j m : Nat) : (d.setEng n x).on j m = d.on j m := rfl
@[simp] theorem Dev.setEng_now (d : Dev) (n : Nat) (x : EngSt) : (d.setEng n x).now = d.now := rfl

/-! setCl changes cls only. -/
@[simp] theorem Dev.setCl_regs (d : Dev) (c : Nat) (x : ClSt) : (d.setCl c x).regs = d.regs := rfl
@[simp] theorem Dev.setCl_resp (d : Dev) (c : Nat) (x : ClSt) : (d.setCl c x).resp = d.resp := rfl
@[simp] theorem Dev.setCl_arms (d : Dev) (c : Nat) (x : ClSt) : (d.setCl c x).arms = d.arms := rfl
@[simp] theorem Dev.setCl_shadow (d : Dev) (c : Nat) (x : ClSt) : (d.setCl c x).shadow = d.shadow := rfl
@[simp] theorem Dev.setCl_lows (d : Dev) (c : Nat) (x : ClSt) : (d.setCl c x).lows = d.lows := rfl
@[simp] theorem Dev.setCl_inflight (d : Dev) (c : Nat) (x : ClSt) : (d.setCl c x).inflight = d.inflight := rfl
@[simp] theorem Dev.setCl_fresh (d : Dev) (c : Nat) (x : ClSt) : (d.setCl c x).fresh = d.fresh := rfl
@[simp] theorem Dev.setCl_recSeq (d : Dev) (c : Nat) (x : ClSt) : (d.setCl c x).recSeq = d.recSeq := rfl
@[simp] theorem Dev.setCl_recPhys (d : Dev) (c : Nat) (x : ClSt) : (d.setCl c x).recPhys = d.recPhys := rfl
@[simp] theorem Dev.setCl_out (d : Dev) (c : Nat) (x : ClSt) : (d.setCl c x).out = d.out := rfl
@[simp] theorem Dev.setCl_pulses (d : Dev) (c : Nat) (x : ClSt) : (d.setCl c x).pulses = d.pulses := rfl
@[simp] theorem Dev.setCl_lastDerated (d : Dev) (c : Nat) (x : ClSt) : (d.setCl c x).lastDerated = d.lastDerated := rfl
@[simp] theorem Dev.setCl_slow (d : Dev) (c : Nat) (x : ClSt) : (d.setCl c x).slow = d.slow := rfl
@[simp] theorem Dev.setCl_winPend (d : Dev) (c : Nat) (x : ClSt) : (d.setCl c x).winPend = d.winPend := rfl
@[simp] theorem Dev.setCl_tb (d : Dev) (c : Nat) (x : ClSt) : (d.setCl c x).tb = d.tb := rfl
@[simp] theorem Dev.setCl_ev (d : Dev) (c : Nat) (x : ClSt) : (d.setCl c x).ev = d.ev := rfl
@[simp] theorem Dev.setCl_sump (d : Dev) (c : Nat) (x : ClSt) : (d.setCl c x).sump = d.sump := rfl
@[simp] theorem Dev.setCl_cw (d : Dev) (c : Nat) (x : ClSt) : (d.setCl c x).cw = d.cw := rfl
@[simp] theorem Dev.setCl_streams (d : Dev) (c : Nat) (x : ClSt) : (d.setCl c x).streams = d.streams := rfl
@[simp] theorem Dev.setCl_ports (d : Dev) (c : Nat) (x : ClSt) : (d.setCl c x).ports = d.ports := rfl
@[simp] theorem Dev.setCl_lanes (d : Dev) (c : Nat) (x : ClSt) : (d.setCl c x).lanes = d.lanes := rfl
@[simp] theorem Dev.setCl_groups (d : Dev) (c : Nat) (x : ClSt) : (d.setCl c x).groups = d.groups := rfl
@[simp] theorem Dev.setCl_logBuf (d : Dev) (c : Nat) (x : ClSt) : (d.setCl c x).logBuf = d.logBuf := rfl
@[simp] theorem Dev.setCl_dets (d : Dev) (c : Nat) (x : ClSt) : (d.setCl c x).dets = d.dets := rfl
@[simp] theorem Dev.setCl_history (d : Dev) (c : Nat) (x : ClSt) : (d.setCl c x).history = d.history := rfl
@[simp] theorem Dev.setCl_flats (d : Dev) (c : Nat) (x : ClSt) : (d.setCl c x).flats = d.flats := rfl
@[simp] theorem Dev.setCl_masks (d : Dev) (c : Nat) (x : ClSt) : (d.setCl c x).masks = d.masks := rfl
@[simp] theorem Dev.setCl_dens (d : Dev) (c : Nat) (x : ClSt) : (d.setCl c x).dens = d.dens := rfl
@[simp] theorem Dev.setCl_grids (d : Dev) (c : Nat) (x : ClSt) : (d.setCl c x).grids = d.grids := rfl
@[simp] theorem Dev.setCl_fab (d : Dev) (c : Nat) (x : ClSt) : (d.setCl c x).fab = d.fab := rfl
@[simp] theorem Dev.setCl_stats (d : Dev) (c : Nat) (x : ClSt) : (d.setCl c x).stats = d.stats := rfl
@[simp] theorem Dev.setCl_edge (d : Dev) (c : Nat) (x : ClSt) : (d.setCl c x).edge = d.edge := rfl
@[simp] theorem Dev.setCl_disp (d : Dev) (c : Nat) (x : ClSt) : (d.setCl c x).disp = d.disp := rfl
@[simp] theorem Dev.setCl_engs (d : Dev) (c : Nat) (x : ClSt) : (d.setCl c x).engs = d.engs := rfl
@[simp] theorem Dev.setCl_mc (d : Dev) (c : Nat) (x : ClSt) : (d.setCl c x).mc = d.mc := rfl
@[simp] theorem Dev.setCl_rings (d : Dev) (c : Nat) (x : ClSt) : (d.setCl c x).rings = d.rings := rfl
@[simp] theorem Dev.setCl_cxs (d : Dev) (c : Nat) (x : ClSt) : (d.setCl c x).cxs = d.cxs := rfl
@[simp] theorem Dev.setCl_trust (d : Dev) (c : Nat) (x : ClSt) : (d.setCl c x).trust = d.trust := rfl
@[simp] theorem Dev.setCl_so (d : Dev) (c : Nat) (x : ClSt) : (d.setCl c x).so = d.so := rfl
@[simp] theorem Dev.setCl_ctxs (d : Dev) (c : Nat) (x : ClSt) : (d.setCl c x).ctxs = d.ctxs := rfl
@[simp] theorem Dev.setCl_replay (d : Dev) (c : Nat) (x : ClSt) : (d.setCl c x).replay = d.replay := rfl
@[simp] theorem Dev.setCl_ax (d : Dev) (c : Nat) (x : ClSt) : (d.setCl c x).ax = d.ax := rfl
@[simp] theorem Dev.setCl_fl (d : Dev) (c : Nat) (x : ClSt) : (d.setCl c x).fl = d.fl := rfl
@[simp] theorem Dev.setCl_dma (d : Dev) (c : Nat) (x : ClSt) : (d.setCl c x).dma = d.dma := rfl
@[simp] theorem Dev.setCl_pw (d : Dev) (c : Nat) (x : ClSt) : (d.setCl c x).pw = d.pw := rfl
@[simp] theorem Dev.setCl_rd (d : Dev) (c : Nat) (x : ClSt) (j : Nat) : (d.setCl c x).rd j = d.rd j := rfl
@[simp] theorem Dev.setCl_n (d : Dev) (c : Nat) (x : ClSt) (j : Nat) : (d.setCl c x).n j = d.n j := rfl
@[simp] theorem Dev.setCl_f (d : Dev) (c : Nat) (x : ClSt) (j lo len : Nat) : (d.setCl c x).f j lo len = d.f j lo len := rfl
@[simp] theorem Dev.setCl_on (d : Dev) (c : Nat) (x : ClSt) (j m : Nat) : (d.setCl c x).on j m = d.on j m := rfl
@[simp] theorem Dev.setCl_now (d : Dev) (c : Nat) (x : ClSt) : (d.setCl c x).now = d.now := rfl

/-! setFab changes fab only. -/
@[simp] theorem Dev.setFab_regs (d : Dev) (x : FabSt) : (d.setFab x).regs = d.regs := rfl
@[simp] theorem Dev.setFab_resp (d : Dev) (x : FabSt) : (d.setFab x).resp = d.resp := rfl
@[simp] theorem Dev.setFab_arms (d : Dev) (x : FabSt) : (d.setFab x).arms = d.arms := rfl
@[simp] theorem Dev.setFab_shadow (d : Dev) (x : FabSt) : (d.setFab x).shadow = d.shadow := rfl
@[simp] theorem Dev.setFab_lows (d : Dev) (x : FabSt) : (d.setFab x).lows = d.lows := rfl
@[simp] theorem Dev.setFab_inflight (d : Dev) (x : FabSt) : (d.setFab x).inflight = d.inflight := rfl
@[simp] theorem Dev.setFab_fresh (d : Dev) (x : FabSt) : (d.setFab x).fresh = d.fresh := rfl
@[simp] theorem Dev.setFab_recSeq (d : Dev) (x : FabSt) : (d.setFab x).recSeq = d.recSeq := rfl
@[simp] theorem Dev.setFab_recPhys (d : Dev) (x : FabSt) : (d.setFab x).recPhys = d.recPhys := rfl
@[simp] theorem Dev.setFab_out (d : Dev) (x : FabSt) : (d.setFab x).out = d.out := rfl
@[simp] theorem Dev.setFab_pulses (d : Dev) (x : FabSt) : (d.setFab x).pulses = d.pulses := rfl
@[simp] theorem Dev.setFab_lastDerated (d : Dev) (x : FabSt) : (d.setFab x).lastDerated = d.lastDerated := rfl
@[simp] theorem Dev.setFab_slow (d : Dev) (x : FabSt) : (d.setFab x).slow = d.slow := rfl
@[simp] theorem Dev.setFab_winPend (d : Dev) (x : FabSt) : (d.setFab x).winPend = d.winPend := rfl
@[simp] theorem Dev.setFab_tb (d : Dev) (x : FabSt) : (d.setFab x).tb = d.tb := rfl
@[simp] theorem Dev.setFab_ev (d : Dev) (x : FabSt) : (d.setFab x).ev = d.ev := rfl
@[simp] theorem Dev.setFab_sump (d : Dev) (x : FabSt) : (d.setFab x).sump = d.sump := rfl
@[simp] theorem Dev.setFab_cw (d : Dev) (x : FabSt) : (d.setFab x).cw = d.cw := rfl
@[simp] theorem Dev.setFab_streams (d : Dev) (x : FabSt) : (d.setFab x).streams = d.streams := rfl
@[simp] theorem Dev.setFab_ports (d : Dev) (x : FabSt) : (d.setFab x).ports = d.ports := rfl
@[simp] theorem Dev.setFab_lanes (d : Dev) (x : FabSt) : (d.setFab x).lanes = d.lanes := rfl
@[simp] theorem Dev.setFab_groups (d : Dev) (x : FabSt) : (d.setFab x).groups = d.groups := rfl
@[simp] theorem Dev.setFab_logBuf (d : Dev) (x : FabSt) : (d.setFab x).logBuf = d.logBuf := rfl
@[simp] theorem Dev.setFab_dets (d : Dev) (x : FabSt) : (d.setFab x).dets = d.dets := rfl
@[simp] theorem Dev.setFab_history (d : Dev) (x : FabSt) : (d.setFab x).history = d.history := rfl
@[simp] theorem Dev.setFab_flats (d : Dev) (x : FabSt) : (d.setFab x).flats = d.flats := rfl
@[simp] theorem Dev.setFab_masks (d : Dev) (x : FabSt) : (d.setFab x).masks = d.masks := rfl
@[simp] theorem Dev.setFab_dens (d : Dev) (x : FabSt) : (d.setFab x).dens = d.dens := rfl
@[simp] theorem Dev.setFab_grids (d : Dev) (x : FabSt) : (d.setFab x).grids = d.grids := rfl
@[simp] theorem Dev.setFab_stats (d : Dev) (x : FabSt) : (d.setFab x).stats = d.stats := rfl
@[simp] theorem Dev.setFab_edge (d : Dev) (x : FabSt) : (d.setFab x).edge = d.edge := rfl
@[simp] theorem Dev.setFab_disp (d : Dev) (x : FabSt) : (d.setFab x).disp = d.disp := rfl
@[simp] theorem Dev.setFab_engs (d : Dev) (x : FabSt) : (d.setFab x).engs = d.engs := rfl
@[simp] theorem Dev.setFab_cls (d : Dev) (x : FabSt) : (d.setFab x).cls = d.cls := rfl
@[simp] theorem Dev.setFab_mc (d : Dev) (x : FabSt) : (d.setFab x).mc = d.mc := rfl
@[simp] theorem Dev.setFab_rings (d : Dev) (x : FabSt) : (d.setFab x).rings = d.rings := rfl
@[simp] theorem Dev.setFab_cxs (d : Dev) (x : FabSt) : (d.setFab x).cxs = d.cxs := rfl
@[simp] theorem Dev.setFab_trust (d : Dev) (x : FabSt) : (d.setFab x).trust = d.trust := rfl
@[simp] theorem Dev.setFab_so (d : Dev) (x : FabSt) : (d.setFab x).so = d.so := rfl
@[simp] theorem Dev.setFab_ctxs (d : Dev) (x : FabSt) : (d.setFab x).ctxs = d.ctxs := rfl
@[simp] theorem Dev.setFab_replay (d : Dev) (x : FabSt) : (d.setFab x).replay = d.replay := rfl
@[simp] theorem Dev.setFab_ax (d : Dev) (x : FabSt) : (d.setFab x).ax = d.ax := rfl
@[simp] theorem Dev.setFab_fl (d : Dev) (x : FabSt) : (d.setFab x).fl = d.fl := rfl
@[simp] theorem Dev.setFab_dma (d : Dev) (x : FabSt) : (d.setFab x).dma = d.dma := rfl
@[simp] theorem Dev.setFab_pw (d : Dev) (x : FabSt) : (d.setFab x).pw = d.pw := rfl
@[simp] theorem Dev.setFab_rd (d : Dev) (x : FabSt) (j : Nat) : (d.setFab x).rd j = d.rd j := rfl
@[simp] theorem Dev.setFab_n (d : Dev) (x : FabSt) (j : Nat) : (d.setFab x).n j = d.n j := rfl
@[simp] theorem Dev.setFab_f (d : Dev) (x : FabSt) (j lo len : Nat) : (d.setFab x).f j lo len = d.f j lo len := rfl
@[simp] theorem Dev.setFab_on (d : Dev) (x : FabSt) (j m : Nat) : (d.setFab x).on j m = d.on j m := rfl
@[simp] theorem Dev.setFab_now (d : Dev) (x : FabSt) : (d.setFab x).now = d.now := rfl

/-! setLane changes lanes only. -/
@[simp] theorem Dev.setLane_regs (d : Dev) (l : Nat) (x : LaneSt) : (d.setLane l x).regs = d.regs := rfl
@[simp] theorem Dev.setLane_resp (d : Dev) (l : Nat) (x : LaneSt) : (d.setLane l x).resp = d.resp := rfl
@[simp] theorem Dev.setLane_arms (d : Dev) (l : Nat) (x : LaneSt) : (d.setLane l x).arms = d.arms := rfl
@[simp] theorem Dev.setLane_shadow (d : Dev) (l : Nat) (x : LaneSt) : (d.setLane l x).shadow = d.shadow := rfl
@[simp] theorem Dev.setLane_lows (d : Dev) (l : Nat) (x : LaneSt) : (d.setLane l x).lows = d.lows := rfl
@[simp] theorem Dev.setLane_inflight (d : Dev) (l : Nat) (x : LaneSt) : (d.setLane l x).inflight = d.inflight := rfl
@[simp] theorem Dev.setLane_fresh (d : Dev) (l : Nat) (x : LaneSt) : (d.setLane l x).fresh = d.fresh := rfl
@[simp] theorem Dev.setLane_recSeq (d : Dev) (l : Nat) (x : LaneSt) : (d.setLane l x).recSeq = d.recSeq := rfl
@[simp] theorem Dev.setLane_recPhys (d : Dev) (l : Nat) (x : LaneSt) : (d.setLane l x).recPhys = d.recPhys := rfl
@[simp] theorem Dev.setLane_out (d : Dev) (l : Nat) (x : LaneSt) : (d.setLane l x).out = d.out := rfl
@[simp] theorem Dev.setLane_pulses (d : Dev) (l : Nat) (x : LaneSt) : (d.setLane l x).pulses = d.pulses := rfl
@[simp] theorem Dev.setLane_lastDerated (d : Dev) (l : Nat) (x : LaneSt) : (d.setLane l x).lastDerated = d.lastDerated := rfl
@[simp] theorem Dev.setLane_slow (d : Dev) (l : Nat) (x : LaneSt) : (d.setLane l x).slow = d.slow := rfl
@[simp] theorem Dev.setLane_winPend (d : Dev) (l : Nat) (x : LaneSt) : (d.setLane l x).winPend = d.winPend := rfl
@[simp] theorem Dev.setLane_tb (d : Dev) (l : Nat) (x : LaneSt) : (d.setLane l x).tb = d.tb := rfl
@[simp] theorem Dev.setLane_ev (d : Dev) (l : Nat) (x : LaneSt) : (d.setLane l x).ev = d.ev := rfl
@[simp] theorem Dev.setLane_sump (d : Dev) (l : Nat) (x : LaneSt) : (d.setLane l x).sump = d.sump := rfl
@[simp] theorem Dev.setLane_cw (d : Dev) (l : Nat) (x : LaneSt) : (d.setLane l x).cw = d.cw := rfl
@[simp] theorem Dev.setLane_streams (d : Dev) (l : Nat) (x : LaneSt) : (d.setLane l x).streams = d.streams := rfl
@[simp] theorem Dev.setLane_ports (d : Dev) (l : Nat) (x : LaneSt) : (d.setLane l x).ports = d.ports := rfl
@[simp] theorem Dev.setLane_groups (d : Dev) (l : Nat) (x : LaneSt) : (d.setLane l x).groups = d.groups := rfl
@[simp] theorem Dev.setLane_logBuf (d : Dev) (l : Nat) (x : LaneSt) : (d.setLane l x).logBuf = d.logBuf := rfl
@[simp] theorem Dev.setLane_dets (d : Dev) (l : Nat) (x : LaneSt) : (d.setLane l x).dets = d.dets := rfl
@[simp] theorem Dev.setLane_history (d : Dev) (l : Nat) (x : LaneSt) : (d.setLane l x).history = d.history := rfl
@[simp] theorem Dev.setLane_flats (d : Dev) (l : Nat) (x : LaneSt) : (d.setLane l x).flats = d.flats := rfl
@[simp] theorem Dev.setLane_masks (d : Dev) (l : Nat) (x : LaneSt) : (d.setLane l x).masks = d.masks := rfl
@[simp] theorem Dev.setLane_dens (d : Dev) (l : Nat) (x : LaneSt) : (d.setLane l x).dens = d.dens := rfl
@[simp] theorem Dev.setLane_grids (d : Dev) (l : Nat) (x : LaneSt) : (d.setLane l x).grids = d.grids := rfl
@[simp] theorem Dev.setLane_fab (d : Dev) (l : Nat) (x : LaneSt) : (d.setLane l x).fab = d.fab := rfl
@[simp] theorem Dev.setLane_stats (d : Dev) (l : Nat) (x : LaneSt) : (d.setLane l x).stats = d.stats := rfl
@[simp] theorem Dev.setLane_edge (d : Dev) (l : Nat) (x : LaneSt) : (d.setLane l x).edge = d.edge := rfl
@[simp] theorem Dev.setLane_disp (d : Dev) (l : Nat) (x : LaneSt) : (d.setLane l x).disp = d.disp := rfl
@[simp] theorem Dev.setLane_engs (d : Dev) (l : Nat) (x : LaneSt) : (d.setLane l x).engs = d.engs := rfl
@[simp] theorem Dev.setLane_cls (d : Dev) (l : Nat) (x : LaneSt) : (d.setLane l x).cls = d.cls := rfl
@[simp] theorem Dev.setLane_mc (d : Dev) (l : Nat) (x : LaneSt) : (d.setLane l x).mc = d.mc := rfl
@[simp] theorem Dev.setLane_rings (d : Dev) (l : Nat) (x : LaneSt) : (d.setLane l x).rings = d.rings := rfl
@[simp] theorem Dev.setLane_cxs (d : Dev) (l : Nat) (x : LaneSt) : (d.setLane l x).cxs = d.cxs := rfl
@[simp] theorem Dev.setLane_trust (d : Dev) (l : Nat) (x : LaneSt) : (d.setLane l x).trust = d.trust := rfl
@[simp] theorem Dev.setLane_so (d : Dev) (l : Nat) (x : LaneSt) : (d.setLane l x).so = d.so := rfl
@[simp] theorem Dev.setLane_ctxs (d : Dev) (l : Nat) (x : LaneSt) : (d.setLane l x).ctxs = d.ctxs := rfl
@[simp] theorem Dev.setLane_replay (d : Dev) (l : Nat) (x : LaneSt) : (d.setLane l x).replay = d.replay := rfl
@[simp] theorem Dev.setLane_ax (d : Dev) (l : Nat) (x : LaneSt) : (d.setLane l x).ax = d.ax := rfl
@[simp] theorem Dev.setLane_fl (d : Dev) (l : Nat) (x : LaneSt) : (d.setLane l x).fl = d.fl := rfl
@[simp] theorem Dev.setLane_dma (d : Dev) (l : Nat) (x : LaneSt) : (d.setLane l x).dma = d.dma := rfl
@[simp] theorem Dev.setLane_pw (d : Dev) (l : Nat) (x : LaneSt) : (d.setLane l x).pw = d.pw := rfl
@[simp] theorem Dev.setLane_rd (d : Dev) (l : Nat) (x : LaneSt) (j : Nat) : (d.setLane l x).rd j = d.rd j := rfl
@[simp] theorem Dev.setLane_n (d : Dev) (l : Nat) (x : LaneSt) (j : Nat) : (d.setLane l x).n j = d.n j := rfl
@[simp] theorem Dev.setLane_f (d : Dev) (l : Nat) (x : LaneSt) (j lo len : Nat) : (d.setLane l x).f j lo len = d.f j lo len := rfl
@[simp] theorem Dev.setLane_on (d : Dev) (l : Nat) (x : LaneSt) (j m : Nat) : (d.setLane l x).on j m = d.on j m := rfl
@[simp] theorem Dev.setLane_now (d : Dev) (l : Nat) (x : LaneSt) : (d.setLane l x).now = d.now := rfl

/-! setGroup changes groups only. -/
@[simp] theorem Dev.setGroup_regs (d : Dev) (g : Nat) (x : GroupSt) : (d.setGroup g x).regs = d.regs := rfl
@[simp] theorem Dev.setGroup_resp (d : Dev) (g : Nat) (x : GroupSt) : (d.setGroup g x).resp = d.resp := rfl
@[simp] theorem Dev.setGroup_arms (d : Dev) (g : Nat) (x : GroupSt) : (d.setGroup g x).arms = d.arms := rfl
@[simp] theorem Dev.setGroup_shadow (d : Dev) (g : Nat) (x : GroupSt) : (d.setGroup g x).shadow = d.shadow := rfl
@[simp] theorem Dev.setGroup_lows (d : Dev) (g : Nat) (x : GroupSt) : (d.setGroup g x).lows = d.lows := rfl
@[simp] theorem Dev.setGroup_inflight (d : Dev) (g : Nat) (x : GroupSt) : (d.setGroup g x).inflight = d.inflight := rfl
@[simp] theorem Dev.setGroup_fresh (d : Dev) (g : Nat) (x : GroupSt) : (d.setGroup g x).fresh = d.fresh := rfl
@[simp] theorem Dev.setGroup_recSeq (d : Dev) (g : Nat) (x : GroupSt) : (d.setGroup g x).recSeq = d.recSeq := rfl
@[simp] theorem Dev.setGroup_recPhys (d : Dev) (g : Nat) (x : GroupSt) : (d.setGroup g x).recPhys = d.recPhys := rfl
@[simp] theorem Dev.setGroup_out (d : Dev) (g : Nat) (x : GroupSt) : (d.setGroup g x).out = d.out := rfl
@[simp] theorem Dev.setGroup_pulses (d : Dev) (g : Nat) (x : GroupSt) : (d.setGroup g x).pulses = d.pulses := rfl
@[simp] theorem Dev.setGroup_lastDerated (d : Dev) (g : Nat) (x : GroupSt) : (d.setGroup g x).lastDerated = d.lastDerated := rfl
@[simp] theorem Dev.setGroup_slow (d : Dev) (g : Nat) (x : GroupSt) : (d.setGroup g x).slow = d.slow := rfl
@[simp] theorem Dev.setGroup_winPend (d : Dev) (g : Nat) (x : GroupSt) : (d.setGroup g x).winPend = d.winPend := rfl
@[simp] theorem Dev.setGroup_tb (d : Dev) (g : Nat) (x : GroupSt) : (d.setGroup g x).tb = d.tb := rfl
@[simp] theorem Dev.setGroup_ev (d : Dev) (g : Nat) (x : GroupSt) : (d.setGroup g x).ev = d.ev := rfl
@[simp] theorem Dev.setGroup_sump (d : Dev) (g : Nat) (x : GroupSt) : (d.setGroup g x).sump = d.sump := rfl
@[simp] theorem Dev.setGroup_cw (d : Dev) (g : Nat) (x : GroupSt) : (d.setGroup g x).cw = d.cw := rfl
@[simp] theorem Dev.setGroup_streams (d : Dev) (g : Nat) (x : GroupSt) : (d.setGroup g x).streams = d.streams := rfl
@[simp] theorem Dev.setGroup_ports (d : Dev) (g : Nat) (x : GroupSt) : (d.setGroup g x).ports = d.ports := rfl
@[simp] theorem Dev.setGroup_lanes (d : Dev) (g : Nat) (x : GroupSt) : (d.setGroup g x).lanes = d.lanes := rfl
@[simp] theorem Dev.setGroup_logBuf (d : Dev) (g : Nat) (x : GroupSt) : (d.setGroup g x).logBuf = d.logBuf := rfl
@[simp] theorem Dev.setGroup_dets (d : Dev) (g : Nat) (x : GroupSt) : (d.setGroup g x).dets = d.dets := rfl
@[simp] theorem Dev.setGroup_history (d : Dev) (g : Nat) (x : GroupSt) : (d.setGroup g x).history = d.history := rfl
@[simp] theorem Dev.setGroup_flats (d : Dev) (g : Nat) (x : GroupSt) : (d.setGroup g x).flats = d.flats := rfl
@[simp] theorem Dev.setGroup_masks (d : Dev) (g : Nat) (x : GroupSt) : (d.setGroup g x).masks = d.masks := rfl
@[simp] theorem Dev.setGroup_dens (d : Dev) (g : Nat) (x : GroupSt) : (d.setGroup g x).dens = d.dens := rfl
@[simp] theorem Dev.setGroup_grids (d : Dev) (g : Nat) (x : GroupSt) : (d.setGroup g x).grids = d.grids := rfl
@[simp] theorem Dev.setGroup_fab (d : Dev) (g : Nat) (x : GroupSt) : (d.setGroup g x).fab = d.fab := rfl
@[simp] theorem Dev.setGroup_stats (d : Dev) (g : Nat) (x : GroupSt) : (d.setGroup g x).stats = d.stats := rfl
@[simp] theorem Dev.setGroup_edge (d : Dev) (g : Nat) (x : GroupSt) : (d.setGroup g x).edge = d.edge := rfl
@[simp] theorem Dev.setGroup_disp (d : Dev) (g : Nat) (x : GroupSt) : (d.setGroup g x).disp = d.disp := rfl
@[simp] theorem Dev.setGroup_engs (d : Dev) (g : Nat) (x : GroupSt) : (d.setGroup g x).engs = d.engs := rfl
@[simp] theorem Dev.setGroup_cls (d : Dev) (g : Nat) (x : GroupSt) : (d.setGroup g x).cls = d.cls := rfl
@[simp] theorem Dev.setGroup_mc (d : Dev) (g : Nat) (x : GroupSt) : (d.setGroup g x).mc = d.mc := rfl
@[simp] theorem Dev.setGroup_rings (d : Dev) (g : Nat) (x : GroupSt) : (d.setGroup g x).rings = d.rings := rfl
@[simp] theorem Dev.setGroup_cxs (d : Dev) (g : Nat) (x : GroupSt) : (d.setGroup g x).cxs = d.cxs := rfl
@[simp] theorem Dev.setGroup_trust (d : Dev) (g : Nat) (x : GroupSt) : (d.setGroup g x).trust = d.trust := rfl
@[simp] theorem Dev.setGroup_so (d : Dev) (g : Nat) (x : GroupSt) : (d.setGroup g x).so = d.so := rfl
@[simp] theorem Dev.setGroup_ctxs (d : Dev) (g : Nat) (x : GroupSt) : (d.setGroup g x).ctxs = d.ctxs := rfl
@[simp] theorem Dev.setGroup_replay (d : Dev) (g : Nat) (x : GroupSt) : (d.setGroup g x).replay = d.replay := rfl
@[simp] theorem Dev.setGroup_ax (d : Dev) (g : Nat) (x : GroupSt) : (d.setGroup g x).ax = d.ax := rfl
@[simp] theorem Dev.setGroup_fl (d : Dev) (g : Nat) (x : GroupSt) : (d.setGroup g x).fl = d.fl := rfl
@[simp] theorem Dev.setGroup_dma (d : Dev) (g : Nat) (x : GroupSt) : (d.setGroup g x).dma = d.dma := rfl
@[simp] theorem Dev.setGroup_pw (d : Dev) (g : Nat) (x : GroupSt) : (d.setGroup g x).pw = d.pw := rfl
@[simp] theorem Dev.setGroup_rd (d : Dev) (g : Nat) (x : GroupSt) (j : Nat) : (d.setGroup g x).rd j = d.rd j := rfl
@[simp] theorem Dev.setGroup_n (d : Dev) (g : Nat) (x : GroupSt) (j : Nat) : (d.setGroup g x).n j = d.n j := rfl
@[simp] theorem Dev.setGroup_f (d : Dev) (g : Nat) (x : GroupSt) (j lo len : Nat) : (d.setGroup g x).f j lo len = d.f j lo len := rfl
@[simp] theorem Dev.setGroup_on (d : Dev) (g : Nat) (x : GroupSt) (j m : Nat) : (d.setGroup g x).on j m = d.on j m := rfl
@[simp] theorem Dev.setGroup_now (d : Dev) (g : Nat) (x : GroupSt) : (d.setGroup g x).now = d.now := rfl

/-! setMport changes mc only. -/
@[simp] theorem Dev.setMport_regs (d : Dev) (p : Nat) (x : MemPort) : (d.setMport p x).regs = d.regs := rfl
@[simp] theorem Dev.setMport_resp (d : Dev) (p : Nat) (x : MemPort) : (d.setMport p x).resp = d.resp := rfl
@[simp] theorem Dev.setMport_arms (d : Dev) (p : Nat) (x : MemPort) : (d.setMport p x).arms = d.arms := rfl
@[simp] theorem Dev.setMport_shadow (d : Dev) (p : Nat) (x : MemPort) : (d.setMport p x).shadow = d.shadow := rfl
@[simp] theorem Dev.setMport_lows (d : Dev) (p : Nat) (x : MemPort) : (d.setMport p x).lows = d.lows := rfl
@[simp] theorem Dev.setMport_inflight (d : Dev) (p : Nat) (x : MemPort) : (d.setMport p x).inflight = d.inflight := rfl
@[simp] theorem Dev.setMport_fresh (d : Dev) (p : Nat) (x : MemPort) : (d.setMport p x).fresh = d.fresh := rfl
@[simp] theorem Dev.setMport_recSeq (d : Dev) (p : Nat) (x : MemPort) : (d.setMport p x).recSeq = d.recSeq := rfl
@[simp] theorem Dev.setMport_recPhys (d : Dev) (p : Nat) (x : MemPort) : (d.setMport p x).recPhys = d.recPhys := rfl
@[simp] theorem Dev.setMport_out (d : Dev) (p : Nat) (x : MemPort) : (d.setMport p x).out = d.out := rfl
@[simp] theorem Dev.setMport_pulses (d : Dev) (p : Nat) (x : MemPort) : (d.setMport p x).pulses = d.pulses := rfl
@[simp] theorem Dev.setMport_lastDerated (d : Dev) (p : Nat) (x : MemPort) : (d.setMport p x).lastDerated = d.lastDerated := rfl
@[simp] theorem Dev.setMport_slow (d : Dev) (p : Nat) (x : MemPort) : (d.setMport p x).slow = d.slow := rfl
@[simp] theorem Dev.setMport_winPend (d : Dev) (p : Nat) (x : MemPort) : (d.setMport p x).winPend = d.winPend := rfl
@[simp] theorem Dev.setMport_tb (d : Dev) (p : Nat) (x : MemPort) : (d.setMport p x).tb = d.tb := rfl
@[simp] theorem Dev.setMport_ev (d : Dev) (p : Nat) (x : MemPort) : (d.setMport p x).ev = d.ev := rfl
@[simp] theorem Dev.setMport_sump (d : Dev) (p : Nat) (x : MemPort) : (d.setMport p x).sump = d.sump := rfl
@[simp] theorem Dev.setMport_cw (d : Dev) (p : Nat) (x : MemPort) : (d.setMport p x).cw = d.cw := rfl
@[simp] theorem Dev.setMport_streams (d : Dev) (p : Nat) (x : MemPort) : (d.setMport p x).streams = d.streams := rfl
@[simp] theorem Dev.setMport_ports (d : Dev) (p : Nat) (x : MemPort) : (d.setMport p x).ports = d.ports := rfl
@[simp] theorem Dev.setMport_lanes (d : Dev) (p : Nat) (x : MemPort) : (d.setMport p x).lanes = d.lanes := rfl
@[simp] theorem Dev.setMport_groups (d : Dev) (p : Nat) (x : MemPort) : (d.setMport p x).groups = d.groups := rfl
@[simp] theorem Dev.setMport_logBuf (d : Dev) (p : Nat) (x : MemPort) : (d.setMport p x).logBuf = d.logBuf := rfl
@[simp] theorem Dev.setMport_dets (d : Dev) (p : Nat) (x : MemPort) : (d.setMport p x).dets = d.dets := rfl
@[simp] theorem Dev.setMport_history (d : Dev) (p : Nat) (x : MemPort) : (d.setMport p x).history = d.history := rfl
@[simp] theorem Dev.setMport_flats (d : Dev) (p : Nat) (x : MemPort) : (d.setMport p x).flats = d.flats := rfl
@[simp] theorem Dev.setMport_masks (d : Dev) (p : Nat) (x : MemPort) : (d.setMport p x).masks = d.masks := rfl
@[simp] theorem Dev.setMport_dens (d : Dev) (p : Nat) (x : MemPort) : (d.setMport p x).dens = d.dens := rfl
@[simp] theorem Dev.setMport_grids (d : Dev) (p : Nat) (x : MemPort) : (d.setMport p x).grids = d.grids := rfl
@[simp] theorem Dev.setMport_fab (d : Dev) (p : Nat) (x : MemPort) : (d.setMport p x).fab = d.fab := rfl
@[simp] theorem Dev.setMport_stats (d : Dev) (p : Nat) (x : MemPort) : (d.setMport p x).stats = d.stats := rfl
@[simp] theorem Dev.setMport_edge (d : Dev) (p : Nat) (x : MemPort) : (d.setMport p x).edge = d.edge := rfl
@[simp] theorem Dev.setMport_disp (d : Dev) (p : Nat) (x : MemPort) : (d.setMport p x).disp = d.disp := rfl
@[simp] theorem Dev.setMport_engs (d : Dev) (p : Nat) (x : MemPort) : (d.setMport p x).engs = d.engs := rfl
@[simp] theorem Dev.setMport_cls (d : Dev) (p : Nat) (x : MemPort) : (d.setMport p x).cls = d.cls := rfl
@[simp] theorem Dev.setMport_rings (d : Dev) (p : Nat) (x : MemPort) : (d.setMport p x).rings = d.rings := rfl
@[simp] theorem Dev.setMport_cxs (d : Dev) (p : Nat) (x : MemPort) : (d.setMport p x).cxs = d.cxs := rfl
@[simp] theorem Dev.setMport_trust (d : Dev) (p : Nat) (x : MemPort) : (d.setMport p x).trust = d.trust := rfl
@[simp] theorem Dev.setMport_so (d : Dev) (p : Nat) (x : MemPort) : (d.setMport p x).so = d.so := rfl
@[simp] theorem Dev.setMport_ctxs (d : Dev) (p : Nat) (x : MemPort) : (d.setMport p x).ctxs = d.ctxs := rfl
@[simp] theorem Dev.setMport_replay (d : Dev) (p : Nat) (x : MemPort) : (d.setMport p x).replay = d.replay := rfl
@[simp] theorem Dev.setMport_ax (d : Dev) (p : Nat) (x : MemPort) : (d.setMport p x).ax = d.ax := rfl
@[simp] theorem Dev.setMport_fl (d : Dev) (p : Nat) (x : MemPort) : (d.setMport p x).fl = d.fl := rfl
@[simp] theorem Dev.setMport_dma (d : Dev) (p : Nat) (x : MemPort) : (d.setMport p x).dma = d.dma := rfl
@[simp] theorem Dev.setMport_pw (d : Dev) (p : Nat) (x : MemPort) : (d.setMport p x).pw = d.pw := rfl
@[simp] theorem Dev.setMport_rd (d : Dev) (p : Nat) (x : MemPort) (j : Nat) : (d.setMport p x).rd j = d.rd j := rfl
@[simp] theorem Dev.setMport_n (d : Dev) (p : Nat) (x : MemPort) (j : Nat) : (d.setMport p x).n j = d.n j := rfl
@[simp] theorem Dev.setMport_f (d : Dev) (p : Nat) (x : MemPort) (j lo len : Nat) : (d.setMport p x).f j lo len = d.f j lo len := rfl
@[simp] theorem Dev.setMport_on (d : Dev) (p : Nat) (x : MemPort) (j m : Nat) : (d.setMport p x).on j m = d.on j m := rfl
@[simp] theorem Dev.setMport_now (d : Dev) (p : Nat) (x : MemPort) : (d.setMport p x).now = d.now := rfl

/-! setRgn changes mc only. -/
@[simp] theorem Dev.setRgn_regs (d : Dev) (r : Nat) (x : Region) : (d.setRgn r x).regs = d.regs := rfl
@[simp] theorem Dev.setRgn_resp (d : Dev) (r : Nat) (x : Region) : (d.setRgn r x).resp = d.resp := rfl
@[simp] theorem Dev.setRgn_arms (d : Dev) (r : Nat) (x : Region) : (d.setRgn r x).arms = d.arms := rfl
@[simp] theorem Dev.setRgn_shadow (d : Dev) (r : Nat) (x : Region) : (d.setRgn r x).shadow = d.shadow := rfl
@[simp] theorem Dev.setRgn_lows (d : Dev) (r : Nat) (x : Region) : (d.setRgn r x).lows = d.lows := rfl
@[simp] theorem Dev.setRgn_inflight (d : Dev) (r : Nat) (x : Region) : (d.setRgn r x).inflight = d.inflight := rfl
@[simp] theorem Dev.setRgn_fresh (d : Dev) (r : Nat) (x : Region) : (d.setRgn r x).fresh = d.fresh := rfl
@[simp] theorem Dev.setRgn_recSeq (d : Dev) (r : Nat) (x : Region) : (d.setRgn r x).recSeq = d.recSeq := rfl
@[simp] theorem Dev.setRgn_recPhys (d : Dev) (r : Nat) (x : Region) : (d.setRgn r x).recPhys = d.recPhys := rfl
@[simp] theorem Dev.setRgn_out (d : Dev) (r : Nat) (x : Region) : (d.setRgn r x).out = d.out := rfl
@[simp] theorem Dev.setRgn_pulses (d : Dev) (r : Nat) (x : Region) : (d.setRgn r x).pulses = d.pulses := rfl
@[simp] theorem Dev.setRgn_lastDerated (d : Dev) (r : Nat) (x : Region) : (d.setRgn r x).lastDerated = d.lastDerated := rfl
@[simp] theorem Dev.setRgn_slow (d : Dev) (r : Nat) (x : Region) : (d.setRgn r x).slow = d.slow := rfl
@[simp] theorem Dev.setRgn_winPend (d : Dev) (r : Nat) (x : Region) : (d.setRgn r x).winPend = d.winPend := rfl
@[simp] theorem Dev.setRgn_tb (d : Dev) (r : Nat) (x : Region) : (d.setRgn r x).tb = d.tb := rfl
@[simp] theorem Dev.setRgn_ev (d : Dev) (r : Nat) (x : Region) : (d.setRgn r x).ev = d.ev := rfl
@[simp] theorem Dev.setRgn_sump (d : Dev) (r : Nat) (x : Region) : (d.setRgn r x).sump = d.sump := rfl
@[simp] theorem Dev.setRgn_cw (d : Dev) (r : Nat) (x : Region) : (d.setRgn r x).cw = d.cw := rfl
@[simp] theorem Dev.setRgn_streams (d : Dev) (r : Nat) (x : Region) : (d.setRgn r x).streams = d.streams := rfl
@[simp] theorem Dev.setRgn_ports (d : Dev) (r : Nat) (x : Region) : (d.setRgn r x).ports = d.ports := rfl
@[simp] theorem Dev.setRgn_lanes (d : Dev) (r : Nat) (x : Region) : (d.setRgn r x).lanes = d.lanes := rfl
@[simp] theorem Dev.setRgn_groups (d : Dev) (r : Nat) (x : Region) : (d.setRgn r x).groups = d.groups := rfl
@[simp] theorem Dev.setRgn_logBuf (d : Dev) (r : Nat) (x : Region) : (d.setRgn r x).logBuf = d.logBuf := rfl
@[simp] theorem Dev.setRgn_dets (d : Dev) (r : Nat) (x : Region) : (d.setRgn r x).dets = d.dets := rfl
@[simp] theorem Dev.setRgn_history (d : Dev) (r : Nat) (x : Region) : (d.setRgn r x).history = d.history := rfl
@[simp] theorem Dev.setRgn_flats (d : Dev) (r : Nat) (x : Region) : (d.setRgn r x).flats = d.flats := rfl
@[simp] theorem Dev.setRgn_masks (d : Dev) (r : Nat) (x : Region) : (d.setRgn r x).masks = d.masks := rfl
@[simp] theorem Dev.setRgn_dens (d : Dev) (r : Nat) (x : Region) : (d.setRgn r x).dens = d.dens := rfl
@[simp] theorem Dev.setRgn_grids (d : Dev) (r : Nat) (x : Region) : (d.setRgn r x).grids = d.grids := rfl
@[simp] theorem Dev.setRgn_fab (d : Dev) (r : Nat) (x : Region) : (d.setRgn r x).fab = d.fab := rfl
@[simp] theorem Dev.setRgn_stats (d : Dev) (r : Nat) (x : Region) : (d.setRgn r x).stats = d.stats := rfl
@[simp] theorem Dev.setRgn_edge (d : Dev) (r : Nat) (x : Region) : (d.setRgn r x).edge = d.edge := rfl
@[simp] theorem Dev.setRgn_disp (d : Dev) (r : Nat) (x : Region) : (d.setRgn r x).disp = d.disp := rfl
@[simp] theorem Dev.setRgn_engs (d : Dev) (r : Nat) (x : Region) : (d.setRgn r x).engs = d.engs := rfl
@[simp] theorem Dev.setRgn_cls (d : Dev) (r : Nat) (x : Region) : (d.setRgn r x).cls = d.cls := rfl
@[simp] theorem Dev.setRgn_rings (d : Dev) (r : Nat) (x : Region) : (d.setRgn r x).rings = d.rings := rfl
@[simp] theorem Dev.setRgn_cxs (d : Dev) (r : Nat) (x : Region) : (d.setRgn r x).cxs = d.cxs := rfl
@[simp] theorem Dev.setRgn_trust (d : Dev) (r : Nat) (x : Region) : (d.setRgn r x).trust = d.trust := rfl
@[simp] theorem Dev.setRgn_so (d : Dev) (r : Nat) (x : Region) : (d.setRgn r x).so = d.so := rfl
@[simp] theorem Dev.setRgn_ctxs (d : Dev) (r : Nat) (x : Region) : (d.setRgn r x).ctxs = d.ctxs := rfl
@[simp] theorem Dev.setRgn_replay (d : Dev) (r : Nat) (x : Region) : (d.setRgn r x).replay = d.replay := rfl
@[simp] theorem Dev.setRgn_ax (d : Dev) (r : Nat) (x : Region) : (d.setRgn r x).ax = d.ax := rfl
@[simp] theorem Dev.setRgn_fl (d : Dev) (r : Nat) (x : Region) : (d.setRgn r x).fl = d.fl := rfl
@[simp] theorem Dev.setRgn_dma (d : Dev) (r : Nat) (x : Region) : (d.setRgn r x).dma = d.dma := rfl
@[simp] theorem Dev.setRgn_pw (d : Dev) (r : Nat) (x : Region) : (d.setRgn r x).pw = d.pw := rfl
@[simp] theorem Dev.setRgn_rd (d : Dev) (r : Nat) (x : Region) (j : Nat) : (d.setRgn r x).rd j = d.rd j := rfl
@[simp] theorem Dev.setRgn_n (d : Dev) (r : Nat) (x : Region) (j : Nat) : (d.setRgn r x).n j = d.n j := rfl
@[simp] theorem Dev.setRgn_f (d : Dev) (r : Nat) (x : Region) (j lo len : Nat) : (d.setRgn r x).f j lo len = d.f j lo len := rfl
@[simp] theorem Dev.setRgn_on (d : Dev) (r : Nat) (x : Region) (j m : Nat) : (d.setRgn r x).on j m = d.on j m := rfl
@[simp] theorem Dev.setRgn_now (d : Dev) (r : Nat) (x : Region) : (d.setRgn r x).now = d.now := rfl

/-! setPort changes ports only. -/
@[simp] theorem Dev.setPort_regs (d : Dev) (p : Nat) (x : PortSt) : (d.setPort p x).regs = d.regs := rfl
@[simp] theorem Dev.setPort_resp (d : Dev) (p : Nat) (x : PortSt) : (d.setPort p x).resp = d.resp := rfl
@[simp] theorem Dev.setPort_arms (d : Dev) (p : Nat) (x : PortSt) : (d.setPort p x).arms = d.arms := rfl
@[simp] theorem Dev.setPort_shadow (d : Dev) (p : Nat) (x : PortSt) : (d.setPort p x).shadow = d.shadow := rfl
@[simp] theorem Dev.setPort_lows (d : Dev) (p : Nat) (x : PortSt) : (d.setPort p x).lows = d.lows := rfl
@[simp] theorem Dev.setPort_inflight (d : Dev) (p : Nat) (x : PortSt) : (d.setPort p x).inflight = d.inflight := rfl
@[simp] theorem Dev.setPort_fresh (d : Dev) (p : Nat) (x : PortSt) : (d.setPort p x).fresh = d.fresh := rfl
@[simp] theorem Dev.setPort_recSeq (d : Dev) (p : Nat) (x : PortSt) : (d.setPort p x).recSeq = d.recSeq := rfl
@[simp] theorem Dev.setPort_recPhys (d : Dev) (p : Nat) (x : PortSt) : (d.setPort p x).recPhys = d.recPhys := rfl
@[simp] theorem Dev.setPort_out (d : Dev) (p : Nat) (x : PortSt) : (d.setPort p x).out = d.out := rfl
@[simp] theorem Dev.setPort_pulses (d : Dev) (p : Nat) (x : PortSt) : (d.setPort p x).pulses = d.pulses := rfl
@[simp] theorem Dev.setPort_lastDerated (d : Dev) (p : Nat) (x : PortSt) : (d.setPort p x).lastDerated = d.lastDerated := rfl
@[simp] theorem Dev.setPort_slow (d : Dev) (p : Nat) (x : PortSt) : (d.setPort p x).slow = d.slow := rfl
@[simp] theorem Dev.setPort_winPend (d : Dev) (p : Nat) (x : PortSt) : (d.setPort p x).winPend = d.winPend := rfl
@[simp] theorem Dev.setPort_tb (d : Dev) (p : Nat) (x : PortSt) : (d.setPort p x).tb = d.tb := rfl
@[simp] theorem Dev.setPort_ev (d : Dev) (p : Nat) (x : PortSt) : (d.setPort p x).ev = d.ev := rfl
@[simp] theorem Dev.setPort_sump (d : Dev) (p : Nat) (x : PortSt) : (d.setPort p x).sump = d.sump := rfl
@[simp] theorem Dev.setPort_cw (d : Dev) (p : Nat) (x : PortSt) : (d.setPort p x).cw = d.cw := rfl
@[simp] theorem Dev.setPort_streams (d : Dev) (p : Nat) (x : PortSt) : (d.setPort p x).streams = d.streams := rfl
@[simp] theorem Dev.setPort_lanes (d : Dev) (p : Nat) (x : PortSt) : (d.setPort p x).lanes = d.lanes := rfl
@[simp] theorem Dev.setPort_groups (d : Dev) (p : Nat) (x : PortSt) : (d.setPort p x).groups = d.groups := rfl
@[simp] theorem Dev.setPort_logBuf (d : Dev) (p : Nat) (x : PortSt) : (d.setPort p x).logBuf = d.logBuf := rfl
@[simp] theorem Dev.setPort_dets (d : Dev) (p : Nat) (x : PortSt) : (d.setPort p x).dets = d.dets := rfl
@[simp] theorem Dev.setPort_history (d : Dev) (p : Nat) (x : PortSt) : (d.setPort p x).history = d.history := rfl
@[simp] theorem Dev.setPort_flats (d : Dev) (p : Nat) (x : PortSt) : (d.setPort p x).flats = d.flats := rfl
@[simp] theorem Dev.setPort_masks (d : Dev) (p : Nat) (x : PortSt) : (d.setPort p x).masks = d.masks := rfl
@[simp] theorem Dev.setPort_dens (d : Dev) (p : Nat) (x : PortSt) : (d.setPort p x).dens = d.dens := rfl
@[simp] theorem Dev.setPort_grids (d : Dev) (p : Nat) (x : PortSt) : (d.setPort p x).grids = d.grids := rfl
@[simp] theorem Dev.setPort_fab (d : Dev) (p : Nat) (x : PortSt) : (d.setPort p x).fab = d.fab := rfl
@[simp] theorem Dev.setPort_stats (d : Dev) (p : Nat) (x : PortSt) : (d.setPort p x).stats = d.stats := rfl
@[simp] theorem Dev.setPort_edge (d : Dev) (p : Nat) (x : PortSt) : (d.setPort p x).edge = d.edge := rfl
@[simp] theorem Dev.setPort_disp (d : Dev) (p : Nat) (x : PortSt) : (d.setPort p x).disp = d.disp := rfl
@[simp] theorem Dev.setPort_engs (d : Dev) (p : Nat) (x : PortSt) : (d.setPort p x).engs = d.engs := rfl
@[simp] theorem Dev.setPort_cls (d : Dev) (p : Nat) (x : PortSt) : (d.setPort p x).cls = d.cls := rfl
@[simp] theorem Dev.setPort_mc (d : Dev) (p : Nat) (x : PortSt) : (d.setPort p x).mc = d.mc := rfl
@[simp] theorem Dev.setPort_rings (d : Dev) (p : Nat) (x : PortSt) : (d.setPort p x).rings = d.rings := rfl
@[simp] theorem Dev.setPort_cxs (d : Dev) (p : Nat) (x : PortSt) : (d.setPort p x).cxs = d.cxs := rfl
@[simp] theorem Dev.setPort_trust (d : Dev) (p : Nat) (x : PortSt) : (d.setPort p x).trust = d.trust := rfl
@[simp] theorem Dev.setPort_so (d : Dev) (p : Nat) (x : PortSt) : (d.setPort p x).so = d.so := rfl
@[simp] theorem Dev.setPort_ctxs (d : Dev) (p : Nat) (x : PortSt) : (d.setPort p x).ctxs = d.ctxs := rfl
@[simp] theorem Dev.setPort_replay (d : Dev) (p : Nat) (x : PortSt) : (d.setPort p x).replay = d.replay := rfl
@[simp] theorem Dev.setPort_ax (d : Dev) (p : Nat) (x : PortSt) : (d.setPort p x).ax = d.ax := rfl
@[simp] theorem Dev.setPort_fl (d : Dev) (p : Nat) (x : PortSt) : (d.setPort p x).fl = d.fl := rfl
@[simp] theorem Dev.setPort_dma (d : Dev) (p : Nat) (x : PortSt) : (d.setPort p x).dma = d.dma := rfl
@[simp] theorem Dev.setPort_pw (d : Dev) (p : Nat) (x : PortSt) : (d.setPort p x).pw = d.pw := rfl
@[simp] theorem Dev.setPort_rd (d : Dev) (p : Nat) (x : PortSt) (j : Nat) : (d.setPort p x).rd j = d.rd j := rfl
@[simp] theorem Dev.setPort_n (d : Dev) (p : Nat) (x : PortSt) (j : Nat) : (d.setPort p x).n j = d.n j := rfl
@[simp] theorem Dev.setPort_f (d : Dev) (p : Nat) (x : PortSt) (j lo len : Nat) : (d.setPort p x).f j lo len = d.f j lo len := rfl
@[simp] theorem Dev.setPort_on (d : Dev) (p : Nat) (x : PortSt) (j m : Nat) : (d.setPort p x).on j m = d.on j m := rfl
@[simp] theorem Dev.setPort_now (d : Dev) (p : Nat) (x : PortSt) : (d.setPort p x).now = d.now := rfl

/-! setSlot changes cw only. -/
@[simp] theorem Dev.setSlot_regs (d : Dev) (t k : Nat) (x : Slot) : (d.setSlot t k x).regs = d.regs := rfl
@[simp] theorem Dev.setSlot_resp (d : Dev) (t k : Nat) (x : Slot) : (d.setSlot t k x).resp = d.resp := rfl
@[simp] theorem Dev.setSlot_arms (d : Dev) (t k : Nat) (x : Slot) : (d.setSlot t k x).arms = d.arms := rfl
@[simp] theorem Dev.setSlot_shadow (d : Dev) (t k : Nat) (x : Slot) : (d.setSlot t k x).shadow = d.shadow := rfl
@[simp] theorem Dev.setSlot_lows (d : Dev) (t k : Nat) (x : Slot) : (d.setSlot t k x).lows = d.lows := rfl
@[simp] theorem Dev.setSlot_inflight (d : Dev) (t k : Nat) (x : Slot) : (d.setSlot t k x).inflight = d.inflight := rfl
@[simp] theorem Dev.setSlot_fresh (d : Dev) (t k : Nat) (x : Slot) : (d.setSlot t k x).fresh = d.fresh := rfl
@[simp] theorem Dev.setSlot_recSeq (d : Dev) (t k : Nat) (x : Slot) : (d.setSlot t k x).recSeq = d.recSeq := rfl
@[simp] theorem Dev.setSlot_recPhys (d : Dev) (t k : Nat) (x : Slot) : (d.setSlot t k x).recPhys = d.recPhys := rfl
@[simp] theorem Dev.setSlot_out (d : Dev) (t k : Nat) (x : Slot) : (d.setSlot t k x).out = d.out := rfl
@[simp] theorem Dev.setSlot_pulses (d : Dev) (t k : Nat) (x : Slot) : (d.setSlot t k x).pulses = d.pulses := rfl
@[simp] theorem Dev.setSlot_lastDerated (d : Dev) (t k : Nat) (x : Slot) : (d.setSlot t k x).lastDerated = d.lastDerated := rfl
@[simp] theorem Dev.setSlot_slow (d : Dev) (t k : Nat) (x : Slot) : (d.setSlot t k x).slow = d.slow := rfl
@[simp] theorem Dev.setSlot_winPend (d : Dev) (t k : Nat) (x : Slot) : (d.setSlot t k x).winPend = d.winPend := rfl
@[simp] theorem Dev.setSlot_tb (d : Dev) (t k : Nat) (x : Slot) : (d.setSlot t k x).tb = d.tb := rfl
@[simp] theorem Dev.setSlot_ev (d : Dev) (t k : Nat) (x : Slot) : (d.setSlot t k x).ev = d.ev := rfl
@[simp] theorem Dev.setSlot_sump (d : Dev) (t k : Nat) (x : Slot) : (d.setSlot t k x).sump = d.sump := rfl
@[simp] theorem Dev.setSlot_streams (d : Dev) (t k : Nat) (x : Slot) : (d.setSlot t k x).streams = d.streams := rfl
@[simp] theorem Dev.setSlot_ports (d : Dev) (t k : Nat) (x : Slot) : (d.setSlot t k x).ports = d.ports := rfl
@[simp] theorem Dev.setSlot_lanes (d : Dev) (t k : Nat) (x : Slot) : (d.setSlot t k x).lanes = d.lanes := rfl
@[simp] theorem Dev.setSlot_groups (d : Dev) (t k : Nat) (x : Slot) : (d.setSlot t k x).groups = d.groups := rfl
@[simp] theorem Dev.setSlot_logBuf (d : Dev) (t k : Nat) (x : Slot) : (d.setSlot t k x).logBuf = d.logBuf := rfl
@[simp] theorem Dev.setSlot_dets (d : Dev) (t k : Nat) (x : Slot) : (d.setSlot t k x).dets = d.dets := rfl
@[simp] theorem Dev.setSlot_history (d : Dev) (t k : Nat) (x : Slot) : (d.setSlot t k x).history = d.history := rfl
@[simp] theorem Dev.setSlot_flats (d : Dev) (t k : Nat) (x : Slot) : (d.setSlot t k x).flats = d.flats := rfl
@[simp] theorem Dev.setSlot_masks (d : Dev) (t k : Nat) (x : Slot) : (d.setSlot t k x).masks = d.masks := rfl
@[simp] theorem Dev.setSlot_dens (d : Dev) (t k : Nat) (x : Slot) : (d.setSlot t k x).dens = d.dens := rfl
@[simp] theorem Dev.setSlot_grids (d : Dev) (t k : Nat) (x : Slot) : (d.setSlot t k x).grids = d.grids := rfl
@[simp] theorem Dev.setSlot_fab (d : Dev) (t k : Nat) (x : Slot) : (d.setSlot t k x).fab = d.fab := rfl
@[simp] theorem Dev.setSlot_stats (d : Dev) (t k : Nat) (x : Slot) : (d.setSlot t k x).stats = d.stats := rfl
@[simp] theorem Dev.setSlot_edge (d : Dev) (t k : Nat) (x : Slot) : (d.setSlot t k x).edge = d.edge := rfl
@[simp] theorem Dev.setSlot_disp (d : Dev) (t k : Nat) (x : Slot) : (d.setSlot t k x).disp = d.disp := rfl
@[simp] theorem Dev.setSlot_engs (d : Dev) (t k : Nat) (x : Slot) : (d.setSlot t k x).engs = d.engs := rfl
@[simp] theorem Dev.setSlot_cls (d : Dev) (t k : Nat) (x : Slot) : (d.setSlot t k x).cls = d.cls := rfl
@[simp] theorem Dev.setSlot_mc (d : Dev) (t k : Nat) (x : Slot) : (d.setSlot t k x).mc = d.mc := rfl
@[simp] theorem Dev.setSlot_rings (d : Dev) (t k : Nat) (x : Slot) : (d.setSlot t k x).rings = d.rings := rfl
@[simp] theorem Dev.setSlot_cxs (d : Dev) (t k : Nat) (x : Slot) : (d.setSlot t k x).cxs = d.cxs := rfl
@[simp] theorem Dev.setSlot_trust (d : Dev) (t k : Nat) (x : Slot) : (d.setSlot t k x).trust = d.trust := rfl
@[simp] theorem Dev.setSlot_so (d : Dev) (t k : Nat) (x : Slot) : (d.setSlot t k x).so = d.so := rfl
@[simp] theorem Dev.setSlot_ctxs (d : Dev) (t k : Nat) (x : Slot) : (d.setSlot t k x).ctxs = d.ctxs := rfl
@[simp] theorem Dev.setSlot_replay (d : Dev) (t k : Nat) (x : Slot) : (d.setSlot t k x).replay = d.replay := rfl
@[simp] theorem Dev.setSlot_ax (d : Dev) (t k : Nat) (x : Slot) : (d.setSlot t k x).ax = d.ax := rfl
@[simp] theorem Dev.setSlot_fl (d : Dev) (t k : Nat) (x : Slot) : (d.setSlot t k x).fl = d.fl := rfl
@[simp] theorem Dev.setSlot_dma (d : Dev) (t k : Nat) (x : Slot) : (d.setSlot t k x).dma = d.dma := rfl
@[simp] theorem Dev.setSlot_pw (d : Dev) (t k : Nat) (x : Slot) : (d.setSlot t k x).pw = d.pw := rfl
@[simp] theorem Dev.setSlot_rd (d : Dev) (t k : Nat) (x : Slot) (j : Nat) : (d.setSlot t k x).rd j = d.rd j := rfl
@[simp] theorem Dev.setSlot_n (d : Dev) (t k : Nat) (x : Slot) (j : Nat) : (d.setSlot t k x).n j = d.n j := rfl
@[simp] theorem Dev.setSlot_f (d : Dev) (t k : Nat) (x : Slot) (j lo len : Nat) : (d.setSlot t k x).f j lo len = d.f j lo len := rfl
@[simp] theorem Dev.setSlot_on (d : Dev) (t k : Nat) (x : Slot) (j m : Nat) : (d.setSlot t k x).on j m = d.on j m := rfl
@[simp] theorem Dev.setSlot_now (d : Dev) (t k : Nat) (x : Slot) : (d.setSlot t k x).now = d.now := rfl

/-! setStream changes streams only. -/
@[simp] theorem Dev.setStream_regs (d : Dev) (s : Nat) (x : StreamSt) : (d.setStream s x).regs = d.regs := rfl
@[simp] theorem Dev.setStream_resp (d : Dev) (s : Nat) (x : StreamSt) : (d.setStream s x).resp = d.resp := rfl
@[simp] theorem Dev.setStream_arms (d : Dev) (s : Nat) (x : StreamSt) : (d.setStream s x).arms = d.arms := rfl
@[simp] theorem Dev.setStream_shadow (d : Dev) (s : Nat) (x : StreamSt) : (d.setStream s x).shadow = d.shadow := rfl
@[simp] theorem Dev.setStream_lows (d : Dev) (s : Nat) (x : StreamSt) : (d.setStream s x).lows = d.lows := rfl
@[simp] theorem Dev.setStream_inflight (d : Dev) (s : Nat) (x : StreamSt) : (d.setStream s x).inflight = d.inflight := rfl
@[simp] theorem Dev.setStream_fresh (d : Dev) (s : Nat) (x : StreamSt) : (d.setStream s x).fresh = d.fresh := rfl
@[simp] theorem Dev.setStream_recSeq (d : Dev) (s : Nat) (x : StreamSt) : (d.setStream s x).recSeq = d.recSeq := rfl
@[simp] theorem Dev.setStream_recPhys (d : Dev) (s : Nat) (x : StreamSt) : (d.setStream s x).recPhys = d.recPhys := rfl
@[simp] theorem Dev.setStream_out (d : Dev) (s : Nat) (x : StreamSt) : (d.setStream s x).out = d.out := rfl
@[simp] theorem Dev.setStream_pulses (d : Dev) (s : Nat) (x : StreamSt) : (d.setStream s x).pulses = d.pulses := rfl
@[simp] theorem Dev.setStream_lastDerated (d : Dev) (s : Nat) (x : StreamSt) : (d.setStream s x).lastDerated = d.lastDerated := rfl
@[simp] theorem Dev.setStream_slow (d : Dev) (s : Nat) (x : StreamSt) : (d.setStream s x).slow = d.slow := rfl
@[simp] theorem Dev.setStream_winPend (d : Dev) (s : Nat) (x : StreamSt) : (d.setStream s x).winPend = d.winPend := rfl
@[simp] theorem Dev.setStream_tb (d : Dev) (s : Nat) (x : StreamSt) : (d.setStream s x).tb = d.tb := rfl
@[simp] theorem Dev.setStream_ev (d : Dev) (s : Nat) (x : StreamSt) : (d.setStream s x).ev = d.ev := rfl
@[simp] theorem Dev.setStream_sump (d : Dev) (s : Nat) (x : StreamSt) : (d.setStream s x).sump = d.sump := rfl
@[simp] theorem Dev.setStream_cw (d : Dev) (s : Nat) (x : StreamSt) : (d.setStream s x).cw = d.cw := rfl
@[simp] theorem Dev.setStream_ports (d : Dev) (s : Nat) (x : StreamSt) : (d.setStream s x).ports = d.ports := rfl
@[simp] theorem Dev.setStream_lanes (d : Dev) (s : Nat) (x : StreamSt) : (d.setStream s x).lanes = d.lanes := rfl
@[simp] theorem Dev.setStream_groups (d : Dev) (s : Nat) (x : StreamSt) : (d.setStream s x).groups = d.groups := rfl
@[simp] theorem Dev.setStream_logBuf (d : Dev) (s : Nat) (x : StreamSt) : (d.setStream s x).logBuf = d.logBuf := rfl
@[simp] theorem Dev.setStream_dets (d : Dev) (s : Nat) (x : StreamSt) : (d.setStream s x).dets = d.dets := rfl
@[simp] theorem Dev.setStream_history (d : Dev) (s : Nat) (x : StreamSt) : (d.setStream s x).history = d.history := rfl
@[simp] theorem Dev.setStream_flats (d : Dev) (s : Nat) (x : StreamSt) : (d.setStream s x).flats = d.flats := rfl
@[simp] theorem Dev.setStream_masks (d : Dev) (s : Nat) (x : StreamSt) : (d.setStream s x).masks = d.masks := rfl
@[simp] theorem Dev.setStream_dens (d : Dev) (s : Nat) (x : StreamSt) : (d.setStream s x).dens = d.dens := rfl
@[simp] theorem Dev.setStream_grids (d : Dev) (s : Nat) (x : StreamSt) : (d.setStream s x).grids = d.grids := rfl
@[simp] theorem Dev.setStream_fab (d : Dev) (s : Nat) (x : StreamSt) : (d.setStream s x).fab = d.fab := rfl
@[simp] theorem Dev.setStream_stats (d : Dev) (s : Nat) (x : StreamSt) : (d.setStream s x).stats = d.stats := rfl
@[simp] theorem Dev.setStream_edge (d : Dev) (s : Nat) (x : StreamSt) : (d.setStream s x).edge = d.edge := rfl
@[simp] theorem Dev.setStream_disp (d : Dev) (s : Nat) (x : StreamSt) : (d.setStream s x).disp = d.disp := rfl
@[simp] theorem Dev.setStream_engs (d : Dev) (s : Nat) (x : StreamSt) : (d.setStream s x).engs = d.engs := rfl
@[simp] theorem Dev.setStream_cls (d : Dev) (s : Nat) (x : StreamSt) : (d.setStream s x).cls = d.cls := rfl
@[simp] theorem Dev.setStream_mc (d : Dev) (s : Nat) (x : StreamSt) : (d.setStream s x).mc = d.mc := rfl
@[simp] theorem Dev.setStream_rings (d : Dev) (s : Nat) (x : StreamSt) : (d.setStream s x).rings = d.rings := rfl
@[simp] theorem Dev.setStream_cxs (d : Dev) (s : Nat) (x : StreamSt) : (d.setStream s x).cxs = d.cxs := rfl
@[simp] theorem Dev.setStream_trust (d : Dev) (s : Nat) (x : StreamSt) : (d.setStream s x).trust = d.trust := rfl
@[simp] theorem Dev.setStream_so (d : Dev) (s : Nat) (x : StreamSt) : (d.setStream s x).so = d.so := rfl
@[simp] theorem Dev.setStream_ctxs (d : Dev) (s : Nat) (x : StreamSt) : (d.setStream s x).ctxs = d.ctxs := rfl
@[simp] theorem Dev.setStream_replay (d : Dev) (s : Nat) (x : StreamSt) : (d.setStream s x).replay = d.replay := rfl
@[simp] theorem Dev.setStream_ax (d : Dev) (s : Nat) (x : StreamSt) : (d.setStream s x).ax = d.ax := rfl
@[simp] theorem Dev.setStream_fl (d : Dev) (s : Nat) (x : StreamSt) : (d.setStream s x).fl = d.fl := rfl
@[simp] theorem Dev.setStream_dma (d : Dev) (s : Nat) (x : StreamSt) : (d.setStream s x).dma = d.dma := rfl
@[simp] theorem Dev.setStream_pw (d : Dev) (s : Nat) (x : StreamSt) : (d.setStream s x).pw = d.pw := rfl
@[simp] theorem Dev.setStream_rd (d : Dev) (s : Nat) (x : StreamSt) (j : Nat) : (d.setStream s x).rd j = d.rd j := rfl
@[simp] theorem Dev.setStream_n (d : Dev) (s : Nat) (x : StreamSt) (j : Nat) : (d.setStream s x).n j = d.n j := rfl
@[simp] theorem Dev.setStream_f (d : Dev) (s : Nat) (x : StreamSt) (j lo len : Nat) : (d.setStream s x).f j lo len = d.f j lo len := rfl
@[simp] theorem Dev.setStream_on (d : Dev) (s : Nat) (x : StreamSt) (j m : Nat) : (d.setStream s x).on j m = d.on j m := rfl
@[simp] theorem Dev.setStream_now (d : Dev) (s : Nat) (x : StreamSt) : (d.setStream s x).now = d.now := rfl

/-! setEi changes edge only. -/
@[simp] theorem Dev.setEi_regs (d : Dev) (n : Nat) (x : EiSt) : (d.setEi n x).regs = d.regs := rfl
@[simp] theorem Dev.setEi_resp (d : Dev) (n : Nat) (x : EiSt) : (d.setEi n x).resp = d.resp := rfl
@[simp] theorem Dev.setEi_arms (d : Dev) (n : Nat) (x : EiSt) : (d.setEi n x).arms = d.arms := rfl
@[simp] theorem Dev.setEi_shadow (d : Dev) (n : Nat) (x : EiSt) : (d.setEi n x).shadow = d.shadow := rfl
@[simp] theorem Dev.setEi_lows (d : Dev) (n : Nat) (x : EiSt) : (d.setEi n x).lows = d.lows := rfl
@[simp] theorem Dev.setEi_inflight (d : Dev) (n : Nat) (x : EiSt) : (d.setEi n x).inflight = d.inflight := rfl
@[simp] theorem Dev.setEi_fresh (d : Dev) (n : Nat) (x : EiSt) : (d.setEi n x).fresh = d.fresh := rfl
@[simp] theorem Dev.setEi_recSeq (d : Dev) (n : Nat) (x : EiSt) : (d.setEi n x).recSeq = d.recSeq := rfl
@[simp] theorem Dev.setEi_recPhys (d : Dev) (n : Nat) (x : EiSt) : (d.setEi n x).recPhys = d.recPhys := rfl
@[simp] theorem Dev.setEi_out (d : Dev) (n : Nat) (x : EiSt) : (d.setEi n x).out = d.out := rfl
@[simp] theorem Dev.setEi_pulses (d : Dev) (n : Nat) (x : EiSt) : (d.setEi n x).pulses = d.pulses := rfl
@[simp] theorem Dev.setEi_lastDerated (d : Dev) (n : Nat) (x : EiSt) : (d.setEi n x).lastDerated = d.lastDerated := rfl
@[simp] theorem Dev.setEi_slow (d : Dev) (n : Nat) (x : EiSt) : (d.setEi n x).slow = d.slow := rfl
@[simp] theorem Dev.setEi_winPend (d : Dev) (n : Nat) (x : EiSt) : (d.setEi n x).winPend = d.winPend := rfl
@[simp] theorem Dev.setEi_tb (d : Dev) (n : Nat) (x : EiSt) : (d.setEi n x).tb = d.tb := rfl
@[simp] theorem Dev.setEi_ev (d : Dev) (n : Nat) (x : EiSt) : (d.setEi n x).ev = d.ev := rfl
@[simp] theorem Dev.setEi_sump (d : Dev) (n : Nat) (x : EiSt) : (d.setEi n x).sump = d.sump := rfl
@[simp] theorem Dev.setEi_cw (d : Dev) (n : Nat) (x : EiSt) : (d.setEi n x).cw = d.cw := rfl
@[simp] theorem Dev.setEi_streams (d : Dev) (n : Nat) (x : EiSt) : (d.setEi n x).streams = d.streams := rfl
@[simp] theorem Dev.setEi_ports (d : Dev) (n : Nat) (x : EiSt) : (d.setEi n x).ports = d.ports := rfl
@[simp] theorem Dev.setEi_lanes (d : Dev) (n : Nat) (x : EiSt) : (d.setEi n x).lanes = d.lanes := rfl
@[simp] theorem Dev.setEi_groups (d : Dev) (n : Nat) (x : EiSt) : (d.setEi n x).groups = d.groups := rfl
@[simp] theorem Dev.setEi_logBuf (d : Dev) (n : Nat) (x : EiSt) : (d.setEi n x).logBuf = d.logBuf := rfl
@[simp] theorem Dev.setEi_dets (d : Dev) (n : Nat) (x : EiSt) : (d.setEi n x).dets = d.dets := rfl
@[simp] theorem Dev.setEi_history (d : Dev) (n : Nat) (x : EiSt) : (d.setEi n x).history = d.history := rfl
@[simp] theorem Dev.setEi_flats (d : Dev) (n : Nat) (x : EiSt) : (d.setEi n x).flats = d.flats := rfl
@[simp] theorem Dev.setEi_masks (d : Dev) (n : Nat) (x : EiSt) : (d.setEi n x).masks = d.masks := rfl
@[simp] theorem Dev.setEi_dens (d : Dev) (n : Nat) (x : EiSt) : (d.setEi n x).dens = d.dens := rfl
@[simp] theorem Dev.setEi_grids (d : Dev) (n : Nat) (x : EiSt) : (d.setEi n x).grids = d.grids := rfl
@[simp] theorem Dev.setEi_fab (d : Dev) (n : Nat) (x : EiSt) : (d.setEi n x).fab = d.fab := rfl
@[simp] theorem Dev.setEi_stats (d : Dev) (n : Nat) (x : EiSt) : (d.setEi n x).stats = d.stats := rfl
@[simp] theorem Dev.setEi_disp (d : Dev) (n : Nat) (x : EiSt) : (d.setEi n x).disp = d.disp := rfl
@[simp] theorem Dev.setEi_engs (d : Dev) (n : Nat) (x : EiSt) : (d.setEi n x).engs = d.engs := rfl
@[simp] theorem Dev.setEi_cls (d : Dev) (n : Nat) (x : EiSt) : (d.setEi n x).cls = d.cls := rfl
@[simp] theorem Dev.setEi_mc (d : Dev) (n : Nat) (x : EiSt) : (d.setEi n x).mc = d.mc := rfl
@[simp] theorem Dev.setEi_rings (d : Dev) (n : Nat) (x : EiSt) : (d.setEi n x).rings = d.rings := rfl
@[simp] theorem Dev.setEi_cxs (d : Dev) (n : Nat) (x : EiSt) : (d.setEi n x).cxs = d.cxs := rfl
@[simp] theorem Dev.setEi_trust (d : Dev) (n : Nat) (x : EiSt) : (d.setEi n x).trust = d.trust := rfl
@[simp] theorem Dev.setEi_so (d : Dev) (n : Nat) (x : EiSt) : (d.setEi n x).so = d.so := rfl
@[simp] theorem Dev.setEi_ctxs (d : Dev) (n : Nat) (x : EiSt) : (d.setEi n x).ctxs = d.ctxs := rfl
@[simp] theorem Dev.setEi_replay (d : Dev) (n : Nat) (x : EiSt) : (d.setEi n x).replay = d.replay := rfl
@[simp] theorem Dev.setEi_ax (d : Dev) (n : Nat) (x : EiSt) : (d.setEi n x).ax = d.ax := rfl
@[simp] theorem Dev.setEi_fl (d : Dev) (n : Nat) (x : EiSt) : (d.setEi n x).fl = d.fl := rfl
@[simp] theorem Dev.setEi_dma (d : Dev) (n : Nat) (x : EiSt) : (d.setEi n x).dma = d.dma := rfl
@[simp] theorem Dev.setEi_pw (d : Dev) (n : Nat) (x : EiSt) : (d.setEi n x).pw = d.pw := rfl
@[simp] theorem Dev.setEi_rd (d : Dev) (n : Nat) (x : EiSt) (j : Nat) : (d.setEi n x).rd j = d.rd j := rfl
@[simp] theorem Dev.setEi_n (d : Dev) (n : Nat) (x : EiSt) (j : Nat) : (d.setEi n x).n j = d.n j := rfl
@[simp] theorem Dev.setEi_f (d : Dev) (n : Nat) (x : EiSt) (j lo len : Nat) : (d.setEi n x).f j lo len = d.f j lo len := rfl
@[simp] theorem Dev.setEi_on (d : Dev) (n : Nat) (x : EiSt) (j m : Nat) : (d.setEi n x).on j m = d.on j m := rfl
@[simp] theorem Dev.setEi_now (d : Dev) (n : Nat) (x : EiSt) : (d.setEi n x).now = d.now := rfl

/-! setSu changes stats only. -/
@[simp] theorem Dev.setSu_regs (d : Dev) (u : Nat) (x : SuSt) : (d.setSu u x).regs = d.regs := rfl
@[simp] theorem Dev.setSu_resp (d : Dev) (u : Nat) (x : SuSt) : (d.setSu u x).resp = d.resp := rfl
@[simp] theorem Dev.setSu_arms (d : Dev) (u : Nat) (x : SuSt) : (d.setSu u x).arms = d.arms := rfl
@[simp] theorem Dev.setSu_shadow (d : Dev) (u : Nat) (x : SuSt) : (d.setSu u x).shadow = d.shadow := rfl
@[simp] theorem Dev.setSu_lows (d : Dev) (u : Nat) (x : SuSt) : (d.setSu u x).lows = d.lows := rfl
@[simp] theorem Dev.setSu_inflight (d : Dev) (u : Nat) (x : SuSt) : (d.setSu u x).inflight = d.inflight := rfl
@[simp] theorem Dev.setSu_fresh (d : Dev) (u : Nat) (x : SuSt) : (d.setSu u x).fresh = d.fresh := rfl
@[simp] theorem Dev.setSu_recSeq (d : Dev) (u : Nat) (x : SuSt) : (d.setSu u x).recSeq = d.recSeq := rfl
@[simp] theorem Dev.setSu_recPhys (d : Dev) (u : Nat) (x : SuSt) : (d.setSu u x).recPhys = d.recPhys := rfl
@[simp] theorem Dev.setSu_out (d : Dev) (u : Nat) (x : SuSt) : (d.setSu u x).out = d.out := rfl
@[simp] theorem Dev.setSu_pulses (d : Dev) (u : Nat) (x : SuSt) : (d.setSu u x).pulses = d.pulses := rfl
@[simp] theorem Dev.setSu_lastDerated (d : Dev) (u : Nat) (x : SuSt) : (d.setSu u x).lastDerated = d.lastDerated := rfl
@[simp] theorem Dev.setSu_slow (d : Dev) (u : Nat) (x : SuSt) : (d.setSu u x).slow = d.slow := rfl
@[simp] theorem Dev.setSu_winPend (d : Dev) (u : Nat) (x : SuSt) : (d.setSu u x).winPend = d.winPend := rfl
@[simp] theorem Dev.setSu_tb (d : Dev) (u : Nat) (x : SuSt) : (d.setSu u x).tb = d.tb := rfl
@[simp] theorem Dev.setSu_ev (d : Dev) (u : Nat) (x : SuSt) : (d.setSu u x).ev = d.ev := rfl
@[simp] theorem Dev.setSu_sump (d : Dev) (u : Nat) (x : SuSt) : (d.setSu u x).sump = d.sump := rfl
@[simp] theorem Dev.setSu_cw (d : Dev) (u : Nat) (x : SuSt) : (d.setSu u x).cw = d.cw := rfl
@[simp] theorem Dev.setSu_streams (d : Dev) (u : Nat) (x : SuSt) : (d.setSu u x).streams = d.streams := rfl
@[simp] theorem Dev.setSu_ports (d : Dev) (u : Nat) (x : SuSt) : (d.setSu u x).ports = d.ports := rfl
@[simp] theorem Dev.setSu_lanes (d : Dev) (u : Nat) (x : SuSt) : (d.setSu u x).lanes = d.lanes := rfl
@[simp] theorem Dev.setSu_groups (d : Dev) (u : Nat) (x : SuSt) : (d.setSu u x).groups = d.groups := rfl
@[simp] theorem Dev.setSu_logBuf (d : Dev) (u : Nat) (x : SuSt) : (d.setSu u x).logBuf = d.logBuf := rfl
@[simp] theorem Dev.setSu_dets (d : Dev) (u : Nat) (x : SuSt) : (d.setSu u x).dets = d.dets := rfl
@[simp] theorem Dev.setSu_history (d : Dev) (u : Nat) (x : SuSt) : (d.setSu u x).history = d.history := rfl
@[simp] theorem Dev.setSu_flats (d : Dev) (u : Nat) (x : SuSt) : (d.setSu u x).flats = d.flats := rfl
@[simp] theorem Dev.setSu_masks (d : Dev) (u : Nat) (x : SuSt) : (d.setSu u x).masks = d.masks := rfl
@[simp] theorem Dev.setSu_dens (d : Dev) (u : Nat) (x : SuSt) : (d.setSu u x).dens = d.dens := rfl
@[simp] theorem Dev.setSu_grids (d : Dev) (u : Nat) (x : SuSt) : (d.setSu u x).grids = d.grids := rfl
@[simp] theorem Dev.setSu_fab (d : Dev) (u : Nat) (x : SuSt) : (d.setSu u x).fab = d.fab := rfl
@[simp] theorem Dev.setSu_edge (d : Dev) (u : Nat) (x : SuSt) : (d.setSu u x).edge = d.edge := rfl
@[simp] theorem Dev.setSu_disp (d : Dev) (u : Nat) (x : SuSt) : (d.setSu u x).disp = d.disp := rfl
@[simp] theorem Dev.setSu_engs (d : Dev) (u : Nat) (x : SuSt) : (d.setSu u x).engs = d.engs := rfl
@[simp] theorem Dev.setSu_cls (d : Dev) (u : Nat) (x : SuSt) : (d.setSu u x).cls = d.cls := rfl
@[simp] theorem Dev.setSu_mc (d : Dev) (u : Nat) (x : SuSt) : (d.setSu u x).mc = d.mc := rfl
@[simp] theorem Dev.setSu_rings (d : Dev) (u : Nat) (x : SuSt) : (d.setSu u x).rings = d.rings := rfl
@[simp] theorem Dev.setSu_cxs (d : Dev) (u : Nat) (x : SuSt) : (d.setSu u x).cxs = d.cxs := rfl
@[simp] theorem Dev.setSu_trust (d : Dev) (u : Nat) (x : SuSt) : (d.setSu u x).trust = d.trust := rfl
@[simp] theorem Dev.setSu_so (d : Dev) (u : Nat) (x : SuSt) : (d.setSu u x).so = d.so := rfl
@[simp] theorem Dev.setSu_ctxs (d : Dev) (u : Nat) (x : SuSt) : (d.setSu u x).ctxs = d.ctxs := rfl
@[simp] theorem Dev.setSu_replay (d : Dev) (u : Nat) (x : SuSt) : (d.setSu u x).replay = d.replay := rfl
@[simp] theorem Dev.setSu_ax (d : Dev) (u : Nat) (x : SuSt) : (d.setSu u x).ax = d.ax := rfl
@[simp] theorem Dev.setSu_fl (d : Dev) (u : Nat) (x : SuSt) : (d.setSu u x).fl = d.fl := rfl
@[simp] theorem Dev.setSu_dma (d : Dev) (u : Nat) (x : SuSt) : (d.setSu u x).dma = d.dma := rfl
@[simp] theorem Dev.setSu_pw (d : Dev) (u : Nat) (x : SuSt) : (d.setSu u x).pw = d.pw := rfl
@[simp] theorem Dev.setSu_rd (d : Dev) (u : Nat) (x : SuSt) (j : Nat) : (d.setSu u x).rd j = d.rd j := rfl
@[simp] theorem Dev.setSu_n (d : Dev) (u : Nat) (x : SuSt) (j : Nat) : (d.setSu u x).n j = d.n j := rfl
@[simp] theorem Dev.setSu_f (d : Dev) (u : Nat) (x : SuSt) (j lo len : Nat) : (d.setSu u x).f j lo len = d.f j lo len := rfl
@[simp] theorem Dev.setSu_on (d : Dev) (u : Nat) (x : SuSt) (j m : Nat) : (d.setSu u x).on j m = d.on j m := rfl
@[simp] theorem Dev.setSu_now (d : Dev) (u : Nat) (x : SuSt) : (d.setSu u x).now = d.now := rfl

/-! Reading a unit back. -/
@[simp] theorem Dev.eng_setEng (d : Dev) (j n : Nat) (x : EngSt) : (d.setEng n x).eng j = if j = n then x else d.eng j :=
  Tab.get_set (α := EngSt) _ _ j n x
@[simp] theorem Dev.lane_setLane (d : Dev) (j l : Nat) (x : LaneSt) : (d.setLane l x).lane j = if j = l then x else d.lane j :=
  Tab.get_set (α := LaneSt) _ _ j l x
@[simp] theorem Dev.port_setPort (d : Dev) (j p : Nat) (x : PortSt) : (d.setPort p x).port j = if j = p then x else d.port j :=
  Tab.get_set (α := PortSt) _ _ j p x
@[simp] theorem Dev.stream_setStream (d : Dev) (j s : Nat) (x : StreamSt) : (d.setStream s x).stream j = if j = s then x else d.stream j :=
  Tab.get_set (α := StreamSt) _ _ j s x
@[simp] theorem Dev.ring_setRing (d : Dev) (j s : Nat) (x : RingSt) : (d.setRing s x).ring j = if j = s then x else d.ring j :=
  Tab.get_set (α := RingSt) _ _ j s x
@[simp] theorem Dev.dmaCh_setDma (d : Dev) (j c : Nat) (x : DmaCh) : (d.setDma c x).dmaCh j = if j = c then x else d.dmaCh j :=
  Tab.get_set (α := DmaCh) _ _ j c x
@[simp] theorem Dev.ctx_setCtx (d : Dev) (j c : Nat) (x : CtxSt) : (d.setCtx c x).ctx j = if j = c then x else d.ctx j :=
  Tab.get_set (α := CtxSt) _ _ j c x
@[simp] theorem Dev.det_setDet (d : Dev) (j l : Nat) (x : DetSt) : (d.setDet l x).det j = if j = l then x else d.det j :=
  Tab.get_set (α := DetSt) _ _ j l x
@[simp] theorem Dev.den_setDen (d : Dev) (j l : Nat) (x : DensSt) : (d.setDen l x).den j = if j = l then x else d.den j :=
  Tab.get_set (α := DensSt) _ _ j l x
@[simp] theorem Dev.eiSt_setEi (d : Dev) (j n : Nat) (x : EiSt) : (d.setEi n x).eiSt j = if j = n then x else d.eiSt j :=
  Tab.get_set (α := EiSt) _ _ j n x
@[simp] theorem Dev.cl_setCl (d : Dev) (j c : Nat) (x : ClSt) : (d.setCl c x).cl j = if j = c then x else d.cl j :=
  Tab.get_set (α := ClSt) _ _ j c x

/-! The three outcomes of the queue, and a command's effect through the device or through the device and HBM. -/
@[simp] theorem State.onDev_eq (s : State) (f : Dev → Dev) : s.onDev f = .next { s with dev := f s.dev } := rfl
@[simp] theorem State.onSys_eq (s : State) (f : Sys → Sys) : s.onSys f = .next { s with dev := (f ⟨s.mem, s.dev⟩).dev, mem := (f ⟨s.mem, s.dev⟩).mem } := rfl

end Sys2Proof.Machine
end

