-- ==== Sys2Proof/WellFormed.lean ====
section
/-! DEFINITION. Well-formed commands: the operands the manual's words for a row admit. The types of the operands (unit numbers, words) carry the other bounds. -/
namespace Sys2Proof

/-- An address in register space or a device region (R524, R526). -/
def inBusSpace (addr : Nat) : Bool := decide (0x0F0000000000 ≤ addr) && decide (addr < 0x0F0030000000)

/-- The address of a 32-bit word there (R525). -/
def regAligned (addr : Nat) : Bool := inBusSpace addr && addr % 4 == 0

/-- Numbers rise strictly. -/
def rising : List Nat → Bool
  | a :: b :: l => decide (a < b) && rising (b :: l)
  | _ => true

/-- The operands of a command lie in the ranges its row gives them: an address lies in register space or a device region, and in the rows of 32-bit accesses on a word of it (R524 to R526, R529 to R534); a written value has the size of its access, which need not be one the registers take (R525); an extended multiblock brings octets and an arrival time for at most 24 lanes, and its CRC faults name a lane and one of 32 multiblocks (R71, R82); eye widths are those of at most 24 lanes, in units below 1024 (R91, R98); pulse codes are of one step, each once (R175); a display line has at most 3840 pixels (R220); an AUX reply has at most 16 bytes (R232); a calibration run judges at most two interpolators, of three chains each (R253, R254); a raw conversion has 24 bits (R386); a calibration has five gains of sixteen outputs on either node, and sixteen outputs of its check (R396); each measurement brings 32 ring counts (R409), an ageing measurement 96 pairs (R417); an AVSBus readback has 16 bits (R410); a memory write brings the bytes it writes (R441); a PFC frame has eight timers (R466); events are 0 to 1535 (R502); a WREL count has 17 bits (R320); self-tests name physical lanes, engines and SRAM banks (R579); BYPASS is every opcode the TAP does not list (R580). -/
def Instr.wf (c : Instr) : Bool :=
  match c with
  | .registerWrite _ addr size data => inBusSpace addr && decide (1 ≤ size) && decide (size ≤ 64) && decide (data < 2 ^ (8 * size))
  | .pairLowRead _ addr => regAligned addr
  | .pairHighRead _ addr => regAligned addr
  | .pairLowWrite _ addr _ => regAligned addr
  | .pairHighWrite _ addr _ => regAligned addr
  | .sqClear _ addr _ => regAligned addr
  | .postedWrite _ addr _ => regAligned addr
  | .guardArm _ addr _ => regAligned addr
  | .guardArmExpire addr => regAligned addr
  | .extMultiblockRelease _ octets arrive crcBad => decide (octets.length ≤ 24) && (octets.all fun l => l.all fun b => decide (b < 256)) && decide (arrive.length ≤ 24) && crcBad.all fun e => decide (e.1 < 24) && decide (e.2 < 32)
  | .eqAdaptEnd _ eyes => decide (eyes.length ≤ 24) && eyes.all fun w => decide (w < 1024)
  | .fabricPulseArrival codes => rising codes && codes.all fun c => decide (c < 512)
  | .displayLineStart missing => decide (missing ≤ 3840)
  | .auxReply _ bytes => decide (bytes.length ≤ 16)
  | .eiCalRunEnd _ runs => decide (runs.length ≤ 2) && runs.all fun c => decide (c.length = 3)
  | .windowRelease _ _ n => decide (n < 2 ^ 17)
  | .decisionEdge g => decide (g < 256)
  | .lateCommit g => decide (g < 256)
  | .lateLimitExpire g => decide (g < 256)
  | .commitStrobe g => decide (g < 256)
  | .switchComplete g => decide (g < 256)
  | .conversionOutput raw => decide (-(2 ^ 23) ≤ raw) && decide (raw < 2 ^ 23)
  | .auxCalEnd runs check => runs.length == 5 && runs.all (fun r => r.1.length == 16 && r.2.length == 16) && check.length == 16
  | .measurementWindowEnd counts => counts.length == 32
  | .planMeasurementEnd counts => counts.length == 32
  | .voltageStep _ _ readback => decide (readback < 65536)
  | .regulatorPoll _ _ readback => decide (readback < 65536)
  | .regulatorRetry _ readback => decide (readback < 65536)
  | .ageingMeasureEnd pairs => pairs.length == 96
  | .memRequestAccept _ _ write addr size data => decide (addr + size ≤ 2 ^ 48) && (if write then data.length == size else data.isEmpty)
  | .pfcFrameReceive _ _ _ timers => timers.length == 8 && timers.all fun t => decide (t < 65536)
  | .clearPending _ n => decide (n < 1536)
  | .resetVoltageReady vdd readback => decide (vdd < 65536) && decide (readback < 65536)
  | .bootRomStart _ lanes engines banks => (lanes.all fun l => decide (l < 52)) && (engines.all fun e => decide (e < 136)) && banks.all fun b => decide (b < 8)
  | .bypass op => !([1, 2, 3, 4, 5, 6, 7, 0x10] : List (BitVec 6)).contains op
  | .regAccess _ addr _ => decide (addr < 2 ^ 48)
  | .postedWriteEffect .. | .noClockTimeout .. | .pwErrInfoRead .. | .timeNowRead .. | .dllLock .. | .dllLockLoss .. | .lockGateEnd ..
  | .freqStdAbsent .. | .freqStdReturn .. | .activityLockDeclare .. | .ocxoWarmChange .. | .holdoverEnter .. | .holdoverExit .. | .todArm ..
  | .todCancel .. | .ppsEdge .. | .ppsMissingExpire .. | .outputStart .. | .outputStop .. | .delayWalkStep .. | .divChangeEffect .. | .outSyncCmd ..
  | .outSyncExecute .. | .sysrefShotsDone .. | .ptpStamp .. | .ptpTsPop .. | .cdrLock .. | .syncHeaderLock .. | .embLock .. | .linkUp ..
  | .outageSplit .. | .shLockLost .. | .embLockLost .. | .alignShift .. | .linkRestartCmd .. | .portEqCal .. | .portClearCounts ..
  | .eqCalAutoStart .. | .eqCalDeferredRun .. | .eqSwap .. | .eqRevert .. | .laneEqWrite .. | .laneEqApply .. | .portSwitchBoundary ..
  | .laneSwitchBoundary .. | .frameCompute .. | .laneOverrunResume .. | .rotationStart .. | .rotationHandover .. | .spareFault .. | .laneFault ..
  | .laneTakeover .. | .noLaneGap .. | .spareKatStart .. | .spareKatEnd .. | .detParity .. | .densParity .. | .flatVerify .. | .detClearCounts ..
  | .flatVerifyAutoStart .. | .flatVerifyEnd .. | .qsWindowExpire .. | .qsHoldoffEnd .. | .trigPinRelease .. | .blankRelease .. | .timerPulse ..
  | .swTrig .. | .fabCommit .. | .fabCancelCommit .. | .fabCommitTake .. | .xtFrameStart .. | .xtFrameEnd .. | .xtLocalPulse .. | .xtFrameReceive ..
  | .xtRxPulse .. | .renderStart .. | .renderDone .. | .applyTiming .. | .dispRetrain .. | .cremaFlip .. | .dispClearCounts .. | .vblankStart ..
  | .displayFrameStart .. | .linkTrainingEnd .. | .hpdChange .. | .auxTransaction .. | .edgeCrossing .. | .stampResume .. | .stampBlockAge ..
  | .pwrReady .. | .edgeEnable .. | .initWindowEnd .. | .thresholdSettled .. | .rampStart .. | .rampEnd .. | .interpolatorFault ..
  | .interpolatorTakeover .. | .eiCommit .. | .eiCancelCommit .. | .eiCommitTake .. | .eiCal .. | .eiCalAbort .. | .ilvCommit .. | .eiClearCounts ..
  | .eiCalAutoStart .. | .eiCalTimeout .. | .interpolatorSwap .. | .ilvCommitTake .. | .calDataRead .. | .calDataWrite .. | .thrTrimWrite ..
  | .stampProcess .. | .gateClose .. | .batchTimeLimit .. | .suRecordAge .. | .suOverrunResume .. | .suCommit .. | .suCancelCommit ..
  | .suCommitTake .. | .suFlush .. | .suClearCounts .. | .crNop .. | .crMov .. | .crAdd .. | .crSub .. | .crAdds .. | .crSubs .. | .crAbs ..
  | .crMin .. | .crMax .. | .crAnd .. | .crOr .. | .crXor .. | .crShl .. | .crShr .. | .crMul .. | .crCmp .. | .crBcast .. | .crPack .. | .crUnpk ..
  | .crConj .. | .crMaxi .. | .crMini .. | .crMac .. | .crMacj .. | .crMpy .. | .crMpyj .. | .crAdda .. | .crLda .. | .crClr .. | .crAsum ..
  | .crAddx .. | .crRnd .. | .crExa .. | .crBra .. | .crCall .. | .crRet .. | .crRte .. | .crRep .. | .crLoop .. | .crWait .. | .crHalt ..
  | .crLdi .. | .crMfs .. | .crMts .. | .crLds .. | .crSts .. | .crLdv .. | .crStv .. | .crLdac .. | .crStac .. | .crSti .. | .crLdrs .. | .crStrs ..
  | .eventEntry .. | .waitResume .. | .outWordWrite .. | .outCommit .. | .outDiscard .. | .blockMoveStart .. | .blockMoveDone .. | .engSignal ..
  | .windowFeed .. | .engHaltCmd .. | .engResumeCmd .. | .engRestartCmd .. | .clClearCounts .. | .clusterSwitch .. | .engineRelease ..
  | .engHwFault .. | .engTestStart .. | .engTestEnd .. | .migrationDone .. | .cmdDoorbell .. | .cwWrite .. | .cwRead .. | .cwClear .. | .cwArm ..
  | .cwCancel .. | .tableWrite .. | .imageLoad .. | .imageDrop .. | .cwUnknownOpcode .. | .cwDoneTailWrite .. | .cwEnable .. | .targetAck ..
  | .flowSwitchBoundary .. | .auxSeqGo .. | .auxCal .. | .auxCalAbort .. | .auxClearCounts .. | .injGo .. | .seqRoundStart .. | .injStartQueue ..
  | .hkRoundStart .. | .auxCalAutoStart .. | .resPop .. | .pwmPeriodStart .. | .pwmCompare .. | .tachEdge .. | .tachStall .. | .planStart ..
  | .planSettleEnd .. | .planTimeout .. | .planRetry .. | .replan .. | .flClearCounts .. | .vddOverrideFire .. | .derateOverrideFire ..
  | .ageingMeasureStart .. | .shedDwellEnd .. | .shedPriWrite .. | .streamShed .. | .shedGap .. | .logAppendDone .. | .calSummary .. | .scrubRead ..
  | .scrubPassEnd .. | .scrubLate .. | .marchTestStart .. | .marchTestEnd .. | .memResponse .. | .agePromotion .. | .refreshInterval ..
  | .bankRefresh .. | .hbmTempReport .. | .regionRecordWrite .. | .rgnCpWrite .. | .rgnPlaceWrite .. | .rlenWrite .. | .rlenShortenTake ..
  | .rlenForceFire .. | .cxStart .. | .cxAbort .. | .capClearCounts .. | .captureRecordWrite .. | .mcClearCounts .. | .pfcPauseExpire ..
  | .rxFrameDiscard .. | .flowRecordRelease .. | .packetSend .. | .soLinkDown .. | .soLinkUp .. | .soClearCounts .. | .flushAgeExpire ..
  | .contextStallClear .. | .kFlush .. | .kClearCounts .. | .kpFlush .. | .kpSave .. | .kpRestore .. | .kpClearCounts .. | .kpTransferDone ..
  | .replayStart .. | .replayAbort .. | .replayContinue .. | .replayEnd .. | .dmaDoorbell .. | .descriptorStart .. | .dmaElementDone ..
  | .descriptorEnd .. | .leaseExpire .. | .dmaAbort .. | .dmaClearCounts .. | .drlenWrite .. | .drlenTake .. | .drlenForceFire .. | .dcplTailWrite ..
  | .softwareEventRaise .. | .eventDelivery .. | .engineEventDelivery .. | .claim .. | .evCfgWrite .. | .sumpReport .. | .sumpAck ..
  | .sumpClearCounts .. | .winCommitFire .. | .windowEpochCommit .. | .epochDone .. | .keyRevokeFire .. | .rbAdvanceFire .. | .otpProgramDone ..
  | .idKeyGenerate .. | .idKeyGenerated .. | .idKeyRetire .. | .jtagLockFire .. | .attStart .. | .attestationDone .. | .evidenceInstant ..
  | .evidenceCommit .. | .pdDownRequest .. | .pdUpRequest .. | .powerDownDone .. | .powerUpDone .. | .supplyReset .. | .porNAssert ..
  | .warmNAssert .. | .thermalTrip .. | .thermtripClear .. | .rstCmdWarm .. | .rstCmdDevice .. | .resetVoltageRetry .. | .otpSenseEnd ..
  | .wdogCfgWrite .. | .wdogKick .. | .watchdogExpire .. | .coreEnWrite .. | .testLogicReset .. | .idcode .. | .samplePreload .. | .extest ..
  | .extestPulse .. | .extestTrain .. | .clamp .. | .highz .. | .porNRelease .. | .clSpareFail .. | .xspiCmd .. => true

end Sys2Proof
end

