-- ==== Sys2Proof/Tests/Slice0.lean ====
section
/-! SUPPORT. Tests of one step each, the well-formedness smoke test, and a witness for the hypotheses of every clause of every statement. -/
namespace Sys2Proof
set_option maxRecDepth 10000
set_option Elab.async false
open Sys2Proof.Machine

/-- The device at an instant. -/
def Machine.Dev.clock (d : Dev) (t : Nat) : Dev := d.onTb fun x => { x with dt := t }
/-- Entry 0 of the window table lets every initiator reach every address. -/
def Machine.Dev.grant (d : Dev) : Dev := ((d.wrN (Reg.WIN_FORCE 0 1) 0xFFFFFFFF).wrN (Reg.WIN_FORCE 0 2) 0xF0).wrN (Reg.WIN_FORCE 0 3) 0xB8000000
/-- A setup in force. -/
def Machine.Dev.inForce (d : Dev) (t : Nat) (ws : List Word128) : Dev := d.setSlot t 0 ⟨3, ws⟩
/-- A pending arm. -/
def Machine.Dev.armedAt (d : Dev) (i : Ini) (k : Nat) (v : Word) : Dev := { d with arms := [⟨k, i, v, d.now⟩] }
/-- A group whose strobe has come, with one target. -/
def dueGrp (t : Nat) : Grp := { num := 0, tag := 0, pairs := [(t, 1)], time := 0, postpone := false, committed := true, strobed := true }
/-- The device with that group. -/
def Machine.Dev.dueAt (d : Dev) (t : Nat) : Dev := { d with cw := { d.cw with groups := [dueGrp t] } }
/-- Ten seconds. -/
def tenSeconds : Nat := 10 * 2 ^ 64
/-- An engine at the first of two instructions. -/
def Machine.Dev.runs (d : Dev) (e : Nat) (w : CrW) (f : EngSt → EngSt) : Dev := d.setEng e (f { state := 1, nprog := 2, prog := [BitVec.ofNat 128 (w.toNat * 2 ^ 64)] })
/-- A register of the fabric's bank in force. -/
def Machine.Dev.fbank (d : Dev) (k v : Nat) : Dev := d.setFab { d.fab with bank := d.fab.bank.set regReset k (BitVec.ofNat 32 v) }
/-- A register of the edge inputs' bank in force. -/
def Machine.Dev.ebank (d : Dev) (k v : Nat) : Dev := { d with edge := { d.edge with bank := d.edge.bank.set regReset k (BitVec.ofNat 32 v) } }
/-- The causeway enabled, with rings of 16 entries and one command waiting. -/
def Machine.Dev.cwUp (d : Dev) : Dev :=
  (((d.grant.wrN Reg.CW_CTRL 0x80000404).wrN Reg.CW_CMD_BASE_LO 0x10000).wrN Reg.CW_DONE_BASE_LO 0x20000).wrN Reg.CW_CMD_HEAD 1
/-- A command in the ring, with the words at 0x3_0000. -/
def Machine.State.cwCmd (s : State) (w0 w1 : Word128) (ws : List Word128) : State :=
  { s with dev := s.dev.cwUp, mem := (s.mem.store 0x10000 (([w0, w1] : List Word128).flatMap memWord)).store 0x30000 (ws.flatMap memWord) }
/-- A group that waits for its decision. -/
def armedGrp : Grp := { num := 0, tag := 0, pairs := [(1, 1)], time := 0, postpone := false }
/-- The device with a group. -/
def Machine.Dev.withGrp (d : Dev) (x : Grp) : Dev := { d with cw := { d.cw with groups := [x] } }
/-- The device after reset, changed. -/
def from_ (f : Dev → Dev) : State := { State.reset with dev := f State.reset.dev }
/-! Well-formed commands: a term each check refuses, and terms it takes. -/

/-- A command each check of `Instr.wf` refuses. -/
theorem test_illFormed_refused_1 :
    Instr.wf (.registerWrite 3 0x1000 4 0) = false
    ∧ Instr.wf (.registerWrite 3 0x0F0000000000 0 0) = false
    ∧ Instr.wf (.registerWrite 3 0x0F0000000000 65 0) = false
    ∧ Instr.wf (.registerWrite 3 0x0F0000000000 4 0x100000000) = false
    ∧ Instr.wf (.pairLowRead 3 0x0F0000000002) = false
    ∧ Instr.wf (.pairHighRead 3 0x0F0030000000) = false
    ∧ Instr.wf (.pairLowWrite 3 0x0F0000000001 0) = false
    ∧ Instr.wf (.pairHighWrite 3 0x0EFFFFFFFFFC 0) = false := by decide +kernel
/-- A command each check of `Instr.wf` refuses. -/
theorem test_illFormed_refused_2 :
    Instr.wf (.sqClear 3 0x0F0000000003 0) = false
    ∧ Instr.wf (.postedWrite 3 1 0) = false
    ∧ Instr.wf (.guardArm 3 0x0F0000000006 0) = false
    ∧ Instr.wf (.guardArmExpire 0) = false
    ∧ Instr.wf (.extMultiblockRelease 0 (List.replicate 25 []) [] []) = false
    ∧ Instr.wf (.extMultiblockRelease 0 [[256]] [] []) = false
    ∧ Instr.wf (.extMultiblockRelease 0 [] (List.replicate 25 0) []) = false
    ∧ Instr.wf (.extMultiblockRelease 0 [] [] [(24, 0)]) = false
    ∧ Instr.wf (.extMultiblockRelease 0 [] [] [(0, 32)]) = false
    ∧ Instr.wf (.eqAdaptEnd 0 [1024]) = false
    ∧ Instr.wf (.eqAdaptEnd 0 (List.replicate 25 0)) = false := by decide +kernel
/-- A command each check of `Instr.wf` refuses. -/
theorem test_illFormed_refused_3 :
    Instr.wf (.fabricPulseArrival [5, 5]) = false
    ∧ Instr.wf (.fabricPulseArrival [512]) = false
    ∧ Instr.wf (.displayLineStart 3841) = false
    ∧ Instr.wf (.auxReply 0 (List.replicate 17 0)) = false
    ∧ Instr.wf (.eiCalRunEnd 0 [[[], [], []], [[], [], []], [[], [], []]]) = false
    ∧ Instr.wf (.eiCalRunEnd 0 [[[], [], [], []]]) = false
    ∧ Instr.wf (.windowRelease 0 0 131072) = false
    ∧ Instr.wf (.decisionEdge 256) = false := by decide +kernel
/-- A command each check of `Instr.wf` refuses. -/
theorem test_illFormed_refused_4 :
    Instr.wf (.lateCommit 256) = false
    ∧ Instr.wf (.lateLimitExpire 256) = false
    ∧ Instr.wf (.commitStrobe 256) = false
    ∧ Instr.wf (.switchComplete 256) = false
    ∧ Instr.wf (.conversionOutput 8388608) = false
    ∧ Instr.wf (.conversionOutput (-8388609)) = false
    ∧ Instr.wf (.auxCalEnd [(List.replicate 16 0, List.replicate 16 0)] (List.replicate 16 0)) = false
    ∧ Instr.wf (.auxCalEnd (List.replicate 5 ([], List.replicate 16 0)) (List.replicate 16 0)) = false
    ∧ Instr.wf (.auxCalEnd (List.replicate 5 (List.replicate 16 0, [])) (List.replicate 16 0)) = false
    ∧ Instr.wf (.auxCalEnd (List.replicate 5 (List.replicate 16 0, List.replicate 16 0)) []) = false := by decide +kernel
/-- A command each check of `Instr.wf` refuses. -/
theorem test_illFormed_refused_5 :
    Instr.wf (.measurementWindowEnd [1]) = false
    ∧ Instr.wf (.planMeasurementEnd []) = false
    ∧ Instr.wf (.voltageStep true false 65536) = false
    ∧ Instr.wf (.regulatorPoll true false 65536) = false
    ∧ Instr.wf (.regulatorRetry true 65536) = false
    ∧ Instr.wf (.ageingMeasureEnd []) = false
    ∧ Instr.wf (.memRequestAccept 0 3 true 0 2 [0]) = false
    ∧ Instr.wf (.memRequestAccept 0 3 false 0 2 [0]) = false := by decide +kernel
/-- A command each check of `Instr.wf` refuses. -/
theorem test_illFormed_refused_6 :
    Instr.wf (.memRequestAccept 0 3 false (2 ^ 48 - 1) 2 []) = false
    ∧ Instr.wf (.pfcFrameReceive 0 true 0 [0]) = false
    ∧ Instr.wf (.pfcFrameReceive 0 true 0 [65536, 0, 0, 0, 0, 0, 0, 0]) = false
    ∧ Instr.wf (.clearPending 3 1536) = false
    ∧ Instr.wf (.resetVoltageReady 65536 0) = false
    ∧ Instr.wf (.resetVoltageReady 0 65536) = false
    ∧ Instr.wf (.bootRomStart true [52] [] []) = false
    ∧ Instr.wf (.bootRomStart true [] [136] []) = false := by decide +kernel
/-- A command each check of `Instr.wf` refuses. -/
theorem test_illFormed_refused_7 :
    Instr.wf (.bootRomStart true [] [] [8]) = false
    ∧ Instr.wf (.bypass 1) = false
    ∧ Instr.wf (.regAccess true (2 ^ 48) 0) = false := by decide +kernel

/-- Commands at the edges of the same checks. -/
theorem test_wellFormed_taken_1 :
    Instr.wf (.registerWrite 3 0x0F0000000000 4 0xFFFFFFFF) = true
    ∧ Instr.wf (.pairLowRead 3 0x0F0000000004) = true
    ∧ Instr.wf (.pairHighWrite 3 0x0F002FFFFFFC 0) = true
    ∧ Instr.wf (.extMultiblockRelease 0 [[0, 255]] [7] [(23, 31)]) = true
    ∧ Instr.wf (.eqAdaptEnd 0 [1023]) = true
    ∧ Instr.wf (.fabricPulseArrival [4, 5, 511]) = true
    ∧ Instr.wf (.displayLineStart 3840) = true
    ∧ Instr.wf (.auxReply 0 (List.replicate 16 0)) = true := by decide +kernel
/-- Commands at the edges of the same checks. -/
theorem test_wellFormed_taken_2 :
    Instr.wf (.windowRelease 0 0 131071) = true
    ∧ Instr.wf (.commitStrobe 255) = true
    ∧ Instr.wf (.conversionOutput 8388607) = true
    ∧ Instr.wf (.auxCalEnd (List.replicate 5 (List.replicate 16 0, List.replicate 16 0)) (List.replicate 16 0)) = true
    ∧ Instr.wf (.planMeasurementEnd (List.replicate 32 0)) = true
    ∧ Instr.wf (.voltageStep true false 65535) = true
    ∧ Instr.wf (.ageingMeasureEnd (List.replicate 96 (0, 1))) = true
    ∧ Instr.wf (.memRequestAccept 0 3 true 0 2 [0, 0]) = true := by decide +kernel
/-- Commands at the edges of the same checks. -/
theorem test_wellFormed_taken_3 :
    Instr.wf (.pfcFrameReceive 0 true 0 (List.replicate 8 65535)) = true
    ∧ Instr.wf (.clearPending 3 1535) = true
    ∧ Instr.wf (.bootRomStart true [51] [135] [7]) = true
    ∧ Instr.wf (.bypass 0x3F) = true
    ∧ Instr.wf (.regAccess false 0 0) = true
    ∧ Instr.wf (.dllLock) = true := by decide +kernel

/-! Sanity tests. The expected values are those of the worked examples and rules named in each comment. -/

/-- A register after a step's outcome. -/
def regAfter (o : Host.Outcome State Fault Refusal) (k : Nat) : Word :=
  match o with
  | .next t => t.dev.regPeek k
  | _ => 0
/-- The outcomes of two steps in a row. -/
def andThen (o : Host.Outcome State Fault Refusal) (f : State → Host.Outcome State Fault Refusal) : Host.Outcome State Fault Refusal :=
  match o with
  | .next t => f t
  | x => x

/-- No table row has bits, so no word spells a command. -/
theorem test_no_word_spells_a_command : decodeTableWord 16 0x1234 = none := by decide +kernel
/-- The queue is served at its front. -/
theorem test_step_front : (match step { State.reset with pending := [.dllLock, .idcode] } with | .next t => t.pending | _ => []) = [.idcode] := by decide +kernel
/-- An empty queue lets an edge of REF_IN pass: 0.78125 ns at the reset period (R39). -/
theorem test_idle_edge : (match step State.reset with | .next t => decide (t.mem = State.reset.mem) | _ => false) = true := by decide +kernel
/-- R46, R47: SECONDS, the fraction and the flags of a device-time word. -/
theorem test_time_word_fields : (from_ fun d => ((d.clrB Reg.TB_STATUS 1).clrB Reg.TB_STATUS 3).clock (1893456200 * 2 ^ 64 + 2 ^ 63)).dev.timeWord 2 false (1893456200 * 2 ^ 64 + 2 ^ 63) = 0x000070DBD94880000000000000000056#128 := by decide +kernel
/-- Chapter 7's worked example: LOG 1 gives 944 and LOG 0 gives 438. -/
theorem test_lut_index_log : lutIndex true 87500 37500 = 944 := by decide +kernel
theorem test_lut_index_linear : lutIndex false 87500 37500 = 438 := by decide +kernel
/-- R221: an empty cell reads entry 0. -/
theorem test_lut_index_empty : lutIndex true 87500 0 = 0 := by decide +kernel
/-- Chapter 14's worked example: a path step of 0.7241 ps leaves 789 hundredths of a percent, one of 0.7196 ps 856. -/
theorem test_margin_first : marginOf 724100 = 789 := by decide +kernel
theorem test_margin_second : marginOf 719600 = 856 := by decide +kernel
/-- Chapter 19's worked example: a status read between the arm and the fire breaks the pair. -/
def guardWrite (s : State) (a v : Nat) : Host.Outcome State Fault Refusal := execRegisterWrite 11 a 4 v s
def guardStart : State := from_ fun d => (d.grant).clock (2 ^ 65)
def guardBroken : Host.Outcome State Fault Refusal :=
  andThen (andThen (guardWrite guardStart 0x0F00002100A8 0x800002EE) (execPairLowRead 11 0x0F0000210000)) fun s => guardWrite s 0x0F00002100AC 0x7FFFFD11
theorem test_guard_broken_refused : regAfter guardBroken (0x110C) = 0x02D800AC := by decide +kernel
theorem test_guard_broken_no_effect : regAfter guardBroken (0x2100A8) = 0 := by decide +kernel
/-- The same pair unbroken takes its effect (R416). -/
theorem test_guard_whole : regAfter (andThen (guardWrite guardStart 0x0F00002100A8 0x800002EE) fun s => execVddOverrideFire 11 0x7FFFFD11 s) (0x2100A8) = 0x800002EE := by decide +kernel
/-- Chapter 18's worked example: the entry of the pseudo-channel's event. -/
theorem test_event_entry : regAfter (execEvCfgWrite 3 1532 0x80080007 (from_ Machine.Dev.grant)) (Reg.EV_CFG 1532) = 0x80080007 := by decide +kernel
/-- Chapter 16's worked example: with b = 10 the first code word starts with the shift 2 and the quotients of 3 and −4. -/
theorem test_block_code_shift : (findShift 10 [3, -4, -3000, 100, 1001, -601] 6 0).1 = 3 := by decide +kernel
/-- R580: IDCODE. -/
theorem test_idcode : (match execIdcode State.reset with | .next t => t.dev.pw.tdo | _ => 0) = 0x26148969 := by decide +kernel
/-- R349: ADD wraps in 16-bit lanes. -/
def crOne (w : CrW) (a b : Word128) (f : Fin 128 → Option Nat → State → Host.Outcome State Fault Refusal) : Word128 :=
  match f 3 none (from_ fun d => d.runs 3 w fun x => { x with v := [(1, a), (2, b)] }) with
  | .next t => (t.dev.eng 3).vr 0
  | _ => 0
/-- R349: 16-bit lanes wrap in ADD, saturate in ADDS and ABS, compare as signed in MIN. The words are written from the encoding tables of chapter 11: OP in [61:56], D in [55:51], A in [50:46], B in [45:41]. -/
theorem test_cr_add_wraps : crOne 0x0200440000000000 0x7FFF0001#128 0x00010002#128 execCrAdd = 0x80000003#128 := by decide +kernel
theorem test_cr_adds_saturates : crOne 0x0400440000000000 0x7FFF0001#128 0x00010002#128 execCrAdds = 0x7FFF0003#128 := by decide +kernel
theorem test_cr_sub_wraps : crOne 0x0300440000000000 0x80000005#128 0x00010002#128 execCrSub = 0x7FFF0003#128 := by decide +kernel
theorem test_cr_min_signed : crOne 0x0700440000000000 0x8000#128 0x7FFF#128 execCrMin = 0x8000#128 := by decide +kernel
/-- The worked encodings of chapter 11: MUL V2, V0, V1, #15 with two moves has these fields. -/
theorem test_cr_mul_fields : (crOp 0x0E1002F900000981, crD 0x0E1002F900000981, crA 0x0E1002F900000981, crB 0x0E1002F900000981, crAux 0x0E1002F900000981) = (14, 2, 0, 1, 15) := by decide +kernel
/-- LDI P2, 0x155 writes the pointer (R360). -/
theorem test_cr_ldi : (match execCrLdi 3 none (from_ fun d => d.runs 3 0x9020000000000155 id) with | .next t => (t.dev.eng 3).sreg 2 | _ => 0) = 0x155 := by decide +kernel
/-- R138: an edge input's configuration reads back after its write. -/
theorem test_register_write : regAfter (execRegisterWrite 3 (regBase + Reg.EV_CFG 1532) 4 0x80080007 (from_ Machine.Dev.grant)) (Reg.EV_CFG 1532) = 0x80080007 := by decide +kernel
/-- R525: an access of 2 bytes to register space changes no register. -/
theorem test_register_write_size : regAfter (execRegisterWrite 3 (regBase + Reg.EV_CFG 1532) 2 7 (from_ Machine.Dev.grant)) (Reg.EV_CFG 1532) = 0 := by decide +kernel
/-- Memory keeps its canonical form: writing zero removes the entry. -/
theorem test_store_zero_unlists : Mem.store (Mem.store [] 16 [1, 2]) 16 [0, 2] = [(17, 2)] := by decide +kernel
/-- A device after reset: boot identity and reset cause. -/
theorem test_reset_cause : State.reset.dev.rd Reg.RST_CAUSE = 0x0101 := by decide +kernel

/-- R59: a Delay_Req in an 802.3 frame with one VLAN tag is an event message; a Follow_Up is none. -/
def ptpTagged (msgType : Nat) : List (BitVec 8) :=
  List.replicate 12 0 ++ [0x81, 0x00, 0, 5, 0x88, 0xF7, BitVec.ofNat 8 msgType, 0x02] ++ List.replicate 28 0 ++ [0x12, 0x34] ++ List.replicate 12 0
theorem test_ptp_event : ptpEvent (ptpTagged 1) = some (1, 0x1234) := by decide +kernel
theorem test_ptp_general : ptpEvent (ptpTagged 8) = none := by decide +kernel

/-! For every statement that has hypotheses, a state and operands that meet those of each clause together. -/

theorem witness_StepTakesFront :
    ∃ (s : State) (c : Instr) (r : List Instr), s.pending = c :: r :=
  ⟨(fun s : State => { s with pending := [.dllLock] }) State.reset, .dllLock, [], by decide +kernel⟩

theorem witness_StepKeepsInv :
    ∃ (s t : State), s.Inv ∧ step s = .next t :=
  ⟨State.reset, _, rfl, rfl⟩

theorem witness_TimeWord :
    ∃ (cls : Nat), cls < 8 :=
  ⟨0, by decide +kernel⟩

theorem witness_TimeForward :
    (∃ (s : State), s.pending = [] ∧ s.dev.timeHeld = false ∧ s.dev.on Reg.TB_STATUS 6 = false)
    ∧ (∃ (s : State), s.pending = [] ∧ s.dev.timeHeld = false ∧ s.dev.on Reg.TB_STATUS 6 = true ∧ s.dev.on Reg.TB_STATUS 0 = true)
    ∧ (∃ (s : State), s.pending = [] ∧ s.dev.on Reg.TB_STATUS 6 = true)
    ∧ (∃ (s : State), s.pending = [] ∧ s.dev.timeHeld = true)
    ∧ (∃ (s t : State) (c : Instr), timebaseRow c = true ∧ exec c s = .next t) :=
  ⟨⟨from_ fun d => d.clrB Reg.TB_STATUS 6, by decide +kernel⟩,
   ⟨from_ fun d => d.setB Reg.TB_STATUS 0, by decide +kernel⟩,
   ⟨State.reset, by decide +kernel⟩,
   ⟨from_ fun d => d.onPw fun x => { x with reset := some (2, 0) }, by decide +kernel⟩,
   ⟨State.reset, _, .dllLock, by decide +kernel, rfl⟩⟩

theorem witness_WindowDecision :
    ∃ (i : Ini) (addr : Nat) (size : Nat), isMonitor i = false ∧ regBase ≤ addr ∧ (addr - regBase) / 0x10000 < 0x1000 ∧ (addr - regBase) / 0x10000 ≠ 0x2A ∧ blockAssigned ((addr - regBase) / 0x10000) = true ∧ (size = 4 ∧ addr % 4 = 0 ∨ size = 8 ∧ addr % 8 = 0) :=
  ⟨0x100, regBase + 0x290000, 4, by decide +kernel⟩

theorem witness_RegisterAccess :
    (∃ (s : State) (i : Ini) (addr : Nat) (size : Nat) (r : Nat), inDevice addr = false ∧ s.dev.regDeny i addr size .write = some r ∧ addr / 8 ≠ (regBase + Reg.DMA_CMD) / 8)
    ∧ (∃ (s : State) (i : Ini) (k : Fin 16), s.reaches i (Reg.THRESH k) .write = true)
    ∧ (∃ (s : State) (i : Ini), s.reaches i Reg.SUMP_MAP_LO .read = true)
    ∧ (∃ (s : State) (i : Ini) (w : Word), s.reaches i Reg.SUMP_MAP_HI .read = true ∧ s.dev.shadow.get (fun _ => none) 0x29 = some (i, Reg.SUMP_MAP_HI, w))
    ∧ (∃ (s : State) (i : Ini), s.reaches i Reg.SUMP_MAP_HI .read = true ∧ (∀ w, s.dev.shadow.get (fun _ => none) 0x29 ≠ some (i, Reg.SUMP_MAP_HI, w)))
    ∧ (∃ (s : State) (i : Ini), s.reaches i Reg.COMMIT_AT_LO .write = true)
    ∧ (∃ (s : State) (i : Ini) (l : Word), s.reaches i Reg.COMMIT_AT_HI .write = true ∧ s.dev.fab.commitAt = none ∧ s.dev.staged i Reg.COMMIT_AT_LO = some l) :=
  ⟨⟨State.reset, 3, 0, 0, 4, by decide +kernel⟩,
   ⟨State.reset, 3, 1, by decide +kernel⟩,
   ⟨State.reset, 3, by decide +kernel⟩,
   ⟨from_ fun d => { d with shadow := d.shadow.set (fun _ => none) 0x29 (some (3, Reg.SUMP_MAP_HI, 5)) }, 3, 5, by decide +kernel⟩,
   ⟨State.reset, 3, ⟨by decide +kernel, by intro w h; cases h⟩⟩,
   ⟨State.reset, 3, by decide +kernel⟩,
   ⟨from_ fun d => d.stageLow 3 Reg.COMMIT_AT_LO 7, 3, 7, by decide +kernel⟩⟩

theorem witness_PostedWrites :
    (∃ (s : State) (i : Ini), s.reaches i Reg.SUMP_STATUS .write = true)
    ∧ (∃ (s : State) (i : Ini), s.takes i Reg.REM_NUM = true)
    ∧ (∃ (s : State) (i : Ini), s.reaches i Reg.REM_NUM .write = true ∧ s.dev.busy 1 = true)
    ∧ (∃ (s : State) (w : PostedW), s.dev.flight 1 = some w ∧ w.key = Reg.REM_NUM ∧ s.dev.domUp 1 = true)
    ∧ (∃ (s : State) (w : PostedW), s.dev.flight 1 = some w ∧ elapsedNs w.time s.dev.up 10000 = true)
    ∧ (∃ (s : State) (i : Ini), s.reaches i (Reg.PW_ERR_INFO 1) .read = true ∧ s.dev.flight 1 = none ∧ s.dev.f (Reg.PW_ERR_INFO 1) 16 4 ≠ 0) :=
  ⟨⟨State.reset, 3, by decide +kernel⟩,
   ⟨State.reset, 3, by decide +kernel⟩,
   ⟨from_ fun d => d.setB Reg.TB_STATUS 7, 3, by decide +kernel⟩,
   ⟨from_ fun d => { (d.clock tenSeconds) with inflight := d.inflight.set (fun _ => none) 1 (some ⟨3, Reg.REM_NUM, none, 9, 0⟩) }, ⟨3, Reg.REM_NUM, none, 9, 0⟩, by decide +kernel⟩,
   ⟨from_ fun d => { (d.clock tenSeconds) with inflight := d.inflight.set (fun _ => none) 1 (some ⟨3, Reg.REM_NUM, none, 9, 0⟩) }, ⟨3, Reg.REM_NUM, none, 9, 0⟩, by decide +kernel⟩,
   ⟨from_ fun d => d.wr (Reg.PW_ERR_INFO 1) 0x10000, 3, by decide +kernel⟩⟩

theorem witness_GuardsAndEpochs :
    (∃ (s : State) (i : Ini), s.reaches i Reg.WIN_COMMIT_ARM .write = true)
    ∧ (∃ (s : State) (a : Arm), a ∈ s.dev.arms ∧ a.key = Reg.WIN_COMMIT_ARM ∧ elapsedNs a.time s.dev.up 10000 = true)
    ∧ (∃ (s : State) (i : Ini) (data : Word), s.fires i Reg.WIN_COMMIT_FIRE data 1 = true ∧ s.dev.on Reg.WIN_STATUS 1 = false)
    ∧ (∃ (s : State) (i : Ini) (data : Word) (v : Word), s.fires i Reg.WIN_COMMIT_FIRE data v = true ∧ v ≠ 1)
    ∧ (∃ (s : State) (e : Nat), s.dev.winPend = some ⟨e, false⟩ ∧ e ≤ s.dev.tb.edges)
    ∧ (∃ (s : State) (e : Nat), s.dev.winPend = some ⟨e, true⟩ ∧ s.dev.oldEpoch = false) :=
  ⟨⟨State.reset, 3, by decide +kernel⟩,
   ⟨from_ fun d => ((d.clock tenSeconds).armedAt 3 Reg.WIN_COMMIT_ARM 1).clock (2 * tenSeconds), ⟨Reg.WIN_COMMIT_ARM, 3, 1, tenSeconds⟩, by decide +kernel⟩,
   ⟨from_ fun d => d.armedAt 3 Reg.WIN_COMMIT_ARM 1, 3, 0xFFFFFFFE, by decide +kernel⟩,
   ⟨from_ fun d => d.armedAt 3 Reg.WIN_COMMIT_ARM 5, 3, 0xFFFFFFFA, 5, by decide +kernel⟩,
   ⟨from_ fun d => { d with winPend := some ⟨0, false⟩ }, 0, by decide +kernel⟩,
   ⟨from_ fun d => { d with winPend := some ⟨7, true⟩ }, 7, by decide +kernel⟩⟩

theorem witness_ReferenceAndLock :
    (∃ (s : State), s.dev.on Reg.TB_STATUS 0 = false)
    ∧ (∃ (s : State), s.dev.on Reg.TB_STATUS 0 = true)
    ∧ (∃ (s : State), s.dev.on Reg.TB_STATUS 6 = true ∧ s.dev.on Reg.TB_STATUS 0 = true)
    ∧ (∃ (s : State) (count : Nat), s.dev.compareMode = true ∧ s.dev.tb.gateOpen = true ∧ (((count * 2 ^ 24 : Nat) : Int) - (s.dev.gateExpected : Int)).natAbs ≤ s.dev.gateWindow * 2 ^ 24 ∧ s.dev.f Reg.TB_CTRL 28 4 ≤ s.dev.tb.goodGates + 1 ∧ s.dev.on Reg.TB_STATUS 1 = false)
    ∧ (∃ (s : State) (count : Nat), s.dev.compareMode = true ∧ s.dev.tb.gateOpen = true ∧ s.dev.gateWindow * 2 ^ 24 < (((count * 2 ^ 24 : Nat) : Int) - (s.dev.gateExpected : Int)).natAbs ∧ s.dev.on Reg.TB_STATUS 1 = true)
    ∧ (∃ (s : State), s.dev.tb.freqPresent = true ∧ s.dev.compareMode = true ∧ s.dev.on Reg.TB_STATUS 1 = true)
    ∧ (∃ (s : State), s.dev.tb.freqPresent = false)
    ∧ (∃ (s : State), s.dev.compareMode = false ∧ s.dev.on Reg.TB_STATUS 0 = true ∧ s.dev.tb.refPresent = true ∧ elapsedNs s.dev.tb.refSince s.dev.up (s.dev.f Reg.TB_CTRL 28 4 * s.dev.f Reg.TB_CTRL 4 10 * 1000000) = true) :=
  ⟨⟨State.reset, by decide +kernel⟩,
   ⟨from_ fun d => d.setB Reg.TB_STATUS 0, by decide +kernel⟩,
   ⟨from_ fun d => (d.setB Reg.TB_STATUS 0).setB Reg.TB_STATUS 6, by decide +kernel⟩,
   ⟨from_ fun d => ((d.onTb fun x => { x with gateOpen := true, goodGates := 15 }).clrB Reg.TB_STATUS 1), (from_ fun d => ((d.onTb fun x => { x with gateOpen := true, goodGates := 15 }).clrB Reg.TB_STATUS 1)).dev.gateExpected / 2 ^ 24, by decide +kernel⟩,
   ⟨from_ fun d => ((d.onTb fun x => { x with gateOpen := true }).setB Reg.TB_STATUS 1), 0, by decide +kernel⟩,
   ⟨from_ fun d => d.setB Reg.TB_STATUS 1, by decide +kernel⟩,
   ⟨from_ fun d => d.onTb fun x => { x with freqPresent := false }, by decide +kernel⟩,
   ⟨from_ fun d => ((d.clock (100 * tenSeconds)).setB Reg.TB_CTRL 0).setB Reg.TB_STATUS 0, by decide +kernel⟩⟩

theorem witness_TimeSetting :
    (∃ (s : State) (i : Ini), s.reaches i (Reg.TIME_NOW 0) .read = true)
    ∧ (∃ (s : State) (i : Ini), s.takes i Reg.TOD_CMD = true)
    ∧ (∃ (s : State) (i : Ini), s.takes i Reg.TOD_CMD = true ∧ s.dev.on Reg.TB_STATUS 4 = true)
    ∧ (∃ (s : State) (rising : Bool) (back : Nat), rising ≠ s.dev.on Reg.TB_CTRL 3 ∧ s.dev.on Reg.TB_STATUS 4 = true ∧ s.dev.periodInvalid = false ∧ s.dev.ratioMismatch = false ∧ s.dev.now - back ≤ s.dev.todTarget)
    ∧ (∃ (s : State) (rising : Bool), rising ≠ s.dev.on Reg.TB_CTRL 3 ∧ s.dev.on Reg.TB_STATUS 4 = true ∧ s.dev.periodInvalid = true)
    ∧ (∃ (s : State) (rising : Bool), rising ≠ s.dev.on Reg.TB_CTRL 3 ∧ s.dev.on Reg.TB_STATUS 4 = false)
    ∧ (∃ (s : State) (rising : Bool), rising = s.dev.on Reg.TB_CTRL 3)
    ∧ (∃ (s : State) (due : Nat), s.dev.tb.ppsDue = some due ∧ due ≤ s.dev.now ∧ s.dev.on Reg.TB_STATUS 11 = false) :=
  ⟨⟨State.reset, 3, by decide +kernel⟩,
   ⟨State.reset, 3, by decide +kernel⟩,
   ⟨from_ fun d => d.setB Reg.TB_STATUS 4, 3, by decide +kernel⟩,
   ⟨from_ fun d => ((d.setB Reg.TB_STATUS 4).wr Reg.TOD_NEXT_LO 100), true, 0, by decide +kernel⟩,
   ⟨from_ fun d => ((d.setB Reg.TB_STATUS 4).wr Reg.REM_DEN 0), true, by decide +kernel⟩,
   ⟨State.reset, true, by decide +kernel⟩,
   ⟨State.reset, false, by decide +kernel⟩,
   ⟨from_ fun d => (d.clock tenSeconds).onTb fun x => { x with ppsDue := some 9 }, 9, by decide +kernel⟩⟩

theorem witness_ClockOutputs :
    (∃ (s : State) (n : Fin 12), s.dev.on (Reg.OUT_CFG n) 31 = true ∧ (s.dev.outp n).running = false ∧ (s.dev.outp n).parked = false ∧ s.dev.periodStart n = true)
    ∧ (∃ (s : State) (n : Fin 12), s.dev.on (Reg.OUT_CFG n) 31 = false ∧ (s.dev.outp n).running = true ∧ s.dev.highPhase n = false)
    ∧ (∃ (s : State) (n : Fin 12), s.dev.periodStart n = true ∧ (s.dev.outp n).walked ≠ some s.dev.tb.edges ∧ (s.dev.outp n).delay < s.dev.f (Reg.OUT_DELAY n) 0 14)
    ∧ (∃ (s : State) (n : Fin 12), s.dev.periodStart n = true ∧ (s.dev.outp n).walked ≠ some s.dev.tb.edges ∧ s.dev.f (Reg.OUT_DELAY n) 0 14 < (s.dev.outp n).delay)
    ∧ (∃ (s : State) (n : Fin 12), (s.dev.outp n).divm1 ≠ s.dev.f (Reg.OUT_CFG n) 0 12 ∧ s.dev.periodStart n = true)
    ∧ (∃ (s : State) (n : Fin 12), s.dev.oneShot n = true ∧ (s.dev.outp n).running = true ∧ s.dev.shotLimit n ≤ s.dev.shotsOver n + b2n (!s.dev.highPhase n))
    ∧ (∃ (s : State) (i : Ini), s.takes i Reg.OUT_SYNC_CMD = true)
    ∧ (∃ (s : State) (at_ : Nat), s.dev.tb.syncAt = some at_ ∧ at_ ≤ shortTime s.dev.now ∧ (s.dev.tb.syncLate = true → s.dev.tb.syncEdge < s.dev.tb.edges)) :=
  ⟨⟨from_ fun d => d.setB (Reg.OUT_CFG 1) 31, 1, by decide +kernel⟩,
   ⟨from_ fun d => d.setOut 1 { running := true }, 1, by decide +kernel⟩,
   ⟨from_ fun d => d.wr (Reg.OUT_DELAY 1) 9, 1, by decide +kernel⟩,
   ⟨from_ fun d => d.setOut 1 { delay := 9 }, 1, by decide +kernel⟩,
   ⟨from_ fun d => d.wr (Reg.OUT_CFG 1) 7, 1, by decide +kernel⟩,
   ⟨from_ fun d => (d.setOut 4 { running := true }).wr (Reg.OUT_CFG 4) 0x90000000, 4, by decide +kernel⟩,
   ⟨State.reset, 3, by decide +kernel⟩,
   ⟨from_ fun d => d.onTb fun x => { x with syncAt := some 0 }, 0, by decide +kernel⟩⟩

theorem witness_PtpStamps :
    (∃ (s : State) (frame : List (BitVec 8)) (m : Nat) (q : Nat), ptpEvent frame = some (m, q) ∧ s.dev.tb.ptp.length < 64)
    ∧ (∃ (s : State) (frame : List (BitVec 8)) (m : Nat) (q : Nat), ptpEvent frame = some (m, q) ∧ 64 ≤ s.dev.tb.ptp.length)
    ∧ (∃ (frame : List (BitVec 8)), ptpEvent frame = none)
    ∧ (∃ (s : State) (i : Ini) (id : Word) (w : Word128) (r : List (Word × Word128)), s.reaches i Reg.PTP_TS_ID .read = true ∧ s.dev.tb.ptp = (id, w) :: r) :=
  ⟨⟨State.reset, List.replicate 12 0 ++ [0x88, 0xF7, 0x01, 0x02] ++ List.replicate 28 0 ++ [0, 7] ++ List.replicate 12 0, 1, 7, by decide +kernel⟩,
   ⟨from_ fun d => d.onTb fun x => { x with ptp := List.replicate 64 (1, 2) }, List.replicate 12 0 ++ [0x88, 0xF7, 0x01, 0x02] ++ List.replicate 28 0 ++ [0, 7] ++ List.replicate 12 0, 1, 7, by decide +kernel⟩,
   ⟨[], by decide +kernel⟩,
   ⟨from_ fun d => d.onTb fun x => { x with ptp := [(7, 8), (1, 2)] }, 3, 7, 8, [(1, 2)], by decide +kernel⟩⟩

theorem witness_PortBringUp :
    (∃ (s : State) (p : Fin 6) (num : Nat) (den : Nat), s.dev.linkState p = 1 ∧ s.dev.tb.refPresent = true ∧ den ≠ 0 ∧ num * (portDiv (s.dev.portForce p) * portS (s.dev.portForce p) * 64) = den * (8 * portF (s.dev.portForce p) * portMul (s.dev.portForce p) * lineBits (s.dev.portForce p)))
    ∧ (∃ (s : State) (p : Fin 6) (lane : Fin 24) (coding : Fin 3) (i : Nat), s.dev.linkState p = 2 ∧ s.dev.tb.refPresent = true ∧ logicalOf (s.dev.portForce p) lane = some i ∧ coding ≠ 2 ∧ coding.val = fld (wd (s.dev.portForce p) 0) 126 2)
    ∧ (∃ (s : State) (p : Fin 6) (coding : Fin 3), coding.val ≠ fld (wd (s.dev.portForce p) 0) 126 2 ∨ coding = 2)
    ∧ (∃ (s : State) (p : Fin 6), s.dev.linkState p = 3 ∧ s.dev.tb.refPresent = true ∧ s.dev.sysrefOk p = true)
    ∧ (∃ (s : State) (p : Fin 6), s.dev.linkState p = 3 ∧ s.dev.tb.refPresent = true)
    ∧ (∃ (s : State) (p : Fin 6), s.dev.linkState p = 4 ∧ s.dev.sysrefOk p = true ∧ s.dev.tb.refPresent = true ∧ (subclass1 (s.dev.portForce p) = true → s.dev.sysrefEdge p = true)) :=
  ⟨⟨from_ fun d => d.setLink 1 1 1, 1, 528, 64, by decide +kernel⟩,
   ⟨from_ fun d => (d.setLink 1 2 1).inForce 49 [0, 0, 0], 1, 0, 0, 0, by decide +kernel⟩,
   ⟨State.reset, 1, 1, by decide +kernel⟩,
   ⟨from_ fun d => d.setLink 1 3 1, 1, by decide +kernel⟩,
   ⟨from_ fun d => d.setLink 1 3 1, 1, by decide +kernel⟩,
   ⟨from_ fun d => d.setLink 1 4 1, 1, by decide +kernel⟩⟩

theorem witness_PortFaultsAndData :
    (∃ (s : State) (p : Fin 6) (lane : Fin 24) (i : Nat), s.dev.linkState p ≠ 0 ∧ logicalOf (s.dev.portForce p) lane = some i)
    ∧ (∃ (s : State) (p : Fin 6) (lane : Fin 24) (i : Nat), s.dev.linkState p ≠ 0 ∧ logicalOf (s.dev.portForce p) lane = some i)
    ∧ (∃ (s : State) (p : Fin 6) (lane : Fin 24) (i : Nat), s.dev.linkState p ≠ 0 ∧ logicalOf (s.dev.portForce p) lane = some i)
    ∧ (∃ (s : State) (p : Fin 6) (lane : Fin 24), logicalOf (s.dev.portForce p) lane = none)
    ∧ (∃ (s : State) (i : Ini) (p : Fin 6), s.takes i (Reg.PORT_CMD p) = true ∧ s.dev.linkState p ≠ 0)
    ∧ (∃ (s : State) (p : Fin 6) (arrive : List Nat), s.dev.linkState p = 5 ∧ (s.dev.port p).held = none ∧ s.dev.releaseUp p (s.dev.port p).emb ≤ s.dev.up ∧ (∀ j, j < portL (s.dev.portForce p) → nth arrive (laneMap (s.dev.portForce p) j) 0 ≤ s.dev.rbdTime p))
    ∧ (∃ (s : State) (p : Fin 6) (arrive : List Nat) (l : Fin 24) (m : Nat), s.dev.linkState p = 5 ∧ (s.dev.port p).held = none ∧ s.dev.releaseUp p (s.dev.port p).emb ≤ s.dev.up ∧ (∀ j, j < portL (s.dev.portForce p) → nth arrive (laneMap (s.dev.portForce p) j) 0 ≤ s.dev.rbdTime p) ∧ l.val < portL (s.dev.portForce p) ∧ m < portE (s.dev.portForce p) ∧ (∀ j, j < portL (s.dev.portForce p) → laneMap (s.dev.portForce p) j = laneMap (s.dev.portForce p) l → j = l.val) ∧ (crcNote ((s.dev.port p).crc.get (fun _ => []) l.val) ((s.dev.port p).emb * portE (s.dev.portForce p) + m)).length < 4)
    ∧ (∃ (s : State) (p : Fin 6) (arrive : List Nat) (l : Fin 24) (m : Nat), s.dev.linkState p = 5 ∧ (s.dev.port p).held = none ∧ s.dev.releaseUp p (s.dev.port p).emb ≤ s.dev.up ∧ (∀ j, j < portL (s.dev.portForce p) → nth arrive (laneMap (s.dev.portForce p) j) 0 ≤ s.dev.rbdTime p) ∧ l.val < portL (s.dev.portForce p) ∧ m < portE (s.dev.portForce p) ∧ (∀ j, j < portL (s.dev.portForce p) → laneMap (s.dev.portForce p) j = laneMap (s.dev.portForce p) l → j = l.val) ∧ 4 ≤ (crcNote ((s.dev.port p).crc.get (fun _ => []) l.val) ((s.dev.port p).emb * portE (s.dev.portForce p) + m)).length)
    ∧ (∃ (s : State) (p : Fin 6) (arrive : List Nat) (l : Nat), s.dev.linkState p = 5 ∧ (s.dev.port p).held = none ∧ s.dev.releaseUp p (s.dev.port p).emb ≤ s.dev.up ∧ l < portL (s.dev.portForce p) ∧ s.dev.rbdTime p < nth arrive (laneMap (s.dev.portForce p) l) 0)
    ∧ (∃ (s : State) (k : Fin 48) (t0 : Nat), (s.dev.stream k).gapFrom = some t0 ∧ elapsedNs t0 s.dev.now 1000000 = true ∧ (s.dev.port (k.val / 8)).open_ = true)
    ∧ (∃ (s : State) (p : Fin 6) (g : Grp) (k : Nat), s.dev.portDue p = true ∧ s.dev.dueGroup (48 + p) = some (g, k) ∧ k < 16 ∧ s.dev.slotIn (48 + p) 3 = none ∧ s.dev.portLanesReady p g.teff (s.dev.slot (48 + p) k).words = true) :=
  ⟨⟨from_ fun d => (d.setLink 1 5 1).inForce 49 [0, 0, 0], 1, 0, 0, by decide +kernel⟩,
   ⟨from_ fun d => (d.setLink 1 5 1).inForce 49 [0, 0, 0], 1, 0, 0, by decide +kernel⟩,
   ⟨from_ fun d => (d.setLink 1 5 1).inForce 49 [0, 0, 0], 1, 0, 0, by decide +kernel⟩,
   ⟨State.reset, 1, 1, by decide +kernel⟩,
   ⟨from_ fun d => d.setLink 1 5 1, 3, 1, by decide +kernel⟩,
   ⟨from_ fun d => d.setLink 1 5 1, 1, [], by decide +kernel⟩,
   ⟨from_ fun d => (d.setLink 1 5 1).inForce 49 [0, 0, 0], 1, [], 0, 0, by decide +kernel⟩,
   ⟨from_ fun d => ((d.setLink 1 5 1).inForce 49 [0, 0, 0]).setPort 1 { (d.port 1) with crc := [(0, [0, 0, 0])] }, 1, [], 0, 0, by decide +kernel⟩,
   ⟨from_ fun d => (d.setLink 1 5 1).inForce 49 [0, 0, 0], 1, [5], 0, by decide +kernel⟩,
   ⟨from_ fun d => ((d.clock tenSeconds).setStream 1 { (d.stream 1) with gapFrom := some 0 }).setPort 0 { (d.port 0) with open_ := true }, 1, 0, by decide +kernel⟩,
   ⟨from_ fun d => (d.dueAt 49), 1, dueGrp 49, 1, by decide +kernel⟩⟩

theorem witness_PortEqualisers :
    (∃ (s : State) (i : Ini) (p : Fin 6), s.takes i (Reg.PORT_CMD p) = true ∧ s.dev.linkState p = 5 ∧ s.dev.on (Reg.PORT_STATUS p) 5 = false)
    ∧ (∃ (s : State) (i : Ini) (p : Fin 6), s.takes i (Reg.PORT_CMD p) = true ∧ s.dev.linkState p ≠ 5)
    ∧ (∃ (s : State) (p : Fin 6), s.dev.on (Reg.EQ_CTRL p) 31 = true ∧ tempMoved s.dev.dieQ (s.dev.port p).eqTemp (s.dev.f (Reg.EQ_CTRL p) 0 6 + 1) = true ∧ s.dev.linkState p = 5 ∧ s.dev.on (Reg.PORT_STATUS p) 5 = false)
    ∧ (∃ (s : State) (p : Fin 6), (s.dev.port p).eqDeferred = true ∧ s.dev.linkState p = 5 ∧ s.dev.on (Reg.PORT_STATUS p) 5 = false)
    ∧ (∃ (s : State) (i : Ini) (p : Fin 6), s.takes i (Reg.PORT_CMD p) = true)
    ∧ (∃ (s : State) (p : Fin 6) (eyes : List Nat), s.dev.on (Reg.PORT_STATUS p) 5 = true ∧ (s.dev.port p).eqAdapted = false ∧ (∀ l, l < portL (s.dev.portForce p) → nth eyes l 0 < s.dev.f (Reg.EQ_CTRL p) 16 10))
    ∧ (∃ (s : State) (p : Fin 6) (eyes : List Nat), s.dev.on (Reg.PORT_STATUS p) 5 = true ∧ (s.dev.port p).eqAdapted = false ∧ (∀ l, l < portL (s.dev.portForce p) → s.dev.f (Reg.EQ_CTRL p) 16 10 ≤ nth eyes l 0))
    ∧ (∃ (s : State) (p : Fin 6) (b : Nat) (j : Nat), s.dev.nominated p = some (b, j) ∧ (s.dev.port p).eqAdapted = true ∧ elapsedNs (s.dev.port p).eqAt (b - s.dev.tb.jump) 2000 = true ∧ s.dev.switchAt p b = false ∧ (∀ l ∈ (s.dev.port p).eqPass, l < 24))
    ∧ (∃ (s : State) (p : Fin 6) (l : Fin 24) (eye : Nat) (code : Word), l.val ∈ (s.dev.port p).eqRevert ∧ (s.dev.nominated p).isSome = true ∧ (s.dev.port p).eqPrev.get (fun _ => none) l = some (eye, code))
    ∧ (∃ (s : State) (i : Ini) (p : Fin 6) (l : Fin 24), s.takes i (Reg.LANE_EQ p l) = true)
    ∧ (∃ (s : State) (p : Fin 6) (l : Fin 24) (c : Word), (s.dev.port p).eqStaged.get (fun _ => none) l.val = some c ∧ (s.dev.nominated p).isSome = true) :=
  ⟨⟨from_ fun d => d.setLink 1 5 1, 3, 1, by decide +kernel⟩,
   ⟨State.reset, 3, 1, by decide +kernel⟩,
   ⟨from_ fun d => (d.setPort 1 { (d.port 1) with eqTemp := 8000000 }).setLink 1 5 1, 1, by decide +kernel⟩,
   ⟨from_ fun d => (d.setPort 1 { (d.port 1) with eqDeferred := true }).setLink 1 5 1, 1, by decide +kernel⟩,
   ⟨State.reset, 3, 1, by decide +kernel⟩,
   ⟨from_ fun d => (d.setB (Reg.PORT_STATUS 1) 5), 1, [], by decide +kernel⟩,
   ⟨from_ fun d => (d.setB (Reg.PORT_STATUS 1) 5), 1, List.replicate 24 1000, by decide +kernel⟩,
   ⟨from_ fun d => ((d.clock tenSeconds).setPort 1 { (d.port 1) with eqAdapted := true, anchorUp := tenSeconds }).setLink 1 5 1, 1, tenSeconds, 0, by decide +kernel⟩,
   ⟨from_ fun d => (d.setPort 1 { (d.port 1) with eqRevert := [1], eqPrev := [(1, some (0, 9))] }).setLink 1 5 1, 1, 1, 0, 9, by decide +kernel⟩,
   ⟨State.reset, 3, 1, 1, by decide +kernel⟩,
   ⟨from_ fun d => (d.setPort 1 { (d.port 1) with eqStaged := [(1, some 9)] }).setLink 1 5 1, 1, 1, 9, by decide +kernel⟩⟩

theorem witness_LaneFrames :
    (∃ (s : State) (l : Fin 48) (smp : List Smp), (s.dev.lane (s.dev.governing l)).gridOn = true ∧ s.dev.laneWanted l = true ∧ s.dev.laneNib l ≠ 15 ∧ (s.dev.lane l).lostFrom = none ∧ (s.dev.lane l).overFrom = none ∧ (s.dev.stream (s.dev.governing l)).shed = false ∧ s.dev.handoverDue l = false ∧ s.dev.dueGroup (s.dev.governing l) = none ∧ s.dev.dueGroup (48 + s.dev.governing l / 8) = none ∧ (s.dev.fillNow (l / 8)).frameSamples (s.dev.governing l) (s.dev.frameStart (s.dev.governing l) (s.dev.lane l).next) (laneN (s.dev.laneForce l)) = some smp ∧ (smp.all fun x => x.fill ≠ 0) = false)
    ∧ (∃ (s : State) (l : Fin 48) (t0 : Nat), (s.dev.lane l).overFrom = some t0 ∧ (s.dev.stream (s.dev.governing l)).next < s.dev.frameStart (s.dev.governing l) (s.dev.lane l).next + 65536)
    ∧ (∃ (s : State) (l : Fin 48) (t0 : Nat), (s.dev.lane l).oosFrom = some t0 ∧ elapsedNs t0 s.dev.now 1000000 = true)
    ∧ (∃ (s : State) (l : Fin 48) (g : Grp) (k : Nat), s.dev.laneDue l = true ∧ s.dev.dueGroup l = some (g, k) ∧ k < 16 ∧ s.dev.slotIn l 3 = none) :=
  ⟨⟨from_ fun d => (((d.inForce 48 [0, 0, 0, 0, 0x80000000000000000000000000000000]).inForce 1 [10633823966279326983230456482242756608]).setLane 1 { (d.lane 1) with gridOn := true }).setStream 1 { (d.stream 1) with on := true, segs := [⟨0, 2, 0, [{ re := 3 }, { im := 1 }]⟩] }, 1, [{ re := 3 }, { im := 1 }], by decide +kernel⟩,
   ⟨from_ fun d => d.setLane 1 { (d.lane 1) with overFrom := some 9 }, 1, 9, by decide +kernel⟩,
   ⟨from_ fun d => (d.clock tenSeconds).setLane 1 { (d.lane 1) with oosFrom := some 9 }, 1, 9, by decide +kernel⟩,
   ⟨from_ fun d => (d.dueAt 1), 1, dueGrp 1, 1, by decide +kernel⟩⟩

theorem witness_LaneSparing :
    (∃ (s : State) (g : Fin 4) (l : Nat), s.dev.nextRelieved g = some l ∧ s.dev.rotEnabled = true ∧ s.dev.derated = false ∧ s.dev.spareOf g ≠ 15 ∧ (s.dev.group g).katOk = true ∧ (s.dev.group g).shadow = none ∧ (s.dev.group g).takeover = [] ∧ (s.dev.lane (s.dev.governing l)).gridOn = true ∧ s.dev.on (Reg.DET_STATUS g) 1 = false ∧ ((s.dev.group g).rotAt = 0 ∨ elapsedNs (s.dev.group g).rotAt s.dev.up (s.dev.f Reg.SEEP_CTRL 0 12 * 1000000000) = true) ∧ s.dev.switchBefore g (s.dev.tagOf (s.dev.governing l) (s.dev.frameStart (s.dev.governing l) ((s.dev.lane l).next + 2 ^ fld (wd (s.dev.force (s.dev.governing l)) 0) 116 3 - 1) + laneN (s.dev.force (s.dev.governing l)))) = false)
    ∧ (∃ (s : State) (g : Fin 4) (sh : Shadow), (s.dev.group g).shadow = some sh ∧ sh.stop ≤ (s.dev.lane sh.lane).next ∧ sh.mismatch = false ∧ sh.cut = false ∧ sh.lane / 12 = g.val ∧ s.dev.laneNib sh.lane ≠ 15)
    ∧ (∃ (s : State) (g : Fin 4) (sh : Shadow), (s.dev.group g).shadow = some sh)
    ∧ (∃ (s : State) (g : Fin 4), s.dev.spareOf g ≠ 15 ∧ (s.dev.group g).shadow = none ∧ (s.dev.group g).katRun = false)
    ∧ (∃ (s : State) (g : Fin 4), (s.dev.group g).katRun = true)
    ∧ (∃ (s : State) (g : Fin 4), (s.dev.group g).katRun = true)
    ∧ (∃ (s : State) (phys : Fin 52) (l : Nat), (groupLanes (phys / 13)).find? (fun m => s.dev.laneNib m = phys % 13) = some l ∧ s.dev.laneWanted l = true ∧ (s.dev.lane l).lostFrom = none ∧ (s.dev.group (phys / 13)).shadow = none ∧ s.dev.takeable (phys / 13) ≠ 0)
    ∧ (∃ (s : State) (phys : Fin 52) (l : Nat), (groupLanes (phys / 13)).find? (fun m => s.dev.laneNib m = phys % 13) = some l ∧ s.dev.laneWanted l = true ∧ (s.dev.lane l).lostFrom = none ∧ (s.dev.group (phys / 13)).shadow = none ∧ s.dev.takeable (phys / 13) = 0)
    ∧ (∃ (s : State) (g : Fin 4) (l : Nat) (t0 : Nat) (t1 : Nat) (rest : List (Nat × Nat)), (s.dev.group g).takeover = (l, t1) :: rest ∧ (s.dev.lane l).lostFrom = some t0 ∧ l / 12 = g.val ∧ s.dev.spareOf g ≠ 15) :=
  ⟨⟨from_ fun d => ((((d.clrB Reg.FL_STATUS 1).inForce 49 [0x0, 0x0, 0x0, 0x0, 0x0, 0x0, 0x0, 0x80000000000000000000000000000000, 0x0, 0x0, 0x0]).inForce 12 [10633823966279326983230456482242756608]).setLane 12 { (d.lane 12) with gridOn := true }).setGroup 1 { (d.group 1) with katOk := true }, 1, 12, by decide +kernel⟩,
   ⟨from_ fun d => d.setGroup 1 { (d.group 1) with shadow := some ⟨12, 0, 0, false, false⟩ }, 1, ⟨12, 0, 0, false, false⟩, by decide +kernel⟩,
   ⟨from_ fun d => d.setGroup 1 { (d.group 1) with shadow := some ⟨12, 0, 0, false, false⟩ }, 1, ⟨12, 0, 0, false, false⟩, by decide +kernel⟩,
   ⟨State.reset, 1, by decide +kernel⟩,
   ⟨from_ fun d => d.setGroup 1 { (d.group 1) with katRun := true }, 1, by decide +kernel⟩,
   ⟨from_ fun d => d.setGroup 1 { (d.group 1) with katRun := true }, 1, by decide +kernel⟩,
   ⟨from_ fun d => ((d.inForce 48 [0, 0, 0, 0, 0x80000000000000000000000000000000]).inForce 1 [10633823966279326983230456482242756608]), 1, 1, by decide +kernel⟩,
   ⟨from_ fun d => (((d.inForce 48 [0, 0, 0, 0, 0x80000000000000000000000000000000]).inForce 1 [10633823966279326983230456482242756608]).setSpare 0 15).setGroup 0 { (d.group 0) with takeover := List.replicate 12 (0, 0) }, 1, 1, by decide +kernel⟩,
   ⟨from_ fun d => (d.setGroup 1 { (d.group 1) with takeover := [(12, 5)] }).setLane 12 { (d.lane 12) with lostFrom := some 0 }, 1, 12, 0, 5, [], by decide +kernel⟩⟩

theorem witness_DetectorService :
    (∃ (s : State) (i : Ini) (g : Fin 4), s.reaches i (Reg.DET_CMD g) .write = true ∧ s.dev.on (Reg.DET_STATUS g) 1 = false ∧ s.dev.on (Reg.DET_STATUS g) 8 = false ∧ s.dev.derated = false ∧ s.dev.spareOf g ≠ 15)
    ∧ (∃ (s : State) (g : Fin 4) (temp : Int), s.dev.on (Reg.DET_STATUS g) 1 = false ∧ s.dev.on (Reg.DET_STATUS g) 8 = false ∧ (s.dev.flat g).temp = some temp ∧ s.dev.on (Reg.FLAT_CTRL g) 31 = true ∧ tempMoved s.dev.dieQ temp (s.dev.f (Reg.FLAT_CTRL g) 24 6 + 1) = true ∧ s.dev.derated = false ∧ s.dev.spareOf g ≠ 15)
    ∧ (∃ (s : State) (g : Fin 4), s.dev.on (Reg.DET_STATUS g) 1 = false ∧ s.dev.on (Reg.DET_STATUS g) 8 = true ∧ s.dev.derated = false ∧ s.dev.spareOf g ≠ 15)
    ∧ (∃ (s : State) (g : Fin 4) (form : Bool) (dec : Nat), s.dev.on (Reg.DET_STATUS g) 1 = true ∧ s.dev.flatInForce g form dec = true ∧ (s.dev.flat g).again = false)
    ∧ (∃ (s : State) (i : Ini) (g : Fin 4), s.reaches i (Reg.DET_CMD g) .write = true) :=
  ⟨⟨from_ fun d => d.clrB Reg.FL_STATUS 1, 3, 1, by decide +kernel⟩,
   ⟨from_ fun d => (d.clrB Reg.FL_STATUS 1).setFlat 1 { (d.flat 1) with temp := some 8000000 }, 1, 8000000, by decide +kernel⟩,
   ⟨from_ fun d => (d.clrB Reg.FL_STATUS 1).setB (Reg.DET_STATUS 1) 8, 1, by decide +kernel⟩,
   ⟨from_ fun d => (d.inForce 49 [0x0, 0x0, 0x0, 0x0, 0x0, 0x0, 0x0, 0x80000000000000000000000000000000, 0x0, 0x0, 0x0]).setB (Reg.DET_STATUS 1) 1, 1, false, 0, by decide +kernel⟩,
   ⟨State.reset, 3, 1, by decide +kernel⟩⟩

theorem witness_FabricPulses :
    (∃ (s : State) (c : Nat) (n : Fin 8), (s.dev.pulses.any fun p => p.code = c) = true ∧ (s.dev.fabNow.fab.seen.any fun p => p.code = c) = false ∧ s.dev.fbOn (Reg.TRIG_CFG n) 31 = true ∧ s.dev.fbf (Reg.TRIG_CFG n) 20 9 = c)
    ∧ (∃ (s : State) (c : Nat) (q : Fin 8) (n : Fin 64), (s.dev.pulses.any fun p => p.code = c) = true ∧ s.dev.linePulse s.dev.fabNow.fab.seen n = none ∧ s.dev.fbOn (Reg.LINE_CFG n) 31 = true ∧ s.dev.fbf (Reg.LINE_CFG n) 10 9 = c ∧ s.dev.fbOn (Reg.QS_CFG q) 31 = true ∧ s.dev.fbf (Reg.QS_CFG q) 8 6 = n.val ∧ s.dev.qsMode q = 0 ∧ s.dev.fbf (Reg.QS_COUNT q) 0 16 = 0 ∧ (s.dev.qs q).win = none ∧ (s.dev.qs q).hold = none ∧ (s.dev.qs q).count = 0)
    ∧ (∃ (s : State) (q : Fin 8) (t0 : Nat) (p : Pulse), (s.dev.qs q).win = some (t0, p) ∧ s.dev.passed t0 (s.dev.qsWindow q) = true ∧ s.dev.qsMode q ≠ 1)
    ∧ (∃ (s : State) (q : Fin 8) (t0 : Nat) (p : Pulse), (s.dev.qs q).win = some (t0, p) ∧ s.dev.passed t0 (s.dev.qsWindow q) = true ∧ s.dev.qsMode q = 1)
    ∧ (∃ (s : State) (q : Fin 8) (t0 : Nat), (s.dev.qs q).hold = some t0 ∧ s.dev.passed t0 (s.dev.fbf (Reg.QS_HOLDOFF q) 0 24) = true)
    ∧ (∃ (s : State) (n : Fin 8) (e : Nat), s.dev.trigUntil n = some e ∧ e ≤ s.dev.tb.edges)
    ∧ (∃ (s : State) (k : Fin 4) (e : Nat) (p : Pulse), (s.dev.blank k).until_ = some e ∧ e ≤ s.dev.tb.edges ∧ (s.dev.blank k).last = some p) :=
  ⟨⟨from_ fun d => ({ d with pulses := [⟨0, 0, 0, 0xFF, 0, false, 0, 0⟩] }).fbank (Reg.TRIG_CFG 1) 0x80000000, 0, 1, by decide +kernel⟩,
   ⟨from_ fun d => (({ d with pulses := [⟨0, 0, 0, 0xFF, 0, false, 0, 0⟩] }).fbank (Reg.LINE_CFG 1) 0x80000000).fbank (Reg.QS_CFG 1) 0x80000100, 0, 1, 1, by decide +kernel⟩,
   ⟨from_ fun d => (d.onTb fun x => { x with edges := 2 ^ 30 }).setQs 1 { (d.qs 1) with win := some (0, ⟨0, 0, 0, 0xFF, 0, false, 0, 0⟩) }, 1, 0, ⟨0, 0, 0, 0xFF, 0, false, 0, 0⟩, by decide +kernel⟩,
   ⟨from_ fun d => ((d.onTb fun x => { x with edges := 2 ^ 30 }).setQs 1 { (d.qs 1) with win := some (0, ⟨0, 0, 0, 0xFF, 0, false, 0, 0⟩) }).fbank (Reg.QS_CFG 1) 0x20000000, 1, 0, ⟨0, 0, 0, 0xFF, 0, false, 0, 0⟩, by decide +kernel⟩,
   ⟨from_ fun d => (d.clock tenSeconds).setQs 1 { (d.qs 1) with hold := some 0 }, 1, 0, by decide +kernel⟩,
   ⟨from_ fun d => (d.clock tenSeconds).setTrig 1 (some 0), 1, 0, by decide +kernel⟩,
   ⟨from_ fun d => (d.clock tenSeconds).setBlank 1 { (d.blank 1) with until_ := some 0, count := 3, last := some ⟨0, 0, 0, 0xFF, 0, false, 0, 0⟩ }, 1, 0, ⟨0, 0, 0, 0xFF, 0, false, 0, 0⟩, by decide +kernel⟩⟩

theorem witness_FabricCommitAndCrossTrigger :
    (∃ (s : State) (m : Fin 8) (at_ : TimerSt), s.dev.fab.timers.get (fun _ => none) m = some at_ ∧ at_.at_ ≤ s.dev.now ∧ at_.edge ≤ s.dev.tb.edges)
    ∧ (∃ (s : State) (i : Ini), s.reaches i Reg.FAB_CMD .write = true)
    ∧ (∃ (s : State) (i : Ini), s.reaches i Reg.FAB_CMD .write = true ∧ s.dev.fab.commitAt = none ∧ s.dev.now ≤ ofShort (s.dev.n64 Reg.COMMIT_AT_LO Reg.COMMIT_AT_HI))
    ∧ (∃ (s : State) (i : Ini), s.reaches i Reg.FAB_CMD .write = true ∧ s.dev.fab.commitAt = none ∧ ofShort (s.dev.n64 Reg.COMMIT_AT_LO Reg.COMMIT_AT_HI) < s.dev.now)
    ∧ (∃ (s : State) (i : Ini), s.reaches i Reg.FAB_CMD .write = true)
    ∧ (∃ (s : State) (at_ : Nat), s.dev.fab.commitAt = some at_ ∧ at_ ≤ s.dev.now)
    ∧ (∃ (s : State) (k : Fin 4) (e : Nat), (s.dev.xt k).sending = none ∧ (s.dev.xt k).pending = some e ∧ e < s.dev.tb.edges)
    ∧ (∃ (s : State) (k : Fin 4) (f : XtFrame), (s.dev.xt k).sending = some f)
    ∧ (∃ (s : State) (k : Fin 4) (f : XtFrame), (s.dev.xt k).sending = some f ∧ s.dev.passed f.start 40 = true)
    ∧ (∃ (s : State) (k : Fin 4) (f : XtFrame) (r : List XtFrame), (s.dev.xt k).ownDue = f :: r ∧ s.dev.passed f.start (64 + s.dev.fbf (Reg.XT_PAD k) 0 8) = true)
    ∧ (∃ (s : State) (k : Fin 4) (dev : BitVec 4) (code : BitVec 3) (parity : Bool), s.dev.fbOn Reg.XT_CFG k = true ∧ (((List.range 4).filter fun b => dev.getLsbD b).length + ((List.range 3).filter fun b => code.getLsbD b).length + b2n parity) % 2 = 0)
    ∧ (∃ (s : State) (k : Fin 4) (dev : BitVec 4) (code : BitVec 3) (parity : Bool), s.dev.fbOn Reg.XT_CFG k = true ∧ (((List.range 4).filter fun b => dev.getLsbD b).length + ((List.range 3).filter fun b => code.getLsbD b).length + b2n parity) % 2 = 1)
    ∧ (∃ (s : State) (k : Fin 4) (f : XtFrame) (r : List XtFrame), (s.dev.xt k).rxDue = f :: r ∧ s.dev.passed f.start (64 + s.dev.fbf (Reg.XT_PAD k) 0 8) = true) :=
  ⟨⟨from_ fun d => (d.clock tenSeconds).setFab { d.fab with timers := [(1, some ⟨0, 0⟩)] }, 1, ⟨0, 0⟩, by decide +kernel⟩,
   ⟨State.reset, 3, by decide +kernel⟩,
   ⟨State.reset, 3, by decide +kernel⟩,
   ⟨from_ fun d => d.clock tenSeconds, 3, by decide +kernel⟩,
   ⟨State.reset, 3, by decide +kernel⟩,
   ⟨from_ fun d => (d.clock tenSeconds).setFab { d.fab with commitAt := some 0 }, 0, by decide +kernel⟩,
   ⟨from_ fun d => (d.onTb fun x => { x with edges := 2 ^ 30 }).setXt 1 { (d.xt 1) with pending := some 0 }, 1, 0, by decide +kernel⟩,
   ⟨from_ fun d => (d.onTb fun x => { x with edges := 2 ^ 30 }).setXt 1 { (d.xt 1) with sending := some ⟨0, 1, 1⟩ }, 1, ⟨0, 1, 1⟩, by decide +kernel⟩,
   ⟨from_ fun d => (d.onTb fun x => { x with edges := 2 ^ 30 }).setXt 1 { (d.xt 1) with sending := some ⟨0, 1, 1⟩ }, 1, ⟨0, 1, 1⟩, by decide +kernel⟩,
   ⟨from_ fun d => (d.onTb fun x => { x with edges := 2 ^ 30 }).setXt 1 { (d.xt 1) with ownDue := [⟨0, 1, 1⟩] }, 1, ⟨0, 1, 1⟩, [], by decide +kernel⟩,
   ⟨from_ fun d => d.fbank Reg.XT_CFG 2, 1, 1, 1, false, by decide +kernel⟩,
   ⟨from_ fun d => d.fbank Reg.XT_CFG 2, 1, 1, 1, true, by decide +kernel⟩,
   ⟨from_ fun d => (d.onTb fun x => { x with edges := 2 ^ 30 }).setXt 1 { (d.xt 1) with rxDue := [⟨0, 1, 1⟩] }, 1, ⟨0, 1, 1⟩, [], by decide +kernel⟩⟩

theorem witness_DisplayBuffers :
    (∃ (s : State), s.dev.disp.render = none ∧ s.dev.disp.ready = false ∧ s.dev.panesFresh = true)
    ∧ (∃ (s : State) (r : Render), s.dev.disp.render = some r ∧ s.dev.on Reg.DISP_STATUS 2 = false)
    ∧ (∃ (s : State) (r : Render), s.dev.disp.render = some r ∧ s.dev.on Reg.DISP_STATUS 2 = true ∧ s.writable 0x1A1 21 (s.dev.fbHbm (1 - s.dev.disp.front)) r.pic.bytes.length = true)
    ∧ (∃ (s : State), s.dev.on Reg.DISP_CTRL 31 = true ∧ s.dev.on Reg.DISP_STATUS 4 = false ∧ s.dev.on Reg.DISP_STATUS 1 = true ∧ s.dev.disp.ready = true)
    ∧ (∃ (s : State), s.dev.on Reg.DISP_CTRL 31 = true ∧ s.dev.on Reg.DISP_STATUS 4 = false ∧ s.dev.on Reg.DISP_STATUS 1 = true ∧ s.dev.disp.ready = false ∧ s.dev.on Reg.DISP_STATUS 3 = true)
    ∧ (∃ (s : State) (i : Ini), s.takes i Reg.DISP_CMD = true)
    ∧ (∃ (s : State), s.dev.disp.flip = true ∧ s.dev.disp.staged = none) :=
  ⟨⟨State.reset, by decide +kernel⟩,
   ⟨from_ fun d => d.setDisp { d.disp with render := some ⟨⟨2, 2, [16, 16, 16, 16], [(128, 128)]⟩, [(1, 0)]⟩ }, ⟨⟨2, 2, [16, 16, 16, 16], [(128, 128)]⟩, [(1, 0)]⟩, by decide +kernel⟩,
   ⟨from_ fun d => (d.grant.setB Reg.DISP_STATUS 2).setDisp { d.disp with render := some ⟨⟨2, 2, [16, 16, 16, 16], [(128, 128)]⟩, [(1, 0)]⟩ }, ⟨⟨2, 2, [16, 16, 16, 16], [(128, 128)]⟩, [(1, 0)]⟩, by decide +kernel⟩,
   ⟨from_ fun d => ((d.setB Reg.DISP_CTRL 31).setB Reg.DISP_STATUS 1).setDisp { d.disp with ready := true }, by decide +kernel⟩,
   ⟨from_ fun d => ((d.setB Reg.DISP_CTRL 31).setB Reg.DISP_STATUS 1).setB Reg.DISP_STATUS 3, by decide +kernel⟩,
   ⟨State.reset, 3, by decide +kernel⟩,
   ⟨from_ fun d => d.setDisp { d.disp with flip := true }, by decide +kernel⟩⟩

theorem witness_DisplayTimingAndLink :
    (∃ (s : State) (i : Ini), s.takes i Reg.DISP_CMD = true ∧ timingBad s.dev.stagedTiming = true)
    ∧ (∃ (s : State) (i : Ini), s.takes i Reg.DISP_CMD = true ∧ timingBad s.dev.stagedTiming = false)
    ∧ (∃ (s : State) (w : List Word), s.dev.disp.staged = some w)
    ∧ (∃ (s : State), s.dev.scanning = true ∧ s.dev.disp.shown = true ∧ s.dev.disp.line < s.dev.active.2 ∧ s.dev.on Reg.DISP_STATUS 2 = false)
    ∧ (∃ (s : State) (from_ : Nat), s.dev.scanning = true ∧ s.dev.disp.shown = true ∧ s.dev.disp.line < s.dev.active.2 ∧ s.dev.on Reg.DISP_STATUS 2 = true ∧ from_ < s.dev.active.1)
    ∧ (∃ (s : State) (i : Ini), s.takes i Reg.DISP_CMD = true)
    ∧ (∃ (s : State) (i : Ini), s.takes i Reg.DISP_CMD = true)
    ∧ (∃ (s : State), s.dev.on Reg.DISP_STATUS 4 = true)
    ∧ (∃ (s : State), s.dev.on Reg.DISP_STATUS 4 = true)
    ∧ (∃ (s : State) (level : Bool), s.dev.on Reg.DISP_STATUS 0 ≠ level ∧ s.dev.disp.failed = false)
    ∧ (∃ (s : State), s.dev.on Reg.DISP_STATUS 0 = false ∧ s.dev.disp.failed = true)
    ∧ (∃ (s : State) (i : Ini), s.takes i Reg.AUX_TR = true)
    ∧ (∃ (s : State) (data : Word), s.dev.disp.aux = some data) :=
  ⟨⟨State.reset, 3, by decide +kernel⟩,
   ⟨from_ fun d => (((((d.wrN Reg.DISP_H (2200 * 65536 + 1920)).wrN Reg.DISP_HS (44 * 65536 + 88)).wrN Reg.DISP_V (1125 * 65536 + 1080)).wrN Reg.DISP_VS (5 * 65536 + 4)).wrN Reg.VTOTAL_MAX 1125).wrN Reg.PCLK_KHZ 148500, 3, by decide +kernel⟩,
   ⟨from_ fun d => d.setDisp { d.disp with staged := some [1, 2, 3] }, [1, 2, 3], by decide +kernel⟩,
   ⟨from_ fun d => ((d.setB Reg.DISP_CTRL 31).setB Reg.DISP_STATUS 1).setDisp { d.disp with shown := true, cur := [16, 0, 16] }, by decide +kernel⟩,
   ⟨from_ fun d => (((d.setB Reg.DISP_CTRL 31).setB Reg.DISP_STATUS 1).setDisp { d.disp with shown := true, cur := [16, 0, 16] }).setB Reg.DISP_STATUS 2, 0, by decide +kernel⟩,
   ⟨State.reset, 3, by decide +kernel⟩,
   ⟨State.reset, 3, by decide +kernel⟩,
   ⟨from_ fun d => d.setB Reg.DISP_STATUS 4, by decide +kernel⟩,
   ⟨from_ fun d => d.setB Reg.DISP_STATUS 4, by decide +kernel⟩,
   ⟨State.reset, true, by decide +kernel⟩,
   ⟨from_ fun d => d.setDisp { d.disp with failed := true }, by decide +kernel⟩,
   ⟨State.reset, 3, by decide +kernel⟩,
   ⟨from_ fun d => d.setDisp { d.disp with aux := some 5 }, 5, by decide +kernel⟩⟩

theorem witness_EdgeCrossings :
    (∃ (s : State) (n : Fin 16) (rising : Bool) (fine : Nat) (c : Nat) (d : Dev) (up : Bool), c = s.dev.up - (s.dev.eiConvert n fine).2.1 - s.dev.eiFix n ∧ d = s.dev.eiReach n c ∧ (d.eiSt n).level ≠ some rising ∧ (d.eiSt n).on = true ∧ (d.eiPre n rising).2 = some up ∧ edgeSelected (d.eiEdges n) up = true ∧ (d.eiSt n).fault = none ∧ ((d.eiSt n).losing = true → d.eiQueued n c < d.eiDepth n / 2) ∧ d.eiQueued n c < d.eiDepth n)
    ∧ (∃ (s : State) (n : Fin 16) (rising : Bool) (fine : Nat) (c : Nat) (d : Dev) (up : Bool), c = s.dev.up - (s.dev.eiConvert n fine).2.1 - s.dev.eiFix n ∧ d = s.dev.eiReach n c ∧ (d.eiSt n).level ≠ some rising ∧ (d.eiSt n).on = true ∧ (d.eiPre n rising).2 = some up ∧ edgeSelected (d.eiEdges n) up = true ∧ (d.eiSt n).fault = none ∧ (d.eiSt n).losing = false ∧ d.eiDepth n ≤ d.eiQueued n c)
    ∧ (∃ (s : State) (n : Fin 16) (rising : Bool) (fine : Nat) (c : Nat) (d : Dev) (up : Bool) (g : EiGap), c = s.dev.up - (s.dev.eiConvert n fine).2.1 - s.dev.eiFix n ∧ d = s.dev.eiReach n c ∧ (d.eiSt n).level ≠ some rising ∧ (d.eiSt n).on = true ∧ (d.eiPre n rising).2 = some up ∧ edgeSelected (d.eiEdges n) up = true ∧ (d.eiSt n).fault = some g)
    ∧ (∃ (s : State) (n : Fin 16) (rising : Bool) (fine : Nat) (c : Nat) (d : Dev) (up : Bool), c = s.dev.up - (s.dev.eiConvert n fine).2.1 - s.dev.eiFix n ∧ d = s.dev.eiReach n c ∧ (d.eiSt n).level ≠ some rising ∧ (d.eiSt n).on = true ∧ (d.eiPre n rising).2 = some up ∧ edgeSelected (d.eiEdges n) up = false)
    ∧ (∃ (s : State) (n : Fin 16) (rising : Bool) (fine : Nat) (c : Nat) (d : Dev), c = s.dev.up - (s.dev.eiConvert n fine).2.1 - s.dev.eiFix n ∧ d = s.dev.eiReach n c ∧ (d.eiSt n).level ≠ some rising ∧ (d.eiSt n).on = true ∧ (d.eiPre n rising).2 = none)
    ∧ (∃ (s : State) (n : Fin 16) (rising : Bool) (fine : Nat) (c : Nat) (d : Dev), c = s.dev.up - (s.dev.eiConvert n fine).2.1 - s.dev.eiFix n ∧ d = s.dev.eiReach n c ∧ (d.eiSt n).level ≠ some rising ∧ (d.eiSt n).on = false)
    ∧ (∃ (s : State) (n : Fin 16), (s.dev.eiSt n).losing = true ∧ s.dev.eiQueued n s.dev.up < s.dev.eiDepth n / 2)
    ∧ (∃ (s : State) (n : Fin 16) (b : EiBlk) (d : Dev), d = s.dev.eiReach n (s.dev.eiSeen n) ∧ (d.eiSt n).blk = some b ∧ d.eiAged n b = true)
    ∧ (∃ (s : State) (n : Fin 16) (t0 : Nat), (s.dev.eiSt n).pwrAt = some t0 ∧ elapsedNs t0 s.dev.up 20000 = true)
    ∧ (∃ (s : State) (n : Fin 16), s.dev.eiF n 31 1 = 1 ∧ s.dev.on (Reg.EI_STATE n) 30 = true ∧ s.dev.eiOn n = false)
    ∧ (∃ (s : State) (n : Fin 16) (t0 : Nat), (s.dev.eiSt n).window = some t0)
    ∧ (∃ (s : State) (n : Fin 16) (t0 : Nat), (s.dev.eiSt n).window = some t0)
    ∧ (∃ (s : State) (n : Fin 16) (d : Dev), d = s.dev.eiReach n (s.dev.eiSeen n)) :=
  ⟨⟨from_ fun d => d.setEi 1 { (d.eiSt 1) with on := true, tab0 := { ncodes := 2, f := [3, 4] } }, 1, true, 0, (from_ fun d => d.setEi 1 { (d.eiSt 1) with on := true, tab0 := { ncodes := 2, f := [3, 4] } }).dev.up - ((from_ fun d => d.setEi 1 { (d.eiSt 1) with on := true, tab0 := { ncodes := 2, f := [3, 4] } }).dev.eiConvert 1 0).2.1 - (from_ fun d => d.setEi 1 { (d.eiSt 1) with on := true, tab0 := { ncodes := 2, f := [3, 4] } }).dev.eiFix 1, (from_ fun d => d.setEi 1 { (d.eiSt 1) with on := true, tab0 := { ncodes := 2, f := [3, 4] } }).dev.eiReach 1 ((from_ fun d => d.setEi 1 { (d.eiSt 1) with on := true, tab0 := { ncodes := 2, f := [3, 4] } }).dev.up - ((from_ fun d => d.setEi 1 { (d.eiSt 1) with on := true, tab0 := { ncodes := 2, f := [3, 4] } }).dev.eiConvert 1 0).2.1 - (from_ fun d => d.setEi 1 { (d.eiSt 1) with on := true, tab0 := { ncodes := 2, f := [3, 4] } }).dev.eiFix 1), true, ⟨rfl, rfl, by decide +kernel, by decide +kernel, by decide +kernel, by decide +kernel, by decide +kernel, by decide +kernel, by decide +kernel⟩⟩,
   ⟨from_ fun d => d.setEi 1 { (d.eiSt 1) with on := true, busy := 2 ^ 100, tab0 := { ncodes := 2, f := [3, 4] } }, 1, true, 0, (from_ fun d => d.setEi 1 { (d.eiSt 1) with on := true, busy := 2 ^ 100, tab0 := { ncodes := 2, f := [3, 4] } }).dev.up - ((from_ fun d => d.setEi 1 { (d.eiSt 1) with on := true, busy := 2 ^ 100, tab0 := { ncodes := 2, f := [3, 4] } }).dev.eiConvert 1 0).2.1 - (from_ fun d => d.setEi 1 { (d.eiSt 1) with on := true, busy := 2 ^ 100, tab0 := { ncodes := 2, f := [3, 4] } }).dev.eiFix 1, (from_ fun d => d.setEi 1 { (d.eiSt 1) with on := true, busy := 2 ^ 100, tab0 := { ncodes := 2, f := [3, 4] } }).dev.eiReach 1 ((from_ fun d => d.setEi 1 { (d.eiSt 1) with on := true, busy := 2 ^ 100, tab0 := { ncodes := 2, f := [3, 4] } }).dev.up - ((from_ fun d => d.setEi 1 { (d.eiSt 1) with on := true, busy := 2 ^ 100, tab0 := { ncodes := 2, f := [3, 4] } }).dev.eiConvert 1 0).2.1 - (from_ fun d => d.setEi 1 { (d.eiSt 1) with on := true, busy := 2 ^ 100, tab0 := { ncodes := 2, f := [3, 4] } }).dev.eiFix 1), true, ⟨rfl, rfl, by decide +kernel, by decide +kernel, by decide +kernel, by decide +kernel, by decide +kernel, by decide +kernel, Nat.le_trans (by decide +kernel) (Dev.le_eiQueued (k := 2 ^ 19) (by decide +kernel))⟩⟩,
   ⟨from_ fun d => d.setEi 1 { (d.eiSt 1) with on := true, fault := some ⟨0, 0, 1, 1⟩, tab0 := { ncodes := 2, f := [3, 4] } }, 1, true, 0, (from_ fun d => d.setEi 1 { (d.eiSt 1) with on := true, fault := some ⟨0, 0, 1, 1⟩, tab0 := { ncodes := 2, f := [3, 4] } }).dev.up - ((from_ fun d => d.setEi 1 { (d.eiSt 1) with on := true, fault := some ⟨0, 0, 1, 1⟩, tab0 := { ncodes := 2, f := [3, 4] } }).dev.eiConvert 1 0).2.1 - (from_ fun d => d.setEi 1 { (d.eiSt 1) with on := true, fault := some ⟨0, 0, 1, 1⟩, tab0 := { ncodes := 2, f := [3, 4] } }).dev.eiFix 1, (from_ fun d => d.setEi 1 { (d.eiSt 1) with on := true, fault := some ⟨0, 0, 1, 1⟩, tab0 := { ncodes := 2, f := [3, 4] } }).dev.eiReach 1 ((from_ fun d => d.setEi 1 { (d.eiSt 1) with on := true, fault := some ⟨0, 0, 1, 1⟩, tab0 := { ncodes := 2, f := [3, 4] } }).dev.up - ((from_ fun d => d.setEi 1 { (d.eiSt 1) with on := true, fault := some ⟨0, 0, 1, 1⟩, tab0 := { ncodes := 2, f := [3, 4] } }).dev.eiConvert 1 0).2.1 - (from_ fun d => d.setEi 1 { (d.eiSt 1) with on := true, fault := some ⟨0, 0, 1, 1⟩, tab0 := { ncodes := 2, f := [3, 4] } }).dev.eiFix 1), true, ⟨0, 0, 1, 1⟩, ⟨rfl, rfl, by decide +kernel, by decide +kernel, by decide +kernel, by decide +kernel, by decide +kernel⟩⟩,
   ⟨from_ fun d => d.setEi 1 { (d.eiSt 1) with on := true, bank := [(Reg.EI_CFG 1, 0x20000000)], tab0 := { ncodes := 2, f := [3, 4] } }, 1, true, 0, (from_ fun d => d.setEi 1 { (d.eiSt 1) with on := true, bank := [(Reg.EI_CFG 1, 0x20000000)], tab0 := { ncodes := 2, f := [3, 4] } }).dev.up - ((from_ fun d => d.setEi 1 { (d.eiSt 1) with on := true, bank := [(Reg.EI_CFG 1, 0x20000000)], tab0 := { ncodes := 2, f := [3, 4] } }).dev.eiConvert 1 0).2.1 - (from_ fun d => d.setEi 1 { (d.eiSt 1) with on := true, bank := [(Reg.EI_CFG 1, 0x20000000)], tab0 := { ncodes := 2, f := [3, 4] } }).dev.eiFix 1, (from_ fun d => d.setEi 1 { (d.eiSt 1) with on := true, bank := [(Reg.EI_CFG 1, 0x20000000)], tab0 := { ncodes := 2, f := [3, 4] } }).dev.eiReach 1 ((from_ fun d => d.setEi 1 { (d.eiSt 1) with on := true, bank := [(Reg.EI_CFG 1, 0x20000000)], tab0 := { ncodes := 2, f := [3, 4] } }).dev.up - ((from_ fun d => d.setEi 1 { (d.eiSt 1) with on := true, bank := [(Reg.EI_CFG 1, 0x20000000)], tab0 := { ncodes := 2, f := [3, 4] } }).dev.eiConvert 1 0).2.1 - (from_ fun d => d.setEi 1 { (d.eiSt 1) with on := true, bank := [(Reg.EI_CFG 1, 0x20000000)], tab0 := { ncodes := 2, f := [3, 4] } }).dev.eiFix 1), true, ⟨rfl, rfl, by decide +kernel, by decide +kernel, by decide +kernel, by decide +kernel⟩⟩,
   ⟨from_ fun d => d.setEi 1 { (d.eiSt 1) with on := true, bank := [(Reg.EI_CFG 1, 0x04000000)], tab0 := { ncodes := 2, f := [3, 4] } }, 1, true, 0, (from_ fun d => d.setEi 1 { (d.eiSt 1) with on := true, bank := [(Reg.EI_CFG 1, 0x04000000)], tab0 := { ncodes := 2, f := [3, 4] } }).dev.up - ((from_ fun d => d.setEi 1 { (d.eiSt 1) with on := true, bank := [(Reg.EI_CFG 1, 0x04000000)], tab0 := { ncodes := 2, f := [3, 4] } }).dev.eiConvert 1 0).2.1 - (from_ fun d => d.setEi 1 { (d.eiSt 1) with on := true, bank := [(Reg.EI_CFG 1, 0x04000000)], tab0 := { ncodes := 2, f := [3, 4] } }).dev.eiFix 1, (from_ fun d => d.setEi 1 { (d.eiSt 1) with on := true, bank := [(Reg.EI_CFG 1, 0x04000000)], tab0 := { ncodes := 2, f := [3, 4] } }).dev.eiReach 1 ((from_ fun d => d.setEi 1 { (d.eiSt 1) with on := true, bank := [(Reg.EI_CFG 1, 0x04000000)], tab0 := { ncodes := 2, f := [3, 4] } }).dev.up - ((from_ fun d => d.setEi 1 { (d.eiSt 1) with on := true, bank := [(Reg.EI_CFG 1, 0x04000000)], tab0 := { ncodes := 2, f := [3, 4] } }).dev.eiConvert 1 0).2.1 - (from_ fun d => d.setEi 1 { (d.eiSt 1) with on := true, bank := [(Reg.EI_CFG 1, 0x04000000)], tab0 := { ncodes := 2, f := [3, 4] } }).dev.eiFix 1), ⟨rfl, rfl, by decide +kernel, by decide +kernel, by decide +kernel⟩⟩,
   ⟨from_ fun d => d.setEi 1 { (d.eiSt 1) with tab0 := { ncodes := 2, f := [3, 4] } }, 1, true, 0, (from_ fun d => d.setEi 1 { (d.eiSt 1) with tab0 := { ncodes := 2, f := [3, 4] } }).dev.up - ((from_ fun d => d.setEi 1 { (d.eiSt 1) with tab0 := { ncodes := 2, f := [3, 4] } }).dev.eiConvert 1 0).2.1 - (from_ fun d => d.setEi 1 { (d.eiSt 1) with tab0 := { ncodes := 2, f := [3, 4] } }).dev.eiFix 1, (from_ fun d => d.setEi 1 { (d.eiSt 1) with tab0 := { ncodes := 2, f := [3, 4] } }).dev.eiReach 1 ((from_ fun d => d.setEi 1 { (d.eiSt 1) with tab0 := { ncodes := 2, f := [3, 4] } }).dev.up - ((from_ fun d => d.setEi 1 { (d.eiSt 1) with tab0 := { ncodes := 2, f := [3, 4] } }).dev.eiConvert 1 0).2.1 - (from_ fun d => d.setEi 1 { (d.eiSt 1) with tab0 := { ncodes := 2, f := [3, 4] } }).dev.eiFix 1), ⟨rfl, rfl, by decide +kernel, by decide +kernel⟩⟩,
   ⟨from_ fun d => d.setEi 1 { (d.eiSt 1) with losing := true }, 1, by decide +kernel⟩,
   ⟨from_ fun d => (d.clock tenSeconds).setEi 1 { (d.eiSt 1) with blk := some ⟨0, 0, 0, false, false, false, 0, 1, 0, none, [7]⟩ }, 1, ⟨0, 0, 0, false, false, false, 0, 1, 0, none, [7]⟩, (from_ fun d => (d.clock tenSeconds).setEi 1 { (d.eiSt 1) with blk := some ⟨0, 0, 0, false, false, false, 0, 1, 0, none, [7]⟩ }).dev.eiReach 1 ((from_ fun d => (d.clock tenSeconds).setEi 1 { (d.eiSt 1) with blk := some ⟨0, 0, 0, false, false, false, 0, 1, 0, none, [7]⟩ }).dev.eiSeen 1), ⟨rfl, by decide +kernel, by decide +kernel⟩⟩,
   ⟨from_ fun d => (d.clock tenSeconds).setEi 1 { (d.eiSt 1) with pwrAt := some 0 }, 1, 0, by decide +kernel⟩,
   ⟨from_ fun d => (d.ebank (Reg.EI_CFG 1) 0x80000000).setB (Reg.EI_STATE 1) 30, 1, by decide +kernel⟩,
   ⟨from_ fun d => (d.clock tenSeconds).setEi 1 { (d.eiSt 1) with window := some 0 }, 1, 0, by decide +kernel⟩,
   ⟨from_ fun d => (d.clock tenSeconds).setEi 1 { (d.eiSt 1) with window := some 0 }, 1, 0, by decide +kernel⟩,
   ⟨from_ fun d => (d.clock tenSeconds).setEi 1 { (d.eiSt 1) with settles := [0] }, 1, (from_ fun d => (d.clock tenSeconds).setEi 1 { (d.eiSt 1) with settles := [0] }).dev.eiReach 1 ((from_ fun d => (d.clock tenSeconds).setEi 1 { (d.eiSt 1) with settles := [0] }).dev.eiSeen 1), rfl⟩⟩

theorem witness_EdgeRampsAndCommit :
    (∃ (s : State) (n : Fin 16) (e : Nat), (s.dev.eiSt n).rampPend = some e ∧ s.dev.tb.edges % 8 = 0 ∧ e < s.dev.tb.edges)
    ∧ (∃ (s : State) (n : Fin 16) (r : Nat × Nat), (s.dev.eiSt n).ramp = some r ∧ r.1 + 8 * (s.dev.rampLen n + 1) ≤ s.dev.tb.edges)
    ∧ (∃ (s : State) (n : Fin 16) (ip : Fin 2), s.dev.ipRetired n ip = false)
    ∧ (∃ (s : State) (n : Fin 16) (ip : Fin 2) (e : Nat), (s.dev.eiSt n).faultEdge = some e ∧ e < s.dev.tb.edges ∧ s.dev.ipRetired n ip = false ∧ s.dev.ipRetired n (1 - ip.val) = true)
    ∧ (∃ (s : State) (i : Ini), s.reaches i Reg.EI_CMD .write = true ∧ s.dev.edge.commitAt = none ∧ (List.range 16).foldl (fun a n => if s.dev.on (Reg.EI_CFG n) 31 then a + s.dev.f (Reg.EI_CFG n) 16 8 + 1 else a) 0 ≤ 1024 ∧ (∀ n : Fin 16, s.dev.on (Reg.EI_CFG n) 25 = true → s.dev.ipRetired n 0 = false ∧ s.dev.ipRetired n 1 = false) ∧ s.dev.now ≤ ofShort (s.dev.n64 Reg.EI_COMMIT_AT_LO Reg.EI_COMMIT_AT_HI))
    ∧ (∃ (s : State) (i : Ini), s.reaches i Reg.EI_CMD .write = true ∧ s.dev.edge.commitAt = none ∧ (List.range 16).foldl (fun a n => if s.dev.on (Reg.EI_CFG n) 31 then a + s.dev.f (Reg.EI_CFG n) 16 8 + 1 else a) 0 ≤ 1024 ∧ (∀ n : Fin 16, s.dev.on (Reg.EI_CFG n) 25 = true → s.dev.ipRetired n 0 = false ∧ s.dev.ipRetired n 1 = false) ∧ ofShort (s.dev.n64 Reg.EI_COMMIT_AT_LO Reg.EI_COMMIT_AT_HI) < s.dev.now)
    ∧ (∃ (s : State) (i : Ini), s.reaches i Reg.EI_CMD .write = true ∧ s.dev.edge.commitAt = none ∧ 1024 < (List.range 16).foldl (fun a n => if s.dev.on (Reg.EI_CFG n) 31 then a + s.dev.f (Reg.EI_CFG n) 16 8 + 1 else a) 0)
    ∧ (∃ (s : State) (i : Ini) (n : Fin 16), s.reaches i Reg.EI_CMD .write = true ∧ s.dev.edge.commitAt = none ∧ (List.range 16).foldl (fun a n => if s.dev.on (Reg.EI_CFG n) 31 then a + s.dev.f (Reg.EI_CFG n) 16 8 + 1 else a) 0 ≤ 1024 ∧ s.dev.on (Reg.EI_CFG n) 25 = true ∧ s.dev.ipRetired n 0 = true)
    ∧ (∃ (s : State) (i : Ini), s.reaches i Reg.EI_CMD .write = true)
    ∧ (∃ (s : State) (at_ : Nat), s.dev.edge.commitAt = some at_ ∧ at_ ≤ s.dev.now)
    ∧ (∃ (s : State) (i : Ini), s.reaches i Reg.EI_CMD .write = true) :=
  ⟨⟨from_ fun d => (d.onTb fun x => { x with edges := 2 ^ 30 }).setEi 1 { (d.eiSt 1) with rampPend := some 0 }, 1, 0, by decide +kernel⟩,
   ⟨from_ fun d => (d.onTb fun x => { x with edges := 2 ^ 30 }).setEi 1 { (d.eiSt 1) with ramp := some (0, 0) }, 1, (0, 0), by decide +kernel⟩,
   ⟨from_ fun d => (d.setB (Reg.EI_STATE 1) 31).setB (Reg.EI_STATE 1) 29, 1, 1, by decide +kernel⟩,
   ⟨from_ fun d => ((d.onTb fun x => { x with edges := 2 ^ 30 }).setEi 1 { (d.eiSt 1) with faultEdge := some 0 }).setB (Reg.EI_STATE 1) 23, 1, 0, 0, by decide +kernel⟩,
   ⟨State.reset, 3, by decide +kernel⟩,
   ⟨from_ fun d => d.clock tenSeconds, 3, by decide +kernel⟩,
   ⟨from_ fun d => (List.range 16).foldl (fun d n => d.wr (Reg.EI_CFG n) 0x80FF0000) d, 3, by decide +kernel⟩,
   ⟨from_ fun d => (d.setB (Reg.EI_CFG 1) 25).setB (Reg.EI_STATE 1) 22, 3, 1, by decide +kernel⟩,
   ⟨State.reset, 3, by decide +kernel⟩,
   ⟨from_ fun d => { (d.clock tenSeconds) with edge := { d.edge with commitAt := some 0 } }, 0, by decide +kernel⟩,
   ⟨State.reset, 3, by decide +kernel⟩⟩

theorem witness_EdgeCalibration :
    (∃ (s : State) (i : Ini) (n : Fin 16), s.reaches i Reg.EI_CMD .write = true ∧ s.dev.on Reg.EI_CAL_MASK n = true ∧ (s.dev.eiSt n).calBusy = false ∧ (s.dev.eiSt n).deferred = false ∧ s.dev.on Reg.TB_STATUS 1 = true ∧ s.dev.ipRetired n 0 = false ∧ s.dev.ipRetired n 1 = false ∧ s.dev.eiIlv n = false)
    ∧ (∃ (s : State) (i : Ini) (n : Fin 16), s.reaches i Reg.EI_CMD .write = true ∧ s.dev.on Reg.EI_CAL_MASK n = true ∧ (s.dev.eiSt n).calBusy = false ∧ (s.dev.eiSt n).deferred = false ∧ s.dev.on Reg.TB_STATUS 1 = false)
    ∧ (∃ (s : State) (i : Ini) (n : Fin 16) (r : List Nat × Nat), s.reaches i Reg.EI_CMD .write = true ∧ s.dev.on Reg.EI_CAL_MASK n = true ∧ (s.dev.eiSt n).run = some r)
    ∧ (∃ (s : State) (n : Fin 16), (s.dev.eiSt n).deferred = true ∧ (s.dev.eiSt n).calBusy = false ∧ s.dev.on Reg.TB_STATUS 1 = true ∧ s.dev.ipRetired n 0 = false ∧ s.dev.ipRetired n 1 = false)
    ∧ (∃ (s : State) (n : Fin 16) (r : List Nat × Nat), (s.dev.eiSt n).run = some r ∧ r.1.length = 2 ∧ (s.dev.eiSt n).again = false ∧ elapsedNs r.2 s.dev.up (1000000 * max 1 (s.dev.f Reg.CAL_LIMIT 0 16)) = true)
    ∧ (∃ (s : State) (n : Fin 16) (r : List Nat × Nat) (runs : List (List (List (Nat × Nat)))), (s.dev.eiSt n).run = some r ∧ runs.length = r.1.length ∧ (runs.all fun c => decide (c.length = 3) && c.all tapsOk) = true ∧ ((r.1.zip runs).all fun p => (s.dev.judge p.1 p.2).2) = false ∧ (s.dev.eiSt n).again = false)
    ∧ (∃ (s : State) (n : Fin 16) (ip : Nat) (t0 : Nat) (chains : List (List (Nat × Nat))) (v : IpNew), (s.dev.eiSt n).run = some ([ip], t0) ∧ chains.length = 3 ∧ chains.all tapsOk = true ∧ s.dev.judge ip chains = (v, true) ∧ s.dev.eiOn n = true)
    ∧ (∃ (s : State) (n : Fin 16) (ip : Nat) (t0 : Nat) (chains : List (List (Nat × Nat))) (v : IpNew), (s.dev.eiSt n).run = some ([ip], t0) ∧ ip < 2 ∧ chains.length = 3 ∧ chains.all tapsOk = true ∧ s.dev.judge ip chains = (v, true) ∧ s.dev.eiOn n = false ∧ (s.dev.eiSt n).again = false) :=
  ⟨⟨from_ fun d => (d.wr Reg.EI_CAL_MASK 2).setB Reg.TB_STATUS 1, 3, 1, by decide +kernel⟩,
   ⟨from_ fun d => (d.wr Reg.EI_CAL_MASK 2), 3, 1, by decide +kernel⟩,
   ⟨from_ fun d => (d.wr Reg.EI_CAL_MASK 2).setEi 1 { (d.eiSt 1) with run := some ([0], 0) }, 3, 1, ([0], 0), by decide +kernel⟩,
   ⟨from_ fun d => d.setEi 1 { (d.eiSt 1) with deferred := true }|>.setB Reg.TB_STATUS 1, 1, by decide +kernel⟩,
   ⟨from_ fun d => (d.clock tenSeconds).setEi 1 { (d.eiSt 1) with run := some ([0, 1], 0) }, 1, ([0, 1], 0), by decide +kernel⟩,
   ⟨from_ fun d => d.setEi 1 { (d.eiSt 1) with run := some ([0], 0) }, 1, ([0], 0), [[[], [], []]], by decide +kernel⟩,
   ⟨from_ fun d => (d.setB (Reg.EI_STATE 1) 31).setEi 1 { (d.eiSt 1) with run := some ([0], 9) }, 1, 0, 9, List.replicate 3 (List.replicate 1024 (8192, 8192)), ((from_ fun d => (d.setB (Reg.EI_STATE 1) 31).setEi 1 { (d.eiSt 1) with run := some ([0], 9) }).dev.judge 0 (List.replicate 3 (List.replicate 1024 (8192, 8192)))).1, ⟨by decide +kernel, by decide +kernel, by decide +kernel, Prod.ext rfl (by decide +kernel), by decide +kernel⟩⟩,
   ⟨from_ fun d => d.setEi 1 { (d.eiSt 1) with run := some ([0], 9) }, 1, 0, 9, List.replicate 3 (List.replicate 1024 (8192, 8192)), ((from_ fun d => d.setEi 1 { (d.eiSt 1) with run := some ([0], 9) }).dev.judge 0 (List.replicate 3 (List.replicate 1024 (8192, 8192)))).1, ⟨by decide +kernel, by decide +kernel, by decide +kernel, by decide +kernel, Prod.ext rfl (by decide +kernel), by decide +kernel, by decide +kernel⟩⟩⟩

theorem witness_EdgeTablesAndImages :
    (∃ (s : State) (i : Ini), s.reaches i Reg.EI_CMD .write = true ∧ s.dev.now ≤ ofShort (s.dev.n64 Reg.ILV_COMMIT_AT_LO Reg.ILV_COMMIT_AT_HI))
    ∧ (∃ (s : State) (i : Ini), s.reaches i Reg.EI_CMD .write = true ∧ ofShort (s.dev.n64 Reg.ILV_COMMIT_AT_LO Reg.ILV_COMMIT_AT_HI) < s.dev.now)
    ∧ (∃ (s : State) (at_ : Nat), s.dev.edge.ilvAt = some at_ ∧ at_ ≤ s.dev.now)
    ∧ (∃ (s : State) (n : Fin 16) (v : IpNew) (e : Nat), (s.dev.eiSt n).swap = [(v, e)] ∧ e < s.dev.tb.edges ∧ v.ip < 2 ∧ v.image = false ∧ (s.dev.eiSt n).run = none ∧ (s.dev.eiSt n).again = false)
    ∧ (∃ (s : State) (i : Ini), s.reaches i Reg.CAL_DATA .read = true)
    ∧ (∃ (s : State) (i : Ini), s.reaches i Reg.CAL_DATA .write = true ∧ s.dev.f Reg.CAL_SEL 0 14 < 8193)
    ∧ (∃ (s : State) (i : Ini), s.reaches i Reg.CAL_DATA .write = true ∧ s.dev.f Reg.CAL_SEL 0 14 = 8193 ∧ s.dev.eiIlv (s.dev.f Reg.CAL_SEL 16 4) = false ∧ s.dev.eiLive (s.dev.f Reg.CAL_SEL 16 4) = s.dev.f Reg.CAL_SEL 20 1)
    ∧ (∃ (s : State) (i : Ini), s.reaches i Reg.CAL_DATA .write = true ∧ s.dev.f Reg.CAL_SEL 0 14 = 8193 ∧ s.dev.f Reg.CAL_SEL 20 1 = 0 ∧ s.dev.eiIlv (s.dev.f Reg.CAL_SEL 16 4) = false ∧ s.dev.eiLive (s.dev.f Reg.CAL_SEL 16 4) = 1 ∧ s.dev.ipRetired (s.dev.f Reg.CAL_SEL 16 4) 0 = false ∧ s.dev.eiOn (s.dev.f Reg.CAL_SEL 16 4) = true)
    ∧ (∃ (s : State) (i : Ini) (n : Fin 16), s.reaches i (Reg.THR_TRIM n) .write = true ∧ (s.dev.eiSt n).blk = none)
    ∧ (∃ (s : State) (i : Ini) (n : Fin 16) (b : EiBlk), s.reaches i (Reg.THR_TRIM n) .write = true ∧ (s.dev.eiSt n).blk = some b) :=
  ⟨⟨State.reset, 3, by decide +kernel⟩,
   ⟨from_ fun d => d.clock tenSeconds, 3, by decide +kernel⟩,
   ⟨from_ fun d => { (d.clock tenSeconds) with edge := { d.edge with ilvAt := some 0 } }, 0, by decide +kernel⟩,
   ⟨from_ fun d => (d.onTb fun x => { x with edges := 2 ^ 30 }).setEi 1 { (d.eiSt 1) with swap := [(⟨0, { ncodes := 2, f := [3, 4], cal := true }, 5, 600, false⟩, 0)] }, 1, ⟨0, { ncodes := 2, f := [3, 4], cal := true }, 5, 600, false⟩, 0, by decide +kernel⟩,
   ⟨State.reset, 3, by decide +kernel⟩,
   ⟨State.reset, 3, by decide +kernel⟩,
   ⟨from_ fun d => d.wr Reg.CAL_SEL 8193, 3, by decide +kernel⟩,
   ⟨from_ fun d => ((d.wr Reg.CAL_SEL 8193).setB (Reg.EI_STATE 0) 31).setB (Reg.EI_STATE 0) 29, 3, by decide +kernel⟩,
   ⟨State.reset, 3, 1, by decide +kernel⟩,
   ⟨from_ fun d => d.setEi 1 { (d.eiSt 1) with blk := some ⟨0, 0, 0, false, false, false, 0, 1, 0, none, [7]⟩ }, 3, 1, ⟨0, 0, 0, false, false, false, 0, 1, 0, none, [7]⟩, by decide +kernel⟩⟩

theorem witness_StampStatistics :
    (∃ (s : State) (u : Fin 16) (x : SuItem) (r : List SuItem), suFunc ((s.dev.su u).c 0) = 2 ∧ (s.dev.su u).a.live = x :: r ∧ x.kind = 0 ∧ (s.dev.su u).a.buf = [] ∧ (s.dev.su u).a.cand = none ∧ (s.dev.su u).b = {} ∧ (s.dev.su u).nexts = [])
    ∧ (∃ (s : State) (u : Fin 16), suOn ((s.dev.su u).c 0) = true ∧ suFunc ((s.dev.su u).c 0) = 4 ∧ s.dev.gateAt u ((s.dev.su u).gate + 1) ≤ (s.dev.su u).a.front (s.dev.eiProgress (suInA ((s.dev.su u).c 0))))
    ∧ (∃ (s : State) (u : Fin 16) (l : Nat), (s.dev.su u).limit = some l ∧ suUsesB ((s.dev.su u).c 0) = false ∧ l ≤ (s.dev.su u).a.front (s.dev.eiProgress (suInA ((s.dev.su u).c 0))) ∧ l ≤ s.dev.now)
    ∧ (∃ (s : State) (u : Fin 16) (r : SuRec), (s.dev.su u).open_ = some r ∧ r.opened + s.dev.periods (64 * max 1 (fld ((s.dev.su u).c 5) 0 20)) ≤ s.dev.up)
    ∧ (∃ (s : State) (u : Fin 16) (g : SuItem), (s.dev.su u).a.overrun = some g ∧ (s.dev.su u).held4096 true < 2048)
    ∧ (∃ (s : State) (i : Ini), s.reaches i Reg.SU_CMD .write = true ∧ s.dev.stats.commitAt = none ∧ (∀ u : Fin 16, suBad (s.dev.rd (Reg.SU_CFG u)) = false) ∧ s.dev.now ≤ ofShort (s.dev.n64 Reg.SU_COMMIT_AT_LO Reg.SU_COMMIT_AT_HI))
    ∧ (∃ (s : State) (i : Ini), s.reaches i Reg.SU_CMD .write = true ∧ s.dev.stats.commitAt = none ∧ (∀ u : Fin 16, suBad (s.dev.rd (Reg.SU_CFG u)) = false) ∧ ofShort (s.dev.n64 Reg.SU_COMMIT_AT_LO Reg.SU_COMMIT_AT_HI) < s.dev.now)
    ∧ (∃ (s : State) (i : Ini) (u : Fin 16), s.reaches i Reg.SU_CMD .write = true ∧ s.dev.stats.commitAt = none ∧ suBad (s.dev.rd (Reg.SU_CFG u)) = true)
    ∧ (∃ (s : State) (i : Ini), s.reaches i Reg.SU_CMD .write = true)
    ∧ (∃ (s : State) (at_ : Nat), s.dev.stats.commitAt = some at_ ∧ at_ ≤ s.dev.now)
    ∧ (∃ (s : State) (i : Ini) (v : Fin 16), s.reaches i Reg.SU_CMD .write = true ∧ ((s.dev.su v).batch.live || (s.dev.su v).open_.isSome) = true)
    ∧ (∃ (s : State) (i : Ini), s.reaches i Reg.SU_CMD .write = true ∧ (s.dev.stats.units.all fun e => !(s.dev.su e.1).batch.live && (s.dev.su e.1).open_.isNone) = true)
    ∧ (∃ (s : State) (i : Ini), s.reaches i Reg.SU_CMD .write = true) :=
  ⟨⟨from_ fun d => d.setSu 1 { (d.su 1) with cfg := [0xA0000000, 0, 0, 0, 0, 0, 0], a := { live := [{ kind := 0, t := 9, k := 1 }] } }, 1, { kind := 0, t := 9, k := 1 }, [], by decide +kernel⟩,
   ⟨from_ fun d => (d.clock tenSeconds).setSu 1 { (d.su 1) with cfg := [0xC0000000, 0, 0, 1, 0, 0, 0] }, 1, by decide +kernel⟩,
   ⟨from_ fun d => (d.clock tenSeconds).setSu 1 { (d.su 1) with cfg := [0xA0000000, 0, 0, 1, 1, 0, 0], batch := { n := 1, first := 0 } }, 1, ((from_ fun d => (d.clock tenSeconds).setSu 1 { (d.su 1) with cfg := [0xA0000000, 0, 0, 1, 1, 0, 0], batch := { n := 1, first := 0 } }).dev.su 1).limit.getD 0, by decide +kernel⟩,
   ⟨from_ fun d => (d.clock tenSeconds).setSu 1 { (d.su 1) with open_ := some ⟨0, 0, 0, false, 0, []⟩ }, 1, ⟨0, 0, 0, false, 0, []⟩, by decide +kernel⟩,
   ⟨from_ fun d => d.setSu 1 { (d.su 1) with a := { overrun := some { kind := 0, t := 9, k := 1 } } }, 1, { kind := 0, t := 9, k := 1 }, by decide +kernel⟩,
   ⟨State.reset, 3, by decide +kernel⟩,
   ⟨from_ fun d => d.clock tenSeconds, 3, by decide +kernel⟩,
   ⟨from_ fun d => d.wr (Reg.SU_CFG 1) 0x70000000, 3, 1, by decide +kernel⟩,
   ⟨State.reset, 3, by decide +kernel⟩,
   ⟨from_ fun d => { (d.clock tenSeconds) with stats := { d.stats with commitAt := some 0 } }, 0, by decide +kernel⟩,
   ⟨from_ fun d => d.setSu 1 { (d.su 1) with open_ := some ⟨0, 0, 0, false, 0, []⟩ }, 3, 1, by decide +kernel⟩,
   ⟨State.reset, 3, by decide +kernel⟩,
   ⟨State.reset, 3, by decide +kernel⟩⟩

theorem witness_CratreArithmetic :
    (∃ (s : State) (e : Fin 128) (w : CrW), s.issues e 0x02 w = true ∧ movesNothing w = true ∧ crLegalA true true .vec .vec 31 0 w = true)
    ∧ (∃ (s : State) (e : Fin 128) (w : CrW), s.issues e 0x03 w = true ∧ movesNothing w = true ∧ crLegalA true true .vec .vec 31 0 w = true)
    ∧ (∃ (s : State) (e : Fin 128) (w : CrW), s.issues e 0x04 w = true ∧ movesNothing w = true ∧ crLegalA true true .vec .vec 31 0 w = true)
    ∧ (∃ (s : State) (e : Fin 128) (w : CrW), s.issues e 0x05 w = true ∧ movesNothing w = true ∧ crLegalA true true .vec .vec 31 0 w = true)
    ∧ (∃ (s : State) (e : Fin 128) (w : CrW), s.issues e 0x06 w = true ∧ movesNothing w = true ∧ crLegalA true true .vec .vec 0 0 w = true)
    ∧ (∃ (s : State) (e : Fin 128) (w : CrW), s.issues e 0x07 w = true ∧ movesNothing w = true ∧ crLegalA true true .vec .vec 31 0 w = true)
    ∧ (∃ (s : State) (e : Fin 128) (w : CrW), s.issues e 0x08 w = true ∧ movesNothing w = true ∧ crLegalA true true .vec .vec 31 0 w = true)
    ∧ (∃ (s : State) (e : Fin 128) (w : CrW), s.issues e 0x0E w = true ∧ movesNothing w = true ∧ crLegalA true true .vec .vec 31 31 w = true)
    ∧ (∃ (s : State) (e : Fin 128) (w : CrW), s.issues e 0x13 w = true ∧ movesNothing w = true ∧ crLegalA true true .vec .vec 0 0 w = true) :=
  ⟨⟨from_ fun d => d.runs 1 0x208860000000000 (fun x => { x with v := [(2, 0x7FFF8000000500060007FFF8FFFF0001), (3, 0x00018000FFFF00020003FFF900010001)] }), 1, 0x208860000000000, by decide +kernel⟩,
   ⟨from_ fun d => d.runs 1 0x308860000000000 (fun x => { x with v := [(2, 0x7FFF8000000500060007FFF8FFFF0001), (3, 0x00018000FFFF00020003FFF900010001)] }), 1, 0x308860000000000, by decide +kernel⟩,
   ⟨from_ fun d => d.runs 1 0x408860000000000 (fun x => { x with v := [(2, 0x7FFF8000000500060007FFF8FFFF0001), (3, 0x00018000FFFF00020003FFF900010001)] }), 1, 0x408860000000000, by decide +kernel⟩,
   ⟨from_ fun d => d.runs 1 0x508860000000000 (fun x => { x with v := [(2, 0x7FFF8000000500060007FFF8FFFF0001), (3, 0x00018000FFFF00020003FFF900010001)] }), 1, 0x508860000000000, by decide +kernel⟩,
   ⟨from_ fun d => d.runs 1 0x608800000000000 (fun x => { x with v := [(2, 0x7FFF8000000500060007FFF8FFFF0001), (3, 0x00018000FFFF00020003FFF900010001)] }), 1, 0x608800000000000, by decide +kernel⟩,
   ⟨from_ fun d => d.runs 1 0x708860000000000 (fun x => { x with v := [(2, 0x7FFF8000000500060007FFF8FFFF0001), (3, 0x00018000FFFF00020003FFF900010001)] }), 1, 0x708860000000000, by decide +kernel⟩,
   ⟨from_ fun d => d.runs 1 0x808860000000000 (fun x => { x with v := [(2, 0x7FFF8000000500060007FFF8FFFF0001), (3, 0x00018000FFFF00020003FFF900010001)] }), 1, 0x808860000000000, by decide +kernel⟩,
   ⟨from_ fun d => d.runs 1 0xe08864000000000 (fun x => { x with v := [(2, 0x7FFF8000000500060007FFF8FFFF0001), (3, 0x00018000FFFF00020003FFF900010001)] }), 1, 0xe08864000000000, by decide +kernel⟩,
   ⟨from_ fun d => d.runs 1 0x1308800000000000 (fun x => { x with v := [(2, 0x7FFF8000000500060007FFF8FFFF0001), (3, 0x00018000FFFF00020003FFF900010001)] }), 1, 0x1308800000000000, by decide +kernel⟩⟩

theorem witness_CratreLogic :
    (∃ (s : State) (e : Fin 128) (w : CrW), s.issues e 0x00 w = true ∧ movesNothing w = true ∧ crLegalA true false .none .none 0 0 w = true)
    ∧ (∃ (s : State) (e : Fin 128) (w : CrW), s.issues e 0x01 w = true ∧ movesNothing w = true ∧ crLegalA true false .vec .vec 0 0 w = true)
    ∧ (∃ (s : State) (e : Fin 128) (w : CrW), s.issues e 0x09 w = true ∧ movesNothing w = true ∧ crLegalA true false .vec .vec 31 0 w = true)
    ∧ (∃ (s : State) (e : Fin 128) (w : CrW), s.issues e 0x0A w = true ∧ movesNothing w = true ∧ crLegalA true false .vec .vec 31 0 w = true)
    ∧ (∃ (s : State) (e : Fin 128) (w : CrW), s.issues e 0x0B w = true ∧ movesNothing w = true ∧ crLegalA true false .vec .vec 31 0 w = true)
    ∧ (∃ (s : State) (e : Fin 128) (w : CrW), s.issues e 0x0C w = true ∧ movesNothing w = true ∧ crLegalA true true .vec .vec 0 31 w = true)
    ∧ (∃ (s : State) (e : Fin 128) (w : CrW), s.issues e 0x0D w = true ∧ movesNothing w = true ∧ crLegalA true true .vec .vec 0 31 w = true)
    ∧ (∃ (s : State) (e : Fin 128) (w : CrW), s.issues e 0x0F w = true ∧ movesNothing w = true ∧ crLegalA true true .none .vec 31 0 w = true)
    ∧ (∃ (s : State) (e : Fin 128) (w : CrW), s.issues e 0x10 w = true ∧ movesNothing w = true ∧ crLegalA true true .vec .vec 0 31 w = true ∧ crAux w < 128 / crWidth w)
    ∧ (∃ (s : State) (e : Fin 128) (w : CrW), s.issues e 0x11 w = true ∧ movesNothing w = true ∧ crLegalA false true .vec .vec 31 31 w = true)
    ∧ (∃ (s : State) (e : Fin 128) (w : CrW), s.issues e 0x12 w = true ∧ movesNothing w = true ∧ crLegalA false true .vec .vec 0 1 w = true) :=
  ⟨⟨from_ fun d => d.runs 1 0x0 (id), 1, 0x0, by decide +kernel⟩,
   ⟨from_ fun d => d.runs 1 0x108800000000000 (fun x => { x with v := [(2, 0x7FFF8000000500060007FFF8FFFF0001), (3, 0x00018000FFFF00020003FFF900010001)] }), 1, 0x108800000000000, by decide +kernel⟩,
   ⟨from_ fun d => d.runs 1 0x908860000000000 (fun x => { x with v := [(2, 0x7FFF8000000500060007FFF8FFFF0001), (3, 0x00018000FFFF00020003FFF900010001)] }), 1, 0x908860000000000, by decide +kernel⟩,
   ⟨from_ fun d => d.runs 1 0xa08860000000000 (fun x => { x with v := [(2, 0x7FFF8000000500060007FFF8FFFF0001), (3, 0x00018000FFFF00020003FFF900010001)] }), 1, 0xa08860000000000, by decide +kernel⟩,
   ⟨from_ fun d => d.runs 1 0xb08860000000000 (fun x => { x with v := [(2, 0x7FFF8000000500060007FFF8FFFF0001), (3, 0x00018000FFFF00020003FFF900010001)] }), 1, 0xb08860000000000, by decide +kernel⟩,
   ⟨from_ fun d => d.runs 1 0xc08803000000000 (fun x => { x with v := [(2, 0x7FFF8000000500060007FFF8FFFF0001), (3, 0x00018000FFFF00020003FFF900010001)] }), 1, 0xc08803000000000, by decide +kernel⟩,
   ⟨from_ fun d => d.runs 1 0xd08803000000000 (fun x => { x with v := [(2, 0x7FFF8000000500060007FFF8FFFF0001), (3, 0x00018000FFFF00020003FFF900010001)] }), 1, 0xd08803000000000, by decide +kernel⟩,
   ⟨from_ fun d => d.runs 1 0xf00860000000000 (fun x => { x with v := [(2, 0x7FFF8000000500060007FFF8FFFF0001), (3, 0x00018000FFFF00020003FFF900010001)] }), 1, 0xf00860000000000, by decide +kernel⟩,
   ⟨from_ fun d => d.runs 1 0x1008803000000000 (fun x => { x with v := [(2, 0x7FFF8000000500060007FFF8FFFF0001), (3, 0x00018000FFFF00020003FFF900010001)] }), 1, 0x1008803000000000, by decide +kernel⟩,
   ⟨from_ fun d => d.runs 1 0x5108864000000000 (fun x => { x with v := [(2, 0x7FFF8000000500060007FFF8FFFF0001), (3, 0x00018000FFFF00020003FFF900010001)] }), 1, 0x5108864000000000, by decide +kernel⟩,
   ⟨from_ fun d => d.runs 1 0x5208801000000000 (fun x => { x with v := [(2, 0x7FFF8000000500060007FFF8FFFF0001), (3, 0x00018000FFFF00020003FFF900010001)] }), 1, 0x5208801000000000, by decide +kernel⟩⟩

theorem witness_CratreSearch :
    (∃ (s : State) (e : Fin 128) (w : CrW) (l0 : Nat), s.issues e 0x18 w = true ∧ movesNothing w = true ∧ crLegalA true true .vec .vec 0 0 w = true ∧ l0 < 128 / crWidth w ∧ (∀ l, l < 128 / crWidth w → lane (crWidth w) ((s.dev.eng e).vr (crA w)) l ≤ lane (crWidth w) ((s.dev.eng e).vr (crA w)) l0) ∧ (∀ l, l < l0 → lane (crWidth w) ((s.dev.eng e).vr (crA w)) l < lane (crWidth w) ((s.dev.eng e).vr (crA w)) l0))
    ∧ (∃ (s : State) (e : Fin 128) (w : CrW) (l0 : Nat), s.issues e 0x19 w = true ∧ movesNothing w = true ∧ crLegalA true true .vec .vec 0 0 w = true ∧ l0 < 128 / crWidth w ∧ (∀ l, l < 128 / crWidth w → lane (crWidth w) ((s.dev.eng e).vr (crA w)) l0 ≤ lane (crWidth w) ((s.dev.eng e).vr (crA w)) l) ∧ (∀ l, l < l0 → lane (crWidth w) ((s.dev.eng e).vr (crA w)) l0 < lane (crWidth w) ((s.dev.eng e).vr (crA w)) l))
    ∧ (∃ (w : CrW), crB w ≠ 0 ∨ crAux w ≠ 0) :=
  ⟨⟨from_ fun d => d.runs 1 0x1808800000000000 (fun x => { x with v := [(2, 0x50000)] }), 1, 0x1808800000000000, 1, by decide +kernel⟩,
   ⟨from_ fun d => d.runs 1 0x1908800000000000 (fun x => { x with v := [(2, 0xFFFB0000)] }), 1, 0x1908800000000000, 1, by decide +kernel⟩,
   ⟨0x1808860000000000, by decide +kernel⟩⟩

theorem witness_CratreMultiply :
    (∃ (s : State) (e : Fin 128) (w : CrW), s.issues e 0x20 w = true ∧ movesNothing w = true ∧ mulLegal false (s.dev.eng e) w = true)
    ∧ (∃ (s : State) (e : Fin 128) (w : CrW), s.issues e 0x21 w = true ∧ movesNothing w = true ∧ mulLegal true (s.dev.eng e) w = true)
    ∧ (∃ (s : State) (e : Fin 128) (w : CrW), s.issues e 0x22 w = true ∧ movesNothing w = true ∧ mulLegal false (s.dev.eng e) w = true)
    ∧ (∃ (s : State) (e : Fin 128) (w : CrW), s.issues e 0x23 w = true ∧ movesNothing w = true ∧ mulLegal true (s.dev.eng e) w = true)
    ∧ (∃ (s : State) (e : Fin 128) (w : CrW), s.issues e 0x24 w = true ∧ movesNothing w = true ∧ crLegalA true true .acc .vec 0 1 w = true ∧ wdMatches (s.dev.eng e) (crAccD w) w = true)
    ∧ (∃ (s : State) (e : Fin 128) (w : CrW), s.issues e 0x25 w = true ∧ movesNothing w = true ∧ crLegalA true true .acc .vec 0 1 w = true ∧ wdMatches (s.dev.eng e) (crAccD w) w = true)
    ∧ (∃ (s : State) (e : Fin 128) (w : CrW), s.issues e 0x26 w = true ∧ movesNothing w = true ∧ crLegalA true false .acc .none 0 0 w = true)
    ∧ (∃ (s : State) (e : Fin 128) (w : CrW), s.issues e 0x27 w = true ∧ movesNothing w = true ∧ crLegalA true false .acc .acc 0 0 w = true ∧ ((s.dev.eng e).acm (crAccD w)) = 1)
    ∧ (∃ (s : State) (e : Fin 128) (w : CrW), s.issues e 0x28 w = true ∧ movesNothing w = true ∧ crLegalA true false .acc .acc 0 1 w = true ∧ ((s.dev.eng e).acm (crAccD w)) = 1)
    ∧ (∃ (s : State) (e : Fin 128) (w : CrW), s.issues e 0x29 w = true ∧ movesNothing w = true ∧ crLegalA true true .vec .acc 3 31 w = true ∧ wdMatches (s.dev.eng e) (crAccA w) w = true)
    ∧ (∃ (s : State) (e : Fin 128) (w : CrW), s.issues e 0x2A w = true ∧ movesNothing w = true ∧ crLegalA true true .vec .acc 0 3 w = true ∧ wdMatches (s.dev.eng e) (crAccA w) w = true ∧ crAux w < 3) :=
  ⟨⟨from_ fun d => d.runs 1 0x2008860000000000 (fun x => { x with v := [(2, 0x7FFF8000000500060007FFF8FFFF0001), (3, 0x00018000FFFF00020003FFF900010001)], acc := [(1, 5)] }), 1, 0x2008860000000000, by decide +kernel⟩,
   ⟨from_ fun d => d.runs 1 0x2108860000000000 (fun x => { x with sr := 0x80000, v := [(2, 0x7FFF8000000500060007FFF8FFFF0001), (3, 0x00018000FFFF00020003FFF900010001)], acc := [(1, 5)] }), 1, 0x2108860000000000, by decide +kernel⟩,
   ⟨from_ fun d => d.runs 1 0x2208860000000000 (fun x => { x with v := [(2, 0x7FFF8000000500060007FFF8FFFF0001), (3, 0x00018000FFFF00020003FFF900010001)], acc := [(1, 5)] }), 1, 0x2208860000000000, by decide +kernel⟩,
   ⟨from_ fun d => d.runs 1 0x2308860000000000 (fun x => { x with sr := 0x80000, v := [(2, 0x7FFF8000000500060007FFF8FFFF0001), (3, 0x00018000FFFF00020003FFF900010001)], acc := [(1, 5)] }), 1, 0x2308860000000000, by decide +kernel⟩,
   ⟨from_ fun d => d.runs 1 0x2408800000000000 (fun x => { x with v := [(2, 0x7FFF8000000500060007FFF8FFFF0001), (3, 0x00018000FFFF00020003FFF900010001)], acc := [(1, 5)] }), 1, 0x2408800000000000, by decide +kernel⟩,
   ⟨from_ fun d => d.runs 1 0x2508800000000000 (fun x => { x with v := [(2, 0x7FFF8000000500060007FFF8FFFF0001), (3, 0x00018000FFFF00020003FFF900010001)], acc := [(1, 5)] }), 1, 0x2508800000000000, by decide +kernel⟩,
   ⟨from_ fun d => d.runs 1 0x2608000000000000 (fun x => { x with v := [(2, 0x7FFF8000000500060007FFF8FFFF0001), (3, 0x00018000FFFF00020003FFF900010001)], acc := [(1, 5)] }), 1, 0x2608000000000000, by decide +kernel⟩,
   ⟨from_ fun d => d.runs 1 0x2708400000000000 (fun x => { x with sr := 0x40000, v := [(2, 0x7FFF8000000500060007FFF8FFFF0001), (3, 0x00018000FFFF00020003FFF900010001)], acc := [(1, 5)] }), 1, 0x2708400000000000, by decide +kernel⟩,
   ⟨from_ fun d => d.runs 1 0x2808800000000000 (fun x => { x with sr := 0x40000, v := [(2, 0x7FFF8000000500060007FFF8FFFF0001), (3, 0x00018000FFFF00020003FFF900010001)], acc := [(1, 5)] }), 1, 0x2808800000000000, by decide +kernel⟩,
   ⟨from_ fun d => d.runs 1 0x2908443000000000 (fun x => { x with v := [(2, 0x7FFF8000000500060007FFF8FFFF0001), (3, 0x00018000FFFF00020003FFF900010001)], acc := [(1, 5)] }), 1, 0x2908443000000000, by decide +kernel⟩,
   ⟨from_ fun d => d.runs 1 0x2a08402000000000 (fun x => { x with v := [(2, 0x7FFF8000000500060007FFF8FFFF0001), (3, 0x00018000FFFF00020003FFF900010001)], acc := [(1, 5)] }), 1, 0x2a08402000000000, by decide +kernel⟩⟩

theorem witness_CratreControl :
    (∃ (s : State) (e : Fin 128) (w : CrW), s.issues e 0x40 w = true ∧ crLegalK 0x000F000000000FFF w = true ∧ fld w 48 4 < 14)
    ∧ (∃ (s : State) (e : Fin 128) (w : CrW), s.issues e 0x41 w = true ∧ crLegalK 0xFFF w = true)
    ∧ (∃ (s : State) (e : Fin 128) (w : CrW), s.issues e 0x42 w = true ∧ crLegalK 0 w = true)
    ∧ (∃ (s : State) (e : Fin 128) (w : CrW), s.issues e 0x43 w = true ∧ crLegalK 0 w = true)
    ∧ (∃ (s : State) (e : Fin 128) (w : CrW), s.issues e 0x44 w = true ∧ crLegalK 0x3FF w = true ∧ ((s.dev.eng e).nprog ≤ (s.dev.eng e).pc + 1 ∨ crOp ((s.dev.eng e).fetch ((s.dev.eng e).pc + 1)) < 0x40 ∨ 0x48 ≤ crOp ((s.dev.eng e).fetch ((s.dev.eng e).pc + 1))))
    ∧ (∃ (s : State) (e : Fin 128) (w : CrW), s.issues e 0x45 w = true ∧ crLegalK 0xFFFFFFF w = true ∧ (s.dev.eng e).pc + 2 ≤ fld w 0 12)
    ∧ (∃ (s : State) (e : Fin 128) (w : CrW), s.issues e 0x46 w = true ∧ crLegalK 0 w = true)
    ∧ (∃ (s : State) (e : Fin 128) (w : CrW), s.issues e 0x47 w = true ∧ crLegalK 0 w = true)
    ∧ (∃ (s : State) (e : Fin 128) (k : Nat) (tgt : Nat), (s.dev.eng e).state = 1 ∧ (s.dev.eng e).entryDue = none ∧ (s.dev.eng e).pc < (s.dev.eng e).nprog ∧ (s.dev.eng e).bad.contains (0x100000 + (s.dev.eng e).pc) = false ∧ (s.dev.eng e).fetch (s.dev.eng e).pc = 0 ∧ (s.dev.eng e).rep = none ∧ (s.dev.eng e).stop = 0 ∧ (s.dev.eng e).aovDue = false ∧ (s.dev.eng e).loads = [] ∧ (s.dev.eng e).slot = some (k, tgt))
    ∧ (∃ (s : State) (e : Fin 128) (n : Nat), (s.dev.eng e).state = 1 ∧ (s.dev.eng e).entryDue = none ∧ (s.dev.eng e).pc < (s.dev.eng e).nprog ∧ (s.dev.eng e).bad.contains (0x100000 + (s.dev.eng e).pc) = false ∧ (s.dev.eng e).fetch (s.dev.eng e).pc = 0 ∧ (s.dev.eng e).rep = some (n + 2) ∧ (s.dev.eng e).stop = 0 ∧ (s.dev.eng e).slot = none ∧ bit (s.dev.eng e).sr 11 = false ∧ (s.dev.eng e).loads = [])
    ∧ (∃ (s : State) (e : Fin 128), (s.dev.eng e).state = 1 ∧ (s.dev.eng e).entryDue = none ∧ (s.dev.eng e).nprog ≤ (s.dev.eng e).pc)
    ∧ (∃ (s : State) (e : Fin 128), (s.dev.eng e).state = 1 ∧ (s.dev.eng e).entryDue = none ∧ (s.dev.eng e).pc < (s.dev.eng e).nprog ∧ (s.dev.eng e).bad.contains (0x100000 + (s.dev.eng e).pc) = false ∧ crListed (crOp ((s.dev.eng e).fetch (s.dev.eng e).pc)) = false)
    ∧ (∃ (s : State) (e : Fin 128), (s.dev.eng e).state = 1 ∧ (s.dev.eng e).entryDue = none ∧ (s.dev.eng e).pc < (s.dev.eng e).nprog)
    ∧ (∃ (s : State) (e : Fin 128) (w : CrW), s.issues e 0x4D w = true ∧ crLegalK 0x00FFFFFF0000003F w = true ∧ bit w 5 = false ∧ crAddr w < 0x10000) :=
  ⟨⟨from_ fun d => d.runs 1 0x8000000000000001 (id), 1, 0x8000000000000001, by decide +kernel⟩,
   ⟨from_ fun d => d.runs 1 0x8200000000000001 (id), 1, 0x8200000000000001, by decide +kernel⟩,
   ⟨from_ fun d => d.runs 1 0x8400000000000000 (id), 1, 0x8400000000000000, by decide +kernel⟩,
   ⟨from_ fun d => d.runs 1 0x8600000000000000 (id), 1, 0x8600000000000000, by decide +kernel⟩,
   ⟨from_ fun d => d.runs 1 0x8800000000000005 (id), 1, 0x8800000000000005, by decide +kernel⟩,
   ⟨from_ fun d => d.runs 1 0x8a00000000003002 (id), 1, 0x8a00000000003002, by decide +kernel⟩,
   ⟨from_ fun d => d.runs 1 0x8c00000000000000 (id), 1, 0x8c00000000000000, by decide +kernel⟩,
   ⟨from_ fun d => d.runs 1 0x8e00000000000000 (id), 1, 0x8e00000000000000, by decide +kernel⟩,
   ⟨from_ fun d => d.runs 1 0x0 (fun x => { x with slot := some (0, 5) }), 1, 0, 5, by decide +kernel⟩,
   ⟨from_ fun d => d.runs 1 0x0 (fun x => { x with rep := some 2 }), 1, 0, by decide +kernel⟩,
   ⟨from_ fun d => d.setEng 1 { state := 1 }, 1, by decide +kernel⟩,
   ⟨from_ fun d => d.runs 1 0x1400000000000000 (id), 1, by decide +kernel⟩,
   ⟨from_ fun d => d.setEng 1 { state := 1, nprog := 2, bad := [0x100000] }, 1, by decide +kernel⟩,
   ⟨from_ fun d => d.runs 1 0x9a00001000000002 (fun x => { x with bad := [1] }), 1, 0x9a00001000000002, by decide +kernel⟩⟩

theorem witness_CratreSpecial :
    (∃ (s : State) (e : Fin 128) (w : CrW), s.issues e 0x48 w = true ∧ crLegalK 0x01F00000FFFFFFFF w = true ∧ crSreg w < 23 ∧ badLc (crSreg w) (crImm w) = false)
    ∧ (∃ (s : State) (e : Fin 128) (w : CrW), s.issues e 0x49 w = true ∧ crLegalK 0x01F000000000001F w = true ∧ crSreg w < 23)
    ∧ (∃ (s : State) (e : Fin 128) (w : CrW), s.issues e 0x4A w = true ∧ crLegalK 0x01F000000000001F w = true ∧ crSreg w < 23 ∧ badLc (crSreg w) (lane32 ((s.dev.eng e).vr (crReg w)) 0) = false)
    ∧ (∃ (s : State) (e : Fin 128) (w : CrW), s.issues e 0x4B w = true ∧ crLegalK 0x00FFFFFF0000001F w = true ∧ crReg w < 23 ∧ crAddr w < 0x10000 ∧ (s.dev.eng e).bad.contains (crAddr w / 16) = false ∧ badLc (crReg w) (lane32 ((s.dev.eng e).x.get (fun _ => 0) (crAddr w / 16)) (crAddr w / 4 % 4)) = false)
    ∧ (∃ (s : State) (e : Fin 128) (w : CrW), s.issues e 0x4C w = true ∧ crLegalK 0x00FFFFFF0000001F w = true ∧ crReg w < 23 ∧ crAddr w < 0x10000)
    ∧ (∃ (s : State) (e : Fin 128) (w : CrW), s.issues e 0x4D w = true ∧ crLegalK 0x00FFFFFF0000003F w = true ∧ bit w 5 = false ∧ crAddr w < 0x10000 ∧ (s.dev.eng e).bad.contains (crAddr w / 16) = false)
    ∧ (∃ (s : State) (e : Fin 128) (w : CrW), s.issues e 0x4E w = true ∧ crLegalK 0x00FFFFFF0000003F w = true ∧ bit w 5 = false ∧ crAddr w < 0x10000)
    ∧ (∃ (s : State) (e : Fin 128) (w : CrW), s.issues e 0x4F w = true ∧ crLegalK 0x00FFFFFF00000003 w = true ∧ crAddr w % 16 = 0 ∧ crAddr w + 48 ≤ 0x10000 ∧ (∀ j, j < 3 → (s.dev.eng e).bad.contains (crAddr w / 16 + j) = false))
    ∧ (∃ (s : State) (e : Fin 128) (w : CrW), s.issues e 0x50 w = true ∧ crLegalK 0x00FFFFFF00000003 w = true ∧ crAddr w % 16 = 0 ∧ crAddr w + 48 ≤ 0x10000)
    ∧ (∃ (s : State) (e : Fin 128) (w : CrW), s.issues e 0x51 w = true ∧ crLegalK 0x00FFFFFFFFFFFFFF w = true ∧ crAddr w < 0x10000)
    ∧ (∃ (s : State) (e : Fin 128) (w : CrW), s.issues e 0x52 w = true ∧ crLegalK 0x00FFFFFF00000000 w = true ∧ crAddr w + 8 ≤ 0x10000 ∧ (s.dev.eng e).bad.contains (crAddr w / 16) = false ∧ (s.dev.eng e).bad.contains ((crAddr w / 4 * 4 + 4) / 16) = false)
    ∧ (∃ (s : State) (e : Fin 128) (w : CrW), s.issues e 0x53 w = true ∧ crLegalK 0x00FFFFFF00000000 w = true ∧ crAddr w + 8 ≤ 0x10000)
    ∧ (∃ (s : State) (e : Fin 128) (k : Nat) (v : Nat), (s.dev.eng e).state = 1 ∧ (s.dev.eng e).entryDue = none ∧ (s.dev.eng e).pc < (s.dev.eng e).nprog ∧ (s.dev.eng e).bad.contains (0x100000 + (s.dev.eng e).pc) = false ∧ (s.dev.eng e).fetch (s.dev.eng e).pc = 0 ∧ (s.dev.eng e).rep = none ∧ (s.dev.eng e).stop = 0 ∧ (s.dev.eng e).slot = none ∧ bit (s.dev.eng e).sr 11 = false ∧ (s.dev.eng e).loads = [(.v k, v)]) :=
  ⟨⟨from_ fun d => d.runs 1 0x903000000000004d (id), 1, 0x903000000000004d, by decide +kernel⟩,
   ⟨from_ fun d => d.runs 1 0x9230000000000002 (fun x => { x with p := [(3, 99)] }), 1, 0x9230000000000002, by decide +kernel⟩,
   ⟨from_ fun d => d.runs 1 0x9430000000000002 (fun x => { x with v := [(2, 0x7FFF8000000500060007FFF8FFFF0001), (3, 0x00018000FFFF00020003FFF900010001)] }), 1, 0x9430000000000002, by decide +kernel⟩,
   ⟨from_ fun d => d.runs 1 0x9600001000000003 (id), 1, 0x9600001000000003, by decide +kernel⟩,
   ⟨from_ fun d => d.runs 1 0x9800001000000003 (id), 1, 0x9800001000000003, by decide +kernel⟩,
   ⟨from_ fun d => d.runs 1 0x9a00001000000002 (id), 1, 0x9a00001000000002, by decide +kernel⟩,
   ⟨from_ fun d => d.runs 1 0x9c00001000000002 (fun x => { x with v := [(2, 0x7FFF8000000500060007FFF8FFFF0001), (3, 0x00018000FFFF00020003FFF900010001)] }), 1, 0x9c00001000000002, by decide +kernel⟩,
   ⟨from_ fun d => d.runs 1 0x9e00001000000002 (id), 1, 0x9e00001000000002, by decide +kernel⟩,
   ⟨from_ fun d => d.runs 1 0xa000001000000001 (fun x => { x with v := [(2, 0x7FFF8000000500060007FFF8FFFF0001), (3, 0x00018000FFFF00020003FFF900010001)], acc := [(1, 5)] }), 1, 0xa000001000000001, by decide +kernel⟩,
   ⟨from_ fun d => d.runs 1 0xa20000100000004d (id), 1, 0xa20000100000004d, by decide +kernel⟩,
   ⟨from_ fun d => d.runs 1 0xa400001000000000 (id), 1, 0xa400001000000000, by decide +kernel⟩,
   ⟨from_ fun d => d.runs 1 0xa600001000000000 (id), 1, 0xa600001000000000, by decide +kernel⟩,
   ⟨from_ fun d => d.runs 1 0x0 (fun x => { x with loads := [(.v 4, 9)] }), 1, 4, 9, by decide +kernel⟩⟩

theorem witness_EngineControl :
    (∃ (s : State) (e : Fin 128) (k : Nat), (s.dev.eng e).state = 1 ∧ (s.dev.eng e).entryDue = some k ∧ (s.dev.eng e).loads = [])
    ∧ (∃ (s : State) (e : Fin 128) (k : Nat), (s.dev.eng e).state = 2 ∧ (s.dev.eng e).ready = some k ∧ bit (s.dev.eng e).sr 31 = false)
    ∧ (∃ (s : State) (e : Fin 128) (k : Nat), (s.dev.eng e).state = 2 ∧ (s.dev.eng e).ready = some k ∧ bit (s.dev.eng e).sr 31 = true ∧ (s.dev.eng e).loads = [])
    ∧ (∃ (s : State) (i : Ini) (c : Fin 8) (e : Fin 16), s.reaches i (Reg.CL_CMD c) .write = true ∧ (s.dev.eng (16 * c + e)).state = 1 ∧ (s.dev.eng (16 * c + e)).stop = 0 ∧ (s.dev.eng (16 * c + e)).slot = none ∧ (s.dev.eng (16 * c + e)).rep = none)
    ∧ (∃ (s : State) (i : Ini) (c : Fin 8) (e : Fin 16), s.reaches i (Reg.CL_CMD c) .write = true ∧ (s.dev.eng (16 * c + e)).state = 3)
    ∧ (∃ (s : State) (i : Ini) (c : Fin 8) (e : Fin 16), s.reaches i (Reg.CL_CMD c) .write = true ∧ bit (engWord (s.dev.clForce c) e) 127 = true ∧ (s.dev.eng (16 * c + e)).state ≠ 5 ∧ (s.dev.eng (16 * c + e)).state ≠ 6 ∧ s.dev.engPhys (16 * c + e) ≠ 0xFF ∧ (s.dev.eng (16 * c + e)).stop ≠ 2)
    ∧ (∃ (s : State) (i : Ini) (c : Fin 8), s.reaches i (Reg.CL_CMD c) .write = true) :=
  ⟨⟨from_ fun d => d.setEng 1 { state := 1, sr := 0x80000000, even := 4, pend := 4 }, 1, 2, by decide +kernel⟩,
   ⟨from_ fun d => d.setEng 1 { state := 2, even := 4, pend := 4 }, 1, 2, by decide +kernel⟩,
   ⟨from_ fun d => d.setEng 1 { state := 2, sr := 0x80000000, even := 4, pend := 4 }, 1, 2, by decide +kernel⟩,
   ⟨from_ fun d => d.setEng 17 { state := 1 }, 3, 1, 1, by decide +kernel⟩,
   ⟨from_ fun d => d.setEng 17 { state := 3 }, 3, 1, 1, by decide +kernel⟩,
   ⟨from_ fun d => d.inForce 55 (List.replicate 35 0x80000000000000000000000000000000), 3, 1, 1, by decide +kernel⟩,
   ⟨State.reset, 3, 1, by decide +kernel⟩⟩

theorem witness_EngineOutput :
    (∃ (s : State) (e : Fin 128), s.dev.engFree e ≠ 0)
    ∧ (∃ (s : State) (e : Fin 128), s.dev.engFree e = 0)
    ∧ (∃ (s : State) (e : Fin 128), (s.dev.eng e).ovf = false ∧ 2 ≤ (s.dev.eng e).out.length ∧ 0x80 ≤ fld (nth (s.dev.eng e).out 0 0) 120 8)
    ∧ (∃ (s : State) (e : Fin 128), (s.dev.eng e).ovf = true)
    ∧ (∃ (s : State) (e : Fin 128) (a : Fin 2) (w : Nat), s.dev.apertureWin e a = some w)
    ∧ (∃ (s : State) (c : Fin 8) (w : Fin 32) (r : Rec) (l : List Rec), w.val < 16 ∧ bit (winWord (s.dev.clForce c) w) 127 = true ∧ fld (winWord (s.dev.clForce c) w) 125 2 = 2 ∧ (s.dev.clWin c w).queue = r :: l)
    ∧ (∃ (s : State) (e : Fin 128) (w : Word128), (s.dev.eng e).bm = none ∧ (fld w 0 2 = 1 ∨ fld w 0 2 = 2))
    ∧ (∃ (s : State) (e : Fin 128) (w : Word128), (s.dev.eng e).bm = some w ∧ localRange (fld w 56 24 / 16 * 16) (16 * (fld w 40 16 + 1)) = none)
    ∧ (∃ (s : State) (e : Fin 128) (w : Word128), (s.dev.eng e).bm = some w ∧ fld w 0 2 = 2 ∧ localRange (fld w 56 24 / 16 * 16) (16 * (fld w 40 16 + 1)) ≠ none ∧ (s.dev.checkMem (BitVec.ofNat 10 (0x80 + e)) (10 + e / 16) (fld w 80 48) (16 * (fld w 40 16 + 1)) .write).2 = true ∧ s.dev.ueEdges (fld w 80 48) (16 * (fld w 40 16 + 1)) = [] ∧ (∀ k, k ≤ fld w 40 16 → s.dev.engBad e (fld w 56 24 / 16 * 16 + 16 * k) = false)) :=
  ⟨⟨State.reset, 1, by decide +kernel⟩,
   ⟨from_ fun d => d.setEng 1 { out := List.replicate 1024 0 }, 1, by decide +kernel⟩,
   ⟨from_ fun d => d.setEng 1 { out := [0x80000000000000000000000000000000, 0, 5] }, 1, by decide +kernel⟩,
   ⟨from_ fun d => d.setEng 1 { ovf := true }, 1, by decide +kernel⟩,
   ⟨from_ fun d => d.inForce 54 [0, 170141186629595732302260807457642119168], 1, 1, 0, by decide +kernel⟩,
   ⟨from_ fun d => (d.inForce 55 [0, 0, 255211775190703847597530955573826158592]).setClWin 1 1 { queue := [[1, 2], [3]] }, 1, 1, [1, 2], [[3]], by decide +kernel⟩,
   ⟨State.reset, 1, 0x80000000000000000000000000000002, by decide +kernel⟩,
   ⟨from_ fun d => d.setEng 1 { bm := some 1133367955888714851287041 }, 1, 1133367955888714851287041, by decide +kernel⟩,
   ⟨from_ fun d => d.grant.setEng 1 { bm := some 4951760157141521099596496898 }, 1, 4951760157141521099596496898, by decide +kernel⟩⟩

theorem witness_ClusterSwitch :
    (∃ (s : State) (c : Fin 8) (g : Grp) (k : Nat), s.dev.dueGroup (54 + c) = some (g, k) ∧ k < 16 ∧ s.dev.slotIn (54 + c) 3 = none ∧ g.teff ≤ s.dev.now)
    ∧ (∃ (s : State) (c : Fin 8) (t0 : Nat) (i : Fin 16) (img : List Word128), (s.dev.cl c).loading = some (t0, [i.val]) ∧ t0 + (8125 * 2 ^ 64 + 9999999999) / 10000000000 ≤ s.dev.now ∧ (s.dev.eng (16 * c + i)).state = 5 ∧ (s.dev.eng (16 * c + i)).shadow = some img ∧ bit (engWord (s.dev.clForce c) i) 127 = true ∧ s.dev.engPhys (16 * c + i) ≠ 0xFF) :=
  ⟨⟨from_ fun d => d.dueAt 55, 1, dueGrp 55, 1, by decide +kernel⟩,
   ⟨from_ fun d => (((d.clock tenSeconds).setCl 1 { loading := some (0, [1]) }).setEng 17 { state := 5, shadow := some [0x80000000000000000000000000000] }).inForce 55 (List.replicate 35 0x80000000000000000000000000000000), 1, 0, 1, [0x80000000000000000000000000000], by decide +kernel⟩⟩

theorem witness_EngineSparing :
    (∃ (s : State) (c : Fin 8) (q : Fin 17) (n : Nat), s.dev.on (Reg.CL_RETIRED c) q = false ∧ s.dev.clSpare c ≠ q ∧ s.dev.clSpare c ≠ 0x1F ∧ s.dev.clSpare c < 17 ∧ s.dev.engOn c q = some n ∧ (s.dev.eng n).state = 1 ∧ (s.dev.eng n).stop ≠ 2 ∧ s.dev.migrant c = none)
    ∧ (∃ (s : State) (e : Fin 128), (s.dev.eng e).state = 2 ∧ s.dev.slotIn (54 + e / 16) 2 = none ∧ (s.dev.cl (e / 16)).loading = none)
    ∧ (∃ (s : State) (e : Fin 128), (s.dev.eng e).testing = true)
    ∧ (∃ (s : State) (e : Fin 128), (s.dev.eng e).testing = true ∧ s.dev.clSpare (e / 16) ≠ 0x1F ∧ s.dev.migrant (e / 16) = none)
    ∧ (∃ (s : State) (e : Fin 128), (s.dev.eng e).testing = true ∧ (s.dev.eng e).stop ≠ 2 ∧ s.dev.clSpare (e / 16) = 0x1F ∧ s.dev.engPhys e < 17)
    ∧ (∃ (s : State) (c : Fin 8) (i : Fin 16), (List.range 16).find? (fun k => (s.dev.eng (16 * c + k)).state = 6) = some i.val ∧ s.dev.clSpare c < 17 ∧ s.dev.engPhys (16 * c + i) < 17 ∧ (s.dev.eng (16 * c + i)).stop ≠ 2) :=
  ⟨⟨from_ fun d => d.setEng 17 { state := 1 }, 1, 1, 17, by decide +kernel⟩,
   ⟨from_ fun d => d.setEng 1 { state := 2 }, 1, by decide +kernel⟩,
   ⟨from_ fun d => d.setEng 1 { testing := true }, 1, by decide +kernel⟩,
   ⟨from_ fun d => d.setEng 1 { testing := true }, 1, by decide +kernel⟩,
   ⟨from_ fun d => (d.setEng 1 { testing := true }).setClSpare 0 0x1F, 1, by decide +kernel⟩,
   ⟨from_ fun d => d.setEng 17 { state := 6 }, 1, 1, by decide +kernel⟩⟩

theorem witness_CausewayRings :
    (∃ (s : State) (i : Ini) (data : Word), s.reaches i Reg.CW_CMD_HEAD .write = true ∧ fld data 0 12 < 2 ^ s.dev.f Reg.CW_CTRL 8 4)
    ∧ (∃ (s : State) (i : Ini) (data : Word), s.reaches i Reg.CW_CMD_HEAD .write = true ∧ 2 ^ s.dev.f Reg.CW_CTRL 8 4 ≤ fld data 0 12)
    ∧ (∃ (s : State) (i : Ini), s.reaches i Reg.CW_DONE_TAIL .write = true ∧ s.dev.cw.waiting = [])
    ∧ (∃ (s : State) (i : Ini) (data : Word) (w0 : Word128) (w1 : Word128) (w2 : Word128) (w3 : Word128), s.reaches i Reg.CW_DONE_TAIL .write = true ∧ s.dev.cw.waiting = [[w0, w1, w2, w3]] ∧ s.dev.cw.held = false ∧ s.writable 0x1E3 22 s.doneAt 64 = true ∧ (s.dev.n Reg.CW_DONE_HEAD + 2 ^ s.dev.f Reg.CW_CTRL 0 4 - fld data 0 12 % 2 ^ s.dev.f Reg.CW_CTRL 0 4) % 2 ^ s.dev.f Reg.CW_CTRL 0 4 ≠ 2 ^ s.dev.f Reg.CW_CTRL 0 4 - 1)
    ∧ (∃ (s : State) (i : Ini), s.reaches i Reg.CW_CTRL .write = true ∧ s.dev.on Reg.CW_CTRL 31 = false ∧ s.dev.cw.waiting = [])
    ∧ (∃ (s : State) (i : Ini) (data : Word), s.reaches i Reg.CW_CTRL .write = true ∧ s.dev.on Reg.CW_CTRL 31 = true ∧ normCwCtrl 0 0 data.toNat % 2 ^ 31 ≠ s.dev.n Reg.CW_CTRL % 2 ^ 31)
    ∧ (∃ (s : State) (c : Cmd) (t : Nat), s.fetches c = true ∧ s.writable 0x1E3 22 s.doneAt 64 = true ∧ c.bad = false ∧ c.op = 2 ∧ targetNum c.target = some t ∧ c.addr % 16 = 0 ∧ (s.dev.slot t c.slot).words ≠ [] ∧ s.writable 0x1E3 22 c.addr (16 * (s.dev.slot t c.slot).words.length) = true ∧ (c.addr + 16 * (s.dev.slot t c.slot).words.length ≤ s.doneAt ∨ s.doneAt + 64 ≤ c.addr))
    ∧ (∃ (s : State) (c : Cmd), s.fetches c = true ∧ s.writable 0x1E3 22 s.doneAt 64 = true ∧ c.bad = true) :=
  ⟨⟨State.reset, 3, 5, by decide +kernel⟩,
   ⟨from_ fun d => d.wrN Reg.CW_CTRL 0x404, 3, 20, by decide +kernel⟩,
   ⟨State.reset, 3, by decide +kernel⟩,
   ⟨from_ fun d => { d.cwUp with cw := { d.cw with waiting := [[1, 2, 3, 4]] } }, 3, 5, 1, 2, 3, 4, by decide +kernel⟩,
   ⟨State.reset, 3, by decide +kernel⟩,
   ⟨from_ fun d => d.wrN Reg.CW_CTRL 0x80000404, 3, 5, by decide +kernel⟩,
   ⟨(fun s : State => ({ s with dev := (fun d : Dev => d.setSlot 1 1 ⟨1, [1, 2, 3, 4, 5, 6]⟩) s.dev }).cwCmd 2741554291366592867763927505782702080 237684487542793012780631851008 []) State.reset, readCmd [2741554291366592867763927505782702080, 237684487542793012780631851008, 0, 0], 1, by decide +kernel⟩,
   ⟨(fun s : State => ({ s with dev := (fun d : Dev => d) s.dev }).cwCmd 2741554291366592867763927505782702080 237684487542793012780631851013 []) State.reset, readCmd [2741554291366592867763927505782702080, 237684487542793012780631851013, 0, 0], by decide +kernel⟩⟩

theorem witness_CausewayObjects :
    (∃ (s : State) (c : Cmd) (t : Nat), s.fetches c = true ∧ s.writable 0x1E3 22 s.doneAt 64 = true ∧ c.bad = false ∧ c.op = 1 ∧ targetNum c.target = some t ∧ c.count = targetLen t ∧ c.addr % 16 = 0 ∧ (s.dev.slot t c.slot).st < 2 ∧ s.readable 0x1E3 22 c.addr (16 * c.count) = true ∧ s.dev.setupBad t (words128 (s.mem.bytes c.addr (16 * c.count))) = [])
    ∧ (∃ (s : State) (c : Cmd) (t : Nat) (k : Nat), s.fetches c = true ∧ s.writable 0x1E3 22 s.doneAt 64 = true ∧ c.bad = false ∧ c.op = 1 ∧ targetNum c.target = some t ∧ c.count = targetLen t ∧ c.addr % 16 = 0 ∧ (s.dev.slot t c.slot).st < 2 ∧ s.readable 0x1E3 22 c.addr (16 * c.count) = true ∧ lowest (s.dev.setupBad t (words128 (s.mem.bytes c.addr (16 * c.count)))) = some k)
    ∧ (∃ (s : State) (c : Cmd) (t : Nat), s.fetches c = true ∧ s.writable 0x1E3 22 s.doneAt 64 = true ∧ c.bad = false ∧ c.op = 3 ∧ targetNum c.target = some t ∧ (s.dev.slot t c.slot).st < 2)
    ∧ (∃ (s : State) (c : Cmd), s.fetches c = true ∧ s.writable 0x1E3 22 s.doneAt 64 = true ∧ c.bad = false ∧ c.op = 6 ∧ isTable c.target = true ∧ c.slot = 0 ∧ c.addr % 16 = 0 ∧ s.dev.inUse c.target = false ∧ 1 ≤ c.count ∧ c.count ≤ (if c.target / 4096 = 8 then 16385 else 1025) ∧ s.readable 0x1E3 22 c.addr (16 * c.count) = true ∧ tableBad c.target (words128 (s.mem.bytes c.addr (16 * c.count))) = none ∧ c.count = tableWords c.target (wd (words128 (s.mem.bytes c.addr (16 * c.count))) 0))
    ∧ (∃ (s : State) (c : Cmd), s.fetches c = true ∧ s.writable 0x1E3 22 s.doneAt 64 = true ∧ c.bad = false ∧ c.op = 7 ∧ c.target / 4096 = 0xA ∧ c.slot = 0 ∧ c.addr % 16 = 0 ∧ s.dev.inUse c.target = false ∧ 2 ≤ c.count ∧ c.count ≤ 4097 ∧ s.readable 0x1E3 22 c.addr (256 + 16 * c.count) = true ∧ s.dev.storeList = [] ∧ hdrField (s.mem.bytes c.addr 256) 12 4 = 16 * c.count ∧ imageWords (BitVec.ofNat 128 (natBE (s.mem.bytes (c.addr + 256) 16))) = c.count)
    ∧ (∃ (s : State) (c : Cmd), s.fetches c = true ∧ s.writable 0x1E3 22 s.doneAt 64 = true ∧ c.bad = false ∧ c.op = 8 ∧ c.target / 4096 = 0xA ∧ c.slot = 0 ∧ s.dev.inUse c.target = false) :=
  ⟨⟨(fun s : State => ({ s with dev := (fun d : Dev => d) s.dev }).cwCmd 1412326295581677105540584887759667200 237684487542793012780631851008 []) State.reset, readCmd [1412326295581677105540584887759667200, 237684487542793012780631851008, 0, 0], 1, by decide +kernel⟩,
   ⟨(fun s : State => ({ s with dev := (fun d : Dev => d) s.dev }).cwCmd 1412326295581677105540584887759667200 237684487542793012780631851008 [0xFFFFFFFFFFFFFFFFFFFFFFFFFFFFFFFF]) State.reset, readCmd [1412326295581677105540584887759667200, 237684487542793012780631851008, 0, 0], 1, (lowest (((fun s : State => ({ s with dev := (fun d : Dev => d) s.dev }).cwCmd 1412326295581677105540584887759667200 237684487542793012780631851008 [0xFFFFFFFFFFFFFFFFFFFFFFFFFFFFFFFF]) State.reset).dev.setupBad 1 [0xFFFFFFFFFFFFFFFFFFFFFFFFFFFFFFFF, 0, 0, 0, 0, 0])).getD 99, by decide +kernel⟩,
   ⟨(fun s : State => ({ s with dev := (fun d : Dev => d) s.dev }).cwCmd 4070782287151508740667734566063046656 0 []) State.reset, readCmd [4070782287151508740667734566063046656, 0, 0, 0], 1, by decide +kernel⟩,
   ⟨(fun s : State => ({ s with dev := (fun d : Dev => d) s.dev }).cwCmd 8639981972601953487469395144884617216 237684487542793012780631851008 [6]) State.reset, readCmd [8639981972601953487469395144884617216, 237684487542793012780631851008, 0, 0], by decide +kernel⟩,
   ⟨(fun s : State => ({ s with dev := (fun d : Dev => d) s.dev }).cwCmd 10135383750269587219455440929308016640 237684487542793012780631851008 ((List.replicate 16 (0 : Word128)).set 0 42535295865117307932921825928971026432 ++ [2048, 0])) State.reset, readCmd [10135383750269587219455440929308016640, 237684487542793012780631851008, 0, 0], by decide +kernel⟩,
   ⟨(fun s : State => ({ s with dev := (fun d : Dev => d) s.dev }).cwCmd 11464611746054503055465759842169257984 0 []) State.reset, readCmd [11464611746054503055465759842169257984, 0, 0, 0], by decide +kernel⟩⟩

theorem witness_CausewaySwitching :
    (∃ (s : State) (c : Cmd) (t : Nat) (w : Nat), s.fetches c = true ∧ s.writable 0x1E3 22 s.doneAt 64 = true ∧ c.bad = false ∧ c.op = 4 ∧ c.count = 1 ∧ c.addr % 16 = 0 ∧ s.readable 0x1E3 22 c.addr 4 = true ∧ natLE (s.mem.bytes c.addr 4) = w ∧ pairTarget w = some t ∧ (s.dev.slot t (w % 16)).st = 1 ∧ s.dev.slotIn t 2 = none ∧ s.dev.domUp (cwArmCmd.targetDomain t) = true ∧ s.dev.cw.groups.length < 16 ∧ s.dev.setupBad t (s.dev.slot t (w % 16)).words = [] ∧ s.dev.setupFits [(t, (s.dev.slot t (w % 16)).words)] t (s.dev.slot t (w % 16)).words = true)
    ∧ (∃ (s : State) (c : Cmd) (x : Grp), s.fetches c = true ∧ s.writable 0x1E3 22 s.doneAt 64 = true ∧ c.bad = false ∧ c.op = 5 ∧ s.dev.group? c.time = some x ∧ x.decided = false)
    ∧ (∃ (s : State) (t : Fin 64) (x : Grp), s.dev.cw.groups.find? (fun g => g.pairs.any (fun p => p.1 = t.val) && !(g.acked.contains t.val)) = some x)
    ∧ (∃ (s : State) (g : Nat) (x : Grp), s.dev.group? g = some x ∧ x.decided = false ∧ x.time ≤ s.dev.now + nsUnits 200 ∧ x.ready = true)
    ∧ (∃ (s : State) (g : Nat) (x : Grp), s.dev.group? g = some x ∧ x.decided = false ∧ x.time ≤ s.dev.now + nsUnits 200 ∧ x.ready = false ∧ x.postpone = true)
    ∧ (∃ (s : State) (g : Nat) (x : Grp), s.dev.group? g = some x ∧ x.decided = false ∧ x.time ≤ s.dev.now + nsUnits 200 ∧ x.ready = false ∧ x.postpone = false)
    ∧ (∃ (s : State) (g : Nat) (x : Grp), s.dev.group? g = some x ∧ x.late = true ∧ x.committed = false ∧ x.ready = true)
    ∧ (∃ (s : State) (g : Nat) (x : Grp), s.dev.group? g = some x ∧ x.late = true ∧ x.committed = false ∧ x.ready = false ∧ elapsedNs x.time s.dev.now (max 1 (s.dev.f Reg.CW_LATE_LIMIT 0 16) * 1000000) = true)
    ∧ (∃ (s : State) (g : Nat) (x : Grp), s.dev.group? g = some x ∧ x.committed = true ∧ x.strobed = false ∧ x.edge + 16 ≤ s.dev.tb.edges)
    ∧ (∃ (s : State) (g : Nat) (x : Grp), s.dev.group? g = some x ∧ x.strobed = true ∧ (∀ p ∈ x.pairs, p.1 ∈ x.passed))
    ∧ (∃ (s : State) (p : Fin 2) (g : Grp) (k : Nat), s.dev.dueGroup (62 + p) = some (g, k) ∧ k < 16 ∧ s.dev.slotIn (62 + p) 3 = none ∧ g.teff ≤ s.dev.now ∧ (∀ f, f < 256 → (s.dev.flow p f).items = [])) :=
  ⟨⟨(fun s : State => ({ s with dev := (fun d : Dev => d.setSlot 1 1 ⟨1, [0, 0, 0, 0, 0, 0]⟩) s.dev }).cwCmd 5316911983139663510061972314830929920 237684487542793012780631851008 [0x10010001]) State.reset, readCmd [5316911983139663510061972314830929920, 237684487542793012780631851008, 0, 0], 1, 0x10010001, by decide +kernel⟩,
   ⟨(fun s : State => ({ s with dev := (fun d : Dev => d.withGrp armedGrp) s.dev }).cwCmd 6646139978924579364519035301401722880 0 []) State.reset, readCmd [6646139978924579364519035301401722880, 0, 0, 0], armedGrp, by decide +kernel⟩,
   ⟨from_ fun d => (d.clock tenSeconds).withGrp armedGrp, 1, armedGrp, by decide +kernel⟩,
   ⟨from_ fun d => (d.clock tenSeconds).withGrp ({ armedGrp with acked := [1] }), 0, { armedGrp with acked := [1] }, by decide +kernel⟩,
   ⟨from_ fun d => (d.clock tenSeconds).withGrp ({ armedGrp with postpone := true }), 0, { armedGrp with postpone := true }, by decide +kernel⟩,
   ⟨from_ fun d => (d.clock tenSeconds).withGrp armedGrp, 0, armedGrp, by decide +kernel⟩,
   ⟨from_ fun d => (d.clock tenSeconds).withGrp ({ armedGrp with acked := [1], late := true }), 0, { armedGrp with acked := [1], late := true }, by decide +kernel⟩,
   ⟨from_ fun d => (d.clock tenSeconds).withGrp ({ armedGrp with late := true }), 0, { armedGrp with late := true }, by decide +kernel⟩,
   ⟨from_ fun d => (d.onTb fun x => { x with edges := 100 }).withGrp ({ armedGrp with committed := true }), 0, { armedGrp with committed := true }, by decide +kernel⟩,
   ⟨from_ fun d => (d.clock tenSeconds).withGrp ({ armedGrp with committed := true, strobed := true, passed := [1] }), 0, { armedGrp with committed := true, strobed := true, passed := [1] }, by decide +kernel⟩,
   ⟨from_ fun d => d.dueAt 63, 1, dueGrp 63, 1, by decide +kernel⟩⟩

theorem witness_AuxConversions :
    (∃ (s : State) (i : Ini), s.takes i Reg.AUX_CMD = true ∧ s.dev.on Reg.SEQ_CTRL 31 = true ∧ s.dev.startSrc = 0 ∧ s.dev.ax.seq = none ∧ s.dev.ax.due = none)
    ∧ (∃ (s : State) (i : Ini) (e : Nat), s.takes i Reg.AUX_CMD = true ∧ s.dev.on Reg.SEQ_CTRL 31 = true ∧ s.dev.startSrc = 0 ∧ s.dev.ax.seq = some e)
    ∧ (∃ (s : State) (i : Ini) (j : Fin 4), s.takes i Reg.AUX_CMD = true ∧ s.dev.f (Reg.INJ_TRIG j) 30 2 = 0 ∧ s.dev.ax.injQ = [] ∧ s.dev.ax.injDue.get (fun _ => none) j = none ∧ s.dev.ax.run = none)
    ∧ (∃ (s : State) (n : Nat), s.dev.ax.timer = none ∧ s.dev.ax.due = some n ∧ n ≤ s.dev.modEdges ∧ s.dev.on Reg.SEQ_CTRL 31 = true ∧ s.dev.ax.ready = true ∧ s.dev.ax.run = none ∧ s.dev.ax.calRun = none ∧ s.dev.ax.hk = none ∧ s.dev.ax.injQ = [] ∧ s.dev.ax.calQ = false)
    ∧ (∃ (s : State) (j : Fin 4) (n : Nat), s.dev.ax.injDue.get (fun _ => none) j = some n ∧ n ≤ s.dev.modEdges ∧ (s.dev.ax.ready = false ∨ s.dev.ax.run.isSome = true))
    ∧ (∃ (s : State) (j : Fin 4) (n : Nat), s.dev.ax.injDue.get (fun _ => none) j = some n ∧ n ≤ s.dev.modEdges ∧ s.dev.ax.ready = true ∧ s.dev.ax.run = none ∧ s.dev.ax.calRun = none ∧ s.dev.ax.hk = none ∧ s.dev.ax.injQ = [])
    ∧ (∃ (s : State) (n : Nat), s.dev.ax.hkAt = some n ∧ n ≤ s.dev.modEdges ∧ s.dev.ax.ready = true ∧ s.dev.ax.run = none ∧ s.dev.ax.calRun = none ∧ s.dev.ax.hk = none)
    ∧ (∃ (s : State) (raw : Int) (r : AuxRun), s.dev.ax.run = some r ∧ r.who = 0 ∧ r.idx < 12 ∧ r.inv ≤ r.outs ∧ s.dev.modPast (r.start + (r.outs + 1) * auxOsr r.cfg) = true ∧ -(2 ^ 23) ≤ raw ∧ raw < 2 ^ 23)
    ∧ (∃ (s : State) (raw : Int) (r : AuxRun), s.dev.ax.run = some r ∧ r.who = 6 ∧ r.inv ≤ r.outs ∧ s.dev.modPast (r.start + (r.outs + 1) * auxOsr r.cfg) = true ∧ -(2 ^ 23) ≤ raw ∧ raw < 2 ^ 23 ∧ s.dev.ax.fifo.length < 256)
    ∧ (∃ (s : State) (i : Ini) (w0 : Word) (w1 : Word) (w2 : Word) (w3 : Word) (l : List (List Word)), s.reaches i (Reg.RES 0) .read = true ∧ s.dev.flight 0x16 = none ∧ s.dev.ax.fifo = [w0, w1, w2, w3] :: l)
    ∧ (∃ (s : State) (i : Ini), s.takes i Reg.AUX_CMD = true) :=
  ⟨⟨from_ fun d => (d.setB Reg.SEQ_CTRL 31), 3, by decide +kernel⟩,
   ⟨from_ fun d => (d.setB Reg.SEQ_CTRL 31).onAux fun x => { x with seq := some 3 }, 3, 3, by decide +kernel⟩,
   ⟨State.reset, 3, 1, by decide +kernel⟩,
   ⟨from_ fun d => (d.setB Reg.SEQ_CTRL 31).onAux fun x => { x with due := some 0, ready := true }, 0, by decide +kernel⟩,
   ⟨from_ fun d => d.onAux fun x => { x with injDue := [(1, some 0)] }, 1, 0, by decide +kernel⟩,
   ⟨from_ fun d => d.onAux fun x => { x with injDue := [(1, some 0)], ready := true }, 1, 0, by decide +kernel⟩,
   ⟨from_ fun d => d.onAux fun x => { x with hkAt := some 0, ready := true }, 0, by decide +kernel⟩,
   ⟨from_ fun d => (d.onTb fun x => { x with edges := 2 ^ 30 }).onAux fun x => { x with stop := none, run := some { who := 0, idx := 3, cfg := 0, start := 0, inv := 0, ofs := 0, gain := 0x400000 } }, 77, { who := 0, idx := 3, cfg := 0, start := 0, inv := 0, ofs := 0, gain := 0x400000 }, by decide +kernel⟩,
   ⟨from_ fun d => (d.onTb fun x => { x with edges := 2 ^ 30 }).onAux fun x => { x with stop := none, run := some { who := 6, idx := 3, cfg := 0, start := 0, inv := 0, ofs := 0, gain := 0x400000 } }, 77, { who := 6, idx := 3, cfg := 0, start := 0, inv := 0, ofs := 0, gain := 0x400000 }, by decide +kernel⟩,
   ⟨from_ fun d => d.onAux fun x => { x with fifo := [[1, 2, 3, 4], [5, 6, 7, 8]] }, 3, 1, 2, 3, 4, [[5, 6, 7, 8]], by decide +kernel⟩,
   ⟨State.reset, 3, by decide +kernel⟩⟩

theorem witness_AuxCalibrationAndFans :
    (∃ (s : State) (i : Ini), s.takes i Reg.AUX_CMD = true ∧ s.dev.ax.calQ = false ∧ s.dev.ax.calRun = none ∧ s.dev.ax.ready = true ∧ s.dev.ax.run = none ∧ s.dev.ax.hk = none ∧ s.dev.ax.injQ = [])
    ∧ (∃ (s : State) (i : Ini), s.takes i Reg.AUX_CMD = true ∧ s.dev.ax.calRun = none ∧ s.dev.ax.ready = false)
    ∧ (∃ (s : State) (a : Int), s.dev.on Reg.AUX_CAL_CTRL 31 = true ∧ s.dev.ax.ready = true ∧ s.dev.ax.temp = some a ∧ tempMoved (s.dev.hk 0) a (s.dev.f Reg.AUX_CAL_CTRL 24 6 + 1) = true ∧ s.dev.ax.calQ = false ∧ s.dev.ax.calRun = none ∧ s.dev.ax.run = none ∧ s.dev.ax.hk = none ∧ s.dev.ax.injQ = [])
    ∧ (∃ (s : State) (runs : List (List Int × List Int)) (check : List Int) (resid : Nat) (m : Nat), s.dev.ax.calRun = some m ∧ s.dev.modPast (m + calLength) = true ∧ s.dev.ax.hk = none ∧ s.dev.ax.injQ = [] ∧ s.dev.ax.calQ = false ∧ s.dev.ax.seq = none ∧ resid = calResidual (calPair s.dev.fresh 0 (nth runs 0 ([], [])).1 (nth runs 0 ([], [])).2) check ∧ resid ≤ s.dev.f Reg.AUX_CAL_CTRL 0 16)
    ∧ (∃ (s : State) (runs : List (List Int × List Int)) (check : List Int) (resid : Nat) (m : Nat), s.dev.ax.calRun = some m ∧ s.dev.modPast (m + calLength) = true ∧ s.dev.ax.hk = none ∧ s.dev.ax.injQ = [] ∧ s.dev.ax.calQ = false ∧ s.dev.ax.seq = none ∧ resid = calResidual (calPair s.dev.fresh 0 (nth runs 0 ([], [])).1 (nth runs 0 ([], [])).2) check ∧ s.dev.f Reg.AUX_CAL_CTRL 0 16 < resid)
    ∧ (∃ (s : State) (i : Ini), s.takes i Reg.AUX_CMD = true ∧ s.dev.ax.calRun.isSome = true)
    ∧ (∃ (s : State) (c : Fin 8), s.dev.ax.stop = none ∧ (s.dev.pwm c).on = false ∧ s.dev.on (Reg.PWM_CFG c) 31 = true ∧ s.dev.on (Reg.PWM_CFG c) 29 = false)
    ∧ (∃ (s : State) (c : Fin 8), s.dev.ax.stop = none ∧ (s.dev.pwm c).on = true ∧ s.dev.on (Reg.PWM_CFG c) 31 = false ∧ s.dev.modPast ((s.dev.pwm c).start + ((s.dev.pwm c).presc + 1) * ((s.dev.pwm c).per + 1)) = true)
    ∧ (∃ (s : State) (c : Fin 8), s.dev.ax.stop = none ∧ (s.dev.pwm c).on = true ∧ (s.dev.pwm c).active = true ∧ (s.dev.pwm c).duty ≤ (s.dev.pwm c).per ∧ s.dev.modPast ((s.dev.pwm c).start + (s.dev.pwm c).duty * ((s.dev.pwm c).presc + 1)) = true)
    ∧ (∃ (s : State) (k : Fin 4) (a : Nat), s.dev.on (Reg.TACH_CFG k) 31 = true ∧ (s.dev.tach k).last = some a ∧ s.dev.f (Reg.TACH_CFG k) 0 16 < s.dev.modEdges / 100 - a)
    ∧ (∃ (s : State) (k : Fin 4), s.dev.on (Reg.TACH_CFG k) 31 = true ∧ (s.dev.tach k).last = none)
    ∧ (∃ (s : State) (k : Fin 4) (a : Nat), s.dev.on (Reg.TACH_CFG k) 31 = true ∧ (s.dev.tach k).since = some a ∧ a + 2 ^ 24 ≤ s.dev.modEdges / 100) :=
  ⟨⟨from_ fun d => d.onAux fun x => { x with ready := true }, 3, by decide +kernel⟩,
   ⟨State.reset, 3, by decide +kernel⟩,
   ⟨from_ fun d => d.onAux fun x => { x with ready := true, temp := some 8000000 }, 8000000, by decide +kernel⟩,
   ⟨from_ fun d => (d.onTb fun x => { x with edges := 2 ^ 30 }).onAux fun x => { x with stop := none, calRun := some 0 }, [([], List.replicate 16 6710886)], [], 0, 0, by decide +kernel⟩,
   ⟨from_ fun d => (d.onTb fun x => { x with edges := 2 ^ 30 }).onAux fun x => { x with stop := none, calRun := some 0 }, [([], List.replicate 16 6710886)], List.replicate 16 100000, 14901, 0, by decide +kernel⟩,
   ⟨from_ fun d => d.onAux fun x => { x with calRun := some 0 }, 3, by decide +kernel⟩,
   ⟨from_ fun d => ((d.onTb fun x => { x with edges := 2 ^ 30 }).onAux fun x => { x with stop := none }).setB (Reg.PWM_CFG 1) 31, 1, by decide +kernel⟩,
   ⟨from_ fun d => ((d.onTb fun x => { x with edges := 2 ^ 30 }).onAux fun x => { x with stop := none }).setPwm 1 { on := true }, 1, by decide +kernel⟩,
   ⟨from_ fun d => ((d.onTb fun x => { x with edges := 2 ^ 30 }).onAux fun x => { x with stop := none }).setPwm 1 { on := true, active := true }, 1, by decide +kernel⟩,
   ⟨from_ fun d => ((d.onTb fun x => { x with edges := 2 ^ 30 }).onAux fun x => { x with stop := none }).setB (Reg.TACH_CFG 1) 31 |>.setTach 1 { last := some 0 }, 1, 0, by decide +kernel⟩,
   ⟨from_ fun d => d.setB (Reg.TACH_CFG 1) 31, 1, by decide +kernel⟩,
   ⟨from_ fun d => ((d.onTb fun x => { x with edges := 2 ^ 40 }).onAux fun x => { x with stop := none }).setB (Reg.TACH_CFG 1) 31 |>.setTach 1 { since := some 0 }, 1, 0, by decide +kernel⟩⟩

theorem witness_PlannerRuns :
    (∃ (s : State) (counts : List Nat), s.dev.fl.win < winOf s.dev.up ∧ s.dev.derated = true ∧ 737028 < (worstRing 1 counts).2)
    ∧ (∃ (s : State) (counts : List Nat) (a : Nat), s.dev.fl.win < winOf s.dev.up ∧ s.dev.derated = true ∧ (worstRing 1 counts).2 ≤ 737028 ∧ s.dev.f Reg.DERATE_CAUSE 0 5 = 0 ∧ s.dev.fl.okAt = some a ∧ s.dev.fl.clearAt ≤ a ∧ (∀ st, (s.dev.stream st).shed = false))
    ∧ (∃ (s : State), s.dev.fl.plan = none ∧ s.dev.vddOvr = none ∧ s.dev.on Reg.DERATE_CAUSE 3 = false ∧ ((s.dev.fl.planned = false ∧ s.dev.ax.ready = true) ∨ (s.dev.fl.planned = true ∧ s.dev.on Reg.FL_STATUS 2 = true)))
    ∧ (∃ (s : State) (counts : List Nat) (p : PlanSt) (a : Nat), s.dev.fl.plan = some p ∧ p.call = some a ∧ winFrom a + 256 ≤ winOf s.dev.up ∧ p.band < 9 ∧ p.down = false ∧ 10 * (s.dev.f Reg.FL_CTRL 24 8 : Int) ≤ marginOf (worstRing 256 counts).2)
    ∧ (∃ (s : State) (counts : List Nat) (p : PlanSt) (a : Nat), s.dev.fl.plan = some p ∧ p.call = some a ∧ winFrom a + 256 ≤ winOf s.dev.up ∧ p.down = false ∧ marginOf (worstRing 256 counts).2 < 10 * (s.dev.f Reg.FL_CTRL 24 8 : Int) ∧ p.v < 860)
    ∧ (∃ (s : State) (counts : List Nat) (p : PlanSt) (a : Nat), s.dev.fl.plan = some p ∧ p.call = some a ∧ winFrom a + 256 ≤ winOf s.dev.up ∧ p.down = true ∧ 10 * (s.dev.f Reg.FL_CTRL 24 8 : Int) + 100 ≤ marginOf (worstRing 256 counts).2 ∧ 680 < p.v)
    ∧ (∃ (s : State) (p : PlanSt), s.dev.fl.plan = some p ∧ p.call = none ∧ p.v = s.dev.vddCmd ∧ s.dev.stepFree = true)
    ∧ (∃ (s : State) (p : PlanSt), s.dev.fl.plan = some p ∧ elapsedNs p.t0 s.dev.up 2000000000 = true)
    ∧ (∃ (s : State) (a : Nat), s.dev.fl.retryAt = some a ∧ a ≤ s.dev.up)
    ∧ (∃ (s : State) (i : Ini), s.reaches i Reg.FL_CMD .write = true) :=
  ⟨⟨from_ fun d => d.clock tenSeconds, [], by decide +kernel⟩,
   ⟨from_ fun d => ((d.clock tenSeconds).onFl fun x => { x with okAt := some 0 }).wr Reg.DERATE_CAUSE 0, List.replicate 32 80000, 0, ⟨by decide +kernel, by decide +kernel, by decide +kernel, by decide +kernel, by decide +kernel, by decide +kernel, fun _ => rfl⟩⟩,
   ⟨from_ fun d => d.onAux fun x => { x with ready := true }, by decide +kernel⟩,
   ⟨from_ fun d => (d.clock tenSeconds).onFl fun x => { x with plan := some { band := 3, t0 := 0, down := false, v := 800, call := some 0, margin := 0, step := 0 } }, List.replicate 32 30000000, { band := 3, t0 := 0, down := false, v := 800, call := some 0, margin := 0, step := 0 }, 0, by decide +kernel⟩,
   ⟨from_ fun d => (d.clock tenSeconds).onFl fun x => { x with plan := some { band := 3, t0 := 0, down := false, v := 800, call := some 0, margin := 0, step := 0 } }, [], { band := 3, t0 := 0, down := false, v := 800, call := some 0, margin := 0, step := 0 }, 0, by decide +kernel⟩,
   ⟨from_ fun d => (d.clock tenSeconds).onFl fun x => { x with plan := some { band := 3, t0 := 0, down := true, v := 800, call := some 0, margin := 0, step := 0 } }, List.replicate 32 30000000, { band := 3, t0 := 0, down := true, v := 800, call := some 0, margin := 0, step := 0 }, 0, by decide +kernel⟩,
   ⟨from_ fun d => (d.clock tenSeconds).onFl fun x => { x with plan := some { band := 3, t0 := 0, down := true, v := 750, call := none, margin := 0, step := 0 } }, { band := 3, t0 := 0, down := true, v := 750, call := none, margin := 0, step := 0 }, by decide +kernel⟩,
   ⟨from_ fun d => (d.clock tenSeconds).onFl fun x => { x with plan := some { band := 3, t0 := 0, down := true, v := 800, call := some 0, margin := 0, step := 0 } }, { band := 3, t0 := 0, down := true, v := 800, call := some 0, margin := 0, step := 0 }, by decide +kernel⟩,
   ⟨from_ fun d => (d.clock tenSeconds).onFl fun x => { x with retryAt := some 0 }, 0, by decide +kernel⟩,
   ⟨State.reset, 3, by decide +kernel⟩⟩

theorem witness_RegulatorAndOverrides :
    (∃ (s : State) (readback : Nat) (v : Nat), s.dev.vddGoal = some v ∧ v ≠ s.dev.vddCmd ∧ s.dev.stepFree = true ∧ s.dev.on Reg.DERATE_CAUSE 3 = false ∧ readback < 65536)
    ∧ (∃ (s : State) (v : Nat), s.dev.vddGoal = some v ∧ v ≠ s.dev.vddCmd ∧ s.dev.stepFree = true ∧ s.dev.on Reg.DERATE_CAUSE 3 = false)
    ∧ (∃ (s : State) (readback : Nat), s.dev.on Reg.DERATE_CAUSE 3 = false ∧ elapsedNs s.dev.fl.pollAt s.dev.up 10000000 = true ∧ readback < 65536 ∧ s.dev.vddNear readback = true)
    ∧ (∃ (s : State), s.dev.on Reg.DERATE_CAUSE 3 = false ∧ elapsedNs s.dev.fl.pollAt s.dev.up 10000000 = true)
    ∧ (∃ (s : State) (readback : Nat), s.dev.on Reg.DERATE_CAUSE 3 = true ∧ elapsedNs s.dev.fl.faultAt s.dev.up 100000000 = true ∧ readback < 65536 ∧ s.dev.vddNear readback = true)
    ∧ (∃ (s : State) (i : Ini) (data : Word) (v : Word), s.fires i Reg.VDD_OVR_FIRE data v = true ∧ bit v 31 = true ∧ 680 ≤ fld v 0 16 ∧ fld v 0 16 ≤ 860 ∧ s.dev.fl.plan = none)
    ∧ (∃ (s : State) (i : Ini) (data : Word) (v : Word), s.fires i Reg.VDD_OVR_FIRE data v = true ∧ bit v 31 = true ∧ (fld v 0 16 < 680 ∨ 860 < fld v 0 16))
    ∧ (∃ (s : State) (i : Ini) (data : Word) (v : Word), s.fires i Reg.DERATE_OVR_FIRE data v = true) :=
  ⟨⟨from_ fun d => (d.clock tenSeconds).onFl fun x => { x with target := some 800 }, 800, 800, by decide +kernel⟩,
   ⟨from_ fun d => (d.clock tenSeconds).onFl fun x => { x with target := some 800 }, 800, by decide +kernel⟩,
   ⟨from_ fun d => d.clock tenSeconds, 750, by decide +kernel⟩,
   ⟨from_ fun d => d.clock tenSeconds, by decide +kernel⟩,
   ⟨from_ fun d => (d.clock tenSeconds).setB Reg.DERATE_CAUSE 3, 750, by decide +kernel⟩,
   ⟨from_ fun d => (d).armedAt 3 Reg.VDD_OVR_ARM 0x80000320, 3, 0x7ffffcdf, 0x80000320, by decide +kernel⟩,
   ⟨from_ fun d => (d).armedAt 3 Reg.VDD_OVR_ARM 0x80000100, 3, 0x7ffffeff, 0x80000100, by decide +kernel⟩,
   ⟨from_ fun d => (d).armedAt 3 Reg.DERATE_OVR_ARM 0x1, 3, 0xfffffffe, 0x1, by decide +kernel⟩⟩

theorem witness_FloorHousekeeping :
    (∃ (s : State), s.dev.fl.ageEdge = none ∧ s.dev.fl.ageAt = none ∧ s.dev.on Reg.TB_STATUS 0 = true)
    ∧ (∃ (s : State) (e : Nat), s.dev.fl.ageEdge = some e ∧ e + 2 ^ 20 ≤ s.dev.tb.edges)
    ∧ (∃ (s : State), s.dev.derated = true ∧ elapsedNs s.dev.fl.dwellAt s.dev.up (s.dev.f Reg.FL_CTRL 0 16 * 1000000) = true ∧ s.dev.fl.hit = true ∧ s.dev.n Reg.DERATE_OVR_ARM ≠ 2 ∧ s.dev.shedLevel < 16)
    ∧ (∃ (s : State), s.dev.derated = true ∧ elapsedNs s.dev.fl.dwellAt s.dev.up (s.dev.f Reg.FL_CTRL 0 16 * 1000000) = true ∧ s.dev.fl.hit = false)
    ∧ (∃ (s : State) (i : Ini) (j : Fin 6), s.reaches i (Reg.SHED_PRI j) .write = true)
    ∧ (∃ (s : State) (st : Fin 48), s.dev.mustShed st = true ∧ (s.dev.stream st).shed = false)
    ∧ (∃ (s : State) (st : Fin 48) (a : Nat), (s.dev.stream st).shed = true ∧ (s.dev.stream st).shedFrom = some a ∧ a + nsUnits 1000000 ≤ s.dev.now)
    ∧ (∃ (s : State) (e : LogEntry) (l : List LogEntry), s.dev.logBuf = e :: l ∧ s.dev.fl.scanned = true ∧ s.dev.on Reg.FL_STATUS 4 = false ∧ s.dev.n Reg.LOG_ENTRIES < 65535)
    ∧ (∃ (s : State) (e : LogEntry) (l : List LogEntry), s.dev.logBuf = e :: l ∧ s.dev.fl.scanned = true ∧ s.dev.on Reg.FL_STATUS 4 = false ∧ s.dev.n Reg.LOG_ENTRIES < 65535)
    ∧ (∃ (s : State), elapsedNs s.dev.fl.sumAt s.dev.up 86400000000000 = true ∧ s.dev.logBuf.length < 16 ∧ s.dev.on Reg.FL_STATUS 4 = false)
    ∧ (∃ (s : State), s.dev.fl.scrub < hbmEnd ∧ s.dev.fl.scrub / 32 ∉ s.dev.mc.ue)
    ∧ (∃ (s : State), s.dev.fl.scrub < hbmEnd)
    ∧ (∃ (s : State), hbmEnd ≤ s.dev.fl.scrub)
    ∧ (∃ (s : State), elapsedNs s.dev.fl.scrubAt s.dev.up (s.dev.f Reg.SCRUB_CTRL 0 8 * 3600000000000) = true)
    ∧ (∃ (s : State) (g : Fin 4) (bank : Fin 2), s.dev.fl.march.get (fun _ => (false, none)) (2 * g + bank) = (false, none) ∧ s.dev.isSpareBank (2 * g + bank) = true)
    ∧ (∃ (s : State) (g : Fin 4) (bank : Fin 2), (s.dev.fl.march.get (fun _ => (false, none)) (2 * g + bank)).1 = true)
    ∧ (∃ (s : State) (g : Fin 4) (bank : Fin 2), (s.dev.fl.march.get (fun _ => (false, none)) (2 * g + bank)).1 = true ∧ s.dev.isSpareBank (2 * g + bank) = true)
    ∧ (∃ (s : State) (i : Ini), s.reaches i Reg.FL_CMD .write = true) :=
  ⟨⟨from_ fun d => d.setB Reg.TB_STATUS 0, by decide +kernel⟩,
   ⟨from_ fun d => (d.onTb fun x => { x with edges := 2 ^ 30 }).onFl fun x => { x with ageEdge := some 0 }, 0, by decide +kernel⟩,
   ⟨from_ fun d => (d.clock (100 * tenSeconds)).onFl fun x => { x with hit := true }, by decide +kernel⟩,
   ⟨from_ fun d => d.clock (100 * tenSeconds), by decide +kernel⟩,
   ⟨State.reset, 3, 1, by decide +kernel⟩,
   ⟨from_ fun d => (d.wrN Reg.SHED 9).wrN (Reg.SHED_PRI 0) 0, 1, by decide +kernel⟩,
   ⟨from_ fun d => (d.clock tenSeconds).setStream 1 { (d.stream 1) with shed := true, shedFrom := some 0 }, 1, 0, by decide +kernel⟩,
   ⟨from_ fun d => ({ d with logBuf := [⟨5, 7, 0⟩] }).onFl fun x => { x with scanned := true }, ⟨5, 7, 0⟩, [], by decide +kernel⟩,
   ⟨from_ fun d => ({ d with logBuf := [⟨5, 7, 0⟩] }).onFl fun x => { x with scanned := true }, ⟨5, 7, 0⟩, [], by decide +kernel⟩,
   ⟨from_ fun d => d.clock (100000 * 2 ^ 64), by decide +kernel⟩,
   ⟨State.reset, by decide +kernel⟩,
   ⟨State.reset, by decide +kernel⟩,
   ⟨from_ fun d => d.onFl fun x => { x with scrub := hbmEnd }, by decide +kernel⟩,
   ⟨from_ fun d => d.clock (2000000 * 2 ^ 64), by decide +kernel⟩,
   ⟨State.reset, 1, 1, by decide +kernel⟩,
   ⟨from_ fun d => d.onFl fun x => { x with march := [(3, (true, none))] }, 1, 1, by decide +kernel⟩,
   ⟨from_ fun d => d.onFl fun x => { x with march := [(3, (true, none))] }, 1, 1, by decide +kernel⟩,
   ⟨State.reset, 3, by decide +kernel⟩⟩

theorem witness_MemoryRequests :
    (∃ (s : State) (p : Fin 24) (i : Ini) (w : Bool) (a : Nat) (n : Nat), (s.dev.checkMem i p a n (if w then .write else .read)).2 = true)
    ∧ (∃ (s : State) (p : Fin 24) (i : Ini) (w : Bool) (a : Nat) (n : Nat), (s.dev.checkMem i p a n (if w then .write else .read)).2 = false)
    ∧ (∃ (s : State) (p : Fin 24) (r : MemReq) (l : List MemReq), (s.dev.mport p).reqs = r :: l ∧ s.dev.mayServe p r = true ∧ r.write = false ∧ s.dev.ueIn r.addr r.size = none)
    ∧ (∃ (s : State) (p : Fin 24) (r : MemReq) (l : List MemReq), (s.dev.mport p).reqs = r :: l ∧ s.dev.mayServe p r = true ∧ r.write = true ∧ s.dev.ueEdges r.addr r.data.length = [])
    ∧ (∃ (s : State) (p : Fin 24) (r : MemReq) (l : List MemReq), (s.dev.mport p).reqs = r :: l ∧ r.short = false ∧ 1 < r.classNow ∧ elapsedNs r.since s.dev.up ((r.promo + 1) * (s.dev.f Reg.MC_CTRL 0 6 * 1000)) = true)
    ∧ (∃ (s : State) (p : Fin 24) (r : MemReq) (l : List MemReq), (s.dev.mport p).reqs = r :: l ∧ s.dev.mayServe p r = false)
    ∧ (∃ (s : State) (k : Fin 2), elapsedNs (s.dev.mc.refi.get (fun _ => s.dev.fl.resetAt) k) s.dev.up (s.dev.trefi k) = true)
    ∧ (∃ (s : State) (c : Fin 64), s.dev.debt c ≠ 0 ∧ s.dev.mc.paid.get (fun _ => 0) c.val = 15)
    ∧ (∃ (s : State) (c : Fin 64), s.dev.debt c ≠ 0 ∧ s.dev.debt c < 8 ∧ c.val ∉ s.dev.mc.catchUp)
    ∧ (∃ (s : State) (c : Fin 64), 8 ≤ s.dev.debt c)
    ∧ (∃ (s : State) (k : Fin 2) (temp : Nat), s.dev.on Reg.MC_STATUS (1 + k) = false ∧ 85 < temp)
    ∧ (∃ (s : State) (k : Fin 2) (temp : Nat), s.dev.on Reg.MC_STATUS (1 + k) = true ∧ temp ≤ 80)
    ∧ (∃ (s : State) (i : Ini), s.reaches i Reg.MC_CMD .write = true) :=
  ⟨⟨State.reset, 1, 3, true, 0, 0, by decide +kernel⟩,
   ⟨State.reset, 1, 0x100, true, 0, 4, by decide +kernel⟩,
   ⟨from_ fun d => (d.clock tenSeconds).setMport 1 { reqs := [⟨3, false, 0x1000, 2, [], 2, 0, 0, false, 0⟩] }, 1, ⟨3, false, 0x1000, 2, [], 2, 0, 0, false, 0⟩, [], by decide +kernel⟩,
   ⟨from_ fun d => (d.clock tenSeconds).setMport 1 { reqs := [⟨3, true, 0x1000, 2, [1, 2], 2, 0, 0, false, 0⟩] }, 1, ⟨3, true, 0x1000, 2, [1, 2], 2, 0, 0, false, 0⟩, [], by decide +kernel⟩,
   ⟨from_ fun d => (d.clock tenSeconds).setMport 1 { reqs := [⟨3, false, 0x1000, 2, [], 3, 0, 0, false, 0⟩] }, 1, ⟨3, false, 0x1000, 2, [], 3, 0, 0, false, 0⟩, [], by decide +kernel⟩,
   ⟨from_ fun d => { (d.setMport 1 { reqs := [⟨3, false, 0x1000, 2, [], 3, 0, 0, false, 0⟩] }).setMport 2 { reqs := [⟨3, false, 0x1000, 2, [], 2, 0, 0, false, 0⟩] } with mc := { ((d.setMport 1 { reqs := [⟨3, false, 0x1000, 2, [], 3, 0, 0, false, 0⟩] }).setMport 2 { reqs := [⟨3, false, 0x1000, 2, [], 2, 0, 0, false, 0⟩] }).mc with flight := [(d.pseudo 0x1000, some 2)] } }, 1, ⟨3, false, 0x1000, 2, [], 3, 0, 0, false, 0⟩, [], by decide +kernel⟩,
   ⟨from_ fun d => d.clock tenSeconds, 1, by decide +kernel⟩,
   ⟨from_ fun d => { d with mc := { d.mc with debt := [(1, 1)], paid := [(1, 15)] } }, 1, by decide +kernel⟩,
   ⟨from_ fun d => { d with mc := { d.mc with debt := [(1, 1)] } }, 1, by decide +kernel⟩,
   ⟨from_ fun d => { d with mc := { d.mc with debt := [(1, 8)] } }, 1, by decide +kernel⟩,
   ⟨State.reset, 1, 90, by decide +kernel⟩,
   ⟨from_ fun d => d.setB Reg.MC_STATUS 2, 1, 0, by decide +kernel⟩,
   ⟨State.reset, 3, by decide +kernel⟩⟩

theorem witness_RecordRegions :
    (∃ (s : State) (r : Fin 259) (w : Rec) (l : List Rec) (o : Nat), s.dev.outOf r = w :: l ∧ s.caughtUp r = true ∧ (s.dev.rgn r).len ≠ 0 ∧ (s.dev.rgn r).mode = false ∧ (s.dev.rgn r).place w.length = some (o, false) ∧ s.writable (rgnWriter r) (rgnPort r) ((s.dev.rgn r).base + 16 * o) (16 * w.length) = true)
    ∧ (∃ (s : State) (r : Fin 259) (w : Rec) (l : List Rec), s.dev.outOf r = w :: l ∧ s.caughtUp r = true ∧ (s.dev.rgn r).len = 0)
    ∧ (∃ (s : State) (r : Fin 259) (w : Rec) (l : List Rec), s.dev.outOf r = w :: l ∧ s.caughtUp r = true ∧ (s.dev.rgn r).len ≠ 0 ∧ (s.dev.rgn r).mode = false ∧ (s.dev.rgn r).place w.length = none)
    ∧ (∃ (s : State) (i : Ini), s.reaches i 0x220204 .write = true)
    ∧ (∃ (s : State) (i : Ini) (low : Word) (r : Nat), s.reaches i 0x220208 .write = true ∧ s.dev.rgnSel = some r ∧ s.dev.staged i 0x220204 = some low ∧ (s.dev.rgn r).wp = (s.dev.rgn r).cp)
    ∧ (∃ (s : State) (i : Ini) (r : Nat), s.reaches i 0x22020C .write = true ∧ s.dev.rgnSel = some r ∧ (s.dev.rgn r).len = 0)
    ∧ (∃ (s : State) (i : Ini) (r : Nat), s.reaches i 0x22020C .write = true ∧ s.dev.rgnSel = some r ∧ (s.dev.rgn r).len ≠ 0 ∧ (s.dev.rgn r).wp ≠ (s.dev.rgn r).cp)
    ∧ (∃ (s : State) (i : Ini) (data : Word) (r : Nat), s.reaches i 0x220218 .write = true ∧ s.dev.rgnSel = some r ∧ (s.dev.rgn r).cp ≤ data.toNat ∧ data.toNat ≤ (s.dev.rgn r).wp)
    ∧ (∃ (s : State) (i : Ini) (data : Word) (r : Nat), s.reaches i 0x220218 .write = true ∧ s.dev.rgnSel = some r ∧ (s.dev.rgn r).cp ≤ (s.dev.rgn r).wp ∧ (s.dev.rgn r).wp < data.toNat) :=
  ⟨⟨from_ fun d => (d.push 1 [1329228233469403415696819840912195584, 1, 2]).grant.setRgn 1 { base := 0x10000, len := 1 }, 1, [1329228233469403415696819840912195584, 1, 2], [], 0, by decide +kernel⟩,
   ⟨from_ fun d => d.push 1 [1329228233469403415696819840912195584, 1, 2], 1, [1329228233469403415696819840912195584, 1, 2], [], by decide +kernel⟩,
   ⟨from_ fun d => (d.push 1 [1329228233469403415696819840912195584, 1, 2]).setRgn 1 { len := 1, wp := 4, cp := 5 }, 1, [1329228233469403415696819840912195584, 1, 2], [], by decide +kernel⟩,
   ⟨State.reset, 3, by decide +kernel⟩,
   ⟨from_ fun d => d.stageLow 3 0x220204 7, 3, 7, 0, by decide +kernel⟩,
   ⟨State.reset, 3, 0, by decide +kernel⟩,
   ⟨from_ fun d => d.setRgn 0 { len := 1, wp := 5 }, 3, 0, by decide +kernel⟩,
   ⟨from_ fun d => d.setRgn 0 { len := 1, wp := 5 }, 3, 5, 0, by decide +kernel⟩,
   ⟨State.reset, 3, 5, 0, by decide +kernel⟩⟩

theorem witness_CaptureRings :
    (∃ (s : State) (i : Ini) (st : Fin 48) (data : Word), s.reaches i (Reg.RLEN st) .write = true ∧ s.dev.f (Reg.RLEN st) 0 20 ≤ fld data 0 20)
    ∧ (∃ (s : State) (i : Ini) (st : Fin 48) (data : Word), s.reaches i (Reg.RLEN st) .write = true ∧ fld data 0 20 < s.dev.f (Reg.RLEN st) 0 20)
    ∧ (∃ (s : State) (st : Fin 48) (l : Nat), s.dev.shortenDue st = some l ∧ l < 2 ^ 20)
    ∧ (∃ (s : State) (i : Ini) (data : Word) (v : Word), s.fires i Reg.RLEN_FORCE_FIRE data v = true ∧ fld v 20 6 < 48)
    ∧ (∃ (s : State) (i : Ini) (x : Fin 16), s.reaches i Reg.CAP_CMD .write = true ∧ s.dev.on (Reg.CX_CFG x) 31 = true ∧ s.dev.cx x = none ∧ s.dev.f (Reg.CX_CFG x) 16 6 < 48)
    ∧ (∃ (s : State) (i : Ini) (x : Fin 16) (e : Extract), s.reaches i Reg.CAP_CMD .write = true ∧ s.dev.on (Reg.CX_CFG x) 31 = true ∧ s.dev.cx x = some e)
    ∧ (∃ (s : State) (i : Ini) (x : Fin 16) (e : Extract), s.reaches i Reg.CAP_CMD .write = true ∧ s.dev.cx x = some e)
    ∧ (∃ (s : State) (i : Ini) (x : Fin 16), s.reaches i Reg.CAP_CMD .write = true ∧ s.dev.cx x = none ∧ s.dev.f (Reg.CX_RESULT x) 28 4 = 1)
    ∧ (∃ (s : State) (x : Fin 16) (e : Extract) (cause : Nat) (j : Int), s.dev.cx x = some e ∧ e.wait = none ∧ (s.dev.ring e.stream).look e.pos e.stop = .lost cause j)
    ∧ (∃ (s : State) (x : Fin 16) (e : Extract) (j : Int), s.dev.cx x = some e ∧ e.wait = none ∧ (s.dev.ring e.stream).look e.pos e.stop = .data j ∧ (s.dev.ring e.stream).dataTo (min e.stop (e.pos + 4096)) 64 e.pos = min e.stop (e.pos + 4096) ∧ 4 ≤ (ringRead (BitVec.ofNat 10 (0x1D0 + x)) (e.stream / 8) e.stream s.mem 64 e.pos (min e.stop (e.pos + 4096)) s.dev).2.1.length)
    ∧ (∃ (s : State) (x : Fin 16) (e : Extract), s.dev.cx x = some e ∧ e.wait.isSome = true)
    ∧ (∃ (s : State) (r : Fin 259) (x : Fin 16) (e : Extract) (w : Rec) (l : List Rec) (j : Int) (n : Nat) (o : Nat), s.dev.cx x = some e ∧ e.wait = some (w, j, n) ∧ e.stream = r ∧ r.val < 48 ∧ (∀ y, y ≠ x.val → s.dev.cx y = none) ∧ s.dev.outOf r = w :: l ∧ (s.dev.rgn r).len ≠ 0 ∧ (s.dev.rgn r).mode = false ∧ (s.dev.rgn r).place w.length = some (o, false) ∧ s.writable (rgnWriter r) (rgnPort r) ((s.dev.rgn r).base + 16 * o) (16 * w.length) = true)
    ∧ (∃ (s : State) (i : Ini), s.reaches i Reg.CAP_CMD .write = true) :=
  ⟨⟨State.reset, 3, 1, 0xFFFFF, by decide +kernel⟩,
   ⟨State.reset, 3, 1, 5, by decide +kernel⟩,
   ⟨from_ fun d => d.setRing 1 { wp := 65536, pend := some 1 }, 1, 1, by decide +kernel⟩,
   ⟨from_ fun d => (d).armedAt 3 Reg.RLEN_FORCE_ARM 0x100003, 3, 0xffeffffc, 0x100003, by decide +kernel⟩,
   ⟨from_ fun d => (d.setB (Reg.CX_CFG 1) 31), 3, 1, by decide +kernel⟩,
   ⟨from_ fun d => (d.setB (Reg.CX_CFG 1) 31).setCx 1 (some ⟨1, 0, 0, 4, 0, none⟩), 3, 1, ⟨1, 0, 0, 4, 0, none⟩, by decide +kernel⟩,
   ⟨from_ fun d => (d.setB (Reg.CX_CFG 1) 31).setCx 1 (some ⟨1, 0, 0, 4, 0, none⟩), 3, 1, ⟨1, 0, 0, 4, 0, none⟩, by decide +kernel⟩,
   ⟨from_ fun d => d.wr (Reg.CX_RESULT 1) 0x10000000, 3, 1, by decide +kernel⟩,
   ⟨from_ fun d => (d.setRing 1 { tagged := some (0, 0), idx := 10, spans := [(0, 2, 0x51)] }).setCx 1 (some ⟨1, 0, 0, 4, 0, none⟩), 1, ⟨1, 0, 0, 4, 0, none⟩, 0x51, 2, by decide +kernel⟩,
   ⟨from_ fun d => ((d.grant.setRing 1 { tagged := some (0, 0), idx := 4, runs := [⟨0, 0, 4⟩] }).wr (Reg.RBASE_LO 1) 0x40000).setCx 1 (some ⟨1, 0, 0, 4, 0, none⟩), 1, ⟨1, 0, 0, 4, 0, none⟩, 4, by decide +kernel⟩,
   ⟨from_ fun d => d.setCx 1 (some ⟨1, 0, 0, 4, 0, some ([1329228233469403415696819840912195584, 1, 2], 4, 4)⟩), 1, ⟨1, 0, 0, 4, 0, some ([1329228233469403415696819840912195584, 1, 2], 4, 4)⟩, by decide +kernel⟩,
   ⟨from_ fun d => ((d.push 1 [1329228233469403415696819840912195584, 1, 2]).grant.setRgn 1 { base := 0x10000, len := 1 }).setCx 1 (some ⟨1, 0, 0, 4, 0, some ([1329228233469403415696819840912195584, 1, 2], 4, 4)⟩), 1, 1, ⟨1, 0, 0, 4, 0, some ([1329228233469403415696819840912195584, 1, 2], 4, 4)⟩, [1329228233469403415696819840912195584, 1, 2], [], 4, 4, 0, ⟨by decide +kernel, by decide +kernel, by decide +kernel, by decide +kernel, fun _ hy => Tab.get_set_ne (fun _ => none) ([] : Tab (Option Extract)) (k := 1) (some ⟨1, 0, 0, 4, 0, some ([1329228233469403415696819840912195584, 1, 2], 4, 4)⟩) hy, by decide +kernel, by decide +kernel, by decide +kernel, by decide +kernel, by decide +kernel⟩⟩,
   ⟨State.reset, 3, by decide +kernel⟩⟩

theorem witness_StreamOutPorts :
    (∃ (s : State) (p : Fin 2) (k : Fin 8), s.dev.isPaused p k = true ∧ (s.dev.soSt p).pauses.get (fun _ => 0) k ≤ s.dev.up)
    ∧ (∃ (s : State) (p : Fin 2) (f : Fin 256) (r : Nat) (o : Offer), s.dev.flowRuns p f = true ∧ fld (flowA (s.dev.force (62 + p)) f) 47 5 = 31 ∧ (s.dev.flow p f).items = [] ∧ flowSrcs (flowA (s.dev.force (62 + p)) f) = [r] ∧ (soOffer p f r s.mem s.dev).2 = some o ∧ o.cause ≠ 0x50 ∧ s.dev.flowSwitchAt p = none ∧ fld (wd o.words 0) 120 8 < 0x0C)
    ∧ (∃ (s : State) (p : Fin 2) (f : Nat) (i : SoItem) (l : List SoItem), (s.dev.soSt p).until_ ≤ s.dev.up ∧ (s.dev.soSt p).cut = false ∧ s.dev.nextFlow p = some f ∧ (s.dev.flow p f).items = i :: l)
    ∧ (∃ (s : State) (p : Fin 2), s.dev.on (Reg.SO_STATUS p) 0 = true)
    ∧ (∃ (s : State) (p : Fin 2), s.dev.on (Reg.SO_STATUS p) 0 = false ∧ (s.dev.soSt p).cut = true)
    ∧ (∃ (s : State) (p : Fin 2), s.dev.on (Reg.SO_STATUS p) 0 = false ∧ (s.dev.soSt p).cut = false)
    ∧ (∃ (s : State) (i : Ini) (p : Fin 2), s.takes i (Reg.SO_CMD p) = true) :=
  ⟨⟨from_ fun d => d.setSo 1 { pauses := [(1, 0)] }, 1, 1, by decide +kernel⟩,
   ⟨(fun s : State => { s with dev := (fun d : Dev => ((((d.setB (Reg.SO_CTRL 1) 31).setB (Reg.SO_STATUS 1) 0).inForce 63 [0, 0, 0, 170141183460469231731691666852901026816, 0]).setRgn 1 { base := 0x40000, len := 1, wp := 2 }).grant) s.dev, mem := s.mem.store 0x40000 (([1329228154241240901432482247368245248, 5] : List Word128).flatMap memWord) }) State.reset, 1, 1, 1, ⟨1, [1329228154241240901432482247368245248, 5], 2, 0⟩, by decide +kernel⟩,
   ⟨from_ fun d => (((d.setB (Reg.SO_CTRL 1) 31).setB (Reg.SO_STATUS 1) 0).inForce 63 [0, 0, 0, 170141183460469231731691666852901026816, 0]).setFlow 1 1 { items := [{ kind := 0, typ := 1, time := 0, words := [5, 6] }] }, 1, 1, { kind := 0, typ := 1, time := 0, words := [5, 6] }, [], by decide +kernel⟩,
   ⟨from_ fun d => d.setB (Reg.SO_STATUS 1) 0, 1, by decide +kernel⟩,
   ⟨from_ fun d => d.setSo 1 { cut := true }, 1, by decide +kernel⟩,
   ⟨State.reset, 1, by decide +kernel⟩,
   ⟨State.reset, 3, 1, by decide +kernel⟩⟩

theorem witness_CompressionAndReplay :
    (∃ (s : State) (c : Fin 20) (b : CtxBlock), (s.dev.ctx c).block = some b ∧ s.dev.f (ctxReg c 0) 0 16 ≠ 0 ∧ elapsedNs b.opened s.dev.up (1000 * s.dev.f (ctxReg c 0) 0 16) = true ∧ s.dev.on (ctxReg c 4) 30 = false)
    ∧ (∃ (s : State) (c : Fin 20), s.dev.on (ctxReg c 4) 30 = true ∧ s.dev.on (ctxReg c 4) 29 = false ∧ (s.dev.ctx c).pieces = [] ∧ (s.dev.ctx c).input = [] ∧ 16 * s.dev.ctxHeld c + ((s.dev.ctx c).block.map fun b => b.lits.length).getD 0 + 4 ≤ 16384)
    ∧ (∃ (s : State) (i : Ini) (c : Fin 16) (b : CtxBlock), s.reaches i Reg.K_CMD .write = true ∧ (s.dev.ctx c).block = some b ∧ s.dev.on (ctxReg c 4) 30 = false)
    ∧ (∃ (s : State) (i : Ini) (c : Fin 16) (b : CtxBlock), s.reaches i Reg.K_CMD .write = true ∧ (s.dev.ctx c).block = some b ∧ s.dev.on (ctxReg c 4) 30 = true)
    ∧ (∃ (s : State) (i : Ini), s.reaches i Reg.K_CMD .write = true)
    ∧ (∃ (s : State) (i : Ini) (c : Fin 4) (b : CtxBlock), s.reaches i Reg.KP_CMD .write = true ∧ (s.dev.ctx (16 + c)).block = some b ∧ s.dev.on (ctxReg (16 + c) 4) 30 = false)
    ∧ (∃ (s : State) (i : Ini) (c : Fin 4), s.reaches i Reg.KP_CMD .write = true ∧ (s.dev.ctx (16 + c)).xfer = 0 ∧ (s.dev.ctx (16 + c)).block = none ∧ s.dev.on (ctxReg (16 + c) 4) 29 = false)
    ∧ (∃ (s : State) (i : Ini) (c : Fin 4), s.reaches i Reg.KP_CMD .write = true ∧ (s.dev.ctx (16 + c)).xfer = 0)
    ∧ (∃ (s : State) (i : Ini), s.reaches i Reg.KP_CMD .write = true)
    ∧ (∃ (s : State) (c : Fin 4), (s.dev.ctx (16 + c)).xfer = 3 ∧ s.readable (ctxIni (16 + c)) 18 (s.dev.ctx (16 + c)).at_ 65552 = true)
    ∧ (∃ (s : State) (c : Fin 4) (h : List Byte) (n : Nat), (s.dev.ctx (16 + c)).xfer = 2 ∧ (s.dev.ctx (16 + c)).image = some (h, n) ∧ h.length ≤ 65536 ∧ s.writable (ctxIni (16 + c)) 18 (s.dev.ctx (16 + c)).at_ 65552 = true)
    ∧ (∃ (s : State) (i : Ini), s.reaches i Reg.RP_CMD .write = true ∧ s.dev.on Reg.RP_RESULT 0 = false)
    ∧ (∃ (s : State) (i : Ini), s.reaches i Reg.RP_CMD .write = true ∧ s.dev.on Reg.RP_RESULT 0 = true)
    ∧ (∃ (s : State) (i : Ini), s.reaches i Reg.RP_CMD .write = true ∧ s.dev.f Reg.RP_RESULT 28 4 = 3 ∧ s.dev.on Reg.RP_RESULT 0 = false)
    ∧ (∃ (s : State), s.dev.on Reg.RP_RESULT 0 = true)
    ∧ (∃ (s : State), s.dev.on Reg.RP_RESULT 0 = true ∧ s.dev.rd Reg.RP_LEN = 0 ∧ s.dev.on Reg.RP_CFG 31 = false ∧ s.dev.on Reg.RP_CFG 0 = false ∧ s.dev.replay.block = none)
    ∧ (∃ (s : State) (i : Ini), s.reaches i Reg.RP_CMD .write = true ∧ s.dev.on Reg.RP_RESULT 0 = true)
    ∧ (∃ (s : State) (i : Ini), s.reaches i Reg.RP_CMD .write = true ∧ s.dev.on Reg.RP_RESULT 0 = false ∧ s.dev.f Reg.RP_RESULT 28 4 = 1) :=
  ⟨⟨from_ fun d => ((d.clock tenSeconds).setCtx 1 { block := some { opened := 0, time := 0, began := true, reset := false, bytes := 3, lits := [7] } }).wr (ctxReg 1 0) 5, 1, { opened := 0, time := 0, began := true, reset := false, bytes := 3, lits := [7] }, by decide +kernel⟩,
   ⟨from_ fun d => d.setB (ctxReg 1 4) 30, 1, by decide +kernel⟩,
   ⟨from_ fun d => d.setCtx 1 { block := some { opened := 0, time := 0, began := true, reset := false, bytes := 3, lits := [7] } }, 3, 1, { opened := 0, time := 0, began := true, reset := false, bytes := 3, lits := [7] }, by decide +kernel⟩,
   ⟨from_ fun d => (d.setCtx 1 { block := some { opened := 0, time := 0, began := true, reset := false, bytes := 3, lits := [7] } }).setB (ctxReg 1 4) 30, 3, 1, { opened := 0, time := 0, began := true, reset := false, bytes := 3, lits := [7] }, by decide +kernel⟩,
   ⟨State.reset, 3, by decide +kernel⟩,
   ⟨from_ fun d => d.setCtx 17 { block := some { opened := 0, time := 0, began := true, reset := false, bytes := 3, lits := [7] } }, 3, 1, { opened := 0, time := 0, began := true, reset := false, bytes := 3, lits := [7] }, by decide +kernel⟩,
   ⟨State.reset, 3, 1, by decide +kernel⟩,
   ⟨State.reset, 3, 1, by decide +kernel⟩,
   ⟨State.reset, 3, by decide +kernel⟩,
   ⟨from_ fun d => d.grant.setCtx 17 { xfer := 3 }, 1, by decide +kernel⟩,
   ⟨from_ fun d => d.grant.setCtx 17 { xfer := 2, image := some ([7], 3) }, 1, [7], 3, by decide +kernel⟩,
   ⟨State.reset, 3, by decide +kernel⟩,
   ⟨from_ fun d => d.wr Reg.RP_RESULT 1, 3, by decide +kernel⟩,
   ⟨from_ fun d => d.wr Reg.RP_RESULT 0x30000000, 3, by decide +kernel⟩,
   ⟨from_ fun d => d.wr Reg.RP_RESULT 1, by decide +kernel⟩,
   ⟨from_ fun d => d.wr Reg.RP_RESULT 1, by decide +kernel⟩,
   ⟨from_ fun d => d.wr Reg.RP_RESULT 1, 3, by decide +kernel⟩,
   ⟨from_ fun d => d.wr Reg.RP_RESULT 0x10000000, 3, by decide +kernel⟩⟩

theorem witness_DmaChannels :
    (∃ (s : State) (i : Ini) (c : Fin 64) (data : Word), s.reaches i (Reg.DHEAD c) .write = true ∧ data.toNat % 65536 < s.dev.n (Reg.DRLEN c))
    ∧ (∃ (s : State) (i : Ini) (c : Fin 64) (data : Word), s.reaches i (Reg.DHEAD c) .write = true ∧ s.dev.n (Reg.DRLEN c) ≤ data.toNat % 65536)
    ∧ (∃ (s : State) (c : Fin 64) (y : Sys) (p : Sys) (q : Sys) (l : List Byte) (src : List (Nat × Nat)) (dst : List (Nat × Nat)), y = ⟨s.mem, s.dev.forcedDue c⟩ ∧ y.dev.dmaCanStart c = true ∧ dmaRead c (s.dev.n64 (Reg.DRING_BASE_LO c) (Reg.DRING_BASE_HI c) + 32 * s.dev.n (Reg.DTAIL c)) 32 y = (p, l, none) ∧ readLists c (nth (words128 l) 0 0) (nth (words128 l) 1 0) p = (q, none, src, dst) ∧ (∀ e ∈ src ++ dst, s.dev.pdPending (addrDomain e.1) = false))
    ∧ (∃ (s : State) (c : Fin 64) (y : Sys) (p : Sys) (q : Sys) (l : List Byte) (src : List (Nat × Nat)) (dst : List (Nat × Nat)) (st : Nat), y = ⟨s.mem, s.dev.forcedDue c⟩ ∧ y.dev.dmaCanStart c = true ∧ dmaRead c (s.dev.n64 (Reg.DRING_BASE_LO c) (Reg.DRING_BASE_HI c) + 32 * s.dev.n (Reg.DTAIL c)) 32 y = (p, l, none) ∧ readLists c (nth (words128 l) 0 0) (nth (words128 l) 1 0) p = (q, some st, src, dst))
    ∧ (∃ (s : State) (c : Fin 64) (r : DmaRun) (sa : Nat) (sn : Nat) (da : Nat) (dn : Nat), s.noAborts = true ∧ (s.dev.dmaCh c).run = some r ∧ r.result = none ∧ r.stop = false ∧ position r.src r.moved = some (sa, sn) ∧ position r.dst r.moved = some (da, dn) ∧ inHbm sa = true ∧ inHbm da = true ∧ s.readable (dmaIni c) 18 sa (min sn dn) = true ∧ s.writable (dmaIni c) 18 da (min sn dn) = true)
    ∧ (∃ (s : State) (c : Fin 64) (r : DmaRun) (st : Nat), s.noAborts = true ∧ (s.dev.dmaCh c).run = some r ∧ r.result = some st ∧ st < 256 ∧ bit (nth r.desc 1 0) 79 = false ∧ (s.dev.dmaCh c).waiting = [] ∧ (s.dev.dmaCh c).forced = [] ∧ (s.dev.dmaCh c).detached = false ∧ s.dev.cplFull c = false ∧ s.writable (dmaIni c) 18 (s.dev.n64 (Reg.DCPL_BASE_LO c) (Reg.DCPL_BASE_HI c) + 64 * s.dev.n (Reg.DCPL_HEAD c)) 64 = true)
    ∧ (∃ (s : State) (c : Fin 64) (r : DmaRun) (m : Nat) (a : Nat), (s.dev.dmaCh c).run = some r ∧ m ∈ r.doms ∧ s.dev.pw.pdAt.get (fun _ => none) m = some a ∧ elapsedNs a s.dev.up (1000 * s.dev.f Reg.DMA_CTRL 0 14) = true)
    ∧ (∃ (s : State) (i : Ini) (c : Fin 64), s.noAborts = true ∧ s.reaches i Reg.DMA_CMD .write = true ∧ (s.dev.dmaCh c).run = none)
    ∧ (∃ (s : State) (i : Ini) (c : Fin 64) (r : DmaRun) (sa : Nat) (sn : Nat) (da : Nat) (dn : Nat), s.noAborts = true ∧ s.reaches i Reg.DMA_CMD .write = true ∧ (s.dev.dmaCh c).run = some r ∧ r.result = none ∧ position r.src r.moved = some (sa, sn) ∧ position r.dst r.moved = some (da, dn) ∧ inHbm sa = true ∧ inHbm da = true)
    ∧ (∃ (s : State) (i : Ini), s.reaches i Reg.DMA_CMD .write = true)
    ∧ (∃ (s : State) (i : Ini) (c : Fin 64) (data : Word), s.reaches i (Reg.DRLEN c) .write = true ∧ 2 ≤ fld data 0 17 ∧ fld data 0 17 ≤ 65536)
    ∧ (∃ (s : State) (c : Fin 64), s.dev.on (Reg.DRLEN_PEND c) 31 = true ∧ s.dev.n (Reg.DHEAD c) < s.dev.f (Reg.DRLEN_PEND c) 0 17 ∧ s.dev.n (Reg.DTAIL c) ≤ s.dev.n (Reg.DHEAD c))
    ∧ (∃ (s : State) (i : Ini) (data : Word) (v : Word), s.fires i Reg.DRLEN_FORCE_FIRE data v = true ∧ 2 ≤ fld v 0 17 ∧ fld v 0 17 ≤ 65536)
    ∧ (∃ (s : State) (i : Ini) (c : Fin 64), s.reaches i (Reg.DCPL_TAIL c) .write = true ∧ (s.dev.dmaCh c).waiting = []) :=
  ⟨⟨State.reset, 3, 1, 5, by decide +kernel⟩,
   ⟨State.reset, 3, 1, 0xFFFF, by decide +kernel⟩,
   ⟨(fun s : State => { s with dev := ((((s.dev.grant.wr (Reg.DCH_CFG 1) 0x80000400).wr (Reg.DHEAD 1) 1).wr (Reg.DRLEN 1) 16).wr (Reg.DRING_BASE_LO 1) 0x10000), mem := (s.mem.store 0x10000 (([237684487542793012780631851008, 237703830355906846847427149824] : List Word128).flatMap memWord)).store 0x30000 (([396140812571321688100863737856, 475368975085586025694407688192] : List Word128).flatMap memWord) }) State.reset, 1, ⟨((fun s : State => { s with dev := ((((s.dev.grant.wr (Reg.DCH_CFG 1) 0x80000400).wr (Reg.DHEAD 1) 1).wr (Reg.DRLEN 1) 16).wr (Reg.DRING_BASE_LO 1) 0x10000), mem := (s.mem.store 0x10000 (([237684487542793012780631851008, 237703830355906846847427149824] : List Word128).flatMap memWord)).store 0x30000 (([396140812571321688100863737856, 475368975085586025694407688192] : List Word128).flatMap memWord) }) State.reset).mem, ((fun s : State => { s with dev := ((((s.dev.grant.wr (Reg.DCH_CFG 1) 0x80000400).wr (Reg.DHEAD 1) 1).wr (Reg.DRLEN 1) 16).wr (Reg.DRING_BASE_LO 1) 0x10000), mem := (s.mem.store 0x10000 (([237684487542793012780631851008, 237703830355906846847427149824] : List Word128).flatMap memWord)).store 0x30000 (([396140812571321688100863737856, 475368975085586025694407688192] : List Word128).flatMap memWord) }) State.reset).dev.forcedDue 1⟩, (dmaRead 1 0x10000 32 ⟨((fun s : State => { s with dev := ((((s.dev.grant.wr (Reg.DCH_CFG 1) 0x80000400).wr (Reg.DHEAD 1) 1).wr (Reg.DRLEN 1) 16).wr (Reg.DRING_BASE_LO 1) 0x10000), mem := (s.mem.store 0x10000 (([237684487542793012780631851008, 237703830355906846847427149824] : List Word128).flatMap memWord)).store 0x30000 (([396140812571321688100863737856, 475368975085586025694407688192] : List Word128).flatMap memWord) }) State.reset).mem, ((fun s : State => { s with dev := ((((s.dev.grant.wr (Reg.DCH_CFG 1) 0x80000400).wr (Reg.DHEAD 1) 1).wr (Reg.DRLEN 1) 16).wr (Reg.DRING_BASE_LO 1) 0x10000), mem := (s.mem.store 0x10000 (([237684487542793012780631851008, 237703830355906846847427149824] : List Word128).flatMap memWord)).store 0x30000 (([396140812571321688100863737856, 475368975085586025694407688192] : List Word128).flatMap memWord) }) State.reset).dev.forcedDue 1⟩).1, (readLists 1 237684487542793012780631851008 237703830355906846847427149824 (dmaRead 1 0x10000 32 ⟨((fun s : State => { s with dev := ((((s.dev.grant.wr (Reg.DCH_CFG 1) 0x80000400).wr (Reg.DHEAD 1) 1).wr (Reg.DRLEN 1) 16).wr (Reg.DRING_BASE_LO 1) 0x10000), mem := (s.mem.store 0x10000 (([237684487542793012780631851008, 237703830355906846847427149824] : List Word128).flatMap memWord)).store 0x30000 (([396140812571321688100863737856, 475368975085586025694407688192] : List Word128).flatMap memWord) }) State.reset).mem, ((fun s : State => { s with dev := ((((s.dev.grant.wr (Reg.DCH_CFG 1) 0x80000400).wr (Reg.DHEAD 1) 1).wr (Reg.DRLEN 1) 16).wr (Reg.DRING_BASE_LO 1) 0x10000), mem := (s.mem.store 0x10000 (([237684487542793012780631851008, 237703830355906846847427149824] : List Word128).flatMap memWord)).store 0x30000 (([396140812571321688100863737856, 475368975085586025694407688192] : List Word128).flatMap memWord) }) State.reset).dev.forcedDue 1⟩).1).1, (([237684487542793012780631851008, 237703830355906846847427149824] : List Word128).flatMap memWord), [(0x50000, 32)], [(0x60000, 32)], ⟨rfl, by decide +kernel, by decide +kernel, by decide +kernel, by decide +kernel⟩⟩,
   ⟨(fun s : State => { s with dev := ((((s.dev.grant.wr (Reg.DCH_CFG 1) 0x80000400).wr (Reg.DHEAD 1) 1).wr (Reg.DRLEN 1) 16).wr (Reg.DRING_BASE_LO 1) 0x10000), mem := (s.mem.store 0x10000 (([237684487542793012780631851008, 237703830355906846847427149825] : List Word128).flatMap memWord)).store 0x30000 (([396140812571321688100863737856, 475368975085586025694407688192] : List Word128).flatMap memWord) }) State.reset, 1, ⟨((fun s : State => { s with dev := ((((s.dev.grant.wr (Reg.DCH_CFG 1) 0x80000400).wr (Reg.DHEAD 1) 1).wr (Reg.DRLEN 1) 16).wr (Reg.DRING_BASE_LO 1) 0x10000), mem := (s.mem.store 0x10000 (([237684487542793012780631851008, 237703830355906846847427149825] : List Word128).flatMap memWord)).store 0x30000 (([396140812571321688100863737856, 475368975085586025694407688192] : List Word128).flatMap memWord) }) State.reset).mem, ((fun s : State => { s with dev := ((((s.dev.grant.wr (Reg.DCH_CFG 1) 0x80000400).wr (Reg.DHEAD 1) 1).wr (Reg.DRLEN 1) 16).wr (Reg.DRING_BASE_LO 1) 0x10000), mem := (s.mem.store 0x10000 (([237684487542793012780631851008, 237703830355906846847427149825] : List Word128).flatMap memWord)).store 0x30000 (([396140812571321688100863737856, 475368975085586025694407688192] : List Word128).flatMap memWord) }) State.reset).dev.forcedDue 1⟩, (dmaRead 1 0x10000 32 ⟨((fun s : State => { s with dev := ((((s.dev.grant.wr (Reg.DCH_CFG 1) 0x80000400).wr (Reg.DHEAD 1) 1).wr (Reg.DRLEN 1) 16).wr (Reg.DRING_BASE_LO 1) 0x10000), mem := (s.mem.store 0x10000 (([237684487542793012780631851008, 237703830355906846847427149825] : List Word128).flatMap memWord)).store 0x30000 (([396140812571321688100863737856, 475368975085586025694407688192] : List Word128).flatMap memWord) }) State.reset).mem, ((fun s : State => { s with dev := ((((s.dev.grant.wr (Reg.DCH_CFG 1) 0x80000400).wr (Reg.DHEAD 1) 1).wr (Reg.DRLEN 1) 16).wr (Reg.DRING_BASE_LO 1) 0x10000), mem := (s.mem.store 0x10000 (([237684487542793012780631851008, 237703830355906846847427149825] : List Word128).flatMap memWord)).store 0x30000 (([396140812571321688100863737856, 475368975085586025694407688192] : List Word128).flatMap memWord) }) State.reset).dev.forcedDue 1⟩).1, (readLists 1 237684487542793012780631851008 237703830355906846847427149825 (dmaRead 1 0x10000 32 ⟨((fun s : State => { s with dev := ((((s.dev.grant.wr (Reg.DCH_CFG 1) 0x80000400).wr (Reg.DHEAD 1) 1).wr (Reg.DRLEN 1) 16).wr (Reg.DRING_BASE_LO 1) 0x10000), mem := (s.mem.store 0x10000 (([237684487542793012780631851008, 237703830355906846847427149825] : List Word128).flatMap memWord)).store 0x30000 (([396140812571321688100863737856, 475368975085586025694407688192] : List Word128).flatMap memWord) }) State.reset).mem, ((fun s : State => { s with dev := ((((s.dev.grant.wr (Reg.DCH_CFG 1) 0x80000400).wr (Reg.DHEAD 1) 1).wr (Reg.DRLEN 1) 16).wr (Reg.DRING_BASE_LO 1) 0x10000), mem := (s.mem.store 0x10000 (([237684487542793012780631851008, 237703830355906846847427149825] : List Word128).flatMap memWord)).store 0x30000 (([396140812571321688100863737856, 475368975085586025694407688192] : List Word128).flatMap memWord) }) State.reset).dev.forcedDue 1⟩).1).1, (([237684487542793012780631851008, 237703830355906846847427149825] : List Word128).flatMap memWord), [], [], 0x10, ⟨rfl, by decide +kernel, by decide +kernel, by decide +kernel⟩⟩,
   ⟨from_ fun d => d.grant.setRun 1 { idx := 0, desc := [0, 0], src := [(0x50000, 32)], dst := [(0x60000, 32)] }, 1, { idx := 0, desc := [0, 0], src := [(0x50000, 32)], dst := [(0x60000, 32)] }, 0x50000, 32, 0x60000, 32, by decide +kernel⟩,
   ⟨from_ fun d => (d.grant.setRun 1 { idx := 0, desc := [0, 0], src := [(0x50000, 32)], dst := [(0x60000, 32)], result := some 0 }).wr (Reg.DCPL_BASE_LO 1) 0x20000 |>.wr (Reg.DCH_CFG 1) 0x80000400, 1, { idx := 0, desc := [0, 0], src := [(0x50000, 32)], dst := [(0x60000, 32)], result := some 0 }, 0, by decide +kernel⟩,
   ⟨from_ fun d => ((d.clock tenSeconds).setRun 1 { idx := 0, desc := [0, 0], src := [(0x50000, 32)], dst := [(0x60000, 32)], doms := [9] }).onPw fun x => { x with pdAt := [(9, some 0)] }, 1, { idx := 0, desc := [0, 0], src := [(0x50000, 32)], dst := [(0x60000, 32)], doms := [9] }, 9, 0, by decide +kernel⟩,
   ⟨State.reset, 3, 1, by decide +kernel⟩,
   ⟨from_ fun d => d.grant.setRun 1 { idx := 0, desc := [0, 0], src := [(0x50000, 32)], dst := [(0x60000, 32)] }, 3, 1, { idx := 0, desc := [0, 0], src := [(0x50000, 32)], dst := [(0x60000, 32)] }, 0x50000, 32, 0x60000, 32, by decide +kernel⟩,
   ⟨State.reset, 3, by decide +kernel⟩,
   ⟨State.reset, 3, 1, 16, by decide +kernel⟩,
   ⟨from_ fun d => d.wr (Reg.DRLEN_PEND 1) 0x80000010, 1, by decide +kernel⟩,
   ⟨from_ fun d => (d).armedAt 3 Reg.DRLEN_FORCE_ARM 0x4000010, 3, 0xfbffffef, 0x4000010, by decide +kernel⟩,
   ⟨State.reset, 3, 1, by decide +kernel⟩⟩

theorem witness_EventDelivery :
    (∃ (s : State) (i : Ini) (data : Word), s.reaches i Reg.EV_RAISE .write = true ∧ data.toNat < 1024)
    ∧ (∃ (s : State) (i : Ini) (data : Word), s.reaches i Reg.EV_RAISE .write = true ∧ 1024 ≤ data.toNat)
    ∧ (∃ (s : State) (n : Fin 1536) (q : Nat) (l : List (Nat × Nat)), takeRaise n s.dev.ev.toCores = some (q, l))
    ∧ (∃ (s : State) (n : Fin 1536) (q : Nat) (l : List (Nat × Nat)), takeRaise n s.dev.ev.toEngines = some (q, l))
    ∧ (∃ (s : State) (i : Ini) (k : Fin 16) (n : Nat), s.reaches i (Reg.CLAIM k) .read = true ∧ s.dev.best k = some n)
    ∧ (∃ (s : State) (i : Ini) (k : Fin 16), s.reaches i (Reg.CLAIM k) .read = true ∧ s.dev.best k = none)
    ∧ (∃ (s : State) (i : Ini) (n : Nat), s.reaches i Reg.EVC_CMD .write = true ∧ n < 1536)
    ∧ (∃ (s : State) (i : Ini) (n : Fin 1536), s.reaches i (Reg.EV_CFG n) .write = true)
    ∧ (∃ (s : State) (i : Ini) (k : Fin 64), s.reaches i Reg.SUMP_CMD .write = true ∧ s.dev.on (Reg.REC_ROOT k) 31 = true)
    ∧ (∃ (s : State) (i : Ini), s.reaches i Reg.SUMP_CMD .write = true) :=
  ⟨⟨State.reset, 3, 5, by decide +kernel⟩,
   ⟨State.reset, 3, 2000, by decide +kernel⟩,
   ⟨from_ fun d => { d with ev := { d.ev with toCores := [(1, 7)] } }, 1, 7, [], by decide +kernel⟩,
   ⟨from_ fun d => { d with ev := { d.ev with toEngines := [(1, 7)] } }, 1, 7, [], by decide +kernel⟩,
   ⟨from_ fun d => ((d.wr (Reg.EV_PEND 0) 2).wr (Reg.EV_CFG 1) 0x80080005).wr (Reg.THRESH 1) 0, 3, 1, 1, by decide +kernel⟩,
   ⟨State.reset, 3, 1, by decide +kernel⟩,
   ⟨State.reset, 3, 0, by decide +kernel⟩,
   ⟨State.reset, 3, 1, by decide +kernel⟩,
   ⟨from_ fun d => d.wr (Reg.REC_ROOT 1) 0x80000005, 3, 1, by decide +kernel⟩,
   ⟨State.reset, 3, by decide +kernel⟩⟩

theorem witness_SumpReports :
    (∃ (s : State) (r : Report) (i : Nat), nextReport s.dev.sump.reports = some r ∧ s.dev.openSlot r.root = some i ∧ r.port < 25)
    ∧ (∃ (s : State) (r : Report) (i : Nat), nextReport s.dev.sump.reports = some r ∧ s.dev.openSlot r.root = none ∧ s.dev.freeSlot = some i)
    ∧ (∃ (s : State) (r : Report), nextReport s.dev.sump.reports = some r ∧ s.dev.openSlot r.root = none ∧ s.dev.freeSlot = none) :=
  ⟨⟨from_ fun d => (fun d : Dev => { d with sump := { d.sump with reports := [⟨0, 1, 5, 0x0E⟩] } }) (d.wr (Reg.REC_ROOT 1) 0x80000005), ⟨0, 1, 5, 0x0E⟩, 1, by decide +kernel⟩,
   ⟨from_ fun d => (fun d : Dev => { d with sump := { d.sump with reports := [⟨0, 1, 5, 0x0E⟩] } }) (d), ⟨0, 1, 5, 0x0E⟩, 0, by decide +kernel⟩,
   ⟨from_ fun d => (fun d : Dev => { d with sump := { d.sump with reports := [⟨0, 1, 5, 0x0E⟩] } }) ((List.range 64).foldl (fun d k => d.wr (Reg.REC_ROOT k) 0x80000007) d), ⟨0, 1, 5, 0x0E⟩, by decide +kernel⟩⟩

theorem witness_KeysAndFuses :
    (∃ (s : State) (i : Ini) (data : Word) (v : Word) (m : Nat), s.fires i Reg.KEY_REVOKE_FIRE data v = true ∧ m < 4 ∧ s.dev.on Reg.KEY_SLOTS m = true ∧ s.dev.on Reg.KEY_SLOTS (4 + m) = false ∧ bit v m = false)
    ∧ (∃ (s : State) (i : Ini) (data : Word) (v : Word), s.fires i Reg.KEY_REVOKE_FIRE data v = true ∧ (∀ k, k < 4 → s.dev.on Reg.KEY_SLOTS k = true → s.dev.on Reg.KEY_SLOTS (4 + k) = true ∨ bit v k = true))
    ∧ (∃ (s : State) (i : Ini) (data : Word) (v : Word), s.fires i Reg.RB_ADV_FIRE data v = true ∧ s.dev.f (Reg.RB_CTR (fld v 8 6)) 0 6 < fld v 0 6 ∧ s.dev.trust.prog = [] ∧ (∀ k, k < 63 → s.dev.otp (rbItem (fld v 8 6) k) = {}))
    ∧ (∃ (s : State) (i : Ini) (data : Word) (v : Word), s.fires i Reg.RB_ADV_FIRE data v = true ∧ fld v 0 6 < s.dev.f (Reg.RB_CTR (fld v 8 6)) 0 6)
    ∧ (∃ (s : State) (k : Nat) (fin : Bool) (l : List (Nat × Bool)), s.dev.trust.prog = (k, fin) :: l ∧ (s.dev.otp k).open_ = true)
    ∧ (∃ (s : State) (k : Nat) (fin : Bool) (l : List (Nat × Bool)), s.dev.trust.prog = (k, fin) :: l ∧ s.dev.otp k = {})
    ∧ (∃ (s : State) (i : Ini) (data : Word) (v : Word), s.fires i Reg.ID_KEY_FIRE data v = true ∧ fld v 0 2 = 1 ∧ s.dev.on Reg.ID_STATE 31 = false ∧ s.dev.on Reg.ID_STATE 30 = false)
    ∧ (∃ (s : State) (i : Ini) (data : Word) (v : Word), s.fires i Reg.ID_KEY_FIRE data v = true ∧ fld v 0 2 = 1 ∧ (s.dev.on Reg.ID_STATE 31 = true ∨ s.dev.on Reg.ID_STATE 30 = true))
    ∧ (∃ (s : State), s.dev.on Reg.ID_STATE 29 = true)
    ∧ (∃ (s : State) (i : Ini) (data : Word) (v : Word), s.fires i Reg.ID_KEY_FIRE data v = true ∧ fld v 0 2 = 2 ∧ s.dev.on Reg.ID_STATE 30 = false)
    ∧ (∃ (s : State) (i : Ini) (data : Word), s.fires i Reg.JTAG_LOCK_FIRE data 1 = true ∧ s.dev.on Reg.ID_STATE 28 = false)
    ∧ (∃ (s : State) (i : Ini) (data : Word) (v : Word), s.fires i Reg.JTAG_LOCK_FIRE data v = true ∧ v ≠ 1) :=
  ⟨⟨from_ fun d => (d.wr Reg.KEY_SLOTS 1).armedAt 3 Reg.KEY_REVOKE_ARM 0x2, 3, 0xfffffffd, 0x2, 0, by decide +kernel⟩,
   ⟨from_ fun d => (d.wr Reg.KEY_SLOTS 1).armedAt 3 Reg.KEY_REVOKE_ARM 0x1, 3, 0xfffffffe, 0x1, by decide +kernel⟩,
   ⟨from_ fun d => (d).armedAt 3 Reg.RB_ADV_ARM 0x1, 3, 0xfffffffe, 0x1, by decide +kernel⟩,
   ⟨from_ fun d => (d.wr (Reg.RB_CTR 0) 5).armedAt 3 Reg.RB_ADV_ARM 0x2, 3, 0xfffffffd, 0x2, by decide +kernel⟩,
   ⟨from_ fun d => d.onTrust fun x => { x with prog := [(100, true)] }, 100, true, [], by decide +kernel⟩,
   ⟨from_ fun d => d.onTrust fun x => { x with prog := [(100, true)] }, 100, true, [], by decide +kernel⟩,
   ⟨from_ fun d => (d).armedAt 3 Reg.ID_KEY_ARM 0x1, 3, 0xfffffffe, 0x1, by decide +kernel⟩,
   ⟨from_ fun d => (d.setB Reg.ID_STATE 31).armedAt 3 Reg.ID_KEY_ARM 0x1, 3, 0xfffffffe, 0x1, by decide +kernel⟩,
   ⟨from_ fun d => d.setB Reg.ID_STATE 29, by decide +kernel⟩,
   ⟨from_ fun d => (d).armedAt 3 Reg.ID_KEY_ARM 0x2, 3, 0xfffffffd, 0x2, by decide +kernel⟩,
   ⟨from_ fun d => (d).armedAt 3 Reg.JTAG_LOCK_ARM 0x1, 3, 0xfffffffe, by decide +kernel⟩,
   ⟨from_ fun d => (d).armedAt 3 Reg.JTAG_LOCK_ARM 0x0, 3, 0xffffffff, 0x0, by decide +kernel⟩⟩

theorem witness_AttestationAndEvidence :
    (∃ (s : State) (i : Ini), s.reaches i Reg.ATT_CMD .write = true ∧ s.dev.on Reg.TR_STATUS 0 = false)
    ∧ (∃ (s : State) (i : Ini), s.reaches i Reg.ATT_CMD .write = true ∧ s.dev.on Reg.TR_STATUS 0 = true)
    ∧ (∃ (s : State) (e : Nat) (a : Nat) (ws : List Word128), s.dev.trust.att = some ⟨e, a, some ws⟩ ∧ s.dev.canSign = false)
    ∧ (∃ (s : State) (e : Nat) (a : Nat) (ws : List Word128), s.dev.trust.att = some ⟨e, a, some ws⟩ ∧ s.dev.canSign = true ∧ s.writable 0x1E4 22 a (16 * (ws.length + 8)) = true)
    ∧ (∃ (s : State), bit s.dev.trust.evd.ctrl 31 = true ∧ s.dev.edgeAt s.dev.trust.evd.next ≤ s.dev.now ∧ s.dev.on Reg.EVD_CTRL 31 = true ∧ s.dev.trust.evd.waiting.length < 2)
    ∧ (∃ (s : State), bit s.dev.trust.evd.ctrl 31 = true ∧ s.dev.edgeAt s.dev.trust.evd.next ≤ s.dev.now ∧ s.dev.on Reg.EVD_CTRL 31 = true ∧ 2 ≤ s.dev.trust.evd.waiting.length)
    ∧ (∃ (s : State) (x : EvdSnap) (l : List EvdSnap), s.dev.trust.evd.waiting = x :: l) :=
  ⟨⟨State.reset, 3, by decide +kernel⟩,
   ⟨from_ fun d => d.setB Reg.TR_STATUS 0, 3, by decide +kernel⟩,
   ⟨from_ fun d => d.onTrust fun x => { x with att := some ⟨0, 0x70000, some [1, 2]⟩ }, 0, 0x70000, [1, 2], by decide +kernel⟩,
   ⟨from_ fun d => (d.grant.setB Reg.ID_STATE 31).onTrust fun x => { x with att := some ⟨0, 0x70000, some [1, 2]⟩, priv := [9] }, 0, 0x70000, [1, 2], by decide +kernel⟩,
   ⟨from_ fun d => ((d.setB Reg.EVD_CTRL 31).onTrust fun x => { x with evd := { x.evd with ctrl := 0x80000000 } }), by decide +kernel⟩,
   ⟨from_ fun d => ((d.setB Reg.EVD_CTRL 31).onTrust fun x => { x with evd := { x.evd with ctrl := 0x80000000, waiting := [⟨0, 0, 0, []⟩, ⟨0, 0, 0, []⟩] } }), by decide +kernel⟩,
   ⟨from_ fun d => ((d.setB Reg.EVD_CTRL 31).onTrust fun x => { x with evd := { x.evd with waiting := [⟨0, 0, 0, []⟩] } }), ⟨0, 0, 0, []⟩, [], by decide +kernel⟩⟩

theorem witness_PowerDomains :
    (∃ (s : State) (i : Ini) (m : Fin 32), s.reaches i Reg.PD_REQ .write = true ∧ 3 ≤ m.val ∧ m.val ≤ 21 ∧ s.dev.on Reg.PD_REQ m = true ∧ s.dev.on Reg.PD_STATE m = true ∧ s.dev.domainUsed m = false ∧ s.dev.cw.groups = [])
    ∧ (∃ (s : State) (i : Ini) (m : Fin 32), s.reaches i Reg.PD_REQ .write = true ∧ 3 ≤ m.val ∧ m.val ≤ 21 ∧ s.dev.on Reg.PD_REQ m = true ∧ s.dev.on Reg.PD_STATE m = true ∧ s.dev.domainUsed m = true)
    ∧ (∃ (s : State) (i : Ini) (m : Fin 32), s.reaches i Reg.PD_REQ .write = true ∧ (m.val < 3 ∨ 21 < m.val))
    ∧ (∃ (s : State) (i : Ini) (m : Fin 32), s.reaches i Reg.PD_REQ .write = true ∧ 3 ≤ m.val ∧ m.val ≤ 21 ∧ s.dev.on Reg.PD_REQ m = false ∧ s.dev.on Reg.PD_STATE m = false)
    ∧ (∃ (s : State) (i : Ini) (m : Fin 32), s.reaches i Reg.PD_REQ .write = true ∧ 3 ≤ m.val ∧ m.val ≤ 21 ∧ s.dev.on Reg.PD_REQ m = false ∧ s.dev.on Reg.PD_STATE m = true ∧ s.dev.pdDeferred m = true)
    ∧ (∃ (s : State) (m : Fin 32), s.dev.pdPending m = true ∧ s.dev.pdDeferred m = false ∧ s.dev.on Reg.PD_STATE m = true ∧ s.dev.on Reg.PD_REQ m = false)
    ∧ (∃ (s : State) (m : Fin 32), s.dev.pdPending m = true ∧ s.dev.pdDeferred m = false ∧ s.dev.on Reg.PD_STATE m = true ∧ s.dev.on Reg.PD_REQ m = true)
    ∧ (∃ (s : State) (m : Fin 32), 3 ≤ m.val ∧ m.val ≤ 8 ∧ s.dev.on Reg.PD_STATE m = false ∧ s.dev.on Reg.PD_PEND m = true ∧ s.dev.on Reg.PD_REQ m = false ∧ s.dev.cw.groups = [])
    ∧ (∃ (s : State) (m : Fin 32), 3 ≤ m.val ∧ m.val ≤ 21 ∧ s.dev.on Reg.PD_STATE m = false ∧ s.dev.on Reg.PD_PEND m = true ∧ s.dev.on Reg.PD_REQ m = true)
    ∧ (∃ (s : State) (c : Fin 8), s.dev.clSpare c < 17 ∧ s.dev.migrant c = none)
    ∧ (∃ (s : State) (i : Ini), s.reaches i Reg.XSPI_CMD .write = true) :=
  ⟨⟨from_ fun d => (d.setB Reg.PD_REQ 9).setB Reg.PD_STATE 9, 3, 9, by decide +kernel⟩,
   ⟨from_ fun d => ((((d.setB Reg.PD_REQ 9).setB Reg.PD_STATE 9 |>.inForce 48 [0, 0, 0, 0, 0x80000000000000000000000000000000]).inForce 1 [10633823966279326983230456482242756608])), 3, 9, by decide +kernel⟩,
   ⟨State.reset, 3, 1, by decide +kernel⟩,
   ⟨from_ fun d => (d.clrB Reg.PD_REQ 9).clrB Reg.PD_STATE 9, 3, 9, by decide +kernel⟩,
   ⟨from_ fun d => ((d.clrB Reg.PD_REQ 9).setB Reg.PD_STATE 9).setRun 1 { idx := 0, desc := [0, 0], src := [(0x50000, 32)], dst := [(0x60000, 32)], doms := [9] }, 3, 9, by decide +kernel⟩,
   ⟨from_ fun d => ((d.clrB Reg.PD_REQ 9).setB Reg.PD_STATE 9).onPw fun x => { x with pdAt := [(9, some 0)] }, 9, by decide +kernel⟩,
   ⟨from_ fun d => ((d.setB Reg.PD_REQ 9).setB Reg.PD_STATE 9).onPw fun x => { x with pdAt := [(9, some 0)] }, 9, by decide +kernel⟩,
   ⟨from_ fun d => ((d.clrB Reg.PD_REQ 4).clrB Reg.PD_STATE 4).setB Reg.PD_PEND 4, 4, by decide +kernel⟩,
   ⟨from_ fun d => ((d.setB Reg.PD_REQ 9).clrB Reg.PD_STATE 9).setB Reg.PD_PEND 9, 9, by decide +kernel⟩,
   ⟨State.reset, 1, by decide +kernel⟩,
   ⟨State.reset, 3, by decide +kernel⟩⟩

theorem witness_ResetsAndBoot :
    (∃ (s : State), s.dev.pw.reset = none)
    ∧ (∃ (s : State), s.dev.pw.reset = none)
    ∧ (∃ (s : State) (l : Nat), s.dev.pw.reset = some (l, 0) ∧ s.dev.pw.trip = false ∧ s.dev.pw.jtag = false)
    ∧ (∃ (s : State), s.dev.pw.reset = none ∧ s.dev.heldInReset = false)
    ∧ (∃ (s : State), s.dev.pw.reset = none ∧ s.dev.pw.trip = false)
    ∧ (∃ (s : State) (l : Nat), s.dev.pw.reset = some (l, 0) ∧ s.dev.pw.por = false ∧ s.dev.pw.jtag = false)
    ∧ (∃ (s : State) (i : Ini) (data : Word), s.fires i Reg.RST_CMD_FIRE data 1 = true ∧ s.dev.pw.reset = none ∧ s.dev.heldInReset = false)
    ∧ (∃ (s : State) (i : Ini) (data : Word), s.fires i Reg.RST_CMD_FIRE data 2 = true ∧ s.dev.pw.reset = none ∧ s.dev.heldInReset = false)
    ∧ (∃ (s : State) (i : Ini) (data : Word) (v : Word), s.fires i Reg.RST_CMD_FIRE data v = true ∧ v ≠ 1 ∧ v ≠ 2)
    ∧ (∃ (s : State) (l : Nat) (readback : Nat), s.dev.pw.reset = some (l, 1) ∧ readback ≤ s.dev.vddBoot + 10 ∧ s.dev.vddBoot ≤ readback + 10)
    ∧ (∃ (s : State) (l : Nat) (readback : Nat), s.dev.pw.reset = some (l, 1) ∧ s.dev.vddBoot + 10 < readback)
    ∧ (∃ (s : State) (l : Nat), s.dev.pw.reset = some (l, 1))
    ∧ (∃ (s : State) (l : Nat), s.dev.pw.reset = some (l, 2))
    ∧ (∃ (s : State) (l : List Byte), s.dev.pw.reset = none ∧ s.dev.f Reg.BOOT_STAGE 28 4 < 3 ∧ l = (if descOk (s.dev.flashBytes 0 64) then s.dev.flashBytes 0 64 else s.dev.flashBytes 0x10000 64))
    ∧ (∃ (s : State), s.dev.pw.reset = none ∧ s.dev.heldInReset = false ∧ s.dev.on Reg.PR_STATUS 0 = true ∧ elapsedNs 0 (s.dev.pw.wdBase + (s.dev.up - s.dev.pw.kick)) (s.dev.f Reg.WDOG_CFG 0 16 * 1000000) = true)
    ∧ (∃ (s : State) (i : Ini) (data : Word), s.reaches i Reg.WDOG_CFG .write = true ∧ s.dev.on Reg.WDOG_CFG 31 = false ∧ bit data 31 = true ∧ fld data 0 16 ≠ 0)
    ∧ (∃ (s : State) (i : Ini), s.reaches i Reg.WDOG_CFG .write = true ∧ s.dev.on Reg.WDOG_CFG 31 = true)
    ∧ (∃ (s : State) (i : Ini), s.reaches i Reg.WDOG_KICK .write = true)
    ∧ (∃ (s : State) (i : Ini) (data : Word), s.reaches i Reg.WDOG_KICK .write = true ∧ data ≠ 0x4B1C)
    ∧ (∃ (s : State) (i : Ini), s.reaches i Reg.CORE_EN .write = true) :=
  ⟨⟨State.reset, by decide +kernel⟩,
   ⟨State.reset, by decide +kernel⟩,
   ⟨from_ fun d => d.onPw fun x => { x with reset := some (1, 0) }, 1, by decide +kernel⟩,
   ⟨State.reset, by decide +kernel⟩,
   ⟨State.reset, by decide +kernel⟩,
   ⟨from_ fun d => d.onPw fun x => { x with reset := some (1, 0) }, 1, by decide +kernel⟩,
   ⟨from_ fun d => (d).armedAt 3 Reg.RST_CMD_ARM 0x1, 3, 0xfffffffe, by decide +kernel⟩,
   ⟨from_ fun d => (d).armedAt 3 Reg.RST_CMD_ARM 0x2, 3, 0xfffffffd, by decide +kernel⟩,
   ⟨from_ fun d => (d).armedAt 3 Reg.RST_CMD_ARM 0x3, 3, 0xfffffffc, 0x3, by decide +kernel⟩,
   ⟨from_ fun d => d.onPw fun x => { x with reset := some (1, 1) }, 1, 750, by decide +kernel⟩,
   ⟨from_ fun d => d.onPw fun x => { x with reset := some (1, 1) }, 1, 900, by decide +kernel⟩,
   ⟨from_ fun d => d.onPw fun x => { x with reset := some (1, 1) }, 1, by decide +kernel⟩,
   ⟨from_ fun d => d.onPw fun x => { x with reset := some (1, 2) }, 1, by decide +kernel⟩,
   ⟨State.reset, (if descOk ((State.reset).dev.flashBytes 0 64) then (State.reset).dev.flashBytes 0 64 else (State.reset).dev.flashBytes 0x10000 64), ⟨by decide +kernel, by decide +kernel, rfl⟩⟩,
   ⟨from_ fun d => (d.clock (100 * tenSeconds)).setB Reg.PR_STATUS 0, by decide +kernel⟩,
   ⟨State.reset, 3, 0x80000005, by decide +kernel⟩,
   ⟨from_ fun d => d.setB Reg.WDOG_CFG 31, 3, by decide +kernel⟩,
   ⟨State.reset, 3, by decide +kernel⟩,
   ⟨State.reset, 3, 5, by decide +kernel⟩,
   ⟨State.reset, 3, by decide +kernel⟩⟩

theorem witness_JtagPort :
    (∃ (s : State) (l : Nat), s.dev.pw.reset = some (l, 0) ∧ s.dev.pw.por = false ∧ s.dev.pw.trip = false)
    ∧ (∃ (s : State) (c : Instr) (k : Nat), (c, k) ∈ [(Instr.extest, 3), (.extestPulse, 4), (.extestTrain, 5), (.clamp, 6), (.highz, 7)] ∧ s.dev.pw.jtag = false ∧ s.dev.pw.reset = none)
    ∧ (∃ (s : State), s.dev.on Reg.ID_STATE 28 = false ∧ s.dev.pw.reset = none ∧ s.dev.flight 0x2C = none ∧ s.reaches 0x1F0 Reg.RST_CAUSE .read = true)
    ∧ (∃ (s : State), s.dev.on Reg.ID_STATE 28 = false ∧ s.reaches 0x1F0 Reg.CORE_EN .write = true)
    ∧ (∃ (s : State), s.dev.on Reg.ID_STATE 28 = true) :=
  ⟨⟨from_ fun d => d.onPw fun x => { x with reset := some (1, 0) }, 1, by decide +kernel⟩,
   ⟨State.reset, .extest, 3, by decide +kernel⟩,
   ⟨from_ fun d => d.grant, by decide +kernel⟩,
   ⟨from_ fun d => d.grant, by decide +kernel⟩,
   ⟨from_ fun d => d.setB Reg.ID_STATE 28, by decide +kernel⟩⟩

end Sys2Proof
end

section
/-! SUPPORT. Keys of a sparse table, registers as numbers, counts, status events, and the row of the register map that holds a register. -/
namespace Sys2Proof.Machine

/-! ### Keys of a sparse table -/

/-- A write lists its own key exactly when the value is not the default. -/
theorem Tab.any_key_set_self {α : Type} [DecidableEq α] (dflt : Nat → α) (t : Tab α) (k : Nat) (x : α) :
    (t.set dflt k x).any (fun e => e.1 == k) = decide (x ≠ dflt k) := by
  have any_insert : (t.insert k x).any (fun e => e.1 == k) = true := by
    induction t with
    | nil => simp [Tab.insert]
    | cons e r ih => unfold Tab.insert; split_ifs <;> simp [ih]
  unfold Tab.set
  split
  next h => simp [Tab.erase, h]
  next h => simp [any_insert, h]

/-- A write lists no other key and takes none away. -/
theorem Tab.any_key_set_ne {α : Type} [DecidableEq α] (dflt : Nat → α) (t : Tab α) {j k : Nat} (x : α) (h : j ≠ k) :
    (t.set dflt k x).any (fun e => e.1 == j) = t.any (fun e => e.1 == j) := by
  have hkj : (k == j) = false := by simpa using h.symm
  unfold Tab.set
  split
  · induction t with
    | nil => rfl
    | cons e r ih =>
      unfold Tab.erase at ih ⊢
      by_cases he : e.1 = k
      · simpa [he, hkj] using ih
      · simp [he, ih]
  · induction t with
    | nil => simp [Tab.insert, hkj]
    | cons e r ih =>
      unfold Tab.insert
      split_ifs with he
      · simp [he, hkj]
      · simp [hkj]
      · simp [ih]

/-! ### Registers as numbers, counts and status bits -/

theorem Dev.n_congr {d e : Dev} {j : Nat} (h : e.rd j = d.rd j) : e.n j = d.n j := congrArg BitVec.toNat h

theorem Dev.on_congr {d e : Dev} {j : Nat} (m : Nat) (h : e.rd j = d.rd j) : e.on j m = d.on j m := congrArg (bit · m) h

theorem Dev.rd_wrN_ne (d : Dev) {j k : Nat} (v : Nat) (h : j ≠ k) : (d.wrN k v).rd j = d.rd j := Dev.rd_wr_ne d _ h

theorem Dev.n_wrN_self (d : Dev) (k v : Nat) : (d.wrN k v).n k = v % 2 ^ 32 := by simp [Dev.n, Dev.rd_wrN]

theorem Dev.n_add_self (d : Dev) (k v : Nat) : (d.add k v).n k = (d.n k + v) % 2 ^ 32 := Dev.n_wrN_self d k _

theorem Dev.rd_addSat_ne (d : Dev) {j k : Nat} (v : Nat) (h : j ≠ k) : (d.addSat k v).rd j = d.rd j := Dev.rd_wrN_ne d _ h

/-- A saturating count stops at its largest value. -/
theorem Dev.n_addSat_self (d : Dev) (k v : Nat) : (d.addSat k v).n k = min (d.n k + v) (2 ^ 32 - 1) := by
  have hlt : min (d.n k + v) (2 ^ 32 - 1) < 2 ^ 32 := by omega
  exact (Dev.n_wrN_self d k _).trans (Nat.mod_eq_of_lt hlt)

theorem Dev.rd_wr64_ne (d : Dev) {j lo hi : Nat} (v : Nat) (hlo : j ≠ lo) (hhi : j ≠ hi) : (d.wr64 lo hi v).rd j = d.rd j :=
  (Dev.rd_wrN_ne _ _ hhi).trans (Dev.rd_wrN_ne _ _ hlo)

/-- Writing zero to a list of registers clears these and no others. -/
theorem Dev.rd_foldl_wrN_zero (l : List Nat) (d : Dev) (j : Nat) :
    (l.foldl (fun d k => d.wrN k 0) d).rd j = if j ∈ l then 0 else d.rd j := by
  induction l generalizing d with
  | nil => rfl
  | cons k l ih =>
    rw [List.foldl_cons, ih, Dev.rd_wrN]
    by_cases hl : j ∈ l <;> by_cases hk : j = k <;> simp [hl, hk]

/-- Writing a list of registers leaves the others alone. -/
theorem Dev.rd_foldl_wrN_ne (key val : Nat → Nat) (l : List Nat) (d : Dev) {j : Nat} (h : ∀ k ∈ l, j ≠ key k) :
    (l.foldl (fun d k => d.wrN (key k) (val k)) d).rd j = d.rd j := by
  induction l generalizing d with
  | nil => rfl
  | cons k l ih =>
    rw [List.foldl_cons, ih _ fun i hi => h i (List.mem_cons_of_mem _ hi)]
    exact Dev.rd_wrN_ne d _ (h k List.mem_cons_self)

/-- SEQ of a status word stands above its status bits. -/
theorem bit_seqNext (w : Word) {m : Nat} (hm : m < 16) : bit (seqNext w) m = bit w m := by
  unfold seqNext
  rw [bit_put _ _ _ _ _ (by decide)]
  exact if_neg (by omega)

/-- An event leaves the status bits of its block as they are. -/
theorem Dev.on_event (d : Dev) (st n : Nat) {m : Nat} (hm : m < 16) (h : st ≠ Reg.EV_SEQ n) : (d.event st n).on st m = d.on st m := by
  have hrd : (d.event st n).rd st = seqNext (d.rd st) := by
    rw [Dev.event, Dev.rd_raise, if_neg h]
    exact Dev.rd_wr_self d st _
  rw [Dev.on, hrd]
  exact bit_seqNext _ hm

/-- A status event sets its bit and leaves the other status bits as they are. -/
theorem Dev.on_sqEvent (d : Dev) (st b n : Nat) {m : Nat} (hb : b < 16) (hm : m < 16) (h : st ≠ Reg.EV_SEQ n) :
    (d.sqEvent st b n).on st m = (d.on st m || decide (m = b)) := by
  unfold Dev.sqEvent
  split
  next hset => by_cases hmb : m = b <;> simp [hmb, hset]
  next => rw [Dev.on_event _ st n hm h, Dev.on_setB d st st m b (by omega)]; simp

theorem Dev.rd_sqEvent_ne (d : Dev) (b : Nat) {st n j : Nat} (hst : j ≠ st) (hev : j ≠ Reg.EV_SEQ n) :
    (d.sqEvent st b n).rd j = d.rd j := by
  unfold Dev.sqEvent
  split
  next => rfl
  next => exact (Dev.rd_event_ne _ st n hst hev).trans (Dev.rd_setB_ne d b hst)

/-! ### The row of a register -/

/-- Where a row of the register map ends: its registers all stand below. -/
def Desc.stop (d : Desc) : Nat := d.off + (d.n - 1) * d.s + d.m * d.t

/-- An offset past the end of a row is none of its registers. -/
theorem Desc.idx_of_stop_le (d : Desc) {off : Nat} (ht : 0 < d.t) (h : d.stop ≤ off) : d.idx off = none := by
  have hoff : ¬ off < d.off := by unfold Desc.stop at h; omega
  simp only [Desc.idx, if_neg hoff]
  generalize hi : (if d.n = 1 then 0 else (off - d.off) / d.s) = i
  have hle : i * d.s ≤ off - d.off := by
    subst hi
    split
    · omega
    · exact Nat.div_mul_le_self _ _
  refine if_neg fun ⟨hn, hm, hj⟩ => ?_
  have hrow : i * d.s ≤ (d.n - 1) * d.s := Nat.mul_le_mul_right _ (by omega)
  have hcol : (off - d.off - i * d.s) / d.t * d.t < d.m * d.t := Nat.mul_lt_mul_of_pos_right hm ht
  unfold Desc.stop at h
  omega

/-- The registers of a row stand at its strides. -/
theorem Desc.idx_at (d : Desc) {i j : Nat} (ht : 0 < d.t) (hfit : d.m * d.t ≤ d.s) (hi : i < d.n) (hj : j < d.m) :
    d.idx (d.off + i * d.s + j * d.t) = some (i, j) := by
  have hjt : j * d.t < d.s := lt_of_lt_of_le (Nat.mul_lt_mul_of_pos_right hj ht) hfit
  have hoff : ¬ d.off + i * d.s + j * d.t < d.off := by omega
  have hsub : d.off + i * d.s + j * d.t - d.off = j * d.t + i * d.s := by omega
  have hrow : (if d.n = 1 then 0 else (j * d.t + i * d.s) / d.s) = i := by
    split
    · omega
    · rw [Nat.add_mul_div_right _ _ (by omega), Nat.div_eq_of_lt hjt, Nat.zero_add]
  simp only [Desc.idx, if_neg hoff, hsub, hrow, Nat.add_sub_cancel, Nat.mul_div_cancel _ ht, hi, hj, and_self, if_true]

theorem findDesc_append_of_past (l r : List Desc) {off : Nat} (h : ∀ d ∈ l, 0 < d.t ∧ d.stop ≤ off) : findDesc (l ++ r) off = findDesc r off := by
  induction l with
  | nil => rfl
  | cons d l ih =>
    obtain ⟨ht, hstop⟩ := h d List.mem_cons_self
    simp only [List.cons_append, findDesc, d.idx_of_stop_le ht hstop]
    exact ih fun e he => h e (List.mem_cons_of_mem _ he)

/-- A register resets to the value its row gives, where the rows before it in its block end before it begins. -/
theorem regReset_of_row {b : Nat} {l r : List Desc} {d : Desc} (hb : blockDescs b = l ++ d :: r)
    (hl : ∀ e ∈ l, 0 < e.t ∧ e.stop ≤ d.off) (ht : 0 < d.t) (hfit : d.m * d.t ≤ d.s) (hend : d.stop ≤ 0x10000)
    {i j : Nat} (hi : i < d.n) (hj : j < d.m) :
    regReset (b * 0x10000 + (d.off + i * d.s + j * d.t)) = BitVec.ofNat 32 (d.rst b i j) := by
  have hrow : i * d.s ≤ (d.n - 1) * d.s := Nat.mul_le_mul_right _ (by omega)
  have hcol : j * d.t < d.m * d.t := Nat.mul_lt_mul_of_pos_right hj ht
  have hlt : d.off + i * d.s + j * d.t < 0x10000 := by unfold Desc.stop at hend; omega
  have hblock : keyBlock (b * 0x10000 + (d.off + i * d.s + j * d.t)) = b := by unfold keyBlock; omega
  have hoff : keyOff (b * 0x10000 + (d.off + i * d.s + j * d.t)) = d.off + i * d.s + j * d.t := by unfold keyOff; omega
  have hfind : findDesc (blockDescs b) (d.off + i * d.s + j * d.t) = some (d, i, j) := by
    rw [hb, findDesc_append_of_past l _ fun e he => ⟨(hl e he).1, (hl e he).2.trans (by omega)⟩]
    simp only [findDesc, d.idx_at ht hfit hi hj]
  simp only [regReset, keyDesc, hblock, hoff, hfind]

end Sys2Proof.Machine
end

section
/-! SUPPORT. What reset leaves, and the proof of its statement. -/
namespace Sys2Proof.Machine

/-! ### What reset leaves -/

/-- The sequence number of every event resets to 0 (R503, R521). -/
theorem regReset_evSeq {n : Nat} (hn : n < 1536) : regReset (Reg.EV_SEQ n) = 0 := by
  have h := regReset_of_row (b := 0x28) (l := descs_evc.take 8) (r := descs_evc.drop 9) (d := descs_evc[8]) rfl
    (by decide) (by decide) (by decide) (by decide) (i := n) (j := 0) hn (by decide)
  have hkey : 0x28 * 0x10000 + (0x3000 + n * 4 + 0 * 4) = Reg.EV_SEQ n := by unfold Reg.EV_SEQ; omega
  exact hkey ▸ h

/-- Every event is disabled at reset (R500, R521). -/
theorem regReset_evCfg {n : Nat} (hn : n < 1536) : regReset (Reg.EV_CFG n) = 0 := by
  have h := regReset_of_row (b := 0x28) (l := descs_evc.take 7) (r := descs_evc.drop 8) (d := descs_evc[7]) rfl
    (by decide) (by decide) (by decide) (by decide) (i := n) (j := 0) hn (by decide)
  have hkey : 0x28 * 0x10000 + (0x1000 + n * 4 + 0 * 4) = Reg.EV_CFG n := by unfold Reg.EV_CFG; omega
  exact hkey ▸ h

/-- Every word of the window table in force resets to 0 (R544, R545). -/
theorem regReset_winForce {e w : Nat} (he : e < 512) (hw : w < 4) : regReset (Reg.WIN_FORCE e w) = 0 := by
  have h := regReset_of_row (b := 0x2A) (l := descs_win.take 12) (r := descs_win.drop 13) (d := descs_win[12]) rfl
    (by decide) (by decide) (by decide) (by decide) (i := e) (j := w) he hw
  have hkey : 0x2A * 0x10000 + (0x3000 + e * 16 + w * 4) = Reg.WIN_FORCE e w := by unfold Reg.WIN_FORCE; omega
  exact hkey ▸ h

end Sys2Proof.Machine

namespace Sys2Proof
open Sys2Proof.Machine

/-- Settles O4: the tables of the reset state are empty, and each register holds the value of its row. -/
theorem resetState : Obligations.ResetState := by
  unfold Obligations.ResetState
  refine ⟨rfl, rfl, rfl, ?derated, rfl, ?todUnset, ?lanes, ?spares, fun _ => rfl, fun _ => rfl, ?rings, fun n => ⟨?seq, ?cfg⟩, fun e w => ?windows, ?domains⟩
  case derated | todUnset | lanes | spares | rings | domains => decide
  case seq => exact congrArg BitVec.toNat (regReset_evSeq n.isLt)
  case cfg => exact congrArg BitVec.toNat (regReset_evCfg n.isLt)
  case windows => exact regReset_winForce e.isLt w.isLt

end Sys2Proof
end

section
/-! SUPPORT. The commands of the stream-out ports, and the proof of the statement about them. -/
namespace Sys2Proof.Machine

/-! ### What stream-out does not see -/

/-- The stream-out ports and the setups are the same: what a flow knows of itself has not changed. -/
def Dev.SameFlows (d e : Dev) : Prop := e.so = d.so ∧ e.cw = d.cw

theorem Dev.SameFlows.refl (d : Dev) : d.SameFlows d := ⟨rfl, rfl⟩

theorem Dev.SameFlows.trans {a b c : Dev} (hab : a.SameFlows b) (hbc : b.SameFlows c) : a.SameFlows c :=
  ⟨hbc.1.trans hab.1, hbc.2.trans hab.2⟩

theorem Dev.sameFlows_wrN (d : Dev) (k v : Nat) : d.SameFlows (d.wrN k v) := ⟨rfl, rfl⟩

theorem Dev.sameFlows_wr64 (d : Dev) (lo hi v : Nat) : d.SameFlows (d.wr64 lo hi v) := ⟨rfl, rfl⟩

theorem Dev.sameFlows_sqEvent (d : Dev) (st b n : Nat) : d.SameFlows (d.sqEvent st b n) := by
  unfold Dev.sqEvent
  split
  · exact .refl d
  · exact ⟨rfl, rfl⟩

theorem Dev.sameFlows_putB (d : Dev) (k i : Nat) (b : Bool) : d.SameFlows (d.putB k i b) := by
  cases b <;> exact ⟨rfl, rfl⟩

theorem Dev.sameFlows_foldl_wrN (key val : Nat → Nat) (l : List Nat) (d : Dev) :
    d.SameFlows (l.foldl (fun d k => d.wrN (key k) (val k)) d) := by
  induction l generalizing d with
  | nil => exact .refl d
  | cons k l ih => exact (d.sameFlows_wrN _ _).trans (ih _)

theorem Dev.SameFlows.soSt {d e : Dev} (h : d.SameFlows e) (p : Nat) : e.soSt p = d.soSt p := by
  rw [Dev.soSt, Dev.soSt, h.1]

theorem Dev.SameFlows.flow {d e : Dev} (h : d.SameFlows e) (p f : Nat) : e.flow p f = d.flow p f := by
  rw [Dev.flow, Dev.flow, h.soSt]

theorem Dev.SameFlows.isPaused {d e : Dev} (h : d.SameFlows e) (p k : Nat) : e.isPaused p k = d.isPaused p k := by
  rw [Dev.isPaused, Dev.isPaused, h.soSt]

theorem Dev.SameFlows.force {d e : Dev} (h : d.SameFlows e) (t : Nat) : e.force t = d.force t := by
  unfold Dev.force Dev.slotIn Dev.slot
  rw [h.2]

theorem Dev.SameFlows.flowSwitchAt {d e : Dev} (h : d.SameFlows e) (p : Nat) : e.flowSwitchAt p = d.flowSwitchAt p := by
  unfold Dev.flowSwitchAt Dev.dueGroup
  rw [h.2]

/-! ### A port and its flows read back -/

@[simp] theorem Dev.soSt_setSo (d : Dev) (q p : Nat) (x : SoSt) : (d.setSo p x).soSt q = if q = p then x else d.soSt q :=
  Tab.get_set (α := SoSt) _ _ q p x

/-- A port whose flows stay leaves each flow as it was. -/
theorem Dev.flow_setSo_of_flows (d : Dev) (p f : Nat) (x : SoSt) (h : x.flows = (d.soSt p).flows) : (d.setSo p x).flow p f = d.flow p f := by
  simp [Dev.flow, h]

@[simp] theorem Dev.flow_setFlow_self (d : Dev) (p f : Nat) (x : FlowSt) : (d.setFlow p f x).flow p f = x := by
  simp [Dev.flow, Dev.setFlow]

@[simp] theorem Dev.rgn_setRgn (d : Dev) (q r : Nat) (x : Region) : (d.setRgn r x).rgn q = if q = r then x else d.rgn q :=
  Tab.get_set (α := Region) _ _ q r x

/-! ### Pauses (R466) -/

/-- A pause of no quanta releases its priority; any other pauses it. -/
theorem Dev.isPaused_pause_self (d : Dev) (p k q : Nat) : (d.pause p k q).isPaused p k = decide (q ≠ 0) := by
  have hpos : q ≠ 0 → (q * 128 * 2 ^ 64 + 99999999999) / 100000000000 ≠ 0 := by omega
  simp only [Dev.isPaused, Dev.pause, Dev.soSt_setSo, if_true, Tab.any_key_set_self]
  by_cases hq : q = 0
  · simp [hq]
  · have := hpos hq
    simp only [hq, if_false]
    exact decide_eq_decide.mpr ⟨fun _ => hq, fun _ => by omega⟩

theorem Dev.isPaused_pause_ne (d : Dev) (p q : Nat) {j k : Nat} (h : j ≠ k) : (d.pause p k q).isPaused p j = d.isPaused p j := by
  simp only [Dev.isPaused, Dev.pause, Dev.soSt_setSo, if_true, Tab.any_key_set_ne _ _ _ h]

theorem Dev.sameFlows_showPaused (d : Dev) (p : Nat) : d.SameFlows (d.showPaused p) :=
  (d.sameFlows_wrN _ _).trans (Dev.sameFlows_putB _ _ _ _)

theorem Dev.rd_showPaused_ne (d : Dev) {p j : Nat} (hp : j ≠ Reg.PAUSED p) (hs : j ≠ Reg.SO_STATUS p) :
    (d.showPaused p).rd j = d.rd j :=
  (Dev.rd_putB_ne _ _ _ hs).trans (Dev.rd_wrN_ne d _ hp)

/-- A PFC frame concerns the priorities that it and SO_CTRL enable. -/
def Dev.pfcTakes (d : Dev) (p en k : Nat) : Prop := (en >>> k) % 2 = 1 ∧ d.on (Reg.SO_CTRL p) k = true

/-- What a PFC frame does for one priority. -/
def pfcStep (p en : Nat) (timers : List Nat) (d : Dev) (k : Nat) : Dev :=
  if (en >>> k) % 2 = 1 ∧ d.on (Reg.SO_CTRL p) k then d.pause p k (nth timers k 0 % 65536) else d

theorem rd_pfcStep (p en : Nat) (timers : List Nat) (d : Dev) (k j : Nat) : (pfcStep p en timers d k).rd j = d.rd j := by
  unfold pfcStep
  split <;> rfl

theorem pfcTakes_pfcStep (p en : Nat) (timers : List Nat) (d : Dev) (j k : Nat) :
    (pfcStep p en timers d j).pfcTakes p en k ↔ d.pfcTakes p en k := by
  rw [Dev.pfcTakes, Dev.pfcTakes, Dev.on_congr k (rd_pfcStep p en timers d j (Reg.SO_CTRL p))]

theorem isPaused_pfcStep_self_of_takes (p en : Nat) (timers : List Nat) (d : Dev) (k : Nat) (h : d.pfcTakes p en k) :
    (pfcStep p en timers d k).isPaused p k = decide (nth timers k 0 % 65536 ≠ 0) := by
  have hstep : pfcStep p en timers d k = d.pause p k (nth timers k 0 % 65536) := if_pos h
  rw [hstep, Dev.isPaused_pause_self]

theorem isPaused_pfcStep_of_not_takes (p en : Nat) (timers : List Nat) (d : Dev) (j k : Nat) (h : ¬ (j = k ∧ d.pfcTakes p en k)) :
    (pfcStep p en timers d j).isPaused p k = d.isPaused p k := by
  unfold pfcStep
  split
  next htake => exact Dev.isPaused_pause_ne d p _ fun hkj => h ⟨hkj.symm, hkj ▸ htake⟩
  next => rfl

theorem rd_foldl_pfcStep (p en : Nat) (timers : List Nat) (l : List Nat) (d : Dev) (j : Nat) :
    (l.foldl (pfcStep p en timers) d).rd j = d.rd j := by
  induction l generalizing d with
  | nil => rfl
  | cons k l ih => rw [List.foldl_cons, ih, rd_pfcStep]

/-- Priorities that the frame does not take, or that are not gone through, stay as they are. -/
theorem isPaused_foldl_pfcStep_of_not_takes (p en : Nat) (timers : List Nat) (l : List Nat) (d : Dev) (k : Nat)
    (h : ¬ (k ∈ l ∧ d.pfcTakes p en k)) : (l.foldl (pfcStep p en timers) d).isPaused p k = d.isPaused p k := by
  induction l generalizing d with
  | nil => rfl
  | cons j l ih =>
    rw [List.foldl_cons, ih, isPaused_pfcStep_of_not_takes]
    · exact fun ⟨hjk, ht⟩ => h ⟨hjk ▸ List.mem_cons_self, ht⟩
    · rw [pfcTakes_pfcStep]
      exact fun ⟨hk, ht⟩ => h ⟨List.mem_cons_of_mem _ hk, ht⟩

/-- Each priority taken is paused by its own timer: the step of another priority leaves it alone. -/
theorem isPaused_foldl_pfcStep_of_takes (p en : Nat) (timers : List Nat) (l : List Nat) (d : Dev) (k : Nat)
    (hk : k ∈ l) (h : d.pfcTakes p en k) : (l.foldl (pfcStep p en timers) d).isPaused p k = decide (nth timers k 0 % 65536 ≠ 0) := by
  induction l generalizing d with
  | nil => simp at hk
  | cons j l ih =>
    rw [List.foldl_cons]
    by_cases hl : k ∈ l
    · exact ih _ hl ((pfcTakes_pfcStep ..).mpr h)
    · obtain rfl : k = j := (List.mem_cons.mp hk).resolve_right hl
      rw [isPaused_foldl_pfcStep_of_not_takes _ _ _ _ _ _ fun ⟨hmem, _⟩ => hl hmem, isPaused_pfcStep_self_of_takes _ _ _ _ _ h]

/-- The device while a good PFC frame's timers are taken: the frame is counted. -/
theorem pfcFrame_good (p en : Nat) (timers : List Nat) (d : Dev) :
    pfcFrame p true en timers d = ((List.range 8).foldl (pfcStep p en timers) (d.addSat (Reg.RX_PFC p) 1)).showPaused p := rfl

theorem n_rxPfc_pfcFrame_good (p en : Nat) (timers : List Nat) (d : Dev) :
    (pfcFrame p true en timers d).n (Reg.RX_PFC p) = min (d.n (Reg.RX_PFC p) + 1) (2 ^ 32 - 1) := by
  have hp : Reg.RX_PFC p ≠ Reg.PAUSED p := by unfold Reg.RX_PFC Reg.PAUSED; omega
  have hs : Reg.RX_PFC p ≠ Reg.SO_STATUS p := by unfold Reg.RX_PFC Reg.SO_STATUS; omega
  rw [pfcFrame_good, Dev.n_congr (Dev.rd_showPaused_ne _ hp hs), Dev.n_congr (rd_foldl_pfcStep ..), Dev.n_addSat_self]

/-- Counting the frame changes neither what it takes nor what is paused. -/
theorem pfcTakes_addSat_rxPfc (d : Dev) (p en k : Nat) : (d.addSat (Reg.RX_PFC p) 1).pfcTakes p en k ↔ d.pfcTakes p en k := by
  have hc : Reg.SO_CTRL p ≠ Reg.RX_PFC p := by unfold Reg.SO_CTRL Reg.RX_PFC; omega
  rw [Dev.pfcTakes, Dev.pfcTakes, Dev.on_congr k (Dev.rd_addSat_ne d 1 hc)]

theorem isPaused_pfcFrame_of_takes (p en : Nat) (timers : List Nat) (d : Dev) {k : Nat} (hk : k < 8) (h : d.pfcTakes p en k) :
    (pfcFrame p true en timers d).isPaused p k = decide (nth timers k 0 % 65536 ≠ 0) := by
  rw [pfcFrame_good, (Dev.sameFlows_showPaused _ p).isPaused]
  exact isPaused_foldl_pfcStep_of_takes p en timers _ _ k (List.mem_range.mpr hk) ((pfcTakes_addSat_rxPfc d p en k).mpr h)

theorem isPaused_pfcFrame_of_not_takes (p en : Nat) (timers : List Nat) (d : Dev) {k : Nat} (h : ¬ d.pfcTakes p en k) :
    (pfcFrame p true en timers d).isPaused p k = d.isPaused p k := by
  rw [pfcFrame_good, (Dev.sameFlows_showPaused _ p).isPaused]
  exact isPaused_foldl_pfcStep_of_not_takes p en timers _ _ k fun ⟨_, ht⟩ => h ((pfcTakes_addSat_rxPfc d p en k).mp ht)

theorem pfcExpire_of_due (p k : Nat) (d : Dev) (hp : d.isPaused p k = true) (hdue : (d.soSt p).pauses.get (fun _ => 0) k ≤ d.up) :
    pfcExpire p k d = (d.pause p k 0).showPaused p := if_pos ⟨hp, hdue⟩

/-! ### Links (R467) -/

/-- No event's sequence number is a status register of a stream-out port. -/
theorem soStatus_ne_evSeq (p : Fin 2) (n : Nat) : Reg.SO_STATUS p ≠ Reg.EV_SEQ n := by
  unfold Reg.SO_STATUS Reg.EV_SEQ; omega

theorem soLinkDown_of_up (p : Nat) (d : Dev) (h : d.on (Reg.SO_STATUS p) 0 = true) :
    soLinkDown p d = ((d.setSo p { d.soSt p with cut := (d.soSt p).cut || decide (d.up < (d.soSt p).until_) }).clrB (Reg.SO_STATUS p) 0).sqEvent
      (Reg.SO_STATUS p) 13 (1520 + 4 * p) := by
  rw [soLinkDown, h]
  rfl

/-- The device as the link comes up, before a packet that was cut is sent again. -/
def Dev.linkUp (d : Dev) (p : Nat) : Dev := (d.setB (Reg.SO_STATUS p) 0).sqEvent (Reg.SO_STATUS p) 13 (1520 + 4 * p)

theorem Dev.sameFlows_linkUp (d : Dev) (p : Nat) : d.SameFlows (d.linkUp p) := Dev.sameFlows_sqEvent (d.setB (Reg.SO_STATUS p) 0) _ _ _

theorem Dev.on_linkUp (d : Dev) (p : Fin 2) : (d.linkUp p).on (Reg.SO_STATUS p) 0 = true := by
  rw [Dev.linkUp, Dev.on_sqEvent _ _ _ _ (by decide) (by decide) (soStatus_ne_evSeq p _), Dev.on_setB_self _ _ _ (by decide), Bool.true_or]

theorem soLinkUp_of_whole (p : Nat) (d : Dev) (h : d.on (Reg.SO_STATUS p) 0 = false) (hcut : (d.soSt p).cut = false) :
    soLinkUp p d = d.linkUp p := by
  have hcut' : ((d.linkUp p).soSt p).cut = false := by rw [(d.sameFlows_linkUp p).soSt, hcut]
  unfold Dev.linkUp at hcut' ⊢
  simp [soLinkUp, h, hcut']

/-- A packet that was cut is sent again whole: its frame is the same, and the resend is counted. -/
theorem soLinkUp_of_cut (p : Nat) (d : Dev) (h : d.on (Reg.SO_STATUS p) 0 = false) (hcut : (d.soSt p).cut = true) :
    soLinkUp p d = (((d.linkUp p).setSo p { d.soSt p with cut := false, until_ := (d.linkUp p).up + frameTime (d.soSt p).frame.length }).addSat
      (Reg.RESENDS p) 1).sqEvent (Reg.SO_STATUS p) 11 (1522 + 4 * p) := by
  have hso := (d.sameFlows_linkUp p).soSt p
  unfold Dev.linkUp at hso ⊢
  simp [soLinkUp, h, hso, hcut]

/-! ### Packets (R470 to R473) -/

theorem Dev.showFlow_eq (d : Dev) (p : Nat) : d.showFlow p = (List.range 8).foldl
      (fun d' k => d'.wrN (Reg.FLOW_HEAD p k) (nth (digestWords (d.flow p (d.n (Reg.FLOW_SEL p) % 256)).head) k 0))
      (d.wr64 (Reg.FLOW_PKT_LO p) (Reg.FLOW_PKT_HI p) ((d.flow p (d.n (Reg.FLOW_SEL p) % 256)).pkt % 2 ^ 64)) := rfl

theorem Dev.sameFlows_showFlow (d : Dev) (p : Nat) : d.SameFlows (d.showFlow p) := by
  rw [Dev.showFlow_eq]
  exact (d.sameFlows_wr64 _ _ _).trans (Dev.sameFlows_foldl_wrN (Reg.FLOW_HEAD p) _ _ _)

/-- Showing a flow writes its packet number and its chain head and nothing else. -/
theorem Dev.rd_showFlow_ne (d : Dev) {p j : Nat} (hlo : j ≠ Reg.FLOW_PKT_LO p) (hhi : j ≠ Reg.FLOW_PKT_HI p)
    (hhead : ∀ k < 8, j ≠ Reg.FLOW_HEAD p k) : (d.showFlow p).rd j = d.rd j := by
  rw [Dev.showFlow_eq, Dev.rd_foldl_wrN_ne (Reg.FLOW_HEAD p) _ _ _ fun k hk => hhead k (List.mem_range.mp hk),
    Dev.rd_wr64_ne d _ hlo hhi]

/-- The words of an item that the next packet of its flow takes (R470). -/
def Dev.sendWords (d : Dev) (p f : Nat) (i : SoItem) : Nat :=
  min (packetWords (d.force (62 + p)) (flowA (d.force (62 + p)) f)) i.words.length

/-- The next packet of a flow is the last one of an item. -/
def Dev.sendsLast (d : Dev) (p f : Nat) (i : SoItem) : Bool := i.whole && d.sendWords p f i == i.words.length

/-- The payload of a flow's next packet (R471, R472). -/
def Dev.sendPayload (d : Dev) (p f : Nat) (i : SoItem) : List Byte :=
  vitaPacket (d.force (62 + p)) f ((d.flow p f).pkt + 1) (d.flow p f).item i (d.sendWords p f i) (d.sendsLast p f i)

/-- A flow that has sent a packet of its first item, the others being `rest` (R472, R473). -/
def Dev.sentFlow (d : Dev) (p f : Nat) (i : SoItem) (rest : List SoItem) : FlowSt :=
  { d.flow p f with
    pkt := (d.flow p f).pkt + 1
    item := if d.sendsLast p f i then ((d.flow p f).item + 1) % 2 ^ 32 else (d.flow p f).item
    head := if bit (flowA (d.force (62 + p)) f) 46 then shake256 32 ((d.flow p f).head ++ d.sendPayload p f i) else (d.flow p f).head
    items := if d.sendsLast p f i then rest
      else { i with words := i.words.drop (d.sendWords p f i), sent := i.sent + d.sendWords p f i } :: rest }

/-- A port with a frame of a flow in transmission (R471). -/
def Dev.sending (d : Dev) (p f : Nat) (frame : List Byte) : Dev :=
  d.setSo p { d.soSt p with turn := f, frame := frame, until_ := d.up + frameTime frame.length }

theorem Dev.soSt_sending (d : Dev) (p f : Nat) (frame : List Byte) :
    (d.sending p f frame).soSt p = { d.soSt p with turn := f, frame := frame, until_ := d.up + frameTime frame.length } := by
  rw [Dev.sending, Dev.soSt_setSo, if_pos rfl]

theorem Dev.flow_sending (d : Dev) (p f g : Nat) (frame : List Byte) : (d.sending p f frame).flow p g = d.flow p g := by
  rw [Dev.sending, Dev.flow_setSo_of_flows]
  rfl

/-- The port with the next packet of a flow's first item in transmission (R467, R471). -/
def Dev.sent (d : Dev) (p f : Nat) (i : SoItem) (rest : List SoItem) : Dev :=
  (d.setFlow p f (d.sentFlow p f i rest)).sending p f (d.ethFrame p f (d.sendPayload p f i))

theorem Dev.flow_sent (d : Dev) (p f : Nat) (i : SoItem) (rest : List SoItem) : (d.sent p f i rest).flow p f = d.sentFlow p f i rest := by
  rw [Dev.sent, Dev.flow_sending, Dev.flow_setFlow_self]

/-- TX_BYTES with the bytes of one more frame. -/
def Dev.txBytesWith (d : Dev) (p bytes : Nat) : Nat := (d.n64 (Reg.TX_BYTES_LO p) (Reg.TX_BYTES_HI p) + bytes) % 2 ^ 64

/-- A packet is counted, TX_BYTES takes a value, and the selected flow is shown. -/
def Dev.countPacket (d : Dev) (p v : Nat) : Dev :=
  ((d.add (Reg.TX_PKTS p) 1).wr64 (Reg.TX_BYTES_LO p) (Reg.TX_BYTES_HI p) v).showFlow p

theorem Dev.sameFlows_countPacket (d : Dev) (p v : Nat) : d.SameFlows (d.countPacket p v) := by
  have hadd : d.SameFlows (d.add (Reg.TX_PKTS p) 1) := d.sameFlows_wrN _ _
  rw [Dev.countPacket]
  exact (hadd.trans (Dev.sameFlows_wr64 ..)).trans (Dev.sameFlows_showFlow ..)

theorem Dev.rd_txPkts_showFlow (d : Dev) (p : Nat) : (d.showFlow p).rd (Reg.TX_PKTS p) = d.rd (Reg.TX_PKTS p) := by
  apply Dev.rd_showFlow_ne
  · unfold Reg.TX_PKTS Reg.FLOW_PKT_LO; omega
  · unfold Reg.TX_PKTS Reg.FLOW_PKT_HI; omega
  · intro k _
    unfold Reg.TX_PKTS Reg.FLOW_HEAD; omega

theorem Dev.n_txPkts_countPacket (d : Dev) (p v : Nat) :
    (d.countPacket p v).n (Reg.TX_PKTS p) = (d.n (Reg.TX_PKTS p) + 1) % 2 ^ 32 := by
  have hlo : Reg.TX_PKTS p ≠ Reg.TX_BYTES_LO p := by unfold Reg.TX_PKTS Reg.TX_BYTES_LO; omega
  have hhi : Reg.TX_PKTS p ≠ Reg.TX_BYTES_HI p := by unfold Reg.TX_PKTS Reg.TX_BYTES_HI; omega
  rw [Dev.countPacket, Dev.n_congr (Dev.rd_txPkts_showFlow _ p), Dev.n_congr (Dev.rd_wr64_ne _ _ hlo hhi), Dev.n_add_self]

/-- A port that is free sends a packet of the first item of its next ready flow. -/
theorem packetSend_of_nextFlow {p f : Nat} {d : Dev} {i : SoItem} {l : List SoItem} (hfree : (d.soSt p).until_ ≤ d.up)
    (hcut : (d.soSt p).cut = false) (hnext : d.nextFlow p = some f) (hitems : (d.flow p f).items = i :: l) :
    packetSend p d = (d.sent p f i l).countPacket p
      (((d.sent p f i l).add (Reg.TX_PKTS p) 1).txBytesWith p (d.ethFrame p f (d.sendPayload p f i)).length) := by
  have hidle : ¬ (d.up < (d.soSt p).until_ ∨ (d.soSt p).cut = true) := by
    simp only [hcut, Bool.false_eq_true, or_false, not_lt, hfree]
  simp only [packetSend, if_neg hidle, hnext, hitems]
  rfl

/-! ### A port reads HBM (R439, R441, R543) -/

theorem Dev.sameFlows_denyUnit (d : Dev) (i : Ini) (port a : Nat) (kd : Kind) (reason : Nat) :
    d.SameFlows (d.denyUnit i port a kd reason) := by
  unfold Dev.denyUnit Dev.deny
  exact ⟨(Dev.sameFlows_sqEvent _ _ _ _).1, (Dev.sameFlows_sqEvent _ _ _ _).2⟩

theorem Dev.sameFlows_checkMem (d : Dev) (i : Ini) (port a n : Nat) (kd : Kind) : d.SameFlows (d.checkMem i port a n kd).1 := by
  unfold Dev.checkMem
  split
  · exact .refl d
  · exact d.sameFlows_denyUnit ..

theorem Dev.sameFlows_meter (d : Dev) (port : Nat) (i : Ini) (a n : Nat) : d.SameFlows (d.meter port i a n) := by
  unfold Dev.meter
  dsimp only
  split <;> exact ⟨rfl, rfl⟩

theorem Dev.sameFlows_meetUe (d : Dev) (port u : Nat) : d.SameFlows (d.meetUe port u) := by
  unfold Dev.meetUe
  exact ⟨(Dev.sameFlows_sqEvent _ _ _ _).1, (Dev.sameFlows_sqEvent _ _ _ _).2⟩

theorem Dev.sameFlows_moved (d : Dev) (port n : Nat) : d.SameFlows (d.moved port n) := by
  unfold Dev.moved
  dsimp only
  split <;> exact ⟨rfl, rfl⟩

theorem sameFlows_memRead (i : Ini) (port a n : Nat) (m : Mem) (d : Dev) : d.SameFlows (memRead i port a n m d).1 := by
  have hcheck := d.sameFlows_checkMem i port a n .read
  have hmeter := hcheck.trans (Dev.sameFlows_meter _ port i a n)
  unfold memRead
  dsimp only
  split
  · exact hcheck
  · split
    · exact hmeter.trans (Dev.sameFlows_meetUe ..)
    · exact hmeter.trans (Dev.sameFlows_moved ..)

/-! ### The merge (R29, R470) -/

theorem sameFlows_soFront (p f r : Nat) (m : Mem) (d : Dev) : d.SameFlows (soFront p f r m d).1 := by
  unfold soFront
  extract_lets x who o bad len
  generalize hq : memRead who (19 + p) (x.base + 16 * o) (16 * len) m d = q
  have hread : d.SameFlows q.1 := hq ▸ sameFlows_memRead ..
  split
  · exact .refl d
  · split
    · exact hread
    · exact hread
    · simp only [bad]
      split <;> exact hread

theorem sameFlows_soOffer (p f r : Nat) (m : Mem) (d : Dev) : d.SameFlows (soOffer p f r m d).1 := by
  have hfront := sameFlows_soFront p f r m d
  unfold soOffer
  dsimp only
  split <;> exact hfront

/-- A flow of one source, which is ready for a record, passes on what the source offers. -/
theorem flowRelease_of_single {p f r : Nat} {s : Sys} {o : Offer} (hruns : s.dev.flowRuns p f = true) (hfree : s.dev.flowFree p f = true)
    (hsrcs : flowSrcs (flowA (s.dev.force (62 + p)) f) = [r]) (hoffer : (soOffer p f r s.mem s.dev).2 = some o)
    (hswitch : s.dev.flowSwitchAt p = none) :
    flowRelease p f s = ⟨s.mem, (soOffer p f r s.mem s.dev).1.flowTake p f o⟩ := by
  have hlate := ((sameFlows_soOffer p f r s.mem s.dev).flowSwitchAt p).trans hswitch
  simp only [flowRelease, hruns, hfree, hsrcs, soOffers, hoffer, hlate]
  rfl

/-- A flow's own fields once it has taken a record that stands for no loss: the record is the last one of its source, and the region's consumer moves on. -/
def Dev.flowPassed (d : Dev) (p f : Nat) (o : Offer) : Dev :=
  (d.setFlow p f { d.flow p f with last := (d.flow p f).last.insert o.src (wd o.words 0, wd o.words 1) }).setRgn o.src
    { d.rgn o.src with cp := o.cp }

/-- An ordinary record of a flow without a context becomes an item of the flow as it is. -/
theorem flowTake_of_ordinary {d : Dev} {p f : Nat} {o : Offer} (hcause : o.cause ≠ 0x50) (htyp : fld (wd o.words 0) 120 8 < 0x0C)
    (hctx : fld (flowA (d.force (62 + p)) f) 47 5 = 31) :
    d.flowTake p f o = (d.flowPassed p f o).addItem p f ⟨0, fld (wd o.words 0) 120 8, wordTime (wd o.words 1), o.words, 0, true⟩ := by
  have hodd : ¬ 0x0C ≤ fld (wd o.words 0) 120 8 := by omega
  have hnone : ¬ fld (flowA (d.force (62 + p)) f) 47 5 < 20 := by omega
  simp only [Dev.flowTake, if_neg hcause, hodd, decide_false, Bool.false_and, Bool.false_eq_true, if_false]
  exact if_neg hnone

theorem items_flowTake_of_ordinary {d : Dev} {p f : Nat} {o : Offer} (hcause : o.cause ≠ 0x50) (htyp : fld (wd o.words 0) 120 8 < 0x0C)
    (hctx : fld (flowA (d.force (62 + p)) f) 47 5 = 31) : ((d.flowTake p f o).flow p f).items
      = (d.flow p f).items ++ [⟨0, fld (wd o.words 0) 120 8, wordTime (wd o.words 1), o.words, 0, true⟩] := by
  have hflow : ((d.flowPassed p f o).flow p f).items = (d.flow p f).items := by
    have hset := congrArg FlowSt.items (Dev.flow_setFlow_self d p f
      { d.flow p f with last := (d.flow p f).last.insert o.src (wd o.words 0, wd o.words 1) })
    exact hset
  rw [flowTake_of_ordinary hcause htyp hctx, Dev.addItem, Dev.flow_setFlow_self, hflow]

theorem cp_flowTake_of_ordinary {d : Dev} {p f : Nat} {o : Offer} (hcause : o.cause ≠ 0x50) (htyp : fld (wd o.words 0) 120 8 < 0x0C)
    (hctx : fld (flowA (d.force (62 + p)) f) 47 5 = 31) : ((d.flowTake p f o).rgn o.src).cp = o.cp := by
  have hrgn : (d.flowPassed p f o).rgn o.src = { d.rgn o.src with cp := o.cp } := by simp [Dev.flowPassed]
  rw [flowTake_of_ordinary hcause htyp hctx]
  exact congrArg Region.cp hrgn

/-! ### Counts cleared (R481) -/

/-- The counts of a port that CLEAR_COUNTS clears. -/
def soCounts (p : Nat) : List Nat :=
  [Reg.TX_PKTS p, Reg.TX_BYTES_LO p, Reg.TX_BYTES_HI p, Reg.RESENDS p, Reg.RX_PFC p, Reg.RX_DISCARDS p, Reg.FEC_CORR p, Reg.FEC_UNCORR p,
    Reg.SO_GAPS p]

theorem rd_soClear (p : Nat) (d : Dev) {j : Nat} (h : j ∈ soCounts p) : (soClear p d).rd j = 0 :=
  (Dev.rd_foldl_wrN_zero (soCounts p) d j).trans (if_pos h)

theorem sameFlows_soClear (p : Nat) (d : Dev) : d.SameFlows (soClear p d) := Dev.sameFlows_foldl_wrN id (fun _ => 0) (soCounts p) d

/-! ### The statements on the stream-out ports -/

/-- A frame with a bad FCS is counted as discarded and changes nothing else. -/
theorem exec_pfcFrameReceive_bad (s : State) (p : Fin 2) (en : BitVec 8) (timers : List Nat) :
    ∃ t, exec (.pfcFrameReceive p false en timers) s = .next t ∧ t.dev.n (Reg.RX_DISCARDS p) = min (s.dev.n (Reg.RX_DISCARDS p) + 1) (2 ^ 32 - 1)
      ∧ t.dev.so = s.dev.so ∧ ∀ j, j ≠ Reg.RX_DISCARDS p → t.dev.rd j = s.dev.rd j :=
  ⟨{ s with dev := s.dev.addSat (Reg.RX_DISCARDS p) 1 }, rfl, s.dev.n_addSat_self _ 1, rfl, fun _ => s.dev.rd_addSat_ne 1⟩

/-- Any other frame is discarded in the same way. -/
theorem exec_rxFrameDiscard (s : State) (p : Fin 2) :
    ∃ t, exec (.rxFrameDiscard p) s = .next t ∧ t.dev.n (Reg.RX_DISCARDS p) = min (s.dev.n (Reg.RX_DISCARDS p) + 1) (2 ^ 32 - 1)
      ∧ ∀ j, j ≠ Reg.RX_DISCARDS p → t.dev.rd j = s.dev.rd j :=
  ⟨{ s with dev := s.dev.addSat (Reg.RX_DISCARDS p) 1 }, rfl, s.dev.n_addSat_self _ 1, fun _ => s.dev.rd_addSat_ne 1⟩

/-- A good PFC frame is counted, sets the pause of each priority that it and SO_CTRL enable, and no other. -/
theorem exec_pfcFrameReceive_good (s : State) (p : Fin 2) (en : BitVec 8) (timers : List Nat) :
    ∃ t, exec (.pfcFrameReceive p true en timers) s = .next t ∧ t.dev.n (Reg.RX_PFC p) = min (s.dev.n (Reg.RX_PFC p) + 1) (2 ^ 32 - 1)
      ∧ (∀ k : Fin 8, en.toNat / 2 ^ k.val % 2 = 1 → s.dev.on (Reg.SO_CTRL p) k = true →
          t.dev.isPaused p k = decide (nth timers k 0 % 65536 ≠ 0))
      ∧ (∀ k : Fin 8, en.toNat / 2 ^ k.val % 2 = 0 ∨ s.dev.on (Reg.SO_CTRL p) k = false → t.dev.isPaused p k = s.dev.isPaused p k) := by
  have htakes (k : Nat) : s.dev.pfcTakes p en.toNat k ↔ en.toNat / 2 ^ k % 2 = 1 ∧ s.dev.on (Reg.SO_CTRL p) k = true := by
    rw [Dev.pfcTakes, Nat.shiftRight_eq_div_pow]
  refine ⟨{ s with dev := pfcFrame p true en.toNat timers s.dev }, rfl, n_rxPfc_pfcFrame_good .., ?_, ?_⟩
  · intro k hen hctrl
    exact isPaused_pfcFrame_of_takes _ _ _ _ k.isLt ((htakes k).mpr ⟨hen, hctrl⟩)
  · intro k hnot
    refine isPaused_pfcFrame_of_not_takes _ _ _ _ fun ht => ?_
    obtain ⟨hen, hctrl⟩ := (htakes k).mp ht
    rcases hnot with h | h
    · omega
    · simp [hctrl] at h

/-- The end of a pause releases its priority alone. -/
theorem exec_pfcPauseExpire (s : State) (p : Fin 2) (k : Fin 8) (hp : s.dev.isPaused p k = true)
    (hdue : (s.dev.soSt p).pauses.get (fun _ => 0) k ≤ s.dev.up) :
    ∃ t, exec (.pfcPauseExpire p k) s = .next t ∧ t.dev.isPaused p k = false ∧ ∀ j : Fin 8, j ≠ k → t.dev.isPaused p j = s.dev.isPaused p j := by
  refine ⟨{ s with dev := pfcExpire p k s.dev }, rfl, ?_, fun j hj => ?_⟩
  · rw [pfcExpire_of_due _ _ _ hp hdue, (Dev.sameFlows_showPaused _ _).isPaused, Dev.isPaused_pause_self]
    rfl
  · rw [pfcExpire_of_due _ _ _ hp hdue, (Dev.sameFlows_showPaused _ _).isPaused, Dev.isPaused_pause_ne _ _ _ (Fin.val_ne_of_ne hj)]

/-- A flow of one source without a context releases its next ordinary record, which becomes its item. -/
theorem exec_flowRecordRelease (s : State) (p : Fin 2) (f : Fin 256) (r : Nat) (o : Offer) (hruns : s.dev.flowRuns p f = true)
    (hctx : fld (flowA (s.dev.force (62 + p)) f) 47 5 = 31) (hitems : (s.dev.flow p f).items = [])
    (hsrcs : flowSrcs (flowA (s.dev.force (62 + p)) f) = [r]) (hoffer : (soOffer p f r s.mem s.dev).2 = some o) (hcause : o.cause ≠ 0x50)
    (hswitch : s.dev.flowSwitchAt p = none) (htyp : fld (wd o.words 0) 120 8 < 0x0C) :
    ∃ t, exec (.flowRecordRelease p f) s = .next t
      ∧ (t.dev.flow p f).items = [⟨0, fld (wd o.words 0) 120 8, wordTime (wd o.words 1), o.words, 0, true⟩] ∧ (t.dev.rgn o.src).cp = o.cp ∧ t.mem = s.mem := by
  have hfree : s.dev.flowFree p f = true := by simp [Dev.flowFree, hctx, hitems]
  have hrel := flowRelease_of_single (s := ⟨s.mem, s.dev⟩) hruns hfree hsrcs hoffer hswitch
  have hsame := sameFlows_soOffer p f r s.mem s.dev
  have hctx' : fld (flowA ((soOffer p f r s.mem s.dev).1.force (62 + p)) f) 47 5 = 31 := by rw [hsame.force, hctx]
  refine ⟨{ s with dev := (soOffer p f r s.mem s.dev).1.flowTake p f o }, ?_, ?_, cp_flowTake_of_ordinary hcause htyp hctx', rfl⟩
  · show s.onSys (flowRelease p f) = _
    rw [State.onSys_eq, hrel]
  · show ((Dev.flowTake _ p f o).flow p f).items = _
    rw [items_flowTake_of_ordinary hcause htyp hctx', hsame.flow, hitems, List.nil_append]

/-- A port that is free sends the next packet of its next ready flow, and counts it. -/
theorem exec_packetSend (s : State) (p : Fin 2) (f : Nat) (i : SoItem) (l : List SoItem) (hfree : (s.dev.soSt p).until_ ≤ s.dev.up)
    (hcut : (s.dev.soSt p).cut = false) (hnext : s.dev.nextFlow p = some f) (hitems : (s.dev.flow p f).items = i :: l) :
    ∃ t, exec (.packetSend p) s = .next t ∧ (t.dev.flow p f).pkt = (s.dev.flow p f).pkt + 1 ∧ (t.dev.soSt p).turn = f
      ∧ t.dev.n (Reg.TX_PKTS p) = (s.dev.n (Reg.TX_PKTS p) + 1) % 2 ^ 32
      ∧ (t.dev.soSt p).frame = s.dev.ethFrame p f (s.dev.sendPayload p f i)
      ∧ (t.dev.soSt p).until_ = s.dev.up + frameTime (t.dev.soSt p).frame.length ∧ t.mem = s.mem := by
  have hsend := packetSend_of_nextFlow hfree hcut hnext hitems
  generalize ((s.dev.sent p f i l).add (Reg.TX_PKTS p) 1).txBytesWith p _ = v at hsend
  have hsame := (s.dev.sent p f i l).sameFlows_countPacket p v
  have hso : ((packetSend p s.dev).soSt p) = (s.dev.sent p f i l).soSt p := by rw [hsend, hsame.soSt]
  rw [Dev.sent, Dev.soSt_sending] at hso
  refine ⟨{ s with dev := packetSend p s.dev }, rfl, ?_, ?_, ?_, ?_, ?_, rfl⟩
  · show ((packetSend p s.dev).flow p f).pkt = _
    rw [hsend, hsame.flow, Dev.flow_sent]
    rfl
  · exact congrArg SoSt.turn hso
  · show (packetSend p s.dev).n _ = _
    rw [hsend, Dev.n_txPkts_countPacket]
    rfl
  · exact congrArg SoSt.frame hso
  · show ((packetSend p s.dev).soSt p).until_ = s.dev.up + frameTime ((packetSend p s.dev).soSt p).frame.length
    rw [hso]
    rfl

/-- A link that goes down says so, and cuts the packet in transmission. -/
theorem exec_soLinkDown (s : State) (p : Fin 2) (hup : s.dev.on (Reg.SO_STATUS p) 0 = true) :
    ∃ t, exec (.soLinkDown p) s = .next t ∧ t.dev.on (Reg.SO_STATUS p) 0 = false ∧ t.dev.on (Reg.SO_STATUS p) 13 = true
      ∧ (t.dev.soSt p).cut = ((s.dev.soSt p).cut || decide (s.dev.up < (s.dev.soSt p).until_)) := by
  have hst := soStatus_ne_evSeq p (1520 + 4 * p)
  refine ⟨{ s with dev := soLinkDown p s.dev }, rfl, ?_, ?_, ?_⟩
  · rw [soLinkDown_of_up _ _ hup, Dev.on_sqEvent _ _ _ _ (by decide) (by decide) hst, Dev.on_clrB_self _ _ _ (by decide)]
    rfl
  · rw [soLinkDown_of_up _ _ hup, Dev.on_sqEvent _ _ _ _ (by decide) (by decide) hst]
    simp
  · rw [soLinkDown_of_up _ _ hup, (Dev.sameFlows_sqEvent _ _ _ _).soSt]
    exact congrArg SoSt.cut ((s.dev.soSt_setSo p p _).trans (if_pos rfl))

/-- A link that comes up sends a packet that was cut again, whole, and counts the resend. -/
theorem exec_soLinkUp_of_cut (s : State) (p : Fin 2) (hdown : s.dev.on (Reg.SO_STATUS p) 0 = false) (hcut : (s.dev.soSt p).cut = true) :
    ∃ t, exec (.soLinkUp p) s = .next t ∧ t.dev.on (Reg.SO_STATUS p) 0 = true ∧ (t.dev.soSt p).cut = false ∧ (t.dev.soSt p).frame = (s.dev.soSt p).frame
      ∧ t.dev.n (Reg.RESENDS p) = min (s.dev.n (Reg.RESENDS p) + 1) (2 ^ 32 - 1) ∧ t.dev.on (Reg.SO_STATUS p) 11 = true := by
  have hst := soStatus_ne_evSeq p
  have hcount : Reg.SO_STATUS p ≠ Reg.RESENDS p := by unfold Reg.SO_STATUS Reg.RESENDS; omega
  have hev (n : Nat) : Reg.RESENDS p ≠ Reg.EV_SEQ n := by unfold Reg.RESENDS Reg.EV_SEQ; omega
  have hlink : (s.dev.linkUp p).rd (Reg.RESENDS p) = s.dev.rd (Reg.RESENDS p) :=
    (Dev.rd_sqEvent_ne _ _ hcount.symm (hev _)).trans (Dev.rd_setB_ne _ _ hcount.symm)
  have hup := soLinkUp_of_cut p s.dev hdown hcut
  generalize hx : ({ s.dev.soSt p with cut := false, until_ := (s.dev.linkUp p).up + frameTime (s.dev.soSt p).frame.length } : SoSt) = x at hup
  have hso : (soLinkUp p s.dev).soSt p = x := by
    rw [hup, (Dev.sameFlows_sqEvent _ _ _ _).soSt]
    exact (Dev.soSt_setSo _ _ _ _).trans (if_pos rfl)
  refine ⟨{ s with dev := soLinkUp p s.dev }, rfl, ?_, ?_, ?_, ?_, ?_⟩
  · rw [hup, Dev.on_sqEvent _ _ _ _ (by decide) (by decide) (hst _), Dev.on_congr 0 (Dev.rd_addSat_ne _ 1 hcount)]
    exact (Bool.or_false _).trans (s.dev.on_linkUp p)
  · exact (congrArg SoSt.cut hso).trans (hx ▸ rfl)
  · exact (congrArg SoSt.frame hso).trans (hx ▸ rfl)
  · rw [hup, Dev.n_congr (Dev.rd_sqEvent_ne _ _ hcount.symm (hev _)), Dev.n_addSat_self, Dev.setSo_n, Dev.n_congr hlink]
  · rw [hup, Dev.on_sqEvent _ _ _ _ (by decide) (by decide) (hst _)]
    simp

theorem exec_soLinkUp_of_whole (s : State) (p : Fin 2) (hdown : s.dev.on (Reg.SO_STATUS p) 0 = false) (hcut : (s.dev.soSt p).cut = false) :
    ∃ t, exec (.soLinkUp p) s = .next t ∧ t.dev.on (Reg.SO_STATUS p) 0 = true ∧ t.dev.so = s.dev.so := by
  refine ⟨{ s with dev := s.dev.linkUp p }, ?_, s.dev.on_linkUp p, (s.dev.sameFlows_linkUp p).1⟩
  show s.onDev (soLinkUp p) = _
  rw [State.onDev_eq, soLinkUp_of_whole _ _ hdown hcut]

/-- CLEAR_COUNTS that its port takes clears the counts and leaves the flows as they are. -/
theorem exec_soClearCounts (s : State) (i : Ini) (p : Fin 2) (h : s.takes i (Reg.SO_CMD p) = true) :
    ∃ t, exec (.soClearCounts i p) s = .next t ∧ (∀ j ∈ soCounts p, t.dev.rd j = 0) ∧ t.dev.so = s.dev.so := by
  refine ⟨{ s with dev := soClear p (s.dev.reached i 0) }, ?_, fun j hj => rd_soClear p _ hj, (sameFlows_soClear p _).1⟩
  show s.onDev (fun d => d.onPosted i (Reg.SO_CMD p) (soClear p)) = _
  rw [State.onDev_eq, onPosted_of_takes s i _ _ h]

end Sys2Proof.Machine

namespace Sys2Proof
open Sys2Proof.Machine

/-- Settles O51, command by command. -/
theorem streamOutPorts : Obligations.StreamOutPorts := by
  unfold Obligations.StreamOutPorts
  refine ⟨exec_pfcFrameReceive_bad, exec_pfcFrameReceive_good, exec_pfcPauseExpire, exec_rxFrameDiscard, exec_flowRecordRelease,
    exec_packetSend, exec_soLinkDown, exec_soLinkUp_of_cut, exec_soLinkUp_of_whole, fun s i p h => ?_⟩
  obtain ⟨t, ht, hclear, hso⟩ := exec_soClearCounts s i p h
  exact ⟨t, ht, hclear _ (by simp [soCounts]), hclear _ (by simp [soCounts]), hclear _ (by simp [soCounts]),
    hclear _ (by simp [soCounts]), hclear _ (by simp [soCounts]), hso⟩

end Sys2Proof
end

section
/-! SUPPORT. The layout of the device-time word, and the proof of its statement. -/
namespace Sys2Proof.Machine

theorem b2n_lt_two (b : Bool) : b2n b < 2 := by cases b <;> decide

theorem decide_b2n_eq_one (b : Bool) : decide (b2n b = 1) = b := by cases b <;> rfl

/-- A field of a word that is given as a number. -/
theorem fld_ofNat (n v lo len : Nat) : fld (BitVec.ofNat n v) lo len = v % 2 ^ n / 2 ^ lo % 2 ^ len := by
  rw [fld, BitVec.toNat_ofNat, Nat.shiftRight_eq_div_pow]

/-- A flag with even multiples of its place above it and smaller places below it is a bit of the word. -/
theorem bit_ofNat_flag {n v i : Nat} (b : Bool) (hi : i < n) (hv : v / 2 ^ i % 2 = b2n b) : bit (BitVec.ofNat n v) i = b := by
  rw [bit, BitVec.getLsbD_ofNat, Nat.testBit_eq_decide_div_mod_eq, hv, decide_b2n_eq_one]
  simp [hi]

end Sys2Proof.Machine

namespace Sys2Proof
open Sys2Proof.Machine

/-- Settles O5: each field is a digit of the sum that forms the word (R46). -/
theorem timeWord : Obligations.TimeWord := by
  unfold Obligations.TimeWord
  intro d cls t interp hcls
  have h4 := b2n_lt_two d.derated
  have h3 := b2n_lt_two interp
  have h2 := b2n_lt_two (!d.on Reg.TB_STATUS 5)
  have h1 := b2n_lt_two (!d.on Reg.TB_STATUS 1)
  have h0 := b2n_lt_two (d.on Reg.TB_STATUS 3)
  unfold Dev.timeWord
  refine ⟨?seconds, ?fraction, ?reserved, ?cls, ?derated, ?interp, ?unset, ?unlocked, ?unsettled⟩
  case seconds | fraction | reserved | cls => rw [fld_ofNat]; omega
  case derated | interp | unset | unlocked | unsettled => exact bit_ofNat_flag _ (by decide) (by omega)

end Sys2Proof
end

section
/-! SUPPORT. What leaves the timebase's own state, and registers named beforehand, as they are: the shared operations and the bus. -/
namespace Sys2Proof.Machine

/-! ### The timebase's own state -/

/-- A fold of steps that each leave the timebase's state leaves it. -/
theorem tb_foldl {α : Type} {f : Dev → α → Dev} (h : ∀ d a, (f d a).tb = d.tb) (l : List α) (d : Dev) : (l.foldl f d).tb = d.tb := by
  induction l generalizing d with
  | nil => rfl
  | cons a l ih => exact (ih _).trans (h d a)

@[simp] theorem Dev.tb_wrN (d : Dev) (k v : Nat) : (d.wrN k v).tb = d.tb := rfl
@[simp] theorem Dev.tb_wr64 (d : Dev) (lo hi v : Nat) : (d.wr64 lo hi v).tb = d.tb := rfl
@[simp] theorem Dev.tb_setB (d : Dev) (k i : Nat) : (d.setB k i).tb = d.tb := rfl
@[simp] theorem Dev.tb_clrB (d : Dev) (k i : Nat) : (d.clrB k i).tb = d.tb := rfl
@[simp] theorem Dev.tb_addSat (d : Dev) (k v : Nat) : (d.addSat k v).tb = d.tb := rfl
@[simp] theorem Dev.tb_seqInc (d : Dev) (k : Nat) : (d.seqInc k).tb = d.tb := rfl
@[simp] theorem Dev.tb_raise (d : Dev) (n : Nat) : (d.raise n).tb = d.tb := rfl
@[simp] theorem Dev.tb_event (d : Dev) (st n : Nat) : (d.event st n).tb = d.tb := rfl
@[simp] theorem Dev.tb_tbEvent (d : Dev) (n : Nat) : (d.tbEvent n).tb = d.tb := rfl
@[simp] theorem Dev.tb_report (d : Dev) (code root port : Nat) : (d.report code root port).tb = d.tb := rfl
@[simp] theorem Dev.tb_answer (d : Dev) (r : Resp) : (d.answer r).tb = d.tb := rfl
@[simp] theorem Dev.tb_reached (d : Dev) (i : Ini) (keep : Nat) : (d.reached i keep).tb = d.tb := rfl
@[simp] theorem Dev.tb_setClWin (d : Dev) (c w : Nat) (x : WinSt) : (d.setClWin c w x).tb = d.tb := rfl
@[simp] theorem Dev.tb_emit (d : Dev) (r : Nat) (h : Hdr) (p : List Word128) : (d.emit r h p).tb = d.tb := rfl

@[simp] theorem Dev.tb_putB (d : Dev) (k i : Nat) (b : Bool) : (d.putB k i b).tb = d.tb := by cases b <;> rfl

@[simp] theorem Dev.tb_sqEvent (d : Dev) (st b n : Nat) : (d.sqEvent st b n).tb = d.tb := by
  unfold Dev.sqEvent; split <;> rfl

@[simp] theorem Dev.tb_sqBit (d : Dev) (st b : Nat) : (d.sqBit st b).tb = d.tb := by
  unfold Dev.sqBit; split <;> rfl

/-! ### The bus (R531, R532, R543) -/

@[simp] theorem Dev.tb_deny (d : Dev) (i : Ini) (addr : Nat) (kd : Kind) (reason port : Nat) : (d.deny i addr kd reason port).tb = d.tb := by
  unfold Dev.deny
  extract_lets d1 d2 d3 d4 d5
  have h4 : d4.tb = d3.tb := Dev.wr_tb ..
  exact (Dev.tb_sqEvent d5 _ _ _).trans (h4.trans ((Dev.tb_wr64 d2 _ _ _).trans (Dev.tb_addSat d1 _ _)))

@[simp] theorem Dev.tb_writeFault (d : Dev) (b i : Nat) : (d.writeFault b i).tb = d.tb := by
  unfold Dev.writeFault; split <;> simp

@[simp] theorem Dev.tb_access (d : Dev) (i : Ini) (addr size : Nat) (kd : Kind) (keep : Nat) : (d.access i addr size kd keep).1.tb = d.tb := by
  unfold Dev.access
  dsimp only
  split
  · exact Dev.tb_deny ..
  · split <;> rfl

@[simp] theorem Dev.tb_postFail (d : Dev) (b : Nat) (w : PostedW) (cause : Nat) : (d.postFail b w cause).tb = d.tb := by
  unfold Dev.postFail
  rw [Dev.tb_report, Dev.tb_raise, Dev.tb_writeFault, Dev.wr_tb, Dev.wr_tb, Dev.tb_wr64]

/-! ### The timebase's own state, and registers named beforehand -/

/-- The timebase's own state is the same, and so is every register that P names. -/
def Dev.SameOn (P : Nat → Prop) (d e : Dev) : Prop := e.tb = d.tb ∧ ∀ j, P j → e.rd j = d.rd j

variable {P : Nat → Prop} {a d e : Dev}

theorem Dev.SameOn.refl (d : Dev) : d.SameOn P d := ⟨rfl, fun _ _ => rfl⟩

theorem Dev.SameOn.trans (had : a.SameOn P d) (hde : d.SameOn P e) : a.SameOn P e :=
  ⟨hde.1.trans had.1, fun j hj => (hde.2 j hj).trans (had.2 j hj)⟩

/-- So it is after an update of another unit's state. -/
theorem Dev.SameOn.of_regs (h : a.SameOn P d) (htb : e.tb = d.tb) (hregs : e.regs = d.regs) : a.SameOn P e :=
  h.trans ⟨htb, fun j _ => congrArg (fun r : Tab Word => r.get regReset j) hregs⟩

theorem Dev.SameOn.onAux (h : a.SameOn P d) (f : AuxSt → AuxSt) : a.SameOn P (d.onAux f) := h.of_regs rfl rfl

theorem ne_of_named {j k : Nat} (hj : P j) (hk : ¬ P k) : j ≠ k := fun e => hk (e ▸ hj)

theorem Dev.SameOn.wr (h : a.SameOn P d) {k : Nat} (hk : ¬ P k) (v : Word) : a.SameOn P (d.wr k v) :=
  ⟨h.1, fun j hj => (Dev.rd_wr_ne d v (ne_of_named hj hk)).trans (h.2 j hj)⟩

theorem Dev.SameOn.putB (h : a.SameOn P d) {k : Nat} (hk : ¬ P k) (i : Nat) (b : Bool) : a.SameOn P (d.putB k i b) := by
  cases b <;> exact h.wr hk _

theorem Dev.SameOn.event (h : a.SameOn P d) {st n : Nat} (hst : ¬ P st) (hev : ¬ P (Reg.EV_SEQ n)) : a.SameOn P (d.event st n) :=
  ⟨h.1, fun j hj => (Dev.rd_event_ne d st n (ne_of_named hj hst) (ne_of_named hj hev)).trans (h.2 j hj)⟩

theorem Dev.SameOn.sqEvent (h : a.SameOn P d) {st n : Nat} (b : Nat) (hst : ¬ P st) (hev : ¬ P (Reg.EV_SEQ n)) : a.SameOn P (d.sqEvent st b n) :=
  ⟨(Dev.tb_sqEvent ..).trans h.1, fun j hj =>
    (Dev.rd_sqEvent_ne d b (ne_of_named hj hst) (ne_of_named hj hev)).trans (h.2 j hj)⟩

theorem Dev.SameOn.ite {c : Prop} [Decidable c] (hd : a.SameOn P d) (he : a.SameOn P e) : a.SameOn P (if c then d else e) := by
  split
  · exact hd
  · exact he

theorem Dev.SameOn.foldl {α : Type} {f : Dev → α → Dev} {l : List α} (h : a.SameOn P d) (hf : ∀ (d : Dev), ∀ x ∈ l, d.SameOn P (f d x)) :
    a.SameOn P (l.foldl f d) := by
  induction l generalizing d with
  | nil => exact h
  | cons x l ih => exact ih (h.trans (hf d x List.mem_cons_self)) fun d y hy => hf d y (List.mem_cons_of_mem _ hy)

end Sys2Proof.Machine
end

section
/-! SUPPORT. What the units beside the timebase leave of it: link faults, the modulator, and what they answer to a posted write. -/
namespace Sys2Proof.Machine

/-! ### Link faults (R93, R95) -/

/-- The registers of the timebase: those of its block, and the sequence numbers of its events (R65, R68). -/
def timebaseKey (j : Nat) : Prop := 0x10000 ≤ j ∧ j < 0x20000 ∨ Reg.EV_SEQ 1480 ≤ j ∧ j ≤ Reg.EV_SEQ 1489

theorem not_timebaseKey_port {p : Nat} (hp : p < 6) :
    ¬ timebaseKey (Reg.PORT_STATUS p) ∧ ¬ timebaseKey (Reg.LINK_STATE p) ∧ ¬ timebaseKey (Reg.FAULT_CAUSE p)
      ∧ ¬ timebaseKey (Reg.EV_SEQ (1410 + 5 * p + 0)) := by
  unfold timebaseKey Reg.PORT_STATUS Reg.LINK_STATE Reg.FAULT_CAUSE Reg.EV_SEQ
  omega

theorem sameOn_setLink (d : Dev) {p : Nat} (st lanes : Nat) (hp : p < 6) : d.SameOn timebaseKey (d.setLink p st lanes) := by
  obtain ⟨hstatus, hlink, -, -⟩ := not_timebaseKey_port hp
  exact ((Dev.SameOn.refl d).wr hlink _).putB hstatus _ _

theorem sameOn_condLinkFault (d : Dev) : d.SameOn timebaseKey d.condLinkFault :=
  (Dev.SameOn.refl d).sqEvent 3 (by unfold timebaseKey; decide) (by unfold timebaseKey; decide)

theorem sameOn_noteFault (d : Dev) {p : Nat} (cause lane : Nat) (hp : p < 6) : d.SameOn timebaseKey (d.noteFault p cause lane) := by
  obtain ⟨hstatus, -, hcause, hev⟩ := not_timebaseKey_port hp
  unfold Dev.noteFault
  extract_lets d1 d2 d3
  have h1 : d.SameOn timebaseKey d1 := by
    unfold d1
    split
    · exact (Dev.SameOn.refl d).wr hstatus _
    · exact .refl d
  have h2 : d.SameOn timebaseKey d2 := by
    unfold d2
    split
    · exact h1.wr hcause _
    · exact h1
  have h3 : d.SameOn timebaseKey d3 := h2.trans (sameOn_condLinkFault d2)
  split
  · exact h3
  · exact h3.event hstatus hev

/-- An outage that opens is noted by the streams of its port alone. -/
theorem sameOn_startOutage {P : Nat → Prop} (d : Dev) (p : Nat) : d.SameOn P (d.startOutage p) := by
  unfold Dev.startOutage
  dsimp only
  split
  · refine (Dev.SameOn.refl d).foldl fun d s _ => ?_
    split
    · exact .refl d
    · split <;> exact ⟨rfl, fun _ _ => rfl⟩
  · exact .refl d

theorem sameOn_linkFault (d : Dev) {p : Nat} (cause lane st : Nat) (hp : p < 6) : d.SameOn timebaseKey (d.linkFault p cause lane st) := by
  unfold Dev.linkFault
  extract_lets d1 x d2 d3
  have h2 : d.SameOn timebaseKey d2 := sameOn_noteFault d cause lane hp
  have h3 : d.SameOn timebaseKey d3 := by
    unfold d3
    split
    · exact h2
    · exact h2.trans (sameOn_startOutage d2 p)
  exact (h3.trans (sameOn_setLink d3 st 0 hp)).wr (not_timebaseKey_port hp).1 _

theorem sameOn_refLoss (d : Dev) : d.SameOn timebaseKey d.refLoss :=
  (Dev.SameOn.refl d).foldl fun d p hp => by
    split
    · exact .refl d
    · exact sameOn_linkFault d _ _ _ (List.mem_range.mp hp)

/-! ### The modulator (R387) -/

/-- The registers below those of the auxiliary converter, the timebase's among them. -/
def belowAux (j : Nat) : Prop := j < Reg.AUX_STATUS

theorem not_belowAux {k : Nat} (h : Reg.AUX_STATUS ≤ k) : ¬ belowAux k := Nat.not_lt.mpr h

theorem sameOn_auxShow (d : Dev) : d.SameOn belowAux d.auxShow := by
  have hst : ¬ belowAux Reg.AUX_STATUS := not_belowAux le_rfl
  unfold Dev.auxShow
  exact ((((((Dev.SameOn.refl d).putB hst _ _).putB hst _ _).putB hst _ _).putB hst _ _).putB hst _ _).putB hst _ _

theorem sameOn_auxCorrect (d : Dev) : d.SameOn belowAux d.auxCorrect := by
  have hofs (g : Nat) : ¬ belowAux (Reg.CAL_OFS g) := not_belowAux (by unfold Reg.CAL_OFS Reg.AUX_STATUS; omega)
  have hgain (g : Nat) : ¬ belowAux (Reg.CAL_GAIN g) := not_belowAux (by unfold Reg.CAL_GAIN Reg.AUX_STATUS; omega)
  have hcount : ¬ belowAux Reg.AUX_CAL_COUNT := not_belowAux (by decide)
  unfold Dev.auxCorrect
  split
  · extract_lets d1
    have h1 : d.SameOn belowAux d1 := (Dev.SameOn.refl d).foldl fun d g _ => ((Dev.SameOn.refl d).wr (hofs g) _).wr (hgain g) _
    exact (h1.of_regs (e := d1.onAux _) rfl rfl).wr hcount _
  · split
    · exact .refl d
    · exact (Dev.SameOn.refl d).wr hcount _

theorem sameOn_auxBegin (d : Dev) (who idx m : Nat) (cfg : Word) : d.SameOn belowAux (d.auxBegin who idx m cfg) :=
  (sameOn_auxCorrect d).onAux _

theorem sameOn_auxNext (d : Dev) (m : Nat) : d.SameOn belowAux (d.auxNext m) := by
  unfold Dev.auxNext
  dsimp only
  split
  · exact sameOn_auxShow d
  · split
    · exact (sameOn_auxBegin ..).trans (sameOn_auxShow _)
    · exact (((Dev.SameOn.refl d).onAux _).trans (sameOn_auxBegin ..)).trans (sameOn_auxShow _)
    · exact ((Dev.SameOn.refl d).onAux _).trans (sameOn_auxShow _)
    · exact (sameOn_auxBegin ..).trans (sameOn_auxShow _)
    · exact sameOn_auxShow d

theorem sameOn_auxRoundEnd {P : Nat → Prop} (d : Dev) : d.SameOn P d.auxRoundEnd := by
  unfold Dev.auxRoundEnd Dev.auxRound
  dsimp only
  split
  · split <;> exact ⟨rfl, fun _ _ => rfl⟩
  · exact ⟨rfl, fun _ _ => rfl⟩

theorem sameOn_auxEnd (d : Dev) (r : AuxRun) (cut : Bool) (m : Nat) : d.SameOn belowAux (d.auxEnd r cut m) := by
  have hstat : ¬ belowAux (Reg.ENTRY_STAT r.idx) := not_belowAux (by unfold Reg.ENTRY_STAT Reg.AUX_STATUS; omega)
  have hend (f : AuxSt → AuxSt) : d.SameOn belowAux (d.onAux f) := (Dev.SameOn.refl d).onAux f
  have hrow (f g : AuxSt → AuxSt) (v : Word) : d.SameOn belowAux (((d.onAux f).wr (Reg.ENTRY_STAT r.idx) v).onAux g) :=
    ((hend f).wr hstat v).onAux g
  unfold Dev.auxEnd
  dsimp only
  refine .ite (.ite ?last ?more) (.ite ?hk (hend _))
  case last => exact (hrow _ _ _).trans (sameOn_auxRoundEnd _)
  case more => exact (hrow _ _ _).onAux _
  case hk => exact (hend _).onAux _

theorem sameOn_modReady (d : Dev) : d.SameOn belowAux d.modReady := by
  unfold Dev.modReady
  split
  · exact .refl d
  · exact ((Dev.SameOn.refl d).onAux _).trans (sameOn_auxNext _ _)

theorem sameOn_modLost (d : Dev) : d.SameOn belowAux d.modLost := by
  unfold Dev.modLost
  dsimp only
  split
  · exact (((Dev.SameOn.refl d).onAux _).trans (sameOn_auxEnd ..)).trans (sameOn_auxShow _)
  · exact ((Dev.SameOn.refl d).onAux _).trans (sameOn_auxShow _)

/-- The modulator follows the DLL and leaves the timebase alone (R40). -/
theorem sameOn_modFollow (old new : Dev) : new.SameOn belowAux (old.modFollow new) := by
  unfold Dev.modFollow
  split
  · split
    · exact .refl new
    · exact sameOn_modReady new
  · split
    · exact sameOn_modLost new
    · exact .refl new

end Sys2Proof.Machine
end

section
/-! SUPPORT. The island's answer to a posted write leaves device time and the PTP stamps alone. -/
namespace Sys2Proof.Machine

/-! ### Effects of other blocks -/

theorem tb_linkRestart {p : Nat} (hp : p < 6) (d : Dev) : (linkRestart p d).tb = d.tb := by
  unfold linkRestart
  split
  · rfl
  · exact (sameOn_linkFault d _ _ _ hp).1

theorem Dev.tb_eqCal (d : Dev) (p : Nat) : (d.eqCal p).tb = d.tb := by
  unfold Dev.eqCal
  split <;> rfl

theorem tb_portClearCounts (p : Nat) (d : Dev) : (portClearCounts p d).tb = d.tb := tb_foldl (fun d _ => d.tb_wrN _ _) _ _

theorem tb_laneEqWrite (p lane : Nat) (data : Word) (d : Dev) : (laneEqWrite p lane data d).tb = d.tb := by
  unfold laneEqWrite
  split
  · rfl
  · exact d.tb_writeFault _ _

theorem tb_applyTiming (d : Dev) : (applyTiming d).tb = d.tb := by
  unfold applyTiming
  dsimp only
  split
  · rw [Dev.tb_event, Dev.tb_setB]
  · rw [Dev.tb_setB, Dev.setDisp_tb]

theorem tb_dispRetrain (d : Dev) : (dispRetrain d).tb = d.tb := by
  have hdrop : d.linkDrop.tb = d.tb := by
    unfold Dev.linkDrop
    split
    · rw [Dev.tb_event, Dev.tb_clrB]
    · rfl
  rw [dispRetrain, Dev.startTraining, Dev.setDisp_tb, Dev.tb_setB, hdrop]

theorem tb_dispClearCounts (d : Dev) : (dispClearCounts d).tb = d.tb := tb_foldl (fun d _ => d.wr_tb _ _) _ _

theorem tb_soClear (p : Nat) (d : Dev) : (soClear p d).tb = d.tb := tb_foldl (fun d _ => d.tb_wrN _ _) _ _

theorem Dev.tb_showFlow (d : Dev) (p : Nat) : (d.showFlow p).tb = d.tb :=
  (tb_foldl (fun d _ => d.tb_wrN _ _) _ _).trans (d.tb_wr64 _ _ _)

theorem Dev.tb_auxEvent (d : Dev) (b n : Nat) : (d.auxEvent b n).tb = d.tb := Dev.tb_sqEvent ..

theorem tb_auxSeqGo (d : Dev) : (auxSeqGo d).tb = d.tb := by
  unfold auxSeqGo Dev.seqArrive
  split
  · split
    · rw [Dev.tb_auxEvent, Dev.tb_addSat]
    · rfl
  · rfl

theorem Dev.tb_injArrive (d : Dev) (j : Nat) : (d.injArrive j).tb = d.tb := by
  unfold Dev.injArrive
  extract_lets x busy
  split
  · rw [Dev.tb_auxEvent, Dev.tb_addSat]
  · rw [(sameOn_auxShow _).1, Dev.onAux_tb]

theorem tb_injGo (j : Nat) (d : Dev) : (injGo j d).tb = d.tb := by
  unfold injGo
  split
  · exact d.tb_injArrive j
  · rfl

theorem tb_auxCal (d : Dev) : (auxCal d).tb = d.tb := by
  unfold auxCal
  split
  · rfl
  · rw [(sameOn_auxNext _ _).1, Dev.onAux_tb]

theorem tb_auxCalAbort (d : Dev) : (auxCalAbort d).tb = d.tb := by
  unfold auxCalAbort
  dsimp only
  split
  · rw [(sameOn_auxNext _ _).1, Dev.wr_tb, Dev.onAux_tb]
  · split
    · rw [Dev.tb_setB]
    · rfl

theorem tb_auxClear (d : Dev) : (auxClear d).tb = d.tb := by
  rw [auxClear, Dev.tb_wrN, Dev.tb_wrN, Dev.tb_wrN]

theorem Dev.tb_auxSeqCtrl (d : Dev) : d.auxSeqCtrl.tb = d.tb := by
  unfold Dev.auxSeqCtrl
  extract_lets on d1
  split <;> rfl

theorem Dev.tb_tachCfg (d : Dev) (k : Nat) : (d.tachCfg k).tb = d.tb := by
  unfold Dev.tachCfg
  split
  · split <;> rfl
  · rfl

/-! ### Registers that take a value (R529, R530) -/

theorem Dev.tb_regStore (d : Dev) (k : Nat) (v : Word) : (d.regStore k v).tb = d.tb := by
  unfold Dev.regStore
  split <;> rfl

theorem Dev.tb_storePair (d : Dev) (k : Nat) (low : Option Word) (v : Word) : (d.storePair k low v).tb = d.tb := by
  unfold Dev.storePair
  split
  · rw [Dev.tb_regStore, Dev.tb_regStore]
  · exact d.tb_regStore k v

theorem Dev.tb_sqClear (d : Dev) (k : Nat) (v : Word) : (d.sqClear k v).tb = d.tb := by
  unfold Dev.sqClear
  split
  · split
    · dsimp only
      split
      · rw [Dev.deratedSeen, Dev.tb_sqEvent, Dev.wr_tb]
      · rw [Dev.wr_tb]
    · rfl
  · rfl

/-! ### The timebase's own effects -/

theorem Dev.tb_showWarm (d : Dev) : d.showWarm.tb = d.tb := by
  unfold Dev.showWarm
  dsimp only
  split
  · rfl
  · rw [Dev.tb_tbEvent, Dev.tb_putB]

theorem Dev.tb_todRefuse (d : Dev) (reason : Nat) : (d.todRefuse reason).tb = d.tb := by
  rw [Dev.todRefuse, Dev.tb_tbEvent, Dev.tb_wrN, Dev.tb_setB, Dev.tb_clrB]

theorem tb_todCancel (d : Dev) : (todCancel d).tb = d.tb := by
  unfold todCancel
  split
  · exact d.tb_todRefuse 5
  · rfl

/-- Device time and the FIFO of PTP stamps are the same. -/
def Dev.SameClock (d e : Dev) : Prop := e.now = d.now ∧ e.tb.ptp = d.tb.ptp

theorem Dev.SameClock.of_tb {d e : Dev} (h : e.tb = d.tb) : d.SameClock e := ⟨congrArg Tb.dt h, congrArg Tb.ptp h⟩

theorem Dev.SameClock.trans {a b c : Dev} (hab : a.SameClock b) (hbc : b.SameClock c) : a.SameClock c :=
  ⟨hbc.1.trans hab.1, hbc.2.trans hab.2⟩

theorem Dev.SameClock.ite {c : Prop} [Decidable c] {a d e : Dev} (hd : c → a.SameClock d) (he : ¬ c → a.SameClock e) :
    a.SameClock (if c then d else e) := by
  split
  next h => exact hd h
  next h => exact he h

theorem sameClock_outSyncCmd (d : Dev) : d.SameClock (outSyncCmd d) := ⟨rfl, rfl⟩

theorem Dev.sameClock_outCfgWritten (d : Dev) (n : Nat) : d.SameClock (d.outCfgWritten n) := by
  unfold Dev.outCfgWritten
  split <;> exact ⟨rfl, rfl⟩

/-! ### The island (R531, R532) -/

theorem Dev.sameClock_islandCmd (d : Dev) (k : Nat) (v : Word) : d.SameClock (d.islandCmd k v) := by
  have hsame {e : Dev} (h : e.tb = d.tb) : d.SameClock e := .of_tb h
  unfold Dev.islandCmd
  dsimp only
  refine .ite (fun _ => .ite (fun _ => hsame rfl) fun _ => .ite (fun _ => hsame (tb_todCancel d)) fun _ => hsame rfl) fun _ =>
    .ite (fun _ => .ite (fun _ => sameClock_outSyncCmd d) fun _ => hsame rfl) fun _ =>
    .ite (fun hport => ?port) fun _ => .ite (fun _ => ?display) fun _ => .ite (fun _ => ?aux) fun _ =>
    .ite (fun _ => .ite (fun _ => hsame (tb_soClear _ d)) fun _ => hsame rfl) fun _ => hsame rfl
  case port =>
    exact .ite (fun _ => hsame (tb_linkRestart (by omega) d)) fun _ => .ite (fun _ => hsame (d.tb_eqCal _)) fun _ =>
      .ite (fun _ => hsame (tb_portClearCounts _ d)) fun _ => hsame rfl
  case display =>
    exact .ite (fun _ => hsame (tb_applyTiming d)) fun _ => .ite (fun _ => hsame (tb_dispRetrain d)) fun _ =>
      .ite (fun _ => hsame rfl) fun _ => .ite (fun _ => hsame (tb_dispClearCounts d)) fun _ => hsame rfl
  case aux =>
    exact .ite (fun _ => hsame (tb_auxSeqGo d)) fun _ => .ite (fun _ => hsame (tb_auxCal d)) fun _ =>
      .ite (fun _ => hsame (tb_auxCalAbort d)) fun _ => .ite (fun _ => hsame (tb_auxClear d)) fun _ =>
      .ite (fun _ => hsame (tb_injGo _ d)) fun _ => hsame rfl

theorem Dev.sameClock_islandWrite (d : Dev) (k : Nat) (low : Option Word) (v : Word) : d.SameClock (d.islandWrite k low v) := by
  have hsame {e : Dev} (h : e.tb = d.tb) : d.SameClock e := .of_tb h
  have hstore := d.tb_regStore k v
  unfold Dev.islandWrite
  split
  · exact hsame rfl
  · dsimp only
    split
    · exact hsame (d.tb_sqClear k v)
    · exact d.sameClock_islandCmd k v
    · exact .ite (fun _ => hsame ((Dev.tb_showWarm _).trans hstore)) fun _ =>
        .ite (fun _ => (hsame hstore).trans (Dev.sameClock_outCfgWritten _ _)) fun _ =>
        .ite (fun _ => hsame (tb_laneEqWrite ..)) fun _ => .ite (fun _ => hsame rfl) fun _ =>
        .ite (fun _ => hsame ((Dev.tb_auxSeqCtrl _).trans hstore)) fun _ => .ite (fun _ => hsame hstore) fun _ =>
        .ite (fun _ => hsame ((Dev.tb_tachCfg _ _).trans hstore)) fun _ =>
        .ite (fun _ => hsame ((Dev.tb_showFlow _ _).trans hstore)) fun _ => hsame (d.tb_storePair k low v)
    · exact hsame rfl

/-- The posted write in flight, in effect or failed, leaves device time and the stamps alone. -/
theorem sameClock_postedEffect (b : Nat) (bad : Bool) (d : Dev) : d.SameClock (postedEffect b bad d) := by
  unfold postedEffect
  split
  · exact .of_tb rfl
  · exact .ite (fun _ => .of_tb (d.tb_postFail ..)) fun _ => .ite (fun _ => .of_tb (d.tb_postFail ..)) fun _ =>
      Dev.SameClock.trans (.of_tb rfl) (Dev.sameClock_islandWrite _ _ _ _)

end Sys2Proof.Machine
end

section
/-! SUPPORT. What an idle step does around its REF_IN edge: the attestation snapshot, the fabric's records and the changes edge inputs meet leave the timebase's state alone. -/
namespace Sys2Proof.Machine

theorem tb_attSnap (d : Dev) : (attSnap d).tb = d.tb := by
  unfold attSnap
  split
  · split <;> rfl
  · rfl

/-! ### The fabric's step (R195, R197) -/

theorem Dev.tb_fabPlace (d : Dev) (t : Nat) (r : FabRec) : (d.fabPlace t r).tb = d.tb := by
  unfold Dev.fabPlace
  extract_lets w hdr x held a d1 d2
  split
  · rw [Dev.tb_emit]
    unfold d1
    split
    · rfl
    · rw [Dev.setFab_tb, Dev.tb_emit]
  · rw [Dev.tb_sqEvent, Dev.tb_addSat, Dev.setFab_tb]

theorem Dev.tb_fabFlush (d : Dev) : d.fabFlush.tb = d.tb :=
  (tb_foldl (fun d r => d.tb_fabPlace _ r) _ _).trans (d.setFab_tb _)

theorem Dev.tb_fabNow (d : Dev) : d.fabNow.tb = d.tb := by
  unfold Dev.fabNow
  split
  · rfl
  · exact (Dev.setFab_tb ..).trans d.tb_fabFlush

/-! ### Records of edge inputs and their readers (R261 to R264, R270, R319) -/

theorem Dev.tb_tapStamps (d : Dev) (n : Nat) (r : Rec) : (d.tapStamps n r).tb = d.tb := by
  refine tb_foldl (fun d k => ?_) _ d
  extract_lets c w word x gap words lost
  split
  · split
    · exact Dev.tb_setClWin ..
    · rw [Dev.clEvent, Dev.tb_sqEvent, Dev.tb_addSat, Dev.tb_setClWin]
  · rfl

theorem Dev.tb_stampEmit (d : Dev) (n : Nat) (hdr : Hdr) (payload : List Word128) (excess : Bool) : (d.stampEmit n hdr payload excess).tb = d.tb := by
  have htap : (((d.form hdr payload).1.push (96 + n) (d.form hdr payload).2).tapStamps n (d.form hdr payload).2).tb = d.tb :=
    (Dev.tb_tapStamps ..).trans (d.tb_emit (96 + n) hdr payload)
  have hif (e : Dev) (he : e.tb = d.tb) (l : List Rec) : (if excess then { e with slow := l } else e).tb = d.tb := by
    split
    · exact he
    · exact he
  exact hif _ htap _

theorem Dev.tb_suTake (d : Dev) (u n : Nat) (s : SuItem) : (d.suTake u n s).tb = d.tb := by
  have htake (x : SuSt) (lost : Prop) [Decidable lost] :
      (if lost then (d.setSu u x).sqEvent Reg.SU_STATUS 3 1330 else d.setSu u x).tb = d.tb := by
    split
    · exact Dev.tb_sqEvent ..
    · rfl
  unfold Dev.suTake
  dsimp only
  split
  · exact htake ..
  · split
    · exact htake ..
    · rfl

theorem Dev.tb_suFeed (d : Dev) (n : Nat) (s : SuItem) : (d.suFeed n s).tb = d.tb := tb_foldl (fun d u => d.tb_suTake u n s) _ _

theorem Dev.tb_eiClose (d : Dev) (n close : Nat) : (d.eiClose n close).tb = d.tb := by
  unfold Dev.eiClose
  extract_lets x
  split
  · rfl
  · extract_lets code init w2 body hdr d1
    have h1 : d1.tb = d.tb := (Dev.tb_stampEmit ..).trans (d.setEi_tb _ _)
    split
    · exact (Dev.setEi_tb ..).trans h1
    · exact h1

theorem Dev.tb_eiEntry (d : Dev) (n t : Nat) (w : Word128) (bits : Nat) (cond excess uncal : Bool) (index : Nat) :
    (d.eiEntry n t w bits cond excess uncal index).tb = d.tb := by
  unfold Dev.eiEntry
  extract_lets d1 x b d2
  have h1 : d1.tb = d.tb := by
    unfold d1
    split
    · split
      · exact d.tb_eiClose _ _
      · split
        · exact d.tb_eiClose _ _
        · rfl
    · rfl
  split
  · exact (Dev.tb_eiClose ..).trans ((d1.setEi_tb _ _).trans h1)
  · exact (d1.setEi_tb _ _).trans h1

theorem Dev.tb_eiGap (d : Dev) (n cause : Nat) (g : EiGap) (t1 : Nat) (w1 : Word128) : (d.eiGap n cause g t1 w1).tb = d.tb :=
  (Dev.tb_suFeed ..).trans (Dev.tb_stampEmit ..)

theorem Dev.tb_eiLossEnd (d : Dev) (n t : Nat) (w : Word128) : (d.eiLossEnd n t w).tb = d.tb := by
  unfold Dev.eiLossEnd
  dsimp only
  split
  · exact (Dev.tb_eiGap ..).trans (d.setEi_tb _ _)
  · rfl

theorem Dev.tb_eiFaultEnd (d : Dev) (n t : Nat) (w : Word128) : (d.eiFaultEnd n t w).tb = d.tb := by
  unfold Dev.eiFaultEnd
  dsimp only
  split
  · exact (Dev.tb_eiGap ..).trans (d.setEi_tb _ _)
  · rfl

theorem Dev.tb_eiMeet (d : Dev) (n : Nat) (l : EiLag) : (d.eiMeet n l).tb = d.tb := by
  have hset (e : Dev) (x : EiSt) : (e.setEi n x).tb = e.tb := e.setEi_tb n x
  unfold Dev.eiMeet
  dsimp only
  split
  case h_2 =>
    split
    · rw [Dev.tb_suFeed, hset, Dev.tb_eiFaultEnd, Dev.tb_eiLossEnd, hset]
    · exact hset ..
  case h_5 =>
    split
    · exact d.tb_eiEntry ..
    · rfl
  case h_6 => exact (hset ..).trans (d.tb_eiLossEnd ..)
  case h_7 => exact (hset ..).trans (d.tb_eiFaultEnd ..)
  all_goals exact hset ..

theorem Dev.tb_eiMeetAll (d : Dev) (n : Nat) (l : List EiLag) : (d.eiMeetAll n l).tb = d.tb := by
  unfold Dev.eiMeetAll
  extract_lets d1
  have h1 : d1.tb = d.tb := by
    unfold d1
    split
    · rfl
    · exact d.tb_eiClose _ _
  exact (tb_foldl (fun d v => d.tb_eiMeet n v) _ _).trans h1

theorem Dev.tb_eiDrain (k n t : Nat) (d : Dev) : (Dev.eiDrain k n t d).tb = d.tb := by
  induction k generalizing d with
  | zero => rfl
  | succ k ih =>
    unfold Dev.eiDrain
    dsimp only
    split
    · rfl
    · split
      · rfl
      · exact (ih _).trans ((Dev.tb_eiMeetAll ..).trans (d.setEi_tb _ _))

theorem Dev.tb_eiCatch (d : Dev) (n : Nat) : (d.eiCatch n).tb = d.tb := (Dev.setEi_tb ..).trans (Dev.tb_eiDrain ..)

theorem Dev.tb_eiCatchAll (d : Dev) : d.eiCatchAll.tb = d.tb := tb_foldl (fun d n => d.tb_eiCatch n) _ _

end Sys2Proof.Machine
end

section
/-! SUPPORT. One idle step: the REF_IN edge, and what is left alone where nothing waits (R44, R45, R48). -/
namespace Sys2Proof.Machine

/-! ### The REF_IN edge (R48) -/

theorem Tb.edge_edges (x : Tb) : x.edge.edges = x.edges + 1 := by
  unfold Tb.edge
  dsimp only
  split <;> rfl

theorem Tb.edge_dt (x : Tb) : x.edge.dt = x.dt + x.period + (if x.remDen ≤ x.remAcc + x.remNum ∧ x.remDen ≠ 0 then 1 else 0) := by
  unfold Tb.edge
  dsimp only
  split <;> rfl

theorem refEdge_of_running {d : Dev} (h : d.on Reg.TB_STATUS 6 = false) : refEdge d = d.onTb Tb.edge := by simp [refEdge, h]

theorem refEdge_of_relocked {d : Dev} (h6 : d.on Reg.TB_STATUS 6 = true) (h0 : d.on Reg.TB_STATUS 0 = true) :
    refEdge d = d.clrB Reg.TB_STATUS 6 := by simp [refEdge, holdoverExit, h6, h0]

theorem now_le_now_refEdge_of_holdover {d : Dev} (h : d.on Reg.TB_STATUS 6 = true) : d.now ≤ (refEdge d).now := by
  cases h0 : d.on Reg.TB_STATUS 0
  · simp only [refEdge, h, h0, if_true, Bool.false_eq_true, if_false]
    exact Nat.le_add_right _ _
  · rw [refEdge_of_relocked h h0]
    exact le_refl d.now

/-- The edge touches neither the fabric nor the edge inputs. -/
theorem refEdge_units (d : Dev) : (refEdge d).fab = d.fab ∧ (refEdge d).edge = d.edge := by
  unfold refEdge holdoverExit
  split
  · split
    · split <;> exact ⟨rfl, rfl⟩
    · exact ⟨rfl, rfl⟩
  · exact ⟨rfl, rfl⟩

/-! ### The attestation snapshot (R556) -/

theorem attSnap_regs (d : Dev) : (attSnap d).regs = d.regs := by
  unfold attSnap
  split
  · split <;> rfl
  · rfl

theorem attSnap_units (d : Dev) : (attSnap d).fab = d.fab ∧ (attSnap d).edge = d.edge := by
  unfold attSnap
  split
  · split <;> exact ⟨rfl, rfl⟩
  · exact ⟨rfl, rfl⟩

theorem rd_attSnap (d : Dev) (j : Nat) : (attSnap d).rd j = d.rd j := by rw [Dev.rd, attSnap_regs, Dev.rd]

theorem on_attSnap (d : Dev) (k m : Nat) : (attSnap d).on k m = d.on k m := by rw [Dev.on, rd_attSnap, Dev.on]

/-! ### Where nothing waits -/

theorem Dev.fabFlush_of_nil {d : Dev} (h : d.fab.step = []) : d.fabFlush = d.setFab { d.fab with step := [] } := by
  unfold Dev.fabFlush
  rw [h]
  rfl

/-- A fabric without records of a past step changes no register. -/
theorem Dev.rd_fabNow {d : Dev} (h : d.fab.step = []) (j : Nat) : d.fabNow.rd j = d.rd j := by
  unfold Dev.fabNow
  split
  · rfl
  · rw [Dev.fabFlush_of_nil h]
    rfl

theorem Dev.edge_fabNow {d : Dev} (h : d.fab.step = []) : d.fabNow.edge = d.edge := by
  unfold Dev.fabNow
  split
  · rfl
  · rw [Dev.fabFlush_of_nil h]
    rfl

/-- No edge input has a change or a block to take up. -/
def Dev.noLag (d : Dev) : Prop := ∀ n, (d.eiSt n).lag = []

theorem Tab.get_of_all {α : Type} {p : α → Bool} (dflt : Nat → α) (t : Tab α) (h : t.all (fun e => p e.2) = true) (k : Nat) (hd : p (dflt k) = true) :
    p (t.get dflt k) = true := by
  unfold Tab.get
  induction t with
  | nil => exact hd
  | cons e r ih =>
    obtain ⟨j, v⟩ := e
    rw [List.all_cons, Bool.and_eq_true] at h
    unfold Tab.find?
    split
    · exact h.1
    · exact ih h.2

theorem Dev.noLag_of_all {d : Dev} (h : (d.edge.ins.all fun e => e.2.lag.isEmpty) = true) : d.noLag := fun n =>
  List.isEmpty_iff.mp (Tab.get_of_all (p := fun x : EiSt => x.lag.isEmpty) _ d.edge.ins h n rfl)

/-- An input that has nothing to take up only forgets past settling and ramps. -/
theorem Dev.eiCatch_of_noLag {d : Dev} (h : d.noLag) (n : Nat) : (d.eiCatch n).noLag ∧ ∀ j, (d.eiCatch n).rd j = d.rd j := by
  have hreach (t : Nat) : d.eiReach n t = d := by rw [Dev.eiReach, h n]; rfl
  unfold Dev.eiCatch
  dsimp only
  rw [hreach]
  refine ⟨fun m => ?_, fun j => rfl⟩
  rw [Dev.eiSt_setEi]
  split
  · exact h n
  · exact h m

theorem Dev.rd_eiCatchAll {d : Dev} (h : d.noLag) (j : Nat) : d.eiCatchAll.rd j = d.rd j := by
  unfold Dev.eiCatchAll
  generalize d.edge.ins.map (fun e => e.1) = l
  induction l generalizing d with
  | nil => rfl
  | cons n l ih =>
    obtain ⟨hlag, hrd⟩ := Dev.eiCatch_of_noLag h n
    exact (ih hlag).trans (hrd j)

/-! ### The idle step (R44, R45, R48, R574) -/

theorem idle_of_held {d : Dev} (h : d.timeHeld = true) : idle d = d := if_pos h

theorem idle_of_not_held {d : Dev} (h : d.timeHeld = false) : idle d = ((refEdge (attSnap d)).fabNow).eiCatchAll := if_neg (by simp [h])

theorem tb_idle {d : Dev} (h : d.timeHeld = false) : (idle d).tb = (refEdge (attSnap d)).tb := by
  rw [idle_of_not_held h, Dev.tb_eiCatchAll, Dev.tb_fabNow]

/-- Where no record and no change waits, the registers change by the edge alone. -/
theorem rd_idle {d : Dev} (h : d.timeHeld = false) (hstep : d.fab.step = []) (hlag : (d.edge.ins.all fun e => e.2.lag.isEmpty) = true) (j : Nat) :
    (idle d).rd j = (refEdge (attSnap d)).rd j := by
  obtain ⟨hfab, hedge⟩ := refEdge_units (attSnap d)
  obtain ⟨hfab', hedge'⟩ := attSnap_units d
  have hstep' : (refEdge (attSnap d)).fab.step = [] := by rw [hfab, hfab', hstep]
  have hlag' : (refEdge (attSnap d)).fabNow.noLag := Dev.noLag_of_all (by rw [Dev.edge_fabNow hstep', hedge, hedge', hlag])
  rw [idle_of_not_held h, Dev.rd_eiCatchAll hlag', Dev.rd_fabNow hstep']

theorem step_of_idle {s : State} (h : s.pending = []) : step s = .next { s with dev := idle s.dev } := by
  unfold step
  rw [h]

/-- With the timebase counting REF_IN, an idle step advances device time by the period in force and the remainder that comes due. -/
theorem step_of_running (s : State) (hp : s.pending = []) (hheld : s.dev.timeHeld = false) (h6 : s.dev.on Reg.TB_STATUS 6 = false) :
    ∃ t, step s = .next t ∧ t.pending = [] ∧ t.mem = s.mem ∧ t.dev.tb.edges = s.dev.tb.edges + 1
      ∧ t.dev.now = s.dev.now + s.dev.tb.period
          + (if s.dev.tb.remDen ≤ s.dev.tb.remAcc + s.dev.tb.remNum ∧ s.dev.tb.remDen ≠ 0 then 1 else 0)
      ∧ (s.dev.fab.step = [] → (s.dev.edge.ins.all fun e => e.2.lag.isEmpty) = true → ∀ j, t.dev.rd j = s.dev.rd j) := by
  have hedge : refEdge (attSnap s.dev) = (attSnap s.dev).onTb Tb.edge := refEdge_of_running ((on_attSnap ..).trans h6)
  have htb : (idle s.dev).tb = s.dev.tb.edge := by
    rw [tb_idle hheld, hedge]
    exact congrArg Tb.edge (tb_attSnap s.dev)
  refine ⟨_, step_of_idle hp, hp, rfl, ?_, ?_, fun hstep hlag j => ?_⟩
  · exact (congrArg Tb.edges htb).trans s.dev.tb.edge_edges
  · exact (congrArg Tb.dt htb).trans s.dev.tb.edge_dt
  · exact (rd_idle hheld hstep hlag j).trans (hedge ▸ rd_attSnap s.dev j)

/-- Counting resumes at an edge after the DLL has relocked, from the current device time. -/
theorem step_of_relocked (s : State) (hp : s.pending = []) (hheld : s.dev.timeHeld = false) (h6 : s.dev.on Reg.TB_STATUS 6 = true)
    (h0 : s.dev.on Reg.TB_STATUS 0 = true) :
    ∃ t, step s = .next t ∧ t.dev.now = s.dev.now
      ∧ (s.dev.fab.step = [] → (s.dev.edge.ins.all fun e => e.2.lag.isEmpty) = true → t.dev.on Reg.TB_STATUS 6 = false) := by
  have hedge : refEdge (attSnap s.dev) = (attSnap s.dev).clrB Reg.TB_STATUS 6 :=
    refEdge_of_relocked ((on_attSnap ..).trans h6) ((on_attSnap ..).trans h0)
  refine ⟨_, step_of_idle hp, ?_, fun hstep hlag => ?_⟩
  · have htb : (idle s.dev).tb = s.dev.tb := by rw [tb_idle hheld, hedge, Dev.tb_clrB, tb_attSnap]
    exact congrArg Tb.dt htb
  · show (idle s.dev).on Reg.TB_STATUS 6 = false
    rw [Dev.on_congr 6 (rd_idle hheld hstep hlag _), hedge, Dev.on_clrB_self _ _ _ (by decide)]

/-- In holdover device time never goes back. -/
theorem step_of_holdover (s : State) (hp : s.pending = []) (h6 : s.dev.on Reg.TB_STATUS 6 = true) : ∃ t, step s = .next t ∧ s.dev.now ≤ t.dev.now := by
  refine ⟨_, step_of_idle hp, ?_⟩
  show s.dev.now ≤ (idle s.dev).now
  cases hheld : s.dev.timeHeld
  · have hnow : (idle s.dev).now = (refEdge (attSnap s.dev)).now := congrArg Tb.dt (tb_idle hheld)
    have hsnap : (attSnap s.dev).now = s.dev.now := congrArg Tb.dt (tb_attSnap s.dev)
    rw [hnow, ← hsnap]
    exact now_le_now_refEdge_of_holdover ((on_attSnap ..).trans h6)
  · rw [idle_of_held hheld]

theorem step_of_held (s : State) (hp : s.pending = []) (h : s.dev.timeHeld = true) : step s = .next s := by
  rw [step_of_idle hp, idle_of_held h]

end Sys2Proof.Machine
end

section
/-! SUPPORT. The reference, holdover and lock, and the proof of the statement about them. -/
namespace Sys2Proof.Machine

/-! ### Status bits and events of the timebase (R65, R68) -/

theorem tbStatus_ne_evSeq (n : Nat) : Reg.TB_STATUS ≠ Reg.EV_SEQ n := by unfold Reg.TB_STATUS Reg.EV_SEQ; omega

theorem Dev.on_tbEvent (d : Dev) (n : Nat) {m : Nat} (hm : m < 16) : (d.tbEvent n).on Reg.TB_STATUS m = d.on Reg.TB_STATUS m :=
  Dev.on_event d _ n hm (tbStatus_ne_evSeq n)

theorem Dev.rd_tbEvent_ne (d : Dev) {n j : Nat} (hst : j ≠ Reg.TB_STATUS) (hev : j ≠ Reg.EV_SEQ n) : (d.tbEvent n).rd j = d.rd j :=
  Dev.rd_event_ne d _ n hst hev

/-- An event of a block counts once in its own sequence number. -/
theorem Dev.n_event_self (d : Dev) {st n : Nat} (h : Reg.EV_SEQ n ≠ st) : (d.event st n).n (Reg.EV_SEQ n) = (d.n (Reg.EV_SEQ n) + 1) % 2 ^ 32 := by
  have hseq : (d.seqInc st).n (Reg.EV_SEQ n) = d.n (Reg.EV_SEQ n) := Dev.n_congr (Dev.rd_wr_ne d _ h)
  have hrd : (d.event st n).rd (Reg.EV_SEQ n) = BitVec.ofNat 32 ((d.seqInc st).n (Reg.EV_SEQ n) + 1) := by
    rw [Dev.event, Dev.rd_raise, if_pos rfl]
  rw [Dev.n, hrd, BitVec.toNat_ofNat, hseq]

theorem Dev.n_tbEvent_self (d : Dev) (n : Nat) : (d.tbEvent n).n (Reg.EV_SEQ n) = (d.n (Reg.EV_SEQ n) + 1) % 2 ^ 32 :=
  d.n_event_self (tbStatus_ne_evSeq n).symm

/-- Setting a bit leaves the others of its register. -/
theorem Dev.on_setB_bit_ne (d : Dev) (k : Nat) {i m : Nat} (hi : i < 32) (h : m ≠ i) : (d.setB k i).on k m = d.on k m := by
  simp [Dev.on_setB d k k m i hi, h]

theorem Dev.on_clrB_bit_ne (d : Dev) (k : Nat) {i m : Nat} (hi : i < 32) (hm : m < 32) (h : m ≠ i) : (d.clrB k i).on k m = d.on k m := by
  simp [Dev.on_clrB d k k m i hi hm, h]

theorem Dev.f_congr {d e : Dev} {j : Nat} (lo len : Nat) (h : e.rd j = d.rd j) : e.f j lo len = d.f j lo len := congrArg (fld · lo len) h

theorem Dev.tb_modFollow (old new : Dev) : (old.modFollow new).tb = new.tb := (sameOn_modFollow old new).1

theorem Dev.on_modFollow (old new : Dev) (m : Nat) : (old.modFollow new).on Reg.TB_STATUS m = new.on Reg.TB_STATUS m :=
  Dev.on_congr m ((sameOn_modFollow old new).2 _ (by unfold belowAux; decide))

/-! ### Lock declared and lost (R41, R42, R68) -/

theorem Dev.lockDeclare_of_unlocked {d : Dev} (h : d.on Reg.TB_STATUS 1 = false) : d.lockDeclare = (d.setB Reg.TB_STATUS 1).tbEvent 1480 := by
  simp [Dev.lockDeclare, h]

theorem Dev.on_lockDeclare (d : Dev) : d.lockDeclare.on Reg.TB_STATUS 1 = true := by
  cases h : d.on Reg.TB_STATUS 1
  · rw [Dev.lockDeclare_of_unlocked h, Dev.on_tbEvent _ _ (by decide), Dev.on_setB_self _ _ _ (by decide)]
  · simp [Dev.lockDeclare, h]

theorem Dev.rd_lockDeclare_ne (d : Dev) {j : Nat} (hst : j ≠ Reg.TB_STATUS) (hev : j ≠ Reg.EV_SEQ 1480) : d.lockDeclare.rd j = d.rd j := by
  unfold Dev.lockDeclare
  split
  · rfl
  · exact (Dev.rd_tbEvent_ne _ hst hev).trans (d.rd_setB_ne _ hst)

theorem Dev.tb_lockDeclare (d : Dev) : d.lockDeclare.tb = d.tb := by
  unfold Dev.lockDeclare
  split
  · rfl
  · rw [Dev.tb_tbEvent, Dev.tb_setB]

theorem Dev.lockLost_of_locked {d : Dev} (h : d.on Reg.TB_STATUS 1 = true) :
    d.lockLost = ((d.clrB Reg.TB_STATUS 1).setB Reg.TB_STATUS 8).tbEvent 1480 := if_pos h

theorem Dev.lockLost_of_unlocked {d : Dev} (h : d.on Reg.TB_STATUS 1 = false) : d.lockLost = d := by simp [Dev.lockLost, h]

theorem Dev.tb_lockLost (d : Dev) : d.lockLost.tb = d.tb := by
  unfold Dev.lockLost
  split
  · rw [Dev.tb_tbEvent, Dev.tb_setB, Dev.tb_clrB]
  · rfl

/-- After a loss of lock REF_LOCKED reads 0, whatever it read before. -/
theorem Dev.on_lockLost_refLocked (d : Dev) : d.lockLost.on Reg.TB_STATUS 1 = false := by
  cases h : d.on Reg.TB_STATUS 1
  · rw [Dev.lockLost_of_unlocked h, h]
  · rw [Dev.lockLost_of_locked h, Dev.on_tbEvent _ _ (by decide), Dev.on_setB_bit_ne _ _ (by decide) (by decide),
      Dev.on_clrB_self _ _ _ (by decide)]

theorem Dev.on_lockLost_lost {d : Dev} (h : d.on Reg.TB_STATUS 1 = true) : d.lockLost.on Reg.TB_STATUS 8 = true := by
  rw [Dev.lockLost_of_locked h, Dev.on_tbEvent _ _ (by decide), Dev.on_setB_self _ _ _ (by decide)]

/-- A loss of lock leaves the other status bits. -/
theorem Dev.on_lockLost_ne (d : Dev) {m : Nat} (hm : m < 16) (h1 : m ≠ 1) (h8 : m ≠ 8) : d.lockLost.on Reg.TB_STATUS m = d.on Reg.TB_STATUS m := by
  cases h : d.on Reg.TB_STATUS 1
  · rw [Dev.lockLost_of_unlocked h]
  · rw [Dev.lockLost_of_locked h, Dev.on_tbEvent _ _ hm, Dev.on_setB_bit_ne _ _ (by decide) h8,
      Dev.on_clrB_bit_ne _ _ (by decide) (by omega) h1]

theorem Dev.n_lockLost {d : Dev} (h : d.on Reg.TB_STATUS 1 = true) :
    d.lockLost.n (Reg.EV_SEQ 1480) = (d.n (Reg.EV_SEQ 1480) + 1) % 2 ^ 32 := by
  have hne := (tbStatus_ne_evSeq 1480).symm
  rw [Dev.lockLost_of_locked h, Dev.n_tbEvent_self,
    Dev.n_congr ((Dev.rd_setB_ne _ 8 hne).trans (Dev.rd_clrB_ne _ 1 hne))]

theorem Dev.n_lockDeclare {d : Dev} (h : d.on Reg.TB_STATUS 1 = false) :
    d.lockDeclare.n (Reg.EV_SEQ 1480) = (d.n (Reg.EV_SEQ 1480) + 1) % 2 ^ 32 := by
  rw [Dev.lockDeclare_of_unlocked h, Dev.n_tbEvent_self, Dev.n_congr (Dev.rd_setB_ne _ 1 (tbStatus_ne_evSeq 1480).symm)]

/-! ### The DLL (R40) -/

theorem dllLock_of_unlocked {d : Dev} (h : d.on Reg.TB_STATUS 0 = false) :
    dllLock d = ((d.setB Reg.TB_STATUS 0).onTb fun x => { x with refPresent := true, refSince := (d.setB Reg.TB_STATUS 0).up }).startGate :=
  if_neg (by simp [h])

theorem now_dllLock (d : Dev) : (dllLock d).now = d.now := by
  unfold dllLock
  split <;> rfl

/-- The device when the DLL has lost lock and device time goes over to holdover; the lock to the standard follows. -/
def Dev.dllDown (d : Dev) : Dev := (((d.clrB Reg.TB_STATUS 0).setB Reg.TB_STATUS 10).tbEvent 1482).setB Reg.TB_STATUS 6

theorem dllLost_of_locked {d : Dev} (h : d.on Reg.TB_STATUS 0 = true) :
    dllLost d = d.dllDown.lockLost.onTb fun x => { x with gateOpen := false, goodGates := 0 } := if_pos h

theorem dllLost_of_unlocked {d : Dev} (h : d.on Reg.TB_STATUS 0 = false) : dllLost d = d := if_neg (by simp [h])

theorem Dev.tb_dllDown (d : Dev) : d.dllDown.tb = d.tb := by
  rw [Dev.dllDown, Dev.tb_setB, Dev.tb_tbEvent, Dev.tb_setB, Dev.tb_clrB]

theorem Dev.on_dllDown (d : Dev) {m : Nat} (hm : m < 16) :
    d.dllDown.on Reg.TB_STATUS m = (decide (m = 6) || decide (m = 10) || (d.on Reg.TB_STATUS m && decide (m ≠ 0))) := by
  rw [Dev.dllDown, Dev.on_setB _ _ _ _ _ (by decide), Dev.on_tbEvent _ _ hm, Dev.on_setB _ _ _ _ _ (by decide),
    Dev.on_clrB _ _ _ _ _ (by decide) (by omega)]
  simp only [decide_true, Bool.true_and, decide_not]
  cases d.on Reg.TB_STATUS m <;> cases decide (m = 0) <;> cases decide (m = 6) <;> cases decide (m = 10) <;> rfl

/-- After a loss of the DLL's lock, DLL_LOCKED reads 0, whatever it read before. -/
theorem on_dllLost_dllLocked (d : Dev) : (dllLost d).on Reg.TB_STATUS 0 = false := by
  cases h : d.on Reg.TB_STATUS 0
  · rw [dllLost_of_unlocked h, h]
  · rw [dllLost_of_locked h, Dev.onTb_on, Dev.on_lockLost_ne _ (by decide) (by decide) (by decide), Dev.on_dllDown _ (by decide)]
    simp

/-- The status bits that the DLL does not touch. -/
theorem on_dllLost_refLost (d : Dev) : (dllLost d).on Reg.TB_STATUS 9 = d.on Reg.TB_STATUS 9 := by
  cases h : d.on Reg.TB_STATUS 0
  · rw [dllLost_of_unlocked h]
  · rw [dllLost_of_locked h, Dev.onTb_on, Dev.on_lockLost_ne _ (by decide) (by decide) (by decide), Dev.on_dllDown _ (by decide)]
    simp

/-- The DLL's loss of lock changes the gate alone in the timebase's own state. -/
theorem tb_dllLost (d : Dev) : (dllLost d).tb = d.tb ∨ (dllLost d).tb = { d.tb with gateOpen := false, goodGates := 0 } := by
  cases h : d.on Reg.TB_STATUS 0
  · exact .inl (congrArg Dev.tb (dllLost_of_unlocked h))
  · have htb : d.dllDown.lockLost.tb = d.tb := (Dev.tb_lockLost _).trans d.tb_dllDown
    rw [dllLost_of_locked h]
    exact .inr (congrArg (fun x : Tb => { x with gateOpen := false, goodGates := 0 }) htb)

/-! ### Holdover (R44, R45) -/

/-- The device when REF_IN has been declared absent, before what follows from it. -/
def Dev.refAbsent (d : Dev) : Dev := ((d.onTb fun x => { x with refPresent := false }).setB Reg.TB_STATUS 9).tbEvent 1481

theorem holdoverEnter_eq (d : Dev) : holdoverEnter d = ((dllLost d.refAbsent).setB Reg.TB_STATUS 6).lockLost.refLoss := rfl

theorem Dev.on_refAbsent (d : Dev) : d.refAbsent.on Reg.TB_STATUS 9 = true := by
  rw [Dev.refAbsent, Dev.on_tbEvent _ _ (by decide), Dev.on_setB_self _ _ _ (by decide)]

/-- The link faults that follow an absent REF_IN leave the status of the timebase. -/
theorem on_holdoverEnter (d : Dev) (m : Nat) :
    (holdoverEnter d).on Reg.TB_STATUS m = ((dllLost d.refAbsent).setB Reg.TB_STATUS 6).lockLost.on Reg.TB_STATUS m :=
  Dev.on_congr m ((sameOn_refLoss _).2 _ (by unfold timebaseKey; decide))

theorem tb_holdoverEnter (d : Dev) : (holdoverEnter d).tb = (dllLost d.refAbsent).tb := by
  rw [holdoverEnter_eq, (sameOn_refLoss _).1, Dev.tb_lockLost, Dev.tb_setB]

theorem Dev.tb_refAbsent (d : Dev) : d.refAbsent.tb = { d.tb with refPresent := false } := by
  rw [Dev.refAbsent, Dev.tb_tbEvent, Dev.tb_setB]
  rfl

theorem tb_holdoverEnter_cases (d : Dev) : (holdoverEnter d).tb = { d.tb with refPresent := false }
    ∨ (holdoverEnter d).tb = { d.tb with refPresent := false, gateOpen := false, goodGates := 0 } := by
  have h := tb_dllLost d.refAbsent
  rw [d.tb_refAbsent, ← tb_holdoverEnter] at h
  exact h

/-! ### Gates of the compare mode (R41) -/

/-- The device with the measurement of a gate in LOCK_MEAS. -/
def Dev.gateMeasured (d : Dev) (count : Nat) : Dev :=
  d.wrN Reg.LOCK_MEAS (wrapU 32 (satS 32 (roundAway (((count * 2 ^ 24 : Nat) : Int) - (d.gateExpected : Int)) (2 ^ 24))))

theorem Dev.rd_gateMeasured_ne (d : Dev) (count : Nat) {j : Nat} (h : j ≠ Reg.LOCK_MEAS) : (d.gateMeasured count).rd j = d.rd j := d.rd_wrN_ne _ h

/-- A gate within its window counts, and declares lock if enough came in a row. -/
theorem lockGateEnd_of_good {d : Dev} {count : Nat} (hmode : d.compareMode = true) (hopen : d.tb.gateOpen = true)
    (hok : (((count * 2 ^ 24 : Nat) : Int) - (d.gateExpected : Int)).natAbs ≤ d.gateWindow * 2 ^ 24)
    (henough : d.f Reg.TB_CTRL 28 4 ≤ d.tb.goodGates + 1) :
    lockGateEnd count d = ((d.gateMeasured count).onTb fun x => { x with goodGates := x.goodGates + 1 }).lockDeclare := by
  have hctrl := Dev.f_congr 28 4 (d.rd_gateMeasured_ne count (j := Reg.TB_CTRL) (by decide))
  unfold lockGateEnd
  rw [if_pos ⟨hmode, hopen⟩]
  dsimp only
  rw [if_pos (decide_eq_true hok)]
  exact if_pos (hctrl.trans_le henough)

/-- A gate outside its window loses lock. -/
theorem lockGateEnd_of_bad {d : Dev} {count : Nat} (hmode : d.compareMode = true) (hopen : d.tb.gateOpen = true)
    (hbad : d.gateWindow * 2 ^ 24 < (((count * 2 ^ 24 : Nat) : Int) - (d.gateExpected : Int)).natAbs) :
    lockGateEnd count d = ((d.gateMeasured count).onTb fun x => { x with goodGates := 0 }).lockLost := by
  unfold lockGateEnd
  rw [if_pos ⟨hmode, hopen⟩]
  dsimp only
  rw [if_neg (by simpa using hbad)]
  rfl

theorem Dev.now_congr {d e : Dev} (h : e.tb = d.tb) : e.now = d.now := congrArg Tb.dt h

theorem now_lockGateEnd (count : Nat) (d : Dev) : (lockGateEnd count d).now = d.now := by
  unfold lockGateEnd
  split
  · dsimp only
    split
    · split
      · exact (Dev.now_congr (Dev.tb_lockDeclare _)).trans rfl
      · rfl
    · exact (Dev.now_congr (Dev.tb_lockLost _)).trans rfl
  · rfl

/-! ### FREQ_STD, activity and warm-up (R41 to R43) -/

theorem freqReturn_of_absent {d : Dev} (h : d.tb.freqPresent = false) :
    freqReturn d = (d.onTb fun x => { x with freqPresent := true }).startGate := if_neg (by simp [h])

theorem freqAbsent_of_compare {d : Dev} (h : d.tb.freqPresent = true) (hmode : d.compareMode = true) :
    freqAbsent d = (d.onTb fun x => { x with freqPresent := false, gateOpen := false, goodGates := 0 }).lockLost :=
  (if_pos h).trans (if_pos hmode)

theorem now_freqAbsent (d : Dev) : (freqAbsent d).now = d.now := by
  unfold freqAbsent
  split
  · dsimp only
    split
    · exact (Dev.now_congr (Dev.tb_lockLost _)).trans rfl
    · rfl
  · rfl

theorem now_freqReturn (d : Dev) : (freqReturn d).now = d.now := by
  unfold freqReturn
  split <;> rfl

theorem tb_activityLock (d : Dev) : (activityLock d).tb = d.tb := by
  unfold activityLock
  split
  · exact d.tb_lockDeclare
  · rfl

theorem now_warmChange (level : Bool) (d : Dev) : (warmChange level d).now = d.now :=
  (Dev.now_congr (Dev.tb_showWarm _)).trans rfl

/-- WARM shows the pin's level against its polarity. -/
theorem on_warmChange (level : Bool) (d : Dev) : (warmChange level d).on Reg.TB_STATUS 3 = (level != d.on Reg.TB_CTRL 2) := by
  unfold warmChange Dev.showWarm
  dsimp only
  split
  next h => exact h
  next => rw [Dev.on_tbEvent _ _ (by decide), Dev.on_putB_self _ _ _ _ (by decide)]; rfl

theorem rd_warmChange_ne (level : Bool) (d : Dev) {j : Nat} (hst : j ≠ Reg.TB_STATUS) (hev : j ≠ Reg.EV_SEQ 1483) :
    (warmChange level d).rd j = d.rd j := by
  unfold warmChange Dev.showWarm
  dsimp only
  split
  · rfl
  · exact (Dev.rd_tbEvent_ne _ hst hev).trans (Dev.rd_putB_ne _ _ _ hst)

/-- Each change of WARM raises its event. -/
theorem n_warmChange {level : Bool} {d : Dev} (h : d.on Reg.TB_STATUS 3 ≠ (level != d.on Reg.TB_CTRL 2)) :
    (warmChange level d).n (Reg.EV_SEQ 1483) = (d.n (Reg.EV_SEQ 1483) + 1) % 2 ^ 32 := by
  have hchange : warmChange level d
      = ((d.onTb fun x => { x with warmPin := level }).putB Reg.TB_STATUS 3 (level != d.on Reg.TB_CTRL 2)).tbEvent 1483 := if_neg h
  rw [hchange, Dev.n_tbEvent_self, Dev.n_congr (Dev.rd_putB_ne _ _ _ (tbStatus_ne_evSeq 1483).symm), Dev.onTb_n]

/-! ### The statements on the reference and lock -/

theorem exec_dllLock (s : State) (h : s.dev.on Reg.TB_STATUS 0 = false) :
    ∃ t, exec .dllLock s = .next t ∧ t.dev.on Reg.TB_STATUS 0 = true ∧ t.dev.tb.refPresent = true ∧ t.dev.now = s.dev.now := by
  refine ⟨{ s with dev := s.dev.modFollow (dllLock s.dev) }, rfl, ?_, ?_, ?_⟩
  · have hon : (dllLock s.dev).on Reg.TB_STATUS 0 = true := by
      rw [dllLock_of_unlocked h]
      exact Dev.on_setB_self _ _ _ (by decide)
    exact (Dev.on_modFollow ..).trans hon
  · show (s.dev.modFollow (dllLock s.dev)).tb.refPresent = true
    rw [Dev.tb_modFollow, dllLock_of_unlocked h]
    rfl
  · exact (congrArg Tb.dt (Dev.tb_modFollow ..)).trans (now_dllLock s.dev)

/-- A loss of the DLL's lock clears lock, and device time runs in holdover. -/
theorem exec_dllLockLoss (s : State) (h : s.dev.on Reg.TB_STATUS 0 = true) :
    ∃ t, exec .dllLockLoss s = .next t ∧ t.dev.on Reg.TB_STATUS 0 = false ∧ t.dev.on Reg.TB_STATUS 1 = false
      ∧ t.dev.on Reg.TB_STATUS 10 = true ∧ t.dev.on Reg.TB_STATUS 6 = true ∧ t.dev.tb.gateOpen = false := by
  have hon (m : Nat) (hm : m < 16) (h1 : m ≠ 1) (h8 : m ≠ 8) : (s.dev.modFollow (dllLost s.dev)).on Reg.TB_STATUS m = s.dev.dllDown.on Reg.TB_STATUS m := by
    rw [Dev.on_modFollow, dllLost_of_locked h, Dev.onTb_on, Dev.on_lockLost_ne _ hm h1 h8]
  refine ⟨{ s with dev := s.dev.modFollow (dllLost s.dev) }, rfl, ?_, ?_, ?_, ?_, ?_⟩
  · exact (Dev.on_modFollow ..).trans (on_dllLost_dllLocked s.dev)
  · show (s.dev.modFollow (dllLost s.dev)).on Reg.TB_STATUS 1 = false
    rw [Dev.on_modFollow, dllLost_of_locked h, Dev.onTb_on, Dev.on_lockLost_refLocked]
  · exact (hon 10 (by decide) (by decide) (by decide)).trans (by rw [Dev.on_dllDown _ (by decide)]; rfl)
  · exact (hon 6 (by decide) (by decide) (by decide)).trans (by rw [Dev.on_dllDown _ (by decide)]; rfl)
  · show (s.dev.modFollow (dllLost s.dev)).tb.gateOpen = false
    rw [Dev.tb_modFollow, dllLost_of_locked h]
    rfl

theorem exec_holdoverEnter (s : State) :
    ∃ t, exec .holdoverEnter s = .next t ∧ t.dev.tb.refPresent = false ∧ t.dev.on Reg.TB_STATUS 9 = true
      ∧ t.dev.on Reg.TB_STATUS 6 = true ∧ t.dev.on Reg.TB_STATUS 1 = false ∧ t.dev.on Reg.TB_STATUS 0 = false := by
  have hon (m : Nat) : (s.dev.modFollow (holdoverEnter s.dev)).on Reg.TB_STATUS m
      = ((dllLost s.dev.refAbsent).setB Reg.TB_STATUS 6).lockLost.on Reg.TB_STATUS m := (Dev.on_modFollow ..).trans (on_holdoverEnter ..)
  refine ⟨{ s with dev := s.dev.modFollow (holdoverEnter s.dev) }, rfl, ?_, (hon 9).trans ?_, (hon 6).trans ?_, (hon 1).trans ?_, (hon 0).trans ?_⟩
  · show (s.dev.modFollow (holdoverEnter s.dev)).tb.refPresent = false
    rw [Dev.tb_modFollow]
    rcases tb_holdoverEnter_cases s.dev with h | h <;> rw [h]
  · rw [Dev.on_lockLost_ne _ (by decide) (by decide) (by decide), Dev.on_setB_bit_ne _ _ (by decide) (by decide), on_dllLost_refLost, Dev.on_refAbsent]
  · rw [Dev.on_lockLost_ne _ (by decide) (by decide) (by decide), Dev.on_setB_self _ _ _ (by decide)]
  · exact Dev.on_lockLost_refLocked _
  · rw [Dev.on_lockLost_ne _ (by decide) (by decide) (by decide), Dev.on_setB_bit_ne _ _ (by decide) (by decide), on_dllLost_dllLocked]

/-- Counting resumes from the current device time once the DLL has locked. -/
theorem exec_holdoverExit (s : State) (h6 : s.dev.on Reg.TB_STATUS 6 = true) (h0 : s.dev.on Reg.TB_STATUS 0 = true) :
    ∃ t, exec .holdoverExit s = .next t ∧ t.dev.on Reg.TB_STATUS 6 = false ∧ t.dev.now = s.dev.now
      ∧ ∀ j, j ≠ Reg.TB_STATUS → t.dev.rd j = s.dev.rd j := by
  refine ⟨{ s with dev := s.dev.clrB Reg.TB_STATUS 6 }, ?_, Dev.on_clrB_self _ _ _ (by decide), rfl, fun j hj => Dev.rd_clrB_ne _ _ hj⟩
  show s.onDev holdoverExit = _
  rw [State.onDev_eq, holdoverExit, if_pos ⟨h6, h0⟩]

/-- Enough good gates in a row declare lock. -/
theorem exec_lockGateEnd_good (s : State) (count : Nat) (hmode : s.dev.compareMode = true) (hopen : s.dev.tb.gateOpen = true)
    (hok : (((count * 2 ^ 24 : Nat) : Int) - (s.dev.gateExpected : Int)).natAbs ≤ s.dev.gateWindow * 2 ^ 24)
    (henough : s.dev.f Reg.TB_CTRL 28 4 ≤ s.dev.tb.goodGates + 1) (h1 : s.dev.on Reg.TB_STATUS 1 = false) :
    ∃ t, exec (.lockGateEnd count) s = .next t ∧ t.dev.on Reg.TB_STATUS 1 = true ∧ t.dev.tb.goodGates = s.dev.tb.goodGates + 1
      ∧ t.dev.n (Reg.EV_SEQ 1480) = (s.dev.n (Reg.EV_SEQ 1480) + 1) % 2 ^ 32 := by
  have hgate := lockGateEnd_of_good hmode hopen hok henough
  refine ⟨{ s with dev := lockGateEnd count s.dev }, rfl, ?_, ?_, ?_⟩
  · exact hgate ▸ Dev.on_lockDeclare _
  · show (lockGateEnd count s.dev).tb.goodGates = _
    rw [hgate, Dev.tb_lockDeclare]
    rfl
  · have hmeas := (Dev.on_congr 1 (s.dev.rd_gateMeasured_ne count (by decide))).trans h1
    show (lockGateEnd count s.dev).n _ = _
    rw [hgate, Dev.n_lockDeclare ((Dev.onTb_on ..).trans hmeas), Dev.onTb_n, Dev.n_congr (s.dev.rd_gateMeasured_ne count (by decide))]

/-- One bad gate loses it. -/
theorem exec_lockGateEnd_bad (s : State) (count : Nat) (hmode : s.dev.compareMode = true) (hopen : s.dev.tb.gateOpen = true)
    (hbad : s.dev.gateWindow * 2 ^ 24 < (((count * 2 ^ 24 : Nat) : Int) - (s.dev.gateExpected : Int)).natAbs)
    (h1 : s.dev.on Reg.TB_STATUS 1 = true) :
    ∃ t, exec (.lockGateEnd count) s = .next t ∧ t.dev.on Reg.TB_STATUS 1 = false ∧ t.dev.on Reg.TB_STATUS 8 = true
      ∧ t.dev.tb.goodGates = 0 ∧ t.dev.n (Reg.EV_SEQ 1480) = (s.dev.n (Reg.EV_SEQ 1480) + 1) % 2 ^ 32 := by
  have hgate := lockGateEnd_of_bad hmode hopen hbad
  have hmeas := (Dev.on_congr 1 (s.dev.rd_gateMeasured_ne count (by decide))).trans h1
  refine ⟨{ s with dev := lockGateEnd count s.dev }, rfl, ?_, ?_, ?_, ?_⟩
  · exact hgate ▸ Dev.on_lockLost_refLocked _
  · show (lockGateEnd count s.dev).on _ 8 = true
    rw [hgate, Dev.on_lockLost_lost ((Dev.onTb_on ..).trans hmeas)]
  · show (lockGateEnd count s.dev).tb.goodGates = 0
    rw [hgate, Dev.tb_lockLost]
    rfl
  · show (lockGateEnd count s.dev).n _ = _
    rw [hgate, Dev.n_lockLost ((Dev.onTb_on ..).trans hmeas), Dev.onTb_n, Dev.n_congr (s.dev.rd_gateMeasured_ne count (by decide))]

theorem exec_freqStdAbsent (s : State) (h : s.dev.tb.freqPresent = true) (hmode : s.dev.compareMode = true) (h1 : s.dev.on Reg.TB_STATUS 1 = true) :
    ∃ t, exec .freqStdAbsent s = .next t ∧ t.dev.tb.freqPresent = false ∧ t.dev.tb.gateOpen = false
      ∧ t.dev.on Reg.TB_STATUS 1 = false ∧ t.dev.on Reg.TB_STATUS 8 = true ∧ t.dev.now = s.dev.now := by
  have heq := freqAbsent_of_compare h hmode
  have htb := (congrArg Dev.tb heq).trans (Dev.tb_lockLost _)
  refine ⟨{ s with dev := freqAbsent s.dev }, rfl, congrArg Tb.freqPresent htb, congrArg Tb.gateOpen htb, ?_, ?_, now_freqAbsent _⟩
  · exact heq ▸ Dev.on_lockLost_refLocked _
  · exact heq ▸ Dev.on_lockLost_lost h1

/-- The first edge after an absence starts a new gate, where the DLL is locked. -/
theorem exec_freqStdReturn (s : State) (h : s.dev.tb.freqPresent = false) :
    ∃ t, exec .freqStdReturn s = .next t ∧ t.dev.tb.freqPresent = true ∧ t.dev.tb.gateOpen = s.dev.on Reg.TB_STATUS 0
      ∧ t.dev.tb.goodGates = 0 ∧ ∀ j, t.dev.rd j = s.dev.rd j := by
  refine ⟨{ s with dev := (s.dev.onTb fun x => { x with freqPresent := true }).startGate }, ?_, rfl, rfl, rfl, fun j => rfl⟩
  show s.onDev freqReturn = _
  rw [State.onDev_eq, freqReturn_of_absent h]

theorem exec_activityLockDeclare (s : State) (hmode : s.dev.compareMode = false) (h0 : s.dev.on Reg.TB_STATUS 0 = true)
    (href : s.dev.tb.refPresent = true)
    (hlong : elapsedNs s.dev.tb.refSince s.dev.up (s.dev.f Reg.TB_CTRL 28 4 * s.dev.f Reg.TB_CTRL 4 10 * 1000000) = true) :
    ∃ t, exec .activityLockDeclare s = .next t ∧ t.dev.on Reg.TB_STATUS 1 = true
      ∧ ∀ j, j ≠ Reg.TB_STATUS → j ≠ Reg.EV_SEQ 1480 → t.dev.rd j = s.dev.rd j := by
  refine ⟨{ s with dev := s.dev.lockDeclare }, ?_, Dev.on_lockDeclare _, fun j hst hev => Dev.rd_lockDeclare_ne _ hst hev⟩
  show s.onDev activityLock = _
  rw [State.onDev_eq, activityLock, if_pos ⟨by simp [hmode], h0, href, hlong⟩]

theorem exec_ocxoWarmChange (s : State) (level : Bool) :
    ∃ t, exec (.ocxoWarmChange level) s = .next t ∧ t.dev.on Reg.TB_STATUS 3 = (level != s.dev.on Reg.TB_CTRL 2)
      ∧ (s.dev.on Reg.TB_STATUS 3 ≠ (level != s.dev.on Reg.TB_CTRL 2) →
          t.dev.n (Reg.EV_SEQ 1483) = (s.dev.n (Reg.EV_SEQ 1483) + 1) % 2 ^ 32)
      ∧ ∀ j, j ≠ Reg.TB_STATUS → j ≠ Reg.EV_SEQ 1483 → t.dev.rd j = s.dev.rd j :=
  ⟨{ s with dev := warmChange level s.dev }, rfl, on_warmChange level _, n_warmChange, fun _ => rd_warmChange_ne level _⟩

end Sys2Proof.Machine

namespace Sys2Proof
open Sys2Proof.Machine

/-- Settles O11, command by command. -/
theorem referenceAndLock : Obligations.ReferenceAndLock := by
  unfold Obligations.ReferenceAndLock
  exact ⟨exec_dllLock, exec_dllLockLoss, exec_holdoverEnter, exec_holdoverExit, exec_lockGateEnd_good, exec_lockGateEnd_bad,
    exec_freqStdAbsent, exec_freqStdReturn, exec_activityLockDeclare, exec_ocxoWarmChange⟩

end Sys2Proof
end

section
/-! SUPPORT. Reading and setting device time, the second marker, and the proof of the statement about them. -/
namespace Sys2Proof.Machine

/-! ### Several registers written together -/

/-- Registers written by a list of distinct keys hold their values. -/
theorem Dev.rd_foldl_wrN_self {key val : Nat → Nat} (hkey : ∀ a b, key a = key b → a = b) {l : List Nat} (d : Dev) {k : Nat} (hk : k ∈ l) :
    (l.foldl (fun d k => d.wrN (key k) (val k)) d).rd (key k) = BitVec.ofNat 32 (val k) := by
  induction l generalizing d with
  | nil => simp at hk
  | cons a l ih =>
    rw [List.foldl_cons]
    by_cases hl : k ∈ l
    · exact ih _ hl
    · have hka : k = a := (List.mem_cons.mp hk).resolve_right hl
      rw [Dev.rd_foldl_wrN_ne key val l _ fun i hi h => hl (hkey k i h ▸ hi), hka, Dev.rd_wrN, if_pos rfl]

theorem Dev.n_wr128_self {key : Nat → Nat} (hkey : ∀ a b, key a = key b → a = b) (d : Dev) (w : Word128) (k : Fin 4) :
    (d.wr128 key w).n (key k) = fld w (32 * k) 32 := by
  have hrd : (d.wr128 key w).rd (key k) = BitVec.ofNat 32 (fld w (32 * k) 32) :=
    Dev.rd_foldl_wrN_self hkey d (List.mem_range.mpr k.isLt)
  rw [Dev.n, hrd, BitVec.toNat_ofNat, Nat.mod_eq_of_lt (fld_lt w _ 32)]

theorem Dev.rd_wr128_ne {key : Nat → Nat} (d : Dev) (w : Word128) {j : Nat} (h : ∀ k : Fin 4, j ≠ key k) : (d.wr128 key w).rd j = d.rd j :=
  Dev.rd_foldl_wrN_ne key _ _ d fun k hk => h ⟨k, List.mem_range.mp hk⟩

theorem Dev.tb_wr128 (d : Dev) (key : Nat → Nat) (w : Word128) : (d.wr128 key w).tb = d.tb := tb_foldl (fun d _ => d.tb_wrN _ _) _ _

theorem Dev.n64_congr {d e : Dev} {lo hi : Nat} (hlo : e.rd lo = d.rd lo) (hhi : e.rd hi = d.rd hi) : e.n64 lo hi = d.n64 lo hi := by
  rw [Dev.n64, Dev.n64, Dev.n_congr hlo, Dev.n_congr hhi]

theorem Dev.n64_wr64_self (d : Dev) {lo hi v : Nat} (h : lo ≠ hi) (hv : v < 2 ^ 64) : (d.wr64 lo hi v).n64 lo hi = v := by
  rw [Dev.n64, Dev.wr64, Dev.n_wrN_self, Dev.n_congr (Dev.rd_wrN_ne _ _ h), Dev.n_wrN_self]
  omega

theorem Dev.n64_onTb (d : Dev) (f : Tb → Tb) (lo hi : Nat) : (d.onTb f).n64 lo hi = d.n64 lo hi := rfl

theorem Dev.n64_setB_ne (d : Dev) {lo hi k : Nat} (i : Nat) (hlo : lo ≠ k) (hhi : hi ≠ k) : (d.setB k i).n64 lo hi = d.n64 lo hi :=
  Dev.n64_congr (d.rd_setB_ne i hlo) (d.rd_setB_ne i hhi)

/-- A status event counts once on its change. -/
theorem Dev.n_sqEvent_self {d : Dev} {st b n : Nat} (hclear : d.on st b = false) (h : Reg.EV_SEQ n ≠ st) :
    (d.sqEvent st b n).n (Reg.EV_SEQ n) = (d.n (Reg.EV_SEQ n) + 1) % 2 ^ 32 := by
  have hset : d.sqEvent st b n = (d.setB st b).event st n := if_neg (by simp [hclear])
  rw [hset, Dev.n_event_self _ h, Dev.n_congr (Dev.rd_setB_ne d b h)]

theorem Dev.on_sqEvent_tb (d : Dev) {b n m : Nat} (hb : b < 16) (hm : m < 16) :
    (d.sqEvent Reg.TB_STATUS b n).on Reg.TB_STATUS m = (d.on Reg.TB_STATUS m || decide (m = b)) :=
  d.on_sqEvent _ _ _ hb hm (tbStatus_ne_evSeq n)

/-! ### Reading device time (R50) -/

theorem Dev.n_answer (d : Dev) (r : Resp) (k : Nat) : (d.answer r).n k = d.n k := rfl

theorem timeNow_inj (a b : Nat) (h : Reg.TIME_NOW a = Reg.TIME_NOW b) : a = b := by unfold Reg.TIME_NOW at h; omega

/-- The first word of TIME_NOW answers with the device-time word, and latches all four. -/
theorem exec_timeNowRead (s : State) (i : Ini) (h : s.reaches i (Reg.TIME_NOW 0) .read = true) :
    ∃ t, exec (.timeNowRead i) s = .next t
      ∧ t.dev.resp = ⟨true, BitVec.ofNat 32 (s.dev.timeWord 6 false s.dev.now).toNat⟩
      ∧ (∀ k : Fin 4, t.dev.n (Reg.TIME_NOW k.val) = fld (s.dev.timeWord 6 false s.dev.now) (32 * k.val) 32)
      ∧ (∀ j, (∀ k : Fin 4, j ≠ Reg.TIME_NOW k.val) → t.dev.rd j = s.dev.rd j) ∧ t.mem = s.mem := by
  have hread : s.dev.onRead i (Reg.TIME_NOW 0) timeNow = (((s.dev.reached i 0).wr128 Reg.TIME_NOW (s.dev.timeWord 6 false s.dev.now)).answer
      (Resp.mk true (BitVec.ofNat 32 (s.dev.timeWord 6 false s.dev.now).toNat))) := onRead_of_reaches s i _ timeNow h
  refine ⟨{ s with dev := s.dev.onRead i (Reg.TIME_NOW 0) timeNow }, rfl, ?_, fun k => ?_, fun j hj => ?_, rfl⟩
  · show (s.dev.onRead i (Reg.TIME_NOW 0) timeNow).resp = _
    rw [hread, Dev.resp_answer]
  · show (s.dev.onRead i (Reg.TIME_NOW 0) timeNow).n _ = _
    rw [hread, Dev.n_answer, Dev.n_wr128_self timeNow_inj]
  · show (s.dev.onRead i (Reg.TIME_NOW 0) timeNow).rd j = _
    rw [hread, Dev.rd_answer, Dev.rd_wr128_ne _ _ hj, Dev.rd_reached]

/-! ### A set of the time of day: armed, cancelled, refused (R51, R52) -/

theorem exec_todArm (s : State) (i : Ini) (h : s.takes i Reg.TOD_CMD = true) :
    ∃ t, exec (.todArm i) s = .next t ∧ t.dev.on Reg.TB_STATUS 4 = true ∧ t.dev.now = s.dev.now
      ∧ (∀ j, j ≠ Reg.TB_STATUS → t.dev.rd j = s.dev.rd j) ∧ t.mem = s.mem := by
  refine ⟨{ s with dev := todArm (s.dev.reached i 0) }, ?_, Dev.on_setB_self _ _ _ (by decide), rfl, fun j hj => Dev.rd_setB_ne _ _ hj, rfl⟩
  show s.onDev (fun d => d.onPosted i Reg.TOD_CMD todArm) = _
  rw [State.onDev_eq, onPosted_of_takes s i _ _ h]

theorem Dev.on_todRefuse (d : Dev) (reason : Nat) {m : Nat} (hm : m < 16) :
    (d.todRefuse reason).on Reg.TB_STATUS m = (decide (m = 12) || (d.on Reg.TB_STATUS m && decide (m ≠ 4))) := by
  rw [Dev.todRefuse, Dev.on_tbEvent _ _ hm, Dev.on_congr m (Dev.rd_wrN_ne _ _ (by decide)), Dev.on_setB _ _ _ _ _ (by decide),
    Dev.on_clrB _ _ _ _ _ (by decide) (by omega), Bool.or_comm]
  simp

theorem Dev.n_todRefuse (d : Dev) {reason : Nat} (h : reason < 2 ^ 32) : (d.todRefuse reason).n Reg.TOD_RESULT = reason := by
  rw [Dev.todRefuse, Dev.n_congr (Dev.rd_tbEvent_ne _ (by decide) (by decide)), Dev.n_wrN_self, Nat.mod_eq_of_lt h]

theorem exec_todCancel (s : State) (i : Ini) (h : s.takes i Reg.TOD_CMD = true) (h4 : s.dev.on Reg.TB_STATUS 4 = true) :
    ∃ t, exec (.todCancel i) s = .next t ∧ t.dev.on Reg.TB_STATUS 4 = false ∧ t.dev.on Reg.TB_STATUS 12 = true
      ∧ t.dev.n Reg.TOD_RESULT = 5 ∧ t.dev.now = s.dev.now ∧ t.mem = s.mem := by
  refine ⟨{ s with dev := (s.dev.reached i 0).todRefuse 5 }, ?_, ?_, ?_, Dev.n_todRefuse _ (by decide),
    Dev.now_congr ((Dev.tb_todRefuse _ 5).trans (Dev.tb_reached ..)), rfl⟩
  · show s.onDev (fun d => d.onPosted i Reg.TOD_CMD todCancel) = _
    rw [State.onDev_eq, onPosted_of_takes s i _ _ h, todCancel, if_pos ((Dev.on_reached ..).trans h4)]
  · exact (Dev.on_todRefuse _ _ (by decide)).trans (by simp)
  · exact (Dev.on_todRefuse _ _ (by decide)).trans (by simp)

/-! ### The second marker (R51, R53) -/

/-- The device once an armed set has met its PPS edge. -/
def Dev.ppsSet (d : Dev) (back : Nat) : Dev := if d.on Reg.TB_STATUS 4 then d.todSet back else d

/-- The device with the time of a PPS edge in its registers. -/
def Dev.ppsShown (d : Dev) (te : Nat) : Dev :=
  ((d.wr64 Reg.PPS_RESID_LO Reg.PPS_RESID_HI (ppsResidual te (d.n64 Reg.PPS_FRAC_LO Reg.PPS_FRAC_HI))).wr64
    Reg.PPS_SEC_LO Reg.PPS_SEC_HI (te / 2 ^ 64 % 2 ^ 48)).setB Reg.TB_STATUS 2

/-- The device with the edge noted for the next one's window as well. -/
def Dev.ppsTimed (d : Dev) (back : Nat) : Dev :=
  (d.ppsShown (d.now - back)).onTb fun x =>
    { x with ppsLast := some (d.now - back), ppsDue := some (d.now - back + 2 ^ 64 + (d.ppsShown (d.now - back)).ppsWin) }

/-- A marker is timed, and out of its window it also sets PPS_MISSING. -/
theorem Dev.ppsMark_cases (d : Dev) (back : Nat) :
    d.ppsMark back = (d.ppsSet back).ppsTimed back ∨ d.ppsMark back = ((d.ppsSet back).ppsTimed back).ppsMissing := by
  unfold Dev.ppsMark
  dsimp only
  split
  · split
    · exact .inr rfl
    · exact .inl rfl
  · exact .inl rfl

theorem Dev.tb_ppsMissing (d : Dev) : d.ppsMissing.tb = d.tb := Dev.tb_sqEvent ..

theorem Dev.tb_ppsMark (d : Dev) (back : Nat) : (d.ppsMark back).tb = ((d.ppsSet back).ppsTimed back).tb := by
  rcases d.ppsMark_cases back with h | h
  · rw [h]
  · rw [h, Dev.tb_ppsMissing]

theorem Dev.rd_ppsMark_ne (d : Dev) (back : Nat) {j : Nat} (hst : j ≠ Reg.TB_STATUS) (hev : j ≠ Reg.EV_SEQ 1484) :
    (d.ppsMark back).rd j = ((d.ppsSet back).ppsTimed back).rd j := by
  rcases d.ppsMark_cases back with h | h
  · rw [h]
  · rw [h, Dev.ppsMissing, Dev.rd_sqEvent_ne _ _ hst hev]

theorem Dev.on_ppsMark (d : Dev) (back : Nat) {m : Nat} (hm : m < 16) (h11 : m ≠ 11) :
    (d.ppsMark back).on Reg.TB_STATUS m = ((d.ppsSet back).ppsTimed back).on Reg.TB_STATUS m := by
  rcases d.ppsMark_cases back with h | h
  · rw [h]
  · rw [h, Dev.ppsMissing, Dev.on_sqEvent_tb _ (by decide) hm]
    simp [h11]

theorem Dev.tb_ppsShown (d : Dev) (te : Nat) : (d.ppsShown te).tb = d.tb := by
  rw [Dev.ppsShown, Dev.tb_setB, Dev.tb_wr64, Dev.tb_wr64]

theorem Dev.tb_ppsTimed (d : Dev) (back : Nat) : (d.ppsTimed back).tb = { d.tb with
    ppsLast := some (d.now - back), ppsDue := some (d.now - back + 2 ^ 64 + (d.ppsShown (d.now - back)).ppsWin) } := by
  have hshown := d.tb_ppsShown (d.now - back)
  exact congrArg (fun x : Tb => { x with
    ppsLast := some (d.now - back), ppsDue := some (d.now - back + 2 ^ 64 + (d.ppsShown (d.now - back)).ppsWin) }) hshown

theorem Dev.now_ppsTimed (d : Dev) (back : Nat) : (d.ppsTimed back).now = d.now := (congrArg Tb.dt (d.tb_ppsTimed back)).trans rfl

theorem Dev.on_ppsTimed (d : Dev) (back m : Nat) : (d.ppsTimed back).on Reg.TB_STATUS m = (d.on Reg.TB_STATUS m || decide (m = 2)) := by
  rw [Dev.ppsTimed, Dev.onTb_on, Dev.ppsShown, Dev.on_setB _ _ _ _ _ (by decide),
    Dev.on_congr m ((Dev.rd_wr64_ne _ _ (by decide) (by decide)).trans (Dev.rd_wr64_ne _ _ (by decide) (by decide)))]
  simp

theorem Dev.n_ppsTimed_result (d : Dev) (back : Nat) : (d.ppsTimed back).n Reg.TOD_RESULT = d.n Reg.TOD_RESULT := by
  rw [Dev.ppsTimed, Dev.onTb_n, Dev.ppsShown, Dev.n_congr (Dev.rd_setB_ne _ 2 (by decide)),
    Dev.n_congr (Dev.rd_wr64_ne _ _ (by decide) (by decide)), Dev.n_congr (Dev.rd_wr64_ne _ _ (by decide) (by decide))]

theorem Dev.sec_ppsTimed (d : Dev) (back : Nat) :
    (d.ppsTimed back).n64 Reg.PPS_SEC_LO Reg.PPS_SEC_HI = (d.now - back) / 2 ^ 64 % 2 ^ 48 := by
  rw [Dev.ppsTimed, Dev.n64_onTb, Dev.ppsShown, Dev.n64_setB_ne _ _ (by decide) (by decide), Dev.n64_wr64_self _ (by decide) (by omega)]

theorem Dev.resid_ppsTimed (d : Dev) (back : Nat) : (d.ppsTimed back).n64 Reg.PPS_RESID_LO Reg.PPS_RESID_HI
    = ppsResidual (d.now - back) (d.n64 Reg.PPS_FRAC_LO Reg.PPS_FRAC_HI) := by
  have hlt : ppsResidual (d.now - back) (d.n64 Reg.PPS_FRAC_LO Reg.PPS_FRAC_HI) < 2 ^ 64 := Nat.mod_lt _ (by decide)
  rw [Dev.ppsTimed, Dev.n64_onTb, Dev.ppsShown, Dev.n64_setB_ne _ _ (by decide) (by decide),
    Dev.n64_congr (Dev.rd_wr64_ne _ _ (by decide) (by decide)) (Dev.rd_wr64_ne _ _ (by decide) (by decide)), Dev.n64_wr64_self _ (by decide) hlt]

theorem Dev.now_ppsMark (d : Dev) (back : Nat) : (d.ppsMark back).now = (d.ppsSet back).now :=
  (Dev.now_congr (d.tb_ppsMark back)).trans (Dev.now_ppsTimed ..)

/-! ### What follows a set (R51, R84, R251) -/

theorem Dev.tb_portsPeriod (d : Dev) : d.portsPeriod.tb = d.tb := by
  refine tb_foldl (fun d p => ?_) _ d
  dsimp only
  split
  · rfl
  · refine (tb_foldl (fun d s => ?_) _ _).trans (d.setPort_tb p _)
    split <;> rfl

theorem Dev.tb_eiPeriodCommit (d : Dev) : d.eiPeriodCommit.tb = d.tb := tb_foldl (fun d n => d.setEi_tb n _) _ d

theorem Dev.tb_periodFollow (old new : Dev) : (old.periodFollow new).tb = new.tb := by
  unfold Dev.periodFollow
  split
  · rw [Dev.tb_eiPeriodCommit, Dev.tb_portsPeriod]
  · rfl

/-- Without a set that succeeded nothing follows. -/
theorem Dev.periodFollow_of_not {old new : Dev} (h : ¬ (old.on Reg.TB_STATUS 4 = true ∧ new.on Reg.TB_STATUS 4 = false ∧ new.n Reg.TOD_RESULT = 1)) :
    old.periodFollow new = new := if_neg (by simpa using h)

/-! ### The set itself (R51, R52) -/

theorem Dev.ppsSet_of_armed {d : Dev} (h : d.on Reg.TB_STATUS 4 = true) (back : Nat) : d.ppsSet back = d.todSet back := if_pos h

theorem Dev.ppsSet_of_idle {d : Dev} (h : d.on Reg.TB_STATUS 4 = false) (back : Nat) : d.ppsSet back = d := if_neg (by simp [h])

theorem Dev.todSet_of_invalid {d : Dev} (h : d.periodInvalid = true) (back : Nat) : d.todSet back = d.todRefuse 3 := if_pos h

/-- A set that holds gives its edge the staged instant and takes the staged period. -/
theorem Dev.tb_todSet_of_good {d : Dev} {back : Nat} (hperiod : d.periodInvalid = false) (hratio : d.ratioMismatch = false)
    (hlate : d.now - back ≤ d.todTarget) :
    (d.todSet back).tb = { d.tb with
      dt := d.todTarget + back, jump := d.tb.jump + (d.todTarget + back - d.tb.dt), remAcc := 0, period := d.n64 Reg.PERIOD_LO Reg.PERIOD_HI
      remNum := d.n Reg.REM_NUM, remDen := d.n Reg.REM_DEN } := by
  unfold Dev.todSet
  rw [if_neg (by simp [hperiod]), if_neg (by simp [hratio]), if_neg (by omega), Dev.tb_tbEvent, Dev.tb_wrN, Dev.tb_setB, Dev.tb_clrB]
  rfl

/-- A set never moves device time back. -/
theorem Dev.now_le_now_todSet (d : Dev) (back : Nat) : d.now ≤ (d.todSet back).now := by
  unfold Dev.todSet
  split
  · exact (Dev.now_congr (d.tb_todRefuse 3)).ge
  · split
    · exact (Dev.now_congr (d.tb_todRefuse 4)).ge
    · split
      · exact (Dev.now_congr (d.tb_todRefuse 2)).ge
      · have hset : d.now ≤ d.todTarget + back := by omega
        rw [Dev.now_congr (Dev.tb_tbEvent ..), Dev.now_congr (Dev.tb_wrN ..), Dev.now_congr (Dev.tb_setB ..), Dev.now_congr (Dev.tb_clrB ..)]
        exact hset

theorem Dev.now_le_now_ppsSet (d : Dev) (back : Nat) : d.now ≤ (d.ppsSet back).now := by
  unfold Dev.ppsSet
  split
  · exact d.now_le_now_todSet back
  · exact le_refl d.now

/-! ### The statements on the second marker -/

/-- Of PPS_IN's edges only that of PPS_POL is a marker. -/
theorem ppsEdge_of_marker {rising : Bool} {d : Dev} (h : rising ≠ d.on Reg.TB_CTRL 3) (back : Nat) : ppsEdge rising back d = d.ppsMark back := if_neg h

theorem exec_ppsEdge_set (s : State) (rising : Bool) (back : Nat) (hedge : rising ≠ s.dev.on Reg.TB_CTRL 3) (h4 : s.dev.on Reg.TB_STATUS 4 = true)
    (hperiod : s.dev.periodInvalid = false) (hratio : s.dev.ratioMismatch = false) (hlate : s.dev.now - back ≤ s.dev.todTarget) :
    ∃ t, exec (.ppsEdge rising back) s = .next t ∧ t.dev.now = s.dev.todTarget + back
      ∧ t.dev.tb.period = s.dev.n64 Reg.PERIOD_LO Reg.PERIOD_HI ∧ t.dev.tb.remNum = s.dev.n Reg.REM_NUM
      ∧ t.dev.tb.remDen = s.dev.n Reg.REM_DEN ∧ t.dev.tb.ppsLast = some s.dev.todTarget ∧ t.mem = s.mem := by
  have hset : (s.dev.ppsSet back).tb = _ := (congrArg Dev.tb (Dev.ppsSet_of_armed h4 back)).trans (Dev.tb_todSet_of_good hperiod hratio hlate)
  have hnow : (s.dev.ppsSet back).now = s.dev.todTarget + back := congrArg Tb.dt hset
  have hmark : (ppsEdge rising back s.dev).tb = ((s.dev.ppsSet back).ppsTimed back).tb := by rw [ppsEdge_of_marker hedge, Dev.tb_ppsMark]
  have htb := (Dev.tb_periodFollow s.dev (ppsEdge rising back s.dev)).trans (hmark.trans (Dev.tb_ppsTimed ..))
  rw [hset, hnow] at htb
  refine ⟨{ s with dev := s.dev.periodFollow (ppsEdge rising back s.dev) }, rfl, congrArg Tb.dt htb, congrArg Tb.period htb,
    congrArg Tb.remNum htb, congrArg Tb.remDen htb, (congrArg Tb.ppsLast htb).trans ?_, rfl⟩
  exact congrArg some (Nat.add_sub_cancel ..)

/-- An unusable period refuses the set, and device time and the period in force stay. -/
theorem exec_ppsEdge_invalid (s : State) (rising : Bool) (back : Nat) (hedge : rising ≠ s.dev.on Reg.TB_CTRL 3) (h4 : s.dev.on Reg.TB_STATUS 4 = true)
    (hperiod : s.dev.periodInvalid = true) :
    ∃ t, exec (.ppsEdge rising back) s = .next t ∧ t.dev.now = s.dev.now ∧ t.dev.tb.period = s.dev.tb.period
      ∧ t.dev.n Reg.TOD_RESULT = 3 ∧ t.dev.on Reg.TB_STATUS 4 = false ∧ t.dev.on Reg.TB_STATUS 12 = true := by
  have hset : s.dev.ppsSet back = s.dev.todRefuse 3 := (Dev.ppsSet_of_armed h4 back).trans (Dev.todSet_of_invalid hperiod back)
  have hresult : (s.dev.ppsMark back).n Reg.TOD_RESULT = 3 := by
    rw [Dev.n_congr (Dev.rd_ppsMark_ne _ _ (by decide) (by decide)), Dev.n_ppsTimed_result, hset, Dev.n_todRefuse _ (by decide)]
  have hfollow : s.dev.periodFollow (ppsEdge rising back s.dev) = s.dev.ppsMark back := by
    rw [ppsEdge_of_marker hedge, Dev.periodFollow_of_not (by simp [hresult])]
  have htb : (s.dev.ppsMark back).tb = _ := (Dev.tb_ppsMark ..).trans (Dev.tb_ppsTimed ..)
  rw [hset, Dev.tb_todRefuse] at htb
  refine ⟨{ s with dev := s.dev.ppsMark back }, ?_, (congrArg Tb.dt htb).trans rfl, (congrArg Tb.period htb).trans rfl, hresult, ?_, ?_⟩
  · show s.onDev (fun d => d.periodFollow (ppsEdge rising back d)) = _
    rw [State.onDev_eq, hfollow]
  · show (s.dev.ppsMark back).on _ 4 = false
    rw [Dev.on_ppsMark _ _ (by decide) (by decide), hset, Dev.on_ppsTimed, Dev.on_todRefuse _ _ (by decide)]
    simp
  · show (s.dev.ppsMark back).on _ 12 = true
    rw [Dev.on_ppsMark _ _ (by decide) (by decide), hset, Dev.on_ppsTimed, Dev.on_todRefuse _ _ (by decide)]
    simp

/-- Without an armed set the edge is timed. -/
theorem exec_ppsEdge_timed (s : State) (rising : Bool) (back : Nat) (hedge : rising ≠ s.dev.on Reg.TB_CTRL 3) (h4 : s.dev.on Reg.TB_STATUS 4 = false) :
    ∃ t, exec (.ppsEdge rising back) s = .next t ∧ t.dev.now = s.dev.now ∧ t.dev.on Reg.TB_STATUS 2 = true
      ∧ t.dev.n64 Reg.PPS_SEC_LO Reg.PPS_SEC_HI = (s.dev.now - back) / 2 ^ 64 % 2 ^ 48
      ∧ t.dev.n64 Reg.PPS_RESID_LO Reg.PPS_RESID_HI = ppsResidual (s.dev.now - back) (s.dev.n64 Reg.PPS_FRAC_LO Reg.PPS_FRAC_HI)
      ∧ t.dev.tb.ppsLast = some (s.dev.now - back) := by
  have hset := Dev.ppsSet_of_idle h4 back
  have hfollow : s.dev.periodFollow (ppsEdge rising back s.dev) = s.dev.ppsMark back := by
    rw [ppsEdge_of_marker hedge, Dev.periodFollow_of_not (by simp [h4])]
  have hn64 {lo hi : Nat} (hlo : lo ≠ Reg.TB_STATUS ∧ lo ≠ Reg.EV_SEQ 1484) (hhi : hi ≠ Reg.TB_STATUS ∧ hi ≠ Reg.EV_SEQ 1484) :
      (s.dev.ppsMark back).n64 lo hi = (s.dev.ppsTimed back).n64 lo hi := by
    have h := Dev.n64_congr (Dev.rd_ppsMark_ne s.dev back hlo.1 hlo.2) (Dev.rd_ppsMark_ne s.dev back hhi.1 hhi.2)
    rwa [hset] at h
  refine ⟨{ s with dev := s.dev.ppsMark back }, ?_, ?_, ?_, ?_, ?_, ?_⟩
  · show s.onDev (fun d => d.periodFollow (ppsEdge rising back d)) = _
    rw [State.onDev_eq, hfollow]
  · exact (Dev.now_ppsMark ..).trans (congrArg Dev.now hset)
  · show (s.dev.ppsMark back).on _ 2 = true
    rw [Dev.on_ppsMark _ _ (by decide) (by decide), Dev.on_ppsTimed]
    simp
  · exact (hn64 (by decide) (by decide)).trans (Dev.sec_ppsTimed ..)
  · exact (hn64 (by decide) (by decide)).trans (Dev.resid_ppsTimed ..)
  · show (s.dev.ppsMark back).tb.ppsLast = _
    rw [Dev.tb_ppsMark, Dev.tb_ppsTimed, hset]

theorem exec_ppsEdge_other (s : State) (rising : Bool) (back : Nat) (h : rising = s.dev.on Reg.TB_CTRL 3) :
    ∃ t, exec (.ppsEdge rising back) s = .next t ∧ t.dev = s.dev ∧ t.mem = s.mem := by
  have hedge : ppsEdge rising back s.dev = s.dev := if_pos h
  have hfollow : s.dev.periodFollow s.dev = s.dev := Dev.periodFollow_of_not fun ⟨h4, hn4, _⟩ => by simp [h4] at hn4
  exact ⟨{ s with dev := s.dev.periodFollow (ppsEdge rising back s.dev) }, rfl, (congrArg s.dev.periodFollow hedge).trans hfollow, rfl⟩

/-- A window that passes without an edge sets PPS_MISSING, and the next one ends a second later. -/
theorem exec_ppsMissingExpire (s : State) (due : Nat) (hdue : s.dev.tb.ppsDue = some due) (hnow : due ≤ s.dev.now) (h11 : s.dev.on Reg.TB_STATUS 11 = false) :
    ∃ t, exec .ppsMissingExpire s = .next t ∧ t.dev.on Reg.TB_STATUS 11 = true
      ∧ t.dev.n (Reg.EV_SEQ 1484) = (s.dev.n (Reg.EV_SEQ 1484) + 1) % 2 ^ 32 ∧ t.dev.tb.ppsDue = some (due + 2 ^ 64)
      ∧ ∀ j, j ≠ Reg.TB_STATUS → j ≠ Reg.EV_SEQ 1484 → t.dev.rd j = s.dev.rd j := by
  refine ⟨{ s with dev := (s.dev.onTb fun x => { x with ppsDue := some (due + 2 ^ 64) }).ppsMissing }, ?_, ?_, ?_, ?_, fun j hst hev => ?_⟩
  · show s.onDev ppsMissingExpire = _
    rw [State.onDev_eq, ppsMissingExpire, hdue]
    exact congrArg (fun d => Host.Outcome.next { s with dev := d }) (if_pos hnow)
  · exact (Dev.on_sqEvent_tb _ (by decide) (by decide)).trans (by simp)
  · exact Dev.n_sqEvent_self ((Dev.onTb_on ..).trans h11) (tbStatus_ne_evSeq 1484).symm
  · exact congrArg Tb.ppsDue (Dev.tb_ppsMissing _)
  · exact Dev.rd_sqEvent_ne _ _ hst hev

end Sys2Proof.Machine

namespace Sys2Proof
open Sys2Proof.Machine

/-- Settles O12, command by command. -/
theorem timeSetting : Obligations.TimeSetting := by
  unfold Obligations.TimeSetting
  exact ⟨exec_timeNowRead, exec_todArm, exec_todCancel, exec_ppsEdge_set, exec_ppsEdge_invalid, exec_ppsEdge_timed, exec_ppsEdge_other,
    exec_ppsMissingExpire⟩

end Sys2Proof
end

section
/-! SUPPORT. PTP stamps and their FIFO, and the proof of the statement about them. -/
namespace Sys2Proof.Machine

/-! ### Event messages (R59) -/

theorem natBE_lt (l : List Byte) : natBE l < 256 ^ l.length := by
  have hfold (l : List Byte) : ∀ a n : Nat, a < 256 ^ n → l.foldl (fun a b => a * 256 + b.toNat) a < 256 ^ (n + l.length) := by
    induction l with
    | nil => exact fun a n h => h
    | cons b l ih =>
      intro a n h
      have hb := b.isLt
      rw [List.length_cons, ← Nat.succ_add_eq_add_succ]
      refine ih _ _ ?_
      show a * 256 + b.toNat < 256 ^ n.succ
      rw [Nat.pow_succ]
      omega
  have h := hfold l 0 0 (by decide)
  rwa [Nat.zero_add] at h

theorem ptpEvent_lt {frame : List Byte} {m q : Nat} (h : ptpEvent frame = some (m, q)) : m < 4 ∧ q < 2 ^ 16 := by
  unfold ptpEvent at h
  split at h
  next msg _ =>
    dsimp only at h
    split at h
    next hcode =>
      obtain ⟨rfl, rfl⟩ := Prod.mk.inj (Option.some.inj h)
      have hlen : ((msg.drop 30).take 2).length ≤ 2 := List.length_take_le ..
      exact ⟨hcode.1, lt_of_lt_of_le (natBE_lt _) (Nat.pow_le_pow_right (by decide) hlen)⟩
    next => simp at h
  next => simp at h

/-! ### The identity word of a stamp (R63) -/

/-- The identity of a stamp: VALID, the direction, messageType and sequenceId. -/
def ptpId (tx : Bool) (m q : Nat) : Word := packBE 32 [(1, 1), (b2n tx, 1), (0, 2), (m, 4), (0, 8), (q, 16)]

theorem ptpId_eq {m q : Nat} (tx : Bool) (hm : m < 16) (hq : q < 2 ^ 16) : ptpId tx m q = BitVec.ofNat 32 (2 ^ 31 + b2n tx * 2 ^ 30 + m * 2 ^ 24 + q) := by
  have htx := b2n_lt_two tx
  unfold ptpId packBE
  congr 1
  simp only [List.foldl_cons, List.foldl_nil]
  omega

theorem ptpId_fields {m q : Nat} (tx : Bool) (hm : m < 16) (hq : q < 2 ^ 16) :
    bit (ptpId tx m q) 31 = true ∧ bit (ptpId tx m q) 30 = tx ∧ fld (ptpId tx m q) 24 4 = m ∧ fld (ptpId tx m q) 0 16 = q := by
  have htx := b2n_lt_two tx
  have hvalid : b2n true = 1 := rfl
  rw [ptpId_eq tx hm hq]
  refine ⟨bit_ofNat_flag _ (by decide) (by omega), bit_ofNat_flag _ (by decide) (by omega), ?_, ?_⟩
  · rw [fld_ofNat]
    omega
  · rw [fld_ofNat]
    omega

/-! ### The FIFO (R61, R63) -/

/-- The medium time of a frame that passed `back` units ago. -/
def Dev.ptpTime (d : Dev) (tx : Bool) (back : Nat) : Nat :=
  if tx then d.now - back + psUnits (d.n Reg.PTP_TX_LAT) else d.now - back - psUnits (d.n Reg.PTP_RX_LAT)

theorem ptpStamp_of_other {frame : List Byte} (h : ptpEvent frame = none) (tx : Bool) (back : Nat) (d : Dev) : ptpStamp tx frame back d = d := by
  rw [ptpStamp, h]

theorem ptpStamp_of_full {frame : List Byte} {m q : Nat} {d : Dev} (h : ptpEvent frame = some (m, q)) (hfull : 64 ≤ d.tb.ptp.length) (tx : Bool)
    (back : Nat) : ptpStamp tx frame back d = (d.addSat Reg.PTP_DROPS 1).sqEvent Reg.TB_STATUS 13 1488 := by
  rw [ptpStamp, h]
  exact if_pos hfull

/-- An event message that finds room enters the FIFO behind the others. -/
theorem tb_ptpStamp_of_room {frame : List Byte} {m q : Nat} {d : Dev} (h : ptpEvent frame = some (m, q)) (hroom : d.tb.ptp.length < 64) (tx : Bool)
    (back : Nat) : (ptpStamp tx frame back d).tb = { d.tb with ptp := d.tb.ptp ++ [(ptpId tx m q, d.timeWord 7 true (d.ptpTime tx back))] } := by
  rw [ptpStamp, h]
  dsimp only
  rw [if_neg (Nat.not_le.mpr hroom)]
  split
  · exact (Dev.tb_raise ..).trans rfl
  · rfl

theorem now_ptpStamp (tx : Bool) (frame : List Byte) (back : Nat) (d : Dev) : (ptpStamp tx frame back d).now = d.now := by
  cases h : ptpEvent frame with
  | none => rw [ptpStamp_of_other h]
  | some e =>
    by_cases hfull : 64 ≤ d.tb.ptp.length
    · rw [ptpStamp_of_full h hfull, Dev.now_congr (Dev.tb_sqEvent ..), Dev.now_congr (Dev.tb_addSat ..)]
    · exact (congrArg Tb.dt (tb_ptpStamp_of_room h (by omega) tx back)).trans rfl

/-! ### A read of PTP_TS_ID (R63, R531) -/

/-- The word read of PTP_TS_ID is the pop of the FIFO. -/
theorem wordRead_ptpTsId (d : Dev) (i : Ini) : d.wordRead i Reg.PTP_TS_ID = ptpPop d := rfl

theorem inDevice_ptpTsId : inDevice (regBase + Reg.PTP_TS_ID) = false := by decide

/-- The device as a read finds it: an earlier posted write of the reader to the block has taken effect. -/
def Dev.settledFor (d : Dev) (i : Ini) (b : Nat) : Dev :=
  match d.flight b with
  | some w => if w.ini = i then postedEffect b false d else d
  | none => d

theorem Dev.sameClock_settledFor (d : Dev) (i : Ini) (b : Nat) : d.SameClock (d.settledFor i b) := by
  unfold Dev.settledFor
  split
  · exact .ite (fun _ => sameClock_postedEffect b false d) fun _ => .of_tb rfl
  · exact .of_tb rfl

/-- A read of a register that is granted answers with what the read gives on the settled device. -/
theorem busRead_of_granted {d : Dev} {i : Ini} {k : Nat} (hdev : inDevice (regBase + k) = false) (h : (d.access i (regBase + k) 4 .read 0).2 = true) :
    busRead i (regBase + k) d = ((((d.access i (regBase + k) 4 .read 0).1.settledFor i (keyBlock k)).wordRead i k).1.answer
      (Resp.mk true (((d.access i (regBase + k) 4 .read 0).1.settledFor i (keyBlock k)).wordRead i k).2)) := by
  unfold busRead
  rw [if_neg (by simp [hdev])]
  dsimp only
  rw [Nat.add_sub_cancel_left, if_neg (by simp [h])]
  rfl

theorem busRead_of_refused {d : Dev} {i : Ini} {k : Nat} (hdev : inDevice (regBase + k) = false) (h : (d.access i (regBase + k) 4 .read 0).2 = false) :
    busRead i (regBase + k) d = (d.access i (regBase + k) 4 .read 0).1 := by
  unfold busRead
  rw [if_neg (by simp [hdev])]
  exact if_pos (by simp [h])

/-- The view of the oldest stamp, which leaves the FIFO. -/
theorem ptpPop_of_cons {d : Dev} {id : Word} {w : Word128} {r : List (Word × Word128)} (h : d.tb.ptp = (id, w) :: r) :
    ptpPop d = (((d.onTb fun x => { x with ptp := r }).wr Reg.PTP_TS_ID id).wr128 Reg.PTP_TS w, id) := by
  rw [ptpPop, h]

theorem now_ptpPop (d : Dev) : (ptpPop d).1.now = d.now := by
  cases h : d.tb.ptp with
  | nil => rw [ptpPop, h]; exact Dev.now_congr (d.wr_tb _ _)
  | cons e r =>
    rw [ptpPop_of_cons h, Dev.now_congr (Dev.tb_wr128 ..), Dev.now_congr (Dev.wr_tb ..)]
    rfl

theorem now_busRead_ptpTsId (i : Ini) (d : Dev) : (busRead i (regBase + Reg.PTP_TS_ID) d).now = d.now := by
  have haccess := Dev.now_congr (d.tb_access i (regBase + Reg.PTP_TS_ID) 4 .read 0)
  cases h : (d.access i (regBase + Reg.PTP_TS_ID) 4 .read 0).2
  · rw [busRead_of_refused inDevice_ptpTsId h, haccess]
  · rw [busRead_of_granted inDevice_ptpTsId h, Dev.now_congr (Dev.tb_answer ..), wordRead_ptpTsId, now_ptpPop,
      (Dev.sameClock_settledFor ..).1, haccess]

theorem ptpTs_inj (a b : Nat) (h : Reg.PTP_TS a = Reg.PTP_TS b) : a = b := by unfold Reg.PTP_TS at h; omega

/-! ### The statements on PTP stamps -/

theorem exec_ptpStamp_room (s : State) (tx : Bool) (frame : List (BitVec 8)) (back m q : Nat) (h : ptpEvent frame = some (m, q))
    (hroom : s.dev.tb.ptp.length < 64) :
    ∃ t e, exec (.ptpStamp tx frame back) s = .next t ∧ t.dev.tb.ptp = s.dev.tb.ptp ++ [e]
      ∧ bit e.1 31 = true ∧ bit e.1 30 = tx ∧ fld e.1 24 4 = m ∧ fld e.1 0 16 = q
      ∧ e.2 = s.dev.timeWord 7 true (if tx then s.dev.now - back + psUnits (s.dev.n Reg.PTP_TX_LAT)
          else s.dev.now - back - psUnits (s.dev.n Reg.PTP_RX_LAT)) := by
  obtain ⟨hm, hq⟩ := ptpEvent_lt h
  obtain ⟨hvalid, htx, htype, hseq⟩ := ptpId_fields (m := m) tx (by omega) hq
  refine ⟨{ s with dev := ptpStamp tx frame back s.dev }, (ptpId tx m q, s.dev.timeWord 7 true (s.dev.ptpTime tx back)), rfl, ?_,
    hvalid, htx, htype, hseq, ?_⟩
  · show (ptpStamp tx frame back s.dev).tb.ptp = _
    rw [tb_ptpStamp_of_room h hroom tx back]
  · show s.dev.timeWord 7 true (s.dev.ptpTime tx back) = _
    rw [Dev.ptpTime]

theorem exec_ptpStamp_full (s : State) (tx : Bool) (frame : List (BitVec 8)) (back m q : Nat) (h : ptpEvent frame = some (m, q))
    (hfull : 64 ≤ s.dev.tb.ptp.length) :
    ∃ t, exec (.ptpStamp tx frame back) s = .next t ∧ t.dev.tb.ptp = s.dev.tb.ptp ∧ t.dev.on Reg.TB_STATUS 13 = true
      ∧ t.dev.n Reg.PTP_DROPS = min (s.dev.n Reg.PTP_DROPS + 1) (2 ^ 32 - 1) := by
  have hstamp := ptpStamp_of_full h hfull tx back
  refine ⟨{ s with dev := (s.dev.addSat Reg.PTP_DROPS 1).sqEvent Reg.TB_STATUS 13 1488 }, ?_, ?_, ?_, ?_⟩
  · show s.onDev (ptpStamp tx frame back) = _
    rw [State.onDev_eq, hstamp]
  · exact congrArg Tb.ptp ((Dev.tb_sqEvent ..).trans (Dev.tb_addSat ..))
  · exact (Dev.on_sqEvent_tb _ (by decide) (by decide)).trans (by simp)
  · exact (Dev.n_congr (Dev.rd_sqEvent_ne _ _ (by decide) (by decide))).trans (Dev.n_addSat_self _ _ 1)

theorem exec_ptpStamp_other (s : State) (tx : Bool) (frame : List (BitVec 8)) (back : Nat) (h : ptpEvent frame = none) :
    ∃ t, exec (.ptpStamp tx frame back) s = .next t ∧ t.dev = s.dev ∧ t.mem = s.mem :=
  ⟨{ s with dev := ptpStamp tx frame back s.dev }, rfl, ptpStamp_of_other h tx back s.dev, rfl⟩

/-- A read of PTP_TS_ID pops the oldest stamp into the view. -/
theorem exec_ptpTsPop (s : State) (i : Ini) (id : Word) (w : Word128) (r : List (Word × Word128))
    (h : s.reaches i Reg.PTP_TS_ID .read = true) (hptp : s.dev.tb.ptp = (id, w) :: r) :
    ∃ t, exec (.ptpTsPop i) s = .next t ∧ t.dev.resp = ⟨true, id⟩ ∧ t.dev.tb.ptp = r ∧ t.dev.rd Reg.PTP_TS_ID = id
      ∧ ∀ k : Fin 4, t.dev.n (Reg.PTP_TS k.val) = fld w (32 * k.val) 32 := by
  have haccess := access_of_reaches s i Reg.PTP_TS_ID 0 .read h
  have hsettled : ((s.dev.reached i 0).settledFor i (keyBlock Reg.PTP_TS_ID)).tb.ptp = (id, w) :: r :=
    ((s.dev.reached i 0).sameClock_settledFor i _).2.trans hptp
  have hread := busRead_of_granted (d := s.dev) (i := i) inDevice_ptpTsId (congrArg Prod.snd haccess)
  rw [haccess, wordRead_ptpTsId, ptpPop_of_cons hsettled] at hread
  generalize (s.dev.reached i 0).settledFor i (keyBlock Reg.PTP_TS_ID) = e at hread
  refine ⟨{ s with dev := busRead i (regBase + Reg.PTP_TS_ID) s.dev }, rfl, ?_, ?_, ?_, fun k => ?_⟩
  · show (busRead i (regBase + Reg.PTP_TS_ID) s.dev).resp = _
    rw [hread, Dev.resp_answer]
  · show (busRead i (regBase + Reg.PTP_TS_ID) s.dev).tb.ptp = _
    rw [hread, Dev.tb_answer, Dev.tb_wr128, Dev.wr_tb]
    rfl
  · show (busRead i (regBase + Reg.PTP_TS_ID) s.dev).rd _ = _
    rw [hread, Dev.rd_answer, Dev.rd_wr128_ne _ _ fun k => by unfold Reg.PTP_TS_ID Reg.PTP_TS; omega, Dev.rd_wr_self]
  · show (busRead i (regBase + Reg.PTP_TS_ID) s.dev).n _ = _
    rw [hread, Dev.n_answer, Dev.n_wr128_self ptpTs_inj]

end Sys2Proof.Machine

namespace Sys2Proof
open Sys2Proof.Machine

/-- Settles O14, command by command. -/
theorem ptpStamps : Obligations.PtpStamps := by
  unfold Obligations.PtpStamps
  exact ⟨exec_ptpStamp_room, exec_ptpStamp_full, exec_ptpStamp_other, exec_ptpTsPop⟩

end Sys2Proof
end

section
/-! SUPPORT. The timebase outputs and their alignment, and the proof of the statement about them. -/
namespace Sys2Proof.Machine

/-! ### The state of one output -/

@[simp] theorem Dev.outp_setOut_self (d : Dev) (n : Nat) (o : OutSt) : (d.setOut n o).outp n = o :=
  Tab.get_set_self (fun _ => ({} : OutSt)) d.tb.outs n o

theorem Dev.outp_setOut_ne (d : Dev) {m n : Nat} (o : OutSt) (h : m ≠ n) : (d.setOut n o).outp m = d.outp m :=
  Tab.get_set_ne (fun _ => ({} : OutSt)) d.tb.outs o h

theorem Dev.outp_congr {d e : Dev} (h : e.tb = d.tb) (m : Nat) : e.outp m = d.outp m :=
  congrArg (fun x : Tb => x.outs.get (fun _ => ({} : OutSt)) m) h

theorem Dev.outp_setOut_other (d : Dev) (n : Fin 12) (o : OutSt) (m : Fin 12) (h : m ≠ n) : (d.setOut n o).outp m = d.outp m :=
  d.outp_setOut_ne o fun e => h (Fin.ext e)

/-! ### Starting, stopping and parking (R56, R58) -/

theorem outputStart_of_due {d : Dev} {n : Nat} (hen : d.on (Reg.OUT_CFG n) 31 = true) (hrun : (d.outp n).running = false)
    (hpark : (d.outp n).parked = false) (hstart : d.periodStart n = true) : outputStart n d = d.setOut n ((d.outp n).start d.tb.edges) :=
  if_pos ⟨hen, by simp [hrun], by simp [hpark], hstart⟩

theorem outputStop_of_due {d : Dev} {n : Nat} (hen : d.on (Reg.OUT_CFG n) 31 = false) (hrun : (d.outp n).running = true)
    (hhigh : d.highPhase n = false) : outputStop n d = d.setOut n { d.outp n with running := false } :=
  if_pos ⟨by simp [hen], hrun, by simp [hhigh]⟩

theorem sysrefDone_of_due {d : Dev} {n : Nat} (hone : d.oneShot n = true) (hrun : (d.outp n).running = true)
    (hshots : d.shotLimit n ≤ d.shotsOver n + b2n (!d.highPhase n)) :
    sysrefDone n d = d.setOut n { d.outp n with running := false, parked := true } := if_pos ⟨hone, hrun, hshots⟩

/-! ### SYSREF of a port that waits in ALIGN (R82) -/

/-- The check of a SYSREF period raises no more than a fault of its port. -/
theorem sameOn_sysrefCheck (d : Dev) (n : Nat) : d.SameOn timebaseKey (d.sysrefCheck n) := by
  unfold Dev.sysrefCheck
  dsimp only
  split
  next hcheck =>
    obtain ⟨-, h9, -⟩ := hcheck
    have hp : n - 4 < 6 := by omega
    exact (sameOn_linkFault d _ _ _ hp).trans (sameOn_setLink _ _ _ hp)
  next => exact .refl d

/-- An output that is no SYSREF output, or whose port does not wait in ALIGN, has nothing to check. -/
theorem Dev.sysrefCheck_of_not {d : Dev} {n : Nat} (h : n < 4 ∨ 9 < n ∨ d.linkState (n - 4) ≠ 4) : d.sysrefCheck n = d :=
  if_neg fun ⟨h4, h9, hlink, _⟩ => h.elim (Nat.not_lt.mpr h4) (·.elim (Nat.not_lt.mpr h9) (· hlink))

theorem timebaseKey_outCfg {n : Nat} (h : n < 12) : timebaseKey (Reg.OUT_CFG n) := by
  unfold timebaseKey Reg.OUT_CFG
  omega

theorem linkState_ne_outCfg (p n : Nat) : Reg.LINK_STATE p ≠ Reg.OUT_CFG n := by
  unfold Reg.LINK_STATE Reg.OUT_CFG
  omega

theorem outCfg_inj {m n : Nat} (h : Reg.OUT_CFG m = Reg.OUT_CFG n) : m = n := by
  unfold Reg.OUT_CFG at h
  omega

/-! ### A changed divider (R56) -/

/-- The output as its changed divider takes effect. -/
def Dev.rediv (d : Dev) (n : Nat) : OutSt :=
  { d.outp n with divm1 := d.f (Reg.OUT_CFG n) 0 12, t0 := d.tb.edges, shots := d.shotsOver n, since := d.tb.edges }

/-- The device with the new divider in force and ALIGNED clear. -/
def Dev.divided (d : Dev) (n : Nat) : Dev := (d.setOut n (d.rediv n)).clrB (Reg.OUT_CFG n) 19

theorem divChange_of_changed {d : Dev} {n : Nat} (hdiv : (d.outp n).divm1 ≠ d.f (Reg.OUT_CFG n) 0 12) (hstart : d.periodStart n = true) :
    divChange n d = (d.divided n).sysrefCheck n := if_pos ⟨hdiv, hstart⟩

theorem Dev.tb_divided (d : Dev) (n : Nat) : (d.divided n).tb = (d.setOut n (d.rediv n)).tb := Dev.tb_clrB ..

theorem Dev.rd_divided_ne (d : Dev) (n : Nat) {j : Nat} (h : j ≠ Reg.OUT_CFG n) : (d.divided n).rd j = d.rd j := Dev.rd_clrB_ne _ _ h

theorem Dev.linkState_divided (d : Dev) (n p : Nat) : (d.divided n).linkState p = d.linkState p :=
  Dev.f_congr 29 3 (d.rd_divided_ne n (linkState_ne_outCfg p n))

theorem now_divChange (n : Nat) (d : Dev) : (divChange n d).now = d.now := by
  unfold divChange
  dsimp only
  split
  · exact (Dev.now_congr (sameOn_sysrefCheck _ n).1).trans rfl
  · rfl

/-! ### A sync of the outputs (R57) -/

/-- The output as a sync restarts it. -/
def Dev.restarted (d : Dev) (n : Nat) : OutSt :=
  { (d.outp n).start d.tb.edges with divm1 := d.f (Reg.OUT_CFG n) 0 12, t0 := d.tb.edges, running := d.on (Reg.OUT_CFG n) 31 }

theorem Dev.tb_syncOutput (d : Dev) (n : Nat) : (d.syncOutput n).tb = (d.setOut n (d.restarted n)).tb :=
  (sameOn_sysrefCheck _ n).1.trans (Dev.tb_setB ..)

theorem Dev.outp_syncOutput_self (d : Dev) (n : Nat) : (d.syncOutput n).outp n = d.restarted n :=
  (Dev.outp_congr (d.tb_syncOutput n) n).trans (d.outp_setOut_self n _)

theorem Dev.outp_syncOutput_ne (d : Dev) {m n : Nat} (h : m ≠ n) : (d.syncOutput n).outp m = d.outp m :=
  (Dev.outp_congr (d.tb_syncOutput n) m).trans (d.outp_setOut_ne _ h)

theorem Dev.edges_syncOutput (d : Dev) (n : Nat) : (d.syncOutput n).tb.edges = d.tb.edges := (congrArg Tb.edges (d.tb_syncOutput n)).trans rfl

theorem Dev.now_syncOutput (d : Dev) (n : Nat) : (d.syncOutput n).now = d.now := (congrArg Tb.dt (d.tb_syncOutput n)).trans rfl

/-- Of the timebase's registers a restart writes the output's own alone. -/
theorem Dev.rd_syncOutput_ne (d : Dev) {n j : Nat} (hj : timebaseKey j) (h : j ≠ Reg.OUT_CFG n) : (d.syncOutput n).rd j = d.rd j :=
  ((sameOn_sysrefCheck _ n).2 j hj).trans (Dev.rd_setB_ne _ 19 h)

theorem Dev.on_syncOutput_self (d : Dev) {n : Nat} (hn : n < 12) : (d.syncOutput n).on (Reg.OUT_CFG n) 19 = true :=
  (Dev.on_congr 19 ((sameOn_sysrefCheck _ n).2 _ (timebaseKey_outCfg hn))).trans (Dev.on_setB_self _ _ _ (by decide))

/-- A restart of one output leaves what another begins with. -/
theorem Dev.restarted_syncOutput {d : Dev} {m n : Nat} (hm : m < 12) (h : m ≠ n) : (d.syncOutput n).restarted m = d.restarted m := by
  have hrd := d.rd_syncOutput_ne (timebaseKey_outCfg hm) fun e => h (outCfg_inj e)
  rw [Dev.restarted, Dev.restarted, d.outp_syncOutput_ne h, d.edges_syncOutput, Dev.f_congr 0 12 hrd, Dev.on_congr 31 hrd]

/-- The outputs of a list restart one after another. -/
def Dev.syncAll (d : Dev) (l : List Nat) : Dev := l.foldl Dev.syncOutput d

theorem Dev.now_syncAll (d : Dev) (l : List Nat) : (d.syncAll l).now = d.now := by
  induction l generalizing d with
  | nil => rfl
  | cons n l ih => exact (ih _).trans (d.now_syncOutput n)

theorem Dev.rd_syncAll_ne (d : Dev) {l : List Nat} {j : Nat} (hj : timebaseKey j) (h : ∀ n ∈ l, j ≠ Reg.OUT_CFG n) : (d.syncAll l).rd j = d.rd j := by
  induction l generalizing d with
  | nil => rfl
  | cons n l ih => exact (ih _ fun m hm => h m (List.mem_cons_of_mem _ hm)).trans (d.rd_syncOutput_ne hj (h n List.mem_cons_self))

theorem Dev.outp_syncAll_ne (d : Dev) {l : List Nat} {m : Nat} (h : m ∉ l) : (d.syncAll l).outp m = d.outp m := by
  induction l generalizing d with
  | nil => rfl
  | cons n l ih =>
    obtain ⟨hn, hl⟩ := List.ne_and_not_mem_of_not_mem_cons h
    exact (ih _ hl).trans (d.outp_syncOutput_ne hn)

theorem Dev.rd_syncAll_outCfg_ne (d : Dev) {l : List Nat} {m : Nat} (hm : m < 12) (h : m ∉ l) :
    (d.syncAll l).rd (Reg.OUT_CFG m) = d.rd (Reg.OUT_CFG m) :=
  d.rd_syncAll_ne (timebaseKey_outCfg hm) fun _ hn e => h (outCfg_inj e ▸ hn)

/-- Each output of the list restarts from the state before the first of them. -/
theorem Dev.syncAll_of_mem (d : Dev) {l : List Nat} {m : Nat} (hm : m < 12) (hl : l.Nodup) (h : m ∈ l) :
    (d.syncAll l).outp m = d.restarted m ∧ (d.syncAll l).on (Reg.OUT_CFG m) 19 = true := by
  induction l generalizing d with
  | nil => simp at h
  | cons n l ih =>
    obtain ⟨hn, hl⟩ := List.nodup_cons.mp hl
    rcases List.mem_cons.mp h with rfl | hmem
    · exact ⟨((d.syncOutput m).outp_syncAll_ne hn).trans (d.outp_syncOutput_self m),
        (Dev.on_congr 19 ((d.syncOutput m).rd_syncAll_outCfg_ne hm hn)).trans (d.on_syncOutput_self hm)⟩
    · have hne : m ≠ n := fun e => hn (e ▸ hmem)
      obtain ⟨hout, hon⟩ := ih (d.syncOutput n) hl hmem
      exact ⟨hout.trans (Dev.restarted_syncOutput hm hne), hon⟩

/-- The outputs that OUT_SYNC_MASK selected. -/
def Dev.masked (d : Dev) : List Nat := (List.range 12).filter fun n => d.tb.syncMask.testBit n

theorem Dev.mem_masked {d : Dev} {n : Nat} : n ∈ d.masked ↔ n < 12 ∧ d.tb.syncMask.testBit n = true := by
  rw [Dev.masked, List.mem_filter, List.mem_range]

theorem Dev.nodup_masked (d : Dev) : d.masked.Nodup := List.nodup_range.filter _

/-- The device with its masked outputs restarted and the request taken. -/
def Dev.aligned (d : Dev) : Dev := (d.syncAll d.masked).onTb fun x => { x with syncAt := none }

/-- The device with OUT_SYNC_LATE set where the request was late. -/
def Dev.lateShown (d : Dev) (late : Bool) : Dev := if late then (d.setB Reg.OUT_SYNC_LATE 0).seqInc Reg.OUT_SYNC_LATE else d

theorem outSyncExecute_of_due {d : Dev} {at_ : Nat} (hat : d.tb.syncAt = some at_) (hdue : at_ ≤ shortTime d.now)
    (hlate : d.tb.syncLate = true → d.tb.syncEdge < d.tb.edges) : outSyncExecute d = (d.aligned.lateShown d.tb.syncLate).tbEvent 1486 := by
  rw [outSyncExecute, hat]
  exact if_pos ⟨hdue, hlate⟩

theorem Dev.tb_lateShown (d : Dev) (late : Bool) : (d.lateShown late).tb = d.tb := by
  unfold Dev.lateShown
  split
  · rw [Dev.tb_seqInc, Dev.tb_setB]
  · rfl

theorem Dev.rd_lateShown_ne (d : Dev) (late : Bool) {j : Nat} (h : j ≠ Reg.OUT_SYNC_LATE) : (d.lateShown late).rd j = d.rd j := by
  unfold Dev.lateShown
  split
  · exact (Dev.rd_wr_ne _ _ h).trans (Dev.rd_setB_ne _ 0 h)
  · rfl

theorem now_outSyncExecute (d : Dev) : (outSyncExecute d).now = d.now := by
  cases hat : d.tb.syncAt with
  | none => rw [outSyncExecute, hat]
  | some t =>
    by_cases h : t ≤ shortTime d.now ∧ (d.tb.syncLate = true → d.tb.syncEdge < d.tb.edges)
    · rw [outSyncExecute_of_due hat h.1 h.2, Dev.now_congr (Dev.tb_tbEvent ..), Dev.now_congr (Dev.tb_lateShown ..)]
      exact d.now_syncAll d.masked
    · rw [outSyncExecute, hat]
      exact congrArg Dev.now (if_neg h)

/-! ### The statements on the outputs -/

theorem exec_outputStart (s : State) (n : Fin 12) (hen : s.dev.on (Reg.OUT_CFG n) 31 = true) (hrun : (s.dev.outp n).running = false)
    (hpark : (s.dev.outp n).parked = false) (hstart : s.dev.periodStart n = true) :
    ∃ t, exec (.outputStart n) s = .next t ∧ t.dev.outp n = (s.dev.outp n).start s.dev.tb.edges
      ∧ (∀ m : Fin 12, m ≠ n → t.dev.outp m = s.dev.outp m) ∧ (∀ j, t.dev.rd j = s.dev.rd j) ∧ t.dev.now = s.dev.now := by
  refine ⟨{ s with dev := s.dev.setOut n ((s.dev.outp n).start s.dev.tb.edges) }, ?_, Dev.outp_setOut_self ..,
    Dev.outp_setOut_other _ _ _, fun _ => rfl, rfl⟩
  show s.onDev (outputStart n) = _
  rw [State.onDev_eq, outputStart_of_due hen hrun hpark hstart]

theorem exec_outputStop (s : State) (n : Fin 12) (hen : s.dev.on (Reg.OUT_CFG n) 31 = false) (hrun : (s.dev.outp n).running = true)
    (hhigh : s.dev.highPhase n = false) :
    ∃ t, exec (.outputStop n) s = .next t ∧ t.dev.outp n = { s.dev.outp n with running := false }
      ∧ (∀ m : Fin 12, m ≠ n → t.dev.outp m = s.dev.outp m) ∧ (∀ j, t.dev.rd j = s.dev.rd j) ∧ t.dev.now = s.dev.now := by
  refine ⟨{ s with dev := s.dev.setOut n { s.dev.outp n with running := false } }, ?_, Dev.outp_setOut_self ..,
    Dev.outp_setOut_other _ _ _, fun _ => rfl, rfl⟩
  show s.onDev (outputStop n) = _
  rw [State.onDev_eq, outputStop_of_due hen hrun hhigh]

/-- The output with its delay walked to another step in the present period. -/
def Dev.delayed (d : Dev) (n delay : Nat) : Dev := d.setOut n { d.outp n with delay := delay, walked := some d.tb.edges }

theorem delayWalk_up {d : Dev} {n : Nat} (hstart : d.periodStart n = true) (hwalked : (d.outp n).walked ≠ some d.tb.edges)
    (hdelay : (d.outp n).delay < d.f (Reg.OUT_DELAY n) 0 14) : delayWalk n d = d.delayed n ((d.outp n).delay + 1) :=
  (if_neg (by simp [hstart, hwalked])).trans (if_pos hdelay)

theorem delayWalk_down {d : Dev} {n : Nat} (hstart : d.periodStart n = true) (hwalked : (d.outp n).walked ≠ some d.tb.edges)
    (hdelay : d.f (Reg.OUT_DELAY n) 0 14 < (d.outp n).delay) : delayWalk n d = d.delayed n ((d.outp n).delay - 1) :=
  (if_neg (by simp [hstart, hwalked])).trans ((if_neg (Nat.lt_asymm hdelay)).trans (if_pos hdelay))

theorem Dev.outp_delayed_self (d : Dev) (n delay : Nat) : ((d.delayed n delay).outp n).delay = delay :=
  congrArg OutSt.delay (Dev.outp_setOut_self ..)

theorem exec_delayWalkStep_up (s : State) (n : Fin 12) (hstart : s.dev.periodStart n = true) (hwalked : (s.dev.outp n).walked ≠ some s.dev.tb.edges)
    (hdelay : (s.dev.outp n).delay < s.dev.f (Reg.OUT_DELAY n) 0 14) :
    ∃ t, exec (.delayWalkStep n) s = .next t ∧ (t.dev.outp n).delay = (s.dev.outp n).delay + 1
      ∧ (∀ m : Fin 12, m ≠ n → t.dev.outp m = s.dev.outp m) ∧ ∀ j, t.dev.rd j = s.dev.rd j := by
  refine ⟨{ s with dev := s.dev.delayed n ((s.dev.outp n).delay + 1) }, ?_, Dev.outp_delayed_self .., Dev.outp_setOut_other _ _ _, fun _ => rfl⟩
  show s.onDev (delayWalk n) = _
  rw [State.onDev_eq, delayWalk_up hstart hwalked hdelay]

theorem exec_delayWalkStep_down (s : State) (n : Fin 12) (hstart : s.dev.periodStart n = true) (hwalked : (s.dev.outp n).walked ≠ some s.dev.tb.edges)
    (hdelay : s.dev.f (Reg.OUT_DELAY n) 0 14 < (s.dev.outp n).delay) :
    ∃ t, exec (.delayWalkStep n) s = .next t ∧ (t.dev.outp n).delay + 1 = (s.dev.outp n).delay
      ∧ (∀ m : Fin 12, m ≠ n → t.dev.outp m = s.dev.outp m) ∧ ∀ j, t.dev.rd j = s.dev.rd j := by
  refine ⟨{ s with dev := s.dev.delayed n ((s.dev.outp n).delay - 1) }, ?_, ?_, Dev.outp_setOut_other _ _ _, fun _ => rfl⟩
  · show s.onDev (delayWalk n) = _
    rw [State.onDev_eq, delayWalk_down hstart hwalked hdelay]
  · exact (congrArg (· + 1) (Dev.outp_delayed_self ..)).trans (Nat.sub_add_cancel (by omega))

/-- A changed divider is in force from a period start, with ALIGNED clear. -/
theorem exec_divChangeEffect (s : State) (n : Fin 12) (hdiv : (s.dev.outp n).divm1 ≠ s.dev.f (Reg.OUT_CFG n) 0 12) (hstart : s.dev.periodStart n = true) :
    ∃ t, exec (.divChangeEffect n) s = .next t ∧ (t.dev.outp n).divm1 = s.dev.f (Reg.OUT_CFG n) 0 12
      ∧ t.dev.on (Reg.OUT_CFG n) 19 = false ∧ (∀ m : Fin 12, m ≠ n → t.dev.outp m = s.dev.outp m)
      ∧ (n.val < 4 ∨ 9 < n.val ∨ s.dev.linkState (n.val - 4) ≠ 4 → ∀ j, j ≠ Reg.OUT_CFG n → t.dev.rd j = s.dev.rd j) := by
  obtain ⟨htb, hrd⟩ := sameOn_sysrefCheck (s.dev.divided n) n
  have hout (m : Nat) : ((s.dev.divided n).sysrefCheck n).outp m = (s.dev.setOut n (s.dev.rediv n)).outp m :=
    Dev.outp_congr (htb.trans (s.dev.tb_divided n)) m
  refine ⟨{ s with dev := (s.dev.divided n).sysrefCheck n }, ?_, ?_, ?_, fun m hm => ?_, fun hport j hj => ?_⟩
  · show s.onDev (divChange n) = _
    rw [State.onDev_eq, divChange_of_changed hdiv hstart]
  · exact congrArg OutSt.divm1 ((hout n).trans (Dev.outp_setOut_self ..))
  · exact (Dev.on_congr 19 (hrd _ (timebaseKey_outCfg n.isLt))).trans (Dev.on_clrB_self _ _ _ (by decide))
  · exact (hout m).trans (Dev.outp_setOut_other _ _ _ m hm)
  · have hid : (s.dev.divided n).sysrefCheck n = s.dev.divided n := by
      refine Dev.sysrefCheck_of_not ?_
      rwa [Dev.linkState_divided]
    exact (congrArg (Dev.rd · j) hid).trans (Dev.rd_divided_ne _ _ hj)

/-- A SYSREF output parks after its shots. -/
theorem exec_sysrefShotsDone (s : State) (n : Fin 12) (hone : s.dev.oneShot n = true) (hrun : (s.dev.outp n).running = true)
    (hshots : s.dev.shotLimit n ≤ s.dev.shotsOver n + b2n (!s.dev.highPhase n)) :
    ∃ t, exec (.sysrefShotsDone n) s = .next t ∧ t.dev.outp n = { s.dev.outp n with running := false, parked := true }
      ∧ (∀ m : Fin 12, m ≠ n → t.dev.outp m = s.dev.outp m) ∧ ∀ j, t.dev.rd j = s.dev.rd j := by
  refine ⟨{ s with dev := s.dev.setOut n { s.dev.outp n with running := false, parked := true } }, ?_, Dev.outp_setOut_self .., Dev.outp_setOut_other _ _ _,
    fun _ => rfl⟩
  show s.onDev (sysrefDone n) = _
  rw [State.onDev_eq, sysrefDone_of_due hone hrun hshots]

/-- The request keeps the instant and the mask as they are at the command. -/
theorem exec_outSyncCmd (s : State) (i : Ini) (h : s.takes i Reg.OUT_SYNC_CMD = true) :
    ∃ t, exec (.outSyncCmd i) s = .next t ∧ t.dev.tb.syncAt = some (s.dev.n64 Reg.OUT_SYNC_AT_LO Reg.OUT_SYNC_AT_HI)
      ∧ t.dev.tb.syncMask = s.dev.f Reg.OUT_SYNC_MASK 0 12
      ∧ t.dev.tb.syncLate = decide (s.dev.n64 Reg.OUT_SYNC_AT_LO Reg.OUT_SYNC_AT_HI < shortTime s.dev.now)
      ∧ (∀ j, t.dev.rd j = s.dev.rd j) ∧ t.mem = s.mem := by
  refine ⟨{ s with dev := outSyncCmd (s.dev.reached i 0) }, ?_, rfl, rfl, rfl, fun _ => rfl, rfl⟩
  show s.onDev (fun d => d.onPosted i Reg.OUT_SYNC_CMD outSyncCmd) = _
  rw [State.onDev_eq, onPosted_of_takes s i _ _ h]

theorem Dev.rd_synced_outCfg (d : Dev) (late : Bool) {n : Nat} (hn : n < 12) :
    ((d.lateShown late).tbEvent 1486).rd (Reg.OUT_CFG n) = d.rd (Reg.OUT_CFG n) := by
  have hst : Reg.OUT_CFG n ≠ Reg.TB_STATUS := by unfold Reg.OUT_CFG Reg.TB_STATUS; omega
  have hev : Reg.OUT_CFG n ≠ Reg.EV_SEQ 1486 := by unfold Reg.OUT_CFG Reg.EV_SEQ; omega
  have hlate : Reg.OUT_CFG n ≠ Reg.OUT_SYNC_LATE := by unfold Reg.OUT_CFG Reg.OUT_SYNC_LATE; omega
  exact (Dev.rd_tbEvent_ne _ hst hev).trans (d.rd_lateShown_ne late hlate)

theorem Dev.on_lateShown (d : Dev) : (d.lateShown true).on Reg.OUT_SYNC_LATE 0 = true := by
  have hrd : (d.lateShown true).rd Reg.OUT_SYNC_LATE = seqNext ((d.setB Reg.OUT_SYNC_LATE 0).rd Reg.OUT_SYNC_LATE) := Dev.rd_wr_self ..
  rw [Dev.on, hrd, bit_seqNext _ (by decide)]
  exact d.on_setB_self _ 0 (by decide)

/-- The masked outputs restart together, a late request shows, and the event is raised. -/
theorem exec_outSyncExecute (s : State) (at_ : Nat) (hat : s.dev.tb.syncAt = some at_) (hdue : at_ ≤ shortTime s.dev.now)
    (hlate : s.dev.tb.syncLate = true → s.dev.tb.syncEdge < s.dev.tb.edges) :
    ∃ t, exec .outSyncExecute s = .next t ∧ t.dev.tb.syncAt = none
      ∧ (∀ n : Fin 12, s.dev.tb.syncMask.testBit n.val = true →
          t.dev.on (Reg.OUT_CFG n) 19 = true ∧ (t.dev.outp n).divm1 = s.dev.f (Reg.OUT_CFG n) 0 12
          ∧ (t.dev.outp n).t0 = s.dev.tb.edges ∧ (t.dev.outp n).running = s.dev.on (Reg.OUT_CFG n) 31)
      ∧ (∀ n : Fin 12, s.dev.tb.syncMask.testBit n.val = false → t.dev.outp n = s.dev.outp n ∧ t.dev.rd (Reg.OUT_CFG n) = s.dev.rd (Reg.OUT_CFG n))
      ∧ (s.dev.tb.syncLate = true → t.dev.on Reg.OUT_SYNC_LATE 0 = true)
      ∧ t.dev.n (Reg.EV_SEQ 1486) = (s.dev.n (Reg.EV_SEQ 1486) + 1) % 2 ^ 32 := by
  have htb : ((s.dev.aligned.lateShown s.dev.tb.syncLate).tbEvent 1486).tb = s.dev.aligned.tb := (Dev.tb_tbEvent ..).trans (Dev.tb_lateShown ..)
  have hcfg (n : Fin 12) : ((s.dev.aligned.lateShown s.dev.tb.syncLate).tbEvent 1486).rd (Reg.OUT_CFG n) = (s.dev.syncAll s.dev.masked).rd (Reg.OUT_CFG n) :=
    (Dev.rd_synced_outCfg _ _ n.isLt).trans rfl
  have hout (n : Fin 12) : ((s.dev.aligned.lateShown s.dev.tb.syncLate).tbEvent 1486).outp n = (s.dev.syncAll s.dev.masked).outp n :=
    (Dev.outp_congr htb n).trans rfl
  refine ⟨{ s with dev := (s.dev.aligned.lateShown s.dev.tb.syncLate).tbEvent 1486 }, ?_, ?_, fun n hn => ?_, fun n hn => ?_, fun h => ?_, ?_⟩
  · show s.onDev outSyncExecute = _
    rw [State.onDev_eq, outSyncExecute_of_due hat hdue hlate]
  · exact (congrArg Tb.syncAt htb).trans rfl
  · obtain ⟨hrestarted, hon⟩ := s.dev.syncAll_of_mem n.isLt s.dev.nodup_masked (Dev.mem_masked.mpr ⟨n.isLt, hn⟩)
    have h := (hout n).trans hrestarted
    exact ⟨(Dev.on_congr 19 (hcfg n)).trans hon, congrArg OutSt.divm1 h, congrArg OutSt.t0 h, congrArg OutSt.running h⟩
  · have hmem : n.val ∉ s.dev.masked := fun h => by simp [Dev.mem_masked, hn] at h
    exact ⟨(hout n).trans (s.dev.outp_syncAll_ne hmem), (hcfg n).trans (s.dev.rd_syncAll_outCfg_ne n.isLt hmem)⟩
  · show ((s.dev.aligned.lateShown s.dev.tb.syncLate).tbEvent 1486).on Reg.OUT_SYNC_LATE 0 = true
    rw [h, Dev.on_congr 0 (Dev.rd_tbEvent_ne _ (by decide) (by decide)), Dev.on_lateShown]
  · have hseq : s.dev.aligned.rd (Reg.EV_SEQ 1486) = s.dev.rd (Reg.EV_SEQ 1486) :=
      s.dev.rd_syncAll_ne (by unfold timebaseKey; decide) fun n hn => by
        have := (Dev.mem_masked.mp hn).1
        unfold Reg.EV_SEQ Reg.OUT_CFG
        omega
    exact (Dev.n_tbEvent_self ..).trans (congrArg (fun x => (x + 1) % 2 ^ 32)
      (Dev.n_congr ((Dev.rd_lateShown_ne _ _ (by decide)).trans hseq)))

end Sys2Proof.Machine

namespace Sys2Proof
open Sys2Proof.Machine

/-- Settles O13, command by command. -/
theorem clockOutputs : Obligations.ClockOutputs := by
  unfold Obligations.ClockOutputs
  exact ⟨exec_outputStart, exec_outputStop, exec_delayWalkStep_up, exec_delayWalkStep_down, exec_divChangeEffect, exec_sysrefShotsDone, exec_outSyncCmd,
    exec_outSyncExecute⟩

end Sys2Proof
end

section
/-! SUPPORT. No command of the timebase sets device time back, and the proof of the statement about device time. -/
namespace Sys2Proof.Machine

/-! ### An access of an initiator keeps device time as its effect does -/

theorem Dev.now_access (d : Dev) (i : Ini) (addr size : Nat) (kd : Kind) (keep : Nat) : (d.access i addr size kd keep).1.now = d.now :=
  Dev.now_congr (Dev.tb_access ..)

theorem Dev.now_onPosted {eff : Dev → Dev} (h : ∀ d, (eff d).now = d.now) (d : Dev) (i : Ini) (k : Nat) : (d.onPosted i k eff).now = d.now := by
  have haccess := d.now_access i (regBase + k) 4 .write 0
  unfold Dev.onPosted
  dsimp only
  split
  · exact haccess
  · split
    · exact (Dev.now_congr (Dev.tb_writeFault ..)).trans haccess
    · exact (h _).trans haccess

theorem Dev.now_onRead {eff : Dev → Dev × Word} (h : ∀ d, (eff d).1.now = d.now) (d : Dev) (i : Ini) (k : Nat) : (d.onRead i k eff).now = d.now := by
  have haccess := d.now_access i (regBase + k) 4 .read 0
  unfold Dev.onRead
  dsimp only
  split
  · exact (Dev.now_congr (Dev.tb_answer ..)).trans ((h _).trans haccess)
  · exact haccess

theorem now_timeNow (d : Dev) : (timeNow d).1.now = d.now := Dev.now_congr (Dev.tb_wr128 ..)

/-! ### The effects of the commands on device time -/

theorem now_dllLost (d : Dev) : (dllLost d).now = d.now := by
  rcases tb_dllLost d with h | h
  · exact Dev.now_congr h
  · exact (congrArg Tb.dt h).trans rfl

theorem now_holdoverEnter (d : Dev) : (holdoverEnter d).now = d.now := by
  rcases tb_holdoverEnter_cases d with h | h
  · exact (congrArg Tb.dt h).trans rfl
  · exact (congrArg Tb.dt h).trans rfl

theorem now_holdoverExit (d : Dev) : (holdoverExit d).now = d.now := by
  unfold holdoverExit
  split <;> rfl

theorem now_ppsMissingExpire (d : Dev) : (ppsMissingExpire d).now = d.now := by
  unfold ppsMissingExpire
  split
  · split
    · exact (Dev.now_congr (Dev.tb_ppsMissing _)).trans rfl
    · rfl
  · rfl

/-- Of PPS_IN's edges the marker may set device time, and never back. -/
theorem now_le_now_ppsEdge (rising : Bool) (back : Nat) (d : Dev) : d.now ≤ (ppsEdge rising back d).now := by
  by_cases h : rising = d.on Reg.TB_CTRL 3
  · exact (congrArg Dev.now (if_pos h)).ge
  · rw [ppsEdge_of_marker h, Dev.now_ppsMark]
    exact d.now_le_now_ppsSet back

theorem now_outputStart (n : Nat) (d : Dev) : (outputStart n d).now = d.now := by
  unfold outputStart
  dsimp only
  split <;> rfl

theorem now_outputStop (n : Nat) (d : Dev) : (outputStop n d).now = d.now := by
  unfold outputStop
  dsimp only
  split <;> rfl

theorem now_delayWalk (n : Nat) (d : Dev) : (delayWalk n d).now = d.now := by
  unfold delayWalk
  dsimp only
  split
  · rfl
  · split
    · rfl
    · split <;> rfl

theorem now_sysrefDone (n : Nat) (d : Dev) : (sysrefDone n d).now = d.now := by
  unfold sysrefDone
  dsimp only
  split <;> rfl

theorem now_todArm (d : Dev) : (todArm d).now = d.now := Dev.now_congr (Dev.tb_setB ..)

/-- What the modulator answers to a change of the reference leaves device time. -/
theorem Dev.now_modFollow {f : Dev → Dev} (h : ∀ d, (f d).now = d.now) (d : Dev) : (d.modFollow (f d)).now = d.now :=
  (Dev.now_congr (Dev.tb_modFollow ..)).trans (h d)

theorem now_le_now_ppsFollow (rising : Bool) (back : Nat) (d : Dev) : d.now ≤ (d.periodFollow (ppsEdge rising back d)).now :=
  (now_le_now_ppsEdge rising back d).trans (Dev.now_congr (Dev.tb_periodFollow ..)).ge

/-! ### The statement on the commands of the timebase -/

section OnDev
variable {s t : State} {f : Dev → Dev}

theorem now_le_of_onDev (h : ∀ d, d.now ≤ (f d).now) (ht : s.onDev f = .next t) : s.dev.now ≤ t.dev.now := by
  rw [State.onDev_eq] at ht
  cases ht
  exact h s.dev

theorem now_le_of_onDev_same (h : ∀ d, (f d).now = d.now) (ht : s.onDev f = .next t) : s.dev.now ≤ t.dev.now :=
  now_le_of_onDev (fun d => (h d).ge) ht

end OnDev

/-- A set of the time may move device time on; the other commands leave it. -/
theorem now_le_of_timebaseRow (s t : State) (c : Instr) (hc : timebaseRow c = true) (ht : exec c s = .next t) : s.dev.now ≤ t.dev.now := by
  cases c
  case ppsEdge rising back => exact now_le_of_onDev (now_le_now_ppsFollow rising back) ht
  case timeNowRead i => exact now_le_of_onDev_same (Dev.now_onRead now_timeNow · i (Reg.TIME_NOW 0)) ht
  case dllLock => exact now_le_of_onDev_same (Dev.now_modFollow now_dllLock) ht
  case dllLockLoss => exact now_le_of_onDev_same (Dev.now_modFollow now_dllLost) ht
  case lockGateEnd count => exact now_le_of_onDev_same (now_lockGateEnd count) ht
  case freqStdAbsent => exact now_le_of_onDev_same now_freqAbsent ht
  case freqStdReturn => exact now_le_of_onDev_same now_freqReturn ht
  case activityLockDeclare => exact now_le_of_onDev_same (fun d => Dev.now_congr (tb_activityLock d)) ht
  case ocxoWarmChange level => exact now_le_of_onDev_same (now_warmChange level) ht
  case holdoverEnter => exact now_le_of_onDev_same (Dev.now_modFollow now_holdoverEnter) ht
  case holdoverExit => exact now_le_of_onDev_same now_holdoverExit ht
  case todArm i => exact now_le_of_onDev_same (Dev.now_onPosted now_todArm · i Reg.TOD_CMD) ht
  case todCancel i => exact now_le_of_onDev_same (Dev.now_onPosted (fun d => Dev.now_congr (tb_todCancel d)) · i Reg.TOD_CMD) ht
  case ppsMissingExpire => exact now_le_of_onDev_same now_ppsMissingExpire ht
  case outputStart n => exact now_le_of_onDev_same (now_outputStart n) ht
  case outputStop n => exact now_le_of_onDev_same (now_outputStop n) ht
  case delayWalkStep n => exact now_le_of_onDev_same (now_delayWalk n) ht
  case divChangeEffect n => exact now_le_of_onDev_same (now_divChange n) ht
  case outSyncCmd i => exact now_le_of_onDev_same (Dev.now_onPosted (fun d => (sameClock_outSyncCmd d).1) · i Reg.OUT_SYNC_CMD) ht
  case outSyncExecute => exact now_le_of_onDev_same now_outSyncExecute ht
  case sysrefShotsDone n => exact now_le_of_onDev_same (now_sysrefDone n) ht
  case ptpStamp tx frame back => exact now_le_of_onDev_same (now_ptpStamp tx frame back) ht
  case ptpTsPop i => exact now_le_of_onDev_same (now_busRead_ptpTsId i) ht
  all_goals cases hc

end Sys2Proof.Machine

namespace Sys2Proof
open Sys2Proof.Machine

/-- Settles O6: the idle step by whether the timebase runs, returns, is in holdover or is held, and the commands one by one. -/
theorem timeForward : Obligations.TimeForward := by
  unfold Obligations.TimeForward
  exact ⟨step_of_running, step_of_relocked, step_of_holdover, step_of_held, now_le_of_timebaseRow⟩

end Sys2Proof
end

section
/-! SUPPORT. What a step leaves of setups, ports and named registers; the link state, and what a link fault does. -/
namespace Sys2Proof.Machine

/-! ### Setups, ports and registers named beforehand -/

/-- The setups, the ports' own state, the timebase and every register that P names are the same. -/
def Dev.Keeps (P : Nat → Prop) (d e : Dev) : Prop := d.SameOn P e ∧ e.cw = d.cw ∧ e.ports = d.ports

section Keeps
variable {P : Nat → Prop} {a d e : Dev}

theorem Dev.Keeps.refl (d : Dev) : d.Keeps P d := ⟨.refl d, rfl, rfl⟩

theorem Dev.Keeps.trans (had : a.Keeps P d) (hde : d.Keeps P e) : a.Keeps P e :=
  ⟨had.1.trans hde.1, hde.2.1.trans had.2.1, hde.2.2.trans had.2.2⟩

theorem Dev.Keeps.tb (h : d.Keeps P e) : e.tb = d.tb := h.1.1

theorem Dev.Keeps.rd (h : d.Keeps P e) {j : Nat} (hj : P j) : e.rd j = d.rd j := h.1.2 j hj

theorem Dev.Keeps.cw (h : d.Keeps P e) : e.cw = d.cw := h.2.1

theorem Dev.Keeps.ports (h : d.Keeps P e) : e.ports = d.ports := h.2.2

theorem Dev.Keeps.port (h : d.Keeps P e) (p : Nat) : e.port p = d.port p := by rw [Dev.port, Dev.port, h.ports]

/-- Fewer registers are kept too. -/
theorem Dev.Keeps.mono {Q : Nat → Prop} (h : d.Keeps P e) (hQ : ∀ j, Q j → P j) : d.Keeps Q e :=
  ⟨⟨h.tb, fun _ hj => h.rd (hQ _ hj)⟩, h.cw, h.ports⟩

/-- So it is after an update of another unit's state. -/
theorem Dev.Keeps.of_units (h : a.Keeps P d) (htb : e.tb = d.tb) (hregs : e.regs = d.regs) (hcw : e.cw = d.cw) (hports : e.ports = d.ports) :
    a.Keeps P e := ⟨h.1.of_regs htb hregs, hcw.trans h.cw, hports.trans h.ports⟩

theorem Dev.Keeps.wr (h : a.Keeps P d) {k : Nat} (hk : ¬ P k) (v : Word) : a.Keeps P (d.wr k v) := ⟨h.1.wr hk v, h.cw, h.ports⟩

theorem Dev.Keeps.wr64 (h : a.Keeps P d) {lo hi : Nat} (hlo : ¬ P lo) (hhi : ¬ P hi) (v : Nat) : a.Keeps P (d.wr64 lo hi v) :=
  (h.wr hlo _).wr hhi _

theorem Dev.Keeps.putB (h : a.Keeps P d) {k : Nat} (hk : ¬ P k) (i : Nat) (b : Bool) : a.Keeps P (d.putB k i b) := by
  cases b <;> exact h.wr hk _

theorem Dev.Keeps.event (h : a.Keeps P d) {st n : Nat} (hst : ¬ P st) (hev : ¬ P (Reg.EV_SEQ n)) : a.Keeps P (d.event st n) :=
  ⟨h.1.event hst hev, h.cw, h.ports⟩

theorem Dev.Keeps.ite {c : Prop} [Decidable c] (hd : a.Keeps P d) (he : a.Keeps P e) : a.Keeps P (if c then d else e) := by
  split
  · exact hd
  · exact he

theorem Dev.Keeps.sqEvent (h : a.Keeps P d) {st n : Nat} (b : Nat) (hst : ¬ P st) (hev : ¬ P (Reg.EV_SEQ n)) : a.Keeps P (d.sqEvent st b n) :=
  h.ite ((h.wr hst _).event hst hev)

theorem Dev.Keeps.foldl {α : Type} {f : Dev → α → Dev} {l : List α} (h : a.Keeps P d) (hf : ∀ (d : Dev), ∀ x ∈ l, d.Keeps P (f d x)) :
    a.Keeps P (l.foldl f d) := by
  induction l generalizing d with
  | nil => exact h
  | cons x l ih => exact ih (h.trans (hf d x List.mem_cons_self)) fun d y hy => hf d y (List.mem_cons_of_mem _ hy)

end Keeps

/-- Folded steps that each leave a view of the device leave it. -/
theorem view_foldl {α β : Type} {v : Dev → β} {f : Dev → α → Dev} {l : List α} (d : Dev) (h : ∀ d, ∀ x ∈ l, v (f d x) = v d) :
    v (l.foldl f d) = v d := by
  induction l generalizing d with
  | nil => rfl
  | cons x l ih => exact (ih _ fun d y hy => h d y (List.mem_cons_of_mem _ hy)).trans (h d x List.mem_cons_self)

/-- The setup in force is the causeway's alone to change. -/
theorem Dev.force_congr {d e : Dev} (h : e.cw = d.cw) (t : Nat) : e.force t = d.force t := by
  unfold Dev.force Dev.slotIn Dev.slot
  rw [h]

theorem Dev.portForce_congr {d e : Dev} (h : e.cw = d.cw) (p : Nat) : e.portForce p = d.portForce p := Dev.force_congr h _

/-- The streams of a port are of its eight. -/
theorem Dev.of_mem_portStreams {d : Dev} {p s : Nat} (h : s ∈ d.portStreams p) : ∃ k < 8, s = 8 * p + k := by
  obtain ⟨k, hk, rfl⟩ := List.mem_map.mp h
  exact ⟨k, List.mem_range.mp (List.mem_filter.mp hk).1, rfl⟩

/-! ### The link state (R98, R99) -/

theorem portStatus_ne_evSeq {p : Nat} (hp : p < 6) (n : Nat) : Reg.PORT_STATUS p ≠ Reg.EV_SEQ n := by
  unfold Reg.PORT_STATUS Reg.EV_SEQ; omega

theorem linkState_ne_portStatus (p q : Nat) : Reg.LINK_STATE p ≠ Reg.PORT_STATUS q := by
  unfold Reg.LINK_STATE Reg.PORT_STATUS; omega

theorem faultCause_ne_portStatus (p q : Nat) : Reg.FAULT_CAUSE p ≠ Reg.PORT_STATUS q := by
  unfold Reg.FAULT_CAUSE Reg.PORT_STATUS; omega

theorem Dev.linkState_congr {d e : Dev} {p : Nat} (h : e.rd (Reg.LINK_STATE p) = d.rd (Reg.LINK_STATE p)) : e.linkState p = d.linkState p :=
  Dev.f_congr 29 3 h

theorem Dev.rd_setLink_ne (d : Dev) {p j : Nat} (st lanes : Nat) (hl : j ≠ Reg.LINK_STATE p) (hs : j ≠ Reg.PORT_STATUS p) :
    (d.setLink p st lanes).rd j = d.rd j := (Dev.rd_putB_ne _ _ _ hs).trans (Dev.rd_wr_ne d _ hl)

theorem Dev.rd_setLink_linkState (d : Dev) (p st lanes : Nat) :
    (d.setLink p st lanes).rd (Reg.LINK_STATE p) = packBE 32 [(st, 3), (0, 5), (lanes, 24)] :=
  (Dev.rd_putB_ne _ _ _ (linkState_ne_portStatus p p)).trans (Dev.rd_wr_self d _ _)

theorem Dev.linkState_setLink (d : Dev) (p lanes : Nat) {st : Nat} (h : st < 8) : (d.setLink p st lanes).linkState p = st := by
  rw [Dev.linkState, Dev.f, Dev.rd_setLink_linkState, packBE, fld_ofNat]
  simp only [List.foldl]
  omega

theorem Dev.linkLanes_setLink (d : Dev) (p st lanes : Nat) : (d.setLink p st lanes).f (Reg.LINK_STATE p) 0 24 = lanes % 2 ^ 24 := by
  rw [Dev.f, Dev.rd_setLink_linkState, packBE, fld_ofNat]
  simp only [List.foldl]
  omega

/-- LINK_UP follows the link state. -/
theorem Dev.on_setLink_up (d : Dev) (p st lanes : Nat) : (d.setLink p st lanes).on (Reg.PORT_STATUS p) 0 = decide (st = 5) :=
  Dev.on_putB_self _ _ _ _ (by decide)

theorem Dev.on_putB_bit_ne (d : Dev) (k : Nat) {i m : Nat} (b : Bool) (hi : i < 32) (hm : m < 32) (h : m ≠ i) : (d.putB k i b).on k m = d.on k m := by
  cases b
  · exact d.on_clrB_bit_ne k hi hm h
  · exact d.on_setB_bit_ne k hi h

/-- The other bits of the port's status stay. -/
theorem Dev.on_setLink_ne (d : Dev) (p st lanes : Nat) {m : Nat} (hm : m < 32) (h : m ≠ 0) :
    (d.setLink p st lanes).on (Reg.PORT_STATUS p) m = d.on (Reg.PORT_STATUS p) m :=
  (Dev.on_putB_bit_ne _ _ _ (by decide) hm h).trans (Dev.on_congr m (Dev.rd_wr_ne d _ (linkState_ne_portStatus p p).symm))

theorem Dev.units_setLink (d : Dev) (p st lanes : Nat) : (d.setLink p st lanes).cw = d.cw ∧ (d.setLink p st lanes).ports = d.ports := by
  have h := ((Dev.Keeps.refl (P := fun _ => False) d).wr (k := Reg.LINK_STATE p) id (packBE 32 [(st, 3), (0, 5), (lanes, 24)])).putB
    (k := Reg.PORT_STATUS p) id 0 (decide (st = 5))
  exact ⟨h.cw, h.ports⟩

theorem Dev.port_setLink (d : Dev) (p st lanes q : Nat) : (d.setLink p st lanes).port q = d.port q := by
  rw [Dev.port, Dev.port, (d.units_setLink p st lanes).2]

/-! ### A fault is noted (R93, R99, R101) -/

theorem Dev.portEvent_eq (d : Dev) (p e : Nat) : d.portEvent p e = d.event (Reg.PORT_STATUS p) (1410 + 5 * p + e) := rfl

/-- The status bits with which faults are told are 7 to 10. -/
theorem faultBit_le {cause b : Nat} (h : faultBit cause = some b) : 7 ≤ b ∧ b ≤ 10 := by
  unfold faultBit at h
  split_ifs at h <;> cases h <;> decide

/-- The status of a port once the status bit of a fault, if it has one, is set. -/
def Dev.faultShown (d : Dev) (p cause : Nat) : Dev :=
  match faultBit cause with
  | some b => d.setB (Reg.PORT_STATUS p) b
  | none => d

theorem Dev.on_faultShown (d : Dev) (p cause m : Nat) :
    (d.faultShown p cause).on (Reg.PORT_STATUS p) m = (d.on (Reg.PORT_STATUS p) m || decide (faultBit cause = some m)) := by
  unfold Dev.faultShown
  split
  next b hb =>
    have hlt := (faultBit_le hb).2
    rw [Dev.on_setB d _ _ m b (by omega), hb]
    simp [eq_comm]
  next hb => simp [hb]

theorem Dev.keeps_faultShown {P : Nat → Prop} (d : Dev) {p : Nat} (cause : Nat) (h : ¬ P (Reg.PORT_STATUS p)) : d.Keeps P (d.faultShown p cause) := by
  unfold Dev.faultShown
  split
  · exact (Dev.Keeps.refl d).wr h _
  · exact .refl d

/-- The first cause since the clear stays. -/
def Dev.causeNoted (d : Dev) (p cause lane : Nat) : Dev :=
  if d.rd (Reg.FAULT_CAUSE p) = 0 then d.wrN (Reg.FAULT_CAUSE p) (cause * 256 + lane) else d

theorem Dev.rd_causeNoted (d : Dev) (p cause lane j : Nat) :
    (d.causeNoted p cause lane).rd j
      = if j = Reg.FAULT_CAUSE p ∧ d.rd j = 0 then BitVec.ofNat 32 (cause * 256 + lane) else d.rd j := by
  unfold Dev.causeNoted
  split
  next h0 =>
    rw [Dev.rd_wrN]
    by_cases hj : j = Reg.FAULT_CAUSE p
    · simp [hj, h0]
    · simp [hj]
  next h0 => exact (if_neg fun ⟨hj, hz⟩ => h0 (hj ▸ hz)).symm

theorem Dev.keeps_causeNoted {P : Nat → Prop} (d : Dev) {p : Nat} (cause lane : Nat) (h : ¬ P (Reg.FAULT_CAUSE p)) : d.Keeps P (d.causeNoted p cause lane) :=
  ((Dev.Keeps.refl d).wr h _).ite (.refl d)

theorem Dev.noteFault_eq (d : Dev) (p cause lane : Nat) :
    d.noteFault p cause lane = (let e := ((d.faultShown p cause).causeNoted p cause lane).condLinkFault
      if (e.port p).open_ then e else e.portEvent p 0) := rfl

/-- The registers in which a port tells a fault. -/
def faultKeys (p : Nat) : List Nat :=
  [Reg.PORT_STATUS p, Reg.FAULT_CAUSE p, Reg.COND_STATUS, Reg.EV_SEQ 1473, Reg.EV_SEQ (1410 + 5 * p + 0)]

theorem Dev.keeps_noteFault {P : Nat → Prop} (d : Dev) {p : Nat} (cause lane : Nat) (hP : ∀ k ∈ faultKeys p, ¬ P k) :
    d.Keeps P (d.noteFault p cause lane) := by
  have hst := hP (Reg.PORT_STATUS p) (by simp [faultKeys])
  have hcause := hP (Reg.FAULT_CAUSE p) (by simp [faultKeys])
  have h := ((d.keeps_faultShown cause hst).trans (Dev.keeps_causeNoted _ cause lane hcause)).sqEvent 3
    (hP Reg.COND_STATUS (by simp [faultKeys])) (hP (Reg.EV_SEQ 1473) (by simp [faultKeys]))
  exact h.ite (h.event hst (hP (Reg.EV_SEQ (1410 + 5 * p + 0)) (by simp [faultKeys])))

theorem Dev.rd_condLinkFault_ne (d : Dev) {j : Nat} (hc : j ≠ Reg.COND_STATUS) (hev : j ≠ Reg.EV_SEQ 1473) : d.condLinkFault.rd j = d.rd j :=
  Dev.rd_sqEvent_ne d _ hc hev

theorem Dev.rd_noteFault_cause (d : Dev) {p : Nat} (hp : p < 6) (cause lane : Nat) :
    (d.noteFault p cause lane).rd (Reg.FAULT_CAUSE p)
      = if d.rd (Reg.FAULT_CAUSE p) = 0 then BitVec.ofNat 32 (cause * 256 + lane) else d.rd (Reg.FAULT_CAUSE p) := by
  have hc : Reg.FAULT_CAUSE p ≠ Reg.COND_STATUS := by unfold Reg.FAULT_CAUSE Reg.COND_STATUS; omega
  have hev (n : Nat) : Reg.FAULT_CAUSE p ≠ Reg.EV_SEQ n := by unfold Reg.FAULT_CAUSE Reg.EV_SEQ; omega
  have hshown : (d.faultShown p cause).rd (Reg.FAULT_CAUSE p) = d.rd (Reg.FAULT_CAUSE p) :=
    (d.keeps_faultShown (P := (· = Reg.FAULT_CAUSE p)) cause (faultCause_ne_portStatus p p).symm).rd rfl
  have hnoted := (d.faultShown p cause).rd_causeNoted p cause lane (Reg.FAULT_CAUSE p)
  simp only [true_and, hshown] at hnoted
  rw [Dev.noteFault_eq]
  dsimp only
  split
  · exact (Dev.rd_condLinkFault_ne _ hc (hev _)).trans hnoted
  · exact (Dev.rd_event_ne _ _ _ (faultCause_ne_portStatus p p) (hev _)).trans ((Dev.rd_condLinkFault_ne _ hc (hev _)).trans hnoted)

/-- A fault sets the status bit of its cause and no other. -/
theorem Dev.on_noteFault (d : Dev) {p m : Nat} (hp : p < 6) (hm : m < 16) (cause lane : Nat) :
    (d.noteFault p cause lane).on (Reg.PORT_STATUS p) m = (d.on (Reg.PORT_STATUS p) m || decide (faultBit cause = some m)) := by
  have hc : Reg.PORT_STATUS p ≠ Reg.COND_STATUS := by unfold Reg.PORT_STATUS Reg.COND_STATUS; omega
  have hev := portStatus_ne_evSeq hp
  have hnoted : ((d.faultShown p cause).causeNoted p cause lane).on (Reg.PORT_STATUS p) m = (d.faultShown p cause).on (Reg.PORT_STATUS p) m :=
    Dev.on_congr m (by rw [Dev.rd_causeNoted, if_neg fun h => faultCause_ne_portStatus p p h.1.symm])
  have hcond := Dev.on_congr m (Dev.rd_condLinkFault_ne ((d.faultShown p cause).causeNoted p cause lane) hc (hev _))
  have hall := hcond.trans (hnoted.trans (d.on_faultShown p cause m))
  rw [Dev.noteFault_eq]
  dsimp only
  split
  · exact hall
  · exact (Dev.on_event _ _ _ hm (hev _)).trans hall

/-! ### A fault that restarts the link (R93, R95) -/

/-- An outage that opens is noted by the streams of its port alone. -/
theorem Dev.keeps_startOutage {P : Nat → Prop} (d : Dev) (p : Nat) : d.Keeps P (d.startOutage p) := by
  unfold Dev.startOutage
  dsimp only
  split
  · refine (Dev.Keeps.refl d).foldl fun d s _ => ?_
    split
    · exact .refl d
    · split <;> exact (Dev.Keeps.refl d).of_units rfl rfl rfl rfl
  · exact .refl d

/-- The port's own state at a fault: its outage is open, under the cause that opened it. -/
def PortSt.faulted (x : PortSt) (cause : Nat) : PortSt :=
  { x with open_ := true, cause := if x.open_ then x.cause else cause, crc := [], held := none }

/-- The device once a fault is noted and its outage open. -/
def Dev.outage (d : Dev) (p cause lane : Nat) : Dev :=
  let e := d.noteFault p cause lane
  let f := e.setPort p ((e.port p).faulted cause)
  if (e.port p).open_ then f else f.startOutage p

theorem Dev.linkFault_eq (d : Dev) (p cause lane st : Nat) :
    d.linkFault p cause lane st = ((d.outage p cause lane).setLink p st 0).clrB (Reg.PORT_STATUS p) 4 := rfl

theorem Dev.rd_outage (d : Dev) (p cause lane j : Nat) : (d.outage p cause lane).rd j = (d.noteFault p cause lane).rd j := by
  unfold Dev.outage
  dsimp only
  split
  · rfl
  · exact (Dev.keeps_startOutage (P := (· = j)) _ p).rd rfl

theorem Dev.port_outage (d : Dev) {p : Nat} (cause lane : Nat) : (d.outage p cause lane).port p = (d.port p).faulted cause := by
  have hport : (d.noteFault p cause lane).port p = d.port p :=
    (d.keeps_noteFault (P := fun _ => False) cause lane fun _ _ => id).port p
  have hset (e : Dev) (x : PortSt) : (e.setPort p x).port p = x := by simp
  unfold Dev.outage
  dsimp only
  split
  · rw [hset, hport]
  · rw [(Dev.keeps_startOutage (P := fun _ => False) _ p).port, hset, hport]

theorem Dev.linkState_linkFault (d : Dev) (p cause lane : Nat) {st : Nat} (h : st < 8) : (d.linkFault p cause lane st).linkState p = st :=
  (Dev.linkState_congr (Dev.rd_clrB_ne _ _ (linkState_ne_portStatus p p))).trans (Dev.linkState_setLink _ p 0 h)

theorem Dev.on_linkFault_up (d : Dev) (p cause lane : Nat) {st : Nat} (h : st ≠ 5) : (d.linkFault p cause lane st).on (Reg.PORT_STATUS p) 0 = false := by
  rw [Dev.linkFault_eq, Dev.on_clrB_bit_ne _ _ (by decide) (by decide) (by decide), Dev.on_setLink_up, decide_eq_false h]

/-- The status bit of the cause sets, and those of other causes stay. -/
theorem Dev.on_linkFault (d : Dev) {p m : Nat} (hp : p < 6) (cause lane st : Nat) (hm : m < 16) (h0 : m ≠ 0) (h4 : m ≠ 4) :
    (d.linkFault p cause lane st).on (Reg.PORT_STATUS p) m = (d.on (Reg.PORT_STATUS p) m || decide (faultBit cause = some m)) := by
  rw [Dev.linkFault_eq, Dev.on_clrB_bit_ne _ _ (by decide) (by omega) h4, Dev.on_setLink_ne _ _ _ _ (by omega) h0,
    Dev.on_congr m (d.rd_outage p cause lane _), d.on_noteFault hp hm]

theorem Dev.on_linkFault_cause (d : Dev) {p b : Nat} (hp : p < 6) {cause : Nat} (lane st : Nat) (h : faultBit cause = some b) :
    (d.linkFault p cause lane st).on (Reg.PORT_STATUS p) b = true := by
  obtain ⟨hlo, hhi⟩ := faultBit_le h
  rw [d.on_linkFault hp cause lane st (by omega) (by omega) (by omega), h, decide_eq_true rfl, Bool.or_true]

/-- The first cause since the clear stays in FAULT_CAUSE. -/
theorem Dev.rd_linkFault_cause (d : Dev) {p : Nat} (hp : p < 6) (cause lane st : Nat) :
    (d.linkFault p cause lane st).rd (Reg.FAULT_CAUSE p)
      = if d.rd (Reg.FAULT_CAUSE p) = 0 then BitVec.ofNat 32 (cause * 256 + lane) else d.rd (Reg.FAULT_CAUSE p) := by
  have hlink : Reg.FAULT_CAUSE p ≠ Reg.LINK_STATE p := by unfold Reg.FAULT_CAUSE Reg.LINK_STATE; omega
  rw [Dev.linkFault_eq, Dev.rd_clrB_ne _ _ (faultCause_ne_portStatus p p), Dev.rd_setLink_ne _ _ _ hlink (faultCause_ne_portStatus p p),
    Dev.rd_outage, d.rd_noteFault_cause hp]

/-- The outage of the port is open, and its place in the multiblocks stays. -/
theorem Dev.port_linkFault (d : Dev) (p cause lane st : Nat) : (d.linkFault p cause lane st).port p = (d.port p).faulted cause :=
  (Dev.port_setLink ..).trans (d.port_outage cause lane)

end Sys2Proof.Machine
end

section
/-! SUPPORT. The equaliser of a port, and the proof of its statement. -/
namespace Sys2Proof.Machine

theorem next_congr {s : State} {d e : Dev} (h : d = e) : (.next { s with dev := d } : Out) = .next { s with dev := e } := by rw [h]

/-! ### Calibrations begin (R91, R92) -/

/-- A calibration has begun: nothing adapted yet, at the present die temperature. -/
def Dev.calBegun (d : Dev) (p : Nat) : Dev :=
  (d.setB (Reg.PORT_STATUS p) 5).setPort p { d.port p with eqAdapted := false, eqEyes := [], eqPass := [], eqTemp := d.dieQ }

theorem Dev.eqCal_of_ready {d : Dev} {p : Nat} (hup : d.linkState p = 5) (hidle : d.on (Reg.PORT_STATUS p) 5 = false) :
    d.eqCal p = d.calBegun p := if_pos ⟨hup, by simp [hidle]⟩

theorem Dev.eqCal_of_not_ready {d : Dev} {p : Nat} (h : d.linkState p = 5 → d.on (Reg.PORT_STATUS p) 5 = true) :
    d.eqCal p = d.setPort p { d.port p with eqDeferred := true } := if_neg fun ⟨hup, hidle⟩ => by simp [h hup] at hidle

theorem Dev.port_setPort_self (d : Dev) (p : Nat) (x : PortSt) : (d.setPort p x).port p = x := by simp

theorem Dev.on_calBegun (d : Dev) (p : Nat) : (d.calBegun p).on (Reg.PORT_STATUS p) 5 = true := Dev.on_setB_self _ _ _ (by decide)

theorem Dev.port_calBegun (d : Dev) (p : Nat) :
    (d.calBegun p).port p = { d.port p with eqAdapted := false, eqEyes := [], eqPass := [], eqTemp := d.dieQ } := Dev.port_setPort_self ..

theorem exec_portEqCal_up (s : State) (i : Ini) (p : Fin 6) (h : s.takes i (Reg.PORT_CMD p) = true) (hup : s.dev.linkState p = 5)
    (hidle : s.dev.on (Reg.PORT_STATUS p) 5 = false) :
    ∃ t, exec (.portEqCal i p) s = .next t ∧ t.dev.on (Reg.PORT_STATUS p) 5 = true ∧ (t.dev.port p).eqAdapted = false
      ∧ (t.dev.port p).eqDeferred = (s.dev.port p).eqDeferred := by
  have heff : s.dev.onPosted i (Reg.PORT_CMD p) (·.eqCal p) = (s.dev.reached i 0).calBegun p :=
    (onPosted_of_takes s i _ _ h).trans (Dev.eqCal_of_ready hup hidle)
  have hport := Dev.port_calBegun (s.dev.reached i 0) p
  exact ⟨{ s with dev := (s.dev.reached i 0).calBegun p }, next_congr heff, Dev.on_calBegun _ _,
    congrArg PortSt.eqAdapted hport, (congrArg PortSt.eqDeferred hport).trans rfl⟩

/-- Without an UP link the calibration waits, and no register tells of it. -/
theorem exec_portEqCal_down (s : State) (i : Ini) (p : Fin 6) (h : s.takes i (Reg.PORT_CMD p) = true) (hdown : s.dev.linkState p ≠ 5) :
    ∃ t, exec (.portEqCal i p) s = .next t ∧ (t.dev.port p).eqDeferred = true ∧ ∀ j, t.dev.rd j = s.dev.rd j := by
  have heff := (onPosted_of_takes s i _ (·.eqCal p) h).trans (Dev.eqCal_of_not_ready fun hup => absurd hup hdown)
  exact ⟨_, next_congr heff, congrArg PortSt.eqDeferred (Dev.port_setPort_self ..), fun _ => rfl⟩

theorem eqCalAuto_of_moved {d : Dev} {p : Nat} (hauto : d.on (Reg.EQ_CTRL p) 31 = true)
    (hmoved : tempMoved d.dieQ (d.port p).eqTemp (d.f (Reg.EQ_CTRL p) 0 6 + 1) = true) (hup : d.linkState p = 5) :
    eqCalAuto p d = d.eqCal p := if_pos ⟨hauto, hmoved, by omega⟩

theorem exec_eqCalAutoStart (s : State) (p : Fin 6) (hauto : s.dev.on (Reg.EQ_CTRL p) 31 = true)
    (hmoved : tempMoved s.dev.dieQ (s.dev.port p).eqTemp (s.dev.f (Reg.EQ_CTRL p) 0 6 + 1) = true) (hup : s.dev.linkState p = 5)
    (hidle : s.dev.on (Reg.PORT_STATUS p) 5 = false) :
    ∃ t, exec (.eqCalAutoStart p) s = .next t ∧ t.dev.on (Reg.PORT_STATUS p) 5 = true ∧ (t.dev.port p).eqTemp = s.dev.dieQ := by
  have heff := (eqCalAuto_of_moved hauto hmoved hup).trans (Dev.eqCal_of_ready hup hidle)
  exact ⟨_, next_congr heff, Dev.on_calBegun _ _, congrArg PortSt.eqTemp (Dev.port_calBegun ..)⟩

/-- A waiting calibration that runs waits no longer. -/
theorem exec_eqCalDeferredRun (s : State) (p : Fin 6) (hwait : (s.dev.port p).eqDeferred = true) (hup : s.dev.linkState p = 5)
    (hidle : s.dev.on (Reg.PORT_STATUS p) 5 = false) :
    ∃ t, exec (.eqCalDeferredRun p) s = .next t ∧ t.dev.on (Reg.PORT_STATUS p) 5 = true ∧ (t.dev.port p).eqDeferred = false := by
  have hrun : eqDeferredRun p s.dev = (s.dev.setPort p { s.dev.port p with eqDeferred := false }).eqCal p :=
    if_pos ⟨hwait, hup, by simp [hidle]⟩
  have hport := Dev.port_calBegun (s.dev.setPort p { s.dev.port p with eqDeferred := false }) p
  rw [Dev.port_setPort_self] at hport
  exact ⟨_, next_congr (hrun.trans (Dev.eqCal_of_ready hup hidle)), Dev.on_calBegun _ _, congrArg PortSt.eqDeferred hport⟩

/-! ### Counts cleared (R98) -/

/-- The counts of a port and the cause of its first fault. -/
def portCounts (p : Nat) : List Nat := [Reg.GAP_COUNT p, Reg.SAT_COUNT p, Reg.FAULT_CAUSE p] ++ (List.range 24).map (Reg.LANE_CRC_ERR p)

theorem portClearCounts_eq (p : Nat) (d : Dev) : portClearCounts p d = (portCounts p).foldl (fun d k => d.wrN k 0) d := rfl

theorem rd_portClearCounts (p : Nat) (d : Dev) (j : Nat) : (portClearCounts p d).rd j = if j ∈ portCounts p then 0 else d.rd j := by
  rw [portClearCounts_eq, Dev.rd_foldl_wrN_zero]

theorem portStatus_notMem_portCounts (p : Nat) : Reg.PORT_STATUS p ∉ portCounts p := by
  have hlt : ∀ k ∈ portCounts p, Reg.PORT_STATUS p < k := by
    simp only [portCounts, List.mem_append, List.mem_cons, List.mem_map, List.not_mem_nil, or_false]
    rintro k ((rfl | rfl | rfl) | ⟨l, -, rfl⟩)
    all_goals simp only [Reg.PORT_STATUS, Reg.GAP_COUNT, Reg.SAT_COUNT, Reg.FAULT_CAUSE, Reg.LANE_CRC_ERR]; omega
  exact fun h => lt_irrefl _ (hlt _ h)

theorem exec_portClearCounts (s : State) (i : Ini) (p : Fin 6) (h : s.takes i (Reg.PORT_CMD p) = true) :
    ∃ t, exec (.portClearCounts i p) s = .next t ∧ t.dev.rd (Reg.GAP_COUNT p) = 0 ∧ t.dev.rd (Reg.SAT_COUNT p) = 0
      ∧ t.dev.rd (Reg.FAULT_CAUSE p) = 0 ∧ (∀ l : Fin 24, t.dev.rd (Reg.LANE_CRC_ERR p l) = 0)
      ∧ t.dev.rd (Reg.PORT_STATUS p) = s.dev.rd (Reg.PORT_STATUS p) := by
  have hzero (j : Nat) (hj : j ∈ portCounts p) : (portClearCounts p (s.dev.reached i 0)).rd j = 0 := (rd_portClearCounts ..).trans (if_pos hj)
  refine ⟨{ s with dev := portClearCounts p (s.dev.reached i 0) }, next_congr (onPosted_of_takes s i _ (portClearCounts p) h),
    hzero _ ?_, hzero _ ?_, hzero _ ?_, fun l => hzero _ ?_, (rd_portClearCounts ..).trans (if_neg (portStatus_notMem_portCounts p))⟩
  · simp [portCounts]
  · simp [portCounts]
  · simp [portCounts]
  · exact List.mem_append_right _ (List.mem_map_of_mem (List.mem_range.mpr l.isLt))

/-! ### Adaptation and its end (R91) -/

theorem shortTime_lt (t : Nat) : shortTime t < 2 ^ 64 := Nat.mod_lt _ (Nat.two_pow_pos 64)

/-- The registers that tell of a calibration's end: the status bit clears, the count advances and the time is taken. -/
def Dev.endShown (d : Dev) (p t : Nat) : Dev :=
  ((d.clrB (Reg.PORT_STATUS p) 5).add (Reg.EQ_CAL_COUNT p) 1).wr64 (Reg.EQ_CAL_TIME_LO p) (Reg.EQ_CAL_TIME_HI p) (shortTime t)

theorem Dev.eqEnd_eq (d : Dev) (p t : Nat) :
    d.eqEnd p t = ((d.endShown p t).setPort p { (d.endShown p t).port p with eqAdapted := false, eqPass := [] }).portEvent p 2 := rfl

theorem Dev.port_endShown (d : Dev) (p t q : Nat) : (d.endShown p t).port q = d.port q := rfl

theorem Dev.port_portEvent (d : Dev) (p e q : Nat) : (d.portEvent p e).port q = d.port q := rfl

theorem Dev.port_eqEnd (d : Dev) (p t : Nat) : (d.eqEnd p t).port p = { d.port p with eqAdapted := false, eqPass := [] } := by
  rw [Dev.eqEnd_eq, Dev.port_portEvent, Dev.port_setPort_self, Dev.port_endShown]

/-- The event that ends it changes its sequence number and the port's SEQ alone. -/
theorem Dev.rd_eqEnd (d : Dev) {p j : Nat} (t : Nat) (hst : j ≠ Reg.PORT_STATUS p) (hev : j ≠ Reg.EV_SEQ (1410 + 5 * p + 2)) :
    (d.eqEnd p t).rd j = (d.endShown p t).rd j := by
  rw [Dev.eqEnd_eq, Dev.portEvent_eq, Dev.rd_event_ne _ _ _ hst hev, Dev.setPort_rd]

theorem Dev.n_eqEnd_count (d : Dev) {p : Nat} (hp : p < 6) (t : Nat) :
    (d.eqEnd p t).n (Reg.EQ_CAL_COUNT p) = (d.n (Reg.EQ_CAL_COUNT p) + 1) % 2 ^ 32 := by
  have hst : Reg.EQ_CAL_COUNT p ≠ Reg.PORT_STATUS p := by unfold Reg.EQ_CAL_COUNT Reg.PORT_STATUS; omega
  have hlo : Reg.EQ_CAL_COUNT p ≠ Reg.EQ_CAL_TIME_LO p := by unfold Reg.EQ_CAL_COUNT Reg.EQ_CAL_TIME_LO; omega
  have hhi : Reg.EQ_CAL_COUNT p ≠ Reg.EQ_CAL_TIME_HI p := by unfold Reg.EQ_CAL_COUNT Reg.EQ_CAL_TIME_HI; omega
  have hev : Reg.EQ_CAL_COUNT p ≠ Reg.EV_SEQ (1410 + 5 * p + 2) := by unfold Reg.EQ_CAL_COUNT Reg.EV_SEQ; omega
  rw [Dev.n_congr (d.rd_eqEnd t hst hev), Dev.endShown, Dev.n_congr (Dev.rd_wr64_ne _ _ hlo hhi), Dev.n_add_self, Dev.n_congr (Dev.rd_clrB_ne _ _ hst)]

theorem Dev.n64_eqEnd_time (d : Dev) {p : Nat} (hp : p < 6) (t : Nat) :
    (d.eqEnd p t).n64 (Reg.EQ_CAL_TIME_LO p) (Reg.EQ_CAL_TIME_HI p) = shortTime t := by
  have hlo : Reg.EQ_CAL_TIME_LO p ≠ Reg.PORT_STATUS p := by unfold Reg.EQ_CAL_TIME_LO Reg.PORT_STATUS; omega
  have hhi : Reg.EQ_CAL_TIME_HI p ≠ Reg.PORT_STATUS p := by unfold Reg.EQ_CAL_TIME_HI Reg.PORT_STATUS; omega
  have hevlo : Reg.EQ_CAL_TIME_LO p ≠ Reg.EV_SEQ (1410 + 5 * p + 2) := by unfold Reg.EQ_CAL_TIME_LO Reg.EV_SEQ; omega
  have hevhi : Reg.EQ_CAL_TIME_HI p ≠ Reg.EV_SEQ (1410 + 5 * p + 2) := by unfold Reg.EQ_CAL_TIME_HI Reg.EV_SEQ; omega
  have hne : Reg.EQ_CAL_TIME_LO p ≠ Reg.EQ_CAL_TIME_HI p := by unfold Reg.EQ_CAL_TIME_LO Reg.EQ_CAL_TIME_HI; omega
  rw [Dev.n64_congr (d.rd_eqEnd t hlo hevlo) (d.rd_eqEnd t hhi hevhi), Dev.endShown, Dev.n64_wr64_self _ hne (shortTime_lt t)]

/-- A calibration that ends clears its status bit and leaves the others. -/
theorem Dev.on_eqEnd (d : Dev) {p m : Nat} (hp : p < 6) (hm : m < 16) (t : Nat) :
    (d.eqEnd p t).on (Reg.PORT_STATUS p) m = (d.on (Reg.PORT_STATUS p) m && decide (m ≠ 5)) := by
  have hcount : Reg.PORT_STATUS p ≠ Reg.EQ_CAL_COUNT p := by unfold Reg.EQ_CAL_COUNT Reg.PORT_STATUS; omega
  have hlo : Reg.PORT_STATUS p ≠ Reg.EQ_CAL_TIME_LO p := by unfold Reg.EQ_CAL_TIME_LO Reg.PORT_STATUS; omega
  have hhi : Reg.PORT_STATUS p ≠ Reg.EQ_CAL_TIME_HI p := by unfold Reg.EQ_CAL_TIME_HI Reg.PORT_STATUS; omega
  rw [Dev.eqEnd_eq, Dev.portEvent_eq, Dev.on_event _ _ _ hm (portStatus_ne_evSeq hp _), Dev.setPort_on, Dev.endShown,
    Dev.on_congr m (Dev.rd_wr64_ne _ _ hlo hhi), Dev.add, Dev.on_congr m (Dev.rd_wrN_ne _ _ hcount), Dev.on_clrB _ _ _ _ _ (by decide) (by omega)]
  simp

/-- The logical lanes whose eyes meet EQ_EMIN. -/
def Dev.eyesPass (d : Dev) (p : Nat) (eyes : List Nat) : List Nat :=
  (List.range (portL (d.portForce p))).filter fun i => d.f (Reg.EQ_CTRL p) 16 10 ≤ nth eyes i 0

theorem Dev.eyesPass_of_all_fail {d : Dev} {p : Nat} {eyes : List Nat} (h : ∀ l, l < portL (d.portForce p) → nth eyes l 0 < d.f (Reg.EQ_CTRL p) 16 10) :
    d.eyesPass p eyes = [] := List.filter_eq_nil_iff.mpr fun l hl => by simpa using h l (List.mem_range.mp hl)

theorem Dev.eyesPass_of_all_pass {d : Dev} {p : Nat} {eyes : List Nat} (h : ∀ l, l < portL (d.portForce p) → d.f (Reg.EQ_CTRL p) 16 10 ≤ nth eyes l 0) :
    d.eyesPass p eyes = List.range (portL (d.portForce p)) := List.filter_eq_self.mpr fun l hl => by simpa using h l (List.mem_range.mp hl)

/-- Adaptation has ended: whether a lane failed is shown, and what the slices saw is kept for the swap. -/
def Dev.adaptEnded (d : Dev) (p : Nat) (eyes : List Nat) : Dev :=
  let e := if (d.eyesPass p eyes).length < portL (d.portForce p) then d.sqBit (Reg.PORT_STATUS p) 13 else d
  e.setPort p { e.port p with eqAdapted := true, eqAt := e.up, eqEyes := eyes, eqPass := d.eyesPass p eyes }

theorem eqAdaptEnd_of_running {d : Dev} {p : Nat} (hrun : d.on (Reg.PORT_STATUS p) 5 = true) (hadapt : (d.port p).eqAdapted = false) (eyes : List Nat) :
    eqAdaptEnd p eyes d = if (d.eyesPass p eyes).isEmpty then (d.adaptEnded p eyes).eqEnd p (d.adaptEnded p eyes).now else d.adaptEnded p eyes :=
  if_pos ⟨hrun, by simp [hadapt]⟩

/-- A port has a lane at least. -/
theorem portL_pos (ws : List Word128) : 0 < portL ws := Nat.succ_pos _

theorem Dev.on_sqBit_self (d : Dev) (st : Nat) {b : Nat} (hb : b < 16) : (d.sqBit st b).on st b = true := by
  unfold Dev.sqBit
  split
  next h => exact h
  next =>
    have hrd : ((d.setB st b).seqInc st).on st b = bit (seqNext ((d.setB st b).rd st)) b := congrArg (bit · b) (Dev.rd_wr_self _ _ _)
    rw [hrd, bit_seqNext _ hb]
    exact Dev.on_setB_self d st b (by omega)

theorem Dev.rd_sqBit_ne (d : Dev) (b : Nat) {st j : Nat} (h : j ≠ st) : (d.sqBit st b).rd j = d.rd j := by
  unfold Dev.sqBit
  split
  · rfl
  · exact (Dev.rd_wr_ne _ _ h).trans (Dev.rd_setB_ne d b h)

/-- Where every lane fails its limit, a status bit tells it and the calibration ends. -/
theorem exec_eqAdaptEnd_fail (s : State) (p : Fin 6) (eyes : List Nat) (hrun : s.dev.on (Reg.PORT_STATUS p) 5 = true)
    (hadapt : (s.dev.port p).eqAdapted = false) (h : ∀ l, l < portL (s.dev.portForce p) → nth eyes l 0 < s.dev.f (Reg.EQ_CTRL p) 16 10) :
    ∃ t, exec (.eqAdaptEnd p eyes) s = .next t ∧ t.dev.on (Reg.PORT_STATUS p) 5 = false ∧ t.dev.on (Reg.PORT_STATUS p) 13 = true
      ∧ t.dev.n (Reg.EQ_CAL_COUNT p) = (s.dev.n (Reg.EQ_CAL_COUNT p) + 1) % 2 ^ 32 := by
  have hpass := Dev.eyesPass_of_all_fail h
  have heff := (eqAdaptEnd_of_running hrun hadapt eyes).trans (if_pos (by rw [hpass]; rfl))
  have hrd (j : Nat) : (s.dev.adaptEnded p eyes).rd j = (s.dev.sqBit (Reg.PORT_STATUS p) 13).rd j := by
    rw [Dev.adaptEnded, hpass]
    dsimp only
    rw [Dev.setPort_rd, List.length_nil, if_pos (portL_pos _)]
  have hcount : Reg.EQ_CAL_COUNT p ≠ Reg.PORT_STATUS p := by unfold Reg.EQ_CAL_COUNT Reg.PORT_STATUS; omega
  refine ⟨_, next_congr heff, (Dev.on_eqEnd _ p.isLt (by decide) _).trans (by simp), (Dev.on_eqEnd _ p.isLt (by decide) _).trans ?_,
    (Dev.n_eqEnd_count _ p.isLt _).trans ?_⟩
  · rw [Dev.on_congr 13 (hrd _), Dev.on_sqBit_self _ _ (by decide)]
    rfl
  · rw [Dev.n_congr (hrd _), Dev.n_congr (Dev.rd_sqBit_ne _ _ hcount)]

/-- Where every lane passes, the calibration waits for its boundary. -/
theorem exec_eqAdaptEnd_pass (s : State) (p : Fin 6) (eyes : List Nat) (hrun : s.dev.on (Reg.PORT_STATUS p) 5 = true)
    (hadapt : (s.dev.port p).eqAdapted = false) (h : ∀ l, l < portL (s.dev.portForce p) → s.dev.f (Reg.EQ_CTRL p) 16 10 ≤ nth eyes l 0) :
    ∃ t, exec (.eqAdaptEnd p eyes) s = .next t ∧ t.dev.on (Reg.PORT_STATUS p) 5 = true ∧ (t.dev.port p).eqAdapted = true
      ∧ (t.dev.port p).eqAt = s.dev.up ∧ (t.dev.port p).eqPass = List.range (portL (s.dev.portForce p)) ∧ ∀ j, t.dev.rd j = s.dev.rd j := by
  have hpass := Dev.eyesPass_of_all_pass h
  have hsome : (s.dev.eyesPass p eyes).isEmpty = false := by
    rw [hpass, List.isEmpty_eq_false_iff, ne_eq, List.range_eq_nil]
    exact (portL_pos _).ne'
  have hended : s.dev.adaptEnded p eyes = s.dev.setPort p { s.dev.port p with
      eqAdapted := true, eqAt := s.dev.up, eqEyes := eyes, eqPass := List.range (portL (s.dev.portForce p)) } := by
    rw [Dev.adaptEnded, hpass, List.length_range]
    simp only [lt_irrefl, if_false]
  have heff := ((eqAdaptEnd_of_running hrun hadapt eyes).trans (if_neg (by simp [hsome]))).trans hended
  have hport := Dev.port_setPort_self s.dev p { s.dev.port p with
      eqAdapted := true, eqAt := s.dev.up, eqEyes := eyes, eqPass := List.range (portL (s.dev.portForce p)) }
  exact ⟨_, next_congr heff, hrun, congrArg PortSt.eqAdapted hport, congrArg PortSt.eqAt hport, congrArg PortSt.eqPass hport, fun _ => rfl⟩

/-! ### Swaps and reverts at a nominated boundary (R91, R92) -/

theorem Dev.rd_eqQuality_ne (d : Dev) {p j : Nat} (h : j ≠ Reg.EQ_QUALITY p) : (d.eqQuality p).rd j = d.rd j := Dev.rd_wrN_ne d _ h

theorem Dev.port_eqQuality (d : Dev) (p q : Nat) : (d.eqQuality p).port q = d.port q :=
  ((Dev.Keeps.refl (P := fun _ => False) d).wr id _).port q

/-- The slice of a lane goes live, and the one it replaces is kept. -/
def swapLane (p : Nat) (eyes : List Nat) (d : Dev) (i : Nat) : Dev :=
  let y := d.port p
  let d := d.setPort p { y with
    eqPrev := y.eqPrev.set (fun _ => none) i (some (d.f (Reg.LANE_EYE p i) 0 10, d.rd (Reg.LANE_EQ p i))) }
  let d := d.wrN (Reg.LANE_EYE p i) (nth eyes i 0 % 1024)
  (d.wr (Reg.LANE_EQ p i) (eqCode (Config.freeWord d.fresh).toNat)).draw

theorem rd_swapLane_ne (p : Nat) (eyes : List Nat) (d : Dev) {i j : Nat} (heye : j ≠ Reg.LANE_EYE p i) (heq : j ≠ Reg.LANE_EQ p i) :
    (swapLane p eyes d i).rd j = d.rd j := (Dev.rd_wr_ne _ _ heq).trans (Dev.rd_wrN_ne _ _ heye)

theorem eqSwap_of_due {d : Dev} {p b j : Nat} (hnom : d.nominated p = some (b, j)) (hadapt : (d.port p).eqAdapted = true)
    (hlong : elapsedNs (d.port p).eqAt (b - d.tb.jump) 2000 = true) (hsw : d.switchAt p b = false) :
    eqSwap p d = (let e := (d.port p).eqPass.foldl (swapLane p (d.port p).eqEyes) d
      ((e.setPort p { e.port p with eqFresh := (d.port p).eqPass, eqEmb := j }).eqQuality p).eqEnd p b) := by
  unfold eqSwap
  simp only [hnom]
  exact if_pos ⟨hadapt, hlong, by simp [hsw]⟩

theorem exec_eqSwap (s : State) (p : Fin 6) (b j : Nat) (hnom : s.dev.nominated p = some (b, j)) (hadapt : (s.dev.port p).eqAdapted = true)
    (hlong : elapsedNs (s.dev.port p).eqAt (b - s.dev.tb.jump) 2000 = true) (hsw : s.dev.switchAt p b = false) :
    ∃ t, exec (.eqSwap p) s = .next t ∧ t.dev.on (Reg.PORT_STATUS p) 5 = false ∧ (t.dev.port p).eqAdapted = false
      ∧ (t.dev.port p).eqFresh = (s.dev.port p).eqPass
      ∧ t.dev.n (Reg.EQ_CAL_COUNT p) = (s.dev.n (Reg.EQ_CAL_COUNT p) + 1) % 2 ^ 32
      ∧ t.dev.n64 (Reg.EQ_CAL_TIME_LO p) (Reg.EQ_CAL_TIME_HI p) = shortTime b := by
  have hcount : ((s.dev.port p).eqPass.foldl (swapLane p (s.dev.port p).eqEyes) s.dev).rd (Reg.EQ_CAL_COUNT p) = s.dev.rd (Reg.EQ_CAL_COUNT p) :=
    view_foldl (v := (·.rd (Reg.EQ_CAL_COUNT p))) _ fun d i _ => rd_swapLane_ne _ _ d
      (by unfold Reg.EQ_CAL_COUNT Reg.LANE_EYE; omega) (by unfold Reg.EQ_CAL_COUNT Reg.LANE_EQ; omega)
  have hquality : Reg.EQ_CAL_COUNT p ≠ Reg.EQ_QUALITY p := by unfold Reg.EQ_CAL_COUNT Reg.EQ_QUALITY; omega
  refine ⟨_, next_congr (eqSwap_of_due hnom hadapt hlong hsw), (Dev.on_eqEnd _ p.isLt (by decide) _).trans (by simp), ?_, ?_,
    (Dev.n_eqEnd_count _ p.isLt _).trans ?_, Dev.n64_eqEnd_time _ p.isLt b⟩
  · exact congrArg PortSt.eqAdapted (Dev.port_eqEnd ..)
  · rw [Dev.port_eqEnd, Dev.port_eqQuality, Dev.port_setPort_self]
  · rw [Dev.n_congr (Dev.rd_eqQuality_ne _ hquality), Dev.setPort_n, Dev.n_congr hcount]

theorem eqRevert_of_due {d : Dev} {p l eye : Nat} {code : Word} (hlane : l ∈ (d.port p).eqRevert) (hnom : (d.nominated p).isSome = true)
    (hprev : (d.port p).eqPrev.get (fun _ => none) l = some (eye, code)) :
    eqRevert p l d = ((((d.wrN (Reg.LANE_EYE p l) eye).wr (Reg.LANE_EQ p l) code).setPort p { d.port p with
      eqRevert := (d.port p).eqRevert.filter (· ≠ l), eqPrev := (d.port p).eqPrev.set (fun _ => none) l none }).setB (Reg.PORT_STATUS p) 12
        |>.eqQuality p).portEvent p 2 := by
  unfold eqRevert
  simp only [hprev]
  exact if_pos ⟨hlane, hnom⟩

theorem exec_eqRevert (s : State) (p : Fin 6) (l : Fin 24) (eye : Nat) (code : Word) (hlane : l.val ∈ (s.dev.port p).eqRevert)
    (hnom : (s.dev.nominated p).isSome = true) (hprev : (s.dev.port p).eqPrev.get (fun _ => none) l = some (eye, code)) :
    ∃ t, exec (.eqRevert p l) s = .next t ∧ t.dev.rd (Reg.LANE_EQ p l) = code ∧ t.dev.rd (Reg.LANE_EYE p l) = BitVec.ofNat 32 eye
      ∧ t.dev.on (Reg.PORT_STATUS p) 12 = true ∧ l.val ∉ (t.dev.port p).eqRevert := by
  have hcode : Reg.LANE_EQ p l ≠ Reg.PORT_STATUS p ∧ Reg.LANE_EQ p l ≠ Reg.EQ_QUALITY p ∧ Reg.LANE_EQ p l ≠ Reg.EV_SEQ (1410 + 5 * p + 2) := by
    unfold Reg.LANE_EQ Reg.PORT_STATUS Reg.EQ_QUALITY Reg.EV_SEQ; omega
  have heye : Reg.LANE_EYE p l ≠ Reg.PORT_STATUS p ∧ Reg.LANE_EYE p l ≠ Reg.EQ_QUALITY p ∧ Reg.LANE_EYE p l ≠ Reg.EV_SEQ (1410 + 5 * p + 2)
      ∧ Reg.LANE_EYE p l ≠ Reg.LANE_EQ p l := by
    unfold Reg.LANE_EYE Reg.LANE_EQ Reg.PORT_STATUS Reg.EQ_QUALITY Reg.EV_SEQ; omega
  have hstatus : Reg.PORT_STATUS p ≠ Reg.EQ_QUALITY p := by unfold Reg.PORT_STATUS Reg.EQ_QUALITY; omega
  refine ⟨_, next_congr (eqRevert_of_due hlane hnom hprev), ?_, ?_, ?_, ?_⟩
  · obtain ⟨hst, hq, hev⟩ := hcode
    show Dev.rd (Dev.portEvent _ p 2) _ = _
    rw [Dev.portEvent_eq, Dev.rd_event_ne _ _ _ hst hev, Dev.rd_eqQuality_ne _ hq, Dev.rd_setB_ne _ _ hst, Dev.setPort_rd, Dev.rd_wr_self]
  · obtain ⟨hst, hq, hev, hc⟩ := heye
    show Dev.rd (Dev.portEvent _ p 2) _ = _
    rw [Dev.portEvent_eq, Dev.rd_event_ne _ _ _ hst hev, Dev.rd_eqQuality_ne _ hq, Dev.rd_setB_ne _ _ hst, Dev.setPort_rd, Dev.rd_wr_ne _ _ hc,
      Dev.rd_wrN, if_pos rfl]
  · show Dev.on (Dev.portEvent _ p 2) _ _ = _
    rw [Dev.portEvent_eq, Dev.on_event _ _ _ (by decide) (portStatus_ne_evSeq p.isLt _), Dev.on_congr 12 (Dev.rd_eqQuality_ne _ hstatus),
      Dev.on_setB_self _ _ _ (by decide)]
  · show l.val ∉ (Dev.port (Dev.portEvent _ p 2) p).eqRevert
    rw [Dev.port_portEvent, Dev.port_eqQuality]
    show l.val ∉ (Dev.port (Dev.setPort _ p _) p).eqRevert
    rw [Dev.port_setPort_self]
    simp

/-! ### Codes written and staged (R98) -/

theorem Dev.staged_setPort (d : Dev) (p l : Nat) (c : Option Word) :
    ((d.setPort p { d.port p with eqStaged := (d.port p).eqStaged.set (fun _ => none) l c }).port p).eqStaged.get (fun _ => none) l = c := by
  rw [Dev.port_setPort_self, Tab.get_set_self]

theorem exec_laneEqApply (s : State) (p : Fin 6) (l : Fin 24) (c : Word) (hstaged : (s.dev.port p).eqStaged.get (fun _ => none) l.val = some c)
    (hnom : (s.dev.nominated p).isSome = true) :
    ∃ t, exec (.laneEqApply p l) s = .next t ∧ t.dev.rd (Reg.LANE_EQ p l) = c
      ∧ (t.dev.port p).eqStaged.get (fun _ => none) l.val = none ∧ ∀ j, j ≠ Reg.LANE_EQ p l → t.dev.rd j = s.dev.rd j := by
  have heff : laneEqApply p l s.dev = (s.dev.setPort p { s.dev.port p with
      eqStaged := (s.dev.port p).eqStaged.set (fun _ => none) l none }).wr (Reg.LANE_EQ p l) c := by
    unfold laneEqApply
    simp only [hstaged]
    exact if_pos hnom
  refine ⟨_, next_congr heff, Dev.rd_wr_self _ _ _, ?_, fun j hj => Dev.rd_wr_ne _ _ hj⟩
  exact Dev.staged_setPort ..

theorem laneEqWrite_of_ok {p l : Nat} {data : Word} (h : eqCodeOk p l data = true) (d : Dev) :
    laneEqWrite p l data d = d.setPort p { d.port p with eqStaged := (d.port p).eqStaged.set (fun _ => none) l (some data) } := if_pos h

/-- A code whose check fails is a write fault of the port's block. -/
theorem laneEqWrite_of_bad {p l : Nat} (hp : p < 6) {data : Word} (h : eqCodeOk p l data = false) (d : Dev) :
    laneEqWrite p l data d = d.sqEvent (Reg.PORT_STATUS p) 14 (1410 + 5 * p + 4) := by
  have hevent : writeFaultEvent (2 + p) = some (1410 + 5 * p + 4) := by
    have hne : ¬ 2 + p = 1 := by omega
    have hport : 2 ≤ 2 + p ∧ 2 + p ≤ 7 := by omega
    rw [writeFaultEvent, if_neg hne, if_pos hport, Nat.add_sub_cancel_left]
  have hkey : statusKey (2 + p) = Reg.PORT_STATUS p := by
    have hne : ¬ 2 + p = 0x2E := by omega
    rw [statusKey, if_neg hne]
    unfold Reg.PORT_STATUS
    omega
  rw [laneEqWrite, if_neg (by simp [h]), Dev.writeFault, hevent, hkey]

theorem exec_laneEqWrite (s : State) (i : Ini) (p : Fin 6) (l : Fin 24) (data : Word) (h : s.takes i (Reg.LANE_EQ p l) = true) :
    ∃ t, exec (.laneEqWrite i p l data) s = .next t
      ∧ (t.dev.port p).eqStaged.get (fun _ => none) l.val =
          (if eqCodeOk p l data = true then some data else (s.dev.port p).eqStaged.get (fun _ => none) l.val)
      ∧ (eqCodeOk p l data = false → t.dev.on (Reg.PORT_STATUS p) 14 = true)
      ∧ t.dev.rd (Reg.LANE_EQ p l) = s.dev.rd (Reg.LANE_EQ p l) := by
  have heff := onPosted_of_takes s i (Reg.LANE_EQ p l) (laneEqWrite p l data) h
  cases hok : eqCodeOk p l data with
  | true =>
    refine ⟨_, next_congr (heff.trans (laneEqWrite_of_ok hok _)), ?_, nofun, rfl⟩
    exact (Dev.staged_setPort ..).trans (if_pos rfl).symm
  | false =>
    have hst : Reg.LANE_EQ p l ≠ Reg.PORT_STATUS p := by unfold Reg.LANE_EQ Reg.PORT_STATUS; omega
    have hev : Reg.LANE_EQ p l ≠ Reg.EV_SEQ (1410 + 5 * p + 4) := by unfold Reg.LANE_EQ Reg.EV_SEQ; omega
    have hport := ((Dev.Keeps.refl (P := fun _ => False) (s.dev.reached i 0)).sqEvent (st := Reg.PORT_STATUS p) (n := 1410 + 5 * p + 4) 14 id id).port p
    refine ⟨_, next_congr (heff.trans (laneEqWrite_of_bad p.isLt hok _)), ?_, fun _ => ?_, Dev.rd_sqEvent_ne _ _ hst hev⟩
    · rw [if_neg nofun]
      exact congrArg (fun x : PortSt => x.eqStaged.get (fun _ => none) l.val) hport
    · rw [Dev.on_sqEvent _ _ _ _ (by decide) (by decide) (portStatus_ne_evSeq p.isLt _), decide_eq_true rfl, Bool.or_true]

end Sys2Proof.Machine

namespace Sys2Proof
open Sys2Proof.Machine

/-- Settles O17, command by command. -/
theorem portEqualisers : Obligations.PortEqualisers := by
  unfold Obligations.PortEqualisers
  exact ⟨exec_portEqCal_up, exec_portEqCal_down, exec_eqCalAutoStart, exec_eqCalDeferredRun, exec_portClearCounts, exec_eqAdaptEnd_fail,
    exec_eqAdaptEnd_pass, fun s p b j hnom hadapt hlong hsw _ => exec_eqSwap s p b j hnom hadapt hlong hsw, exec_eqRevert, exec_laneEqWrite,
    exec_laneEqApply⟩

end Sys2Proof
end

section
/-! SUPPORT. What the zeros, GAP records and series of a port's streams leave as it was; bring-up, and the proof of its statement. -/
namespace Sys2Proof.Machine

/-! ### Streams of a port (R87, R88, R95) -/

/-- The registers in which a port counts its saturated samples. -/
def satKeys (p : Nat) : List Nat := [Reg.SAT_COUNT p, Reg.PORT_STATUS p, Reg.EV_SEQ (1410 + 5 * p + 3)]

section Streams
variable {P : Nat → Prop} {d : Dev} {p s : Nat}

theorem Dev.keeps_setStream (d : Dev) (s : Nat) (x : StreamSt) : d.Keeps P (d.setStream s x) := (Dev.Keeps.refl d).of_units rfl rfl rfl rfl

theorem Dev.keeps_noteSat (d : Dev) (l : List Smp) (hP : ∀ k ∈ satKeys p, ¬ P k) : d.Keeps P (d.noteSat p l) := by
  unfold Dev.noteSat
  dsimp only
  split
  · exact .refl d
  · exact ((Dev.Keeps.refl d).wr (hP _ (by simp [satKeys])) _).sqEvent 11 (hP (Reg.PORT_STATUS p) (by simp [satKeys]))
      (hP (Reg.EV_SEQ (1410 + 5 * p + 3)) (by simp [satKeys]))

theorem Dev.keeps_fillStream (d : Dev) (n : Nat) (hP : ∀ k ∈ satKeys (s / 8), ¬ P k) : d.Keeps P (d.fillStream s n) := by
  unfold Dev.fillStream
  dsimp only
  refine .trans ?_ (Dev.keeps_noteSat _ _ hP)
  exact (Dev.Keeps.refl d).of_units rfl rfl rfl rfl

theorem Dev.keeps_freeTail (d : Dev) (first : Nat) (hP : ∀ k ∈ satKeys (s / 8), ¬ P k) : d.Keeps P (d.freeTail s first) := by
  unfold Dev.freeTail
  dsimp only
  split
  · split
    · exact .refl d
    · refine .trans ?_ (Dev.keeps_noteSat _ _ hP)
      exact (Dev.Keeps.refl d).of_units rfl rfl rfl rfl
  · exact .refl d

theorem Dev.keeps_beginStream (d : Dev) (s pos : Nat) : d.Keeps P (d.beginStream s pos) := (Dev.Keeps.refl d).of_units rfl rfl rfl rfl

theorem Dev.keeps_markStream (d : Dev) (s pos : Nat) : d.Keeps P (d.markStream s pos) := d.keeps_setStream _ _

theorem Dev.keeps_emit (d : Dev) (r : Nat) (h : Hdr) (payload : List Word128) : d.Keeps P (d.emit r h payload) :=
  (Dev.Keeps.refl d).of_units rfl rfl rfl rfl

theorem Dev.keeps_portGap (d : Dev) (cause t0 t1 : Nat) (cont : Bool) (hP : ¬ P (Reg.GAP_COUNT (s / 8))) :
    d.Keeps P (d.portGap s cause t0 t1 cont) := (d.keeps_emit _ _ _).wr hP _

theorem Dev.keeps_endGap (d : Dev) (t1 : Nat) (hP : ¬ P (Reg.GAP_COUNT (s / 8))) : d.Keeps P (d.endGap s t1) := by
  unfold Dev.endGap
  dsimp only
  split
  · exact (d.keeps_setStream _ _).trans (Dev.keeps_portGap _ _ _ _ _ hP)
  · exact .refl d

end Streams

/-- The streams of a port take n zeros. -/
def Dev.zerosFed (d : Dev) (p n : Nat) : Dev := ((d.portStreams p).filter fun s => (d.stream s).live).foldl (fun d s => d.fillStream s n) d

theorem Dev.div_of_mem_portStreams {d : Dev} {p s : Nat} (h : s ∈ d.portStreams p) : s / 8 = p := by
  obtain ⟨k, hk, rfl⟩ := Dev.of_mem_portStreams h
  omega

theorem Dev.keeps_zerosFed {P : Nat → Prop} (d : Dev) {p : Nat} (n : Nat) (hP : ∀ k ∈ satKeys p, ¬ P k) : d.Keeps P (d.zerosFed p n) :=
  (Dev.Keeps.refl d).foldl fun d s hs => d.keeps_fillStream n (by rwa [Dev.div_of_mem_portStreams (List.mem_of_mem_filter hs)])

/-- A port that supplies zeros goes on in its series. -/
theorem Dev.fillPort_eq (d : Dev) (p upto : Nat) :
    d.fillPort p upto = (let e := d.zerosFed p (upto - (d.port p).pos)
      e.setPort p { e.port p with pos := (e.port p).pos + (upto - (d.port p).pos) }) := rfl

theorem Dev.sameOn_fillPort {P : Nat → Prop} (d : Dev) {p : Nat} (upto : Nat) (hP : ∀ k ∈ satKeys p, ¬ P k) : d.SameOn P (d.fillPort p upto) :=
  (d.keeps_zerosFed _ hP).1.of_regs rfl rfl

theorem Dev.cw_fillPort (d : Dev) (p upto : Nat) : (d.fillPort p upto).cw = d.cw :=
  (d.keeps_zerosFed (P := fun _ => False) _ fun _ _ => id).cw

theorem Dev.port_fillPort (d : Dev) (p upto : Nat) :
    (d.fillPort p upto).port p = { d.port p with pos := (d.port p).pos + (upto - (d.port p).pos) } := by
  rw [Dev.fillPort_eq]
  dsimp only
  rw [Dev.port_setPort_self, (d.keeps_zerosFed (P := fun _ => False) _ fun _ _ => id).port]

/-! ### Bring-up to ALIGN (R69, R82) -/

theorem exec_cdrLock (s : State) (p : Fin 6) (num den : Nat) (hlink : s.dev.linkState p = 1) (href : s.dev.tb.refPresent = true) (hden : den ≠ 0)
    (hrate : num * (portDiv (s.dev.portForce p) * portS (s.dev.portForce p) * 64)
        = den * (8 * portF (s.dev.portForce p) * portMul (s.dev.portForce p) * lineBits (s.dev.portForce p))) :
    ∃ t, exec (.cdrLock p num den) s = .next t ∧ t.dev.linkState p = 2 ∧ t.dev.on (Reg.PORT_STATUS p) 0 = false
      ∧ ∀ j, j ≠ Reg.LINK_STATE p → j ≠ Reg.PORT_STATUS p → t.dev.rd j = s.dev.rd j := by
  have heff : cdrLock p num den s.dev = s.dev.setLink p 2 0 := if_pos ⟨hlink, href, hden, hrate⟩
  exact ⟨_, next_congr heff, Dev.linkState_setLink _ _ _ (by decide), Dev.on_setLink_up .., fun j => Dev.rd_setLink_ne _ _ _⟩

/-- A lane locks, and with the last one the link moves on. -/
theorem exec_syncHeaderLock (s : State) (p : Fin 6) (lane : Fin 24) (coding : Fin 3) (i : Nat) (hlink : s.dev.linkState p = 2)
    (href : s.dev.tb.refPresent = true) (hlane : logicalOf (s.dev.portForce p) lane = some i) (hcode : coding ≠ 2)
    (hset : coding.val = fld (wd (s.dev.portForce p) 0) 126 2) :
    ∃ t, exec (.syncHeaderLock p lane coding) s = .next t
      ∧ t.dev.linkState p = (if s.dev.f (Reg.LINK_STATE p) 0 24 ||| 2 ^ i = 2 ^ portL (s.dev.portForce p) - 1 then 3 else 2)
      ∧ t.dev.f (Reg.LINK_STATE p) 0 24 = (s.dev.f (Reg.LINK_STATE p) 0 24 ||| 2 ^ i) % 2 ^ 24
      ∧ ∀ j, j ≠ Reg.LINK_STATE p → j ≠ Reg.PORT_STATUS p → t.dev.rd j = s.dev.rd j := by
  have heff : syncHeaderLock p lane coding s.dev = s.dev.setLink p
      (if s.dev.f (Reg.LINK_STATE p) 0 24 ||| 2 ^ i = 2 ^ portL (s.dev.portForce p) - 1 then 3 else 2) (s.dev.f (Reg.LINK_STATE p) 0 24 ||| 2 ^ i) := by
    unfold syncHeaderLock
    simp only [hlane]
    exact if_pos ⟨hlink, href, by omega, hset⟩
  refine ⟨_, next_congr heff, Dev.linkState_setLink _ _ _ ?_, Dev.linkLanes_setLink .., fun j => Dev.rd_setLink_ne _ _ _⟩
  split <;> decide

theorem exec_syncHeaderLock_other (s : State) (p : Fin 6) (lane : Fin 24) (coding : Fin 3)
    (h : coding.val ≠ fld (wd (s.dev.portForce p) 0) 126 2 ∨ coding = 2) :
    ∃ t, exec (.syncHeaderLock p lane coding) s = .next t ∧ t.dev = s.dev ∧ t.mem = s.mem := by
  have heff : syncHeaderLock p lane coding s.dev = s.dev := by
    unfold syncHeaderLock
    dsimp only
    split
    · rfl
    · exact if_neg fun ⟨_, _, hcode, hset⟩ => h.elim (· hset) (by omega)
  exact ⟨_, next_congr heff, rfl, rfl⟩

theorem exec_embLock (s : State) (p : Fin 6) (hlink : s.dev.linkState p = 3) (href : s.dev.tb.refPresent = true) (hok : s.dev.sysrefOk p = true) :
    ∃ t, exec (.embLock p false) s = .next t ∧ t.dev.linkState p = 4
      ∧ t.dev.f (Reg.LINK_STATE p) 0 24 = s.dev.f (Reg.LINK_STATE p) 0 24
      ∧ ∀ j, j ≠ Reg.LINK_STATE p → j ≠ Reg.PORT_STATUS p → t.dev.rd j = s.dev.rd j := by
  have heff : embLock p false s.dev = s.dev.setLink p 4 (s.dev.f (Reg.LINK_STATE p) 0 24) :=
    (if_pos ⟨hlink, href⟩).trans (if_pos hok)
  exact ⟨_, next_congr heff, Dev.linkState_setLink _ _ _ (by decide),
    (Dev.linkLanes_setLink ..).trans (Nat.mod_eq_of_lt (fld_lt _ 0 24)), fun j => Dev.rd_setLink_ne _ _ _⟩

/-- A digitiser that uses the FEC or command channel is a loss of lock, and the link starts anew. -/
theorem exec_embLock_fec (s : State) (p : Fin 6) (hlink : s.dev.linkState p = 3) (href : s.dev.tb.refPresent = true) :
    ∃ t, exec (.embLock p true) s = .next t ∧ t.dev.linkState p = 1 ∧ t.dev.on (Reg.PORT_STATUS p) 7 = true
      ∧ (t.dev.port p).open_ = true := by
  have heff : embLock p true s.dev = s.dev.linkFault p 0x11 0x1F 1 := if_pos ⟨hlink, href⟩
  exact ⟨_, next_congr heff, Dev.linkState_linkFault _ _ _ _ (by decide), Dev.on_linkFault_cause _ p.isLt _ _ rfl,
    congrArg PortSt.open_ (Dev.port_linkFault ..)⟩

/-! ### LINK_UP (R82, R85, R95) -/

/-- The zeros of an outage end, and the tag of the first sample of the new series is known. -/
def Dev.zerosEnded (d : Dev) (p first : Nat) : Dev :=
  let x := d.port p
  let d := if x.live then d.fillPort p (x.ser.nearest x.pos first) else d
  (d.portStreams p).foldl (fun d s => d.freeTail s first) d

/-- The streams of a port follow its new series, and in the complex form their losses end there. -/
def Dev.seriesFollowed (d : Dev) (p first : Nat) (ws : List Word128) : Dev :=
  let d := (d.portStreams p).foldl (fun d s => if (d.stream s).live then d.markStream s 0 else d.beginStream s 0) d
  if portReal ws then d else (d.portStreams p).foldl (fun d s => d.endGap s first) d

/-- The port's own state with its new series. -/
def Dev.seriesSet (d : Dev) (p first a : Nat) (ws : List Word128) : Dev :=
  let x := d.port p
  d.setPort p { x with
    live := true, ser := d.seriesFrom ws first 0, pos := 0, emb := 0, anchorUp := a - d.tb.jump, anchorEdge := d.tb.edges
    bads := if x.live then [(0, 0)] else [], crc := [], eqFresh := [], eqRevert := [], eqPrev := [] }

/-- A port whose link comes UP at an anchor: its series begins. -/
def Dev.begun (d : Dev) (p : Nat) : Dev :=
  let ws := d.portForce p
  let a := d.anchorTime p
  let first := ((ofShort (shortTime a) : Int) - pipeUnits ws).toNat
  (((d.wr64 (Reg.LEMC_ANCHOR_LO p) (Reg.LEMC_ANCHOR_HI p) (shortTime a)).zerosEnded p first).seriesSet p first a ws).seriesFollowed p first ws

/-- What the port tells when its link is UP: LINK_UP, whether the anchor is a SYSREF edge, and that the outage is over. -/
def Dev.upShown (e : Dev) (p : Nat) (sub1 : Bool) (x : PortSt) : Dev :=
  let e := (e.setLink p 5 (e.f (Reg.LINK_STATE p) 0 24)).putB (Reg.PORT_STATUS p) 4 sub1
  e.setPort p { e.port p with open_ := false, faultAt := if x.open_ then max x.faultAt e.now else x.faultAt }

theorem linkUp_of_ready {d : Dev} {p : Nat} (hlink : d.linkState p = 4) (hok : d.sysrefOk p = true) (href : d.tb.refPresent = true)
    (hedge : subclass1 (d.portForce p) = true → d.sysrefEdge p = true) :
    ∃ x, linkUp p d = (((d.begun p).upShown p (subclass1 (d.portForce p)) x).portEvent p 1).eqCal p := by
  have hcond : d.linkState p = 4 ∧ d.sysrefOk p ∧ d.tb.refPresent ∧ (!subclass1 (d.portForce p) || d.sysrefEdge p) := by
    refine ⟨hlink, hok, href, ?_⟩
    cases hs : subclass1 (d.portForce p)
    · rfl
    · simpa using hedge hs
  exact ⟨_, if_pos hcond⟩

theorem Dev.rd_upShown_ne (e : Dev) {p j : Nat} (sub1 : Bool) (x : PortSt) (hl : j ≠ Reg.LINK_STATE p) (hs : j ≠ Reg.PORT_STATUS p) :
    (e.upShown p sub1 x).rd j = e.rd j := (Dev.rd_putB_ne _ _ _ hs).trans (Dev.rd_setLink_ne _ _ _ hl hs)

theorem Dev.linkState_upShown (e : Dev) (p : Nat) (sub1 : Bool) (x : PortSt) : (e.upShown p sub1 x).linkState p = 5 :=
  (Dev.linkState_congr (Dev.rd_putB_ne _ _ _ (linkState_ne_portStatus p p))).trans (Dev.linkState_setLink _ _ _ (by decide))

theorem Dev.on_upShown_up (e : Dev) (p : Nat) (sub1 : Bool) (x : PortSt) : (e.upShown p sub1 x).on (Reg.PORT_STATUS p) 0 = true :=
  (Dev.on_putB_bit_ne _ _ _ (by decide) (by decide) (by decide)).trans (Dev.on_setLink_up ..)

theorem Dev.port_upShown (e : Dev) (p : Nat) (sub1 : Bool) (x : PortSt) :
    ((e.upShown p sub1 x).port p).open_ = false ∧ ((e.upShown p sub1 x).port p).emb = (e.port p).emb := by
  have hport : ((e.setLink p 5 (e.f (Reg.LINK_STATE p) 0 24)).putB (Reg.PORT_STATUS p) 4 sub1).port p = e.port p :=
    ((Dev.Keeps.refl (P := fun _ => False) _).putB id _ _).port p |>.trans (Dev.port_setLink ..)
  rw [Dev.upShown]
  dsimp only
  rw [Dev.port_setPort_self, hport]
  exact ⟨rfl, rfl⟩

theorem Dev.rd_eqCal_ne (d : Dev) {p j : Nat} (h : j ≠ Reg.PORT_STATUS p) : (d.eqCal p).rd j = d.rd j := by
  unfold Dev.eqCal
  split
  · exact Dev.rd_setB_ne d 5 h
  · rfl

/-- With an UP link a calibration runs: the one that starts, or the one that ran. -/
theorem Dev.on_eqCal (d : Dev) {p : Nat} (hup : d.linkState p = 5) (m : Nat) :
    (d.eqCal p).on (Reg.PORT_STATUS p) m = (d.on (Reg.PORT_STATUS p) m || decide (m = 5)) := by
  cases h : d.on (Reg.PORT_STATUS p) 5 with
  | false =>
    rw [Dev.eqCal_of_ready hup h]
    exact (Dev.on_setB d _ _ m 5 (by decide)).trans (by simp)
  | true =>
    rw [Dev.eqCal_of_not_ready fun _ => h, Dev.setPort_on]
    by_cases hm : m = 5 <;> simp [hm, h]

theorem Dev.port_eqCal (d : Dev) (p : Nat) : ((d.eqCal p).port p).open_ = (d.port p).open_ ∧ ((d.eqCal p).port p).emb = (d.port p).emb := by
  unfold Dev.eqCal
  split <;> rw [Dev.port_setPort_self] <;> exact ⟨rfl, rfl⟩

/-- The registers of the anchor, and the sequence number of LINK_UP's event. -/
def anchorKeys (p : Nat) : List Nat := [Reg.LEMC_ANCHOR_LO p, Reg.LEMC_ANCHOR_HI p, Reg.EV_SEQ (1410 + 5 * p + 1)]

theorem notMem_anchorKeys {p : Nat} (hp : p < 6) : (∀ k ∈ satKeys p, k ∉ anchorKeys p) ∧ Reg.GAP_COUNT p ∉ anchorKeys p := by
  simp only [satKeys, anchorKeys, List.mem_cons, List.not_mem_nil, or_false, forall_eq_or_imp, forall_eq, Reg.SAT_COUNT, Reg.PORT_STATUS,
    Reg.EV_SEQ, Reg.GAP_COUNT, Reg.LEMC_ANCHOR_LO, Reg.LEMC_ANCHOR_HI]
  omega

section Begun
variable {P : Nat → Prop} {p : Nat}

theorem Dev.sameOn_zerosEnded (d : Dev) (first : Nat) (hP : ∀ k ∈ satKeys p, ¬ P k) : d.SameOn P (d.zerosEnded p first) := by
  unfold Dev.zerosEnded
  extract_lets x e
  have he : d.SameOn P e := by
    unfold e
    split
    · exact d.sameOn_fillPort _ hP
    · exact .refl d
  exact he.trans ((Dev.Keeps.refl e).foldl fun d s hs => d.keeps_freeTail first (by rwa [Dev.div_of_mem_portStreams hs])).1

theorem Dev.keeps_seriesFollowed (d : Dev) (first : Nat) (ws : List Word128) (hP : ¬ P (Reg.GAP_COUNT p)) : d.Keeps P (d.seriesFollowed p first ws) := by
  unfold Dev.seriesFollowed
  have hmark := (Dev.Keeps.refl (P := P) d).foldl (l := d.portStreams p) fun d s _ => (d.keeps_markStream s 0).ite (c := (d.stream s).live) (d.keeps_beginStream s 0)
  exact hmark.ite (hmark.foldl fun d s hs => d.keeps_endGap first (by rwa [Dev.div_of_mem_portStreams hs]))

theorem Dev.sameOn_seriesSet (d : Dev) (first a : Nat) (ws : List Word128) : d.SameOn P (d.seriesSet p first a ws) := (Dev.SameOn.refl d).of_regs rfl rfl

theorem Dev.port_seriesSet (d : Dev) (p first a : Nat) (ws : List Word128) : ((d.seriesSet p first a ws).port p).emb = 0 := by
  rw [Dev.seriesSet, Dev.port_setPort_self]

theorem Dev.sameOn_begun (d : Dev) (hsat : ∀ k ∈ satKeys p, ¬ P k) (hgap : ¬ P (Reg.GAP_COUNT p)) :
    (d.wr64 (Reg.LEMC_ANCHOR_LO p) (Reg.LEMC_ANCHOR_HI p) (shortTime (d.anchorTime p))).SameOn P (d.begun p) :=
  ((Dev.sameOn_zerosEnded _ _ hsat).trans (Dev.sameOn_seriesSet _ _ _ _)).trans (Dev.keeps_seriesFollowed _ _ _ hgap).1

theorem Dev.port_begun (d : Dev) (p : Nat) : ((d.begun p).port p).emb = 0 := by
  rw [Dev.begun, (Dev.keeps_seriesFollowed (P := fun _ => False) _ _ _ id).port, Dev.port_seriesSet]

end Begun

/-- What coming UP tells at its end: the link state, the event, and the link-up calibration. -/
def Dev.upTold (e : Dev) (p : Nat) (sub1 : Bool) (x : PortSt) : Dev := ((e.upShown p sub1 x).portEvent p 1).eqCal p

section UpTold
variable (e : Dev) {p : Nat} (sub1 : Bool) (x : PortSt)

theorem Dev.linkState_upEvent (hp : p < 6) : ((e.upShown p sub1 x).portEvent p 1).linkState p = 5 := by
  have hev : Reg.LINK_STATE p ≠ Reg.EV_SEQ (1410 + 5 * p + 1) := by unfold Reg.LINK_STATE Reg.EV_SEQ; omega
  rw [Dev.portEvent_eq, Dev.linkState_congr (Dev.rd_event_ne _ _ _ (linkState_ne_portStatus p p) hev), Dev.linkState_upShown]

theorem Dev.linkState_upTold (hp : p < 6) : (e.upTold p sub1 x).linkState p = 5 :=
  (Dev.linkState_congr (Dev.rd_eqCal_ne _ (linkState_ne_portStatus p p))).trans (e.linkState_upEvent sub1 x hp)

theorem Dev.on_upTold_up (hp : p < 6) : (e.upTold p sub1 x).on (Reg.PORT_STATUS p) 0 = true := by
  rw [Dev.upTold, Dev.on_eqCal _ (e.linkState_upEvent sub1 x hp), Dev.portEvent_eq, Dev.on_event _ _ _ (by decide) (portStatus_ne_evSeq hp _),
    Dev.on_upShown_up]
  rfl

theorem Dev.on_upTold_cal (hp : p < 6) : (e.upTold p sub1 x).on (Reg.PORT_STATUS p) 5 = true := by
  rw [Dev.upTold, Dev.on_eqCal _ (e.linkState_upEvent sub1 x hp), decide_eq_true rfl, Bool.or_true]

theorem Dev.port_upTold : ((e.upTold p sub1 x).port p).open_ = false ∧ ((e.upTold p sub1 x).port p).emb = (e.port p).emb := by
  obtain ⟨hopen, hemb⟩ := e.port_upShown p sub1 x
  obtain ⟨hopen', hemb'⟩ := ((e.upShown p sub1 x).portEvent p 1).port_eqCal p
  rw [Dev.port_portEvent] at hopen' hemb'
  exact ⟨hopen'.trans hopen, hemb'.trans hemb⟩

theorem Dev.rd_upTold_ne {j : Nat} (hl : j ≠ Reg.LINK_STATE p) (hs : j ≠ Reg.PORT_STATUS p) (hev : j ≠ Reg.EV_SEQ (1410 + 5 * p + 1)) :
    (e.upTold p sub1 x).rd j = e.rd j := by
  rw [Dev.upTold, Dev.rd_eqCal_ne _ hs, Dev.portEvent_eq, Dev.rd_event_ne _ _ _ hs hev, Dev.rd_upShown_ne _ _ _ hl hs]

theorem Dev.n_upTold_event (hp : p < 6) :
    (e.upTold p sub1 x).n (Reg.EV_SEQ (1410 + 5 * p + 1)) = (e.n (Reg.EV_SEQ (1410 + 5 * p + 1)) + 1) % 2 ^ 32 := by
  have hl : Reg.EV_SEQ (1410 + 5 * p + 1) ≠ Reg.LINK_STATE p := by unfold Reg.LINK_STATE Reg.EV_SEQ; omega
  have hs := (portStatus_ne_evSeq hp (1410 + 5 * p + 1)).symm
  rw [Dev.upTold, Dev.n_congr (Dev.rd_eqCal_ne _ hs), Dev.portEvent_eq, Dev.n_event_self _ hs, Dev.n_congr (Dev.rd_upShown_ne _ _ _ hl hs)]

end UpTold

theorem exec_linkUp (s : State) (p : Fin 6) (hlink : s.dev.linkState p = 4) (hok : s.dev.sysrefOk p = true) (href : s.dev.tb.refPresent = true)
    (hedge : subclass1 (s.dev.portForce p) = true → s.dev.sysrefEdge p = true) :
    ∃ t, exec (.linkUp p) s = .next t ∧ t.dev.linkState p = 5 ∧ t.dev.on (Reg.PORT_STATUS p) 0 = true
      ∧ t.dev.on (Reg.PORT_STATUS p) 5 = true ∧ (t.dev.port p).open_ = false ∧ (t.dev.port p).emb = 0
      ∧ t.dev.n64 (Reg.LEMC_ANCHOR_LO p) (Reg.LEMC_ANCHOR_HI p) = shortTime (s.dev.anchorTime p)
      ∧ t.dev.n (Reg.EV_SEQ (1410 + 5 * p.val + 1)) = (s.dev.n (Reg.EV_SEQ (1410 + 5 * p.val + 1)) + 1) % 2 ^ 32 := by
  obtain ⟨x, heff⟩ := linkUp_of_ready hlink hok href hedge
  have heff' : linkUp p s.dev = (s.dev.begun p).upTold p (subclass1 (s.dev.portForce p)) x := heff
  obtain ⟨hsat, hgap⟩ := notMem_anchorKeys p.isLt
  have hbegun := (s.dev.sameOn_begun (P := (· ∈ anchorKeys p)) hsat hgap).2
  obtain ⟨hopen, hemb⟩ := (s.dev.begun p).port_upTold (p := p) (subclass1 (s.dev.portForce p)) x
  have hne : Reg.LEMC_ANCHOR_LO p ≠ Reg.LEMC_ANCHOR_HI p := by unfold Reg.LEMC_ANCHOR_LO Reg.LEMC_ANCHOR_HI; omega
  refine ⟨_, next_congr heff', Dev.linkState_upTold _ _ _ p.isLt, Dev.on_upTold_up _ _ _ p.isLt, Dev.on_upTold_cal _ _ _ p.isLt, hopen,
    hemb.trans (s.dev.port_begun p), ?_, (Dev.n_upTold_event _ _ _ p.isLt).trans ?_⟩
  · obtain ⟨hlink, hst, hev⟩ : Reg.LEMC_ANCHOR_LO p ≠ Reg.LINK_STATE p ∧ Reg.LEMC_ANCHOR_LO p ≠ Reg.PORT_STATUS p
        ∧ Reg.LEMC_ANCHOR_LO p ≠ Reg.EV_SEQ (1410 + 5 * p + 1) := by
      unfold Reg.LEMC_ANCHOR_LO Reg.LINK_STATE Reg.PORT_STATUS Reg.EV_SEQ; omega
    obtain ⟨hlink', hst', hev'⟩ : Reg.LEMC_ANCHOR_HI p ≠ Reg.LINK_STATE p ∧ Reg.LEMC_ANCHOR_HI p ≠ Reg.PORT_STATUS p
        ∧ Reg.LEMC_ANCHOR_HI p ≠ Reg.EV_SEQ (1410 + 5 * p + 1) := by
      unfold Reg.LEMC_ANCHOR_HI Reg.LINK_STATE Reg.PORT_STATUS Reg.EV_SEQ; omega
    refine (Dev.n64_congr ((Dev.rd_upTold_ne _ _ _ hlink hst hev).trans (hbegun _ (by simp [anchorKeys])))
      ((Dev.rd_upTold_ne _ _ _ hlink' hst' hev').trans (hbegun _ (by simp [anchorKeys])))).trans ?_
    exact Dev.n64_wr64_self _ hne (shortTime_lt _)
  · have hlo : Reg.EV_SEQ (1410 + 5 * p.val + 1) ≠ Reg.LEMC_ANCHOR_LO p := by unfold Reg.LEMC_ANCHOR_LO Reg.EV_SEQ; omega
    have hhi : Reg.EV_SEQ (1410 + 5 * p.val + 1) ≠ Reg.LEMC_ANCHOR_HI p := by unfold Reg.LEMC_ANCHOR_HI Reg.EV_SEQ; omega
    rw [Dev.n_congr ((hbegun _ (by simp [anchorKeys])).trans (Dev.rd_wr64_ne _ _ hlo hhi))]

end Sys2Proof.Machine

namespace Sys2Proof
open Sys2Proof.Machine

/-- Settles O15, command by command. -/
theorem portBringUp : Obligations.PortBringUp := by
  unfold Obligations.PortBringUp
  exact ⟨exec_cdrLock, exec_syncHeaderLock, exec_syncHeaderLock_other, exec_embLock, exec_embLock_fec, exec_linkUp⟩

end Sys2Proof
end

section
/-! SUPPORT. What the capture writer, the lanes and the renderer leave of the ports: setups, registers, and the ports' own state. -/
namespace Sys2Proof.Machine

/-- The registers of the ports. -/
def portKey (j : Nat) : Prop := 0x20000 ≤ j ∧ j < 0x80000

theorem not_portKey {k : Nat} (h : 0x80000 ≤ k) : ¬ portKey k := fun hk => absurd hk.2 (Nat.not_lt.mpr h)

theorem not_portKey_evSeq (n : Nat) : ¬ portKey (Reg.EV_SEQ n) := not_portKey (by unfold Reg.EV_SEQ; omega)

/-! ### Accesses of units to HBM (R439, R441, R543) -/

theorem Dev.keeps_report {P : Nat → Prop} (d : Dev) (code root port : Nat) : d.Keeps P (d.report code root port) :=
  (Dev.Keeps.refl d).of_units rfl rfl rfl rfl

theorem Dev.keeps_answer {P : Nat → Prop} (d : Dev) (r : Resp) : d.Keeps P (d.answer r) := (Dev.Keeps.refl d).of_units rfl rfl rfl rfl

theorem Dev.keeps_deny (d : Dev) (i : Ini) (addr : Nat) (kd : Kind) (reason port : Nat) : d.Keeps portKey (d.deny i addr kd reason port) := by
  unfold Dev.deny
  extract_lets d1 d2 d3 d4 d5
  have h2 : d.Keeps portKey d2 := (d.keeps_report _ _ _).wr (not_portKey (by decide)) _
  have h4 : d.Keeps portKey d4 := (h2.wr64 (not_portKey (by decide)) (not_portKey (by decide)) _).wr (not_portKey (by decide)) _
  have h5 : d.Keeps portKey d5 := h4.trans (d4.keeps_answer _)
  exact h5.sqEvent 3 (not_portKey (by decide)) (not_portKey_evSeq _)

theorem Dev.keeps_denyUnit (d : Dev) (i : Ini) (port a : Nat) (kd : Kind) (reason : Nat) : d.Keeps portKey (d.denyUnit i port a kd reason) :=
  (d.keeps_deny _ _ _ _ _).trans (Dev.keeps_answer _ _)

theorem Dev.keeps_checkMem (d : Dev) (i : Ini) (port a n : Nat) (kd : Kind) : d.Keeps portKey (d.checkMem i port a n kd).1 := by
  unfold Dev.checkMem
  split
  · exact .refl d
  · exact d.keeps_denyUnit _ _ _ _ _

theorem Dev.keeps_meter {P : Nat → Prop} (d : Dev) (p : Nat) (i : Ini) (a n : Nat) : d.Keeps P (d.meter p i a n) := by
  unfold Dev.meter
  dsimp only
  split
  · exact (Dev.Keeps.refl d).of_units rfl rfl rfl rfl
  · exact .refl d

theorem Dev.keeps_moved (d : Dev) (p n : Nat) : d.Keeps portKey (d.moved p n) := by
  have hset : d.Keeps portKey (d.setMport p { d.mport p with part := ((d.mport p).part + n) % 256 }) := (Dev.Keeps.refl d).of_units rfl rfl rfl rfl
  unfold Dev.moved
  dsimp only
  split
  · exact .refl d
  · exact hset.wr (not_portKey (by unfold Reg.PORT_BYTES; omega)) _

theorem Dev.keeps_meetUe (d : Dev) (port u : Nat) : d.Keeps portKey (d.meetUe port u) := by
  have hcount : d.Keeps portKey (d.addSat Reg.MEM_UE 1) := (Dev.Keeps.refl d).wr (not_portKey (by decide)) _
  have hue := hcount.wr64
    (lo := Reg.MEM_UE_ADDR_LO) (hi := Reg.MEM_UE_ADDR_HI) (not_portKey (by decide)) (not_portKey (by decide)) (32 * u)
  exact (hue.sqEvent (st := Reg.MC_STATUS) (n := 1510) 5 (not_portKey (by decide)) (not_portKey_evSeq _)).trans (Dev.keeps_report _ _ _ _)

theorem keeps_memPut (port a : Nat) (l : List Byte) (s : Sys) : s.dev.Keeps portKey (memPut port a l s).1.dev := by
  unfold memPut
  extract_lets n bad d0 mc d1 d2
  have h1 : s.dev.Keeps portKey d1 := (Dev.Keeps.refl s.dev).of_units rfl rfl rfl rfl
  have h2 : s.dev.Keeps portKey d2 := h1.trans (d1.keeps_moved _ _)
  clear_value bad
  cases bad with
  | nil => exact h2
  | cons u bad => exact h2.foldl fun d u _ => d.keeps_meetUe port u

theorem keeps_memWrite (i : Ini) (port a : Nat) (l : List Byte) (s : Sys) : s.dev.Keeps portKey (memWrite i port a l s).1.dev := by
  have hcheck := s.dev.keeps_checkMem i port a l.length .write
  unfold memWrite
  dsimp only
  split
  · exact hcheck
  · exact (hcheck.trans (Dev.keeps_meter _ _ _ _ _)).trans (keeps_memPut _ _ _ _)

/-! ### Capture rings (R453 to R456) -/

/-- The registers that show a ring, and the events of a ring that is shortened or has lost samples. -/
def ringKeys (s : Nat) : List Nat :=
  [Reg.RLEN s, Reg.RLEN_PEND s, Reg.RING_WP s, Reg.SPANS s, Reg.TWP_LO s, Reg.TWP_HI s, Reg.OLDEST_LO s, Reg.OLDEST_HI s, Reg.CAP_LOST s,
    Reg.CAP_STATUS, Reg.EV_SEQ 1513, Reg.EV_SEQ 1514]

theorem not_portKey_ringKeys (s : Nat) : ∀ k ∈ ringKeys s, ¬ portKey k := by
  intro k hk
  refine not_portKey ?_
  simp only [ringKeys, List.mem_cons, List.not_mem_nil, or_false, Reg.RLEN, Reg.RLEN_PEND, Reg.RING_WP, Reg.SPANS, Reg.TWP_LO, Reg.TWP_HI,
    Reg.OLDEST_LO, Reg.OLDEST_HI, Reg.CAP_LOST, Reg.CAP_STATUS, Reg.EV_SEQ] at hk
  omega

/-- The streams, and the records that wait for their regions, are the same as well. -/
def Dev.KeepsFlow (P : Nat → Prop) (d e : Dev) : Prop := d.Keeps P e ∧ e.streams = d.streams ∧ e.out = d.out

section KeepsFlow
variable {P : Nat → Prop} {a d e : Dev}

theorem Dev.KeepsFlow.keeps (h : d.KeepsFlow P e) : d.Keeps P e := h.1

theorem Dev.KeepsFlow.streams (h : d.KeepsFlow P e) : e.streams = d.streams := h.2.1

theorem Dev.KeepsFlow.out (h : d.KeepsFlow P e) : e.out = d.out := h.2.2

theorem Dev.KeepsFlow.refl (d : Dev) : d.KeepsFlow P d := ⟨.refl d, rfl, rfl⟩

theorem Dev.KeepsFlow.trans (had : a.KeepsFlow P d) (hde : d.KeepsFlow P e) : a.KeepsFlow P e :=
  ⟨had.keeps.trans hde.keeps, hde.streams.trans had.streams, hde.out.trans had.out⟩

theorem Dev.KeepsFlow.wr (h : a.KeepsFlow P d) {k : Nat} (hk : ¬ P k) (v : Word) : a.KeepsFlow P (d.wr k v) := ⟨h.keeps.wr hk v, h.streams, h.out⟩

theorem Dev.KeepsFlow.wr64 (h : a.KeepsFlow P d) {lo hi : Nat} (hlo : ¬ P lo) (hhi : ¬ P hi) (v : Nat) : a.KeepsFlow P (d.wr64 lo hi v) :=
  (h.wr hlo _).wr hhi _

theorem Dev.KeepsFlow.putB (h : a.KeepsFlow P d) {k : Nat} (hk : ¬ P k) (i : Nat) (b : Bool) : a.KeepsFlow P (d.putB k i b) := by
  cases b <;> exact h.wr hk _

theorem Dev.KeepsFlow.ite {c : Prop} [Decidable c] (hd : a.KeepsFlow P d) (he : a.KeepsFlow P e) : a.KeepsFlow P (if c then d else e) := by
  split
  · exact hd
  · exact he

theorem Dev.KeepsFlow.sqEvent (h : a.KeepsFlow P d) {st n : Nat} (b : Nat) (hst : ¬ P st) (hev : ¬ P (Reg.EV_SEQ n)) :
    a.KeepsFlow P (d.sqEvent st b n) := h.ite ⟨(h.keeps.wr hst _).event hst hev, h.streams, h.out⟩

theorem Dev.KeepsFlow.foldl {α : Type} {f : Dev → α → Dev} {l : List α} (h : a.KeepsFlow P d) (hf : ∀ (d : Dev), ∀ x ∈ l, d.KeepsFlow P (f d x)) :
    a.KeepsFlow P (l.foldl f d) := by
  induction l generalizing d with
  | nil => exact h
  | cons x l ih => exact ih (h.trans (hf d x List.mem_cons_self)) fun d y hy => hf d y (List.mem_cons_of_mem _ hy)

end KeepsFlow

section Rings
variable {P : Nat → Prop} {s : Nat}

theorem Dev.flows_setRing (d : Dev) (s : Nat) (x : RingSt) : d.KeepsFlow P (d.setRing s x) := ⟨(Dev.Keeps.refl d).of_units rfl rfl rfl rfl, rfl, rfl⟩

theorem Dev.flows_showRing (d : Dev) (hP : ∀ k ∈ ringKeys s, ¬ P k) : d.KeepsFlow P (d.showRing s) := by
  unfold Dev.showRing
  extract_lets x d1 d2 d3
  have h1 : d.KeepsFlow P d1 := (Dev.KeepsFlow.refl d).wr (hP _ (by simp [ringKeys])) _
  have h2 : d.KeepsFlow P d2 := (h1.wr (hP _ (by simp [ringKeys])) _).wr (hP _ (by simp [ringKeys])) _
  have h3 : d.KeepsFlow P d3 := h2.ite ((h2.wr64 (hP _ (by simp [ringKeys])) (hP _ (by simp [ringKeys])) _).wr64 (hP _ (by simp [ringKeys]))
    (hP _ (by simp [ringKeys])) _)
  exact h3.putB (hP _ (by simp [ringKeys])) _ _

theorem Dev.flows_shorten (d : Dev) (l : Nat) (hP : ∀ k ∈ ringKeys s, ¬ P k) : d.KeepsFlow P (d.shorten s l) := by
  unfold Dev.shorten
  extract_lets x runs y
  have h := ((d.flows_setRing s y).wr (k := Reg.RLEN s) (hP _ (by simp [ringKeys])) (BitVec.ofNat 32 l)).sqEvent (st := Reg.CAP_STATUS) (n := 1514) 2
    (hP _ (by simp [ringKeys])) (hP _ (by simp [ringKeys]))
  exact h.trans (Dev.flows_showRing _ hP)

theorem Dev.flows_ringTurn (d : Dev) (hP : ∀ k ∈ ringKeys s, ¬ P k) : d.KeepsFlow P (d.ringTurn s) := by
  unfold Dev.ringTurn
  extract_lets x e
  have he : d.KeepsFlow P e := (d.flows_setRing _ _).ite (.refl d)
  cases e.shortenDue s with
  | some l => exact he.trans (e.flows_shorten l hP)
  | none => exact he

theorem flows_ringLose (cause : Nat) (hP : ∀ k ∈ ringKeys s, ¬ P k) (fuel n : Nat) (d : Dev) : d.KeepsFlow P (ringLose s cause fuel n d) := by
  induction fuel generalizing n d with
  | zero => exact .refl d
  | succ fuel ih =>
    unfold ringLose
    have hturn := d.flows_ringTurn (P := P) hP
    refine (Dev.KeepsFlow.refl d).ite ?_
    exact hturn.ite ((hturn.trans (Dev.flows_setRing _ _ _)).trans (ih _ _))

theorem Dev.flows_ringLost (d : Dev) (cause n : Nat) (hP : ∀ k ∈ ringKeys s, ¬ P k) : d.KeepsFlow P (d.ringLost s cause n) := by
  unfold Dev.ringLost
  extract_lets turn skip x e
  have he : d.KeepsFlow P e := (Dev.KeepsFlow.refl d).ite (d.flows_setRing _ _)
  exact (Dev.KeepsFlow.refl d).ite (he.trans (flows_ringLose cause hP _ _ _))

theorem Dev.flows_ringCatch (d : Dev) (first cause : Nat) (hP : ∀ k ∈ ringKeys s, ¬ P k) : d.KeepsFlow P (d.ringCatch s first cause) := by
  unfold Dev.ringCatch
  split
  · exact d.flows_setRing _ _
  · exact d.flows_ringLost _ _ hP

/-- The rings of a port go on with its zeros. -/
theorem Dev.flows_ringsFill (d : Dev) {p : Nat} (hP : ∀ s, s / 8 = p → ∀ k ∈ ringKeys s, ¬ P k) : d.KeepsFlow P (d.ringsFill p) := by
  unfold Dev.ringsFill
  split
  · exact .refl d
  · refine (Dev.KeepsFlow.refl d).foldl fun d s hs => ?_
    have hkeys := hP s (Dev.div_of_mem_portStreams hs)
    exact (Dev.KeepsFlow.refl d).ite ((d.flows_ringCatch _ _ hkeys).trans (Dev.flows_showRing _ hkeys))

theorem Dev.keeps_setRing (d : Dev) (s : Nat) (x : RingSt) : d.Keeps P (d.setRing s x) := (d.flows_setRing s x).keeps

theorem Dev.keeps_showRing (d : Dev) (hP : ∀ k ∈ ringKeys s, ¬ P k) : d.Keeps P (d.showRing s) := (d.flows_showRing hP).keeps

theorem Dev.keeps_ringTurn (d : Dev) (hP : ∀ k ∈ ringKeys s, ¬ P k) : d.Keeps P (d.ringTurn s) := (d.flows_ringTurn hP).keeps

theorem Dev.keeps_ringLost (d : Dev) (cause n : Nat) (hP : ∀ k ∈ ringKeys s, ¬ P k) : d.Keeps P (d.ringLost s cause n) :=
  (d.flows_ringLost cause n hP).keeps

theorem Dev.keeps_ringCatch (d : Dev) (first cause : Nat) (hP : ∀ k ∈ ringKeys s, ¬ P k) : d.Keeps P (d.ringCatch s first cause) :=
  (d.flows_ringCatch first cause hP).keeps

end Rings

theorem Dev.keeps_ringRestart (d : Dev) (s : Nat) : d.Keeps portKey (d.ringRestart s) :=
  (d.keeps_setRing _ _).trans (Dev.keeps_showRing _ (not_portKey_ringKeys s))

theorem Dev.keeps_capLost (d : Dev) (s n : Nat) : d.Keeps portKey (d.capLost s n) := by
  have hP := not_portKey_ringKeys s
  unfold Dev.capLost
  exact (Dev.Keeps.refl d).ite (((Dev.Keeps.refl d).wr (hP _ (by simp [ringKeys])) _).sqEvent 1 (hP _ (by simp [ringKeys])) (hP _ (by simp [ringKeys])))

/-- The writer moves on, and what was lost is counted. -/
theorem Dev.keeps_written (d : Dev) (s n : Nat) (x : RingSt) : d.Keeps portKey ((d.setRing s x).capLost s n) :=
  (d.keeps_setRing s x).trans (Dev.keeps_capLost _ _ _)

theorem keeps_ringStore (s fuel : Nat) (l : List (Int × Int)) (y : Sys) : y.dev.Keeps portKey (ringStore s fuel l y).dev := by
  induction fuel generalizing l y with
  | zero => exact .refl _
  | succ fuel ih =>
    unfold ringStore
    extract_lets d m piece n a p q z
    have hturn : y.dev.Keeps portKey d := y.dev.keeps_ringTurn (not_portKey_ringKeys s)
    clear_value d
    have hq : y.dev.Keeps portKey q.1.dev := hturn.trans (keeps_memWrite _ _ _ _ { y with dev := d })
    have hz : y.dev.Keeps portKey z.dev := by
      clear_value q
      unfold z
      split <;> exact hq.trans (Dev.keeps_written _ _ _ _)
    split
    · exact .refl _
    · split
      · exact hturn
      · exact hz.trans (ih _ _)

/-- Folded steps on the device and HBM that each keep the ports keep them. -/
theorem Dev.Keeps.sysFoldl {P : Nat → Prop} {α : Type} {d : Dev} {f : Sys → α → Sys} {y : Sys} {l : List α} (h : d.Keeps P y.dev)
    (hf : ∀ (y : Sys) (x : α), y.dev.Keeps P (f y x).dev) : d.Keeps P (l.foldl f y).dev := by
  induction l generalizing y with
  | nil => exact h
  | cons x l ih => exact ih (h.trans (hf y x))

theorem keeps_capture (cause : Nat) (t : CapTake) (y : Sys) : y.dev.Keeps portKey (capture cause t y).dev := by
  have hring := not_portKey_ringKeys t.1
  unfold capture
  extract_lets s d l first smp y1 y2
  have h1 : y.dev.Keeps portKey y1.dev := y.dev.keeps_ringCatch _ _ hring
  have h2 : y.dev.Keeps portKey y2.dev := h1.sysFoldl fun y r => by
    split
    · exact keeps_ringStore _ _ _ _
    · exact y.dev.keeps_ringLost _ _ hring
  split
  · exact .refl _
  · exact (h2.trans (Dev.keeps_setRing _ _ _)).trans (Dev.keeps_showRing _ hring)

theorem captureAll_cons (cause : Nat) (t : CapTake) (l : List CapTake) (y : Sys) : captureAll cause (t :: l) y = captureAll cause l (capture cause t y) := rfl

theorem keeps_captureAll (cause : Nat) (l : List CapTake) (y : Sys) : y.dev.Keeps portKey (captureAll cause l y).dev := by
  induction l generalizing y with
  | nil => exact .refl y.dev
  | cons t l ih =>
    rw [captureAll_cons]
    exact (keeps_capture cause t y).trans (ih _)

/-! ### GAP records and runs of the lanes (R126 to R128) -/

section Lanes
variable {P : Nat → Prop}

theorem Dev.keeps_setLane (d : Dev) (l : Nat) (x : LaneSt) : d.Keeps P (d.setLane l x) := (Dev.Keeps.refl d).of_units rfl rfl rfl rfl

theorem Dev.keeps_laneGap (d : Dev) (l cause ckind count t0 t1 : Nat) (cont : Bool) : d.Keeps P (d.laneGap l cause ckind count t0 t1 cont) :=
  d.keeps_emit _ _ _

theorem Dev.keeps_laneGapSplit (d : Dev) (l cause fuel t0 t1 : Nat) : d.Keeps P (d.laneGapSplit l cause fuel t0 t1) := by
  induction fuel generalizing d t0 with
  | zero => exact d.keeps_laneGap _ _ _ _ _ _ _
  | succ fuel ih =>
    unfold Dev.laneGapSplit
    exact ((d.keeps_laneGap _ _ _ _ _ _ _).trans (ih _ _)).ite (d.keeps_laneGap _ _ _ _ _ _ _)

theorem Dev.keeps_endFill (d : Dev) (l t1 : Nat) : d.Keeps P (d.endFill l t1) := by
  unfold Dev.endFill
  split
  · exact ((d.keeps_setLane _ _).trans (Dev.keeps_laneGapSplit _ _ _ _ _ _)).ite (d.keeps_setLane _ _)
  · exact .refl d

theorem Dev.keeps_endOverrun (d : Dev) (l t1 : Nat) : d.Keeps P (d.endOverrun l t1) := by
  unfold Dev.endOverrun
  split
  · exact (d.keeps_setLane _ _).trans (Dev.keeps_laneGap _ _ _ _ _ _ _ _)
  · exact .refl d

theorem Dev.keeps_endOos (d : Dev) (l t1 : Nat) : d.Keeps P (d.endOos l t1) := by
  unfold Dev.endOos
  split
  · exact ((d.keeps_setLane _ _).trans (Dev.keeps_laneGap _ _ _ _ _ _ _ _)).ite (d.keeps_setLane _ _)
  · exact .refl d

theorem Dev.keeps_endRuns (d : Dev) (l t1 : Nat) : d.Keeps P (d.endRuns l t1) :=
  ((d.keeps_endFill _ _).trans (Dev.keeps_endOverrun _ _ _)).trans (Dev.keeps_endOos _ _ _)

theorem Dev.keeps_skipFrames (d : Dev) (l n : Nat) : d.Keeps P (d.skipFrames l n) := d.keeps_setLane _ _

end Lanes

theorem Dev.keeps_grpEvent (d : Dev) (g b e : Nat) : d.Keeps portKey (d.grpEvent g b e) :=
  (Dev.Keeps.refl d).sqEvent b (not_portKey (by unfold Reg.GRP_STATUS; omega)) (not_portKey_evSeq _)

theorem Dev.keeps_laneOverflow (d : Dev) (l : Nat) : d.Keeps portKey (d.laneOverflow l) := by
  unfold Dev.laneOverflow
  extract_lets gov held start t0 d1 n d2 d3
  have h2 : d.Keeps portKey d2 := (d.keeps_endFill l t0).wr (not_portKey (by unfold Reg.OVERRUN_FRAMES; omega)) _
  have h3 : d.Keeps portKey d3 := h2.trans (d2.keeps_skipFrames _ _)
  exact Dev.Keeps.ite ((h3.trans (Dev.keeps_setLane _ _ _)).trans (Dev.keeps_grpEvent _ _ _ _)) (.refl d)

theorem Dev.keeps_onFl {P : Nat → Prop} (d : Dev) (f : FloorSt → FloorSt) : d.Keeps P (d.onFl f) := (Dev.Keeps.refl d).of_units rfl rfl rfl rfl

theorem Dev.keeps_noteOverrun {P : Nat → Prop} (d : Dev) : d.Keeps P d.noteOverrun := (d.keeps_onFl _).ite (.refl d)

theorem Dev.keeps_lanesOverflow (d : Dev) : d.Keeps portKey d.lanesOverflow := by
  have h : d.Keeps portKey ((List.range 48).foldl (fun d l => d.laneOverflow l) d) := (Dev.Keeps.refl d).foldl fun d l _ => d.keeps_laneOverflow l
  exact h.trans (Dev.keeps_noteOverrun _)

/-! ### Grids, service and stages after a switch (R108, R133, R149) -/

theorem Dev.keeps_startGrid {P : Nat → Prop} (d : Dev) (gov b0 : Nat) (on : Bool) : d.Keeps P (d.startGrid gov b0 on) :=
  ((Dev.Keeps.refl d).foldl fun d l _ => d.keeps_setLane l _).trans (Dev.keeps_setLane _ _ _)

theorem Dev.keeps_showWindow (d : Dev) (l : Nat) (ws : List Word128) : d.Keeps portKey (d.showWindow l ws) :=
  ((Dev.Keeps.refl d).wr64 (not_portKey (by unfold Reg.WIN_S1_LO; omega)) (not_portKey (by unfold Reg.WIN_S1_HI; omega)) _).wr64
    (not_portKey (by unfold Reg.WIN_S2_LO; omega)) (not_portKey (by unfold Reg.WIN_S2_HI; omega)) _

theorem not_portKey_laneInfo (g i : Nat) : ¬ portKey (Reg.LANE_INFO g i) := not_portKey (by unfold Reg.LANE_INFO; omega)

theorem not_portKey_grpStatus (g : Nat) : ¬ portKey (Reg.GRP_STATUS g) := not_portKey (by unfold Reg.GRP_STATUS; omega)

theorem not_portKey_grpMap (g : Nat) : ¬ portKey (Reg.GRP_MAP_LO g) ∧ ¬ portKey (Reg.GRP_MAP_HI g) :=
  ⟨not_portKey (by unfold Reg.GRP_MAP_LO; omega), not_portKey (by unfold Reg.GRP_MAP_HI; omega)⟩

theorem Dev.keeps_showLane (d : Dev) (l : Nat) : d.Keeps portKey (d.showLane l) := (Dev.Keeps.refl d).wr (not_portKey_laneInfo _ _) _

theorem Dev.keeps_bindLane (d : Dev) (l q : Nat) : d.Keeps portKey (d.bindLane l q) := by
  obtain ⟨hlo, hhi⟩ := not_portKey_grpMap (l / 12)
  exact (((Dev.Keeps.refl d).wr hlo _).ite ((Dev.Keeps.refl d).wr hhi _)).wr (not_portKey_laneInfo _ _) _

theorem Dev.keeps_setSpare (d : Dev) (g q : Nat) : d.Keeps portKey (d.setSpare g q) := by
  have hst := not_portKey_grpStatus g
  have hdet : ¬ portKey (Reg.DET_STATUS g) := not_portKey (by unfold Reg.DET_STATUS; omega)
  have hstop (e : Dev) : e.Keeps portKey (e.rotStopped g) := by
    unfold Dev.rotStopped
    extract_lets off e1
    have h1 : e.Keeps portKey e1 := (Dev.Keeps.refl e).putB hst _ _
    exact ((h1.wr hdet _).wr hdet _).ite h1
  exact (((Dev.Keeps.refl d).wr (not_portKey_grpMap g).2 _).putB hst _ _).trans (hstop _)

theorem Dev.keeps_claimPhys {d e : Dev} {g q : Nat} (h : d.claimPhys g = some (q, e)) : d.Keeps portKey e := by
  unfold Dev.claimPhys at h
  dsimp only at h
  split at h
  · cases h
    exact d.keeps_setSpare _ _
  · split at h
    · cases h
      exact (d.keeps_bindLane _ _).trans (Dev.keeps_showLane _ _)
    · cases h

theorem Dev.keeps_bindServed (d : Dev) (l q : Nat) : d.Keeps portKey (d.bindServed l q) := by
  unfold Dev.bindServed
  extract_lets d1 e
  have he : d.Keeps portKey e := ((d.keeps_skipFrames _ _).trans (Dev.keeps_endOos d1 _ _)).ite (.refl d)
  exact (he.trans (Dev.keeps_bindLane _ _ _)).trans (Dev.keeps_showLane _ _)

theorem Dev.keeps_outOfService (d : Dev) (l t : Nat) : d.Keeps portKey (d.outOfService l t) :=
  (((d.keeps_bindLane _ _).trans (Dev.keeps_setLane _ _ _)).trans (Dev.keeps_showLane _ _)).trans (Dev.keeps_grpEvent _ _ _ _)

theorem Dev.keeps_serve (d : Dev) (g t num : Nat) : d.Keeps portKey (d.serve g t num) := by
  refine (Dev.Keeps.refl d).foldl fun d l _ => ?_
  split
  · split
    next q e he => exact (Dev.keeps_claimPhys he).trans (e.keeps_bindServed _ _)
    next =>
      split
      · exact .refl d
      · split
        · exact (((d.keeps_endFill _ _).trans (Dev.keeps_endOverrun _ _ _)).trans (Dev.keeps_outOfService _ _ _)).trans (Dev.keeps_bindServed _ _ _)
        · exact d.keeps_outOfService _ _
  · exact .refl d

theorem Dev.keeps_markBrought {P : Nat → Prop} (d : Dev) (was ls : List Nat) (num : Nat) : d.Keeps P (d.markBrought was ls num) :=
  (Dev.Keeps.refl d).foldl fun d _ _ => (d.keeps_setLane _ _).ite (.refl d)

theorem Dev.keeps_portRegrid (d : Dev) (p num : Nat) (was : List Nat) (bs : List (Nat × Nat)) (sw : Switch) : d.Keeps portKey (d.portRegrid p num was bs sw) := by
  unfold Dev.portRegrid
  extract_lets d1 ls d2 d3
  have h1 : d.Keeps portKey d1 := (Dev.Keeps.refl d).foldl fun d k _ => by
    extract_lets s tsw b e
    have he : d.Keeps portKey e := (d.keeps_startGrid _ _ _).ite (.refl d)
    exact (he.trans (e.keeps_setLane _ _)).ite ((d.keeps_setLane _ _).ite (.refl d))
  have h2 : d.Keeps portKey d2 := h1.foldl fun d l _ => by
    extract_lets e
    have he : d.Keeps portKey e := (Dev.Keeps.refl d).ite (d.keeps_endRuns _ _)
    exact (he.trans (Dev.keeps_showWindow _ _ _)).trans (Dev.keeps_showLane _ _)
  exact ((h2.trans (Dev.keeps_markBrought _ _ _ _)).trans (Dev.keeps_serve _ _ _ _)).trans (Dev.keeps_serve _ _ _ _)

section Stages
variable {P : Nat → Prop} (d : Dev) (l : Nat)

theorem Dev.keeps_setDet (x : DetSt) : d.Keeps P (d.setDet l x) := (Dev.Keeps.refl d).of_units rfl rfl rfl rfl

theorem Dev.keeps_setDen (x : DensSt) : d.Keeps P (d.setDen l x) := (Dev.Keeps.refl d).of_units rfl rfl rfl rfl

theorem Dev.keeps_setMask (x : MaskSt) : d.Keeps P (d.setMask l x) := (Dev.Keeps.refl d).of_units rfl rfl rfl rfl

theorem Dev.keeps_setHist (x : Nat × List (List Nat)) : d.Keeps P (d.setHist l x) := (Dev.Keeps.refl d).of_units rfl rfl rfl rfl

theorem Dev.keeps_setGrid (x : Tab Nat) : d.Keeps P (d.setGrid l x) := (Dev.Keeps.refl d).of_units rfl rfl rfl rfl

end Stages

theorem Dev.keeps_detRestart (d : Dev) (gov : Nat) (grid : Bool) : d.Keeps portKey (d.detRestart gov grid) := by
  have hclear : d.Keeps portKey ((d.members gov).foldl (fun d l => d.setHist l (0, [])) d) := (Dev.Keeps.refl d).foldl fun d l _ => d.keeps_setHist l _
  exact (hclear.trans (Dev.keeps_setDet _ gov { run := if grid then some 0 else none })).wr (not_portKey (by unfold Reg.DET_PROG; omega)) _

theorem Dev.keeps_densRestart {P : Nat → Prop} (d : Dev) (gov : Nat) (grid : Bool) : d.Keeps P (d.densRestart gov grid) := by
  have hclear : d.Keeps P ((d.members gov).foldl (fun d l => d.setGrid l []) d) := (Dev.Keeps.refl d).foldl fun d l _ => d.keeps_setGrid l _
  exact hclear.trans (Dev.keeps_setDen _ _ _)

theorem Dev.keeps_restartStages (d : Dev) (gov : Nat) : d.Keeps portKey (d.restartStages gov) :=
  ((d.keeps_detRestart _ _).trans (Dev.keeps_densRestart _ _ _)).trans (Dev.keeps_setMask _ _ _)

theorem Dev.keeps_shedStart {P : Nat → Prop} (d : Dev) (s t : Nat) : d.Keeps P (d.shedStart s t) := (d.keeps_setStream _ _).ite (.refl d)

theorem Dev.keeps_beginRender {P : Nat → Prop} (d : Dev) : d.Keeps P d.beginRender := (Dev.Keeps.refl d).of_units rfl rfl rfl rfl

theorem Dev.keeps_renderCheck (d : Dev) : d.Keeps portKey d.renderCheck := by
  unfold Dev.renderCheck
  split
  · exact .refl d
  · have hcount : d.Keeps portKey (d.addSat Reg.RENDER_LATES 1) := (Dev.Keeps.refl d).wr (not_portKey (by decide)) _
    have hlate := hcount.sqEvent (st := Reg.DISP_STATUS) (n := 1393) 12 (not_portKey (by decide)) (not_portKey_evSeq _)
    exact (hlate.trans (Dev.keeps_beginRender _)).ite (.refl d)

end Sys2Proof.Machine
end

section
/-! SUPPORT. Faults of a lane and the restart of a link; and the release of an extended multiblock, with its CRC faults. -/
namespace Sys2Proof.Machine

/-! ### Faults of a lane, and the restart (R71, R93, R99) -/

theorem laneLinkFault_of_lane {p phys i : Nat} {d : Dev} (cause : Nat) (hup : d.linkState p ≠ 0) (hlane : logicalOf (d.portForce p) phys = some i) :
    laneLinkFault p cause phys d = d.linkFault p cause i 1 := by
  rw [laneLinkFault, hlane]
  exact if_neg hup

theorem laneLinkFault_of_none {p phys : Nat} {d : Dev} (cause : Nat) (hlane : logicalOf (d.portForce p) phys = none) :
    laneLinkFault p cause phys d = d := by
  rw [laneLinkFault, hlane]

/-- The link of port p starts anew at CDR, its outage is open, and the cause of the fault is told. -/
theorem Dev.linkFault_restarts (d : Dev) {p : Nat} (hp : p < 6) (cause lane : Nat) :
    (d.linkFault p cause lane 1).linkState p = 1 ∧ (d.linkFault p cause lane 1).on (Reg.PORT_STATUS p) 0 = false
      ∧ ((d.linkFault p cause lane 1).port p).open_ = true
      ∧ (d.linkFault p cause lane 1).rd (Reg.FAULT_CAUSE p)
          = (if d.rd (Reg.FAULT_CAUSE p) = 0 then BitVec.ofNat 32 (cause * 256 + lane) else d.rd (Reg.FAULT_CAUSE p)) :=
  ⟨d.linkState_linkFault p cause lane (by decide), d.on_linkFault_up p cause lane (by decide), congrArg PortSt.open_ (d.port_linkFault ..),
    d.rd_linkFault_cause hp cause lane 1⟩

/-- A fault on a lane that the setup names. -/
theorem laneLinkFault_restarts {d : Dev} {p phys i b : Nat} (hp : p < 6) {cause : Nat} (hb : faultBit cause = some b) (hup : d.linkState p ≠ 0)
    (hlane : logicalOf (d.portForce p) phys = some i) :
    (laneLinkFault p cause phys d).linkState p = 1 ∧ (laneLinkFault p cause phys d).on (Reg.PORT_STATUS p) 0 = false
      ∧ (laneLinkFault p cause phys d).on (Reg.PORT_STATUS p) b = true ∧ ((laneLinkFault p cause phys d).port p).open_ = true
      ∧ (laneLinkFault p cause phys d).rd (Reg.FAULT_CAUSE p)
          = (if d.rd (Reg.FAULT_CAUSE p) = 0 then BitVec.ofNat 32 (cause * 256 + i) else d.rd (Reg.FAULT_CAUSE p)) := by
  rw [laneLinkFault_of_lane cause hup hlane]
  obtain ⟨hlink, hdown, hopen, hcause⟩ := d.linkFault_restarts hp cause i
  exact ⟨hlink, hdown, d.on_linkFault_cause hp i 1 hb, hopen, hcause⟩

theorem exec_shLockLost (s : State) (p : Fin 6) (lane : Fin 24) (i : Nat) (hup : s.dev.linkState p ≠ 0)
    (hlane : logicalOf (s.dev.portForce p) lane = some i) :
    ∃ t, exec (.shLockLost p lane) s = .next t ∧ t.dev.linkState p = 1 ∧ t.dev.on (Reg.PORT_STATUS p) 0 = false
      ∧ t.dev.on (Reg.PORT_STATUS p) 7 = true ∧ (t.dev.port p).open_ = true
      ∧ t.dev.rd (Reg.FAULT_CAUSE p) = (if s.dev.rd (Reg.FAULT_CAUSE p) = 0 then BitVec.ofNat 32 (0x1000 + i) else s.dev.rd (Reg.FAULT_CAUSE p)) :=
  ⟨{ s with dev := laneLinkFault p 0x10 lane s.dev }, rfl, laneLinkFault_restarts p.isLt rfl hup hlane⟩

theorem exec_embLockLost (s : State) (p : Fin 6) (lane : Fin 24) (i : Nat) (hup : s.dev.linkState p ≠ 0)
    (hlane : logicalOf (s.dev.portForce p) lane = some i) :
    ∃ t, exec (.embLockLost p lane) s = .next t ∧ t.dev.linkState p = 1 ∧ t.dev.on (Reg.PORT_STATUS p) 0 = false
      ∧ t.dev.on (Reg.PORT_STATUS p) 7 = true ∧ (t.dev.port p).open_ = true
      ∧ t.dev.rd (Reg.FAULT_CAUSE p) = (if s.dev.rd (Reg.FAULT_CAUSE p) = 0 then BitVec.ofNat 32 (0x1100 + i) else s.dev.rd (Reg.FAULT_CAUSE p)) :=
  ⟨{ s with dev := laneLinkFault p 0x11 lane s.dev }, rfl, laneLinkFault_restarts p.isLt rfl hup hlane⟩

theorem exec_alignShift (s : State) (p : Fin 6) (lane : Fin 24) (i : Nat) (hup : s.dev.linkState p ≠ 0)
    (hlane : logicalOf (s.dev.portForce p) lane = some i) :
    ∃ t, exec (.alignShift p lane) s = .next t ∧ t.dev.linkState p = 1 ∧ t.dev.on (Reg.PORT_STATUS p) 0 = false
      ∧ t.dev.on (Reg.PORT_STATUS p) 10 = true ∧ (t.dev.port p).open_ = true
      ∧ t.dev.rd (Reg.FAULT_CAUSE p) = (if s.dev.rd (Reg.FAULT_CAUSE p) = 0 then BitVec.ofNat 32 (0x1400 + i) else s.dev.rd (Reg.FAULT_CAUSE p)) :=
  ⟨{ s with dev := laneLinkFault p 0x14 lane s.dev }, rfl, laneLinkFault_restarts p.isLt rfl hup hlane⟩

/-- A physical lane that no logical lane names does nothing. -/
theorem exec_laneFault_unnamed (s : State) (p : Fin 6) (lane : Fin 24) (hlane : logicalOf (s.dev.portForce p) lane = none) :
    (∃ t, exec (.shLockLost p lane) s = .next t ∧ t.dev = s.dev) ∧ (∃ t, exec (.embLockLost p lane) s = .next t ∧ t.dev = s.dev)
      ∧ ∃ t, exec (.alignShift p lane) s = .next t ∧ t.dev = s.dev :=
  ⟨⟨_, next_congr (laneLinkFault_of_none 0x10 hlane), rfl⟩, ⟨_, next_congr (laneLinkFault_of_none 0x11 hlane), rfl⟩,
    ⟨_, next_congr (laneLinkFault_of_none 0x14 hlane), rfl⟩⟩

theorem exec_linkRestartCmd (s : State) (i : Ini) (p : Fin 6) (h : s.takes i (Reg.PORT_CMD p) = true) (hup : s.dev.linkState p ≠ 0) :
    ∃ t, exec (.linkRestartCmd i p) s = .next t ∧ t.dev.linkState p = 1 ∧ t.dev.on (Reg.PORT_STATUS p) 0 = false
      ∧ (t.dev.port p).open_ = true
      ∧ t.dev.rd (Reg.FAULT_CAUSE p) = (if s.dev.rd (Reg.FAULT_CAUSE p) = 0 then 0x191F else s.dev.rd (Reg.FAULT_CAUSE p)) := by
  have hrun : linkRestart p (s.dev.reached i 0) = (s.dev.reached i 0).linkFault p 0x19 0x1F 1 := if_neg hup
  exact ⟨_, next_congr ((onPosted_of_takes s i _ (linkRestart p) h).trans hrun), (s.dev.reached i 0).linkFault_restarts p.isLt 0x19 0x1F⟩

/-! ### Samples reach the streams of a port (R86, R87, R90, R95) -/

/-- The registers in which a port counts what its streams take. -/
def fedKeys (p : Nat) : List Nat := Reg.GAP_COUNT p :: satKeys p

/-- What the streams of port p take changes no register but its counts and the saturation bit of its status. -/
def Dev.Fed (p : Nat) (d e : Dev) : Prop :=
  d.Keeps (· ∉ fedKeys p) e ∧ ∀ m, m < 16 → m ≠ 11 → e.on (Reg.PORT_STATUS p) m = d.on (Reg.PORT_STATUS p) m

section Fed
variable {p : Nat} {a d e : Dev}

theorem Dev.Fed.trans (had : a.Fed p d) (hde : d.Fed p e) : a.Fed p e :=
  ⟨had.1.trans hde.1, fun m hm h11 => (hde.2 m hm h11).trans (had.2 m hm h11)⟩

theorem portStatus_ne_gapCount (p q : Nat) : Reg.PORT_STATUS p ≠ Reg.GAP_COUNT q := by unfold Reg.PORT_STATUS Reg.GAP_COUNT; omega

/-- What changes no register but GAP_COUNT. -/
theorem Dev.Keeps.fed (h : d.Keeps (· ≠ Reg.GAP_COUNT p) e) : d.Fed p e := by
  refine ⟨h.mono fun j hj heq => hj ?_, fun m _ _ => Dev.on_congr m (h.rd (portStatus_ne_gapCount p p))⟩
  rw [heq]
  exact List.mem_cons_self

theorem Dev.Fed.refl (d : Dev) : d.Fed p d := (Dev.Keeps.refl d).fed

theorem Dev.fed_setStream (d : Dev) (p s : Nat) (x : StreamSt) : d.Fed p (d.setStream s x) := (d.keeps_setStream s x).fed

theorem Dev.fed_noteSat (d : Dev) {p : Nat} (hp : p < 6) (l : List Smp) : d.Fed p (d.noteSat p l) := by
  refine ⟨d.keeps_noteSat l fun k hk hn => hn (List.mem_cons_of_mem _ hk), fun m hm h11 => ?_⟩
  have hcount (v : Nat) : (d.addSat (Reg.SAT_COUNT p) v).on (Reg.PORT_STATUS p) m = d.on (Reg.PORT_STATUS p) m :=
    Dev.on_congr m (Dev.rd_addSat_ne d v (by unfold Reg.PORT_STATUS Reg.SAT_COUNT; omega))
  unfold Dev.noteSat
  dsimp only
  split
  · rfl
  · rw [Dev.on_sqEvent _ _ _ _ (by decide) hm (portStatus_ne_evSeq hp _), hcount, decide_eq_false h11, Bool.or_false]

/-- A run of samples begins or ends a loss of its stream. -/
theorem Dev.fed_streamRun (d : Dev) {s : Nat} (hs : s / 8 = p) (r : Bool × Nat × Nat) : d.Fed p (d.streamRun p s r) := by
  unfold Dev.streamRun
  dsimp only
  split
  · split
    · exact .refl d
    · exact d.fed_setStream _ _ _
  · exact (d.keeps_endGap _ (by rw [hs]; exact fun h => h rfl)).fed

/-- Folded steps on the device, beside what they collect, that each feed the streams. -/
theorem Dev.Fed.foldl_fst {α β : Type} {f : Dev × β → α → Dev × β} {l : List α} {b : Dev × β} (h : a.Fed p b.1)
    (hf : ∀ b, ∀ x ∈ l, Dev.Fed p b.1 (f b x).1) : a.Fed p (l.foldl f b).1 := by
  induction l generalizing b with
  | nil => exact h
  | cons x l ih => exact ih (h.trans (hf b x List.mem_cons_self)) fun b y hy => hf b y (List.mem_cons_of_mem _ hy)

theorem Dev.keeps_pulse {P : Nat → Prop} (d : Dev) (code cause phys : Nat) (detail : Word128) : d.Keeps P (d.pulse code cause phys detail) :=
  (Dev.Keeps.refl d).of_units rfl rfl rfl rfl

theorem Dev.keeps_fresh {P : Nat → Prop} (d : Dev) (n : Nat) : d.Keeps P { d with fresh := n } := (Dev.Keeps.refl d).of_units rfl rfl rfl rfl

theorem Dev.fed_streamTake (d : Dev) (hp : p < 6) {k : Nat} (hk : k < 8) (lo hi : Nat) (h : Held) (u : TdRule) :
    d.Fed p (d.streamTake p k lo hi h u).1 := by
  unfold Dev.streamTake
  extract_lets s ws sw n bads lost r e1 d1 x out ser td x' e2 d2 d3
  have hr : d.Fed p r.1 := Dev.Fed.foldl_fst (.refl d) fun b q _ => b.1.fed_streamRun (by omega) q
  clear_value r td x' out
  have h1 : d.Fed p d1 := hr.trans (Dev.keeps_fresh _ _).fed
  have h2 : d.Fed p d2 := (h1.trans (d1.fed_setStream _ _ _)).trans (Dev.keeps_fresh _ _).fed
  have h3 : d2.Keeps (· ≠ Reg.GAP_COUNT p) d3 := (Dev.Keeps.refl d2).foldl fun d _ _ => d.keeps_pulse _ _ _ _
  exact (h2.trans h3.fed).trans (d3.fed_noteSat hp out)

end Fed

/-- The streams of a port take what has come, and the port's series stands behind it. -/
theorem Dev.portTake_fst (d : Dev) {p : Nat} (hp : p < 6) (upto : Nat) (h : Held) (u : Nat → TdRule) :
    ∃ e pos bads, d.Fed p e ∧ (d.portTake p upto h u).1 = e.setPort p { e.port p with pos := pos, bads := bads } := by
  unfold Dev.portTake
  extract_lets lo r x
  have hr : d.Fed p r.1 := Dev.Fed.foldl_fst (.refl d) fun b s _ => b.1.fed_streamTake hp (Nat.mod_lt _ (by decide)) _ _ _ _
  exact ⟨r.1, _, _, hr, rfl⟩

/-! ### CRC faults of an extended multiblock (R94) -/

/-- The logical lanes of a setup on which a multiblock fails its CRC. -/
def badLanes (ws : List Word128) (bad : List (Nat × Nat)) (m : Nat) : List Nat := (List.range (portL ws)).filter fun i => decide ((laneMap ws i, m) ∈ bad)

theorem badLanes_nil (ws : List Word128) (m : Nat) : badLanes ws [] m = [] := by simp [badLanes]

theorem badLanes_of_ne (ws : List Word128) (phys : Nat) {m n : Nat} (h : n ≠ m) : badLanes ws [(phys, m)] n = [] := by simp [badLanes, h]

theorem filter_range_eq_singleton {n l : Nat} (q : Nat → Bool) (hl : l < n) (hq : ∀ i < n, q i = decide (i = l)) : (List.range n).filter q = [l] := by
  have hcount : (List.range n).count l = 1 := List.count_eq_one_of_mem List.nodup_range (List.mem_range.mpr hl)
  rw [List.filter_congr fun i hi => hq i (List.mem_range.mp hi), ← List.replicate_one, ← hcount]
  exact List.filter_eq l

/-- A physical lane that one logical lane alone names. -/
theorem badLanes_self (ws : List Word128) (m : Nat) {l : Nat} (hl : l < portL ws) (hinj : ∀ j, j < portL ws → laneMap ws j = laneMap ws l → j = l) :
    badLanes ws [(laneMap ws l, m)] m = [l] := by
  refine filter_range_eq_singleton _ hl fun i hi => ?_
  have hiff : laneMap ws i = laneMap ws l ↔ i = l := ⟨hinj i hi, fun h => h ▸ rfl⟩
  simp [hiff]

/-- CRC faults on lanes in one multiblock are counted; the first lane for which it is the fourth is given. -/
def Dev.crcLanes (d : Dev) (p j m : Nat) (lanes : List Nat) : Dev × Option Nat :=
  lanes.foldl (fun (b : Dev × Option Nat) i =>
    let c := b.1.crcLane p j m i
    (c.1, if c.2 ∧ b.2.isNone then some i else b.2)) (d, none)

/-- A multiblock with a CRC fault loses its samples. -/
def Dev.crcLost (d : Dev) (p lane : Nat) (g : Nat × Nat) : Dev :=
  let x := d.port p
  (d.noteFault p 0x12 lane).setPort p { x with bads := x.bads ++ [g], faultAt := max x.faultAt (d.convTag p g.2) }

/-- One multiblock of an extended multiblock, after those before it. -/
def crcStep (ws : List Word128) (p j : Nat) (bad : List (Nat × Nat)) (a : Dev × Option (Nat × Nat)) (m : Nat) : Dev × Option (Nat × Nat) :=
  match a.2, badLanes ws bad m with
  | none, lane :: rest =>
    let r := a.1.crcLanes p j m (lane :: rest)
    match r.2 with
    | some i => (r.1, some (m, i))
    | none => (r.1.crcLost p lane (mbRange ws j m), none)
  | _, _ => a

theorem Dev.crcFaults_eq (d : Dev) (p j : Nat) (bad : List (Nat × Nat)) :
    d.crcFaults p j bad = (List.range (portE (d.portForce p))).foldl (crcStep (d.portForce p) p j bad) (d, none) := by
  unfold Dev.crcFaults
  refine congrArg (fun f => (List.range (portE (d.portForce p))).foldl f (d, none)) (funext₂ fun a m => ?_)
  obtain ⟨e, o⟩ := a
  extract_lets lanes
  have hlanes : badLanes (d.portForce p) bad m = lanes := rfl
  rw [crcStep, hlanes]
  clear_value lanes
  cases lanes <;> cases o <;> rfl

theorem crcStep_of_clean {ws : List Word128} {bad : List (Nat × Nat)} {m : Nat} (h : badLanes ws bad m = []) (p j : Nat) (a : Dev × Option (Nat × Nat)) :
    crcStep ws p j bad a m = a := by
  rw [crcStep, h]
  cases a.2 <;> rfl

/-- A fold in which one element alone does something. -/
theorem foldl_eq_of_only {α β : Type} {f : β → α → β} {l : List α} {m : α} (hm : m ∈ l) (hnd : l.Nodup) (hf : ∀ x, x ≠ m → ∀ b, f b x = b) (b : β) :
    l.foldl f b = f b m := by
  induction l generalizing b with
  | nil => cases hm
  | cons x l ih =>
    obtain ⟨hx, hnd⟩ := List.nodup_cons.mp hnd
    by_cases hxm : x = m
    · subst hxm
      have hrest (b : β) : l.foldl f b = b := by
        exact (List.foldl_ext _ _ b fun b y hy => hf y (fun h => hx (h ▸ hy)) b).trans (List.foldl_fixed l)
      exact hrest _
    · rw [List.foldl_cons, hf x hxm]
      exact ih (List.mem_of_ne_of_mem (Ne.symm hxm) hm) hnd b

theorem Dev.crcFaults_nil (d : Dev) (p j : Nat) : d.crcFaults p j [] = (d, none) := by
  rw [Dev.crcFaults_eq]
  exact List.foldl_fixed' (fun m => crcStep_of_clean (badLanes_nil _ m) p j _) _

theorem Dev.crcLanes_singleton (d : Dev) (p j m l : Nat) :
    d.crcLanes p j m [l] = ((d.crcLane p j m l).1, if (d.crcLane p j m l).2 = true then some l else none) := by
  simp [Dev.crcLanes]

/-- A CRC fault in one multiblock of one lane. -/
theorem Dev.crcFaults_singleton (d : Dev) (p j : Nat) {l m : Nat} (hl : l < portL (d.portForce p)) (hm : m < portE (d.portForce p))
    (hinj : ∀ i, i < portL (d.portForce p) → laneMap (d.portForce p) i = laneMap (d.portForce p) l → i = l) :
    d.crcFaults p j [(laneMap (d.portForce p) l, m)]
      = if (d.crcLane p j m l).2 = true then ((d.crcLane p j m l).1, some (m, l))
        else ((d.crcLane p j m l).1.crcLost p l (mbRange (d.portForce p) j m), none) := by
  rw [Dev.crcFaults_eq, foldl_eq_of_only (List.mem_range.mpr hm) List.nodup_range fun n hn a => crcStep_of_clean (badLanes_of_ne _ _ hn) p j a, crcStep,
    badLanes_self _ m hl hinj]
  dsimp only
  rw [Dev.crcLanes_singleton]
  dsimp only
  cases (d.crcLane p j m l).2 <;> rfl

/-! ### The release of an extended multiblock (R83, R94) -/

/-- A port's place in its extended multiblocks moves on. -/
def Dev.embDone (e : Dev) (p j : Nat) (held : Option Held) (fresh : List Nat) : Dev :=
  e.setPort p { e.port p with emb := j + 1, held := held, eqFresh := fresh }

/-- The elastic buffer of an UP link stands at the release instant of its next extended multiblock. -/
structure Dev.AtRelease (d : Dev) (p : Nat) : Prop where
  up : d.linkState p = 5
  free : (d.port p).held = none
  due : d.releaseUp p (d.port p).emb ≤ d.up

/-- Every lane has come by RBD block periods. -/
def Dev.lanesInTime (d : Dev) (p : Nat) (arrive : List Nat) : Prop :=
  ∀ j, j < portL (d.portForce p) → nth arrive (laneMap (d.portForce p) j) 0 ≤ d.rbdTime p

section Release
variable {d : Dev} {p : Nat} (octets : List (List Nat)) {arrive : List Nat} (u : Nat → TdRule)

theorem Dev.AtRelease.not_waits (h : d.AtRelease p) : ¬ (d.linkState p ≠ 5 ∨ (d.port p).held.isSome ∨ d.up < d.releaseUp p (d.port p).emb) := by
  simp [h.up, h.free, h.due]

theorem Dev.lanesInTime.find_late (h : d.lanesInTime p arrive) :
    (List.range (portL (d.portForce p))).find? (fun i => decide (d.rbdTime p < nth arrive (laneMap (d.portForce p) i) 0)) = none := by
  rw [List.find?_eq_none]
  intro i hi
  simpa using h i (List.mem_range.mp hi)

/-- A lane later than RBD is ELASTIC_LATE. -/
theorem embRelease_late (h : d.AtRelease p) (bad : List (Nat × Nat)) {l : Nat} (hl : l < portL (d.portForce p))
    (hlate : d.rbdTime p < nth arrive (laneMap (d.portForce p) l) 0) :
    ∃ lane, (embRelease p octets arrive bad u d).1 = d.linkFault p 0x13 lane 1 := by
  cases hfind : (List.range (portL (d.portForce p))).find? (fun i => decide (d.rbdTime p < nth arrive (laneMap (d.portForce p) i) 0)) with
  | none => exact absurd (decide_eq_true hlate) (List.find?_eq_none.mp hfind l (List.mem_range.mpr hl))
  | some lane =>
    refine ⟨lane, ?_⟩
    unfold embRelease
    dsimp only
    rw [if_neg h.not_waits, hfind]

/-- With every lane in time the streams take the extended multiblock. -/
theorem embRelease_inTime (h : d.AtRelease p) (hin : d.lanesInTime p arrive) {bad : List (Nat × Nat)} {e : Dev}
    (hcrc : d.crcFaults p (d.port p).emb bad = (e, none)) :
    ∃ cut x held fresh, (embRelease p octets arrive bad u d).1 = (e.portTake p cut x u).1.embDone p (d.port p).emb held fresh := by
  unfold embRelease
  dsimp only
  rw [if_neg h.not_waits, hin.find_late, hcrc]
  exact ⟨_, _, _, _, rfl⟩

/-- A fourth CRC fault restarts the link once the streams have taken what was before it. -/
theorem embRelease_fourth (h : d.AtRelease p) (hin : d.lanesInTime p arrive) {bad : List (Nat × Nat)} {e : Dev} {m lane : Nat}
    (hcrc : d.crcFaults p (d.port p).emb bad = (e, some (m, lane))) :
    ∃ f : Dev, (embRelease p octets arrive bad u d).1 = f.linkFault p 0x10 lane 1 := by
  unfold embRelease
  dsimp only
  rw [if_neg h.not_waits, hin.find_late, hcrc]
  exact ⟨_, rfl⟩

end Release

/-- The capture writer and the lanes, which follow, leave the ports alone. -/
theorem exec_extMultiblockRelease (s : State) (p : Fin 6) (octets : List (List Nat)) (arrive : List Nat) (bad : List (Nat × Nat)) :
    ∃ t, exec (.extMultiblockRelease p octets arrive bad) s = .next t
      ∧ (embRelease p octets arrive bad s.dev.tdRule s.dev).1.Keeps portKey t.dev :=
  ⟨_, rfl, (keeps_captureAll _ _ _).trans (Dev.keeps_lanesOverflow _)⟩

theorem portKey_regs {p l : Nat} (hp : p < 6) (hl : l < 24) :
    portKey (Reg.LINK_STATE p) ∧ portKey (Reg.PORT_STATUS p) ∧ portKey (Reg.FAULT_CAUSE p) ∧ portKey (Reg.LANE_CRC_ERR p l) := by
  unfold portKey Reg.LINK_STATE Reg.PORT_STATUS Reg.FAULT_CAUSE Reg.LANE_CRC_ERR
  omega

theorem notMem_fedKeys {p l : Nat} (hp : p < 6) (hl : l < 24) :
    Reg.LINK_STATE p ∉ fedKeys p ∧ Reg.FAULT_CAUSE p ∉ fedKeys p ∧ Reg.LANE_CRC_ERR p l ∉ fedKeys p := by
  simp only [fedKeys, satKeys, List.mem_cons, List.not_mem_nil, or_false, Reg.SAT_COUNT, Reg.PORT_STATUS, Reg.EV_SEQ, Reg.GAP_COUNT,
    Reg.LINK_STATE, Reg.FAULT_CAUSE, Reg.LANE_CRC_ERR]
  omega

/-- What the streams take, and the port's next place, leave link, fault and CRC counts as they were. -/
theorem Dev.embDone_portTake (e : Dev) {p : Nat} (hp : p < 6) (cut : Nat) (x : Held) (u : Nat → TdRule) (j : Nat) (held : Option Held)
    (fresh : List Nat) :
    let f := (e.portTake p cut x u).1.embDone p j held fresh
    (∀ k, k ∉ fedKeys p → f.rd k = e.rd k) ∧ (∀ m, m < 16 → m ≠ 11 → f.on (Reg.PORT_STATUS p) m = e.on (Reg.PORT_STATUS p) m)
      ∧ (f.port p).emb = j + 1 := by
  obtain ⟨g, pos, bads, hfed, htake⟩ := e.portTake_fst hp cut x u
  dsimp only
  rw [htake]
  refine ⟨fun k hk => hfed.1.rd hk, hfed.2, ?_⟩
  rw [Dev.embDone, Dev.port_setPort_self]

/-- A CRC fault on a lane of an extended multiblock counts there. -/
theorem Dev.rd_crcLane_ne (d : Dev) {p lane k : Nat} (j m : Nat) (h : k ≠ Reg.LANE_CRC_ERR p lane) : (d.crcLane p j m lane).1.rd k = d.rd k :=
  Dev.rd_addSat_ne d 1 h

theorem Dev.n_crcLane_self (d : Dev) (p j m lane : Nat) :
    (d.crcLane p j m lane).1.n (Reg.LANE_CRC_ERR p lane) = min (d.n (Reg.LANE_CRC_ERR p lane) + 1) (2 ^ 32 - 1) := Dev.n_addSat_self d _ 1

theorem Dev.crcLane_snd (d : Dev) (p j m lane : Nat) :
    (d.crcLane p j m lane).2 = decide (4 ≤ (crcNote ((d.port p).crc.get (fun _ => []) lane) (j * portE (d.portForce p) + m)).length) := rfl

theorem Dev.rd_crcLost_ne (d : Dev) {p k : Nat} (lane : Nat) (g : Nat × Nat) (h : k ∉ faultKeys p) : (d.crcLost p lane g).rd k = d.rd k :=
  (d.keeps_noteFault (P := (· = k)) 0x12 lane fun _ hj heq => h (heq ▸ hj)).rd rfl

/-- With every lane in time, and no CRC fault, an extended multiblock leaves the buffer. -/
theorem exec_release_clean (s : State) (p : Fin 6) (octets : List (List Nat)) (arrive : List Nat) (hlink : s.dev.linkState p = 5)
    (hheld : (s.dev.port p).held = none) (hdue : s.dev.releaseUp p (s.dev.port p).emb ≤ s.dev.up)
    (hin : ∀ j, j < portL (s.dev.portForce p) → nth arrive (laneMap (s.dev.portForce p) j) 0 ≤ s.dev.rbdTime p) :
    ∃ t, exec (.extMultiblockRelease p octets arrive []) s = .next t ∧ (t.dev.port p).emb = (s.dev.port p).emb + 1
      ∧ t.dev.linkState p = 5 ∧ t.dev.rd (Reg.FAULT_CAUSE p) = s.dev.rd (Reg.FAULT_CAUSE p) := by
  obtain ⟨t, hexec, hkeep⟩ := exec_extMultiblockRelease s p octets arrive []
  obtain ⟨cut, x, held, fresh, hrel⟩ := embRelease_inTime octets s.dev.tdRule ⟨hlink, hheld, hdue⟩ hin (s.dev.crcFaults_nil _ _)
  obtain ⟨hrd, -, hemb⟩ := s.dev.embDone_portTake p.isLt cut x s.dev.tdRule (s.dev.port p).emb held fresh
  obtain ⟨hls, -, hfc, -⟩ := portKey_regs (l := 0) p.isLt (by decide)
  obtain ⟨hls', hfc', -⟩ := notMem_fedKeys (l := 0) p.isLt (by decide)
  rw [hrel] at hkeep
  exact ⟨t, hexec, (congrArg PortSt.emb (hkeep.port p)).trans hemb, (Dev.linkState_congr ((hkeep.rd hls).trans (hrd _ hls'))).trans hlink,
    (hkeep.rd hfc).trans (hrd _ hfc')⟩

/-- A CRC fault is counted on its lane, and the link stays UP. -/
theorem exec_release_crc (s : State) (p : Fin 6) (octets : List (List Nat)) (arrive : List Nat) (l : Fin 24) (m : Nat)
    (hlink : s.dev.linkState p = 5) (hheld : (s.dev.port p).held = none) (hdue : s.dev.releaseUp p (s.dev.port p).emb ≤ s.dev.up)
    (hin : ∀ j, j < portL (s.dev.portForce p) → nth arrive (laneMap (s.dev.portForce p) j) 0 ≤ s.dev.rbdTime p)
    (hl : l.val < portL (s.dev.portForce p)) (hm : m < portE (s.dev.portForce p))
    (hinj : ∀ j, j < portL (s.dev.portForce p) → laneMap (s.dev.portForce p) j = laneMap (s.dev.portForce p) l → j = l.val)
    (hfew : (crcNote ((s.dev.port p).crc.get (fun _ => []) l.val) ((s.dev.port p).emb * portE (s.dev.portForce p) + m)).length < 4) :
    ∃ t, exec (.extMultiblockRelease p octets arrive [(laneMap (s.dev.portForce p) l, m)]) s = .next t
      ∧ (t.dev.port p).emb = (s.dev.port p).emb + 1 ∧ t.dev.linkState p = 5 ∧ t.dev.on (Reg.PORT_STATUS p) 8 = true
      ∧ t.dev.n (Reg.LANE_CRC_ERR p l) = min (s.dev.n (Reg.LANE_CRC_ERR p l) + 1) (2 ^ 32 - 1) := by
  obtain ⟨t, hexec, hkeep⟩ := exec_extMultiblockRelease s p octets arrive [(laneMap (s.dev.portForce p) l, m)]
  have hcrc := s.dev.crcFaults_singleton p (s.dev.port p).emb hl hm hinj
  rw [Dev.crcLane_snd, decide_eq_false (by omega), if_neg Bool.false_ne_true] at hcrc
  obtain ⟨cut, x, held, fresh, hrel⟩ := embRelease_inTime octets s.dev.tdRule ⟨hlink, hheld, hdue⟩ hin hcrc
  obtain ⟨hrd, hon, hemb⟩ := Dev.embDone_portTake ((s.dev.crcLane p (s.dev.port p).emb m l).1.crcLost p l
    (mbRange (s.dev.portForce p) (s.dev.port p).emb m)) p.isLt cut x s.dev.tdRule (s.dev.port p).emb held fresh
  obtain ⟨hls, hst, -, hce⟩ := portKey_regs p.isLt l.isLt
  obtain ⟨hls', -, hce'⟩ := notMem_fedKeys p.isLt l.isLt
  obtain ⟨hls'', hce'', hne⟩ : Reg.LINK_STATE p ∉ faultKeys p ∧ Reg.LANE_CRC_ERR p l ∉ faultKeys p ∧ Reg.LINK_STATE p ≠ Reg.LANE_CRC_ERR p l := by
    simp only [faultKeys, List.mem_cons, List.not_mem_nil, or_false, Reg.LINK_STATE, Reg.LANE_CRC_ERR, Reg.PORT_STATUS, Reg.FAULT_CAUSE,
      Reg.COND_STATUS, Reg.EV_SEQ]
    omega
  rw [hrel] at hkeep
  refine ⟨t, hexec, (congrArg PortSt.emb (hkeep.port p)).trans hemb, (Dev.linkState_congr ?_).trans hlink, ?_, ?_⟩
  · rw [hkeep.rd hls, hrd _ hls', Dev.rd_crcLost_ne _ _ _ hls'', Dev.rd_crcLane_ne _ _ _ hne]
  · rw [Dev.on_congr 8 (hkeep.rd hst), hon 8 (by decide) (by decide)]
    exact (Dev.on_noteFault _ p.isLt (by decide) 0x12 l).trans (Bool.or_true _)
  · rw [Dev.n_congr (hkeep.rd hce), Dev.n_congr (hrd _ hce'), Dev.n_congr (Dev.rd_crcLost_ne _ _ _ hce''), Dev.n_crcLane_self]

/-- The fourth CRC fault of a lane within 16 multiblocks restarts the link. -/
theorem exec_release_fourth (s : State) (p : Fin 6) (octets : List (List Nat)) (arrive : List Nat) (l : Fin 24) (m : Nat)
    (hlink : s.dev.linkState p = 5) (hheld : (s.dev.port p).held = none) (hdue : s.dev.releaseUp p (s.dev.port p).emb ≤ s.dev.up)
    (hin : ∀ j, j < portL (s.dev.portForce p) → nth arrive (laneMap (s.dev.portForce p) j) 0 ≤ s.dev.rbdTime p)
    (hl : l.val < portL (s.dev.portForce p)) (hm : m < portE (s.dev.portForce p))
    (hinj : ∀ j, j < portL (s.dev.portForce p) → laneMap (s.dev.portForce p) j = laneMap (s.dev.portForce p) l → j = l.val)
    (hfour : 4 ≤ (crcNote ((s.dev.port p).crc.get (fun _ => []) l.val) ((s.dev.port p).emb * portE (s.dev.portForce p) + m)).length) :
    ∃ t, exec (.extMultiblockRelease p octets arrive [(laneMap (s.dev.portForce p) l, m)]) s = .next t
      ∧ t.dev.linkState p = 1 ∧ t.dev.on (Reg.PORT_STATUS p) 7 = true ∧ (t.dev.port p).open_ = true := by
  obtain ⟨t, hexec, hkeep⟩ := exec_extMultiblockRelease s p octets arrive [(laneMap (s.dev.portForce p) l, m)]
  have hcrc := s.dev.crcFaults_singleton p (s.dev.port p).emb hl hm hinj
  rw [Dev.crcLane_snd, decide_eq_true hfour, if_pos rfl] at hcrc
  obtain ⟨f, hrel⟩ := embRelease_fourth octets s.dev.tdRule ⟨hlink, hheld, hdue⟩ hin hcrc
  obtain ⟨hls, hst, -, -⟩ := portKey_regs p.isLt l.isLt
  obtain ⟨hone, -, hopen, -⟩ := f.linkFault_restarts p.isLt 0x10 l
  rw [hrel] at hkeep
  exact ⟨t, hexec, (Dev.linkState_congr (hkeep.rd hls)).trans hone, (Dev.on_congr 7 (hkeep.rd hst)).trans (f.on_linkFault_cause p.isLt l 1 rfl),
    (congrArg PortSt.open_ (hkeep.port p)).trans hopen⟩

theorem exec_release_late (s : State) (p : Fin 6) (octets : List (List Nat)) (arrive : List Nat) (bad : List (Nat × Nat)) (l : Nat)
    (hlink : s.dev.linkState p = 5) (hheld : (s.dev.port p).held = none) (hdue : s.dev.releaseUp p (s.dev.port p).emb ≤ s.dev.up)
    (hl : l < portL (s.dev.portForce p)) (hlate : s.dev.rbdTime p < nth arrive (laneMap (s.dev.portForce p) l) 0) :
    ∃ t, exec (.extMultiblockRelease p octets arrive bad) s = .next t ∧ t.dev.linkState p = 1
      ∧ t.dev.on (Reg.PORT_STATUS p) 9 = true ∧ (t.dev.port p).open_ = true ∧ (t.dev.port p).emb = (s.dev.port p).emb := by
  obtain ⟨t, hexec, hkeep⟩ := exec_extMultiblockRelease s p octets arrive bad
  obtain ⟨lane, hrel⟩ := embRelease_late octets s.dev.tdRule ⟨hlink, hheld, hdue⟩ bad hl hlate
  obtain ⟨hls, hst, -, -⟩ := portKey_regs (l := 0) p.isLt (by decide)
  obtain ⟨hone, -, hopen, -⟩ := s.dev.linkFault_restarts p.isLt 0x13 lane
  rw [hrel] at hkeep
  have hplace := congrArg PortSt.emb ((hkeep.port p).trans (s.dev.port_linkFault p 0x13 lane 1))
  exact ⟨t, hexec, (Dev.linkState_congr (hkeep.rd hls)).trans hone, (Dev.on_congr 9 (hkeep.rd hst)).trans (s.dev.on_linkFault_cause p.isLt lane 1 rfl),
    (congrArg PortSt.open_ (hkeep.port p)).trans hopen, hplace⟩

end Sys2Proof.Machine
end

section
/-! SUPPORT. The GAP records of a running outage. -/
namespace Sys2Proof.Machine

/-! ### Zeros leave running losses and waiting records (R95) -/

/-- What a port's zeros leave: since when each stream has lost samples, and the records that wait. -/
def Dev.losses (d : Dev) : (Nat → Option Nat) × Tab (List Rec) := (fun s => (d.stream s).gapFrom, d.out)

theorem Dev.losses_of_units {d e : Dev} (hs : e.streams = d.streams) (ho : e.out = d.out) : e.losses = d.losses := by
  unfold Dev.losses Dev.stream
  rw [hs, ho]

theorem Dev.gapFrom_of_losses {d e : Dev} (h : e.losses = d.losses) (s : Nat) : (e.stream s).gapFrom = (d.stream s).gapFrom :=
  congrFun (congrArg Prod.fst h) s

theorem Dev.outOf_of_losses {d e : Dev} (h : e.losses = d.losses) (r : Nat) : e.outOf r = d.outOf r :=
  congrArg (Tab.get (fun _ => []) · r) (congrArg Prod.snd h)

theorem Dev.losses_setStream (d : Dev) (s : Nat) (x : StreamSt) (h : x.gapFrom = (d.stream s).gapFrom) : (d.setStream s x).losses = d.losses := by
  refine Prod.ext (funext fun j => ?_) rfl
  simp only [Dev.losses, Dev.stream_setStream]
  split
  next heq => rw [heq, h]
  next => rfl

theorem Dev.losses_fresh (d : Dev) (n : Nat) : ({ d with fresh := n } : Dev).losses = d.losses := rfl

theorem Dev.losses_noteSat (d : Dev) (p : Nat) (l : List Smp) : (d.noteSat p l).losses = d.losses := by
  unfold Dev.noteSat Dev.sqEvent
  dsimp only
  split
  · rfl
  · split <;> rfl

theorem StreamSt.gapFrom_addData (x : StreamSt) (l : List Smp) : (x.addData l).gapFrom = x.gapFrom := by
  unfold StreamSt.addData
  split <;> rfl

theorem StreamSt.gapFrom_addFill (x : StreamSt) (n cause : Nat) : (x.addFill n cause).gapFrom = x.gapFrom := by
  unfold StreamSt.addFill
  split
  · rfl
  · split
    · split <;> rfl
    · rfl

theorem Dev.losses_fillStream (d : Dev) (s n : Nat) : (d.fillStream s n).losses = d.losses := by
  unfold Dev.fillStream
  dsimp only
  rw [Dev.losses_noteSat, Dev.losses_fresh, Dev.losses_setStream]
  rw [StreamSt.gapFrom_addFill, StreamSt.gapFrom_addData]

theorem Dev.losses_fillPort (d : Dev) (p upto : Nat) : (d.fillPort p upto).losses = d.losses :=
  view_foldl (v := Dev.losses) d fun d s _ => d.losses_fillStream s _

/-- The series of a port that supplies zeros moves on, and its outage stays open. -/
theorem Dev.fillNow_cases (d : Dev) (p : Nat) : d.fillNow p = d ∨ ∃ upto, d.fillNow p = d.fillPort p upto := by
  unfold Dev.fillNow
  dsimp only
  split
  · exact .inr ⟨_, rfl⟩
  · exact .inl rfl

theorem Dev.losses_fillNow (d : Dev) (p : Nat) : (d.fillNow p).losses = d.losses := by
  rcases d.fillNow_cases p with h | ⟨upto, h⟩ <;> rw [h]
  exact d.losses_fillPort p upto

theorem Dev.sameOn_fillNow {P : Nat → Prop} (d : Dev) {p : Nat} (hP : ∀ k ∈ satKeys p, ¬ P k) : d.SameOn P (d.fillNow p) := by
  rcases d.fillNow_cases p with h | ⟨upto, h⟩ <;> rw [h]
  · exact .refl d
  · exact d.sameOn_fillPort upto hP

theorem Dev.cw_fillNow (d : Dev) (p : Nat) : (d.fillNow p).cw = d.cw := by
  rcases d.fillNow_cases p with h | ⟨upto, h⟩ <;> rw [h]
  exact d.cw_fillPort p upto

theorem Dev.port_fillNow (d : Dev) (p : Nat) : ∃ n, (d.fillNow p).port p = { d.port p with pos := (d.port p).pos + n } := by
  rcases d.fillNow_cases p with h | ⟨upto, h⟩ <;> rw [h]
  · exact ⟨0, rfl⟩
  · exact ⟨_, d.port_fillPort p upto⟩

/-! ### Each millisecond is one GAP record (R95) -/

/-- A stream's loss of 1 ms from t0 on ends as a GAP record that another follows. -/
def Dev.gapSplit (d : Dev) (s t0 : Nat) : Dev :=
  let t1 := t0 + nsUnits 1000000
  let x := d.stream s
  (d.setStream s { x with gapFrom := some t1, settle := x.settle ++ d.gapSpan s t0 t1 }).portGap s x.gapCause t0 t1 true

theorem outageSplit_of_due {d : Dev} {s t0 : Nat} (hgap : (d.stream s).gapFrom = some t0) (hlong : elapsedNs t0 d.now 1000000 = true)
    (hopen : (d.port (s / 8)).open_ = true) : outageSplit s d = (d.fillNow (s / 8)).gapSplit s t0 := by
  have hgap' : ((d.fillNow (s / 8)).stream s).gapFrom = some t0 := (Dev.gapFrom_of_losses (d.losses_fillNow _) s).trans hgap
  have hnow : (d.fillNow (s / 8)).now = d.now := Dev.now_congr (d.sameOn_fillNow (P := fun _ => False) fun _ _ => id).1
  obtain ⟨n, hport⟩ := d.port_fillNow (s / 8)
  unfold outageSplit
  dsimp only
  rw [hgap']
  refine if_pos ⟨by rw [hnow]; exact hlong, ?_⟩
  rw [hport]
  exact hopen

section GapSplit
variable (d : Dev) (s t0 : Nat)

theorem Dev.keeps_gapSplit {P : Nat → Prop} (hP : ¬ P (Reg.GAP_COUNT (s / 8))) : d.Keeps P (d.gapSplit s t0) :=
  (d.keeps_setStream _ _).trans (Dev.keeps_portGap _ _ _ _ _ hP)

theorem Dev.gapFrom_gapSplit : ((d.gapSplit s t0).stream s).gapFrom = some (t0 + nsUnits 1000000) :=
  congrArg StreamSt.gapFrom ((Dev.stream_setStream d s s _).trans (if_pos rfl))

theorem Dev.n_gapSplit : (d.gapSplit s t0).n (Reg.GAP_COUNT (s / 8)) = min (d.n (Reg.GAP_COUNT (s / 8)) + 1) (2 ^ 32 - 1) := Dev.n_addSat_self ..

theorem Dev.outOf_push_self (e : Dev) (r : Nat) (x : Rec) : (e.push r x).outOf r = e.outOf r ++ [x] :=
  (Tab.get_set (α := List Rec) _ _ r r _).trans (if_pos rfl)

theorem Dev.outOf_gapSplit : ((d.gapSplit s t0).outOf s).length = (d.outOf s).length + 1 :=
  (congrArg List.length (Dev.outOf_push_self ..)).trans List.length_append

end GapSplit

/-- The registers that an outage of port p leaves: those outside its block, the capture rings' and the events'. -/
def offOutage (p j : Nat) : Prop := keyBlock j ≠ 2 + p ∧ keyBlock j ≠ 0x23 ∧ keyBlock j ≠ keyBlock (Reg.EV_SEQ 0)

theorem satKeys_not_offOutage {p : Nat} (hp : p < 6) : ∀ k ∈ satKeys p, ¬ offOutage p k := by
  simp only [satKeys, List.mem_cons, List.not_mem_nil, or_false, forall_eq_or_imp, forall_eq, offOutage, keyBlock, Reg.SAT_COUNT, Reg.PORT_STATUS,
    Reg.EV_SEQ]
  omega

theorem ringKeys_not_offOutage {p s : Nat} (hs : s < 48) : ∀ k ∈ ringKeys s, ¬ offOutage p k := by
  simp only [ringKeys, List.mem_cons, List.not_mem_nil, or_false, forall_eq_or_imp, forall_eq, offOutage, keyBlock, Reg.RLEN, Reg.RLEN_PEND,
    Reg.RING_WP, Reg.SPANS, Reg.TWP_LO, Reg.TWP_HI, Reg.OLDEST_LO, Reg.OLDEST_HI, Reg.CAP_LOST, Reg.CAP_STATUS, Reg.EV_SEQ]
  omega

theorem gapCount_not_offOutage {p : Nat} (hp : p < 6) : ¬ offOutage p (Reg.GAP_COUNT p) := by
  simp only [offOutage, keyBlock, Reg.GAP_COUNT]
  omega

theorem gapCount_notMem_satKeys {p : Nat} (hp : p < 6) : ∀ k ∈ satKeys p, k ≠ Reg.GAP_COUNT p := by
  simp only [satKeys, List.mem_cons, List.not_mem_nil, or_false, forall_eq_or_imp, forall_eq, Reg.SAT_COUNT, Reg.PORT_STATUS, Reg.EV_SEQ, Reg.GAP_COUNT]
  omega

theorem gapCount_portKey {p : Nat} (hp : p < 6) : portKey (Reg.GAP_COUNT p) := by
  unfold portKey Reg.GAP_COUNT
  omega

theorem exec_outageSplit (s : State) (k : Fin 48) (t0 : Nat) (hgap : (s.dev.stream k).gapFrom = some t0)
    (hlong : elapsedNs t0 s.dev.now 1000000 = true) (hopen : (s.dev.port (k.val / 8)).open_ = true) :
    ∃ t, exec (.outageSplit k) s = .next t ∧ (t.dev.stream k).gapFrom = some (t0 + nsUnits 1000000)
      ∧ t.dev.n (Reg.GAP_COUNT (k.val / 8)) = min (s.dev.n (Reg.GAP_COUNT (k.val / 8)) + 1) (2 ^ 32 - 1)
      ∧ (t.dev.outOf k).length = (s.dev.outOf k).length + 1
      ∧ (∀ j, keyBlock j ≠ 2 + k.val / 8 → keyBlock j ≠ 0x23 → keyBlock j ≠ keyBlock (Reg.EV_SEQ 0) → t.dev.rd j = s.dev.rd j)
      ∧ t.mem = s.mem := by
  have hp : k.val / 8 < 6 := by omega
  have hin (r : Nat) (hr : r / 8 = k.val / 8) : r < 48 := by omega
  have hcount := (s.dev.sameOn_fillNow (P := (· = Reg.GAP_COUNT (k.val / 8))) (gapCount_notMem_satKeys hp)).2 _ rfl
  have hfill := ((s.dev.fillNow (k.val / 8)).gapSplit k t0).flows_ringsFill (p := k.val / 8) fun r _ => not_portKey_ringKeys r
  have hframe : s.dev.SameOn (offOutage (k.val / 8)) (((s.dev.fillNow (k.val / 8)).gapSplit k t0).ringsFill (k.val / 8)) :=
    ((s.dev.sameOn_fillNow (satKeys_not_offOutage hp)).trans (Dev.keeps_gapSplit _ _ _ (gapCount_not_offOutage hp)).1).trans
      (Dev.flows_ringsFill _ fun r hr => ringKeys_not_offOutage (hin r hr)).keeps.1
  have hlosses := Dev.losses_of_units hfill.streams hfill.out
  refine ⟨_, next_congr (congrArg (Dev.ringsFill · (k.val / 8)) (outageSplit_of_due hgap hlong hopen)), ?_, ?_, ?_,
    fun j h2 h23 hev => hframe.2 j ⟨h2, h23, hev⟩, rfl⟩
  · exact (Dev.gapFrom_of_losses hlosses k).trans (Dev.gapFrom_gapSplit _ _ _)
  · rw [Dev.n_congr (hfill.keeps.rd (gapCount_portKey hp)), Dev.n_gapSplit, Dev.n_congr hcount]
  · rw [Dev.outOf_of_losses hlosses, Dev.outOf_gapSplit, Dev.outOf_of_losses (s.dev.losses_fillNow _)]

end Sys2Proof.Machine
end

section
/-! SUPPORT. A first setup of a port comes into force at its boundary. -/
namespace Sys2Proof.Machine

/-! ### A target takes its first setup (R363, R374) -/

/-- The device once target t has taken the setup of its slot k, with none in force before. -/
def Dev.firstTaken (d : Dev) (t : Nat) (g : Grp) (k : Nat) : Dev :=
  let e := d.setSlot t k { st := 3, words := (d.slot t k).words }
  { e with cw := { e.cw with
    switches := e.cw.switches.set (fun _ => 0) t ((e.cw.switches.get (fun _ => 0) t + 1) % 2 ^ 28),
    groups := e.cw.groups.map fun (h : Grp) => if h.num = g.num then { h with passed := h.passed ++ [t] } else h } }

section First
variable {d : Dev} {t k : Nat} {g : Grp}

theorem Dev.force_of_none (h : d.slotIn t 3 = none) : d.force t = [] := by rw [Dev.force, h]

theorem Dev.takeSwitch_first (hdue : d.dueGroup t = some (g, k)) (hnone : d.slotIn t 3 = none) :
    d.takeSwitch t = some (⟨[], (d.slot t k).words, g.teff⟩, (d.firstTaken t g k).showTarget t) := by
  unfold Dev.takeSwitch
  rw [hdue]
  dsimp only
  rw [hnone, Dev.force_of_none hnone]
  rfl

theorem Dev.slot_firstTaken (d : Dev) (t k j : Nat) (g : Grp) :
    (d.firstTaken t g k).slot t j = if j = k then { st := 3, words := (d.slot t k).words } else d.slot t j := by
  have hget := Tab.get_set (fun _ => ({} : Slot)) d.cw.slots (16 * t + j) (16 * t + k) { st := 3, words := (d.slot t k).words }
  exact hget.trans (if_congr (by omega) rfl rfl)

/-- The taken slot is the target's one slot in force. -/
theorem Dev.slotIn_firstTaken (hk : k < 16) (hnone : d.slotIn t 3 = none) (g : Grp) : (d.firstTaken t g k).slotIn t 3 = some k := by
  have hother := List.find?_eq_none.mp hnone
  refine List.find?_range_eq_some.mpr ⟨?_, List.mem_range.mpr hk, fun j hj => ?_⟩
  · simp [Dev.slot_firstTaken]
  · have hj3 := hother j (List.mem_range.mpr (hj.trans hk))
    simpa [Dev.slot_firstTaken, hj.ne] using hj3

theorem Dev.force_firstTaken (hk : k < 16) (hnone : d.slotIn t 3 = none) (g : Grp) : (d.firstTaken t g k).force t = (d.slot t k).words := by
  rw [Dev.force, Dev.slotIn_firstTaken hk hnone]
  dsimp only
  rw [Dev.slot_firstTaken, if_pos rfl]

theorem Dev.swOf_firstTaken (d : Dev) (t k : Nat) (g : Grp) : (d.firstTaken t g k).swOf t = (d.swOf t + 1) % 2 ^ 28 := by
  have hget := Tab.get_set_self (fun _ => 0) d.cw.switches t ((d.cw.switches.get (fun _ => 0) t + 1) % 2 ^ 28)
  refine (congrArg (· % 2 ^ 28) hget).trans ?_
  rw [Dev.swOf]
  omega

theorem Dev.swOf_congr {d e : Dev} (h : e.cw = d.cw) (t : Nat) : e.swOf t = d.swOf t := by rw [Dev.swOf, Dev.swOf, h]

theorem Dev.slot_congr {d e : Dev} (h : e.cw = d.cw) (t k : Nat) : e.slot t k = d.slot t k := by rw [Dev.slot, Dev.slot, h]

theorem Dev.slotIn_congr {d e : Dev} (h : e.cw = d.cw) (t st : Nat) : e.slotIn t st = d.slotIn t st := by
  unfold Dev.slotIn Dev.slot
  rw [h]

theorem Dev.dueGroup_congr {d e : Dev} (h : e.cw = d.cw) (t : Nat) : e.dueGroup t = d.dueGroup t := by rw [Dev.dueGroup, Dev.dueGroup, h]

end First

/-! ### The boundary stays reached while zeros pass (R95, R374) -/

/-- Later samples of a series have no earlier tags. -/
theorem Series.time_mono (x : Series) (k n : Nat) : x.time k ≤ x.time (k + n) := by
  unfold Series.time
  by_cases hk : x.k0 ≤ k
  · rw [if_pos hk, if_pos (by omega)]
    exact Nat.add_le_add_left (Nat.div_le_div_right (Nat.mul_le_mul_right _ (by omega))) _
  · rw [if_neg hk]
    split
    · exact (Nat.sub_le _ _).trans (Nat.le_add_right _ _)
    · refine Nat.sub_le_sub_left (Nat.div_le_div_right ?_) _
      have hmul : (x.k0 - (k + n)) * x.num ≤ (x.k0 - k) * x.num := Nat.mul_le_mul_right _ (by omega)
      omega

theorem Dev.portDue_fillNow {d : Dev} {p : Nat} (h : d.portDue p = true) : (d.fillNow p).portDue p = true := by
  have hcw := d.cw_fillNow p
  have hnow : (d.fillNow p).now = d.now := Dev.now_congr (d.sameOn_fillNow (P := fun _ => False) fun _ _ => id).1
  obtain ⟨n, hport⟩ := d.port_fillNow p
  unfold Dev.portDue at h ⊢
  rw [Dev.dueGroup_congr hcw]
  cases hdue : d.dueGroup (48 + p) with
  | none => rw [hdue] at h; exact h
  | some gk =>
    rw [hdue] at h
    dsimp only at h ⊢
    rw [Dev.portForce_congr hcw, Dev.slot_congr hcw, hnow]
    split at h
    next hnew => rw [if_pos hnew]; exact h
    next hnew =>
      rw [if_neg hnew, Dev.nextTag, hport]
      rw [Dev.nextTag] at h
      dsimp only at h ⊢
      cases hheld : (d.port p).held with
      | some x => rfl
      | none =>
        rw [hheld] at h
        cases hlive : (d.port p).live with
        | false => rw [hlive] at h; exact h
        | true =>
          rw [hlive] at h
          have hle : gk.1.teff ≤ (d.port p).ser.time (d.port p).pos := of_decide_eq_true h
          exact decide_eq_true (hle.trans (Series.time_mono _ _ _))

/-! ### A port takes its first setup (R93, R100, R374) -/

theorem streamSlot_nil (k : Nat) : streamSlot [] k = none := by simp [streamSlot, slotStarts]

theorem Dev.portRestarts_of_none {d : Dev} {p : Nat} (h : d.portForce p = []) (new : List Word128) : d.portRestarts p new = [] := by
  simp [Dev.portRestarts, h, streamSlot_nil]

theorem Dev.cw_eqRemap (d : Dev) (p : Nat) (old new : List Word128) : (d.eqRemap p old new).cw = d.cw := by
  unfold Dev.eqRemap
  extract_lets reset x idle e
  have he : e.cw = d.cw := view_foldl (v := Dev.cw) d fun _ _ _ => rfl
  clear_value e idle
  exact he

theorem Dev.keeps_slotSwitch {P : Nat → Prop} (d : Dev) (p k tsw : Nat) (sw : Switch) : d.Keeps P (d.slotSwitch p k tsw sw) := by
  unfold Dev.slotSwitch
  dsimp only
  split
  · exact d.keeps_setStream _ _
  · split
    · exact ((d.keeps_setStream _ _).trans (Dev.keeps_beginStream _ _ _)).ite (d.keeps_setStream _ _)
    · exact ((d.keeps_setStream _ _).trans (Dev.keeps_markStream _ _ _)).ite (d.keeps_setStream _ _)

/-- A port's link starts bring-up under its first setup, and its streams begin. -/
def Dev.firstSwitched (e : Dev) (p tsw : Nat) (moved : Bool) (sw : Switch) : Dev :=
  let d := (e.eqRemap p [] sw.new).setLink p 1 0
  let d := (List.range 8).foldl (fun d k => d.slotSwitch p k tsw sw) d
  let d := if moved ∧ (d.port p).live then (d.portStreams p).foldl (fun d s => d.markStream s (d.port p).pos) d else d
  d.setPort p { d.port p with held := none, switchEdge := some d.tb.edges }

theorem Dev.firstSwitched_spec (e : Dev) (p tsw : Nat) (moved : Bool) (sw : Switch) :
    (e.firstSwitched p tsw moved sw).linkState p = 1 ∧ (e.firstSwitched p tsw moved sw).cw = e.cw := by
  unfold Dev.firstSwitched
  extract_lets d1 d2 d3
  have h2 : d1.Keeps (fun _ => True) d2 := (Dev.Keeps.refl d1).foldl fun d k _ => d.keeps_slotSwitch _ _ _ _
  have h3 : d2.Keeps (fun _ => True) d3 := ((Dev.Keeps.refl d2).foldl fun d _ _ => d.keeps_markStream _ _).ite (.refl d2)
  have hlink : d3.linkState p = 1 :=
    (Dev.linkState_congr ((h2.trans h3).rd trivial)).trans (Dev.linkState_setLink _ _ _ (by decide))
  have hcw : d3.cw = e.cw := ((h2.trans h3).cw.trans (Dev.units_setLink _ p 1 0).1).trans (e.cw_eqRemap p [] sw.new)
  clear_value d3
  exact ⟨hlink, hcw⟩

/-- The samples that waited for the switch, if any, reach the streams where the link need not restart. -/
def Dev.waitedTaken (f : Dev) (p : Nat) (link : Bool) (u : Nat → TdRule) : Option Held → Dev × List CapTake
  | some x => if link then (f, []) else f.portTake p x.upto x u
  | none => (f, [])

theorem Dev.waitedTaken_spec (f : Dev) {p : Nat} (hp : p < 6) (link : Bool) (u : Nat → TdRule) (h : Option Held) :
    (f.waitedTaken p link u h).1.linkState p = f.linkState p ∧ (f.waitedTaken p link u h).1.cw = f.cw := by
  cases h with
  | none => exact ⟨rfl, rfl⟩
  | some x =>
    cases link with
    | true => exact ⟨rfl, rfl⟩
    | false =>
      obtain ⟨e, pos, bads, hfed, htake⟩ := f.portTake_fst hp x.upto x u
      have heq : (f.waitedTaken p false u (some x)).1 = e.setPort p { e.port p with pos := pos, bads := bads } := htake
      rw [heq]
      exact ⟨Dev.linkState_congr (hfed.1.rd (notMem_fedKeys (l := 0) hp (by decide)).1), hfed.1.cw⟩

section Switch
variable {d : Dev} {p k : Nat} {g : Grp}

/-- With no setup in force before, port p takes what its slot holds. -/
theorem portSwitch_of_none (hreached : (d.fillNow p).portDue p = true) (hdue : (d.fillNow p).dueGroup (48 + p) = some (g, k))
    (hnone : (d.fillNow p).slotIn (48 + p) 3 = none) (u : Nat → TdRule) :
    ∃ tsw moved link, portSwitch p u d =
      (let r := ((((d.fillNow p).firstTaken (48 + p) g k).showTarget (48 + p)).firstSwitched p tsw moved
          ⟨[], ((d.fillNow p).slot (48 + p) k).words, g.teff⟩).waitedTaken p link u ((d.fillNow p).port p).held
       (r.1, some (⟨[], ((d.fillNow p).slot (48 + p) k).words, g.teff⟩, r.2))) := by
  unfold portSwitch
  dsimp only
  rw [hreached, Dev.portForce, Dev.force_of_none hnone, hdue]
  dsimp only
  rw [if_neg (by simp), if_pos (.inl rfl), Dev.takeSwitch_first hdue hnone]
  dsimp only
  rw [if_pos (show ([] : List Word128).isEmpty = true from rfl)]
  generalize decide (List.take 3 [] ≠ List.take 3 ((d.fillNow p).slot (48 + p) k).words) = link
  cases ((d.fillNow p).port p).held with
  | none => exact ⟨_, _, true, rfl⟩
  | some x =>
    cases link with
    | true => exact ⟨_, _, true, rfl⟩
    | false => exact ⟨_, _, false, rfl⟩

/-- A first setup in force on port p starts bring-up (R100). -/
theorem portSwitch_first (hp : p < 6) (hreached : d.portDue p = true) (hdue : d.dueGroup (48 + p) = some (g, k)) (hk : k < 16)
    (hnone : d.slotIn (48 + p) 3 = none) (u : Nat → TdRule) :
    ∃ f sw cap, portSwitch p u d = (f, some (sw, cap)) ∧ f.linkState p = 1
      ∧ f.portForce p = (d.slot (48 + p) k).words ∧ f.swOf (48 + p) = (d.swOf (48 + p) + 1) % 2 ^ 28 := by
  have hcw := d.cw_fillNow p
  have hnone' : (d.fillNow p).slotIn (48 + p) 3 = none := (Dev.slotIn_congr hcw _ _).trans hnone
  obtain ⟨tsw, moved, link, heq⟩ := portSwitch_of_none (Dev.portDue_fillNow hreached) ((Dev.dueGroup_congr hcw _).trans hdue) hnone' u
  refine ⟨_, _, _, heq, ?_⟩
  obtain ⟨hone, hcw1⟩ := Dev.firstSwitched_spec (((d.fillNow p).firstTaken (48 + p) g k).showTarget (48 + p)) p tsw moved
    ⟨[], ((d.fillNow p).slot (48 + p) k).words, g.teff⟩
  obtain ⟨hsame, hcw2⟩ := Dev.waitedTaken_spec ((((d.fillNow p).firstTaken (48 + p) g k).showTarget (48 + p)).firstSwitched p tsw moved
    ⟨[], ((d.fillNow p).slot (48 + p) k).words, g.teff⟩) hp link u ((d.fillNow p).port p).held
  have hall := hcw2.trans hcw1
  refine ⟨hsame.trans hone, (Dev.portForce_congr hall p).trans ?_, (Dev.swOf_congr hall _).trans ?_⟩
  · exact (Dev.force_firstTaken hk hnone' g).trans (congrArg Slot.words (Dev.slot_congr hcw _ _))
  · rw [← Dev.swOf_congr hcw]
    exact (d.fillNow p).swOf_firstTaken (48 + p) k g

/-- The grids, the stages and the shedding that follow a first setup leave the ports. -/
theorem Dev.portSwitchStages_first (hreached : d.portDue p = true) (hdue : d.dueGroup (48 + p) = some (g, k)) (hnone : d.slotIn (48 + p) 3 = none)
    (hready : d.portLanesReady p g.teff (d.slot (48 + p) k).words = true) {f : Dev} {sw : Switch} {cap : List CapTake}
    (hsw : portSwitch p d.tdRule d = (f, some (sw, cap))) :
    ∃ e, d.portSwitchStages p = (e, some (sw, cap)) ∧ f.Keeps portKey e := by
  have hforce : d.portForce p = [] := Dev.force_of_none hnone
  have hgrids : d.endGrids p g.teff (d.slot (48 + p) k).words [] = d := rfl
  unfold Dev.portSwitchStages
  rw [hdue]
  dsimp only
  rw [hreached, hready, Dev.portRestarts_of_none hforce, hgrids, hsw]
  exact ⟨_, rfl, (f.keeps_portRegrid _ _ _ _ _).trans
    ((Dev.Keeps.refl _).foldl fun d s _ => (d.keeps_restartStages s).trans (Dev.keeps_shedStart _ _ _))⟩

/-- The rings, the capture writer, the lanes and the renderer, which follow a switch, leave the ports. -/
theorem keeps_switchPort {m : Mem} {e : Dev} {sw : Switch} {cap : List CapTake} (hsw : d.portSwitchStages p = (e, some (sw, cap))) :
    e.Keeps portKey (switchPort p ⟨m, d⟩).dev := by
  unfold switchPort
  dsimp only
  rw [hsw]
  refine .trans ?_ ((Dev.keeps_lanesOverflow _).trans (Dev.keeps_renderCheck _))
  exact .trans ((Dev.Keeps.refl e).foldl fun d k _ => (d.keeps_ringRestart _).ite (.refl d)) (keeps_captureAll _ _ _)

end Switch

theorem exec_portSwitchBoundary_first (s : State) (p : Fin 6) (g : Grp) (k : Nat) (hreached : s.dev.portDue p = true)
    (hdue : s.dev.dueGroup (48 + p) = some (g, k)) (hk : k < 16) (hnone : s.dev.slotIn (48 + p) 3 = none)
    (hready : s.dev.portLanesReady p g.teff (s.dev.slot (48 + p) k).words = true) :
    ∃ t, exec (.portSwitchBoundary p) s = .next t ∧ t.dev.linkState p = 1
      ∧ t.dev.portForce p = (s.dev.slot (48 + p) k).words ∧ t.dev.swOf (48 + p) = (s.dev.swOf (48 + p) + 1) % 2 ^ 28 := by
  obtain ⟨f, sw, cap, hsw, hone, hforce, hcount⟩ := portSwitch_first p.isLt hreached hdue hk hnone s.dev.tdRule
  obtain ⟨e, hstages, hkeep⟩ := Dev.portSwitchStages_first hreached hdue hnone hready hsw
  have hall := hkeep.trans (keeps_switchPort (m := s.mem) hstages)
  obtain ⟨hls, -⟩ := portKey_regs (l := 0) p.isLt (by decide)
  exact ⟨_, rfl, (Dev.linkState_congr (hall.rd hls)).trans hone, (Dev.portForce_congr hall.cw p).trans hforce,
    (Dev.swOf_congr hall.cw _).trans hcount⟩

end Sys2Proof.Machine

namespace Sys2Proof
open Sys2Proof.Machine

/-- Settles O16, command by command. -/
theorem portFaultsAndData : Obligations.PortFaultsAndData := by
  unfold Obligations.PortFaultsAndData
  exact ⟨exec_shLockLost, exec_embLockLost, exec_alignShift, exec_laneFault_unnamed, exec_linkRestartCmd, exec_release_clean, exec_release_crc,
    exec_release_fourth, exec_release_late, exec_outageSplit, exec_portSwitchBoundary_first⟩

end Sys2Proof
end

section
/-! SUPPORT. What a lane group's own steps leave as it was; physical lanes bound, spare and retired, and the records of their runs. -/
namespace Sys2Proof.Machine

/-! ### The work of a lane group -/

/-- d with the registers, events, lanes and records of e. -/
def Dev.withLaneWork (d e : Dev) : Dev :=
  { d with regs := e.regs, ev := e.ev, lanes := e.lanes, recSeq := e.recSeq, recPhys := e.recPhys, out := e.out }

/-- From d to e only the lanes' own state, records, events on their way, and registers that P does not name have changed. -/
def Dev.LaneWork (P : Nat → Prop) (d e : Dev) : Prop := e = d.withLaneWork e ∧ ∀ j, P j → e.rd j = d.rd j

section LaneWork
variable {P : Nat → Prop} {a d e : Dev}

theorem Dev.LaneWork.refl (d : Dev) : d.LaneWork P d := ⟨rfl, fun _ _ => rfl⟩

theorem Dev.LaneWork.trans (had : a.LaneWork P d) (hde : d.LaneWork P e) : a.LaneWork P e :=
  ⟨hde.1.trans ((congrArg (Dev.withLaneWork · e) had.1).trans rfl), fun j hj => (hde.2 j hj).trans (had.2 j hj)⟩

theorem Dev.LaneWork.rd (h : d.LaneWork P e) {j : Nat} (hj : P j) : e.rd j = d.rd j := h.2 j hj

/-- What does not look at the lanes' work is the same. -/
theorem Dev.LaneWork.view {α : Type} (h : d.LaneWork P e) (v : Dev → α) (hv : ∀ d e : Dev, v (d.withLaneWork e) = v d) : v e = v d :=
  (congrArg v h.1).trans (hv d e)

theorem Dev.LaneWork.cw (h : d.LaneWork P e) : e.cw = d.cw := h.view Dev.cw fun _ _ => rfl

theorem Dev.LaneWork.now (h : d.LaneWork P e) : e.now = d.now := h.view Dev.now fun _ _ => rfl

theorem Dev.LaneWork.streams (h : d.LaneWork P e) : e.streams = d.streams := h.view Dev.streams fun _ _ => rfl

theorem Dev.LaneWork.sump (h : d.LaneWork P e) : e.sump = d.sump := h.view Dev.sump fun _ _ => rfl

theorem Dev.LaneWork.group (h : d.LaneWork P e) (g : Nat) : e.group g = d.group g := h.view (Dev.group · g) fun _ _ => rfl

theorem Dev.LaneWork.keeps (h : d.LaneWork P e) : d.Keeps P e := ⟨⟨h.view Dev.tb fun _ _ => rfl, h.2⟩, h.cw, h.view Dev.ports fun _ _ => rfl⟩

theorem Dev.LaneWork.wr (h : a.LaneWork P d) {k : Nat} (hk : ¬ P k) (v : Word) : a.LaneWork P (d.wr k v) :=
  h.trans ⟨rfl, fun _ hj => Dev.rd_wr_ne d v (ne_of_named hj hk)⟩

theorem Dev.LaneWork.wr64 (h : a.LaneWork P d) {lo hi : Nat} (hlo : ¬ P lo) (hhi : ¬ P hi) (v : Nat) : a.LaneWork P (d.wr64 lo hi v) :=
  (h.wr hlo _).wr hhi _

theorem Dev.LaneWork.putB (h : a.LaneWork P d) {k : Nat} (hk : ¬ P k) (i : Nat) (b : Bool) : a.LaneWork P (d.putB k i b) := by
  cases b <;> exact h.wr hk _

theorem Dev.LaneWork.ite {c : Prop} [Decidable c] (hd : a.LaneWork P d) (he : a.LaneWork P e) : a.LaneWork P (if c then d else e) := by
  split
  · exact hd
  · exact he

theorem Dev.LaneWork.event (h : a.LaneWork P d) {st n : Nat} (hst : ¬ P st) (hev : ¬ P (Reg.EV_SEQ n)) : a.LaneWork P (d.event st n) :=
  h.trans ⟨rfl, fun _ hj => Dev.rd_event_ne d st n (ne_of_named hj hst) (ne_of_named hj hev)⟩

theorem Dev.LaneWork.sqEvent (h : a.LaneWork P d) {st n : Nat} (b : Nat) (hst : ¬ P st) (hev : ¬ P (Reg.EV_SEQ n)) :
    a.LaneWork P (d.sqEvent st b n) := h.ite ((h.wr hst _).event hst hev)

theorem Dev.work_setLane (d : Dev) (l : Nat) (x : LaneSt) : d.LaneWork P (d.setLane l x) := ⟨rfl, fun _ _ => rfl⟩

theorem Dev.work_emit (d : Dev) (r : Nat) (h : Hdr) (payload : List Word128) : d.LaneWork P (d.emit r h payload) := ⟨rfl, fun _ _ => rfl⟩

end LaneWork

/-! ### Records of a lane's runs (R126 to R128, R133) -/

section Runs
variable {P : Nat → Prop} (d : Dev) (l : Nat)

theorem Dev.work_laneGap (cause ckind count t0 t1 : Nat) (cont : Bool) : d.LaneWork P (d.laneGap l cause ckind count t0 t1 cont) := d.work_emit _ _ _

/-- A GAP record waits in the region of its lane. -/
theorem Dev.length_outOf_laneGap (cause ckind count t0 t1 : Nat) (cont : Bool) :
    ((d.laneGap l cause ckind count t0 t1 cont).outOf (48 + l)).length = (d.outOf (48 + l)).length + 1 :=
  (congrArg List.length (Dev.outOf_push_self ..)).trans List.length_append

theorem Dev.work_laneGapSplit (cause fuel t0 t1 : Nat) : d.LaneWork P (d.laneGapSplit l cause fuel t0 t1) := by
  induction fuel generalizing d t0 with
  | zero => exact d.work_laneGap _ _ _ _ _ _ _
  | succ fuel ih => exact ((d.work_laneGap _ _ _ _ _ _ _).trans (ih _ _)).ite (d.work_laneGap _ _ _ _ _ _ _)

theorem Dev.lane_laneGapSplit (cause fuel t0 t1 m : Nat) : (d.laneGapSplit l cause fuel t0 t1).lane m = d.lane m := by
  induction fuel generalizing d t0 with
  | zero => rfl
  | succ fuel ih =>
    unfold Dev.laneGapSplit
    split
    · exact ih _ _
    · rfl

theorem Dev.work_endFill (t1 : Nat) : d.LaneWork P (d.endFill l t1) := by
  unfold Dev.endFill
  split
  · exact ((d.work_setLane _ _).trans (Dev.work_laneGapSplit _ _ _ _ _ _)).ite (d.work_setLane _ _)
  · exact .refl d

theorem Dev.work_endOverrun (t1 : Nat) : d.LaneWork P (d.endOverrun l t1) := by
  unfold Dev.endOverrun
  split
  · exact (d.work_setLane _ _).trans (Dev.work_laneGap _ _ _ _ _ _ _ _)
  · exact .refl d

theorem Dev.work_skipFrames (n : Nat) : d.LaneWork P (d.skipFrames l n) := d.work_setLane _ _

end Runs

/-! ### Physical lanes and the spare (R102, R138) -/

/-- The registers that bind the physical lanes of the groups. -/
def mapKey (j : Nat) : Prop := j < 0x100000 ∧ (j % 0x10000 = 4 ∨ j % 0x10000 = 8)

theorem mapKey_lo {g : Nat} (h : g < 8) : mapKey (Reg.GRP_MAP_LO g) := by unfold mapKey Reg.GRP_MAP_LO; omega

theorem mapKey_hi {g : Nat} (h : g < 8) : mapKey (Reg.GRP_MAP_HI g) := by unfold mapKey Reg.GRP_MAP_HI; omega

theorem not_mapKey_evSeq (n : Nat) : ¬ mapKey (Reg.EV_SEQ n) := by unfold mapKey Reg.EV_SEQ; omega

theorem Dev.laneNib_lt (d : Dev) (l : Nat) : d.laneNib l < 16 := by
  unfold Dev.laneNib
  dsimp only
  split <;> exact fld_lt _ _ 4

theorem Dev.spareOf_lt (d : Dev) (g : Nat) : d.spareOf g < 16 := fld_lt _ _ 4

theorem Dev.laneNib_congr {d e : Dev} {l : Nat} (hl : l < 96) (h : ∀ j, mapKey j → e.rd j = d.rd j) : e.laneNib l = d.laneNib l := by
  have hg : l / 12 < 8 := by omega
  unfold Dev.laneNib
  dsimp only
  rw [Dev.f_congr _ _ (h _ (mapKey_lo hg)), Dev.f_congr _ _ (h _ (mapKey_hi hg))]

theorem Dev.spareOf_congr {d e : Dev} {g : Nat} (hg : g < 8) (h : ∀ j, mapKey j → e.rd j = d.rd j) : e.spareOf g = d.spareOf g :=
  Dev.f_congr _ _ (h _ (mapKey_hi hg))

section Bind
variable {P : Nat → Prop} (d : Dev) {l g q : Nat}

/-- The registers that bind and show a lane. -/
def bindKeys (l : Nat) : List Nat := [Reg.GRP_MAP_LO (l / 12), Reg.GRP_MAP_HI (l / 12), Reg.LANE_INFO (l / 12) (l % 12)]

theorem Dev.work_showLane (hP : ¬ P (Reg.LANE_INFO (l / 12) (l % 12))) : d.LaneWork P (d.showLane l) := (Dev.LaneWork.refl d).wr hP _

theorem Dev.work_bindLane (hP : ∀ k ∈ bindKeys l, ¬ P k) : d.LaneWork P (d.bindLane l q) := by
  have h := (Dev.LaneWork.refl (P := P) d)
  exact ((h.wr (hP _ (by simp [bindKeys])) _).ite (h.wr (hP _ (by simp [bindKeys])) _)).wr (hP _ (by simp [bindKeys])) _

theorem Dev.lane_bindLane (m : Nat) : (d.bindLane l q).lane m = d.lane m := by unfold Dev.bindLane; dsimp only; split <;> rfl

theorem Dev.outOf_bindLane (r : Nat) : (d.bindLane l q).outOf r = d.outOf r := by unfold Dev.bindLane; dsimp only; split <;> rfl

/-- The map once a lane is bound. -/
theorem Dev.laneNib_bindLane (hq : q < 16) : (d.bindLane l q).laneNib l = q := by
  have hlo : Reg.GRP_MAP_LO (l / 12) ≠ Reg.LANE_INFO (l / 12) (l % 12) := by unfold Reg.GRP_MAP_LO Reg.LANE_INFO; omega
  have hhi : Reg.GRP_MAP_HI (l / 12) ≠ Reg.LANE_INFO (l / 12) (l % 12) := by unfold Reg.GRP_MAP_HI Reg.LANE_INFO; omega
  unfold Dev.laneNib Dev.bindLane
  dsimp only
  split
  next hi => exact (Dev.f_congr _ _ (Dev.rd_wr_ne _ _ hlo)).trans ((Dev.f_wrF_self d _ _ _ q (by omega)).trans (Nat.mod_eq_of_lt hq))
  next hi => exact (Dev.f_congr _ _ (Dev.rd_wr_ne _ _ hhi)).trans ((Dev.f_wrF_self d _ _ _ q (by omega)).trans (Nat.mod_eq_of_lt hq))

theorem Dev.f_wrF_ne (k v : Nat) {lo len a b : Nat} (h : lo + len ≤ 32) (hne : a + b ≤ lo ∨ lo + len ≤ a) : (d.wrF k lo len v).f k a b = d.f k a b := by
  rw [Dev.f, Dev.rd_wrF, if_pos rfl]
  exact fld_put_ne _ _ _ _ _ _ h hne

/-- A bound lane leaves the spare of the group alone. -/
theorem Dev.spareOf_bindLane (q : Nat) : (d.bindLane l q).spareOf (l / 12) = d.spareOf (l / 12) := by
  have hhi : Reg.GRP_MAP_HI (l / 12) ≠ Reg.LANE_INFO (l / 12) (l % 12) := by unfold Reg.GRP_MAP_HI Reg.LANE_INFO; omega
  have hlo : Reg.GRP_MAP_HI (l / 12) ≠ Reg.GRP_MAP_LO (l / 12) := by unfold Reg.GRP_MAP_HI Reg.GRP_MAP_LO; omega
  unfold Dev.bindLane
  dsimp only
  refine (Dev.f_congr _ _ (Dev.rd_wr_ne _ _ hhi)).trans ?_
  split
  · exact Dev.f_congr _ _ (Dev.rd_wr_ne _ _ hlo)
  · exact d.f_wrF_ne _ _ (by omega) (by omega)

/-- The registers that name and show the spare of a group. -/
def spareKeys (g : Nat) : List Nat := [Reg.GRP_MAP_HI g, Reg.GRP_STATUS g, Reg.DET_STATUS g]

theorem Dev.work_rotStopped (hst : ¬ P (Reg.GRP_STATUS g)) (hdet : ¬ P (Reg.DET_STATUS g)) : d.LaneWork P (d.rotStopped g) := by
  have h := (Dev.LaneWork.refl (P := P) d).putB hst 2 (d.derated || d.spareOf g = 15)
  exact ((h.wr hdet _).wr hdet _).ite h

theorem Dev.work_setSpare (hP : ∀ k ∈ spareKeys g, ¬ P k) : d.LaneWork P (d.setSpare g q) := by
  have hst := hP (Reg.GRP_STATUS g) (by simp [spareKeys])
  exact (((Dev.LaneWork.refl d).wr (hP _ (by simp [spareKeys])) _).putB hst _ _).trans (Dev.work_rotStopped _ hst (hP _ (by simp [spareKeys])))

theorem Dev.lane_setSpare (m : Nat) : (d.setSpare g q).lane m = d.lane m := by
  unfold Dev.setSpare Dev.rotStopped Dev.putB
  dsimp only
  split_ifs <;> rfl

theorem Dev.outOf_setSpare (r : Nat) : (d.setSpare g q).outOf r = d.outOf r := by
  unfold Dev.setSpare Dev.rotStopped Dev.putB
  dsimp only
  split_ifs <;> rfl

/-- Of the map, the spare alone is written. -/
theorem Dev.map_setSpare {j : Nat} (hj : mapKey j) : (d.setSpare g q).rd j = (d.wrF (Reg.GRP_MAP_HI g) 28 4 q).rd j := by
  have hst : ¬ mapKey (Reg.GRP_STATUS g) := by unfold mapKey Reg.GRP_STATUS; omega
  have hdet : ¬ mapKey (Reg.DET_STATUS g) := by unfold mapKey Reg.DET_STATUS; omega
  exact (((Dev.LaneWork.refl (d.wrF (Reg.GRP_MAP_HI g) 28 4 q)).putB hst _ _).trans (Dev.work_rotStopped _ hst hdet)).rd hj

theorem Dev.spareOf_setSpare (hg : g < 4) (hq : q < 16) : (d.setSpare g q).spareOf g = q :=
  (Dev.f_congr _ _ (d.map_setSpare (mapKey_hi (by omega)))).trans ((Dev.f_wrF_self d _ _ _ q (by decide)).trans (Nat.mod_eq_of_lt hq))

theorem Dev.laneNib_setSpare (hl : l < 96) : (d.setSpare g q).laneNib l = d.laneNib l := by
  refine (Dev.laneNib_congr hl fun j hj => d.map_setSpare hj).trans ?_
  have hlo : Reg.GRP_MAP_LO (l / 12) ≠ Reg.GRP_MAP_HI g := by unfold Reg.GRP_MAP_HI Reg.GRP_MAP_LO; omega
  unfold Dev.laneNib
  dsimp only
  split
  · exact Dev.f_congr _ _ (Dev.rd_wr_ne _ _ hlo)
  · by_cases hlg : l / 12 = g
    · rw [hlg]
      exact d.f_wrF_ne _ _ (by decide) (by omega)
    · have hhi : Reg.GRP_MAP_HI (l / 12) ≠ Reg.GRP_MAP_HI g := by unfold Reg.GRP_MAP_HI; omega
      exact Dev.f_congr _ _ (Dev.rd_wr_ne _ _ hhi)

/-- The registers that tell of a retired lane. -/
def retireKeys (g : Nat) : List Nat :=
  [Reg.GRP_RETIRED g, Reg.GRP_STATUS g, Reg.EV_SEQ (1440 + 4 * g + 0), Reg.ROT_TIME_LO g, Reg.ROT_TIME_HI g]

theorem Dev.work_grpEvent (b e : Nat) (hst : ¬ P (Reg.GRP_STATUS g)) (hev : ¬ P (Reg.EV_SEQ (1440 + 4 * g + e))) : d.LaneWork P (d.grpEvent g b e) :=
  (Dev.LaneWork.refl d).sqEvent b hst hev

theorem Dev.work_retireLane (hP : ∀ k ∈ retireKeys g, ¬ P k) : d.LaneWork P (d.retireLane g q) := by
  have h := ((Dev.LaneWork.refl d).wr (hP (Reg.GRP_RETIRED g) (by simp [retireKeys])) (d.rd (Reg.GRP_RETIRED g) ||| BitVec.ofNat 32 (2 ^ q))).sqEvent 4
    (hP (Reg.GRP_STATUS g) (by simp [retireKeys])) (hP (Reg.EV_SEQ (1440 + 4 * g + 0)) (by simp [retireKeys]))
  exact h.wr64 (hP _ (by simp [retireKeys])) (hP _ (by simp [retireKeys])) _

theorem not_mapKey_retireKeys (g : Nat) : ∀ k ∈ retireKeys g, ¬ mapKey k := by
  simp only [retireKeys, List.mem_cons, List.not_mem_nil, or_false, forall_eq_or_imp, forall_eq, mapKey, Reg.GRP_RETIRED, Reg.GRP_STATUS, Reg.EV_SEQ,
    Reg.ROT_TIME_LO, Reg.ROT_TIME_HI]
  omega

theorem grpStatus_ne_evSeq (hg : g < 4) (n : Nat) : Reg.GRP_STATUS g ≠ Reg.EV_SEQ n := by unfold Reg.GRP_STATUS Reg.EV_SEQ; omega

/-- A retired lane stands in GRP_RETIRED, and the group's status tells of it. -/
theorem Dev.on_retireLane (hg : g < 4) (hq : q < 16) :
    (d.retireLane g q).on (Reg.GRP_RETIRED g) q = true ∧ (d.retireLane g q).on (Reg.GRP_STATUS g) 4 = true := by
  have hret : Reg.GRP_RETIRED g ≠ Reg.GRP_STATUS g ∧ Reg.GRP_RETIRED g ≠ Reg.EV_SEQ (1440 + 4 * g + 0) ∧ Reg.GRP_RETIRED g ≠ Reg.ROT_TIME_LO g
      ∧ Reg.GRP_RETIRED g ≠ Reg.ROT_TIME_HI g := by
    unfold Reg.GRP_RETIRED Reg.GRP_STATUS Reg.EV_SEQ Reg.ROT_TIME_LO Reg.ROT_TIME_HI; omega
  have hst : Reg.GRP_STATUS g ≠ Reg.ROT_TIME_LO g ∧ Reg.GRP_STATUS g ≠ Reg.ROT_TIME_HI g := by
    unfold Reg.GRP_STATUS Reg.ROT_TIME_LO Reg.ROT_TIME_HI; omega
  constructor
  · refine (Dev.on_congr q (Dev.rd_wr64_ne _ _ hret.2.2.1 hret.2.2.2)).trans ((Dev.on_congr q (Dev.rd_sqEvent_ne _ _ hret.1 hret.2.1)).trans ?_)
    exact Dev.on_setB_self d _ q (by omega)
  · refine (Dev.on_congr 4 (Dev.rd_wr64_ne _ _ hst.1 hst.2)).trans ?_
    exact (Dev.on_sqEvent _ _ _ _ (by decide) (by decide) (grpStatus_ne_evSeq hg _)).trans (by simp)

end Bind

/-! ### Lanes in use, and the physical lanes left for them (R103, R132, R133) -/

theorem Dev.governing_congr {d e : Dev} (h : e.cw = d.cw) (l : Nat) : e.governing l = d.governing l := by
  unfold Dev.governing
  rw [Dev.portForce_congr h]

theorem Dev.laneForce_congr {d e : Dev} (h : e.cw = d.cw) (l : Nat) : e.laneForce l = d.laneForce l := by
  rw [Dev.laneForce, Dev.laneForce, Dev.governing_congr h, Dev.force_congr h]

theorem Dev.laneWanted_congr {d e : Dev} (h : e.cw = d.cw) (l : Nat) : e.laneWanted l = d.laneWanted l := by
  rw [Dev.laneWanted, Dev.laneWanted, Dev.portForce_congr h, Dev.laneForce_congr h]

theorem div_of_mem_groupLanes {g l : Nat} (h : l ∈ groupLanes g) : l / 12 = g := by
  obtain ⟨i, hi, rfl⟩ := List.mem_map.mp h
  have := List.mem_range.mp hi
  omega

theorem Dev.takeable_congr {d e : Dev} {g : Nat} (hg : g < 4) (hcw : e.cw = d.cw) (hmap : ∀ j, mapKey j → e.rd j = d.rd j)
    (hgroup : e.group g = d.group g) : e.takeable g = d.takeable g := by
  have hidle : ∀ m ∈ groupLanes g, (!e.laneWanted m && decide (e.laneNib m ≠ 15)) = (!d.laneWanted m && decide (d.laneNib m ≠ 15)) := fun m hm => by
    have hdiv := div_of_mem_groupLanes hm
    rw [Dev.laneWanted_congr hcw, Dev.laneNib_congr (by omega) hmap]
  unfold Dev.takeable
  rw [Dev.spareOf_congr (by omega) hmap, hgroup, List.filter_congr hidle]

theorem Dev.group_setGroup_self (d : Dev) (g : Nat) (x : GroupSt) : (d.setGroup g x).group g = x :=
  (Tab.get_set (α := GroupSt) _ _ g g x).trans (if_pos rfl)

theorem Dev.lane_setLane_self (d : Dev) (l : Nat) (x : LaneSt) : (d.setLane l x).lane l = x := by simp

end Sys2Proof.Machine
end

section
/-! SUPPORT. Rotations, faults and takeovers of lanes, and the proof of the statement about them. -/
namespace Sys2Proof.Machine

/-! ### Rotations (R129, R130) -/

/-- A group whose spare shadows lane l over 2^OVL frames, from now on. -/
def Dev.shadowGroup (d : Dev) (g l : Nat) : GroupSt :=
  let j := (d.lane l).next
  { d.group g with
    shadow := some ⟨l, j, j + 2 ^ fld (wd (d.force (d.governing l)) 0) 116 3, false, false⟩, lastLane := l % 12, rotAt := d.up }

def Dev.shadowBegun (d : Dev) (g l : Nat) : Dev := (d.setGroup g (d.shadowGroup g l)).setB (Reg.GRP_STATUS g) 1

theorem Dev.group_shadowBegun (d : Dev) (g l : Nat) : (d.shadowBegun g l).group g = d.shadowGroup g l :=
  Dev.group_setGroup_self d g (d.shadowGroup g l)

theorem exec_rotationStart (s : State) (g : Fin 4) (l : Nat) (hnext : s.dev.nextRelieved g = some l) (hen : s.dev.rotEnabled = true)
    (hfloor : s.dev.derated = false) (hspare : s.dev.spareOf g ≠ 15) (hok : (s.dev.group g).katOk = true) (hfree : (s.dev.group g).shadow = none)
    (hwait : (s.dev.group g).takeover = []) (hgrid : (s.dev.lane (s.dev.governing l)).gridOn = true) (hver : s.dev.on (Reg.DET_STATUS g) 1 = false)
    (hperiod : (s.dev.group g).rotAt = 0 ∨ elapsedNs (s.dev.group g).rotAt s.dev.up (s.dev.f Reg.SEEP_CTRL 0 12 * 1000000000) = true)
    (hlast : s.dev.switchBefore g (s.dev.tagOf (s.dev.governing l)
      (s.dev.frameStart (s.dev.governing l) ((s.dev.lane l).next + 2 ^ fld (wd (s.dev.force (s.dev.governing l)) 0) 116 3 - 1)
        + laneN (s.dev.force (s.dev.governing l)))) = false) :
    ∃ t, exec (.rotationStart g) s = .next t ∧ t.dev.on (Reg.GRP_STATUS g) 1 = true ∧ (t.dev.group g).rotAt = s.dev.up
      ∧ (∃ sh, (t.dev.group g).shadow = some sh ∧ sh.lane = l ∧ sh.first = (s.dev.lane l).next
        ∧ sh.stop = (s.dev.lane l).next + 2 ^ fld (wd (s.dev.force (s.dev.governing l)) 0) 116 3 ∧ sh.cut = false)
      ∧ ∀ j, j ≠ Reg.GRP_STATUS g → t.dev.rd j = s.dev.rd j := by
  have hstart : rotationStart g s.dev = s.dev.shadowBegun g l := by
    unfold rotationStart
    dsimp only
    rw [hnext]
    exact if_pos ⟨hen, by simp [hfloor], hspare, hok, by simp [hfree], by simp [hwait], hgrid, by simp [hver], hperiod, by simp [hlast]⟩
  have hgroup := s.dev.group_shadowBegun g l
  exact ⟨_, next_congr hstart, Dev.on_setB_self _ _ _ (by decide), congrArg GroupSt.rotAt hgroup,
    ⟨_, congrArg GroupSt.shadow hgroup, rfl, rfl, rfl, rfl⟩, fun _ hj => Dev.rd_setB_ne _ _ hj⟩

theorem Dev.group_endShadow (d : Dev) (g : Nat) : (d.endShadow g).group g = { d.group g with shadow := none, katOk := false } :=
  Dev.group_setGroup_self ..

theorem Dev.rd_endShadow_ne (d : Dev) {g j : Nat} (h : j ≠ Reg.GRP_STATUS g) : (d.endShadow g).rd j = d.rd j := Dev.rd_clrB_ne _ _ h

theorem Dev.map_endShadow (d : Dev) (g : Nat) {j : Nat} (hj : mapKey j) : (d.endShadow g).rd j = d.rd j :=
  d.rd_endShadow_ne (by unfold mapKey at hj; unfold Reg.GRP_STATUS; omega)

/-- The lane that a shadow relieved runs on the former spare, and shows it. -/
def Dev.relieved (d : Dev) (g l : Nat) : Dev :=
  let e := d.endShadow g
  (e.bindLane l (e.spareOf g)).showLane l

theorem Dev.work_relieved {P : Nat → Prop} (d : Dev) (g : Nat) {l : Nat} (hP : ∀ k ∈ bindKeys l, ¬ P k) :
    (d.endShadow g).LaneWork P (d.relieved g l) :=
  (Dev.work_bindLane _ hP).trans (Dev.work_showLane _ (hP _ (by simp [bindKeys])))

theorem not_mapKey_laneInfo (g i : Nat) (hi : i < 12) : ¬ mapKey (Reg.LANE_INFO g i) := by unfold mapKey Reg.LANE_INFO; omega

theorem Dev.laneNib_relieved (d : Dev) {g l : Nat} (hg : g < 4) (hl : l / 12 = g) : (d.relieved g l).laneNib l = d.spareOf g := by
  have hshow := Dev.work_showLane (P := mapKey) ((d.endShadow g).bindLane l ((d.endShadow g).spareOf g)) (l := l) (not_mapKey_laneInfo _ _ (by omega))
  exact (Dev.laneNib_congr (by omega) hshow.2).trans ((Dev.laneNib_bindLane _ (Dev.spareOf_lt _ _)).trans
    (Dev.spareOf_congr (by omega) fun j hj => d.map_endShadow g hj))

/-- A rotation is complete: lane l runs on the former spare, and the relieved physical lane is the spare. -/
def Dev.handedOver (d : Dev) (g l : Nat) : Dev := (((d.relieved g l).addSat (Reg.ROT_COUNT g) 1).setSpare g (d.laneNib l)).rotTime g

/-- The end of a shadow whose comparisons all agreed (R130). -/
theorem Dev.completeShadow_of_agreed {d : Dev} {g : Nat} {sh : Shadow} (hsh : (d.group g).shadow = some sh) (hok : sh.mismatch = false) :
    d.completeShadow g = d.handedOver g sh.lane := by
  unfold Dev.completeShadow
  rw [hsh]
  dsimp only
  rw [hok]
  rfl

section HandedOver
variable (d : Dev) {g l : Nat}

theorem Dev.map_rotTime {j : Nat} (hj : mapKey j) : (d.rotTime g).rd j = d.rd j :=
  ((Dev.LaneWork.refl d).wr64 (P := mapKey) (by unfold mapKey Reg.ROT_TIME_LO; omega) (by unfold mapKey Reg.ROT_TIME_HI; omega) _).rd hj

theorem Dev.map_countRotation {j : Nat} (hj : mapKey j) : (d.addSat (Reg.ROT_COUNT g) 1).rd j = d.rd j :=
  Dev.rd_addSat_ne d 1 (by unfold mapKey at hj; unfold Reg.ROT_COUNT; omega)

theorem Dev.laneNib_handedOver (hg : g < 4) (hl : l / 12 = g) : (d.handedOver g l).laneNib l = d.spareOf g := by
  have hl96 : l < 96 := by omega
  rw [Dev.handedOver, Dev.laneNib_congr hl96 fun _ hj => Dev.map_rotTime _ hj, Dev.laneNib_setSpare _ hl96,
    Dev.laneNib_congr hl96 fun _ hj => Dev.map_countRotation _ hj, d.laneNib_relieved hg hl]

theorem Dev.spareOf_handedOver (hg : g < 4) : (d.handedOver g l).spareOf g = d.laneNib l := by
  rw [Dev.handedOver, Dev.spareOf_congr (by omega) fun _ hj => Dev.map_rotTime _ hj, Dev.spareOf_setSpare _ hg (Dev.laneNib_lt _ _)]

theorem rotCount_notMem {g : Nat} (l : Nat) : Reg.ROT_COUNT g ∉ bindKeys l ∧ Reg.ROT_COUNT g ∉ spareKeys g := by
  simp only [bindKeys, spareKeys, List.mem_cons, List.not_mem_nil, or_false, Reg.GRP_MAP_LO, Reg.GRP_MAP_HI, Reg.LANE_INFO, Reg.GRP_STATUS,
    Reg.DET_STATUS, Reg.ROT_COUNT]
  omega

/-- A key off a list is not of it. -/
theorem not_eq_of_notMem {k : Nat} {l : List Nat} (h : k ∉ l) : ∀ j ∈ l, ¬ j = k := fun _ hj he => h (he ▸ hj)

theorem Dev.n_handedOver_count : (d.handedOver g l).n (Reg.ROT_COUNT g) = min (d.n (Reg.ROT_COUNT g) + 1) (2 ^ 32 - 1) := by
  obtain ⟨hbind, hspare⟩ := rotCount_notMem (g := g) l
  have hrel := (d.work_relieved (P := (· = Reg.ROT_COUNT g)) g (not_eq_of_notMem hbind)).rd rfl
  have hset := (Dev.work_setSpare (P := (· = Reg.ROT_COUNT g)) ((d.relieved g l).addSat (Reg.ROT_COUNT g) 1) (q := d.laneNib l)
    (not_eq_of_notMem hspare)).rd rfl
  have htime (e : Dev) : (e.rotTime g).rd (Reg.ROT_COUNT g) = e.rd (Reg.ROT_COUNT g) :=
    Dev.rd_wr64_ne _ _ (by unfold Reg.ROT_COUNT Reg.ROT_TIME_LO; omega) (by unfold Reg.ROT_COUNT Reg.ROT_TIME_HI; omega)
  rw [Dev.handedOver, Dev.n_congr (htime _), Dev.n_congr hset, Dev.n_addSat_self, Dev.n_congr hrel,
    Dev.n_congr (d.rd_endShadow_ne (by unfold Reg.ROT_COUNT Reg.GRP_STATUS; omega))]

/-- Registers and events apart, the shadow's end is all that has happened. -/
theorem Dev.work_handedOver : (d.endShadow g).LaneWork (fun _ => False) (d.handedOver g l) :=
  (((d.work_relieved g fun _ _ => id).wr id _).trans (Dev.work_setSpare _ fun _ _ => id)).wr64 id id _

theorem Dev.n64_handedOver_time : (d.handedOver g l).n64 (Reg.ROT_TIME_LO g) (Reg.ROT_TIME_HI g) = shortTime d.now := by
  have hnow := (((d.work_relieved (P := fun _ => False) g (l := l) fun _ _ => id).wr (k := Reg.ROT_COUNT g) id
    (BitVec.ofNat 32 (satAdd 32 ((d.relieved g l).n (Reg.ROT_COUNT g)) 1))).trans (Dev.work_setSpare _ (q := d.laneNib l) (g := g) fun _ _ => id)).now
  exact (Dev.n64_wr64_self _ (by unfold Reg.ROT_TIME_LO Reg.ROT_TIME_HI; omega) (shortTime_lt _)).trans (congrArg shortTime hnow)

theorem Dev.group_handedOver : (d.handedOver g l).group g = { d.group g with shadow := none, katOk := false } :=
  (d.work_handedOver.group g).trans (d.group_endShadow g)

end HandedOver

theorem exec_rotationHandover (s : State) (g : Fin 4) (sh : Shadow) (hsh : (s.dev.group g).shadow = some sh)
    (hover : sh.stop ≤ (s.dev.lane sh.lane).next) (hok : sh.mismatch = false) (hcut : sh.cut = false) (hlane : sh.lane / 12 = g.val)
    (_ : s.dev.laneNib sh.lane ≠ 15) :
    ∃ t, exec (.rotationHandover g) s = .next t ∧ t.dev.laneNib sh.lane = s.dev.spareOf g ∧ t.dev.spareOf g = s.dev.laneNib sh.lane
      ∧ (t.dev.group g).shadow = none ∧ (t.dev.group g).katOk = false
      ∧ t.dev.n (Reg.ROT_COUNT g) = min (s.dev.n (Reg.ROT_COUNT g) + 1) (2 ^ 32 - 1)
      ∧ t.dev.n64 (Reg.ROT_TIME_LO g) (Reg.ROT_TIME_HI g) = shortTime s.dev.now := by
  have hhand : rotationHandover g s.dev = s.dev.handedOver g sh.lane := by
    unfold rotationHandover
    rw [hsh]
    dsimp only
    rw [if_neg (by simp [hcut, hover]), Dev.completeShadow_of_agreed hsh hok]
  have hgroup := s.dev.group_handedOver (g := g) (l := sh.lane)
  exact ⟨_, next_congr hhand, s.dev.laneNib_handedOver g.isLt hlane, s.dev.spareOf_handedOver g.isLt, congrArg GroupSt.shadow hgroup,
    congrArg GroupSt.katOk hgroup, s.dev.n_handedOver_count, s.dev.n64_handedOver_time⟩

/-! ### The spare's tests and faults (R131, R429) -/

theorem exec_spareFault (s : State) (g : Fin 4) (sh : Shadow) (hsh : (s.dev.group g).shadow = some sh) :
    ∃ t, exec (.spareFault g) s = .next t ∧ (t.dev.group g).shadow = none ∧ t.dev.spareOf g = 15
      ∧ t.dev.on (Reg.GRP_RETIRED g) (s.dev.spareOf g) = true ∧ t.dev.on (Reg.GRP_STATUS g) 4 = true
      ∧ t.dev.sump.reports.length = s.dev.sump.reports.length + 1 := by
  have hfault : spareFault g s.dev
      = (((s.dev.endShadow g).setSpare g 15).retireLane g (s.dev.spareOf g)).report 0x03 (0x2000 + 13 * g + s.dev.spareOf g) 24 := by
    unfold spareFault
    rw [hsh]
  have hwork : (s.dev.endShadow g).LaneWork (fun _ => False) (((s.dev.endShadow g).setSpare g 15).retireLane g (s.dev.spareOf g)) :=
    (Dev.work_setSpare _ fun _ _ => id).trans (Dev.work_retireLane _ fun _ _ => id)
  have hret := Dev.work_retireLane ((s.dev.endShadow g).setSpare g 15) (q := s.dev.spareOf g) (not_mapKey_retireKeys g)
  obtain ⟨hbit, hevent⟩ := Dev.on_retireLane ((s.dev.endShadow g).setSpare g 15) g.isLt (s.dev.spareOf_lt g)
  exact ⟨_, next_congr hfault, congrArg GroupSt.shadow ((hwork.group g).trans (s.dev.group_endShadow g)),
    (Dev.spareOf_congr (by omega) hret.2).trans (Dev.spareOf_setSpare _ g.isLt (by decide)), hbit, hevent,
    List.length_append.trans (congrArg (fun x : SumpSt => x.reports.length + 1) hwork.sump)⟩

theorem exec_spareKatStart (s : State) (g : Fin 4) (hspare : s.dev.spareOf g ≠ 15) (hfree : (s.dev.group g).shadow = none)
    (hidle : (s.dev.group g).katRun = false) :
    ∃ t, exec (.spareKatStart g) s = .next t ∧ (t.dev.group g).katRun = true ∧ (t.dev.group g).katOk = false ∧ ∀ j, t.dev.rd j = s.dev.rd j := by
  have hstart : spareKatStart g s.dev = s.dev.setGroup g { s.dev.group g with katRun := true, katOk := false } :=
    if_pos ⟨hspare, by simp [hfree], by simp [hidle]⟩
  have hgroup := s.dev.group_setGroup_self g { s.dev.group g with katRun := true, katOk := false }
  exact ⟨_, next_congr hstart, congrArg GroupSt.katRun hgroup, congrArg GroupSt.katOk hgroup, fun _ => rfl⟩

theorem exec_spareKatEnd_passed (s : State) (g : Fin 4) (hrun : (s.dev.group g).katRun = true) :
    ∃ t, exec (.spareKatEnd g true) s = .next t ∧ (t.dev.group g).katRun = false ∧ (t.dev.group g).katOk = true ∧ ∀ j, t.dev.rd j = s.dev.rd j := by
  have hend : spareKatEnd g true s.dev = s.dev.setGroup g { s.dev.group g with katRun := false, katOk := true } := if_pos hrun
  have hgroup := s.dev.group_setGroup_self g { s.dev.group g with katRun := false, katOk := true }
  exact ⟨_, next_congr hend, congrArg GroupSt.katRun hgroup, congrArg GroupSt.katOk hgroup, fun _ => rfl⟩

/-- The registers in which the floor tells of a finding and of a full log. -/
def findKeys : List Nat := [Reg.FL_STATUS, Reg.EV_SEQ 1505, Reg.LOG_OVERFLOW]

theorem Dev.keeps_seepFind {P : Nat → Prop} (d : Dev) (code root port : Nat) (hP : ∀ k ∈ findKeys, ¬ P k) : d.Keeps P (d.seepFind code root port) :=
  ((Dev.Keeps.refl d).sqEvent 11 (hP _ (by simp [findKeys])) (hP (Reg.EV_SEQ 1505) (by simp [findKeys]))).trans (Dev.keeps_report _ _ _ _)

theorem Dev.keeps_logRetire {P : Nat → Prop} (d : Dev) (unit phys finding : Nat) (hP : ∀ k ∈ findKeys, ¬ P k) : d.Keeps P (d.logRetire unit phys finding) :=
  ((Dev.Keeps.refl d).wr (hP Reg.LOG_OVERFLOW (by simp [findKeys])) _).ite ((Dev.Keeps.refl d).of_units rfl rfl rfl rfl)

theorem Dev.keeps_found {P : Nat → Prop} (d : Dev) (code root port unit phys finding : Nat) (hP : ∀ k ∈ findKeys, ¬ P k) :
    d.Keeps P ((d.seepFind code root port).logRetire unit phys finding) :=
  (d.keeps_seepFind _ _ _ hP).trans (Dev.keeps_logRetire _ _ _ _ hP)

theorem Dev.groups_found (d : Dev) (code root port unit phys finding : Nat) :
    ((d.seepFind code root port).logRetire unit phys finding).groups = d.groups := by
  have hfind : (d.seepFind code root port).groups = d.groups := by
    unfold Dev.seepFind Dev.sqEvent
    split <;> rfl
  unfold Dev.logRetire Dev.logEntry
  split <;> exact hfind

theorem Dev.group_congr {d e : Dev} (h : e.groups = d.groups) (g : Nat) : e.group g = d.group g := by rw [Dev.group, Dev.group, h]

/-- A spare that failed its tests, retired and counted. -/
def Dev.spareFailed (d : Dev) (g : Nat) : Dev :=
  let e := d.setGroup g { d.group g with katRun := false, katOk := false }
  ((e.setSpare g 15).retireLane g (d.spareOf g)).addSat Reg.KAT_FAILS 1

theorem spareKatEnd_of_failed {d : Dev} {g : Nat} (hrun : (d.group g).katRun = true) :
    spareKatEnd g false d
      = ((d.spareFailed g).seepFind 0x05 (0x2000 + 13 * g + d.spareOf g) 24).logRetire 1 (13 * g + d.spareOf g) 2 := if_pos hrun

section SpareFailed
variable (d : Dev) {g : Nat}

theorem Dev.group_spareFailed : (d.spareFailed g).group g = { d.group g with katRun := false, katOk := false } := by
  have hwork : (d.setGroup g { d.group g with katRun := false, katOk := false }).LaneWork (fun _ => False) (d.spareFailed g) :=
    ((Dev.work_setSpare _ fun _ _ => id).trans (Dev.work_retireLane _ fun _ _ => id)).wr id _
  exact (hwork.group g).trans (d.group_setGroup_self g _)

theorem Dev.spareOf_spareFailed (hg : g < 4) : (d.spareFailed g).spareOf g = 15 := by
  have hret := (Dev.work_retireLane ((d.setGroup g { d.group g with katRun := false, katOk := false }).setSpare g 15) (q := d.spareOf g)
    (not_mapKey_retireKeys g)).wr (k := Reg.KAT_FAILS) (by unfold mapKey Reg.KAT_FAILS; omega)
  exact (Dev.spareOf_congr (by omega) (hret _).2).trans (Dev.spareOf_setSpare _ hg (by decide))

theorem Dev.on_spareFailed (hg : g < 4) : (d.spareFailed g).on (Reg.GRP_RETIRED g) (d.spareOf g) = true :=
  (Dev.on_congr _ (Dev.rd_addSat_ne _ _ (by unfold Reg.GRP_RETIRED Reg.KAT_FAILS; omega))).trans (Dev.on_retireLane _ hg (d.spareOf_lt g)).1

theorem katFails_notMem {g : Nat} (hg : g < 4) : Reg.KAT_FAILS ∉ spareKeys g ∧ Reg.KAT_FAILS ∉ retireKeys g ∧ Reg.KAT_FAILS ∉ findKeys := by
  simp only [spareKeys, retireKeys, findKeys, List.mem_cons, List.not_mem_nil, or_false, Reg.GRP_MAP_HI, Reg.GRP_STATUS, Reg.DET_STATUS,
    Reg.GRP_RETIRED, Reg.EV_SEQ, Reg.ROT_TIME_LO, Reg.ROT_TIME_HI, Reg.FL_STATUS, Reg.LOG_OVERFLOW, Reg.KAT_FAILS]
  omega

theorem Dev.n_spareFailed (hg : g < 4) : (d.spareFailed g).n Reg.KAT_FAILS = min (d.n Reg.KAT_FAILS + 1) (2 ^ 32 - 1) := by
  obtain ⟨hspare, hret, -⟩ := katFails_notMem hg
  have hwork : (d.setGroup g { d.group g with katRun := false, katOk := false }).LaneWork (· = Reg.KAT_FAILS)
      (((d.setGroup g { d.group g with katRun := false, katOk := false }).setSpare g 15).retireLane g (d.spareOf g)) :=
    (Dev.work_setSpare _ (not_eq_of_notMem hspare)).trans (Dev.work_retireLane _ (not_eq_of_notMem hret))
  exact (Dev.n_addSat_self _ _ 1).trans (congrArg (fun n => min (n + 1) (2 ^ 32 - 1)) (Dev.n_congr (hwork.rd rfl)))

end SpareFailed

theorem not_mapKey_findKeys : ∀ k ∈ findKeys, ¬ mapKey k := by
  simp only [findKeys, List.mem_cons, List.not_mem_nil, or_false, forall_eq_or_imp, forall_eq, mapKey, Reg.FL_STATUS, Reg.EV_SEQ, Reg.LOG_OVERFLOW]
  omega

theorem exec_spareKatEnd_failed (s : State) (g : Fin 4) (hrun : (s.dev.group g).katRun = true) :
    ∃ t, exec (.spareKatEnd g false) s = .next t ∧ (t.dev.group g).katRun = false ∧ (t.dev.group g).katOk = false ∧ t.dev.spareOf g = 15
      ∧ t.dev.on (Reg.GRP_RETIRED g) (s.dev.spareOf g) = true
      ∧ t.dev.n Reg.KAT_FAILS = min (s.dev.n Reg.KAT_FAILS + 1) (2 ^ 32 - 1) := by
  have hkeep (P : Nat → Prop) (hP : ∀ k ∈ findKeys, ¬ P k) :=
    Dev.keeps_found (s.dev.spareFailed g) 0x05 (0x2000 + 13 * g + s.dev.spareOf g) 24 1 (13 * g + s.dev.spareOf g) 2 hP
  have hgroup : (((s.dev.spareFailed g).seepFind 0x05 (0x2000 + 13 * g + s.dev.spareOf g) 24).logRetire 1 (13 * g + s.dev.spareOf g) 2).group g
      = { s.dev.group g with katRun := false, katOk := false } :=
    (Dev.group_congr (Dev.groups_found ..) g).trans s.dev.group_spareFailed
  have hretired := hkeep (· = Reg.GRP_RETIRED g) (by
    simp only [findKeys, List.mem_cons, List.not_mem_nil, or_false, forall_eq_or_imp, forall_eq, Reg.FL_STATUS, Reg.EV_SEQ, Reg.LOG_OVERFLOW,
      Reg.GRP_RETIRED]
    omega)
  exact ⟨_, next_congr (spareKatEnd_of_failed hrun), congrArg GroupSt.katRun hgroup, congrArg GroupSt.katOk hgroup,
    (Dev.spareOf_congr (by omega) (hkeep mapKey not_mapKey_findKeys).1.2).trans (s.dev.spareOf_spareFailed g.isLt),
    (Dev.on_congr _ (hretired.rd rfl)).trans (s.dev.on_spareFailed g.isLt),
    (Dev.n_congr ((hkeep _ (not_eq_of_notMem (katFails_notMem g.isLt).2.2)).rd rfl)).trans (s.dev.n_spareFailed g.isLt)⟩

/-! ### Faults of lanes in use (R132, R133) -/

/-- A physical lane is retired, and the sump has a report of it. -/
def Dev.retired (d : Dev) (phys : Nat) : Dev := (d.retireLane (phys / 13) (phys % 13)).report 0x03 (0x2000 + phys) 24

/-- The fill and the overrun of a lane end before an instant. -/
def Dev.cutRuns (d : Dev) (l t1 : Nat) : Dev := (d.endFill l t1).endOverrun l t1

theorem Dev.work_cutRuns {P : Nat → Prop} (d : Dev) (l t1 : Nat) : d.LaneWork P (d.cutRuns l t1) :=
  (d.work_endFill l t1).trans (Dev.work_endOverrun _ _ _)

/-- The device once the physical lane that runs logical lane l is retired, and the runs of l have ended before its next frame. -/
def Dev.faulted (d : Dev) (phys l : Nat) : Dev := (d.retired phys).cutRuns l ((d.retired phys).nextStart l)

/-- Logical lane l waits for a takeover, behind the lanes of its group that wait already. -/
def Dev.waiting (d : Dev) (g l first : Nat) : Dev :=
  let e := d.setLane l { d.lane l with lostFrom := some first }
  e.setGroup g { e.group g with takeover := (e.group g).takeover ++ [(l, e.now)], katRun := false, katOk := false }

theorem Dev.rd_waiting (d : Dev) (g l first j : Nat) : (d.waiting g l first).rd j = d.rd j := rfl

theorem Dev.sump_waiting (d : Dev) (g l first : Nat) : (d.waiting g l first).sump = d.sump := rfl

theorem Dev.takeover_waiting (d : Dev) (g l first : Nat) : ((d.waiting g l first).group g).takeover = (d.group g).takeover ++ [(l, d.now)] :=
  congrArg GroupSt.takeover (Dev.group_setGroup_self (d.setLane l { d.lane l with lostFrom := some first }) g _)

theorem Dev.lost_waiting (d : Dev) (g l first : Nat) : ((d.waiting g l first).lane l).lostFrom = some first :=
  congrArg LaneSt.lostFrom (d.lane_setLane_self l { d.lane l with lostFrom := some first })

section Faulted
variable (d : Dev) {phys l : Nat}

theorem Dev.keeps_faulted {P : Nat → Prop} (hP : ∀ k ∈ retireKeys (phys / 13), ¬ P k) : d.Keeps P (d.faulted phys l) :=
  ((Dev.work_retireLane _ hP).keeps.trans (Dev.keeps_report _ _ _ _)).trans (Dev.work_cutRuns _ _ _).keeps

theorem Dev.group_faulted (g : Nat) : (d.faulted phys l).group g = d.group g :=
  ((Dev.work_cutRuns (P := fun _ => False) (d.retired phys) l _).group g).trans
    ((Dev.work_retireLane (P := fun _ => False) d (g := phys / 13) (q := phys % 13) fun _ _ => id).group g)

theorem Dev.reports_faulted : (d.faulted phys l).sump.reports.length = d.sump.reports.length + 1 := by
  have hruns := (Dev.work_cutRuns (P := fun _ => False) (d.retired phys) l ((d.retired phys).nextStart l)).sump
  have hret := (Dev.work_retireLane (P := fun _ => False) d (g := phys / 13) (q := phys % 13) fun _ _ => id).sump
  exact (congrArg (fun x : SumpSt => x.reports.length) hruns).trans
    (List.length_append.trans (congrArg (fun x : SumpSt => x.reports.length + 1) hret))

theorem Dev.on_faulted (hg : phys / 13 < 4) :
    (d.faulted phys l).on (Reg.GRP_RETIRED (phys / 13)) (phys % 13) = true ∧ (d.faulted phys l).on (Reg.GRP_STATUS (phys / 13)) 4 = true := by
  have hruns (j : Nat) : (d.faulted phys l).rd j = (d.retired phys).rd j := (Dev.work_cutRuns (P := fun _ => True) (d.retired phys) l _).rd trivial
  obtain ⟨hbit, hevent⟩ := d.on_retireLane hg (q := phys % 13) (by omega)
  exact ⟨(Dev.on_congr _ (hruns _)).trans hbit, (Dev.on_congr _ (hruns _)).trans hevent⟩

theorem Dev.takeable_faulted (hg : phys / 13 < 4) : (d.faulted phys l).takeable (phys / 13) = d.takeable (phys / 13) :=
  have hkeep := d.keeps_faulted (l := l) (not_mapKey_retireKeys (phys / 13))
  Dev.takeable_congr hg hkeep.cw hkeep.1.2 (d.group_faulted _)

/-- A lane in use faults while no shadow runs in its group. -/
theorem laneFault_of_unshadowed {d : Dev} (hg : phys / 13 < 4) (hfind : (groupLanes (phys / 13)).find? (fun m => d.laneNib m = phys % 13) = some l)
    (hwant : d.laneWanted l = true) (hlive : (d.lane l).lostFrom = none) (hfree : (d.group (phys / 13)).shadow = none) :
    laneFault phys d = if d.takeable (phys / 13) = 0 then (d.faulted phys l).outOfService l ((d.retired phys).nextStart l)
      else (d.faulted phys l).waiting (phys / 13) l ((d.retired phys).nextStart l) := by
  have hret : ((d.retired phys).group (phys / 13)).shadow = none :=
    (congrArg GroupSt.shadow ((Dev.work_retireLane (P := fun _ => False) d (g := phys / 13) (q := phys % 13) fun _ _ => id).group _)).trans hfree
  unfold laneFault
  extract_lets g q e shown
  rw [hfind]
  dsimp -zeta only
  rw [if_neg (by simp [hwant, hlive])]
  extract_lets first e1 e2 x y
  have hnone : ((e.group g).shadow.filter fun sh => decide (sh.lane = l)) = none := congrArg (Option.filter _) hret
  rw [hnone]
  dsimp -zeta only
  have he1 : e1 = d.faulted phys l := rfl
  have he2 : e2 = e1 := if_neg (by rw [he1, d.group_faulted, hfree]; decide)
  clear_value e2
  subst he2
  rw [he1, d.takeable_faulted hg]
  rfl

end Faulted

theorem exec_laneFault_taken (s : State) (phys : Fin 52) (l : Nat)
    (hfind : (groupLanes (phys / 13)).find? (fun m => s.dev.laneNib m = phys % 13) = some l) (hwant : s.dev.laneWanted l = true)
    (hlive : (s.dev.lane l).lostFrom = none) (hfree : (s.dev.group (phys / 13)).shadow = none) (hleft : s.dev.takeable (phys / 13) ≠ 0) :
    ∃ t, exec (.laneFault phys) s = .next t ∧ t.dev.on (Reg.GRP_RETIRED (phys / 13)) (phys % 13) = true
      ∧ t.dev.on (Reg.GRP_STATUS (phys / 13)) 4 = true ∧ (t.dev.group (phys / 13)).takeover = (s.dev.group (phys / 13)).takeover ++ [(l, s.dev.now)]
      ∧ (t.dev.lane l).lostFrom.isSome = true ∧ t.dev.sump.reports.length = s.dev.sump.reports.length + 1 := by
  have hg : phys.val / 13 < 4 := by omega
  obtain ⟨hbit, hevent⟩ := s.dev.on_faulted (l := l) hg
  have hnow : (s.dev.faulted phys l).now = s.dev.now := Dev.now_congr (s.dev.keeps_faulted (P := fun _ => False) fun _ _ => id).tb
  have hfault := (laneFault_of_unshadowed hg hfind hwant hlive hfree).trans (if_neg hleft)
  refine ⟨_, next_congr hfault, (Dev.on_congr _ (Dev.rd_waiting ..)).trans hbit, (Dev.on_congr _ (Dev.rd_waiting ..)).trans hevent, ?_, ?_, ?_⟩
  · exact (Dev.takeover_waiting ..).trans (by rw [s.dev.group_faulted, hnow])
  · exact congrArg Option.isSome (Dev.lost_waiting ..)
  · exact (congrArg (fun x : SumpSt => x.reports.length) (Dev.sump_waiting ..)).trans s.dev.reports_faulted

section OutOfService
variable {P : Nat → Prop} (d : Dev) {l : Nat} (t0 : Nat)

/-- The registers in which a lane goes out of service. -/
def outKeys (l : Nat) : List Nat := Reg.GRP_STATUS (l / 12) :: Reg.EV_SEQ (1440 + 4 * (l / 12) + 3) :: bindKeys l

theorem Dev.work_outOfService (hP : ∀ k ∈ outKeys l, ¬ P k) : d.LaneWork P (d.outOfService l t0) := by
  have hbind : ∀ k ∈ bindKeys l, ¬ P k := fun k hk => hP k (by simp [outKeys, hk])
  unfold Dev.outOfService
  extract_lets _ e
  have he : d.LaneWork P e := (d.work_bindLane hbind).trans (Dev.work_setLane _ _ _)
  exact (he.trans (Dev.work_showLane _ (hbind _ (by simp [bindKeys])))).trans
    (Dev.work_grpEvent _ _ _ (hP _ (by simp [outKeys])) (hP (Reg.EV_SEQ (1440 + 4 * (l / 12) + 3)) (by simp [outKeys])))

theorem Dev.laneNib_outOfService (hl : l < 96) : (d.outOfService l t0).laneNib l = 15 := by
  unfold Dev.outOfService
  extract_lets _ e
  have hst : ¬ mapKey (Reg.GRP_STATUS (l / 12)) := by unfold mapKey Reg.GRP_STATUS; omega
  have hwork : e.LaneWork mapKey ((e.showLane l).grpEvent (l / 12) 7 3) :=
    (e.work_showLane (not_mapKey_laneInfo _ _ (by omega))).trans (Dev.work_grpEvent _ _ _ hst (not_mapKey_evSeq _))
  exact (Dev.laneNib_congr hl hwork.2).trans (d.laneNib_bindLane (by decide))

theorem Dev.on_outOfService (hl : l < 48) : (d.outOfService l t0).on (Reg.GRP_STATUS (l / 12)) 7 = true :=
  (Dev.on_sqEvent _ _ _ _ (by decide) (by decide) (grpStatus_ne_evSeq (by omega) _)).trans (by simp)

end OutOfService

theorem exec_laneFault_untaken (s : State) (phys : Fin 52) (l : Nat)
    (hfind : (groupLanes (phys / 13)).find? (fun m => s.dev.laneNib m = phys % 13) = some l) (hwant : s.dev.laneWanted l = true)
    (hlive : (s.dev.lane l).lostFrom = none) (hfree : (s.dev.group (phys / 13)).shadow = none) (hleft : s.dev.takeable (phys / 13) = 0) :
    ∃ t, exec (.laneFault phys) s = .next t ∧ t.dev.on (Reg.GRP_RETIRED (phys / 13)) (phys % 13) = true
      ∧ t.dev.laneNib l = 15 ∧ t.dev.on (Reg.GRP_STATUS (phys / 13)) 7 = true
      ∧ t.dev.sump.reports.length = s.dev.sump.reports.length + 1 := by
  have hg : phys.val / 13 < 4 := by omega
  have hdiv := div_of_mem_groupLanes (List.mem_of_find?_eq_some hfind)
  have hl : l < 48 := by omega
  have hretired : Reg.GRP_RETIRED (phys / 13) ∉ outKeys l := by
    simp only [outKeys, bindKeys, List.mem_cons, List.not_mem_nil, or_false, Reg.GRP_RETIRED, Reg.GRP_STATUS, Reg.EV_SEQ, Reg.GRP_MAP_LO,
      Reg.GRP_MAP_HI, Reg.LANE_INFO]
    omega
  have hout := Dev.work_outOfService (P := (· = Reg.GRP_RETIRED (phys / 13))) (s.dev.faulted phys l) ((s.dev.retired phys).nextStart l)
    (not_eq_of_notMem hretired)
  have hfault := (laneFault_of_unshadowed hg hfind hwant hlive hfree).trans (if_pos hleft)
  refine ⟨_, next_congr hfault, (Dev.on_congr _ (hout.rd rfl)).trans (s.dev.on_faulted hg).1, Dev.laneNib_outOfService _ _ (by omega), ?_, ?_⟩
  · rw [← hdiv]
    exact Dev.on_outOfService _ _ hl
  · exact (congrArg (fun x : SumpSt => x.reports.length) hout.sump).trans s.dev.reports_faulted

/-! ### Takeovers (R132, R133) -/

/-- Lane l has lost its frames from t0 up to the first that starts 200 ns after an instant, with a GAP of them. -/
def Dev.regained (d : Dev) (l t0 at0 : Nat) : Dev :=
  let e := d.skipFrames l (d.framesBefore l (d.idxAt (d.governing l) (at0 + nsUnits 200)))
  (e.laneGap l 0x20 0 0 t0 (e.nextStart l) false).setLane l { e.lane l with lostFrom := none }

/-- The spare of a group runs lane l, the first that waited. -/
def Dev.takenOver (d : Dev) (g l t0 at0 : Nat) (rest : List (Nat × Nat)) : Dev :=
  let e := d.setGroup g { d.group g with takeover := rest }
  (((e.setSpare g 15).regained l t0 at0).bindLane l (d.spareOf g)).showLane l

theorem laneTakeover_of_spare {d : Dev} {g l t0 at0 : Nat} {rest : List (Nat × Nat)} (hwait : (d.group g).takeover = (l, at0) :: rest)
    (hlost : (d.lane l).lostFrom = some t0) (hspare : d.spareOf g ≠ 15) : laneTakeover g d = d.takenOver g l t0 at0 rest := by
  have hclaim : (d.setGroup g { d.group g with takeover := rest }).claimPhys g
      = some (d.spareOf g, (d.setGroup g { d.group g with takeover := rest }).setSpare g 15) := if_pos hspare
  have hlost' : ((d.setGroup g { d.group g with takeover := rest }).lane l).lostFrom = some t0 := hlost
  unfold laneTakeover
  rw [hwait]
  dsimp -zeta only
  extract_lets e
  rw [hlost', hclaim]
  rfl

section Regained
variable {P : Nat → Prop} (d : Dev) (l t0 at0 : Nat)

theorem Dev.work_regained : d.LaneWork P (d.regained l t0 at0) :=
  ((d.work_skipFrames _ _).trans (Dev.work_laneGap _ _ _ _ _ _ _ _)).trans (Dev.work_setLane _ _ _)

theorem Dev.lost_regained : ((d.regained l t0 at0).lane l).lostFrom = none := congrArg LaneSt.lostFrom (Dev.lane_setLane_self _ l _)

theorem Dev.length_outOf_regained : ((d.regained l t0 at0).outOf (48 + l)).length = (d.outOf (48 + l)).length + 1 := Dev.length_outOf_laneGap ..

end Regained

theorem exec_laneTakeover (s : State) (g : Fin 4) (l t0 t1 : Nat) (rest : List (Nat × Nat)) (hwait : (s.dev.group g).takeover = (l, t1) :: rest)
    (hlost : (s.dev.lane l).lostFrom = some t0) (hlane : l / 12 = g.val) (hspare : s.dev.spareOf g ≠ 15) :
    ∃ t, exec (.laneTakeover g) s = .next t ∧ t.dev.laneNib l = s.dev.spareOf g ∧ t.dev.spareOf g = 15
      ∧ (t.dev.lane l).lostFrom = none ∧ (t.dev.group g).takeover = rest
      ∧ (t.dev.outOf (48 + l)).length = (s.dev.outOf (48 + l)).length + 1 := by
  have hl : l < 96 := by omega
  let e := s.dev.setGroup g { s.dev.group g with takeover := rest }
  let f := (e.setSpare g 15).regained l t0 t1
  have hshow := Dev.work_showLane (P := mapKey) (f.bindLane l (s.dev.spareOf g)) (l := l) (not_mapKey_laneInfo _ _ (by omega))
  have hwork : e.LaneWork (fun _ => False) (s.dev.takenOver g l t0 t1 rest) :=
    (((Dev.work_setSpare _ fun _ _ => id).trans (Dev.work_regained _ _ _ _)).trans (Dev.work_bindLane _ fun _ _ => id)).trans (Dev.work_showLane _ id)
  refine ⟨_, next_congr (laneTakeover_of_spare hwait hlost hspare), ?_, ?_, ?_, ?_, ?_⟩
  · exact (Dev.laneNib_congr hl hshow.2).trans (Dev.laneNib_bindLane _ (s.dev.spareOf_lt g))
  · refine (Dev.spareOf_congr (by omega) hshow.2).trans ?_
    have hbind := f.spareOf_bindLane (l := l) (s.dev.spareOf g)
    rw [hlane] at hbind
    exact hbind.trans ((Dev.spareOf_congr (by omega) (Dev.work_regained _ _ _ _).2).trans (Dev.spareOf_setSpare _ g.isLt (by decide)))
  · exact (congrArg LaneSt.lostFrom (Dev.lane_bindLane f l)).trans (Dev.lost_regained ..)
  · exact congrArg GroupSt.takeover ((hwork.group g).trans (s.dev.group_setGroup_self g _))
  · refine (congrArg List.length (Dev.outOf_bindLane f (48 + l))).trans ((Dev.length_outOf_regained ..).trans ?_)
    exact congrArg (fun x : List Rec => x.length + 1) (Dev.outOf_setSpare e (48 + l))

end Sys2Proof.Machine

namespace Sys2Proof
open Sys2Proof.Machine

/-- Settles O19, command by command. -/
theorem laneSparing : Obligations.LaneSparing := by
  unfold Obligations.LaneSparing
  exact ⟨exec_rotationStart, exec_rotationHandover, exec_spareFault, exec_spareKatStart, exec_spareKatEnd_passed, exec_spareKatEnd_failed,
    exec_laneFault_taken, exec_laneFault_untaken, exec_laneTakeover⟩

end Sys2Proof
end

section
/-! SUPPORT. What the stages of a stream leave of its lanes: grids and frames still to come, streams, setups, and the registers of the groups below their detectors'. -/
namespace Sys2Proof.Machine

/-! ### The frames still to come -/

/-- A lane's state but for the order of its computed frames and its run of fill. -/
def LaneSt.core (x : LaneSt) : LaneSt := { x with fillFrom := none, ord := 0, ready := [] }

/-- Setups, streams and the lanes' frames still to come are the same, and so are the registers that P names. -/
def Dev.KeepsLanes (P : Nat → Prop) (d e : Dev) : Prop := d.Keeps P e ∧ e.streams = d.streams ∧ ∀ m, (e.lane m).core = (d.lane m).core

section KeepsLanes
variable {P : Nat → Prop} {a d e : Dev}

theorem Dev.KeepsLanes.keeps (h : d.KeepsLanes P e) : d.Keeps P e := h.1

theorem Dev.KeepsLanes.streams (h : d.KeepsLanes P e) : e.streams = d.streams := h.2.1

theorem Dev.KeepsLanes.core (h : d.KeepsLanes P e) (m : Nat) : (e.lane m).core = (d.lane m).core := h.2.2 m

theorem Dev.KeepsLanes.next (h : d.KeepsLanes P e) (m : Nat) : (e.lane m).next = (d.lane m).next :=
  show (e.lane m).core.next = (d.lane m).core.next from congrArg LaneSt.next (h.core m)

theorem Dev.KeepsLanes.refl (d : Dev) : d.KeepsLanes P d := ⟨.refl d, rfl, fun _ => rfl⟩

theorem Dev.KeepsLanes.trans (had : a.KeepsLanes P d) (hde : d.KeepsLanes P e) : a.KeepsLanes P e :=
  ⟨had.keeps.trans hde.keeps, hde.streams.trans had.streams, fun m => (hde.core m).trans (had.core m)⟩

/-- Fewer registers are kept too. -/
theorem Dev.KeepsLanes.mono {Q : Nat → Prop} (h : d.KeepsLanes P e) (hQ : ∀ j, Q j → P j) : d.KeepsLanes Q e := ⟨h.keeps.mono hQ, h.2⟩

/-- So it is after an update that no lane, stream or setup sees. -/
theorem Dev.KeepsLanes.of_keeps (h : a.KeepsLanes P d) (hkeep : d.Keeps P e) (hstreams : e.streams = d.streams) (hlanes : e.lanes = d.lanes) :
    a.KeepsLanes P e :=
  h.trans ⟨hkeep, hstreams, fun m => by rw [Dev.lane, Dev.lane, hlanes]⟩

theorem Dev.KeepsLanes.wr (h : a.KeepsLanes P d) {k : Nat} (hk : ¬ P k) (v : Word) : a.KeepsLanes P (d.wr k v) :=
  h.of_keeps ((Dev.Keeps.refl d).wr hk v) rfl rfl

theorem Dev.KeepsLanes.ite {c : Prop} [Decidable c] (hd : a.KeepsLanes P d) (he : a.KeepsLanes P e) : a.KeepsLanes P (if c then d else e) := by
  split
  · exact hd
  · exact he

theorem Dev.KeepsLanes.sqEvent (h : a.KeepsLanes P d) {st n : Nat} (b : Nat) (hst : ¬ P st) (hev : ¬ P (Reg.EV_SEQ n)) :
    a.KeepsLanes P (d.sqEvent st b n) :=
  h.ite ((h.wr hst _).of_keeps ((Dev.Keeps.refl _).event hst hev) rfl rfl)

theorem Dev.KeepsLanes.foldl {α : Type} {f : Dev → α → Dev} {l : List α} (h : a.KeepsLanes P d) (hf : ∀ (d : Dev) (x : α), d.KeepsLanes P (f d x)) :
    a.KeepsLanes P (l.foldl f d) := by
  induction l generalizing d with
  | nil => exact h
  | cons x l ih => exact ih (h.trans (hf d x))

/-- The work of a lane group that leaves the frames still to come. -/
theorem Dev.LaneWork.keepsLanes (h : d.LaneWork P e) (hcore : ∀ m, (e.lane m).core = (d.lane m).core) : d.KeepsLanes P e := ⟨h.keeps, h.streams, hcore⟩

theorem Dev.stages_emit (d : Dev) (r : Nat) (h : Hdr) (payload : List Word128) : d.KeepsLanes P (d.emit r h payload) :=
  (d.work_emit r h payload).keepsLanes fun _ => rfl

theorem Dev.stages_push (d : Dev) (r : Nat) (x : Rec) : d.KeepsLanes P (d.push r x) :=
  (Dev.KeepsLanes.refl d).of_keeps ((Dev.Keeps.refl d).of_units rfl rfl rfl rfl) rfl rfl

theorem Dev.stages_form (d : Dev) (h : Hdr) (payload : List Word128) : d.KeepsLanes P (d.form h payload).1 :=
  (Dev.KeepsLanes.refl d).of_keeps ((Dev.Keeps.refl d).of_units rfl rfl rfl rfl) rfl rfl

theorem Dev.stages_pulse (d : Dev) (code cause phys : Nat) (detail : Word128) : d.KeepsLanes P (d.pulse code cause phys detail) :=
  (Dev.KeepsLanes.refl d).of_keeps (d.keeps_pulse _ _ _ _) rfl rfl

theorem Dev.stages_draw (d : Dev) : d.KeepsLanes P d.draw := (Dev.KeepsLanes.refl d).of_keeps ((Dev.Keeps.refl d).of_units rfl rfl rfl rfl) rfl rfl

theorem Dev.stages_setDet (d : Dev) (l : Nat) (x : DetSt) : d.KeepsLanes P (d.setDet l x) := (Dev.KeepsLanes.refl d).of_keeps (d.keeps_setDet l x) rfl rfl

theorem Dev.stages_setHist (d : Dev) (l : Nat) (x : Nat × List (List Nat)) : d.KeepsLanes P (d.setHist l x) :=
  (Dev.KeepsLanes.refl d).of_keeps (d.keeps_setHist l x) rfl rfl

theorem Dev.stages_setMask (d : Dev) (l : Nat) (x : MaskSt) : d.KeepsLanes P (d.setMask l x) := (Dev.KeepsLanes.refl d).of_keeps (d.keeps_setMask l x) rfl rfl

theorem Dev.stages_setDen (d : Dev) (l : Nat) (x : DensSt) : d.KeepsLanes P (d.setDen l x) := (Dev.KeepsLanes.refl d).of_keeps (d.keeps_setDen l x) rfl rfl

theorem Dev.stages_setGrid (d : Dev) (l : Nat) (x : Tab Nat) : d.KeepsLanes P (d.setGrid l x) := (Dev.KeepsLanes.refl d).of_keeps (d.keeps_setGrid l x) rfl rfl

theorem Dev.stages_laneGap (d : Dev) (l cause ckind count t0 t1 : Nat) (cont : Bool) : d.KeepsLanes P (d.laneGap l cause ckind count t0 t1 cont) :=
  d.stages_emit _ _ _

/-- A lane takes a state with the same frames still to come. -/
theorem Dev.stages_setLane (d : Dev) {l : Nat} {x : LaneSt} (h : x.core = (d.lane l).core) : d.KeepsLanes P (d.setLane l x) :=
  (d.work_setLane l x).keepsLanes fun m => by
    rw [Dev.lane_setLane]
    split
    next hm => rw [h, hm]
    next => rfl

theorem Dev.stages_endFill (d : Dev) (l t1 : Nat) : d.KeepsLanes P (d.endFill l t1) := by
  have hset : d.KeepsLanes P (d.setLane l { d.lane l with fillFrom := none }) := d.stages_setLane rfl
  unfold Dev.endFill
  split
  · refine .ite (hset.trans ?_) hset
    exact (Dev.work_laneGapSplit _ _ _ _ _ _).keepsLanes fun m => congrArg LaneSt.core (Dev.lane_laneGapSplit _ _ _ _ _ _ m)
  · exact .refl d

end KeepsLanes

/-! ### The detector stage (R149 to R167) -/

/-- The registers of the lane groups below their detectors'. -/
def laneKey (j : Nat) : Prop := j < 0x100000 ∧ j % 0x10000 < 0x400

theorem not_laneKey_evSeq (n : Nat) : ¬ laneKey (Reg.EV_SEQ n) := by unfold laneKey Reg.EV_SEQ; omega

theorem laneKey_of_mapKey (j : Nat) (h : mapKey j) : laneKey j := by unfold mapKey at h; unfold laneKey; omega

section Detector
variable (d : Dev)

theorem Dev.stages_showProg (gov : Nat) : d.KeepsLanes laneKey (d.showProg gov) :=
  (Dev.KeepsLanes.refl d).wr (by unfold laneKey Reg.DET_PROG; omega) _

theorem Dev.stages_detEvent (g b e : Nat) : d.KeepsLanes laneKey (d.detEvent g b e) :=
  (Dev.KeepsLanes.refl d).sqEvent b (by unfold laneKey Reg.DET_STATUS; omega) (not_laneKey_evSeq _)

theorem Dev.stages_detTake (f : Frame) : d.KeepsLanes laneKey (d.detTake f) := by
  unfold Dev.detTake
  extract_lets ws st first es v k w h hs ex hs' p st' d1 d2 n d3 hf hits need
  have h1 : d.KeepsLanes laneKey d1 := d.stages_setDet _ _
  have h2 : d.KeepsLanes laneKey d2 := h1.ite (h1.trans (d1.stages_setHist _ _))
  have h3 : d.KeepsLanes laneKey d3 := h2.wr (by unfold laneKey Reg.DET_EXC; omega) _
  exact (h3.trans (d3.stages_pulse _ _ _ _)).ite h3

theorem Dev.stages_bankError (gov l cause k0 last : Nat) (cond : Bool) : d.KeepsLanes laneKey (d.bankError gov l cause k0 last cond) := d.stages_emit _ _ _

theorem Dev.stages_detRecord (gov k0 last : Nat) (st : DetSt) (w2 w3 : Word128) (data : List Word128) (cont rfi : Bool) :
    d.KeepsLanes laneKey (d.detRecord gov k0 last st w2 w3 data cont rfi) := by
  unfold Dev.detRecord
  extract_lets n flags e
  have he : d.KeepsLanes laneKey e := ((Dev.KeepsLanes.refl d).wr (by unfold laneKey Reg.DET_SKIPS; omega) _).trans (Dev.stages_detEvent _ _ _ _)
  exact (d.stages_emit _ _ _).ite (he.trans (e.stages_laneGap _ _ _ _ _ _ _))

theorem Dev.stages_detRecords (gov k0 last : Nat) (st : DetSt) (w2 : Word128) (w3 : Nat → Nat → Word128) (es : Nat) (rfi : Bool) (n b : Nat)
    (entries : List (List Nat)) : d.KeepsLanes laneKey (d.detRecords gov k0 last st w2 w3 es rfi n b entries) := by
  induction n generalizing d b entries with
  | zero => exact .refl d
  | succ n ih =>
    unfold Dev.detRecords
    extract_lets per here rest e
    have he : d.KeepsLanes laneKey e := d.stages_detRecord _ _ _ _ _ _ _ _ _
    exact he.ite (he.trans (ih _ _ _))

theorem Dev.stages_skUsed (ws : List Word128) (m : Nat) : d.KeepsLanes laneKey (d.skUsed ws m).2 := by
  unfold Dev.skUsed
  dsimp only
  split
  · exact .refl d
  · split
    · exact .refl d
    · exact d.stages_draw

theorem Dev.stages_detOutputs (gov k0 last : Nat) (st : DetSt) : d.KeepsLanes laneKey (d.detOutputs gov k0 last st) := by
  unfold Dev.detOutputs
  extract_lets ws w1 w2 n c nb short u lo hi d1 sk flagged nf d2 hf hits need d3 entries sat word2 word3
  have h1 : d.KeepsLanes laneKey d1 := d.stages_skUsed _ _
  have h2 : d.KeepsLanes laneKey d2 := h1.wr (by unfold laneKey Reg.DET_SKF; omega) _
  have h3 : d.KeepsLanes laneKey d3 := (h2.trans (d2.stages_pulse _ _ _ _)).ite h2
  exact (h3.trans (d3.stages_detRecords _ _ _ _ _ _ _ _ _ _ _)).ite h3

theorem Dev.stages_detClose (gov last : Nat) : d.KeepsLanes laneKey (d.detClose gov last) := by
  unfold Dev.detClose
  extract_lets st ws d1
  have h1 : d.KeepsLanes laneKey d1 := (Dev.KeepsLanes.refl d).wr (by unfold laneKey Reg.DET_RED; omega) _
  split
  · exact .refl d
  · extract_lets k0 d2 d3
    have h2 : d.KeepsLanes laneKey d2 := by
      unfold d2
      split
      · exact h1.trans (d1.stages_bankError _ _ _ _ _ _)
      · exact h1.ite (h1.trans (d1.stages_detOutputs _ _ _ _))
    have h3 : d.KeepsLanes laneKey d3 := h2.foldl fun d l => d.stages_setHist _ _
    exact (Dev.KeepsLanes.refl d).ite ((h3.trans (d3.stages_setDet _ _)).trans (Dev.stages_showProg _ _))

theorem Dev.stages_detDeliver (gov i : Nat) (of : Option Frame) : d.KeepsLanes laneKey (d.detDeliver gov i of) := by
  unfold Dev.detDeliver
  extract_lets ws st0 st d1 d2 d3 ends
  refine (Dev.KeepsLanes.refl d).ite ?_
  have h1 : d.KeepsLanes laneKey d1 := d.stages_setDet _ _
  have h2 : d.KeepsLanes laneKey d2 := by
    unfold d2
    split
    · exact h1.trans (d1.stages_detTake _)
    · exact h1.trans (d1.stages_setHist _ _)
  have h3 : d.KeepsLanes laneKey d3 := h2.trans (d2.stages_showProg _)
  split
  · exact .refl d
  · exact (h3.trans (d3.stages_detClose _ _)).ite h3

end Detector

/-! ### The mask comparator and the density updater (R178 to R182, R204 to R219) -/

section Density
variable (d : Dev)

theorem Dev.stages_maskDeliver (gov : Nat) (of : Option Frame) : d.KeepsLanes laneKey (d.maskDeliver gov of) := by
  unfold Dev.maskDeliver
  extract_lets w minU minL qual x
  split
  · exact d.stages_setMask _ _
  · extract_lets c y d1 det d2
    have h1 : d.KeepsLanes laneKey d1 := d.stages_setMask _ _
    have h2 : d.KeepsLanes laneKey d2 := (h1.trans (d1.stages_pulse _ _ _ _)).ite h1
    exact (d.stages_setMask _ _).ite ((h2.trans (d2.stages_pulse _ _ _ _)).ite h2)

theorem Dev.stages_densEvent (g b e : Nat) : d.KeepsLanes laneKey (d.densEvent g b e) :=
  (Dev.KeepsLanes.refl d).sqEvent b (by unfold laneKey Reg.DENS_STATUS; omega) (not_laneKey_evSeq _)

theorem Dev.stages_densCount (f : Frame) : d.KeepsLanes laneKey (d.densCount f) := by
  unfold Dev.densCount
  extract_lets ws w w5 g i hits gr d1 d2 d3 d4 inRegion st n fire d5
  have h1 : d.KeepsLanes laneKey d1 := d.stages_setGrid _ _
  have h2 : d.KeepsLanes laneKey d2 := h1.wr (by unfold i laneKey Reg.DENS_CLIPHI; omega) _
  have h3 : d.KeepsLanes laneKey d3 := h2.wr (by unfold i laneKey Reg.DENS_CLIPLO; omega) _
  have h4 : d.KeepsLanes laneKey d4 := (h3.trans (d3.stages_densEvent _ _ _)).ite h3
  have h5 : d.KeepsLanes laneKey d5 := h4.trans (d4.stages_setDen _ _)
  exact (h5.trans (d5.stages_pulse _ _ _ _)).ite h5

theorem Dev.stages_densStop (gov : Nat) : d.KeepsLanes laneKey (d.densStop gov) := by
  unfold Dev.densStop
  split
  · exact .refl d
  · extract_lets old left pay d1
    have h1 : d.KeepsLanes laneKey d1 := (Dev.KeepsLanes.refl d).of_keeps ((Dev.Keeps.refl d).of_units rfl rfl rfl rfl) rfl rfl
    exact (Dev.KeepsLanes.refl d).ite ((h1.wr (by unfold laneKey Reg.DENS_SKIPS; omega) _).trans (Dev.stages_densEvent _ _ _ _))

theorem Dev.stages_sweepTo (gov upto : Nat) : d.KeepsLanes laneKey (d.sweepTo gov upto) := by
  unfold Dev.sweepTo
  split
  · exact .refl d
  · extract_lets w ms cells d1 per all k d2
    have h1 : d.KeepsLanes laneKey d1 := (Dev.KeepsLanes.refl d).foldl fun d l => d.stages_setGrid _ _
    have h2 : d.KeepsLanes laneKey d2 := h1.foldl fun d i => d.stages_push _ _
    exact h2.trans (d2.stages_setDen _ _)

theorem Dev.stages_sweepEnd (gov : Nat) : d.KeepsLanes laneKey (d.sweepEnd gov) := d.stages_sweepTo _ _

theorem Dev.stages_sweepOn (gov tEnd : Nat) : d.KeepsLanes laneKey (d.sweepOn gov tEnd) := by
  unfold Dev.sweepOn
  split
  · exact .refl d
  · exact d.stages_draw.trans (Dev.stages_sweepTo _ _ _)

/-- Folded steps on the device, beside what they collect, that each leave the frames still to come. -/
theorem Dev.KeepsLanes.foldl_fst {P : Nat → Prop} {α β : Type} {a : Dev} {f : Dev × β → α → Dev × β} {l : List α} {b : Dev × β}
    (h : a.KeepsLanes P b.1) (hf : ∀ (b : Dev × β) (x : α), b.1.KeepsLanes P (f b x).1) : a.KeepsLanes P (l.foldl f b).1 := by
  induction l generalizing b with
  | nil => exact h
  | cons x l ih => exact ih (h.trans (hf b x))

theorem Dev.stages_densHeads (gov k0 last wt : Nat) (st : DensSt) (ended : Bool) : d.KeepsLanes laneKey (d.densHeads gov k0 last wt st ended).1 :=
  Dev.KeepsLanes.foldl_fst (.refl d) fun b _ => b.1.stages_form _ []

theorem Dev.stages_densClose (gov last : Nat) (early : Bool) : d.KeepsLanes laneKey (d.densClose gov last early) := by
  unfold Dev.densClose
  extract_lets d0 st w ms t1 d1 wt cells per
  have h0 : d.KeepsLanes laneKey d0 := d.stages_sweepEnd _
  have h1 : d.KeepsLanes laneKey d1 := (h0.trans (d0.stages_densStop _)).wr (by unfold laneKey Reg.DENS_EPOCHS; omega) _
  split
  · exact h0
  · extract_lets k0 t0 p d2 next d3 d4
    have h2 : d.KeepsLanes laneKey d2 := by
      unfold d2 p
      split
      · exact h1.trans (d1.stages_densHeads _ _ _ _ _ _)
      · exact h1
    have h3 : d.KeepsLanes laneKey d3 := h2.foldl fun d b => d.stages_push _ _
    have h4 : d.KeepsLanes laneKey d4 := h3.foldl fun d l => d.stages_setGrid _ _
    refine h0.ite ?_
    split
    · extract_lets d5
      have h5 : d.KeepsLanes laneKey d5 := (h1.trans (d1.stages_bankError _ _ _ _ _ _)).foldl fun d l => d.stages_setGrid _ _
      exact h5.trans (d5.stages_setDen _ _)
    · exact (h2.trans (d2.stages_setDen _ _)).ite (h4.trans (d4.stages_setDen _ _))

theorem Dev.stages_densDeliver (gov i : Nat) (of : Option Frame) : d.KeepsLanes laneKey (d.densDeliver gov i of) := by
  unfold Dev.densDeliver
  extract_lets ws w st0 st d1 st1 d2 ends
  refine (Dev.KeepsLanes.refl d).ite ?_
  have h1 : d.KeepsLanes laneKey d1 := d.stages_sweepOn _ _
  have h2 : d.KeepsLanes laneKey d2 := by
    unfold d2
    split
    · exact h1.trans (d1.stages_setDen _ _)
    · extract_lets d3
      have h3 : d.KeepsLanes laneKey d3 := h1.trans (d1.stages_setDen _ _)
      exact h3.ite (h3.trans (d3.stages_densCount _))
  split
  · exact .refl d
  · extract_lets full
    exact (h2.trans (d2.stages_densClose _ _ _)).ite h2

end Density

/-! ### Frames in their order (R28, R105, R149, R207) -/

section Order
variable (d : Dev) (gov : Nat)

theorem Dev.stages_deliver (i : Nat) (of : Option Frame) : d.KeepsLanes laneKey (d.deliver gov i of) :=
  ((d.stages_detDeliver _ _ _).trans (Dev.stages_maskDeliver _ _ _)).trans (Dev.stages_densDeliver _ _ _ _)

theorem Dev.stages_takeNext : d.KeepsLanes laneKey (d.takeNext gov) := by
  unfold Dev.takeNext
  extract_lets x of
  exact (d.stages_setLane (l := gov) (by rfl)).trans (Dev.stages_deliver _ _ _ _)

theorem Dev.stages_drainFrames (n : Nat) : d.KeepsLanes laneKey (d.drainFrames gov n) := by
  induction n generalizing d with
  | zero => exact .refl d
  | succ n ih => exact ((d.stages_takeNext gov).trans (ih _)).ite (.refl d)

theorem Dev.stages_flushStages (t : Nat) (restart : Bool) : d.KeepsLanes laneKey (d.flushStages gov t restart) := by
  unfold Dev.flushStages
  extract_lets n e
  have he : d.KeepsLanes laneKey e := (Dev.KeepsLanes.refl d).foldl fun d _ => d.stages_takeNext gov
  exact (he.foldl fun d l => d.stages_endFill l t).ite he

theorem Dev.stages_closeStages (det den : Bool) : d.KeepsLanes laneKey (d.closeStages gov det den) := by
  unfold Dev.closeStages
  extract_lets last e
  have he : d.KeepsLanes laneKey e := (d.stages_detClose _ _).ite (.refl d)
  exact ((he.trans (e.stages_densClose _ _ _)).trans (Dev.stages_sweepEnd _ _)).ite he

end Order

end Sys2Proof.Machine
end

section
/-! SUPPORT. A lane computes a frame: zeros of its port leave it ready, and what it counts stays counted. -/
namespace Sys2Proof.Machine

/-! ### Zeros of a port leave the lanes (R95) -/

/-- What a port's zeros leave beside setups and time: the lanes, their groups, and which streams are shed. -/
def Dev.framing (d : Dev) : Tab LaneSt × Tab GroupSt × (Nat → Bool) := (d.lanes, d.groups, fun s => (d.stream s).shed)

theorem Dev.framing_setStream (d : Dev) (s : Nat) (x : StreamSt) (h : x.shed = (d.stream s).shed) : (d.setStream s x).framing = d.framing := by
  refine Prod.ext rfl (Prod.ext rfl (funext fun j => ?_))
  simp only [Dev.framing, Dev.stream_setStream]
  split
  next heq => rw [heq, h]
  next => rfl

theorem Dev.framing_fresh (d : Dev) (n : Nat) : ({ d with fresh := n } : Dev).framing = d.framing := rfl

theorem Dev.framing_noteSat (d : Dev) (p : Nat) (l : List Smp) : (d.noteSat p l).framing = d.framing := by
  unfold Dev.noteSat Dev.sqEvent
  dsimp only
  split
  · rfl
  · split <;> rfl

theorem StreamSt.shed_addData (x : StreamSt) (l : List Smp) : (x.addData l).shed = x.shed := by
  unfold StreamSt.addData
  split <;> rfl

theorem StreamSt.shed_addFill (x : StreamSt) (n cause : Nat) : (x.addFill n cause).shed = x.shed := by
  unfold StreamSt.addFill
  split
  · rfl
  · split
    · split <;> rfl
    · rfl

theorem Dev.framing_fillStream (d : Dev) (s n : Nat) : (d.fillStream s n).framing = d.framing := by
  unfold Dev.fillStream
  dsimp only
  rw [Dev.framing_noteSat, Dev.framing_fresh, Dev.framing_setStream]
  rw [StreamSt.shed_addFill, StreamSt.shed_addData]

theorem Dev.framing_fillNow (d : Dev) (p : Nat) : (d.fillNow p).framing = d.framing := by
  rcases d.fillNow_cases p with h | ⟨upto, h⟩ <;> rw [h]
  exact view_foldl (v := Dev.framing) d fun d s _ => d.framing_fillStream s _

theorem Dev.lane_fillNow (d : Dev) (p l : Nat) : (d.fillNow p).lane l = d.lane l :=
  congrArg (fun x : Tab LaneSt × Tab GroupSt × (Nat → Bool) => x.1.get (fun _ => ({} : LaneSt)) l) (d.framing_fillNow p)

theorem Dev.group_fillNow (d : Dev) (p g : Nat) : (d.fillNow p).group g = d.group g :=
  congrArg (fun x : Tab LaneSt × Tab GroupSt × (Nat → Bool) => x.2.1.get (fun _ => ({} : GroupSt)) g) (d.framing_fillNow p)

theorem Dev.shed_fillNow (d : Dev) (p s : Nat) : ((d.fillNow p).stream s).shed = (d.stream s).shed :=
  congrArg (fun x : Tab LaneSt × Tab GroupSt × (Nat → Bool) => x.2.2 s) (d.framing_fillNow p)

theorem Dev.handoverDue_fillNow (d : Dev) (p l : Nat) : (d.fillNow p).handoverDue l = d.handoverDue l := by
  rw [Dev.handoverDue, Dev.handoverDue, Dev.group_fillNow, Dev.lane_fillNow]

theorem Dev.now_fillNow (d : Dev) (p : Nat) : (d.fillNow p).now = d.now :=
  Dev.now_congr (d.sameOn_fillNow (P := fun _ => False) fun _ _ => id).1

theorem Dev.laneNib_fillNow (d : Dev) {p l : Nat} (hp : p < 6) (hl : l < 96) : (d.fillNow p).laneNib l = d.laneNib l := by
  refine Dev.laneNib_congr hl (d.sameOn_fillNow ?_).2
  simp only [satKeys, List.mem_cons, List.not_mem_nil, or_false, forall_eq_or_imp, forall_eq, mapKey, Reg.SAT_COUNT, Reg.PORT_STATUS, Reg.EV_SEQ]
  omega

/-! ### A lane that is ready for its next frame (R115) -/

/-- No fault, takeover, shedding, hand-over or switch is in the way of lane l's next frame. -/
structure Dev.FrameReady (d : Dev) (l : Nat) : Prop where
  grid : (d.lane (d.governing l)).gridOn = true
  wanted : d.laneWanted l = true
  bound : d.laneNib l ≠ 15
  kept : (d.lane l).lostFrom = none
  room : (d.lane l).overFrom = none
  unshed : (d.stream (d.governing l)).shed = false
  held : d.handoverDue l = false
  still : d.dueGroup (d.governing l) = none
  portStill : d.dueGroup (48 + d.governing l / 8) = none

theorem Dev.FrameReady.fillNow {d : Dev} {l : Nat} (h : d.FrameReady l) (hl : l < 48) : (d.fillNow (l / 8)).FrameReady l := by
  have hcw := d.cw_fillNow (l / 8)
  have hgov := Dev.governing_congr hcw l
  exact {
    grid := by rw [hgov, Dev.lane_fillNow]; exact h.grid
    wanted := (Dev.laneWanted_congr hcw l).trans h.wanted
    bound := by rw [Dev.laneNib_fillNow d (by omega) (by omega)]; exact h.bound
    kept := by rw [Dev.lane_fillNow]; exact h.kept
    room := by rw [Dev.lane_fillNow]; exact h.room
    unshed := by rw [hgov, Dev.shed_fillNow]; exact h.unshed
    held := (d.handoverDue_fillNow _ l).trans h.held
    still := by rw [hgov, Dev.dueGroup_congr hcw]; exact h.still
    portStill := by rw [hgov, Dev.dueGroup_congr hcw]; exact h.portStill }

/-! ### What a computed frame leaves (R115, R121, R127, R131) -/

/-- The registers that count the frames of the lanes. -/
def frameKey (j : Nat) : Prop := j < 0x100000 ∧ 0x240 ≤ j % 0x10000 ∧ j % 0x10000 < 0x280

theorem frameKey_laneFrames {g i : Nat} (hg : g < 8) (hi : i < 12) : frameKey (Reg.LANE_FRAMES g i) := by unfold frameKey Reg.LANE_FRAMES; omega

theorem laneKey_of_frameKey (j : Nat) (h : frameKey j) : laneKey j := by unfold frameKey at h; unfold laneKey; omega

theorem not_frameKey_evSeq (n : Nat) : ¬ frameKey (Reg.EV_SEQ n) := by unfold frameKey Reg.EV_SEQ; omega

theorem not_frameKey_grpStatus (g : Nat) : ¬ frameKey (Reg.GRP_STATUS g) := by unfold frameKey Reg.GRP_STATUS; omega

theorem not_frameKey_bindKeys (l : Nat) : ∀ k ∈ bindKeys l, ¬ frameKey k := by
  simp only [bindKeys, List.mem_cons, List.not_mem_nil, or_false, forall_eq_or_imp, forall_eq, frameKey, Reg.GRP_MAP_LO, Reg.GRP_MAP_HI, Reg.LANE_INFO]
  omega

theorem not_frameKey_spareKeys (g : Nat) : ∀ k ∈ spareKeys g, ¬ frameKey k := by
  simp only [spareKeys, List.mem_cons, List.not_mem_nil, or_false, forall_eq_or_imp, forall_eq, frameKey, Reg.GRP_MAP_HI, Reg.GRP_STATUS,
    Reg.DET_STATUS]
  omega

theorem not_frameKey_findKeys : ∀ k ∈ findKeys, ¬ frameKey k := by
  simp only [findKeys, List.mem_cons, List.not_mem_nil, or_false, forall_eq_or_imp, forall_eq, frameKey, Reg.FL_STATUS, Reg.EV_SEQ, Reg.LOG_OVERFLOW]
  omega

section Frame
variable (d : Dev)

theorem Dev.stages_setGroup {P : Nat → Prop} (g : Nat) (x : GroupSt) : d.KeepsLanes P (d.setGroup g x) :=
  (Dev.KeepsLanes.refl d).of_keeps ((Dev.Keeps.refl d).of_units rfl rfl rfl rfl) rfl rfl

theorem Dev.stages_grpEvent (g b e : Nat) : d.KeepsLanes frameKey (d.grpEvent g b e) :=
  (Dev.KeepsLanes.refl d).sqEvent b (not_frameKey_grpStatus g) (not_frameKey_evSeq _)

theorem Dev.stages_seepFind (code root port : Nat) : d.KeepsLanes frameKey (d.seepFind code root port) := by
  refine (Dev.KeepsLanes.refl d).of_keeps (d.keeps_seepFind _ _ _ not_frameKey_findKeys) ?_ ?_
  all_goals
    unfold Dev.seepFind Dev.sqEvent
    split <;> rfl

theorem Dev.stages_logRetire (unit phys finding : Nat) : d.KeepsLanes frameKey (d.logRetire unit phys finding) := by
  refine (Dev.KeepsLanes.refl d).of_keeps (d.keeps_logRetire _ _ _ not_frameKey_findKeys) ?_ ?_
  all_goals
    unfold Dev.logRetire Dev.logEntry
    split <;> rfl

theorem Dev.stages_shadowMismatch (g : Nat) (sh : Shadow) : d.KeepsLanes frameKey (d.shadowMismatch g sh) := by
  unfold Dev.shadowMismatch
  extract_lets q x d1 d2
  have h1 : d.KeepsLanes frameKey (d1.addSat (Reg.MISMATCH_COUNT g) 1) :=
    (d.stages_setGroup _ _).wr (by unfold frameKey Reg.MISMATCH_COUNT; omega) _
  have h2 : d.KeepsLanes frameKey d2 := (h1.trans (Dev.stages_grpEvent _ _ _ _)).trans (Dev.stages_seepFind _ _ _ _)
  exact h2.ite (h2.trans (d2.stages_logRetire _ _ _))

theorem Dev.stages_spectrumRecord (f : Frame) : d.KeepsLanes frameKey (d.spectrumRecord f) := by
  unfold Dev.spectrumRecord
  extract_lets ws t pay d1
  have h1 : d.KeepsLanes frameKey d1 :=
    ((Dev.KeepsLanes.refl d).wr (by unfold frameKey Reg.SPEC_DROPS; omega) _).trans (Dev.stages_grpEvent _ _ _ _)
  exact ((d.stages_emit _ _ _).ite (h1.trans (d1.stages_laneGap _ _ _ _ _ _ _))).ite (.refl d)

theorem Dev.stages_endShadow (g : Nat) : d.KeepsLanes frameKey (d.endShadow g) := (d.stages_setGroup _ _).wr (not_frameKey_grpStatus g) _

theorem Dev.stages_retireLane (g q : Nat) : d.KeepsLanes frameKey (d.retireLane g q) :=
  ((((Dev.KeepsLanes.refl d).wr (by unfold frameKey Reg.GRP_RETIRED; omega) _).trans (Dev.stages_grpEvent _ _ _ _)).wr
    (by unfold frameKey Reg.ROT_TIME_LO; omega) _).wr (by unfold frameKey Reg.ROT_TIME_HI; omega) _

theorem Dev.stages_abandonShadow (g : Nat) : d.KeepsLanes frameKey (d.abandonShadow g) := by
  unfold Dev.abandonShadow
  split
  · exact .refl d
  next sh _ =>
    extract_lets d1 old
    have h1 : d.KeepsLanes frameKey d1 := d.stages_endShadow g
    have hbind : d1.KeepsLanes frameKey (d1.bindLane sh.lane (d1.spareOf g)) :=
      (d1.work_bindLane (not_frameKey_bindKeys _)).keepsLanes fun m => congrArg LaneSt.core (d1.lane_bindLane m)
    have hshow := (h1.trans hbind).wr (k := Reg.LANE_INFO (sh.lane / 12) (sh.lane % 12)) (not_frameKey_bindKeys sh.lane _ (by simp [bindKeys]))
    have hspare (e : Dev) : e.KeepsLanes frameKey (e.setSpare g 15) :=
      (e.work_setSpare (not_frameKey_spareKeys g)).keepsLanes fun m => congrArg LaneSt.core (e.lane_setSpare m)
    exact (((hshow _).trans (hspare _)).trans (Dev.stages_retireLane _ _ _)).ite (h1.trans (d1.stages_setGroup _ _))

theorem Dev.stages_endCut (g : Nat) : d.KeepsLanes frameKey (d.endCut g) := by
  unfold Dev.endCut
  split
  · exact (d.stages_abandonShadow g).ite (.refl d)
  · exact .refl d

theorem Dev.stages_renderCheck : d.KeepsLanes frameKey d.renderCheck := by
  unfold Dev.renderCheck
  split
  · exact .refl d
  · extract_lets e
    have hlate : d.KeepsLanes frameKey ((d.addSat Reg.RENDER_LATES 1).sqEvent Reg.DISP_STATUS 12 1393) :=
      ((Dev.KeepsLanes.refl d).wr (by unfold frameKey Reg.RENDER_LATES; omega) _).sqEvent 12 (by unfold frameKey Reg.DISP_STATUS; omega)
        (not_frameKey_evSeq _)
    exact (hlate.of_keeps (Dev.keeps_beginRender _) rfl rfl).ite (.refl d)

end Frame

/-! ### FRAME_COMPUTE (R115) -/

/-- Lane l has taken its next frame: its run of fill before t ends, and the frame is counted. -/
def Dev.frameTaken (d : Dev) (l t : Nat) : Dev :=
  (((d.skipFrames l 1).trimInput (d.governing l)).endFill l t).add (Reg.LANE_FRAMES (l / 12) (l % 12)) 1

theorem Dev.members_congr {d e : Dev} (h : e.cw = d.cw) (gov : Nat) : e.members gov = d.members gov := by
  rw [Dev.members, Dev.members, Dev.portForce_congr h]

theorem Dev.restartAt_still {d : Dev} {gov : Nat} (h : d.dueGroup gov = none) (hp : d.dueGroup (48 + gov / 8) = none) : d.restartAt gov = none := by
  rw [Dev.restartAt, h, hp]

theorem Dev.FrameReady.free {d : Dev} {l : Nat} (h : d.FrameReady l) (past : Bool) (hpast : past = false) :
    (!(d.lane (d.governing l)).gridOn || !d.laneWanted l || d.laneNib l = 15 || (d.lane l).lostFrom.isSome || d.shedNow l || past
      || d.handoverDue l) = false := by
  simp [h.grid, h.wanted, h.bound, h.kept, h.held, hpast, Dev.shedNow, h.unshed]

/-- A frame whose samples are all there, not all of them fill, is taken, and what its records and its shadow do leaves the count. -/
theorem laneFrame_taken {d e : Dev} {l : Nat} (bad : Bool) {smp : List Smp} (he : e = d.fillNow (l / 8)) (hready : e.FrameReady l)
    (hsmp : e.frameSamples (e.governing l) (e.frameStart (e.governing l) (e.lane l).next) (laneN (e.force (e.governing l))) = some smp)
    (hfill : (smp.all fun x => x.fill ≠ 0) = false) :
    ∃ t f a, laneFrame l bad d = (a, some f) ∧ (e.frameTaken l t).KeepsLanes frameKey a := by
  unfold laneFrame
  rw [← he]
  extract_lets d0 gov x ws n g start t0 tEnd cut past d1 mixed sh last d2 d3
  have hpast : past = false := by
    unfold past cut
    rw [hready.still, Dev.restartAt_still hready.still hready.portStill]
    rfl
  have hover : x.overFrom.isSome = false := congrArg Option.isSome hready.room
  rw [if_neg (Bool.eq_false_iff.mp (hready.free past hpast)), hsmp]
  dsimp -zeta only
  rw [if_neg (Bool.eq_false_iff.mp hover), if_neg (Bool.eq_false_iff.mp hfill)]
  extract_lets sp f d4 d5
  have h4 : d3.KeepsLanes frameKey d4 := ((Dev.KeepsLanes.refl d3).wr (by unfold frameKey Reg.LANE_SAT; omega) _).ite (.refl d3)
  have h5 : d3.KeepsLanes frameKey d5 := by
    clear_value sh
    cases sh with
    | some sh => exact (h4.trans (d4.stages_shadowMismatch _ _)).ite h4
    | none => exact h4
  exact ⟨t0, f, _, rfl, (h5.trans (d5.stages_spectrumRecord f)).trans (Dev.stages_endCut _ g)⟩

theorem Dev.n_frameTaken (d : Dev) (l t : Nat) :
    (d.frameTaken l t).n (Reg.LANE_FRAMES (l / 12) (l % 12)) = (d.n (Reg.LANE_FRAMES (l / 12) (l % 12)) + 1) % 2 ^ 32 := by
  have hend := (Dev.work_endFill (P := fun _ => True) ((d.skipFrames l 1).trimInput (d.governing l)) (l := l) t).rd (j := Reg.LANE_FRAMES (l / 12) (l % 12)) trivial
  rw [Dev.frameTaken, Dev.n_add_self, Dev.n_congr hend]
  rfl

theorem Dev.next_frameTaken (d : Dev) (l t : Nat) :
    ((d.frameTaken l t).lane l).next = (d.lane l).next + (d.members (d.governing l)).length := by
  have hend : ((d.frameTaken l t).lane l).next = (((d.skipFrames l 1).trimInput (d.governing l)).lane l).next :=
    (Dev.stages_endFill (P := fun _ => True) ((d.skipFrames l 1).trimInput (d.governing l)) l t).next l
  have hskip : (((d.skipFrames l 1).trimInput (d.governing l)).lane l).next = (d.lane l).next + 1 * (d.members (d.governing l)).length :=
    congrArg LaneSt.next (Dev.lane_setLane_self d l _)
  rw [hend, hskip, Nat.one_mul]

theorem Dev.now_frameTaken (d : Dev) (l t : Nat) : (d.frameTaken l t).now = d.now :=
  (Dev.work_endFill (P := fun _ => True) ((d.skipFrames l 1).trimInput (d.governing l)) (l := l) t).now

/-- A computed frame waits for its turn in the order of its stream (R28). -/
def Dev.queued (d : Dev) (gov : Nat) (f : Frame) : Dev := d.setLane gov { d.lane gov with ready := (d.lane gov).ready ++ [f] }

theorem Dev.stages_queued {P : Nat → Prop} (d : Dev) (gov : Nat) (f : Frame) : d.KeepsLanes P (d.queued gov f) := by
  refine d.stages_setLane ?_
  rfl

theorem stages_frameCompute {d e : Dev} {l : Nat} {bad : Bool} {f : Frame} (h : laneFrame l bad d = (e, some f)) :
    e.KeepsLanes frameKey (frameCompute l bad d) := by
  have heff : frameCompute l bad d = (e.queued (d.governing l) f).drainFrames (d.governing l) ((e.queued (d.governing l) f).drainFuel (d.governing l)) := by
    unfold frameCompute
    rw [h]
    rfl
  rw [heff]
  exact (e.stages_queued _ f).trans ((Dev.stages_drainFrames _ _ _).mono laneKey_of_frameKey)

theorem exec_frameCompute (s : State) (l : Fin 48) (mismatch : Bool) (smp : List Smp) (hgrid : (s.dev.lane (s.dev.governing l)).gridOn = true)
    (hwanted : s.dev.laneWanted l = true) (hbound : s.dev.laneNib l ≠ 15) (hkept : (s.dev.lane l).lostFrom = none)
    (hroom : (s.dev.lane l).overFrom = none) (hunshed : (s.dev.stream (s.dev.governing l)).shed = false) (hheld : s.dev.handoverDue l = false)
    (hstill : s.dev.dueGroup (s.dev.governing l) = none) (hport : s.dev.dueGroup (48 + s.dev.governing l / 8) = none)
    (hsmp : (s.dev.fillNow (l / 8)).frameSamples (s.dev.governing l) (s.dev.frameStart (s.dev.governing l) (s.dev.lane l).next) (laneN (s.dev.laneForce l))
      = some smp)
    (hfill : (smp.all fun x => x.fill ≠ 0) = false) :
    ∃ t, exec (.frameCompute l mismatch) s = .next t
      ∧ t.dev.n (Reg.LANE_FRAMES (l / 12) (l % 12)) = (s.dev.n (Reg.LANE_FRAMES (l / 12) (l % 12)) + 1) % 2 ^ 32
      ∧ (t.dev.lane l).next = (s.dev.lane l).next + (s.dev.members (s.dev.governing l)).length ∧ t.dev.now = s.dev.now := by
  have hl := l.isLt
  have hready : s.dev.FrameReady l := ⟨hgrid, hwanted, hbound, hkept, hroom, hunshed, hheld, hstill, hport⟩
  have hcw := s.dev.cw_fillNow (l / 8)
  have hgov := Dev.governing_congr hcw l
  have hmembers : (s.dev.fillNow (l / 8)).members (s.dev.governing l) = s.dev.members (s.dev.governing l) := Dev.members_congr hcw _
  have hkey : frameKey (Reg.LANE_FRAMES (l / 12) (l % 12)) := frameKey_laneFrames (by omega) (by omega)
  have hsat : ∀ k ∈ satKeys (l / 8), ¬ frameKey k := by
    simp only [satKeys, List.mem_cons, List.not_mem_nil, or_false, forall_eq_or_imp, forall_eq, frameKey, Reg.SAT_COUNT, Reg.PORT_STATUS, Reg.EV_SEQ]
    omega
  obtain ⟨t, f, a, hframe, htaken⟩ := laneFrame_taken mismatch rfl (hready.fillNow hl) (smp := smp) (by
    rw [hgov, Dev.lane_fillNow, Dev.frameStart, Dev.lane_fillNow, Dev.force_congr hcw]
    exact hsmp) hfill
  have hkeep := (htaken.trans (stages_frameCompute hframe)).trans (Dev.stages_renderCheck _)
  refine ⟨_, rfl, ?_, ?_, ?_⟩
  · rw [Dev.n_congr (hkeep.keeps.rd hkey), Dev.n_frameTaken, Dev.n_congr ((s.dev.sameOn_fillNow hsat).2 _ hkey)]
  · exact (hkeep.next l).trans ((Dev.next_frameTaken ..).trans (by rw [hgov, hmembers, Dev.lane_fillNow]))
  · exact (Dev.now_congr hkeep.keeps.tb).trans ((Dev.now_frameTaken ..).trans (s.dev.now_fillNow _))

/-! ### Overruns and lanes out of service (R126, R133) -/

theorem exec_laneOverrunResume (s : State) (l : Fin 48) (t0 : Nat) (hover : (s.dev.lane l).overFrom = some t0)
    (hroom : (s.dev.stream (s.dev.governing l)).next < s.dev.frameStart (s.dev.governing l) (s.dev.lane l).next + 65536) :
    ∃ t, exec (.laneOverrunResume l) s = .next t ∧ (t.dev.lane l).overFrom = none
      ∧ (t.dev.outOf (48 + l)).length = (s.dev.outOf (48 + l)).length + 1 ∧ (t.dev.lane l).next = (s.dev.lane l).next ∧ ∀ j, t.dev.rd j = s.dev.rd j := by
  have heff : laneOverrunResume l s.dev = (s.dev.setLane l { s.dev.lane l with overFrom := none }).laneGap l 0x22 0 0 t0 (s.dev.nextStart l) false := by
    unfold laneOverrunResume Dev.endOverrun
    rw [hover]
    exact if_pos hroom
  have hlane := Dev.lane_setLane_self s.dev l { s.dev.lane l with overFrom := none }
  have hnext := congrArg LaneSt.next hlane
  exact ⟨_, next_congr heff, congrArg LaneSt.overFrom hlane, Dev.length_outOf_laneGap .., hnext, fun _ => rfl⟩

theorem exec_noLaneGap (s : State) (l : Fin 48) (t0 : Nat) (hoos : (s.dev.lane l).oosFrom = some t0) (hlong : elapsedNs t0 s.dev.now 1000000 = true) :
    ∃ t, exec (.noLaneGap l) s = .next t ∧ (t.dev.lane l).oosFrom = some (t0 + nsUnits 1000000)
      ∧ (t.dev.outOf (48 + l)).length = (s.dev.outOf (48 + l)).length + 1 ∧ ∀ j, t.dev.rd j = s.dev.rd j := by
  have heff : noLaneGap l s.dev
      = (s.dev.setLane l { s.dev.lane l with oosFrom := some (t0 + nsUnits 1000000) }).laneGap l 0x21 0 0 t0 (t0 + nsUnits 1000000) true := by
    unfold noLaneGap
    rw [hoos]
    exact if_pos hlong
  have hlane := Dev.lane_setLane_self s.dev l { s.dev.lane l with oosFrom := some (t0 + nsUnits 1000000) }
  exact ⟨_, next_congr heff, congrArg LaneSt.oosFrom hlane, Dev.length_outOf_laneGap .., fun _ => rfl⟩

end Sys2Proof.Machine
end

section
/-! SUPPORT. A first setup of a lane comes into force at its boundary. -/
namespace Sys2Proof.Machine

/-! ### The boundary stays reached while the stages finish (R108, R109) -/

section Due
variable {d e : Dev} (h : d.KeepsLanes laneKey e)
include h

theorem Dev.KeepsLanes.stream (s : Nat) : e.stream s = d.stream s := by rw [Dev.stream, Dev.stream, h.streams]

theorem Dev.KeepsLanes.gridOn (m : Nat) : (e.lane m).gridOn = (d.lane m).gridOn :=
  show (e.lane m).core.gridOn = (d.lane m).core.gridOn from congrArg LaneSt.gridOn (h.core m)

theorem Dev.KeepsLanes.b0 (m : Nat) : (e.lane m).b0 = (d.lane m).b0 :=
  show (e.lane m).core.b0 = (d.lane m).core.b0 from congrArg LaneSt.b0 (h.core m)

theorem Dev.KeepsLanes.lostFrom (m : Nat) : (e.lane m).lostFrom = (d.lane m).lostFrom :=
  show (e.lane m).core.lostFrom = (d.lane m).core.lostFrom from congrArg LaneSt.lostFrom (h.core m)

theorem Dev.KeepsLanes.overFrom (m : Nat) : (e.lane m).overFrom = (d.lane m).overFrom :=
  show (e.lane m).core.overFrom = (d.lane m).core.overFrom from congrArg LaneSt.overFrom (h.core m)

theorem Dev.KeepsLanes.tagOf (s i : Nat) : e.tagOf s i = d.tagOf s i := by rw [Dev.tagOf, Dev.tagOf, h.stream]

theorem Dev.KeepsLanes.idxAt (s t : Nat) : e.idxAt s t = d.idxAt s t := by rw [Dev.idxAt, Dev.idxAt, h.stream]

theorem Dev.KeepsLanes.framesTo (gov t : Nat) (restart : Bool) : e.framesTo gov t restart = d.framesTo gov t restart := by
  unfold Dev.framesTo
  dsimp only
  rw [Dev.force_congr h.keeps.cw, h.idxAt, h.b0, h.tagOf]

theorem Dev.KeepsLanes.boundaryTag (gov t : Nat) : e.boundaryTag gov t = d.boundaryTag gov t := by
  unfold Dev.boundaryTag Dev.boundary
  rw [h.stream, h.tagOf, h.idxAt, h.b0, h.gridOn, Dev.force_congr h.keeps.cw]

theorem Dev.KeepsLanes.nextStart (l : Nat) : e.nextStart l = d.nextStart l := by
  unfold Dev.nextStart Dev.frameStart
  rw [Dev.governing_congr h.keeps.cw, h.tagOf, h.b0, h.next, Dev.force_congr h.keeps.cw]

theorem Dev.KeepsLanes.shedNow (l : Nat) : e.shedNow l = d.shedNow l := by
  unfold Dev.shedNow
  rw [Dev.governing_congr h.keeps.cw, h.stream, h.nextStart]

theorem Dev.KeepsLanes.laneStands {l : Nat} (hl : l < 96) : e.laneStands l = d.laneStands l := by
  unfold Dev.laneStands
  dsimp only
  rw [Dev.laneNib_congr hl fun j hj => h.keeps.rd (laneKey_of_mapKey j hj), h.lostFrom, h.overFrom, h.shedNow]

end Due

/-- A gang's members are among the eight lanes from its governing lane on. -/
theorem Dev.lt_of_mem_members {d : Dev} {gov m : Nat} (h : m ∈ d.members gov) : m < gov + 8 := by
  have hfld := fld_lt (wd (d.portForce (gov / 8)) 0) 76 2
  have hw : portW (d.portForce (gov / 8)) ≤ 2 ^ 3 := Nat.pow_le_pow_right (by decide) (by omega)
  unfold Dev.members at h
  dsimp only at h
  split at h
  · obtain ⟨i, hi, rfl⟩ := List.mem_map.mp h
    rw [List.mem_range] at hi
    omega
  · rw [List.mem_singleton.mp h]
    omega

theorem Dev.KeepsLanes.laneDue {d e : Dev} (h : d.KeepsLanes laneKey e) {l : Nat} (hl : l < 48) : e.laneDue l = d.laneDue l := by
  have hcw := h.keeps.cw
  unfold Dev.laneDue
  rw [Dev.dueGroup_congr hcw]
  cases d.dueGroup l with
  | none => rfl
  | some gk =>
    have hstands (n : Nat) (due : Bool) : ((d.members l).all fun m => decide (n ≤ (e.lane m).next) || (e.laneStands m && due))
        = (d.members l).all fun m => decide (n ≤ (d.lane m).next) || (d.laneStands m && due) := by
      rw [Bool.eq_iff_iff, List.all_eq_true, List.all_eq_true]
      refine forall₂_congr fun m hm => ?_
      have hm96 : m < 96 := (Dev.lt_of_mem_members hm).trans (by omega)
      rw [h.next, h.laneStands hm96]
    dsimp only
    rw [Dev.governing_congr hcw, h.gridOn, Dev.force_congr hcw, Dev.slot_congr hcw, h.framesTo, h.boundaryTag, Dev.members_congr hcw,
      Dev.now_congr h.keeps.tb, hstands]

/-! ### A lane takes its first setup (R103, R108, R363) -/

theorem Dev.slot_firstTaken_ne (d : Dev) {t k m j : Nat} (g : Grp) (h : m ≠ t) (hk : k < 16) (hj : j < 16) :
    (d.firstTaken t g k).slot m j = d.slot m j :=
  (Tab.get_set (fun _ => ({} : Slot)) d.cw.slots (16 * m + j) (16 * t + k) { st := 3, words := (d.slot t k).words }).trans (if_neg (by omega))

/-- The setups of the other targets stay. -/
theorem Dev.force_firstTaken_ne (d : Dev) {t k m : Nat} (g : Grp) (h : m ≠ t) (hk : k < 16) : (d.firstTaken t g k).force m = d.force m := by
  have hin : (d.firstTaken t g k).slotIn m 3 = d.slotIn m 3 :=
    List.find?_congr fun j hj => by rw [d.slot_firstTaken_ne g h hk (List.mem_range.mp hj)]
  unfold Dev.force
  rw [hin]
  cases hj : d.slotIn m 3 with
  | none => rfl
  | some j => exact congrArg Slot.words (d.slot_firstTaken_ne g h hk (List.mem_range.mp (List.mem_of_find?_eq_some hj)))

/-- A lane that governs itself under no setup carries no stream's frames. -/
theorem Dev.laneWanted_of_none {d : Dev} {l : Nat} (hgov : d.governing l = l) (hnone : d.slotIn l 3 = none) : d.laneWanted l = false := by
  have hlog : laneLog2N (d.laneForce l) = 0 := by
    rw [Dev.laneForce, hgov, Dev.force_of_none hnone]
    rfl
  simp [Dev.laneWanted, hlog]

theorem Dev.keeps_endShed {P : Nat → Prop} (d : Dev) (s t1 : Nat) : d.Keeps P (d.endShed s t1) := by
  unfold Dev.endShed
  split
  · extract_lets x e
    have he : d.Keeps P e := d.keeps_setStream _ _
    refine .ite (he.trans ?_) he
    exact (Dev.Keeps.refl _).foldl fun d l _ => (d.keeps_endFill _ _).trans (Dev.keeps_laneGap _ _ _ _ _ _ _ _)
  · exact .refl d

theorem Dev.keeps_regrid (d : Dev) (gov b t : Nat) (restart : Bool) : d.Keeps portKey (d.regrid gov b t restart) := by
  unfold Dev.regrid
  extract_lets on d1 x d2
  have h1 : d.Keeps portKey d1 := (d.keeps_startGrid _ _ _).ite (.refl d)
  have h2 : d.Keeps portKey d2 := h1.trans (d1.keeps_setLane _ _)
  exact h2.foldl fun d l _ => (d.keeps_showWindow _ _).trans (Dev.keeps_showLane _ _)

/-- A lane that had no setup takes one, and what it starts and ends leaves the setups. -/
theorem laneSwitch_first {d : Dev} {l k : Nat} {g : Grp} (hreached : d.laneDue l = true) (hdue : d.dueGroup l = some (g, k))
    (hnone : d.slotIn l 3 = none) : (laneSwitch l d).1.cw = (d.firstTaken l g k).cw := by
  have hidle : ¬ (d.governing l = l ∧ d.laneWanted l = true) := fun ⟨hgov, hlive⟩ => by simp [Dev.laneWanted_of_none hgov hnone] at hlive
  unfold laneSwitch
  extract_lets x num teff b t gov gr live was d0
  have h0 : d0 = d := if_neg hidle
  rw [if_neg (by simp [hreached]), h0, Dev.takeSwitch_first hdue hnone]
  dsimp -zeta only
  split
  · rfl
  · extract_lets restart d1 x1 d2 d3 d4
    have hend : ((d.firstTaken l g k).showTarget l).Keeps portKey d1 :=
      .ite (((Dev.Keeps.refl _).foldl fun d m _ => d.keeps_endRuns m t).trans (Dev.keeps_endShed _ _ _)) (.refl _)
    have hgrid : d2.Keeps portKey d3 := (d2.keeps_regrid _ _ _ _).trans (Dev.keeps_markBrought _ _ _ _)
    have hall := (((hend.trans (d1.keeps_setLane _ _)).trans hgrid).trans (d3.keeps_shedStart l t)).trans (d4.keeps_serve gr t num)
    exact hall.cw

theorem Dev.cw_firstTaken_congr {d e : Dev} (h : e.cw = d.cw) (t k : Nat) (g : Grp) : (e.firstTaken t g k).cw = (d.firstTaken t g k).cw := by
  unfold Dev.firstTaken Dev.setSlot Dev.slot
  dsimp only
  rw [h]

/-- What a lane's stream finishes before its setup, and what it restarts after it, leaves the setups. -/
theorem cw_laneSwitchBoundary_first {d : Dev} {l k : Nat} {g : Grp} (hl : l < 48) (hreached : d.laneDue l = true) (hdue : d.dueGroup l = some (g, k))
    (hnone : d.slotIn l 3 = none) : (laneSwitchBoundary l d).cw = (d.firstTaken l g k).cw := by
  unfold laneSwitchBoundary
  rw [hdue]
  dsimp -zeta only
  rw [if_neg (by simp [hreached])]
  split
  · exact laneSwitch_first hreached hdue hnone
  · extract_lets old new restart det den d1 d2 d3 d4
    have h1 : d.KeepsLanes laneKey d1 := (d.stages_flushStages _ _ _).ite (.refl d)
    have h2 : d.KeepsLanes laneKey d2 := h1.trans (d1.stages_closeStages _ _ _)
    have hcw := h2.keeps.cw
    have hswitch : d3.cw = (d2.firstTaken l g k).cw :=
      laneSwitch_first ((h2.laneDue hl).trans hreached) ((Dev.dueGroup_congr hcw l).trans hdue) ((Dev.slotIn_congr hcw l 3).trans hnone)
    have hdet : d3.Keeps portKey d4 := (d3.keeps_detRestart _ _).ite (.refl d3)
    have hrestart : d3.Keeps portKey (if restart = true then d3.restartStages l else if den = true then d4.densRestart l false else d4) :=
      (d3.keeps_restartStages l).ite ((hdet.trans (d4.keeps_densRestart _ _)).ite hdet)
    exact hrestart.cw.trans (hswitch.trans (Dev.cw_firstTaken_congr hcw l k g))

theorem exec_laneSwitchBoundary_first (s : State) (l : Fin 48) (g : Grp) (k : Nat) (hreached : s.dev.laneDue l = true)
    (hdue : s.dev.dueGroup l = some (g, k)) (hk : k < 16) (hnone : s.dev.slotIn l 3 = none) :
    ∃ t, exec (.laneSwitchBoundary l) s = .next t ∧ t.dev.force l = (s.dev.slot l k).words ∧ (t.dev.slot l k).st = 3
      ∧ t.dev.swOf l = (s.dev.swOf l + 1) % 2 ^ 28 ∧ ∀ m : Fin 48, m ≠ l → t.dev.force m = s.dev.force m := by
  have hcw : (laneSwitchBoundary l s.dev).renderCheck.cw = (s.dev.firstTaken l g k).cw :=
    (Dev.keeps_renderCheck _).cw.trans (cw_laneSwitchBoundary_first l.isLt hreached hdue hnone)
  refine ⟨_, rfl, (Dev.force_congr hcw l).trans (Dev.force_firstTaken hk hnone g), ?_,
    (Dev.swOf_congr hcw l).trans (s.dev.swOf_firstTaken l k g), fun m hm => (Dev.force_congr hcw m).trans ?_⟩
  · exact congrArg Slot.st ((Dev.slot_congr hcw l k).trans ((s.dev.slot_firstTaken l k k g).trans (if_pos rfl)))
  · exact s.dev.force_firstTaken_ne g (Fin.val_ne_of_ne hm) hk

end Sys2Proof.Machine

namespace Sys2Proof
open Sys2Proof.Machine

/-- Settles O18, command by command. -/
theorem laneFrames : Obligations.LaneFrames := by
  unfold Obligations.LaneFrames
  exact ⟨exec_frameCompute, exec_laneOverrunResume, exec_noLaneGap, exec_laneSwitchBoundary_first⟩

end Sys2Proof
end

section
/-! SUPPORT. The trigger fabric's state after an update of one of its units, and what forming and placing its records leaves alone (R195, R197, R198). -/
namespace Sys2Proof.Machine

/-! ### One unit of the fabric -/

@[simp] theorem Dev.qs_setQs (d : Dev) (p q : Nat) (x : QsSt) : (d.setQs p x).qs q = if q = p then x else d.qs q :=
  Tab.get_set _ _ _ _ _

@[simp] theorem Dev.trigUntil_setTrig (d : Dev) (m n : Nat) (x : Option Nat) : (d.setTrig m x).trigUntil n = if n = m then x else d.trigUntil n :=
  Tab.get_set _ _ _ _ _

@[simp] theorem Dev.blank_setBlank (d : Dev) (j k : Nat) (x : BlankSt) : (d.setBlank j x).blank k = if k = j then x else d.blank k :=
  Tab.get_set _ _ _ _ _

@[simp] theorem Dev.xt_setXt (d : Dev) (j k : Nat) (x : XtSt) : (d.setXt j x).xt k = if k = j then x else d.xt k :=
  Tab.get_set _ _ _ _ _

/-! ### The bank in force (R198) -/

section Bank
variable {d e : Dev} (h : e.fab.bank = d.fab.bank)
include h

theorem Dev.fb_congr (k : Nat) : e.fb k = d.fb k := by rw [Dev.fb, Dev.fb, h]

theorem Dev.fbf_congr (k lo len : Nat) : e.fbf k lo len = d.fbf k lo len := by rw [Dev.fbf, Dev.fbf, Dev.fb_congr h]

theorem Dev.fbOn_congr (k i : Nat) : e.fbOn k i = d.fbOn k i := by rw [Dev.fbOn, Dev.fbOn, Dev.fb_congr h]

theorem Dev.linePulse_congr (ps : List Pulse) (n : Nat) : e.linePulse ps n = d.linePulse ps n := by
  rw [Dev.linePulse, Dev.linePulse, Dev.fb_congr h]

end Bank

/-- Steps that are folded over a list are one step, for what carries over from step to step. -/
theorem steps_foldl {R : Dev → Dev → Prop} (htrans : ∀ {a d e}, R a d → R d e → R a e) {α : Type} {f : Dev → α → Dev} {l : List α} {a d : Dev}
    (h : R a d) (hf : ∀ d, ∀ x ∈ l, R d (f d x)) : R a (l.foldl f d) := by
  induction l generalizing d with
  | nil => exact h
  | cons x l ih => exact ih (htrans h (hf d x List.mem_cons_self)) fun d y hy => hf d y (List.mem_cons_of_mem _ hy)

/-! ### Events and the fabric -/

theorem Dev.fab_sqEvent (d : Dev) (st b n : Nat) : (d.sqEvent st b n).fab = d.fab := by
  unfold Dev.sqEvent
  split <;> rfl

theorem Dev.pulses_sqEvent (d : Dev) (st b n : Nat) : (d.sqEvent st b n).pulses = d.pulses := by
  unfold Dev.sqEvent
  split <;> rfl

theorem fabStatus_ne_evSeq (n : Nat) : Reg.FAB_STATUS ≠ Reg.EV_SEQ n := by unfold Reg.FAB_STATUS Reg.EV_SEQ; omega

/-! ### Records of the fabric (R195, R197) -/

/-- The fabric's state apart from its records: the step in progress and the run of skipped records are left out. -/
def FabSt.units (x : FabSt) : FabSt :=
  { x with stepEdge := 0, stepAt := 0, seen := [], step := [], skipFrom := 0, skipped := 0, skipCond := false }

/-- The registers that no record of the fabric touches. -/
def recordFree (j : Nat) : Prop := j ≠ Reg.FAB_STATUS ∧ j ≠ Reg.REC_SKIPS ∧ j ≠ Reg.EV_SEQ 1372

/-- From d to e the fabric has formed, placed or skipped records, and done nothing else: of its status only SKIPPED and SEQ may have changed. -/
structure Dev.Recorded (d e : Dev) : Prop where
  same : d.SameOn recordFree e
  units : e.fab.units = d.fab.units
  pulses : e.pulses = d.pulses
  status : ∀ m, m < 16 → m ≠ 6 → e.on Reg.FAB_STATUS m = d.on Reg.FAB_STATUS m

section Recorded
variable {a d e : Dev}

theorem Dev.Recorded.refl (d : Dev) : d.Recorded d := ⟨.refl d, rfl, rfl, fun _ _ _ => rfl⟩

theorem Dev.Recorded.trans (had : a.Recorded d) (hde : d.Recorded e) : a.Recorded e :=
  ⟨had.same.trans hde.same, hde.units.trans had.units, hde.pulses.trans had.pulses,
    fun m hm h6 => (hde.status m hm h6).trans (had.status m hm h6)⟩

theorem Dev.Recorded.ite {c : Prop} [Decidable c] (hd : a.Recorded d) (he : a.Recorded e) : a.Recorded (if c then d else e) :=
  iteInduction (fun _ => hd) (fun _ => he)

theorem Dev.Recorded.foldl {α : Type} {f : Dev → α → Dev} {l : List α} (h : a.Recorded d) (hf : ∀ d, ∀ x ∈ l, Dev.Recorded d (f d x)) :
    a.Recorded (l.foldl f d) := steps_foldl (R := Dev.Recorded) Dev.Recorded.trans h hf

theorem Dev.Recorded.setFab (h : a.Recorded d) {x : FabSt} (hx : x.units = d.fab.units) : a.Recorded (d.setFab x) :=
  h.trans ⟨⟨rfl, fun _ _ => rfl⟩, hx, rfl, fun _ _ _ => rfl⟩

theorem Dev.Recorded.emit (h : a.Recorded d) (r : Nat) (hdr : Hdr) (payload : List Word128) : a.Recorded (d.emit r hdr payload) :=
  h.trans ⟨⟨rfl, fun _ _ => rfl⟩, rfl, rfl, fun _ _ _ => rfl⟩

theorem Dev.Recorded.bank (h : d.Recorded e) : e.fab.bank = d.fab.bank := (congrArg FabSt.bank h.units :)

theorem Dev.Recorded.commitAt (h : d.Recorded e) : e.fab.commitAt = d.fab.commitAt := (congrArg FabSt.commitAt h.units :)

theorem Dev.Recorded.qs (h : d.Recorded e) (q : Nat) : e.qs q = d.qs q :=
  (congrArg (fun x : FabSt => x.qs.get (fun _ => ({} : QsSt)) q) h.units :)

theorem Dev.Recorded.trigUntil (h : d.Recorded e) (n : Nat) : e.trigUntil n = d.trigUntil n :=
  (congrArg (fun x : FabSt => x.trig.get (fun _ => none) n) h.units :)

theorem Dev.Recorded.blank (h : d.Recorded e) (k : Nat) : e.blank k = d.blank k :=
  (congrArg (fun x : FabSt => x.blank.get (fun _ => ({} : BlankSt)) k) h.units :)

end Recorded

/-- A skipped record is counted, and SKIPPED sets (R197). -/
theorem Dev.recorded_skip (d : Dev) : d.Recorded ((d.addSat Reg.REC_SKIPS 1).sqEvent Reg.FAB_STATUS 6 1372) where
  same := ((Dev.SameOn.refl d).wr (fun h => h.2.1 rfl) _).sqEvent 6 (fun h => h.1 rfl) (fun h => h.2.2 rfl)
  units := congrArg FabSt.units (Dev.fab_sqEvent ..)
  pulses := Dev.pulses_sqEvent ..
  status m hm h6 := by
    rw [Dev.on_sqEvent _ _ _ _ (by decide) hm (fabStatus_ne_evSeq _), Dev.on_congr m (d.rd_addSat_ne 1 (by decide))]
    simp [h6]

theorem Dev.recorded_fabPlace (d : Dev) (t : Nat) (r : FabRec) : d.Recorded (d.fabPlace t r) := by
  unfold Dev.fabPlace
  extract_lets w hdr x held gapAt d1 d2
  have hgap : d.Recorded d1 := (Dev.Recorded.refl d).ite (((Dev.Recorded.refl d).emit _ _ _).setFab rfl)
  have hskip : d.Recorded d2 := (Dev.Recorded.refl d).setFab rfl
  exact (hgap.emit _ _ _).ite (hskip.trans d2.recorded_skip)

theorem Dev.recorded_fabFlush (d : Dev) : d.Recorded d.fabFlush :=
  ((Dev.Recorded.refl d).setFab (x := { d.fab with step := [] }) rfl).foldl fun d r _ => d.recorded_fabPlace d.fab.stepAt r

theorem Dev.recorded_fabNow (d : Dev) : d.Recorded d.fabNow := by
  unfold Dev.fabNow
  exact (Dev.Recorded.refl d).ite (d.recorded_fabFlush.setFab rfl)

theorem Dev.recorded_fabRecord (d : Dev) (kind unit : Nat) (p : Pulse) (count : Nat) (forced : Bool) :
    d.Recorded (d.fabRecord kind unit p count forced) :=
  d.recorded_fabNow.setFab rfl

end Sys2Proof.Machine
end

section
/-! SUPPORT. Timers, the software trigger, the commit of the fabric's bank and the cross-trigger bus, and the proof of the statement about them (R183, R192 to R194, R198). -/
namespace Sys2Proof.Machine

/-! ### Timers and the software trigger (R183) -/

/-- A timer that has pulsed waits for its next period, if it has one. -/
def Dev.timerNext (d : Dev) (m : Nat) : Dev :=
  let next : Option TimerSt := if d.fbf (Reg.TM_CFG m) 0 24 = 0 then none else some ⟨0, d.tb.edges + d.fbf (Reg.TM_CFG m) 0 24⟩
  d.setFab { d.fab with timers := d.fab.timers.set (fun _ => none) m next }

theorem timerPulse_of_due {m : Nat} {d : Dev} {at_ : TimerSt} (h : d.fab.timers.get (fun _ => none) m = some at_) (hat : at_.at_ ≤ d.now)
    (hedge : at_.edge ≤ d.tb.edges) : timerPulse m d = (d.timerNext m).pulse (464 + m) d.now 0xFF 0 := by
  unfold timerPulse
  rw [h]
  exact if_pos ⟨hat, hedge⟩

theorem exec_timerPulse (s : State) (m : Fin 8) (at_ : TimerSt) (h : s.dev.fab.timers.get (fun _ => none) m = some at_) (hat : at_.at_ ≤ s.dev.now)
    (hedge : at_.edge ≤ s.dev.tb.edges) :
    ∃ t p, exec (.timerPulse m) s = .next t ∧ t.dev.pulses = s.dev.pulses ++ [p] ∧ p.code = 464 + m.val ∧ p.cause = s.dev.now
      ∧ t.dev.fab.timers.get (fun _ => none) m
          = (if s.dev.fbf (Reg.TM_CFG m) 0 24 = 0 then none else some ⟨0, s.dev.tb.edges + s.dev.fbf (Reg.TM_CFG m) 0 24⟩)
      ∧ ∀ j, t.dev.rd j = s.dev.rd j :=
  ⟨{ s with dev := (s.dev.timerNext m).pulse (464 + m) s.dev.now 0xFF 0 }, _, next_congr (timerPulse_of_due h hat hedge), rfl, rfl, rfl,
    Tab.get_set_self .., fun _ => rfl⟩

theorem exec_swTrig (s : State) (i : Ini) (h : s.reaches i Reg.FAB_CMD .write = true) :
    ∃ t p, exec (.swTrig i) s = .next t ∧ t.dev.pulses = s.dev.pulses ++ [p] ∧ p.code = 480 ∧ p.cause = s.dev.now ∧ ∀ j, t.dev.rd j = s.dev.rd j :=
  ⟨{ s with dev := swTrig (s.dev.reached i 0) }, _, next_congr (onWrite_of_reaches s i _ _ h), rfl, rfl, rfl, fun _ => rfl⟩

/-! ### Arming and cancelling a commit (R198) -/

/-- COMMIT_AT as an instant. -/
def Dev.commitDue (d : Dev) : Nat := ofShort (d.n64 Reg.COMMIT_AT_LO Reg.COMMIT_AT_HI)

/-- A commit is armed for an instant. -/
def Dev.commitArmed (d : Dev) (t : Nat) : Dev := (d.setB Reg.FAB_STATUS 5).setFab { d.fab with commitAt := some t }

theorem fabCommit_of_ahead {d : Dev} (h : d.fab.commitAt = none) (hat : d.now ≤ d.commitDue) : fabCommit d = d.commitArmed d.commitDue := by
  unfold fabCommit
  rw [if_neg (by simp [h])]
  exact if_neg (Nat.not_lt.mpr hat)

theorem fabCommit_of_past {d : Dev} (h : d.fab.commitAt = none) (hat : d.commitDue < d.now) :
    fabCommit d = (d.commitArmed (d.now + 1)).setB Reg.FAB_STATUS 8 := by
  unfold fabCommit
  rw [if_neg (by simp [h])]
  exact if_pos hat

theorem exec_fabCommit_ahead (s : State) (i : Ini) (h : s.reaches i Reg.FAB_CMD .write = true) (hnone : s.dev.fab.commitAt = none)
    (hat : s.dev.now ≤ ofShort (s.dev.n64 Reg.COMMIT_AT_LO Reg.COMMIT_AT_HI)) :
    ∃ t, exec (.fabCommit i) s = .next t ∧ t.dev.fab.commitAt = some (ofShort (s.dev.n64 Reg.COMMIT_AT_LO Reg.COMMIT_AT_HI))
      ∧ t.dev.on Reg.FAB_STATUS 5 = true ∧ t.dev.fab.bank = s.dev.fab.bank ∧ ∀ j, j ≠ Reg.FAB_STATUS → t.dev.rd j = s.dev.rd j := by
  have hrun : fabCommit (s.dev.reached i 0) = (s.dev.reached i 0).commitArmed s.dev.commitDue := fabCommit_of_ahead hnone hat
  exact ⟨{ s with dev := (s.dev.reached i 0).commitArmed s.dev.commitDue }, next_congr ((onWrite_of_reaches s i _ _ h).trans hrun), rfl,
    Dev.on_setB_self (s.dev.reached i 0) _ _ (by decide), rfl, fun _ hj => Dev.rd_setB_ne (s.dev.reached i 0) 5 hj⟩

theorem exec_fabCommit_past (s : State) (i : Ini) (h : s.reaches i Reg.FAB_CMD .write = true) (hnone : s.dev.fab.commitAt = none)
    (hat : ofShort (s.dev.n64 Reg.COMMIT_AT_LO Reg.COMMIT_AT_HI) < s.dev.now) :
    ∃ t, exec (.fabCommit i) s = .next t ∧ t.dev.on Reg.FAB_STATUS 8 = true ∧ t.dev.on Reg.FAB_STATUS 5 = true
      ∧ t.dev.fab.commitAt = some (s.dev.now + 1) := by
  have hrun : fabCommit (s.dev.reached i 0) = ((s.dev.reached i 0).commitArmed (s.dev.now + 1)).setB Reg.FAB_STATUS 8 :=
    fabCommit_of_past hnone hat
  refine ⟨{ s with dev := ((s.dev.reached i 0).commitArmed (s.dev.now + 1)).setB Reg.FAB_STATUS 8 },
    next_congr ((onWrite_of_reaches s i _ _ h).trans hrun), Dev.on_setB_self _ _ _ (by decide), ?_, rfl⟩
  rw [Dev.on_setB_bit_ne _ _ (by decide) (by decide)]
  exact Dev.on_setB_self (s.dev.reached i 0) _ _ (by decide)

theorem exec_fabCancelCommit (s : State) (i : Ini) (h : s.reaches i Reg.FAB_CMD .write = true) :
    ∃ t, exec (.fabCancelCommit i) s = .next t ∧ t.dev.fab.commitAt = none ∧ t.dev.on Reg.FAB_STATUS 5 = false
      ∧ t.dev.fab.bank = s.dev.fab.bank ∧ ∀ j, j ≠ Reg.FAB_STATUS → t.dev.rd j = s.dev.rd j :=
  ⟨{ s with dev := fabCancel (s.dev.reached i 0) }, next_congr (onWrite_of_reaches s i _ _ h), rfl,
    Dev.on_clrB_self (s.dev.reached i 0) _ _ (by decide), rfl, fun _ hj => Dev.rd_clrB_ne (s.dev.reached i 0) 5 hj⟩

/-! ### The bank takes force (R198) -/

theorem Tab.find?_filter_key {α : Type} (p : Nat → Bool) (t : Tab α) {k : Nat} (h : p k = true) :
    Tab.find? (t.filter fun e => p e.1) k = t.find? k := by
  induction t with
  | nil => rfl
  | cons e r ih =>
    by_cases hk : e.1 = k
    · subst hk; simp [h, Tab.find?]
    · by_cases hp : p e.1 = true <;> simp [hp, Tab.find?, hk, ih]

/-- A register of the bank takes the value that its pending register holds. -/
theorem Dev.get_fabPending (d : Dev) {k : Nat} (h : fabBankKey k = true) : d.fabPending.get regReset k = d.rd k := by
  rw [Tab.get, Dev.fabPending, Tab.find?_filter_key fabBankKey d.regs h]
  rfl

/-- A BLANK pin without a pulse releases; its record and its event are still to come. -/
def Dev.blankFreed (d : Dev) (k : Nat) (p : Pulse) (forced recEn : Bool) : Dev :=
  let e := (d.setBlank k {}).clrB Reg.FAB_STATUS k
  if recEn then e.fabRecord 0x03 k p (d.blank k).count forced else e

theorem Dev.blankOff_of_last {d : Dev} {k : Nat} {p : Pulse} (h : (d.blank k).last = some p) (forced recEn : Bool) :
    d.blankOff k forced recEn = (d.blankFreed k p forced recEn).event Reg.FAB_STATUS (1368 + k) := by
  unfold Dev.blankOff
  simp only [h]
  rfl

theorem Dev.recorded_blankFreed (d : Dev) (k : Nat) (p : Pulse) (forced recEn : Bool) :
    ((d.setBlank k {}).clrB Reg.FAB_STATUS k).Recorded (d.blankFreed k p forced recEn) :=
  Dev.Recorded.ite (Dev.recorded_fabRecord ..) (.refl _)

/-- What a commit settles at once: the bank, no commit armed, COMMIT_PEND, COMMITS and the sequence number of its event. -/
def Dev.committed (d : Dev) : Tab Word × Option Nat × Bool × Word × Word :=
  (d.fab.bank, d.fab.commitAt, d.on Reg.FAB_STATUS 5, d.rd Reg.COMMITS, d.rd (Reg.EV_SEQ 1374))

theorem Dev.committed_blankOff (d : Dev) {k : Nat} (hk : k < 4) (forced recEn : Bool) : (d.blankOff k forced recEn).committed = d.committed := by
  cases h : (d.blank k).last with
  | none => rw [Dev.blankOff, h]
  | some p =>
    have hrec := d.recorded_blankFreed k p forced recEn
    have hev {n : Nat} (hn : n = 1374) : Reg.EV_SEQ n ≠ Reg.EV_SEQ (1368 + k) := by unfold Reg.EV_SEQ; omega
    have hcommits : Reg.COMMITS ≠ Reg.EV_SEQ (1368 + k) := by unfold Reg.COMMITS Reg.EV_SEQ; omega
    rw [Dev.blankOff_of_last h]
    unfold Dev.committed
    rw [Dev.on_event _ _ _ (by decide) (fabStatus_ne_evSeq _), hrec.status 5 (by decide) (by decide),
      Dev.on_clrB_bit_ne _ _ (by omega) (by decide) (by omega), Dev.rd_event_ne _ _ _ (by decide) hcommits,
      hrec.same.2 _ (by unfold recordFree; decide), Dev.rd_clrB_ne _ _ (by decide), Dev.rd_event_ne _ _ _ (by decide) (hev rfl),
      hrec.same.2 _ (by unfold recordFree; decide), Dev.rd_clrB_ne _ _ (by decide)]
    exact Prod.ext hrec.bank (Prod.ext hrec.commitAt rfl)

/-- The bank as it takes force, before the units whose configuration it changes restart. -/
def Dev.bankTaken (d : Dev) : Dev :=
  let e := (d.clrB Reg.FAB_STATUS 5).setFab { d.fab with bank := d.fabPending, commitAt := none }
  e.wrN Reg.COMMITS ((e.n Reg.COMMITS + 1) % 2 ^ 28)

theorem Dev.committed_bankTaken (d : Dev) : d.bankTaken.committed =
    (d.fabPending, none, false, BitVec.ofNat 32 ((d.n Reg.COMMITS + 1) % 2 ^ 28), d.rd (Reg.EV_SEQ 1374)) := by
  have hcount : (d.clrB Reg.FAB_STATUS 5).n Reg.COMMITS = d.n Reg.COMMITS := Dev.n_congr (d.rd_clrB_ne 5 (by decide))
  have hpend : d.bankTaken.on Reg.FAB_STATUS 5 = false :=
    (Dev.on_congr 5 (Dev.rd_wrN_ne _ _ (by decide))).trans (d.on_clrB_self Reg.FAB_STATUS 5 (by decide))
  have hcommits : d.bankTaken.rd Reg.COMMITS = BitVec.ofNat 32 ((d.n Reg.COMMITS + 1) % 2 ^ 28) :=
    (Dev.rd_wr_self _ _ _).trans (by rw [Dev.setFab_n, hcount])
  have hev : d.bankTaken.rd (Reg.EV_SEQ 1374) = d.rd (Reg.EV_SEQ 1374) :=
    (Dev.rd_wrN_ne _ _ (by decide)).trans (d.rd_clrB_ne 5 (by decide))
  rw [Dev.committed, hpend, hcommits, hev]
  rfl

/-- A due commit takes the bank, and the restarts of units that follow leave what it settles. -/
theorem fabCommitTake_of_due {d : Dev} {t : Nat} (h : d.fab.commitAt = some t) (hdue : t ≤ d.now) :
    ∃ e : Dev, fabCommitTake d = e.event Reg.FAB_STATUS 1374 ∧ e.committed = d.bankTaken.committed := by
  unfold fabCommitTake
  rw [h]
  dsimp only
  rw [if_neg (Nat.not_lt.mpr hdue)]
  refine ⟨_, rfl, ?_⟩
  refine (view_foldl _ fun e m _ => ?timer).trans ((view_foldl _ fun e k hk => ?blank).trans (view_foldl _ fun e q _ => ?seq))
  case timer | seq => split <;> rfl
  case blank =>
    split
    · exact e.committed_blankOff (List.mem_range.mp hk) _ _
    · rfl

theorem exec_fabCommitTake (s : State) (at_ : Nat) (h : s.dev.fab.commitAt = some at_) (hdue : at_ ≤ s.dev.now) :
    ∃ t, exec .fabCommitTake s = .next t ∧ t.dev.fab.commitAt = none ∧ (∀ k, fabBankKey k = true → t.dev.fb k = s.dev.rd k)
      ∧ t.dev.on Reg.FAB_STATUS 5 = false ∧ t.dev.n Reg.COMMITS = (s.dev.n Reg.COMMITS + 1) % 2 ^ 28
      ∧ t.dev.n (Reg.EV_SEQ 1374) = (s.dev.n (Reg.EV_SEQ 1374) + 1) % 2 ^ 32 := by
  obtain ⟨e, hrun, hview⟩ := fabCommitTake_of_due h hdue
  rw [Dev.committed_bankTaken] at hview
  obtain ⟨hbank, hrest⟩ := Prod.mk.inj hview
  obtain ⟨hnone, hrest⟩ := Prod.mk.inj hrest
  obtain ⟨hpend, hrest⟩ := Prod.mk.inj hrest
  obtain ⟨hcount, hev⟩ := Prod.mk.inj hrest
  refine ⟨{ s with dev := e.event Reg.FAB_STATUS 1374 }, next_congr hrun, hnone, fun k hk => ?_, ?_, ?_, ?_⟩
  · exact (congrArg (fun b : Tab Word => b.get regReset k) hbank).trans (s.dev.get_fabPending hk)
  · exact (e.on_event _ _ (by decide) (fabStatus_ne_evSeq _)).trans hpend
  · have hlt : (s.dev.n Reg.COMMITS + 1) % 2 ^ 28 < 2 ^ 32 := by omega
    rw [Dev.n_congr (e.rd_event_ne _ _ (by decide) (by decide)), Dev.n, hcount, BitVec.toNat_ofNat, Nat.mod_eq_of_lt hlt]
  · exact (e.n_event_self (fabStatus_ne_evSeq _).symm).trans (by rw [Dev.n_congr hev])

/-! ### Frames on a cross-trigger line (R192 to R194) -/

/-- A waiting pulse becomes the frame that the line sends. -/
def Dev.xtStarted (d : Dev) (k : Nat) : Dev :=
  let f : XtFrame := ⟨d.tb.edges, d.fbf Reg.XT_CFG 28 4, d.fbf (Reg.XT_TX k) 12 3⟩
  d.setXt k { d.xt k with sending := some f, pending := none, ownDue := (d.xt k).ownDue ++ [f] }

theorem xtFrameStart_of_waiting {d : Dev} {k e : Nat} (hfree : (d.xt k).sending = none) (hwait : (d.xt k).pending = some e) (he : e < d.tb.edges) :
    xtFrameStart k d = d.xtStarted k := by
  unfold xtFrameStart
  simp only [hfree, hwait]
  exact if_pos he

theorem exec_xtFrameStart (s : State) (k : Fin 4) (e : Nat) (hfree : (s.dev.xt k).sending = none) (hwait : (s.dev.xt k).pending = some e)
    (he : e < s.dev.tb.edges) :
    ∃ t, exec (.xtFrameStart k) s = .next t ∧ (t.dev.xt k).pending = none
      ∧ (t.dev.xt k).sending = some ⟨s.dev.tb.edges, s.dev.fbf Reg.XT_CFG 28 4, s.dev.fbf (Reg.XT_TX k) 12 3⟩ ∧ ∀ j, t.dev.rd j = s.dev.rd j := by
  refine ⟨{ s with dev := s.dev.xtStarted k }, next_congr (xtFrameStart_of_waiting hfree hwait he), ?_, ?_, fun _ => rfl⟩ <;> simp [Dev.xtStarted]

/-- A count of XT_ERR goes up, and stays at its largest value. -/
def Dev.xtCount (d : Dev) (k lo : Nat) : Dev := d.wrF (Reg.XT_ERR k) lo 12 (satAdd 12 (d.f (Reg.XT_ERR k) lo 12) 1)

theorem Dev.f_xtCount_self (d : Dev) (k : Nat) {lo : Nat} (h : lo + 12 ≤ 32) :
    (d.xtCount k lo).f (Reg.XT_ERR k) lo 12 = min (d.f (Reg.XT_ERR k) lo 12 + 1) (2 ^ 12 - 1) :=
  (d.f_wrF_self _ _ _ _ h).trans (Nat.mod_eq_of_lt (by unfold satAdd; omega))

theorem xtErr_ne (k : Fin 4) : Reg.XT_ERR k ≠ Reg.FAB_STATUS ∧ Reg.XT_ERR k ≠ Reg.COND_STATUS ∧ ∀ n, Reg.XT_ERR k ≠ Reg.EV_SEQ n := by
  have hk := k.isLt
  unfold Reg.XT_ERR Reg.FAB_STATUS Reg.COND_STATUS Reg.EV_SEQ
  exact ⟨by omega, by omega, fun n => by omega⟩

theorem Dev.rd_xtFault_xtErr (d : Dev) (k : Fin 4) : (d.xtFault k).rd (Reg.XT_ERR k) = d.rd (Reg.XT_ERR k) := by
  obtain ⟨hfab, hcond, hev⟩ := xtErr_ne k
  exact (Dev.rd_sqEvent_ne _ _ hcond (hev _)).trans (Dev.rd_sqEvent_ne _ _ hfab (hev _))

theorem Dev.xt_xtFault (d : Dev) (k : Nat) : (d.xtFault k).xt k = { d.xt k with fault := some d.tb.edges } := by
  have hfab : (d.xtFault k).fab = (d.setXt k { d.xt k with fault := some d.tb.edges }).fab := (Dev.fab_sqEvent ..).trans (Dev.fab_sqEvent ..)
  rw [Dev.xt, hfab]
  exact Tab.get_set_self ..

theorem Dev.on_xtFault_fabStatus (d : Dev) (k : Nat) : (d.xtFault k).on Reg.FAB_STATUS 7 = true := by
  rw [Dev.xtFault, Dev.on_congr 7 (Dev.rd_condLinkFault_ne _ (by decide) (by decide)),
    Dev.on_sqEvent _ _ _ _ (by decide) (by decide) (fabStatus_ne_evSeq _)]
  simp

theorem Dev.on_xtFault_condStatus (d : Dev) (k : Nat) : (d.xtFault k).on Reg.COND_STATUS 3 = true := by
  rw [Dev.xtFault, Dev.condLinkFault, Dev.on_sqEvent _ _ _ _ (by decide) (by decide) (by decide)]
  simp

/-- A collision abandons the frame that the line sends, here and before its own pulse. -/
def Dev.xtAbandoned (d : Dev) (k : Nat) (f : XtFrame) : Dev :=
  d.setXt k { d.xt k with sending := none, ownDue := (d.xt k).ownDue.filter fun g => g.start ≠ f.start }

theorem xtFrameEnd_of_mismatch {d : Dev} {k : Nat} {f : XtFrame} (h : (d.xt k).sending = some f) :
    xtFrameEnd k true d = ((d.xtAbandoned k f).xtCount k 8).xtFault k := by
  unfold xtFrameEnd
  simp only [h]
  rfl

theorem xtFrameEnd_of_match {d : Dev} {k : Nat} {f : XtFrame} (h : (d.xt k).sending = some f) (hpast : d.passed f.start 40 = true) :
    xtFrameEnd k false d = d.setXt k { d.xt k with sending := none } := by
  unfold xtFrameEnd
  simp only [h]
  exact if_pos hpast

theorem exec_xtFrameEnd_mismatch (s : State) (k : Fin 4) (f : XtFrame) (h : (s.dev.xt k).sending = some f) :
    ∃ t, exec (.xtFrameEnd k true) s = .next t ∧ (t.dev.xt k).sending = none ∧ t.dev.on Reg.FAB_STATUS 7 = true
      ∧ t.dev.f (Reg.XT_ERR k) 8 12 = min (s.dev.f (Reg.XT_ERR k) 8 12 + 1) (2 ^ 12 - 1) ∧ t.dev.on Reg.COND_STATUS 3 = true := by
  refine ⟨{ s with dev := ((s.dev.xtAbandoned k f).xtCount k 8).xtFault k }, next_congr (xtFrameEnd_of_mismatch h), ?_,
    Dev.on_xtFault_fabStatus _ _, ?_, Dev.on_xtFault_condStatus _ _⟩
  · rw [Dev.xt_xtFault]
    exact congrArg XtSt.sending (Tab.get_set_self ..)
  · exact (Dev.f_congr 8 12 (Dev.rd_xtFault_xtErr _ k)).trans ((s.dev.xtAbandoned k f).f_xtCount_self k (by decide))

theorem exec_xtFrameEnd_match (s : State) (k : Fin 4) (f : XtFrame) (h : (s.dev.xt k).sending = some f) (hpast : s.dev.passed f.start 40 = true) :
    ∃ t, exec (.xtFrameEnd k false) s = .next t ∧ t.dev.xt k = { s.dev.xt k with sending := none } ∧ ∀ j, t.dev.rd j = s.dev.rd j :=
  ⟨{ s with dev := s.dev.setXt k { s.dev.xt k with sending := none } }, next_congr (xtFrameEnd_of_match h hpast), Tab.get_set_self ..,
    fun _ => rfl⟩

/-! ### The pulse of a frame, and its receiver (R193, R194) -/

/-- The pulse of a frame. -/
def Dev.xtMade (d : Dev) (k : Nat) (f : XtFrame) (own : Bool) : Pulse :=
  { code := 448 + k, cause := d.now, word := d.timeWord (causeClass (448 + k)) (causeClass (448 + k) == 2) d.now, phys := 0xFF,
    detail := packBE 128 [(f.dev, 4), (f.code, 3), (0, 121)], own := own, path := 448 + k, from_ := f.start }

theorem Dev.pulses_xtPulse (d : Dev) (k : Nat) (f : XtFrame) (own : Bool) : (d.xtPulse k f own).pulses = d.pulses ++ [d.xtMade k f own] := by
  simp [Dev.xtPulse, Dev.pulse, Dev.xtMade]

theorem xtLocalPulse_of_due {d : Dev} {k : Nat} {f : XtFrame} {r : List XtFrame} (h : (d.xt k).ownDue = f :: r)
    (hdue : d.passed f.start (64 + d.fbf (Reg.XT_PAD k) 0 8) = true) :
    xtLocalPulse k d = (d.setXt k { d.xt k with ownDue := r }).xtPulse k f true := by
  unfold xtLocalPulse
  simp only [h]
  exact if_pos hdue

theorem xtRxPulse_of_due {d : Dev} {k : Nat} {f : XtFrame} {r : List XtFrame} (h : (d.xt k).rxDue = f :: r)
    (hdue : d.passed f.start (64 + d.fbf (Reg.XT_PAD k) 0 8) = true) :
    xtRxPulse k d = (d.setXt k { d.xt k with rxDue := r }).xtPulse k f false := by
  unfold xtRxPulse
  simp only [h]
  exact if_pos hdue

theorem exec_xtLocalPulse (s : State) (k : Fin 4) (f : XtFrame) (r : List XtFrame) (h : (s.dev.xt k).ownDue = f :: r)
    (hdue : s.dev.passed f.start (64 + s.dev.fbf (Reg.XT_PAD k) 0 8) = true) :
    ∃ t p, exec (.xtLocalPulse k) s = .next t ∧ (t.dev.xt k).ownDue = r ∧ t.dev.pulses = s.dev.pulses ++ [p] ∧ p.code = 448 + k.val ∧ p.own = true
      ∧ p.cause = s.dev.now ∧ ∀ j, t.dev.rd j = s.dev.rd j :=
  ⟨{ s with dev := (s.dev.setXt k { s.dev.xt k with ownDue := r }).xtPulse k f true }, _, next_congr (xtLocalPulse_of_due h hdue),
    congrArg XtSt.ownDue (Tab.get_set_self ..), Dev.pulses_xtPulse .., rfl, rfl, rfl, fun _ => rfl⟩

theorem exec_xtRxPulse (s : State) (k : Fin 4) (f : XtFrame) (r : List XtFrame) (h : (s.dev.xt k).rxDue = f :: r)
    (hdue : s.dev.passed f.start (64 + s.dev.fbf (Reg.XT_PAD k) 0 8) = true) :
    ∃ t p, exec (.xtRxPulse k) s = .next t ∧ (t.dev.xt k).rxDue = r ∧ t.dev.pulses = s.dev.pulses ++ [p] ∧ p.code = 448 + k.val ∧ p.own = false
      ∧ p.cause = s.dev.now ∧ ∀ j, t.dev.rd j = s.dev.rd j :=
  ⟨{ s with dev := (s.dev.setXt k { s.dev.xt k with rxDue := r }).xtPulse k f false }, _, next_congr (xtRxPulse_of_due h hdue),
    congrArg XtSt.rxDue (Tab.get_set_self ..), Dev.pulses_xtPulse .., rfl, rfl, rfl, fun _ => rfl⟩

/-- The ones among the bits of a word at given places, counted one by one. -/
theorem foldl_ones_eq {n : Nat} (w : BitVec n) (l : List Nat) (a : Nat) :
    l.foldl (fun a i => a + w.toNat / 2 ^ i % 2) a = a + (l.filter fun i => w.getLsbD i).length := by
  induction l generalizing a with
  | nil => rfl
  | cons i l ih =>
    have hbit : w.getLsbD i = decide (w.toNat / 2 ^ i % 2 = 1) := Nat.testBit_eq_decide_div_mod_eq
    rw [List.foldl_cons, ih]
    by_cases h : w.toNat / 2 ^ i % 2 = 1
    · simp [hbit, h]; omega
    · have hzero : w.toNat / 2 ^ i % 2 = 0 := by omega
      simp [hbit, hzero]

/-- The ones of a received frame: those of its device, its code and its parity bit. -/
def frameOnes (dev : BitVec 4) (code : BitVec 3) (parity : Bool) : Nat :=
  ((List.range 4).filter fun b => dev.getLsbD b).length + ((List.range 3).filter fun b => code.getLsbD b).length + b2n parity

theorem xtFrameReceive_of_on {d : Dev} {k : Nat} (h : d.fbOn Reg.XT_CFG k = true) (dev : BitVec 4) (code : BitVec 3) (parity : Bool) :
    xtFrameReceive k dev.toNat code.toNat parity d =
      if frameOnes dev code parity % 2 = 1 then (d.xtCount k 20).xtFault k
      else d.setXt k { d.xt k with rxDue := (d.xt k).rxDue ++ [⟨d.tb.edges - 40, dev.toNat, code.toNat⟩] } := by
  unfold xtFrameReceive
  rw [foldl_ones_eq, foldl_ones_eq, Nat.zero_add, Nat.zero_add, h]
  rfl

theorem exec_xtFrameReceive_even (s : State) (k : Fin 4) (dev : BitVec 4) (code : BitVec 3) (parity : Bool) (h : s.dev.fbOn Reg.XT_CFG k = true)
    (hones : (((List.range 4).filter fun b => dev.getLsbD b).length + ((List.range 3).filter fun b => code.getLsbD b).length + b2n parity) % 2 = 0) :
    ∃ t, exec (.xtFrameReceive k dev code parity) s = .next t ∧ (t.dev.xt k).rxDue = (s.dev.xt k).rxDue ++ [⟨s.dev.tb.edges - 40, dev.toNat, code.toNat⟩]
      ∧ ∀ j, t.dev.rd j = s.dev.rd j := by
  have hnot : ¬ frameOnes dev code parity % 2 = 1 := by unfold frameOnes; omega
  exact ⟨{ s with dev := s.dev.setXt k { s.dev.xt k with rxDue := (s.dev.xt k).rxDue ++ [⟨s.dev.tb.edges - 40, dev.toNat, code.toNat⟩] } },
    next_congr ((xtFrameReceive_of_on h dev code parity).trans (if_neg hnot)), congrArg XtSt.rxDue (Tab.get_set_self ..), fun _ => rfl⟩

theorem exec_xtFrameReceive_odd (s : State) (k : Fin 4) (dev : BitVec 4) (code : BitVec 3) (parity : Bool) (h : s.dev.fbOn Reg.XT_CFG k = true)
    (hones : (((List.range 4).filter fun b => dev.getLsbD b).length + ((List.range 3).filter fun b => code.getLsbD b).length + b2n parity) % 2 = 1) :
    ∃ t, exec (.xtFrameReceive k dev code parity) s = .next t ∧ (t.dev.xt k).rxDue = (s.dev.xt k).rxDue
      ∧ t.dev.f (Reg.XT_ERR k) 20 12 = min (s.dev.f (Reg.XT_ERR k) 20 12 + 1) (2 ^ 12 - 1) ∧ t.dev.on Reg.FAB_STATUS 7 = true := by
  refine ⟨{ s with dev := (s.dev.xtCount k 20).xtFault k }, next_congr ((xtFrameReceive_of_on h dev code parity).trans (if_pos hones)), ?_, ?_,
    Dev.on_xtFault_fabStatus _ _⟩
  · rw [Dev.xt_xtFault]
    rfl
  · exact (Dev.f_congr 20 12 (Dev.rd_xtFault_xtErr _ k)).trans (s.dev.f_xtCount_self k (by decide))

end Sys2Proof.Machine

namespace Sys2Proof
open Sys2Proof.Machine

/-- Settles O22, command by command. -/
theorem fabricCommitAndCrossTrigger : Obligations.FabricCommitAndCrossTrigger := by
  unfold Obligations.FabricCommitAndCrossTrigger
  exact ⟨exec_timerPulse, exec_swTrig, exec_fabCommit_ahead, exec_fabCommit_past, exec_fabCancelCommit, exec_fabCommitTake, exec_xtFrameStart,
    exec_xtFrameEnd_mismatch, exec_xtFrameEnd_match, exec_xtLocalPulse, exec_xtFrameReceive_even, exec_xtFrameReceive_odd, exec_xtRxPulse⟩

end Sys2Proof
end

section
/-! SUPPORT. What the pulses that arrive leave alone: the bank, the sequencers and the TRIG pins they do not reach, and the fabric as a whole for the units outside it (R175, R243, R393, R458). -/
namespace Sys2Proof.Machine

/-! ### Units outside the fabric -/

/-- The registers of the fabric's block. -/
def fabricKey (j : Nat) : Prop := 0xC0000 ≤ j ∧ j < 0xD0000

theorem not_fabricKey_evSeq (n : Nat) : ¬ fabricKey (Reg.EV_SEQ n) := by unfold fabricKey Reg.EV_SEQ; omega

/-- The fabric, its registers and the timebase are the same. -/
structure Dev.KeepsFabric (d e : Dev) : Prop where
  same : d.SameOn fabricKey e
  fab : e.fab = d.fab

section KeepsFabric
variable {a d e : Dev}

theorem Dev.KeepsFabric.refl (d : Dev) : d.KeepsFabric d := ⟨.refl d, rfl⟩

theorem Dev.KeepsFabric.trans (had : a.KeepsFabric d) (hde : d.KeepsFabric e) : a.KeepsFabric e :=
  ⟨had.same.trans hde.same, hde.fab.trans had.fab⟩

theorem Dev.KeepsFabric.of_units (h : a.KeepsFabric d) (htb : e.tb = d.tb) (hregs : e.regs = d.regs) (hfab : e.fab = d.fab) : a.KeepsFabric e :=
  ⟨h.same.of_regs htb hregs, hfab.trans h.fab⟩

theorem Dev.KeepsFabric.wr (h : a.KeepsFabric d) {k : Nat} (hk : ¬ fabricKey k) (v : Word) : a.KeepsFabric (d.wr k v) := ⟨h.same.wr hk v, h.fab⟩

theorem Dev.KeepsFabric.putB (h : a.KeepsFabric d) {k : Nat} (hk : ¬ fabricKey k) (i : Nat) (b : Bool) : a.KeepsFabric (d.putB k i b) := by
  cases b <;> exact h.wr hk _

theorem Dev.KeepsFabric.sqEvent (h : a.KeepsFabric d) {st : Nat} (b n : Nat) (hst : ¬ fabricKey st) : a.KeepsFabric (d.sqEvent st b n) :=
  ⟨h.same.sqEvent b hst (not_fabricKey_evSeq n), (Dev.fab_sqEvent ..).trans h.fab⟩

theorem Dev.KeepsFabric.ite {c : Prop} [Decidable c] (hd : a.KeepsFabric d) (he : a.KeepsFabric e) : a.KeepsFabric (if c then d else e) :=
  iteInduction (fun _ => hd) (fun _ => he)

theorem Dev.KeepsFabric.foldl {α : Type} {f : Dev → α → Dev} {l : List α} (h : a.KeepsFabric d) (hf : ∀ d, ∀ x ∈ l, Dev.KeepsFabric d (f d x)) :
    a.KeepsFabric (l.foldl f d) := steps_foldl (R := Dev.KeepsFabric) Dev.KeepsFabric.trans h hf

end KeepsFabric

section Outside
variable (d : Dev)

theorem Dev.keepsFabric_auxShow : d.KeepsFabric d.auxShow := by
  have hst : ¬ fabricKey Reg.AUX_STATUS := by unfold fabricKey; decide
  unfold Dev.auxShow
  exact ((((((Dev.KeepsFabric.refl d).putB hst _ _).putB hst _ _).putB hst _ _).putB hst _ _).putB hst _ _).putB hst _ _

theorem Dev.keepsFabric_auxMiss {k : Nat} (hk : ¬ fabricKey k) (b : Nat) : d.KeepsFabric ((d.addSat k 1).auxEvent b 1404) :=
  ((Dev.KeepsFabric.refl d).wr hk _).sqEvent _ _ (by unfold fabricKey; decide)

theorem Dev.keepsFabric_seqArrive (delay : Nat) : d.KeepsFabric (d.seqArrive delay) := by
  unfold Dev.seqArrive
  exact .ite (d.keepsFabric_auxMiss (by unfold fabricKey; decide) _) ⟨⟨rfl, fun _ _ => rfl⟩, rfl⟩

theorem Dev.keepsFabric_injArrive (j : Nat) : d.KeepsFabric (d.injArrive j) := by
  have hdue (f : AuxSt → AuxSt) : d.KeepsFabric (d.onAux f).auxShow :=
    ((Dev.KeepsFabric.refl d).of_units (e := d.onAux f) rfl rfl rfl).trans (d.onAux f).keepsFabric_auxShow
  unfold Dev.injArrive
  exact .ite (d.keepsFabric_auxMiss (by unfold fabricKey; decide) _) (hdue _)

theorem Dev.keepsFabric_auxPulses (l : List Pulse) : d.KeepsFabric (d.auxPulses l) :=
  (Dev.KeepsFabric.refl d).foldl fun d _ _ =>
    (Dev.KeepsFabric.ite (d.keepsFabric_seqArrive _) (.refl d)).foldl fun d j _ => .ite (d.keepsFabric_injArrive j) (.refl d)

theorem Dev.keepsFabric_cxBegin (x tref : Nat) : d.KeepsFabric (d.cxBegin x tref) := by
  have hmiss : ¬ fabricKey (Reg.CX_MISSES x) := by unfold fabricKey Reg.CX_MISSES; omega
  have hresult : ¬ fabricKey (Reg.CX_RESULT x) := by unfold fabricKey Reg.CX_RESULT; omega
  have hprogress : ¬ fabricKey (Reg.CX_PROGRESS x) := by unfold fabricKey Reg.CX_PROGRESS; omega
  unfold Dev.cxBegin
  exact .ite ((Dev.KeepsFabric.refl d).wr hmiss _) (.ite (.refl d)
    ((((Dev.KeepsFabric.refl d).of_units (e := d.setCx x _) rfl rfl rfl).wr hresult _).wr hprogress _))

theorem Dev.keepsFabric_cxPulses (l : List Pulse) : d.KeepsFabric (d.cxPulses l) :=
  (Dev.KeepsFabric.refl d).foldl fun d _ _ => (Dev.KeepsFabric.refl d).foldl fun d x _ => .ite (d.keepsFabric_cxBegin x _) (.refl d)

theorem Dev.keepsFabric_eiRampPulses (ps : List Pulse) : d.KeepsFabric (d.eiRampPulses ps) :=
  .ite (.refl d) ((Dev.KeepsFabric.refl d).foldl fun d _ _ => .ite ((Dev.KeepsFabric.refl d).of_units rfl rfl rfl) (.refl d))

end Outside

/-! ### Some of the sequencers and of the TRIG pins -/

/-- The timebase, the bank in force, the sequencers that Q names with their counts of fires, and the TRIG pins that T names are the same. -/
structure Dev.KeepsUnits (Q T : Nat → Prop) (d e : Dev) : Prop where
  tb : e.tb = d.tb
  bank : e.fab.bank = d.fab.bank
  qs : ∀ q, Q q → e.qs q = d.qs q
  fires : ∀ q, q < 8 → Q q → e.rd (Reg.QS_FIRES q) = d.rd (Reg.QS_FIRES q)
  pins : ∀ n, T n → e.trigUntil n = d.trigUntil n

section KeepsUnits
variable {Q T : Nat → Prop} {a d e : Dev}

theorem Dev.KeepsUnits.refl (d : Dev) : d.KeepsUnits Q T d := ⟨rfl, rfl, fun _ _ => rfl, fun _ _ _ => rfl, fun _ _ => rfl⟩

theorem Dev.KeepsUnits.trans (had : a.KeepsUnits Q T d) (hde : d.KeepsUnits Q T e) : a.KeepsUnits Q T e where
  tb := hde.tb.trans had.tb
  bank := hde.bank.trans had.bank
  qs q hq := (hde.qs q hq).trans (had.qs q hq)
  fires q h8 hq := (hde.fires q h8 hq).trans (had.fires q h8 hq)
  pins n hn := (hde.pins n hn).trans (had.pins n hn)

theorem Dev.KeepsUnits.ite {c : Prop} [Decidable c] (hd : a.KeepsUnits Q T d) (he : a.KeepsUnits Q T e) : a.KeepsUnits Q T (if c then d else e) :=
  iteInduction (fun _ => hd) (fun _ => he)

theorem Dev.KeepsUnits.foldl {α : Type} {f : Dev → α → Dev} {l : List α} (h : a.KeepsUnits Q T d) (hf : ∀ d, ∀ x ∈ l, Dev.KeepsUnits Q T d (f d x)) :
    a.KeepsUnits Q T (l.foldl f d) := steps_foldl (R := Dev.KeepsUnits Q T) Dev.KeepsUnits.trans h hf

/-- Of steps folded over units, all but the one at n leave what Q and T name: the step at n finds it as it was, and what follows leaves it. -/
theorem Dev.KeepsUnits.foldl_at {f : Dev → Nat → Dev} {l : List Nat} (d : Dev) (hl : l.Nodup) {n : Nat} (hn : n ∈ l)
    (hf : ∀ d x, x ≠ n → Dev.KeepsUnits Q T d (f d x)) : ∃ e, d.KeepsUnits Q T e ∧ (f e n).KeepsUnits Q T (l.foldl f d) := by
  obtain ⟨l1, l2, rfl⟩ := List.append_of_mem hn
  obtain ⟨-, hn2, hdisj⟩ := List.nodup_append'.mp hl
  have hbefore : ∀ x ∈ l1, x ≠ n := fun x hx e => hdisj hx (e ▸ List.mem_cons_self)
  have hafter : ∀ x ∈ l2, x ≠ n := fun x hx e => (List.nodup_cons.mp hn2).1 (e ▸ hx)
  refine ⟨l1.foldl f d, (Dev.KeepsUnits.refl d).foldl fun d x hx => hf d x (hbefore x hx), ?_⟩
  rw [List.foldl_append, List.foldl_cons]
  exact (Dev.KeepsUnits.refl _).foldl fun d x hx => hf d x (hafter x hx)

/-- So it is after a change of pulses, records and other units of the fabric. -/
theorem Dev.KeepsUnits.of_units (h : a.KeepsUnits Q T d) (htb : e.tb = d.tb) (hregs : e.regs = d.regs) (hbank : e.fab.bank = d.fab.bank)
    (hqs : e.fab.qs = d.fab.qs) (htrig : e.fab.trig = d.fab.trig) : a.KeepsUnits Q T e :=
  h.trans ⟨htb, hbank, fun q _ => congrArg (fun x : Tab QsSt => x.get (fun _ => ({} : QsSt)) q) hqs,
    fun q _ _ => congrArg (fun r : Tab Word => r.get regReset (Reg.QS_FIRES q)) hregs,
    fun n _ => congrArg (fun x : Tab (Option Nat) => x.get (fun _ => none) n) htrig⟩

theorem Dev.KeepsUnits.wr (h : a.KeepsUnits Q T d) {k : Nat} (hk : ∀ q, q < 8 → Q q → Reg.QS_FIRES q ≠ k) (v : Word) :
    a.KeepsUnits Q T (d.wr k v) :=
  h.trans ⟨rfl, rfl, fun _ _ => rfl, fun _ h8 hq => Dev.rd_wr_ne d v (hk _ h8 hq), fun _ _ => rfl⟩

theorem qsFires_ne_evSeq {q : Nat} (hq : q < 8) (n : Nat) : Reg.QS_FIRES q ≠ Reg.EV_SEQ n := by unfold Reg.QS_FIRES Reg.EV_SEQ; omega

theorem qsFires_ne_fabStatus (q : Nat) : Reg.QS_FIRES q ≠ Reg.FAB_STATUS := by unfold Reg.QS_FIRES Reg.FAB_STATUS; omega

theorem Dev.KeepsUnits.event (h : a.KeepsUnits Q T d) (n : Nat) : a.KeepsUnits Q T (d.event Reg.FAB_STATUS n) :=
  h.trans ⟨rfl, rfl, fun _ _ => rfl, fun q h8 _ => Dev.rd_event_ne d _ _ (qsFires_ne_fabStatus q) (qsFires_ne_evSeq h8 n), fun _ _ => rfl⟩

theorem Dev.KeepsUnits.raise (h : a.KeepsUnits Q T d) (n : Nat) : a.KeepsUnits Q T (d.raise n) :=
  h.trans ⟨rfl, rfl, fun _ _ => rfl, fun _ h8 _ => (d.rd_raise n _).trans (if_neg (qsFires_ne_evSeq h8 n)), fun _ _ => rfl⟩

theorem Dev.Recorded.keepsUnits (h : d.Recorded e) : d.KeepsUnits Q T e where
  tb := h.same.1
  bank := h.bank
  qs q _ := h.qs q
  fires q h8 _ := h.same.2 _ ⟨qsFires_ne_fabStatus q, by unfold Reg.QS_FIRES Reg.REC_SKIPS; omega, qsFires_ne_evSeq h8 _⟩
  pins n _ := h.trigUntil n

theorem Dev.KeepsFabric.keepsUnits (h : d.KeepsFabric e) : d.KeepsUnits Q T e :=
  ⟨h.same.1, congrArg FabSt.bank h.fab, fun q _ => by rw [Dev.qs, Dev.qs, h.fab],
    fun q h8 _ => h.same.2 _ (by unfold fabricKey Reg.QS_FIRES; omega), fun n _ => by rw [Dev.trigUntil, Dev.trigUntil, h.fab]⟩

theorem Dev.keepsUnits_setQs (d : Dev) {q : Nat} (hq : ¬ Q q) (x : QsSt) : d.KeepsUnits Q T (d.setQs q x) :=
  ⟨rfl, rfl, fun p hp => (d.qs_setQs q p x).trans (if_neg (ne_of_named hp hq)), fun _ _ _ => rfl, fun _ _ => rfl⟩

theorem Dev.keepsUnits_setTrig (d : Dev) {t : Nat} (ht : ¬ T t) (x : Option Nat) : d.KeepsUnits Q T (d.setTrig t x) :=
  ⟨rfl, rfl, fun _ _ => rfl, fun _ _ _ => rfl, fun n hn => (d.trigUntil_setTrig t n x).trans (if_neg (ne_of_named hn ht))⟩

end KeepsUnits

/-! ### Sequencers (R185) -/

/-- A sequencer as a fire leaves it; the fire's record, event and pulse are still to come. -/
def Dev.qsFired (d : Dev) (q : Nat) : Dev :=
  (d.add (Reg.QS_FIRES q) 1).setQs q { hold := if d.fbf (Reg.QS_HOLDOFF q) 0 24 = 0 then none else some d.tb.edges }

section Sequencers
variable {Q T : Nat → Prop} (d : Dev)

theorem Dev.qs_qsFired (q : Nat) :
    (d.qsFired q).qs q = { hold := if d.fbf (Reg.QS_HOLDOFF q) 0 24 = 0 then none else some d.tb.edges } :=
  Tab.get_set_self ..

theorem Dev.n_qsFired (q : Nat) : (d.qsFired q).n (Reg.QS_FIRES q) = (d.n (Reg.QS_FIRES q) + 1) % 2 ^ 32 := Dev.n_add_self d _ 1

theorem Dev.keepsUnits_qsFired {q : Nat} (hq : ¬ Q q) : d.KeepsUnits Q T (d.qsFired q) :=
  ((Dev.KeepsUnits.refl d).wr (fun p _ hp h => ne_of_named hp hq (by unfold Reg.QS_FIRES at h; omega)) _).trans (Dev.keepsUnits_setQs _ hq _)

/-- The record of a fire, and its event. -/
def Dev.fireTold (d : Dev) (q : Nat) (p : Pulse) (count : Nat) : Dev :=
  let e := if d.fbOn (Reg.QS_CFG q) 28 then d.fabRecord 0x01 q p count false else d
  if e.fbOn (Reg.QS_CFG q) 27 then e.raise (1360 + q) else e

theorem Dev.qsFire_eq (q : Nat) (p : Pulse) : d.qsFire q p =
    { (d.qsFired q).fireTold q p (d.qs q).pulses with pulses := ((d.qsFired q).fireTold q p (d.qs q).pulses).pulses ++ [{ p with code := 456 + q }] } :=
  rfl

theorem Dev.keepsUnits_fireTold (q : Nat) (p : Pulse) (count : Nat) : d.KeepsUnits Q T (d.fireTold q p count) := by
  have hrec (c : Bool) : d.KeepsUnits Q T (if c then d.fabRecord 0x01 q p count false else d) :=
    .ite (d.recorded_fabRecord ..).keepsUnits (.refl d)
  exact .ite ((hrec _).raise _) (hrec _)

theorem Dev.pulses_fireTold (q : Nat) (p : Pulse) (count : Nat) : (d.fireTold q p count).pulses = d.pulses := by
  have hrec (c : Bool) : (if c then d.fabRecord 0x01 q p count false else d).pulses = d.pulses :=
    (Dev.Recorded.ite (d.recorded_fabRecord ..) (.refl d)).pulses
  have hraise (e : Dev) (c : Bool) : (if c then e.raise (1360 + q) else e).pulses = e.pulses := by cases c <;> rfl
  exact (hraise _ _).trans (hrec _)

theorem Dev.keepsUnits_qsFire (q : Nat) (p : Pulse) : (d.qsFired q).KeepsUnits Q T (d.qsFire q p) :=
  ((d.qsFired q).keepsUnits_fireTold q p _).of_units rfl rfl rfl rfl rfl

theorem Dev.pulses_qsFire (q : Nat) (p : Pulse) : (d.qsFire q p).pulses = d.pulses ++ [{ p with code := 456 + q }] := by
  rw [Dev.qsFire_eq, Dev.pulses_fireTold]
  rfl

theorem Dev.keepsUnits_qsFire_ne {q : Nat} (hq : ¬ Q q) (p : Pulse) : d.KeepsUnits Q T (d.qsFire q p) :=
  (d.keepsUnits_qsFired hq).trans (d.keepsUnits_qsFire q p)

theorem Dev.keepsUnits_qsStep {q : Nat} (hq : ¬ Q q) (a b : Option Pulse) : d.KeepsUnits Q T (d.qsStep q a b) := by
  have hset (x : QsSt) : d.KeepsUnits Q T (d.setQs q x) := d.keepsUnits_setQs hq x
  have hfire (x : QsSt) (p : Pulse) : d.KeepsUnits Q T ((d.setQs q x).qsFire q p) := (hset x).trans (Dev.keepsUnits_qsFire_ne _ hq p)
  unfold Dev.qsStep
  dsimp only
  refine .ite (.refl d) ?_
  split
  · split
    · exact .ite (.ite (hfire _ _) (hset _)) (hset _)
    · exact hset _
  · split
    · exact hset _
    · exact .ite (hset _) (.ite (hset _) (.ite (hfire _ _) (hset _)))

/-- A sequencer whose count and window are clear, and that no holdoff holds, fires on the first pulse of its line. -/
theorem Dev.qsStep_of_first {d : Dev} {q : Nat} (hon : d.fbOn (Reg.QS_CFG q) 31 = true) (hmode : d.qsMode q = 0)
    (hcount : d.fbf (Reg.QS_COUNT q) 0 16 = 0) (hwin : (d.qs q).win = none) (hhold : (d.qs q).hold = none) (hclear : (d.qs q).count = 0)
    (p : Pulse) (b : Option Pulse) : d.qsStep q (some p) b = (d.setQs q { d.qs q with pulses := (d.qs q).pulses + 1 }).qsFire q p := by
  unfold Dev.qsStep
  simp [hon, hmode, hcount, hwin, hhold, hclear, b2n]

/-- A pulse of a lower code in the step, if there is one, takes over as the cause. -/
def Dev.qsRecauseBy (d : Dev) (q : Nat) (o : Option (Pulse × Pulse)) : Dev :=
  match o with
  | some (a, b) => d.qsRecause q a b
  | none => d

theorem Dev.keepsUnits_qsRecauseBy {q : Nat} (hq : ¬ Q q) (o : Option (Pulse × Pulse)) : d.KeepsUnits Q T (d.qsRecauseBy q o) := by
  cases o with
  | none => exact .refl d
  | some w => exact (d.keepsUnits_setQs hq _).of_units rfl rfl rfl rfl rfl

/-- A new cause changes neither the count nor the holdoff of a sequencer, nor its count of fires. -/
theorem Dev.qsRecauseBy_keeps (q : Nat) (o : Option (Pulse × Pulse)) : ((d.qsRecauseBy q o).qs q).count = (d.qs q).count
    ∧ ((d.qsRecauseBy q o).qs q).hold = (d.qs q).hold ∧ (d.qsRecauseBy q o).n (Reg.QS_FIRES q) = d.n (Reg.QS_FIRES q) := by
  cases o with
  | none => exact ⟨rfl, rfl, rfl⟩
  | some w =>
    have hqs : ∃ x, (d.qsRecauseBy q (some w)).qs q = ⟨(d.qs q).count, x, (d.qs q).hold, (d.qs q).pulses⟩ := ⟨_, Tab.get_set_self ..⟩
    obtain ⟨x, hx⟩ := hqs
    exact ⟨(congrArg QsSt.count hx :), (congrArg QsSt.hold hx :), rfl⟩

end Sequencers

end Sys2Proof.Machine
end

section
/-! SUPPORT. Pulses that arrive, and the ends of windows, holdoffs and active levels, and the proof of the statement about them (R175, R184 to R188). -/
namespace Sys2Proof.Machine

/-! ### Pins, cross-trigger drivers and records (R187, R188, R192, R195) -/

section Pins
variable {Q T : Nat → Prop} (d : Dev)

theorem Dev.keepsUnits_trigStep {t : Nat} (ht : ¬ T t) (ps : List Pulse) : d.KeepsUnits Q T (d.trigStep ps t) := by
  unfold Dev.trigStep
  exact .ite (d.keepsUnits_setTrig ht _) (.refl d)

/-- A TRIG pin whose source pulses is active for WIDTH + 1 periods. -/
theorem Dev.trigUntil_trigStep {t : Nat} {p : Pulse} (hon : d.fbOn (Reg.TRIG_CFG t) 31 = true) (hsrc : d.fbf (Reg.TRIG_CFG t) 20 9 = p.code) :
    (d.trigStep [p] t).trigUntil t = some (d.tb.edges + d.fbf (Reg.TRIG_CFG t) 0 16 + 1) := by
  have hsome : (arrived [p] (d.fbf (Reg.TRIG_CFG t) 20 9)).isSome = true := by simp [arrived, hsrc]
  have hset : d.trigStep [p] t = d.setTrig t (some (d.tb.edges + d.fbf (Reg.TRIG_CFG t) 0 16 + 1)) := if_pos ⟨hon, hsome⟩
  rw [hset, Dev.trigUntil_setTrig, if_pos rfl]

theorem Dev.keepsUnits_setBlank (k : Nat) (x : BlankSt) : d.KeepsUnits Q T (d.setBlank k x) := (Dev.KeepsUnits.refl d).of_units rfl rfl rfl rfl rfl

theorem Dev.keepsUnits_blankStep (k : Nat) (o : Option Pulse) : d.KeepsUnits Q T (d.blankStep k o) := by
  have hcount (q : Nat) : Reg.QS_FIRES q ≠ Reg.BLANK_COUNT k := by unfold Reg.QS_FIRES Reg.BLANK_COUNT; omega
  unfold Dev.blankStep
  split
  · exact .refl d
  · refine .ite (.refl d) ?_
    extract_lets x e d1 d2 d3
    split
    · exact d.keepsUnits_setBlank _ _
    · have h1 : d.KeepsUnits Q T d1 := d.keepsUnits_setBlank _ _
      have h2 : d.KeepsUnits Q T d2 := (h1.wr (fun q _ _ => hcount q) _).wr (fun q _ _ => qsFires_ne_fabStatus q) _
      exact Dev.KeepsUnits.event (.ite (h2.trans (d2.recorded_fabRecord ..).keepsUnits) h2) _

theorem Dev.keepsUnits_blankRecause (k : Nat) (old new : Pulse) : d.KeepsUnits Q T (d.blankRecause k old new) :=
  (Dev.KeepsUnits.refl d).of_units rfl rfl rfl rfl rfl

theorem Dev.keepsUnits_xtSource (ps : List Pulse) {k : Nat} (hk : k < 4) : d.KeepsUnits Q T (d.xtSource ps k) := by
  have herr (q : Nat) : Reg.QS_FIRES q ≠ Reg.XT_ERR k := by unfold Reg.QS_FIRES Reg.XT_ERR; omega
  unfold Dev.xtSource
  refine .ite (.refl d) ?_
  dsimp only
  split
  · exact (Dev.KeepsUnits.refl d).of_units rfl rfl rfl rfl rfl
  · exact (Dev.KeepsUnits.refl d).wr (fun q _ _ => herr q) _

theorem Dev.keepsUnits_xtRecord (ps : List Pulse) (k : Nat) : d.KeepsUnits Q T (d.xtRecord ps k) := by
  unfold Dev.xtRecord
  split
  · exact .refl d
  · exact .ite (d.recorded_fabRecord ..).keepsUnits (.refl d)

end Pins

/-! ### One step of the fabric (R175) -/

/-- The pulses of the trigger lines. -/
def Dev.lines (d : Dev) (ps : List Pulse) : List (Option Pulse) := (List.range 64).map fun n => d.linePulse ps n

theorem Dev.nth_lines (d : Dev) (ps : List Pulse) {n : Nat} (hn : n < 64) : nth (d.lines ps) n none = d.linePulse ps n := by
  simp [nth, Dev.lines, hn]

/-- A sequencer with what its lines have newly brought. -/
def qsTake (was now : List (Option Pulse)) (d : Dev) (q : Nat) : Dev :=
  let i := d.fbf (Reg.QS_CFG q) 8 6
  let j := d.fbf (Reg.QS_CFG q) 16 6
  ((d.qsStep q (newPulse (nth was i none) (nth now i none)) (newPulse (nth was j none) (nth now j none))).qsRecauseBy q
    (lowerCause (nth was i none) (nth now i none))).qsRecauseBy q (lowerCause (nth was j none) (nth now j none))

theorem keepsUnits_qsTake {Q T : Nat → Prop} (d : Dev) (was now : List (Option Pulse)) {q : Nat} (hq : ¬ Q q) :
    d.KeepsUnits Q T (qsTake was now d q) :=
  ((d.keepsUnits_qsStep hq _ _).trans (Dev.keepsUnits_qsRecauseBy _ hq _)).trans (Dev.keepsUnits_qsRecauseBy _ hq _)

/-- The step so far, once the sequencers have taken what their lines bring. -/
def Dev.afterSeqs (d : Dev) (old ps : List Pulse) : Dev := (List.range 8).foldl (qsTake (d.lines old) (d.lines (old ++ ps))) d

/-- The step so far, once the TRIG pins have taken their pulses too. -/
def Dev.afterPins (d : Dev) (old ps : List Pulse) : Dev := (List.range 8).foldl (fun d t => d.trigStep ps t) (d.afterSeqs old ps)

/-- What follows in the step, BLANK pins, cross-trigger drivers and records, leaves sequencers and TRIG pins as they are. -/
theorem Dev.keepsUnits_fabStep {Q T : Nat → Prop} (d : Dev) (old ps : List Pulse) : (d.afterPins old ps).KeepsUnits Q T (d.fabStep old ps) := by
  unfold Dev.fabStep
  extract_lets was now d1 d2 d3 d4
  have h1 : (List.range 8).foldl (qsTake was now) d = d1 :=
    congrArg (fun f => List.foldl f d (List.range 8)) (funext fun d => funext fun q => rfl)
  have h2 : d.afterPins old ps = d2 := congrArg (fun e : Dev => List.foldl (fun (d : Dev) t => d.trigStep ps t) e (List.range 8)) h1
  have h3 : d2.KeepsUnits Q T d3 := (Dev.KeepsUnits.refl d2).foldl fun d k _ => by
    extract_lets a b e
    have he : d.KeepsUnits Q T e := d.keepsUnits_blankStep k _
    split
    · exact he.trans (e.keepsUnits_blankRecause k _ _)
    · exact he
  have h4 : d2.KeepsUnits Q T d4 := h3.foldl fun d k hk =>
    (d.keepsUnits_xtSource ps (List.mem_range.mp hk)).trans (Dev.keepsUnits_xtRecord _ ps k)
  rw [h2]
  split
  · exact h4.trans (d4.recorded_fabRecord ..).keepsUnits
  · exact h4

/-- In a step, a TRIG pin takes the pulse of its source, whatever the sequencers do. -/
theorem Dev.trigUntil_fabStep (d : Dev) (old : List Pulse) {t : Nat} (ht : t < 8) {p : Pulse} (hon : d.fbOn (Reg.TRIG_CFG t) 31 = true)
    (hsrc : d.fbf (Reg.TRIG_CFG t) 20 9 = p.code) :
    (d.fabStep old [p]).trigUntil t = some (d.tb.edges + d.fbf (Reg.TRIG_CFG t) 0 16 + 1) ∧ (d.fabStep old [p]).tb = d.tb := by
  have hseq : d.KeepsUnits (fun _ => False) (· = t) (d.afterSeqs old [p]) :=
    (Dev.KeepsUnits.refl d).foldl fun d q _ => keepsUnits_qsTake d _ _ (fun h => h)
  obtain ⟨e, hbefore, hafter⟩ := Dev.KeepsUnits.foldl_at (Q := fun _ => False) (T := (· = t)) (f := fun d t => d.trigStep [p] t) (d.afterSeqs old [p])
    List.nodup_range (List.mem_range.mpr ht) fun d _ hx => d.keepsUnits_trigStep (T := (· = t)) hx [p]
  have he : d.KeepsUnits (fun _ => False) (· = t) e := hseq.trans hbefore
  have hrest : (e.trigStep [p] t).KeepsUnits (fun _ => False) (· = t) (d.fabStep old [p]) := hafter.trans (d.keepsUnits_fabStep old [p])
  have hpin : (e.trigStep [p] t).trigUntil t = some (e.tb.edges + e.fbf (Reg.TRIG_CFG t) 0 16 + 1) :=
    e.trigUntil_trigStep ((Dev.fbOn_congr he.bank _ _).trans hon) ((Dev.fbf_congr he.bank _ _ _).trans hsrc)
  have htb : (e.trigStep [p] t).tb = e.tb :=
    (e.keepsUnits_trigStep (Q := fun _ => False) (T := fun _ => False) (fun h => h) [p]).tb
  rw [hrest.pins t rfl, hpin, Dev.fbf_congr he.bank, he.tb]
  exact ⟨rfl, hrest.tb.trans (htb.trans he.tb)⟩

/-- A sequencer at rest, of mode 0 and COUNT 0, whose LINE_A selects line n. -/
structure Dev.QsReady (d : Dev) (q n : Nat) : Prop where
  on : d.fbOn (Reg.QS_CFG q) 31 = true
  line : d.fbf (Reg.QS_CFG q) 8 6 = n
  mode : d.qsMode q = 0
  first : d.fbf (Reg.QS_COUNT q) 0 16 = 0
  win : (d.qs q).win = none
  hold : (d.qs q).hold = none
  count : (d.qs q).count = 0

theorem Dev.QsReady.of_keeps {d e : Dev} {q n : Nat} {Q T : Nat → Prop} (h : d.QsReady q n) (hkeep : d.KeepsUnits Q T e) (hq : Q q) : e.QsReady q n := by
  obtain ⟨on, line, mode, first, win, hold, count⟩ := h
  have hqs := hkeep.qs q hq
  refine ⟨?_, ?_, ?_, ?_, ?_, ?_, ?_⟩
  · rwa [Dev.fbOn_congr hkeep.bank]
  · rwa [Dev.fbf_congr hkeep.bank]
  · rwa [Dev.qsMode, Dev.fbf_congr hkeep.bank]
  · rwa [Dev.fbf_congr hkeep.bank]
  · rwa [hqs]
  · rwa [hqs]
  · rwa [hqs]

/-- A fire counts, restarts the count and starts the holdoff. -/
structure Dev.Fires (d e : Dev) (q : Nat) : Prop where
  fires : e.n (Reg.QS_FIRES q) = (d.n (Reg.QS_FIRES q) + 1) % 2 ^ 32
  count : (e.qs q).count = 0
  hold : (e.qs q).hold = (if d.fbf (Reg.QS_HOLDOFF q) 0 24 = 0 then none else some d.tb.edges)

theorem Dev.fires_qsFire (d : Dev) {q : Nat} (hq : q < 8) (p : Pulse) : d.Fires (d.qsFire q p) q := by
  have hkeep := d.keepsUnits_qsFire (Q := (· = q)) (T := fun _ => False) q p
  have hqs := (hkeep.qs q rfl).trans (d.qs_qsFired q)
  exact ⟨(Dev.n_congr (hkeep.fires q hq rfl)).trans (d.n_qsFired q), by rw [hqs], by rw [hqs]⟩

/-- It still has fired after what leaves the sequencer alone, before and after. -/
theorem Dev.Fires.of_keeps {a d e b : Dev} {q : Nat} {Q T : Nat → Prop} (h : d.Fires e q) (hbefore : a.KeepsUnits Q T d) (hafter : e.KeepsUnits Q T b)
    (h8 : q < 8) (hq : Q q) : a.Fires b q where
  fires := by rw [Dev.n_congr (hafter.fires q h8 hq), h.fires, Dev.n_congr (hbefore.fires q h8 hq)]
  count := by rw [hafter.qs q hq, h.count]
  hold := by rw [hafter.qs q hq, h.hold, Dev.fbf_congr hbefore.bank, hbefore.tb]

/-- A sequencer that is ready fires when its line pulses for the first time in the step. -/
theorem fires_qsTake {d : Dev} {q n : Nat} (hq : q < 8) (h : d.QsReady q n) {was now : List (Option Pulse)} {p : Pulse}
    (hwas : nth was n none = none) (hnow : nth now n none = some p) : d.Fires (qsTake was now d q) q := by
  have hstep (b : Option Pulse) : d.Fires (d.qsStep q (some p) b) q := by
    rw [Dev.qsStep_of_first h.on h.mode h.first h.win h.hold h.count]
    obtain ⟨hfires, hcount, hhold⟩ := (d.setQs q { d.qs q with pulses := (d.qs q).pulses + 1 }).fires_qsFire hq p
    exact ⟨hfires, hcount, hhold⟩
  have hrecause {e : Dev} (he : d.Fires e q) (o : Option (Pulse × Pulse)) : d.Fires (e.qsRecauseBy q o) q := by
    obtain ⟨hcount, hhold, hfires⟩ := e.qsRecauseBy_keeps q o
    exact ⟨hfires.trans he.fires, hcount.trans he.count, hhold.trans he.hold⟩
  unfold qsTake
  dsimp only
  rw [h.line, hwas, hnow]
  exact hrecause (hrecause (hstep _) _) _

theorem Dev.fires_fabStep {d : Dev} {old : List Pulse} {p p' : Pulse} {q n : Nat} (hq : q < 8) (hn : n < 64) (h : d.QsReady q n)
    (hwas : d.linePulse old n = none) (hnow : d.linePulse (old ++ [p]) n = some p') : d.Fires (d.fabStep old [p]) q := by
  obtain ⟨e, hbefore, hafter⟩ := Dev.KeepsUnits.foldl_at (Q := (· = q)) (T := fun _ => False) (f := qsTake (d.lines old) (d.lines (old ++ [p]))) d
    List.nodup_range (List.mem_range.mpr hq) fun d _ hx => keepsUnits_qsTake d _ _ hx
  have hfire : e.Fires (qsTake (d.lines old) (d.lines (old ++ [p])) e q) q :=
    fires_qsTake hq (h.of_keeps hbefore rfl) ((d.nth_lines old hn).trans hwas) ((d.nth_lines _ hn).trans hnow)
  have htrig : (qsTake (d.lines old) (d.lines (old ++ [p])) e q).KeepsUnits (· = q) (fun _ => False) (d.afterPins old [p]) :=
    Dev.KeepsUnits.foldl hafter fun d _ _ => d.keepsUnits_trigStep (fun h => h) [p]
  exact hfire.of_keeps hbefore (htrig.trans (d.keepsUnits_fabStep old [p])) hq rfl

/-! ### The pulse that arrives (R175) -/

/-- A waiting pulse, taken into the present step. -/
def Dev.pulseTaken (d : Dev) (p : Pulse) : Dev :=
  ({ d with pulses := d.pulses.erase p } : Dev).setFab { d.fab with seen := d.fab.seen ++ [p] }

/-- The pulse of a code that waits and has not arrived in the step is the one that arrives. -/
theorem fabricArrival_single {d : Dev} {c : Nat} (hwait : (d.pulses.any fun p => p.code = c) = true)
    (hnew : (d.fabNow.fab.seen.any fun p => p.code = c) = false) :
    ∃ p : Pulse, p.code = c ∧ fabricArrival [c] d = ((d.fabNow.pulseTaken p).fabStep d.fabNow.fab.seen [p], [p]) := by
  have hpulses : d.fabNow.pulses = d.pulses := d.recorded_fabNow.pulses
  obtain ⟨p, hp⟩ := Option.isSome_iff_exists.mp ((List.find?_isSome (p := fun p : Pulse => decide (p.code = c))).mpr (List.any_eq_true.mp hwait))
  have hcode : p.code = c := by simpa using List.find?_some hp
  have htake : takePulses [c] d.fabNow.pulses = ([p], d.fabNow.pulses.erase p) := by
    simp [takePulses, hpulses, hp]
  refine ⟨p, hcode, ?_⟩
  unfold fabricArrival
  simp only [htake, List.filter, hcode, hnew, Bool.not_false]
  rfl

/-- What happens in the step of a pulse is what the device shows after it: the other units that it starts leave the fabric alone. -/
theorem keepsFabric_pulsesArrive (codes : List Nat) (d : Dev) : (fabricArrival codes d).1.KeepsFabric (pulsesArrive codes d) :=
  ((Dev.keepsFabric_eiRampPulses _ _).trans (Dev.keepsFabric_cxPulses _ _)).trans (Dev.keepsFabric_auxPulses _ _)

theorem Dev.keepsUnits_pulseTaken {Q T : Nat → Prop} (d : Dev) (p : Pulse) : d.KeepsUnits Q T (d.fabNow.pulseTaken p) :=
  d.recorded_fabNow.keepsUnits.of_units rfl rfl rfl rfl rfl

theorem exists_lowerPulse (x : Pulse) (b : Option Pulse) : ∃ y, lowerPulse (some x) b = some y := by
  cases b with
  | none => exact ⟨x, rfl⟩
  | some z =>
    unfold lowerPulse
    dsimp only
    split <;> exact ⟨_, rfl⟩

/-- A line whose source has not pulsed in the step pulses when it does. -/
theorem Dev.linePulse_append {d : Dev} {old : List Pulse} {p : Pulse} {n : Nat} (hon : d.fbOn (Reg.LINE_CFG n) 31 = true)
    (hsrc : d.fbf (Reg.LINE_CFG n) 10 9 = p.code) (hwas : d.linePulse old n = none) :
    (old.any fun x => x.code = p.code) = false ∧ ∃ p', d.linePulse (old ++ [p]) n = some p' := by
  have hline (ps : List Pulse) : d.linePulse ps n =
      lowerPulse (arrived ps p.code) (if d.fbOn (Reg.LINE_CFG n) 30 then arrived ps (d.fbf (Reg.LINE_CFG n) 20 9) else none) := by
    rw [← hsrc]
    exact if_pos hon
  have hold : arrived old p.code = none := by
    cases h : arrived old p.code with
    | none => rfl
    | some x =>
      obtain ⟨y, hy⟩ := exists_lowerPulse x (if d.fbOn (Reg.LINE_CFG n) 30 then arrived old (d.fbf (Reg.LINE_CFG n) 20 9) else none)
      rw [hline, h, hy] at hwas
      exact absurd hwas (Option.some_ne_none y)
  have hnew : arrived (old ++ [p]) p.code = some p := by
    unfold arrived at hold ⊢
    simp [List.find?_append, hold]
  refine ⟨?_, ?_⟩
  · simpa [arrived] using hold
  · rw [hline, hnew]
    exact exists_lowerPulse p _

theorem exec_fabricPulseArrival_trig (s : State) (c : Nat) (n : Fin 8) (hwait : (s.dev.pulses.any fun p => p.code = c) = true)
    (hnew : (s.dev.fabNow.fab.seen.any fun p => p.code = c) = false) (hon : s.dev.fbOn (Reg.TRIG_CFG n) 31 = true)
    (hsrc : s.dev.fbf (Reg.TRIG_CFG n) 20 9 = c) :
    ∃ t, exec (.fabricPulseArrival [c]) s = .next t
      ∧ t.dev.trigUntil n = some (s.dev.tb.edges + s.dev.fbf (Reg.TRIG_CFG n) 0 16 + 1) ∧ t.dev.now = s.dev.now := by
  obtain ⟨p, hcode, harrive⟩ := fabricArrival_single hwait hnew
  have houtside := keepsFabric_pulsesArrive [c] s.dev
  rw [harrive] at houtside
  have htaken := s.dev.keepsUnits_pulseTaken (Q := fun _ => False) (T := fun _ => False) p
  obtain ⟨hpin, htb⟩ := (s.dev.fabNow.pulseTaken p).trigUntil_fabStep s.dev.fabNow.fab.seen n.isLt
    ((Dev.fbOn_congr htaken.bank _ _).trans hon) (((Dev.fbf_congr htaken.bank _ _ _).trans hsrc).trans hcode.symm)
  refine ⟨{ s with dev := pulsesArrive [c] s.dev }, rfl, ?_, Dev.now_congr (houtside.same.1.trans (htb.trans htaken.tb))⟩
  rw [(houtside.keepsUnits (Q := fun _ => False) (T := fun _ => True)).pins n trivial, hpin, Dev.fbf_congr htaken.bank, htaken.tb]

theorem exec_fabricPulseArrival_qs (s : State) (c : Nat) (q : Fin 8) (n : Fin 64) (hwait : (s.dev.pulses.any fun p => p.code = c) = true)
    (hwas : s.dev.linePulse s.dev.fabNow.fab.seen n = none) (hline : s.dev.fbOn (Reg.LINE_CFG n) 31 = true)
    (hsrc : s.dev.fbf (Reg.LINE_CFG n) 10 9 = c) (hon : s.dev.fbOn (Reg.QS_CFG q) 31 = true) (hsel : s.dev.fbf (Reg.QS_CFG q) 8 6 = n.val)
    (hmode : s.dev.qsMode q = 0) (hfirst : s.dev.fbf (Reg.QS_COUNT q) 0 16 = 0) (hwin : (s.dev.qs q).win = none) (hhold : (s.dev.qs q).hold = none)
    (hcount : (s.dev.qs q).count = 0) :
    ∃ t, exec (.fabricPulseArrival [c]) s = .next t ∧ t.dev.n (Reg.QS_FIRES q) = (s.dev.n (Reg.QS_FIRES q) + 1) % 2 ^ 32
      ∧ (t.dev.qs q).count = 0
      ∧ (t.dev.qs q).hold = (if s.dev.fbf (Reg.QS_HOLDOFF q) 0 24 = 0 then none else some s.dev.tb.edges) := by
  have hready : s.dev.QsReady q n := ⟨hon, hsel, hmode, hfirst, hwin, hhold, hcount⟩
  have hfresh : (s.dev.fabNow.fab.seen.any fun x => x.code = c) = false :=
    (s.dev.linePulse_append (p := { code := c, cause := 0 }) hline hsrc hwas).1
  obtain ⟨p, hcode, harrive⟩ := fabricArrival_single hwait hfresh
  obtain ⟨-, p', hnow⟩ := s.dev.linePulse_append hline (hsrc.trans hcode.symm) hwas
  have houtside := keepsFabric_pulsesArrive [c] s.dev
  rw [harrive] at houtside
  have htaken := s.dev.keepsUnits_pulseTaken (Q := (· = q.val)) (T := fun _ => False) p
  have hfire := Dev.fires_fabStep (old := s.dev.fabNow.fab.seen) q.isLt n.isLt (hready.of_keeps htaken rfl)
    ((Dev.linePulse_congr htaken.bank _ _).trans hwas) ((Dev.linePulse_congr htaken.bank _ _).trans hnow)
  obtain ⟨hfires, hcount', hhold'⟩ := hfire.of_keeps htaken houtside.keepsUnits q.isLt rfl
  exact ⟨{ s with dev := pulsesArrive [c] s.dev }, rfl, hfires, hcount', hhold'⟩

/-! ### The ends of windows, holdoffs and active levels (R185, R187, R188) -/

theorem qsWindowExpire_of_fire {d : Dev} {q t : Nat} {p : Pulse} (h : (d.qs q).win = some (t, p)) (hpast : d.passed t (d.qsWindow q) = true)
    (hmode : d.qsMode q ≠ 1) : qsWindowExpire q d = (d.setQs q { d.qs q with win := none }).qsFire q p := by
  unfold qsWindowExpire
  simp [h, hpast, hmode]

theorem qsWindowExpire_of_miss {d : Dev} {q t : Nat} {p : Pulse} (h : (d.qs q).win = some (t, p)) (hpast : d.passed t (d.qsWindow q) = true)
    (hmode : d.qsMode q = 1) : qsWindowExpire q d = d.setQs q { d.qs q with win := none, count := 0 } := by
  unfold qsWindowExpire
  simp [h, hpast, hmode]

theorem exec_qsWindowExpire_fire (s : State) (q : Fin 8) (t0 : Nat) (p : Pulse) (h : (s.dev.qs q).win = some (t0, p))
    (hpast : s.dev.passed t0 (s.dev.qsWindow q) = true) (hmode : s.dev.qsMode q ≠ 1) :
    ∃ t, exec (.qsWindowExpire q) s = .next t ∧ (t.dev.qs q).win = none ∧ t.dev.n (Reg.QS_FIRES q) = (s.dev.n (Reg.QS_FIRES q) + 1) % 2 ^ 32
      ∧ t.dev.pulses = s.dev.pulses ++ [{ p with code := 456 + q.val }] := by
  let d := s.dev.setQs q { s.dev.qs q with win := none }
  have hqs := ((d.keepsUnits_qsFire (Q := (· = q.val)) (T := fun _ => False) q p).qs q rfl).trans (d.qs_qsFired q)
  exact ⟨{ s with dev := d.qsFire q p }, next_congr (qsWindowExpire_of_fire h hpast hmode), by rw [hqs], (d.fires_qsFire q.isLt p).fires,
    d.pulses_qsFire q p⟩

theorem exec_qsWindowExpire_miss (s : State) (q : Fin 8) (t0 : Nat) (p : Pulse) (h : (s.dev.qs q).win = some (t0, p))
    (hpast : s.dev.passed t0 (s.dev.qsWindow q) = true) (hmode : s.dev.qsMode q = 1) :
    ∃ t, exec (.qsWindowExpire q) s = .next t ∧ (t.dev.qs q).win = none ∧ (t.dev.qs q).count = 0 ∧ t.dev.pulses = s.dev.pulses
      ∧ ∀ j, t.dev.rd j = s.dev.rd j := by
  refine ⟨{ s with dev := s.dev.setQs q { s.dev.qs q with win := none, count := 0 } }, next_congr (qsWindowExpire_of_miss h hpast hmode),
    ?_, ?_, rfl, fun _ => rfl⟩ <;> simp

theorem qsHoldoffEnd_of_due {d : Dev} {q t : Nat} (h : (d.qs q).hold = some t) (hpast : d.passed t (d.fbf (Reg.QS_HOLDOFF q) 0 24) = true) :
    qsHoldoffEnd q d = d.setQs q { d.qs q with hold := none } := by
  unfold qsHoldoffEnd
  simp [h, hpast]

theorem exec_qsHoldoffEnd (s : State) (q : Fin 8) (t0 : Nat) (h : (s.dev.qs q).hold = some t0)
    (hpast : s.dev.passed t0 (s.dev.fbf (Reg.QS_HOLDOFF q) 0 24) = true) :
    ∃ t, exec (.qsHoldoffEnd q) s = .next t ∧ t.dev.qs q = { s.dev.qs q with hold := none } ∧ ∀ j, t.dev.rd j = s.dev.rd j :=
  ⟨{ s with dev := s.dev.setQs q { s.dev.qs q with hold := none } }, next_congr (qsHoldoffEnd_of_due h hpast), Tab.get_set_self ..,
    fun _ => rfl⟩

theorem trigPinRelease_of_due {d : Dev} {n e : Nat} (h : d.trigUntil n = some e) (hdue : e ≤ d.tb.edges) : trigPinRelease n d = d.setTrig n none := by
  unfold trigPinRelease
  simp [h, hdue]

theorem exec_trigPinRelease (s : State) (n : Fin 8) (e : Nat) (h : s.dev.trigUntil n = some e) (hdue : e ≤ s.dev.tb.edges) :
    ∃ t, exec (.trigPinRelease n) s = .next t ∧ t.dev.trigUntil n = none ∧ t.dev.trigPin n = s.dev.fbOn (Reg.TRIG_CFG n) 30
      ∧ ∀ j, t.dev.rd j = s.dev.rd j := by
  have hnone : (s.dev.setTrig n none).trigUntil n = none := (s.dev.trigUntil_setTrig n n none).trans (if_pos rfl)
  refine ⟨{ s with dev := s.dev.setTrig n none }, next_congr (trigPinRelease_of_due h hdue), hnone, ?_, fun _ => rfl⟩
  show (s.dev.setTrig n none).trigPin n = _
  rw [Dev.trigPin, hnone, Option.isSome_none, Bool.false_bne]
  rfl

theorem blankRelease_of_due {d : Dev} {k e : Nat} {p : Pulse} (h : (d.blank k).until_ = some e) (hdue : e ≤ d.tb.edges) (hlast : (d.blank k).last = some p) :
    blankRelease k d = (d.blankFreed k p false (d.fbOn (Reg.BLANK_CFG k) 29)).event Reg.FAB_STATUS (1368 + k) := by
  rw [← Dev.blankOff_of_last hlast, blankRelease, h]
  exact if_pos hdue

theorem exec_blankRelease (s : State) (k : Fin 4) (e : Nat) (p : Pulse) (h : (s.dev.blank k).until_ = some e) (hdue : e ≤ s.dev.tb.edges)
    (hlast : (s.dev.blank k).last = some p) :
    ∃ t, exec (.blankRelease k) s = .next t ∧ (t.dev.blank k).until_ = none ∧ t.dev.on Reg.FAB_STATUS k = false
      ∧ t.dev.blankPin k = s.dev.fbOn (Reg.BLANK_CFG k) 30
      ∧ t.dev.n (Reg.EV_SEQ (1368 + k.val)) = (s.dev.n (Reg.EV_SEQ (1368 + k.val)) + 1) % 2 ^ 32 := by
  have hk := k.isLt
  have hrec := s.dev.recorded_blankFreed k p false (s.dev.fbOn (Reg.BLANK_CFG k) 29)
  generalize hd : s.dev.blankFreed k p false (s.dev.fbOn (Reg.BLANK_CFG k) 29) = d at hrec
  have huntil : (d.blank k).until_ = none := by
    rw [hrec.blank]
    exact congrArg BlankSt.until_ ((s.dev.blank_setBlank k k {}).trans (if_pos rfl))
  have hev : recordFree (Reg.EV_SEQ (1368 + k.val)) := by
    unfold recordFree Reg.EV_SEQ Reg.FAB_STATUS Reg.REC_SKIPS
    omega
  refine ⟨{ s with dev := d.event Reg.FAB_STATUS (1368 + k) }, next_congr (hd ▸ blankRelease_of_due h hdue hlast), huntil, ?_, ?_, ?_⟩
  · rw [Dev.on_event _ _ _ (by omega) (fabStatus_ne_evSeq _), hrec.status k (by omega) (by omega)]
    exact Dev.on_clrB_self _ _ _ (by omega)
  · show ((d.blank k).until_.isSome != d.fbOn (Reg.BLANK_CFG k) 30) = _
    rw [huntil, Option.isSome_none, Bool.false_bne, Dev.fbOn_congr hrec.bank]
    rfl
  · rw [Dev.n_event_self _ (fabStatus_ne_evSeq _).symm, Dev.n_congr (hrec.same.2 _ hev), Dev.n_congr (Dev.rd_clrB_ne _ _ hev.1)]
    rfl

end Sys2Proof.Machine

namespace Sys2Proof
open Sys2Proof.Machine

/-- Settles O21, command by command. -/
theorem fabricPulses : Obligations.FabricPulses := by
  unfold Obligations.FabricPulses
  exact ⟨exec_fabricPulseArrival_trig, exec_fabricPulseArrival_qs, exec_qsWindowExpire_fire, exec_qsWindowExpire_miss, exec_qsHoldoffEnd,
    exec_trigPinRelease, exec_blankRelease⟩

end Sys2Proof
end

section
/-! SUPPORT. The display beside HBM: what the accesses of units leave of the display, and writes that succeed. -/
namespace Sys2Proof.Machine

/-! ### The display's registers and state -/

/-- The registers of the display (R232). -/
def displayKey (j : Nat) : Prop := 0x100000 ≤ j ∧ j < 0x110000

theorem not_displayKey {k : Nat} (h : 0x110000 ≤ k) : ¬ displayKey k := fun hk => absurd hk.2 (Nat.not_lt.mpr h)

theorem displayKey_counts : displayKey Reg.RENDERS ∧ displayKey Reg.FRAMES_SHOWN ∧ displayKey Reg.REPEATS := by
  unfold displayKey
  decide

theorem not_displayKey_evSeq (n : Nat) : ¬ displayKey (Reg.EV_SEQ n) := not_displayKey (by unfold Reg.EV_SEQ; omega)

/-- The display's state without the lines it has fetched. -/
def DispSt.unfetched (x : DispSt) : DispSt := { x with held := [] }

/-- The display's registers are the same, and so is its state, but for the lines it has fetched. -/
structure Dev.KeepsDisplay (d e : Dev) : Prop where
  same : d.SameOn displayKey e
  disp : e.disp.unfetched = d.disp.unfetched

section KeepsDisplay
variable {a d e : Dev}

theorem Dev.KeepsDisplay.refl (d : Dev) : d.KeepsDisplay d := ⟨.refl d, rfl⟩

theorem Dev.KeepsDisplay.trans (had : a.KeepsDisplay d) (hde : d.KeepsDisplay e) : a.KeepsDisplay e :=
  ⟨had.same.trans hde.same, hde.disp.trans had.disp⟩

theorem Dev.KeepsDisplay.rd (h : d.KeepsDisplay e) {j : Nat} (hj : displayKey j) : e.rd j = d.rd j := h.same.2 j hj

theorem Dev.KeepsDisplay.front (h : d.KeepsDisplay e) : e.disp.front = d.disp.front := (congrArg DispSt.front h.disp :)

theorem Dev.KeepsDisplay.ready (h : d.KeepsDisplay e) : e.disp.ready = d.disp.ready := (congrArg DispSt.ready h.disp :)

theorem Dev.KeepsDisplay.line (h : d.KeepsDisplay e) : e.disp.line = d.disp.line := (congrArg DispSt.line h.disp :)

theorem Dev.KeepsDisplay.store (h : d.KeepsDisplay e) : e.disp.store = d.disp.store := (congrArg DispSt.store h.disp :)

/-- So it is after an update of another unit's state. -/
theorem Dev.KeepsDisplay.of_units (h : a.KeepsDisplay d) (htb : e.tb = d.tb) (hregs : e.regs = d.regs) (hdisp : e.disp = d.disp) : a.KeepsDisplay e :=
  h.trans ⟨(Dev.SameOn.refl d).of_regs htb hregs, congrArg DispSt.unfetched hdisp⟩

theorem Dev.KeepsDisplay.wr (h : a.KeepsDisplay d) {k : Nat} (hk : ¬ displayKey k) (v : Word) : a.KeepsDisplay (d.wr k v) :=
  ⟨h.same.wr hk v, h.disp⟩

theorem Dev.KeepsDisplay.sqEvent (h : a.KeepsDisplay d) {st n : Nat} (b : Nat) (hst : ¬ displayKey st) : a.KeepsDisplay (d.sqEvent st b n) := by
  unfold Dev.sqEvent
  split
  · exact h
  · exact ⟨(h.same.wr hst _).event hst (not_displayKey_evSeq n), h.disp⟩

end KeepsDisplay

/-! ### Accesses of units to HBM (R439, R441, R543) -/

theorem Dev.keepsDisplay_denyUnit (d : Dev) (i : Ini) (port a : Nat) (kd : Kind) (reason : Nat) : d.KeepsDisplay (d.denyUnit i port a kd reason) := by
  unfold Dev.denyUnit Dev.deny
  extract_lets d1 d2 d3 d4 d5
  have h1 : d.KeepsDisplay d1 := (Dev.KeepsDisplay.refl d).of_units rfl rfl rfl
  have h2 : d.KeepsDisplay d2 := h1.wr (k := Reg.DENY_COUNT) (not_displayKey (by decide)) _
  have h3 : d.KeepsDisplay d3 :=
    (h2.wr (k := Reg.DENY_ADDR_LO) (not_displayKey (by decide)) _).wr (k := Reg.DENY_ADDR_HI) (not_displayKey (by decide)) _
  have h5 : d.KeepsDisplay d5 := (h3.wr (k := Reg.DENY_INFO) (not_displayKey (by decide)) _).of_units rfl rfl rfl
  exact (h5.sqEvent 3 (not_displayKey (by decide))).of_units rfl rfl rfl

theorem Dev.keepsDisplay_checkMem (d : Dev) (i : Ini) (port a n : Nat) (kd : Kind) : d.KeepsDisplay (d.checkMem i port a n kd).1 := by
  unfold Dev.checkMem
  split
  · exact .refl d
  · exact d.keepsDisplay_denyUnit ..

theorem Dev.keepsDisplay_meter (d : Dev) (p : Nat) (i : Ini) (a n : Nat) : d.KeepsDisplay (d.meter p i a n) := by
  unfold Dev.meter
  dsimp only
  split
  · exact (Dev.KeepsDisplay.refl d).of_units rfl rfl rfl
  · exact .refl d

theorem Dev.keepsDisplay_moved (d : Dev) (p n : Nat) : d.KeepsDisplay (d.moved p n) := by
  have hset : d.KeepsDisplay (d.setMport p { d.mport p with part := ((d.mport p).part + n) % 256 }) := (Dev.KeepsDisplay.refl d).of_units rfl rfl rfl
  unfold Dev.moved
  dsimp only
  split
  · exact .refl d
  · exact hset.wr (not_displayKey (by unfold Reg.PORT_BYTES; omega)) _

theorem Dev.keepsDisplay_meetUe (d : Dev) (port u : Nat) : d.KeepsDisplay (d.meetUe port u) := by
  unfold Dev.meetUe
  extract_lets d1
  have h1 : d.KeepsDisplay d1 :=
    (((Dev.KeepsDisplay.refl d).wr (not_displayKey (by decide)) _).wr (not_displayKey (by decide)) _).wr (not_displayKey (by decide)) _
  exact (h1.sqEvent 5 (not_displayKey (by decide))).of_units rfl rfl rfl

theorem keepsDisplay_memRead (i : Ini) (port a n : Nat) (m : Mem) (d : Dev) : d.KeepsDisplay (memRead i port a n m d).1 := by
  have hcheck := d.keepsDisplay_checkMem i port a n .read
  have hmeter := hcheck.trans (Dev.keepsDisplay_meter _ port i a n)
  unfold memRead
  dsimp only
  split
  · exact hcheck
  · split
    · exact hmeter.trans (Dev.keepsDisplay_meetUe ..)
    · exact hmeter.trans (Dev.keepsDisplay_moved ..)

/-! ### Writes that no window refuses (R439, R543) -/

/-- Bytes stored read back. -/
theorem Mem.bytes_store (m : Mem) (a : Nat) (l : List Byte) : (m.store a l).bytes a l.length = l := by
  refine List.ext_getElem (by simp [Mem.bytes]) fun k _ hk => ?_
  simp [Mem.bytes, Mem.byte_store_in m a l k hk]

/-- A check that passes leaves the device as it was. -/
theorem Dev.checkMem_of_pass {d : Dev} {i : Ini} {port a n : Nat} {kd : Kind} (h : (d.checkMem i port a n kd).2 = true) :
    d.checkMem i port a n kd = (d, true) := by
  unfold Dev.checkMem at h ⊢
  split at h
  next => rfl
  next => cases h

theorem Dev.ueEdges_meter (d : Dev) (p : Nat) (i : Ini) (b m a n : Nat) : (d.meter p i b m).ueEdges a n = d.ueEdges a n := by
  unfold Dev.meter
  dsimp only
  split <;> rfl

/-- The units that a write covers whole are good (R439). -/
def Dev.unitsGood (d : Dev) (a n : Nat) : Dev :=
  { d with mc := { d.mc with ue := d.mc.ue.filter fun u => !(decide (a ≤ 32 * u) && decide (32 * u + 32 ≤ a + n)) } }

theorem memPut_of_whole {port a : Nat} {l : List Byte} {y : Sys} (h : y.dev.ueEdges a l.length = []) :
    memPut port a l y = (⟨y.mem.store a l, (y.dev.unitsGood a l.length).moved port l.length⟩, none) := by
  simp only [memPut, h]
  rfl

/-- A write of a range that can be written stores its bytes, and leaves the display as it is. -/
theorem memWrite_of_writable {s : State} {i : Ini} {port a : Nat} {l : List Byte} (h : s.writable i port a l.length = true) :
    ∃ d, memWrite i port a l ⟨s.mem, s.dev⟩ = (⟨s.mem.store a l, d⟩, .ok []) ∧ s.dev.KeepsDisplay d := by
  simp only [State.writable, Bool.and_eq_true, List.isEmpty_iff] at h
  obtain ⟨hpass, hedges⟩ := h
  have hgood : s.dev.KeepsDisplay ((s.dev.meter port i a l.length).unitsGood a l.length) := (s.dev.keepsDisplay_meter ..).of_units rfl rfl rfl
  refine ⟨_, ?_, hgood.trans (Dev.keepsDisplay_moved _ port l.length)⟩
  simp [memWrite, Dev.checkMem_of_pass hpass, memPut_of_whole, Dev.ueEdges_meter, hedges]

end Sys2Proof.Machine
end

section
/-! SUPPORT. Renders, frames and the crema flip (R223, R224, R230). -/
namespace Sys2Proof.Machine

/-! ### Renders (R223) -/

theorem renderStart_of_fresh {d : Dev} (hfree : d.disp.render = none) (hready : d.disp.ready = false) (hfresh : d.panesFresh = true) :
    renderStart d = d.beginRender := by
  simp [renderStart, hfree, hready, hfresh]

/-- A render that has ended: its content is ready, and it is counted. -/
def Dev.rendered (d : Dev) : Dev := (d.setDisp { d.disp with render := none, ready := true }).addSat Reg.RENDERS 1

theorem Dev.n_rendered (d : Dev) : d.rendered.n Reg.RENDERS = min (d.n Reg.RENDERS + 1) (2 ^ 32 - 1) := Dev.n_addSat_self ..

theorem renderDone_of_chip {m : Mem} {d : Dev} {r : Render} (hr : d.disp.render = some r) (hchip : d.on Reg.DISP_STATUS 2 = false) :
    renderDone ⟨m, d⟩ = ⟨m, (d.setDisp { d.disp with store := storePut d.disp.store (fbChip (1 - d.disp.front)) r.pic.bytes }).rendered⟩ := by
  simp only [renderDone, hr, hchip, Bool.false_eq_true, if_false]
  rfl

theorem renderDone_of_hbm {m : Mem} {d : Dev} {r : Render} (hr : d.disp.render = some r) (hhbm : d.on Reg.DISP_STATUS 2 = true) :
    renderDone ⟨m, d⟩ = (memWrite 0x1A1 21 (d.fbHbm (1 - d.disp.front)) r.pic.bytes ⟨m, d⟩).1.on Dev.rendered := by
  simp only [renderDone, hr, hhbm, if_true]
  rfl

theorem exec_renderStart (s : State) (hfree : s.dev.disp.render = none) (hready : s.dev.disp.ready = false) (hfresh : s.dev.panesFresh = true) :
    ∃ t, exec .renderStart s = .next t ∧ t.dev.disp.ready = false ∧ t.dev.disp.epochs = s.dev.epochsEnded
      ∧ t.dev.disp.render = some ⟨s.dev.drawPic, (s.dev.paneSources.filter s.dev.banked).map fun g => (g, nth s.dev.epochsEnded g 0)⟩
      ∧ ∀ j, t.dev.rd j = s.dev.rd j :=
  ⟨{ s with dev := s.dev.beginRender }, next_congr (renderStart_of_fresh hfree hready hfresh), hready, rfl, rfl, fun _ => rfl⟩

theorem exec_renderDone (s : State) {y : Sys} (h : renderDone ⟨s.mem, s.dev⟩ = y) :
    exec .renderDone s = .next { s with dev := y.dev, mem := y.mem } := by
  rw [← h]
  rfl

theorem exec_renderDone_chip (s : State) (r : Render) (hr : s.dev.disp.render = some r) (hchip : s.dev.on Reg.DISP_STATUS 2 = false) :
    ∃ t, exec .renderDone s = .next t ∧ t.dev.disp.render = none ∧ t.dev.disp.ready = true ∧ t.mem = s.mem
      ∧ t.dev.disp.store = storePut s.dev.disp.store (fbChip (1 - s.dev.disp.front)) r.pic.bytes
      ∧ t.dev.n Reg.RENDERS = min (s.dev.n Reg.RENDERS + 1) (2 ^ 32 - 1) :=
  ⟨_, exec_renderDone s (renderDone_of_chip hr hchip), rfl, rfl, rfl, rfl, Dev.n_rendered _⟩

theorem exec_renderDone_hbm (s : State) (r : Render) (hr : s.dev.disp.render = some r) (hhbm : s.dev.on Reg.DISP_STATUS 2 = true)
    (hwrite : s.writable 0x1A1 21 (s.dev.fbHbm (1 - s.dev.disp.front)) r.pic.bytes.length = true) :
    ∃ t, exec .renderDone s = .next t ∧ t.dev.disp.render = none ∧ t.dev.disp.ready = true ∧ t.dev.disp.store = s.dev.disp.store
      ∧ t.mem.bytes (s.dev.fbHbm (1 - s.dev.disp.front)) r.pic.bytes.length = r.pic.bytes
      ∧ s.sameOutside t (s.dev.fbHbm (1 - s.dev.disp.front)) r.pic.bytes.length
      ∧ t.dev.n Reg.RENDERS = min (s.dev.n Reg.RENDERS + 1) (2 ^ 32 - 1) := by
  obtain ⟨hrenders, -, -⟩ := displayKey_counts
  obtain ⟨d, hput, hkeep⟩ := memWrite_of_writable hwrite
  have hdone : renderDone ⟨s.mem, s.dev⟩ = ⟨s.mem.store (s.dev.fbHbm (1 - s.dev.disp.front)) r.pic.bytes, d.rendered⟩ := by
    rw [renderDone_of_hbm hr hhbm, hput]
    rfl
  refine ⟨_, exec_renderDone s hdone, rfl, rfl, hkeep.store, Mem.bytes_store .., fun x hx => Mem.byte_store_out _ _ _ _ hx, ?_⟩
  rw [d.n_rendered, Dev.n_congr (hkeep.rd hrenders)]

/-! ### Frames (R226, R230) -/

theorem keepsDisplay_fetchLine (n : Nat) (y : Sys) : y.dev.KeepsDisplay (fetchLine n y).dev := by
  unfold fetchLine
  split
  split
  · exact .refl _
  · extract_lets base ya ca p q
    have hreads : y.dev.KeepsDisplay q.1 := (keepsDisplay_memRead ..).trans (keepsDisplay_memRead ..)
    exact ⟨hreads.same.of_regs rfl rfl, hreads.disp⟩

theorem keepsDisplay_foldl_fetchLine (l : List Nat) (y : Sys) : y.dev.KeepsDisplay (l.foldl (fun y n => fetchLine n y) y).dev := by
  induction l generalizing y with
  | nil => exact .refl _
  | cons n l ih => exact (keepsDisplay_fetchLine n y).trans (ih _)

/-- The image of a frame (R230): new content if it is ready, otherwise the one before, which with ADAPTIVE is a repeat. -/
def Dev.frameImage (d : Dev) : Dev :=
  if d.disp.ready then d.setDisp { d.disp with front := 1 - d.disp.front, ready := false }
  else if d.on Reg.DISP_STATUS 3 then d.addSat Reg.REPEATS 1
  else d

/-- A frame that is shown stands before its first line, and is counted. -/
def Dev.frameShown (d : Dev) : Dev := (d.setDisp { d.disp with line := 0, shown := true, held := [] }).addSat Reg.FRAMES_SHOWN 1

theorem Dev.n_frameShown (d : Dev) : d.frameShown.n Reg.FRAMES_SHOWN = min (d.n Reg.FRAMES_SHOWN + 1) (2 ^ 32 - 1) := Dev.n_addSat_self ..

theorem Dev.rd_frameShown_ne (d : Dev) {j : Nat} (h : j ≠ Reg.FRAMES_SHOWN) : d.frameShown.rd j = d.rd j := Dev.rd_addSat_ne _ 1 h

theorem displayFrameStart_of_up {m : Mem} {d : Dev} (hen : d.on Reg.DISP_CTRL 31 = true) (htrained : d.on Reg.DISP_STATUS 4 = false)
    (hup : d.on Reg.DISP_STATUS 1 = true) :
    displayFrameStart ⟨m, d⟩ =
      if d.frameImage.on Reg.DISP_STATUS 2 then (List.range 32).foldl (fun y n => fetchLine n y) ⟨m, d.frameImage.frameShown⟩
      else ⟨m, d.frameImage.frameShown⟩ := by
  simp only [displayFrameStart, hen, htrained, hup, Bool.not_true, Bool.false_eq_true, if_false]
  rfl

/-- A frame with EN and the link up shows its image; the fetches that follow leave the rest of the display alone. -/
theorem exec_displayFrameStart (s : State) (hen : s.dev.on Reg.DISP_CTRL 31 = true) (htrained : s.dev.on Reg.DISP_STATUS 4 = false)
    (hup : s.dev.on Reg.DISP_STATUS 1 = true) :
    ∃ t, exec .displayFrameStart s = .next t ∧ s.dev.frameImage.frameShown.KeepsDisplay t.dev := by
  refine ⟨_, rfl, ?_⟩
  dsimp only
  rw [displayFrameStart_of_up hen htrained hup]
  split
  · exact keepsDisplay_foldl_fetchLine _ ⟨s.mem, s.dev.frameImage.frameShown⟩
  · exact .refl _

theorem exec_displayFrameStart_ready (s : State) (hen : s.dev.on Reg.DISP_CTRL 31 = true) (htrained : s.dev.on Reg.DISP_STATUS 4 = false)
    (hup : s.dev.on Reg.DISP_STATUS 1 = true) (hready : s.dev.disp.ready = true) :
    ∃ t, exec .displayFrameStart s = .next t ∧ t.dev.disp.front = 1 - s.dev.disp.front ∧ t.dev.disp.ready = false ∧ t.dev.disp.line = 0
      ∧ t.dev.n Reg.FRAMES_SHOWN = min (s.dev.n Reg.FRAMES_SHOWN + 1) (2 ^ 32 - 1) ∧ t.dev.rd Reg.REPEATS = s.dev.rd Reg.REPEATS := by
  obtain ⟨-, hframes, hrepeats⟩ := displayKey_counts
  obtain ⟨t, ht, hkeep⟩ := exec_displayFrameStart s hen htrained hup
  have himage : s.dev.frameImage = s.dev.setDisp { s.dev.disp with front := 1 - s.dev.disp.front, ready := false } := if_pos hready
  rw [himage] at hkeep
  refine ⟨t, ht, hkeep.front, hkeep.ready, hkeep.line, ?_, ?_⟩
  · exact (Dev.n_congr (hkeep.rd hframes)).trans (Dev.n_frameShown _)
  · exact (hkeep.rd hrepeats).trans (Dev.rd_frameShown_ne _ (by decide))

theorem exec_displayFrameStart_repeat (s : State) (hen : s.dev.on Reg.DISP_CTRL 31 = true) (htrained : s.dev.on Reg.DISP_STATUS 4 = false)
    (hup : s.dev.on Reg.DISP_STATUS 1 = true) (hready : s.dev.disp.ready = false) (hadaptive : s.dev.on Reg.DISP_STATUS 3 = true) :
    ∃ t, exec .displayFrameStart s = .next t ∧ t.dev.disp.front = s.dev.disp.front
      ∧ t.dev.n Reg.REPEATS = min (s.dev.n Reg.REPEATS + 1) (2 ^ 32 - 1)
      ∧ t.dev.n Reg.FRAMES_SHOWN = min (s.dev.n Reg.FRAMES_SHOWN + 1) (2 ^ 32 - 1) := by
  obtain ⟨-, hframes, hrepeats⟩ := displayKey_counts
  obtain ⟨t, ht, hkeep⟩ := exec_displayFrameStart s hen htrained hup
  have himage : s.dev.frameImage = s.dev.addSat Reg.REPEATS 1 := by simp [Dev.frameImage, hready, hadaptive]
  rw [himage] at hkeep
  refine ⟨t, ht, hkeep.front, ?_, ?_⟩
  · rw [Dev.n_congr (hkeep.rd hrepeats), Dev.n_congr (Dev.rd_frameShown_ne _ (by decide)), Dev.n_addSat_self]
  · rw [Dev.n_congr (hkeep.rd hframes), Dev.n_frameShown, Dev.n_congr (Dev.rd_addSat_ne _ 1 (by decide))]

/-! ### The crema flip (R224) -/

theorem exec_cremaFlip (s : State) (i : Ini) (h : s.takes i Reg.DISP_CMD = true) :
    ∃ t, exec (.cremaFlip i) s = .next t ∧ t.dev.disp = { s.dev.disp with flip := true } ∧ ∀ j, t.dev.rd j = s.dev.rd j :=
  ⟨{ s with dev := cremaFlip (s.dev.reached i 0) }, next_congr (onPosted_of_takes s i _ _ h), rfl, fun _ => rfl⟩

theorem vblankStart_of_flip {d : Dev} (hflip : d.disp.flip = true) (hstaged : d.disp.staged = none) :
    vblankStart d = (d.putB Reg.CREMA_CTRL 16 (!d.on Reg.CREMA_CTRL 16)).setDisp { d.disp with flip := false } := by
  unfold vblankStart
  rw [if_pos hflip]
  dsimp only
  split
  next => rfl
  next hsome => exact absurd (hstaged.symm.trans hsome) nofun

theorem exec_vblankStart_flip (s : State) (hflip : s.dev.disp.flip = true) (hstaged : s.dev.disp.staged = none) :
    ∃ t, exec .vblankStart s = .next t ∧ t.dev.on Reg.CREMA_CTRL 16 = !s.dev.on Reg.CREMA_CTRL 16 ∧ t.dev.disp.flip = false
      ∧ ∀ j, j ≠ Reg.CREMA_CTRL → t.dev.rd j = s.dev.rd j :=
  ⟨_, next_congr (vblankStart_of_flip hflip hstaged), Dev.on_putB_self _ _ _ _ (by decide), rfl, fun _ hj => Dev.rd_putB_ne _ _ _ hj⟩

end Sys2Proof.Machine

namespace Sys2Proof
open Sys2Proof.Machine

/-- Settles O23, command by command. -/
theorem displayBuffers : Obligations.DisplayBuffers := by
  unfold Obligations.DisplayBuffers
  exact ⟨exec_renderStart, exec_renderDone_chip, exec_renderDone_hbm, exec_displayFrameStart_ready, exec_displayFrameStart_repeat,
    exec_cremaFlip, exec_vblankStart_flip⟩

end Sys2Proof
end

section
/-! SUPPORT. What an edge input's records, and the units that take its stamps, leave of it: the counts of crossings, the pulses, and what crossings meet (R261 to R264, R270, R319). -/
namespace Sys2Proof.Machine

/-! ### The counts of crossings -/

/-- The counts of crossings and of lost ones, EI_CROSS and EI_LOST, of every input (R265). -/
def crossKey (j : Nat) : Prop := 0x140100 ≤ j ∧ j < 0x140900 ∧ 0x18 ≤ j % 128 ∧ j % 128 < 0x24

theorem crossKey_counts {n : Nat} (hn : n < 16) : crossKey (Reg.EI_CROSS_LO n) ∧ crossKey (Reg.EI_CROSS_HI n) ∧ crossKey (Reg.EI_LOST n) := by
  unfold crossKey Reg.EI_CROSS_LO Reg.EI_CROSS_HI Reg.EI_LOST
  omega

theorem not_crossKey {k : Nat} (h : k < 0x140100 ∨ 0x140900 ≤ k) : ¬ crossKey k := by
  unfold crossKey
  omega

theorem not_crossKey_evSeq (n : Nat) : ¬ crossKey (Reg.EV_SEQ n) := not_crossKey (.inr (by unfold Reg.EV_SEQ; omega))

theorem not_crossKey_over (n : Nat) : ¬ crossKey (Reg.EI_OVER n) := by
  unfold crossKey Reg.EI_OVER
  omega

/-! ### Work of other units -/

/-- The edge inputs, their counts of crossings, the pulses and the records that wait are the same. -/
structure Dev.Aside (d e : Dev) : Prop where
  same : d.SameOn crossKey e
  pulses : e.pulses = d.pulses
  edge : e.edge = d.edge
  out : e.out = d.out

section Aside
variable {a d e : Dev}

theorem Dev.Aside.refl (d : Dev) : d.Aside d := ⟨.refl d, rfl, rfl, rfl⟩

theorem Dev.Aside.trans (had : a.Aside d) (hde : d.Aside e) : a.Aside e :=
  ⟨had.same.trans hde.same, hde.pulses.trans had.pulses, hde.edge.trans had.edge, hde.out.trans had.out⟩

theorem Dev.Aside.eiSt (h : d.Aside e) (n : Nat) : e.eiSt n = d.eiSt n := by rw [Dev.eiSt, Dev.eiSt, h.edge]

theorem Dev.Aside.outOf (h : d.Aside e) (r : Nat) : e.outOf r = d.outOf r := by rw [Dev.outOf, Dev.outOf, h.out]

theorem Dev.Aside.setCl (h : a.Aside d) (c : Nat) (x : ClSt) : a.Aside (d.setCl c x) := ⟨h.same.of_regs rfl rfl, h.pulses, h.edge, h.out⟩

theorem Dev.Aside.setSu (h : a.Aside d) (u : Nat) (x : SuSt) : a.Aside (d.setSu u x) := ⟨h.same.of_regs rfl rfl, h.pulses, h.edge, h.out⟩

theorem Dev.Aside.wr (h : a.Aside d) {k : Nat} (hk : ¬ crossKey k) (v : Word) : a.Aside (d.wr k v) := ⟨h.same.wr hk v, h.pulses, h.edge, h.out⟩

theorem Dev.Aside.event (h : a.Aside d) {st : Nat} (hst : ¬ crossKey st) (n : Nat) : a.Aside (d.event st n) :=
  ⟨h.same.event hst (not_crossKey_evSeq n), h.pulses, h.edge, h.out⟩

theorem Dev.Aside.ite {c : Prop} [Decidable c] (hd : a.Aside d) (he : a.Aside e) : a.Aside (if c then d else e) := by
  split
  · exact hd
  · exact he

theorem Dev.Aside.sqEvent (h : a.Aside d) {st : Nat} (hst : ¬ crossKey st) (b n : Nat) : a.Aside (d.sqEvent st b n) :=
  h.ite ((h.wr hst _).event hst n)

theorem Dev.Aside.condOverAllot (h : a.Aside d) (src : Nat) : a.Aside (d.condOverAllot src) := by
  have hsource : ¬ crossKey Reg.COND_SOURCE := not_crossKey (.inl (by decide))
  have hstatus : ¬ crossKey Reg.COND_STATUS := not_crossKey (.inl (by decide))
  exact h.ite (((h.wr hsource _).wr hstatus _).event hstatus _)

theorem Dev.Aside.foldl {α : Type} {f : Dev → α → Dev} (h : a.Aside d) (hf : ∀ (d : Dev) (x : α), d.Aside (f d x)) (l : List α) :
    a.Aside (l.foldl f d) := by
  induction l generalizing d with
  | nil => exact h
  | cons x l ih => exact ih (h.trans (hf d x))

end Aside

theorem Dev.aside_tapStamps (d : Dev) (n : Nat) (r : Rec) : d.Aside (d.tapStamps n r) := by
  refine (Dev.Aside.refl d).foldl (fun d k => ?_) _
  have hkey (c w : Nat) : ¬ crossKey (Reg.WIN_OVERRUNS c w) ∧ ¬ crossKey (Reg.CL_STATUS c) :=
    ⟨not_crossKey (.inr (by unfold Reg.WIN_OVERRUNS; omega)), not_crossKey (.inr (by unfold Reg.CL_STATUS; omega))⟩
  have hset (c : Nat) (x : ClSt) : d.Aside (d.setCl c x) := (Dev.Aside.refl d).setCl c x
  extract_lets c w word x gap words lost
  refine .ite (.ite (hset ..) ?_) (.refl d)
  exact ((hset c _).wr (hkey c w).1 _).sqEvent (hkey c w).2 _ _

theorem Dev.aside_suTake (d : Dev) (u n : Nat) (s : SuItem) : d.Aside (d.suTake u n s) := by
  have hset (x : SuSt) : d.Aside (d.setSu u x) := (Dev.Aside.refl d).setSu u x
  have hlost (x : SuSt) : d.Aside ((d.setSu u x).sqEvent Reg.SU_STATUS 3 1330) := (hset x).sqEvent (not_crossKey (.inr (by decide))) _ _
  unfold Dev.suTake
  dsimp only
  split
  · exact (hlost _).ite (hset _)
  · exact ((hlost _).ite (hset _)).ite (hset _)

theorem Dev.aside_suFeed (d : Dev) (n : Nat) (s : SuItem) : d.Aside (d.suFeed n s) :=
  (Dev.Aside.refl d).foldl (fun d u => d.aside_suTake u n s) _

/-- The stamp writer puts a record into its input's region, and does nothing else to the input. -/
theorem Dev.aside_stampEmit (d : Dev) (n : Nat) (hdr : Hdr) (payload : List Word128) (excess : Bool) :
    (d.emit (96 + n) hdr payload).Aside (d.stampEmit n hdr payload excess) := by
  have htap := Dev.aside_tapStamps (d.emit (96 + n) hdr payload) n (d.form hdr payload).2
  exact Dev.Aside.ite (c := excess = true) ⟨htap.same.of_regs rfl rfl, htap.pulses, htap.edge, htap.out⟩ htap

theorem Dev.eiSt_stampEmit (d : Dev) (n : Nat) (hdr : Hdr) (payload : List Word128) (excess : Bool) (m : Nat) :
    (d.stampEmit n hdr payload excess).eiSt m = d.eiSt m := (d.aside_stampEmit n hdr payload excess).eiSt m

theorem Dev.length_outOf_stampEmit (d : Dev) (n : Nat) (hdr : Hdr) (payload : List Word128) (excess : Bool) :
    ((d.stampEmit n hdr payload excess).outOf (96 + n)).length = (d.outOf (96 + n)).length + 1 := by
  rw [(d.aside_stampEmit n hdr payload excess).outOf, Dev.emit, Dev.outOf_push_self, List.length_append]
  rfl

/-! ### What crossings meet of their input, while it records -/

/-- An input without its records: the block, the GAP of losses, and what takes force with a block (R262 to R264, R247). -/
def EiSt.unrecorded (x : EiSt) : EiSt := { x with settles := [], trimWas := none, gap := none, blk := none, init := none }

/-- The counts of crossings, the pulses, and an input but for its records are the same. -/
structure Dev.KeepsPath (n : Nat) (d e : Dev) : Prop where
  same : d.SameOn crossKey e
  pulses : e.pulses = d.pulses
  path : (e.eiSt n).unrecorded = (d.eiSt n).unrecorded

section KeepsPath
variable {n : Nat} {a d e : Dev}

theorem Dev.KeepsPath.refl (d : Dev) : d.KeepsPath n d := ⟨.refl d, rfl, rfl⟩

theorem Dev.KeepsPath.trans (had : a.KeepsPath n d) (hde : d.KeepsPath n e) : a.KeepsPath n e :=
  ⟨had.same.trans hde.same, hde.pulses.trans had.pulses, hde.path.trans had.path⟩

theorem Dev.KeepsPath.rd (h : d.KeepsPath n e) {j : Nat} (hj : crossKey j) : e.rd j = d.rd j := h.same.2 j hj

theorem Dev.KeepsPath.aside (h : a.KeepsPath n d) (hde : d.Aside e) : a.KeepsPath n e :=
  h.trans ⟨hde.same, hde.pulses, congrArg EiSt.unrecorded (hde.eiSt n)⟩

theorem Dev.KeepsPath.setEi (h : a.KeepsPath n d) {x : EiSt} (hx : x.unrecorded = (d.eiSt n).unrecorded) : a.KeepsPath n (d.setEi n x) :=
  h.trans ⟨(Dev.SameOn.refl d).of_regs rfl rfl, rfl, by rw [Dev.eiSt_setEi, if_pos rfl, hx]⟩

/-- Another update in the place of an input's last one keeps what was kept. -/
theorem Dev.KeepsPath.setEi_again {w x y : EiSt} (h : (d.setEi n w).KeepsPath n e) (hxy : y.unrecorded = x.unrecorded) :
    (d.setEi n x).KeepsPath n (e.setEi n y) :=
  ⟨h.same.of_regs rfl rfl, h.pulses, by simpa using hxy⟩

theorem Dev.KeepsPath.ite {c : Prop} [Decidable c] (hd : a.KeepsPath n d) (he : a.KeepsPath n e) : a.KeepsPath n (if c then d else e) := by
  split
  · exact hd
  · exact he

theorem Dev.KeepsPath.stampEmit (h : a.KeepsPath n d) (hdr : Hdr) (payload : List Word128) (excess : Bool) :
    a.KeepsPath n (d.stampEmit n hdr payload excess) := by
  have hemit : a.KeepsPath n (d.emit (96 + n) hdr payload) := ⟨h.same.of_regs rfl rfl, h.pulses, h.path⟩
  exact hemit.aside (d.aside_stampEmit n hdr payload excess)

end KeepsPath

/-! ### A block closes (R264) -/

/-- The input's block has closed with a record; a waiting trim has taken force. -/
def Dev.closedWith (d : Dev) (n : Nat) (hdr : Hdr) (payload : List Word128) (excess : Bool) : Dev :=
  let e := (d.setEi n { d.eiSt n with blk := none, trimWas := none }).stampEmit n hdr payload excess
  if (d.eiSt n).trimWas.isSome then e.eiSettle n else e

theorem Dev.eiClose_of_none {d : Dev} {n : Nat} (h : (d.eiSt n).blk = none) (close : Nat) : d.eiClose n close = d := by
  unfold Dev.eiClose
  dsimp only
  rw [h]

theorem Dev.eiClose_of_some {d : Dev} {n : Nat} {b : EiBlk} (h : (d.eiSt n).blk = some b) (close : Nat) :
    ∃ hdr payload excess, d.eiClose n close = d.closedWith n hdr payload excess := by
  unfold Dev.eiClose
  dsimp only
  rw [h]
  exact ⟨_, _, _, rfl⟩

section Close
variable (d : Dev) (n close : Nat)

theorem Dev.eiSt_closedWith (hdr : Hdr) (payload : List Word128) (excess : Bool) :
    ∃ settles, (d.closedWith n hdr payload excess).eiSt n = { d.eiSt n with blk := none, trimWas := none, settles := settles } := by
  unfold Dev.closedWith Dev.eiSettle
  dsimp only
  split
  · exact ⟨_, by rw [Dev.eiSt_setEi, if_pos rfl, Dev.eiSt_stampEmit, Dev.eiSt_setEi, if_pos rfl]⟩
  · exact ⟨(d.eiSt n).settles, by rw [Dev.eiSt_stampEmit, Dev.eiSt_setEi, if_pos rfl]⟩

theorem Dev.keepsPath_closedWith (hdr : Hdr) (payload : List Word128) (excess : Bool) : d.KeepsPath n (d.closedWith n hdr payload excess) := by
  have hset : d.KeepsPath n (d.setEi n { d.eiSt n with blk := none, trimWas := none }) := (Dev.KeepsPath.refl d).setEi rfl
  have hemit := hset.stampEmit hdr payload excess
  exact Dev.KeepsPath.ite (c := (d.eiSt n).trimWas.isSome = true) (hemit.setEi rfl) hemit

theorem Dev.length_outOf_closedWith (hdr : Hdr) (payload : List Word128) (excess : Bool) :
    ((d.closedWith n hdr payload excess).outOf (96 + n)).length = (d.outOf (96 + n)).length + 1 := by
  unfold Dev.closedWith
  dsimp only
  split
  · exact Dev.length_outOf_stampEmit ..
  · exact Dev.length_outOf_stampEmit ..

theorem Dev.blk_eiClose : ((d.eiClose n close).eiSt n).blk = none := by
  cases hb : (d.eiSt n).blk with
  | none => rw [Dev.eiClose_of_none hb, hb]
  | some b =>
    obtain ⟨hdr, payload, excess, hclose⟩ := Dev.eiClose_of_some hb close
    obtain ⟨settles, hst⟩ := d.eiSt_closedWith n hdr payload excess
    rw [hclose, hst]

theorem Dev.keepsPath_eiClose : d.KeepsPath n (d.eiClose n close) := by
  cases hb : (d.eiSt n).blk with
  | none => rw [Dev.eiClose_of_none hb]; exact .refl d
  | some b =>
    obtain ⟨hdr, payload, excess, hclose⟩ := Dev.eiClose_of_some hb close
    rw [hclose]
    exact d.keepsPath_closedWith n hdr payload excess

/-- An open block becomes a record in the input's region. -/
theorem Dev.length_outOf_eiClose {b : EiBlk} (hb : (d.eiSt n).blk = some b) :
    ((d.eiClose n close).outOf (96 + n)).length = (d.outOf (96 + n)).length + 1 := by
  obtain ⟨hdr, payload, excess, hclose⟩ := Dev.eiClose_of_some hb close
  rw [hclose, Dev.length_outOf_closedWith]

end Close

/-! ### Entries and GAPs (R247, R264) -/

theorem Dev.keepsPath_eiEntry (d : Dev) (n t : Nat) (w : Word128) (bits : Nat) (cond excess uncal : Bool) (index : Nat) :
    d.KeepsPath n (d.eiEntry n t w bits cond excess uncal index) := by
  unfold Dev.eiEntry
  extract_lets d1 x b d2
  have h1 : d.KeepsPath n d1 := by
    unfold d1
    split
    · exact (d.keepsPath_eiClose ..).ite ((d.keepsPath_eiClose ..).ite (.refl d))
    · exact .refl d
  have h2 : d.KeepsPath n d2 := h1.setEi rfl
  exact (h2.trans (d2.keepsPath_eiClose ..)).ite h2

theorem Dev.keepsPath_eiLossEnd (d : Dev) (n t : Nat) (w : Word128) : d.KeepsPath n (d.eiLossEnd n t w) := by
  unfold Dev.eiLossEnd
  dsimp only
  split
  · have hset : d.KeepsPath n (d.setEi n { d.eiSt n with gap := none }) := (Dev.KeepsPath.refl d).setEi rfl
    exact (hset.stampEmit ..).aside (Dev.aside_suFeed ..)
  · exact .refl d

end Sys2Proof.Machine
end

section
/-! SUPPORT. Crossings of edge inputs: their pulses and counts, the queue, their stamps and their losses (R183, R238, R244 to R248). -/
namespace Sys2Proof.Machine

/-! ### An input's configuration and queue, as its crossings meet them -/

section Same
variable {n : Nat} {d e : Dev} (hbank : (e.eiSt n).bank = (d.eiSt n).bank)
include hbank

theorem Dev.ep_congr (k : Nat) : e.ep n k = d.ep n k := by rw [Dev.ep, Dev.ep, hbank]

theorem Dev.epF_congr (lo len : Nat) : e.epF n lo len = d.epF n lo len := congrArg (fld · lo len) (Dev.ep_congr hbank _)

theorem Dev.eiPrescale_congr : e.eiPrescale n = d.eiPrescale n := by rw [Dev.eiPrescale, Dev.eiPrescale, Dev.ep_congr hbank]

theorem Dev.eiFactor_congr : e.eiFactor n = d.eiFactor n := congrArg (4 ^ ·) (Dev.eiPrescale_congr hbank)

theorem Dev.eiEdges_congr : e.eiEdges n = d.eiEdges n := by
  rw [Dev.eiEdges, Dev.eiEdges, Dev.eiPrescale_congr hbank, Dev.ep_congr hbank]

theorem Dev.eiService_congr : e.eiService n = d.eiService n := by
  rw [Dev.eiService, Dev.eiService, Dev.eiPeriod, Dev.eiPeriod, Dev.epF_congr hbank]

theorem Dev.epIlv_congr (hsolo : (e.eiSt n).solo = (d.eiSt n).solo) : e.epIlv n = d.epIlv n := by
  rw [Dev.epIlv, Dev.epIlv, Dev.epF_congr hbank, hsolo]

theorem Dev.eiDepth_congr (hsolo : (e.eiSt n).solo = (d.eiSt n).solo) : e.eiDepth n = d.eiDepth n := by
  rw [Dev.eiDepth, Dev.eiDepth, Dev.epIlv_congr hbank hsolo]

theorem Dev.eiQueued_congr (hbusy : (e.eiSt n).busy = (d.eiSt n).busy) (t : Nat) : e.eiQueued n t = d.eiQueued n t := by
  rw [Dev.eiQueued, Dev.eiQueued, Dev.eiService_congr hbank, hbusy]

end Same

/-! ### Stamps and losses (R246, R247) -/

section Stamp
variable {d : Dev} {n c : Nat} (ip t : Nat) (rising range near : Bool) (index : Nat)

/-- An input whose token bucket and queue stand at these times (R246, R247). -/
def EiSt.queued (x : EiSt) (tat busy : Nat) : EiSt := { x with tat := tat, busy := busy }

/-- A crossing that finds room ends a run of losses and takes its time of the queue's service; the rest of the stamp is records. -/
theorem Dev.keepsPath_eiStamp (hlosing : (d.eiSt n).losing = true → d.eiQueued n c < d.eiDepth n / 2) (hroom : d.eiQueued n c < d.eiDepth n) :
    ∃ tat, (d.setEi n ({ d.eiSt n with losing := false }.queued tat (max (c * 2 ^ 16) (d.eiSt n).busy + d.eiService n))).KeepsPath n
      (d.eiStamp n ip c t rising range near index) := by
  have hnot : ((d.eiSt n).losing && decide (d.eiDepth n / 2 ≤ d.eiQueued n c)) = false := by
    cases h : (d.eiSt n).losing
    · rfl
    · simpa using hlosing h
  unfold Dev.eiStamp
  extract_lets x depth losing tab w d1 inc now tat excess y d2 d3 cond settle uncal bits d4 flags
  rw [if_neg (by simp [losing, depth, x, hnot, hroom])]
  have h1 : (d.setEi n { x with losing := false }).KeepsPath n d1 := Dev.keepsPath_eiLossEnd ..
  have hy : y.unrecorded = { x with losing := false }.unrecorded := by simpa using h1.path
  have hbusy : y.busy = x.busy := (congrArg EiSt.busy hy :)
  have hservice : d1.eiService n = d.eiService n := Dev.eiService_congr (congrArg EiSt.bank hy :)
  have h2 : (d.setEi n ({ x with losing := false }.queued (if excess then y.tat else tat + inc) (max now x.busy + d.eiService n))).KeepsPath n d2 := by
    refine h1.setEi_again ?_
    rw [hbusy, hservice]
    exact congrArg (EiSt.queued · _ _) hy
  have hover : d2.Aside d3 :=
    ((((Dev.Aside.refl d2).wr (not_crossKey_over n) _).sqEvent (not_crossKey (.inl (by decide))) _ _).condOverAllot _).ite (.refl d2)
  exact ⟨_, ((h2.aside hover).trans (Dev.keepsPath_eiEntry ..)).aside (Dev.aside_suFeed ..)⟩

/-- Without room the crossing is lost (R247). -/
theorem Dev.eiStamp_of_full (hlosing : (d.eiSt n).losing = false) (hfull : d.eiDepth n ≤ d.eiQueued n c) :
    d.eiStamp n ip c t rising range near index = (d.setEi n { d.eiSt n with losing := false }).eiLoss n := by
  unfold Dev.eiStamp
  dsimp only
  rw [if_pos (.inr hfull), hlosing]
  rfl

end Stamp

section Loss
variable (d : Dev) (n : Nat) (g : EiGap)

/-- A run of losses has begun: the block closed, the crossing is counted as lost, and a GAP waits (R247). -/
def Dev.lossBegun : Dev :=
  let e := (d.eiClose n 0x4).eiLose n
  (e.setEi n { e.eiSt n with losing := true, gap := some g }).sqEvent Reg.EI_STATUS 10 1297

theorem Dev.eiLoss_of_first {d : Dev} {n : Nat} (h : (d.eiSt n).losing = false) : ∃ g, d.eiLoss n = d.lossBegun n g := by
  unfold Dev.eiLoss
  dsimp only
  rw [h]
  exact ⟨_, rfl⟩

theorem Dev.edge_sqEvent (st b m : Nat) : (d.sqEvent st b m).edge = d.edge := by
  unfold Dev.sqEvent
  split <;> rfl

theorem Dev.eiSt_lossBegun : (d.lossBegun n g).eiSt n = { (d.eiClose n 0x4).eiSt n with losing := true, gap := some g } := by
  rw [Dev.lossBegun, Dev.eiSt, Dev.edge_sqEvent]
  exact (Dev.eiSt_setEi ..).trans (if_pos rfl)

theorem Dev.lost_lossBegun (hn : n < 16) : (d.lossBegun n g).n (Reg.EI_LOST n) = min (d.n (Reg.EI_LOST n) + 1) (2 ^ 32 - 1) := by
  obtain ⟨-, -, hkey⟩ := crossKey_counts hn
  have hst : Reg.EI_LOST n ≠ Reg.EI_STATUS := ne_of_named hkey (not_crossKey (.inl (by decide)))
  have hev : Reg.EI_LOST n ≠ Reg.EV_SEQ 1297 := ne_of_named hkey (not_crossKey_evSeq _)
  calc (d.lossBegun n g).n (Reg.EI_LOST n)
      = ((d.eiClose n 0x4).eiLose n).n (Reg.EI_LOST n) := Dev.n_congr (Dev.rd_sqEvent_ne _ 10 hst hev)
    _ = min ((d.eiClose n 0x4).n (Reg.EI_LOST n) + 1) (2 ^ 32 - 1) := Dev.n_addSat_self ..
    _ = min (d.n (Reg.EI_LOST n) + 1) (2 ^ 32 - 1) := by rw [Dev.n_congr ((d.keepsPath_eiClose n 0x4).rd hkey)]

theorem Dev.on_lossBegun : (d.lossBegun n g).on Reg.EI_STATUS 10 = true := by
  rw [Dev.lossBegun, Dev.on_sqEvent _ _ _ _ (by decide) (by decide) (by decide)]
  simp

end Loss

/-! ### A crossing is noted (R238, R244) -/

/-- A crossing at c has been noted: its instant, the comparator's level, and what the prescaler counts. -/
structure Dev.Noted (n : Nat) (rising : Bool) (c : Nat) (d e : Dev) : Prop where
  regs : e.regs = d.regs
  pulses : e.pulses = d.pulses
  st : ∃ pre, e.eiSt n = { d.eiSt n with last := some c, level := some rising, pre := pre }

section Noted
variable {n fine c : Nat} {rising : Bool} {a d e : Dev}

theorem Dev.Noted.rd (h : d.Noted n rising c e) (j : Nat) : e.rd j = d.rd j := by rw [Dev.rd, h.regs, Dev.rd]

/-- The prescaler's output depends on its factor and its count alone. -/
theorem Dev.eiPre_congr (hbank : (e.eiSt n).bank = (d.eiSt n).bank) (hpre : (e.eiSt n).pre = (d.eiSt n).pre) (rising : Bool) :
    (e.eiPre n rising).2 = (d.eiPre n rising).2 := by
  simp only [Dev.eiPre, Dev.eiFactor_congr hbank, hpre, apply_ite Prod.snd]

/-- The prescaler changes its count alone. -/
theorem Dev.eiPre_count (d : Dev) (n : Nat) (rising : Bool) :
    (d.eiPre n rising).1 = d ∨ ∃ pre, (d.eiPre n rising).1 = d.setEi n { d.eiSt n with pre := pre } := by
  unfold Dev.eiPre
  dsimp only
  split
  · exact .inl rfl
  · split
    · exact .inl rfl
    · exact .inr ⟨_, rfl⟩

/-- The device with a crossing's instant and level. -/
def Dev.levelAt (d : Dev) (n c : Nat) (rising : Bool) : Dev := d.setEi n { d.eiSt n with last := some c, level := some rising }

theorem Dev.eiSt_levelAt (d : Dev) (n c : Nat) (rising : Bool) :
    (d.levelAt n c rising).eiSt n = { d.eiSt n with last := some c, level := some rising } :=
  (Dev.eiSt_setEi ..).trans (if_pos rfl)

theorem Dev.noted_eiPre (d : Dev) (n c : Nat) (rising : Bool) : d.Noted n rising c ((d.levelAt n c rising).eiPre n rising).1 := by
  obtain hsame | ⟨pre, hpre⟩ := (d.levelAt n c rising).eiPre_count n rising
  · rw [hsame]
    exact ⟨rfl, rfl, (d.eiSt n).pre, d.eiSt_levelAt n c rising⟩
  · rw [hpre]
    exact ⟨rfl, rfl, pre, by rw [Dev.eiSt_setEi, if_pos rfl, Dev.eiSt_levelAt]⟩

theorem Dev.eiConvert_levelAt (d : Dev) (n c : Nat) (rising : Bool) (fine : Nat) : (d.levelAt n c rising).eiConvert n fine = d.eiConvert n fine := by
  have hst := d.eiSt_levelAt n c rising
  have hilv : (d.levelAt n c rising).epIlv n = d.epIlv n := Dev.epIlv_congr (by rw [hst]) (by rw [hst])
  rw [Dev.eiConvert, Dev.eiConvert, hilv, hst]
  rfl

theorem Dev.eiDelay_levelAt (d : Dev) (n c : Nat) (rising : Bool) : (d.levelAt n c rising).eiDelay n = d.eiDelay n := by
  have hdeskew : (d.levelAt n c rising).ep n (Reg.EI_DESKEW n) = d.ep n (Reg.EI_DESKEW n) := Dev.ep_congr (by rw [Dev.eiSt_levelAt]) _
  rw [Dev.eiDelay, Dev.eiDelay, hdeskew]
  rfl

/-- The time of a crossing whose fine code stands for τ (R250). -/
def Dev.crossedAt (d : Dev) (n fine : Nat) : Nat := ((d.now : Int) - (d.eiConvert n fine).2.1 - d.eiDelay n).toNat

section Cross
variable (hc : c = a.up - (a.eiConvert n fine).2.1 - a.eiFix n) (hd : d = a.eiReach n c) (hlevel : (d.eiSt n).level ≠ some rising)
include hc hd hlevel

/-- A crossing of a disabled input is noted and no more. -/
theorem edgeCrossing_of_off (hoff : (d.eiSt n).on = false) : edgeCrossing n rising fine a = d.levelAt n c rising := by
  unfold edgeCrossing
  dsimp only
  rw [← hc, ← hd, if_neg hlevel]
  exact if_pos (by rw [hoff]; rfl)

/-- A crossing of an enabled input is noted, and what the prescaler gives of it is taken up. -/
theorem edgeCrossing_of_on (hon : (d.eiSt n).on = true) :
    ∃ e near, d.Noted n rising c e ∧ edgeCrossing n rising fine a = (d.eiPre n rising).2.elim e fun up =>
      e.eiTakeUp n (d.eiConvert n fine).1 c (d.crossedAt n fine) up (d.eiConvert n fine).2.2 near := by
  have hst := d.eiSt_levelAt n c rising
  have hpre : ((d.levelAt n c rising).eiPre n rising).2 = (d.eiPre n rising).2 := Dev.eiPre_congr (by rw [hst]) (by rw [hst]) rising
  refine ⟨_, (match (d.eiSt n).last with | some l => !elapsedNs l c 1 | none => false), d.noted_eiPre n c rising, ?_⟩
  unfold edgeCrossing
  dsimp only
  rw [← hc, ← hd, if_neg hlevel, if_neg (by rw [hon]; decide), ← Dev.levelAt, Dev.eiConvert_levelAt, Dev.eiDelay_levelAt, ← hpre]
  cases ((d.levelAt n c rising).eiPre n rising).2 <;> rfl

/-- Without an output crossing there is no more of it. -/
theorem edgeCrossing_of_none (hon : (d.eiSt n).on = true) (hpre : (d.eiPre n rising).2 = none) : d.Noted n rising c (edgeCrossing n rising fine a) := by
  obtain ⟨e, near, hnoted, heq⟩ := edgeCrossing_of_on hc hd hlevel hon
  rw [heq, hpre]
  exact hnoted

theorem edgeCrossing_of_some (hon : (d.eiSt n).on = true) {up : Bool} (hpre : (d.eiPre n rising).2 = some up) :
    ∃ e ip range near, d.Noted n rising c e ∧ edgeCrossing n rising fine a = e.eiTakeUp n ip c (d.crossedAt n fine) up range near := by
  obtain ⟨e, near, hnoted, heq⟩ := edgeCrossing_of_on hc hd hlevel hon
  exact ⟨e, _, _, near, hnoted, heq.trans (by rw [hpre]; rfl)⟩

end Cross
end Noted

/-! ### A crossing is taken up (R183, R244) -/

/-- The source of an output crossing pulses (R183). -/
def Dev.eiPulse (d : Dev) (n t : Nat) (up : Bool) : Dev := d.pulse (if up then 384 + n else 400 + n) t 0xFF 0

theorem Dev.eiTakeUp_of_unselected {d : Dev} {n : Nat} {up : Bool} (h : edgeSelected (d.eiEdges n) up = false) (ip c t : Nat) (range near : Bool) :
    d.eiTakeUp n ip c t up range near = d.eiPulse n t up := by
  unfold Dev.eiTakeUp
  exact if_pos (by rw [Bool.not_eq_true']; exact h)

/-- A selected crossing has pulsed its source and is counted, from T_EN on (R183, R244). -/
def Dev.counted (d : Dev) (n c t : Nat) (up : Bool) : Dev :=
  let e := (d.eiPulse n t up).setEi n { d.eiSt n with idx := (d.eiSt n).idx + 1, alt := 1 - (d.eiSt n).alt }
  if (d.eiSt n).enAt ≤ c then e.wr64 (Reg.EI_CROSS_LO n) (Reg.EI_CROSS_HI n) ((d.eiSt n).idx + 1) else e

section TakeUp
variable {d : Dev} {n : Nat} {up : Bool}

theorem Dev.eiTakeUp_of_sound (hsel : edgeSelected (d.eiEdges n) up = true) (hfault : (d.eiSt n).fault = none) (ip c t : Nat) (range near : Bool) :
    d.eiTakeUp n ip c t up range near = (d.counted n c t up).eiStamp n ip c t up range near (d.eiSt n).idx := by
  have hsel' : edgeSelected ((d.eiPulse n t up).eiEdges n) up = true := hsel
  unfold Dev.eiTakeUp
  dsimp only
  rw [← Dev.eiPulse, if_neg (by simp [hsel'])]
  split
  next g hg => exact absurd (hg.symm.trans hfault) nofun
  next => rfl

/-- While a takeover is due, a selected crossing is counted as lost (R248). -/
theorem Dev.eiTakeUp_of_fault {g : EiGap} (hsel : edgeSelected (d.eiEdges n) up = true) (hfault : (d.eiSt n).fault = some g) (ip c t : Nat)
    (range near : Bool) :
    d.eiTakeUp n ip c t up range near
      = ((d.counted n c t up).eiLose n).setEi n { (d.counted n c t up).eiSt n with fault := some { g with count := g.count + 1 } } := by
  have hsel' : edgeSelected ((d.eiPulse n t up).eiEdges n) up = true := hsel
  unfold Dev.eiTakeUp
  dsimp only
  rw [← Dev.eiPulse, if_neg (by simp [hsel'])]
  split
  next g' hg => cases hg.symm.trans hfault; rfl
  next hg => exact absurd (hg.symm.trans hfault) nofun

end TakeUp

/-! ### What a counted crossing leaves (R183, R244, R250) -/

theorem Dev.n64_wr64 (d : Dev) {lo hi : Nat} (v : Nat) (h : lo ≠ hi) : (d.wr64 lo hi v).n64 lo hi = v % 2 ^ 64 := by
  rw [Dev.n64, Dev.wr64, Dev.n_wrN_self, Dev.n_congr (Dev.rd_wrN_ne _ _ h), Dev.n_wrN_self]
  omega

theorem crossLo_ne_crossHi (n : Nat) : Reg.EI_CROSS_LO n ≠ Reg.EI_CROSS_HI n := by
  unfold Reg.EI_CROSS_LO Reg.EI_CROSS_HI
  omega

theorem lost_ne_cross (n : Nat) : Reg.EI_LOST n ≠ Reg.EI_CROSS_LO n ∧ Reg.EI_LOST n ≠ Reg.EI_CROSS_HI n := by
  unfold Reg.EI_LOST Reg.EI_CROSS_LO Reg.EI_CROSS_HI
  omega

/-- A crossing at c, of time t, has been noted and counted, and has pulsed its source. -/
structure Dev.Taken (n : Nat) (rising : Bool) (c t : Nat) (up : Bool) (d e : Dev) : Prop where
  st : ∃ pre, e.eiSt n = { d.eiSt n with last := some c, level := some rising, pre := pre, idx := (d.eiSt n).idx + 1, alt := 1 - (d.eiSt n).alt }
  cross : e.n64 (Reg.EI_CROSS_LO n) (Reg.EI_CROSS_HI n)
    = if (d.eiSt n).enAt ≤ c then ((d.eiSt n).idx + 1) % 2 ^ 64 else d.n64 (Reg.EI_CROSS_LO n) (Reg.EI_CROSS_HI n)
  lost : e.rd (Reg.EI_LOST n) = d.rd (Reg.EI_LOST n)
  pulse : (e.pulses.any fun p => p.code = (if up then 384 + n else 400 + n) ∧ p.cause = t) = true

section Counted
variable {d e : Dev} {n c : Nat} {rising : Bool} (t : Nat) (up : Bool)

theorem Dev.eiSt_counted : (d.counted n c t up).eiSt n = { d.eiSt n with idx := (d.eiSt n).idx + 1, alt := 1 - (d.eiSt n).alt } := by
  unfold Dev.counted
  dsimp only
  split <;> exact (Dev.eiSt_setEi ..).trans (if_pos rfl)

theorem Dev.cross_counted : (d.counted n c t up).n64 (Reg.EI_CROSS_LO n) (Reg.EI_CROSS_HI n)
    = if (d.eiSt n).enAt ≤ c then ((d.eiSt n).idx + 1) % 2 ^ 64 else d.n64 (Reg.EI_CROSS_LO n) (Reg.EI_CROSS_HI n) := by
  unfold Dev.counted
  dsimp only
  split
  · exact Dev.n64_wr64 _ _ (crossLo_ne_crossHi n)
  · rfl

theorem Dev.lost_counted : (d.counted n c t up).rd (Reg.EI_LOST n) = d.rd (Reg.EI_LOST n) := by
  unfold Dev.counted
  dsimp only
  split
  · exact Dev.rd_wr64_ne _ _ (lost_ne_cross n).1 (lost_ne_cross n).2
  · rfl

theorem Dev.pulses_counted : (d.counted n c t up).pulses = (d.eiPulse n t up).pulses := by
  unfold Dev.counted
  dsimp only
  split <;> rfl

theorem Dev.Noted.counted (h : d.Noted n rising c e) : d.Taken n rising c t up (e.counted n c t up) := by
  obtain ⟨pre, hst⟩ := h.st
  refine ⟨⟨pre, by rw [Dev.eiSt_counted, hst]⟩, ?_, (Dev.lost_counted ..).trans (h.rd _), ?_⟩
  · rw [Dev.cross_counted, hst, Dev.n64_congr (h.rd _) (h.rd _)]
  · rw [Dev.pulses_counted, Dev.eiPulse, Dev.pulse, List.any_append]
    simp

end Counted

section Selected
variable {n fine c : Nat} {rising up : Bool} {a d : Dev}
  (hc : c = a.up - (a.eiConvert n fine).2.1 - a.eiFix n) (hd : d = a.eiReach n c) (hlevel : (d.eiSt n).level ≠ some rising)
  (hon : (d.eiSt n).on = true) (hpre : (d.eiPre n rising).2 = some up)
include hc hd hlevel hon hpre

/-- A crossing whose direction is not selected pulses its source and no more. -/
theorem edgeCrossing_of_unselected (hsel : edgeSelected (d.eiEdges n) up = false) :
    ∃ e, d.Noted n rising c e ∧ edgeCrossing n rising fine a = e.eiPulse n (d.crossedAt n fine) up := by
  obtain ⟨e, ip, range, near, hnoted, heq⟩ := edgeCrossing_of_some hc hd hlevel hon hpre
  obtain ⟨pre, hst⟩ := hnoted.st
  have hedges : e.eiEdges n = d.eiEdges n := Dev.eiEdges_congr (by rw [hst])
  exact ⟨e, hnoted, heq.trans (Dev.eiTakeUp_of_unselected (by rw [hedges, hsel]) ..)⟩

/-- A selected crossing is counted, and goes on to its stamp. -/
theorem edgeCrossing_of_sound (hsel : edgeSelected (d.eiEdges n) up = true) (hfault : (d.eiSt n).fault = none) :
    ∃ e ip range near index, d.Taken n rising c (d.crossedAt n fine) up e
      ∧ edgeCrossing n rising fine a = e.eiStamp n ip c (d.crossedAt n fine) up range near index := by
  obtain ⟨e, ip, range, near, hnoted, heq⟩ := edgeCrossing_of_some hc hd hlevel hon hpre
  obtain ⟨pre, hst⟩ := hnoted.st
  have hedges : e.eiEdges n = d.eiEdges n := Dev.eiEdges_congr (by rw [hst])
  exact ⟨_, ip, range, near, _, hnoted.counted .., heq.trans (Dev.eiTakeUp_of_sound (by rw [hedges, hsel]) (by rw [hst]; exact hfault) ..)⟩

/-- A selected crossing is counted, and lost while a takeover is due. -/
theorem edgeCrossing_of_fault {g : EiGap} (hsel : edgeSelected (d.eiEdges n) up = true) (hfault : (d.eiSt n).fault = some g) :
    ∃ e, d.Taken n rising c (d.crossedAt n fine) up e
      ∧ edgeCrossing n rising fine a = (e.eiLose n).setEi n { e.eiSt n with fault := some { g with count := g.count + 1 } } := by
  obtain ⟨e, ip, range, near, hnoted, heq⟩ := edgeCrossing_of_some hc hd hlevel hon hpre
  obtain ⟨pre, hst⟩ := hnoted.st
  have hedges : e.eiEdges n = d.eiEdges n := Dev.eiEdges_congr (by rw [hst])
  exact ⟨_, hnoted.counted .., heq.trans (Dev.eiTakeUp_of_fault (by rw [hedges, hsel]) (by rw [hst]; exact hfault) ..)⟩

end Selected

end Sys2Proof.Machine
end

section
/-! SUPPORT. Crossings, stamps, blocks and enables of edge inputs, and the proof of the statement about them (R183, R238 to R250, R264). -/
namespace Sys2Proof.Machine

/-! ### EDGE_CROSSING (R238, R244 to R248, R250) -/

section Crossing
variable (s : State) (n : Fin 16) (rising : Bool) (fine c : Nat) (d : Dev) (up : Bool) (g : EiGap)
  (hc : c = s.dev.up - (s.dev.eiConvert n fine).2.1 - s.dev.eiFix n) (hd : d = s.dev.eiReach n c) (hlevel : (d.eiSt n).level ≠ some rising)
include hc hd hlevel

theorem exec_edgeCrossing_off (hoff : (d.eiSt n).on = false) :
    ∃ t, exec (.edgeCrossing n rising fine) s = .next t ∧ t.mem = s.mem
      ∧ t.dev = d.setEi n { d.eiSt n with last := some c, level := some rising } :=
  ⟨_, next_congr (edgeCrossing_of_off hc hd hlevel hoff), rfl, rfl⟩

variable (hon : (d.eiSt n).on = true)
include hon

theorem exec_edgeCrossing_none (hpre : (d.eiPre n rising).2 = none) :
    ∃ t, exec (.edgeCrossing n rising fine) s = .next t ∧ t.dev.pulses = d.pulses ∧ (t.dev.eiSt n).last = some c
      ∧ (t.dev.eiSt n).level = some rising ∧ (t.dev.eiSt n).blk = (d.eiSt n).blk ∧ ∀ j, t.dev.rd j = d.rd j := by
  have hnoted := edgeCrossing_of_none hc hd hlevel hon hpre
  obtain ⟨pre, hst⟩ := hnoted.st
  exact ⟨{ s with dev := edgeCrossing n rising fine s.dev }, rfl, hnoted.pulses, by rw [hst], by rw [hst], by rw [hst], hnoted.rd⟩

variable (hpre : (d.eiPre n rising).2 = some up)
include hpre

theorem exec_edgeCrossing_unselected (hsel : edgeSelected (d.eiEdges n) up = false) :
    ∃ t, exec (.edgeCrossing n rising fine) s = .next t ∧ t.dev.pulses.length = d.pulses.length + 1
      ∧ (t.dev.eiSt n).idx = (d.eiSt n).idx ∧ (t.dev.eiSt n).blk = (d.eiSt n).blk ∧ ∀ j, t.dev.rd j = d.rd j := by
  obtain ⟨e, hnoted, heq⟩ := edgeCrossing_of_unselected hc hd hlevel hon hpre hsel
  obtain ⟨pre, hst⟩ := hnoted.st
  have hpulsed : (e.eiPulse n (d.crossedAt n fine) up).eiSt n = e.eiSt n := rfl
  have hlength : (e.eiPulse n (d.crossedAt n fine) up).pulses.length = e.pulses.length + 1 := List.length_append
  exact ⟨_, next_congr heq, by rw [hlength, hnoted.pulses], by rw [hpulsed, hst], by rw [hpulsed, hst], hnoted.rd⟩

variable (hsel : edgeSelected (d.eiEdges n) up = true)
include hsel

theorem exec_edgeCrossing_fault (hfault : (d.eiSt n).fault = some g) :
    ∃ t, exec (.edgeCrossing n rising fine) s = .next t ∧ (t.dev.eiSt n).fault = some { g with count := g.count + 1 }
      ∧ (t.dev.eiSt n).blk = (d.eiSt n).blk ∧ t.dev.n (Reg.EI_LOST n) = min (d.n (Reg.EI_LOST n) + 1) (2 ^ 32 - 1) := by
  obtain ⟨e, htaken, heq⟩ := edgeCrossing_of_fault hc hd hlevel hon hpre hsel hfault
  obtain ⟨pre, hst⟩ := htaken.st
  refine ⟨_, next_congr heq, by simp, by simp [hst], ?_⟩
  exact (Dev.n_addSat_self ..).trans (by rw [Dev.n_congr htaken.lost])

variable (hfault : (d.eiSt n).fault = none)
include hfault

theorem exec_edgeCrossing_stamp (hlosing : (d.eiSt n).losing = true → d.eiQueued n c < d.eiDepth n / 2) (hroom : d.eiQueued n c < d.eiDepth n) :
    ∃ t, exec (.edgeCrossing n rising fine) s = .next t
      ∧ t.dev.n64 (Reg.EI_CROSS_LO n) (Reg.EI_CROSS_HI n)
          = (if (d.eiSt n).enAt ≤ c then ((d.eiSt n).idx + 1) % 2 ^ 64 else d.n64 (Reg.EI_CROSS_LO n) (Reg.EI_CROSS_HI n))
      ∧ (t.dev.pulses.any fun p => p.code = (if up then 384 + n.val else 400 + n.val)
          ∧ p.cause = ((d.now : Int) - (d.eiConvert n fine).2.1 - d.eiDelay n).toNat) = true
      ∧ (t.dev.eiSt n).last = some c ∧ (t.dev.eiSt n).level = some rising ∧ (t.dev.eiSt n).idx = (d.eiSt n).idx + 1
      ∧ (t.dev.eiSt n).losing = false ∧ (t.dev.eiSt n).busy = max (c * 2 ^ 16) (d.eiSt n).busy + d.eiService n
      ∧ t.dev.rd (Reg.EI_LOST n) = d.rd (Reg.EI_LOST n) := by
  obtain ⟨e, ip, range, near, index, htaken, heq⟩ := edgeCrossing_of_sound hc hd hlevel hon hpre hsel hfault
  obtain ⟨pre, hst⟩ := htaken.st
  obtain ⟨hlo, hhi, hlost⟩ := crossKey_counts n.isLt
  have hqueued : e.eiQueued n c = d.eiQueued n c := Dev.eiQueued_congr (by rw [hst]) (by rw [hst]) c
  have hdepth : e.eiDepth n = d.eiDepth n := Dev.eiDepth_congr (by rw [hst]) (by rw [hst])
  have hservice : e.eiService n = d.eiService n := Dev.eiService_congr (by rw [hst])
  obtain ⟨tat, hkeep⟩ := Dev.keepsPath_eiStamp (d := e) (c := c) ip (d.crossedAt n fine) up range near index
    (by rw [hqueued, hdepth, hst]; exact hlosing) (by rw [hqueued, hdepth]; exact hroom)
  have hpath := hkeep.path
  rw [Dev.eiSt_setEi, if_pos rfl, hservice, hst] at hpath
  exact ⟨_, next_congr heq, (Dev.n64_congr (hkeep.rd hlo) (hkeep.rd hhi)).trans htaken.cross, hkeep.pulses ▸ htaken.pulse,
    (congrArg EiSt.last hpath :), (congrArg EiSt.level hpath :), (congrArg EiSt.idx hpath :), (congrArg EiSt.losing hpath :),
    (congrArg EiSt.busy hpath :), (hkeep.rd hlost).trans htaken.lost⟩

theorem exec_edgeCrossing_loss (hlosing : (d.eiSt n).losing = false) (hfull : d.eiDepth n ≤ d.eiQueued n c) :
    ∃ t, exec (.edgeCrossing n rising fine) s = .next t ∧ (t.dev.eiSt n).losing = true ∧ (t.dev.eiSt n).blk = none
      ∧ (t.dev.eiSt n).gap.isSome = true ∧ t.dev.n (Reg.EI_LOST n) = min (d.n (Reg.EI_LOST n) + 1) (2 ^ 32 - 1)
      ∧ t.dev.on Reg.EI_STATUS 10 = true := by
  obtain ⟨e, ip, range, near, index, htaken, heq⟩ := edgeCrossing_of_sound hc hd hlevel hon hpre hsel hfault
  obtain ⟨pre, hst⟩ := htaken.st
  have hqueued : e.eiQueued n c = d.eiQueued n c := Dev.eiQueued_congr (by rw [hst]) (by rw [hst]) c
  have hdepth : e.eiDepth n = d.eiDepth n := Dev.eiDepth_congr (by rw [hst]) (by rw [hst])
  have hstamp := Dev.eiStamp_of_full (d := e) (c := c) ip (d.crossedAt n fine) up range near index
    (by rw [hst]; exact hlosing) (by rw [hqueued, hdepth]; exact hfull)
  obtain ⟨gap, hloss⟩ := Dev.eiLoss_of_first (d := e.setEi n { e.eiSt n with losing := false }) (n := n) (by simp)
  refine ⟨_, next_congr (heq.trans (hstamp.trans hloss)), by rw [Dev.eiSt_lossBegun], by rw [Dev.eiSt_lossBegun]; exact Dev.blk_eiClose ..,
    by rw [Dev.eiSt_lossBegun]; rfl, ?_, Dev.on_lossBegun ..⟩
  rw [Dev.lost_lossBegun _ _ _ n.isLt, Dev.setEi_n, Dev.n_congr htaken.lost]

end Crossing

/-! ### STAMP_RESUME, STAMP_BLOCK_AGE and THRESHOLD_SETTLED (R239, R247, R264) -/

theorem exec_stampResume (s : State) (n : Fin 16) (hlosing : (s.dev.eiSt n).losing = true) (hdrained : s.dev.eiQueued n s.dev.up < s.dev.eiDepth n / 2) :
    ∃ t, exec (.stampResume n) s = .next t ∧ t.dev.eiSt n = { s.dev.eiSt n with losing := false } ∧ ∀ j, t.dev.rd j = s.dev.rd j := by
  have heq : stampResume n s.dev = s.dev.setEi n { s.dev.eiSt n with losing := false } := if_pos ⟨hlosing, hdrained⟩
  exact ⟨_, next_congr heq, (Dev.eiSt_setEi ..).trans (if_pos rfl), fun _ => rfl⟩

/-- What no crossing can meet any more is done with: past settling and ramps are forgotten. -/
theorem Dev.eiSt_eiCatch (d : Dev) (n : Nat) :
    (d.eiCatch n).eiSt n = { (d.eiReach n (d.eiSeen n)).eiSt n with
      settles := ((d.eiReach n (d.eiSeen n)).eiSt n).settles.filter fun a => !elapsedNs a (d.eiSeen n) 20
      ramped := ((d.eiReach n (d.eiSeen n)).eiSt n).ramped.filter fun r => d.eiSeen n < r.2 } :=
  (Dev.eiSt_setEi ..).trans (if_pos rfl)

theorem Dev.eiAged_eiCatch (d : Dev) (n : Nat) (b : EiBlk) : (d.eiCatch n).eiAged n b = (d.eiReach n (d.eiSeen n)).eiAged n b := by
  have hep : (d.eiCatch n).ep n (Reg.EI_BLOCK n) = (d.eiReach n (d.eiSeen n)).ep n (Reg.EI_BLOCK n) := Dev.ep_congr (by rw [Dev.eiSt_eiCatch]) _
  rw [Dev.eiAged, Dev.eiAged, hep]
  rfl

theorem exec_stampBlockAge (s : State) (n : Fin 16) (b : EiBlk) (d : Dev) (hd : d = s.dev.eiReach n (s.dev.eiSeen n)) (hb : (d.eiSt n).blk = some b)
    (haged : d.eiAged n b = true) :
    ∃ t, exec (.stampBlockAge n) s = .next t ∧ (t.dev.eiSt n).blk = none ∧ (t.dev.outOf (96 + n)).length = (d.outOf (96 + n)).length + 1 := by
  subst hd
  have hcatch : ((s.dev.eiCatch n).eiSt n).blk = some b := by rw [Dev.eiSt_eiCatch, hb]
  have heq : stampBlockAge n s.dev = (s.dev.eiCatch n).eiClose n 0x8 := by
    unfold stampBlockAge
    dsimp only
    rw [hcatch]
    exact if_pos (by rw [Dev.eiAged_eiCatch, haged])
  exact ⟨_, next_congr heq, Dev.blk_eiClose .., Dev.length_outOf_eiClose _ _ _ hcatch⟩

theorem exec_thresholdSettled (s : State) (n : Fin 16) (d : Dev) (hd : d = s.dev.eiReach n (s.dev.eiSeen n)) :
    ∃ t, exec (.thresholdSettled n) s = .next t
      ∧ (t.dev.eiSt n).settles = (d.eiSt n).settles.filter (fun a => !elapsedNs a (s.dev.eiSeen n) 20)
      ∧ (t.dev.eiSt n).blk = (d.eiSt n).blk ∧ t.dev.pulses = d.pulses ∧ ∀ j, t.dev.rd j = d.rd j := by
  subst hd
  have hst := s.dev.eiSt_eiCatch n
  exact ⟨{ s with dev := s.dev.eiCatch n }, rfl, by rw [hst], by rw [hst], rfl, fun _ => rfl⟩

/-! ### PWR_READY, EDGE_ENABLE and INIT_WINDOW_END (R241) -/

theorem exec_pwrReady (s : State) (n : Fin 16) (t0 : Nat) (hpwr : (s.dev.eiSt n).pwrAt = some t0) (hpast : elapsedNs t0 s.dev.up 20000 = true) :
    ∃ t, exec (.pwrReady n) s = .next t ∧ t.dev.on (Reg.EI_STATE n) 30 = true ∧ ∀ j, j ≠ Reg.EI_STATE n → t.dev.rd j = s.dev.rd j := by
  have heq : pwrReady n s.dev = s.dev.setB (Reg.EI_STATE n) 30 := by
    unfold pwrReady
    rw [hpwr]
    exact if_pos hpast
  exact ⟨_, next_congr heq, Dev.on_setB_self _ _ _ (by decide), fun _ hj => Dev.rd_setB_ne _ _ hj⟩

/-- EI_STATE and EI_CROSS of an input at T_EN: enabled, with the level it starts at, and no crossing counted (R241). -/
def Dev.enabled (d : Dev) (n : Nat) (level : Bool) : Dev :=
  (((d.setB (Reg.EI_STATE n) 31).putB (Reg.EI_STATE n) 28 level).clrB (Reg.EI_STATE n) 27).wr64 (Reg.EI_CROSS_LO n) (Reg.EI_CROSS_HI n) 0

section Enabled
variable (d : Dev) (n : Nat) (level : Bool)

theorem Dev.rd_enabled_state :
    (d.enabled n level).rd (Reg.EI_STATE n)
      = (((d.setB (Reg.EI_STATE n) 31).putB (Reg.EI_STATE n) 28 level).clrB (Reg.EI_STATE n) 27).rd (Reg.EI_STATE n) := by
  have hlo : Reg.EI_STATE n ≠ Reg.EI_CROSS_LO n := by unfold Reg.EI_STATE Reg.EI_CROSS_LO; omega
  have hhi : Reg.EI_STATE n ≠ Reg.EI_CROSS_HI n := by unfold Reg.EI_STATE Reg.EI_CROSS_HI; omega
  exact Dev.rd_wr64_ne _ _ hlo hhi

theorem Dev.on_enabled :
    (d.enabled n level).on (Reg.EI_STATE n) 31 = true ∧ (d.enabled n level).on (Reg.EI_STATE n) 28 = level
      ∧ (d.enabled n level).on (Reg.EI_STATE n) 27 = false := by
  refine ⟨?_, ?_, ?_⟩
  · rw [Dev.on_congr 31 (d.rd_enabled_state n level), Dev.on_clrB_bit_ne _ _ (by decide) (by decide) (by decide),
      Dev.on_putB_bit_ne _ _ _ (by decide) (by decide) (by decide), Dev.on_setB_self _ _ _ (by decide)]
  · rw [Dev.on_congr 28 (d.rd_enabled_state n level), Dev.on_clrB_bit_ne _ _ (by decide) (by decide) (by decide),
      Dev.on_putB_self _ _ _ _ (by decide)]
  · rw [Dev.on_congr 27 (d.rd_enabled_state n level), Dev.on_clrB_self _ _ _ (by decide)]

theorem Dev.cross_enabled : (d.enabled n level).n64 (Reg.EI_CROSS_LO n) (Reg.EI_CROSS_HI n) = 0 :=
  Dev.n64_wr64_self _ (crossLo_ne_crossHi n) (by decide)

theorem Dev.up_enabled : (d.enabled n level).up = d.up := by
  have htb : (d.enabled n level).tb = d.tb := by simp [Dev.enabled]
  rw [Dev.up, Dev.up, htb]

end Enabled

/-- The input as its front end stands from T_EN on (R241). -/
def EiSt.enabledAt (x : EiSt) (t : Nat) (due : Bool) : EiSt := { x with enAt := t, window := some t, enabledOnce := true, autoDue := due }

theorem edgeEnable_of_ready {d : Dev} {n : Nat} (hen : d.eiF n 31 1 = 1) (hready : d.on (Reg.EI_STATE n) 30 = true) (hoff : d.eiOn n = false) (level : Bool) :
    ∃ pre due, edgeEnable n level d = (((d.enabled n level).setEi n ((d.eiSt n).enabledAt d.up due)).eiPut n (.enable level pre)).draw := by
  rw [← d.up_enabled n level]
  unfold edgeEnable
  dsimp only
  rw [if_neg (by simp [hen, hready, hoff])]
  exact ⟨_, _, rfl⟩

theorem Dev.setEi_up (d : Dev) (n : Nat) (x : EiSt) : (d.setEi n x).up = d.up := rfl

theorem Dev.draw_eiSt (d : Dev) (n : Nat) : d.draw.eiSt n = d.eiSt n := rfl

/-- The crossings of an input meet a change from now on. -/
theorem Dev.eiSt_eiPut (d : Dev) (n : Nat) (act : EiAct) :
    (d.eiPut n act).eiSt n = { d.eiSt n with lag := (d.eiSt n).lag ++ [⟨d.up, d.now, act⟩] } :=
  (Dev.eiSt_setEi ..).trans (if_pos rfl)

theorem exec_edgeEnable (s : State) (n : Fin 16) (level : Bool) (hen : s.dev.eiF n 31 1 = 1) (hready : s.dev.on (Reg.EI_STATE n) 30 = true)
    (hoff : s.dev.eiOn n = false) :
    ∃ t, exec (.edgeEnable n level) s = .next t ∧ t.dev.eiOn n = true ∧ t.dev.on (Reg.EI_STATE n) 28 = level
      ∧ t.dev.on (Reg.EI_STATE n) 27 = false ∧ t.dev.n64 (Reg.EI_CROSS_LO n) (Reg.EI_CROSS_HI n) = 0
      ∧ (t.dev.eiSt n).enAt = s.dev.up ∧ (t.dev.eiSt n).window = some s.dev.up
      ∧ (t.dev.eiSt n).lag.length = (s.dev.eiSt n).lag.length + 1 ∧ (t.dev.eiSt n).lag.getLast?.map (fun l => l.at_) = some s.dev.up := by
  obtain ⟨pre, due, heq⟩ := edgeEnable_of_ready hen hready hoff level
  obtain ⟨hon, hlevel, hunk⟩ := s.dev.on_enabled n level
  have hst := Dev.eiSt_eiPut ((s.dev.enabled n level).setEi n ((s.dev.eiSt n).enabledAt s.dev.up due)) n (.enable level pre)
  rw [Dev.eiSt_setEi, if_pos rfl, Dev.setEi_up, Dev.up_enabled, ← Dev.draw_eiSt] at hst
  exact ⟨_, next_congr heq, hon, hlevel, hunk, s.dev.cross_enabled n level, by rw [hst]; rfl, by rw [hst]; rfl, by rw [hst]; exact List.length_append,
    by rw [hst, List.getLast?_concat]; rfl⟩

theorem exec_initWindowEnd_near (s : State) (n : Fin 16) (t0 : Nat) (hwindow : (s.dev.eiSt n).window = some t0) :
    ∃ t, exec (.initWindowEnd n true) s = .next t ∧ (t.dev.eiSt n).window = (if elapsedNs t0 s.dev.up 200 = true then none else some t0)
      ∧ (t.dev.eiSt n).unk = some t0 ∧ t.dev.on (Reg.EI_STATE n) 27 = true ∧ t.dev.on Reg.EI_STATUS 6 = true := by
  have heq : initWindowEnd n true s.dev = ((s.dev.setEi n { s.dev.eiSt n with
      window := if elapsedNs t0 s.dev.up 200 then none else some t0, unk := some t0 }).setB (Reg.EI_STATE n) 27).sqEvent Reg.EI_STATUS 6 1301 := by
    unfold initWindowEnd
    dsimp only
    rw [hwindow]
    rfl
  have hst : ((initWindowEnd n true s.dev).eiSt n) = { s.dev.eiSt n with
      window := if elapsedNs t0 s.dev.up 200 then none else some t0, unk := some t0 } := by
    rw [heq, Dev.eiSt, Dev.edge_sqEvent]
    exact (Dev.eiSt_setEi ..).trans (if_pos rfl)
  have hstatus : Reg.EI_STATE n ≠ Reg.EI_STATUS := by unfold Reg.EI_STATE Reg.EI_STATUS; omega
  have hev : Reg.EI_STATE n ≠ Reg.EV_SEQ 1301 := by unfold Reg.EI_STATE Reg.EV_SEQ; omega
  refine ⟨{ s with dev := initWindowEnd n true s.dev }, rfl, by rw [hst], by rw [hst], ?_, ?_⟩
  · rw [heq, Dev.on_congr 27 (Dev.rd_sqEvent_ne _ 6 hstatus hev), Dev.on_setB_self _ _ _ (by decide)]
  · rw [heq, Dev.on_sqEvent _ _ _ _ (by decide) (by decide) (by decide)]
    simp

theorem exec_initWindowEnd_clear (s : State) (n : Fin 16) (t0 : Nat) (hwindow : (s.dev.eiSt n).window = some t0) :
    ∃ t, exec (.initWindowEnd n false) s = .next t ∧ (∀ j, t.dev.rd j = s.dev.rd j)
      ∧ t.dev.eiSt n = { s.dev.eiSt n with window := if elapsedNs t0 s.dev.up 200 = true then none else some t0 } := by
  have heq : initWindowEnd n false s.dev = s.dev.setEi n { s.dev.eiSt n with window := if elapsedNs t0 s.dev.up 200 then none else some t0 } := by
    unfold initWindowEnd
    dsimp only
    rw [hwindow]
    rfl
  exact ⟨_, next_congr heq, fun _ => rfl, (Dev.eiSt_setEi ..).trans (if_pos rfl)⟩

end Sys2Proof.Machine

namespace Sys2Proof
open Sys2Proof.Machine

/-- Settles O25, command by command; a crossing by what its input makes of it. -/
theorem edgeCrossings : Obligations.EdgeCrossings := by
  unfold Obligations.EdgeCrossings
  exact ⟨exec_edgeCrossing_stamp, exec_edgeCrossing_loss, exec_edgeCrossing_fault, exec_edgeCrossing_unselected, exec_edgeCrossing_none,
    exec_edgeCrossing_off, exec_stampResume, exec_stampBlockAge, exec_pwrReady, exec_edgeEnable, exec_initWindowEnd_near, exec_initWindowEnd_clear,
    exec_thresholdSettled⟩

end Sys2Proof
end

section
/-! SUPPORT. One statistics unit, and what its records, its samples and its pairing leave alone (R275 to R291). -/
namespace Sys2Proof.Machine

/-! ### The state of one unit -/

@[simp] theorem Dev.su_setSu (d : Dev) (u v : Nat) (x : SuSt) : (d.setSu u x).su v = if v = u then x else d.su v := Tab.get_set _ _ _ _ _

theorem Dev.su_setSu_self (d : Dev) (u : Nat) (x : SuSt) : (d.setSu u x).su u = x := (Dev.su_setSu ..).trans (if_pos rfl)

theorem Dev.su_congr {d e : Dev} (h : e.stats = d.stats) (u : Nat) : e.su u = d.su u := by rw [Dev.su, Dev.su, h]

theorem Dev.stats_sqEvent (d : Dev) (st b n : Nat) : (d.sqEvent st b n).stats = d.stats := by
  unfold Dev.sqEvent
  split <;> rfl

theorem Dev.stats_wrN (d : Dev) (k v : Nat) : (d.wrN k v).stats = d.stats := rfl

theorem Dev.stats_wr64 (d : Dev) (lo hi v : Nat) : (d.wr64 lo hi v).stats = d.stats := rfl

theorem Dev.stats_event (d : Dev) (st n : Nat) : (d.event st n).stats = d.stats := rfl

/-- A unit without its run of skipped records (R291). -/
def SuSt.unskipped (x : SuSt) : SuSt := { x with skipFrom := 0, skips := 0, skipCond := false }

/-- A unit without its records: the open one, those behind it, and the run of skipped ones (R287 to R291). -/
def SuSt.unwritten (x : SuSt) : SuSt := { x.unskipped with open_ := none, later := [], entries := 0 }

/-- A unit without its records and without its samples (R283 to R285). -/
def SuSt.unsampled (x : SuSt) : SuSt := { x.unwritten with batch := {}, cum := {}, reg := {}, batchNo := 0, restart := false, skipped := 0 }

/-- A unit without its records, its samples and its undecided stops (R277). -/
def SuSt.undecided (x : SuSt) : SuSt := { x.unsampled with pend := [] }

section Kept
variable {x y : SuSt}

theorem SuSt.kept_of_unskipped (h : x.unskipped = y.unskipped) : x.open_ = y.open_ ∧ x.later = y.later :=
  ⟨(congrArg SuSt.open_ h :), (congrArg SuSt.later h :)⟩

theorem SuSt.kept_of_unwritten (h : x.unwritten = y.unwritten) : x.batch = y.batch ∧ x.batchNo = y.batchNo :=
  ⟨(congrArg SuSt.batch h :), (congrArg SuSt.batchNo h :)⟩

theorem SuSt.gate_of_unsampled (h : x.unsampled = y.unsampled) : x.gate = y.gate ∧ x.gateN = y.gateN := by
  have hview := congrArg (fun z : SuSt => (z.gate, z.gateN)) h
  simpa only [SuSt.unsampled, SuSt.unwritten, SuSt.unskipped, Prod.mk.injEq] using hview

theorem SuSt.pairing_of_unsampled (h : x.unsampled = y.unsampled) : x.start = y.start ∧ x.held = y.held ∧ x.pend = y.pend := by
  have hview := congrArg (fun z : SuSt => (z.start, z.held, z.pend)) h
  simpa only [SuSt.unsampled, SuSt.unwritten, SuSt.unskipped, Prod.mk.injEq] using hview

theorem SuSt.kept_of_undecided (h : x.undecided = y.undecided) : x.cfg = y.cfg ∧ x.nexts = y.nexts ∧ x.a = y.a ∧ x.prev = y.prev := by
  have hview := congrArg (fun z : SuSt => (z.cfg, z.nexts, z.a, z.prev)) h
  simpa only [SuSt.undecided, SuSt.unsampled, SuSt.unwritten, SuSt.unskipped, Prod.mk.injEq] using hview

theorem SuSt.c_congr (h : x.cfg = y.cfg) (k : Nat) : x.c k = y.c k := by rw [SuSt.c, SuSt.c, h]

end Kept

/-! ### Registers -/

/-- The registers that the records of a unit leave alone: all but the status and the sequence number of event 1329. -/
def suUntold (j : Nat) : Prop := j ≠ Reg.SU_STATUS ∧ j ≠ Reg.EV_SEQ 1329

/-- The registers that the work of the units leaves alone: SU_COMMITS and the pending bank (R292). -/
def suSettled (j : Nat) : Prop := j = Reg.SU_COMMITS ∨ 0x150100 ≤ j ∧ j < 0x150500 ∧ j % 64 < 0x1C

theorem suUntold_of_settled {j : Nat} (h : suSettled j) : suUntold j := by
  unfold suUntold
  unfold suSettled Reg.SU_COMMITS at h
  unfold Reg.SU_STATUS Reg.EV_SEQ
  omega

theorem not_suSettled_evSeq (n : Nat) : ¬ suSettled (Reg.EV_SEQ n) := by
  unfold suSettled Reg.SU_COMMITS Reg.EV_SEQ
  omega

/-- The counts and progress of a unit, SU_STATE to SU_EXCLUDED, are not among them. -/
theorem not_suSettled_count {k : Nat} (u : Nat) (hlo : 0x15011C ≤ k) (hhi : k < 0x150140) : ¬ suSettled (k + 64 * u) := by
  unfold suSettled Reg.SU_COMMITS
  omega

theorem suStatus_ne_evSeq (n : Nat) : Reg.SU_STATUS ≠ Reg.EV_SEQ n := by
  unfold Reg.SU_STATUS Reg.EV_SEQ
  omega

/-! ### Work of one unit -/

/-- Work of one unit: what π leaves of that unit is the same, and so are the other units, the timebase, the registers that P names, and the armed commit with its COMMIT_PEND. -/
structure Dev.SuKeeps (P : Nat → Prop) (π : SuSt → SuSt) (u : Nat) (d e : Dev) : Prop where
  same : d.SameOn P e
  pending : e.on Reg.SU_STATUS 0 = d.on Reg.SU_STATUS 0
  armed : e.stats.commitAt = d.stats.commitAt
  others : ∀ v, v ≠ u → e.su v = d.su v
  unit : π (e.su u) = π (d.su u)

section SuKeeps
variable {P : Nat → Prop} {π : SuSt → SuSt} {u : Nat} {a d e : Dev}

theorem Dev.SuKeeps.refl (d : Dev) : d.SuKeeps P π u d := ⟨.refl d, rfl, rfl, fun _ _ => rfl, rfl⟩

theorem Dev.SuKeeps.trans (had : a.SuKeeps P π u d) (hde : d.SuKeeps P π u e) : a.SuKeeps P π u e :=
  ⟨had.same.trans hde.same, hde.pending.trans had.pending, hde.armed.trans had.armed,
    fun v hv => (hde.others v hv).trans (had.others v hv), hde.unit.trans had.unit⟩

theorem Dev.SuKeeps.ite {c : Prop} [Decidable c] (hd : a.SuKeeps P π u d) (he : a.SuKeeps P π u e) : a.SuKeeps P π u (if c then d else e) :=
  iteInduction (fun _ => hd) (fun _ => he)

theorem Dev.SuKeeps.foldl {α : Type} {f : Dev → α → Dev} (h : a.SuKeeps P π u d) (hf : ∀ d x, Dev.SuKeeps P π u d (f d x)) (l : List α) :
    a.SuKeeps P π u (l.foldl f d) := steps_foldl (R := Dev.SuKeeps P π u) Dev.SuKeeps.trans h fun d x _ => hf d x

theorem Dev.SuKeeps.setSu (h : a.SuKeeps P π u d) {x : SuSt} (hx : π x = π (d.su u) := by rfl) : a.SuKeeps P π u (d.setSu u x) :=
  h.trans ⟨(Dev.SameOn.refl d).of_regs rfl rfl, rfl, rfl, fun v hv => (d.su_setSu u v x).trans (if_neg hv),
    (congrArg π (d.su_setSu_self u x)).trans hx⟩

theorem Dev.SuKeeps.wr (h : a.SuKeeps P π u d) {k : Nat} (hk : ¬ P k) (hst : Reg.SU_STATUS ≠ k) (v : Word) : a.SuKeeps P π u (d.wr k v) :=
  h.trans ⟨(Dev.SameOn.refl d).wr hk v, Dev.on_congr 0 (d.rd_wr_ne v hst), rfl, fun _ _ => rfl, rfl⟩

theorem Dev.SuKeeps.raise (h : a.SuKeeps P π u d) {n : Nat} (hev : ¬ P (Reg.EV_SEQ n)) : a.SuKeeps P π u (d.raise n) :=
  (h.wr hev (suStatus_ne_evSeq n) (BitVec.ofNat 32 (d.n (Reg.EV_SEQ n) + 1))).trans
    ⟨(Dev.SameOn.refl _).of_regs rfl rfl, rfl, rfl, fun _ _ => rfl, rfl⟩

theorem Dev.SuKeeps.emit (h : a.SuKeeps P π u d) (r : Nat) (hdr : Hdr) (payload : List Word128) : a.SuKeeps P π u (d.emit r hdr payload) :=
  h.trans ⟨(Dev.SameOn.refl d).of_regs rfl rfl, rfl, rfl, fun _ _ => rfl, rfl⟩

theorem Dev.SuKeeps.draw (h : a.SuKeeps P π u d) : a.SuKeeps P π u d.draw :=
  h.trans ⟨(Dev.SameOn.refl d).of_regs rfl rfl, rfl, rfl, fun _ _ => rfl, rfl⟩

/-- What keeps more registers and more of the unit keeps these. -/
theorem Dev.SuKeeps.weaken {P' : Nat → Prop} {π' : SuSt → SuSt} (h : d.SuKeeps P π u e) (hP : ∀ j, P' j → P j)
    (hπ : ∀ x y, π x = π y → π' x = π' y) : d.SuKeeps P' π' u e :=
  ⟨⟨h.same.1, fun j hj => h.same.2 j (hP j hj)⟩, h.pending, h.armed, h.others, hπ _ _ h.unit⟩

end SuKeeps

/-! ### Records (R287 to R291) -/

/-- Records of a unit that go to its buffer or are skipped. -/
abbrev Dev.SuWrites (u : Nat) (d e : Dev) : Prop := d.SuKeeps suUntold SuSt.unskipped u e

/-- Records of a unit, the open one among them. -/
abbrev Dev.SuRecords (u : Nat) (d e : Dev) : Prop := d.SuKeeps suUntold SuSt.unwritten u e

/-- Records, sums, batches and counts of a unit. -/
abbrev Dev.SuSamples (u : Nat) (d e : Dev) : Prop := d.SuKeeps suSettled SuSt.unsampled u e

/-- Samples of a unit, from its undecided stops among others. -/
abbrev Dev.SuDecides (u : Nat) (d e : Dev) : Prop := d.SuKeeps suSettled SuSt.undecided u e

/-- Any work of a unit. -/
abbrev Dev.SuWorks (u : Nat) (d e : Dev) : Prop := d.SuKeeps suSettled (fun _ => {}) u e

section Levels
variable {π : SuSt → SuSt} {u : Nat} {a d e : Dev}

theorem Dev.SuKeeps.records (h : d.SuWrites u e) : d.SuRecords u e :=
  h.weaken (fun _ => id) fun x y hxy => by rw [SuSt.unwritten, hxy, SuSt.unwritten]

theorem Dev.SuKeeps.samples (h : d.SuRecords u e) : d.SuSamples u e :=
  h.weaken (fun _ => suUntold_of_settled) fun x y hxy => by rw [SuSt.unsampled, hxy, SuSt.unsampled]

theorem Dev.SuKeeps.decides (h : d.SuSamples u e) : d.SuDecides u e :=
  h.weaken (fun _ => id) fun x y hxy => by rw [SuSt.undecided, hxy, SuSt.undecided]

theorem Dev.SuKeeps.works (h : d.SuKeeps suSettled π u e) : d.SuWorks u e := h.weaken (fun _ => id) fun _ _ _ => rfl

/-- A count of a unit moves. -/
theorem Dev.SuKeeps.count (h : a.SuKeeps suSettled π u d) {k : Nat} (v : Nat) (hlo : 0x15011C ≤ k) (hhi : k < 0x150140) (w : Word) :
    a.SuKeeps suSettled π u (d.wr (k + 64 * v) w) :=
  h.wr (not_suSettled_count v hlo hhi) (by unfold Reg.SU_STATUS; omega) w

/-- A bit of SU_STATUS other than COMMIT_PEND sets, with its event. -/
theorem Dev.SuKeeps.sqEvent {P : Nat → Prop} (h : a.SuKeeps P π u d) {b n : Nat} (hb : 0 < b) (hb16 : b < 16) (hst : ¬ P Reg.SU_STATUS)
    (hev : ¬ P (Reg.EV_SEQ n)) : a.SuKeeps P π u (d.sqEvent Reg.SU_STATUS b n) := by
  refine h.trans ⟨(Dev.SameOn.refl d).sqEvent b hst hev, ?_, congrArg StatsSt.commitAt (Dev.stats_sqEvent ..),
    fun v _ => Dev.su_congr (Dev.stats_sqEvent ..) v, congrArg π (Dev.su_congr (Dev.stats_sqEvent ..) u)⟩
  rw [Dev.on_sqEvent _ _ _ _ hb16 (by decide) (suStatus_ne_evSeq n), decide_eq_false hb.ne, Bool.or_false]

end Levels

section Records
variable (d : Dev) (u : Nat)

theorem Dev.suWrites_skip {x : SuSt} (hx : x.unskipped = (d.su u).unskipped) : d.SuWrites u ((d.setSu u x).sqEvent Reg.SU_STATUS 4 1329) :=
  ((Dev.SuKeeps.refl d).setSu hx).sqEvent (by decide) (by decide) (fun h => h.1 rfl) fun h => h.2 rfl

theorem Dev.suWrites_suWrite (typ : Nat) (w : Word128) (cond : Bool) (payload : List Word128) :
    d.SuWrites u (d.suWrite u typ w cond payload) := by
  have hemit (hdr : Hdr) (body : List Word128) : d.SuWrites u (d.emit (112 + u) hdr body) := (Dev.SuKeeps.refl d).emit ..
  exact .ite (hemit ..) (.ite (d.suWrites_skip u rfl) (.ite ((hemit ..).setSu.emit ..) (d.suWrites_skip u rfl)))

theorem Dev.suRecords_suFlow (typ : Nat) (w : Word128) (cond : Bool) (payload : List Word128) :
    d.SuRecords u (d.suFlow u typ w cond payload) := by
  unfold Dev.suFlow
  dsimp only
  split
  · exact .ite (Dev.SuKeeps.refl d).setSu (d.suWrites_suWrite ..).records
  · exact (d.suWrites_suWrite ..).records

theorem Dev.suClose_of_none {close : Nat} (h : (d.su u).open_ = none) : d.suClose u close = d := by
  unfold Dev.suClose
  dsimp only
  rw [h]

/-- The open record closes: it and the records behind it are written. -/
theorem Dev.suWrites_suClose {close : Nat} {r : SuRec} (h : (d.su u).open_ = some r) :
    (d.setSu u { d.su u with open_ := none, later := [] }).SuWrites u (d.suClose u close) := by
  unfold Dev.suClose
  dsimp only
  rw [h]
  exact (Dev.suWrites_suWrite ..).foldl (fun _ _ => Dev.suWrites_suWrite ..) _

theorem Dev.suRecords_suClose (close : Nat) : d.SuRecords u (d.suClose u close) := by
  cases h : (d.su u).open_ with
  | none => rw [d.suClose_of_none u h]; exact .refl d
  | some r => exact (Dev.SuKeeps.refl d).setSu.trans (d.suWrites_suClose u h).records

theorem Dev.su_suClose_of_some {close : Nat} {r : SuRec} (h : (d.su u).open_ = some r) :
    ((d.suClose u close).su u).open_ = none ∧ ((d.suClose u close).su u).later = [] := by
  have hkept := SuSt.kept_of_unskipped (d.suWrites_suClose u (close := close) h).unit
  rwa [Dev.su_setSu_self] at hkept

theorem Dev.open_suClose (close : Nat) : ((d.suClose u close).su u).open_ = none := by
  cases h : (d.su u).open_ with
  | none => rw [d.suClose_of_none u h, h]
  | some r => exact (d.su_suClose_of_some u h).1

theorem Dev.suSamples_suEntry (it : SuItem) (kind : Nat) (near q : Bool) (skipped : Nat) (x : Int) (cond : Bool) :
    d.SuSamples u (d.suEntry u it kind near q skipped x cond) := by
  unfold Dev.suEntry
  extract_lets d1 d2 s head e r d3
  have h1 : d.SuSamples u d1 :=
    .ite ((Dev.SuKeeps.refl d).count u (by decide) (by decide) _) ((Dev.SuKeeps.refl d).count u (by decide) (by decide) _)
  refine .ite h1 ?_
  have h2 : d1.SuSamples u d2 := by
    unfold d2
    split
    · exact .ite (d1.suRecords_suClose ..).samples (.ite (d1.suRecords_suClose ..).samples (.refl d1))
    · exact .refl d1
  have h3 : d.SuSamples u d3 := (h1.trans h2).setSu
  exact .ite (h3.trans (d3.suRecords_suClose ..).samples) h3

end Records

/-! ### Batches (R283, R285) -/

/-- The unit's next batch begins, with its regression; the batch that is over is counted, with its event where the unit has one. -/
def Dev.suNextBatch (d : Dev) (u : Nat) (reg : SuReg) (restart event : Bool) : Dev :=
  let x := d.su u
  let e := (d.setSu u { x with batch := {}, reg := reg, batchNo := (x.batchNo + 1) % 2 ^ 32, restart := restart }).add (Reg.SU_BATCHES u) 1
  if event then e.raise (1312 + u) else e

section Batches
variable (d : Dev) (u : Nat)

theorem Dev.suSamples_suNextBatch (reg : SuReg) (restart event : Bool) : d.SuSamples u (d.suNextBatch u reg restart event) := by
  unfold Dev.suNextBatch
  extract_lets x e
  have he : d.SuSamples u e := (Dev.SuKeeps.refl d).setSu.count u (by decide) (by decide) _
  exact .ite (he.raise (not_suSettled_evSeq _)) he

theorem Dev.su_suNextBatch (reg : SuReg) (restart event : Bool) : (d.suNextBatch u reg restart event).su u =
    { d.su u with batch := {}, reg := reg, batchNo := ((d.su u).batchNo + 1) % 2 ^ 32, restart := restart } := by
  unfold Dev.suNextBatch
  cases event <;> exact d.su_setSu_self u _

theorem Dev.n_batches_suNextBatch (u : Fin 16) (reg : SuReg) (restart event : Bool) :
    (d.suNextBatch u reg restart event).n (Reg.SU_BATCHES u) = (d.n (Reg.SU_BATCHES u) + 1) % 2 ^ 32 := by
  have hev : Reg.SU_BATCHES u ≠ Reg.EV_SEQ (1312 + u) := by unfold Reg.SU_BATCHES Reg.EV_SEQ; omega
  unfold Dev.suNextBatch
  cases event
  · exact Dev.n_add_self ..
  · exact (Dev.n_congr ((Dev.rd_raise ..).trans (if_neg hev))).trans (Dev.n_add_self ..)

theorem Dev.suEndBatch_of_idle (h : (d.su u).batch.live = false) : d.suEndBatch u = d := by simp [Dev.suEndBatch, h]

/-- A batch ends: its record goes into the unit's flow, and the next one begins. -/
theorem Dev.suEndBatch_of_live (h : (d.su u).batch.live = true) :
    ∃ e reg restart event, d.SuRecords u e ∧ d.suEndBatch u = e.suNextBatch u reg restart event := by
  unfold Dev.suEndBatch
  rw [if_neg (by simp [h])]
  extract_lets c cumul b a noReg e0 fr d1 freq word2 sat pay write d2 x reg
  have h1 : d.SuRecords u d1 := .ite (.refl d) (Dev.SuKeeps.refl d).draw
  exact ⟨d2, _, _, _, .ite (h1.trans (d1.suRecords_suFlow ..)) h1, rfl⟩

theorem Dev.suSamples_suEndBatch : d.SuSamples u (d.suEndBatch u) := by
  cases h : (d.su u).batch.live with
  | false => rw [d.suEndBatch_of_idle u h]; exact .refl d
  | true =>
    obtain ⟨e, reg, restart, event, he, heq⟩ := d.suEndBatch_of_live u h
    exact heq ▸ he.samples.trans (e.suSamples_suNextBatch ..)

theorem Dev.live_suEndBatch : ((d.suEndBatch u).su u).batch.live = false := by
  cases h : (d.su u).batch.live with
  | false => rw [d.suEndBatch_of_idle u h, h]
  | true =>
    obtain ⟨e, reg, restart, event, -, heq⟩ := d.suEndBatch_of_live u h
    rw [heq, Dev.su_suNextBatch]
    rfl

theorem Dev.suSamples_suLimit (t : Nat) : d.SuSamples u (d.suLimit u t) := by
  unfold Dev.suLimit
  split
  · exact .ite (d.suSamples_suEndBatch u) (.refl d)
  · exact .refl d

theorem Dev.suSamples_suSample (v : Int) (t : Nat) (w : Word128) (flags : Nat) (own : List SuItem) :
    d.SuSamples u (d.suSample u v t w flags own) := by
  unfold Dev.suSample
  extract_lets d1 x b0 b cond full cum reg d2
  have h1 : d.SuSamples u d1 := d.suSamples_suLimit u t
  have h2 : d.SuSamples u d2 := h1.setSu
  exact .ite (h1.setSu.count u (by decide) (by decide) _) (.ite (h2.trans (d2.suSamples_suEndBatch u)) h2)

end Batches

/-! ### Pairs (R275 to R278) -/

section Pairs
variable (d : Dev) (u : Nat)

theorem Dev.suSamples_suPair (start stop : SuItem) : d.SuSamples u (d.suPair u start stop) := by
  unfold Dev.suPair
  extract_lets x v fl d1 d2
  have h1 : d.SuSamples u d1 := (Dev.SuKeeps.refl d).setSu
  exact (h1.trans (d1.suSamples_suEntry ..)).trans (d2.suSamples_suSample ..)

theorem Dev.suSamples_suOrphan (stop : SuItem) : d.SuSamples u (d.suOrphan u stop) := by
  unfold Dev.suOrphan
  extract_lets x batch d1
  have h1 : d.SuSamples u d1 := (Dev.SuKeeps.refl d).setSu
  exact h1.trans (d1.suSamples_suEntry ..)

/-- The pairing state closes, and what was held or undecided gives orphans. -/
theorem Dev.suSamples_suUnpair :
    (d.setSu u { d.su u with
      start := none, held := none, pend := [], prev := if suFunc ((d.su u).c 0) = 1 then none else (d.su u).prev }).SuSamples u (d.suUnpair u) := by
  unfold Dev.suUnpair
  extract_lets x d1 d2
  have h2 : d1.SuSamples u d2 := (Dev.SuKeeps.refl d1).foldl (fun _ _ => Dev.suSamples_suOrphan ..) _
  exact h2.foldl (fun _ _ => Dev.suSamples_suOrphan ..) _

theorem Dev.suDecides_suDecide (progress : Nat) : d.SuDecides u (d.suDecide u progress) := by
  unfold Dev.suDecide
  extract_lets x due d1
  have h1 : d.SuDecides u d1 := .ite (.refl d) (Dev.SuKeeps.refl d).setSu
  refine h1.foldl (fun d p => ?_) _
  split
  · exact (d.suSamples_suPair ..).decides
  · exact .refl d

end Pairs

end Sys2Proof.Machine
end

section
/-! SUPPORT. The scan, the gates and the change-over of a statistics unit (R271, R272, R278, R281, R286, R292). -/
namespace Sys2Proof.Machine

section Works
variable (d : Dev) (u : Nat)

/-! ### Gates (R281) -/

/-- A gate closes: the next one begins without stamps, and the closed one gives a sample or the count of its GAP. -/
theorem Dev.suSamples_suGate :
    (d.setSu u { d.su u with gate := (d.su u).gate + 1, gateN := 0, gateFlags := 0 }).SuSamples u (d.suGate u) :=
  .ite (Dev.SuKeeps.refl _).setSu (Dev.suSamples_suSample ..)

theorem Dev.suWorks_suGate : d.SuWorks u (d.suGate u) := (Dev.SuKeeps.refl d).setSu.trans (d.suSamples_suGate u).works

theorem Dev.suWorks_suGatesTo (t : Nat) : d.SuWorks u (d.suGatesTo u t) :=
  (Dev.SuKeeps.refl d).foldl (fun d _ => .ite (d.suWorks_suGate u) (.refl d)) _

/-! ### Breaks, GAPs and overruns (R278, R286) -/

theorem Dev.suWorks_suUnpair : d.SuWorks u (d.suUnpair u) := (Dev.SuKeeps.refl d).setSu.trans (d.suSamples_suUnpair u).works

theorem Dev.suWorks_suBreak : d.SuWorks u (d.suBreak u) := (d.suWorks_suUnpair u).setSu

theorem Dev.suWorks_suClose (close : Nat) : d.SuWorks u (d.suClose u close) := (d.suRecords_suClose u close).samples.works

theorem Dev.suWorks_suEndBatch : d.SuWorks u (d.suEndBatch u) := (d.suSamples_suEndBatch u).works

theorem Dev.suWorks_suGap (isA : Bool) (g : SuItem) : d.SuWorks u (d.suGap u isA g) := by
  unfold Dev.suGap
  extract_lets c total d1 d2 d3 x b d4
  refine .ite (.refl d) ?_
  have h1 : d.SuWorks u d1 := .ite (d.suWorks_suGatesTo u _) (.refl d)
  have h3 : d.SuWorks u d3 := (h1.trans (d1.suWorks_suBreak u)).trans (d2.suWorks_suClose u _)
  exact h3.setSu.trans (d4.suRecords_suFlow ..).samples.works

theorem Dev.suWorks_suOverEnd (isA : Bool) : d.SuWorks u (d.suOverEnd u isA) := by
  unfold Dev.suOverEnd
  extract_lets x
  generalize (if isA then x.a.overrun else x.b.overrun) = g
  cases g with
  | none => exact .refl d
  | some g => exact (Dev.SuKeeps.refl d).setSu.trans (Dev.suWorks_suGap ..)

/-! ### The scan (R271, R272) -/

/-- A unit without what its inputs hold and what the scan counts. -/
def SuSt.unscanned (x : SuSt) : SuSt := { x with a := {}, b := {}, batch := {} }

theorem SuSt.kept_of_unscanned {x y : SuSt} (h : x.unscanned = y.unscanned) : x.cfg = y.cfg ∧ x.nexts = y.nexts :=
  ⟨(congrArg SuSt.cfg h :), (congrArg SuSt.nexts h :)⟩

theorem Dev.suKeeps_suScan : d.SuKeeps suSettled SuSt.unscanned u (d.suScan u) := by
  unfold Dev.suScan
  extract_lets x c pa pb close a b n batch d1
  have h1 : d.SuKeeps suSettled SuSt.unscanned u d1 := (Dev.SuKeeps.refl d).setSu
  exact .ite h1 (h1.count u (by decide) (by decide) _)

theorem SuIn.scan_of_idle {i : SuIn} (hbuf : i.buf = []) (hcand : i.cand = none) (now rej sel progress : Nat) (close : Bool) :
    i.scan now rej sel progress close = (0, i) :=
  List.foldl_fixed' (fun _ => by simp [SuIn.scan1, hbuf, hcand]) _

theorem Dev.su_suScan_of_idle (hbuf : (d.su u).a.buf = []) (hcand : (d.su u).a.cand = none) (hb : (d.su u).b = {}) :
    (d.suScan u).su u = d.su u := by
  unfold Dev.suScan
  extract_lets x c pa pb close a b n batch d1
  have ha : a = (0, x.a) := SuIn.scan_of_idle hbuf hcand ..
  have hb : b = (0, x.b) := SuIn.scan_of_idle (by rw [hb]) (by rw [hb]) ..
  have hn : n = 0 := by simp [n, ha, hb]
  rw [if_pos hn, Dev.su_setSu_self, ha, hb, hn]
  rfl

/-! ### Configurations (R292) -/

theorem Dev.suWorks_suDecide (progress : Nat) : d.SuWorks u (d.suDecide u progress) := (d.suDecides_suDecide u progress).works

theorem Dev.suWorks_suSwitch (n : SuNext) (rest : List SuNext) : d.SuWorks u (d.suSwitch u n rest) := by
  unfold Dev.suSwitch
  extract_lets c d1 d2 d3 d4 d5 d6 x
  have h1 : d.SuWorks u d1 := d.suWorks_suDecide u _
  have h2 : d.SuWorks u d2 := (h1.trans (d1.suWorks_suOverEnd u true)).trans (Dev.suWorks_suOverEnd ..)
  have h3 : d.SuWorks u d3 := .ite (h2.trans (d2.suWorks_suGatesTo u _)) h2
  exact (((h3.trans (d3.suWorks_suBreak u)).trans (d4.suWorks_suEndBatch u)).trans (d5.suWorks_suClose u _)).setSu

theorem Dev.su_suSwitch (n : SuNext) (rest : List SuNext) :
    ((d.suSwitch u n rest).su u).cfg = n.cfg ∧ ((d.suSwitch u n rest).su u).since = n.at_ := by
  unfold Dev.suSwitch
  rw [Dev.su_setSu_self]
  exact ⟨rfl, rfl⟩

theorem Dev.suTryNext_of_none (h : (d.su u).nexts = []) : d.suTryNext u = d := by
  unfold Dev.suTryNext
  simp [h]

/-- A stopped unit changes over at once. -/
theorem Dev.suTryNext_of_off {n : SuNext} {rest : List SuNext} (h : (d.su u).nexts = n :: rest) (hoff : suOn ((d.su u).c 0) = false) :
    d.suTryNext u = (d.suScan u).suSwitch u n rest := by
  obtain ⟨hcfg, hnexts⟩ := SuSt.kept_of_unscanned (d.suKeeps_suScan u).unit
  simp [Dev.suTryNext, h, hnexts, SuSt.c_congr hcfg, hoff]

theorem Dev.suWorks_suTryNext : d.SuWorks u (d.suTryNext u) := by
  unfold Dev.suTryNext
  extract_lets d1 x c
  have h1 : d.SuWorks u d1 := .ite (.refl d) (d.suKeeps_suScan u).works
  split
  · exact h1
  · exact .ite h1 (h1.trans (d1.suWorks_suSwitch ..))

theorem Dev.suKeeps_suShow {π : SuSt → SuSt} : d.SuKeeps suSettled π u (d.suShow u) :=
  (((Dev.SuKeeps.refl d).count u (by decide) (by decide) _).count u (by decide) (by decide) _).count u (by decide) (by decide) _

theorem Dev.n_batches_suShow (v : Nat) : (d.suShow u).n (Reg.SU_BATCHES v) = d.n (Reg.SU_BATCHES v) := by
  have hne : Reg.SU_BATCHES v ≠ Reg.SU_STATE u ∧ Reg.SU_BATCHES v ≠ Reg.SU_PROG_LO u ∧ Reg.SU_BATCHES v ≠ Reg.SU_PROG_HI u := by
    unfold Reg.SU_BATCHES Reg.SU_STATE Reg.SU_PROG_LO Reg.SU_PROG_HI
    omega
  obtain ⟨hstate, hlo, hhi⟩ := hne
  exact Dev.n_congr ((Dev.rd_wr64_ne _ _ hlo hhi).trans (Dev.rd_wrN_ne _ _ hstate))

theorem Dev.stats_suShow : (d.suShow u).stats = d.stats := by
  unfold Dev.suShow
  exact (Dev.stats_wr64 ..).trans (Dev.stats_wrN ..)

theorem Dev.su_suShow (v : Nat) : (d.suShow u).su v = d.su v := Dev.su_congr (d.stats_suShow u) v

theorem Dev.tb_suShow : (d.suShow u).tb = d.tb := (d.suKeeps_suShow u (π := fun _ => {})).same.1

end Works

end Sys2Proof.Machine
end

section
/-! SUPPORT. The statistics units' own commands: stamps, gates, batches, records and overruns (R271 to R289). -/
namespace Sys2Proof.Machine

/-! ### STAMP_PROCESS (R271, R279) -/

/-- A stamp of PERIOD becomes the earlier one of the next pair, whatever its sample and the limit of the batch make of the unit. -/
theorem Dev.suPeriod_eq (d : Dev) (u : Nat) (x : SuItem) : ∃ e reg, d.SuSamples u e
    ∧ (e.setSu u { e.su u with prev := some x, last := some x, reg := reg }).SuSamples u (d.suPeriod u x) := by
  refine ⟨d.suLimit u x.t, ((d.suLimit u x.t).su u).reg.put x.t x.k, d.suSamples_suLimit u _, ?_⟩
  unfold Dev.suPeriod
  dsimp only
  split
  · exact Dev.suSamples_suSample ..
  · exact .refl _

theorem Dev.kept_suPeriod (d : Dev) (u : Nat) (x : SuItem) :
    (d.suPeriod u x).tb = d.tb ∧ ((d.suPeriod u x).su u).prev = some x ∧ ((d.suPeriod u x).su u).a = (d.su u).a
      ∧ ((d.suPeriod u x).su u).nexts = (d.su u).nexts := by
  obtain ⟨e, reg, he, hsample⟩ := d.suPeriod_eq u x
  obtain ⟨-, hnexts, ha, hprev⟩ := SuSt.kept_of_undecided hsample.decides.unit
  obtain ⟨-, hnexts', ha', -⟩ := SuSt.kept_of_undecided he.decides.unit
  rw [Dev.su_setSu_self] at hnexts ha hprev
  exact ⟨hsample.same.1.trans he.same.1, hprev, ha.trans ha', hnexts.trans hnexts'⟩

/-- With PERIOD, a stamp that is taken from IN_A is the earlier one of the next pair. -/
theorem Dev.kept_suItem_of_period {e f : Dev} {u : Nat} {x : SuItem} {r : List SuItem} (hkind : x.kind = 0) (hfunc : suFunc ((e.su u).c 0) = 2)
    (hf : f = (e.setSu u { e.su u with a := { (e.su u).a with live := r } }).suItem u true x) :
    f.tb = e.tb ∧ (f.su u).prev = some x ∧ (f.su u).a.live = r ∧ (f.su u).nexts = (e.su u).nexts := by
  generalize hd : e.setSu u { e.su u with a := { (e.su u).a with live := r } } = d at hf
  have hu : d.su u = { e.su u with a := { (e.su u).a with live := r } } := hd ▸ Dev.su_setSu_self ..
  have htb : d.tb = e.tb := hd ▸ rfl
  have hfunc' : suFunc ((d.su u).c 0) = 2 := by rw [hu]; exact hfunc
  have hitem : d.suItem u true x = d.suPeriod u x := by simp [Dev.suItem, hkind, hfunc']
  obtain ⟨hftb, hprev, ha, hnexts⟩ := d.kept_suPeriod u x
  rw [← hitem, ← hf, hu] at ha hnexts
  rw [← hitem, ← hf] at hftb hprev
  exact ⟨hftb.trans htb, hprev, by rw [ha], hnexts⟩

/-- A unit that reads IN_A alone takes the earliest stamp of it, once it has scanned its inputs and decided what it can. -/
theorem stampProcess_of_live {d e f : Dev} {u : Nat} {x : SuItem} {r : List SuItem} (he : (d.suScan u).suDecide u ((d.suScan u).suFrontA u) = e)
    (hB : suUsesB ((e.su u).c 0) = false) (hlive : (e.su u).a.live = x :: r)
    (hf : f = (e.setSu u { e.su u with a := { (e.su u).a with live := r } }).suItem u true x) :
    stampProcess u d = ((f.suDecide u (f.suFrontA u)).suTryNext u).suShow u := by
  unfold stampProcess
  extract_lets d1 d2 y c fa fb useB ya yb d3 d4
  have h2 : d2 = e := he
  clear_value d2
  subst h2
  have huse : useB = false := hB
  have hy : y.a.live = x :: r := hlive
  have h3 : d3 = f := by
    unfold d3
    rw [hy, huse, hf]
    rfl
  rw [← h3]

theorem exec_stampProcess (s : State) (u : Fin 16) (x : SuItem) (r : List SuItem) (hfunc : suFunc ((s.dev.su u).c 0) = 2)
    (hlive : (s.dev.su u).a.live = x :: r) (hkind : x.kind = 0) (hbuf : (s.dev.su u).a.buf = []) (hcand : (s.dev.su u).a.cand = none)
    (hb : (s.dev.su u).b = {}) (hnexts : (s.dev.su u).nexts = []) :
    ∃ t, exec (.stampProcess u) s = .next t ∧ (t.dev.su u).prev = some x ∧ (t.dev.su u).a.live = r ∧ t.dev.now = s.dev.now := by
  have hdecide := (s.dev.suScan u).suDecides_suDecide u ((s.dev.suScan u).suFrontA u)
  obtain ⟨hcfg, henexts, hea, -⟩ := SuSt.kept_of_undecided hdecide.unit
  rw [s.dev.su_suScan_of_idle u hbuf hcand hb] at hcfg henexts hea
  generalize he : (s.dev.suScan u).suDecide u ((s.dev.suScan u).suFrontA u) = e at hdecide hcfg henexts hea
  have hefunc : suFunc ((e.su u).c 0) = 2 := (congrArg suFunc (SuSt.c_congr hcfg 0)).trans hfunc
  generalize hf : (e.setSu u { e.su u with a := { (e.su u).a with live := r } }).suItem u true x = f
  have heq := stampProcess_of_live he (by simp [suUsesB, hefunc]) (by rw [hea, hlive]) hf.symm
  obtain ⟨hftb, hprev, ha, hfnexts⟩ := Dev.kept_suItem_of_period hkind hefunc hf.symm
  have hlast := f.suDecides_suDecide u (f.suFrontA u)
  obtain ⟨-, hgnexts, hga, hgprev⟩ := SuSt.kept_of_undecided hlast.unit
  rw [Dev.suTryNext_of_none _ _ (hgnexts.trans (hfnexts.trans (henexts.trans hnexts)))] at heq
  refine ⟨_, next_congr heq, ?_, ?_, ?_⟩
  · rw [Dev.su_suShow, hgprev, hprev]
  · rw [Dev.su_suShow, hga, ha]
  · refine Dev.now_congr ((Dev.tb_suShow ..).trans ?_)
    rw [hlast.same.1, hftb, hdecide.same.1, (s.dev.suKeeps_suScan u).same.1]

/-! ### GATE_CLOSE (R281) and BATCH_TIME_LIMIT (R283) -/

theorem gateClose_of_due {d : Dev} {u : Nat} (hon : suOn ((d.su u).c 0) = true) (hfunc : suFunc ((d.su u).c 0) = 4)
    (hdue : d.gateAt u ((d.su u).gate + 1) ≤ d.suFrontA u) : gateClose u d = (d.suGate u).suShow u := if_pos ⟨hon, hfunc, hdue⟩

theorem exec_gateClose (s : State) (u : Fin 16) (hon : suOn ((s.dev.su u).c 0) = true) (hfunc : suFunc ((s.dev.su u).c 0) = 4)
    (hdue : s.dev.gateAt u ((s.dev.su u).gate + 1) ≤ (s.dev.su u).a.front (s.dev.eiProgress (suInA ((s.dev.su u).c 0)))) :
    ∃ t, exec (.gateClose u) s = .next t ∧ (t.dev.su u).gate = (s.dev.su u).gate + 1 ∧ (t.dev.su u).gateN = 0 := by
  have hgate := SuSt.gate_of_unsampled (s.dev.suSamples_suGate u).unit
  rw [Dev.su_setSu_self] at hgate
  refine ⟨_, next_congr (gateClose_of_due hon hfunc hdue), ?_⟩
  rw [Dev.su_suShow]
  exact hgate

theorem SuSt.live_of_limit {x : SuSt} {l : Nat} (h : x.limit = some l) : x.batch.live = true := by
  unfold SuSt.limit at h
  by_contra hidle
  simp [hidle] at h

theorem batchTimeLimit_of_due {d : Dev} {u l : Nat} (hlimit : (d.su u).limit = some l) (hB : suUsesB ((d.su u).c 0) = false)
    (hfront : l ≤ d.suFrontA u) (hnow : l ≤ d.now) : batchTimeLimit u d = (d.suEndBatch u).suShow u := by
  unfold batchTimeLimit
  simp [hlimit, hB, hfront, hnow]

theorem exec_batchTimeLimit (s : State) (u : Fin 16) (l : Nat) (hlimit : (s.dev.su u).limit = some l) (hB : suUsesB ((s.dev.su u).c 0) = false)
    (hfront : l ≤ (s.dev.su u).a.front (s.dev.eiProgress (suInA ((s.dev.su u).c 0)))) (hnow : l ≤ s.dev.now) :
    ∃ t, exec (.batchTimeLimit u) s = .next t ∧ (t.dev.su u).batch = {} ∧ (t.dev.su u).batchNo = ((s.dev.su u).batchNo + 1) % 2 ^ 32
      ∧ t.dev.n (Reg.SU_BATCHES u) = (s.dev.n (Reg.SU_BATCHES u) + 1) % 2 ^ 32 := by
  obtain ⟨e, reg, restart, event, he, hend⟩ := s.dev.suEndBatch_of_live u (SuSt.live_of_limit hlimit)
  have heq := batchTimeLimit_of_due hlimit hB hfront hnow
  rw [hend] at heq
  obtain ⟨-, hno⟩ := SuSt.kept_of_unwritten he.unit
  have hbatches : suUntold (Reg.SU_BATCHES u) := by
    unfold suUntold Reg.SU_BATCHES Reg.SU_STATUS Reg.EV_SEQ
    omega
  refine ⟨_, next_congr heq, ?_, ?_, ?_⟩
  · rw [Dev.su_suShow, Dev.su_suNextBatch]
  · rw [Dev.su_suShow, Dev.su_suNextBatch, hno]
  · rw [Dev.n_batches_suShow, Dev.n_batches_suNextBatch, Dev.n_congr (he.same.2 _ hbatches)]

/-! ### SU_RECORD_AGE (R289) and SU_OVERRUN_RESUME (R286) -/

theorem suRecordAge_of_due {d : Dev} {u : Nat} {r : SuRec} (hopen : (d.su u).open_ = some r)
    (hdue : r.opened + d.periods (64 * max 1 (fld ((d.su u).c 5) 0 20)) ≤ d.up) : suRecordAge u d = d.suClose u 0x8 := by
  unfold suRecordAge
  simp only [hopen]
  exact if_pos hdue

theorem exec_suRecordAge (s : State) (u : Fin 16) (r : SuRec) (hopen : (s.dev.su u).open_ = some r)
    (hdue : r.opened + s.dev.periods (64 * max 1 (fld ((s.dev.su u).c 5) 0 20)) ≤ s.dev.up) :
    ∃ t, exec (.suRecordAge u) s = .next t ∧ (t.dev.su u).open_ = none ∧ (t.dev.su u).later = [] :=
  ⟨_, next_congr (suRecordAge_of_due hopen hdue), s.dev.su_suClose_of_some u hopen⟩

theorem exec_suOverrunResume (s : State) (u : Fin 16) (g : SuItem) (hover : (s.dev.su u).a.overrun = some g)
    (hroom : (s.dev.su u).held4096 true < 2048) :
    ∃ t, exec (.suOverrunResume u) s = .next t
      ∧ (t.dev.su u).a = { (s.dev.su u).a with buf := (s.dev.su u).a.buf ++ [g], overrun := none } ∧ ∀ j, t.dev.rd j = s.dev.rd j := by
  refine ⟨{ s with dev := suOverrunResume u s.dev }, rfl, ?_, fun _ => rfl⟩
  unfold suOverrunResume
  simp [hover, hroom]

end Sys2Proof.Machine
end

section
/-! SUPPORT. The commit of the statistics units' configurations, their flush and their counts, and the proof of the statement about them (R271 to R295). -/
namespace Sys2Proof.Machine

/-! ### SU_COMMIT and SU_CANCEL_COMMIT (R292) -/

/-- The instant that SU_COMMIT_AT names. -/
def Dev.suCommitDue (d : Dev) : Nat := ofShort (d.n64 Reg.SU_COMMIT_AT_LO Reg.SU_COMMIT_AT_HI)

/-- The armed commit of the units changes. -/
def Dev.setSuCommit (d : Dev) (t : Option Nat) : Dev := { d with stats := { d.stats with commitAt := t } }

section Commit
variable {d : Dev} (hnone : d.stats.commitAt = none)
include hnone

theorem suCommit_of_bad {u : Nat} (hu : u < 16) (hbad : suBad (d.rd (Reg.SU_CFG u)) = true) :
    suCommit d = (d.setB Reg.SU_STATUS 6).event Reg.SU_STATUS 1328 := by
  have hany : ((List.range 16).any fun u => suBad (d.rd (Reg.SU_CFG u))) = true := List.any_eq_true.mpr ⟨u, List.mem_range.mpr hu, hbad⟩
  simp [suCommit, hnone, hany]

variable (hgood : ∀ u : Fin 16, suBad (d.rd (Reg.SU_CFG u)) = false)
include hgood

theorem suCommit_of_good : suCommit d = if d.suCommitDue < d.now then ((d.setB Reg.SU_STATUS 0).setB Reg.SU_STATUS 5).setSuCommit (some (d.now + 1))
    else (d.setB Reg.SU_STATUS 0).setSuCommit (some d.suCommitDue) := by
  have hany : ((List.range 16).any fun u => suBad (d.rd (Reg.SU_CFG u))) = false :=
    List.any_eq_false.mpr fun u hu => by simp [hgood ⟨u, List.mem_range.mp hu⟩]
  unfold suCommit
  rw [if_neg (by simp [hnone]), if_neg (by simp [hany])]
  rfl

end Commit

theorem exec_suCommit_ahead (s : State) (i : Ini) (h : s.reaches i Reg.SU_CMD .write = true) (hnone : s.dev.stats.commitAt = none)
    (hgood : ∀ u : Fin 16, suBad (s.dev.rd (Reg.SU_CFG u)) = false)
    (hat : s.dev.now ≤ ofShort (s.dev.n64 Reg.SU_COMMIT_AT_LO Reg.SU_COMMIT_AT_HI)) :
    ∃ t, exec (.suCommit i) s = .next t ∧ t.dev.stats.commitAt = some (ofShort (s.dev.n64 Reg.SU_COMMIT_AT_LO Reg.SU_COMMIT_AT_HI))
      ∧ t.dev.on Reg.SU_STATUS 0 = true ∧ t.dev.stats.units = s.dev.stats.units ∧ ∀ j, j ≠ Reg.SU_STATUS → t.dev.rd j = s.dev.rd j := by
  have heq : suCommit (s.dev.reached i 0) = ((s.dev.reached i 0).setB Reg.SU_STATUS 0).setSuCommit (some s.dev.suCommitDue) :=
    (suCommit_of_good (d := s.dev.reached i 0) hnone hgood).trans (if_neg (Nat.not_lt.mpr hat))
  exact ⟨_, next_congr ((onWrite_of_reaches s i _ _ h).trans heq), rfl, Dev.on_setB_self _ _ _ (by decide), rfl,
    fun _ hj => Dev.rd_setB_ne (s.dev.reached i 0) _ hj⟩

theorem exec_suCommit_past (s : State) (i : Ini) (h : s.reaches i Reg.SU_CMD .write = true) (hnone : s.dev.stats.commitAt = none)
    (hgood : ∀ u : Fin 16, suBad (s.dev.rd (Reg.SU_CFG u)) = false)
    (hat : ofShort (s.dev.n64 Reg.SU_COMMIT_AT_LO Reg.SU_COMMIT_AT_HI) < s.dev.now) :
    ∃ t, exec (.suCommit i) s = .next t ∧ t.dev.stats.commitAt = some (s.dev.now + 1) ∧ t.dev.on Reg.SU_STATUS 0 = true
      ∧ t.dev.on Reg.SU_STATUS 5 = true ∧ t.dev.stats.units = s.dev.stats.units ∧ ∀ j, j ≠ Reg.SU_STATUS → t.dev.rd j = s.dev.rd j := by
  have heq : suCommit (s.dev.reached i 0)
      = (((s.dev.reached i 0).setB Reg.SU_STATUS 0).setB Reg.SU_STATUS 5).setSuCommit (some (s.dev.now + 1)) :=
    (suCommit_of_good (d := s.dev.reached i 0) hnone hgood).trans (if_pos hat)
  refine ⟨_, next_congr ((onWrite_of_reaches s i _ _ h).trans heq), rfl, ?_, Dev.on_setB_self _ _ _ (by decide), rfl, fun j hj => ?_⟩
  · exact (Dev.on_setB_bit_ne _ _ (by decide) (by decide)).trans (Dev.on_setB_self _ _ _ (by decide))
  · exact (Dev.rd_setB_ne _ _ hj).trans (Dev.rd_setB_ne (s.dev.reached i 0) _ hj)

theorem exec_suCommit_refused (s : State) (i : Ini) (u : Fin 16) (h : s.reaches i Reg.SU_CMD .write = true) (hnone : s.dev.stats.commitAt = none)
    (hbad : suBad (s.dev.rd (Reg.SU_CFG u)) = true) :
    ∃ t, exec (.suCommit i) s = .next t ∧ t.dev.stats = s.dev.stats ∧ t.dev.on Reg.SU_STATUS 6 = true
      ∧ t.dev.n (Reg.EV_SEQ 1328) = (s.dev.n (Reg.EV_SEQ 1328) + 1) % 2 ^ 32 := by
  have heq := suCommit_of_bad (d := s.dev.reached i 0) hnone u.isLt hbad
  refine ⟨_, next_congr ((onWrite_of_reaches s i _ _ h).trans heq), rfl, ?_, ?_⟩
  · exact (Dev.on_event _ _ _ (by decide) (suStatus_ne_evSeq _)).trans (Dev.on_setB_self _ _ _ (by decide))
  · rw [Dev.n_event_self _ (suStatus_ne_evSeq _).symm, Dev.n_congr (Dev.rd_setB_ne _ _ (suStatus_ne_evSeq _).symm), Dev.n_reached]

theorem exec_suCancelCommit (s : State) (i : Ini) (h : s.reaches i Reg.SU_CMD .write = true) :
    ∃ t, exec (.suCancelCommit i) s = .next t ∧ t.dev.stats.commitAt = none ∧ t.dev.on Reg.SU_STATUS 0 = false
      ∧ t.dev.stats.units = s.dev.stats.units ∧ ∀ j, j ≠ Reg.SU_STATUS → t.dev.rd j = s.dev.rd j :=
  ⟨_, next_congr (onWrite_of_reaches s i _ _ h), rfl, Dev.on_clrB_self _ _ _ (by decide), rfl,
    fun _ hj => Dev.rd_clrB_ne (s.dev.reached i 0) _ hj⟩

/-! ### SU_COMMIT_TAKE (R292) -/

/-- Steps that are folded over numbers, seen from one of them: R holds up to its step and after it. -/
theorem steps_foldl_at {R : Dev → Dev → Prop} (hrefl : ∀ d, R d d) (htrans : ∀ {a d e}, R a d → R d e → R a e)
    {f : Dev → Nat → Dev} {l : List Nat} (d : Dev) (hl : l.Nodup) {n : Nat} (hn : n ∈ l) (hf : ∀ d x, x ≠ n → R d (f d x)) :
    ∃ e, R d e ∧ R (f e n) (l.foldl f d) := by
  obtain ⟨l1, l2, rfl⟩ := List.append_of_mem hn
  obtain ⟨-, hn2, hdisj⟩ := List.nodup_append'.mp hl
  have hbefore : ∀ x ∈ l1, x ≠ n := fun x hx e => hdisj hx (e ▸ List.mem_cons_self)
  have hafter : ∀ x ∈ l2, x ≠ n := fun x hx e => (List.nodup_cons.mp hn2).1 (e ▸ hx)
  refine ⟨l1.foldl f d, steps_foldl (R := R) htrans (hrefl d) fun d x hx => hf d x (hbefore x hx), ?_⟩
  rw [List.foldl_append, List.foldl_cons]
  exact steps_foldl (R := R) htrans (hrefl _) fun d x hx => hf d x (hafter x hx)

/-- Work of the other units: the unit v is the same, and what `Dev.SuKeeps` names beyond a unit. -/
structure Dev.SuSpares (v : Nat) (d e : Dev) : Prop where
  same : d.SameOn suSettled e
  pending : e.on Reg.SU_STATUS 0 = d.on Reg.SU_STATUS 0
  armed : e.stats.commitAt = d.stats.commitAt
  unit : e.su v = d.su v

theorem Dev.SuSpares.refl {v : Nat} (d : Dev) : d.SuSpares v d := ⟨.refl d, rfl, rfl, rfl⟩

theorem Dev.SuSpares.trans {v : Nat} {a d e : Dev} (had : a.SuSpares v d) (hde : d.SuSpares v e) : a.SuSpares v e :=
  ⟨had.same.trans hde.same, hde.pending.trans had.pending, hde.armed.trans had.armed, hde.unit.trans had.unit⟩

theorem Dev.SuKeeps.spares {u v : Nat} {d e : Dev} (h : d.SuWorks u e) (hv : u ≠ v) : d.SuSpares v e :=
  ⟨h.same, h.pending, h.armed, h.others v hv.symm⟩

/-- The bank is taken: no commit is armed, and the commit counts. -/
def Dev.suBankTaken (d : Dev) : Dev :=
  Dev.add { d.clrB Reg.SU_STATUS 0 with stats := { d.stats with commitAt := none, bank := d.regs.filter fun r => suBankKey r.1 } } Reg.SU_COMMITS 1

/-- A unit whose pending configuration differs from its newest one is to take it, and does where it can. -/
def Dev.suTakePending (d : Dev) (u : Nat) : Dev :=
  if d.suPending u = (d.su u).newest then d else ((d.setSu u ((d.su u).queue (d.suPending u) d.now)).suTryNext u).suShow u

theorem suCommitTake_of_due {d : Dev} {t : Nat} (h : d.stats.commitAt = some t) (hdue : t ≤ d.now) :
    suCommitTake d = ((List.range 16).foldl Dev.suTakePending d.suBankTaken).event Reg.SU_STATUS 1328 := by
  unfold suCommitTake
  rw [h]
  exact if_neg (Nat.not_lt.mpr hdue)

theorem Dev.suWorks_suTakePending (d : Dev) (u : Nat) : d.SuWorks u (d.suTakePending u) :=
  .ite (.refl d) (((Dev.SuKeeps.refl d).setSu.trans (Dev.suWorks_suTryNext ..)).trans (Dev.suKeeps_suShow ..))

/-- A stopped unit without anything of its own takes its pending configuration at once. -/
theorem Dev.su_suTakePending_of_reset {d : Dev} {u : Nat} (h : d.su u = {}) (hp : d.suPending u ≠ suResetCfg) :
    ((d.suTakePending u).su u).cfg = d.suPending u ∧ ((d.suTakePending u).su u).since = d.now := by
  have hrun : d.suTakePending u = ((d.setSu u ((d.su u).queue (d.suPending u) d.now)).suTryNext u).suShow u :=
    if_neg (by rw [h]; exact hp)
  have hqueue := d.su_setSu_self u (({} : SuSt).queue (d.suPending u) d.now)
  have hoff : suOn ((({} : SuSt).queue (d.suPending u) d.now).c 0) = false := congrArg suOn (SuSt.c_congr (y := {}) rfl 0)
  rw [hrun, Dev.su_suShow, h, Dev.suTryNext_of_off _ u (congrArg SuSt.nexts hqueue) (by rw [hqueue, hoff])]
  exact Dev.su_suSwitch ..

theorem Dev.suPending_congr {d e : Dev} {u : Nat} (h : ∀ k, 0x150100 ≤ k → k < 0x15011C → e.rd (k + 64 * u) = d.rd (k + 64 * u)) :
    e.suPending u = d.suPending u := by
  unfold Dev.suPending
  rw [h _ (by decide) (by decide), h _ (by decide) (by decide), h _ (by decide) (by decide), h _ (by decide) (by decide),
    h _ (by decide) (by decide), h _ (by decide) (by decide), h _ (by decide) (by decide)]

theorem Dev.suPending_of_settled {d e : Dev} (h : d.SameOn suSettled e) (u : Fin 16) : e.suPending u = d.suPending u :=
  Dev.suPending_congr fun _ _ _ => h.2 _ (.inr (by omega))

theorem Dev.suPending_suBankTaken (d : Dev) (u : Nat) : d.suBankTaken.suPending u = d.suPending u :=
  Dev.suPending_congr fun _ _ _ =>
    (Dev.rd_wrN_ne _ _ (by unfold Reg.SU_COMMITS; omega)).trans (Dev.rd_clrB_ne d _ (by unfold Reg.SU_STATUS; omega))

theorem Dev.on_suBankTaken (d : Dev) : d.suBankTaken.on Reg.SU_STATUS 0 = false :=
  (Dev.on_congr 0 (Dev.rd_wrN_ne _ _ (by decide))).trans (d.on_clrB_self Reg.SU_STATUS 0 (by decide))

theorem Dev.n_commits_suBankTaken (d : Dev) : d.suBankTaken.n Reg.SU_COMMITS = (d.n Reg.SU_COMMITS + 1) % 2 ^ 32 := by
  have hclr : (d.clrB Reg.SU_STATUS 0).n Reg.SU_COMMITS = d.n Reg.SU_COMMITS := Dev.n_congr (d.rd_clrB_ne 0 (by decide))
  rw [← hclr]
  exact Dev.n_add_self ..

/-- The commit reaches every unit, and each once: the steps before and after a unit's own leave it alone. -/
theorem Dev.suTakePending_at (d : Dev) (u : Fin 16) :
    ∃ e, d.SuSpares u e ∧ (e.suTakePending u).SuSpares u ((List.range 16).foldl Dev.suTakePending d) :=
  steps_foldl_at .refl .trans d List.nodup_range (List.mem_range.mpr u.isLt) fun d x hx => (d.suWorks_suTakePending x).spares hx

theorem exec_suCommitTake (s : State) (at_ : Nat) (h : s.dev.stats.commitAt = some at_) (hdue : at_ ≤ s.dev.now) :
    ∃ t, exec .suCommitTake s = .next t ∧ t.dev.stats.commitAt = none ∧ t.dev.on Reg.SU_STATUS 0 = false
      ∧ t.dev.n Reg.SU_COMMITS = (s.dev.n Reg.SU_COMMITS + 1) % 2 ^ 32
      ∧ ∀ u : Fin 16, s.dev.su u = {} → s.dev.suPending u ≠ suResetCfg →
          (t.dev.su u).cfg = s.dev.suPending u ∧ (t.dev.su u).since = s.dev.now := by
  have hat := Dev.suTakePending_at s.dev.suBankTaken
  have heq := suCommitTake_of_due h hdue
  generalize (List.range 16).foldl Dev.suTakePending s.dev.suBankTaken = f at hat heq
  obtain ⟨e, he, hf⟩ := hat 0
  have hstep := e.suWorks_suTakePending (0 : Fin 16)
  have hcommits : suSettled Reg.SU_COMMITS := .inl rfl
  refine ⟨_, next_congr heq, ?_, ?_, ?_, fun u hreset hp => ?_⟩
  · rw [Dev.stats_event, hf.armed, hstep.armed, he.armed]
    rfl
  · rw [Dev.on_event _ _ _ (by decide) (suStatus_ne_evSeq _), hf.pending, hstep.pending, he.pending, Dev.on_suBankTaken]
  · rw [Dev.n_congr (Dev.rd_event_ne _ _ _ (by decide) (by decide)), ← Dev.n_commits_suBankTaken]
    exact Dev.n_congr ((hf.same.2 _ hcommits).trans ((hstep.same.2 _ hcommits).trans (he.same.2 _ hcommits)))
  · obtain ⟨e, he, hf⟩ := hat u
    have hpend : e.suPending u = s.dev.suPending u := (Dev.suPending_of_settled he.same u).trans (s.dev.suPending_suBankTaken u)
    have hsu : e.su u = {} := he.unit.trans hreset
    have hnow : e.now = s.dev.now := Dev.now_congr he.same.1
    rw [Dev.su_congr (Dev.stats_event ..), hf.unit, ← hpend, ← hnow]
    exact Dev.su_suTakePending_of_reset hsu (hpend ▸ hp)

/-! ### SU_FLUSH and SU_CLEAR_COUNTS (R278, R283, R295) -/

/-- A unit as a flush leaves it: no batch or record is open, and nothing waits for its pair. -/
def SuSt.flushed (x : SuSt) : Prop := x.batch.live = false ∧ x.open_ = none ∧ x.start = none ∧ x.held = none ∧ x.pend = []

/-- The flush of one unit. -/
def Dev.suFlushUnit (d : Dev) (u : Nat) : Dev := ((((d.suDecide u (d.suFrontA u)).suUnpair u).suEndBatch u).suClose u 0xA).suShow u

theorem Dev.suWorks_suFlushUnit (d : Dev) (u : Nat) : d.SuWorks u (d.suFlushUnit u) :=
  ((((d.suWorks_suDecide u _).trans (Dev.suWorks_suUnpair ..)).trans (Dev.suWorks_suEndBatch ..)).trans (Dev.suWorks_suClose ..)).trans
    (Dev.suKeeps_suShow ..)

theorem Dev.pairing_suUnpair (d : Dev) (u : Nat) :
    ((d.suUnpair u).su u).start = none ∧ ((d.suUnpair u).su u).held = none ∧ ((d.suUnpair u).su u).pend = [] := by
  have h := SuSt.pairing_of_unsampled (d.suSamples_suUnpair u).unit
  rwa [Dev.su_setSu_self] at h

theorem Dev.flushed_suFlushUnit (d : Dev) (u : Nat) : ((d.suFlushUnit u).su u).flushed := by
  obtain ⟨hstart, hheld, hpend⟩ := (d.suDecide u (d.suFrontA u)).pairing_suUnpair u
  generalize he : (d.suDecide u (d.suFrontA u)).suUnpair u = e at hstart hheld hpend
  obtain ⟨hstart', hheld', hpend'⟩ := SuSt.pairing_of_unsampled (e.suSamples_suEndBatch u).unit
  have hclose := (e.suEndBatch u).suRecords_suClose u 0xA
  obtain ⟨hstart'', hheld'', hpend''⟩ := SuSt.pairing_of_unsampled hclose.samples.unit
  obtain ⟨hbatch, -⟩ := SuSt.kept_of_unwritten hclose.unit
  rw [Dev.suFlushUnit, he, Dev.su_suShow]
  refine ⟨?_, Dev.open_suClose .., ?_, ?_, ?_⟩
  · rw [hbatch, Dev.live_suEndBatch]
  · rw [hstart'', hstart', hstart]
  · rw [hheld'', hheld', hheld]
  · rw [hpend'', hpend', hpend]

/-- Every unit that is flushed, or was as a flush leaves it, is so in the end. -/
theorem flushed_foldl (l : List Nat) (d : Dev) (v : Nat) (h : v ∈ l ∨ (d.su v).flushed) : ((l.foldl Dev.suFlushUnit d).su v).flushed := by
  induction l generalizing d with
  | nil => exact h.resolve_left List.not_mem_nil
  | cons u l ih =>
    rw [List.foldl_cons]
    apply ih
    rcases eq_or_ne v u with rfl | hv
    · exact .inr (d.flushed_suFlushUnit v)
    · rw [(d.suWorks_suFlushUnit u).others v hv]
      exact h.imp_left fun hmem => (List.mem_cons.mp hmem).resolve_left hv

/-- The units that differ from their reset state. -/
def Dev.suUnits (d : Dev) : List Nat := d.stats.units.map fun e => e.1

/-- A unit has a batch or a record open. -/
def Dev.suBusy (d : Dev) : Bool := d.suUnits.any fun u => (d.su u).batch.live || (d.su u).open_.isSome

theorem Tab.get_of_unlisted {α : Type} (dflt : Nat → α) (t : Tab α) {k : Nat} (h : k ∉ t.map fun e => e.1) : t.get dflt k = dflt k := by
  have hnone : t.find? k = none := by
    induction t with
    | nil => rfl
    | cons e r ih =>
      simp only [List.map_cons, List.mem_cons, not_or] at h
      simp [Tab.find?, Ne.symm h.1, ih h.2]
  rw [Tab.get, hnone]
  rfl

theorem Dev.su_of_unlisted {d : Dev} {u : Nat} (h : u ∉ d.suUnits) : d.su u = {} := Tab.get_of_unlisted _ _ h

theorem Dev.suBusy_of_open {d : Dev} {u : Nat} (h : ((d.su u).batch.live || (d.su u).open_.isSome) = true) : d.suBusy = true := by
  refine List.any_eq_true.mpr ⟨u, ?_, h⟩
  by_contra hunlisted
  rw [Dev.su_of_unlisted hunlisted] at h
  exact absurd h (by decide)

theorem suFlush_eq (d : Dev) : suFlush d = if d.suBusy then d.suUnits.foldl Dev.suFlushUnit d else d := rfl

theorem exec_suFlush_open (s : State) (i : Ini) (v : Fin 16) (h : s.reaches i Reg.SU_CMD .write = true)
    (hopen : ((s.dev.su v).batch.live || (s.dev.su v).open_.isSome) = true) :
    ∃ t, exec (.suFlush i) s = .next t ∧ t.dev.now = s.dev.now
      ∧ ∀ u : Fin 16, (t.dev.su u).batch.live = false ∧ (t.dev.su u).open_ = none ∧ (t.dev.su u).start = none ∧ (t.dev.su u).held = none
          ∧ (t.dev.su u).pend = [] := by
  have hrun : suFlush (s.dev.reached i 0) = (s.dev.reached i 0).suUnits.foldl Dev.suFlushUnit (s.dev.reached i 0) :=
    (suFlush_eq _).trans (if_pos (Dev.suBusy_of_open (u := v) hopen))
  refine ⟨_, next_congr ((onWrite_of_reaches s i _ _ h).trans hrun), ?_, fun u => flushed_foldl _ _ _ ?_⟩
  · exact Dev.now_congr (tb_foldl (fun d u => (d.suWorks_suFlushUnit u).same.1) _ (s.dev.reached i 0))
  · by_cases hu : (u : Nat) ∈ (s.dev.reached i 0).suUnits
    · exact .inl hu
    · rw [Dev.su_of_unlisted hu]
      exact .inr ⟨rfl, rfl, rfl, rfl, rfl⟩

theorem exec_suFlush_idle (s : State) (i : Ini) (h : s.reaches i Reg.SU_CMD .write = true)
    (hidle : (s.dev.stats.units.all fun e => !(s.dev.su e.1).batch.live && (s.dev.su e.1).open_.isNone) = true) :
    ∃ t, exec (.suFlush i) s = .next t ∧ t.dev.stats = s.dev.stats ∧ ∀ j, t.dev.rd j = s.dev.rd j := by
  have hbusy : s.dev.suBusy = false := by
    simpa [Dev.suBusy, Dev.suUnits] using hidle
  have hrun : suFlush (s.dev.reached i 0) = s.dev.reached i 0 := (suFlush_eq _).trans (if_neg (Bool.eq_false_iff.mp hbusy))
  exact ⟨_, next_congr ((onWrite_of_reaches s i _ _ h).trans hrun), rfl, fun _ => rfl⟩

/-- The counts of the units that SU_CMD CLEAR_COUNTS clears. -/
def suCounts : List Nat := (List.range 16).flatMap fun u => [Reg.SU_ORPHANS u, Reg.SU_REJECTED u, Reg.SU_EXCLUDED u]

theorem suClearCounts_eq (d : Dev) : suClearCounts d = suCounts.foldl (fun d k => d.wrN k 0) d := rfl

theorem Dev.stats_foldl_wrN_zero (l : List Nat) (d : Dev) : (l.foldl (fun d k => d.wrN k 0) d).stats = d.stats := by
  induction l generalizing d with
  | nil => rfl
  | cons k l ih => exact (ih _).trans (d.stats_wrN k 0)

theorem exec_suClearCounts (s : State) (i : Ini) (h : s.reaches i Reg.SU_CMD .write = true) :
    ∃ t, exec (.suClearCounts i) s = .next t ∧ t.dev.stats = s.dev.stats
      ∧ ∀ u : Fin 16, t.dev.rd (Reg.SU_ORPHANS u) = 0 ∧ t.dev.rd (Reg.SU_REJECTED u) = 0 ∧ t.dev.rd (Reg.SU_EXCLUDED u) = 0 := by
  refine ⟨_, next_congr ((onWrite_of_reaches s i _ _ h).trans (suClearCounts_eq _)), Dev.stats_foldl_wrN_zero .., fun u => ?_⟩
  have hmem {k : Nat} (hk : k ∈ [Reg.SU_ORPHANS u, Reg.SU_REJECTED u, Reg.SU_EXCLUDED u]) : k ∈ suCounts :=
    List.mem_flatMap.mpr ⟨u, List.mem_range.mpr u.isLt, hk⟩
  simp only [Dev.rd_foldl_wrN_zero]
  exact ⟨if_pos (hmem (by simp)), if_pos (hmem (by simp)), if_pos (hmem (by simp))⟩

end Sys2Proof.Machine

namespace Sys2Proof
open Sys2Proof.Machine

/-- Settles O29, command by command: each is one unit's work, which leaves the other units, the timebase and the pending bank alone. -/
theorem stampStatistics : Obligations.StampStatistics := by
  unfold Obligations.StampStatistics
  exact ⟨exec_stampProcess, exec_gateClose, exec_batchTimeLimit, exec_suRecordAge, exec_suOverrunResume, exec_suCommit_ahead, exec_suCommit_past,
    exec_suCommit_refused, exec_suCancelCommit, exec_suCommitTake, exec_suFlush_open, exec_suFlush_idle, exec_suClearCounts⟩

end Sys2Proof
end

section
/-! SUPPORT. Lanes packed into a word, the terms of a product, and what an instruction that only writes vectors and accumulators leaves. -/
namespace Sys2Proof.Machine

/-! ### Signed lanes (R309) -/

theorem sfld_eq_toS {n : Nat} (w : BitVec n) (lo len : Nat) : sfld w lo len = toS len (fld w lo len) := by
  unfold sfld toS
  rw [Nat.mod_eq_of_lt (fld_lt w lo len)]

/-- The signed values of a width. -/
def fits (b : Nat) (v : Int) : Prop := -(2 ^ (b - 1)) ≤ v ∧ v < 2 ^ (b - 1)

/-- The range of a width of at least one bit, in naturals and integers. -/
theorem two_pow_pred {b : Nat} (hb : 0 < b) : 2 ^ b = 2 * 2 ^ (b - 1) ∧ (2 : Int) ^ b = 2 * 2 ^ (b - 1) ∧ ((2 ^ (b - 1) : Nat) : Int) = 2 ^ (b - 1) := by
  obtain ⟨k, rfl⟩ := Nat.exists_eq_succ_of_ne_zero hb.ne'
  exact ⟨pow_succ' 2 k, pow_succ' 2 k, Nat.cast_pow 2 k⟩

theorem toS_fits {b : Nat} (hb : 0 < b) (v : Nat) : fits b (toS b v) := by
  obtain ⟨hnat, hint, hcast⟩ := two_pow_pred hb
  have hlt : v % 2 ^ b < 2 ^ b := Nat.mod_lt _ (Nat.two_pow_pos _)
  unfold fits toS
  dsimp only
  split <;> omega

theorem sfld_fits {n b : Nat} (hb : 0 < b) (w : BitVec n) (lo : Nat) : fits b (sfld w lo b) := sfld_eq_toS w lo b ▸ toS_fits hb _

/-- A saturated value is one of its width (R310). -/
theorem satS_fits (b : Nat) (v : Int) : fits b (satS b v) := by
  have hpos : (0 : Int) < 2 ^ (b - 1) := by positivity
  unfold fits satS clampI
  split_ifs <;> omega

/-- A value of the width comes back from its two's complement number. -/
theorem toS_wrapU_of_fits {b : Nat} (hb : 0 < b) {v : Int} (h : fits b v) : toS b (wrapU b v) = v := by
  obtain ⟨hnat, hint, hcast⟩ := two_pow_pred hb
  obtain ⟨hlo, hhi⟩ := h
  have hwrap : (wrapU b v : Int) = if v < 0 then v + 2 ^ b else v := by
    unfold wrapU
    split
    · rw [← Int.add_emod_right, Int.emod_eq_of_lt (by omega) (by omega)]
      omega
    · rw [Int.emod_eq_of_lt (by omega) (by omega)]
      omega
  have hlt : wrapU b v < 2 ^ b := by
    split at hwrap <;> omega
  unfold toS
  dsimp only
  rw [Nat.mod_eq_of_lt hlt]
  split at hwrap <;> split <;> omega

theorem wrapU_lt (b : Nat) (v : Int) : wrapU b v < 2 ^ b := by
  have hpos : (0 : Int) < 2 ^ b := by positivity
  have hlt := Int.emod_lt_of_pos v hpos
  have hcast : ((2 ^ b : Nat) : Int) = 2 ^ b := by push_cast; rfl
  unfold wrapU
  omega

/-! ### Packed lanes -/

theorem ofAccLanes_eq (mode : Nat) (l : List Int) : ofAccLanes mode l = ofLanes (accWidth mode) l := rfl

theorem ofLanes_concat (b : Nat) (l : List Int) (v : Int) : ofLanes b (l ++ [v]) = ofLanes b l + wrapU b v * 2 ^ (b * l.length) := by
  simp [ofLanes, List.zipIdx_append]

theorem ofLanes_lt (b : Nat) (l : List Int) : ofLanes b l < 2 ^ (b * l.length) := by
  induction l using List.reverseRecOn with
  | nil => simp [ofLanes]
  | append_singleton l v ih =>
    have hv : wrapU b v + 1 ≤ 2 ^ b := wrapU_lt b v
    calc ofLanes b (l ++ [v]) = ofLanes b l + wrapU b v * 2 ^ (b * l.length) := ofLanes_concat b l v
      _ < (wrapU b v + 1) * 2 ^ (b * l.length) := by rw [Nat.add_mul, Nat.one_mul]; omega
      _ ≤ 2 ^ b * 2 ^ (b * l.length) := Nat.mul_le_mul_right _ hv
      _ = 2 ^ (b * (l ++ [v]).length) := by rw [← pow_add, List.length_append, List.length_singleton, Nat.mul_succ, Nat.add_comm]

/-- Each lane stands in its own place. -/
theorem ofLanes_digit (b : Nat) (l : List Int) {i : Nat} (hi : i < l.length) : ofLanes b l / 2 ^ (b * i) % 2 ^ b = wrapU b (nth l i 0) := by
  induction l using List.reverseRecOn with
  | nil => exact absurd hi (by simp)
  | append_singleton l v ih =>
    rw [ofLanes_concat]
    rw [List.length_append, List.length_singleton] at hi
    by_cases hlast : i = l.length
    · subst hlast
      rw [Nat.add_mul_div_right _ _ (Nat.two_pow_pos _), Nat.div_eq_of_lt (ofLanes_lt b l), Nat.zero_add, Nat.mod_eq_of_lt (wrapU_lt b v)]
      simp [nth]
    · have hin : i < l.length := by omega
      have hpow : 2 ^ (b * l.length) = 2 ^ (b * i) * (2 ^ b * 2 ^ (b * (l.length - i - 1))) := by
        rw [← pow_add, ← pow_add]
        congr 1
        obtain ⟨j, hj⟩ := Nat.exists_eq_add_of_lt hin
        rw [hj, show i + j + 1 - i - 1 = j by omega]
        ring
      have hnth : nth (l ++ [v]) i 0 = nth l i 0 := List.getD_append _ _ _ _ hin
      rw [hnth, ← ih hin, hpow, Nat.mul_left_comm, Nat.add_mul_div_left _ _ (Nat.two_pow_pos _), Nat.mul_left_comm, Nat.add_mul_mod_self_left]

/-- A lane read from packed lanes. -/
theorem sfld_ofLanes {n b : Nat} {l : List Int} (hfit : b * l.length ≤ n) {i : Nat} (hi : i < l.length) :
    sfld (BitVec.ofNat n (ofLanes b l)) (b * i) b = toS b (wrapU b (nth l i 0)) := by
  have hlt : ofLanes b l < 2 ^ n := (ofLanes_lt b l).trans_le (Nat.pow_le_pow_right (by decide) hfit)
  rw [sfld_eq_toS, fld_ofNat, Nat.mod_eq_of_lt hlt, ofLanes_digit b l hi]

/-! ### Lists of lanes -/

theorem nth_map_range {α : Type} (f : Nat → α) {n l : Nat} (h : l < n) (d : α) : nth ((List.range n).map f) l d = f l := by
  simp [nth, h]

theorem nth_map {α β : Type} (f : α → β) {l : List α} {i : Nat} (h : i < l.length) (a : α) (b : β) : nth (l.map f) i b = f (nth l i a) := by
  simp [nth, h]

theorem length_lanes (b : Nat) (w : Word128) : (lanes b w).length = 128 / b := by simp [lanes]

theorem nth_lanes {b l : Nat} (w : Word128) (h : l < 128 / b) : nth (lanes b w) l 0 = lane b w l := nth_map_range _ h 0

theorem accLanes_eq (mode : Nat) (a : BitVec 320) : accLanes mode a = (List.range (accCount mode)).map (accLane mode a) := rfl

theorem nth_accLanes {mode l : Nat} (a : BitVec 320) (h : l < accCount mode) : nth (accLanes mode a) l 0 = accLane mode a l := nth_map_range _ h 0

theorem accWidth_pos (mode : Nat) : 0 < accWidth mode := by unfold accWidth; split <;> decide

/-- The lanes of an accumulator fill it (R309). -/
theorem accWidth_mul_accCount (mode : Nat) : accWidth mode * accCount mode = 320 := by
  unfold accCount accWidth
  split <;> decide

/-- A lane of an accumulator that takes new lanes. -/
theorem accLane_ofAccLanes {mode : Nat} {l : List Int} (hlen : l.length = accCount mode) {i : Nat} (hi : i < accCount mode) :
    accLane mode (BitVec.ofNat 320 (ofAccLanes mode l)) i = toS (accWidth mode) (wrapU (accWidth mode) (nth l i 0)) :=
  sfld_ofLanes (by rw [hlen, accWidth_mul_accCount]) (hlen ▸ hi)

theorem accLane_ofAccLanes_of_fits {mode : Nat} {l : List Int} (hlen : l.length = accCount mode) {i : Nat} (hi : i < accCount mode)
    (hfits : fits (accWidth mode) (nth l i 0)) : accLane mode (BitVec.ofNat 320 (ofAccLanes mode l)) i = nth l i 0 :=
  (accLane_ofAccLanes hlen hi).trans (toS_wrapU_of_fits (accWidth_pos mode) hfits)

/-- A lane of a vector that takes new lanes. -/
theorem lane_ofLanes {b : Nat} {l : List Int} (hlen : l.length = 128 / b) {i : Nat} (hi : i < 128 / b) :
    lane b (BitVec.ofNat 128 (ofLanes b l)) i = toS b (wrapU b (nth l i 0)) :=
  sfld_ofLanes (by rw [hlen]; exact Nat.mul_div_le 128 b) (hlen ▸ hi)

/-- In a mode that the width bit matches, an accumulator has as many lanes as a vector (R351). -/
theorem accCount_of_wdMatches {x : EngSt} {k : Nat} {w : CrW} (h : wdMatches x k w = true) : accCount (x.acm k) = 128 / crWidth w := by
  unfold wdMatches at h
  unfold accCount accWidth crWidth
  rcases Nat.mod_two_eq_zero_or_one (x.acm k) with hm | hm <;> simp_all

/-- In such a mode a lane of the accumulator is wider than one of the vector (R309). -/
theorem crWidth_lt_accWidth {x : EngSt} {k : Nat} {w : CrW} (h : wdMatches x k w = true) : crWidth w < accWidth (x.acm k) := by
  unfold wdMatches at h
  unfold accWidth crWidth
  rcases Nat.mod_two_eq_zero_or_one (x.acm k) with hm | hm <;> simp_all

/-! ### The terms of the multiply group (R351) -/

/-- Pairs laid out one after another: even places take the first of a pair, odd ones the second. -/
theorem nth_flatMap_pair (f g : Nat → Int) {n l : Nat} (h : l < 2 * n) :
    nth ((List.range n).flatMap fun c => [f c, g c]) l 0 = if l % 2 = 0 then f (l / 2) else g (l / 2) := by
  induction n with
  | zero => omega
  | succ n ih =>
    have hlen : ((List.range n).flatMap fun c => [f c, g c]).length = 2 * n := by simp [Nat.mul_comm]
    rw [List.range_succ, List.flatMap_append]
    unfold nth at ih ⊢
    by_cases hin : l < 2 * n
    · rw [List.getD_append _ _ _ _ (hlen ▸ hin)]
      exact ih hin
    · rw [List.getD_append_right _ _ _ _ (by omega), hlen]
      obtain rfl | rfl : l = 2 * n ∨ l = 2 * n + 1 := by omega
      · simp
      · have hdiv : (2 * n + 1) / 2 = n := by omega
        simp [Nat.add_mod, hdiv]

theorem nth_products_real {b l mode : Nat} (hmode : mode < 2) (conj : Bool) (u v : Word128) (h : l < 128 / b) :
    nth (products mode conj (lanes b u) (lanes b v)) l 0 = lane b u l * lane b v l := by
  have hget (w : Word128) : (lanes b w)[l]? = some (lane b w l) := by simp [lanes, h, lane]
  unfold products
  rw [if_pos hmode, nth, List.getD_eq_getElem?_getD, List.getElem?_zipWith, hget, hget]
  rfl

/-- Each product of two vectors is the term of the statement. -/
theorem nth_products {b l mode : Nat} (conj : Bool) (u v : Word128) (heven : 128 / b % 2 = 0) (h : l < 128 / b) :
    nth (products mode conj (lanes b u) (lanes b v)) l 0 = crTerm mode conj b u v l := by
  by_cases hmode : mode < 2
  · rw [nth_products_real hmode conj u v h, crTerm, if_pos hmode]
  · have hpair : l / 2 * 2 + 1 < 128 / b := by omega
    have hre (w : Word128) : nth (lanes b w) (2 * (l / 2)) 0 = lane b w (l / 2 * 2) := by
      rw [Nat.mul_comm]; exact nth_lanes w (by omega)
    have him (w : Word128) : nth (lanes b w) (2 * (l / 2) + 1) 0 = lane b w (l / 2 * 2 + 1) := by
      rw [Nat.mul_comm]; exact nth_lanes w hpair
    unfold products crTerm
    rw [if_neg hmode, length_lanes]
    cases conj
    · simp only [Bool.false_eq_true, if_false]
      rw [nth_flatMap_pair _ _ (by omega), hre, hre, him, him]
      simp only [hmode, if_false]
    · simp only [if_true]
      rw [nth_flatMap_pair _ _ (by omega), hre, hre, him, him]
      simp only [hmode, if_false]

theorem even_lanes (w : CrW) : 128 / crWidth w % 2 = 0 := by
  unfold crWidth
  split <;> decide

theorem nth_map_neg {l : List Int} (i : Nat) : nth (l.map fun v => -v) i 0 = -nth l i 0 := by
  simp only [nth, List.getD_eq_getElem?_getD, List.getElem?_map]
  cases l[i]? <;> rfl

/-- The signed product an instruction of the multiply group takes for a lane, NEG taken in. -/
theorem nth_crProducts {x : EngSt} {w : CrW} (conj : Bool) (hwd : wdMatches x (crAccD w) w = true) {l : Nat} (h : l < accCount (x.acm (crAccD w))) :
    nth (crProducts conj x w) l 0 = if crAux w % 2 = 1 then -crTerm (x.acm (crAccD w)) conj (crWidth w) (x.vr (crA w)) (x.vr (crB w)) l
      else crTerm (x.acm (crAccD w)) conj (crWidth w) (x.vr (crA w)) (x.vr (crB w)) l := by
  rw [accCount_of_wdMatches hwd] at h
  have hterm := nth_products (mode := x.acm (crAccD w)) conj (x.vr (crA w)) (x.vr (crB w)) (even_lanes w) h
  unfold crProducts
  split
  · exact (nth_map_neg l).trans (congrArg Neg.neg hterm)
  · exact hterm

theorem length_products {mode : Nat} (conj : Bool) {u v : List Int} (hlen : v.length = u.length) (heven : u.length % 2 = 0) :
    (products mode conj u v).length = u.length := by
  unfold products
  split
  · simp [hlen]
  · cases conj <;> simp <;> omega

theorem length_crProducts {x : EngSt} {w : CrW} (conj : Bool) (hwd : wdMatches x (crAccD w) w = true) :
    (crProducts conj x w).length = accCount (x.acm (crAccD w)) := by
  have hlen := length_products (mode := x.acm (crAccD w)) conj (u := lanes (crWidth w) (x.vr (crA w))) (v := lanes (crWidth w) (x.vr (crB w)))
    (by rw [length_lanes, length_lanes]) (by rw [length_lanes]; exact even_lanes w)
  rw [accCount_of_wdMatches hwd, ← length_lanes (crWidth w) (x.vr (crA w)), ← hlen]
  unfold crProducts
  split
  · exact List.length_map _
  · rfl

end Sys2Proof.Machine
end

section
/-! SUPPORT. What an instruction leaves whose only results are vectors, accumulators and status bits. -/
namespace Sys2Proof.Machine

/-- A destination outside the pointers, the loop and the other special registers. -/
def CrDst.plain : CrDst → Bool
  | .s _ => false
  | _ => true

/-- The engine with the vectors, accumulators and status bits of another. -/
def EngSt.withData (x y : EngSt) : EngSt := { x with v := y.v, acc := y.acc, sr := y.sr, aov := y.aov }

theorem EngSt.put_plain (x : EngSt) {r : CrDst} (h : r.plain = true) (v : Nat) : x.put r v = x.withData (x.put r v) := by
  cases r with
  | s k => cases h
  | _ => rfl

/-- The engine once a list of results has landed. -/
def EngSt.puts (x : EngSt) (ws : List (CrDst × Nat)) : EngSt := ws.foldl (fun z l => z.put l.1 l.2) x

theorem EngSt.puts_plain (x : EngSt) {ws : List (CrDst × Nat)} (h : ∀ l ∈ ws, l.1.plain = true) : x.puts ws = x.withData (x.puts ws) := by
  induction ws generalizing x with
  | nil => rfl
  | cons a ws ih =>
    have hput : x.put a.1 a.2 = x.withData (x.put a.1 a.2) := x.put_plain (h a List.mem_cons_self) _
    have hrest := ih (x.put a.1 a.2) fun l hl => h l (List.mem_cons_of_mem _ hl)
    calc x.puts (a :: ws) = (x.put a.1 a.2).withData ((x.put a.1 a.2).puts ws) := hrest
      _ = (x.withData (x.put a.1 a.2)).withData (x.puts (a :: ws)) := by rw [← hput]; rfl
      _ = x.withData (x.puts (a :: ws)) := rfl

/-- What a plain instruction leaves of its engine: the PC moves on, the results stand, and pointers and memories are as they were. -/
structure EngSt.MovesOn (x y z : EngSt) : Prop where
  pc : z.pc = x.pc + 1
  v : z.v = y.v
  acc : z.acc = y.acc
  ptrs : z.p = x.p
  memX : z.x = x.x
  memY : z.y = x.y

theorem EngSt.issued_plain {x : EngSt} (op : Nat) {ws : List (CrDst × Nat)} (h : ∀ l ∈ ws, l.1.plain = true) (hslot : x.slot = none)
    (hrep : x.rep = none) (hloop : bit x.sr 11 = false) (hstop : x.stop = 0) : x.MovesOn (x.puts ws) (x.issued op { writes := ws }) := by
  have hputs : ws.foldl (fun (z : EngSt) l => z.put l.1 l.2) x = x.withData (x.puts ws) := x.puts_plain h
  unfold EngSt.issued
  dsimp only
  rw [hputs]
  simp only [EngSt.advance, EngSt.withData, hrep, hslot, hloop, Bool.false_eq_true, false_and, if_false, Option.isNone_none, and_true]
  split <;> simp only [EngSt.tryStop, EngSt.latch, hstop, true_or, if_true] <;> exact ⟨rfl, rfl, rfl, rfl, rfl, rfl⟩

section Issue
variable {s : State} {e op : Nat} {w : CrW} {legal : EngSt → CrW → Bool} {eff : EngSt → CrW → CrRes} {ws : List (CrDst × Nat)} {k A : Nat}

/-- One issue of an instruction whose results are plain. -/
theorem crStep_writes (h : s.issues e op w = true) (hm : movesNothing w = true) (hop : crListed op = true) (hl : legal (s.dev.eng e) w = true)
    (heff : eff (s.dev.eng e) w = { writes := ws }) (hplain : ∀ l ∈ ws, l.1.plain = true) :
    ∃ z, crStep op legal eff e none s.dev = s.dev.setEng e z ∧ (s.dev.eng e).MovesOn ((s.dev.eng e).puts ws) z := by
  have hstep := crStep_plain s e op legal eff w h hm hop hl (by rw [heff])
  simp only [State.issues, Bool.and_eq_true, beq_iff_eq, Option.isNone_iff_eq_none, Bool.not_eq_true'] at h
  obtain ⟨⟨⟨⟨⟨⟨⟨⟨-, hslot⟩, hrep⟩, hloop⟩, hstop⟩, -⟩, -⟩, -⟩, -⟩ := h
  exact ⟨_, hstep, heff ▸ EngSt.issued_plain op hplain hslot hrep hloop hstop⟩

/-- The state after a step that sets one engine, which moves on with new vectors and accumulators. -/
theorem CrKeeps_of_movesOn {v a : Option Nat} {y z : EngSt} (hz : (s.dev.eng e).MovesOn y z) (hv : ∀ k, v ≠ some k → y.vr k = (s.dev.eng e).vr k)
    (ha : ∀ k, a ≠ some k → y.ac k = (s.dev.eng e).ac k) : s.CrKeeps { s with dev := s.dev.setEng e z } e v a := by
  have hself : (s.dev.setEng e z).eng e = z := by simp
  exact
    { pc := (congrArg EngSt.pc hself).trans hz.pc
      vecs := fun k hk => by rw [hself, EngSt.vr, hz.v]; exact hv k hk
      accs := fun k hk => by rw [hself, EngSt.ac, hz.acc]; exact ha k hk
      ptrs := (congrArg EngSt.p hself).trans hz.ptrs
      memX := (congrArg EngSt.x hself).trans hz.memX
      memY := (congrArg EngSt.y hself).trans hz.memY
      clusters := rfl
      others := fun m hne => by simp [hne]
      regs := fun _ => rfl
      hbm := rfl
      time := rfl }

theorem EngSt.vr_put_v (x : EngSt) (j k v : Nat) : (x.put (.v k) v).vr j = if j = k then BitVec.ofNat 128 v else x.vr j := Tab.get_set ..

theorem EngSt.ac_put_acc (x : EngSt) (j k v : Nat) : (x.put (.acc k) v).ac j = if j = k then BitVec.ofNat 320 v else x.ac j := Tab.get_set ..

/-- Results that are status bits alone leave vectors and accumulators. -/
def CrDst.status : CrDst → Bool
  | .flags | .sticky | .aovOr => true
  | _ => false

theorem CrDst.plain_of_status {r : CrDst} (h : r.status = true) : r.plain = true := by
  cases r with
  | flags | sticky | aovOr => rfl
  | _ => cases h

theorem EngSt.puts_status (x : EngSt) (h : ∀ l ∈ ws, l.1.status = true) : (x.puts ws).v = x.v ∧ (x.puts ws).acc = x.acc := by
  induction ws generalizing x with
  | nil => exact ⟨rfl, rfl⟩
  | cons a ws ih =>
    have hone (r : CrDst) (hr : r.status = true) (v : Nat) : (x.put r v).v = x.v ∧ (x.put r v).acc = x.acc := by
      cases r with
      | flags | sticky | aovOr => exact ⟨rfl, rfl⟩
      | _ => cases hr
    obtain ⟨hv, ha⟩ := ih (x.put a.1 a.2) fun l hl => h l (List.mem_cons_of_mem _ hl)
    obtain ⟨hv1, ha1⟩ := hone a.1 (h a List.mem_cons_self) a.2
    exact ⟨hv.trans hv1, ha.trans ha1⟩

/-- An instruction whose results are one accumulator and status bits. -/
theorem crStep_acc (h : s.issues e op w = true) (hm : movesNothing w = true) (hop : crListed op = true) (hl : legal (s.dev.eng e) w = true)
    (heff : eff (s.dev.eng e) w = { writes := (.acc k, A) :: ws }) (hws : ∀ l ∈ ws, l.1.status = true) :
    s.CrKeeps { s with dev := crStep op legal eff e none s.dev } e none (some k)
      ∧ ((crStep op legal eff e none s.dev).eng e).ac k = BitVec.ofNat 320 A := by
  have hplain : ∀ l ∈ (CrDst.acc k, A) :: ws, l.1.plain = true :=
    List.forall_mem_cons.mpr ⟨rfl, fun l hl => CrDst.plain_of_status (hws l hl)⟩
  obtain ⟨z, hstep, hz⟩ := crStep_writes h hm hop hl heff hplain
  obtain ⟨hv, ha⟩ := ((s.dev.eng e).put (.acc k) A).puts_status hws
  have hac (j : Nat) : ((s.dev.eng e).puts ((.acc k, A) :: ws)).ac j = if j = k then BitVec.ofNat 320 A else (s.dev.eng e).ac j :=
    (congrArg (fun t : Tab (BitVec 320) => t.get (fun _ => 0) j) ha).trans ((s.dev.eng e).ac_put_acc j k A)
  rw [hstep]
  refine ⟨CrKeeps_of_movesOn hz (fun j _ => ?_) fun j hj => ?_, ?_⟩
  · exact congrArg (fun t : Tab Word128 => t.get (fun _ => 0) j) hv
  · rw [hac, if_neg fun he => hj (congrArg some he.symm)]
  · rw [Dev.eng_setEng, if_pos rfl, EngSt.ac, hz.acc]
    exact (hac k).trans (if_pos rfl)

/-- An instruction whose results are one vector and status bits. -/
theorem crStep_vec (h : s.issues e op w = true) (hm : movesNothing w = true) (hop : crListed op = true) (hl : legal (s.dev.eng e) w = true)
    (heff : eff (s.dev.eng e) w = { writes := (.v k, A) :: ws }) (hws : ∀ l ∈ ws, l.1.status = true) :
    s.CrKeeps { s with dev := crStep op legal eff e none s.dev } e (some k) none
      ∧ ((crStep op legal eff e none s.dev).eng e).vr k = BitVec.ofNat 128 A := by
  have hplain : ∀ l ∈ (CrDst.v k, A) :: ws, l.1.plain = true :=
    List.forall_mem_cons.mpr ⟨rfl, fun l hl => CrDst.plain_of_status (hws l hl)⟩
  obtain ⟨z, hstep, hz⟩ := crStep_writes h hm hop hl heff hplain
  obtain ⟨hv, ha⟩ := ((s.dev.eng e).put (.v k) A).puts_status hws
  have hvr (j : Nat) : ((s.dev.eng e).puts ((.v k, A) :: ws)).vr j = if j = k then BitVec.ofNat 128 A else (s.dev.eng e).vr j :=
    (congrArg (fun t : Tab Word128 => t.get (fun _ => 0) j) hv).trans ((s.dev.eng e).vr_put_v j k A)
  rw [hstep]
  refine ⟨CrKeeps_of_movesOn hz (fun j hj => ?_) fun j _ => ?_, ?_⟩
  · rw [hvr, if_neg fun he => hj (congrArg some he.symm)]
  · exact congrArg (fun t : Tab (BitVec 320) => t.get (fun _ => 0) j) ha
  · rw [Dev.eng_setEng, if_pos rfl, EngSt.vr, hz.v]
    exact (hvr k).trans (if_pos rfl)

end Issue

end Sys2Proof.Machine
end

section
/-! SUPPORT. The accumulator instructions of Cratre, lane by lane. -/
namespace Sys2Proof.Machine

/-! ### Accumulation and replacement (R310) -/

/-- AOV of a list of lanes: a write where one saturated. -/
def aovWrites (k : Nat) (res : List (Int × Bool)) : List (CrDst × Nat) :=
  let aov := (List.range res.length).foldl (fun m l => if (nth res l (0, false)).2 then m + 2 ^ (8 * k + l) else m) 0
  if aov = 0 then [] else [(.aovOr, aov)]

theorem status_aovWrites (k : Nat) (res : List (Int × Bool)) : ∀ l ∈ aovWrites k res, l.1.status = true := by
  unfold aovWrites
  dsimp only
  split
  · exact fun _ hl => absurd hl List.not_mem_nil
  · exact List.forall_mem_singleton.mpr rfl

/-- What a lane holds after accumulation of a term, and whether it saturated. -/
def EngSt.accStep (x : EngSt) (k : Nat) (terms : List Int) (l : Nat) : Int × Bool :=
  let a := nth (accLanes (x.acm k) (x.ac k)) l 0
  if bit x.aov (8 * k + l) then (a, false)
  else (satS (accWidth (x.acm k)) (a + nth terms l 0), satS (accWidth (x.acm k)) (a + nth terms l 0) ≠ a + nth terms l 0)

/-- What the statement says of a lane after accumulation of the term `T`. -/
def EngSt.accSum (x : EngSt) (k : Nat) (T : Nat → Int) (l : Nat) : Int :=
  if bit x.aov (8 * k + l) then accLane (x.acm k) (x.ac k) l else satS (accWidth (x.acm k)) (accLane (x.acm k) (x.ac k) l + T l)

theorem accumulate_eq (x : EngSt) (k : Nat) (terms : List Int) :
    accumulate x k terms = (.acc k, ofAccLanes (x.acm k) (((List.range (accCount (x.acm k))).map (x.accStep k terms)).map fun r => r.1))
      :: aovWrites k ((List.range (accCount (x.acm k))).map (x.accStep k terms)) := by
  have hlen : (accLanes (x.acm k) (x.ac k)).length = accCount (x.acm k) := by simp [accLanes_eq]
  unfold accumulate
  dsimp only
  rw [hlen]
  rfl

theorem overwrite_eq (mode k : Nat) (vals : List Int) :
    overwrite mode k vals = (.acc k, ofAccLanes mode ((vals.map fun s => (satS (accWidth mode) s, decide (satS (accWidth mode) s ≠ s))).map fun r => r.1))
      :: aovWrites k (vals.map fun s => (satS (accWidth mode) s, decide (satS (accWidth mode) s ≠ s))) := rfl

theorem accStep_fst {x : EngSt} {k l : Nat} {terms : List Int} {T : Nat → Int} (hT : nth terms l 0 = T l) (hl : l < accCount (x.acm k)) :
    (x.accStep k terms l).1 = x.accSum k T l := by
  unfold EngSt.accStep EngSt.accSum
  rw [nth_accLanes _ hl, hT]
  split <;> rfl

theorem accSum_fits (x : EngSt) (k : Nat) (T : Nat → Int) (l : Nat) : fits (accWidth (x.acm k)) (x.accSum k T l) := by
  unfold EngSt.accSum
  split
  · exact sfld_fits (accWidth_pos _) _ _
  · exact satS_fits _ _

section Acc
variable {s : State} {e op : Nat} {w : CrW} {legal : EngSt → CrW → Bool} {eff : EngSt → CrW → CrRes} {k : Nat}

/-- An instruction that accumulates a term into each lane (R310). -/
theorem crStep_accumulate (h : s.issues e op w = true) (hm : movesNothing w = true) (hop : crListed op = true) (hl : legal (s.dev.eng e) w = true)
    {terms : List Int} (heff : eff (s.dev.eng e) w = { writes := accumulate (s.dev.eng e) k terms }) {T : Nat → Int}
    (hT : ∀ l, l < accCount ((s.dev.eng e).acm k) → nth terms l 0 = T l) :
    s.CrKeeps { s with dev := crStep op legal eff e none s.dev } e none (some k)
      ∧ ∀ l, l < accCount ((s.dev.eng e).acm k) →
        accLane ((s.dev.eng e).acm k) (((crStep op legal eff e none s.dev).eng e).ac k) l = (s.dev.eng e).accSum k T l := by
  rw [accumulate_eq] at heff
  obtain ⟨hkeeps, hac⟩ := crStep_acc h hm hop hl heff (status_aovWrites k _)
  refine ⟨hkeeps, fun l hlane => ?_⟩
  have hnth : nth (((List.range (accCount ((s.dev.eng e).acm k))).map ((s.dev.eng e).accStep k terms)).map fun r => r.1) l 0 = (s.dev.eng e).accSum k T l := by
    rw [List.map_map, nth_map_range _ hlane]
    exact accStep_fst (hT l hlane) hlane
  rw [hac, accLane_ofAccLanes_of_fits (by simp) hlane (hnth ▸ accSum_fits _ _ _ _), hnth]

/-- An instruction that replaces each lane by a saturated value (R310). -/
theorem crStep_overwrite (h : s.issues e op w = true) (hm : movesNothing w = true) (hop : crListed op = true) (hl : legal (s.dev.eng e) w = true)
    {mode : Nat} {vals : List Int} (heff : eff (s.dev.eng e) w = { writes := overwrite mode k vals }) (hlen : vals.length = accCount mode) :
    s.CrKeeps { s with dev := crStep op legal eff e none s.dev } e none (some k)
      ∧ ∀ l, l < accCount mode → accLane mode (((crStep op legal eff e none s.dev).eng e).ac k) l = satS (accWidth mode) (nth vals l 0) := by
  rw [overwrite_eq] at heff
  obtain ⟨hkeeps, hac⟩ := crStep_acc h hm hop hl heff (status_aovWrites k _)
  refine ⟨hkeeps, fun l hlane => ?_⟩
  have hnth : nth ((vals.map fun s => (satS (accWidth mode) s, decide (satS (accWidth mode) s ≠ s))).map fun r => r.1) l 0 = satS (accWidth mode) (nth vals l 0) := by
    rw [List.map_map]
    exact nth_map _ (hlen ▸ hlane) 0 0
  rw [hac, accLane_ofAccLanes_of_fits (by simp [hlen]) hlane (hnth ▸ satS_fits _ _), hnth]

end Acc

/-! ### MAC, MACJ, MPY and MPYJ (R351) -/

theorem wdMatches_of_mulLegal {conj : Bool} {x : EngSt} {w : CrW} (h : mulLegal conj x w = true) : wdMatches x (crAccD w) w = true := by
  simp only [mulLegal, Bool.and_eq_true] at h
  exact h.1.2

section Multiply
variable {s : State} {e op : Nat} {w : CrW} {conj : Bool}

/-- A multiply that accumulates. -/
theorem crStep_mac (h : s.issues e op w = true) (hm : movesNothing w = true) (hop : crListed op = true) (hl : mulLegal conj (s.dev.eng e) w = true) :
    let f : EngSt → CrW → CrRes := fun x w => { writes := accumulate x (crAccD w) (crProducts conj x w) }
    s.CrKeeps { s with dev := crStep op (mulLegal conj) f e none s.dev } e none (some (crAccD w))
      ∧ ∀ l, l < accCount ((s.dev.eng e).acm (crAccD w)) →
        accLane ((s.dev.eng e).acm (crAccD w)) (((crStep op (mulLegal conj) f e none s.dev).eng e).ac (crAccD w)) l
          = (s.dev.eng e).accSum (crAccD w) (fun l => if crAux w % 2 = 1
              then -crTerm ((s.dev.eng e).acm (crAccD w)) conj (crWidth w) ((s.dev.eng e).vr (crA w)) ((s.dev.eng e).vr (crB w)) l
              else crTerm ((s.dev.eng e).acm (crAccD w)) conj (crWidth w) ((s.dev.eng e).vr (crA w)) ((s.dev.eng e).vr (crB w)) l) l :=
  crStep_accumulate h hm hop hl rfl fun _ hlane => nth_crProducts conj (wdMatches_of_mulLegal hl) hlane

/-- A multiply that replaces the accumulator. -/
theorem crStep_mpy (h : s.issues e op w = true) (hm : movesNothing w = true) (hop : crListed op = true) (hl : mulLegal conj (s.dev.eng e) w = true) :
    let f : EngSt → CrW → CrRes := fun x w => { writes := overwrite (x.acm (crAccD w)) (crAccD w) (crProducts conj x w) }
    s.CrKeeps { s with dev := crStep op (mulLegal conj) f e none s.dev } e none (some (crAccD w))
      ∧ ∀ l, l < accCount ((s.dev.eng e).acm (crAccD w)) →
        accLane ((s.dev.eng e).acm (crAccD w)) (((crStep op (mulLegal conj) f e none s.dev).eng e).ac (crAccD w)) l
          = satS (accWidth ((s.dev.eng e).acm (crAccD w))) (if crAux w % 2 = 1
              then -crTerm ((s.dev.eng e).acm (crAccD w)) conj (crWidth w) ((s.dev.eng e).vr (crA w)) ((s.dev.eng e).vr (crB w)) l
              else crTerm ((s.dev.eng e).acm (crAccD w)) conj (crWidth w) ((s.dev.eng e).vr (crA w)) ((s.dev.eng e).vr (crB w)) l) := by
  have hwd := wdMatches_of_mulLegal hl
  obtain ⟨hkeeps, hlanes⟩ := crStep_overwrite (eff := fun x w => { writes := overwrite (x.acm (crAccD w)) (crAccD w) (crProducts conj x w) })
    (legal := mulLegal conj) h hm hop hl rfl (length_crProducts conj hwd)
  exact ⟨hkeeps, fun l hlane => (hlanes l hlane).trans (congrArg (satS _) (nth_crProducts conj hwd hlane))⟩

end Multiply

/-! ### ADDA and LDA (R352) -/

/-- A lane of Va as AUX[0] extends it. -/
def extLane (x : EngSt) (w : CrW) (l : Nat) : Int :=
  if crAux w % 2 = 1 then ((wrapU (crWidth w) (lane (crWidth w) (x.vr (crA w)) l) : Nat) : Int) else lane (crWidth w) (x.vr (crA w)) l

theorem nth_extLanes (x : EngSt) {w : CrW} {l : Nat} (h : l < 128 / crWidth w) : nth (extLanes x w) l 0 = extLane x w l := by
  unfold extLanes
  dsimp only
  rw [nth_map _ (by rw [length_lanes]; exact h) 0, nth_lanes _ h]
  rfl

theorem fits_mono {a b : Nat} (h : a ≤ b) {v : Int} (hv : fits a v) : fits b v := by
  have hpow : (2 : Int) ^ (a - 1) ≤ 2 ^ (b - 1) := pow_le_pow_right₀ (by decide) (Nat.sub_le_sub_right h 1)
  unfold fits at *
  omega

theorem fits_natCast {a b v : Nat} (h : a < b) (hv : v < 2 ^ a) : fits b (v : Int) := by
  have hpow : 2 ^ a ≤ 2 ^ (b - 1) := Nat.pow_le_pow_right (by decide) (by omega)
  have hcast : ((2 ^ (b - 1) : Nat) : Int) = 2 ^ (b - 1) := by push_cast; rfl
  unfold fits
  omega

theorem crWidth_pos (w : CrW) : 0 < crWidth w := by unfold crWidth; split <;> decide

/-- An extended lane fits an accumulator of its mode. -/
theorem extLane_fits {x : EngSt} {w : CrW} {k : Nat} (hwd : wdMatches x k w = true) (l : Nat) : fits (accWidth (x.acm k)) (extLane x w l) := by
  have hlt := crWidth_lt_accWidth hwd
  unfold extLane
  split
  · exact fits_natCast hlt (wrapU_lt _ _)
  · exact fits_mono hlt.le (sfld_fits (crWidth_pos w) _ _)

/-! ### ASUM and ADDX (R352) -/

theorem sumLanes_concat (l : List Int) (v : Int) (par : Option Nat) :
    sumLanes (l ++ [v]) par = match par with
      | some p => if l.length % 2 = p then sumLanes l par + v else sumLanes l par
      | none => sumLanes l par + v := by
  cases par <;> simp [sumLanes, List.zipIdx_append]

theorem sumLanes_all (f : Nat → Int) (n : Nat) : sumLanes ((List.range n).map f) none = ((List.range n).map f).sum := by
  induction n with
  | zero => rfl
  | succ n ih => rw [List.range_succ, List.map_append, List.map_singleton, sumLanes_concat, List.sum_append, List.sum_singleton, ← ih]

theorem sumLanes_parity (f : Nat → Int) (n p : Nat) :
    sumLanes ((List.range n).map f) (some p) = (((List.range n).filter fun l => l % 2 = p).map f).sum := by
  induction n with
  | zero => rfl
  | succ n ih =>
    rw [List.range_succ, List.map_append, List.map_singleton, sumLanes_concat, List.filter_append, List.map_append, List.sum_append, ← ih]
    simp only [List.length_map, List.length_range]
    split <;> rename_i hp <;> simp [hp]

/-- The four sums of ASUM: of all lanes, or of the real and of the imaginary ones. -/
def asumVals (x : EngSt) (w : CrW) : List Int :=
  let l := accLanes (x.acm (crAccA w)) (x.ac (crAccA w))
  if x.acm (crAccA w) < 2 then [sumLanes l none, 0, 0, 0] else [sumLanes l (some 0), sumLanes l (some 1), 0, 0]

theorem crAsumEff_eq (x : EngSt) (w : CrW) : crAsumEff x w = { writes := overwrite 1 (crAccD w) (asumVals x w) } := rfl

theorem length_asumVals (x : EngSt) (w : CrW) : (asumVals x w).length = 4 := by
  unfold asumVals
  dsimp only
  split <;> rfl

/-- Piece l of an accumulator for ADDX: a lane of the chosen half, or the low or high part of a wide lane. -/
def addxPiece (x : EngSt) (w : CrW) (l : Nat) : Int :=
  let a := x.ac (crAccA w)
  let m := x.acm (crAccA w)
  if m % 2 = 0 then accLane m a (4 * crAux w + l) else if crAux w = 0 then accLane m a l % 2 ^ 32 else accLane m a l / 2 ^ 32

/-- The terms ADDX adds. -/
def addxTerms (x : EngSt) (w : CrW) : List Int :=
  let l := accLanes (x.acm (crAccA w)) (x.ac (crAccA w))
  if x.acm (crAccA w) % 2 = 0 then (l.drop (4 * (crAux w % 2))).take 4 else l.map fun v => if crAux w % 2 = 0 then v % 2 ^ 32 else v / 2 ^ 32

theorem crAddxEff_eq (x : EngSt) (w : CrW) : crAddxEff x w = { writes := accumulate x (crAccD w) (addxTerms x w) } := rfl

/-- The half or part that ADDX names is 0 or 1. -/
theorem crAux_lt_two {wd0 wd1 : Bool} {dU aU : CrUse} {m : Nat} {w : CrW} (h : crLegalA wd0 wd1 dU aU m 1 w = true) : crAux w < 2 := by
  simp only [crLegalA, Bool.and_eq_true, beq_iff_eq] at h
  obtain ⟨⟨-, haux⟩, -⟩ := h
  exact haux ▸ Nat.lt_succ_of_le Nat.and_le_right

theorem accCount_of_even {mode : Nat} (h : mode % 2 = 0) : accCount mode = 8 := by simp [accCount, accWidth, h]

theorem accCount_of_odd {mode : Nat} (h : mode % 2 ≠ 0) : accCount mode = 4 := by simp [accCount, accWidth, h]

theorem nth_addxTerms {x : EngSt} {w : CrW} (haux : crAux w < 2) {l : Nat} (hl : l < 4) : nth (addxTerms x w) l 0 = addxPiece x w l := by
  have hmod : crAux w % 2 = crAux w := Nat.mod_eq_of_lt haux
  unfold addxTerms addxPiece
  dsimp only
  rw [hmod]
  split
  next heven =>
    have hlane : 4 * crAux w + l < accCount (x.acm (crAccA w)) := by rw [accCount_of_even heven]; omega
    rw [← nth_accLanes _ hlane]
    simp [nth, hl]
  next hodd =>
    have hlane : l < accCount (x.acm (crAccA w)) := by rw [accCount_of_odd hodd]; exact hl
    rw [nth_map _ (by simpa [accLanes_eq] using hlane) 0, nth_accLanes _ hlane]

/-! ### The commands, one by one -/

section Commands
variable (s : State) (e : Fin 128) (w : CrW)

theorem exec_crAdda (h : s.issues e 0x24 w = true) (hm : movesNothing w = true) (hl : crLegalA true true .acc .vec 0 1 w = true)
    (hwd : wdMatches (s.dev.eng e) (crAccD w) w = true) :
    ∃ t, exec (.crAdda e none) s = .next t ∧ s.CrKeeps t e none (some (crAccD w))
      ∧ ∀ l, l < accCount ((s.dev.eng e).acm (crAccD w)) →
        accLane ((s.dev.eng e).acm (crAccD w)) ((t.dev.eng e).ac (crAccD w)) l = (s.dev.eng e).accSum (crAccD w) (extLane (s.dev.eng e) w) l :=
  ⟨_, rfl, crStep_accumulate h hm rfl (by rw [hl, hwd]; rfl) rfl fun _ hlane => nth_extLanes _ (accCount_of_wdMatches hwd ▸ hlane)⟩

theorem exec_crLda (h : s.issues e 0x25 w = true) (hm : movesNothing w = true) (hl : crLegalA true true .acc .vec 0 1 w = true)
    (hwd : wdMatches (s.dev.eng e) (crAccD w) w = true) :
    ∃ t, exec (.crLda e none) s = .next t ∧ s.CrKeeps t e none (some (crAccD w))
      ∧ ∀ l, l < accCount ((s.dev.eng e).acm (crAccD w)) →
        accLane ((s.dev.eng e).acm (crAccD w)) ((t.dev.eng e).ac (crAccD w)) l = extLane (s.dev.eng e) w l := by
  obtain ⟨hkeeps, hac⟩ := crStep_acc (eff := crLdaEff) (ws := [])
    (legal := fun x w => crLegalA true true .acc .vec 0 1 w && wdMatches x (crAccD w) w) h hm rfl (by rw [hl, hwd]; rfl) rfl (by simp)
  refine ⟨_, rfl, hkeeps, fun l hlane => ?_⟩
  have hlen : (extLanes (s.dev.eng e) w).length = accCount ((s.dev.eng e).acm (crAccD w)) := by
    rw [accCount_of_wdMatches hwd, extLanes, List.length_map, length_lanes]
  have hnth : nth (extLanes (s.dev.eng e) w) l 0 = extLane (s.dev.eng e) w l := nth_extLanes _ (accCount_of_wdMatches hwd ▸ hlane)
  exact (congrArg (accLane _ · l) hac).trans ((accLane_ofAccLanes_of_fits hlen hlane (hnth ▸ extLane_fits hwd l)).trans hnth)

theorem exec_crClr (h : s.issues e 0x26 w = true) (hm : movesNothing w = true) (hl : crLegalA true false .acc .none 0 0 w = true) :
    ∃ t, exec (.crClr e none) s = .next t ∧ s.CrKeeps t e none (some (crAccD w)) ∧ (t.dev.eng e).ac (crAccD w) = 0 :=
  ⟨_, rfl, crStep_acc (eff := crClrEff) (ws := []) h hm rfl hl rfl (by simp)⟩

theorem exec_crAsum (h : s.issues e 0x27 w = true) (hm : movesNothing w = true) (hl : crLegalA true false .acc .acc 0 0 w = true)
    (hmode : (s.dev.eng e).acm (crAccD w) = 1) :
    ∃ t, exec (.crAsum e none) s = .next t ∧ s.CrKeeps t e none (some (crAccD w))
      ∧ accLane 1 ((t.dev.eng e).ac (crAccD w)) 0 = satS 80 (if (s.dev.eng e).acm (crAccA w) < 2
          then ((List.range (accCount ((s.dev.eng e).acm (crAccA w)))).map fun l => accLane ((s.dev.eng e).acm (crAccA w)) ((s.dev.eng e).ac (crAccA w)) l).sum
          else (((List.range (accCount ((s.dev.eng e).acm (crAccA w)))).filter fun l => l % 2 = 0).map
            fun l => accLane ((s.dev.eng e).acm (crAccA w)) ((s.dev.eng e).ac (crAccA w)) l).sum)
      ∧ accLane 1 ((t.dev.eng e).ac (crAccD w)) 1 = (if (s.dev.eng e).acm (crAccA w) < 2 then 0
          else satS 80 (((List.range (accCount ((s.dev.eng e).acm (crAccA w)))).filter fun l => l % 2 = 1).map
            fun l => accLane ((s.dev.eng e).acm (crAccA w)) ((s.dev.eng e).ac (crAccA w)) l).sum)
      ∧ accLane 1 ((t.dev.eng e).ac (crAccD w)) 2 = 0 ∧ accLane 1 ((t.dev.eng e).ac (crAccD w)) 3 = 0 := by
  obtain ⟨hkeeps, hlanes⟩ := crStep_overwrite (eff := crAsumEff) (legal := fun x w => crLegalA true false .acc .acc 0 0 w && x.acm (crAccD w) == 1)
    h hm rfl (by rw [hl, hmode]; rfl) (crAsumEff_eq _ w) (length_asumVals _ w)
  refine ⟨_, rfl, hkeeps, (hlanes 0 (by decide)).trans ?_, (hlanes 1 (by decide)).trans ?_, (hlanes 2 (by decide)).trans ?_, (hlanes 3 (by decide)).trans ?_⟩
  all_goals
    simp only [asumVals, accLanes_eq, sumLanes_all, sumLanes_parity]
    split <;> rfl

theorem exec_crAddx (h : s.issues e 0x28 w = true) (hm : movesNothing w = true) (hl : crLegalA true false .acc .acc 0 1 w = true)
    (hmode : (s.dev.eng e).acm (crAccD w) = 1) :
    ∃ t, exec (.crAddx e none) s = .next t ∧ s.CrKeeps t e none (some (crAccD w))
      ∧ ∀ l, l < 4 → accLane 1 ((t.dev.eng e).ac (crAccD w)) l
        = (if bit (s.dev.eng e).aov (8 * crAccD w + l) then accLane 1 ((s.dev.eng e).ac (crAccD w)) l
           else satS 80 (accLane 1 ((s.dev.eng e).ac (crAccD w)) l + addxPiece (s.dev.eng e) w l)) := by
  have hcount : accCount ((s.dev.eng e).acm (crAccD w)) = 4 := by rw [hmode]; rfl
  obtain ⟨hkeeps, hlanes⟩ := crStep_accumulate (eff := crAddxEff)
    (legal := fun x w => crLegalA true false .acc .acc 0 1 w && x.acm (crAccD w) == 1) h hm rfl (by rw [hl, hmode]; rfl) (crAddxEff_eq _ w)
    fun l hlane => nth_addxTerms (crAux_lt_two hl) (hcount ▸ hlane)
  unfold EngSt.accSum at hlanes
  rw [hmode] at hlanes
  exact ⟨_, rfl, hkeeps, hlanes⟩

theorem exec_crRnd (h : s.issues e 0x29 w = true) (hm : movesNothing w = true) (hl : crLegalA true true .vec .acc 3 31 w = true)
    (hwd : wdMatches (s.dev.eng e) (crAccA w) w = true) :
    ∃ t, exec (.crRnd e none) s = .next t ∧ s.CrKeeps t e (some (crD w)) none
      ∧ ∀ l, l < 128 / crWidth w → lane (crWidth w) ((t.dev.eng e).vr (crD w)) l
        = satS (crWidth w) (rshr (accLane ((s.dev.eng e).acm (crAccA w)) ((s.dev.eng e).ac (crAccA w)) l) (32 * crB w + crAux w)) := by
  have hsat (l : List (Int × Bool)) : ∀ r ∈ satBit l, r.1.status = true := by
    unfold satBit
    split
    · exact List.forall_mem_singleton.mpr rfl
    · exact fun _ hr => absurd hr List.not_mem_nil
  obtain ⟨hkeeps, hvr⟩ := crStep_vec (eff := crRndEff)
    (legal := fun x w => crLegalA true true .vec .acc 3 31 w && wdMatches x (crAccA w) w) h hm rfl (by rw [hl, hwd]; rfl) rfl (hsat _)
  refine ⟨_, rfl, hkeeps, fun l hlane => (congrArg (lane _ · l) hvr).trans ?_⟩
  have hlen : (accLanes ((s.dev.eng e).acm (crAccA w)) ((s.dev.eng e).ac (crAccA w))).length = 128 / crWidth w := by
    simp [accLanes_eq, accCount_of_wdMatches hwd]
  rw [lane_ofLanes (by simp [hlen]) hlane, List.map_map, nth_map _ (hlen ▸ hlane) 0, nth_accLanes _ (accCount_of_wdMatches hwd ▸ hlane)]
  exact toS_wrapU_of_fits (crWidth_pos w) (satS_fits _ _)

theorem exec_crExa (h : s.issues e 0x2A w = true) (hm : movesNothing w = true) (hl : crLegalA true true .vec .acc 0 3 w = true)
    (hwd : wdMatches (s.dev.eng e) (crAccA w) w = true) (haux : crAux w < 3) :
    ∃ t, exec (.crExa e none) s = .next t ∧ s.CrKeeps t e (some (crD w)) none
      ∧ ∀ l, l < 128 / crWidth w → lane (crWidth w) ((t.dev.eng e).vr (crD w)) l
        = toS (crWidth w) (wrapU (crWidth w)
            (accLane ((s.dev.eng e).acm (crAccA w)) ((s.dev.eng e).ac (crAccA w)) l / 2 ^ (crWidth w * crAux w))) := by
  obtain ⟨hkeeps, hvr⟩ := crStep_vec (eff := crExaEff) (ws := [])
    (legal := fun x w => crLegalA true true .vec .acc 0 3 w && wdMatches x (crAccA w) w && decide (crAux w < 3)) h hm rfl
    (by rw [hl, hwd, decide_eq_true haux]; rfl) rfl (by simp)
  refine ⟨_, rfl, hkeeps, fun l hlane => (congrArg (lane _ · l) hvr).trans ?_⟩
  have hlen : (accLanes ((s.dev.eng e).acm (crAccA w)) ((s.dev.eng e).ac (crAccA w))).length = 128 / crWidth w := by
    simp [accLanes_eq, accCount_of_wdMatches hwd]
  rw [lane_ofLanes (by simp [hlen]) hlane, nth_map _ (hlen ▸ hlane) 0, nth_accLanes _ (accCount_of_wdMatches hwd ▸ hlane),
    Nat.mod_eq_of_lt (haux.trans (by decide))]

end Commands

end Sys2Proof.Machine

namespace Sys2Proof
open Sys2Proof.Machine

/-- Settles O33, command by command: the results are lanes packed in order, and each lane packed comes back. -/
theorem cratreMultiply : Obligations.CratreMultiply := by
  unfold Obligations.CratreMultiply
  refine ⟨fun s e w h hm hl => ⟨_, rfl, crStep_mac h hm rfl hl⟩, fun s e w h hm hl => ⟨_, rfl, crStep_mac h hm rfl hl⟩,
    fun s e w h hm hl => ⟨_, rfl, crStep_mpy h hm rfl hl⟩, fun s e w h hm hl => ⟨_, rfl, crStep_mpy h hm rfl hl⟩,
    exec_crAdda, exec_crLda, exec_crClr, exec_crAsum, exec_crAddx, exec_crRnd, exec_crExa⟩

end Sys2Proof
end

section
/-! SUPPORT. What the shared operations leave of engines and clusters, and the entry of an engine into a cause. -/
namespace Sys2Proof.Machine

/-! ### Engines are their own table -/

theorem Dev.eng_congr {d e : Dev} (h : e.engs = d.engs) (n : Nat) : e.eng n = d.eng n := by rw [Dev.eng, Dev.eng, h]

theorem Dev.eng_setEng_self (d : Dev) (n : Nat) (x : EngSt) : (d.setEng n x).eng n = x := by simp

theorem Dev.eng_setEng_ne (d : Dev) {m n : Nat} (x : EngSt) (h : m ≠ n) : (d.setEng n x).eng m = d.eng m := by simp [h]

/-! ### Entry into a cause (R316) -/

/-- An engine once it has entered a cause. -/
def EngSt.entered (x : EngSt) (k : Nat) : EngSt :=
  let y := x.settle
  { y with
    state := 1, cause := k, ra := y.pc, ssr := y.sr, sr := (y.sr &&& 0x7FFFF7FF) ||| 0x40000000, pc := y.vbase + 8 * k
    pend := y.pend - 2 ^ k, since := none, testing := false }

theorem EngSt.settle_of_nil {x : EngSt} (h : x.loads = []) : x.settle = { x with loads := [], stale := [] } := by rw [EngSt.settle, h]; rfl

/-- An entry clears IE. -/
theorem bit_sr_entered (x : EngSt) (k : Nat) : bit (x.entered k).sr 31 = false := by
  show bit ((x.settle.sr &&& 0x7FFFF7FF) ||| 0x40000000) 31 = false
  rw [bit_or, bit_and, show bit (0x7FFFF7FF : Word) 31 = false by decide, show bit (0x40000000 : Word) 31 = false by decide, Bool.and_false, Bool.false_or]

/-- An entry notes its delay, sets the engine and counts. -/
theorem Dev.engEnter_eq (d : Dev) (n k : Nat) : ∃ e : Dev, e.engs = d.engs ∧ (∀ j, j ≠ Reg.ENG_MAXDELAY (n / 16) (n % 16) → e.rd j = d.rd j)
    ∧ d.engEnter n k = (e.setEng n ((d.eng n).entered k)).add (Reg.ENG_ENTRIES (n / 16) (n % 16)) 1 := by
  unfold Dev.engEnter
  dsimp only
  split
  · split
    · exact ⟨d.wrN (Reg.ENG_MAXDELAY (n / 16) (n % 16)) _, rfl, fun j hj => d.rd_wrN_ne _ hj, rfl⟩
    · exact ⟨d, rfl, fun _ _ => rfl, rfl⟩
  · exact ⟨d, rfl, fun _ _ => rfl, rfl⟩

theorem Dev.eng_engEnter (d : Dev) (n k m : Nat) : (d.engEnter n k).eng m = if m = n then (d.eng n).entered k else d.eng m := by
  obtain ⟨e, hengs, -, heq⟩ := d.engEnter_eq n k
  rw [heq, ← Dev.eng_congr hengs m]
  exact e.eng_setEng m n ((d.eng n).entered k)

theorem Dev.n_engEnter (d : Dev) (n k : Nat) :
    (d.engEnter n k).n (Reg.ENG_ENTRIES (n / 16) (n % 16)) = (d.n (Reg.ENG_ENTRIES (n / 16) (n % 16)) + 1) % 2 ^ 32 := by
  obtain ⟨e, -, hrd, heq⟩ := d.engEnter_eq n k
  have hne : Reg.ENG_ENTRIES (n / 16) (n % 16) ≠ Reg.ENG_MAXDELAY (n / 16) (n % 16) := by unfold Reg.ENG_ENTRIES Reg.ENG_MAXDELAY; omega
  rw [heq, Dev.n_add_self, Dev.setEng_n, Dev.n_congr (hrd _ hne)]

theorem eventEntry_of_due {d : Dev} {n k : Nat} (hrun : (d.eng n).state = 1) (hdue : (d.eng n).entryDue = some k) : eventEntry n d = d.engEnter n k := by
  simp [eventEntry, hrun, hdue]

theorem waitResume_of_masked {d : Dev} {n k : Nat} (hwait : (d.eng n).state = 2) (hready : (d.eng n).ready = some k) (hie : bit (d.eng n).sr 31 = false) :
    waitResume n d = d.setEng n { d.eng n with state := 1, testing := false } := by
  simp [waitResume, hwait, hready, hie]

theorem waitResume_of_enabled {d : Dev} {n k : Nat} (hwait : (d.eng n).state = 2) (hready : (d.eng n).ready = some k) (hie : bit (d.eng n).sr 31 = true) :
    waitResume n d = d.engEnter n k := by
  simp [waitResume, hwait, hready, hie]

theorem exec_eventEntry (s : State) (e : Fin 128) (k : Nat) (hrun : (s.dev.eng e).state = 1) (hdue : (s.dev.eng e).entryDue = some k)
    (hloads : (s.dev.eng e).loads = []) :
    ∃ t, exec (.eventEntry e) s = .next t ∧ (t.dev.eng e).pc = (s.dev.eng e).vbase + 8 * k ∧ (t.dev.eng e).ra = (s.dev.eng e).pc
      ∧ (t.dev.eng e).ssr = (s.dev.eng e).sr ∧ bit (t.dev.eng e).sr 31 = false ∧ (t.dev.eng e).cause = k
      ∧ t.dev.n (Reg.ENG_ENTRIES (e / 16) (e % 16)) = (s.dev.n (Reg.ENG_ENTRIES (e / 16) (e % 16)) + 1) % 2 ^ 32
      ∧ ∀ m, m ≠ e.val → t.dev.eng m = s.dev.eng m := by
  refine ⟨_, next_congr (eventEntry_of_due hrun hdue), ?_⟩
  have hself : (s.dev.engEnter e k).eng e = (s.dev.eng e).entered k := (s.dev.eng_engEnter e k e).trans (if_pos rfl)
  have hsr := bit_sr_entered (s.dev.eng e) k
  refine ⟨?_, ?_, ?_, hself ▸ hsr, congrArg EngSt.cause hself, s.dev.n_engEnter e k, fun m hm => (s.dev.eng_engEnter e k m).trans (if_neg hm)⟩
  all_goals rw [hself, EngSt.entered, EngSt.settle_of_nil hloads]

theorem exec_waitResume_masked (s : State) (e : Fin 128) (k : Nat) (hwait : (s.dev.eng e).state = 2) (hready : (s.dev.eng e).ready = some k)
    (hie : bit (s.dev.eng e).sr 31 = false) :
    ∃ t, exec (.waitResume e) s = .next t ∧ t.dev.eng e = { s.dev.eng e with state := 1, testing := false } ∧ ∀ j, t.dev.rd j = s.dev.rd j :=
  ⟨_, next_congr (waitResume_of_masked hwait hready hie), s.dev.eng_setEng_self e _, fun _ => rfl⟩

theorem exec_waitResume_enabled (s : State) (e : Fin 128) (k : Nat) (hwait : (s.dev.eng e).state = 2) (hready : (s.dev.eng e).ready = some k)
    (hie : bit (s.dev.eng e).sr 31 = true) (hloads : (s.dev.eng e).loads = []) :
    ∃ t, exec (.waitResume e) s = .next t ∧ (t.dev.eng e).state = 1 ∧ (t.dev.eng e).pc = (s.dev.eng e).vbase + 8 * k
      ∧ (t.dev.eng e).ra = (s.dev.eng e).pc := by
  refine ⟨_, next_congr (waitResume_of_enabled hwait hready hie), ?_⟩
  have hself : (s.dev.engEnter e k).eng e = (s.dev.eng e).entered k := (s.dev.eng_engEnter e k e).trans (if_pos rfl)
  refine ⟨congrArg EngSt.state hself, ?_, ?_⟩
  all_goals rw [hself, EngSt.entered, EngSt.settle_of_nil hloads]

/-! ### Commands to an engine (R329, R334) -/

section Commands
variable (s : State) (i : Ini) (c : Fin 8) (e : Fin 16)

/-- At a boundary a running engine stops at once. -/
theorem state_tryStop_of_halt {x : EngSt} (hslot : x.slot = none) (hrep : x.rep = none) (hstop : x.stop = 1) : x.tryStop.state = 3 := by
  simp [EngSt.tryStop, EngSt.boundary, hslot, hrep, hstop]

theorem exec_engHaltCmd (h : s.reaches i (Reg.CL_CMD c) .write = true) (hrun : (s.dev.eng (16 * c + e)).state = 1)
    (hstop : (s.dev.eng (16 * c + e)).stop = 0) (hslot : (s.dev.eng (16 * c + e)).slot = none) (hrep : (s.dev.eng (16 * c + e)).rep = none) :
    ∃ t, exec (.engHaltCmd i c e) s = .next t ∧ (t.dev.eng (16 * c + e)).state = 3 ∧ (∀ m, m ≠ 16 * c.val + e.val → t.dev.eng m = s.dev.eng m)
      ∧ ∀ j, t.dev.rd j = s.dev.rd j := by
  have hhalt : engHalt c e (s.dev.reached i 0)
      = (s.dev.reached i 0).setEng (16 * c + e) ({ s.dev.eng (16 * c + e) with stop := max 1 (s.dev.eng (16 * c + e)).stop }).tryStop := if_pos hrun
  refine ⟨_, next_congr ((onWrite_of_reaches s i _ _ h).trans hhalt), ?_, fun m hm => Dev.eng_setEng_ne _ _ hm, fun _ => rfl⟩
  exact (congrArg EngSt.state (Dev.eng_setEng_self _ _ _)).trans (state_tryStop_of_halt hslot hrep (by rw [hstop]; rfl))

theorem exec_engResumeCmd (h : s.reaches i (Reg.CL_CMD c) .write = true) (hhalted : (s.dev.eng (16 * c + e)).state = 3) :
    ∃ t, exec (.engResumeCmd i c e) s = .next t ∧ t.dev.eng (16 * c + e) = { s.dev.eng (16 * c + e) with state := 1 } ∧ ∀ j, t.dev.rd j = s.dev.rd j := by
  have hres : engResume c e (s.dev.reached i 0) = (s.dev.reached i 0).setEng (16 * c + e) { s.dev.eng (16 * c + e) with state := 1 } := if_pos hhalted
  exact ⟨_, next_congr ((onWrite_of_reaches s i _ _ h).trans hres), Dev.eng_setEng_self _ _ _, fun _ => rfl⟩

theorem EngSt.state_restart {x : EngSt} (h : x.stop ≠ 2) (now : Nat) : (x.restart now).state = 1 := if_neg h

theorem exec_engRestartCmd (h : s.reaches i (Reg.CL_CMD c) .write = true) (hen : bit (engWord (s.dev.clForce c) e) 127 = true)
    (hload : (s.dev.eng (16 * c + e)).state ≠ 5) (hmig : (s.dev.eng (16 * c + e)).state ≠ 6) (hphys : s.dev.engPhys (16 * c + e) ≠ 0xFF)
    (hstop : (s.dev.eng (16 * c + e)).stop ≠ 2) :
    ∃ t, exec (.engRestartCmd i c e) s = .next t ∧ (t.dev.eng (16 * c + e)).state = 1 ∧ (t.dev.eng (16 * c + e)).pc = (s.dev.eng (16 * c + e)).entry
      ∧ (t.dev.eng (16 * c + e)).v = [] ∧ (t.dev.eng (16 * c + e)).sr = 0 ∧ (t.dev.eng (16 * c + e)).x = (s.dev.eng (16 * c + e)).x
      ∧ (t.dev.eng (16 * c + e)).pend = (s.dev.eng (16 * c + e)).pend := by
  have hres : engRestart c e (s.dev.reached i 0) = (s.dev.reached i 0).setEng (16 * c + e) ((s.dev.eng (16 * c + e)).restart s.dev.now) :=
    if_pos ⟨hen, hload, hmig, hphys⟩
  refine ⟨_, next_congr ((onWrite_of_reaches s i _ _ h).trans hres), ?_⟩
  rw [Dev.eng_setEng_self]
  exact ⟨EngSt.state_restart hstop _, rfl, rfl, rfl, rfl, rfl⟩

theorem exec_clClearCounts (h : s.reaches i (Reg.CL_CMD c) .write = true) :
    ∃ t, exec (.clClearCounts i c e) s = .next t ∧ t.dev.rd (Reg.ENG_MAXDELAY c e) = 0 ∧ t.dev.rd (Reg.ENG_OUT_SKIPS c e) = 0
      ∧ (∀ j, j ≠ Reg.ENG_MAXDELAY c e → j ≠ Reg.ENG_OUT_SKIPS c e → t.dev.rd j = s.dev.rd j) ∧ t.dev.engs = s.dev.engs := by
  have hne : Reg.ENG_MAXDELAY c e ≠ Reg.ENG_OUT_SKIPS c e := by unfold Reg.ENG_MAXDELAY Reg.ENG_OUT_SKIPS; omega
  refine ⟨_, next_congr (onWrite_of_reaches s i _ _ h), ?_, Dev.rd_wr_self _ _ _, fun j h1 h2 => ?_, rfl⟩
  · exact (Dev.rd_wr_ne _ _ hne).trans (Dev.rd_wr_self _ _ _)
  · exact (Dev.rd_wr_ne _ _ h2).trans (Dev.rd_wr_ne _ _ h1)

end Commands

end Sys2Proof.Machine

namespace Sys2Proof
open Sys2Proof.Machine

/-- Settles O36, command by command. -/
theorem engineControl : Obligations.EngineControl := by
  unfold Obligations.EngineControl
  exact ⟨exec_eventEntry, exec_waitResume_masked, exec_waitResume_enabled, exec_engHaltCmd, exec_engResumeCmd, exec_engRestartCmd, exec_clClearCounts⟩

end Sys2Proof
end

section
/-! SUPPORT. Binding, spare and retirement of the engines of a cluster: what each writes, and what it leaves of the registers and of the engines. -/
namespace Sys2Proof.Machine

/-! ### The engines after the shared operations -/

theorem Dev.engs_sqEvent (d : Dev) (st b n : Nat) : (d.sqEvent st b n).engs = d.engs := by
  unfold Dev.sqEvent
  split <;> rfl

theorem Dev.engs_putB (d : Dev) (k i : Nat) (b : Bool) : (d.putB k i b).engs = d.engs := by cases b <;> rfl

theorem Dev.engs_clEvent (d : Dev) (c b e : Nat) : (d.clEvent c b e).engs = d.engs := d.engs_sqEvent ..

theorem Dev.engs_setClSpare (d : Dev) (c q : Nat) : (d.setClSpare c q).engs = d.engs := Dev.engs_putB ..

theorem Dev.engs_logRetire (d : Dev) (unit phys finding : Nat) : (d.logRetire unit phys finding).engs = d.engs := by
  unfold Dev.logRetire Dev.logEntry
  split <;> rfl

theorem Dev.engs_retireEng (d : Dev) (c q finding : Nat) : (d.retireEng c q finding).engs = d.engs := Dev.engs_logRetire ..

theorem Dev.engs_seepFind (d : Dev) (code root port : Nat) : (d.seepFind code root port).engs = d.engs := d.engs_sqEvent ..

/-! ### Which registers they write -/

/-- The registers of a cluster that bind its engines and name its spare. -/
def bindingKey (c j : Nat) : Prop := 0x180008 + 0x10000 * c ≤ j ∧ j < 0x18001C + 0x10000 * c

theorem bindingKey_map {c i : Nat} (h : i < 4) : bindingKey c (Reg.CL_MAP c i) := by unfold bindingKey Reg.CL_MAP; omega

theorem bindingKey_spare (c : Nat) : bindingKey c (Reg.CL_SPARE c) := by unfold bindingKey Reg.CL_SPARE; omega

theorem not_bindingKey_evSeq {c : Nat} (hc : c < 8) (n : Nat) : ¬ bindingKey c (Reg.EV_SEQ n) := by unfold bindingKey Reg.EV_SEQ; omega

theorem not_bindingKey_status (c : Nat) : ¬ bindingKey c (Reg.CL_STATUS c) := by unfold bindingKey Reg.CL_STATUS; omega

theorem not_bindingKey_findKeys {c : Nat} (hc : c < 8) : ∀ k ∈ findKeys, ¬ bindingKey c k := by
  simp only [findKeys, List.mem_cons, List.not_mem_nil, or_false, forall_eq_or_imp, forall_eq, bindingKey, Reg.FL_STATUS, Reg.EV_SEQ, Reg.LOG_OVERFLOW]
  omega

/-- The registers in which a cluster tells of a retired engine. -/
def engRetireKeys (c : Nat) : List Nat :=
  [Reg.CL_RETIRED c, Reg.MIG_TIME_LO c, Reg.MIG_TIME_HI c, Reg.CL_STATUS c, Reg.EV_SEQ (1152 + 4 * c + 1)] ++ findKeys

theorem not_bindingKey_retireKeys {c : Nat} (hc : c < 8) : ∀ k ∈ engRetireKeys c, ¬ bindingKey c k := by
  intro k hk
  rcases List.mem_append.mp hk with hown | hfind
  · revert k
    simp only [List.mem_cons, List.not_mem_nil, or_false, bindingKey, Reg.CL_RETIRED, Reg.MIG_TIME_LO, Reg.MIG_TIME_HI, Reg.CL_STATUS, Reg.EV_SEQ]
    omega
  · exact not_bindingKey_findKeys hc k hfind

section Rules
variable {P : Nat → Prop} (d : Dev) {c q : Nat}

theorem Dev.keeps_clEvent (b e : Nat) (hst : ¬ P (Reg.CL_STATUS c)) (hev : ¬ P (Reg.EV_SEQ (1152 + 4 * c + e))) : d.Keeps P (d.clEvent c b e) :=
  (Dev.Keeps.refl d).sqEvent b hst hev

theorem Dev.keeps_setClSpare (hspare : ¬ P (Reg.CL_SPARE c)) (hst : ¬ P (Reg.CL_STATUS c)) : d.Keeps P (d.setClSpare c q) :=
  ((Dev.Keeps.refl d).wr hspare _).putB hst _ _

theorem Dev.keeps_bindEng {n : Nat} (hP : ¬ P (Reg.CL_MAP (n / 16) (n % 16 / 4))) : d.Keeps P (d.bindEng n q) := (Dev.Keeps.refl d).wr hP _

theorem Dev.keeps_setEng (n : Nat) (x : EngSt) : d.Keeps P (d.setEng n x) := (Dev.Keeps.refl d).of_units rfl rfl rfl rfl

theorem Dev.keeps_retireEng (finding : Nat) (hP : ∀ k ∈ engRetireKeys c, ¬ P k) : d.Keeps P (d.retireEng c q finding) := by
  have hretired := (Dev.Keeps.refl d).wr (hP (Reg.CL_RETIRED c) (by simp [engRetireKeys])) (d.rd (Reg.CL_RETIRED c) ||| BitVec.ofNat 32 (2 ^ q))
  have htime := hretired.wr64 (hP (Reg.MIG_TIME_LO c) (by simp [engRetireKeys])) (hP (Reg.MIG_TIME_HI c) (by simp [engRetireKeys])) (shortTime d.now)
  have htold := htime.event (hP (Reg.CL_STATUS c) (by simp [engRetireKeys])) (hP (Reg.EV_SEQ (1152 + 4 * c + 1)) (by simp [engRetireKeys]))
  exact htold.trans (Dev.keeps_logRetire _ _ _ _ fun k hk => hP k (List.mem_append_right _ hk))

/-- A retired engine stands in CL_RETIRED (R331, R334). -/
theorem Dev.on_retireEng (hc : c < 8) (hq : q < 32) (finding : Nat) : (d.retireEng c q finding).on (Reg.CL_RETIRED c) q = true := by
  have hfind : ∀ k ∈ findKeys, ¬ k = Reg.CL_RETIRED c := by
    simp only [findKeys, List.mem_cons, List.not_mem_nil, or_false, forall_eq_or_imp, forall_eq, Reg.FL_STATUS, Reg.EV_SEQ, Reg.LOG_OVERFLOW, Reg.CL_RETIRED]
    omega
  have hne : Reg.CL_RETIRED c ≠ Reg.CL_STATUS c ∧ Reg.CL_RETIRED c ≠ Reg.EV_SEQ (1152 + 4 * c + 1) ∧ Reg.CL_RETIRED c ≠ Reg.MIG_TIME_LO c
      ∧ Reg.CL_RETIRED c ≠ Reg.MIG_TIME_HI c := by
    unfold Reg.CL_RETIRED Reg.CL_STATUS Reg.EV_SEQ Reg.MIG_TIME_LO Reg.MIG_TIME_HI; omega
  obtain ⟨hst, hev, hlo, hhi⟩ := hne
  have hlog := Dev.keeps_logRetire (P := (· = Reg.CL_RETIRED c)) (((d.setB (Reg.CL_RETIRED c) q).migTime c).event (Reg.CL_STATUS c) (1152 + 4 * c + 1))
    2 (17 * c + q) finding hfind
  refine (Dev.on_congr q (hlog.rd rfl)).trans ((Dev.on_congr q (Dev.rd_event_ne _ _ _ hst hev)).trans ?_)
  exact (Dev.on_congr q (Dev.rd_wr64_ne _ _ hlo hhi)).trans (Dev.on_setB_self d _ q hq)

/-! ### Binding and spare read back -/

theorem Dev.engPhys_congr {d e : Dev} {n : Nat} (h : ∀ j, bindingKey (n / 16) j → e.rd j = d.rd j) : e.engPhys n = d.engPhys n :=
  Dev.f_congr _ _ (h _ (bindingKey_map (by omega)))

theorem Dev.clSpare_congr {d e : Dev} {c : Nat} (h : ∀ j, bindingKey c j → e.rd j = d.rd j) : e.clSpare c = d.clSpare c :=
  Dev.f_congr _ _ (h _ (bindingKey_spare c))

theorem Dev.engPhys_bindEng (n : Nat) (hq : q < 256) : (d.bindEng n q).engPhys n = q :=
  (Dev.f_wrF_self d _ _ 8 q (by omega)).trans (Nat.mod_eq_of_lt hq)

theorem Dev.clSpare_bindEng (n : Nat) : (d.bindEng n q).clSpare c = d.clSpare c := by
  have hne : Reg.CL_SPARE c ≠ Reg.CL_MAP (n / 16) (n % 16 / 4) := by unfold Reg.CL_SPARE Reg.CL_MAP; omega
  exact Dev.f_congr _ _ (Dev.rd_wr_ne _ _ hne)

theorem Dev.clSpare_setClSpare (hq : q < 32) : (d.setClSpare c q).clSpare c = q := by
  have hne : Reg.CL_SPARE c ≠ Reg.CL_STATUS c := by unfold Reg.CL_SPARE Reg.CL_STATUS; omega
  refine (Dev.f_congr _ _ (Dev.rd_putB_ne _ _ _ hne)).trans ?_
  rw [Dev.f, Dev.rd_wrN, if_pos rfl, fld_ofNat, pow_zero, Nat.div_one, Nat.mod_mod_of_dvd _ (by decide), Nat.mod_eq_of_lt (show q < 2 ^ 5 from hq)]

theorem Dev.engPhys_setClSpare (n : Nat) : (d.setClSpare c q).engPhys n = d.engPhys n := by
  have hne : Reg.CL_MAP (n / 16) (n % 16 / 4) ≠ Reg.CL_SPARE c ∧ Reg.CL_MAP (n / 16) (n % 16 / 4) ≠ Reg.CL_STATUS c := by
    unfold Reg.CL_MAP Reg.CL_SPARE Reg.CL_STATUS; omega
  exact Dev.f_congr _ _ ((Dev.rd_putB_ne _ _ _ hne.2).trans (Dev.rd_wrN_ne _ _ hne.1))

/-- SPARE_PRESENT alone follows the spare. -/
theorem Dev.on_setClSpare {m : Nat} (hm : m < 32) (h0 : m ≠ 0) : (d.setClSpare c q).on (Reg.CL_STATUS c) m = d.on (Reg.CL_STATUS c) m := by
  have hne : Reg.CL_STATUS c ≠ Reg.CL_SPARE c := by unfold Reg.CL_SPARE Reg.CL_STATUS; omega
  exact (Dev.on_putB_bit_ne _ _ _ (by decide) hm h0).trans (Dev.on_congr m (Dev.rd_wrN_ne _ _ hne))

theorem Dev.on_clEvent (hc : c < 8) {b : Nat} (hb : b < 16) (e : Nat) : (d.clEvent c b e).on (Reg.CL_STATUS c) b = true := by
  have hne : Reg.CL_STATUS c ≠ Reg.EV_SEQ (1152 + 4 * c + e) := by unfold Reg.CL_STATUS Reg.EV_SEQ; omega
  exact (Dev.on_sqEvent d _ _ _ hb hb hne).trans (by simp)

/-! ### Who runs where -/

theorem Dev.engOn_eq_some {d : Dev} {n : Nat} (h : d.engOn c q = some n) : ∃ i < 16, n = 16 * c + i := by
  obtain ⟨i, hfind, rfl⟩ := Option.map_eq_some_iff.mp h
  exact ⟨i, List.mem_range.mp (List.mem_of_find?_eq_some hfind), rfl⟩

theorem Dev.migrant_congr {d e : Dev} (h : ∀ m, (e.eng m).state = (d.eng m).state) (c : Nat) : e.migrant c = d.migrant c := by
  unfold Dev.migrant
  simp only [h]

end Rules

end Sys2Proof.Machine
end

section
/-! SUPPORT. A fault of a physical engine, the test of a waiting one, and migration to the spare. -/
namespace Sys2Proof.Machine

/-! ### A hardware fault with a spare (R329) -/

/-- An engine that starts anew with X and Y cleared. -/
def EngSt.rebegun (x : EngSt) (now : Nat) : EngSt := ({ x with x := [], y := [], bad := x.bad.filter (fun k => 0x2000 ≤ k) } : EngSt).restart now

/-- The device once a fault is told of: retirement, report, ERROR record and ENG_FAULT. -/
def Dev.hwFaultTold (d : Dev) (c q n : Nat) (hdr : Hdr) (payload : List Word128) : Dev :=
  (((d.retireEng c q 0).report 0x08 (0x3000 + 17 * c + q) 24).emit (128 + n) hdr payload).clEvent c 4 0

theorem engHwFault_of_spare {d : Dev} {c q n : Nat} (hret : d.on (Reg.CL_RETIRED c) q = false) (hown : d.clSpare c ≠ q) (hspare : d.clSpare c ≠ 0x1F)
    (hon : d.engOn c q = some n) (hrun : (d.eng n).state = 1) (hmig : d.migrant c = none) :
    ∃ hdr payload, engHwFault c q d
      = (((d.hwFaultTold c q n hdr payload).setClSpare c 0x1F).bindEng n (d.clSpare c)).setEng n ((d.eng n).rebegun d.now) := by
  have hrest : (d.eng n).state ≠ 0 ∧ (d.eng n).state ≠ 5 := by omega
  unfold engHwFault
  rw [if_neg (by rw [hret]; decide), if_neg hown, hon]
  dsimp only
  rw [hmig]
  simp only [Option.isSome_none, Bool.false_and, Bool.false_eq_true, if_false, hspare, hrest.1, hrest.2, ne_eq, not_false_eq_true, if_true,
    Option.none_beq_some]
  exact ⟨_, _, rfl⟩

theorem exec_engHwFault (s : State) (c : Fin 8) (q : Fin 17) (n : Nat) (hret : s.dev.on (Reg.CL_RETIRED c) q = false) (hown : s.dev.clSpare c ≠ q)
    (hspare : s.dev.clSpare c ≠ 0x1F) (hlt : s.dev.clSpare c < 17) (hon : s.dev.engOn c q = some n) (hrun : (s.dev.eng n).state = 1)
    (hstop : (s.dev.eng n).stop ≠ 2) (hmig : s.dev.migrant c = none) :
    ∃ t, exec (.engHwFault c q) s = .next t ∧ t.dev.on (Reg.CL_RETIRED c) q = true ∧ t.dev.engPhys n = s.dev.clSpare c ∧ t.dev.clSpare c = 0x1F
      ∧ (t.dev.eng n).state = 1 ∧ (t.dev.eng n).pc = (s.dev.eng n).entry ∧ (t.dev.eng n).x = [] ∧ t.dev.on (Reg.CL_STATUS c) 4 = true := by
  obtain ⟨hdr, payload, heq⟩ := engHwFault_of_spare hret hown hspare hon hrun hmig
  have hkeys : Reg.CL_STATUS c ≠ Reg.CL_RETIRED c ∧ Reg.EV_SEQ (1152 + 4 * c + 0) ≠ Reg.CL_RETIRED c ∧ Reg.CL_SPARE c ≠ Reg.CL_RETIRED c
      ∧ Reg.CL_MAP (n / 16) (n % 16 / 4) ≠ Reg.CL_RETIRED c ∧ Reg.CL_STATUS c ≠ Reg.CL_MAP (n / 16) (n % 16 / 4) := by
    unfold Reg.CL_STATUS Reg.EV_SEQ Reg.CL_RETIRED Reg.CL_SPARE Reg.CL_MAP; omega
  obtain ⟨hst, hev, hsp, hmap, hstmap⟩ := hkeys
  have htold : (s.dev.retireEng c q 0).Keeps (· = Reg.CL_RETIRED c) (s.dev.hwFaultTold c q n hdr payload) :=
    ((Dev.keeps_report _ _ _ _).trans (Dev.keeps_emit _ _ _ _)).trans (Dev.keeps_clEvent _ 4 0 hst hev)
  have hbound := (htold.trans (Dev.keeps_setClSpare _ hsp hst (q := 0x1F))).trans (Dev.keeps_bindEng _ hmap (q := s.dev.clSpare c))
  refine ⟨_, next_congr heq, ?_, Dev.engPhys_bindEng _ n (by omega), ?_, ?_⟩
  · exact (Dev.on_congr _ (hbound.rd rfl)).trans (s.dev.on_retireEng c.isLt (by omega) 0)
  · exact (Dev.clSpare_bindEng _ n).trans (Dev.clSpare_setClSpare _ (by decide))
  rw [Dev.eng_setEng_self]
  refine ⟨if_neg hstop, rfl, rfl, (Dev.on_congr 4 (Dev.rd_wr_ne _ _ hstmap)).trans ?_⟩
  exact (Dev.on_setClSpare _ (by decide) (by decide)).trans (Dev.on_clEvent _ c.isLt (by decide) 0)

/-! ### The test of a waiting engine (R330, R331) -/

theorem exec_engTestStart (s : State) (e : Fin 128) (hwait : (s.dev.eng e).state = 2) (hslot : s.dev.slotIn (54 + e / 16) 2 = none)
    (hload : (s.dev.cl (e / 16)).loading = none) :
    ∃ t, exec (.engTestStart e) s = .next t ∧ t.dev.eng e = { s.dev.eng e with testing := true } ∧ ∀ j, t.dev.rd j = s.dev.rd j := by
  have hstart : engTestStart e s.dev = s.dev.setEng e { s.dev.eng e with testing := true } := if_pos ⟨hwait, by rw [hslot]; rfl, by rw [hload]; rfl⟩
  exact ⟨_, next_congr hstart, Dev.eng_setEng_self _ _ _, fun _ => rfl⟩

theorem exec_engTestEnd_passed (s : State) (e : Fin 128) (htest : (s.dev.eng e).testing = true) :
    ∃ t, exec (.engTestEnd e true) s = .next t ∧ (t.dev.eng e).testing = false ∧ (t.dev.eng e).testedAt = some s.dev.up
      ∧ t.dev.n (Reg.ENG_TESTS (e / 16) (e % 16)) = (s.dev.n (Reg.ENG_TESTS (e / 16) (e % 16)) + 1) % 2 ^ 32 := by
  have hend : engTestEnd e true s.dev
      = (s.dev.setEng e { s.dev.eng e with testing := false, testedAt := some s.dev.up }).add (Reg.ENG_TESTS (e / 16) (e % 16)) 1 := by
    simp [engTestEnd, htest]
  have hself := s.dev.eng_setEng_self e { s.dev.eng e with testing := false, testedAt := some s.dev.up }
  exact ⟨_, next_congr hend, congrArg EngSt.testing hself, congrArg EngSt.testedAt hself, Dev.n_add_self _ _ 1⟩

/-- The device once the failure of an engine's test is found. -/
def Dev.testFailed (d : Dev) (n : Nat) : Dev :=
  (d.setEng n { d.eng n with testing := false }).seepFind 0x09 (0x3000 + 17 * (n / 16) + d.engPhys n) 24

section Failed
variable {d : Dev} {n : Nat}

theorem Dev.eng_testFailed (m : Nat) : (d.testFailed n).eng m = if m = n then { d.eng n with testing := false } else d.eng m :=
  (Dev.eng_congr (Dev.engs_seepFind _ _ _ _) m).trans (d.eng_setEng m n _)

theorem Dev.migrant_testFailed (c : Nat) : (d.testFailed n).migrant c = d.migrant c := by
  refine Dev.migrant_congr (fun m => ?_) c
  rw [Dev.eng_testFailed]
  split
  next h => rw [h]
  next => rfl

theorem Dev.binding_testFailed {c : Nat} (hc : c < 8) : ∀ j, bindingKey c j → (d.testFailed n).rd j = d.rd j := fun _ hj =>
  (Dev.keeps_seepFind _ _ _ _ (not_bindingKey_findKeys hc)).rd hj

theorem Dev.on_testFailed : (d.testFailed n).on Reg.FL_STATUS 11 = true := by
  have hne : Reg.FL_STATUS ≠ Reg.EV_SEQ 1505 := by decide
  exact (Dev.on_sqEvent _ _ _ _ (by decide) (by decide) hne).trans (by simp)

/-- A failed test sends the engine to a free spare, and strands it without one. -/
theorem engTestEnd_failed (hn : n < 128) (htest : (d.eng n).testing = true) :
    engTestEnd n false d = if d.clSpare (n / 16) = 0x1F ∨ (d.migrant (n / 16)).isSome then (d.testFailed n).engStrand n
      else ((d.testFailed n).setEng n { d.eng n with testing := false, state := 6 }).setB (Reg.CL_STATUS (n / 16)) 2 := by
  rw [← Dev.clSpare_congr (Dev.binding_testFailed (n := n) (c := n / 16) (by omega)), ← Dev.migrant_testFailed (n := n)]
  unfold engTestEnd
  rw [if_neg (by rw [htest]; decide)]
  rfl

end Failed

theorem exec_engTestEnd_migrating (s : State) (e : Fin 128) (htest : (s.dev.eng e).testing = true) (hspare : s.dev.clSpare (e / 16) ≠ 0x1F)
    (hmig : s.dev.migrant (e / 16) = none) :
    ∃ t, exec (.engTestEnd e false) s = .next t ∧ (t.dev.eng e).state = 6 ∧ t.dev.on (Reg.CL_STATUS (e / 16)) 2 = true
      ∧ t.dev.on Reg.FL_STATUS 11 = true := by
  have hne : Reg.FL_STATUS ≠ Reg.CL_STATUS (e / 16) := by unfold Reg.FL_STATUS Reg.CL_STATUS; omega
  refine ⟨_, next_congr ((engTestEnd_failed e.isLt htest).trans (if_neg (by rw [hmig]; simpa using hspare))), ?_, Dev.on_setB_self _ _ _ (by decide), ?_⟩
  · exact congrArg EngSt.state ((s.dev.testFailed e).eng_setEng_self e { s.dev.eng e with testing := false, state := 6 })
  · exact (Dev.on_congr 11 (Dev.rd_setB_ne _ _ hne)).trans Dev.on_testFailed

/-- An engine stranded without a spare is FAULTED, unbound, and its physical engine retired (R331). -/
theorem Dev.engStrand_spec (d : Dev) {n : Nat} (hn : n < 128) (hphys : d.engPhys n < 17) (hstop : (d.eng n).stop ≠ 2) :
    ((d.engStrand n).eng n).state = 4 ∧ ((d.engStrand n).eng n).fault = 5 ∧ (d.engStrand n).engPhys n = 0xFF
      ∧ (d.engStrand n).on (Reg.CL_RETIRED (n / 16)) (d.engPhys n) = true := by
  have hc : n / 16 < 8 := by omega
  have hkeys : Reg.CL_STATUS (n / 16) ≠ Reg.CL_RETIRED (n / 16) ∧ Reg.EV_SEQ (1152 + 4 * (n / 16) + 0) ≠ Reg.CL_RETIRED (n / 16)
      ∧ Reg.CL_MAP (n / 16) (n % 16 / 4) ≠ Reg.CL_RETIRED (n / 16) := by
    unfold Reg.CL_STATUS Reg.EV_SEQ Reg.CL_RETIRED Reg.CL_MAP; omega
  obtain ⟨hst, hev, hmap⟩ := hkeys
  let r := d.retireEng (n / 16) (d.engPhys n) 4
  let y : EngSt := { r.eng n with testing := false, state := if (r.eng n).stop = 2 then 5 else 4, fault := 5 }
  have hreng : r.eng n = d.eng n := Dev.eng_congr (d.engs_retireEng _ _ _) n
  have hshown (P : Nat → Prop) (hstP : ¬ P (Reg.CL_STATUS (n / 16))) (hevP : ¬ P (Reg.EV_SEQ (1152 + 4 * (n / 16) + 0))) :
      (r.bindEng n 0xFF).Keeps P (d.engStrand n) :=
    (((Dev.Keeps.refl (r.bindEng n 0xFF)).wr hstP _).trans (Dev.keeps_setEng _ n y)).trans (Dev.keeps_clEvent _ 4 0 hstP hevP)
  have hself : (d.engStrand n).eng n = y := (Dev.eng_congr (Dev.engs_clEvent _ _ _ _) n).trans (Dev.eng_setEng_self _ n y)
  refine ⟨?_, ?_, ?_, ?_⟩
  · rw [hself]
    exact if_neg (hreng ▸ hstop)
  · rw [hself]
  · have hkeep := hshown (bindingKey (n / 16)) (not_bindingKey_status _) (not_bindingKey_evSeq hc _)
    exact (Dev.engPhys_congr fun j hj => hkeep.rd hj).trans (Dev.engPhys_bindEng r n (by decide))
  · have hkeep := (Dev.keeps_bindEng r hmap (q := 0xFF)).trans (hshown (· = Reg.CL_RETIRED (n / 16)) hst hev)
    exact (Dev.on_congr _ (hkeep.rd rfl)).trans (d.on_retireEng hc (by omega) 4)

theorem exec_engTestEnd_stranded (s : State) (e : Fin 128) (htest : (s.dev.eng e).testing = true) (hstop : (s.dev.eng e).stop ≠ 2)
    (hspare : s.dev.clSpare (e / 16) = 0x1F) (hphys : s.dev.engPhys e < 17) :
    ∃ t, exec (.engTestEnd e false) s = .next t ∧ (t.dev.eng e).state = 4 ∧ (t.dev.eng e).fault = 5 ∧ t.dev.engPhys e = 0xFF
      ∧ t.dev.on (Reg.CL_RETIRED (e / 16)) (s.dev.engPhys e) = true := by
  have hphysF : (s.dev.testFailed e).engPhys e = s.dev.engPhys e := Dev.engPhys_congr (Dev.binding_testFailed (by omega))
  have hself : (s.dev.testFailed e).eng e = { s.dev.eng e with testing := false } := (Dev.eng_testFailed e.val).trans (if_pos rfl)
  obtain ⟨hstate, hfault, hunbound, hretired⟩ := (s.dev.testFailed e).engStrand_spec e.isLt (hphysF ▸ hphys) (hself ▸ hstop)
  exact ⟨_, next_congr ((engTestEnd_failed e.isLt htest).trans (if_pos (.inl hspare))), hstate, hfault, hunbound, hphysF ▸ hretired⟩

/-! ### The end of a migration (R331) -/

/-- A migrated engine waits again, unless a switch has stopped it (R328). -/
def EngSt.resumed (x : EngSt) : EngSt := { x with state := if x.stop = 2 then 5 else 2, stop := 0 }

theorem EngSt.state_resumed {x : EngSt} (h : x.stop ≠ 2) : x.resumed.state = 2 := if_neg h

/-- The device once engine n of cluster c is bound to the spare, which is then taken. -/
def Dev.spareBound (d : Dev) (c n : Nat) : Dev := (d.bindEng n (d.clSpare c)).setClSpare c 0x1F

/-- The device once engine n of cluster c waits on the spare and the status says so. -/
def Dev.rebound (d : Dev) (c n : Nat) : Dev :=
  (((d.spareBound c n).setEng n (d.eng n).resumed).clrB (Reg.CL_STATUS c) 2).setB (Reg.CL_STATUS c) 5

/-- The device once the migration of engine n is counted too. -/
def Dev.migrated (d : Dev) (c n : Nat) : Dev := (d.rebound c n).add (Reg.MIG_COUNT c) 1

theorem migrationDone_of_migrant {d : Dev} {c n : Nat} (h : d.migrant c = some n) :
    migrationDone c d = (d.migrated c n).retireEng c (d.engPhys n) 4 := by
  unfold migrationDone
  rw [h]
  rfl

section Rebound
variable {P : Nat → Prop} (d : Dev) {c n : Nat}

theorem Dev.eng_migrated : (d.migrated c n).eng n = (d.eng n).resumed := Dev.eng_setEng_self (d.spareBound c n) n _

/-- After binding and spare, the status bits of the cluster alone are written. -/
theorem Dev.keeps_rebound (hst : ¬ P (Reg.CL_STATUS c)) : (d.spareBound c n).Keeps P (d.rebound c n) :=
  ((Dev.keeps_setEng _ n (d.eng n).resumed).wr hst _).wr hst _

theorem Dev.keeps_migrated : (d.spareBound c n).Keeps (bindingKey c) (d.migrated c n) := by
  have hcount : ¬ bindingKey c (Reg.MIG_COUNT c) := by unfold bindingKey Reg.MIG_COUNT; omega
  exact (d.keeps_rebound (not_bindingKey_status c)).wr hcount _

theorem Dev.n_migrated : (d.migrated c n).n (Reg.MIG_COUNT c) = (d.n (Reg.MIG_COUNT c) + 1) % 2 ^ 32 := by
  have hkeys : Reg.CL_MAP (n / 16) (n % 16 / 4) ≠ Reg.MIG_COUNT c ∧ Reg.CL_SPARE c ≠ Reg.MIG_COUNT c ∧ Reg.CL_STATUS c ≠ Reg.MIG_COUNT c := by
    unfold Reg.CL_MAP Reg.CL_SPARE Reg.CL_STATUS Reg.MIG_COUNT; omega
  obtain ⟨hmap, hspare, hst⟩ := hkeys
  have hbound : d.Keeps (· = Reg.MIG_COUNT c) (d.spareBound c n) := (Dev.keeps_bindEng d hmap).trans (Dev.keeps_setClSpare _ hspare hst)
  rw [← Dev.n_congr ((hbound.trans (d.keeps_rebound hst)).rd rfl)]
  exact Dev.n_add_self _ _ 1

theorem Dev.engPhys_spareBound (h : d.clSpare c < 256) : (d.spareBound c n).engPhys n = d.clSpare c :=
  (Dev.engPhys_setClSpare _ n).trans (d.engPhys_bindEng n h)

theorem Dev.clSpare_spareBound : (d.spareBound c n).clSpare c = 0x1F := Dev.clSpare_setClSpare _ (by decide)

theorem Dev.n_retireEng_migCount (hc : c < 8) (q finding : Nat) : (d.retireEng c q finding).n (Reg.MIG_COUNT c) = d.n (Reg.MIG_COUNT c) := by
  have hkeys : ∀ k ∈ engRetireKeys c, ¬ k = Reg.MIG_COUNT c := by
    simp only [engRetireKeys, findKeys, List.cons_append, List.nil_append, List.mem_cons, List.not_mem_nil, or_false, forall_eq_or_imp, forall_eq,
      Reg.CL_RETIRED, Reg.MIG_TIME_LO, Reg.MIG_TIME_HI, Reg.CL_STATUS, Reg.EV_SEQ, Reg.FL_STATUS, Reg.LOG_OVERFLOW, Reg.MIG_COUNT]
    omega
  exact Dev.n_congr ((d.keeps_retireEng finding hkeys).rd rfl)

/-- The migration binds the engine to the spare, where it waits, and retires the engine it left. -/
theorem migrationDone_spec (h : d.migrant c = some n) (hc : c < 8) (hn : n / 16 = c) (hspare : d.clSpare c < 17) (hphys : d.engPhys n < 17)
    (hstop : (d.eng n).stop ≠ 2) :
    ((migrationDone c d).eng n).state = 2 ∧ (migrationDone c d).engPhys n = d.clSpare c ∧ (migrationDone c d).clSpare c = 0x1F
      ∧ (migrationDone c d).on (Reg.CL_RETIRED c) (d.engPhys n) = true
      ∧ (migrationDone c d).n (Reg.MIG_COUNT c) = (d.n (Reg.MIG_COUNT c) + 1) % 2 ^ 32 := by
  rw [migrationDone_of_migrant h]
  have hkeep : (d.spareBound c n).Keeps (bindingKey c) ((d.migrated c n).retireEng c (d.engPhys n) 4) :=
    d.keeps_migrated.trans (Dev.keeps_retireEng _ 4 (not_bindingKey_retireKeys hc))
  have hself : ((d.migrated c n).retireEng c (d.engPhys n) 4).eng n = (d.eng n).resumed :=
    (Dev.eng_congr (Dev.engs_retireEng _ _ _ _) n).trans d.eng_migrated
  refine ⟨?_, ?_, ?_, Dev.on_retireEng _ hc (by omega) 4, (Dev.n_retireEng_migCount _ hc _ _).trans d.n_migrated⟩
  · rw [hself]
    exact EngSt.state_resumed hstop
  · exact (Dev.engPhys_congr fun j hj => hkeep.rd (hn ▸ hj)).trans (d.engPhys_spareBound (by omega))
  · exact (Dev.clSpare_congr fun j hj => hkeep.rd hj).trans d.clSpare_spareBound

end Rebound

theorem exec_migrationDone (s : State) (c : Fin 8) (i : Fin 16) (h : (List.range 16).find? (fun k => (s.dev.eng (16 * c + k)).state = 6) = some i.val)
    (hspare : s.dev.clSpare c < 17) (hphys : s.dev.engPhys (16 * c + i) < 17) (hstop : (s.dev.eng (16 * c + i)).stop ≠ 2) :
    ∃ t, exec (.migrationDone c) s = .next t ∧ (t.dev.eng (16 * c + i)).state = 2 ∧ t.dev.engPhys (16 * c + i) = s.dev.clSpare c ∧ t.dev.clSpare c = 0x1F
      ∧ t.dev.on (Reg.CL_RETIRED c) (s.dev.engPhys (16 * c + i)) = true ∧ t.dev.n (Reg.MIG_COUNT c) = (s.dev.n (Reg.MIG_COUNT c) + 1) % 2 ^ 32 := by
  have hmig : s.dev.migrant c = some (16 * c.val + i.val) := congrArg (Option.map (16 * c.val + ·)) h
  exact ⟨_, next_congr rfl, migrationDone_spec s.dev hmig c.isLt (by omega) hspare hphys hstop⟩

end Sys2Proof.Machine

namespace Sys2Proof
open Sys2Proof.Machine

/-- Settles O39, command by command. -/
theorem engineSparing : Obligations.EngineSparing := by
  unfold Obligations.EngineSparing
  exact ⟨exec_engHwFault, exec_engTestStart, exec_engTestEnd_passed, exec_engTestEnd_migrating, exec_engTestEnd_stranded, exec_migrationDone⟩

end Sys2Proof
end

section
/-! SUPPORT. A switch that touches a migrating engine: the cluster leaves it MIGRATING until its migration is done (R331). -/
namespace Sys2Proof.Machine

theorem dev_of_exec_clusterSwitch {s t : State} {c : Fin 8} (h : exec (.clusterSwitch c) s = .next t) : t.dev = clusterSwitch c s.dev := by
  injection h with hst
  rw [← hst]

/-- A committed group whose one setup, slot 1 of cluster 0, is due. -/
def clusterGroup : Grp where
  num := 0
  tag := 0
  pairs := [(54, 1)]
  time := 0
  postpone := false
  committed := true
  strobed := true

/-- The setup of that group: every engine of the cluster enabled. -/
def enablingSlot : Slot := { st := 2, words := List.replicate 33 (BitVec.ofNat 128 (2 ^ 127)) }

/-- The reset state with that group and setup, engine 0 of the cluster MIGRATING. -/
def migratingState : State :=
  let d := State.reset.dev
  { State.reset with dev := { d with cw := { d.cw with slots := [(16 * 54 + 1, enablingSlot)], groups := [clusterGroup] } }.setEng 0 { state := 6 } }

theorem dueGroup_migratingState : migratingState.dev.dueGroup 54 = some (clusterGroup, 1) := by decide +kernel

theorem slotIn_migratingState : migratingState.dev.slotIn 54 3 = none := by decide +kernel

theorem engTouched_migratingState : engTouched [] (migratingState.dev.slot 54 1).words 0 = true := by decide +kernel

theorem state_migratingState : (migratingState.dev.eng 0).state = 6 := by decide +kernel

theorem state_clusterSwitch_migratingState : ((clusterSwitch 0 migratingState.dev).eng 0).state = 6 := by decide +kernel

end Sys2Proof.Machine

namespace Sys2Proof
open Sys2Proof.Machine

/-- Refutes O38: its first clause lets every touched engine that does not run load at once, but a MIGRATING one stays MIGRATING at the switch and loads when its
migration is done. -/
theorem not_clusterSwitch : ¬ Obligations.ClusterSwitch := by
  unfold Obligations.ClusterSwitch
  intro ⟨hswitch, _⟩
  obtain ⟨t, ht, -, -, -, hloads⟩ := hswitch migratingState 0 clusterGroup 1 dueGroup_migratingState (by decide) slotIn_migratingState (Nat.zero_le _)
  have hload : (t.dev.eng 0).state = 5 := hloads 0 engTouched_migratingState (by simp [state_migratingState])
  rw [dev_of_exec_clusterSwitch ht] at hload
  exact absurd (state_clusterSwitch_migratingState.symm.trans hload) (by decide)

end Sys2Proof
end

section
/-! SUPPORT. The status word a plain instruction leaves, its flags, and an instruction that is ILLEGAL. -/
namespace Sys2Proof.Machine

/-! ### The status word (R346) -/

theorem EngSt.sr_issued_plain {x : EngSt} (op : Nat) {ws : List (CrDst × Nat)} (h : ∀ l ∈ ws, l.1.plain = true) (hslot : x.slot = none)
    (hrep : x.rep = none) (hloop : bit x.sr 11 = false) (hstop : x.stop = 0) : (x.issued op { writes := ws }).sr = (x.puts ws).sr := by
  have hputs : ws.foldl (fun (z : EngSt) l => z.put l.1 l.2) x = x.withData (x.puts ws) := x.puts_plain h
  unfold EngSt.issued
  dsimp only
  rw [hputs]
  simp only [EngSt.advance, EngSt.withData, hrep, hslot, hloop, Bool.false_eq_true, false_and, if_false, Option.isNone_none, and_true]
  split <;> simp only [EngSt.tryStop, EngSt.latch, hstop, true_or, if_true]

/-- The four flags as they stand in the word. -/
def flagNibble (v c n z : Bool) : Nat := b2n v * 8 + b2n c * 4 + b2n n * 2 + b2n z

theorem testBit_flagNibble (v c n z : Bool) :
    (flagNibble v c n z).testBit 0 = z ∧ (flagNibble v c n z).testBit 2 = c ∧ (flagNibble v c n z).testBit 3 = v := by
  revert v c n z
  decide

/-- The flags an instruction writes are the low bits of its status word. -/
theorem EngSt.bit_sr_put_flags (x : EngSt) (v c n z : Bool) :
    bit (x.put .flags (flagNibble v c n z)).sr 0 = z ∧ bit (x.put .flags (flagNibble v c n z)).sr 2 = c
      ∧ bit (x.put .flags (flagNibble v c n z)).sr 3 = v := by
  have hbit (i : Nat) (hi : i < 4) : bit (x.put .flags (flagNibble v c n z)).sr i = (flagNibble v c n z).testBit i :=
    (bit_put x.sr 0 4 _ i (by decide)).trans (if_pos ⟨i.zero_le, by omega⟩)
  obtain ⟨hz, hc, hv⟩ := testBit_flagNibble v c n z
  exact ⟨(hbit 0 (by decide)).trans hz, (hbit 2 (by decide)).trans hc, (hbit 3 (by decide)).trans hv⟩

theorem bitRes_eq (w : CrW) (v : Word128) :
    bitRes w v = { writes := [(.v (crD w), v.toNat), (.flags, flagNibble false false (decide (sfld v 0 16 < 0)) (decide (fld v 0 16 = 0)))] } := by
  simp [bitRes, flagNibble, b2n]

section Issue
variable {s : State} {e op : Nat} {w : CrW} {legal : EngSt → CrW → Bool} {eff : EngSt → CrW → CrRes} {ws : List (CrDst × Nat)} {k : Nat}

/-- The status word after one issue of an instruction whose results are plain. -/
theorem sr_crStep (h : s.issues e op w = true) (hm : movesNothing w = true) (hop : crListed op = true) (hl : legal (s.dev.eng e) w = true)
    (heff : eff (s.dev.eng e) w = { writes := ws }) (hplain : ∀ l ∈ ws, l.1.plain = true) :
    ((crStep op legal eff e none s.dev).eng e).sr = ((s.dev.eng e).puts ws).sr := by
  rw [crStep_plain s e op legal eff w h hm hop hl (by rw [heff]), Dev.eng_setEng_self, heff]
  simp only [State.issues, Bool.and_eq_true, beq_iff_eq, Option.isNone_iff_eq_none, Bool.not_eq_true'] at h
  obtain ⟨⟨⟨⟨⟨⟨⟨⟨-, hslot⟩, hrep⟩, hloop⟩, hstop⟩, -⟩, -⟩, -⟩, -⟩ := h
  exact EngSt.sr_issued_plain op hplain hslot hrep hloop hstop

/-- An instruction whose results are status bits alone. -/
theorem crStep_status (h : s.issues e op w = true) (hm : movesNothing w = true) (hop : crListed op = true) (hl : legal (s.dev.eng e) w = true)
    (heff : eff (s.dev.eng e) w = { writes := ws }) (hws : ∀ l ∈ ws, l.1.status = true) :
    s.CrKeeps { s with dev := crStep op legal eff e none s.dev } e none none
      ∧ ((crStep op legal eff e none s.dev).eng e).sr = ((s.dev.eng e).puts ws).sr := by
  have hplain : ∀ l ∈ ws, l.1.plain = true := fun l hl => CrDst.plain_of_status (hws l hl)
  refine ⟨?_, sr_crStep h hm hop hl heff hplain⟩
  obtain ⟨z, hstep, hz⟩ := crStep_writes h hm hop hl heff hplain
  obtain ⟨hv, ha⟩ := (s.dev.eng e).puts_status hws
  rw [hstep]
  exact CrKeeps_of_movesOn hz (fun j _ => congrArg (fun t : Tab Word128 => t.get (fun _ => 0) j) hv)
    fun j _ => congrArg (fun t : Tab (BitVec 320) => t.get (fun _ => 0) j) ha

/-- A bitwise instruction: Z says whether lane 0 is zero, C and V are clear. -/
theorem crStep_bitRes (h : s.issues e op w = true) (hm : movesNothing w = true) (hop : crListed op = true) (hl : legal (s.dev.eng e) w = true)
    {v : Word128} (heff : eff (s.dev.eng e) w = bitRes w v) :
    s.CrKeeps { s with dev := crStep op legal eff e none s.dev } e (some (crD w)) none
      ∧ ((crStep op legal eff e none s.dev).eng e).vr (crD w) = v
      ∧ bit ((crStep op legal eff e none s.dev).eng e).sr 0 = decide (fld (((crStep op legal eff e none s.dev).eng e).vr (crD w)) 0 16 = 0)
      ∧ bit ((crStep op legal eff e none s.dev).eng e).sr 2 = false ∧ bit ((crStep op legal eff e none s.dev).eng e).sr 3 = false := by
  rw [bitRes_eq] at heff
  obtain ⟨hkeeps, hvr⟩ := crStep_vec h hm hop hl heff (List.forall_mem_singleton.mpr rfl)
  rw [BitVec.ofNat_toNat, BitVec.setWidth_eq] at hvr
  have hsr := sr_crStep h hm hop hl heff (List.forall_mem_cons.mpr ⟨rfl, List.forall_mem_singleton.mpr rfl⟩)
  rw [hsr, hvr]
  exact ⟨hkeeps, rfl, ((s.dev.eng e).put (.v (crD w)) v.toNat).bit_sr_put_flags ..⟩

theorem status_satBit (l : List (Int × Bool)) : ∀ r ∈ satBit l, r.1.status = true := by
  unfold satBit
  split
  · exact List.forall_mem_singleton.mpr rfl
  · exact fun _ hr => absurd hr List.not_mem_nil

/-- An instruction whose results are the lanes of one vector and status bits. -/
theorem crStep_lanes (h : s.issues e op w = true) (hm : movesNothing w = true) (hop : crListed op = true) (hl : legal (s.dev.eng e) w = true)
    {b : Nat} {vals : List Int} (heff : eff (s.dev.eng e) w = { writes := (.v k, ofLanes b vals) :: ws }) (hws : ∀ l ∈ ws, l.1.status = true)
    (hlen : vals.length = 128 / b) :
    s.CrKeeps { s with dev := crStep op legal eff e none s.dev } e (some k) none
      ∧ ∀ l, l < 128 / b → lane b (((crStep op legal eff e none s.dev).eng e).vr k) l = toS b (wrapU b (nth vals l 0)) := by
  obtain ⟨hkeeps, hvr⟩ := crStep_vec h hm hop hl heff hws
  exact ⟨hkeeps, fun l hlane => (congrArg (lane b · l) hvr).trans (lane_ofLanes hlen hlane)⟩

/-- An instruction that narrows each value to a lane, with SAT (R311). -/
theorem crStep_narrow (h : s.issues e op w = true) (hm : movesNothing w = true) (hop : crListed op = true) (hl : legal (s.dev.eng e) w = true)
    {b q : Nat} {vals : List Int} (hb : 0 < b)
    (heff : eff (s.dev.eng e) w = { writes := (.v k, ofLanes b ((vals.map (narrow b q)).map fun v => v.1)) :: satBit (vals.map (narrow b q)) })
    (hlen : vals.length = 128 / b) :
    s.CrKeeps { s with dev := crStep op legal eff e none s.dev } e (some k) none
      ∧ ∀ l, l < 128 / b → lane b (((crStep op legal eff e none s.dev).eng e).vr k) l = satS b (rshr (nth vals l 0) q) := by
  obtain ⟨hkeeps, hlanes⟩ := crStep_lanes h hm hop hl heff (status_satBit _) (by simpa using hlen)
  refine ⟨hkeeps, fun l hlane => (hlanes l hlane).trans ?_⟩
  rw [List.map_map, nth_map _ (hlen ▸ hlane) 0]
  exact toS_wrapU_of_fits hb (satS_fits _ _)

/-! ### ILLEGAL (R329, R361) -/

theorem Dev.engs_engFault (d : Dev) (n code : Nat) : (d.engFault n code).engs = (d.setEng n { (d.eng n).settle with state := 4, fault := code }).engs :=
  Dev.engs_clEvent ..

theorem Dev.eng_engFault_self (d : Dev) (n code : Nat) : (d.engFault n code).eng n = { (d.eng n).settle with state := 4, fault := code } :=
  (Dev.eng_congr (d.engs_engFault n code) n).trans (d.eng_setEng_self n _)

/-- A listed instruction with an operand it does not allow is ILLEGAL. -/
theorem crStep_illegal (h : s.issues e op w = true) (hop : crListed op = true) (hl : legal (s.dev.eng e) w = false) :
    crStep op legal eff e none s.dev = s.dev.engFault e 2 := by
  simp only [State.issues, Bool.and_eq_true, beq_iff_eq, decide_eq_true_eq, Option.isNone_iff_eq_none, Bool.not_eq_true'] at h
  obtain ⟨⟨⟨⟨⟨⟨⟨⟨⟨⟨⟨⟨hrun, hentry⟩, hpc⟩, hfetch⟩, hcode⟩, -⟩, -⟩, -⟩, -⟩, -⟩, -⟩, -⟩, hgood⟩ := h
  unfold crStep
  simp only [Dev.engUpset, hrun, hentry, Nat.not_le.mpr hpc, hfetch, hcode, hgood, hop, hl, ne_eq, not_true_eq_false, Option.isSome_none, Bool.false_eq_true,
    or_self, or_true, if_false, if_true, Bool.not_true, Bool.not_false]

end Issue

end Sys2Proof.Machine
end

section
/-! SUPPORT. Moves, comparisons, lane operations and searches of Cratre. -/
namespace Sys2Proof.Machine

/-! ### Lanes as values -/

theorem lane_fits {b : Nat} (hb : 0 < b) (v : Word128) (l : Nat) : fits b (lane b v l) := sfld_fits hb v _

/-- A lane comes back from its two's complement number. -/
theorem toS_wrapU_lane {b : Nat} (hb : 0 < b) (v : Word128) (l : Nat) : toS b (wrapU b (lane b v l)) = lane b v l :=
  toS_wrapU_of_fits hb (lane_fits hb v l)

/-- CMP writes the flags alone; Z says whether the difference of the lanes 0 is zero. -/
theorem crCmpEff_eq (x : EngSt) (w : CrW) : ∃ v c n, crCmpEff x w
    = { writes := [(.flags, flagNibble v c n (decide (wrapU (crWidth w) (lane (crWidth w) (x.vr (crA w)) 0 - lane (crWidth w) (x.vr (crB w)) 0) = 0)))] } :=
  ⟨_, _, _, rfl⟩

/-- The difference of two values of a width is zero in it only if they are equal. -/
theorem wrapU_sub_eq_zero_iff {b : Nat} (hb : 0 < b) {u v : Int} (hu : fits b u) (hv : fits b v) : wrapU b (u - v) = 0 ↔ u = v := by
  obtain ⟨-, hint, -⟩ := two_pow_pred hb
  obtain ⟨hulo, huhi⟩ := hu
  obtain ⟨hvlo, hvhi⟩ := hv
  have hnonneg : 0 ≤ (u - v) % 2 ^ b := Int.emod_nonneg _ (by positivity)
  constructor
  · intro hzero
    unfold wrapU at hzero
    have hdvd : (2 : Int) ^ b ∣ u - v := Int.dvd_of_emod_eq_zero (by omega)
    have hsub : u - v = 0 := Int.eq_zero_of_abs_lt_dvd hdvd (abs_lt.mpr ⟨by omega, by omega⟩)
    omega
  · rintro rfl
    simp [wrapU]

/-- PACK takes the lanes of Va, then those of Vb. -/
theorem nth_lanes_append (u v : Word128) {l : Nat} (h : l < 8) :
    nth (lanes 32 u ++ lanes 32 v) l 0 = if l < 4 then lane 32 u l else lane 32 v (l - 4) := by
  have hlen : (lanes 32 u).length = 4 := length_lanes 32 u
  split
  next hlow =>
    exact (List.getD_append _ _ _ _ (hlen ▸ hlow)).trans (nth_lanes u hlow)
  next hhigh =>
    refine (List.getD_append_right _ _ _ _ (by omega)).trans ?_
    rw [hlen]
    exact nth_lanes v (by omega)

/-- UNPK takes four lanes of the half that AUX names. -/
theorem nth_half_lanes (v : Word128) {half l : Nat} (hhalf : half < 2) (h : l < 4) : nth (((lanes 16 v).drop (4 * half)).take 4) l 0 = lane 16 v (4 * half + l) := by
  rw [← nth_lanes v (show 4 * half + l < 128 / 16 by omega)]
  simp [nth, h]

/-! ### MAXI and MINI (R353) -/

/-- The first m values searched: the best one so far with its place. -/
def bestOf (better : Int → Int → Bool) (f : Nat → Int) (m : Nat) : Int × Nat :=
  (List.range m).foldl (fun a i => if better (f i) a.1 then (f i, i) else a) (f 0, 0)

theorem bestOf_succ (better : Int → Int → Bool) (f : Nat → Int) (m : Nat) :
    bestOf better f (m + 1) = if better (f m) (bestOf better f m).1 then (f m, m) else bestOf better f m := by
  rw [bestOf, List.range_succ, List.foldl_append]
  rfl

section Search
variable {better : Int → Int → Bool} {f : Nat → Int} {n l0 : Nat}

/-- Up to the best place the search holds an earlier value; from there on it holds the best one. -/
theorem bestOf_eq_or (hbest : ∀ l, l < n → better (f l) (f l0) = false) (hfirst : ∀ l, l < l0 → better (f l0) (f l) = true) {m : Nat} (hm : m ≤ n) :
    bestOf better f m = (f l0, l0) ∨ m ≤ l0 ∧ ∃ i, i < l0 ∧ bestOf better f m = (f i, i) := by
  induction m with
  | zero =>
    rcases Nat.eq_zero_or_pos l0 with rfl | hpos
    · exact .inl rfl
    · exact .inr ⟨Nat.zero_le _, 0, hpos, rfl⟩
  | succ m ih =>
    rw [bestOf_succ]
    rcases ih (Nat.le_of_succ_le hm) with hdone | ⟨hle, i, hi, hearlier⟩
    · rw [hdone, hbest m hm]
      exact .inl rfl
    · rw [hearlier]
      rcases Nat.eq_or_lt_of_le hle with rfl | hlt
      · rw [hfirst i hi]
        exact .inl rfl
      · right
        refine ⟨hlt, ?_⟩
        split
        · exact ⟨m, hlt, rfl⟩
        · exact ⟨i, hi, rfl⟩

/-- The search finds the best value, at the lowest place among equals. -/
theorem bestOf_eq (hl0 : l0 < n) (hbest : ∀ l, l < n → better (f l) (f l0) = false) (hfirst : ∀ l, l < l0 → better (f l0) (f l) = true) :
    bestOf better f n = (f l0, l0) :=
  (bestOf_eq_or hbest hfirst le_rfl).resolve_right fun hearlier => by omega

end Search

theorem zipIdx_lanes (b : Nat) (v : Word128) : (lanes b v).zipIdx = (List.range (128 / b)).map fun i => (lane b v i, i) :=
  List.ext_getElem (by simp [lanes]) fun i _ _ => by simp [lanes, lane]

/-- The search of the model is over the lanes of Va. -/
theorem foldl_lanes_eq_bestOf (better : Int → Int → Bool) {b : Nat} (hpos : 0 < 128 / b) (v : Word128) :
    (lanes b v).zipIdx.foldl (fun (a : Int × Nat) v => if better v.1 a.1 then v else a) (nth (lanes b v) 0 0, 0)
      = bestOf better (lane b v) (128 / b) := by
  rw [zipIdx_lanes, List.foldl_map, nth_lanes v hpos]
  rfl

/-- The lanes of Vd after a search whose best lane of Va is l0. -/
def searchVals (better : Int → Int → Bool) (x : EngSt) (w : CrW) (l0 : Nat) : List Int :=
  let m := lane (crWidth w) (x.vr (crA w)) l0
  let st := x.vr (crD w)
  let next := lane 32 st 2
  if better m (lane 32 st 0) then [m, next + l0, next + (128 / crWidth w : Nat), 0] else [lane 32 st 0, lane 32 st 1, next + (128 / crWidth w : Nat), 0]

theorem searchEff_eq {better : Int → Int → Bool} {x : EngSt} {w : CrW} {l0 : Nat} (hl0 : l0 < 128 / crWidth w)
    (hbest : ∀ l, l < 128 / crWidth w → better (lane (crWidth w) (x.vr (crA w)) l) (lane (crWidth w) (x.vr (crA w)) l0) = false)
    (hfirst : ∀ l, l < l0 → better (lane (crWidth w) (x.vr (crA w)) l0) (lane (crWidth w) (x.vr (crA w)) l) = true) :
    searchEff better x w = { writes := [(.v (crD w), ofLanes 32 (searchVals better x w l0))] } := by
  unfold searchEff searchVals
  dsimp only
  rw [foldl_lanes_eq_bestOf better (Nat.zero_lt_of_lt hl0), bestOf_eq hl0 hbest hfirst, length_lanes, nth_lanes (l := 0) _ (by decide),
    nth_lanes (l := 1) _ (by decide), nth_lanes (l := 2) _ (by decide)]
  split <;> rfl

theorem crWidth_le (w : CrW) : crWidth w ≤ 32 := by unfold crWidth; split <;> decide

/-- A lane of either width keeps its value in a lane of 32 bits. -/
theorem toS_wrapU_lane_crWidth (w : CrW) (v : Word128) (l : Nat) : toS 32 (wrapU 32 (lane (crWidth w) v l)) = lane (crWidth w) v l :=
  toS_wrapU_of_fits (by decide) (fits_mono (crWidth_le w) (lane_fits (crWidth_pos w) v l))

section Commands
variable {s : State} {e op : Nat} {w : CrW}

/-- One issue of a search; `R a b` says that a is strictly better than b. -/
theorem crStep_search {R : Int → Int → Prop} [DecidableRel R] {l0 : Nat} (h : s.issues e op w = true) (hm : movesNothing w = true) (hop : crListed op = true)
    (hl : crLegalA true true .vec .vec 0 0 w = true) (hl0 : l0 < 128 / crWidth w)
    (hbest : ∀ l, l < 128 / crWidth w → ¬ R (lane (crWidth w) ((s.dev.eng e).vr (crA w)) l) (lane (crWidth w) ((s.dev.eng e).vr (crA w)) l0))
    (hfirst : ∀ l, l < l0 → R (lane (crWidth w) ((s.dev.eng e).vr (crA w)) l0) (lane (crWidth w) ((s.dev.eng e).vr (crA w)) l)) :
    let m := lane (crWidth w) ((s.dev.eng e).vr (crA w)) l0
    let d := crStep op (fun _ => crLegalA true true .vec .vec 0 0) (searchEff fun a b => decide (R a b)) e none s.dev
    s.CrKeeps { s with dev := d } e (some (crD w)) none
      ∧ (if R m (lane 32 ((s.dev.eng e).vr (crD w)) 0)
         then lane 32 ((d.eng e).vr (crD w)) 0 = m
           ∧ lane 32 ((d.eng e).vr (crD w)) 1 = toS 32 (wrapU 32 (lane 32 ((s.dev.eng e).vr (crD w)) 2 + l0))
         else lane 32 ((d.eng e).vr (crD w)) 0 = lane 32 ((s.dev.eng e).vr (crD w)) 0
           ∧ lane 32 ((d.eng e).vr (crD w)) 1 = lane 32 ((s.dev.eng e).vr (crD w)) 1)
      ∧ lane 32 ((d.eng e).vr (crD w)) 2 = toS 32 (wrapU 32 (lane 32 ((s.dev.eng e).vr (crD w)) 2 + (128 / crWidth w : Nat)))
      ∧ lane 32 ((d.eng e).vr (crD w)) 3 = 0 := by
  intro m d
  have hlen : (searchVals (fun a b => decide (R a b)) (s.dev.eng e) w l0).length = 128 / 32 := by unfold searchVals; dsimp only; split <;> rfl
  obtain ⟨hkeeps, hlanes⟩ := crStep_lanes (ws := []) (legal := fun _ => crLegalA true true .vec .vec 0 0) h hm hop hl
    (searchEff_eq hl0 (fun l hlane => decide_eq_false (hbest l hlane)) fun l hlane => decide_eq_true (hfirst l hlane)) (by simp) hlen
  refine ⟨hkeeps, ?_⟩
  rw [hlanes 0 (by decide), hlanes 1 (by decide), hlanes 2 (by decide), hlanes 3 (by decide)]
  unfold searchVals
  dsimp only
  by_cases hbetter : R m (lane 32 ((s.dev.eng e).vr (crD w)) 0)
  · rw [if_pos hbetter, if_pos (decide_eq_true hbetter)]
    exact ⟨⟨toS_wrapU_lane_crWidth w _ l0, rfl⟩, rfl, rfl⟩
  · rw [if_neg hbetter, if_neg fun hdec => hbetter (of_decide_eq_true hdec)]
    exact ⟨⟨toS_wrapU_lane (by decide) _ 0, toS_wrapU_lane (by decide) _ 1⟩, rfl, rfl⟩

/-- Without B and AUX bits allowed, a word that holds one is not legal. -/
theorem crLegalA_eq_false {wd0 wd1 : Bool} {dU aU : CrUse} (hne : crB w ≠ 0 ∨ crAux w ≠ 0) : crLegalA wd0 wd1 dU aU 0 0 w = false := by
  rcases hne with hb | haux
  · simp [crLegalA, hb.symm]
  · simp [crLegalA, haux.symm]

theorem crStep_search_illegal {better : Int → Int → Bool} (h : s.issues e op w = true) (hop : crListed op = true) (hne : crB w ≠ 0 ∨ crAux w ≠ 0) :
    let d := crStep op (fun _ => crLegalA true true .vec .vec 0 0) (searchEff better) e none s.dev
    (d.eng e).state = 4 ∧ (d.eng e).fault = 2 := by
  intro d
  have hd : d = s.dev.engFault e 2 := crStep_illegal h hop (crLegalA_eq_false hne)
  rw [hd, Dev.eng_engFault_self]
  exact ⟨rfl, rfl⟩

end Commands

/-! ### The commands, one by one -/

section Commands
variable (s : State) (e : Fin 128) (w : CrW)

theorem exec_crNop (h : s.issues e 0x00 w = true) (hm : movesNothing w = true) (hl : crLegalA true false .none .none 0 0 w = true) :
    ∃ t, exec (.crNop e none) s = .next t ∧ s.CrKeeps t e none none ∧ (t.dev.eng e).sr = (s.dev.eng e).sr :=
  ⟨_, rfl, crStep_status (eff := crNopEff) (ws := []) h hm rfl hl rfl (by simp)⟩

theorem exec_crMov (h : s.issues e 0x01 w = true) (hm : movesNothing w = true) (hl : crLegalA true false .vec .vec 0 0 w = true) :
    ∃ t, exec (.crMov e none) s = .next t ∧ s.CrKeeps t e (some (crD w)) none ∧ (t.dev.eng e).vr (crD w) = (s.dev.eng e).vr (crA w) := by
  obtain ⟨hkeeps, hvr⟩ := crStep_vec (eff := crMovEff) (legal := fun _ => crLegalA true false .vec .vec 0 0) (ws := []) h hm rfl hl rfl (by simp)
  rw [BitVec.ofNat_toNat, BitVec.setWidth_eq] at hvr
  exact ⟨_, rfl, hkeeps, hvr⟩

theorem exec_crShl (h : s.issues e 0x0C w = true) (hm : movesNothing w = true) (hl : crLegalA true true .vec .vec 0 31 w = true) :
    ∃ t, exec (.crShl e none) s = .next t ∧ s.CrKeeps t e (some (crD w)) none
      ∧ ∀ l, l < 128 / crWidth w → lane (crWidth w) ((t.dev.eng e).vr (crD w)) l
        = toS (crWidth w) (wrapU (crWidth w) (lane (crWidth w) ((s.dev.eng e).vr (crA w)) l * 2 ^ crAux w)) := by
  obtain ⟨hkeeps, hlanes⟩ := crStep_lanes (eff := crShlEff) (legal := fun _ => crLegalA true true .vec .vec 0 31) (ws := []) h hm rfl hl rfl
    (by simp) (by rw [List.length_map, length_lanes])
  refine ⟨_, rfl, hkeeps, fun l hlane => (hlanes l hlane).trans ?_⟩
  rw [nth_map _ (by rwa [length_lanes]) 0, nth_lanes _ hlane]

theorem exec_crShr (h : s.issues e 0x0D w = true) (hm : movesNothing w = true) (hl : crLegalA true true .vec .vec 0 31 w = true) :
    ∃ t, exec (.crShr e none) s = .next t ∧ s.CrKeeps t e (some (crD w)) none
      ∧ ∀ l, l < 128 / crWidth w → lane (crWidth w) ((t.dev.eng e).vr (crD w)) l
        = satS (crWidth w) (rshr (lane (crWidth w) ((s.dev.eng e).vr (crA w)) l) (crAux w)) := by
  obtain ⟨hkeeps, hlanes⟩ := crStep_narrow (eff := crShrEff) (legal := fun _ => crLegalA true true .vec .vec 0 31) h hm rfl hl (crWidth_pos w) rfl
    (length_lanes _ _)
  exact ⟨_, rfl, hkeeps, fun l hlane => (hlanes l hlane).trans (by rw [nth_lanes _ hlane])⟩

theorem exec_crCmp (h : s.issues e 0x0F w = true) (hm : movesNothing w = true) (hl : crLegalA true true .none .vec 31 0 w = true) :
    ∃ t, exec (.crCmp e none) s = .next t ∧ s.CrKeeps t e none none
      ∧ bit (t.dev.eng e).sr 0 = decide (lane (crWidth w) ((s.dev.eng e).vr (crA w)) 0 = lane (crWidth w) ((s.dev.eng e).vr (crB w)) 0) := by
  obtain ⟨v, c, n, heff⟩ := crCmpEff_eq (s.dev.eng e) w
  obtain ⟨hkeeps, hsr⟩ := crStep_status (legal := fun _ => crLegalA true true .none .vec 31 0) h hm rfl hl heff (List.forall_mem_singleton.mpr rfl)
  obtain ⟨hz, -, -⟩ := (s.dev.eng e).bit_sr_put_flags v c n _
  refine ⟨_, rfl, hkeeps, ((congrArg (bit · 0) hsr).trans hz).trans (decide_eq_decide.mpr ?_)⟩
  exact wrapU_sub_eq_zero_iff (crWidth_pos w) (lane_fits (crWidth_pos w) _ 0) (lane_fits (crWidth_pos w) _ 0)

theorem exec_crBcast (h : s.issues e 0x10 w = true) (hm : movesNothing w = true) (hl : crLegalA true true .vec .vec 0 31 w = true)
    (haux : crAux w < 128 / crWidth w) :
    ∃ t, exec (.crBcast e none) s = .next t ∧ s.CrKeeps t e (some (crD w)) none
      ∧ ∀ l, l < 128 / crWidth w → lane (crWidth w) ((t.dev.eng e).vr (crD w)) l = lane (crWidth w) ((s.dev.eng e).vr (crA w)) (crAux w) := by
  obtain ⟨hkeeps, hlanes⟩ := crStep_lanes (eff := crBcastEff) (ws := [])
    (legal := fun _ w => crLegalA true true .vec .vec 0 31 w && decide (crAux w < 128 / crWidth w)) h hm rfl
    (by rw [hl, decide_eq_true haux]; rfl) rfl (by simp) (by rw [List.length_map, length_lanes])
  refine ⟨_, rfl, hkeeps, fun l hlane => (hlanes l hlane).trans ?_⟩
  rw [nth_map _ (by rwa [length_lanes]) 0, nth_lanes _ haux, toS_wrapU_lane (crWidth_pos w)]

theorem exec_crPack (h : s.issues e 0x11 w = true) (hm : movesNothing w = true) (hl : crLegalA false true .vec .vec 31 31 w = true) :
    ∃ t, exec (.crPack e none) s = .next t ∧ s.CrKeeps t e (some (crD w)) none
      ∧ ∀ l, l < 8 → lane 16 ((t.dev.eng e).vr (crD w)) l
        = satS 16 (rshr (if l < 4 then lane 32 ((s.dev.eng e).vr (crA w)) l else lane 32 ((s.dev.eng e).vr (crB w)) (l - 4)) (crAux w)) := by
  obtain ⟨hkeeps, hlanes⟩ := crStep_narrow (eff := crPackEff) (legal := fun _ => crLegalA false true .vec .vec 31 31) h hm rfl hl (by decide) rfl
    (by rw [List.length_append, length_lanes, length_lanes])
  exact ⟨_, rfl, hkeeps, fun l hlane => (hlanes l hlane).trans (by rw [nth_lanes_append _ _ hlane])⟩

theorem exec_crUnpk (h : s.issues e 0x12 w = true) (hm : movesNothing w = true) (hl : crLegalA false true .vec .vec 0 1 w = true) :
    ∃ t, exec (.crUnpk e none) s = .next t ∧ s.CrKeeps t e (some (crD w)) none
      ∧ ∀ l, l < 4 → lane 32 ((t.dev.eng e).vr (crD w)) l = lane 16 ((s.dev.eng e).vr (crA w)) (4 * crAux w + l) := by
  have haux : crAux w < 2 := crAux_lt_two hl
  obtain ⟨hkeeps, hlanes⟩ := crStep_lanes (eff := crUnpkEff) (legal := fun _ => crLegalA false true .vec .vec 0 1) (ws := []) h hm rfl hl rfl
    (by simp) (by rw [List.length_take, List.length_drop, length_lanes]; omega)
  refine ⟨_, rfl, hkeeps, fun l hlane => (hlanes l hlane).trans ?_⟩
  rw [Nat.mod_eq_of_lt haux, nth_half_lanes _ haux hlane]
  exact toS_wrapU_of_fits (by decide) (fits_mono (by decide) (lane_fits (by decide) _ _))

end Commands

end Sys2Proof.Machine

namespace Sys2Proof
open Sys2Proof.Machine

/-- Settles O31, command by command: a result is a vector copied, a vector of lanes packed in order, or flags. -/
theorem cratreLogic : Obligations.CratreLogic := by
  unfold Obligations.CratreLogic
  exact ⟨exec_crNop, exec_crMov, fun s e w h hm hl => ⟨_, rfl, crStep_bitRes h hm rfl hl rfl⟩, fun s e w h hm hl => ⟨_, rfl, crStep_bitRes h hm rfl hl rfl⟩,
    fun s e w h hm hl => ⟨_, rfl, crStep_bitRes h hm rfl hl rfl⟩, exec_crShl, exec_crShr, exec_crCmp, exec_crBcast, exec_crPack, exec_crUnpk⟩

/-- Settles O32: the search over the lanes holds an earlier lane up to the best one and that one from there on. -/
theorem cratreSearch : Obligations.CratreSearch := by
  unfold Obligations.CratreSearch
  exact ⟨fun s e w l0 h hm hl hl0 hbest hfirst => ⟨_, rfl, crStep_search (R := fun a b => b < a) h hm rfl hl hl0 (fun l hlane => not_lt.mpr (hbest l hlane)) hfirst⟩,
    fun s e w l0 h hm hl hl0 hbest hfirst => ⟨_, rfl, crStep_search (R := fun a b => a < b) h hm rfl hl hl0 (fun l hlane => not_lt.mpr (hbest l hlane)) hfirst⟩,
    fun s e w hne => ⟨fun h => ⟨_, rfl, crStep_search_illegal h rfl hne⟩, fun h => ⟨_, rfl, crStep_search_illegal h rfl hne⟩⟩⟩

end Sys2Proof
end

section
/-! SUPPORT. Lists cut into words and read back, and bytes of HBM in pieces. -/
namespace Sys2Proof.Machine

/-- A list of k pieces is cut into them. -/
theorem chunksFuel_eq_map {α : Type} {n : Nat} (hn : 0 < n) (k : Nat) :
    ∀ (l : List α) (fuel : Nat), l.length = n * k → k ≤ fuel → chunksFuel n fuel l = (List.range k).map fun i => (l.drop (n * i)).take n := by
  induction k with
  | zero =>
    intro l fuel hl _
    obtain rfl := List.eq_nil_of_length_eq_zero (hl.trans (Nat.mul_zero n))
    cases fuel <;> rfl
  | succ k ih =>
    intro l fuel hl hk
    obtain ⟨fuel, rfl⟩ : ∃ m, fuel = m + 1 := ⟨fuel - 1, by omega⟩
    have hlen : l.length = n * k + n := hl.trans (Nat.mul_succ n k)
    cases l with
    | nil => simp only [List.length_nil] at hlen; omega
    | cons x xs =>
      change (x :: xs).take n :: chunksFuel n fuel ((x :: xs).drop n) = _
      rw [ih _ fuel (by rw [List.length_drop, hlen]; omega) (by omega), List.range_succ_eq_map, List.map_cons, List.map_map]
      refine congrArg₂ List.cons (by rw [Nat.mul_zero, List.drop_zero]) (List.map_congr_left fun i _ => ?_)
      rw [List.drop_drop, Function.comp_apply, Nat.mul_succ, Nat.add_comm]

theorem chunks_eq_map {α : Type} {n k : Nat} {l : List α} (hn : 0 < n) (h : l.length = n * k) :
    chunks n l = (List.range k).map fun i => (l.drop (n * i)).take n :=
  chunksFuel_eq_map hn k l _ h (h ▸ Nat.le_mul_of_pos_left k hn)

@[simp] theorem Mem.length_bytes (m : Mem) (a n : Nat) : (m.bytes a n).length = n := by simp [Mem.bytes]

/-- A piece of the bytes of a range is the bytes of a range. -/
theorem Mem.take_drop_bytes (m : Mem) {a n i j : Nat} (h : i + j ≤ n) : ((m.bytes a n).drop i).take j = m.bytes (a + i) j := by
  refine List.ext_getElem (by simp; omega) fun k _ _ => ?_
  simp [Mem.bytes, Nat.add_assoc]

theorem Mem.take_bytes (m : Mem) {a n j : Nat} (h : j ≤ n) : (m.bytes a n).take j = m.bytes a j :=
  m.take_drop_bytes (i := 0) (by omega)

theorem Mem.drop_bytes (m : Mem) (a i n : Nat) : (m.bytes a (i + n)).drop i = m.bytes (a + i) n := by
  rw [← m.take_drop_bytes (Nat.le_refl (i + n)), List.take_of_length_le (by simp)]

end Sys2Proof.Machine
end

section
/-! SUPPORT. What decides an access to HBM, what such an access leaves alone, and accesses that nothing refuses. -/
namespace Sys2Proof.Machine

/-! ### The windows (R538, R539) -/

/-- The registers of the table of windows in force. -/
def windowKey (j : Nat) : Prop := 0x2A3000 ≤ j ∧ j < 0x2A5000

/-- A key that a filter passes over may take any value. -/
theorem Tab.filterMap_set {α β : Type} [DecidableEq α] (dflt : Nat → α) (f : Nat × α → Option β) (t : Tab α) (k : Nat) (x : α)
    (h : ∀ v, f (k, v) = none) : (t.set dflt k x).filterMap f = t.filterMap f := by
  unfold Tab.set
  split
  · induction t with
    | nil => rfl
    | cons e r ih =>
      unfold Tab.erase at ih ⊢
      by_cases he : e.1 = k
      · have hnone : f e = none := by rw [← h e.2, ← he]
        simp [he, hnone, ih]
      · simp [he, List.filterMap_cons, ih]
  · induction t with
    | nil => simp [Tab.insert, h]
    | cons e r ih =>
      unfold Tab.insert
      split_ifs with he hlt
      · have hnone : f e = none := by rw [← h e.2, ← he]
        simp [h, hnone]
      · simp [h]
      · simp [List.filterMap_cons, ih]

theorem Dev.winEntries_wr (d : Dev) {k : Nat} (hk : ¬ windowKey k) (v : Word) : (d.wr k v).winEntries = d.winEntries :=
  Tab.filterMap_set regReset _ d.regs k v fun _ => if_neg fun h => hk ⟨h.1, h.2.1⟩

theorem Dev.lt_of_mem_winEntries {d : Dev} {w : Nat} (h : w ∈ d.winEntries) : w < 512 := by
  obtain ⟨e, -, he⟩ := List.mem_filterMap.mp h
  simp only [Option.ite_none_right_eq_some, Option.some.injEq] at he
  omega

theorem lowest_mem {l : List Nat} {k : Nat} (h : lowest l = some k) : k ∈ l := by
  cases l with
  | nil => cases h
  | cons a l =>
    have hmin : ∀ (l : List Nat) (a : Nat), l.foldl min a = a ∨ l.foldl min a ∈ l := by
      intro l
      induction l with
      | nil => exact fun a => .inl rfl
      | cons b l ih =>
        intro a
        rcases ih (min a b) with h | h
        · rcases min_choice a b with hab | hab <;> rw [hab] at h <;> simp [hab, h]
        · exact .inr (List.mem_cons_of_mem b h)
    obtain rfl := Option.some.inj h
    rcases hmin l a with h | h <;> simp [h]

/-! ### What decides an access (R439, R539) -/

/-- What decides an access to HBM is the same: the windows in force and the uncorrectable units; and so is every register that P names. -/
structure Dev.SameBus (P : Nat → Prop) (d e : Dev) : Prop where
  same : d.SameOn (fun j => windowKey j ∨ P j) e
  entries : e.winEntries = d.winEntries
  ue : e.mc.ue = d.mc.ue

section SameBus
variable {P : Nat → Prop} {a d e : Dev}

theorem Dev.SameBus.refl (d : Dev) : d.SameBus P d := ⟨.refl d, rfl, rfl⟩

theorem Dev.SameBus.trans (had : a.SameBus P d) (hde : d.SameBus P e) : a.SameBus P e :=
  ⟨had.same.trans hde.same, hde.entries.trans had.entries, hde.ue.trans had.ue⟩

theorem Dev.SameBus.tb (h : d.SameBus P e) : e.tb = d.tb := h.same.1

theorem Dev.SameBus.rd (h : d.SameBus P e) {j : Nat} (hj : P j) : e.rd j = d.rd j := h.same.2 j (.inr hj)

/-- Fewer registers are the same too. -/
theorem Dev.SameBus.mono {Q : Nat → Prop} (h : d.SameBus P e) (hQ : ∀ j, Q j → P j) : d.SameBus Q e :=
  ⟨⟨h.tb, fun j hj => h.same.2 j (hj.imp_right (hQ j))⟩, h.entries, h.ue⟩

/-- So it is after an update of another unit's state. -/
theorem Dev.SameBus.of_units (h : a.SameBus P d) (htb : e.tb = d.tb) (hregs : e.regs = d.regs) (hue : e.mc.ue = d.mc.ue) : a.SameBus P e :=
  ⟨h.same.of_regs htb hregs, (congrArg (List.filterMap _) hregs).trans h.entries, hue.trans h.ue⟩

theorem Dev.SameBus.wr (h : a.SameBus P d) {k : Nat} (hk : ¬ (windowKey k ∨ P k)) (v : Word) : a.SameBus P (d.wr k v) :=
  ⟨h.same.wr hk v, (d.winEntries_wr (fun hw => hk (.inl hw)) v).trans h.entries, h.ue⟩

theorem Dev.SameBus.putB (h : a.SameBus P d) {k : Nat} (hk : ¬ (windowKey k ∨ P k)) (i : Nat) (b : Bool) : a.SameBus P (d.putB k i b) := by
  cases b <;> exact h.wr hk _

theorem Dev.SameBus.event (h : a.SameBus P d) {st n : Nat} (hst : ¬ (windowKey st ∨ P st)) (hev : ¬ (windowKey (Reg.EV_SEQ n) ∨ P (Reg.EV_SEQ n))) :
    a.SameBus P (d.event st n) := ((h.wr hst _).wr hev _).of_units rfl rfl rfl

theorem Dev.SameBus.sqEvent (h : a.SameBus P d) {st n : Nat} (b : Nat) (hst : ¬ (windowKey st ∨ P st))
    (hev : ¬ (windowKey (Reg.EV_SEQ n) ∨ P (Reg.EV_SEQ n))) : a.SameBus P (d.sqEvent st b n) := by
  unfold Dev.sqEvent
  split
  · exact h
  · exact (h.wr hst _).event hst hev

variable {i : Ini}

theorem Dev.SameBus.winMatch (h : d.SameBus P e) {w : Nat} (hw : w ∈ d.winEntries) (x n : Nat) : e.winMatch w i x n = d.winMatch w i x n := by
  have hlt := Dev.lt_of_mem_winEntries hw
  have hrd {j : Nat} (hj : j < 4) : e.rd (Reg.WIN_FORCE w j) = d.rd (Reg.WIN_FORCE w j) :=
    h.same.2 _ (.inl ⟨by unfold Reg.WIN_FORCE; omega, by unfold Reg.WIN_FORCE; omega⟩)
  unfold Dev.winMatch Dev.n
  rw [hrd (j := 0) (by decide), hrd (j := 1) (by decide), hrd (j := 2) (by decide), hrd (j := 3) (by decide)]

theorem Dev.SameBus.tableDeny (h : d.SameBus P e) (x n : Nat) (kd : Kind) : e.tableDeny i x n kd = d.tableDeny i x n kd := by
  have hmatch : e.winEntries.filter (fun w => e.winMatch w i x n) = d.winEntries.filter fun w => d.winMatch w i x n := by
    rw [h.entries]
    exact List.filter_congr fun w hw => h.winMatch hw x n
  unfold Dev.tableDeny
  rw [hmatch]
  cases hlow : lowest (d.winEntries.filter fun w => d.winMatch w i x n) with
  | none => rfl
  | some w =>
    have hlt := Dev.lt_of_mem_winEntries (List.mem_filter.mp (lowest_mem hlow)).1
    have hrd : e.rd (Reg.WIN_FORCE w 3) = d.rd (Reg.WIN_FORCE w 3) := h.same.2 _ (.inl ⟨by unfold Reg.WIN_FORCE; omega, by unfold Reg.WIN_FORCE; omega⟩)
    simp only [hrd]

theorem Dev.SameBus.hbmDeny (h : d.SameBus P e) (x n : Nat) (kd : Kind) : e.hbmDeny i x n kd = d.hbmDeny i x n kd := by
  rw [Dev.hbmDeny, Dev.hbmDeny, h.tableDeny]

/-- The windows decide as they did. -/
theorem Dev.SameBus.passes (h : d.SameBus P e) (port x n : Nat) (kd : Kind) : (e.checkMem i port x n kd).2 = (d.checkMem i port x n kd).2 := by
  unfold Dev.checkMem
  simp only [h.hbmDeny]
  split <;> rfl

variable {s t : State}

theorem Dev.SameBus.readable (h : s.dev.SameBus P t.dev) (port x n : Nat) : t.readable i port x n = s.readable i port x n := by
  rw [State.readable, State.readable, h.passes, Dev.ueIn, Dev.ueIn, h.ue]

theorem Dev.SameBus.writable (h : s.dev.SameBus P t.dev) (port x n : Nat) : t.writable i port x n = s.writable i port x n := by
  rw [State.writable, State.writable, h.passes, Dev.ueEdges, Dev.ueEdges, h.ue]

end SameBus

/-! ### A read that nothing refuses (R439, R441, R543) -/

/-- The registers that a read of a port which nothing refuses leaves as they are. -/
def offBytes (port j : Nat) : Prop := j ≠ Reg.PORT_BYTES port

/-- What a read of a port which nothing refuses leaves: it counts its bytes and its tokens. -/
structure Dev.SameButPort (port : Nat) (d e : Dev) : Prop where
  bus : d.SameBus (offBytes port) e
  cw : e.cw = d.cw
  trust : e.trust = d.trust
  pw : e.pw = d.pw

theorem Dev.SameButPort.trans {port : Nat} {a d e : Dev} (had : a.SameButPort port d) (hde : d.SameButPort port e) : a.SameButPort port e :=
  ⟨had.bus.trans hde.bus, hde.cw.trans had.cw, hde.trust.trans had.trust, hde.pw.trans had.pw⟩

theorem Dev.sameButPort_meter (d : Dev) (p : Nat) (i : Ini) (a n : Nat) : d.SameButPort p (d.meter p i a n) := by
  unfold Dev.meter
  dsimp only
  split <;> exact ⟨(Dev.SameBus.refl d).of_units rfl rfl rfl, rfl, rfl, rfl⟩

theorem Dev.sameButPort_moved (d : Dev) {p : Nat} (hp : p < 24) (n : Nat) : d.SameButPort p (d.moved p n) := by
  have hkey : ¬ (windowKey (Reg.PORT_BYTES p) ∨ offBytes p (Reg.PORT_BYTES p)) := by
    unfold windowKey offBytes Reg.PORT_BYTES
    omega
  have hset : d.SameBus (offBytes p) (d.setMport p { d.mport p with part := ((d.mport p).part + n) % 256 }) :=
    (Dev.SameBus.refl d).of_units rfl rfl rfl
  unfold Dev.moved
  rw [if_neg (Nat.not_le.mpr hp)]
  exact ⟨hset.wr hkey _, rfl, rfl, rfl⟩

/-- A read of a range that can be read gives its bytes. -/
theorem memRead_of_readable {s : State} {i : Ini} {port a n : Nat} (hp : port < 24) (h : s.readable i port a n = true) :
    ∃ d, memRead i port a n s.mem s.dev = (d, .ok (s.mem.bytes a n)) ∧ s.dev.SameButPort port d := by
  simp only [State.readable, Bool.and_eq_true, Option.isNone_iff_eq_none] at h
  obtain ⟨hpass, hue⟩ := h
  have hmeter := s.dev.sameButPort_meter port i a n
  have hgood : (s.dev.meter port i a n).ueIn a n = none := by rw [Dev.ueIn, hmeter.bus.ue, ← Dev.ueIn, hue]
  refine ⟨_, ?_, hmeter.trans (Dev.sameButPort_moved _ hp n)⟩
  simp [memRead, Dev.checkMem_of_pass hpass, hgood]

/-! ### Any write of a unit (R439, R543) -/

/-- The registers that an access of a unit to HBM can change. -/
def hbmKeys (port : Nat) : List Nat :=
  [Reg.PORT_BYTES port, Reg.MEM_UE, Reg.MEM_UE_ADDR_LO, Reg.MEM_UE_ADDR_HI, Reg.MC_STATUS, Reg.EV_SEQ 1510,
    Reg.DENY_COUNT, Reg.DENY_ADDR_LO, Reg.DENY_ADDR_HI, Reg.DENY_INFO, Reg.WIN_STATUS, Reg.EV_SEQ 1475]

/-- The other registers. -/
def offHbm (port j : Nat) : Prop := j ∉ hbmKeys port

theorem not_offHbm {port k : Nat} (h : k ∈ hbmKeys port) : ¬ offHbm port k := fun hk => hk h

theorem Dev.keeps_deny_offHbm (d : Dev) (q : Nat) (i : Ini) (addr : Nat) (kd : Kind) (reason port : Nat) :
    d.Keeps (offHbm q) (d.deny i addr kd reason port) := by
  unfold Dev.deny
  extract_lets d1 d2 d3 d4 d5
  have h2 : d.Keeps (offHbm q) d2 := (d.keeps_report _ _ _).wr (k := Reg.DENY_COUNT) (not_offHbm (by simp [hbmKeys])) _
  have h3 : d.Keeps (offHbm q) d3 := h2.wr64 (not_offHbm (by simp [hbmKeys])) (not_offHbm (by simp [hbmKeys])) _
  have h4 : d.Keeps (offHbm q) d4 := h3.wr (k := Reg.DENY_INFO) (not_offHbm (by simp [hbmKeys])) _
  have h5 : d.Keeps (offHbm q) d5 := h4.trans (d4.keeps_answer _)
  exact h5.sqEvent 3 (not_offHbm (by simp [hbmKeys])) (not_offHbm (by simp [hbmKeys]))

theorem Dev.keeps_denyUnit_offHbm (d : Dev) (q : Nat) (i : Ini) (port a : Nat) (kd : Kind) (reason : Nat) :
    d.Keeps (offHbm q) (d.denyUnit i port a kd reason) := (d.keeps_deny_offHbm q i a kd reason _).trans (Dev.keeps_answer _ _)

theorem Dev.keeps_checkMem_offHbm (d : Dev) (q : Nat) (i : Ini) (port a n : Nat) (kd : Kind) : d.Keeps (offHbm q) (d.checkMem i port a n kd).1 := by
  unfold Dev.checkMem
  split
  · exact .refl d
  · exact d.keeps_denyUnit_offHbm ..

theorem Dev.keeps_moved_offHbm (d : Dev) (port n : Nat) : d.Keeps (offHbm port) (d.moved port n) := by
  have hset : d.Keeps (offHbm port) (d.setMport port { d.mport port with part := ((d.mport port).part + n) % 256 }) :=
    (Dev.Keeps.refl d).of_units rfl rfl rfl rfl
  unfold Dev.moved
  dsimp only
  split
  · exact .refl d
  · exact hset.wr (not_offHbm (by simp [hbmKeys])) _

theorem Dev.keeps_meetUe_offHbm (d : Dev) (q port u : Nat) : d.Keeps (offHbm q) (d.meetUe port u) := by
  have hcount : d.Keeps (offHbm q) (d.addSat Reg.MEM_UE 1) := (Dev.Keeps.refl d).wr (k := Reg.MEM_UE) (not_offHbm (by simp [hbmKeys])) _
  have hue := hcount.wr64 (lo := Reg.MEM_UE_ADDR_LO) (hi := Reg.MEM_UE_ADDR_HI) (not_offHbm (by simp [hbmKeys])) (not_offHbm (by simp [hbmKeys])) (32 * u)
  have hbit := hue.sqEvent (st := Reg.MC_STATUS) (n := 1510) 5 (not_offHbm (by simp [hbmKeys])) (not_offHbm (by simp [hbmKeys]))
  exact hbit.trans (Dev.keeps_report _ _ _ _)

/-- A write, refused or not, changes no register but those of `hbmKeys`. -/
theorem keeps_memWrite_offHbm (i : Ini) (port a : Nat) (l : List Byte) (s : Sys) : s.dev.Keeps (offHbm port) (memWrite i port a l s).1.dev := by
  have hcheck := s.dev.keeps_checkMem_offHbm port i port a l.length .write
  have hmeter := hcheck.trans (Dev.keeps_meter _ port i a l.length)
  unfold memWrite
  dsimp only
  split
  · exact hcheck
  · refine hmeter.trans ?_
    unfold memPut
    extract_lets n bad d0 mc d1 d2
    have h2 : d0.Keeps (offHbm port) d2 := ((Dev.Keeps.refl d0).of_units rfl rfl rfl rfl).trans (d1.keeps_moved_offHbm port n)
    clear_value bad
    cases bad with
    | nil => exact h2
    | cons u bad => exact h2.foldl fun d u _ => d.keeps_meetUe_offHbm port port u

/-- A write, refused or not, changes no byte outside its range. -/
theorem byte_memWrite_out (i : Ini) (port a : Nat) (l : List Byte) (s : Sys) {b : Nat} (h : b < a ∨ a + l.length ≤ b) :
    (memWrite i port a l s).1.mem.byte b = s.mem.byte b := by
  unfold memWrite
  dsimp only
  split
  · rfl
  · unfold memPut
    dsimp only
    split
    · exact s.mem.byte_store_out a l b h
    · exact s.mem.byte_storeBut_out _ a l b h

end Sys2Proof.Machine
end

section
/-! SUPPORT. The rings of the causeway: a command that is fetched, what it reads, and a completion entry that is written. -/
namespace Sys2Proof.Machine

/-! ### A command is fetched (R366) -/

theorem State.fetches_iff {s : State} {c : Cmd} :
    s.fetches c = true ↔ s.dev.on Reg.CW_CTRL 31 = true ∧ s.dev.cw.waiting = [] ∧ s.dev.cwFull = false ∧ s.dev.cw.held = false
      ∧ s.dev.n Reg.CW_CMD_TAIL ≠ s.dev.n Reg.CW_CMD_HEAD
      ∧ s.readable 0x1E3 22 (s.dev.n64 Reg.CW_CMD_BASE_LO Reg.CW_CMD_BASE_HI + 64 * s.dev.n Reg.CW_CMD_TAIL) 64 = true
      ∧ readCmd (words128 (s.mem.bytes (s.dev.n64 Reg.CW_CMD_BASE_LO Reg.CW_CMD_BASE_HI + 64 * s.dev.n Reg.CW_CMD_TAIL) 64)) = c := by
  simp [State.fetches, and_assoc]

/-- The registers that fetching a command, and reading what it names, leave as they are. -/
def offFetch (j : Nat) : Prop := j ≠ Reg.CW_CMD_TAIL ∧ j ≠ Reg.PORT_BYTES 22

/-- The command at TAIL has been taken: the device d is what it was but for TAIL and what reads count. -/
structure State.Takes (s : State) (d : Dev) : Prop where
  bus : s.dev.SameBus offFetch d
  tail : d.n Reg.CW_CMD_TAIL = (s.dev.n Reg.CW_CMD_TAIL + 1) % 2 ^ s.dev.f Reg.CW_CTRL 8 4
  cw : d.cw = s.dev.cw
  trust : d.trust = s.dev.trust
  pw : d.pw = s.dev.pw

theorem State.Takes.rd {s : State} {d : Dev} (h : s.Takes d) {j : Nat} (hj : offFetch j) : d.rd j = s.dev.rd j := h.bus.rd hj

/-- A number modulo a power of two that a four-bit field gives fits in a register. -/
theorem mod_two_pow_fld_lt {n : Nat} (w : BitVec n) (lo v : Nat) : v % 2 ^ fld w lo 4 < 2 ^ 32 :=
  (Nat.mod_lt _ (Nat.two_pow_pos _)).trans (Nat.pow_lt_pow_right (by decide) ((fld_lt w lo 4).trans (by decide)))

theorem State.takes_of_sameButPort {s : State} {d : Dev} (h : s.dev.SameButPort 22 d) :
    s.Takes (d.wrN Reg.CW_CMD_TAIL ((s.dev.n Reg.CW_CMD_TAIL + 1) % 2 ^ d.f Reg.CW_CTRL 8 4)) where
  bus := (h.bus.mono fun _ hj => hj.2).wr (not_or.mpr ⟨by unfold windowKey; decide, fun hk => hk.1 rfl⟩) _
  tail := by
    have hctrl : d.f Reg.CW_CTRL 8 4 = s.dev.f Reg.CW_CTRL 8 4 := congrArg (fld · 8 4) (h.bus.rd (j := Reg.CW_CTRL) (by unfold offBytes; decide))
    rw [Dev.n_wrN_self, hctrl]
    exact Nat.mod_eq_of_lt (mod_two_pow_fld_lt ..)
  cw := h.cw
  trust := h.trust
  pw := h.pw

theorem cwRun_of_read {mine : Cmd → Bool} (f : Cmd → Sys → Sys) {y : Sys} {d : Dev} {l : List Byte}
    (hgo : y.dev.on Reg.CW_CTRL 31 = true ∧ y.dev.cw.waiting = [] ∧ y.dev.cwFull = false ∧ y.dev.n Reg.CW_CMD_TAIL ≠ y.dev.n Reg.CW_CMD_HEAD)
    (hread : memRead 0x1E3 22 (y.dev.n64 Reg.CW_CMD_BASE_LO Reg.CW_CMD_BASE_HI + 64 * y.dev.n Reg.CW_CMD_TAIL) 64 y.mem y.dev = (d, .ok l))
    (hbad : (readCmd (words128 l)).bad = false) (hmine : mine (readCmd (words128 l)) = true) :
    cwRun mine f y = (f (readCmd (words128 l))
      { y with dev := d.wrN Reg.CW_CMD_TAIL ((y.dev.n Reg.CW_CMD_TAIL + 1) % 2 ^ d.f Reg.CW_CTRL 8 4) }).on Dev.showCw := by
  obtain ⟨hen, hwait, hfull, hmore⟩ := hgo
  unfold cwRun
  extract_lets d tail
  rw [if_neg (by simp [d, tail, hen, hwait, hfull, hmore]), hread]
  simp only [hmine, hbad]
  rfl

/-- A command of the row's own kind that is fetched is executed, and TAIL advances. -/
theorem cwRun_of_fetches {s : State} {c : Cmd} {mine : Cmd → Bool} (f : Cmd → Sys → Sys) (h : s.fetches c = true) (hbad : c.bad = false)
    (hmine : mine c = true) : ∃ d, s.Takes d ∧ cwRun mine f ⟨s.mem, s.dev⟩ = (f c ⟨s.mem, d⟩).on Dev.showCw := by
  obtain ⟨hen, hwait, hfull, -, hmore, hread, rfl⟩ := State.fetches_iff.mp h
  obtain ⟨d, hd, hport⟩ := memRead_of_readable (by decide) hread
  exact ⟨_, State.takes_of_sameButPort hport, cwRun_of_read f (y := ⟨s.mem, s.dev⟩) ⟨hen, hwait, hfull, hmore⟩ hd hbad hmine⟩

/-- What a command names is read (R368). -/
theorem cwFetch_of_readable {s : State} {d : Dev} {a n : Nat} (h : s.Takes d) (hread : s.readable 0x1E3 22 a n = true) :
    ∃ e, s.Takes e ∧ cwFetch a n ⟨s.mem, d⟩ = (⟨s.mem, e⟩, 0, s.mem.bytes a n) := by
  obtain ⟨e, he, hport⟩ := memRead_of_readable (s := { s with dev := d }) (by decide) ((h.bus.readable (t := { s with dev := d }) 22 a n).trans hread)
  have htail : e.rd Reg.CW_CMD_TAIL = d.rd Reg.CW_CMD_TAIL := hport.bus.rd (by unfold offBytes; decide)
  refine ⟨e, ⟨h.bus.trans (hport.bus.mono fun _ hj => hj.2), (Dev.n_congr htail).trans h.tail, hport.cw.trans h.cw, hport.trust.trans h.trust,
    hport.pw.trans h.pw⟩, ?_⟩
  simp only [cwFetch, he]

/-! ### The bits that follow the state (R381, R382) -/

theorem Dev.cw_putB (d : Dev) (k i : Nat) (b : Bool) : (d.putB k i b).cw = d.cw := by cases b <;> rfl

theorem Dev.cw_sqEvent (d : Dev) (st b n : Nat) : (d.sqEvent st b n).cw = d.cw := by
  unfold Dev.sqEvent
  split <;> rfl

theorem Dev.cw_showCw (d : Dev) : d.showCw.cw = d.cw := by
  unfold Dev.showCw
  extract_lets d1 d2
  exact (Dev.cw_putB _ _ _ _).trans ((Dev.cw_putB _ _ _ _).trans (Dev.cw_putB _ _ _ _))

theorem Dev.rd_showCw_ne (d : Dev) {j : Nat} (hst : j ≠ Reg.CW_STATUS) (hgr : j ≠ Reg.CW_GROUPS) : d.showCw.rd j = d.rd j := by
  unfold Dev.showCw
  extract_lets d1 d2
  exact (Dev.rd_wrN_ne _ _ hgr).trans ((Dev.rd_putB_ne _ _ _ hst).trans ((Dev.rd_putB_ne _ _ _ hst).trans (Dev.rd_putB_ne _ _ _ hst)))

theorem Dev.on_putB_ne (d : Dev) {k i m : Nat} (b : Bool) (hi : i < 32) (hm : m < 32) (h : m ≠ i) : (d.putB k i b).on k m = d.on k m := by
  cases b
  · exact (d.on_clrB k k m i hi hm).trans (by simp [h])
  · exact (d.on_setB k k m i hi).trans (by simp [h])

/-- The bits of CW_STATUS that events set stay. -/
theorem Dev.on_status_showCw (d : Dev) {m : Nat} (hlo : 3 ≤ m) (hhi : m < 32) : d.showCw.on Reg.CW_STATUS m = d.on Reg.CW_STATUS m := by
  unfold Dev.showCw
  extract_lets d1 d2
  have hgr : Reg.CW_STATUS ≠ Reg.CW_GROUPS := by decide
  have h1 : d1.on Reg.CW_STATUS m = d.on Reg.CW_STATUS m := d.on_putB_ne _ (by omega) hhi (by omega)
  have h2 : d2.on Reg.CW_STATUS m = d1.on Reg.CW_STATUS m :=
    (Dev.on_putB_ne _ _ (by omega) hhi (by omega)).trans (d1.on_putB_ne _ (by omega) hhi (by omega))
  exact (Dev.on_congr m (d2.rd_wrN_ne _ hgr)).trans (h2.trans h1)

/-! ### One waiting entry is written (R370) -/

/-- The place of the next completion entry. -/
def Dev.doneAt (d : Dev) : Nat := d.n64 Reg.CW_DONE_BASE_LO Reg.CW_DONE_BASE_HI + 64 * d.n Reg.CW_DONE_HEAD

theorem State.doneAt_eq (s : State) : s.doneAt = s.dev.doneAt := rfl

/-- HBM and the device after the write of an entry to its place, refused or not. -/
def Sys.entryPut (y : Sys) (e : Done) : Sys := (memWrite 0x1E3 22 y.dev.doneAt (e.flatMap memWord) y).1

/-- The device once an entry stands in the ring at HEAD: the entries l still wait, and HEAD advances in a ring of n. -/
def Dev.entryDone (d : Dev) (l : List Done) (head n : Nat) : Dev :=
  let d1 : Dev := { d with cw := { d.cw with waiting := l } }
  let d2 := d1.wrN Reg.CW_DONE_HEAD ((head + 1) % n)
  if head = d2.n Reg.CW_DONE_TAIL then d2.raise 1490 else d2

theorem Dev.cw_entryDone (d : Dev) (l : List Done) (head n : Nat) : (d.entryDone l head n).cw = { d.cw with waiting := l } := by
  unfold Dev.entryDone
  dsimp only
  split <;> rfl

theorem Dev.rd_entryDone (d : Dev) (l : List Done) (head n : Nat) {j : Nat} (hev : j ≠ Reg.EV_SEQ 1490) :
    (d.entryDone l head n).rd j = if j = Reg.CW_DONE_HEAD then BitVec.ofNat 32 ((head + 1) % n) else d.rd j := by
  unfold Dev.entryDone
  extract_lets x d1 d2
  have h2 : d2.rd j = if j = Reg.CW_DONE_HEAD then BitVec.ofNat 32 ((head + 1) % n) else d.rd j := d1.rd_wrN j Reg.CW_DONE_HEAD _
  split
  · rw [Dev.rd_raise, if_neg hev, h2]
  · exact h2

/-- One round of the flush: nothing happens, or the oldest entry is written, or its write is refused and the ring holds. -/
theorem flushDone_succ (k : Nat) (y : Sys) :
    flushDone (k + 1) y = y ∨ ∃ e l, y.dev.cw.waiting = e :: l ∧
      (flushDone (k + 1) y = flushDone k
          ⟨(y.entryPut e).mem, (y.entryPut e).dev.entryDone l (y.dev.n Reg.CW_DONE_HEAD) (2 ^ y.dev.f Reg.CW_CTRL 0 4)⟩
        ∨ flushDone (k + 1) y
          = ⟨(y.entryPut e).mem, Dev.ringFault { (y.entryPut e).dev with cw := { (y.entryPut e).dev.cw with held := true } }⟩) := by
  rw [flushDone]
  split
  · exact .inl rfl
  next e l hwait =>
    split
    · exact .inl rfl
    · refine .inr ⟨e, l, hwait, ?_⟩
      dsimp only
      split
      · exact .inl rfl
      · exact .inr rfl

/-- The registers that writing a completion entry can change: HEAD, what the causeway shows, and those of an access to HBM. -/
def entryKeys : List Nat := [Reg.CW_DONE_HEAD, Reg.CW_STATUS, Reg.CW_GROUPS, Reg.EV_SEQ 1490] ++ hbmKeys 22

/-- The other registers. -/
def offEntry (j : Nat) : Prop := j ∉ entryKeys

/-- The one waiting entry e of a state has been written. -/
structure State.Flushes (t : State) (e : Done) (z : Sys) : Prop where
  mem : z.mem = t.mem.store t.doneAt (e.flatMap memWord)
  cw : z.dev.cw = { t.dev.cw with waiting := [] }
  head : z.dev.n Reg.CW_DONE_HEAD = (t.dev.n Reg.CW_DONE_HEAD + 1) % 2 ^ t.dev.f Reg.CW_CTRL 0 4
  rd : ∀ j, offEntry j → z.dev.rd j = t.dev.rd j
  status : ∀ m, 3 ≤ m → m < 32 → z.dev.on Reg.CW_STATUS m = t.dev.on Reg.CW_STATUS m

theorem State.flushes_flush {t : State} {e : Done} (hwait : t.dev.cw.waiting = [e]) (hheld : t.dev.cw.held = false)
    (hfull : t.dev.cwFull = false) (hwrite : t.writable 0x1E3 22 t.doneAt (e.flatMap memWord).length = true) :
    t.Flushes e (Sys.flush ⟨t.mem, t.dev⟩) := by
  obtain ⟨d, hd, -⟩ := memWrite_of_writable hwrite
  have hkeeps : t.dev.Keeps (offHbm 22) d := by
    have hany := keeps_memWrite_offHbm 0x1E3 22 t.doneAt (e.flatMap memWord) ⟨t.mem, t.dev⟩
    rwa [hd] at hany
  let d3 := d.entryDone [] (t.dev.n Reg.CW_DONE_HEAD) (2 ^ t.dev.f Reg.CW_CTRL 0 4)
  have hflush : Sys.flush ⟨t.mem, t.dev⟩ = ⟨t.mem.store t.doneAt (e.flatMap memWord), d3.showCw⟩ := by
    unfold State.doneAt at hd
    simp only [Sys.flush, hwait, List.length_singleton, flushDone, hheld, hfull, State.doneAt, hd]
    rfl
  have hrd3 {j : Nat} (hhead : j ≠ Reg.CW_DONE_HEAD) (hev : j ≠ Reg.EV_SEQ 1490) (hhbm : offHbm 22 j) : d3.rd j = t.dev.rd j :=
    (d.rd_entryDone _ _ _ hev).trans ((if_neg hhead).trans (hkeeps.rd hhbm))
  rw [hflush]
  refine ⟨rfl, ?_, ?_, fun j hj => ?_, fun m hlo hhi => ?_⟩
  · rw [Dev.cw_showCw, d.cw_entryDone]
    exact congrArg (fun x : CwSt => { x with waiting := [] }) hkeeps.cw
  · rw [Dev.n_congr (Dev.rd_showCw_ne _ (by decide) (by decide)), Dev.n, d.rd_entryDone _ _ _ (by decide), if_pos rfl, BitVec.toNat_ofNat]
    exact Nat.mod_eq_of_lt (mod_two_pow_fld_lt ..)
  · obtain ⟨⟨hhead, hstatus, hgroups, hev⟩, hhbm⟩ :
        (j ≠ Reg.CW_DONE_HEAD ∧ j ≠ Reg.CW_STATUS ∧ j ≠ Reg.CW_GROUPS ∧ j ≠ Reg.EV_SEQ 1490) ∧ offHbm 22 j := by
      simpa [offEntry, entryKeys, offHbm, and_assoc] using hj
    exact (Dev.rd_showCw_ne _ hstatus hgroups).trans (hrd3 hhead hev hhbm)
  · exact (Dev.on_status_showCw _ hlo hhi).trans (Dev.on_congr m (hrd3 (by decide) (by decide) (by unfold offHbm hbmKeys; decide)))

/-! ### A completion entry is made (R370) -/

/-- An entry joins those that wait, and a result of 0x10 or above of a command's own completion sets REFUSED. -/
def Dev.queueDone (d : Dev) (own : Bool) (result : Nat) (e : Done) : Dev :=
  let d1 : Dev := { d with cw := { d.cw with waiting := d.cw.waiting ++ [e] } }
  if own ∧ 0x10 ≤ result then d1.sqEvent Reg.CW_STATUS 6 1493 else d1

theorem Dev.cw_queueDone (d : Dev) (own : Bool) (result : Nat) (e : Done) :
    (d.queueDone own result e).cw = { d.cw with waiting := d.cw.waiting ++ [e] } := by
  unfold Dev.queueDone
  extract_lets x d1
  split
  · exact d1.cw_sqEvent ..
  · rfl

theorem Dev.rd_queueDone (d : Dev) (own : Bool) (result : Nat) (e : Done) {j : Nat} (hst : j ≠ Reg.CW_STATUS) (hev : j ≠ Reg.EV_SEQ 1493) :
    (d.queueDone own result e).rd j = d.rd j := by
  unfold Dev.queueDone
  extract_lets x d1
  split
  · exact d1.rd_sqEvent_ne 6 hst hev
  · rfl

theorem Dev.on_refused_queueDone (d : Dev) {result : Nat} (e : Done) (h : 0x10 ≤ result) : (d.queueDone true result e).on Reg.CW_STATUS 6 = true := by
  unfold Dev.queueDone
  rw [if_pos ⟨rfl, h⟩, Dev.on_sqEvent _ _ _ _ (by decide) (by decide) (by decide)]
  simp

/-- A completion is an entry of four words, the first as R370 lays it out, that waits and is then written. -/
theorem Sys.done_eq (y : Sys) (c : Cmd) (result : Nat) (own : Bool) (target slot group detail : Nat) (time : Option Word128) (digest : List Byte) :
    ∃ w1 w2 w3, y.done c result own target slot group detail time digest
      = Sys.flush ⟨y.mem, y.dev.queueDone own result [doneWord c result target slot group detail, w1, w2, w3]⟩ := ⟨_, _, _, rfl⟩

theorem length_bytesLE (n v : Nat) : (bytesLE n v).length = n := by
  induction n generalizing v with
  | zero => rfl
  | succ n ih => simp [bytesLE, ih]

theorem length_memWord (w : Word128) : (memWord w).length = 16 := length_bytesLE 16 _

/-! ### A command that ends with its completion (R366, R370) -/

/-- The registers of the rings: CTRL, the bases, and the heads and tails. -/
def ringKey (j : Nat) : Prop := 0x200004 ≤ j ∧ j < 0x200028

/-- The registers of the rings but for TAIL of the command ring. -/
def ringKeyNoTail (j : Nat) : Prop := ringKey j ∧ j ≠ Reg.CW_CMD_TAIL

/-- The command at TAIL has been taken, and the device d, which it has left, can take its completion entry. -/
structure State.Ready (s : State) (d : Dev) : Prop where
  bus : s.dev.SameBus ringKeyNoTail d
  tail : d.n Reg.CW_CMD_TAIL = (s.dev.n Reg.CW_CMD_TAIL + 1) % 2 ^ s.dev.f Reg.CW_CTRL 8 4
  waiting : d.cw.waiting = []
  held : d.cw.held = false
  full : s.dev.cwFull = false

theorem State.Takes.ready {s : State} {d : Dev} {c : Cmd} (h : s.Takes d) (hf : s.fetches c = true) : s.Ready d := by
  obtain ⟨-, hwait, hfull, hheld, -⟩ := State.fetches_iff.mp hf
  exact ⟨h.bus.mono fun j hj => ⟨hj.2, by have := hj.1.2; unfold Reg.PORT_BYTES; omega⟩, h.tail, (congrArg CwSt.waiting h.cw).trans hwait,
    (congrArg CwSt.held h.cw).trans hheld, hfull⟩

/-- It still can once the command has changed what the rings do not read. -/
theorem State.Ready.step {s : State} {d e : Dev} (h : s.Ready d) (hbus : d.SameBus ringKey e) (hwait : e.cw.waiting = d.cw.waiting)
    (hheld : e.cw.held = d.cw.held) : s.Ready e :=
  ⟨h.bus.trans (hbus.mono fun _ hj => hj.1), (Dev.n_congr (hbus.rd (by unfold ringKey; decide))).trans h.tail, hwait.trans h.waiting,
    hheld.trans h.held, h.full⟩

/-- A command whose device was d at its end has completed with the word w. -/
structure State.Ends (s : State) (d : Dev) (w : Word128) (z : Sys) : Prop where
  mem : ∃ l, l.length = 48 ∧ z.mem = s.mem.store s.doneAt (memWord w ++ l)
  cw : z.dev.cw = d.cw
  head : z.dev.n Reg.CW_DONE_HEAD = (s.dev.n Reg.CW_DONE_HEAD + 1) % 2 ^ s.dev.f Reg.CW_CTRL 0 4
  tail : z.dev.n Reg.CW_CMD_TAIL = (s.dev.n Reg.CW_CMD_TAIL + 1) % 2 ^ s.dev.f Reg.CW_CTRL 8 4
  ring : ∀ j, ringKeyNoTail j → j ≠ Reg.CW_DONE_HEAD → z.dev.rd j = s.dev.rd j

section Ends
variable {s : State} {d : Dev} {w : Word128} {z : Sys} {c : Cmd}

theorem Dev.cwFull_congr {d e : Dev} (hctrl : e.rd Reg.CW_CTRL = d.rd Reg.CW_CTRL) (hhead : e.rd Reg.CW_DONE_HEAD = d.rd Reg.CW_DONE_HEAD)
    (htail : e.rd Reg.CW_DONE_TAIL = d.rd Reg.CW_DONE_TAIL) : e.cwFull = d.cwFull := by
  unfold Dev.cwFull Dev.n Dev.f
  rw [hctrl, hhead, htail]

theorem not_ringKey_entryKeys : ∀ k ∈ entryKeys, k ≠ Reg.CW_DONE_HEAD → ¬ ringKey k := by
  unfold ringKey
  decide

theorem offEntry_of_ringKey {j : Nat} (h : ringKey j) (hhead : j ≠ Reg.CW_DONE_HEAD) : offEntry j :=
  fun hj => not_ringKey_entryKeys j hj hhead h

/-- The entry that a completion adds to a ready device is written at once. -/
theorem State.Ready.flushes (h : s.Ready d) (hwrite : s.writable 0x1E3 22 s.doneAt 64 = true) (own : Bool) (result : Nat) (w0 w1 w2 w3 : Word128) :
    State.Flushes { s with dev := d.queueDone own result [w0, w1, w2, w3] } [w0, w1, w2, w3]
        (Sys.flush ⟨s.mem, d.queueDone own result [w0, w1, w2, w3]⟩)
      ∧ State.doneAt { s with dev := d.queueDone own result [w0, w1, w2, w3] } = s.doneAt := by
  generalize he : [w0, w1, w2, w3] = e
  have hlen : (e.flatMap memWord).length = 64 := by
    subst he
    simp [length_memWord]
  have hcw := d.cw_queueDone own result e
  have hbus : d.SameBus ringKey (d.queueDone own result e) := by
    unfold Dev.queueDone
    extract_lets x d1
    have h1 : d.SameBus ringKey d1 := (Dev.SameBus.refl d).of_units rfl rfl rfl
    split
    · exact h1.sqEvent 6 (by unfold windowKey ringKey; decide) (by unfold windowKey ringKey; decide)
    · exact h1
  have hall : s.dev.SameBus ringKeyNoTail (d.queueDone own result e) := h.bus.trans (hbus.mono fun _ hj => hj.1)
  have hrd {j : Nat} (hj : ringKeyNoTail j) := hall.rd hj
  have hat : State.doneAt { s with dev := d.queueDone own result e } = s.doneAt := by
    unfold State.doneAt
    dsimp only
    rw [Dev.n64_congr (hrd (by unfold ringKeyNoTail ringKey; decide)) (hrd (by unfold ringKeyNoTail ringKey; decide)),
      Dev.n_congr (hrd (by unfold ringKeyNoTail ringKey; decide))]
  refine ⟨State.flushes_flush ?_ ?_ ?_ ?_, hat⟩
  · exact (congrArg CwSt.waiting hcw).trans (by rw [h.waiting]; rfl)
  · exact (congrArg CwSt.held hcw).trans h.held
  · exact (Dev.cwFull_congr (hrd (by unfold ringKeyNoTail ringKey; decide)) (hrd (by unfold ringKeyNoTail ringKey; decide))
      (hrd (by unfold ringKeyNoTail ringKey; decide))).trans h.full
  · rw [hlen, hat]
    exact (hall.writable (t := { s with dev := d.queueDone own result e }) 22 s.doneAt 64).trans hwrite

theorem State.Ready.done (h : s.Ready d) (hwrite : s.writable 0x1E3 22 s.doneAt 64 = true) (c : Cmd) (result : Nat) (own : Bool)
    (target slot group detail : Nat) (time : Option Word128) (digest : List Byte) :
    s.Ends d (doneWord c result target slot group detail) (Sys.done ⟨s.mem, d⟩ c result own target slot group detail time digest) := by
  obtain ⟨w1, w2, w3, hdone⟩ := Sys.done_eq ⟨s.mem, d⟩ c result own target slot group detail time digest
  obtain ⟨hflush, hat⟩ := h.flushes hwrite own result (doneWord c result target slot group detail) w1 w2 w3
  generalize he : [doneWord c result target slot group detail, w1, w2, w3] = e at hdone hflush hat
  have hoff {j : Nat} (hj : ringKey j) : (d.queueDone own result e).rd j = d.rd j :=
    d.rd_queueDone own result e (ne_of_named hj (by unfold ringKey; decide)) (ne_of_named hj (by unfold ringKey; decide))
  have hring {j : Nat} (hj : ringKeyNoTail j) : (d.queueDone own result e).rd j = s.dev.rd j := (hoff hj.1).trans (h.bus.rd hj)
  have hctrl : (d.queueDone own result e).f Reg.CW_CTRL 0 4 = s.dev.f Reg.CW_CTRL 0 4 :=
    congrArg (fld · 0 4) (hring (by unfold ringKeyNoTail ringKey; decide))
  rw [hdone]
  refine ⟨⟨memWord w1 ++ memWord w2 ++ memWord w3, by simp [length_memWord], ?_⟩, ?_, ?_, ?_, fun j hj hhead => ?_⟩
  · rw [hflush.mem, hat, ← he]
    simp
  · rw [hflush.cw]
    dsimp only
    rw [d.cw_queueDone, ← h.waiting]
  · rw [hflush.head]
    dsimp only
    rw [hctrl, Dev.n_congr (hring (by unfold ringKeyNoTail ringKey; decide))]
  · have htail := (hflush.rd Reg.CW_CMD_TAIL (offEntry_of_ringKey (by unfold ringKey; decide) (by decide))).trans (hoff (by unfold ringKey; decide))
    exact (Dev.n_congr htail).trans h.tail
  · exact (hflush.rd j (offEntry_of_ringKey hj.1 hhead)).trans (hring hj)

/-- A refusal shows in CW_STATUS (R382). -/
theorem State.Ready.on_refused_done (h : s.Ready d) (hwrite : s.writable 0x1E3 22 s.doneAt 64 = true) (c : Cmd) {result : Nat} (hr : 0x10 ≤ result)
    (target slot group detail : Nat) (time : Option Word128) (digest : List Byte) :
    (Sys.done ⟨s.mem, d⟩ c result true target slot group detail time digest).dev.on Reg.CW_STATUS 6 = true := by
  obtain ⟨w1, w2, w3, hdone⟩ := Sys.done_eq ⟨s.mem, d⟩ c result true target slot group detail time digest
  obtain ⟨hflush, -⟩ := h.flushes hwrite true result (doneWord c result target slot group detail) w1 w2 w3
  rw [hdone, hflush.status 6 (by decide) (by decide)]
  exact d.on_refused_queueDone _ hr

theorem State.Ends.on_showCw (h : s.Ends d w z) : s.Ends d w (z.on Dev.showCw) where
  mem := h.mem
  cw := (Dev.cw_showCw _).trans h.cw
  head := (Dev.n_congr (Dev.rd_showCw_ne _ (by decide) (by decide))).trans h.head
  tail := (Dev.n_congr (Dev.rd_showCw_ne _ (by decide) (by decide))).trans h.tail
  ring j hj hhead := (Dev.rd_showCw_ne _ (ne_of_named hj.1 (by unfold ringKey; decide)) (ne_of_named hj.1 (by unfold ringKey; decide))).trans
    (h.ring j hj hhead)

/-- Bytes stored from an address on begin with the first ones. -/
theorem Mem.bytes_store_append (m : Mem) (a : Nat) (l r : List Byte) : (m.store a (l ++ r)).bytes a l.length = l := by
  have hall := m.bytes_store a (l ++ r)
  have htake := (m.store a (l ++ r)).take_drop_bytes (a := a) (n := (l ++ r).length) (i := 0) (j := l.length) (by simp)
  rw [hall] at htake
  simpa using htake.symm

theorem State.Ends.entry (h : s.Ends d w z) : z.mem.bytes s.doneAt 16 = memWord w := by
  obtain ⟨l, -, hmem⟩ := h.mem
  have hbytes := s.mem.bytes_store_append s.doneAt (memWord w) l
  rwa [length_memWord, ← hmem] at hbytes

theorem State.Ends.completes (h : s.Ends d w z) : s.Completes { s with dev := z.dev, mem := z.mem } w := ⟨h.entry, h.head, h.tail⟩

theorem State.Ends.sameOutside (h : s.Ends d w z) : s.sameOutside { s with dev := z.dev, mem := z.mem } s.doneAt 64 := by
  obtain ⟨l, hlen, hmem⟩ := h.mem
  intro x hx
  refine (congrArg (Mem.byte · x) hmem).trans (s.mem.byte_store_out _ _ x ?_)
  rw [List.length_append, length_memWord, hlen]
  exact hx

/-- A command that is executed to its completion. -/
theorem State.onSys_done {f : Sys → Sys} {result target slot group detail : Nat} {own : Bool} {time : Option Word128} {digest : List Byte}
    (h : s.Ready d) (hwrite : s.writable 0x1E3 22 s.doneAt 64 = true)
    (hf : f ⟨s.mem, s.dev⟩ = (Sys.done ⟨s.mem, d⟩ c result own target slot group detail time digest).on Dev.showCw) :
    ∃ u, s.onSys f = .next u ∧ s.Completes u (doneWord c result target slot group detail) ∧ s.sameOutside u s.doneAt 64 ∧ u.dev.cw = d.cw
      ∧ (own = true → 0x10 ≤ result → u.dev.on Reg.CW_STATUS 6 = true) := by
  have hends := (h.done hwrite c result own target slot group detail time digest).on_showCw
  rw [← hf] at hends
  refine ⟨_, s.onSys_eq f, hends.completes, hends.sameOutside, hends.cw, fun hown hr => ?_⟩
  subst hown
  have hrefused := h.on_refused_done hwrite c hr target slot group detail time digest
  rw [hf]
  exact (Dev.on_status_showCw _ (by decide) (by decide)).trans hrefused

end Ends

end Sys2Proof.Machine
end

section
/-! SUPPORT. The commands of the causeway on setups, tables and images, and the proof of the statement about them. -/
namespace Sys2Proof.Machine

/-! ### What the checks of a command read -/

theorem Dev.setupBad_congr {d e : Dev} (h : e.tb = d.tb) (t : Nat) (ws : List Word128) : e.setupBad t ws = d.setupBad t ws := by
  unfold Dev.setupBad Dev.portBad Dev.refNum Dev.refDen
  rw [h]

theorem Dev.armed_congr {d e : Dev} (h : e.cw = d.cw) (t : Nat) : e.armed t = d.armed t := by
  unfold Dev.armed Dev.slotIn Dev.slot
  rw [h]

theorem Dev.inUse_congr {d e : Dev} (h : e.cw = d.cw) (code : Nat) : e.inUse code = d.inUse code := by
  unfold Dev.inUse
  simp only [Dev.force_congr h, Dev.armed_congr h]

theorem Dev.object_congr {d e : Dev} (h : e.cw = d.cw) (code : Nat) : e.object code = d.object code := by
  rw [Dev.object, Dev.object, h]

theorem Dev.storeList_congr {d e : Dev} (h : e.cw = d.cw) : e.storeList = d.storeList := by rw [Dev.storeList, Dev.storeList, h]

theorem Dev.slot_setSlot (d : Dev) (t k t' k' : Nat) (x : Slot) :
    (d.setSlot t k x).slot t' k' = if 16 * t' + k' = 16 * t + k then x else d.slot t' k' :=
  Tab.get_set (fun _ => ({} : Slot)) d.cw.slots (16 * t' + k') (16 * t + k) x

/-- The steps of a verifier read the keys, the slots they stand in and the rollback counters. -/
theorem Dev.verifyImage_congr {d e : Dev} (htrust : e.trust = d.trust) (hslots : e.rd Reg.KEY_SLOTS = d.rd Reg.KEY_SLOTS)
    (hctr : ∀ i, e.rd (Reg.RB_CTR i) = d.rd (Reg.RB_CTR i)) (kind : Nat) (h payload : List Byte) :
    e.verifyImage kind h payload = d.verifyImage kind h payload := by
  unfold Dev.verifyImage Dev.keyOk Dev.f Dev.on
  simp only [htrust, hslots, hctr]

theorem State.Takes.verifyImage {s : State} {d : Dev} (h : s.Takes d) (kind : Nat) (hd payload : List Byte) :
    d.verifyImage kind hd payload = s.dev.verifyImage kind hd payload :=
  Dev.verifyImage_congr h.trust (h.rd (by unfold offFetch; decide)) (fun i => h.rd (by unfold offFetch Reg.RB_CTR Reg.CW_CMD_TAIL Reg.PORT_BYTES; omega)) kind hd payload

/-! ### The commands, where their checks pass (R363 to R371) -/

section Commands
variable {c : Cmd} {y z : Sys} {t : Nat} {l : List Byte}

/-- A setup that passes its checks is HELD in its slot (R368). -/
theorem cwWriteCmd_held (ht : targetNum c.target = some t) (hcount : c.count = targetLen t) (haddr : c.addr % 16 = 0)
    (hst : (y.dev.slot t c.slot).st < 2) (hread : cwFetch c.addr (16 * c.count) y = (z, 0, l)) (hgood : lowest (z.dev.setupBad t (words128 l)) = none) :
    ∃ digest, cwWriteCmd c y = (z.on fun d => d.setSlot t c.slot { st := 1, words := words128 l }).done c 0 (digest := digest) := by
  unfold cwWriteCmd
  simp only [ht]
  rw [if_neg (not_not.mpr hcount), if_neg (not_not.mpr haddr), if_neg (Nat.not_le.mpr hst), hread]
  simp only [hgood]
  exact ⟨_, rfl⟩

/-- A setup that fails a check is refused with its lowest failing word (R371). -/
theorem cwWriteCmd_invalid {k : Nat} (ht : targetNum c.target = some t) (hcount : c.count = targetLen t) (haddr : c.addr % 16 = 0)
    (hst : (y.dev.slot t c.slot).st < 2) (hread : cwFetch c.addr (16 * c.count) y = (z, 0, l)) (hbad : lowest (z.dev.setupBad t (words128 l)) = some k) :
    cwWriteCmd c y = z.done c 0x13 (detail := k) := by
  unfold cwWriteCmd
  simp only [ht]
  rw [if_neg (not_not.mpr hcount), if_neg (not_not.mpr haddr), if_neg (Nat.not_le.mpr hst), hread]
  simp only [hbad]
  rfl

/-- CLEAR empties a slot that is neither ARMED nor IN_FORCE (R363). -/
theorem cwClearCmd_slot (ht : targetNum c.target = some t) (hst : (y.dev.slot t c.slot).st < 2) :
    cwClearCmd c y = (y.on fun d => d.setSlot t c.slot {}).done c 0 := by
  unfold cwClearCmd
  simp only [ht]
  rw [if_neg (Nat.not_le.mpr hst)]
  rfl

/-- A table without a failing rule has none in its header. -/
theorem tableBad_take_one {code : Nat} {ws : List Word128} (h : tableBad code ws = none) : tableBad code (ws.take 1) ≠ some 0 := by
  have hhead : wd (ws.take 1) 0 = wd ws 0 := by cases ws <;> rfl
  have hbody : (List.range (ws.take 1).length).drop 1 = [] :=
    List.drop_eq_nil_of_le (by rw [List.length_range, List.length_take]; exact Nat.min_le_left ..)
  unfold tableBad at h ⊢
  simp only [hhead, hbody, List.find?_nil] at h ⊢
  split_ifs at h ⊢ <;> simp

/-- TABLE_WRITE replaces a table that no setup in force or armed names (R365, R368). -/
theorem cwTableCmd_of_read (hkind : isTable c.target = true) (hslot : c.slot = 0) (haddr : c.addr % 16 = 0) (hfree : y.dev.inUse c.target = false)
    (hlo : 1 ≤ c.count) (hhi : c.count ≤ if c.target / 4096 = 8 then 16385 else 1025) (hread : cwFetch c.addr (16 * c.count) y = (z, 0, l))
    (hgood : tableBad c.target (words128 l) = none) (hlen : c.count = tableWords c.target (wd (words128 l) 0)) :
    ∃ digest, cwTableCmd c y
      = (z.on fun d => { d with cw := { d.cw with tables := d.cw.tables.set (fun _ => []) c.target (words128 l) } }).done c 0 (digest := digest) := by
  have hcount : ¬ (c.count = 0 ∨ (if c.target / 4096 = 8 then 16385 else 1025) < c.count) :=
    not_or.mpr ⟨Nat.one_le_iff_ne_zero.mp hlo, Nat.not_lt.mpr hhi⟩
  unfold cwTableCmd
  rw [hkind, if_neg (by decide), if_neg (not_not.mpr hslot), if_neg (not_not.mpr haddr), hfree, if_neg (by decide), if_neg hcount, hread]
  simp only [hgood]
  rw [if_neg (not_not.mpr rfl), if_neg (tableBad_take_one hgood), if_neg (not_not.mpr hlen)]
  exact ⟨_, rfl⟩

/-- The image words of a signed image (R364): those of its payload, most significant byte first. -/
def imagePayload (l : List Byte) : List Word128 := (chunks 16 (l.drop 256)).map fun b => BitVec.ofNat 128 (natBE b)

theorem nth_imagePayload (m : Mem) (a : Nat) {n k : Nat} (hk : k < n) :
    nth (imagePayload (m.bytes a (256 + 16 * n))) k 0 = BitVec.ofNat 128 (natBE (m.bytes (a + 256 + 16 * k) 16)) := by
  rw [imagePayload, m.drop_bytes, chunks_eq_map (by decide) (m.length_bytes (a + 256) (16 * n)), nth, List.getD_eq_getElem _ _ (by simpa using hk)]
  simp only [List.getElem_map, List.getElem_range]
  rw [m.take_drop_bytes (by omega)]

/-- The device that has recorded a failed verification of an image (R551). -/
def Dev.imageFailed (d : Dev) (h : List Byte) (step index : Nat) : Dev := ((d.lastFail h step index).setB Reg.TR_STATUS 7).event Reg.TR_STATUS 1497

/-- The device with another image store, as its registers show it (R381, R557). -/
def Dev.withImages (d : Dev) (images : Tab (List Word128)) : Dev := Dev.showStore { d with cw := { d.cw with images := images } }

section Image
variable (hkind : c.target / 4096 = 0xA) (hslot : c.slot = 0) (haddr : c.addr % 16 = 0) (hfree : y.dev.inUse c.target = false)
  (hlo : 2 ≤ c.count) (hhi : c.count ≤ 4097) (hread : cwFetch c.addr (256 + 16 * c.count) y = (z, 0, l))
  (hlen : hdrField (l.take 256) 12 4 = 16 * c.count) (hwords : imageWords (wd (imagePayload l) 0) = c.count)
include hkind hslot haddr hfree hlo hhi hread hlen hwords

/-- IMAGE_LOAD refuses an image that its signature check fails (R364). -/
theorem cwImageCmd_fails (hverify : z.dev.verifyImage 3 (l.take 256) (l.drop 256) ≠ 0) :
    cwImageCmd c y = (z.on fun d => d.imageFailed (l.take 256) (z.dev.verifyImage 3 (l.take 256) (l.drop 256)) (c.target % 4096)).done c 0x1C := by
  unfold cwImageCmd
  rw [if_neg (not_not.mpr hkind), if_neg (not_not.mpr hslot), if_neg (not_not.mpr haddr), hfree, if_neg (by decide), if_neg (by omega), hread]
  dsimp only
  rw [if_neg (not_not.mpr rfl), if_neg (by rw [not_or, not_not, not_not]; exact ⟨hlen, hwords⟩), if_pos hverify]
  rfl

/-- IMAGE_LOAD stores an image that passes it, where no other is stored (R364). -/
theorem cwImageCmd_stores (hverify : z.dev.verifyImage 3 (l.take 256) (l.drop 256) = 0) (hstore : z.dev.storeList = []) :
    ∃ digest, cwImageCmd c y = (z.on fun d => d.withImages (d.cw.images.set (fun _ => []) c.target (imagePayload l))).done c 0 (digest := digest) := by
  have hroom : ¬ 0x4000000 < (z.dev.storeList.filter fun e => e.1 ≠ c.target).foldl (fun a e => a + 16 * e.2.length) 0 + 16 * c.count := by
    rw [hstore]
    simp only [List.filter_nil, List.foldl_nil]
    omega
  unfold cwImageCmd
  rw [if_neg (not_not.mpr hkind), if_neg (not_not.mpr hslot), if_neg (not_not.mpr haddr), hfree, if_neg (by decide), if_neg (by omega), hread]
  dsimp only
  rw [if_neg (not_not.mpr rfl), if_neg (by rw [not_or, not_not, not_not]; exact ⟨hlen, hwords⟩), if_neg (not_not.mpr hverify), if_neg hroom]
  exact ⟨_, rfl⟩

end Image

/-- IMAGE_DROP removes an image that no setup in force or armed names (R365). -/
theorem cwDropCmd_free (hkind : c.target / 4096 = 0xA) (hslot : c.slot = 0) (hfree : y.dev.inUse c.target = false) :
    cwDropCmd c y = (y.on fun d => d.withImages (d.cw.images.erase c.target)).done c 0 := by
  unfold cwDropCmd
  rw [if_neg (not_not.mpr hkind), if_neg (not_not.mpr hslot), hfree, if_neg (by decide)]
  rfl

end Commands

/-! ### What the commands leave of the rings -/

theorem Dev.cw_foldl_wrN (key val : Nat → Nat) (l : List Nat) (d : Dev) : (l.foldl (fun d k => d.wrN (key k) (val k)) d).cw = d.cw :=
  (Dev.sameFlows_foldl_wrN key val l d).2

theorem Dev.cw_withImages (d : Dev) (images : Tab (List Word128)) : (d.withImages images).cw = { d.cw with images := images } := by
  unfold Dev.withImages Dev.showStore
  exact Dev.cw_foldl_wrN _ _ _ _

theorem Dev.sameBus_showStore (d : Dev) : d.SameBus ringKey d.showStore := by
  unfold Dev.showStore
  extract_lets store bytes d1 dig w
  have h1 : d.SameBus ringKey d1 := (Dev.SameBus.refl d).wr (k := Reg.CW_STORE) (by unfold windowKey ringKey; decide) _
  refine steps_foldl (R := Dev.SameBus ringKey) Dev.SameBus.trans h1 fun e i hi => (Dev.SameBus.refl e).wr ?_ _
  have hlt := List.mem_range.mp hi
  unfold windowKey ringKey Reg.STORE_DIGEST
  omega

theorem Dev.sameBus_withImages (d : Dev) (images : Tab (List Word128)) : d.SameBus ringKey (d.withImages images) :=
  ((Dev.SameBus.refl d).of_units (e := { d with cw := { d.cw with images := images } }) rfl rfl rfl).trans (Dev.sameBus_showStore _)

theorem State.Ready.withImages {s : State} {d : Dev} (h : s.Ready d) (images : Tab (List Word128)) : s.Ready (d.withImages images) :=
  h.step (d.sameBus_withImages images) (by rw [d.cw_withImages]) (by rw [d.cw_withImages])

theorem Dev.sameBus_imageFailed (d : Dev) (h : List Byte) (step index : Nat) : d.SameBus ringKey (d.imageFailed h step index) :=
  (((Dev.SameBus.refl d).wr (by unfold windowKey ringKey; decide) _).wr (by unfold windowKey ringKey; decide) _).event
    (by unfold windowKey ringKey; decide) (by unfold windowKey ringKey; decide)

theorem State.Ready.imageFailed {s : State} {d : Dev} (h : s.Ready d) (hd : List Byte) (step index : Nat) : s.Ready (d.imageFailed hd step index) :=
  h.step (d.sameBus_imageFailed hd step index) rfl rfl

/-! ### The commands from their fetch to their completion -/

section Exec
variable {s : State} {c : Cmd} (hf : s.fetches c = true) (hwrite : s.writable 0x1E3 22 s.doneAt 64 = true) (hbad : c.bad = false)
include hf hwrite hbad

section Setup
variable {t : Nat} (hop : c.op = 1) (ht : targetNum c.target = some t) (hcount : c.count = targetLen t) (haddr : c.addr % 16 = 0)
  (hst : (s.dev.slot t c.slot).st < 2) (hread : s.readable 0x1E3 22 c.addr (16 * c.count) = true)
include hop ht hcount haddr hst hread

theorem exec_cwWrite_held (hgood : s.dev.setupBad t (words128 (s.mem.bytes c.addr (16 * c.count))) = []) :
    ∃ u, exec .cwWrite s = .next u ∧ s.Completes u (doneWord c 0 c.target c.slot 0 0) ∧ s.sameOutside u s.doneAt 64
      ∧ u.dev.slot t c.slot = { st := 1, words := words128 (s.mem.bytes c.addr (16 * c.count)) }
      ∧ ∀ t' k, 16 * t' + k ≠ 16 * t + c.slot → u.dev.slot t' k = s.dev.slot t' k := by
  obtain ⟨d, hd, hrun⟩ := cwRun_of_fetches (mine := fun c => !c.bad && c.op == 1) cwWriteCmd hf hbad (by simp [hbad, hop])
  obtain ⟨e, he, hfetch⟩ := cwFetch_of_readable hd hread
  have hlow : lowest (e.setupBad t (words128 (s.mem.bytes c.addr (16 * c.count)))) = none := by
    rw [Dev.setupBad_congr he.bus.tb, hgood]
    rfl
  obtain ⟨digest, hcmd⟩ := cwWriteCmd_held (y := ⟨s.mem, d⟩) ht hcount haddr ((congrArg Slot.st (Dev.slot_congr hd.cw t c.slot)).trans_lt hst) hfetch hlow
  have hready : s.Ready (e.setSlot t c.slot { st := 1, words := words128 (s.mem.bytes c.addr (16 * c.count)) }) :=
    (he.ready hf).step ((Dev.SameBus.refl e).of_units rfl rfl rfl) rfl rfl
  obtain ⟨u, hu, hdone, hout, hcw, -⟩ := State.onSys_done hready hwrite (hrun.trans (congrArg (Sys.on · Dev.showCw) hcmd))
  have hslot (t' k : Nat) := (Dev.slot_congr hcw t' k).trans (e.slot_setSlot t c.slot t' k _)
  exact ⟨u, hu, hdone, hout, (hslot t c.slot).trans (if_pos rfl),
    fun t' k hne => ((hslot t' k).trans (if_neg hne)).trans (Dev.slot_congr he.cw t' k)⟩

theorem exec_cwWrite_invalid {k : Nat} (hlow : lowest (s.dev.setupBad t (words128 (s.mem.bytes c.addr (16 * c.count)))) = some k) :
    ∃ u, exec .cwWrite s = .next u ∧ s.Completes u (doneWord c 0x13 c.target c.slot 0 k) ∧ s.sameOutside u s.doneAt 64
      ∧ u.dev.cw.slots = s.dev.cw.slots ∧ u.dev.on Reg.CW_STATUS 6 = true := by
  obtain ⟨d, hd, hrun⟩ := cwRun_of_fetches (mine := fun c => !c.bad && c.op == 1) cwWriteCmd hf hbad (by simp [hbad, hop])
  obtain ⟨e, he, hfetch⟩ := cwFetch_of_readable hd hread
  rw [← Dev.setupBad_congr he.bus.tb] at hlow
  have hcmd := cwWriteCmd_invalid (y := ⟨s.mem, d⟩) ht hcount haddr ((congrArg Slot.st (Dev.slot_congr hd.cw t c.slot)).trans_lt hst) hfetch hlow
  obtain ⟨u, hu, hdone, hout, hcw, hrefused⟩ := State.onSys_done (he.ready hf) hwrite (hrun.trans (congrArg (Sys.on · Dev.showCw) hcmd))
  exact ⟨u, hu, hdone, hout, congrArg CwSt.slots (hcw.trans he.cw), hrefused rfl (by decide)⟩

end Setup

theorem exec_cwClear_slot {t : Nat} (hop : c.op = 3) (ht : targetNum c.target = some t) (hst : (s.dev.slot t c.slot).st < 2) :
    ∃ u, exec .cwClear s = .next u ∧ s.Completes u (doneWord c 0 c.target c.slot 0 0) ∧ s.sameOutside u s.doneAt 64 ∧ u.dev.slot t c.slot = {}
      ∧ ∀ t' k, 16 * t' + k ≠ 16 * t + c.slot → u.dev.slot t' k = s.dev.slot t' k := by
  obtain ⟨d, hd, hrun⟩ := cwRun_of_fetches (mine := fun c => !c.bad && c.op == 3) cwClearCmd hf hbad (by simp [hbad, hop])
  have hcmd := cwClearCmd_slot (y := ⟨s.mem, d⟩) ht ((congrArg Slot.st (Dev.slot_congr hd.cw t c.slot)).trans_lt hst)
  have hready : s.Ready (d.setSlot t c.slot {}) := (hd.ready hf).step ((Dev.SameBus.refl d).of_units rfl rfl rfl) rfl rfl
  obtain ⟨u, hu, hdone, hout, hcw, -⟩ := State.onSys_done hready hwrite (hrun.trans (congrArg (Sys.on · Dev.showCw) hcmd))
  have hslot (t' k : Nat) := (Dev.slot_congr hcw t' k).trans (d.slot_setSlot t c.slot t' k _)
  exact ⟨u, hu, hdone, hout, (hslot t c.slot).trans (if_pos rfl),
    fun t' k hne => ((hslot t' k).trans (if_neg hne)).trans (Dev.slot_congr hd.cw t' k)⟩

theorem exec_tableWrite_good (hop : c.op = 6) (hkind : isTable c.target = true) (hslot : c.slot = 0) (haddr : c.addr % 16 = 0)
    (hfree : s.dev.inUse c.target = false) (hlo : 1 ≤ c.count) (hhi : c.count ≤ if c.target / 4096 = 8 then 16385 else 1025)
    (hread : s.readable 0x1E3 22 c.addr (16 * c.count) = true) (hgood : tableBad c.target (words128 (s.mem.bytes c.addr (16 * c.count))) = none)
    (hlen : c.count = tableWords c.target (wd (words128 (s.mem.bytes c.addr (16 * c.count))) 0)) :
    ∃ u, exec .tableWrite s = .next u ∧ s.Completes u (doneWord c 0 c.target 0 0 0) ∧ s.sameOutside u s.doneAt 64
      ∧ u.dev.object c.target = words128 (s.mem.bytes c.addr (16 * c.count)) ∧ ∀ k, k ≠ c.target → u.dev.object k = s.dev.object k := by
  obtain ⟨d, hd, hrun⟩ := cwRun_of_fetches (mine := fun c => !c.bad && c.op == 6) cwTableCmd hf hbad (by simp [hbad, hop])
  obtain ⟨e, he, hfetch⟩ := cwFetch_of_readable hd hread
  obtain ⟨digest, hcmd⟩ := cwTableCmd_of_read (y := ⟨s.mem, d⟩) hkind hslot haddr ((Dev.inUse_congr hd.cw c.target).trans hfree) hlo hhi hfetch hgood hlen
  have hready := (he.ready hf).step
    (e := { e with cw := { e.cw with tables := e.cw.tables.set (fun _ => []) c.target (words128 (s.mem.bytes c.addr (16 * c.count))) } })
    ((Dev.SameBus.refl e).of_units rfl rfl rfl) rfl rfl
  obtain ⟨u, hu, hdone, hout, hcw, -⟩ := State.onSys_done hready hwrite (hrun.trans (congrArg (Sys.on · Dev.showCw) hcmd))
  rw [hslot] at hdone
  have hnot : ¬ c.target / 4096 = 0xA := fun h => by simp [isTable, h] at hkind
  refine ⟨u, hu, hdone, hout, ?_, fun k hk => ?_⟩
  · rw [Dev.object_congr hcw, Dev.object, if_neg hnot]
    exact Tab.get_set_self _ _ _ _
  · rw [Dev.object_congr hcw, ← Dev.object_congr he.cw, Dev.object, Dev.object]
    exact if_congr Iff.rfl rfl (Tab.get_set_ne _ _ _ hk)

theorem exec_imageLoad_good (hop : c.op = 7) (hkind : c.target / 4096 = 0xA) (hslot : c.slot = 0) (haddr : c.addr % 16 = 0)
    (hfree : s.dev.inUse c.target = false) (hlo : 2 ≤ c.count) (hhi : c.count ≤ 4097)
    (hread : s.readable 0x1E3 22 c.addr (256 + 16 * c.count) = true) (hstore : s.dev.storeList = [])
    (hlen : hdrField (s.mem.bytes c.addr 256) 12 4 = 16 * c.count)
    (hwords : imageWords (BitVec.ofNat 128 (natBE (s.mem.bytes (c.addr + 256) 16))) = c.count) :
    ∃ u, exec .imageLoad s = .next u ∧ s.sameOutside u s.doneAt 64
      ∧ (s.dev.verifyImage 3 (s.mem.bytes c.addr 256) (s.mem.bytes (c.addr + 256) (16 * c.count)) = 0 →
          s.Completes u (doneWord c 0 c.target 0 0 0)
          ∧ ∀ k, k < c.count → nth (u.dev.object c.target) k 0 = BitVec.ofNat 128 (natBE (s.mem.bytes (c.addr + 256 + 16 * k) 16)))
      ∧ (s.dev.verifyImage 3 (s.mem.bytes c.addr 256) (s.mem.bytes (c.addr + 256) (16 * c.count)) ≠ 0 →
          s.Completes u (doneWord c 0x1C c.target 0 0 0) ∧ u.dev.cw.images = s.dev.cw.images) := by
  obtain ⟨d, hd, hrun⟩ := cwRun_of_fetches (mine := fun c => !c.bad && c.op == 7) cwImageCmd hf hbad (by simp [hbad, hop])
  obtain ⟨e, he, hfetch⟩ := cwFetch_of_readable hd hread
  have hhead : (s.mem.bytes c.addr (256 + 16 * c.count)).take 256 = s.mem.bytes c.addr 256 := s.mem.take_bytes (by omega)
  have hbody := s.mem.drop_bytes c.addr 256 (16 * c.count)
  have hfree' := (Dev.inUse_congr hd.cw c.target).trans hfree
  have hlen' : hdrField ((s.mem.bytes c.addr (256 + 16 * c.count)).take 256) 12 4 = 16 * c.count := hhead ▸ hlen
  have hwords' : imageWords (wd (imagePayload (s.mem.bytes c.addr (256 + 16 * c.count))) 0) = c.count := by
    rw [wd, nth_imagePayload s.mem c.addr (by omega)]
    exact hwords
  have hverify := he.verifyImage 3 (s.mem.bytes c.addr 256) (s.mem.bytes (c.addr + 256) (16 * c.count))
  by_cases hok : s.dev.verifyImage 3 (s.mem.bytes c.addr 256) (s.mem.bytes (c.addr + 256) (16 * c.count)) = 0
  · obtain ⟨digest, hcmd⟩ := cwImageCmd_stores (y := ⟨s.mem, d⟩) hkind hslot haddr hfree' hlo hhi hfetch hlen' hwords'
      (by rw [hhead, hbody]; exact hverify.trans hok) ((Dev.storeList_congr he.cw).trans hstore)
    obtain ⟨u, hu, hdone, hout, hcw, -⟩ := State.onSys_done ((he.ready hf).withImages _) hwrite (hrun.trans (congrArg (Sys.on · Dev.showCw) hcmd))
    rw [hslot] at hdone
    refine ⟨u, hu, hout, fun _ => ⟨hdone, fun k hk => ?_⟩, fun hne => absurd hok hne⟩
    rw [Dev.object, if_pos hkind, hcw, e.cw_withImages, Tab.get_set_self]
    exact nth_imagePayload s.mem c.addr hk
  · have hcmd := cwImageCmd_fails (y := ⟨s.mem, d⟩) hkind hslot haddr hfree' hlo hhi hfetch hlen' hwords' (by rw [hhead, hbody]; exact hverify.trans_ne hok)
    obtain ⟨u, hu, hdone, hout, hcw, -⟩ := State.onSys_done ((he.ready hf).imageFailed _ _ _) hwrite (hrun.trans (congrArg (Sys.on · Dev.showCw) hcmd))
    rw [hslot] at hdone
    exact ⟨u, hu, hout, fun h0 => absurd h0 hok, fun _ => ⟨hdone, congrArg CwSt.images (hcw.trans he.cw)⟩⟩

theorem exec_imageDrop_free (hop : c.op = 8) (hkind : c.target / 4096 = 0xA) (hslot : c.slot = 0) (hfree : s.dev.inUse c.target = false) :
    ∃ u, exec .imageDrop s = .next u ∧ s.Completes u (doneWord c 0 c.target 0 0 0) ∧ s.sameOutside u s.doneAt 64
      ∧ u.dev.object c.target = [] ∧ ∀ k, k ≠ c.target → u.dev.object k = s.dev.object k := by
  obtain ⟨d, hd, hrun⟩ := cwRun_of_fetches (mine := fun c => !c.bad && c.op == 8) cwDropCmd hf hbad (by simp [hbad, hop])
  have hcmd := cwDropCmd_free (y := ⟨s.mem, d⟩) hkind hslot ((Dev.inUse_congr hd.cw c.target).trans hfree)
  obtain ⟨u, hu, hdone, hout, hcw, -⟩ := State.onSys_done ((hd.ready hf).withImages _) hwrite (hrun.trans (congrArg (Sys.on · Dev.showCw) hcmd))
  rw [hslot] at hdone
  have hall := hcw.trans (d.cw_withImages _)
  refine ⟨u, hu, hdone, hout, ?_, fun k hk => ?_⟩
  · rw [Dev.object, if_pos hkind, hall, Tab.get, Tab.find?_erase_self]
    rfl
  · rw [← Dev.object_congr hd.cw, Dev.object, Dev.object, hall]
    exact if_congr Iff.rfl (congrArg (fun x : Option (List Word128) => x.getD []) (Tab.find?_erase_ne _ hk)) rfl

end Exec

end Sys2Proof.Machine

namespace Sys2Proof
open Sys2Proof.Machine

/-- Settles O41, command by command: each is fetched, reads what it names, changes its object, and completes in the ring. -/
theorem causewayObjects : Obligations.CausewayObjects := by
  unfold Obligations.CausewayObjects
  exact ⟨fun s c t hf hwrite hbad => exec_cwWrite_held hf hwrite hbad, fun s c t k hf hwrite hbad hop ht hcount haddr hst hread => exec_cwWrite_invalid hf hwrite hbad hop ht hcount haddr hst hread,
    fun s c t hf hwrite hbad => exec_cwClear_slot hf hwrite hbad, fun s c hf hwrite hbad => exec_tableWrite_good hf hwrite hbad,
    fun s c hf hwrite hbad => exec_imageLoad_good hf hwrite hbad, fun s c hf hwrite hbad => exec_imageDrop_free hf hwrite hbad⟩

end Sys2Proof
end

section
/-! SUPPORT. What any completion entry leaves of setups and groups, groups that end, and the commit of a group. -/
namespace Sys2Proof.Machine

/-! ### Setups, groups and the count of switches stay while completion entries are written (R370) -/

/-- The slots, the armed groups and the count of switches are the same. -/
structure Dev.SameSwitching (d e : Dev) : Prop where
  slots : e.cw.slots = d.cw.slots
  groups : e.cw.groups = d.cw.groups
  switches : e.rd Reg.CW_SWITCHES = d.rd Reg.CW_SWITCHES

section SameSwitching
variable {a d e : Dev}

theorem Dev.SameSwitching.refl (d : Dev) : d.SameSwitching d := ⟨rfl, rfl, rfl⟩

theorem Dev.SameSwitching.trans (had : a.SameSwitching d) (hde : d.SameSwitching e) : a.SameSwitching e :=
  ⟨hde.slots.trans had.slots, hde.groups.trans had.groups, hde.switches.trans had.switches⟩

theorem Dev.SameSwitching.slot (h : d.SameSwitching e) (t k : Nat) : e.slot t k = d.slot t k := by rw [Dev.slot, Dev.slot, h.slots]

theorem Dev.SameSwitching.group? (h : d.SameSwitching e) (g : Nat) : e.group? g = d.group? g := by rw [Dev.group?, Dev.group?, h.groups]

theorem Dev.Keeps.sameSwitching (h : d.Keeps (offHbm 22) e) : d.SameSwitching e :=
  ⟨congrArg CwSt.slots h.cw, congrArg CwSt.groups h.cw, h.rd (by unfold offHbm hbmKeys; decide)⟩

theorem Dev.sameSwitching_wr (d : Dev) {k : Nat} (hk : Reg.CW_SWITCHES ≠ k) (v : Word) : d.SameSwitching (d.wr k v) := ⟨rfl, rfl, d.rd_wr_ne v hk⟩

theorem Dev.sameSwitching_sqEvent (d : Dev) (st b : Nat) {n : Nat} (hst : Reg.CW_SWITCHES ≠ st) (hev : Reg.CW_SWITCHES ≠ Reg.EV_SEQ n) :
    d.SameSwitching (d.sqEvent st b n) :=
  ⟨congrArg CwSt.slots (d.cw_sqEvent st b n), congrArg CwSt.groups (d.cw_sqEvent st b n), d.rd_sqEvent_ne b hst hev⟩

theorem Dev.sameSwitching_showCw (d : Dev) : d.SameSwitching d.showCw :=
  ⟨congrArg CwSt.slots d.cw_showCw, congrArg CwSt.groups d.cw_showCw, d.rd_showCw_ne (by decide) (by decide)⟩

theorem Dev.sameSwitching_ringFault (d : Dev) : d.SameSwitching d.ringFault :=
  ((d.sameSwitching_wr (k := Reg.CW_CTRL) (by decide) _).trans (Dev.sameSwitching_sqEvent _ _ _ (by decide) (by decide))).trans
    (Dev.sameSwitching_showCw _)

theorem Sys.sameSwitching_entryPut (y : Sys) (e : Done) : y.dev.SameSwitching (y.entryPut e).dev :=
  (keeps_memWrite_offHbm 0x1E3 22 _ _ y).sameSwitching

theorem Dev.sameSwitching_entryDone (d : Dev) (l : List Done) (head n : Nat) : d.SameSwitching (d.entryDone l head n) := by
  have hcw := d.cw_entryDone l head n
  exact ⟨by rw [hcw], by rw [hcw], (d.rd_entryDone l head n (by decide)).trans (if_neg (by decide))⟩

theorem Dev.sameSwitching_hold (d : Dev) : d.SameSwitching { d with cw := { d.cw with held := true } } := ⟨rfl, rfl, rfl⟩

theorem sameSwitching_flushDone (k : Nat) (y : Sys) : y.dev.SameSwitching (flushDone k y).dev := by
  induction k generalizing y with
  | zero => exact .refl _
  | succ k ih =>
    rcases flushDone_succ k y with h | ⟨e, l, -, h | h⟩ <;> rw [h]
    · exact .refl _
    · have hdone := (y.sameSwitching_entryPut e).trans (Dev.sameSwitching_entryDone _ l (y.dev.n Reg.CW_DONE_HEAD) (2 ^ y.dev.f Reg.CW_CTRL 0 4))
      exact hdone.trans (ih ⟨_, _⟩)
    · have hhold := (y.sameSwitching_entryPut e).trans (Dev.sameSwitching_hold _)
      exact hhold.trans (Dev.sameSwitching_ringFault _)

theorem Sys.sameSwitching_flush (y : Sys) : y.dev.SameSwitching y.flush.dev := (sameSwitching_flushDone _ y).trans (Dev.sameSwitching_showCw _)

/-- A completion entry leaves them alone, whether or not the ring can take it. -/
theorem Sys.sameSwitching_done (y : Sys) (c : Cmd) (result : Nat) (own : Bool) (target slot group detail : Nat) (time : Option Word128)
    (digest : List Byte) : y.dev.SameSwitching (y.done c result own target slot group detail time digest).dev := by
  obtain ⟨w1, w2, w3, hdone⟩ := y.done_eq c result own target slot group detail time digest
  generalize [doneWord c result target slot group detail, w1, w2, w3] = e at hdone
  have hcw := y.dev.cw_queueDone own result e
  have hqueue : y.dev.SameSwitching (y.dev.queueDone own result e) := ⟨by rw [hcw], by rw [hcw], Dev.rd_queueDone _ _ _ _ (by decide) (by decide)⟩
  rw [hdone]
  exact hqueue.trans (Sys.sameSwitching_flush ⟨y.mem, y.dev.queueDone own result e⟩)

end SameSwitching

/-! ### Where a completion entry is written (R370) -/

theorem Dev.doneAt_congr {d e : Dev} (h : d.SameOn ringKey e) : e.doneAt = d.doneAt := by
  unfold Dev.doneAt
  rw [Dev.n64_congr (h.2 _ (by unfold ringKey; decide)) (h.2 _ (by unfold ringKey; decide)), Dev.n_congr (h.2 _ (by unfold ringKey; decide))]

/-- The flush of one entry writes its place at most. -/
theorem Sys.byte_flush_out {y : Sys} {e : Done} (hwait : y.dev.cw.waiting = [e]) {b : Nat}
    (h : b < y.dev.doneAt ∨ y.dev.doneAt + (e.flatMap memWord).length ≤ b) : y.flush.mem.byte b = y.mem.byte b := by
  have hput : (y.entryPut e).mem.byte b = y.mem.byte b := byte_memWrite_out 0x1E3 22 y.dev.doneAt (e.flatMap memWord) y h
  unfold Sys.flush Sys.on
  rw [hwait, List.length_singleton]
  rcases flushDone_succ 0 y with hflush | ⟨e', l, hwait', hflush | hflush⟩
  · rw [hflush]
  all_goals
    obtain rfl : e = e' := by simpa using congrArg List.head? (hwait.symm.trans hwait')
    rw [hflush]
    exact hput

theorem Dev.sameOn_queueDone (d : Dev) (own : Bool) (result : Nat) (e : Done) : d.SameOn ringKey (d.queueDone own result e) := by
  unfold Dev.queueDone
  extract_lets x d1
  have h1 : d.SameOn ringKey d1 := (Dev.SameOn.refl d).of_regs rfl rfl
  exact Dev.SameOn.ite (h1.sqEvent 6 (by unfold ringKey; decide) (by unfold ringKey; decide)) h1

/-- So does a completion, where no entry waits. -/
theorem Sys.byte_done_out {y : Sys} (hwait : y.dev.cw.waiting = []) (c : Cmd) (result : Nat) (own : Bool) (target slot group detail : Nat)
    (time : Option Word128) (digest : List Byte) {b : Nat} (h : b < y.dev.doneAt ∨ y.dev.doneAt + 64 ≤ b) :
    (y.done c result own target slot group detail time digest).mem.byte b = y.mem.byte b := by
  obtain ⟨w1, w2, w3, hdone⟩ := y.done_eq c result own target slot group detail time digest
  have hat := Dev.doneAt_congr (y.dev.sameOn_queueDone own result [doneWord c result target slot group detail, w1, w2, w3])
  rw [hdone]
  refine Sys.byte_flush_out (e := [doneWord c result target slot group detail, w1, w2, w3]) ?_ ?_
  · dsimp only
    rw [Dev.cw_queueDone, hwait]
    rfl
  · dsimp only
    rw [hat]
    simpa [length_memWord] using h

/-! ### A group is abandoned (R375 to R377) -/

/-- The slot of a pair returns to HELD, if it is ARMED. -/
def Dev.releaseSlot (d : Dev) (p : Nat × Nat) : Dev :=
  let e := (if (d.slot p.1 p.2).st = 2 then d.setSlot p.1 p.2 { d.slot p.1 p.2 with st := 1 } else d).showTarget p.1
  if 54 ≤ p.1 ∧ p.1 < 62 then e.clrB (Reg.CL_STATUS (p.1 - 54)) 1 else e

theorem Dev.cw_releaseSlot (d : Dev) (p : Nat × Nat) :
    (d.releaseSlot p).cw = (if (d.slot p.1 p.2).st = 2 then d.setSlot p.1 p.2 { d.slot p.1 p.2 with st := 1 } else d).cw := by
  unfold Dev.releaseSlot
  dsimp only
  split <;> rfl

theorem Dev.waiting_releaseSlot (d : Dev) (p : Nat × Nat) : (d.releaseSlot p).cw.waiting = d.cw.waiting := by
  rw [d.cw_releaseSlot]
  split <;> rfl

theorem Dev.sameOn_releaseSlot (d : Dev) (p : Nat × Nat) : d.SameOn ringKey (d.releaseSlot p) := by
  have hset : d.SameOn ringKey (if (d.slot p.1 p.2).st = 2 then d.setSlot p.1 p.2 { d.slot p.1 p.2 with st := 1 } else d) :=
    Dev.SameOn.ite ((Dev.SameOn.refl d).of_regs rfl rfl) (.refl d)
  have hshow := hset.wr (k := Reg.TGT_STATE p.1) (by unfold ringKey Reg.TGT_STATE; omega)
  unfold Dev.releaseSlot
  extract_lets e
  split
  next hcl => exact (hshow _).wr (k := Reg.CL_STATUS (p.1 - 54)) (by unfold ringKey Reg.CL_STATUS; omega) _
  next => exact hshow _

/-- A slot that a pair names goes from ARMED to HELD; otherwise its state stays. -/
theorem Dev.st_releaseSlot (d : Dev) (p : Nat × Nat) (t k : Nat) :
    ((d.releaseSlot p).slot t k).st = if 16 * t + k = 16 * p.1 + p.2 ∧ (d.slot t k).st = 2 then 1 else (d.slot t k).st := by
  rw [Dev.slot_congr (d.cw_releaseSlot p)]
  by_cases hkey : 16 * t + k = 16 * p.1 + p.2
  · have hsame : d.slot p.1 p.2 = d.slot t k := by rw [Dev.slot, Dev.slot, hkey]
    rw [hsame]
    by_cases hst : (d.slot t k).st = 2
    · rw [if_pos hst, Dev.slot_setSlot, if_pos hkey, if_pos ⟨hkey, hst⟩]
    · rw [if_neg hst, if_neg (c := _ ∧ _) fun h => hst h.2]
  · rw [if_neg (c := _ ∧ _) fun h => hkey h.1]
    split
    · rw [Dev.slot_setSlot, if_neg hkey]
    · rfl

theorem Dev.st_foldl_releaseSlot_of_held (l : List (Nat × Nat)) (d : Dev) {t k : Nat} (h : (d.slot t k).st = 1) :
    ((l.foldl Dev.releaseSlot d).slot t k).st = 1 := by
  induction l generalizing d with
  | nil => exact h
  | cons p l ih => exact ih _ (by rw [Dev.st_releaseSlot, if_neg (by omega), h])

theorem Dev.st_foldl_releaseSlot {l : List (Nat × Nat)} (d : Dev) {p : Nat × Nat} (hp : p ∈ l) (h : (d.slot p.1 p.2).st = 2) :
    ((l.foldl Dev.releaseSlot d).slot p.1 p.2).st = 1 := by
  induction l generalizing d with
  | nil => cases hp
  | cons q l ih =>
    rw [List.foldl_cons]
    have hstep := d.st_releaseSlot q p.1 p.2
    by_cases hkey : 16 * p.1 + p.2 = 16 * q.1 + q.2
    · rw [if_pos ⟨hkey, h⟩] at hstep
      exact Dev.st_foldl_releaseSlot_of_held l _ hstep
    · rw [if_neg fun hq => hkey hq.1, h] at hstep
      exact ih _ ((List.mem_cons.mp hp).resolve_left fun hpq => hkey (by rw [hpq])) hstep

theorem Sys.mem_on (y : Sys) (f : Dev → Dev) : (y.on f).mem = y.mem := rfl

/-- The device whose group has left it, its slots HELD again. -/
def Dev.released (d : Dev) (x : Grp) : Dev := (x.pairs.foldl Dev.releaseSlot d).dropGroup x.num

theorem abandonGroup_eq (x : Grp) (result : Nat) (y : Sys) :
    abandonGroup x result y
      = if result = 0x18 ∨ result = 0x19 then
          (Sys.done ⟨y.mem, y.dev.released x⟩ x.command result (own := false) (group := x.num)).on fun d => d.sqEvent Reg.CW_STATUS 5 1492
        else Sys.done ⟨y.mem, y.dev.released x⟩ x.command result (own := false) (group := x.num) := rfl

theorem Dev.group?_dropGroup (d : Dev) (g : Nat) : (d.dropGroup g).group? g = none := by
  refine List.find?_eq_none.mpr fun x hx => ?_
  simpa using (List.mem_filter.mp hx).2

theorem Dev.sameOn_released (d : Dev) (x : Grp) : d.SameOn ringKey (d.released x) :=
  ((Dev.SameOn.refl d).foldl fun d p _ => d.sameOn_releaseSlot p).of_regs rfl rfl

theorem Dev.waiting_released (d : Dev) (x : Grp) : (d.released x).cw.waiting = d.cw.waiting :=
  view_foldl (v := fun d => d.cw.waiting) d fun d p _ => d.waiting_releaseSlot p

section Abandon
variable (x : Grp) (result : Nat) (y : Sys)

theorem sameSwitching_abandonGroup : (y.dev.released x).SameSwitching (abandonGroup x result y).dev := by
  rw [abandonGroup_eq]
  have hdone := Sys.sameSwitching_done ⟨y.mem, y.dev.released x⟩ x.command result false x.command.target x.command.slot x.num 0 none []
  split
  · exact hdone.trans (Dev.sameSwitching_sqEvent _ _ _ (by decide) (by decide))
  · exact hdone

theorem group?_abandonGroup : (abandonGroup x result y).dev.group? x.num = none :=
  ((sameSwitching_abandonGroup x result y).group? x.num).trans (Dev.group?_dropGroup _ _)

theorem st_abandonGroup : ∀ p ∈ x.pairs, (y.dev.slot p.1 p.2).st = 2 → ((abandonGroup x result y).dev.slot p.1 p.2).st = 1 :=
  fun p hp h => (congrArg Slot.st ((sameSwitching_abandonGroup x result y).slot p.1 p.2)).trans (Dev.st_foldl_releaseSlot y.dev hp h)

/-- A group that ends LATE or with TIMEOUT sets LATE (R382). -/
theorem on_late_abandonGroup (h : result = 0x18 ∨ result = 0x19) : (abandonGroup x result y).dev.on Reg.CW_STATUS 5 = true := by
  rw [abandonGroup_eq, if_pos h]
  exact (Dev.on_sqEvent _ _ _ _ (by decide) (by decide) (by decide)).trans (by simp)

/-- Its final completion goes to the next place in the ring. -/
theorem byte_abandonGroup_out (hwait : y.dev.cw.waiting = []) {b : Nat} (h : b < y.dev.doneAt ∨ y.dev.doneAt + 64 ≤ b) :
    (abandonGroup x result y).mem.byte b = y.mem.byte b := by
  rw [← Dev.doneAt_congr (y.dev.sameOn_released x)] at h
  have hdone := Sys.byte_done_out (y := ⟨y.mem, y.dev.released x⟩) ((y.dev.waiting_released x).trans hwait) x.command result false
    x.command.target x.command.slot x.num 0 none [] h
  rw [abandonGroup_eq]
  split
  · rw [Sys.mem_on]
    exact hdone
  · exact hdone

end Abandon

end Sys2Proof.Machine
end

section
/-! SUPPORT. Armed groups from their acknowledgements to the completed switch, and a first switch of a flow ring. -/
namespace Sys2Proof.Machine

/-! ### Groups (R374, R375) -/

theorem Dev.of_group? {d : Dev} {g : Nat} {x : Grp} (h : d.group? g = some x) : x ∈ d.cw.groups ∧ x.num = g :=
  ⟨List.mem_of_find?_eq_some h, by simpa using List.find?_some h⟩

/-- A group that changes is in its place again. -/
theorem Dev.mem_groups_setGrp {d : Dev} {x y : Grp} (hx : x ∈ d.cw.groups) (hnum : x.num = y.num) : y ∈ (d.setGrp y).cw.groups :=
  List.mem_map.mpr ⟨x, hx, if_pos hnum⟩

theorem Dev.cw_loadShadows (d : Dev) (c : Nat) (new : List Word128) : (d.loadShadows c new).cw = d.cw := by
  unfold Dev.loadShadows
  refine view_foldl (v := Dev.cw) d fun d i _ => ?_
  dsimp only
  split <;> rfl

theorem exec_targetAck (s : State) (t : Fin 64) (x : Grp)
    (h : s.dev.cw.groups.find? (fun g => g.pairs.any (fun p => p.1 = t.val) && !(g.acked.contains t.val)) = some x) :
    ∃ u, exec (.targetAck t) s = .next u ∧ { x with acked := x.acked ++ [t.val] } ∈ u.dev.cw.groups ∧ u.dev.cw.slots = s.dev.cw.slots ∧ u.mem = s.mem := by
  let d : Dev := if 54 ≤ t.val ∧ t.val < 62 then s.dev.loadShadows (t - 54) (s.dev.armed t) else s.dev
  have hcw : d.cw = s.dev.cw := by
    unfold d
    split
    · exact s.dev.cw_loadShadows _ _
    · rfl
  have hack : targetAck t s.dev = d.setGrp { x with acked := x.acked ++ [t.val] } := by
    unfold targetAck
    rw [h]
  refine ⟨_, s.onDev_eq (targetAck t), ?_⟩
  dsimp only
  rw [hack]
  exact ⟨Dev.mem_groups_setGrp (x := x) (hcw ▸ List.mem_of_find?_eq_some h) rfl, (congrArg CwSt.slots hcw :), rfl⟩

section Decision
variable (s : State) (g : Nat) (x : Grp) (hx : s.dev.group? g = some x)
include hx

/-- A group that has acknowledged is committed at its decision edge (R374). -/
theorem exec_decisionEdge_ready (hopen : x.decided = false) (htime : x.time ≤ s.dev.now + nsUnits 200) (hready : x.ready = true) :
    ∃ u, exec (.decisionEdge g) s = .next u ∧ { x with committed := true, edge := s.dev.tb.edges, teff := x.time } ∈ u.dev.cw.groups
      ∧ u.mem = s.mem ∧ ∀ j, u.dev.rd j = s.dev.rd j := by
  have hrun : decisionEdge g ⟨s.mem, s.dev⟩ = ⟨s.mem, s.dev.commitGroup x x.time⟩ := by
    unfold decisionEdge
    simp only [hx, hopen, Nat.not_lt.mpr htime, hready]
    rfl
  refine ⟨_, s.onSys_eq (decisionEdge g), ?_⟩
  dsimp only
  rw [hrun]
  exact ⟨Dev.mem_groups_setGrp (Dev.of_group? hx).1 rfl, rfl, fun _ => rfl⟩

/-- One that has not, and may be late, is late (R375). -/
theorem exec_decisionEdge_late (hopen : x.decided = false) (htime : x.time ≤ s.dev.now + nsUnits 200) (hready : x.ready = false)
    (hlate : x.postpone = true) :
    ∃ u, exec (.decisionEdge g) s = .next u ∧ { x with late := true } ∈ u.dev.cw.groups ∧ u.mem = s.mem ∧ ∀ j, u.dev.rd j = s.dev.rd j := by
  have hrun : decisionEdge g ⟨s.mem, s.dev⟩ = ⟨s.mem, s.dev.setGrp { x with late := true }⟩ := by
    unfold decisionEdge
    simp only [hx, hopen, Nat.not_lt.mpr htime, hready, hlate]
    rfl
  refine ⟨_, s.onSys_eq (decisionEdge g), ?_⟩
  dsimp only
  rw [hrun]
  exact ⟨Dev.mem_groups_setGrp (Dev.of_group? hx).1 rfl, rfl, fun _ => rfl⟩

/-- A group that is abandoned LATE or with TIMEOUT is gone, and its slots are HELD (R375). -/
theorem onSys_abandonGroup {f : Sys → Sys} {result : Nat} (hresult : result = 0x18 ∨ result = 0x19)
    (hrun : f ⟨s.mem, s.dev⟩ = abandonGroup x result ⟨s.mem, s.dev⟩) :
    ∃ u, s.onSys f = .next u ∧ u.dev.group? g = none ∧ u.dev.on Reg.CW_STATUS 5 = true
      ∧ ∀ p ∈ x.pairs, (s.dev.slot p.1 p.2).st = 2 → (u.dev.slot p.1 p.2).st = 1 := by
  refine ⟨_, s.onSys_eq f, ?_⟩
  dsimp only
  rw [hrun, ← (Dev.of_group? hx).2]
  exact ⟨group?_abandonGroup x result _, on_late_abandonGroup x result _ hresult, st_abandonGroup x result ⟨s.mem, s.dev⟩⟩

/-- One that may not be late is abandoned (R375). -/
theorem exec_decisionEdge_abandon (hopen : x.decided = false) (htime : x.time ≤ s.dev.now + nsUnits 200) (hready : x.ready = false)
    (hlate : x.postpone = false) :
    ∃ u, exec (.decisionEdge g) s = .next u ∧ u.dev.group? g = none ∧ u.dev.on Reg.CW_STATUS 5 = true
      ∧ ∀ p ∈ x.pairs, (s.dev.slot p.1 p.2).st = 2 → (u.dev.slot p.1 p.2).st = 1 := by
  refine onSys_abandonGroup s g x hx (result := 0x18) (.inl rfl) ?_
  unfold decisionEdge
  simp only [hx, hopen, Nat.not_lt.mpr htime, hready, hlate]
  rfl

/-- A late group is committed once its targets have acknowledged (R375). -/
theorem exec_lateCommit_ready (hlate : x.late = true) (hopen : x.committed = false) (hready : x.ready = true) :
    ∃ u, exec (.lateCommit g) s = .next u
      ∧ { x with committed := true, edge := s.dev.tb.edges, teff := s.dev.now + nsUnits 200 } ∈ u.dev.cw.groups
      ∧ u.mem = s.mem ∧ ∀ j, u.dev.rd j = s.dev.rd j := by
  have hrun : lateCommit g s.dev = s.dev.commitGroup x (s.dev.now + nsUnits 200) := by
    unfold lateCommit
    simp only [hx, hlate, hopen, hready]
    rfl
  refine ⟨_, s.onDev_eq (lateCommit g), ?_⟩
  dsimp only
  rw [hrun]
  exact ⟨Dev.mem_groups_setGrp (Dev.of_group? hx).1 rfl, rfl, fun _ => rfl⟩

/-- One whose targets have not within LATE_LIMIT times out (R375). -/
theorem exec_lateLimitExpire_abandon (hlate : x.late = true) (hopen : x.committed = false) (hready : x.ready = false)
    (hlimit : elapsedNs x.time s.dev.now (max 1 (s.dev.f Reg.CW_LATE_LIMIT 0 16) * 1000000) = true) :
    ∃ u, exec (.lateLimitExpire g) s = .next u ∧ u.dev.group? g = none ∧ u.dev.on Reg.CW_STATUS 5 = true
      ∧ ∀ p ∈ x.pairs, (s.dev.slot p.1 p.2).st = 2 → (u.dev.slot p.1 p.2).st = 1 := by
  refine onSys_abandonGroup s g x hx (result := 0x19) (.inr rfl) ?_
  unfold lateLimit
  simp only [hx, hlate, hopen, hready, hlimit]
  rfl

/-- The strobe of a commit comes 16 periods after its edge (R374). -/
theorem exec_commitStrobe_due (hcommit : x.committed = true) (hopen : x.strobed = false) (hedge : x.edge + 16 ≤ s.dev.tb.edges) :
    ∃ u, exec (.commitStrobe g) s = .next u ∧ { x with strobed := true } ∈ u.dev.cw.groups ∧ u.mem = s.mem ∧ ∀ j, u.dev.rd j = s.dev.rd j := by
  have hrun : commitStrobe g s.dev = s.dev.setGrp { x with strobed := true } := by
    unfold commitStrobe
    simp only [hx, hcommit, hopen, hedge]
    rfl
  refine ⟨_, s.onDev_eq (commitStrobe g), ?_⟩
  dsimp only
  rw [hrun]
  exact ⟨Dev.mem_groups_setGrp (Dev.of_group? hx).1 rfl, rfl, fun _ => rfl⟩

end Decision

/-! ### The switch completes (R374, R382) -/

/-- The device whose switched group has left it: the count of switches advances, and CW_SDIGEST shows the device setup digest. -/
def Dev.switched (d : Dev) (g : Nat) : Dev :=
  let e := (d.dropGroup g).add Reg.CW_SWITCHES 1
  (List.range 8).foldl (fun d i => d.wrN (Reg.CW_SDIGEST i) (nth (digestWords e.deviceDigest) i 0)) e

theorem Dev.cw_switched (d : Dev) (g : Nat) : (d.switched g).cw = (d.dropGroup g).cw := Dev.cw_foldl_wrN _ _ _ _

theorem Dev.n_switches_switched (d : Dev) (g : Nat) : (d.switched g).n Reg.CW_SWITCHES = (d.n Reg.CW_SWITCHES + 1) % 2 ^ 32 := by
  unfold Dev.switched
  dsimp only
  rw [Dev.n_congr (Dev.rd_foldl_wrN_ne Reg.CW_SDIGEST _ _ _ fun k _ => by unfold Reg.CW_SWITCHES Reg.CW_SDIGEST; omega)]
  exact Dev.n_add_self (d.dropGroup g) Reg.CW_SWITCHES 1

/-- SWITCHED sets; LATE too, where the group was late (R382). -/
def Dev.switchShown (d : Dev) : Bool → Dev
  | false => d.sqEvent Reg.CW_STATUS 4 1491
  | true => (d.sqEvent Reg.CW_STATUS 4 1491).sqEvent Reg.CW_STATUS 5 1492

theorem Dev.sameSwitching_switchShown (d : Dev) (late : Bool) : d.SameSwitching (d.switchShown late) := by
  have h4 : d.SameSwitching (d.sqEvent Reg.CW_STATUS 4 1491) := d.sameSwitching_sqEvent _ _ (by decide) (by decide)
  cases late
  · exact h4
  · exact h4.trans (Dev.sameSwitching_sqEvent _ _ _ (by decide) (by decide))

theorem Dev.on_switched_switchShown (d : Dev) (late : Bool) : (d.switchShown late).on Reg.CW_STATUS 4 = true := by
  have h4 : (d.sqEvent Reg.CW_STATUS 4 1491).on Reg.CW_STATUS 4 = true :=
    (d.on_sqEvent _ _ _ (by decide) (by decide) (by decide)).trans (by simp)
  cases late
  · exact h4
  · exact (Dev.on_sqEvent _ _ _ _ (by decide) (by decide) (by decide)).trans (by simp [h4])

theorem Sys.on_on (y : Sys) (f h : Dev → Dev) : (y.on f).on h = y.on fun d => h (f d) := rfl

theorem switchComplete_of_passed {y : Sys} {g : Nat} {x : Grp} (hx : y.dev.group? g = some x) (hstrobe : x.strobed = true)
    (hpassed : ∀ p ∈ x.pairs, p.1 ∈ x.passed) :
    ∃ result time digest, switchComplete g y
      = (Sys.done ⟨y.mem, y.dev.switched g⟩ x.command result (own := false) (group := g) (time := time) (digest := digest)).on
          fun d => d.switchShown x.late := by
  have hgo : ¬ ((!x.strobed) = true ∨ (x.pairs.any fun p => !(x.passed.contains p.1)) = true) := by
    simpa [hstrobe] using hpassed
  refine ⟨if x.late then 0x03 else 0x02, some ((y.dev.switched g).timeWord 4 false x.teff), ((y.dev.dropGroup g).add Reg.CW_SWITCHES 1).deviceDigest, ?_⟩
  unfold switchComplete
  simp only [hx, Dev.switched]
  rw [if_neg hgo]
  cases x.late
  · exact if_neg Bool.false_ne_true
  · rw [if_pos rfl, Sys.on_on]
    rfl

theorem exec_switchComplete_passed (s : State) (g : Nat) (x : Grp) (hx : s.dev.group? g = some x) (hstrobe : x.strobed = true)
    (hpassed : ∀ p ∈ x.pairs, p.1 ∈ x.passed) :
    ∃ u, exec (.switchComplete g) s = .next u ∧ u.dev.group? g = none ∧ u.dev.n Reg.CW_SWITCHES = (s.dev.n Reg.CW_SWITCHES + 1) % 2 ^ 32
      ∧ u.dev.on Reg.CW_STATUS 4 = true ∧ u.dev.cw.slots = s.dev.cw.slots := by
  obtain ⟨result, time, digest, hrun⟩ := switchComplete_of_passed (y := ⟨s.mem, s.dev⟩) hx hstrobe hpassed
  have hcw := s.dev.cw_switched g
  have hsame := (Sys.sameSwitching_done ⟨s.mem, s.dev.switched g⟩ x.command result false x.command.target x.command.slot g 0 time digest).trans
    (Dev.sameSwitching_switchShown _ x.late)
  refine ⟨_, s.onSys_eq (switchComplete g), ?_⟩
  dsimp only
  rw [hrun]
  refine ⟨(hsame.group? g).trans ?_, (Dev.n_congr hsame.switches).trans (s.dev.n_switches_switched g), Dev.on_switched_switchShown _ x.late,
    hsame.slots.trans (congrArg CwSt.slots hcw :)⟩
  rw [Dev.group?, hcw]
  exact s.dev.group?_dropGroup g

/-! ### FLOW_SWITCH_BOUNDARY (R374, R470) -/

theorem Dev.flow_setFlow (d : Dev) (p f f' : Nat) (x : FlowSt) : (d.setFlow p f x).flow p f' = if f' = f then x else d.flow p f' := by
  simp only [Dev.flow, Dev.setFlow, Dev.soSt_setSo, if_true]
  exact Tab.get_set (α := FlowSt) _ _ f' f x

/-- Each flow set from its number reads as set. -/
theorem Dev.flow_foldl_setFlow (p : Nat) (x : Nat → FlowSt) (l : List Nat) (d : Dev) (f : Nat) :
    (l.foldl (fun d f => d.setFlow p f (x f)) d).flow p f = if f ∈ l then x f else d.flow p f := by
  induction l generalizing d with
  | nil => rfl
  | cons k l ih =>
    rw [List.foldl_cons, ih, Dev.flow_setFlow]
    by_cases hl : f ∈ l <;> by_cases hk : f = k <;> simp [hl, hk]

/-- A flow as it starts under a setup whose words are ws, from the origin w (R473). -/
def flowStart (p : Nat) (ws : List Word128) (w : Word128) (f : Nat) : FlowSt :=
  if bit (flowA ws f) 127 then { origin := w, head := if bit (flowA ws f) 46 then chainStart p f w else [] } else {}

/-- No flow is enabled without a setup. -/
theorem bit_flowA_nil (f : Nat) : bit (flowA [] f) 127 = false := by simp [flowA, wd, nth, bit]

theorem flowSwitch_first {p : Nat} {y : Sys} {g : Grp} {k : Nat} (hdue : y.dev.dueGroup (62 + p) = some (g, k))
    (hnone : y.dev.slotIn (62 + p) 3 = none) (htime : g.teff ≤ y.dev.now) (hitems : ∀ f, f < 256 → (y.dev.flow p f).items = []) :
    flowSwitch p y = { y with dev :=
      ((List.range 256).foldl (fun d f => d.setFlow p f (flowStart p (y.dev.slot (62 + p) k).words
          (((y.dev.firstTaken (62 + p) g k).showTarget (62 + p)).timeWord 4 false g.teff) f))
        ((y.dev.firstTaken (62 + p) g k).showTarget (62 + p))).showFlow p } := by
  have hempty : ((List.range 256).any fun f => !(y.dev.flow p f).items.isEmpty) = false := by simpa using hitems
  have htouched (ws : List Word128) : touchedFlows [] ws = List.range 256 := if_pos (.inl rfl)
  unfold flowSwitch
  simp only [Dev.takeSwitch_first hdue hnone, bit_flowA_nil, htouched, hempty, Bool.false_eq_true, List.filter_false, List.map_nil, List.filter_nil,
    List.all_nil, Nat.not_lt.mpr htime, decide_false, Bool.not_true, Bool.or_false, if_false, List.isEmpty_nil, List.foldl_nil]
  rfl

theorem Dev.timeWord_congr {d e : Dev} (hfl : e.rd Reg.FL_STATUS = d.rd Reg.FL_STATUS) (htb : e.rd Reg.TB_STATUS = d.rd Reg.TB_STATUS)
    (cls : Nat) (interp : Bool) (t : Nat) : e.timeWord cls interp t = d.timeWord cls interp t := by
  unfold Dev.timeWord Dev.derated Dev.on
  rw [hfl, htb]

theorem exec_flowSwitchBoundary_first (s : State) (p : Fin 2) (g : Grp) (k : Nat) (hdue : s.dev.dueGroup (62 + p) = some (g, k)) (hk : k < 16)
    (hnone : s.dev.slotIn (62 + p) 3 = none) (htime : g.teff ≤ s.dev.now) (hitems : ∀ f, f < 256 → (s.dev.flow p f).items = []) :
    ∃ u, exec (.flowSwitchBoundary p) s = .next u ∧ u.dev.force (62 + p) = (s.dev.slot (62 + p) k).words
      ∧ u.dev.swOf (62 + p) = (s.dev.swOf (62 + p) + 1) % 2 ^ 28 ∧ u.mem = s.mem
      ∧ ∀ f : Fin 256, bit (flowA (s.dev.slot (62 + p) k).words f) 127 = true →
          (u.dev.flow p f).origin = s.dev.timeWord 4 false g.teff ∧ (u.dev.flow p f).pkt = 0 := by
  have hrun := flowSwitch_first (y := ⟨s.mem, s.dev⟩) hdue hnone htime hitems
  generalize hd : (s.dev.firstTaken (62 + p) g k).showTarget (62 + p) = d at hrun
  generalize hx : flowStart p (s.dev.slot (62 + p) k).words (d.timeWord 4 false g.teff) = x at hrun
  generalize hl : List.range 256 = l at hrun
  have hshow := Dev.sameFlows_showFlow (l.foldl (fun d f => d.setFlow p f (x f)) d) p
  have hflows : (l.foldl (fun d f => d.setFlow p f (x f)) d).cw = d.cw := view_foldl (v := Dev.cw) d fun _ _ _ => rfl
  have hcw := hflows.trans (show d.cw = (s.dev.firstTaken (62 + p) g k).cw from hd ▸ rfl)
  have htarget {j : Nat} (hj : j ≠ Reg.TGT_STATE (62 + p)) : d.rd j = s.dev.rd j := hd ▸ (s.dev.firstTaken (62 + p) g k).rd_wr_ne _ hj
  have hword : d.timeWord 4 false g.teff = s.dev.timeWord 4 false g.teff :=
    Dev.timeWord_congr (htarget (by unfold Reg.FL_STATUS Reg.TGT_STATE; omega)) (htarget (by unfold Reg.TB_STATUS Reg.TGT_STATE; omega)) ..
  refine ⟨_, s.onSys_eq (flowSwitch p), ?_⟩
  dsimp only
  rw [hrun]
  refine ⟨(Dev.force_congr (hshow.2.trans hcw) _).trans (Dev.force_firstTaken hk hnone g),
    (Dev.swOf_congr (hshow.2.trans hcw) _).trans (Dev.swOf_firstTaken s.dev (62 + p) k g), rfl, fun f hen => ?_⟩
  rw [hshow.flow, Dev.flow_foldl_setFlow, if_pos (hl ▸ List.mem_range.mpr f.isLt), ← hx, flowStart, if_pos hen]
  exact ⟨hword, rfl⟩

end Sys2Proof.Machine
end

section
/-! SUPPORT. CW_ARM and CW_CANCEL, and the proof of the statement about switching. -/
namespace Sys2Proof.Machine

/-! ### What the checks of an ARM read (R372) -/

section Checks
variable {d e : Dev}

theorem Dev.related_congr (h : e.cw = d.cw) (grp : List (Nat × List Word128)) (t : Nat) : e.related grp t = d.related grp t := by
  unfold Dev.related
  rw [Dev.force_congr h, Dev.armed_congr h]

theorem Dev.laneFits_congr (hcw : e.cw = d.cw) (htb : e.tb = d.tb) (hflat : ∀ g, e.rd (Reg.DET_STATUS g) = d.rd (Reg.DET_STATUS g)) (l : Nat)
    (ws pw : List Word128) : e.laneFits l ws pw = d.laneFits l ws pw := by
  unfold Dev.laneFits Dev.flatLoaded Dev.on Dev.refNum Dev.refDen
  simp only [Dev.object_congr hcw, htb, hflat]

theorem Dev.setupFits_congr (hcw : e.cw = d.cw) (htb : e.tb = d.tb) (hflat : ∀ g, e.rd (Reg.DET_STATUS g) = d.rd (Reg.DET_STATUS g))
    (grp : List (Nat × List Word128)) (t : Nat) (ws : List Word128) : e.setupFits grp t ws = d.setupFits grp t ws := by
  unfold Dev.setupFits Dev.now
  simp only [Dev.related_congr hcw, Dev.laneFits_congr hcw htb hflat, Dev.object_congr hcw, htb]

theorem Dev.domUp_congr (hpw : e.pw = d.pw) (hstate : e.rd Reg.PD_STATE = d.rd Reg.PD_STATE) (dom : Nat) : e.domUp dom = d.domUp dom := by
  unfold Dev.domUp Dev.on
  rw [hpw, hstate]

end Checks

theorem targetNum_lt {code t : Nat} (h : targetNum code = some t) : t < 64 := by
  unfold targetNum at h
  dsimp only at h
  split_ifs at h <;> simp only [Option.some.injEq] at h <;> omega

theorem pairTarget_lt {w t : Nat} (h : pairTarget w = some t) : t < 64 := by
  unfold pairTarget at h
  split at h
  · cases h
  · exact targetNum_lt h

/-! ### ARM (R372, R373) -/

/-- The group of one pair that a command arms. -/
def armedGroup (c : Cmd) (num t k : Nat) : Grp :=
  { num := num, tag := fld c.w0 0 64, pairs := [(t, k)], time := ofShort c.time, postpone := c.postpone, cmd := c.w0 }

/-- The device that has armed the slot k of target t as a group. -/
def Dev.armPair (d : Dev) (c : Cmd) (t k : Nat) : Dev :=
  let g := d.cw.next % 256
  let e := ((d.setSlot t k { d.slot t k with st := 2 }).wrF (Reg.TGT_STATE t) 0 8 g).showTarget t
  { e with cw := { e.cw with groups := e.cw.groups ++ [armedGroup c g t k], next := (g + 1) % 256 } }

section ArmPair
variable (d : Dev) (c : Cmd) (t k : Nat)

theorem Dev.slot_armPair : (d.armPair c t k).slot t k = { d.slot t k with st := 2 } := by
  have hset : (d.armPair c t k).slot t k = (d.setSlot t k { d.slot t k with st := 2 }).slot t k := rfl
  rw [hset, Dev.slot_setSlot, if_pos rfl]

theorem Dev.next_armPair : (d.armPair c t k).cw.next = (d.cw.next % 256 + 1) % 256 := rfl

theorem Dev.groups_armPair : (d.armPair c t k).cw.groups = d.cw.groups ++ [armedGroup c (d.cw.next % 256) t k] := rfl

end ArmPair

theorem Dev.sameBus_armPair (d : Dev) (c : Cmd) {t : Nat} (ht : t < 64) (k : Nat) : d.SameBus ringKey (d.armPair c t k) := by
  have hkey : ¬ (windowKey (Reg.TGT_STATE t) ∨ ringKey (Reg.TGT_STATE t)) := by
    unfold windowKey ringKey Reg.TGT_STATE
    omega
  have hset : d.SameBus ringKey (d.setSlot t k { d.slot t k with st := 2 }) := (Dev.SameBus.refl d).of_units rfl rfl rfl
  exact ((hset.wr hkey _).wr hkey _).of_units rfl rfl rfl

theorem cwArmCmd_one {c : Cmd} {y z : Sys} {l : List Byte} {w t : Nat} (hone : c.count = 1) (haddr : c.addr % 16 = 0)
    (hread : cwFetch c.addr (4 * c.count) y = (z, 0, l)) (hw : (chunks 4 l).map natLE = [w]) (ht : pairTarget w = some t)
    (hst : (z.dev.slot t (w % 16)).st = 1) (hfree : z.dev.slotIn t 2 = none) (hdom : z.dev.domUp (cwArmCmd.targetDomain t) = true)
    (hroom : z.dev.cw.groups.length < 16) (hgood : z.dev.setupBad t (z.dev.slot t (w % 16)).words = [])
    (hfits : z.dev.setupFits [(t, (z.dev.slot t (w % 16)).words)] t (z.dev.slot t (w % 16)).words = true) :
    ∃ digest, cwArmCmd c y = Sys.done ⟨z.mem, z.dev.armPair c t (w % 16)⟩ c 0x01 (group := z.dev.cw.next % 256) (digest := digest) := by
  refine ⟨shake256 32 (z.dev.setupDigest t (z.dev.slot t (w % 16)).words ++ []), ?_⟩
  unfold cwArmCmd
  rw [if_neg (by omega), if_neg (not_not.mpr haddr), hread]
  simp only [hw, ht, hst, hfree, hdom, hgood, hfits, if_neg (Nat.not_le.mpr hroom), nth, ne_eq, not_true_eq_false, one_ne_zero, Nat.not_ofNat_le_one,
    decide_false, Bool.or_false, Bool.not_true, Bool.false_eq_true, if_false, Option.isNone_some, Option.isSome_none, Option.getD_some,
    List.length_singleton, List.range_one, List.find?_singleton, List.getD_cons_zero, List.take_zero, List.any_nil, List.isEmpty_nil, List.map_cons,
    List.map_nil, List.flatMap_cons, List.flatMap_nil, List.foldl_cons, List.foldl_nil]
  rfl

section Exec
variable {s : State} {c : Cmd} (hf : s.fetches c = true) (hwrite : s.writable 0x1E3 22 s.doneAt 64 = true) (hbad : c.bad = false)
include hf hwrite hbad

theorem exec_cwArm_one {t w : Nat} (hop : c.op = 4) (hone : c.count = 1) (haddr : c.addr % 16 = 0) (hread : s.readable 0x1E3 22 c.addr 4 = true)
    (hw : natLE (s.mem.bytes c.addr 4) = w) (ht : pairTarget w = some t) (hst : (s.dev.slot t (w % 16)).st = 1) (hfree : s.dev.slotIn t 2 = none)
    (hdom : s.dev.domUp (cwArmCmd.targetDomain t) = true) (hroom : s.dev.cw.groups.length < 16)
    (hgood : s.dev.setupBad t (s.dev.slot t (w % 16)).words = [])
    (hfits : s.dev.setupFits [(t, (s.dev.slot t (w % 16)).words)] t (s.dev.slot t (w % 16)).words = true) :
    ∃ u, exec .cwArm s = .next u ∧ s.Completes u (doneWord c 1 c.target c.slot (s.dev.cw.next % 256) 0) ∧ s.sameOutside u s.doneAt 64
      ∧ u.dev.slot t (w % 16) = { s.dev.slot t (w % 16) with st := 2 } ∧ u.dev.cw.next = (s.dev.cw.next % 256 + 1) % 256
      ∧ ∃ g, u.dev.cw.groups = s.dev.cw.groups ++ [g] ∧ g.num = s.dev.cw.next % 256 ∧ g.pairs = [(t, w % 16)] ∧ g.time = ofShort c.time
          ∧ g.postpone = c.postpone ∧ g.acked = [] ∧ g.committed = false ∧ g.late = false := by
  obtain ⟨d, hd, hrun⟩ := cwRun_of_fetches (mine := fun c => !c.bad && c.op == 4) cwArmCmd hf hbad (by simp [hbad, hop])
  obtain ⟨e, he, hfetch⟩ := cwFetch_of_readable hd hread
  have hslot := Dev.slot_congr he.cw t (w % 16)
  have hflat (g : Nat) : e.rd (Reg.DET_STATUS g) = s.dev.rd (Reg.DET_STATUS g) :=
    he.rd (by unfold offFetch Reg.DET_STATUS Reg.CW_CMD_TAIL Reg.PORT_BYTES; omega)
  have hpairs : (chunks 4 (s.mem.bytes c.addr 4)).map natLE = [w] := by
    rw [chunks_eq_map (k := 1) (by decide) (s.mem.length_bytes c.addr 4), ← hw]
    simp [s.mem.take_bytes]
  have hdom' := (Dev.domUp_congr he.pw (he.rd (by unfold offFetch; decide)) (cwArmCmd.targetDomain t)).trans hdom
  rw [← hslot] at hst hgood hfits
  rw [← Dev.setupBad_congr he.bus.tb] at hgood
  rw [← Dev.setupFits_congr he.cw he.bus.tb hflat] at hfits
  have hfetch' : cwFetch c.addr (4 * c.count) ⟨s.mem, d⟩ = (⟨s.mem, e⟩, 0, s.mem.bytes c.addr 4) := by rw [hone, Nat.mul_one, hfetch]
  have hfree' := (Dev.slotIn_congr he.cw t 2).trans hfree
  have hroom' : e.cw.groups.length < 16 := by rw [he.cw]; exact hroom
  obtain ⟨digest, hcmd⟩ := cwArmCmd_one (c := c) (y := ⟨s.mem, d⟩) (z := ⟨s.mem, e⟩) (l := s.mem.bytes c.addr 4) (w := w) (t := t) hone haddr hfetch'
    hpairs ht hst hfree' hdom' hroom' hgood hfits
  have hready : s.Ready (e.armPair c t (w % 16)) := (he.ready hf).step (e.sameBus_armPair c (pairTarget_lt ht) (w % 16)) rfl rfl
  obtain ⟨u, hu, hdone, hout, hcw, -⟩ := State.onSys_done hready hwrite (hrun.trans (congrArg (Sys.on · Dev.showCw) hcmd))
  have hnext : e.cw.next = s.dev.cw.next := congrArg CwSt.next he.cw
  have hgroups : e.cw.groups = s.dev.cw.groups := congrArg CwSt.groups he.cw
  rw [hnext] at hdone
  refine ⟨u, hu, hdone, hout, ?_, ?_, armedGroup c (s.dev.cw.next % 256) t (w % 16), ?_, rfl, rfl, rfl, rfl, rfl, rfl, rfl⟩
  · rw [Dev.slot_congr hcw, Dev.slot_armPair, hslot]
  · rw [hcw, Dev.next_armPair, hnext]
  · rw [hcw, Dev.groups_armPair, hnext, hgroups]

/-! ### CANCEL (R376) -/

omit hf hwrite hbad in
theorem cwCancelCmd_open {y : Sys} {x : Grp} (hx : y.dev.group? c.time = some x) (hopen : x.decided = false) :
    cwCancelCmd c y = abandonGroup x 0x04 (y.done c 0x04 (group := c.time)) := by
  unfold cwCancelCmd
  simp only [hx, hopen, Bool.false_eq_true, if_false]

omit hwrite hbad in
/-- The place of the next entry is another one, where the ring has room. -/
theorem State.doneAt_ne_next :
    s.dev.n Reg.CW_DONE_HEAD ≠ (s.dev.n Reg.CW_DONE_HEAD + 1) % 2 ^ s.dev.f Reg.CW_CTRL 0 4 := by
  obtain ⟨-, -, hfull, -⟩ := State.fetches_iff.mp hf
  intro hsame
  generalize hn : 2 ^ s.dev.f Reg.CW_CTRL 0 4 = n at hsame
  have hpos : 0 < n := hn ▸ Nat.two_pow_pos _
  have hone : n ≠ 1 := by
    rintro rfl
    simp [Dev.cwFull, hn, Nat.mod_one] at hfull
  have hlt : s.dev.n Reg.CW_DONE_HEAD < n := hsame ▸ Nat.mod_lt _ hpos
  rcases Nat.lt_or_ge (s.dev.n Reg.CW_DONE_HEAD + 1) n with h | h
  · rw [Nat.mod_eq_of_lt h] at hsame
    omega
  · rw [show s.dev.n Reg.CW_DONE_HEAD + 1 = n by omega, Nat.mod_self] at hsame
    omega

theorem exec_cwCancel_open {x : Grp} (hop : c.op = 5) (hx : s.dev.group? c.time = some x) (hopen : x.decided = false) :
    ∃ u, exec .cwCancel s = .next u ∧ u.dev.group? c.time = none ∧ u.mem.bytes s.doneAt 16 = memWord (doneWord c 4 c.target c.slot c.time 0)
      ∧ ∀ p ∈ x.pairs, (s.dev.slot p.1 p.2).st = 2 → (u.dev.slot p.1 p.2).st = 1 := by
  obtain ⟨d, hd, hrun⟩ := cwRun_of_fetches (mine := fun c => !c.bad && c.op == 5) cwCancelCmd hf hbad (by simp [hbad, hop])
  have hends := (hd.ready hf).done hwrite c 0x04 true c.target c.slot c.time 0 none []
  generalize hz : Sys.done ⟨s.mem, d⟩ c 0x04 true c.target c.slot c.time 0 none [] = z at hends
  have hzcw : z.dev.cw = s.dev.cw := hends.cw.trans hd.cw
  have hwait : z.dev.cw.waiting = [] := (congrArg CwSt.waiting hends.cw).trans (hd.ready hf).waiting
  have hcmd : cwCancelCmd c ⟨s.mem, d⟩ = abandonGroup x 0x04 z := by
    rw [cwCancelCmd_open (y := ⟨s.mem, d⟩) (by rw [Dev.group?, hd.cw]; exact hx) hopen, hz]
  rw [hcmd] at hrun
  have hbase : z.dev.n64 Reg.CW_DONE_BASE_LO Reg.CW_DONE_BASE_HI = s.dev.n64 Reg.CW_DONE_BASE_LO Reg.CW_DONE_BASE_HI :=
    Dev.n64_congr (hends.ring _ (by unfold ringKeyNoTail ringKey; decide) (by decide)) (hends.ring _ (by unfold ringKeyNoTail ringKey; decide) (by decide))
  have hgone := group?_abandonGroup x 0x04 z
  have hslots := st_abandonGroup x 0x04 z
  have hbytes : ∀ k ∈ List.range 16, (abandonGroup x 0x04 z).mem.byte (s.doneAt + k) = z.mem.byte (s.doneAt + k) := fun k hk => by
    have hlt := List.mem_range.mp hk
    have hne := State.doneAt_ne_next hf
    refine byte_abandonGroup_out x 0x04 z hwait ?_
    rw [← hends.head] at hne
    rw [s.doneAt_eq]
    unfold Dev.doneAt
    omega
  generalize abandonGroup x 0x04 z = a at hrun hgone hslots hbytes
  have hshow := Dev.sameSwitching_showCw a.dev
  refine ⟨_, s.onSys_eq _, ?_, ?_, fun p hp hst => ?_⟩
  all_goals
    dsimp only
    rw [hrun]
  · rw [← (Dev.of_group? hx).2]
    exact (hshow.group? x.num).trans hgone
  · rw [Sys.mem_on]
    exact (List.map_congr_left hbytes).trans hends.entry
  · exact (congrArg Slot.st (hshow.slot p.1 p.2)).trans (hslots p hp ((congrArg Slot.st (Dev.slot_congr hzcw p.1 p.2)).trans hst))

end Exec

end Sys2Proof.Machine

namespace Sys2Proof
open Sys2Proof.Machine

/-- Settles O42: ARM and CANCEL from their fetch to their completion, a group from its acknowledgements to its commit or its end, and a first switch. -/
theorem causewaySwitching : Obligations.CausewaySwitching := by
  unfold Obligations.CausewaySwitching
  exact ⟨fun s c t w hf hwrite hbad => exec_cwArm_one hf hwrite hbad, fun s c x hf hwrite hbad => exec_cwCancel_open hf hwrite hbad, exec_targetAck,
    exec_decisionEdge_ready, exec_decisionEdge_late, exec_decisionEdge_abandon, exec_lateCommit_ready, exec_lateLimitExpire_abandon,
    exec_commitStrobe_due, exec_switchComplete_passed, exec_flowSwitchBoundary_first⟩

end Sys2Proof
end
